-- ==== Sys2Proof/Word.lean ====
section
/-! DEFINITION. The word types of the module and their plainest arithmetic (R10, R11, R13). -/

namespace Sys2Proof

/-- A 64-bit register or address word (R13). -/
abbrev Word := BitVec 64

/-- One byte of memory (R10). -/
abbrev Byte := BitVec 8

/-- A list of bytes in memory order, lowest address first. -/
abbrev Bytes := List Byte

/-- The number a little-endian byte string spells (R11). -/
def leNat : Bytes → Nat
  | [] => 0
  | b :: bs => b.toNat + 256 * leNat bs

/-- The `n` little-endian bytes of a number (R11). -/
def natLE : Nat → Nat → Bytes
  | 0, _ => []
  | n + 1, v => BitVec.ofNat 8 v :: natLE n (v / 256)

/-- The number a byte string spells, most significant byte first (R11, the Ehrant fields). -/
def beNat (bs : Bytes) : Nat := leNat bs.reverse

/-- The `n` bytes of a number, most significant byte first (R11, the Ehrant fields). -/
def natBE (n v : Nat) : Bytes := (natLE n v).reverse

/-- The bit field `[hi:lo]` of a number. -/
def natField (v hi lo : Nat) : Nat := v / 2 ^ lo % 2 ^ (hi + 1 - lo)

/-- Round a quotient of naturals up. -/
def cdiv (a b : Nat) : Nat := (a + b - 1) / b

/-- The exponent of the smallest power of two that is not below `n` (0 for 0 and 1). -/
def clog2 (n : Nat) : Nat := if n ≤ 1 then 0 else (n - 1).log2 + 1

/-- The number of a U16 field at byte offset `o` of a structure (R10, R11). -/
def u8At (bs : Bytes) (o : Nat) : Nat := (bs.getD o 0).toNat
def u16At (bs : Bytes) (o : Nat) : Nat := leNat ((bs.drop o).take 2)
def u24At (bs : Bytes) (o : Nat) : Nat := leNat ((bs.drop o).take 3)
def u32At (bs : Bytes) (o : Nat) : Nat := leNat ((bs.drop o).take 4)
def u40At (bs : Bytes) (o : Nat) : Nat := leNat ((bs.drop o).take 5)
def u64At (bs : Bytes) (o : Nat) : Nat := leNat ((bs.drop o).take 8)

/-- A signed 8-bit field. -/
def i8At (bs : Bytes) (o : Nat) : Int := (bs.getD o 0).toInt

/-- A signed 16-bit field. -/
def i16At (bs : Bytes) (o : Nat) : Int := (BitVec.ofNat 16 (u16At bs o)).toInt

/-- Whether every byte of the span `[o, o + n)` is zero (the "Reserved, 0" spans). -/
def zeroSpan (bs : Bytes) (o n : Nat) : Bool := ((bs.drop o).take n).all (· == 0)

end Sys2Proof
end

