-- ==== Sys2Proof/Syntax.lean ====
section
/-! DEFINITION. The commands of the block: one constructor of `Instr` for each row of the table of operations and
events, with the records their operands carry. -/

namespace Sys2Proof

/-- Privilege of a RISC-V hart (R118, R247, R371). -/
inductive Priv | u | s | m
deriving DecidableEq, Repr

/-- The requester of an access: it decides the partition and the rights (R367, R371, R372). -/
inductive Agent
  /-- Server core `c` (R264 numbering) in privilege `pr`. -/
  | core (c : Fin 128) (pr : Priv)
  /-- Spindle core `k` of engine `e`. -/
  | spindle (e : Fin 32) (k : Fin 4) (pr : Priv)
  /-- A context slot of an engine: its movers, feeders, drains and vector unit. -/
  | engine (e : Fin 32) (n : Fin 16)
  /-- A hub unit that acts for partition `p` (R367). -/
  | hubUnit (p : Fin 16)
  /-- Hub firmware. -/
  | hubFw
  /-- The object dictionary. -/
  | dict
  /-- The guest die (R356). -/
  | guest
  /-- The migration engine, which alone reaches the spread region directly (R189, R368). -/
  | migration
  /-- The checkpoint writer (R368). -/
  | ckptWriter
  /-- The scrubber of R370 (R368). -/
  | scrubber
  /-- A debug module's system bus (R451, R452). -/
  | debugger (dm : Fin 10)
  /-- A peer, on a local connection (R328). -/
  | peer (conn : BitVec 16)
deriving DecidableEq, Repr

/-- A spool: engine, context slot, spool index. -/
structure SpoolId where
  e : Fin 32
  n : Fin 16
  s : Fin 4
deriving DecidableEq, Repr

/-- A Spindle core: engine and core index. -/
structure CoreId where
  e : Fin 32
  k : Fin 4
deriving DecidableEq, Repr

/-- How an MMIO register is accessed: whole, one 32-bit half, or a width or alignment that R447 refuses. -/
inductive RegAccess | w64 | lo32 | hi32 | bad
deriving DecidableEq, Repr

/-- What the error codes report of a line read (R388, R390): an event of the memory device. -/
inductive EccResult | ok | corrected (conn : Option (Fin 168)) | uncorrectable | pathParity | pathParityAddr
deriving DecidableEq, Repr

/-- The parity of a message checked before it is put into flits (R350, R390): sound, wrong in the data of some lines, or wrong in a
header field. -/
inductive PathParity | ok | data (lines : BitVec 4) | field
deriving DecidableEq, Repr

/-- What a controller does with a refresh (R225): the one that falls due is issued or, where it may, postponed; one is pulled in. -/
inductive RefAct | issue | postpone | pullIn
deriving DecidableEq, Repr

/-- A bank and what its controller does with the refresh (R225). -/
structure BankRef where
  bank : Fin 16
  act  : RefAct
deriving DecidableEq, Repr

/-- The end of a repair of a die, and what the reads of its copy met: the lines of its target, with the ECC outcome of each (R228). -/
structure RepairEnd where
  die   : Fin 8
  reads : List (Nat × EccResult)
deriving DecidableEq, Repr

/-- What the rebuild of the mapping finds in the blocks that were open (R237, R239): the logical pages whose newest page fails its
CRC, and those of them that are lower pages whose first pass had completed. -/
structure CutPages where
  cut       : List Nat
  lowerHeld : List Nat
deriving DecidableEq, Repr

/-- The atomic operations (R280). -/
inductive AtomicOp | add | fadd32 | faddbf16 | min | max | swap | cas
deriving DecidableEq, Repr

/-- What an access does. -/
inductive MemKind
  | read
  | fetch
  | write
  | atomic (op : AtomicOp) (size64 signed : Bool)
  | lr
  /-- A read that gains the line for a store (R267). -/
  | own
  | sc
  | peek
deriving DecidableEq, Repr

/-- An access at an MPA that the hub or a controller serves (R206). -/
structure MemReq where
  agent   : Agent
  kind    : MemKind
  mpa     : BitVec 50
  /-- Length in bytes of a read. -/
  len     : Nat
  /-- Bytes written. -/
  data    : Bytes
  /-- Byte strobes of a write, from its first byte up; none: every byte (R347). -/
  strobe  : Option (BitVec 64)
  operand : Word
  compare : Word
  /-- The range's bias as the requester's translation gave it: SHARED (R275). -/
  shared  : Bool
  /-- The requester keeps a copy (a cacheable access of a caching agent). -/
  cached  : Bool
  /-- The ASTAG of the requester's translation (charged by R200, R201). -/
  astag   : BitVec 16
  /-- The tier hint of the range (R196). -/
  hint    : BitVec 2
  /-- Whether the access goes directly to a stacked frame (R198). -/
  direct  : Bool
  /-- Generation carried by the request (R427, R428). -/
  gen     : BitVec 32
  ecc     : EccResult
  /-- The address as a task in U-mode issues it: its engine's range cache translates it under the ASTAG of the task's context slot
  (R118), and the translation gives `mpa`, `shared`, `astag` and `hint`. -/
  va      : Option Word := none
deriving DecidableEq, Repr

/-- A translation request that misses a range cache (R251). -/
structure XlateReq where
  /-- An engine's cache, or the hub's (R249). -/
  engine : Option (Fin 32)
  /-- Engine, context slot, spool and command slot charged with a fault (R256). -/
  e      : Fin 32
  ctx    : Fin 16
  spool  : Fin 4
  slot   : BitVec 32
  /-- Partition and ASTAG of the requester. -/
  part   : Fin 16
  astag  : BitVec 16
  va     : Word
  write  : Bool
  read   : Bool
  exec   : Bool
  remote : Bool
  /-- Requester coded as UNIT of the fault record (R260). -/
  unit   : Nat
deriving DecidableEq, Repr

/-- A Plalia message (R347): header fields, lines and mask. -/
structure PlaMsg where
  chan   : BitVec 3
  rsp    : Bool
  op     : BitVec 4
  poison : BitVec 4
  tag    : BitVec 16
  agent  : BitVec 16
  status : BitVec 8
  nc     : Bool
  aop    : BitVec 3
  size64 : Bool
  signed : Bool
  addr   : BitVec 50
  /-- LINES field: lines less one. -/
  lines  : BitVec 2
  /-- Data lines, 64 bytes each, as one byte string. -/
  data   : Bytes
  /-- Byte mask of a WRP. -/
  mask   : BitVec 64
  /-- Slot credits in the control slot of the flit that brings the header, in the order of R346; none: all zero. -/
  creds  : List Nat := []
  /-- What the parity check finds as the message enters or leaves the link (R350). -/
  parity : PathParity := .ok
deriving DecidableEq, Repr

/-- An Ehrant frame as it arrives or leaves (R315): header fields and payload. -/
structure Frame where
  cls     : BitVec 4
  first   : Bool
  last    : Bool
  fence   : Bool
  enc     : Bool
  unit    : Bool
  retx    : Bool
  ece     : Bool
  srcPeer : BitVec 16
  dstPeer : BitVec 16
  conn    : BitVec 20
  plane   : Fin 16
  psn     : BitVec 24
  group   : BitVec 16
  opid    : BitVec 16
  opcode  : BitVec 8
  reason  : BitVec 8
  addr    : Word
  payload : Bytes
  /-- Spans of the payload that are poisoned: offset and length (R215). -/
  bad     : List (Nat × Nat)
  /-- The link word of direct mode (R317): LSEQ, ACK_LSEQ, CREDITS. -/
  lseq    : BitVec 12
  ackLseq : BitVec 12
  credits : BitVec 8
  /-- Whether the ICRC and, if encrypted, the GCM tag hold, and whether the frame met congestion (IP ECN CE). -/
  icrcOk  : Bool
  gcmOk   : Bool
  ce      : Bool
  /-- What the parity check of the receive path finds (R390): spans of the payload, and whether a header field is concerned. -/
  hurt    : List (Nat × Nat) := []
  hurtField : Bool := false
deriving DecidableEq, Repr

/-- Port states (FAB_PORT_p.STATE). -/
inductive PortState | down | training | up | failed
deriving DecidableEq, Repr

/-- A unit with a generation number (R427). -/
inductive UnitId
  | engine (e : Fin 32)
  | core (c : Fin 128)
  | die (d : Fin 12)
  | carder (u : Fin 4)
deriving DecidableEq, Repr

/-- Temperature sensors of R415. -/
inductive Sensor
  | computeDie (d : Fin 8)
  | stack (d : Fin 8)
  | serverDie (n : Fin 2)
  | hubDie
  | coolantOutlet
deriving DecidableEq, Repr

/-- An event of the start-up sequence (R431, R362): the start condition, the end or the failure of a step. -/
inductive StartEvent
  | condition (mv : Nat)
  | ends (step : Fin 13) (testSel : BitVec 2) (idStrap : BitVec 3)
  | fails (step : Fin 13)
deriving DecidableEq, Repr

/-- Dictionary transports (R438). -/
inductive Transport | i3c | mgtPort | inband (p : Fin 16)
deriving DecidableEq, Repr

/-- An Auquin request (R440, R441). `ses` is the SPDM secure session it arrives in, if any. -/
structure AuqReq where
  tr        : Transport
  ses       : Option Nat
  token     : Byte
  index     : BitVec 16
  sub       : Byte
  expedited : Bool
  last      : Bool
  toggle    : Bool
  /-- Total length of a segmented WRITE. -/
  total     : Nat
  data      : Bytes
deriving DecidableEq, Repr

/-- An SPDM request (R377). -/
structure SpdmReq where
  tr      : Transport
  ses     : Option Nat
  version : Byte
  param1  : Byte
  param2  : Byte
  body    : Bytes
deriving DecidableEq, Repr

/-- A fault ring: of a context slot (R260) or of a partition (R261). -/
inductive RingSel
  | ctx (e : Fin 32) (n : Fin 16)
  | part (p : Fin 16)
deriving DecidableEq, Repr

/-- The commands: one constructor for each row of the table of operations and events. -/
inductive Instr
  /-- TRANSFER (R160): Copies LENGTH bytes or writes an array layout between memory and bobbins, or writes zeros, on one mover. -/
  | transfer (u : SpoolId)
  /-- TRANSFER_INLINE (R165): Writes up to 192 payload bytes carried in the command to a bobbin or memory without a mover. -/
  | transferInline (u : SpoolId)
  /-- MATMUL (R94): Computes OUT = A x B over tile passes, starting the accumulators at zero, and drains or holds the result. -/
  | matmul (u : SpoolId)
  /-- MATMUL_ACC (R98): Continues a held accumulator set or loads initial FP32 accumulators from the output range, then holds or drains the result. -/
  | matmulAcc (u : SpoolId)
  /-- ELEMWISE (R103): Computes element-wise products plus an optional FP32 addend in diagonal mode. -/
  | elemwise (u : SpoolId)
  /-- VECOP (R132): Runs one vector-unit operation over rows of bobbin operands and writes the converted output. -/
  | vecop (u : SpoolId)
  /-- CARD_IMAGE (R177): Prepares image samples and their regions into normalised output cells in the chosen layout. -/
  | cardImage (u : SpoolId)
  /-- CARD_TOKENS (R182): Packs token samples into skeins with segment marks and skein records. -/
  | cardTokens (u : SpoolId)
  /-- ALL_REDUCE (R332): Reduces LENGTH bytes of FP32 over the group and writes the result to DST. -/
  | allReduce (u : SpoolId)
  /-- REDUCE_SCATTER (R332): Reduces over the group and writes this member's shard of the result, updating GCHK when a tensor id is named. -/
  | reduceScatter (u : SpoolId)
  /-- ALL_GATHER (R332): Gathers every member's LENGTH/SIZE bytes into LENGTH bytes at every member. -/
  | allGather (u : SpoolId)
  /-- BROADCAST (R332): Copies the root rank's LENGTH bytes to every member of the group. -/
  | broadcast (u : SpoolId)
  /-- BARRIER (R333): Synchronises the group's members over the 16-ary tree. -/
  | barrier (u : SpoolId)
  /-- PUT (R334): Writes local bytes to a remote offset at one peer and completes on acknowledgement. -/
  | put (u : SpoolId)
  /-- GET (R334): Reads bytes from a remote offset at one peer into LOCAL_VA. -/
  | get (u : SpoolId)
  /-- ATOMIC (R334): Performs a remote atomic operation at one peer and returns the old value to LOCAL_VA. -/
  | atomic (u : SpoolId)
  /-- COLLECTIVE_SEND (R329): Sends bytes to a unit-form address in a remote bobbin. -/
  | collectiveSend (u : SpoolId)
  /-- DISPATCH (R340): Routes token copies to expert landing entries through the count, grant and row phases. -/
  | dispatch (u : SpoolId)
  /-- COMBINE (R342): Requests expert outputs for a prior DISPATCH and writes gate-weighted sums per token. -/
  | combine (u : SpoolId)
  /-- SIGNAL (R152): After every earlier command of its spool completes, writes or atomically adds VALUE at VA. -/
  | signal (u : SpoolId)
  /-- WAIT (R153): Holds the later commands of its spool until the U64 at VA meets the condition. -/
  | wait (u : SpoolId)
  /-- FENCE (R154): Holds later commands until the masked spools' earlier commands complete and their writes are visible at the scope. -/
  | fence (u : SpoolId)
  /-- TASK (R126): Queues a Spindle task in a task slot, deferring its completion until the task ends. -/
  | task (u : SpoolId)
  /-- PREFETCH (R167): Loads range entries and optionally warms the hub system cache or queues promotions for a VA range. -/
  | prefetch (u : SpoolId)
  /-- CANCEL (R168): On fetch, cancels fetched and started commands of the masked spools and skips their unfetched slots. -/
  | cancel (u : SpoolId)
  /-- COMMAND_FETCH (R146): The engine fetches the next commands covered by an accepted doorbell into the spool's fetch buffer. -/
  | commandFetch (u : SpoolId)
  /-- COMMAND_COMPLETE (R148): A command finishes; bobbin states and read counts update and any completion record and MSI are written. -/
  | commandComplete (u : SpoolId) (slot : BitVec 32)
  /-- CQ_HEAD (R148): Software advances the completion ring's consumer count, letting a held record be written. -/
  | cqHead (ag : Agent) (u : SpoolId) (val : BitVec 32)
  /-- MX_ISSUE (R122): Spindle instruction that appends a command to a spool and reports OK, FULL or BUSY. -/
  | mxIssue (c : CoreId) (rd rs1 vs2 : Fin 32)
  /-- MX_ROOM (R121): Spindle instruction that returns the free command slots of a spool. -/
  | mxRoom (c : CoreId) (rd rs1 : Fin 32)
  /-- MX_AWAIT (R121): Spindle instruction that returns if a bobbin is ready, otherwise moves the task to WAITING. -/
  | mxAwait (c : CoreId) (rs1 : Fin 32)
  /-- MX_BSTATE (R121): Spindle instruction that returns a bobbin's state without waiting. -/
  | mxBstate (c : CoreId) (rd rs1 : Fin 32)
  /-- MX_BDONE (R158): Spindle instruction that counts one consumed read of a bobbin. -/
  | mxBdone (c : CoreId) (rs1 : Fin 32)
  /-- MX_YIELD (R121): Spindle instruction that moves the task to READY and lets another task run. -/
  | mxYield (c : CoreId)
  /-- MX_EXIT (R131): Spindle instruction that ends the task with an exit value and completes its TASK with OK. -/
  | mxExit (c : CoreId) (rs1 : Fin 32)
  /-- SPINDLE_EXCEPTION (R131): An exception in a U-mode task ends it with FAULT_PERMISSION and records mcause and mtval. -/
  | spindleException (c : CoreId) (cause : BitVec 6) (tval : BitVec 64)
  /-- TASK_DISPATCH (R128): The scheduler dispatches the highest-priority READY task to a free core. -/
  | taskDispatch (c : CoreId)
  /-- QUANTUM_EXPIRY (R130): A task that has run QUANTUM us is moved to READY when an equal or higher priority task is waiting. -/
  | quantumExpiry (c : CoreId)
  /-- BUDGET_EXPIRY (R131): A task whose running time exceeds BUDGET stops and its TASK completes with TIMEOUT. -/
  | budgetExpiry (e : Fin 32) (slot : Fin 16)
  /-- TILE_PASS (R83): An array loads a B tile, streams A rows, checks each row and accumulates or drains the results. -/
  | tilePass (e : Fin 32) (pa : Fin 13) (bad : List Nat)
  /-- RECOMPUTE (R110): The spare reruns a queued tile pass and its results for the withheld rows are accumulated. -/
  | recompute (e : Fin 32) (bad : List Nat)
  /-- ARRAY_RETIREMENT (R112): After its current output tile, an array with three marks in 24 h is retired and the spare takes its position. -/
  | arrayRetirement (e : Fin 32) (pa : Fin 13)
  /-- SQ_TAIL (R143): Doorbell write that publishes new submission slots, or is refused and sets DB_ERR. -/
  | sqTail (ag : Agent) (u : SpoolId) (val : BitVec 32)
  /-- SP_LOCK (R145): Read of the spool lock that grants the submission lease when free. -/
  | spLock (ag : Agent) (u : SpoolId) (acc : RegAccess)
  /-- LEASE_EXPIRY (R454): A submission lease expires after 1 ms, freeing the lock and discarding the holder's unpublished slots. -/
  | leaseExpiry (u : SpoolId)
  /-- SP_CFG_ENABLE (R472): A 0-to-1 write of ENABLE zeroes the spool counts and makes the spool ACTIVE. -/
  | spCfgEnable (ag : Agent) (u : SpoolId) (val : BitVec 64)
  /-- SP_CFG_DISABLE (R472): Writing ENABLE = 0 cancels the spool alone and leaves it DISABLED once its records are written. -/
  | spCfgDisable (ag : Agent) (u : SpoolId) (val : BitVec 64)
  /-- RESUME (R149): Writing SP_CFG.RESUME returns a STOPPED spool to ACTIVE. -/
  | resume (ag : Agent) (u : SpoolId) (val : BitVec 64)
  /-- CTX_CFG_VALID_SET (R472): Setting VALID assigns the context slot, increments its epoch and disables its spools. -/
  | ctxCfgValidSet (ag : Agent) (e : Fin 32) (n : Fin 16) (val : BitVec 64)
  /-- CTX_CFG_VALID_CLEAR (R426): Clearing VALID cancels all spools of the slot and releases its READY bobbins. -/
  | ctxCfgValidClear (ag : Agent) (e : Fin 32) (n : Fin 16) (val : BitVec 64)
  /-- CTX_CANCEL (R168): Register write with the effect of CANCEL for the masked spools. -/
  | ctxCancel (ag : Agent) (e : Fin 32) (n : Fin 16) (mask : BitVec 4) (releaseAll : Bool)
  /-- BOB_MARK_FILL (R156): Marks an EMPTY bobbin FILLING for window stores. -/
  | bobMarkFill (ag : Agent) (e : Fin 32) (n : Fin 16) (b : Fin 256)
  /-- BOB_MARK_READY (R156): Marks a FILL-marked bobbin READY with a read count. -/
  | bobMarkReady (ag : Agent) (e : Fin 32) (n : Fin 16) (b : Fin 256) (readers : BitVec 16)
  /-- BOB_MARK_CONSUMED (R158): Counts one read of a READY bobbin. -/
  | bobMarkConsumed (ag : Agent) (e : Fin 32) (n : Fin 16) (b : Fin 256)
  /-- BOB_MARK_RELEASE (R156): Returns a READY or FILL-marked bobbin to EMPTY. -/
  | bobMarkRelease (ag : Agent) (e : Fin 32) (n : Fin 16) (b : Fin 256)
  /-- BOB_ARM (R155): Checks and commits the pending bobbin configuration set, or refuses it whole. -/
  | bobArm (ag : Agent) (e : Fin 32) (view : Bool)
  /-- STAT_SEL_SNAP (R76): Copies one stat-table entry into the STAT_DATA registers. -/
  | statSelSnap (ag : Agent) (e : Fin 32) (win : Option (Fin 16)) (entry : Fin 256)
  /-- STAT_SEL_CLEAR (R78): Snapshots and clears one stat-table entry in the same cycle, keeping its allocation. -/
  | statSelClear (ag : Agent) (e : Fin 32) (win : Option (Fin 16)) (entry : Fin 256)
  /-- STAT_CLEAR_ALL (R76): Clears all 256 stat-table entries and frees entries 0 to 254. -/
  | statClearAll (ag : Agent) (e : Fin 32)
  /-- ABFT_INJECT (R20): Arms a forced checksum mismatch on a named array's next tile pass when DIAG_INJECT_EN is TRUE. -/
  | abftInject (ag : Agent) (e : Fin 32) (pa : BitVec 4) (arm : Bool)
  /-- FR_RESUME_RETRY (R258): Makes a replay-stalled command walk again and reissue its held requests. -/
  | frResumeRetry (ag : Agent) (e : Fin 32) (n : Fin 16) (seq : BitVec 48)
  /-- FR_RESUME_KILL (R258): Sends a replay-stalled command's context down the kill path. -/
  | frResumeKill (ag : Agent) (e : Fin 32) (n : Fin 16) (seq : BitVec 48)
  /-- ENG_PWR_REQ (R422): Sets an engine's power request to automatic, stay ACTIVE or OFF, and wakes it. -/
  | engPwrReq (ag : Agent) (e : Fin 32) (req : BitVec 2)
  /-- ENG_RESET (R425): Resets one engine, with or without drain, incrementing its generation. -/
  | engReset (ag : Agent) (e : Fin 32) (force : Bool)
  /-- DIE_RESET (R425): Resets one die's SRAM and caches and increments its units' generations. -/
  | dieReset (ag : Agent) (die : BitVec 4) (force : Bool)
  /-- CORE_HOLD (R429): Releases the partition's server cores from reset at CORE_BOOT, or resets them with a departure. -/
  | coreHold (ag : Agent) (p : Fin 16) (w : Fin 2) (val : BitVec 64)
  /-- MIG_REQ_PROMOTE (R202): Queues a promotion of a granule charged to an ASTAG. -/
  | migReqPromote (ag : Agent) (gran : BitVec 20) (astag : BitVec 16)
  /-- MIG_REQ_DEMOTE (R207): Queues a demotion of a granule. -/
  | migReqDemote (ag : Agent) (gran : BitVec 20)
  /-- POOL_ARM (R216): Checks and commits the pending pool-account set, or refuses it whole. -/
  | poolArm (ag : Agent) (view : Bool)
  /-- FLUSH_TAG (R253): Drops every range-cache entry of one or all ASTAGs within 2 us. -/
  | flushTag (ag : Agent) (astag : BitVec 16) (all drain : Bool)
  /-- FLUSH_TAG_DONE (R253): A draining flush completes once every request translated by a dropped entry has completed. -/
  | flushTagDone
  /-- RH_REPLY_INSTALL (R252): The handler answers a consult request with an entry that is checked and installed in the range cache. -/
  | rhReplyInstall (ag : Agent) (id : BitVec 32)
  /-- RH_REPLY_REFUSE (R252): The handler refuses a consult request, giving the fault CONSULT_REFUSED. -/
  | rhReplyRefuse (ag : Agent) (id : BitVec 32)
  /-- DIR_BIAS_REQ (R278): Queues a bias change for a span, which waits for migrations, flushes, and scans the directory for DEVICE. -/
  | dirBiasReq (ag : Agent) (astag : BitVec 16) (all toShared : Bool)
  /-- BIAS_CHANGE_DONE (R278): The bias change finishes its flush and scan, advances DONE and sends its MSI. -/
  | biasChangeDone
  /-- STEP_CLOSE (R287): Closes step s, advances CUR_STEP and snapshots and clears the partition's stat tables. -/
  | stepClose (ag : Agent) (p : Fin 16) (step : BitVec 48)
  /-- STEP_RAISE (R296): Software raises the Pennant of the current step. -/
  | stepRaise (ag : Agent) (p : Fin 16) (step : BitVec 48)
  /-- STEP_REJOIN (R308): Returns a DIVERGED job to RUNNING without changing its state. -/
  | stepRejoin (ag : Agent) (p : Fin 16) (step : BitVec 48)
  /-- OPT_ARM (R448): Checks and commits the pending optimiser parameter set, taken at the next Hoist. -/
  | optArm (ag : Agent) (p : Fin 16) (view : Bool)
  /-- CKPT_NEXT (R305): Requests a checkpoint of the next applied step. -/
  | ckptNext (ag : Agent) (p : Fin 16)
  /-- CKPT_RESTORE (R307): Restores the job from a checkpoint slot and re-emits every working copy. -/
  | ckptRestore (ag : Agent) (p : Fin 16) (slotB : Bool)
  /-- RESTORE_DONE (R307): The restore ends, setting CUR_STEP and OPT_T and returning the job to RUNNING, or fails. -/
  | restoreDone (p : Fin 16)
  /-- CONN_INIT (R324): Opens a connection context from its table entry. -/
  | connInit (ag : Agent) (conn : BitVec 16)
  /-- CONN_CLOSE (R324): Closes a connection after its outstanding packets. -/
  | connClose (ag : Agent) (conn : BitVec 16)
  /-- STK_REPAIR_CONNECTION (R228): Steers a failed stacked data or command-address connection to its spare. -/
  | stkRepairConnection (ag : Agent) (d : Fin 8) (chan : Fin 128) (target : BitVec 14)
  /-- STK_REPAIR_ROW (R228): Copies a stacked row into a spare row and switches the mapping. -/
  | stkRepairRow (ag : Agent) (d : Fin 8) (chan : Fin 128) (bank : Fin 16) (target : BitVec 14)
  /-- STK_REPAIR_COLUMN (R228): Copies a stacked sector column into a spare column and switches the mapping. -/
  | stkRepairColumn (ag : Agent) (d : Fin 8) (chan : Fin 128) (bank : Fin 16) (target : BitVec 14)
  /-- REPAIR_DONE (R394): A repair completes once its repair-map entry has been programmed. -/
  | repairDone (d : RepairEnd)
  /-- FL_REQ_WRITE (R234): Queues a flash WRITE of consecutive pages from an MPA under a partition key. -/
  | flReqWrite (ag : Agent) (part : Fin 16) (pages : BitVec 24) (lpn : BitVec 32)
  /-- FL_REQ_TRIM (R234): Queues a TRIM that makes logical pages read as zeros. -/
  | flReqTrim (ag : Agent) (part : Fin 16) (pages : BitVec 24) (lpn : BitVec 32)
  /-- FLASH_REQUEST_DONE (R238): Every page of a flash request has been programmed and COMPLETED advances. -/
  | flashRequestDone
  /-- AUQ_MBX_ENABLE (R449): Enabling the in-band mailbox zeroes its four indices and starts service. -/
  | auqMbxEnable (ag : Agent) (p : Fin 16) (val : BitVec 64)
  /-- MAILBOX_POLL (R449): The hub reads REQ_PRODUCER at least every 10 us and serves pending requests in order. -/
  | mailboxPoll (p : Fin 16)
  /-- EVR_WINDOW (R406): A 64-bit read returns 8 bytes of the event-recorder region at EVR_CURSOR and advances it. -/
  | evrWindow (ag : Agent) (acc : RegAccess)
  /-- REGISTER_WRITE (R14): A write to a register without behaviour of its own, applied per its access codes. -/
  | registerWrite (ag : Agent) (off : BitVec 40) (acc : RegAccess) (val : BitVec 64)
  /-- MEMORY_ACCESS (R206): The hub or a controller serves a read, write or atomic according to the granule state and poison. -/
  | memoryAccess (req : MemReq)
  /-- PROMOTION_START (R204): A queued promotion gets a frame, enters PROMOTING and starts its copy. -/
  | promotionStart
  /-- PROMOTION_DONE (R204): After copy, remap and FLUSH_TAG, the granule enters RESIDENT_HIGH with age 0. -/
  | promotionDone (gran : BitVec 20)
  /-- DEMOTION_START (R205): A granule enters DEMOTING and its entries are rewritten to the home MPA. -/
  | demotionStart (gran : BitVec 20)
  /-- DEMOTION_COPY (R205): Once no request translated by a dropped entry is in flight, the copy to home begins. -/
  | demotionCopy (gran : BitVec 20)
  /-- DEMOTION_DONE (R205): The copy ends, the granule is RESIDENT_LOW and its frame is freed. -/
  | demotionDone (gran : BitVec 20)
  /-- AGE_TICK (R209): Every 1 ms the age of every RESIDENT_HIGH granule rises and every HEAT halves. -/
  | ageTick
  /-- TIER_TIMEOUT (R213): A request unanswered within TIER_TIMEOUT is answered with poison and logged. -/
  | tierTimeout (id : Nat)
  /-- RANGE_CACHE_MISS (R251): A range-cache miss starts or joins a walk of the range table. -/
  | rangeCacheMiss (req : XlateReq)
  /-- WALK_COMPLETE (R245): A walk resolves an entry and installs it, or finds a fault or a CONSULT range. -/
  | walkComplete (id : Nat)
  /-- CONSULT_TIMEOUT (R252): An unanswered consult request gives the fault CONSULT_TIMEOUT. -/
  | consultTimeout (id : BitVec 32)
  /-- KILL_RECORD (R257): When every write of the killed slot has landed or been dropped, the kill record and MSI are written. -/
  | killRecord (e : Fin 32) (n : Fin 16)
  /-- REPLAY_LIMIT (R259): A replay stall reaching REPLAY_LIMIT takes the kill path. -/
  | replayLimit (e : Fin 32) (n : Fin 16)
  /-- RD (R347): Plalia MEM read request served at its MPA. -/
  | rd (link : Fin 19) (m : PlaMsg)
  /-- WR (R347): Plalia MEM write of whole lines. -/
  | wr (link : Fin 19) (m : PlaMsg)
  /-- WRP (R347): Plalia MEM partial write of one line under a byte mask. -/
  | wrp (link : Fin 19) (m : PlaMsg)
  /-- ATOM (R282): Plalia MEM atomic request performed at home or near memory. -/
  | atom (link : Fin 19) (m : PlaMsg)
  /-- MEM_DATA (R347): Plalia MEM data response received. -/
  | memData (link : Fin 19) (m : PlaMsg)
  /-- MEM_ACK (R347): Plalia MEM acknowledgement received. -/
  | memAck (link : Fin 19) (m : PlaMsg)
  /-- RD_SHARED (R270): Coherent read request handled by the home according to the line's directory state. -/
  | rdShared (link : Fin 19) (m : PlaMsg)
  /-- RD_OWN (R270): Request for a writable line that invalidates other copies or transfers ownership. -/
  | rdOwn (link : Fin 19) (m : PlaMsg)
  /-- SNP_INV (R270): Snoop that invalidates a cached copy. -/
  | snpInv (link : Fin 19) (m : PlaMsg)
  /-- SNP_FWD (R270): Snoop that makes the owner forward its data to the requester and keep a read-only copy. -/
  | snpFwd (link : Fin 19) (m : PlaMsg)
  /-- WB (R267): Writeback of an owned line, returning it to NONE or COPIES. -/
  | wb (link : Fin 19) (m : PlaMsg)
  /-- COH_DATA (R347): Plalia COH data response received. -/
  | cohData (link : Fin 19) (m : PlaMsg)
  /-- COH_ACK (R347): Plalia COH acknowledgement received. -/
  | cohAck (link : Fin 19) (m : PlaMsg)
  /-- OWNERSHIP_HOLD_EXPIRY (R271): The 128-hub-cycle hold of a newly owned line ends and waiting snoops proceed. -/
  | ownershipHoldExpiry (line : BitVec 44)
  /-- MSI (R349): Plalia IRQ MSI applied after earlier writes on the connection are acknowledged. -/
  | msi (link : Fin 19) (m : PlaMsg)
  /-- DMI_RD (R450): Debug Module Interface read over the DBG channel. -/
  | dmiRd (link : Fin 19) (m : PlaMsg)
  /-- DMI_WR (R453): Debug Module Interface write, which may halt or resume harts. -/
  | dmiWr (link : Fin 19) (m : PlaMsg)
  /-- DBG_DATA (R347): Plalia DBG data response received. -/
  | dbgData (link : Fin 19) (m : PlaMsg)
  /-- DISCOVER (R351): A die's capability line is received and the hub answers with AGREE. -/
  | discover (link : Fin 19) (m : PlaMsg)
  /-- AGREE (R352): The agreed channels and limits are received and the connection opens its channels. -/
  | agree (link : Fin 19) (m : PlaMsg)
  /-- DICT (R347): Plalia MGT dictionary message. -/
  | dict (link : Fin 19) (m : PlaMsg)
  /-- RESET_REQ (R347): Plalia MGT reset request. -/
  | resetReq (link : Fin 19) (m : PlaMsg)
  /-- TELEMETRY (R347): Plalia MGT telemetry message. -/
  | telemetry (link : Fin 19) (m : PlaMsg)
  /-- MGT_DATA (R347): Plalia MGT data response received. -/
  | mgtData (link : Fin 19) (m : PlaMsg)
  /-- MGT_ACK (R347): Plalia MGT acknowledgement received. -/
  | mgtAck (link : Fin 19) (m : PlaMsg)
  /-- LINK_ACTIVE (R351): A UCIe link reaches the active state and DISCOVER is sent within 10 us. -/
  | linkActive (link : Fin 19)
  /-- DISCOVERY_TIMEOUT (R351): A connection without AGREE 10 ms after link-up is declared FAILED. -/
  | discoveryTimeout (link : Fin 19)
  /-- MODULE_DOWN (R358): An unrepairable UCIe module is taken DOWN and its held flits resent on the others. -/
  | moduleDown (link : Fin 19) (mod : Fin 4)
  /-- LINK_FAILED (R359): A hub link with every module DOWN fails and its die is rerouted through a neighbour. -/
  | linkFailed (link : Fin 19)
  /-- LINK_RETRY (R360): A FAILED connection is retried every 1 s with fresh discovery. -/
  | linkRetry (link : Fin 19)
  /-- GUEST_REMOVAL (R357): A guest breaking R356 too often or withholding credits for 100 ms is removed. -/
  | guestRemoval
  /-- DIE_REMOVAL (R361): A die whose links have failed is removed and its outstanding requests complete with poison or refusal. -/
  | dieRemoval (die : Fin 12)
  /-- WRITE (R328): Ehrant memory-form write translated under the connection's ASTAG and placed on arrival. -/
  | write (f : Frame)
  /-- READ_REQ (R328): Ehrant memory-form read request, answered with READ_RESP or NACK. -/
  | readReq (f : Frame)
  /-- READ_RESP (R334): Ehrant read response delivering remote data. -/
  | readResp (f : Frame)
  /-- ATOMIC_REQ (R328): Ehrant remote atomic request. -/
  | atomicReq (f : Frame)
  /-- ATOMIC_RESP (R334): Ehrant atomic response carrying the old value. -/
  | atomicResp (f : Frame)
  /-- SEND (R329): Unit-form payload into a bobbin, checked against the epoch, making the bobbin READY on its last frame. -/
  | send (f : Frame)
  /-- COLL_DATA (R333): Collective data frame added or landed along the group's fixed chain. -/
  | collData (f : Frame)
  /-- DISPATCH_COUNT (R340): A source's copy counts per landing entry arrive at a host. -/
  | dispatchCount (f : Frame)
  /-- LANDING_GRANT (R340): Holding all counts, a host grants slot runs, writes the landing record and sets targets FILLING. -/
  | landingGrant (group opid : BitVec 16)
  /-- DISPATCH_GRANT (R340): A source receives its grant and writes MAP_VA and sends its rows. -/
  | dispatchGrant (f : Frame)
  /-- DISPATCH_ROW (R341): A token row lands in the array layout at its target, checked against the epoch. -/
  | dispatchRow (f : Frame)
  /-- COMBINE_REQ (R342): A host receives a request for expert outputs of a slot run. -/
  | combineReq (f : Frame)
  /-- COMBINE_SERVE (R342): Once DONE_VA reaches the GRANTS value, the host returns the requested rows. -/
  | combineServe (id : Nat)
  /-- COMBINE_RESP (R342): Expert output rows arrive and enter the gate-weighted sum. -/
  | combineResp (f : Frame)
  /-- HALYARD_VOTE (R299): When R288 holds, the module contributes its Pennant for the step. -/
  | halyardVote (p : Fin 16)
  /-- HALYARD_UP (R336): A child's partial vote arrives; with all children present it goes up, or the root reaches an outcome. -/
  | halyardUp (f : Frame)
  /-- HALYARD_DOWN (R300): The step outcome arrives, is applied and forwarded to children. -/
  | halyardDown (f : Frame)
  /-- HALYARD_TIMEOUT (R299): The root's timeout expires before the count completes and the step is VOID. -/
  | halyardTimeout (p : Fin 16)
  /-- DIVERGED_TIMEOUT (R300): No outcome within twice HALYARD_TIMEOUT of the vote makes the job DIVERGED. -/
  | divergedTimeout (p : Fin 16)
  /-- HELLO (R317): Direct-mode peer identification at link-up. -/
  | hello (f : Frame)
  /-- PROBE (R330): Probe on a failed plane; its answer returns the plane to UP. -/
  | probe (f : Frame)
  /-- LINK_ACK (R318): Link word acknowledgement that frees replay frames or, with NAK, triggers replay. -/
  | linkAck (port : Fin 16) (f : Frame)
  /-- FCS_ERROR (R318): A frame with an FCS error or LSEQ gap is discarded and a NAK is sent. -/
  | fcsError (port : Fin 16) (badFcs : Bool)
  /-- ACK (R321): Transport acknowledgement with cumulative PSN and SACK bitmap. -/
  | ack (f : Frame)
  /-- NACK (R328): Negative acknowledgement completing the requesting command with its cause. -/
  | nack (f : Frame)
  /-- LINK_ACK_TIMER (R317): A link acknowledgement is sent after 1 us or 32 frames. -/
  | linkAckTimer (port : Fin 16)
  /-- ACK_TIMER (R321): A transport ACK is sent within 2 us of an arrival. -/
  | ackTimer (conn : BitVec 16)
  /-- RTO_EXPIRY (R322): The retransmission timer expires and the packet is retransmitted with RTO doubled. -/
  | rtoExpiry (conn : BitVec 16) (plane : Fin 16)
  /-- PORT_STATE_CHANGE (R330): A port goes UP, DOWN or FAILED, changing the planes of its peers. -/
  | portStateChange (port : Fin 16) (st : PortState) (rate : BitVec 2)
  /-- PROBE_TIMER (R330): A PROBE is sent on a failed plane every 1 ms. -/
  | probeTimer (peer : BitVec 16) (plane : Fin 16)
  /-- PEER_UNREACHABLE (R330): No UP plane for 50 ms declares the peer UNREACHABLE and its operations TIMEOUT. -/
  | peerUnreachable (peer : BitVec 16)
  /-- COLL_TIMEOUT (R334): A group operation without progress for COLL_TIMEOUT completes with TIMEOUT. -/
  | collTimeout (id : Nat)
  /-- SEND_RETRY (R329): A SEND refused BUSY is retried after 10 us. -/
  | sendRetry (id : Nat)
  /-- CONTEXT_FETCH (R325): A missed connection context is fetched from the bulk tier and its waiting packets proceed. -/
  | contextFetch (conn : BitVec 16)
  /-- WAIT_POLL (R153): A failing WAIT rereads VA within 1 us. -/
  | waitPoll (u : SpoolId)
  /-- WAIT_TIMEOUT (R153): A WAIT not satisfied within TIMEOUT completes with TIMEOUT. -/
  | waitTimeout (u : SpoolId)
  /-- SNAPSHOT_MERGE (R297): The stat snapshots merge by tensor id and STAT_OUT is written. -/
  | snapshotMerge (p : Fin 16)
  /-- HOIST (R302): After a CLEAR outcome and the previous update, the optimiser takes the armed set and starts the update. -/
  | hoist (p : Fin 16)
  /-- HANK_UPDATE (R303): The optimiser updates one hank's master and moments, ledgers it and emits its working copy. -/
  | hankUpdate (p : Fin 16)
  /-- HANKS_DONE (R303): A hank's all-gather is acknowledged by every member and HANKS_DONE advances. -/
  | hanksDone (p : Fin 16)
  /-- CHECKPOINT_START (R305): A checkpoint trims its slot's header page and writes the update and GCHK tables. -/
  | checkpointStart (p : Fin 16)
  /-- CHECKPOINT_HANK (R305): A ledgered hank's master and moments are written to the checkpoint slot. -/
  | checkpointHank (p : Fin 16)
  /-- CHECKPOINT_HEADER (R305): The header page is written last, completing the checkpoint. -/
  | checkpointHeader (p : Fin 16)
  /-- MAPPING_REBUILD (R237): At start the flash mapping is rebuilt from spare areas before the window opens. -/
  | mappingRebuild (cutLpns : CutPages)
  /-- REFRESH (R225): A per-bank refresh is issued once per tREFI. -/
  | refresh (d : Fin 9) (chan : Fin 128) (bank : BankRef)
  /-- RECAL_WINDOW (R226): A channel retrains its timing in a 2 us window every STK_RECAL_MS. -/
  | recalWindow (d : Fin 9) (chan : Fin 128)
  /-- PATROL_SCRUB (R391): The scrubber reads a line, writes back corrections or marks poison. -/
  | patrolScrub (line : BitVec 44) (r : EccResult)
  /-- FLASH_SCRUB (R392): A flash block is read and rewritten when its codewords need heavy correction. -/
  | flashScrub (block : Nat) (heavy : Bool)
  /-- MARGIN_START (R241): Starts a margining sweep of the selected unit and axis. -/
  | marginStart
  /-- MARGIN_DONE (R241): The sweep ends and MARGIN_RESULT holds the edges. -/
  | marginDone (lo hi : BitVec 16) (step : BitVec 32)
  /-- SERVER_CORE_FAULT (R396): An uncorrectable core logic error brings a spare core into the failed core's index. -/
  | serverCoreFault (core : Fin 128)
  /-- SPINDLE_CORE_FAULT (R397): A Spindle core with an uncorrectable logic error is retired and its task ends. -/
  | spindleCoreFault (c : CoreId)
  /-- EPOCH_CLOSE (R403): The event-recorder epoch closes and its record is programmed into the SLC region. -/
  | epochClose
  /-- EVR_CLEAR (R408): Erases the event-recorder region and resets its cursor and end. -/
  | evrClear
  /-- INPUT_WARNING (R411): An input sample below 41.0 V stretches every array to half rate. -/
  | inputWarning (mv : Nat)
  /-- WARNING_RECOVERY (R411): 100 us at or above 42.0 V lifts the dip throttle. -/
  | warningRecovery (mv : Nat)
  /-- POWER_FAIL (R412): The input below 38.0 V runs the power-fail sequence to its end. -/
  | powerFail (mv : Nat)
  /-- OVER_VOLTAGE (R410): The input above 59.5 V for 1 ms runs the power-fail sequence. -/
  | overVoltage (mv : Nat)
  /-- START_UP (R431): The start condition holds and the start-up sequence runs its steps. -/
  | startUp (ev : StartEvent)
  /-- FABRIC_READY (R432): Steps 8, 9 and 11 end with a port UP and the module accepts Ehrant traffic. -/
  | fabricReady
  /-- START_TIMEOUT (R432): Fabric ready not reached at 90 s records the failed step in START_STATE. -/
  | startTimeout
  /-- HOLDUP_READY (R413): The hold-up bank reaches its rating and flash programs may start. -/
  | holdupReady
  /-- POWER_CAP_SAMPLE (R414): Every 10 us the 1 ms power average lowers or raises the array clocks. -/
  | powerCapSample (avgW sampleW : Nat)
  /-- THERMAL_THROTTLE (R415): A sensor at its throttle limit lowers or restores clocks of its die. -/
  | thermalThrottle (sensor : Sensor) (tempC : Int)
  /-- THERMAL_SHUTDOWN (R415): A sensor at its shutdown limit runs the power-fail sequence. -/
  | thermalShutdown (sensor : Sensor) (tempC : Int)
  /-- ARRAY_CLK_MHZ (R419): Each array changes its clock at its next tile-pass boundary. -/
  | arrayClkMhz (e : Fin 32) (pa : Fin 13)
  /-- SC_CLK_MHZ (R418): A new server-core clock takes effect within 50 us. -/
  | scClkMhz (core : Fin 128) (dieW : Nat) (dieC : Int)
  /-- POWER_STATE_ENTRY (R422): An idle engine drains and enters the deepest state its LTOL and idle time allow. -/
  | powerStateEntry (e : Fin 32)
  /-- ENGINE_WAKE (R424): A wake event holds accesses until the engine is ACTIVE again. -/
  | engineWake (e : Fin 32)
  /-- DEPARTURE_TIMEOUT (R428): A drain not finished within 100 us becomes a forced departure. -/
  | departureTimeout (unit : UnitId)
  /-- MOD_RST_N (R467): 20 low samples start a module reset held until the rising edge. -/
  | modRstN (low : Bool)
  /-- MODULE_RESET (R425): Dictionary write that closes the epoch and restarts start-up at step 3. -/
  | moduleReset
  /-- STAGE_OPEN (R384): A credential opens a stage set. -/
  | stageOpen (ses : Nat) (set : Fin 4)
  /-- STAGE_SEAL (R384): Seals a set, fixes its digest and starts the 60 s window. -/
  | stageSeal (ses : Nat) (set : Fin 4)
  /-- STAGE_CONFIRM (R384): A credential of another role confirms the digest and the set is checked and applied. -/
  | stageConfirm (ses : Nat) (set : Fin 4)
  /-- STAGE_ABORT (R384): Discards a stage set. -/
  | stageAbort (ses : Nat) (set : Fin 4)
  /-- STAGE_WINDOW_EXPIRY (R384): A sealed set unconfirmed after 60 s is discarded. -/
  | stageWindowExpiry (set : Fin 4)
  /-- LAYOUT_APPLY (R370): After the scrub ends, the owners switch and PART_GEN increments. -/
  | layoutApply
  /-- FW_IMAGE (R375): Writes and verifies a new image in the inactive boot slot. -/
  | fwImage
  /-- SVN_COMMIT (R375): Raises FUSE_SVN to the SVN of the running image. -/
  | svnCommit
  /-- FW_ACTIVATE (R398): Activates the inactive image live, class by class. -/
  | fwActivate (failClass : Option (Fin 5))
  /-- NAND_KEY_ERASE (R381): Destroys a partition's flash key and generates a new one. -/
  | nandKeyErase (p : Fin 16)
  /-- LINK_KEY (R382): Installs a link key and its generation in a partition slot. -/
  | linkKey (p : Fin 16) (slot : Fin 16)
  /-- DEBUG_UNLOCK (R385): Sets the debug level, partition and lease. -/
  | debugUnlock
  /-- DEBUG_LEASE_EXPIRY (R385): The debug level returns to 0 when LEASE_H hours pass. -/
  | debugLeaseExpiry
  /-- GET_VERSION (R377): SPDM request for supported versions. -/
  | getVersion (r : SpdmReq)
  /-- GET_CAPABILITIES (R377): SPDM request for capabilities. -/
  | getCapabilities (r : SpdmReq)
  /-- NEGOTIATE_ALGORITHMS (R377): SPDM algorithm negotiation. -/
  | negotiateAlgorithms (r : SpdmReq)
  /-- GET_DIGESTS (R377): SPDM request for certificate digests. -/
  | getDigests (r : SpdmReq)
  /-- GET_CERTIFICATE (R377): SPDM request for a certificate chain. -/
  | getCertificate (r : SpdmReq)
  /-- CHALLENGE (R377): SPDM challenge of the responder. -/
  | challenge (r : SpdmReq)
  /-- GET_MEASUREMENTS (R378): SPDM request for signed measurement blocks. -/
  | getMeasurements (r : SpdmReq)
  /-- KEY_EXCHANGE (R377): SPDM key exchange opening a secure session. -/
  | keyExchange (r : SpdmReq)
  /-- FINISH (R377): SPDM finish of session establishment. -/
  | finish (r : SpdmReq)
  /-- END_SESSION (R377): SPDM end of a secure session. -/
  | endSession (r : SpdmReq)
  /-- HEARTBEAT (R377): SPDM session heartbeat. -/
  | heartbeat (r : SpdmReq)
  /-- KEY_UPDATE (R377): SPDM session key update. -/
  | keyUpdate (r : SpdmReq)
  /-- AUQUIN_READ (R441): Auquin READ request, expedited or starting a segmented transfer. -/
  | auquinRead (r : AuqReq)
  /-- AUQUIN_WRITE (R441): Auquin WRITE request applied whole after its last byte. -/
  | auquinWrite (r : AuqReq)
  /-- AUQUIN_SEGMENT (R441): Auquin SEGMENT request carrying the next segment with its toggle. -/
  | auquinSegment (r : AuqReq)
  /-- AUQUIN_ABORT (R441): Auquin ABORT ending a transfer at once. -/
  | auquinAbort (r : AuqReq)
  /-- SEG_TIMEOUT (R441): A transfer idle for 1 s ends with TIMEOUT. -/
  | segTimeout (tr : Transport)
  /-- SESSION_IDLE (R444): A session idle for SESSION_IDLE ends. -/
  | sessionIdle (ses : Nat)
  /-- DBG_DMI_REQ (R450): Issues a DMI read or write to the selected debug module. -/
  | dbgDmiReq (req : BitVec 64)
  /-- DBG_PEEK (R452): Reads 8 bytes at DBG_PEEK_ADDR without side effects. -/
  | dbgPeek
  /-- TAP_SEQ (R455): Runs test-access steps and captures TDO bits into TAP_RESULT. -/
  | tapSeq (tdo : List Bool)
  /-- LANE_REPAIR (R358): A failing UCIe lane is replaced by a redundant lane of its module, keeping the connection's bandwidth, and the repair is recorded. -/
  | laneRepair (link : Fin 19) (mod : Fin 4) (lanes : Nat)
  /-- REPLACED_KEY_EXPIRY (R382): Ten seconds after a link key is replaced, the slot stops holding the previous key, so receivers no longer try it. -/
  | replacedKeyExpiry (p : Fin 16) (slot : Fin 16)
  /-- SUSPECT_WINDOW_EXPIRY (R112): A suspect mark older than 24 hours leaves an array's MARKS count and no longer counts toward retirement. -/
  | suspectWindowExpiry (e : Fin 32) (pa : Fin 13)
  /-- FR_PTR_CONSUMER (R260): Software advances a fault ring's CONSUMER, making room so that a held fault record is written and its MSI sent. -/
  | frPtrConsumer (ag : Agent) (ring : RingSel) (val : BitVec 32)
  /-- RH_CONSULT_PTR_CONSUMER (R252): Software advances the consult ring's CONSUMER, letting held consult requests be written. -/
  | rhConsultPtrConsumer (ag : Agent) (val : BitVec 32)
  /-- DYNAMIC_ADDRESS (R466): The I3C controller assigns the module's dynamic address by ENTDAA or SETDASA. -/
  | dynamicAddress (addr : BitVec 8)
  /-- SET_ENDPOINT_ID (R444): An MCTP Set Endpoint ID assigns the module's MCTP_EID. -/
  | setEndpointId (eid : BitVec 8)
  /-- MGT_LINK_CHANGE (R444): The 1000BASE-T management port comes up or goes down, applying pending addressing objects and setting MGT_LINK. -/
  | mgtLinkChange (link : BitVec 2)
  /-- MOD_RST_N_RISING_EDGE (R467): The rising edge of MOD_RST_N resumes start-up step 3 after a held module reset. -/
  | modRstNRisingEdge
  /-- COOLANT_ALERT (R415): The coolant inlet crosses COOLANT_ALERT_C and THERM_ALERT_N is asserted or released. -/
  | coolantAlert (inletC : Int)
  /-- FLASH_PROGRAM_FAILURE (R393): A NAND program or erase fails; the controller retries on another block, moves valid pages and retires the block. -/
  | flashProgramFailure (block : Nat)
deriving DecidableEq, Repr

end Sys2Proof
end

