-- ==== Sys2Proof/Decode.lean ====
section
/-! DEFINITION. The words of the table, and the words of the matrix-issue instructions. -/

namespace Sys2Proof

/-- The command a word spells by the table's bits. No row of the table has bits: every command arrives with typed
operands (a register access, a message, an event), so no word spells one. -/
def decodeTableWord (_nbits _w : Nat) : Option Instr := none

/-- The matrix-issue instruction that a 32-bit word spells on core `c`: major opcode custom-0 in R-type form, selected by funct3, with
vs2 in the place of rs2 (R121). funct3 7 spells none. -/
def mxDecode (c : CoreId) (w : Nat) : Option Instr :=
  let rd := Fin.ofNat 32 (w / 2 ^ 7)
  let rs1 := Fin.ofNat 32 (w / 2 ^ 15)
  let vs2 := Fin.ofNat 32 (w / 2 ^ 20)
  if w % 2 ^ 7 ≠ 0b0001011 then none
  else match w / 2 ^ 12 % 8 with
    | 0 => some (.mxIssue c rd rs1 vs2)
    | 1 => some (.mxRoom c rd rs1)
    | 2 => some (.mxAwait c rs1)
    | 3 => some (.mxBstate c rd rs1)
    | 4 => some (.mxBdone c rs1)
    | 5 => some (.mxYield c)
    | 6 => some (.mxExit c rs1)
    | _ => none

end Sys2Proof
end

