-- ==== Sys2Proof/Machine/Map.lean ====
section
/-! DEFINITION. Sparse tables as plain data: a list of key and value pairs; a key that is not listed holds a default. -/

namespace Sys2Proof.Machine

/-- A sparse table. -/
abbrev FMap (κ α : Type) := List (κ × α)

/-- The value at key `k`; `d` where none is listed. -/
def mapGet {κ α : Type} [DecidableEq κ] : FMap κ α → κ → α → α
  | [], _, d => d
  | (k', v) :: m, k, d => if k' = k then v else mapGet m k d

/-- The table with `v` at key `k`; every other key keeps its value. -/
def mapSet {κ α : Type} [DecidableEq κ] : FMap κ α → κ → α → FMap κ α
  | [], k, v => [(k, v)]
  | (k', v') :: m, k, v => if k' = k then (k, v) :: m else (k', v') :: mapSet m k v

/-- The table without key `k`. -/
def mapDel {κ α : Type} [DecidableEq κ] (m : FMap κ α) (k : κ) : FMap κ α :=
  m.filter (fun kv => !(decide (kv.1 = k)))

/-- The value listed at key `k`, if any. -/
def mapFind {κ α : Type} [DecidableEq κ] : FMap κ α → κ → Option α
  | [], _ => none
  | (k', v) :: m, k => if k' = k then some v else mapFind m k

end Sys2Proof.Machine
end

