-- ==== Sys2Proof/Machine/State.lean ====
section
/-! DEFINITION. The state of the module as plain data, its faults and refusals, and the state after reset. Every MMIO
register has one home, the table `regs`, every dictionary object one home, the table `dict`; what the spec gives the
machine beside them (queues, caches, buffers, timers, pins) stands in the records below. -/

namespace Sys2Proof.Machine

open Sys2Proof

/-- Faults of the block. No command raises one: the spec gives every event an effect, and every translation or access
fault is an effect on State. -/
inductive Fault
  /-- Nothing raises it; it stands for the interface's second outcome. Safe. -/
  | never
deriving DecidableEq, Repr

/-- Refusals of the block. -/
inductive Refusal
  /-- Raised by the dispatch arm of a row that has no meaning yet. Safe. -/
  | notModelled (mnemonic : String)
deriving DecidableEq, Repr

/-- The register blocks of the MMIO window (R115, R445). -/
inductive Blk
  | engP | engC | hub | hubWin | rh | dir | fab | coll | job | flash | carder | carderWin | rel | sec | stk | plalia
deriving DecidableEq, Repr

/-- Where a register lies: its block, the block's instance (engine, partition, job or die), the context window of an
engine, and the offset. -/
structure RegKey where
  blk : Blk
  i   : Nat
  n   : Nat
  off : Nat
deriving DecidableEq, Repr

/-! ### Engines -/

/-- Where a fetched command stands (R142, R149, R150). -/
inductive CmdPhase
  /-- Fetched, not started. -/
  | fetched
  /-- Started, not ended: a matrix command, a task, a wait, a group operation, a stalled command. -/
  | started
  /-- Started, and released from its stall: its held accesses are to be issued again (R258). -/
  | retry
  /-- Ended with its status; its completion is owed. -/
  | ended
deriving DecidableEq, Repr

/-- Why a fetched command rests. -/
inductive Stall
  | none
  /-- Replay stall under fault record `seq` (R258). -/
  | replay (seq : Nat)
  /-- Awaiting the answer to consult request `id` (R252). -/
  | consult (id : Nat)
deriving DecidableEq, Repr

/-- A translation fault as its record carries it (R255, R260). `cause` is the fault's own; `since` the module time. -/
structure FaultInfo where
  va    : Nat
  astag : Nat
  cause : Nat
  write : Bool
  unit  : Nat
  since : Nat
deriving DecidableEq, Repr

/-- A command in a spool's fetch buffer (R146). -/
structure Cmd where
  /-- First slot count and slots occupied (R142, R471). -/
  slot    : Nat
  nslots  : Nat
  bytes   : Bytes
  /-- The first slot, or a later one, lay in a poisoned line (R471). -/
  poisonFirst : Bool
  poisonLater : Bool
  phase   : CmdPhase
  /-- Order of starts within the engine (R151). -/
  order   : Nat
  /-- The step number taken at the start (R286). -/
  step    : Nat
  status  : Nat
  detail  : Nat
  stall   : Stall
  /-- The first fault of the replay stall (R259), kept over retries until the accesses succeed. -/
  first   : Option FaultInfo
  /-- Bobbins the command fills, and bobbins it reads and has not counted yet (R157, R158). -/
  fills   : List Nat
  reads   : List Nat
  /-- Read count given by the command for the bobbins it fills (R157). -/
  readers : Nat
  /-- Leave the filled bobbins FILLING (CONT, R157). -/
  cont    : Bool
  /-- Time of the start, for WAIT (R153). -/
  since   : Nat
  /-- Address span written, for R93 and R169: start and length in bytes. -/
  outBase : Nat
  outLen  : Nat
  /-- A FENCE's commands not yet completed: spool and first slot (R154). -/
  deps    : List (SpoolId × Nat)
  /-- The mover a TRANSFER runs on (R162). -/
  mover   : Option Nat := none
  /-- Staging bobbins that a TRANSFER holds (R163). -/
  stage   : List Nat := []
  /-- CARD: the sources read so far, in order, with their poisoned spans (R176); the units its finished samples ran on (R172). -/
  log     : List (Bytes × List (Nat × Nat)) := []
  units   : List Nat := []
deriving DecidableEq, Repr

/-- A completion record held for ring space or for a replay stall (R148, R471). -/
structure HeldRec where
  bytes : Bytes
  irq   : Bool
deriving DecidableEq, Repr

/-- What a spool holds beside its registers. -/
structure Spool where
  /-- Next slot count to fetch. -/
  fetched : Nat := 0
  cmds    : List Cmd := []
  held    : List HeldRec := []
  /-- The holder of the submission lock and the time of its GRANTED read (R145, R454). -/
  lease   : Option (Agent × Nat) := none
  expired : Option Agent := none
  /-- Fetching is held by a replay fault of a ring access under this record, with that fault (R471). -/
  fetchHold : Option (Nat × FaultInfo) := none
  /-- A completion record is held by a replay fault of its write, with that fault (R471). -/
  cqHold : Option (Nat × FaultInfo) := none
  /-- First fault of a ring access released by RETRY and not yet repeated with success (R259). -/
  fetchFirst : Option FaultInfo := none
  cqFirst : Option FaultInfo := none
deriving DecidableEq, Repr

/-- What the engine keeps of a bobbin beside BOB_CFG_n and BOB_STATE_n. -/
structure BobAux where
  /-- The spool and command slot that fill it (R157). -/
  writer  : Option (SpoolId × Nat) := none
  /-- It is FILLING under a command with CONT = 1 (R157). -/
  cont    : Bool := false
  /-- A fabric message fills it: source peer and connection (R329), or a landing target (R340). -/
  remote  : Option (Nat × Nat) := none
deriving DecidableEq, Repr

/-- A tile of a matrix command on an array (R83 to R85). -/
structure TileRun where
  q     : Nat
  arr   : Nat
  /-- Tile passes done of the tile's S × p. -/
  pass  : Nat
  /-- FP32 accumulators, row by row (R60). -/
  acc   : List (List (BitVec 32))
  /-- The tile waits for a recompute of its last pass (R110). -/
  wait  : Bool
deriving DecidableEq, Repr

/-- A MATMUL, MATMUL_ACC or ELEMWISE under way. -/
structure MatRun where
  u      : SpoolId
  slot   : Nat
  /-- Output tiles not yet handed to an array. -/
  todo   : List Nat
  tiles  : List TileRun
  /-- Tiles finished: tile, FP32 results row by row. -/
  done   : List (Nat × List (List (BitVec 32)))
  /-- LOAD: the initial accumulators of the whole output, row by row (R98). -/
  init   : Option (List (List (BitVec 32)))
  /-- Tiles go to the array of their position (R99). -/
  fixed  : Bool
  /-- A recompute stayed unresolved; poisoned data was consumed (R102). -/
  unres  : Bool
  pois   : Bool
deriving DecidableEq, Repr

/-- A held accumulator set (R98): context, ACC_ID, the shape and the command that last held it. -/
structure AccSet where
  n      : Nat
  id     : Nat
  m      : Nat
  cols   : Nat
  aRows  : Nat
  u      : SpoolId
  slot   : Nat
  /-- Per tile: q, array position, accumulators. -/
  tiles  : List (Nat × Nat × List (List (BitVec 32)))
deriving DecidableEq, Repr

/-- A queued recompute (R110). -/
structure Recomp where
  u      : SpoolId
  slot   : Nat
  q      : Nat
  pass   : Nat
  arr    : Nat
  rows   : List Nat
  injected : Bool
deriving DecidableEq, Repr

/-- What an array keeps beside ARRAY_STATE_n. -/
structure ArrAux where
  /-- ABFT_INJECT armed for the next tile pass. -/
  inject : Bool := false
  /-- Times of its suspect marks (R112). -/
  marks  : List Nat := []
  /-- Its clock in MHz (R419). -/
  mhz    : Nat := 1600
  /-- Retirement awaits the end of its tile or of its held sets (R112, R113). -/
  retiring : Bool := false
deriving DecidableEq, Repr

/-- A range-cache entry (R249, R250, R252). -/
structure RcEntry where
  astag  : Nat
  start  : Nat
  len    : Nat
  mpa    : Nat
  r      : Bool
  w      : Bool
  x      : Bool
  remote : Bool
  shared : Bool
  hint   : Nat
  replay : Bool
  rootReplay : Bool
  part   : Nat
  consulted : Bool
deriving DecidableEq, Repr

/-- A walk in flight (R251). -/
structure Walk where
  id      : Nat
  req     : XlateReq
  /-- Requests that joined it. -/
  joined  : List XlateReq
  restart : Bool
deriving DecidableEq, Repr

/-- What an engine keeps beside its registers. -/
structure EngAux where
  runs     : List MatRun := []
  recomp   : List Recomp := []
  accs     : List AccSet := []
  /-- The range cache, most recently used first (R249). -/
  rc       : List RcEntry := []
  walks    : List Walk := []
  /-- Next start number (R151). -/
  order    : Nat := 0
  /-- The context that last got an array (R151). -/
  lastCtx  : Nat := 15
  /-- Module time since which the engine is idle (R421, R422). -/
  idleSince : Option Nat := none
  /-- Accesses held while the engine enters a state or wakes (R423, R424). -/
  heldWake : List Instr := []
  /-- A wake event arrived during entry. -/
  wake     : Bool := false
  /-- The drained departure in progress: started at, with FORCE pending (R428). -/
  depart   : Option Nat := none
  /-- Retired Spindle cores (R397). -/
  deadCores : List Nat := []
deriving DecidableEq, Repr

/-- A stat-table entry (R75). -/
structure StatEntry where
  tensor    : Nat := 0
  valid     : Bool := false
  saturated : Bool := false
  amax      : BitVec 32 := 0
  total     : Nat := 0
  clipped   : Nat := 0
  flushed   : Nat := 0
  nonfinite : Nat := 0
deriving DecidableEq, Repr

/-- The architectural state of a Spindle hart (R117, R127): pc, integer, FP and vector registers, the vector and FP control registers,
and the machine-mode trap and interrupt registers. Registers not listed are 0. -/
structure Hart where
  pc     : Word := 0
  x      : FMap Nat Word := []
  f      : FMap Nat Word := []
  v      : FMap Nat Bytes := []
  vl     : Word := 0
  vtype  : Word := 0
  fcsr   : Word := 0
  vstart : Word := 0
  /-- vxrm and vxsat. -/
  vcsr   : Word := 0
  mscratch : Word := 0
  mie    : Word := 0
  mip    : Word := 0
  mepc   : Word := 0
  mcause : Word := 0
  mtval  : Word := 0
  mtvec  : Word := 0
  mstatus : Word := 0
deriving DecidableEq, Repr

/-- A task in a task slot (R126 to R131). -/
structure Task where
  hart     : Hart := {}
  prio     : Nat := 0
  pin      : Option Nat := none
  inputs   : List Nat := []
  budget   : Nat := 0
  u        : Option (SpoolId × Nat) := none
  /-- Time it became READY; time of its dispatch; time it spent RUNNING and WAITING before (ns). -/
  readyAt  : Nat := 0
  ranAt    : Nat := 0
  used     : Nat := 0
  /-- The bobbin it awaits. -/
  await    : Option Nat := none
  /-- Stalled for replay: RUNNING without a core (R259). -/
  stalled  : Bool := false
  /-- Its core has been halted since (R453). -/
  haltedAt : Option Nat := none
deriving DecidableEq, Repr

/-- A fault record that waits for ring room (R260). -/
structure HeldFault where
  bytes : Bytes
deriving DecidableEq, Repr

/-- The kill in progress of a context slot (R257): the data its kill record carries. -/
structure KillRec where
  va    : Nat
  astag : Nat
  cause : Nat
  write : Bool
  unit  : Nat
  spool : Nat
  tag   : Nat
  slot  : Nat
deriving DecidableEq, Repr

/-- What a context slot keeps beside its registers. -/
structure CtxAux where
  /-- Sequence number of the next fault record (R260). -/
  seq    : Nat := 0
  held   : List HeldFault := []
  kill   : Option KillRec := none
  /-- VALID was cleared and reads 0 once the last CANCELLED record is written (R426). -/
  clearing : Bool := false
deriving DecidableEq, Repr

/-- Engine group. -/
structure EngState where
  spools : FMap SpoolId Spool := []
  bobs   : FMap (Nat × Nat) BobAux := []
  arrays : FMap (Nat × Nat) ArrAux := []
  engs   : FMap Nat EngAux := []
  stats  : FMap (Nat × Nat) StatEntry := []
  harts  : FMap CoreId Hart := []
  tasks  : FMap (Nat × Nat) Task := []
  ctxs   : FMap (Nat × Nat) CtxAux := []
  /-- Commands of COMMAND_FETCH that the issue path carries (R122): bytes by spool and slot count. -/
  issued : FMap (SpoolId × Nat) Bytes := []
deriving DecidableEq, Repr

/-! ### Memory, migration, translation, coherence -/

/-- A granule (R199 to R211); RESIDENT_LOW granules not listed are cold. -/
structure Gran where
  state    : Nat := 0
  age      : Nat := 0
  heat     : Nat := 0
  frame    : Nat := 0
  astag    : Nat := 0
  part     : Nat := 0
  reported : Bool := false
  /-- The first access of a HIGH_FIRST range in this residence has been reported (R200). -/
  first    : Bool := false
  /-- DEMOTING: the entries are flushed and the copy may begin (R205). PROMOTING: the copy has ended, and the flush is awaited
  (R204). -/
  copying  : Bool := false
  /-- The charge moved to the partition's unaccounted charge: the context was killed during the promotion (R207). -/
  unacct   : Bool := false
  /-- Time its migration began (R404). -/
  since    : Nat := 0
deriving DecidableEq, Repr

/-- A queued promotion or demotion (R202, R207). -/
structure MigReq where
  gran    : Nat
  promote : Bool
  astag   : Nat
  part    : Nat
  /-- It waits for its victim's demotion (R210). -/
  victim  : Option Nat
  /-- It was counted in BOUNCES (R207). -/
  bounced : Bool
deriving DecidableEq, Repr

/-- A FLUSH_TAG queued at the Range Home (R253, R254). -/
structure Flush where
  astag    : Nat
  all      : Bool
  drain    : Bool
  software : Bool
  /-- The migrating granule that it serves (R204, R205). -/
  gran     : Option Nat := none
  /-- It serves the bias change under way (R278). -/
  bias     : Bool := false
  /-- It has dropped its entries: the hub's next number at that moment. -/
  started  : Option Nat := none
deriving DecidableEq, Repr

/-- The record rings of the hub, addressed by MPA (R148, R201, R252, R260, R261, R400). -/
inductive RingId
  | err
  | errP (p : Nat)
  | fr (e n : Nat)
  | pfr (p : Nat)
  | consult
  | hot
deriving DecidableEq, Repr

/-- A write of a hub unit that waits: for its granule's migration (R206), or for an owner's hold on its line (R271). A record
of a ring advances the ring's producer and sends its MSI once it has landed. -/
structure HubWrite where
  addr : Nat
  data : Bytes
  ring : Option RingId
deriving DecidableEq, Repr

/-- A command's access that waits at a granule or at a held line (R206, R213, R271): its identity, the command, the time of
its first attempt, where it would write, and whether TIER_TIMEOUT has answered it. -/
structure TierWait where
  id    : Nat
  u     : SpoolId
  slot  : Nat
  since : Nat
  spans : List (Nat × Nat)
  late  : Bool
deriving DecidableEq, Repr

/-- A consult request (R252). -/
structure Consult where
  id      : Nat
  req     : XlateReq
  /-- The consulted entry, as an RcEntry. -/
  entry   : RcEntry
  since   : Nat
  written : Bool
  restart : Bool
deriving DecidableEq, Repr

/-- A directory entry (R266, R267): the line, whether OWNED, the presence bits, and the owner's data where it differs
from memory. -/
structure DirEnt where
  line  : Nat
  owned : Bool
  pv    : List Nat
  data  : Option Bytes
  /-- OWNED: the time the hold ends (R271). -/
  hold  : Option Nat
  /-- Snoops that wait for the hold to end: connection, message, time of arrival. -/
  waiters : List (Nat × PlaMsg × Nat)
deriving DecidableEq, Repr

/-- A bias change (R278). -/
structure BiasReq where
  start    : Nat
  len      : Nat
  astag    : Nat
  all      : Bool
  toShared : Bool
  /-- Its FLUSH_TAG has been queued (R278, step 2). -/
  flushed  : Bool := false
  /-- Lines of the span that a server core has installed since the request came to the front (R279). -/
  stale    : List Nat := []
deriving DecidableEq, Repr

/-- An access that waits (R206) or a tier request not yet answered (R213). -/
structure StalledReq where
  id    : Nat
  req   : MemReq
  since : Nat
deriving DecidableEq, Repr

/-- The answer a requester saw to an access. -/
inductive AccessOut
  | data (b : Bytes) (poison : Bool)
  | done
  | old (v : Word) (poison : Bool)
  | scFail
  | accessFault
  | misaligned
  | refused
  | stalled (id : Nat)
deriving DecidableEq, Repr

/-- Hub memory group. -/
structure HubState where
  rc       : List RcEntry := []
  walks    : List Walk := []
  nextId   : Nat := 0
  consults : List Consult := []
  flushQ   : List Flush := []
  /-- The migration engine's flushes that wait for room in the queue of 16 (R254). -/
  flushWait : List Flush := []
  grans    : FMap Nat Gran := []
  migQ     : List MigReq := []
  sampleCtr : Nat := 0
  /-- Pool frames withdrawn after a refused repair (R395). -/
  badFrames : List Nat := []
  stalled  : List StalledReq := []
  /-- Writes of hub units that wait, oldest first. -/
  writes   : List HubWrite := []
  tierWaits : List TierWait := []
  /-- Directory entries, most recently used first. -/
  dir      : List DirEnt := []
  biasQ    : List BiasReq := []
  /-- LR reservations: agent bit of R264 and line (R271, R453). -/
  resv     : FMap Nat Nat := []
  /-- Walks and accesses answered, for the observer. -/
  accOut   : List AccessOut := []
  /-- Partition fault rings (R261): next sequence number and records held for room. -/
  pfSeq    : FMap Nat Nat := []
  pfHeld   : FMap Nat (List HeldFault) := []
  /-- Lines, at their home MPAs, that a server core has cached in breach of R248, and whether the line has been evicted since
  (R276). -/
  breach   : List (Nat × Bool) := []
deriving DecidableEq, Repr

/-- A repair of a stacked channel (R227, R228). -/
structure StkRepair where
  kind   : Nat
  chan   : Nat
  bank   : Nat
  target : Nat
deriving DecidableEq, Repr

/-- A flash request (R234). -/
structure FlReq where
  write : Bool
  part  : Nat
  pages : Nat
  lpn   : Nat
  src   : Nat
deriving DecidableEq, Repr

/-- A programmed page: its block and its place in it, and the spare area's logical page number, sequence number and CRC-32 (R235);
the flash key it is encrypted under: partition and generation (R234, R379). Blocks are numbered over all NAND dies. -/
structure FlPage where
  block : Nat
  page  : Nat
  lpn   : Nat
  seq   : Word
  crc   : Nat
  key   : Nat × Nat
deriving DecidableEq, Repr

/-- A page of a request in flight at a loss of power, with the bytes and poisoned lines its logical page held before (R235 to R239);
a TRIM programs no page. -/
structure FlProg where
  lpn : Nat
  page : Option FlPage
  old : List (Nat × Byte)
  bad : List Nat
  was : Option FlPage
deriving DecidableEq, Repr

/-- Memory-device group. -/
structure DevState where
  stkQ      : FMap Nat (List StkRepair) := []
  /-- Spares used: (die, channel, kind, bank or group) ↦ count. -/
  stkUsed   : FMap (Nat × Nat × Nat × Nat) Nat := []
  /-- Refreshes postponed (positive) or pulled in (negative) per bank (R225). -/
  refDebt   : FMap (Nat × Nat × Nat) Int := []
  /-- When the bank's last refresh fell due, and the channel's last re-training window began (R225, R226). Die 8 stands for the
  bulk devices (R230). -/
  refAt     : FMap (Nat × Nat × Nat) Nat := []
  recalAt   : FMap (Nat × Nat) Nat := []
  /-- Rows of bulk devices repaired soft, and those repaired hard since: channel, bank, row (R230). -/
  softRows  : List (Nat × Nat × Nat) := []
  hardRows  : List (Nat × Nat × Nat) := []
  flQ       : List FlReq := []
  /-- Sequence number of the newest page programmed in the module (R235). -/
  flSeq     : Word := 0
  /-- The mapping tables, and the mapping journal since they were written (R233, R237). -/
  flTable   : FMap Nat FlPage := []
  flJournal : List FlPage := []
  /-- Lower pages whose word line awaits its second pass: the copies in the SLC journal (R239). -/
  flLower   : List FlPage := []
  /-- The block being filled and its next page; the blocks programmed since their last erase (R235). -/
  flBlock   : Option (Nat × Nat) := none
  flWritten : List Nat := []
  flInflight : List FlProg := []
  /-- Retired NAND blocks (R393) and the time of each block's last scrub (R392). -/
  flRetired : List Nat := []
  flScrubbed : FMap Nat Nat := []
  /-- The flash window accepts reads (R237). -/
  flOpen    : Bool := false
  /-- No new program or erase starts (R236, R412). -/
  flStop    : Bool := false
  /-- The margining sweeps that run, oldest first: interface, unit, axis (R241). -/
  margin    : List (Nat × Nat × Nat) := []
  /-- Lines read in the current pass of the patrol scrub (R391). -/
  scrubbed  : Nat := 0
deriving DecidableEq, Repr

/-! ### Training step -/

/-- The update under way (R302, R303). -/
structure Upd where
  step    : Nat
  seg     : Nat
  hank    : Nat
  /-- Per segment, largest master magnitude so far (R304). -/
  amax    : List (Nat × Nat)
deriving DecidableEq, Repr

/-- The checkpoint under way (R305). -/
structure Ckpt where
  step    : Nat
  optT    : Nat
  slotB   : Bool
  /-- Hanks written so far, and hanks of the checkpoint: (segment, hank, global id). -/
  todo    : List (Nat × Nat × Nat)
  done    : Nat
deriving DecidableEq, Repr

/-- A closed step (R287): the snapshot taken at the close, its merge by tensor id (R297), and whether that is done. -/
structure ClosedStep where
  step   : Nat
  snap   : List StatEntry
  merged : List StatEntry
  done   : Bool
deriving DecidableEq, Repr

/-- A step job beside its registers. -/
structure Job where
  /-- Steps closed and not yet voted, oldest first. -/
  closed   : List ClosedStep := []
  /-- Pennant causes raised per step not yet voted (R296). -/
  causes   : FMap Nat Nat := []
  /-- The step whose outcome is awaited: that of every earlier step is known. -/
  awaited  : Nat := 0
  /-- The last step this member voted for, and when. -/
  voted    : Option (Nat × Nat) := none
  /-- This member's own contribution to the awaited step: raised. -/
  ownVote  : Option Bool := none
  /-- The job was STATE_LOST when it voted (R300). -/
  votedLost : Bool := false
  /-- Children heard for the awaited step: rank, OR, count (R336). -/
  kids     : List (Nat × Bool × Nat) := []
  /-- HALYARD_UP sent for the awaited step. -/
  upSent   : Bool := false
  /-- Root: time of the first contribution (R299). -/
  firstAt  : Option Nat := none
  /-- The job is DIVERGED (R300); STATE_LOST (R303). -/
  diverged : Bool := false
  lost     : Bool := false
  /-- Steps with a CLEAR outcome whose Hoist has not come, oldest first. -/
  hoists   : List Nat := []
  upd      : Option Upd := none
  /-- Hanks handed to the all-gather and not acknowledged by every member, oldest first: operation, and whether no member
  has refused it. -/
  gather   : List (Nat × Bool) := []
  ckpt     : Option Ckpt := none
  /-- Checkpoints to start: step and OPT_T after it (R305). -/
  ckptDue  : List (Nat × Nat) := []
  lastSlotB : Bool := true
  /-- A restore runs, from slot B or A (R307). -/
  restore  : Option Bool := none
  /-- The OPT_* set taken at the Hoist (R302): LR, beta1, beta2, eps, weight decay, gradient scale, RND. -/
  opt      : List Nat := []
  /-- Module time since the optimiser waits for the checkpoint (R306). -/
  waitSince : Option Nat := none
deriving DecidableEq, Repr

/-! ### Fabric -/

/-- A packet sent and not acknowledged, or waiting to be sent: its frame, the time it was sent, and the operation of the hub
that it belongs to (0: none). -/
structure Pkt where
  frame : Frame
  sent  : Nat
  owner : Nat
  /-- Its payload as sent, with the GCM tag of an encrypted connection: a retransmission repeats it (R326). -/
  body  : Bytes := []
  /-- It was handed back and waits for a plane to go again (R318, R330). -/
  again : Bool := false
deriving DecidableEq, Repr

/-- A frame as a port sends it (R313 to R317, R326): the encapsulation in force with its EtherType, the UDP ports, PCP and DSCP of
its class, the link word of direct mode, the header with its ICRC, and the payload with the GCM tag. -/
structure Wire where
  port   : Nat
  encap  : Nat
  etype  : Nat
  udp    : Option (Nat × Nat)
  pcp    : Nat
  dscp   : Nat
  link   : Bytes
  header : Bytes
  body   : Bytes
deriving DecidableEq, Repr

/-- A connection's transport state (R320 to R326). -/
structure Conn where
  open_    : Bool := false
  peer     : Nat := 0
  enc      : Bool := false
  pin      : Bool := false
  part     : Nat := 0
  remote   : Nat := 0
  astag    : Nat := 0
  keySlot  : Nat := 0
  planes   : Nat := 0
  winLog2  : Nat := 6
  /-- Packets numbered so far: the extended PSN of the next one (R326). -/
  sendPsn  : Nat := 0
  inflight : List Pkt := []
  /-- Packets that wait for the context, the window or a plane. -/
  outQ     : List Pkt := []
  /-- Next PSN expected in order, PSNs above it that have been applied, and FENCE packets that wait. -/
  recvPsn  : Nat := 0
  arrived  : List Nat := []
  fenced   : List Frame := []
  /-- Frames applied of messages that are not whole yet. -/
  parts    : List Frame := []
  /-- Arrivals not acknowledged, their first time, and congestion seen (R321). -/
  ackDue   : Nat := 0
  ackSince : Nat := 0
  ece      : Bool := false
  /-- Per plane: congestion window, RTO in µs, consecutive expiries, times of its last rise and fall (R322, R323). -/
  cwnd     : FMap Nat Nat := []
  rto      : FMap Nat Nat := []
  expiries : FMap Nat Nat := []
  rose     : FMap Nat Nat := []
  halved   : FMap Nat Nat := []
  closing  : Bool := false
  /-- Its context is being fetched (R325). -/
  fetching : Bool := false
  /-- Arrived frames that wait for the context. -/
  waiting  : List Frame := []
deriving DecidableEq, Repr

/-- A port's link layer (R317 to R319). -/
structure Port where
  lseq     : Nat := 0
  expect   : Nat := 0
  credits  : Nat := 4096
  owed     : Nat := 0
  /-- Frames not acknowledged by the link partner, oldest first, and the replays of the oldest. -/
  replay   : List Frame := []
  /-- The frames of `replay` as they were sent. -/
  wires    : List Wire := []
  replays  : Nat := 0
  nakSent  : Bool := false
  unacked  : Nat := 0
  unackedSince : Nat := 0
deriving DecidableEq, Repr

/-- A peer (R330): state, planes failed for it, time of the last PROBE per plane, time since which no plane is UP. -/
structure Peer where
  state    : Nat := 0
  failed   : List Nat := []
  probeAt  : FMap Nat Nat := []
  downSince : Option Nat := none
deriving DecidableEq, Repr

/-- A piece of a group operation received: source rank, ADDR, payload, its poisoned spans. -/
structure CollPiece where
  rank : Nat
  addr : Nat
  data : Bytes
  bad  : List (Nat × Nat)
deriving DecidableEq, Repr

/-- A group or point-to-point operation of the hub under way (R331 to R334). -/
structure FabOp where
  id     : Nat
  u      : SpoolId
  slot   : Nat
  /-- COLLECTIVE OP code. -/
  op     : Nat
  /-- Group, operation number; peer of a point-to-point operation. -/
  group  : Nat
  opid   : Nat
  peer   : Nat
  /-- Rank in the group, member peer ids in rank order. -/
  rank   : Nat
  members : List Nat
  halving : Bool
  len    : Nat
  /-- This member's bytes and their poisoned spans. -/
  data   : Bytes
  bad    : List (Nat × Nat)
  dst    : Nat
  max    : Bool
  bs16   : Bool
  tensor : Nat
  root   : Nat
  step   : Nat
  got    : List CollPiece
  /-- Sends made: target rank, phase, shard. -/
  done   : List (Nat × Nat × Nat)
  /-- Payload bytes sent. -/
  sent   : Nat
  wrote  : Bool
  /-- The result landed poisoned. -/
  pois   : Bool
  /-- Time of its last progress. -/
  since  : Nat
deriving DecidableEq, Repr

/-- A grant for a DISPATCH (R340): peer, landing entry, first slot, accepted, rows per target, GRANTS, target epochs. -/
structure Grant where
  peer     : Nat
  idx      : Nat
  first    : Nat
  accepted : Nat
  cap      : Nat
  grants   : Nat
  epochs   : List Nat
deriving DecidableEq, Repr

/-- A token copy of a DISPATCH: token, k, expert, peer, landing entry. -/
structure Copy where
  tok    : Nat
  k      : Nat
  expert : Nat
  peer   : Nat
  idx    : Nat
deriving DecidableEq, Repr

/-- A DISPATCH at its source (R340, R341). -/
structure Disp where
  id      : Nat
  u       : SpoolId
  slot    : Nat
  group   : Nat
  opid    : Nat
  members : List Nat
  copies  : List Copy
  grants  : List Grant
  /-- Members whose grants are all here. -/
  granted : List Nat
  /-- MAP_VA is written; the accepted copies that have not left yet. -/
  rows    : Bool
  left    : List Copy := []
  accepted : Nat
  dropped : Nat
  /-- The reason of the first refusal that a member sent; 0: none. -/
  nack    : Nat
  since   : Nat
deriving DecidableEq, Repr

/-- The counts a host holds of one source for one DISPATCH (R340): group, operation, partition, source peer, landing
entry ↦ copies, token format and elements. -/
structure LandCount where
  group  : Nat
  opid   : Nat
  part   : Nat
  peer   : Nat
  fmt    : Nat
  counts : List (Nat × Nat)
deriving DecidableEq, Repr

/-- A landing entry's target in progress (R341): partition, group and operation number, entry, target, rows, rows outstanding,
and whether a row was refused. -/
structure Landing where
  part    : Nat
  group   : Nat
  opid    : Nat
  idx     : Nat
  target  : Nat
  rows    : Nat
  left    : Nat
  refused : Bool
deriving DecidableEq, Repr

/-- A COMBINE request held at the host (R342): the connection that asked (none: this module), its partition and operation,
the slot run of a landing entry, the GRANTS value to reach, elements per row. -/
structure CombReq where
  id     : Nat
  conn   : Option Nat
  part   : Nat
  group  : Nat
  opid   : Nat
  idx    : Nat
  first  : Nat
  count  : Nat
  need   : Nat
  n      : Nat
deriving DecidableEq, Repr

/-- An expert output row: peer, landing entry, slot, its FP32 values, whether it was poisoned. -/
structure CombRow where
  peer   : Nat
  idx    : Nat
  slot   : Nat
  vals   : List (BitVec 32)
  bad    : Bool
deriving DecidableEq, Repr

/-- A COMBINE at its source (R342). -/
structure Comb where
  id     : Nat
  u      : SpoolId
  slot   : Nat
  group  : Nat
  opid   : Nat
  /-- Slots awaited: peer, landing entry, slot. -/
  need   : List (Nat × Nat × Nat)
  rows   : List CombRow
  /-- The reason of the first refusal that a host sent; 0: none. -/
  nack   : Nat
  since  : Nat
deriving DecidableEq, Repr

/-- A SEND refused BUSY, to be retried (R329): connection, PSN, time. -/
structure Retry where
  id    : Nat
  conn  : Nat
  psn   : Nat
  since : Nat
deriving DecidableEq, Repr

/-- What the DISPATCH that wrote a MAP_VA was granted (R342): partition, ASTAG, MAP_VA, and GRANTS by peer and landing
entry. -/
structure MapRec where
  part   : Nat
  astag  : Nat
  va     : Nat
  grants : List (Nat × Nat × Nat)
deriving DecidableEq, Repr

/-- What the hub accesses memory for beside the frames and the commands (R252). -/
inductive HubAsk
  /-- A held COMBINE request, by its number. -/
  | comb (id : Nat)
  /-- The grant of a DISPATCH: partition, group, operation number. -/
  | grant (part group opid : Nat)
  /-- The members of a group: partition, group. -/
  | group (part gid : Nat)
deriving DecidableEq, Repr

/-- Fabric group. -/
structure FabState where
  conns  : FMap Nat Conn := []
  /-- Contexts cached, most recently used first (R325). -/
  cached : List Nat := []
  ports  : FMap Nat Port := []
  peers  : FMap Nat Peer := []
  ops    : List FabOp := []
  nextOp : Nat := 1
  /-- Group operations issued so far, per group (R331). -/
  opCount : FMap Nat Nat := []
  disps  : List Disp := []
  counts : List LandCount := []
  lands  : List Landing := []
  combQ  : List CombReq := []
  combs  : List Comb := []
  retries : List Retry := []
  /-- HALYARD messages seen: partition, step, opcode, source (R336). -/
  halySeen : List (Nat × Nat × Nat × Nat) := []
  maps   : List MapRec := []
  /-- COLL_DATA frames that arrived before their operation was issued here, with their connection. -/
  early  : List (Nat × Frame) := []
  /-- Frames that await the answer to a consult request: request, connection, frame. -/
  asked  : List (Nat × Nat × Frame) := []
  /-- Accesses of the hub's own that await the answer to a consult request, with the request. -/
  asks   : List (Nat × HubAsk) := []
  /-- Frames whose access waits for a migration or a held line (R206, R271), with their connection. -/
  held   : List (Nat × Frame) := []
  /-- Frames the module has sent, oldest first; the same frames as the ports sent them. -/
  out    : List Frame := []
  wire   : List Wire := []
  /-- The connection that DATA frames were last taken from (R314). -/
  served : Nat := 0
  /-- The module accepts Ehrant traffic (R432). -/
  ready  : Bool := false
deriving DecidableEq, Repr

/-! ### Die-to-die -/

/-- The 240 bytes that Plalia owns of a flit, sent on a module of a connection (R345, R346). -/
structure Flit where
  link : Nat
  mod  : Nat
  body : Bytes
deriving DecidableEq, Repr

/-- A UCIe connection beside PLA_LINK_STATE_n and PLA_LINK_PEER_n (R351 to R361). -/
structure Link where
  activeAt : Option Nat := none
  /-- The DISCOVER line received from the other end. -/
  heard    : Option Bytes := none
  agreed   : Bool := false
  winBase  : List (Nat × Nat) := []
  /-- MSIs that wait, each with the accesses it waits for (R349). -/
  msiHeld  : List (PlaMsg × List Nat) := []
  failedAt : Option Nat := none
  inReset  : Bool := false
  /-- Requests this end has outstanding: tag and kind. -/
  outReq   : List (Nat × Nat) := []
  /-- Offset and length, in its line, of a server core's access to the guest's windows: by tag. -/
  slice    : FMap Nat (Nat × Nat) := []
  /-- Slots that the other end can still take of each class of R346, and slots it is owed. -/
  credits  : List Nat := []
  owed     : List Nat := []
  /-- Messages that wait for slot credits, oldest first; the module that the next flit takes. -/
  flitQ    : List PlaMsg := []
  nextMod  : Nat := 0
deriving DecidableEq, Repr

/-- Die-to-die group. -/
structure D2dState where
  links   : FMap Nat Link := []
  /-- Plalia messages the hub has given to the connections: link and message; the flits that carried them. -/
  out     : List (Nat × PlaMsg) := []
  flits   : List Flit := []
  /-- Times of the guest's refused requests in the last second, and the time since which it owes credits (R357). -/
  guestBad : List Nat := []
  guestCredit : Option Nat := none
  removed : List Nat := []
  /-- Self-test and bypass report (D2D_TEST_RESULT). -/
  testResult : Bytes := []
  /-- MGT requests and responses received from the dies: connection and message. -/
  telemetry : List (Nat × PlaMsg) := []
  /-- Accesses of Plalia requests that wait: identity of the access ↦ link and request. -/
  waits : FMap Nat (Nat × PlaMsg) := []
deriving DecidableEq, Repr

/-! ### Security -/

/-- An image in a boot-flash slot (R374): VERSION, SVN, whether its signature and its body verify, its body digest. -/
structure Image where
  version : Nat := 0
  svn     : Nat := 0
  sigOk   : Bool := true
  bodyOk  : Bool := true
  digest  : Bytes := []
deriving DecidableEq, Repr

/-- Credential roles (R383). -/
inductive Role | operator | security | service | tenant (p : Fin 16)
deriving DecidableEq, Repr

/-- One staged write (R384). -/
structure Triple where
  index : Nat
  sub   : Nat
  value : Bytes
deriving DecidableEq, Repr

/-- A stage set (R384). -/
structure StageSet where
  cred     : Nat := 0
  role     : Option Role := none
  items    : List Triple := []
  digest   : Bytes := []
  sealedAt : Nat := 0
  /-- The digest last written by each session for confirmation is in `SecState.confirm`. -/
  tag      : Nat := 0
deriving DecidableEq, Repr

/-- A session (R377, R383, R444). -/
structure Session where
  tr      : Transport
  /-- Credential index and role; `none` until FINISH authenticates the requester. -/
  cred    : Option (Nat × Role)
  last    : Nat
  established : Bool
  keyGen  : Nat
  heartbeat : Nat
deriving DecidableEq, Repr

/-- A link key slot (R382). -/
structure LinkKey where
  key      : Bytes := []
  gen      : Nat := 0
  prev     : Option (Bytes × Nat) := none
  replacedAt : Nat := 0
deriving DecidableEq, Repr

/-- An SPDM connection per transport: version, capabilities and algorithms negotiated (R377). -/
structure SpdmConn where
  version : Nat := 0
  caps    : Bool := false
  algs    : Bool := false
deriving DecidableEq, Repr

/-- Security group. -/
structure SecState where
  slots    : FMap Nat Image := []
  runSlot  : Nat := 0
  /-- The slot whose firmware a class of R398 runs (0 to 4 for classes 1 to 5), where an activation changed it. -/
  classSlot : FMap Nat Nat := []
  fuseSvn  : Nat := 0
  creds    : FMap Nat Role := []
  sets     : FMap Nat StageSet := []
  confirm  : FMap Nat Bytes := []
  /-- Objects of confirmed sets whose action is still to run (FW_IMAGE, SVN_COMMIT, keys, ...), in order, with the session kind that carried them. -/
  actions  : List Triple := []
  /-- The ownership objects of a confirmed set that awaits its scrub (R370), and the set's number. -/
  layout   : Option (List Triple × Nat) := none
  keys     : FMap (Nat × Nat) LinkKey := []
  /-- Generation of the stacked, bulk and flash keys of each partition (R379). -/
  memKeys  : FMap Nat Nat := []
  flashKeys : FMap Nat Nat := []
  sessions : FMap Nat Session := []
  spdm     : FMap Nat SpdmConn := []
  nextSes  : Nat := 0
  meas     : FMap Nat Bytes := []
  lastDigest : Bytes := []
  debugUntil : Nat := 0
  spdmOut  : List Bytes := []
  bootFail : Bool := false
deriving DecidableEq, Repr

/-! ### Reliability -/

/-- Reliability group. -/
structure RelState where
  /-- Corrected errors per location: time of the last record, suppressed since (R401). -/
  supp     : FMap Nat (Nat × Nat) := []
  /-- Corrected errors per DRAM row in 24 h (R393): (die, 12 for bulk, channel, bank, row) ↦ times. -/
  rowErr   : FMap (Nat × Nat × Nat × Nat) (List Nat) := []
  /-- Corrected errors per stacked column in 24 h: (die, channel, bank, column) ↦ rows and times. -/
  colErr   : FMap (Nat × Nat × Nat × Nat) (List (Nat × Nat)) := []
  /-- Corrected sectors per stacked connection in 1 s: (die, channel, connection) ↦ lines and times (R393). -/
  connErr  : FMap (Nat × Nat × Nat) (List (Nat × Nat)) := []
  /-- The entries of the newest copy of the repair map, and that copy's sequence number (R394). -/
  repairMap : List Bytes := []
  repairSeq : Nat := 0
  spareCores : FMap Nat Nat := []
  removedCores : List Nat := []
  region   : List Byte := []
  evrSeq   : Nat := 0
  epochStart : Nat := 0
  prevLost : Bool := false
  /-- Counts of the epoch: (section type, instance, word) ↦ count. -/
  epoch    : FMap (Nat × Nat × Nat) Nat := []
  /-- Variable sections of the epoch: type, instance, payload. -/
  events   : List (Nat × Nat × Bytes) := []
  /-- I3C in-band interrupts raised (R402). -/
  ibi      : Nat := 0
deriving DecidableEq, Repr

/-! ### Power, start-up, pins -/

/-- Power group. -/
structure PowState where
  /-- 0 off and waiting for the start condition, 1 starting or running, 2 power-fail sequence ended with the input to be
  cycled (thermal shutdown). -/
  mode      : Nat := 0
  /-- Steps of R431 that have ended. -/
  ended     : List Nat := []
  /-- Time the input first reached 42.0 V. -/
  startAt   : Nat := 0
  pwrGoodAt : Nat := 0
  /-- Pins. -/
  pwrGood   : Bool := false
  thermAlertN : Bool := true
  modRstLow : Nat := 0
  heldInReset : Bool := false
  testSel   : Nat := 3
  idStrap   : Nat := 7
  /-- The straps have been sampled since power-on (R362). -/
  strapped  : Bool := false
  /-- Start condition: input at or above 42.0 V since; over-voltage: above 59.5 V since. -/
  above42   : Option Nat := none
  overSince : Option Nat := none
  /-- Time of the last input sample below 42.0 V, and the excursions below 41.0 V of the dip under way (R411). -/
  lowAt     : Nat := 0
  dips      : Nat := 0
  /-- Power limit of R414 and thermal limit of each compute die, MHz. -/
  capMhz    : Nat := 1800
  dieMhz    : FMap Nat Nat := []
  /-- Server cores: clock in force; boost withdrawn per server die; thermal limit. -/
  coreMhz   : FMap Nat Nat := []
  boostOff  : List Nat := []
  scLimit   : FMap Nat Nat := []
  /-- Sensors at or above their throttle limit. -/
  throttled : List Sensor := []
  coolantHot : Bool := false
  migPaused : Bool := false
  carderHalf : Bool := false
  /-- Under-stack above 85 °C (R225). -/
  stackHot  : List Nat := []
  /-- Generations (R427) of cores, dies and Carder units; engines have ENG_GEN. -/
  gens      : FMap UnitId Nat := []
  stale     : FMap UnitId Nat := []
  /-- Departures in progress: unit and start time (R428). -/
  departs   : FMap UnitId Nat := []
  /-- Server cores that have run: released by hub firmware into the P_0 loader, or at CORE_BOOT (R429). -/
  corePc    : FMap Nat Word := []
  /-- POWER_ON_COUNT. -/
  powerOns  : Nat := 0
  /-- The start-up step that failed. -/
  failedStep : Option Nat := none
  /-- Both server dies are lost: the module serves no work (R25). -/
  stopped   : Bool := false
deriving DecidableEq, Repr

/-! ### Management and debug -/

/-- An open transfer (R441). -/
structure Xfer where
  write  : Bool
  index  : Nat
  sub    : Nat
  total  : Nat
  data   : Bytes
  done   : Nat
  toggle : Bool
  last   : Nat
  ses    : Option Nat
  /-- TOKEN of its latest request. -/
  token  : Byte
deriving DecidableEq, Repr

/-- An Auquin response (R440). -/
structure AuqRsp where
  tr     : Transport
  op     : Nat
  token  : Byte
  index  : Nat
  sub    : Nat
  status : Nat
  expedited : Bool
  last   : Bool
  toggle : Bool
  total  : Nat
  data   : Bytes
deriving DecidableEq, Repr

/-- Management and debug group. -/
structure MgmtState where
  xfers   : FMap Transport Xfer := []
  rsps    : List AuqRsp := []
  /-- Registers of the debug modules: (module, DMI address) ↦ data (R450). -/
  dmi     : FMap (Nat × Nat) (BitVec 32) := []
  /-- Halted harts: (module, hart) (R453). -/
  halted  : List (Nat × Nat) := []
  /-- Harts that have acknowledged a resume, and harts reset since the last acknowledgement (R450). -/
  resumed : List (Nat × Nat) := []
  reset_  : List (Nat × Nat) := []
  /-- Halt group of a hart: 0 none (R450). -/
  haltGroup : FMap (Nat × Nat) Nat := []
  /-- Registers of halted harts that a debugger has written and that no other record of the state holds: (module, hart, register
  number of the debug specification). -/
  hartRegs : FMap (Nat × Nat × Nat) Word := []
  /-- Addressing objects written and not yet applied (R444). -/
  applied : FMap (Nat × Nat) Bytes := []
  /-- RWP writes of the last second, newest first: object, value before, time (R437). -/
  recent  : List ((Nat × Nat) × Bytes × Nat) := []
  mgtUp   : Bool := false
  /-- Upper half of MODULE_TIME latched per hart (HUB MODULE_TIME). -/
  timeLatch : FMap Agent Nat := []
  /-- IMSIC identities pending: (server core, file) ↦ identities (R247, R446). -/
  imsic   : FMap (Nat × Nat) (List Nat) := []
  /-- MSI writes sent: address and data, oldest first. -/
  msiOut  : List (Nat × Nat) := []
  /-- Values a register access returned, oldest first. -/
  regOut  : List Word := []
  tapResult : Bytes := []
deriving DecidableEq, Repr

/-- The state of the module. -/
structure State where
  /-- Commands that wait, first in, first out. -/
  pending : List Instr := []
  /-- Module time in ns (R400). -/
  time    : Nat := 0
  /-- The model's own counter of free values drawn. -/
  freeCtr : Nat := 0
  /-- MMIO registers that have left their reset value. -/
  regs    : FMap RegKey Word := []
  /-- Pending sets of the armed groups (R448). -/
  pend    : FMap RegKey Word := []
  /-- Dictionary objects that have left their default (index, subindex). -/
  dict    : FMap (Nat × Nat) Bytes := []
  /-- Memory of the MPA space, in canonical form. -/
  mem     : List Host.Cell := []
  /-- Poisoned 64-byte lines, by MPA / 64, rising (R214). -/
  poison  : List Nat := []
  eng     : EngState := {}
  hub     : HubState := {}
  dev     : DevState := {}
  jobs    : FMap Nat Job := []
  fab     : FabState := {}
  d2d     : D2dState := {}
  sec     : SecState := {}
  rel     : RelState := {}
  pow     : PowState := {}
  mgmt    : MgmtState := {}
deriving DecidableEq, Repr

/-- The module right after reset: every register at its reset value, every queue empty, memory with nothing listed. -/
def State.reset : State := {}

end Sys2Proof.Machine
end

