-- ==== Sys2Proof/Machine/Formats.lean ====
section
/-! DEFINITION. Number formats (R34 to R46), the conversions of the expander (R52, R53), the rounding and block scales of the
drain quantiser (R66 to R74), and FP32 arithmetic. Every value is exact, a mantissa times a power of two, until the one
rounding its rule names. -/

namespace Sys2Proof.Machine

open Sys2Proof

/-! ### Exact values -/

/-- m × 2^e. -/
structure Dy where
  m : Int
  e : Int
deriving DecidableEq, Repr

/-- A number or a non-finite value. -/
inductive Num
  | fin (d : Dy)
  | inf (neg : Bool)
  | nan
deriving DecidableEq, Repr

def Dy.zero : Dy := ⟨0, 0⟩
def Dy.neg (a : Dy) : Dy := ⟨-a.m, a.e⟩
def Dy.mul (a b : Dy) : Dy := ⟨a.m * b.m, a.e + b.e⟩
def Dy.scale (a : Dy) (k : Int) : Dy := ⟨a.m, a.e + k⟩
/-- The mantissa in units of 2^e, for e at most the value's own. -/
def Dy.inUnit (a : Dy) (e : Int) : Int := a.m * (2 : Int) ^ (a.e - e).toNat
def Dy.add (a b : Dy) : Dy := let e := min a.e b.e; ⟨a.inUnit e + b.inUnit e, e⟩
def Dy.sub (a b : Dy) : Dy := a.add b.neg
def Dy.abs (a : Dy) : Dy := ⟨a.m.natAbs, a.e⟩
def Dy.isNeg (a : Dy) : Bool := decide (a.m < 0)
def Dy.isZero (a : Dy) : Bool := decide (a.m = 0)
def Dy.lt (a b : Dy) : Bool := let e := min a.e b.e; decide (a.inUnit e < b.inUnit e)
def Dy.le (a b : Dy) : Bool := !(b.lt a)
def Dy.max (a b : Dy) : Dy := if a.lt b then b else a
def Dy.min (a b : Dy) : Dy := if b.lt a then b else a
/-- ⌊log₂|x|⌋ of a nonzero value: its binade. -/
def Dy.binade (a : Dy) : Int := (a.m.natAbs.log2 : Int) + a.e
def Dy.ofNat (n : Nat) : Dy := ⟨n, 0⟩

/-- A value truncated toward zero at 2^lsb, in units of 2^lsb (R59). -/
def Dy.truncAt (a : Dy) (lsb : Int) : Int :=
  if lsb ≤ a.e then a.inUnit lsb
  else
    let q : Int := (a.m.natAbs / 2 ^ (lsb - a.e).toNat : Nat)
    if a.m < 0 then -q else q

/-! ### Rounding (R67, R68) -/

/-- n / d rounded to an integer: 0 to nearest, ties to even; 1 toward zero; 2 stochastic with 16 random bits. -/
def rndQ (mode n d r : Nat) : Nat :=
  let q := n / d
  let m := n % d
  if mode = 0 then (if d < 2 * m ∨ (2 * m = d ∧ q % 2 = 1) then q + 1 else q)
  else if mode = 1 then q
  else if r < 65536 * m / d then q + 1 else q

/-- n / d rounded up. -/
def rndUp (n d : Nat) : Nat := (n + d - 1) / d

/-- |x| in units of 2^lsb, rounded. -/
def rndMag (mode r : Nat) (x : Dy) (lsb : Int) : Nat :=
  if lsb ≤ x.e then x.m.natAbs * 2 ^ (x.e - lsb).toNat else rndQ mode x.m.natAbs (2 ^ (lsb - x.e).toNat) r

/-! ### Floating-point encodings (R36) -/

/-- A sign, exponent and fraction encoding: fraction bits, exponent bits, bias, and the largest finite value. -/
structure FloatFmt where
  mb   : Nat
  eb   : Nat
  bias : Nat
  max  : Dy
  /-- Codes with the exponent all ones: infinities and NaNs, only the NaN with an all-ones fraction, or numbers. -/
  infs : Bool
  nanOnly : Bool

def ffB32 : FloatFmt := ⟨23, 8, 127, ⟨2 ^ 24 - 1, 104⟩, true, false⟩
def ffB16 : FloatFmt := ⟨10, 5, 15, ⟨65504, 0⟩, true, false⟩
def ffBf16 : FloatFmt := ⟨7, 8, 127, ⟨255, 120⟩, true, false⟩
def ffE4m3 : FloatFmt := ⟨3, 4, 7, ⟨448, 0⟩, false, true⟩
def ffE5m2 : FloatFmt := ⟨2, 5, 15, ⟨57344, 0⟩, true, false⟩
def ffE3m2 : FloatFmt := ⟨2, 3, 3, ⟨28, 0⟩, false, false⟩
def ffE2m3 : FloatFmt := ⟨3, 2, 1, ⟨15, -1⟩, false, false⟩
def ffE2m1 : FloatFmt := ⟨1, 2, 1, ⟨6, 0⟩, false, false⟩

/-- The exponent of the smallest normal number. -/
def FloatFmt.emin (f : FloatFmt) : Int := 1 - (f.bias : Int)

/-- The value of a code. An input of −0 is zero (R38). -/
def FloatFmt.dec (f : FloatFmt) (c : Nat) : Num :=
  let fr := c % 2 ^ f.mb
  let ex := c / 2 ^ f.mb % 2 ^ f.eb
  let neg := decide (c / 2 ^ (f.mb + f.eb) % 2 = 1)
  let top := decide (ex = 2 ^ f.eb - 1)
  if top ∧ f.infs then (if fr = 0 then .inf neg else .nan)
  else if top ∧ f.nanOnly ∧ fr = 2 ^ f.mb - 1 then .nan
  else
    let m : Int := if ex = 0 then fr else fr + 2 ^ f.mb
    let e : Int := (if ex = 0 then f.emin else (ex : Int) - f.bias) - f.mb
    .fin ⟨if neg then -m else m, e⟩

/-- The unit in which a nonzero value of a binade is rounded. -/
def FloatFmt.lsb (f : FloatFmt) (b : Int) : Int := Max.max b f.emin - f.mb

/-- The code of q × 2^lsb, q a rounded magnitude at the unit of its binade. Zero is +0 (R38). -/
def FloatFmt.enc (f : FloatFmt) (neg : Bool) (q : Nat) (lsb : Int) : Nat :=
  if q = 0 then 0
  else
    let s := if neg then 2 ^ (f.mb + f.eb) else 0
    let up := decide (2 ^ (f.mb + 1) ≤ q)
    let q := if up then q / 2 else q
    let lsb := if up then lsb + 1 else lsb
    if q < 2 ^ f.mb then s + q else s + (lsb + f.mb + f.bias).toNat * 2 ^ f.mb + (q - 2 ^ f.mb)

/-! ### FP32 (R60, R64, R132) -/

def f32Nan : BitVec 32 := 0x7FC00000
def f32Inf (neg : Bool) : BitVec 32 := if neg then 0xFF800000 else 0x7F800000
def f32Dec (b : BitVec 32) : Num := ffB32.dec b.toNat

/-- Round to nearest even in a format with infinities; beyond the largest finite value, infinity. -/
def FloatFmt.rne (f : FloatFmt) (d : Dy) : Nat :=
  if d.isZero then 0
  else
    let lsb := f.lsb d.binade
    let q := rndMag 0 0 d lsb
    if f.max.lt ⟨q, lsb⟩ then (if d.isNeg then 2 ^ (f.mb + f.eb) else 0) + (2 ^ f.eb - 1) * 2 ^ f.mb
    else f.enc d.isNeg q lsb

/-- An exact result as FP32, rounded once. -/
def f32Of : Num → BitVec 32
  | .fin d => BitVec.ofNat 32 (ffB32.rne d)
  | .inf n => f32Inf n
  | .nan => f32Nan

def numNeg : Num → Num
  | .fin d => .fin d.neg
  | .inf n => .inf (!n)
  | .nan => .nan

def numAdd : Num → Num → Num
  | .fin a, .fin b => .fin (a.add b)
  | .nan, _ | _, .nan => .nan
  | .inf a, .inf b => if a = b then .inf a else .nan
  | .inf a, .fin _ | .fin _, .inf a => .inf a

def numIsNeg : Num → Bool
  | .fin d => d.isNeg
  | .inf n => n
  | .nan => false

def numMul : Num → Num → Num
  | .fin a, .fin b => .fin (a.mul b)
  | .nan, _ | _, .nan => .nan
  | .inf a, .inf b => .inf (a != b)
  | .inf a, .fin b | .fin b, .inf a => if b.isZero then .nan else .inf (a != b.isNeg)

/-- The sign bit of an FP32 code. -/
def f32Neg (x : BitVec 32) : Bool := decide (2 ^ 31 ≤ x.toNat)

/-- A result whose zero has the sign that IEEE 754 gives it. -/
def f32Sign (neg : Bool) (x : BitVec 32) : BitVec 32 := if x &&& 0x7FFFFFFF = 0 then (if neg then 0x80000000 else 0) else x

/-- A zero sum is negative only of two negative operands; a zero product has the product of the signs (IEEE 754, R132). -/
def f32Add (a b : BitVec 32) : BitVec 32 := f32Sign (f32Neg a && f32Neg b) (f32Of (numAdd (f32Dec a) (f32Dec b)))
def f32Sub (a b : BitVec 32) : BitVec 32 := f32Add a (b ^^^ 0x80000000)
def f32Mul (a b : BitVec 32) : BitVec 32 := f32Sign (f32Neg a != f32Neg b) (f32Of (numMul (f32Dec a) (f32Dec b)))

/-- A fused multiply-add: a result that rounds to zero keeps the exact result's sign. -/
def f32Fma (a b c : BitVec 32) : BitVec 32 :=
  let x := numAdd (numMul (f32Dec a) (f32Dec b)) (f32Dec c)
  let neg := match x with
    | .fin d => if d.isZero then (f32Neg a != f32Neg b) && f32Neg c else d.isNeg
    | _ => false
  f32Sign neg (f32Of x)

/-- a < b of two numbers, none NaN. -/
def numLt : Num → Num → Bool
  | .fin a, .fin b => a.lt b
  | .inf a, .inf b => a && !b
  | .inf a, .fin _ => a
  | .fin _, .inf b => !b
  | _, _ => false

def numFinite : Num → Bool
  | .fin _ => true
  | _ => false

/-- The exact quotient of two values as FP32, rounded once to nearest even; b nonzero. -/
def f32DivDy (a b : Dy) : BitVec 32 :=
  if a.isZero then 0
  else
    -- 2^64 bits beyond the divisor's size keep every bit that the rounding needs, with a sticky bit below them.
    let n := a.m.natAbs * 2 ^ (64 + b.m.natAbs.log2)
    let q := n / b.m.natAbs
    let sticky := if n % b.m.natAbs = 0 then 0 else 1
    let m : Int := (2 * q + sticky : Nat)
    let e : Int := a.e - b.e - (64 + b.m.natAbs.log2) - 1
    BitVec.ofNat 32 (ffB32.rne ⟨if a.isNeg != b.isNeg then -m else m, e⟩)

/-- FP32 division (used where the manual divides). -/
def f32Div (a b : BitVec 32) : BitVec 32 :=
  let neg := f32Neg a != f32Neg b
  match f32Dec a, f32Dec b with
  | .fin x, .fin y => if y.isZero then (if x.isZero then f32Nan else f32Inf neg) else f32Sign neg (f32DivDy x y)
  | .nan, _ | _, .nan => f32Nan
  | .inf _, .inf _ => f32Nan
  | .inf _, .fin _ => f32Inf neg
  | .fin _, .inf _ => f32Sign neg 0

/-- The integer square root, bit by bit. -/
def isqrtFrom (n : Nat) : Nat → Nat → Nat
  | 0, r => r
  | k + 1, r => isqrtFrom n k (if (r + 2 ^ k) * (r + 2 ^ k) ≤ n then r + 2 ^ k else r)
def isqrt (n : Nat) : Nat := isqrtFrom n (n.log2 / 2 + 1) 0

/-- FP32 square root, rounded once to nearest even. -/
def f32Sqrt (a : BitVec 32) : BitVec 32 :=
  match f32Dec a with
  | .nan => f32Nan
  | .inf n => if n then f32Nan else f32Inf false
  | .fin x =>
    if x.isZero then a
    else if x.isNeg then f32Nan
    else
      let odd := x.e % 2 ≠ 0
      let m := if odd then x.m.natAbs * 2 else x.m.natAbs
      let e := if odd then x.e - 1 else x.e
      let n := m * 4 ^ 40
      let q := isqrt n
      let sticky := if q * q = n then 0 else 1
      BitVec.ofNat 32 (ffB32.rne ⟨(2 * q + sticky : Nat), e / 2 - 40 - 1⟩)

/-! ### Format codes (R34) -/

/-- Operand classes. -/
inductive Cls | p | f | h | s | none
deriving DecidableEq, Repr

/-- Elements. -/
inductive Elem
  | flt (f : FloatFmt)
  | int (bits : Nat) (frac : Nat)
  /-- Codes of Z8 and Z4. -/
  | code (bits : Nat)

/-- Block metadata: none, an E8M0 scale, or an FP16 scale with a zero point. -/
inductive Meta | none | e8m0 | zero
deriving DecidableEq, Repr

/-- A storage format. -/
structure Fmt where
  w     : Nat
  elem  : Elem
  mt    : Meta
  cls   : Cls
  drain : Bool

/-- The format of a code; none for a reserved one. KB8 and BS16 have readers and writers of their own. -/
def fmtOf (c : Nat) : Option Fmt :=
  match c with
  | 0x00 => some ⟨32, .flt ffB32, .none, .s, true⟩
  | 0x01 => some ⟨16, .flt ffB16, .none, .h, true⟩
  | 0x02 => some ⟨16, .flt ffBf16, .none, .f, true⟩
  | 0x03 => some ⟨8, .flt ffE4m3, .none, .f, true⟩
  | 0x04 => some ⟨8, .flt ffE5m2, .none, .f, true⟩
  | 0x05 => some ⟨6, .flt ffE3m2, .none, .f, true⟩
  | 0x06 => some ⟨6, .flt ffE2m3, .none, .f, true⟩
  | 0x07 => some ⟨4, .flt ffE2m1, .none, .p, true⟩
  | 0x08 => some ⟨8, .int 8 0, .none, .f, true⟩
  | 0x09 => some ⟨4, .int 4 0, .none, .p, true⟩
  | 0x0A => some ⟨8, .flt ffE4m3, .e8m0, .f, true⟩
  | 0x0B => some ⟨8, .flt ffE5m2, .e8m0, .f, true⟩
  | 0x0C => some ⟨6, .flt ffE3m2, .e8m0, .f, true⟩
  | 0x0D => some ⟨6, .flt ffE2m3, .e8m0, .f, true⟩
  | 0x0E => some ⟨4, .flt ffE2m1, .e8m0, .p, true⟩
  | 0x0F => some ⟨8, .int 8 6, .e8m0, .f, true⟩
  | 0x10 => some ⟨8, .code 8, .zero, .f, true⟩
  | 0x11 => some ⟨4, .code 4, .zero, .f, true⟩
  | 0x12 => some ⟨8, .int 8 0, .none, .none, false⟩
  | 0x13 => some ⟨8, .code 8, .none, .none, false⟩
  | 0x14 => some ⟨16, .flt ffBf16, .e8m0, .none, false⟩
  | _ => none

/-- A format that may be a matrix operand, and one that may be drained (R35). -/
def matFmt (c : Nat) : Option Fmt := (fmtOf c).filter (fun f => decide (f.cls ≠ .none))
def drainFmt (c : Nat) : Option Fmt := (fmtOf c).filter (fun f => f.drain)

/-- Elements a lane carries (R88), bytes of one metadata slot (R90), and of a base field (R89). -/
def Fmt.e (f : Fmt) : Nat := if f.cls = .p then 2 else 1
def Fmt.slot (f : Fmt) : Nat := match f.mt with | .none => 0 | .e8m0 => 1 | .zero => 3
def Fmt.bases (f : Fmt) : Nat := if f.cls = .h ∨ f.cls = .s then 3 else 1
def Fmt.blocked (f : Fmt) : Bool := decide (f.mt ≠ .none)

/-! ### Decoding (R36, R42, R43, R53) -/

/-- Two's complement of `bits` bits. -/
def sext (bits c : Nat) : Int := if c < 2 ^ (bits - 1) then c else (c : Int) - 2 ^ bits

def Elem.dec : Elem → Nat → Num
  | .flt f, c => f.dec c
  | .int b fr, c => .fin ⟨sext b (c % 2 ^ b), -(fr : Int)⟩
  | .code b, c => .fin ⟨c % 2 ^ b, 0⟩

/-- Rounded to 10 significant bits, to nearest even (R53, R56). -/
def round10 (d : Dy) : Dy :=
  if d.isZero then Dy.zero
  else
    let lsb := d.binade - 9
    let q : Int := rndMag 0 0 d lsb
    ⟨if d.isNeg then -q else q, lsb⟩

/-- The value of a code with its block's scale and zero point. -/
def Fmt.dec (f : Fmt) (code scale zp : Nat) : Num :=
  match f.mt with
  | .none => f.elem.dec code
  | .e8m0 =>
    if scale = 0xFF then .nan
    else match f.elem.dec code with
      | .fin d => .fin (d.scale ((scale : Int) - 127))
      | x => x
  | .zero =>
    match ffB16.dec scale with
    | .fin s =>
      let z := match f.elem with | .code b => zp % 2 ^ b | _ => zp
      .fin (round10 (Dy.mul ⟨(code % 2 ^ f.w : Int) - z, 0⟩ s))
    | _ => .nan

/-! ### The drain quantiser (R65 to R74) -/

/-- What quantising one element gives: its code and the counts it enters. -/
structure Quant where
  code    : Nat
  clipped : Bool := false
  flushed : Bool := false
  nonfin  : Bool := false
deriving DecidableEq, Repr

/-- The non-finite codes of formats without block metadata (R65). -/
def Elem.nonfin (w : Nat) : Elem → Num → Nat
  | .flt f, .inf n => if f.infs then (if n then 2 ^ (f.mb + f.eb) else 0) + (2 ^ f.eb - 1) * 2 ^ f.mb else if f.nanOnly then 0x7F else 0
  | .flt f, _ =>
    if f.infs then (if w = 8 then 0x7F else (2 ^ f.eb - 1) * 2 ^ f.mb + 2 ^ (f.mb - 1)) else if f.nanOnly then 0x7F else 0
  | _, _ => 0

/-- Round to the element format by a mode with random bits; beyond the largest finite value the element saturates and is
clipped (R67, R68, R73); a nonzero value that rounds to zero is flushed (R74). R73 names the least codes of INT8 and INT4 only: MXINT8
saturates at its own least code, 0x80, in the same way (DESIGN CHOICE, log 125). -/
def Elem.quant (el : Elem) (mode r : Nat) (y : Dy) : Quant :=
  if y.isZero then ⟨0, false, false, false⟩
  else
    match el with
    | .flt f =>
      let lsb := f.lsb y.binade
      let q := rndMag mode r y lsb
      let t := rndMag 1 0 y lsb
      let big (k : Nat) : Bool := f.max.lt ⟨k, lsb⟩
      if big q then
        let ml := f.lsb f.max.binade
        let c := f.enc y.isNeg (rndMag 1 0 f.max ml) ml
        ⟨c, !(decide (mode = 2) && !big t), false, false⟩
      else ⟨f.enc y.isNeg q lsb, false, decide (q = 0), false⟩
    | .int b fr =>
      let q := rndMag mode r y (-(fr : Int))
      let t := rndMag 1 0 y (-(fr : Int))
      let lim := if y.isNeg then 2 ^ (b - 1) else 2 ^ (b - 1) - 1
      let k := min q lim
      ⟨(if y.isNeg then 2 ^ b - k else k) % 2 ^ b, decide (lim < q) && !(decide (mode = 2) && decide (t ≤ lim)), decide (q = 0), false⟩
    | .code b => ⟨rndMag mode r y 0 % 2 ^ b, false, false, false⟩

/-- The largest finite value of an element format (R70). -/
def Elem.maxFin : Elem → Dy
  | .flt f => f.max
  | .int b fr => ⟨2 ^ (b - 1) - 1, -(fr : Int)⟩
  | .code b => ⟨2 ^ b - 1, 0⟩

/-- The smallest integer b with amax ≤ fmax × 2^b, for amax > 0 (R70). -/
def blockExp (amax fmax : Dy) : Int :=
  let b := amax.binade - fmax.binade
  if amax.le (fmax.scale (b - 1)) then b - 1 else if amax.le (fmax.scale b) then b else b + 1

def clampInt (lo hi x : Int) : Int := max lo (min hi x)

/-- The results of one block quantised: codes, scale and zero point. -/
structure QBlock where
  elems : List Quant
  scale : Nat := 0
  zp    : Nat := 0
deriving DecidableEq, Repr

/-- The largest finite magnitude of a list of results. -/
def maxAbs (xs : List Num) : Dy := xs.foldl (fun a x => match x with | .fin d => a.max d.abs | _ => a) Dy.zero

/-- FP16 rounded upward from n/d × 2^e, limited to 65,504 (R45, R72). -/
def ru16 (n d : Nat) (e : Int) : Nat :=
  if n = 0 then 0
  else
    -- the binade of the quotient, found from the integer parts
    let k : Int := (n.log2 : Int) - d.log2
    let b0 : Int := if n * 2 ^ (-k).toNat < d * 2 ^ k.toNat then k - 1 else k
    let lsb := ffB16.lsb (b0 + e)
    let sh := e - lsb
    let q := rndUp (n * 2 ^ sh.toNat) (d * 2 ^ (-sh).toNat)
    if ffB16.max.lt ⟨q, lsb⟩ then 0x7BFF else ffB16.enc false q lsb

/-- One element of a Z8 or Z4 block: y / s rounded by the command's mode, the zero point added, clamped to 0 to n; in
stochastic mode the other neighbour where the drawn one would leave the codes (R72). -/
def quantZ (mode r n z : Nat) (s y : Dy) : Quant :=
  if s.isZero then ⟨z, false, !y.isZero, false⟩
  else
    let e := min y.e s.e
    let num := (y.abs.inUnit e).natAbs
    let den := (s.inUnit e).natAbs
    let q := rndQ mode num den r
    let at_ (k : Nat) : Int := (if y.isNeg then -(k : Int) else k) + z
    let ok (k : Nat) : Bool := decide (0 ≤ at_ k) && decide (at_ k ≤ n)
    let t := num / den
    let u := if num % den = 0 then t else t + 1
    let q := if mode = 2 ∧ ¬ok q then (if ok t then t else if ok u then u else q) else q
    let c := clampInt 0 n (at_ q)
    ⟨c.toNat, decide (c ≠ at_ q), !y.isZero && decide (c = z), false⟩

/-- A block of results y = x × 2^−c quantised, with the random bits of each element (R65, R70 to R74). -/
def quantBlock (f : Fmt) (mode : Nat) (ys : List (Num × Nat)) : QBlock :=
  let bad := ys.any (fun y => !numFinite y.1)
  let fins := ys.map (fun y => match y.1 with | .fin d => d | _ => Dy.zero)
  match f.mt with
  | .none =>
    { elems := ys.map (fun y => match y.1 with
        | .fin d => f.elem.quant mode y.2 d
        | x => { code := f.elem.nonfin f.w x, nonfin := true }) }
  | .e8m0 =>
    if bad then { elems := ys.map (fun y => { code := 0, nonfin := !numFinite y.1 }), scale := 0xFF }
    else
      let amax := maxAbs (ys.map (fun y => y.1))
      let b := if amax.isZero then -24 else clampInt (-24) 7 (blockExp amax f.elem.maxFin)
      { elems := ys.map (fun y => match y.1 with | .fin d => f.elem.quant mode y.2 (d.scale (-b)) | _ => { code := 0 })
        scale := (127 + b).toNat }
  | .zero =>
    if bad then { elems := ys.map (fun y => { code := 0, nonfin := !numFinite y.1 }), scale := 0x7E00 }
    else
      let n := 2 ^ f.w - 1
      let mn := fins.foldl Dy.min Dy.zero
      let mx := fins.foldl Dy.max Dy.zero
      let d := mx.sub mn
      let sc := ru16 d.m.natAbs n d.e
      let s := match ffB16.dec sc with | .fin s => s | _ => Dy.zero
      let z := if s.isZero then 0 else
        let e := min mn.e s.e
        min n (rndQ 0 (mn.inUnit e).natAbs (s.inUnit e).natAbs 0)
      { elems := ys.map (fun y => match y.1 with | .fin d => quantZ mode y.2 n z s d | _ => { code := 0 }), scale := sc, zp := z }

/-- Stochastic-rounding bits (R69). -/
def srBits (step tensor tile i j : Nat) : Nat :=
  let m := 2 ^ 64
  let k1 := 0x9F3B5C27A4E16D8B
  let x := step % 2 ^ 32 * 2 ^ 32 + tile % 2 ^ 32
  let c := tensor * 2 ^ 14 + i * 2 ^ 7 + j
  let x := Nat.xor x (c * k1 % m)
  let x := Nat.xor x (x / 2 ^ 31)
  let x := x * 0xC2B73A95E61F0D4D % m
  let x := Nat.xor x (x / 2 ^ 29)
  let x := x * k1 % m
  let x := Nat.xor x (x / 2 ^ 32)
  x / 2 ^ 48

/-- A FP32 result as the quantiser sees it: scaled by 2^−c exactly (R66). -/
def scaleOut (x : BitVec 32) (c : Int) : Num := match f32Dec x with
  | .fin d => .fin (d.scale (-c))
  | y => y

/-! ### KB8 and BS16 (R44 to R46) -/

/-- KB8_LIN and KB8_SQRT decoded in FP32 (R44). -/
def kb8Lin (code scale : Nat) : BitVec 32 :=
  if code = 0x80 then f32Nan
  else match ffB16.dec scale with
    | .fin s => f32DivDy (Dy.mul ⟨sext 8 (code % 256), 0⟩ s) (Dy.ofNat 127)
    | _ => f32Nan
def kb8Sqrt (code scale : Nat) : BitVec 32 :=
  match ffB16.dec scale with
  | .fin s =>
    let q := f32DivDy (Dy.mul (Dy.ofNat (code % 256)) s) (Dy.ofNat 255)
    f32Mul q q
  | _ => f32Nan

/-- A KB8 block encoded: scale, codes, clipped elements, and whether the block is non-finite (R45). -/
structure Kb8Block where
  scale : Nat
  codes : List Nat
  clipped : Nat
  nonfin : Bool
deriving DecidableEq, Repr

/-- The code of `lim × |x| / s` with its sign, clamped to `lim`; whether it was clipped. In stochastic mode the neighbour above `lim` may
be drawn: it is then written as `lim` and counted as clipped, and where the neighbour below is drawn nothing is counted (R45 and
R68 leave this open; DESIGN CHOICE, log 124). -/
def kb8Code (mode r lim : Nat) (s x : Dy) : Nat × Bool :=
  if s.isZero then (0, false)
  else
    let e := min x.e s.e
    let q := rndQ mode (lim * (x.abs.inUnit e).natAbs) (s.inUnit e).natAbs r
    (min q lim, decide (lim < q))

def kb8Encode (sqrt : Bool) (mode : Nat) (xs : List (BitVec 32 × Nat)) : Kb8Block :=
  let lim := if sqrt then 255 else 127
  if xs.any (fun x => !numFinite (f32Dec x.1)) then ⟨0x7E00, xs.map (fun _ => 0), 0, true⟩
  else
    let vals := xs.map (fun x => (match f32Dec x.1 with | .fin d => d | _ => Dy.zero, x.2))
    let w (d : Dy) : Dy := if sqrt then (if d.isNeg then Dy.zero else match f32Dec (f32Sqrt (f32Of (.fin d))) with | .fin r => r | _ => Dy.zero) else d
    let mx := vals.foldl (fun a v => a.max (w v.1).abs) Dy.zero
    let sc := ru16 mx.m.natAbs 1 mx.e
    let s := match ffB16.dec sc with | .fin s => s | _ => Dy.zero
    let cs := vals.map (fun v =>
      if sqrt ∧ v.1.isNeg then (0, true)
      else
        let (q, cl) := kb8Code mode v.2 lim s (w v.1)
        (if v.1.isNeg ∧ q ≠ 0 then 256 - q else q, cl))
    ⟨sc, cs.map (fun c => c.1), (cs.filter (fun c => c.2)).length, false⟩

/-- A BS16 block: its scale and the BF16 codes (R46). -/
def bs16Encode (xs : List (BitVec 32)) : Nat × List Nat :=
  let amax := maxAbs (xs.map f32Dec)
  let s : Int := if amax.isZero then 0 else max (-127) amax.binade
  let enc (x : BitVec 32) : Nat := match f32Dec x with
    | .fin d => ffBf16.rne (d.scale (-s))
    | .inf n => if n then 0xFF80 else 0x7F80
    | .nan => 0x7FC0
  ((127 + s).toNat, xs.map enc)

def bs16Decode (scale code : Nat) : BitVec 32 :=
  if scale = 0xFF then f32Nan
  else match ffBf16.dec code with
    | .fin d => f32Of (.fin (d.scale ((scale : Int) - 127)))
    | x => f32Of x

end Sys2Proof.Machine
end

