-- ==== Sys2Proof/Config.lean ====
section
/-! DEFINITION. What one module's manufacture fixes and the free values of the model: constants without a body, so that
no proof can lean on a value the manual does not give. -/

namespace Sys2Proof

/-- Ordering codes (R1). -/
inductive OrderCode | a16 | a32 | o16
deriving DecidableEq, Repr, Inhabited

/-! ### Identity, fixed at manufacture -/

/-- The module's ordering code (R1, R443). -/
opaque Config.orderCode : OrderCode
/-- SERIAL, CARRIER_ISSUE, MFG_DATE, AUQ_PEN, MODULE_UID, the device certificate's digest, MGT_MAC (R443, R444). -/
opaque Config.serial : Bytes
opaque Config.carrierIssue : Bytes
opaque Config.mfgDate : BitVec 32
opaque Config.auqPen : BitVec 32
opaque Config.moduleUid : BitVec 128
opaque Config.deviceCertDigest : BitVec 384
opaque Config.mgtMac : BitVec 48
/-- DIE_UID of the die with a die code (R443). -/
opaque Config.dieUid : Nat → BitVec 128
/-- Certificate chains of SPDM slots 0 and 1 (R377). -/
opaque Config.certChain : Nat → Bytes

/-- "Y7200-A16", "Y7200-A32" or "Y7200-O16" as ASCII (R443). -/
def Config.orderCodeBytes : Bytes :=
  match Config.orderCode with
  | .a16 => [0x59, 0x37, 0x32, 0x30, 0x30, 0x2d, 0x41, 0x31, 0x36]
  | .a32 => [0x59, 0x37, 0x32, 0x30, 0x30, 0x2d, 0x41, 0x33, 0x32]
  | .o16 => [0x59, 0x37, 0x32, 0x30, 0x30, 0x2d, 0x4f, 0x31, 0x36]

/-- FLASH_LOGICAL_BYTES: 12 TiB, or 24 TiB on Y7200-A32 (R232). -/
def Config.flashLogicalBytes : Nat :=
  match Config.orderCode with
  | .a32 => 24 * 2 ^ 40
  | _ => 12 * 2 ^ 40

/-- FLASH_DIES (R242). -/
def Config.flashDies : Nat :=
  match Config.orderCode with
  | .a32 => 256
  | _ => 128

/-- The guest site is populated on Y7200-O16 only (R1, R2). -/
def Config.guestFitted : Bool :=
  match Config.orderCode with
  | .o16 => true
  | _ => false

/-! ### Free values -/

/-- A fresh byte for contents the manual leaves undefined: draw number, address. -/
opaque Config.freeByte : Nat → Nat → Byte
/-- A fresh word for a value the manual leaves open: draw number. -/
opaque Config.freeWord : Nat → BitVec 64
/-- The 16-bit requester id of an agent (R145), whose numbering the manual does not give. -/
opaque Config.requesterId : Agent → BitVec 16

/-- A transcendental result of the vector unit: operation and operand. R138 bounds it; where this value meets the bound it is
the result. -/
opaque Config.vuTrans : Nat → BitVec 32 → BitVec 32
/-- MIN, MAX and the row maxima with a NaN operand (R134 names no result): operation and operands. -/
opaque Config.vuNan : Nat → BitVec 32 → BitVec 32 → BitVec 32

/-- The shape of a summation tree over lanes. -/
inductive LaneTree
  | leaf (i : Nat)
  | node (l r : LaneTree)
deriving DecidableEq, Repr, Inhabited

/-- The fixed order in which the vector unit sums n lanes (R135); the manual does not give the tree's shape. -/
opaque Config.laneTree : Nat → LaneTree

/-- The hub's AGENT code in Plalia headers, and the index that an AGENT code spells among the agents of its die (R347 names the
field and not its coding). -/
opaque Config.hubAgent : BitVec 16
opaque Config.agentIndex : BitVec 16 → Nat
/-- Die generation and initial slot credits that the hub states in its DISCOVER and AGREE lines (R351). -/
opaque Config.dieGen : Byte
opaque Config.slotCredits : Nat → Byte

/-- SHA-384 of a byte string (R374, R384). -/
opaque Config.sha384 : Bytes → BitVec 384
/-- The identity of the boot ROM (R375). -/
opaque Config.bootRom : Bytes
/-- Whether a signature of ECDSA P-384 verifies: the signed bytes and the signature (R374, R377). -/
opaque Config.sigVerifies : Bytes → Bytes → Bool
/-- The role a certificate carries, 0 OPERATOR, 1 SECURITY, 2 SERVICE, 3 + p TENANT(p) (R383; the manual names the certificate and
not how the role stands in it); none: not a credential. -/
opaque Config.credRole : Bytes → Option Nat
/-- The credential, by its number, that authenticates the requester of a FINISH request; none: authentication fails (R377). -/
opaque Config.spdmSigner : Bytes → Option Nat
/-- Bank and row of a bulk device that hold a line (the manual gives the channel only, R188): line address. -/
opaque Config.bulkBank : Nat → Nat
opaque Config.bulkRow : Nat → Nat

end Sys2Proof
end

