-- ==== Sys2Proof/Machine/Dict.lean ====
section
/-! DEFINITION. The object dictionary (R434 to R436): the description of every object, from the dictionary tables of the
chapters, and one constant per object or array of objects for its place. -/

namespace Sys2Proof.Machine

open Sys2Proof

/-- Types of objects (R436). -/
inductive ObjType
  | bool
  /-- Unsigned, two's complement or floating-point number of `n` bytes. -/
  | num (n : Nat)
  | int (n : Nat)
  | float (n : Nat)
  /-- At most `n` ASCII characters. -/
  | str (n : Nat)
  | octets (n : Nat)
  | domain
deriving DecidableEq, Repr

/-- Access codes of objects (R15). -/
inductive ObjAcc | const | ro | rw | wo | rws | rwp
deriving DecidableEq, Repr

/-- An object, or the objects of a span of indices and of subindices. -/
structure ObjDesc where
  i0   : Nat
  i1   : Nat
  s0   : Nat
  s1   : Nat
  ty   : ObjType
  acc  : ObjAcc
  /-- Write only although staged. -/
  wo   : Bool
  /-- The default value. -/
  dflt : Bytes
  /-- The Range column: least and greatest value and the multiple they must be of. -/
  rng  : Option (Int × Int × Nat)
deriving DecidableEq, Repr

/-- The place of an object: index and subindex. -/
abbrev ObjKey := Nat × Nat

/-- ABFT_REL_EXP (03_matrix_engines.md). -/
def oAbftRelExp : ObjKey := (0x6010, 1)
/-- ABFT_FLOOR_EXP (03_matrix_engines.md). -/
def oAbftFloorExp : ObjKey := (0x6010, 2)
/-- SUSPECT_LIMIT (03_matrix_engines.md). -/
def oSuspectLimit : ObjKey := (0x6010, 3)
/-- SUSPECT_WINDOW (03_matrix_engines.md). -/
def oSuspectWindow : ObjKey := (0x6010, 4)
/-- ARRAY_MAP_E (03_matrix_engines.md). -/
def oArrayMapE (k : Nat) : ObjKey := (0x6011, 1 + k)
/-- DIAG_INJECT_EN (03_matrix_engines.md). -/
def oDiagInjectEn : ObjKey := (0xf010, 1)
/-- CARDER_SHARE_P (06_carder_input_preparation.md). -/
def oCarderShareP (k : Nat) : ObjKey := (0x4030, 1 + k)
/-- CARDER_UNITS (06_carder_input_preparation.md). -/
def oCarderUnits : ObjKey := (0x4031, 1)
/-- GRANULE_BYTES (07_memory_space_and_tiers.md). -/
def oGranuleBytes : ObjKey := (0x3000, 1)
/-- AGE_TICK (07_memory_space_and_tiers.md). -/
def oAgeTick : ObjKey := (0x3000, 2)
/-- STACK_SPREAD_GIB (07_memory_space_and_tiers.md). -/
def oStackSpreadGib : ObjKey := (0x3001, 1)
/-- FLASH_LOGICAL_BYTES (07_memory_space_and_tiers.md). -/
def oFlashLogicalBytes : ObjKey := (0x3001, 2)
/-- MIG_ENABLE (07_memory_space_and_tiers.md). -/
def oMigEnable : ObjKey := (0x3002, 1)
/-- MIG_POLICY (07_memory_space_and_tiers.md). -/
def oMigPolicy : ObjKey := (0x3002, 2)
/-- SAMPLE_LOG2 (07_memory_space_and_tiers.md). -/
def oSampleLog2 : ObjKey := (0x3002, 3)
/-- HOT_THRESH (07_memory_space_and_tiers.md). -/
def oHotThresh : ObjKey := (0x3002, 4)
/-- MIG_BW_LIMIT (07_memory_space_and_tiers.md). -/
def oMigBwLimit : ObjKey := (0x3002, 5)
/-- MIG_MAX_INFLIGHT (07_memory_space_and_tiers.md). -/
def oMigMaxInflight : ObjKey := (0x3002, 6)
/-- POOL_FRAMES_P (07_memory_space_and_tiers.md). -/
def oPoolFramesP (k : Nat) : ObjKey := (0x3003, 1 + k)
/-- TIER_TIMEOUT (07_memory_space_and_tiers.md). -/
def oTierTimeout : ObjKey := (0x3004, 1)
/-- STK_WR_BATCH (08_memory_interfaces.md). -/
def oStkWrBatch : ObjKey := (0x3010, 1)
/-- STK_RECAL_MS (08_memory_interfaces.md). -/
def oStkRecalMs : ObjKey := (0x3010, 2)
/-- STK_SPARE_ROWS (08_memory_interfaces.md). -/
def oStkSpareRows : ObjKey := (0x3010, 3)
/-- BULK_RATE (08_memory_interfaces.md). -/
def oBulkRate : ObjKey := (0x3011, 1)
/-- FLASH_DIES (08_memory_interfaces.md). -/
def oFlashDies : ObjKey := (0x3012, 1)
/-- FLASH_SLC_EVR_BYTES (08_memory_interfaces.md). -/
def oFlashSlcEvrBytes : ObjKey := (0x3012, 2)
/-- FLASH_SLC_REPAIR_BYTES (08_memory_interfaces.md). -/
def oFlashSlcRepairBytes : ObjKey := (0x3012, 3)
/-- MARGIN_IF (08_memory_interfaces.md). -/
def oMarginIf : ObjKey := (0xf020, 1)
/-- MARGIN_UNIT (08_memory_interfaces.md). -/
def oMarginUnit : ObjKey := (0xf020, 2)
/-- MARGIN_AXIS (08_memory_interfaces.md). -/
def oMarginAxis : ObjKey := (0xf020, 3)
/-- MARGIN_START (08_memory_interfaces.md). -/
def oMarginStart : ObjKey := (0xf020, 4)
/-- MARGIN_STATE (08_memory_interfaces.md). -/
def oMarginState : ObjKey := (0xf020, 5)
/-- MARGIN_RESULT (08_memory_interfaces.md). -/
def oMarginResult : ObjKey := (0xf020, 6)
/-- RC_ENTRIES (09_range_translation.md). -/
def oRcEntries : ObjKey := (0x3020, 1)
/-- HUB_RC_ENTRIES (09_range_translation.md). -/
def oHubRcEntries : ObjKey := (0x3020, 2)
/-- FLUSH_LIMIT (09_range_translation.md). -/
def oFlushLimit : ObjKey := (0x3020, 3)
/-- KILL_LIMIT (09_range_translation.md). -/
def oKillLimit : ObjKey := (0x3020, 4)
/-- REPLAY_LIMIT (09_range_translation.md). -/
def oReplayLimit : ObjKey := (0x3021, 1)
/-- CONSULT_TIMEOUT (09_range_translation.md). -/
def oConsultTimeout : ObjKey := (0x3021, 2)
/-- DIR_ENTRIES (10_coherence.md). -/
def oDirEntries : ObjKey := (0x3030, 1)
/-- DIR_WAYS (10_coherence.md). -/
def oDirWays : ObjKey := (0x3030, 2)
/-- HOLD_CYCLES (10_coherence.md). -/
def oHoldCycles : ObjKey := (0x3030, 3)
/-- LINE_BYTES (10_coherence.md). -/
def oLineBytes : ObjKey := (0x3030, 4)
/-- HALYARD_TIMEOUT (11_training_step.md). -/
def oHalyardTimeout : ObjKey := (0x8000, 1)
/-- HALYARD_MAX_MEMBERS (11_training_step.md). -/
def oHalyardMaxMembers : ObjKey := (0x8000, 2)
/-- CLIP_LIMIT_EXP (11_training_step.md). -/
def oClipLimitExp : ObjKey := (0x8001, 1)
/-- FLUSH_LIMIT_EXP (11_training_step.md). -/
def oFlushLimitExp : ObjKey := (0x8001, 2)
/-- ABSURD_LIMIT_EXP (11_training_step.md). -/
def oAbsurdLimitExp : ObjKey := (0x8001, 3)
/-- NORM_RATIO_EXP (11_training_step.md). -/
def oNormRatioExp : ObjKey := (0x8001, 4)
/-- TESTS_ENABLE (11_training_step.md). -/
def oTestsEnable : ObjKey := (0x8001, 5)
/-- HANK_ELEMENTS (11_training_step.md). -/
def oHankElements : ObjKey := (0x8002, 1)
/-- LEDGER_ENTRY_BYTES (11_training_step.md). -/
def oLedgerEntryBytes : ObjKey := (0x8002, 2)
/-- PEER_ID (12_ehrant_fabric.md). -/
def oPeerId : ObjKey := (0x5000, 1)
/-- LINK_MODE (12_ehrant_fabric.md). -/
def oLinkMode : ObjKey := (0x5000, 2)
/-- ENCAP (12_ehrant_fabric.md). -/
def oEncap : ObjKey := (0x5000, 3)
/-- ETHERTYPE (12_ehrant_fabric.md). -/
def oEthertype : ObjKey := (0x5000, 4)
/-- UDP_PORT (12_ehrant_fabric.md). -/
def oUdpPort : ObjKey := (0x5000, 5)
/-- LANE_RATE (12_ehrant_fabric.md). -/
def oLaneRate : ObjKey := (0x5000, 6)
/-- PEER_ID_VALID (12_ehrant_fabric.md). -/
def oPeerIdValid : ObjKey := (0x5000, 7)
/-- PCP_DATA (12_ehrant_fabric.md). -/
def oPcpData : ObjKey := (0x5001, 1)
/-- PCP_CTRL (12_ehrant_fabric.md). -/
def oPcpCtrl : ObjKey := (0x5001, 2)
/-- PCP_HALYARD (12_ehrant_fabric.md). -/
def oPcpHalyard : ObjKey := (0x5001, 3)
/-- DSCP_DATA (12_ehrant_fabric.md). -/
def oDscpData : ObjKey := (0x5001, 4)
/-- DSCP_CTRL (12_ehrant_fabric.md). -/
def oDscpCtrl : ObjKey := (0x5001, 5)
/-- DSCP_HALYARD (12_ehrant_fabric.md). -/
def oDscpHalyard : ObjKey := (0x5001, 6)
/-- RTO_INIT (12_ehrant_fabric.md). -/
def oRtoInit : ObjKey := (0x5002, 1)
/-- UNREACHABLE_MS (12_ehrant_fabric.md). -/
def oUnreachableMs : ObjKey := (0x5002, 2)
/-- COLL_TIMEOUT (12_ehrant_fabric.md). -/
def oCollTimeout : ObjKey := (0x5002, 3)
/-- CONN_MAX (12_ehrant_fabric.md). -/
def oConnMax : ObjKey := (0x5003, 1)
/-- CONN_CACHED (12_ehrant_fabric.md). -/
def oConnCached : ObjKey := (0x5003, 2)
/-- WINDOW_MAX (12_ehrant_fabric.md). -/
def oWindowMax : ObjKey := (0x5003, 3)
/-- REPLAY_FRAMES (12_ehrant_fabric.md). -/
def oReplayFrames : ObjKey := (0x5003, 4)
/-- GROUPS_MAX (12_ehrant_fabric.md). -/
def oGroupsMax : ObjKey := (0x5003, 5)
/-- PLALIA_VERSION (13_die_to_die_and_guest_site.md). -/
def oPlaliaVersion : ObjKey := (0x9000, 1)
/-- D2D_RATE (13_die_to_die_and_guest_site.md). -/
def oD2dRate : ObjKey := (0x9000, 2)
/-- DISCOVERY_TIMEOUT (13_die_to_die_and_guest_site.md). -/
def oDiscoveryTimeout : ObjKey := (0x9000, 3)
/-- TEST_SEL (13_die_to_die_and_guest_site.md). -/
def oTestSel : ObjKey := (0x9000, 4)
/-- D2D_TEST_RESULT (13_die_to_die_and_guest_site.md). -/
def oD2dTestResult : ObjKey := (0x9000, 5)
/-- GUEST_PRESENT (13_die_to_die_and_guest_site.md). -/
def oGuestPresent : ObjKey := (0x9001, 1)
/-- GUEST_PARTITION (13_die_to_die_and_guest_site.md). -/
def oGuestPartition : ObjKey := (0x9001, 2)
/-- GUEST_WIN_0 to GUEST_WIN_3 (13_die_to_die_and_guest_site.md). -/
def oGuestWin (k : Nat) : ObjKey := (0x9001, 3 + k)
/-- GUEST_MAX_OUT (13_die_to_die_and_guest_site.md). -/
def oGuestMaxOut : ObjKey := (0x9001, 7)
/-- LIFECYCLE (14_partitions_and_security.md). -/
def oLifecycle : ObjKey := (0x4000, 1)
/-- TENANT_ISOLATE (14_partitions_and_security.md). -/
def oTenantIsolate : ObjKey := (0x4000, 2)
/-- SVN_COMMIT (14_partitions_and_security.md). -/
def oSvnCommit : ObjKey := (0x4000, 3)
/-- FW_IMAGE (14_partitions_and_security.md). -/
def oFwImage : ObjKey := (0x4000, 4)
/-- CRED_n (14_partitions_and_security.md). -/
def oCred (k : Nat) : ObjKey := (0x4001, 1 + k)
/-- STAGE_CTL (14_partitions_and_security.md). -/
def oStageCtl : ObjKey := (0x4002, 1)
/-- STAGE_CONFIRM_DIGEST (14_partitions_and_security.md). -/
def oStageConfirmDigest : ObjKey := (0x4002, 2)
/-- STAGE_STATE_s (14_partitions_and_security.md). -/
def oStageState (k : Nat) : ObjKey := (0x4002, 3 + k)
/-- STAGE_DIGEST_s (14_partitions_and_security.md). -/
def oStageDigest (k : Nat) : ObjKey := (0x4002, 7 + k)
/-- STAGE_LIST_s (14_partitions_and_security.md). -/
def oStageList (k : Nat) : ObjKey := (0x4002, 11 + k)
/-- DEBUG_UNLOCK (14_partitions_and_security.md). -/
def oDebugUnlock : ObjKey := (0x4003, 1)
/-- PART_ENGINES (14_partitions_and_security.md). -/
def oPartEngines (p : Nat) : ObjKey := (0x4010 + p, 1)
/-- PART_CORES (14_partitions_and_security.md). -/
def oPartCores (p : Nat) : ObjKey := (0x4010 + p, 2)
/-- PART_BULK (14_partitions_and_security.md). -/
def oPartBulk (p : Nat) : ObjKey := (0x4010 + p, 3)
/-- PART_SPREAD (14_partitions_and_security.md). -/
def oPartSpread (p : Nat) : ObjKey := (0x4010 + p, 4)
/-- PART_LOCAL (14_partitions_and_security.md). -/
def oPartLocal (p : Nat) : ObjKey := (0x4010 + p, 5)
/-- PART_FLASH (14_partitions_and_security.md). -/
def oPartFlash (p : Nat) : ObjKey := (0x4010 + p, 6)
/-- PART_CONN (14_partitions_and_security.md). -/
def oPartConn (p : Nat) : ObjKey := (0x4010 + p, 7)
/-- NAND_KEY_ERASE (14_partitions_and_security.md). -/
def oNandKeyErase (p : Nat) : ObjKey := (0x4020 + p, 1)
/-- LINK_KEY_p_k (14_partitions_and_security.md). -/
def oLinkKey (p k : Nat) : ObjKey := (0x4020 + p, 2 + k)
/-- UNDETECTED_BOUND (15_reliability_and_event_recorder.md). -/
def oUndetectedBound : ObjKey := (0x6000, 1)
/-- SCRUB_HOURS (15_reliability_and_event_recorder.md). -/
def oScrubHours : ObjKey := (0x6001, 1)
/-- FLASH_SCRUB_DAYS (15_reliability_and_event_recorder.md). -/
def oFlashScrubDays : ObjKey := (0x6001, 2)
/-- CE_ROW_LIMIT (15_reliability_and_event_recorder.md). -/
def oCeRowLimit : ObjKey := (0x6002, 1)
/-- REPAIR_MAP (15_reliability_and_event_recorder.md). -/
def oRepairMap : ObjKey := (0x6003, 1)
/-- SPARE_CORES_LEFT (15_reliability_and_event_recorder.md). -/
def oSpareCoresLeft : ObjKey := (0x6003, 2)
/-- FW_ACTIVATE (15_reliability_and_event_recorder.md). -/
def oFwActivate : ObjKey := (0x6004, 1)
/-- FW_ACT_STATE (15_reliability_and_event_recorder.md). -/
def oFwActState : ObjKey := (0x6004, 2)
/-- EVR_EPOCH_S (15_reliability_and_event_recorder.md). -/
def oEvrEpochS : ObjKey := (0x7000, 1)
/-- EVR_REGION_BYTES (15_reliability_and_event_recorder.md). -/
def oEvrRegionBytes : ObjKey := (0x7000, 2)
/-- EVR_RECORD_MAX (15_reliability_and_event_recorder.md). -/
def oEvrRecordMax : ObjKey := (0x7000, 3)
/-- EVR_CLEAR (15_reliability_and_event_recorder.md). -/
def oEvrClear : ObjKey := (0x7000, 4)
/-- EVR_SELECT (15_reliability_and_event_recorder.md). -/
def oEvrSelect : ObjKey := (0x7001, 1)
/-- EVR_RECORD (15_reliability_and_event_recorder.md). -/
def oEvrRecord : ObjKey := (0x7001, 2)
/-- INPUT_WARN_V (16_power_clocks_and_startup.md). -/
def oInputWarnV : ObjKey := (0x2000, 1)
/-- INPUT_RECOVER_V (16_power_clocks_and_startup.md). -/
def oInputRecoverV : ObjKey := (0x2000, 2)
/-- INPUT_FAIL_V (16_power_clocks_and_startup.md). -/
def oInputFailV : ObjKey := (0x2000, 3)
/-- HOLDUP_MIN (16_power_clocks_and_startup.md). -/
def oHoldupMin : ObjKey := (0x2000, 4)
/-- POWER_CAP (16_power_clocks_and_startup.md). -/
def oPowerCap : ObjKey := (0x2001, 1)
/-- DIE_THROTTLE_C (16_power_clocks_and_startup.md). -/
def oDieThrottleC : ObjKey := (0x2002, 1)
/-- STACK_THROTTLE_C (16_power_clocks_and_startup.md). -/
def oStackThrottleC : ObjKey := (0x2002, 2)
/-- COOLANT_ALERT_C (16_power_clocks_and_startup.md). -/
def oCoolantAlertC : ObjKey := (0x2002, 3)
/-- ARRAY_CLK_MHZ (16_power_clocks_and_startup.md). -/
def oArrayClkMhz : ObjKey := (0xa000, 1)
/-- SC_CLK_MHZ (16_power_clocks_and_startup.md). -/
def oScClkMhz : ObjKey := (0xa000, 2)
/-- SC_BOOST (16_power_clocks_and_startup.md). -/
def oScBoost : ObjKey := (0xa000, 3)
/-- LTOL_P (16_power_clocks_and_startup.md). -/
def oLtolP (k : Nat) : ObjKey := (0xa001, 1 + k)
/-- START_STATE (16_power_clocks_and_startup.md). -/
def oStartState : ObjKey := (0xa002, 1)
/-- START_TIME_MS (16_power_clocks_and_startup.md). -/
def oStartTimeMs : ObjKey := (0xa002, 2)
/-- POWER_ON_COUNT (16_power_clocks_and_startup.md). -/
def oPowerOnCount : ObjKey := (0xa002, 3)
/-- MODULE_RESET (16_power_clocks_and_startup.md). -/
def oModuleReset : ObjKey := (0xa003, 1)
/-- VENDOR (17_control_registers_and_debug.md). -/
def oVendor : ObjKey := (0x1000, 1)
/-- PRODUCT (17_control_registers_and_debug.md). -/
def oProduct : ObjKey := (0x1000, 2)
/-- ORDER_CODE (17_control_registers_and_debug.md). -/
def oOrderCode : ObjKey := (0x1000, 3)
/-- STEPPING (17_control_registers_and_debug.md). -/
def oStepping : ObjKey := (0x1000, 4)
/-- SERIAL (17_control_registers_and_debug.md). -/
def oSerial : ObjKey := (0x1000, 5)
/-- CARRIER_ISSUE (17_control_registers_and_debug.md). -/
def oCarrierIssue : ObjKey := (0x1000, 6)
/-- MFG_DATE (17_control_registers_and_debug.md). -/
def oMfgDate : ObjKey := (0x1000, 7)
/-- DICT_VERSION (17_control_registers_and_debug.md). -/
def oDictVersion : ObjKey := (0x1000, 8)
/-- FW_VERSION (17_control_registers_and_debug.md). -/
def oFwVersion : ObjKey := (0x1000, 9)
/-- FW_SLOT (17_control_registers_and_debug.md). -/
def oFwSlot : ObjKey := (0x1000, 10)
/-- AUQ_PEN (17_control_registers_and_debug.md). -/
def oAuqPen : ObjKey := (0x1000, 11)
/-- MODULE_UID (17_control_registers_and_debug.md). -/
def oModuleUid : ObjKey := (0x1000, 12)
/-- DEVICE_CERT_DIGEST (17_control_registers_and_debug.md). -/
def oDeviceCertDigest : ObjKey := (0x1000, 13)
/-- DIE_UID (17_control_registers_and_debug.md). -/
def oDieUid (k : Nat) : ObjKey := (0x1001, 1 + k)
/-- I3C_STATIC_ADDR (17_control_registers_and_debug.md). -/
def oI3cStaticAddr : ObjKey := (0x1100, 1)
/-- I3C_DYN_ADDR (17_control_registers_and_debug.md). -/
def oI3cDynAddr : ObjKey := (0x1100, 2)
/-- MCTP_EID (17_control_registers_and_debug.md). -/
def oMctpEid : ObjKey := (0x1100, 3)
/-- MGT_MAC (17_control_registers_and_debug.md). -/
def oMgtMac : ObjKey := (0x1100, 4)
/-- MGT_IPV4 (17_control_registers_and_debug.md). -/
def oMgtIpv4 : ObjKey := (0x1100, 5)
/-- MGT_IPV4_MASK (17_control_registers_and_debug.md). -/
def oMgtIpv4Mask : ObjKey := (0x1100, 6)
/-- MGT_IPV4_GW (17_control_registers_and_debug.md). -/
def oMgtIpv4Gw : ObjKey := (0x1100, 7)
/-- MGT_IPV6 (17_control_registers_and_debug.md). -/
def oMgtIpv6 : ObjKey := (0x1100, 8)
/-- AUQ_TCP_PORT (17_control_registers_and_debug.md). -/
def oAuqTcpPort : ObjKey := (0x1100, 9)
/-- MGT_PORT_ENABLE (17_control_registers_and_debug.md). -/
def oMgtPortEnable : ObjKey := (0x1100, 10)
/-- INBAND_ENABLE (17_control_registers_and_debug.md). -/
def oInbandEnable : ObjKey := (0x1100, 11)
/-- SEG_TIMEOUT (17_control_registers_and_debug.md). -/
def oSegTimeout : ObjKey := (0x1100, 12)
/-- SESSION_IDLE (17_control_registers_and_debug.md). -/
def oSessionIdle : ObjKey := (0x1100, 13)
/-- MGT_LINK (17_control_registers_and_debug.md). -/
def oMgtLink : ObjKey := (0x1100, 14)
/-- TAP_SEQ (17_control_registers_and_debug.md). -/
def oTapSeq : ObjKey := (0xf030, 1)
/-- TAP_RESULT (17_control_registers_and_debug.md). -/
def oTapResult : ObjKey := (0xf030, 2)
/-- TAP_STATE (17_control_registers_and_debug.md). -/
def oTapState : ObjKey := (0xf030, 3)
/-- DBG_DM_SEL (17_control_registers_and_debug.md). -/
def oDbgDmSel : ObjKey := (0xf040, 1)
/-- DBG_DMI_REQ (17_control_registers_and_debug.md). -/
def oDbgDmiReq : ObjKey := (0xf040, 2)
/-- DBG_DMI_RSP (17_control_registers_and_debug.md). -/
def oDbgDmiRsp : ObjKey := (0xf040, 3)
/-- DBG_PEEK_ADDR (17_control_registers_and_debug.md). -/
def oDbgPeekAddr : ObjKey := (0xf040, 4)
/-- DBG_PEEK_DATA (17_control_registers_and_debug.md). -/
def oDbgPeekData : ObjKey := (0xf040, 5)
/-- DBG_PEEK_STATUS (17_control_registers_and_debug.md). -/
def oDbgPeekStatus : ObjKey := (0xf040, 6)

/-- The objects of 03_matrix_engines.md. -/
def objs03 : List ObjDesc :=
  [⟨0x6010, 0x6010, 1, 1, .int 2, .rwp, false, [249, 255], some (-12, -3, 1)⟩,
   ⟨0x6010, 0x6010, 2, 2, .int 2, .rwp, false, [232, 255], some (-40, -8, 1)⟩,
   ⟨0x6010, 0x6010, 3, 3, .num 1, .const, false, [3], none⟩,
   ⟨0x6010, 0x6010, 4, 4, .num 4, .const, false, [128, 81, 1, 0], none⟩,
   ⟨0x6011, 0x6011, 1, 32, .num 4, .ro, false, [0, 0, 0, 0], none⟩,
   ⟨0xf010, 0xf010, 1, 1, .bool, .rws, false, [0], none⟩]

/-- The objects of 06_carder_input_preparation.md. -/
def objs06 : List ObjDesc :=
  [⟨0x4030, 0x4030, 1, 16, .num 1, .rws, false, [4], some (0, 64, 1)⟩,
   ⟨0x4031, 0x4031, 1, 1, .num 1, .ro, false, [15], none⟩]

/-- The objects of 07_memory_space_and_tiers.md. -/
def objs07 : List ObjDesc :=
  [⟨0x3000, 0x3000, 1, 1, .num 4, .const, false, [0, 0, 32, 0], none⟩,
   ⟨0x3000, 0x3000, 2, 2, .num 4, .const, false, [232, 3, 0, 0], none⟩,
   ⟨0x3001, 0x3001, 1, 1, .num 1, .rwp, false, [32], some (0, 48, 1)⟩,
   ⟨0x3001, 0x3001, 2, 2, .num 8, .ro, false, natLE 8 Config.flashLogicalBytes, none⟩,
   ⟨0x3002, 0x3002, 1, 1, .bool, .rwp, false, [1], none⟩,
   ⟨0x3002, 0x3002, 2, 2, .num 1, .rwp, false, [0], some (0, 1, 1)⟩,
   ⟨0x3002, 0x3002, 3, 3, .num 1, .rwp, false, [6], some (0, 15, 1)⟩,
   ⟨0x3002, 0x3002, 4, 4, .num 1, .rwp, false, [16], some (1, 255, 1)⟩,
   ⟨0x3002, 0x3002, 5, 5, .num 4, .rwp, false, [0, 2, 0, 0], some (64, 1024, 1)⟩,
   ⟨0x3002, 0x3002, 6, 6, .num 1, .rwp, false, [16], some (1, 16, 1)⟩,
   ⟨0x3003, 0x3003, 1, 16, .num 4, .rws, false, [0, 0, 0, 0], none⟩,
   ⟨0x3004, 0x3004, 1, 1, .num 4, .rwp, false, [100, 0, 0, 0], some (10, 10000, 1)⟩]

/-- The objects of 08_memory_interfaces.md. -/
def objs08 : List ObjDesc :=
  [⟨0x3010, 0x3010, 1, 1, .num 1, .rwp, false, [32], some (8, 64, 1)⟩,
   ⟨0x3010, 0x3010, 2, 2, .num 2, .rwp, false, [250, 0], some (50, 1000, 1)⟩,
   ⟨0x3010, 0x3010, 3, 3, .num 1, .const, false, [32], none⟩,
   ⟨0x3011, 0x3011, 1, 1, .num 4, .const, false, [171, 41, 0, 0], none⟩,
   ⟨0x3012, 0x3012, 1, 1, .num 2, .const, false, natLE 2 Config.flashDies, none⟩,
   ⟨0x3012, 0x3012, 2, 2, .num 4, .const, false, [0, 0, 0, 4], none⟩,
   ⟨0x3012, 0x3012, 3, 3, .num 4, .const, false, [0, 0, 0, 4], none⟩,
   ⟨0xf020, 0xf020, 1, 1, .num 1, .rw, false, [0], some (0, 2, 1)⟩,
   ⟨0xf020, 0xf020, 2, 2, .num 2, .rw, false, [0, 0], some (0, 1023, 1)⟩,
   ⟨0xf020, 0xf020, 3, 3, .num 1, .rw, false, [0], some (0, 3, 1)⟩,
   ⟨0xf020, 0xf020, 4, 4, .bool, .wo, true, [0], none⟩,
   ⟨0xf020, 0xf020, 5, 5, .num 1, .ro, false, [0], none⟩,
   ⟨0xf020, 0xf020, 6, 6, .octets 16, .ro, false, List.replicate 16 0, none⟩]

/-- The objects of 09_range_translation.md. -/
def objs09 : List ObjDesc :=
  [⟨0x3020, 0x3020, 1, 1, .num 2, .const, false, [0, 1], none⟩,
   ⟨0x3020, 0x3020, 2, 2, .num 2, .const, false, [0, 8], none⟩,
   ⟨0x3020, 0x3020, 3, 3, .num 4, .const, false, [2, 0, 0, 0], none⟩,
   ⟨0x3020, 0x3020, 4, 4, .num 4, .const, false, [10, 0, 0, 0], none⟩,
   ⟨0x3021, 0x3021, 1, 1, .num 4, .rwp, false, [232, 3, 0, 0], some (10, 1000, 1)⟩,
   ⟨0x3021, 0x3021, 2, 2, .num 4, .rwp, false, [10, 0, 0, 0], some (1, 1000, 1)⟩]

/-- The objects of 10_coherence.md. -/
def objs10 : List ObjDesc :=
  [⟨0x3030, 0x3030, 1, 1, .num 4, .const, false, [0, 0, 0, 1], none⟩,
   ⟨0x3030, 0x3030, 2, 2, .num 1, .const, false, [16], none⟩,
   ⟨0x3030, 0x3030, 3, 3, .num 2, .const, false, [128, 0], none⟩,
   ⟨0x3030, 0x3030, 4, 4, .num 1, .const, false, [64], none⟩]

/-- The objects of 11_training_step.md. -/
def objs11 : List ObjDesc :=
  [⟨0x8000, 0x8000, 1, 1, .num 4, .rwp, false, [50, 0, 0, 0], some (1, 10000, 1)⟩,
   ⟨0x8000, 0x8000, 2, 2, .num 2, .const, false, [0, 64], none⟩,
   ⟨0x8001, 0x8001, 1, 1, .int 2, .rwp, false, [246, 255], some (-30, 0, 1)⟩,
   ⟨0x8001, 0x8001, 2, 2, .int 2, .rwp, false, [252, 255], some (-30, 0, 1)⟩,
   ⟨0x8001, 0x8001, 3, 3, .int 2, .rwp, false, [32, 0], some (0, 127, 1)⟩,
   ⟨0x8001, 0x8001, 4, 4, .int 2, .rwp, false, [16, 0], some (1, 64, 1)⟩,
   ⟨0x8001, 0x8001, 5, 5, .num 1, .rwp, false, [15], none⟩,
   ⟨0x8002, 0x8002, 1, 1, .num 4, .const, false, [0, 0, 16, 0], none⟩,
   ⟨0x8002, 0x8002, 2, 2, .num 1, .const, false, [16], none⟩]

/-- The objects of 12_ehrant_fabric.md. -/
def objs12 : List ObjDesc :=
  [⟨0x5000, 0x5000, 1, 1, .num 2, .rws, false, [0, 0], some (0, 65535, 1)⟩,
   ⟨0x5000, 0x5000, 2, 2, .num 1, .rwp, false, [1], some (0, 1, 1)⟩,
   ⟨0x5000, 0x5000, 3, 3, .num 1, .rwp, false, [0], some (0, 2, 1)⟩,
   ⟨0x5000, 0x5000, 4, 4, .num 2, .rwp, false, [181, 136], none⟩,
   ⟨0x5000, 0x5000, 5, 5, .num 2, .rwp, false, [195, 196], some (1024, 65535, 1)⟩,
   ⟨0x5000, 0x5000, 6, 6, .num 1, .rwp, false, [0], some (0, 2, 1)⟩,
   ⟨0x5000, 0x5000, 7, 7, .bool, .rws, false, [0], none⟩,
   ⟨0x5001, 0x5001, 1, 1, .num 1, .rwp, false, [3], some (0, 7, 1)⟩,
   ⟨0x5001, 0x5001, 2, 2, .num 1, .rwp, false, [6], some (0, 7, 1)⟩,
   ⟨0x5001, 0x5001, 3, 3, .num 1, .rwp, false, [7], some (0, 7, 1)⟩,
   ⟨0x5001, 0x5001, 4, 4, .num 1, .rwp, false, [26], some (0, 63, 1)⟩,
   ⟨0x5001, 0x5001, 5, 5, .num 1, .rwp, false, [48], some (0, 63, 1)⟩,
   ⟨0x5001, 0x5001, 6, 6, .num 1, .rwp, false, [46], some (0, 63, 1)⟩,
   ⟨0x5002, 0x5002, 1, 1, .num 4, .rwp, false, [100, 0, 0, 0], some (10, 10000, 1)⟩,
   ⟨0x5002, 0x5002, 2, 2, .num 4, .const, false, [50, 0, 0, 0], none⟩,
   ⟨0x5002, 0x5002, 3, 3, .num 4, .rwp, false, [232, 3, 0, 0], some (10, 60000, 1)⟩,
   ⟨0x5003, 0x5003, 1, 1, .num 4, .const, false, [0, 0, 1, 0], none⟩,
   ⟨0x5003, 0x5003, 2, 2, .num 2, .const, false, [0, 32], none⟩,
   ⟨0x5003, 0x5003, 3, 3, .num 4, .const, false, [0, 0, 16, 0], none⟩,
   ⟨0x5003, 0x5003, 4, 4, .num 2, .const, false, [0, 6], none⟩,
   ⟨0x5003, 0x5003, 5, 5, .num 2, .const, false, [0, 16], none⟩]

/-- The objects of 13_die_to_die_and_guest_site.md. -/
def objs13 : List ObjDesc :=
  [⟨0x9000, 0x9000, 1, 1, .num 1, .const, false, [1], none⟩,
   ⟨0x9000, 0x9000, 2, 2, .num 1, .const, false, [32], none⟩,
   ⟨0x9000, 0x9000, 3, 3, .num 4, .const, false, [10, 0, 0, 0], none⟩,
   ⟨0x9000, 0x9000, 4, 4, .num 1, .ro, false, [3#8], none⟩,
   ⟨0x9000, 0x9000, 5, 5, .domain, .ro, false, [], none⟩,
   ⟨0x9001, 0x9001, 1, 1, .bool, .ro, false, [0], none⟩,
   ⟨0x9001, 0x9001, 2, 2, .num 1, .rws, false, [0], some (0, 15, 1)⟩,
   ⟨0x9001, 0x9001, 3, 6, .octets 16, .rws, false, List.replicate 16 0, none⟩,
   ⟨0x9001, 0x9001, 7, 7, .num 2, .const, false, [0, 4], none⟩]

/-- The objects of 14_partitions_and_security.md. -/
def objs14 : List ObjDesc :=
  [⟨0x4000, 0x4000, 1, 1, .num 1, .rws, false, [0], some (0, 1, 1)⟩,
   ⟨0x4000, 0x4000, 2, 2, .bool, .rws, false, [0], none⟩,
   ⟨0x4000, 0x4000, 3, 3, .bool, .rws, true, [0], none⟩,
   ⟨0x4000, 0x4000, 4, 4, .domain, .rws, true, [], none⟩,
   ⟨0x4001, 0x4001, 1, 32, .domain, .rws, false, [], none⟩,
   ⟨0x4002, 0x4002, 1, 1, .num 4, .wo, true, [0, 0, 0, 0], none⟩,
   ⟨0x4002, 0x4002, 2, 2, .octets 48, .wo, true, List.replicate 48 0, none⟩,
   ⟨0x4002, 0x4002, 3, 6, .num 1, .ro, false, [0], none⟩,
   ⟨0x4002, 0x4002, 7, 10, .octets 48, .ro, false, List.replicate 48 0, none⟩,
   ⟨0x4002, 0x4002, 11, 14, .domain, .ro, false, [], none⟩,
   ⟨0x4003, 0x4003, 1, 1, .num 4, .rws, false, [0, 0, 0, 0], none⟩,
   ⟨0x4010, 0x401f, 1, 1, .num 4, .rws, false, [0, 0, 0, 0], none⟩,
   ⟨0x4010, 0x401f, 2, 2, .octets 16, .rws, false, List.replicate 16 0, none⟩,
   ⟨0x4010, 0x401f, 3, 3, .num 4, .rws, false, [0, 0, 0, 0], none⟩,
   ⟨0x4010, 0x401f, 4, 4, .num 4, .rws, false, [0, 0, 0, 0], none⟩,
   ⟨0x4010, 0x401f, 5, 5, .octets 16, .rws, false, List.replicate 16 0, none⟩,
   ⟨0x4010, 0x401f, 6, 6, .num 8, .rws, false, List.replicate 8 0, none⟩,
   ⟨0x4010, 0x401f, 7, 7, .num 8, .rws, false, List.replicate 8 0, none⟩,
   ⟨0x4020, 0x402f, 1, 1, .bool, .rws, true, [0], none⟩,
   ⟨0x4020, 0x402f, 2, 17, .octets 34, .rws, true, List.replicate 34 0, none⟩]

/-- The objects of 15_reliability_and_event_recorder.md. -/
def objs15 : List ObjDesc :=
  [⟨0x6000, 0x6000, 1, 1, .float 8, .const, false, [58, 140, 48, 226, 142, 121, 69, 62], none⟩,
   ⟨0x6001, 0x6001, 1, 1, .num 2, .rwp, false, [24, 0], some (1, 168, 1)⟩,
   ⟨0x6001, 0x6001, 2, 2, .num 2, .rwp, false, [7, 0], some (1, 90, 1)⟩,
   ⟨0x6002, 0x6002, 1, 1, .num 1, .rwp, false, [4], some (2, 64, 1)⟩,
   ⟨0x6003, 0x6003, 1, 1, .domain, .ro, false, [], none⟩,
   ⟨0x6003, 0x6003, 2, 2, .num 1, .ro, false, [4], none⟩,
   ⟨0x6004, 0x6004, 1, 1, .num 1, .rws, true, [0], none⟩,
   ⟨0x6004, 0x6004, 2, 2, .num 1, .ro, false, [0], none⟩,
   ⟨0x7000, 0x7000, 1, 1, .num 4, .rwp, false, [88, 2, 0, 0], some (60, 86400, 1)⟩,
   ⟨0x7000, 0x7000, 2, 2, .num 4, .const, false, [0, 0, 0, 4], none⟩,
   ⟨0x7000, 0x7000, 3, 3, .num 4, .const, false, [0, 0, 4, 0], none⟩,
   ⟨0x7000, 0x7000, 4, 4, .bool, .rws, true, [0], none⟩,
   ⟨0x7001, 0x7001, 1, 1, .num 8, .rw, false, List.replicate 8 0, none⟩,
   ⟨0x7001, 0x7001, 2, 2, .domain, .ro, false, [], none⟩]

/-- The objects of 16_power_clocks_and_startup.md. -/
def objs16 : List ObjDesc :=
  [⟨0x2000, 0x2000, 1, 1, .float 4, .const, false, [0, 0, 36, 66], none⟩,
   ⟨0x2000, 0x2000, 2, 2, .float 4, .const, false, [0, 0, 40, 66], none⟩,
   ⟨0x2000, 0x2000, 3, 3, .float 4, .const, false, [0, 0, 24, 66], none⟩,
   ⟨0x2000, 0x2000, 4, 4, .num 4, .const, false, [2, 0, 0, 0], none⟩,
   ⟨0x2001, 0x2001, 1, 1, .num 2, .rwp, false, [240, 10], some (1500, 2800, 1)⟩,
   ⟨0x2002, 0x2002, 1, 1, .int 2, .rwp, false, [100, 0], some (85, 100, 1)⟩,
   ⟨0x2002, 0x2002, 2, 2, .int 2, .rwp, false, [95, 0], some (85, 95, 1)⟩,
   ⟨0x2002, 0x2002, 3, 3, .int 2, .rwp, false, [40, 0], some (20, 40, 1)⟩,
   ⟨0xa000, 0xa000, 1, 1, .num 2, .rwp, false, [64, 6], some (800, 1800, 50)⟩,
   ⟨0xa000, 0xa000, 2, 2, .num 2, .rwp, false, [128, 12], some (1200, 3200, 100)⟩,
   ⟨0xa000, 0xa000, 3, 3, .bool, .rwp, false, [1], none⟩,
   ⟨0xa001, 0xa001, 1, 16, .num 4, .rw, false, [40, 0, 0, 0], some (0, 1000000, 1)⟩,
   ⟨0xa002, 0xa002, 1, 1, .num 1, .ro, false, [0], none⟩,
   ⟨0xa002, 0xa002, 2, 2, .num 4, .ro, false, [0, 0, 0, 0], none⟩,
   ⟨0xa002, 0xa002, 3, 3, .num 4, .ro, false, [0, 0, 0, 0], none⟩,
   ⟨0xa003, 0xa003, 1, 1, .bool, .wo, true, [0], none⟩]

/-- The objects of 17_control_registers_and_debug.md. -/
def objs17 : List ObjDesc :=
  [⟨0x1000, 0x1000, 1, 1, .str 16, .const, false, [83, 116, 97, 118, 97, 117, 98, 101, 120], none⟩,
   ⟨0x1000, 0x1000, 2, 2, .str 16, .const, false, [89, 117, 110, 97, 114, 111, 116, 104, 32, 89, 55, 50, 48, 48], none⟩,
   ⟨0x1000, 0x1000, 3, 3, .str 16, .ro, false, Config.orderCodeBytes, none⟩,
   ⟨0x1000, 0x1000, 4, 4, .str 1, .const, false, [66], none⟩,
   ⟨0x1000, 0x1000, 5, 5, .str 24, .ro, false, Config.serial, none⟩,
   ⟨0x1000, 0x1000, 6, 6, .str 2, .ro, false, Config.carrierIssue, none⟩,
   ⟨0x1000, 0x1000, 7, 7, .num 4, .ro, false, natLE 4 Config.mfgDate.toNat, none⟩,
   ⟨0x1000, 0x1000, 8, 8, .num 2, .const, false, [0, 1], none⟩,
   ⟨0x1000, 0x1000, 9, 9, .num 4, .ro, false, [0, 0, 0, 0], none⟩,
   ⟨0x1000, 0x1000, 10, 10, .num 1, .ro, false, [0], none⟩,
   ⟨0x1000, 0x1000, 11, 11, .num 4, .const, false, natLE 4 Config.auqPen.toNat, none⟩,
   ⟨0x1000, 0x1000, 12, 12, .octets 16, .ro, false, natLE 16 Config.moduleUid.toNat, none⟩,
   ⟨0x1000, 0x1000, 13, 13, .octets 48, .ro, false, natLE 48 Config.deviceCertDigest.toNat, none⟩,
   ⟨0x1001, 0x1001, 1, 12, .octets 16, .ro, false, List.replicate 16 0, none⟩,
   ⟨0x1100, 0x1100, 1, 1, .num 1, .ro, false, [0x37#8], none⟩,
   ⟨0x1100, 0x1100, 2, 2, .num 1, .ro, false, [0], none⟩,
   ⟨0x1100, 0x1100, 3, 3, .num 1, .ro, false, [0], none⟩,
   ⟨0x1100, 0x1100, 4, 4, .octets 6, .ro, false, natLE 6 Config.mgtMac.toNat, none⟩,
   ⟨0x1100, 0x1100, 5, 5, .num 4, .rwp, false, [0, 0, 0, 0], none⟩,
   ⟨0x1100, 0x1100, 6, 6, .num 4, .rwp, false, [0, 0, 0, 0], none⟩,
   ⟨0x1100, 0x1100, 7, 7, .num 4, .rwp, false, [0, 0, 0, 0], none⟩,
   ⟨0x1100, 0x1100, 8, 8, .octets 16, .rwp, false, List.replicate 16 0, none⟩,
   ⟨0x1100, 0x1100, 9, 9, .num 2, .rwp, false, [196, 196], some (1024, 65535, 1)⟩,
   ⟨0x1100, 0x1100, 10, 10, .bool, .rws, false, [1], none⟩,
   ⟨0x1100, 0x1100, 11, 11, .bool, .rws, false, [0], none⟩,
   ⟨0x1100, 0x1100, 12, 12, .num 4, .const, false, [232, 3, 0, 0], none⟩,
   ⟨0x1100, 0x1100, 13, 13, .num 4, .rwp, false, [88, 2, 0, 0], some (10, 86400, 1)⟩,
   ⟨0x1100, 0x1100, 14, 14, .num 1, .ro, false, [0], none⟩,
   ⟨0xf030, 0xf030, 1, 1, .domain, .wo, true, [], none⟩,
   ⟨0xf030, 0xf030, 2, 2, .domain, .ro, false, [], none⟩,
   ⟨0xf030, 0xf030, 3, 3, .num 1, .ro, false, [0], none⟩,
   ⟨0xf040, 0xf040, 1, 1, .num 1, .rw, false, [0], none⟩,
   ⟨0xf040, 0xf040, 2, 2, .num 8, .wo, true, List.replicate 8 0, none⟩,
   ⟨0xf040, 0xf040, 3, 3, .num 8, .ro, false, List.replicate 8 0, none⟩,
   ⟨0xf040, 0xf040, 4, 4, .num 8, .rw, false, List.replicate 8 0, none⟩,
   ⟨0xf040, 0xf040, 5, 5, .num 8, .ro, false, List.replicate 8 0, none⟩,
   ⟨0xf040, 0xf040, 6, 6, .num 1, .ro, false, [0], none⟩]

/-- Every object of the dictionary. -/
def dictObjs : List ObjDesc :=
  objs03 ++ objs06 ++ objs07 ++ objs08 ++ objs09 ++ objs10 ++ objs11 ++ objs12 ++ objs13 ++ objs14 ++ objs15 ++ objs16 ++ objs17

/-- The description of the object at a place. -/
def objDesc (k : ObjKey) : Option ObjDesc :=
  dictObjs.find? (fun d => decide (d.i0 ≤ k.1) && decide (k.1 ≤ d.i1) && decide (d.s0 ≤ k.2) && decide (k.2 ≤ d.s1))

/-- Whether an index exists (R434). -/
def objIndexExists (i : Nat) : Bool := dictObjs.any (fun d => decide (d.i0 ≤ i) && decide (i ≤ d.i1))

/-- The highest subindex in use under an index: the value of its subindex 0 (R434). -/
def objHighest (i : Nat) : Nat :=
  dictObjs.foldl (fun m d => if d.i0 ≤ i ∧ i ≤ d.i1 then max m d.s1 else m) 0

end Sys2Proof.Machine
end

