-- ==== Sys2Proof/Machine/Regs.lean ====
section
/-! DEFINITION. The MMIO registers of the manual: one constant per register (its place and its reset value), one per
field (its bits), and the table of access codes (R14) that REGISTER_WRITE and register reads use. Written from the
register tables of the chapters named in each comment. Arrays of registers take their index last. -/

namespace Sys2Proof.Machine

/-- A register: where it lies and what it holds at reset. -/
structure Reg where
  key   : RegKey
  reset : Word
deriving DecidableEq, Repr

/-- A bit field `[hi:lo]`. -/
structure Fd where
  hi : Nat
  lo : Nat
deriving DecidableEq, Repr

/-- Access codes of registers (R14); bits of no field are RSVD. -/
inductive Acc | ro | rw | wo | w1c | w1s | rc
deriving DecidableEq, Repr

/-- A field and its access code. -/
structure FdAcc where
  fd  : Fd
  acc : Acc
deriving DecidableEq, Repr

/-- A register, or an array of `count` registers `stride` bytes apart, in a block. -/
structure RegDesc where
  blk    : Blk
  off    : Nat
  count  : Nat
  stride : Nat
  fields : List FdAcc
deriving DecidableEq, Repr

/-- ENG_ID of engine e (R21, R115). -/
def engIdReset (e : Nat) : Word :=
  BitVec.ofNat 64 (e + 2 ^ 5 * (e % 4) + 2 ^ 8 * (e / 4) + 2 ^ 16 * 0x42 + 2 ^ 24 * 12 + 2 ^ 28 * 13)

/-- ARRAY_STATE_n with an empty repair map: ACTIVE at position n, or SPARE for PA_12 (R80, R81). -/
def arrayStateReset (i : Nat) : Word :=
  if i < 12 then BitVec.ofNat 64 (2 ^ 4 * i) else BitVec.ofNat 64 (1 + 2 ^ 4 * 15)

/-- ENG_ID (03_matrix_engines.md). -/
def rEngId (e : Nat) : Reg := ⟨⟨.engP, e, 0, 0x0⟩, engIdReset e⟩
def fEngIdEngine : Fd := ⟨4, 0⟩
def fEngIdDieSlot : Fd := ⟨7, 5⟩
def fEngIdDie : Fd := ⟨10, 8⟩
def fEngIdStepping : Fd := ⟨23, 16⟩
def fEngIdArraysActive : Fd := ⟨27, 24⟩
def fEngIdArraysPhys : Fd := ⟨31, 28⟩
/-- ABFT_TOL (03_matrix_engines.md). -/
def rAbftTol (e : Nat) : Reg := ⟨⟨.engP, e, 0, 0x8⟩, 0xe8f9⟩
def fAbftTolRelExp : Fd := ⟨7, 0⟩
def fAbftTolFloorExp : Fd := ⟨15, 8⟩
/-- ABFT_MISMATCH (03_matrix_engines.md). -/
def rAbftMismatch (e : Nat) : Reg := ⟨⟨.engP, e, 0, 0x10⟩, 0x0⟩
def fAbftMismatch : Fd := ⟨31, 0⟩
/-- ABFT_RESOLVED (03_matrix_engines.md). -/
def rAbftResolved (e : Nat) : Reg := ⟨⟨.engP, e, 0, 0x18⟩, 0x0⟩
def fAbftResolved : Fd := ⟨31, 0⟩
/-- ABFT_UNRESOLVED (03_matrix_engines.md). -/
def rAbftUnresolved (e : Nat) : Reg := ⟨⟨.engP, e, 0, 0x20⟩, 0x0⟩
def fAbftUnresolved : Fd := ⟨31, 0⟩
/-- ABFT_ABANDONED (03_matrix_engines.md). -/
def rAbftAbandoned (e : Nat) : Reg := ⟨⟨.engP, e, 0, 0x28⟩, 0x0⟩
def fAbftAbandoned : Fd := ⟨31, 0⟩
/-- ALIGN_FLUSH (03_matrix_engines.md). -/
def rAlignFlush (e : Nat) : Reg := ⟨⟨.engP, e, 0, 0x30⟩, 0x0⟩
def fAlignFlush : Fd := ⟨63, 0⟩
/-- POISON_SLICES (03_matrix_engines.md). -/
def rPoisonSlices (e : Nat) : Reg := ⟨⟨.engP, e, 0, 0x38⟩, 0x0⟩
def fPoisonSlices : Fd := ⟨63, 0⟩
/-- BASE_FAULTS (03_matrix_engines.md). -/
def rBaseFaults (e : Nat) : Reg := ⟨⟨.engP, e, 0, 0x40⟩, 0x0⟩
def fBaseFaults : Fd := ⟨31, 0⟩
/-- ABFT_INJECT (03_matrix_engines.md). -/
def rAbftInject (e : Nat) : Reg := ⟨⟨.engP, e, 0, 0x48⟩, 0x0⟩
def fAbftInjectArray : Fd := ⟨3, 0⟩
def fAbftInjectArm : Fd := ⟨8, 8⟩
/-- ARRAY_STATE (03_matrix_engines.md). -/
def rArrayState (e i : Nat) : Reg := ⟨⟨.engP, e, 0, 0x100 + 0x8 * i⟩, arrayStateReset i⟩
def fArrayStateState : Fd := ⟨1, 0⟩
def fArrayStateMarks : Fd := ⟨3, 2⟩
def fArrayStatePosition : Fd := ⟨7, 4⟩
def fArrayStateMismatches : Fd := ⟨31, 16⟩
/-- STAT_SEL (03_matrix_engines.md). -/
def rStatSel (e : Nat) : Reg := ⟨⟨.engP, e, 0, 0x400⟩, 0x0⟩
def fStatSelEntry : Fd := ⟨7, 0⟩
def fStatSelSnap : Fd := ⟨8, 8⟩
def fStatSelClear : Fd := ⟨9, 9⟩
/-- STAT_DATA (03_matrix_engines.md). -/
def rStatData (e i : Nat) : Reg := ⟨⟨.engP, e, 0, 0x408 + 0x8 * i⟩, 0x0⟩
def fStatDataData : Fd := ⟨63, 0⟩
/-- STAT_FIND (03_matrix_engines.md). -/
def rStatFind (e : Nat) : Reg := ⟨⟨.engP, e, 0, 0x428⟩, 0xff0000⟩
def fStatFindTensorId : Fd := ⟨15, 0⟩
def fStatFindEntry : Fd := ⟨23, 16⟩
def fStatFindFound : Fd := ⟨24, 24⟩
/-- STAT_CLEAR_ALL (03_matrix_engines.md). -/
def rStatClearAll (e : Nat) : Reg := ⟨⟨.engP, e, 0, 0x430⟩, 0x0⟩
def fStatClearAllAll : Fd := ⟨0, 0⟩
/-- CTX_STAT_SEL (03_matrix_engines.md). -/
def rCtxStatSel (e n : Nat) : Reg := ⟨⟨.engC, e, n, 0x800⟩, 0x0⟩
def fCtxStatSelEntry : Fd := ⟨7, 0⟩
def fCtxStatSelSnap : Fd := ⟨8, 8⟩
def fCtxStatSelClear : Fd := ⟨9, 9⟩
/-- CTX_STAT_DATA (03_matrix_engines.md). -/
def rCtxStatData (e n i : Nat) : Reg := ⟨⟨.engC, e, n, 0x808 + 0x8 * i⟩, 0x0⟩
def fCtxStatDataData : Fd := ⟨63, 0⟩
/-- CTX_STAT_FIND (03_matrix_engines.md). -/
def rCtxStatFind (e n : Nat) : Reg := ⟨⟨.engC, e, n, 0x828⟩, 0xff0000⟩
def fCtxStatFindTensorId : Fd := ⟨15, 0⟩
def fCtxStatFindEntry : Fd := ⟨23, 16⟩
def fCtxStatFindFound : Fd := ⟨24, 24⟩
/-- CTX_MATRIX_CNT (03_matrix_engines.md). -/
def rCtxMatrixCnt (e n : Nat) : Reg := ⟨⟨.engC, e, n, 0x830⟩, 0x0⟩
def fCtxMatrixCntAlignFlush : Fd := ⟨31, 0⟩
def fCtxMatrixCntPoisonSlices : Fd := ⟨47, 32⟩
def fCtxMatrixCntUnresolved : Fd := ⟨63, 48⟩
/-- CTX_ACC_HELD (03_matrix_engines.md). -/
def rCtxAccHeld (e n : Nat) : Reg := ⟨⟨.engC, e, n, 0x838⟩, 0x0⟩
def fCtxAccHeldHeld : Fd := ⟨15, 0⟩
/-- SPN_STATE (04_spindle_cores_and_vector_unit.md). -/
def rSpnState (e i : Nat) : Reg := ⟨⟨.engP, e, 0, 0x1000 + 0x8 * i⟩, 0x0⟩
def fSpnStateState : Fd := ⟨2, 0⟩
def fSpnStateSlot : Fd := ⟨7, 4⟩
/-- SPN_CTX (04_spindle_cores_and_vector_unit.md). -/
def rSpnCtx (e i : Nat) : Reg := ⟨⟨.engP, e, 0, 0x1020 + 0x8 * i⟩, 0x0⟩
def fSpnCtxCtx : Fd := ⟨3, 0⟩
/-- SCHED_CFG (04_spindle_cores_and_vector_unit.md). -/
def rSchedCfg (e : Nat) : Reg := ⟨⟨.engP, e, 0, 0x1040⟩, 0x0⟩
def fSchedCfgQuantum : Fd := ⟨15, 0⟩
/-- SWITCHES (04_spindle_cores_and_vector_unit.md). -/
def rSwitches (e : Nat) : Reg := ⟨⟨.engP, e, 0, 0x1048⟩, 0x0⟩
def fSwitches : Fd := ⟨63, 0⟩
/-- VU_BEATS (04_spindle_cores_and_vector_unit.md). -/
def rVuBeats (e : Nat) : Reg := ⟨⟨.engP, e, 0, 0x1050⟩, 0x0⟩
def fVuBeats : Fd := ⟨63, 0⟩
/-- VU_NAN (04_spindle_cores_and_vector_unit.md). -/
def rVuNan (e : Nat) : Reg := ⟨⟨.engP, e, 0, 0x1058⟩, 0x0⟩
def fVuNan : Fd := ⟨31, 0⟩
/-- VU_IDX_OOR (04_spindle_cores_and_vector_unit.md). -/
def rVuIdxOor (e : Nat) : Reg := ⟨⟨.engP, e, 0, 0x1060⟩, 0x0⟩
def fVuIdxOor : Fd := ⟨31, 0⟩
/-- SCHED_SLOT (04_spindle_cores_and_vector_unit.md). -/
def rSchedSlot (e i : Nat) : Reg := ⟨⟨.engP, e, 0, 0x1100 + 0x8 * i⟩, 0x0⟩
def fSchedSlotOwner : Fd := ⟨3, 0⟩
def fSchedSlotEnable : Fd := ⟨4, 4⟩
def fSchedSlotState : Fd := ⟨7, 5⟩
def fSchedSlotCore : Fd := ⟨9, 8⟩
/-- CTX_TASK (04_spindle_cores_and_vector_unit.md). -/
def rCtxTask (e n i : Nat) : Reg := ⟨⟨.engC, e, n, 0x400 + 0x8 * i⟩, 0x0⟩
def fCtxTaskState : Fd := ⟨2, 0⟩
def fCtxTaskOwned : Fd := ⟨3, 3⟩
def fCtxTaskExit : Fd := ⟨63, 32⟩
/-- CTX_TASK_CAUSE (04_spindle_cores_and_vector_unit.md). -/
def rCtxTaskCause (e n i : Nat) : Reg := ⟨⟨.engC, e, n, 0x480 + 0x8 * i⟩, 0x0⟩
def fCtxTaskCauseCause : Fd := ⟨5, 0⟩
def fCtxTaskCauseTval : Fd := ⟨62, 6⟩
def fCtxTaskCauseValid : Fd := ⟨63, 63⟩
/-- CTX_CFG (05_spools_transfers_and_streaming.md). -/
def rCtxCfg (e i : Nat) : Reg := ⟨⟨.engP, e, 0, 0x2000 + 0x8 * i⟩, 0x0⟩
def fCtxCfgAstag : Fd := ⟨15, 0⟩
def fCtxCfgPartition : Fd := ⟨19, 16⟩
def fCtxCfgValid : Fd := ⟨20, 20⟩
def fCtxCfgEpoch : Fd := ⟨47, 32⟩
/-- BOB_ARM (05_spools_transfers_and_streaming.md). -/
def rBobArm (e : Nat) : Reg := ⟨⟨.engP, e, 0, 0x2100⟩, 0x0⟩
def fBobArmArm : Fd := ⟨0, 0⟩
def fBobArmView : Fd := ⟨1, 1⟩
def fBobArmRefused : Fd := ⟨2, 2⟩
def fBobArmFirstBad : Fd := ⟨15, 8⟩
/-- BOB_CFG (05_spools_transfers_and_streaming.md). -/
def rBobCfg (e i : Nat) : Reg := ⟨⟨.engP, e, 0, 0x2200 + 0x8 * i⟩, 0x1000000⟩
def fBobCfgBase : Fd := ⟨9, 0⟩
def fBobCfgSize : Fd := ⟨12, 10⟩
def fBobCfgOwner : Fd := ⟨17, 14⟩
def fBobCfgValid : Fd := ⟨18, 18⟩
def fBobCfgStaging : Fd := ⟨19, 19⟩
def fBobCfgReaders : Fd := ⟨39, 24⟩
/-- BOB_STATE (05_spools_transfers_and_streaming.md). -/
def rBobState (e i : Nat) : Reg := ⟨⟨.engP, e, 0, 0x3000 + 0x8 * i⟩, 0x0⟩
def fBobStateState : Fd := ⟨1, 0⟩
def fBobStateHolder : Fd := ⟨3, 2⟩
def fBobStateMarked : Fd := ⟨4, 4⟩
def fBobStateRemaining : Fd := ⟨31, 16⟩
def fBobStateOutstanding : Fd := ⟨40, 32⟩
/-- MOVER (05_spools_transfers_and_streaming.md). -/
def rMover (e i : Nat) : Reg := ⟨⟨.engP, e, 0, 0x3800 + 0x8 * i⟩, 0x0⟩
def fMoverOutstanding : Fd := ⟨8, 0⟩
def fMoverBusy : Fd := ⟨9, 9⟩
def fMoverCtx : Fd := ⟨13, 10⟩
/-- MOVER_BYTES (05_spools_transfers_and_streaming.md). -/
def rMoverBytes (e i : Nat) : Reg := ⟨⟨.engP, e, 0, 0x3820 + 0x8 * i⟩, 0x0⟩
def fMoverBytesBytes : Fd := ⟨63, 0⟩
/-- SQ_BASE (05_spools_transfers_and_streaming.md). -/
def rSqBase (e n i : Nat) : Reg := ⟨⟨.engC, e, n, 0x0 + 0x80 * i⟩, 0x0⟩
def fSqBaseVa : Fd := ⟨63, 12⟩
/-- CQ_BASE (05_spools_transfers_and_streaming.md). -/
def rCqBase (e n i : Nat) : Reg := ⟨⟨.engC, e, n, 0x8 + 0x80 * i⟩, 0x0⟩
def fCqBaseVa : Fd := ⟨63, 12⟩
/-- SP_CFG (05_spools_transfers_and_streaming.md). -/
def rSpCfg (e n i : Nat) : Reg := ⟨⟨.engC, e, n, 0x10 + 0x80 * i⟩, 0x606⟩
def fSpCfgSqLog2 : Fd := ⟨4, 0⟩
def fSpCfgCqLog2 : Fd := ⟨12, 8⟩
def fSpCfgEnable : Fd := ⟨16, 16⟩
def fSpCfgResume : Fd := ⟨17, 17⟩
/-- SQ_TAIL (05_spools_transfers_and_streaming.md). -/
def rSqTail (e n i : Nat) : Reg := ⟨⟨.engC, e, n, 0x18 + 0x80 * i⟩, 0x0⟩
def fSqTailTail : Fd := ⟨31, 0⟩
/-- SQ_HEAD (05_spools_transfers_and_streaming.md). -/
def rSqHead (e n i : Nat) : Reg := ⟨⟨.engC, e, n, 0x20 + 0x80 * i⟩, 0x0⟩
def fSqHeadStarted : Fd := ⟨31, 0⟩
def fSqHeadDone : Fd := ⟨63, 32⟩
/-- CQ_PTR (05_spools_transfers_and_streaming.md). -/
def rCqPtr (e n i : Nat) : Reg := ⟨⟨.engC, e, n, 0x28 + 0x80 * i⟩, 0x0⟩
def fCqPtrCqTail : Fd := ⟨31, 0⟩
def fCqPtrCqHead : Fd := ⟨63, 32⟩
/-- SP_STATUS (05_spools_transfers_and_streaming.md). -/
def rSpStatus (e n i : Nat) : Reg := ⟨⟨.engC, e, n, 0x30 + 0x80 * i⟩, 0x0⟩
def fSpStatusState : Fd := ⟨2, 0⟩
def fSpStatusDbErr : Fd := ⟨8, 8⟩
def fSpStatusLeaseErr : Fd := ⟨9, 9⟩
def fSpStatusCqFull : Fd := ⟨10, 10⟩
def fSpStatusLastStatus : Fd := ⟨23, 16⟩
/-- SP_LOCK (05_spools_transfers_and_streaming.md). -/
def rSpLock (e n i : Nat) : Reg := ⟨⟨.engC, e, n, 0x38 + 0x80 * i⟩, 0x0⟩
def fSpLockGranted : Fd := ⟨0, 0⟩
def fSpLockHolder : Fd := ⟨31, 16⟩
def fSpLockExpired : Fd := ⟨47, 32⟩
/-- SP_MSI_ADDR (05_spools_transfers_and_streaming.md). -/
def rSpMsiAddr (e n i : Nat) : Reg := ⟨⟨.engC, e, n, 0x40 + 0x80 * i⟩, 0x0⟩
def fSpMsiAddrAddr : Fd := ⟨63, 0⟩
/-- SP_MSI_DATA (05_spools_transfers_and_streaming.md). -/
def rSpMsiData (e n i : Nat) : Reg := ⟨⟨.engC, e, n, 0x48 + 0x80 * i⟩, 0x0⟩
def fSpMsiDataData : Fd := ⟨31, 0⟩
/-- BOB_MARK (05_spools_transfers_and_streaming.md). -/
def rBobMark (e n : Nat) : Reg := ⟨⟨.engC, e, n, 0x200⟩, 0x0⟩
def fBobMarkBobbin : Fd := ⟨7, 0⟩
def fBobMarkOp : Fd := ⟨10, 8⟩
def fBobMarkReaders : Fd := ⟨31, 16⟩
/-- CTX_CANCEL (05_spools_transfers_and_streaming.md). -/
def rCtxCancel (e n : Nat) : Reg := ⟨⟨.engC, e, n, 0x208⟩, 0x0⟩
def fCtxCancelSpoolMask : Fd := ⟨3, 0⟩
def fCtxCancelReleaseAll : Fd := ⟨4, 4⟩
/-- BOB_ERR (05_spools_transfers_and_streaming.md). -/
def rBobErr (e n : Nat) : Reg := ⟨⟨.engC, e, n, 0x210⟩, 0x0⟩
def fBobErrCount : Fd := ⟨31, 0⟩
/-- CU_STATE (06_carder_input_preparation.md). -/
def rCuState (i : Nat) : Reg := ⟨⟨.carder, 0, 0, 0x0 + 0x100 * i⟩, 0x0⟩
def fCuStateState : Fd := ⟨1, 0⟩
def fCuStatePartition : Fd := ⟨5, 2⟩
/-- CU_PIXELS (06_carder_input_preparation.md). -/
def rCuPixels (i : Nat) : Reg := ⟨⟨.carder, 0, 0, 0x8 + 0x100 * i⟩, 0x0⟩
def fCuPixelsPixels : Fd := ⟨63, 0⟩
/-- CU_TOKENS (06_carder_input_preparation.md). -/
def rCuTokens (i : Nat) : Reg := ⟨⟨.carder, 0, 0, 0x10 + 0x100 * i⟩, 0x0⟩
def fCuTokensTokens : Fd := ⟨63, 0⟩
/-- CU_SAMPLE_ERR (06_carder_input_preparation.md). -/
def rCuSampleErr (i : Nat) : Reg := ⟨⟨.carder, 0, 0, 0x18 + 0x100 * i⟩, 0x0⟩
def fCuSampleErrSampleErr : Fd := ⟨31, 0⟩
/-- CU_OUT_OF_FRAME (06_carder_input_preparation.md). -/
def rCuOutOfFrame (i : Nat) : Reg := ⟨⟨.carder, 0, 0, 0x20 + 0x100 * i⟩, 0x0⟩
def fCuOutOfFrameOutOfFrame : Fd := ⟨63, 0⟩
/-- CU_ROI_CLIP (06_carder_input_preparation.md). -/
def rCuRoiClip (i : Nat) : Reg := ⟨⟨.carder, 0, 0, 0x28 + 0x100 * i⟩, 0x0⟩
def fCuRoiClipRoiClip : Fd := ⟨63, 0⟩
/-- CU_TRUNCATED (06_carder_input_preparation.md). -/
def rCuTruncated (i : Nat) : Reg := ⟨⟨.carder, 0, 0, 0x30 + 0x100 * i⟩, 0x0⟩
def fCuTruncatedTruncated : Fd := ⟨31, 0⟩
/-- CU_CLIPPED_FLUSHED (06_carder_input_preparation.md). -/
def rCuClippedFlushed (i : Nat) : Reg := ⟨⟨.carder, 0, 0, 0x38 + 0x100 * i⟩, 0x0⟩
def fCuClippedFlushedClippedFlushed : Fd := ⟨63, 0⟩
/-- CARDER_P_PIXELS (06_carder_input_preparation.md). -/
def rCarderPPixels (p : Nat) : Reg := ⟨⟨.carderWin, p, 0, 0x8⟩, 0x0⟩
def fCarderPPixelsPixels : Fd := ⟨63, 0⟩
/-- CARDER_P_SAMPLE_ERR (06_carder_input_preparation.md). -/
def rCarderPSampleErr (p : Nat) : Reg := ⟨⟨.carderWin, p, 0, 0x18⟩, 0x0⟩
def fCarderPSampleErrSampleErr : Fd := ⟨31, 0⟩
/-- MIG_CFG (07_memory_space_and_tiers.md). -/
def rMigCfg : Reg := ⟨⟨.rh, 0, 0, 0x10000⟩, 0x101019⟩
def fMigCfgEnable : Fd := ⟨0, 0⟩
def fMigCfgPolicy : Fd := ⟨1, 1⟩
def fMigCfgSampleLog2 : Fd := ⟨5, 2⟩
def fMigCfgHotThresh : Fd := ⟨15, 8⟩
def fMigCfgMaxInflight : Fd := ⟨20, 16⟩
/-- MIG_REQ (07_memory_space_and_tiers.md). -/
def rMigReq : Reg := ⟨⟨.rh, 0, 0, 0x10008⟩, 0x0⟩
def fMigReqOp : Fd := ⟨1, 0⟩
def fMigReqGranule : Fd := ⟨23, 4⟩
def fMigReqAstag : Fd := ⟨47, 32⟩
/-- MIG_STATUS (07_memory_space_and_tiers.md). -/
def rMigStatus : Reg := ⟨⟨.rh, 0, 0, 0x10010⟩, 0x0⟩
def fMigStatusQueued : Fd := ⟨6, 0⟩
def fMigStatusInFlight : Fd := ⟨12, 8⟩
def fMigStatusReqRefused : Fd := ⟨16, 16⟩
/-- HOT_BASE (07_memory_space_and_tiers.md). -/
def rHotBase : Reg := ⟨⟨.rh, 0, 0, 0x10018⟩, 0xc⟩
def fHotBaseLog2Entries : Fd := ⟨4, 0⟩
def fHotBaseBase : Fd := ⟨49, 12⟩
/-- HOT_PTR (07_memory_space_and_tiers.md). -/
def rHotPtr : Reg := ⟨⟨.rh, 0, 0, 0x10020⟩, 0x0⟩
def fHotPtrProducer : Fd := ⟨31, 0⟩
def fHotPtrConsumer : Fd := ⟨63, 32⟩
/-- POOL_ARM (07_memory_space_and_tiers.md). -/
def rPoolArm : Reg := ⟨⟨.rh, 0, 0, 0x10100⟩, 0x0⟩
def fPoolArmArm : Fd := ⟨0, 0⟩
def fPoolArmView : Fd := ⟨1, 1⟩
def fPoolArmRefused : Fd := ⟨2, 2⟩
def fPoolArmFirstBad : Fd := ⟨15, 8⟩
/-- PROMOTIONS (07_memory_space_and_tiers.md). -/
def rPromotions : Reg := ⟨⟨.rh, 0, 0, 0x10028⟩, 0x0⟩
def fPromotions : Fd := ⟨63, 0⟩
/-- DEMOTIONS (07_memory_space_and_tiers.md). -/
def rDemotions : Reg := ⟨⟨.rh, 0, 0, 0x10030⟩, 0x0⟩
def fDemotions : Fd := ⟨63, 0⟩
/-- BOUNCES (07_memory_space_and_tiers.md). -/
def rBounces : Reg := ⟨⟨.rh, 0, 0, 0x10038⟩, 0x0⟩
def fBounces : Fd := ⟨63, 0⟩
/-- REFUSED_DEMOTE (07_memory_space_and_tiers.md). -/
def rRefusedDemote : Reg := ⟨⟨.rh, 0, 0, 0x10040⟩, 0x0⟩
def fRefusedDemote : Fd := ⟨63, 0⟩
/-- POOL_REFUSED (07_memory_space_and_tiers.md). -/
def rPoolRefused : Reg := ⟨⟨.rh, 0, 0, 0x10048⟩, 0x0⟩
def fPoolRefused : Fd := ⟨63, 0⟩
/-- HOT_DROP (07_memory_space_and_tiers.md). -/
def rHotDrop : Reg := ⟨⟨.rh, 0, 0, 0x10050⟩, 0x0⟩
def fHotDrop : Fd := ⟨63, 0⟩
/-- MIG_BYTES (07_memory_space_and_tiers.md). -/
def rMigBytes : Reg := ⟨⟨.rh, 0, 0, 0x10058⟩, 0x0⟩
def fMigBytes : Fd := ⟨63, 0⟩
/-- HINT_IGNORED (07_memory_space_and_tiers.md). -/
def rHintIgnored : Reg := ⟨⟨.rh, 0, 0, 0x10060⟩, 0x0⟩
def fHintIgnored : Fd := ⟨63, 0⟩
/-- GRAN_SEL (07_memory_space_and_tiers.md). -/
def rGranSel : Reg := ⟨⟨.rh, 0, 0, 0x10080⟩, 0x0⟩
def fGranSelGranule : Fd := ⟨19, 0⟩
/-- GRAN_DATA (07_memory_space_and_tiers.md). -/
def rGranData : Reg := ⟨⟨.rh, 0, 0, 0x10088⟩, 0x0⟩
def fGranDataState : Fd := ⟨1, 0⟩
def fGranDataAge : Fd := ⟨9, 2⟩
def fGranDataHeat : Fd := ⟨17, 10⟩
def fGranDataFrame : Fd := ⟨35, 18⟩
def fGranDataAstag : Fd := ⟨51, 36⟩
def fGranDataPartition : Fd := ⟨55, 52⟩
def fGranDataReported : Fd := ⟨56, 56⟩
/-- POOL_ACCT (07_memory_space_and_tiers.md). -/
def rPoolAcct (i : Nat) : Reg := ⟨⟨.rh, 0, 0, 0x11000 + 0x8 * i⟩, 0x0⟩
def fPoolAcctAstag : Fd := ⟨15, 0⟩
def fPoolAcctPartition : Fd := ⟨19, 16⟩
def fPoolAcctValid : Fd := ⟨20, 20⟩
def fPoolAcctFloor : Fd := ⟨41, 24⟩
def fPoolAcctCeiling : Fd := ⟨59, 42⟩
/-- POOL_CHARGE (07_memory_space_and_tiers.md). -/
def rPoolCharge (i : Nat) : Reg := ⟨⟨.rh, 0, 0, 0x11800 + 0x8 * i⟩, 0x0⟩
def fPoolChargeCharged : Fd := ⟨17, 0⟩
/-- POOL_UNACCT (07_memory_space_and_tiers.md). -/
def rPoolUnacct (i : Nat) : Reg := ⟨⟨.rh, 0, 0, 0x10800 + 0x8 * i⟩, 0x0⟩
def fPoolUnacctCharged : Fd := ⟨17, 0⟩
/-- STALL_0 (07_memory_space_and_tiers.md). -/
def rStall0 (i : Nat) : Reg := ⟨⟨.rh, 0, 0, 0x12000 + 0x40 * i⟩, 0x0⟩
def fStall0Cycles : Fd := ⟨63, 0⟩
/-- STALL_1 (07_memory_space_and_tiers.md). -/
def rStall1 (i : Nat) : Reg := ⟨⟨.rh, 0, 0, 0x12008 + 0x40 * i⟩, 0x0⟩
def fStall1Cycles : Fd := ⟨63, 0⟩
/-- STALL_2 (07_memory_space_and_tiers.md). -/
def rStall2 (i : Nat) : Reg := ⟨⟨.rh, 0, 0, 0x12010 + 0x40 * i⟩, 0x0⟩
def fStall2Cycles : Fd := ⟨63, 0⟩
/-- STALL_3 (07_memory_space_and_tiers.md). -/
def rStall3 (i : Nat) : Reg := ⟨⟨.rh, 0, 0, 0x12018 + 0x40 * i⟩, 0x0⟩
def fStall3Cycles : Fd := ⟨63, 0⟩
/-- STALL_4 (07_memory_space_and_tiers.md). -/
def rStall4 (i : Nat) : Reg := ⟨⟨.rh, 0, 0, 0x12020 + 0x40 * i⟩, 0x0⟩
def fStall4Cycles : Fd := ⟨63, 0⟩
/-- STALL_5 (07_memory_space_and_tiers.md). -/
def rStall5 (i : Nat) : Reg := ⟨⟨.rh, 0, 0, 0x12028 + 0x40 * i⟩, 0x0⟩
def fStall5Cycles : Fd := ⟨63, 0⟩
/-- STALL_6 (07_memory_space_and_tiers.md). -/
def rStall6 (i : Nat) : Reg := ⟨⟨.rh, 0, 0, 0x12030 + 0x40 * i⟩, 0x0⟩
def fStall6Cycles : Fd := ⟨63, 0⟩
/-- STK_CFG (08_memory_interfaces.md). -/
def rStkCfg (d : Nat) : Reg := ⟨⟨.stk, d, 0, 0x80000⟩, 0x8820⟩
def fStkCfgWrBatch : Fd := ⟨6, 0⟩
def fStkCfgRefPostpone : Fd := ⟨11, 8⟩
def fStkCfgRefPullin : Fd := ⟨15, 12⟩
/-- STK_REPAIR (08_memory_interfaces.md). -/
def rStkRepair (d : Nat) : Reg := ⟨⟨.stk, d, 0, 0x80008⟩, 0x0⟩
def fStkRepairOp : Fd := ⟨1, 0⟩
def fStkRepairChannel : Fd := ⟨10, 4⟩
def fStkRepairBank : Fd := ⟨15, 12⟩
def fStkRepairTarget : Fd := ⟨29, 16⟩
/-- STK_REPAIR_STATUS (08_memory_interfaces.md). -/
def rStkRepairStatus (d : Nat) : Reg := ⟨⟨.stk, d, 0, 0x80010⟩, 0x0⟩
def fStkRepairStatusState : Fd := ⟨1, 0⟩
def fStkRepairStatusReason : Fd := ⟨7, 4⟩
/-- STK_REPAIRS (08_memory_interfaces.md). -/
def rStkRepairs (d : Nat) : Reg := ⟨⟨.stk, d, 0, 0x80018⟩, 0x0⟩
def fStkRepairsRepairs : Fd := ⟨63, 0⟩
/-- RECAL_WINDOWS (08_memory_interfaces.md). -/
def rRecalWindows (d : Nat) : Reg := ⟨⟨.stk, d, 0, 0x80020⟩, 0x0⟩
def fRecalWindows : Fd := ⟨63, 0⟩
/-- TURNAROUNDS (08_memory_interfaces.md). -/
def rTurnarounds (d : Nat) : Reg := ⟨⟨.stk, d, 0, 0x80028⟩, 0x0⟩
def fTurnarounds : Fd := ⟨63, 0⟩
/-- FL_REQ_SRC (08_memory_interfaces.md). -/
def rFlReqSrc : Reg := ⟨⟨.flash, 0, 0, 0x80000⟩, 0x0⟩
def fFlReqSrcMpa : Fd := ⟨49, 14⟩
/-- FL_REQ_CTL (08_memory_interfaces.md). -/
def rFlReqCtl : Reg := ⟨⟨.flash, 0, 0, 0x80008⟩, 0x0⟩
def fFlReqCtlOp : Fd := ⟨1, 0⟩
def fFlReqCtlPartition : Fd := ⟨5, 2⟩
def fFlReqCtlPages : Fd := ⟨31, 8⟩
def fFlReqCtlLpn : Fd := ⟨63, 32⟩
/-- FL_REQ_STATUS (08_memory_interfaces.md). -/
def rFlReqStatus : Reg := ⟨⟨.flash, 0, 0, 0x80010⟩, 0x0⟩
def fFlReqStatusQueued : Fd := ⟨6, 0⟩
def fFlReqStatusRefused : Fd := ⟨8, 8⟩
def fFlReqStatusCompleted : Fd := ⟨63, 32⟩
/-- RC_STATUS (09_range_translation.md). -/
def rRcStatus (e : Nat) : Reg := ⟨⟨.engP, e, 0, 0x4000⟩, 0x0⟩
def fRcStatusEntries : Fd := ⟨8, 0⟩
def fRcStatusWalks : Fd := ⟨20, 16⟩
/-- RC_HITS (09_range_translation.md). -/
def rRcHits (e : Nat) : Reg := ⟨⟨.engP, e, 0, 0x4008⟩, 0x0⟩
def fRcHitsHits : Fd := ⟨63, 0⟩
/-- RC_MISSES (09_range_translation.md). -/
def rRcMisses (e : Nat) : Reg := ⟨⟨.engP, e, 0, 0x4010⟩, 0x0⟩
def fRcMissesMisses : Fd := ⟨63, 0⟩
/-- RESUME_IGNORED (09_range_translation.md). -/
def rResumeIgnored (e : Nat) : Reg := ⟨⟨.engP, e, 0, 0x4018⟩, 0x0⟩
def fResumeIgnoredCount : Fd := ⟨31, 0⟩
/-- FR_BASE (09_range_translation.md). -/
def rFrBase (e i : Nat) : Reg := ⟨⟨.engP, e, 0, 0x4100 + 0x20 * i⟩, 0x6⟩
def fFrBaseLog2 : Fd := ⟨4, 0⟩
def fFrBaseBase : Fd := ⟨49, 12⟩
/-- FR_PTR (09_range_translation.md). -/
def rFrPtr (e i : Nat) : Reg := ⟨⟨.engP, e, 0, 0x4108 + 0x20 * i⟩, 0x0⟩
def fFrPtrProducer : Fd := ⟨31, 0⟩
def fFrPtrConsumer : Fd := ⟨63, 32⟩
/-- FR_MSI_ADDR (09_range_translation.md). -/
def rFrMsiAddr (e i : Nat) : Reg := ⟨⟨.engP, e, 0, 0x4110 + 0x20 * i⟩, 0x0⟩
def fFrMsiAddrAddr : Fd := ⟨63, 0⟩
/-- FR_MSI_DATA (09_range_translation.md). -/
def rFrMsiData (e i : Nat) : Reg := ⟨⟨.engP, e, 0, 0x4118 + 0x20 * i⟩, 0x0⟩
def fFrMsiDataData : Fd := ⟨31, 0⟩
/-- FR_STATUS (09_range_translation.md). -/
def rFrStatus (e i : Nat) : Reg := ⟨⟨.engP, e, 0, 0x4300 + 0x8 * i⟩, 0x0⟩
def fFrStatusOverflow : Fd := ⟨15, 0⟩
def fFrStatusKilled : Fd := ⟨16, 16⟩
def fFrStatusStalled : Fd := ⟨31, 24⟩
/-- FR_RESUME (09_range_translation.md). -/
def rFrResume (e : Nat) : Reg := ⟨⟨.engP, e, 0, 0x4400⟩, 0x0⟩
def fFrResumeSeq : Fd := ⟨47, 0⟩
def fFrResumeCtx : Fd := ⟨51, 48⟩
def fFrResumeAction : Fd := ⟨53, 52⟩
/-- RH_ROOT (09_range_translation.md). -/
def rRhRoot : Reg := ⟨⟨.rh, 0, 0, 0x0⟩, 0x0⟩
def fRhRootBase : Fd := ⟨49, 20⟩
def fRhRootEnable : Fd := ⟨50, 50⟩
/-- RH_FLUSH (09_range_translation.md). -/
def rRhFlush : Reg := ⟨⟨.rh, 0, 0, 0x8⟩, 0x0⟩
def fRhFlushAstag : Fd := ⟨15, 0⟩
def fRhFlushAll : Fd := ⟨16, 16⟩
def fRhFlushDrain : Fd := ⟨17, 17⟩
def fRhFlushGo : Fd := ⟨18, 18⟩
/-- RH_FLUSH_STATUS (09_range_translation.md). -/
def rRhFlushStatus : Reg := ⟨⟨.rh, 0, 0, 0x10⟩, 0x0⟩
def fRhFlushStatusQueued : Fd := ⟨4, 0⟩
def fRhFlushStatusRefused : Fd := ⟨8, 8⟩
def fRhFlushStatusDone : Fd := ⟨63, 32⟩
/-- RH_CONSULT_BASE (09_range_translation.md). -/
def rRhConsultBase : Reg := ⟨⟨.rh, 0, 0, 0x18⟩, 0x6⟩
def fRhConsultBaseLog2 : Fd := ⟨4, 0⟩
def fRhConsultBaseBase : Fd := ⟨49, 12⟩
/-- RH_CONSULT_PTR (09_range_translation.md). -/
def rRhConsultPtr : Reg := ⟨⟨.rh, 0, 0, 0x20⟩, 0x0⟩
def fRhConsultPtrProducer : Fd := ⟨31, 0⟩
def fRhConsultPtrConsumer : Fd := ⟨63, 32⟩
/-- RH_CONSULT_MSI_ADDR (09_range_translation.md). -/
def rRhConsultMsiAddr : Reg := ⟨⟨.rh, 0, 0, 0x28⟩, 0x0⟩
def fRhConsultMsiAddrAddr : Fd := ⟨63, 0⟩
/-- RH_CONSULT_MSI_DATA (09_range_translation.md). -/
def rRhConsultMsiData : Reg := ⟨⟨.rh, 0, 0, 0x30⟩, 0x0⟩
def fRhConsultMsiDataData : Fd := ⟨31, 0⟩
/-- RH_REPLY (09_range_translation.md). -/
def rRhReply (i : Nat) : Reg := ⟨⟨.rh, 0, 0, 0x40 + 0x8 * i⟩, 0x0⟩
def fRhReplyEntry : Fd := ⟨63, 0⟩
/-- RH_REPLY_CTL (09_range_translation.md). -/
def rRhReplyCtl : Reg := ⟨⟨.rh, 0, 0, 0x60⟩, 0x0⟩
def fRhReplyCtlId : Fd := ⟨31, 0⟩
def fRhReplyCtlAction : Fd := ⟨33, 32⟩
/-- RH_WALKS (09_range_translation.md). -/
def rRhWalks : Reg := ⟨⟨.rh, 0, 0, 0x80⟩, 0x0⟩
def fRhWalksCount : Fd := ⟨63, 0⟩
/-- RH_BAD_ENTRY (09_range_translation.md). -/
def rRhBadEntry : Reg := ⟨⟨.rh, 0, 0, 0x88⟩, 0x0⟩
def fRhBadEntryCount : Fd := ⟨63, 0⟩
/-- RH_PFR_BASE (09_range_translation.md). -/
def rRhPfrBase (i : Nat) : Reg := ⟨⟨.rh, 0, 0, 0x1000 + 0x20 * i⟩, 0x6⟩
def fRhPfrBaseLog2 : Fd := ⟨4, 0⟩
def fRhPfrBaseBase : Fd := ⟨49, 12⟩
/-- RH_PFR_PTR (09_range_translation.md). -/
def rRhPfrPtr (i : Nat) : Reg := ⟨⟨.rh, 0, 0, 0x1008 + 0x20 * i⟩, 0x0⟩
def fRhPfrPtrProducer : Fd := ⟨31, 0⟩
def fRhPfrPtrConsumer : Fd := ⟨63, 32⟩
/-- RH_PFR_MSI_ADDR (09_range_translation.md). -/
def rRhPfrMsiAddr (i : Nat) : Reg := ⟨⟨.rh, 0, 0, 0x1010 + 0x20 * i⟩, 0x0⟩
def fRhPfrMsiAddrAddr : Fd := ⟨63, 0⟩
/-- RH_PFR_MSI_DATA (09_range_translation.md). -/
def rRhPfrMsiData (i : Nat) : Reg := ⟨⟨.rh, 0, 0, 0x1018 + 0x20 * i⟩, 0x0⟩
def fRhPfrMsiDataData : Fd := ⟨31, 0⟩
/-- DIR_BIAS_REQ (10_coherence.md). -/
def rDirBiasReq : Reg := ⟨⟨.dir, 0, 0, 0x0⟩, 0x0⟩
def fDirBiasReqAstag : Fd := ⟨15, 0⟩
def fDirBiasReqAll : Fd := ⟨16, 16⟩
def fDirBiasReqTo : Fd := ⟨17, 17⟩
def fDirBiasReqGo : Fd := ⟨18, 18⟩
/-- DIR_BIAS_SPAN (10_coherence.md). -/
def rDirBiasSpan : Reg := ⟨⟨.dir, 0, 0, 0x8⟩, 0x0⟩
def fDirBiasSpanStart : Fd := ⟨49, 16⟩
/-- DIR_BIAS_LEN (10_coherence.md). -/
def rDirBiasLen : Reg := ⟨⟨.dir, 0, 0, 0x10⟩, 0x0⟩
def fDirBiasLenLength : Fd := ⟨48, 16⟩
/-- DIR_BIAS_STATUS (10_coherence.md). -/
def rDirBiasStatus : Reg := ⟨⟨.dir, 0, 0, 0x18⟩, 0x0⟩
def fDirBiasStatusQueued : Fd := ⟨2, 0⟩
def fDirBiasStatusRefused : Fd := ⟨8, 8⟩
def fDirBiasStatusDone : Fd := ⟨63, 32⟩
/-- DIR_BIAS_MSI_ADDR (10_coherence.md). -/
def rDirBiasMsiAddr : Reg := ⟨⟨.dir, 0, 0, 0x20⟩, 0x0⟩
def fDirBiasMsiAddrAddr : Fd := ⟨63, 0⟩
/-- DIR_BIAS_MSI_DATA (10_coherence.md). -/
def rDirBiasMsiData : Reg := ⟨⟨.dir, 0, 0, 0x28⟩, 0x0⟩
def fDirBiasMsiDataData : Fd := ⟨31, 0⟩
/-- DIR_EVICT (10_coherence.md). -/
def rDirEvict : Reg := ⟨⟨.dir, 0, 0, 0x40⟩, 0x0⟩
def fDirEvict : Fd := ⟨63, 0⟩
/-- INVALIDATIONS (10_coherence.md). -/
def rInvalidations : Reg := ⟨⟨.dir, 0, 0, 0x48⟩, 0x0⟩
def fInvalidations : Fd := ⟨63, 0⟩
/-- OWNER_SUPPLY (10_coherence.md). -/
def rOwnerSupply : Reg := ⟨⟨.dir, 0, 0, 0x50⟩, 0x0⟩
def fOwnerSupply : Fd := ⟨63, 0⟩
/-- HOME_ATOMICS (10_coherence.md). -/
def rHomeAtomics : Reg := ⟨⟨.dir, 0, 0, 0x58⟩, 0x0⟩
def fHomeAtomics : Fd := ⟨63, 0⟩
/-- NEAR_ATOMICS (10_coherence.md). -/
def rNearAtomics : Reg := ⟨⟨.dir, 0, 0, 0x60⟩, 0x0⟩
def fNearAtomics : Fd := ⟨63, 0⟩
/-- HOLD_WAIT (10_coherence.md). -/
def rHoldWait : Reg := ⟨⟨.dir, 0, 0, 0x68⟩, 0x0⟩
def fHoldWait : Fd := ⟨63, 0⟩
/-- DIR_LOOK_SEL (10_coherence.md). -/
def rDirLookSel : Reg := ⟨⟨.dir, 0, 0, 0x80⟩, 0x0⟩
def fDirLookSelLine : Fd := ⟨49, 6⟩
/-- DIR_LOOK_STATE (10_coherence.md). -/
def rDirLookState : Reg := ⟨⟨.dir, 0, 0, 0x88⟩, 0x0⟩
def fDirLookStateState : Fd := ⟨1, 0⟩
/-- DIR_LOOK_PV (10_coherence.md). -/
def rDirLookPv (i : Nat) : Reg := ⟨⟨.dir, 0, 0, 0x90 + 0x8 * i⟩, 0x0⟩
def fDirLookPvPv : Fd := ⟨63, 0⟩
/-- STEP_CUR (11_training_step.md). -/
def rStepCur (p : Nat) : Reg := ⟨⟨.job, p, 0, 0x0⟩, 0x0⟩
def fStepCurCurStep : Fd := ⟨47, 0⟩
/-- STEP_CTL (11_training_step.md). -/
def rStepCtl (p : Nat) : Reg := ⟨⟨.job, p, 0, 0x8⟩, 0x0⟩
def fStepCtlStep : Fd := ⟨47, 0⟩
def fStepCtlOp : Fd := ⟨50, 48⟩
/-- STEP_STATUS (11_training_step.md). -/
def rStepStatus (p : Nat) : Reg := ⟨⟨.job, p, 0, 0x10⟩, 0x0⟩
def fStepStatusPhase : Fd := ⟨2, 0⟩
def fStepStatusCtlErr : Fd := ⟨3, 3⟩
def fStepStatusLastOutcome : Fd := ⟨10, 8⟩
def fStepStatusLastStep : Fd := ⟨63, 16⟩
/-- PENNANT_CAUSE (11_training_step.md). -/
def rPennantCause (p : Nat) : Reg := ⟨⟨.job, p, 0, 0x18⟩, 0x0⟩
def fPennantCauseCause : Fd := ⟨10, 0⟩
def fPennantCausePending : Fd := ⟨63, 32⟩
/-- OPT_ARM (11_training_step.md). -/
def rOptArm (p : Nat) : Reg := ⟨⟨.job, p, 0, 0xa0⟩, 0x0⟩
def fOptArmArm : Fd := ⟨0, 0⟩
def fOptArmView : Fd := ⟨1, 1⟩
def fOptArmRefused : Fd := ⟨2, 2⟩
/-- OPT_T (11_training_step.md). -/
def rOptT (p : Nat) : Reg := ⟨⟨.job, p, 0, 0x20⟩, 0x0⟩
def fOptTT : Fd := ⟨31, 0⟩
/-- JOB_CFG (11_training_step.md). -/
def rJobCfg (p : Nat) : Reg := ⟨⟨.job, p, 0, 0x28⟩, 0x0⟩
def fJobCfgAstag : Fd := ⟨15, 0⟩
def fJobCfgGroup : Fd := ⟨31, 16⟩
def fJobCfgMembers : Fd := ⟨46, 32⟩
def fJobCfgEnable : Fd := ⟨47, 47⟩
def fJobCfgVoteGroup : Fd := ⟨59, 48⟩
/-- STEP_BLOCK (11_training_step.md). -/
def rStepBlock (p : Nat) : Reg := ⟨⟨.job, p, 0, 0x30⟩, 0x0⟩
def fStepBlock : Fd := ⟨49, 6⟩
/-- UPD_TABLE (11_training_step.md). -/
def rUpdTable (p : Nat) : Reg := ⟨⟨.job, p, 0, 0x38⟩, 0x0⟩
def fUpdTable : Fd := ⟨49, 6⟩
/-- UPD_COUNT (11_training_step.md). -/
def rUpdCount (p : Nat) : Reg := ⟨⟨.job, p, 0, 0x40⟩, 0x0⟩
def fUpdCount : Fd := ⟨16, 0⟩
/-- GCHK_BASE (11_training_step.md). -/
def rGchkBase (p : Nat) : Reg := ⟨⟨.job, p, 0, 0x48⟩, 0x0⟩
def fGchkBase : Fd := ⟨49, 12⟩
/-- LEDGER_BASE (11_training_step.md). -/
def rLedgerBase (p : Nat) : Reg := ⟨⟨.job, p, 0, 0x50⟩, 0x0⟩
def fLedgerBase : Fd := ⟨49, 12⟩
/-- STAT_OUT (11_training_step.md). -/
def rStatOut (p : Nat) : Reg := ⟨⟨.job, p, 0, 0x58⟩, 0x0⟩
def fStatOut : Fd := ⟨49, 12⟩
def fStatOutStatOutCap : Fd := ⟨11, 0⟩
/-- OPT_LR (11_training_step.md). -/
def rOptLr (p : Nat) : Reg := ⟨⟨.job, p, 0, 0x80⟩, 0x0⟩
def fOptLrLr : Fd := ⟨31, 0⟩
/-- OPT_BETA (11_training_step.md). -/
def rOptBeta (p : Nat) : Reg := ⟨⟨.job, p, 0, 0x88⟩, 0x0⟩
def fOptBetaBeta1 : Fd := ⟨31, 0⟩
def fOptBetaBeta2 : Fd := ⟨63, 32⟩
/-- OPT_EPS_WD (11_training_step.md). -/
def rOptEpsWd (p : Nat) : Reg := ⟨⟨.job, p, 0, 0x90⟩, 0x0⟩
def fOptEpsWdEps : Fd := ⟨31, 0⟩
def fOptEpsWdWeightDecay : Fd := ⟨63, 32⟩
/-- OPT_SCALE (11_training_step.md). -/
def rOptScale (p : Nat) : Reg := ⟨⟨.job, p, 0, 0x98⟩, 0x0⟩
def fOptScaleGradScale : Fd := ⟨31, 0⟩
def fOptScaleRnd : Fd := ⟨33, 32⟩
/-- CKPT_CTL (11_training_step.md). -/
def rCkptCtl (p : Nat) : Reg := ⟨⟨.job, p, 0, 0xc0⟩, 0x0⟩
def fCkptCtlNext : Fd := ⟨0, 0⟩
def fCkptCtlOp : Fd := ⟨2, 1⟩
def fCkptCtlSlot : Fd := ⟨3, 3⟩
/-- CKPT_STATUS (11_training_step.md). -/
def rCkptStatus (p : Nat) : Reg := ⟨⟨.job, p, 0, 0xc8⟩, 0x0⟩
def fCkptStatusState : Fd := ⟨1, 0⟩
def fCkptStatusSlot : Fd := ⟨2, 2⟩
def fCkptStatusFailed : Fd := ⟨3, 3⟩
def fCkptStatusLastStep : Fd := ⟨63, 16⟩
/-- CKPT_BASE (11_training_step.md). -/
def rCkptBase (p : Nat) : Reg := ⟨⟨.job, p, 0, 0xd0⟩, 0x0⟩
def fCkptBaseLpnA : Fd := ⟨31, 0⟩
def fCkptBaseLpnB : Fd := ⟨63, 32⟩
/-- CKPT_CFG (11_training_step.md). -/
def rCkptCfg (p : Nat) : Reg := ⟨⟨.job, p, 0, 0xd8⟩, 0x0⟩
def fCkptCfgSlotPages : Fd := ⟨31, 0⟩
def fCkptCfgInterval : Fd := ⟨63, 32⟩
/-- HALY_MISS (11_training_step.md). -/
def rHalyMiss (p i : Nat) : Reg := ⟨⟨.job, p, 0, 0xe0 + 0x8 * i⟩, 0x0⟩
def fHalyMissPeers : Fd := ⟨63, 0⟩
/-- HOISTS (11_training_step.md). -/
def rHoists (p : Nat) : Reg := ⟨⟨.job, p, 0, 0x100⟩, 0x0⟩
def fHoists : Fd := ⟨63, 0⟩
/-- SKIP_RAISED (11_training_step.md). -/
def rSkipRaised (p : Nat) : Reg := ⟨⟨.job, p, 0, 0x108⟩, 0x0⟩
def fSkipRaised : Fd := ⟨63, 0⟩
/-- SKIP_VOID (11_training_step.md). -/
def rSkipVoid (p : Nat) : Reg := ⟨⟨.job, p, 0, 0x110⟩, 0x0⟩
def fSkipVoid : Fd := ⟨63, 0⟩
/-- DIVERGED_COUNT (11_training_step.md). -/
def rDivergedCount (p : Nat) : Reg := ⟨⟨.job, p, 0, 0x118⟩, 0x0⟩
def fDivergedCount : Fd := ⟨63, 0⟩
/-- CKPT_WAIT (11_training_step.md). -/
def rCkptWait (p : Nat) : Reg := ⟨⟨.job, p, 0, 0x120⟩, 0x0⟩
def fCkptWait : Fd := ⟨63, 0⟩
/-- OPT_GRAD_POISON (11_training_step.md). -/
def rOptGradPoison (p : Nat) : Reg := ⟨⟨.job, p, 0, 0x128⟩, 0x0⟩
def fOptGradPoison : Fd := ⟨63, 0⟩
/-- OPT_WC_CLIP (11_training_step.md). -/
def rOptWcClip (p : Nat) : Reg := ⟨⟨.job, p, 0, 0x130⟩, 0x0⟩
def fOptWcClip : Fd := ⟨63, 0⟩
/-- STALE_VOTES (11_training_step.md). -/
def rStaleVotes (p : Nat) : Reg := ⟨⟨.job, p, 0, 0x138⟩, 0x0⟩
def fStaleVotes : Fd := ⟨63, 0⟩
/-- OPT_MOM_CLIP (11_training_step.md). -/
def rOptMomClip (p : Nat) : Reg := ⟨⟨.job, p, 0, 0x140⟩, 0x0⟩
def fOptMomClip : Fd := ⟨63, 0⟩
/-- OPT_MOM_NONFINITE (11_training_step.md). -/
def rOptMomNonfinite (p : Nat) : Reg := ⟨⟨.job, p, 0, 0x148⟩, 0x0⟩
def fOptMomNonfinite : Fd := ⟨63, 0⟩
/-- FAB_ID (12_ehrant_fabric.md). -/
def rFabId : Reg := ⟨⟨.fab, 0, 0, 0x0⟩, 0x0⟩
def fFabIdPeerId : Fd := ⟨15, 0⟩
def fFabIdMode : Fd := ⟨16, 16⟩
def fFabIdEncap : Fd := ⟨18, 17⟩
def fFabIdPeerValid : Fd := ⟨19, 19⟩
/-- FAB_PORT (12_ehrant_fabric.md). -/
def rFabPort (i : Nat) : Reg := ⟨⟨.fab, 0, 0, 0x100 + 0x8 * i⟩, 0x0⟩
def fFabPortState : Fd := ⟨1, 0⟩
def fFabPortRate : Fd := ⟨3, 2⟩
def fFabPortNeighbourValid : Fd := ⟨4, 4⟩
def fFabPortNeighbour : Fd := ⟨31, 16⟩
def fFabPortReplayHeld : Fd := ⟨42, 32⟩
/-- PORT_TX_FRAMES (12_ehrant_fabric.md). -/
def rPortTxFrames (i : Nat) : Reg := ⟨⟨.fab, 0, 0, 0x200 + 0x20 * i⟩, 0x0⟩
def fPortTxFramesTxFrames : Fd := ⟨63, 0⟩
/-- PORT_RX_FRAMES (12_ehrant_fabric.md). -/
def rPortRxFrames (i : Nat) : Reg := ⟨⟨.fab, 0, 0, 0x208 + 0x20 * i⟩, 0x0⟩
def fPortRxFramesRxFrames : Fd := ⟨63, 0⟩
/-- PORT_FCS_ERR (12_ehrant_fabric.md). -/
def rPortFcsErr (i : Nat) : Reg := ⟨⟨.fab, 0, 0, 0x210 + 0x20 * i⟩, 0x0⟩
def fPortFcsErrFcsErr : Fd := ⟨63, 0⟩
/-- PORT_LINK_REPLAYS (12_ehrant_fabric.md). -/
def rPortLinkReplays (i : Nat) : Reg := ⟨⟨.fab, 0, 0, 0x218 + 0x20 * i⟩, 0x0⟩
def fPortLinkReplaysLinkReplays : Fd := ⟨63, 0⟩
/-- CONN_TABLE (12_ehrant_fabric.md). -/
def rConnTable : Reg := ⟨⟨.fab, 0, 0, 0x400⟩, 0x0⟩
def fConnTableBase : Fd := ⟨49, 12⟩
/-- CONN_CTL (12_ehrant_fabric.md). -/
def rConnCtl : Reg := ⟨⟨.fab, 0, 0, 0x408⟩, 0x0⟩
def fConnCtlConn : Fd := ⟨15, 0⟩
def fConnCtlOp : Fd := ⟨17, 16⟩
/-- CONN_STATUS (12_ehrant_fabric.md). -/
def rConnStatus : Reg := ⟨⟨.fab, 0, 0, 0x410⟩, 0x0⟩
def fConnStatusBusy : Fd := ⟨0, 0⟩
def fConnStatusRefused : Fd := ⟨1, 1⟩
def fConnStatusDone : Fd := ⟨63, 32⟩
/-- PEER_SEL (12_ehrant_fabric.md). -/
def rPeerSel : Reg := ⟨⟨.fab, 0, 0, 0x420⟩, 0x0⟩
def fPeerSelPeer : Fd := ⟨15, 0⟩
/-- PEER_STATE (12_ehrant_fabric.md). -/
def rPeerState : Reg := ⟨⟨.fab, 0, 0, 0x428⟩, 0x0⟩
def fPeerStateState : Fd := ⟨1, 0⟩
def fPeerStatePlanesUp : Fd := ⟨31, 16⟩
/-- RETX (12_ehrant_fabric.md). -/
def rRetx : Reg := ⟨⟨.fab, 0, 0, 0x500⟩, 0x0⟩
def fRetx : Fd := ⟨63, 0⟩
/-- STALE_RX (12_ehrant_fabric.md). -/
def rStaleRx : Reg := ⟨⟨.fab, 0, 0, 0x508⟩, 0x0⟩
def fStaleRx : Fd := ⟨63, 0⟩
/-- NACK_TX (12_ehrant_fabric.md). -/
def rNackTx : Reg := ⟨⟨.fab, 0, 0, 0x510⟩, 0x0⟩
def fNackTx : Fd := ⟨63, 0⟩
/-- ICRC_ERR (12_ehrant_fabric.md). -/
def rIcrcErr : Reg := ⟨⟨.fab, 0, 0, 0x518⟩, 0x0⟩
def fIcrcErr : Fd := ⟨63, 0⟩
/-- GCM_FAIL (12_ehrant_fabric.md). -/
def rGcmFail : Reg := ⟨⟨.fab, 0, 0, 0x520⟩, 0x0⟩
def fGcmFail : Fd := ⟨63, 0⟩
/-- CTX_MISS (12_ehrant_fabric.md). -/
def rCtxMiss : Reg := ⟨⟨.fab, 0, 0, 0x528⟩, 0x0⟩
def fCtxMiss : Fd := ⟨63, 0⟩
/-- BAD_FRAME (12_ehrant_fabric.md). -/
def rBadFrame : Reg := ⟨⟨.fab, 0, 0, 0x530⟩, 0x0⟩
def fBadFrame : Fd := ⟨63, 0⟩
/-- GRP_TABLE (12_ehrant_fabric.md). -/
def rGrpTable : Reg := ⟨⟨.coll, 0, 0, 0x0⟩, 0x0⟩
def fGrpTableBase : Fd := ⟨49, 6⟩
/-- LAND_TABLE (12_ehrant_fabric.md). -/
def rLandTable : Reg := ⟨⟨.coll, 0, 0, 0x8⟩, 0x0⟩
def fLandTableBase : Fd := ⟨49, 6⟩
/-- COLL_OPS (12_ehrant_fabric.md). -/
def rCollOps : Reg := ⟨⟨.coll, 0, 0, 0x40⟩, 0x0⟩
def fCollOps : Fd := ⟨63, 0⟩
/-- ROWS_LANDED (12_ehrant_fabric.md). -/
def rRowsLanded : Reg := ⟨⟨.coll, 0, 0, 0x48⟩, 0x0⟩
def fRowsLanded : Fd := ⟨63, 0⟩
/-- ROWS_DROPPED (12_ehrant_fabric.md). -/
def rRowsDropped : Reg := ⟨⟨.coll, 0, 0, 0x50⟩, 0x0⟩
def fRowsDropped : Fd := ⟨63, 0⟩
/-- COMBINE_ROWS (12_ehrant_fabric.md). -/
def rCombineRows : Reg := ⟨⟨.coll, 0, 0, 0x58⟩, 0x0⟩
def fCombineRows : Fd := ⟨63, 0⟩
/-- PLA_LINK_STATE (13_die_to_die_and_guest_site.md). -/
def rPlaLinkState (i : Nat) : Reg := ⟨⟨.plalia, 0, 0, 0x0 + 0x40 * i⟩, 0x0⟩
def fPlaLinkStateState : Fd := ⟨1, 0⟩
def fPlaLinkStateRoute : Fd := ⟨3, 2⟩
def fPlaLinkStateModulesUp : Fd := ⟨7, 4⟩
def fPlaLinkStateLanesRepaired : Fd := ⟨15, 8⟩
def fPlaLinkStateChannels : Fd := ⟨20, 16⟩
/-- PLA_LINK_PEER (13_die_to_die_and_guest_site.md). -/
def rPlaLinkPeer (i : Nat) : Reg := ⟨⟨.plalia, 0, 0, 0x8 + 0x40 * i⟩, 0x0⟩
def fPlaLinkPeerDieType : Fd := ⟨7, 0⟩
def fPlaLinkPeerGen : Fd := ⟨15, 8⟩
def fPlaLinkPeerVer : Fd := ⟨23, 16⟩
def fPlaLinkPeerMaxOut : Fd := ⟨39, 24⟩
/-- CRC_RETRY (13_die_to_die_and_guest_site.md). -/
def rCrcRetry (i : Nat) : Reg := ⟨⟨.plalia, 0, 0, 0x10 + 0x40 * i⟩, 0x0⟩
def fCrcRetry : Fd := ⟨63, 0⟩
/-- PLA_BAD (13_die_to_die_and_guest_site.md). -/
def rPlaBad (i : Nat) : Reg := ⟨⟨.plalia, 0, 0, 0x18 + 0x40 * i⟩, 0x0⟩
def fPlaBad : Fd := ⟨31, 0⟩
/-- PLA_GUEST_REFUSED (13_die_to_die_and_guest_site.md). -/
def rPlaGuestRefused (i : Nat) : Reg := ⟨⟨.plalia, 0, 0, 0x20 + 0x40 * i⟩, 0x0⟩
def fPlaGuestRefused : Fd := ⟨31, 0⟩
/-- SEC_STATUS (14_partitions_and_security.md). -/
def rSecStatus : Reg := ⟨⟨.sec, 0, 0, 0x0⟩, 0x0⟩
def fSecStatusBootSlot : Fd := ⟨0, 0⟩
def fSecStatusFallback : Fd := ⟨1, 1⟩
def fSecStatusLifecycle : Fd := ⟨3, 2⟩
def fSecStatusDebugLevel : Fd := ⟨5, 4⟩
def fSecStatusDebugPartition : Fd := ⟨9, 6⟩
def fSecStatusTenantIsolate : Fd := ⟨10, 10⟩
def fSecStatusFuseSvn : Fd := ⟨31, 16⟩
def fSecStatusImageSvn : Fd := ⟨47, 32⟩
/-- SEC_ENG_OWNER (14_partitions_and_security.md). -/
def rSecEngOwner (i : Nat) : Reg := ⟨⟨.sec, 0, 0, 0x10 + 0x8 * i⟩, 0x0⟩
def fSecEngOwnerOwners : Fd := ⟨63, 0⟩
/-- SEC_CORE_OWNER (14_partitions_and_security.md). -/
def rSecCoreOwner (i : Nat) : Reg := ⟨⟨.sec, 0, 0, 0x20 + 0x8 * i⟩, 0x0⟩
def fSecCoreOwnerOwners : Fd := ⟨63, 0⟩
/-- SEC_PART (14_partitions_and_security.md). -/
def rSecPart (i : Nat) : Reg := ⟨⟨.sec, 0, 0, 0x100 + 0x8 * i⟩, 0x0⟩
def fSecPartPartGen : Fd := ⟨31, 0⟩
def fSecPartKeysReady : Fd := ⟨32, 32⟩
def fSecPartKeyRoll : Fd := ⟨33, 33⟩
def fSecPartLinkSlots : Fd := ⟨63, 48⟩
/-- SEC_VIOLATIONS (14_partitions_and_security.md). -/
def rSecViolations : Reg := ⟨⟨.sec, 0, 0, 0x180⟩, 0x0⟩
def fSecViolationsCount : Fd := ⟨63, 0⟩
/-- MEAS_SEL (14_partitions_and_security.md). -/
def rMeasSel : Reg := ⟨⟨.sec, 0, 0, 0x200⟩, 0x1⟩
def fMeasSelIndex : Fd := ⟨3, 0⟩
/-- MEAS_DATA (14_partitions_and_security.md). -/
def rMeasData (i : Nat) : Reg := ⟨⟨.sec, 0, 0, 0x208 + 0x8 * i⟩, 0x0⟩
def fMeasDataDigest : Fd := ⟨63, 0⟩
/-- ERR_RING_BASE (15_reliability_and_event_recorder.md). -/
def rErrRingBase : Reg := ⟨⟨.rel, 0, 0, 0x0⟩, 0x6⟩
def fErrRingBaseLog2 : Fd := ⟨4, 0⟩
def fErrRingBaseBase : Fd := ⟨49, 12⟩
/-- ERR_PRING_BASE (15_reliability_and_event_recorder.md). -/
def rErrPringBase (i : Nat) : Reg := ⟨⟨.rel, 0, 0, 0x200 + 0x20 * i⟩, 0x6⟩
def fErrPringBaseLog2 : Fd := ⟨4, 0⟩
def fErrPringBaseBase : Fd := ⟨49, 12⟩
/-- ERR_RING_PTR (15_reliability_and_event_recorder.md). -/
def rErrRingPtr : Reg := ⟨⟨.rel, 0, 0, 0x8⟩, 0x0⟩
def fErrRingPtrProducer : Fd := ⟨31, 0⟩
def fErrRingPtrConsumer : Fd := ⟨63, 32⟩
/-- ERR_PRING_PTR (15_reliability_and_event_recorder.md). -/
def rErrPringPtr (i : Nat) : Reg := ⟨⟨.rel, 0, 0, 0x208 + 0x20 * i⟩, 0x0⟩
def fErrPringPtrProducer : Fd := ⟨31, 0⟩
def fErrPringPtrConsumer : Fd := ⟨63, 32⟩
/-- ERR_RING_MSI_ADDR (15_reliability_and_event_recorder.md). -/
def rErrRingMsiAddr : Reg := ⟨⟨.rel, 0, 0, 0x10⟩, 0x0⟩
def fErrRingMsiAddrAddr : Fd := ⟨63, 0⟩
/-- ERR_PRING_MSI_ADDR (15_reliability_and_event_recorder.md). -/
def rErrPringMsiAddr (i : Nat) : Reg := ⟨⟨.rel, 0, 0, 0x210 + 0x20 * i⟩, 0x0⟩
def fErrPringMsiAddrAddr : Fd := ⟨63, 0⟩
/-- ERR_RING_MSI_DATA (15_reliability_and_event_recorder.md). -/
def rErrRingMsiData : Reg := ⟨⟨.rel, 0, 0, 0x18⟩, 0x0⟩
def fErrRingMsiDataData : Fd := ⟨31, 0⟩
/-- ERR_PRING_MSI_DATA (15_reliability_and_event_recorder.md). -/
def rErrPringMsiData (i : Nat) : Reg := ⟨⟨.rel, 0, 0, 0x218 + 0x20 * i⟩, 0x0⟩
def fErrPringMsiDataData : Fd := ⟨31, 0⟩
/-- ERR_STATUS (15_reliability_and_event_recorder.md). -/
def rErrStatus : Reg := ⟨⟨.rel, 0, 0, 0x100⟩, 0x0⟩
def fErrStatusOverflow : Fd := ⟨31, 0⟩
def fErrStatusService : Fd := ⟨32, 32⟩
/-- ERR_LAST (15_reliability_and_event_recorder.md). -/
def rErrLast (i : Nat) : Reg := ⟨⟨.rel, 0, 0, 0x108 + 0x8 * i⟩, 0x0⟩
def fErrLastData : Fd := ⟨63, 0⟩
/-- SCRUB_STATUS (15_reliability_and_event_recorder.md). -/
def rScrubStatus : Reg := ⟨⟨.rel, 0, 0, 0x128⟩, 0x0⟩
def fScrubStatusPasses : Fd := ⟨31, 0⟩
def fScrubStatusProgress : Fd := ⟨47, 32⟩
/-- EVR_STATUS (15_reliability_and_event_recorder.md). -/
def rEvrStatus : Reg := ⟨⟨.rel, 0, 0, 0x400⟩, 0x0⟩
def fEvrStatusFull : Fd := ⟨0, 0⟩
def fEvrStatusDiscarded : Fd := ⟨63, 32⟩
/-- EVR_CURSOR (15_reliability_and_event_recorder.md). -/
def rEvrCursor : Reg := ⟨⟨.rel, 0, 0, 0x408⟩, 0x0⟩
def fEvrCursorOffset : Fd := ⟨25, 0⟩
/-- EVR_END (15_reliability_and_event_recorder.md). -/
def rEvrEnd : Reg := ⟨⟨.rel, 0, 0, 0x410⟩, 0x0⟩
def fEvrEndOffset : Fd := ⟨26, 0⟩
/-- EVR_WINDOW (15_reliability_and_event_recorder.md). -/
def rEvrWindow (i : Nat) : Reg := ⟨⟨.rel, 0, 0, 0x1000 + 0x8 * i⟩, 0x0⟩
def fEvrWindowData : Fd := ⟨63, 0⟩
/-- ENG_PWR (16_power_clocks_and_startup.md). -/
def rEngPwr (e : Nat) : Reg := ⟨⟨.engP, e, 0, 0x5000⟩, 0x0⟩
def fEngPwrState : Fd := ⟨2, 0⟩
def fEngPwrDeepest : Fd := ⟨6, 4⟩
def fEngPwrReq : Fd := ⟨9, 8⟩
/-- ENG_GEN (16_power_clocks_and_startup.md). -/
def rEngGen (e : Nat) : Reg := ⟨⟨.engP, e, 0, 0x5008⟩, 0x0⟩
def fEngGenGen : Fd := ⟨31, 0⟩
def fEngGenGenStale : Fd := ⟨63, 32⟩
/-- ENG_RESET (16_power_clocks_and_startup.md). -/
def rEngReset (e : Nat) : Reg := ⟨⟨.engP, e, 0, 0x5010⟩, 0x0⟩
def fEngResetGo : Fd := ⟨0, 0⟩
def fEngResetForce : Fd := ⟨1, 1⟩
/-- PWR_STATUS (16_power_clocks_and_startup.md). -/
def rPwrStatus : Reg := ⟨⟨.hub, 0, 0, 0x2000⟩, 0x0⟩
def fPwrStatusInputMv : Fd := ⟨15, 0⟩
def fPwrStatusPowerW : Fd := ⟨27, 16⟩
def fPwrStatusDip : Fd := ⟨28, 28⟩
def fPwrStatusPeak : Fd := ⟨29, 29⟩
def fPwrStatusThermal : Fd := ⟨30, 30⟩
def fPwrStatusHoldupReady : Fd := ⟨31, 31⟩
def fPwrStatusArrayMhzMin : Fd := ⟨42, 32⟩
/-- DIE_RESET (16_power_clocks_and_startup.md). -/
def rDieReset : Reg := ⟨⟨.hub, 0, 0, 0x2008⟩, 0x0⟩
def fDieResetDie : Fd := ⟨3, 0⟩
def fDieResetGo : Fd := ⟨4, 4⟩
def fDieResetForce : Fd := ⟨5, 5⟩
/-- CORE_HOLD (16_power_clocks_and_startup.md). -/
def rCoreHold (p i : Nat) : Reg := ⟨⟨.hubWin, p, 0, 0x0 + 0x8 * i⟩, 0xffffffffffffffff⟩
def fCoreHoldHold : Fd := ⟨63, 0⟩
/-- CORE_BOOT (16_power_clocks_and_startup.md). -/
def rCoreBoot (p : Nat) : Reg := ⟨⟨.hubWin, p, 0, 0x10⟩, 0x0⟩
def fCoreBootAddr : Fd := ⟨63, 2⟩
/-- HUB_ID (17_control_registers_and_debug.md). -/
def rHubId : Reg := ⟨⟨.hub, 0, 0, 0x0⟩, 0x1000042⟩
def fHubIdStepping : Fd := ⟨7, 0⟩
def fHubIdDictVersion : Fd := ⟨31, 16⟩
/-- MODULE_TIME (17_control_registers_and_debug.md). -/
def rModuleTime : Reg := ⟨⟨.hub, 0, 0, 0x8⟩, 0x0⟩
def fModuleTimeNs : Fd := ⟨63, 0⟩
/-- MMIO_WIDTH_ERR (17_control_registers_and_debug.md). -/
def rMmioWidthErr : Reg := ⟨⟨.hub, 0, 0, 0x10⟩, 0x0⟩
def fMmioWidthErrCount : Fd := ⟨31, 0⟩
/-- AUQ_MBX (17_control_registers_and_debug.md). -/
def rAuqMbx (p : Nat) : Reg := ⟨⟨.hubWin, p, 0, 0x100⟩, 0x8⟩
def fAuqMbxEnable : Fd := ⟨0, 0⟩
def fAuqMbxLog2 : Fd := ⟨4, 1⟩
def fAuqMbxBase : Fd := ⟨49, 12⟩

/-- Registers of block engP. -/
def regs_engP0 : List RegDesc :=
  [⟨.engP, 0x0, 1, 0x8, [⟨⟨4, 0⟩, .ro⟩, ⟨⟨7, 5⟩, .ro⟩, ⟨⟨10, 8⟩, .ro⟩, ⟨⟨23, 16⟩, .ro⟩, ⟨⟨27, 24⟩, .ro⟩, ⟨⟨31, 28⟩, .ro⟩]⟩,
   ⟨.engP, 0x8, 1, 0x8, [⟨⟨7, 0⟩, .ro⟩, ⟨⟨15, 8⟩, .ro⟩]⟩,
   ⟨.engP, 0x10, 1, 0x8, [⟨⟨31, 0⟩, .rc⟩]⟩,
   ⟨.engP, 0x18, 1, 0x8, [⟨⟨31, 0⟩, .rc⟩]⟩,
   ⟨.engP, 0x20, 1, 0x8, [⟨⟨31, 0⟩, .rc⟩]⟩,
   ⟨.engP, 0x28, 1, 0x8, [⟨⟨31, 0⟩, .rc⟩]⟩,
   ⟨.engP, 0x30, 1, 0x8, [⟨⟨63, 0⟩, .rc⟩]⟩,
   ⟨.engP, 0x38, 1, 0x8, [⟨⟨63, 0⟩, .rc⟩]⟩,
   ⟨.engP, 0x40, 1, 0x8, [⟨⟨31, 0⟩, .rc⟩]⟩,
   ⟨.engP, 0x48, 1, 0x8, [⟨⟨3, 0⟩, .wo⟩, ⟨⟨8, 8⟩, .wo⟩]⟩,
   ⟨.engP, 0x100, 13, 0x8, [⟨⟨1, 0⟩, .ro⟩, ⟨⟨3, 2⟩, .ro⟩, ⟨⟨7, 4⟩, .ro⟩, ⟨⟨31, 16⟩, .ro⟩]⟩,
   ⟨.engP, 0x400, 1, 0x8, [⟨⟨7, 0⟩, .rw⟩, ⟨⟨8, 8⟩, .wo⟩, ⟨⟨9, 9⟩, .wo⟩]⟩,
   ⟨.engP, 0x408, 4, 0x8, [⟨⟨63, 0⟩, .ro⟩]⟩,
   ⟨.engP, 0x428, 1, 0x8, [⟨⟨15, 0⟩, .rw⟩, ⟨⟨23, 16⟩, .ro⟩, ⟨⟨24, 24⟩, .ro⟩]⟩,
   ⟨.engP, 0x430, 1, 0x8, [⟨⟨0, 0⟩, .wo⟩]⟩,
   ⟨.engP, 0x1000, 4, 0x8, [⟨⟨2, 0⟩, .ro⟩, ⟨⟨7, 4⟩, .ro⟩]⟩,
   ⟨.engP, 0x1020, 4, 0x8, [⟨⟨3, 0⟩, .rw⟩]⟩,
   ⟨.engP, 0x1040, 1, 0x8, [⟨⟨15, 0⟩, .rw⟩]⟩,
   ⟨.engP, 0x1048, 1, 0x8, [⟨⟨63, 0⟩, .rc⟩]⟩,
   ⟨.engP, 0x1050, 1, 0x8, [⟨⟨63, 0⟩, .rc⟩]⟩,
   ⟨.engP, 0x1058, 1, 0x8, [⟨⟨31, 0⟩, .rc⟩]⟩,
   ⟨.engP, 0x1060, 1, 0x8, [⟨⟨31, 0⟩, .rc⟩]⟩,
   ⟨.engP, 0x1100, 16, 0x8, [⟨⟨3, 0⟩, .rw⟩, ⟨⟨4, 4⟩, .rw⟩, ⟨⟨7, 5⟩, .ro⟩, ⟨⟨9, 8⟩, .ro⟩]⟩,
   ⟨.engP, 0x2000, 16, 0x8, [⟨⟨15, 0⟩, .rw⟩, ⟨⟨19, 16⟩, .rw⟩, ⟨⟨20, 20⟩, .rw⟩, ⟨⟨47, 32⟩, .ro⟩]⟩]

/-- Registers of block engP. -/
def regs_engP1 : List RegDesc :=
  [⟨.engP, 0x2100, 1, 0x8, [⟨⟨0, 0⟩, .wo⟩, ⟨⟨1, 1⟩, .rw⟩, ⟨⟨2, 2⟩, .ro⟩, ⟨⟨15, 8⟩, .ro⟩]⟩,
   ⟨.engP, 0x2200, 256, 0x8, [⟨⟨9, 0⟩, .rw⟩, ⟨⟨12, 10⟩, .rw⟩, ⟨⟨17, 14⟩, .rw⟩, ⟨⟨18, 18⟩, .rw⟩, ⟨⟨19, 19⟩, .rw⟩, ⟨⟨39, 24⟩, .rw⟩]⟩,
   ⟨.engP, 0x3000, 256, 0x8, [⟨⟨1, 0⟩, .ro⟩, ⟨⟨3, 2⟩, .ro⟩, ⟨⟨4, 4⟩, .ro⟩, ⟨⟨31, 16⟩, .ro⟩, ⟨⟨40, 32⟩, .ro⟩]⟩,
   ⟨.engP, 0x3800, 4, 0x8, [⟨⟨8, 0⟩, .ro⟩, ⟨⟨9, 9⟩, .ro⟩, ⟨⟨13, 10⟩, .ro⟩]⟩,
   ⟨.engP, 0x3820, 4, 0x8, [⟨⟨63, 0⟩, .rc⟩]⟩,
   ⟨.engP, 0x4000, 1, 0x8, [⟨⟨8, 0⟩, .ro⟩, ⟨⟨20, 16⟩, .ro⟩]⟩,
   ⟨.engP, 0x4008, 1, 0x8, [⟨⟨63, 0⟩, .rc⟩]⟩,
   ⟨.engP, 0x4010, 1, 0x8, [⟨⟨63, 0⟩, .rc⟩]⟩,
   ⟨.engP, 0x4018, 1, 0x8, [⟨⟨31, 0⟩, .rc⟩]⟩,
   ⟨.engP, 0x4100, 16, 0x20, [⟨⟨4, 0⟩, .rw⟩, ⟨⟨49, 12⟩, .rw⟩]⟩,
   ⟨.engP, 0x4108, 16, 0x20, [⟨⟨31, 0⟩, .ro⟩, ⟨⟨63, 32⟩, .rw⟩]⟩,
   ⟨.engP, 0x4110, 16, 0x20, [⟨⟨63, 0⟩, .rw⟩]⟩,
   ⟨.engP, 0x4118, 16, 0x20, [⟨⟨31, 0⟩, .rw⟩]⟩,
   ⟨.engP, 0x4300, 16, 0x8, [⟨⟨15, 0⟩, .rc⟩, ⟨⟨16, 16⟩, .ro⟩, ⟨⟨31, 24⟩, .ro⟩]⟩,
   ⟨.engP, 0x4400, 1, 0x8, [⟨⟨47, 0⟩, .wo⟩, ⟨⟨51, 48⟩, .wo⟩, ⟨⟨53, 52⟩, .wo⟩]⟩,
   ⟨.engP, 0x5000, 1, 0x8, [⟨⟨2, 0⟩, .ro⟩, ⟨⟨6, 4⟩, .ro⟩, ⟨⟨9, 8⟩, .rw⟩]⟩,
   ⟨.engP, 0x5008, 1, 0x8, [⟨⟨31, 0⟩, .ro⟩, ⟨⟨63, 32⟩, .rc⟩]⟩,
   ⟨.engP, 0x5010, 1, 0x8, [⟨⟨0, 0⟩, .wo⟩, ⟨⟨1, 1⟩, .wo⟩]⟩]

/-- Registers of block engC. -/
def regs_engC0 : List RegDesc :=
  [⟨.engC, 0x800, 1, 0x8, [⟨⟨7, 0⟩, .rw⟩, ⟨⟨8, 8⟩, .wo⟩, ⟨⟨9, 9⟩, .wo⟩]⟩,
   ⟨.engC, 0x808, 4, 0x8, [⟨⟨63, 0⟩, .ro⟩]⟩,
   ⟨.engC, 0x828, 1, 0x8, [⟨⟨15, 0⟩, .rw⟩, ⟨⟨23, 16⟩, .ro⟩, ⟨⟨24, 24⟩, .ro⟩]⟩,
   ⟨.engC, 0x830, 1, 0x8, [⟨⟨31, 0⟩, .ro⟩, ⟨⟨47, 32⟩, .ro⟩, ⟨⟨63, 48⟩, .ro⟩]⟩,
   ⟨.engC, 0x838, 1, 0x8, [⟨⟨15, 0⟩, .ro⟩]⟩,
   ⟨.engC, 0x400, 16, 0x8, [⟨⟨2, 0⟩, .ro⟩, ⟨⟨3, 3⟩, .ro⟩, ⟨⟨63, 32⟩, .ro⟩]⟩,
   ⟨.engC, 0x480, 16, 0x8, [⟨⟨5, 0⟩, .ro⟩, ⟨⟨62, 6⟩, .ro⟩, ⟨⟨63, 63⟩, .ro⟩]⟩,
   ⟨.engC, 0x0, 4, 0x80, [⟨⟨63, 12⟩, .rw⟩]⟩,
   ⟨.engC, 0x8, 4, 0x80, [⟨⟨63, 12⟩, .rw⟩]⟩,
   ⟨.engC, 0x10, 4, 0x80, [⟨⟨4, 0⟩, .rw⟩, ⟨⟨12, 8⟩, .rw⟩, ⟨⟨16, 16⟩, .rw⟩, ⟨⟨17, 17⟩, .wo⟩]⟩,
   ⟨.engC, 0x18, 4, 0x80, [⟨⟨31, 0⟩, .rw⟩]⟩,
   ⟨.engC, 0x20, 4, 0x80, [⟨⟨31, 0⟩, .ro⟩, ⟨⟨63, 32⟩, .ro⟩]⟩,
   ⟨.engC, 0x28, 4, 0x80, [⟨⟨31, 0⟩, .ro⟩, ⟨⟨63, 32⟩, .rw⟩]⟩,
   ⟨.engC, 0x30, 4, 0x80, [⟨⟨2, 0⟩, .ro⟩, ⟨⟨8, 8⟩, .w1c⟩, ⟨⟨9, 9⟩, .w1c⟩, ⟨⟨10, 10⟩, .ro⟩, ⟨⟨23, 16⟩, .ro⟩]⟩,
   ⟨.engC, 0x38, 4, 0x80, [⟨⟨0, 0⟩, .rc⟩, ⟨⟨31, 16⟩, .ro⟩, ⟨⟨47, 32⟩, .ro⟩]⟩,
   ⟨.engC, 0x40, 4, 0x80, [⟨⟨63, 0⟩, .rw⟩]⟩,
   ⟨.engC, 0x48, 4, 0x80, [⟨⟨31, 0⟩, .rw⟩]⟩,
   ⟨.engC, 0x200, 1, 0x8, [⟨⟨7, 0⟩, .wo⟩, ⟨⟨10, 8⟩, .wo⟩, ⟨⟨31, 16⟩, .wo⟩]⟩,
   ⟨.engC, 0x208, 1, 0x8, [⟨⟨3, 0⟩, .wo⟩, ⟨⟨4, 4⟩, .wo⟩]⟩,
   ⟨.engC, 0x210, 1, 0x8, [⟨⟨31, 0⟩, .rc⟩]⟩]

/-- Registers of block carder. -/
def regs_carder0 : List RegDesc :=
  [⟨.carder, 0x0, 4, 0x100, [⟨⟨1, 0⟩, .ro⟩, ⟨⟨5, 2⟩, .ro⟩]⟩,
   ⟨.carder, 0x8, 4, 0x100, [⟨⟨63, 0⟩, .rc⟩]⟩,
   ⟨.carder, 0x10, 4, 0x100, [⟨⟨63, 0⟩, .rc⟩]⟩,
   ⟨.carder, 0x18, 4, 0x100, [⟨⟨31, 0⟩, .rc⟩]⟩,
   ⟨.carder, 0x20, 4, 0x100, [⟨⟨63, 0⟩, .rc⟩]⟩,
   ⟨.carder, 0x28, 4, 0x100, [⟨⟨63, 0⟩, .rc⟩]⟩,
   ⟨.carder, 0x30, 4, 0x100, [⟨⟨31, 0⟩, .rc⟩]⟩,
   ⟨.carder, 0x38, 4, 0x100, [⟨⟨63, 0⟩, .rc⟩]⟩]

/-- Registers of block carderWin. -/
def regs_carderWin0 : List RegDesc :=
  [⟨.carderWin, 0x8, 1, 0x8, [⟨⟨63, 0⟩, .ro⟩]⟩,
   ⟨.carderWin, 0x18, 1, 0x8, [⟨⟨31, 0⟩, .ro⟩]⟩]

/-- Registers of block rh. -/
def regs_rh0 : List RegDesc :=
  [⟨.rh, 0x10000, 1, 0x8, [⟨⟨0, 0⟩, .rw⟩, ⟨⟨1, 1⟩, .rw⟩, ⟨⟨5, 2⟩, .rw⟩, ⟨⟨15, 8⟩, .rw⟩, ⟨⟨20, 16⟩, .rw⟩]⟩,
   ⟨.rh, 0x10008, 1, 0x8, [⟨⟨1, 0⟩, .wo⟩, ⟨⟨23, 4⟩, .wo⟩, ⟨⟨47, 32⟩, .wo⟩]⟩,
   ⟨.rh, 0x10010, 1, 0x8, [⟨⟨6, 0⟩, .ro⟩, ⟨⟨12, 8⟩, .ro⟩, ⟨⟨16, 16⟩, .w1c⟩]⟩,
   ⟨.rh, 0x10018, 1, 0x8, [⟨⟨4, 0⟩, .rw⟩, ⟨⟨49, 12⟩, .rw⟩]⟩,
   ⟨.rh, 0x10020, 1, 0x8, [⟨⟨31, 0⟩, .ro⟩, ⟨⟨63, 32⟩, .rw⟩]⟩,
   ⟨.rh, 0x10100, 1, 0x8, [⟨⟨0, 0⟩, .wo⟩, ⟨⟨1, 1⟩, .rw⟩, ⟨⟨2, 2⟩, .ro⟩, ⟨⟨15, 8⟩, .ro⟩]⟩,
   ⟨.rh, 0x10028, 1, 0x8, [⟨⟨63, 0⟩, .rc⟩]⟩,
   ⟨.rh, 0x10030, 1, 0x8, [⟨⟨63, 0⟩, .rc⟩]⟩,
   ⟨.rh, 0x10038, 1, 0x8, [⟨⟨63, 0⟩, .rc⟩]⟩,
   ⟨.rh, 0x10040, 1, 0x8, [⟨⟨63, 0⟩, .rc⟩]⟩,
   ⟨.rh, 0x10048, 1, 0x8, [⟨⟨63, 0⟩, .rc⟩]⟩,
   ⟨.rh, 0x10050, 1, 0x8, [⟨⟨63, 0⟩, .rc⟩]⟩,
   ⟨.rh, 0x10058, 1, 0x8, [⟨⟨63, 0⟩, .rc⟩]⟩,
   ⟨.rh, 0x10060, 1, 0x8, [⟨⟨63, 0⟩, .rc⟩]⟩,
   ⟨.rh, 0x10080, 1, 0x8, [⟨⟨19, 0⟩, .rw⟩]⟩,
   ⟨.rh, 0x10088, 1, 0x8, [⟨⟨1, 0⟩, .ro⟩, ⟨⟨9, 2⟩, .ro⟩, ⟨⟨17, 10⟩, .ro⟩, ⟨⟨35, 18⟩, .ro⟩, ⟨⟨51, 36⟩, .ro⟩, ⟨⟨55, 52⟩, .ro⟩, ⟨⟨56, 56⟩, .ro⟩]⟩,
   ⟨.rh, 0x11000, 256, 0x8, [⟨⟨15, 0⟩, .rw⟩, ⟨⟨19, 16⟩, .rw⟩, ⟨⟨20, 20⟩, .rw⟩, ⟨⟨41, 24⟩, .rw⟩, ⟨⟨59, 42⟩, .rw⟩]⟩,
   ⟨.rh, 0x11800, 256, 0x8, [⟨⟨17, 0⟩, .ro⟩]⟩,
   ⟨.rh, 0x10800, 16, 0x8, [⟨⟨17, 0⟩, .ro⟩]⟩,
   ⟨.rh, 0x12000, 32, 0x40, [⟨⟨63, 0⟩, .rc⟩]⟩,
   ⟨.rh, 0x12008, 32, 0x40, [⟨⟨63, 0⟩, .rc⟩]⟩,
   ⟨.rh, 0x12010, 32, 0x40, [⟨⟨63, 0⟩, .rc⟩]⟩,
   ⟨.rh, 0x12018, 32, 0x40, [⟨⟨63, 0⟩, .rc⟩]⟩,
   ⟨.rh, 0x12020, 32, 0x40, [⟨⟨63, 0⟩, .rc⟩]⟩]

/-- Registers of block rh. -/
def regs_rh1 : List RegDesc :=
  [⟨.rh, 0x12028, 32, 0x40, [⟨⟨63, 0⟩, .rc⟩]⟩,
   ⟨.rh, 0x12030, 32, 0x40, [⟨⟨63, 0⟩, .rc⟩]⟩,
   ⟨.rh, 0x0, 1, 0x8, [⟨⟨49, 20⟩, .rw⟩, ⟨⟨50, 50⟩, .rw⟩]⟩,
   ⟨.rh, 0x8, 1, 0x8, [⟨⟨15, 0⟩, .wo⟩, ⟨⟨16, 16⟩, .wo⟩, ⟨⟨17, 17⟩, .wo⟩, ⟨⟨18, 18⟩, .wo⟩]⟩,
   ⟨.rh, 0x10, 1, 0x8, [⟨⟨4, 0⟩, .ro⟩, ⟨⟨8, 8⟩, .w1c⟩, ⟨⟨63, 32⟩, .ro⟩]⟩,
   ⟨.rh, 0x18, 1, 0x8, [⟨⟨4, 0⟩, .rw⟩, ⟨⟨49, 12⟩, .rw⟩]⟩,
   ⟨.rh, 0x20, 1, 0x8, [⟨⟨31, 0⟩, .ro⟩, ⟨⟨63, 32⟩, .rw⟩]⟩,
   ⟨.rh, 0x28, 1, 0x8, [⟨⟨63, 0⟩, .rw⟩]⟩,
   ⟨.rh, 0x30, 1, 0x8, [⟨⟨31, 0⟩, .rw⟩]⟩,
   ⟨.rh, 0x40, 4, 0x8, [⟨⟨63, 0⟩, .wo⟩]⟩,
   ⟨.rh, 0x60, 1, 0x8, [⟨⟨31, 0⟩, .wo⟩, ⟨⟨33, 32⟩, .wo⟩]⟩,
   ⟨.rh, 0x80, 1, 0x8, [⟨⟨63, 0⟩, .rc⟩]⟩,
   ⟨.rh, 0x88, 1, 0x8, [⟨⟨63, 0⟩, .rc⟩]⟩,
   ⟨.rh, 0x1000, 16, 0x20, [⟨⟨4, 0⟩, .rw⟩, ⟨⟨49, 12⟩, .rw⟩]⟩,
   ⟨.rh, 0x1008, 16, 0x20, [⟨⟨31, 0⟩, .ro⟩, ⟨⟨63, 32⟩, .rw⟩]⟩,
   ⟨.rh, 0x1010, 16, 0x20, [⟨⟨63, 0⟩, .rw⟩]⟩,
   ⟨.rh, 0x1018, 16, 0x20, [⟨⟨31, 0⟩, .rw⟩]⟩]

/-- Registers of block stk. -/
def regs_stk0 : List RegDesc :=
  [⟨.stk, 0x80000, 1, 0x8, [⟨⟨6, 0⟩, .ro⟩, ⟨⟨11, 8⟩, .rw⟩, ⟨⟨15, 12⟩, .rw⟩]⟩,
   ⟨.stk, 0x80008, 1, 0x8, [⟨⟨1, 0⟩, .wo⟩, ⟨⟨10, 4⟩, .wo⟩, ⟨⟨15, 12⟩, .wo⟩, ⟨⟨29, 16⟩, .wo⟩]⟩,
   ⟨.stk, 0x80010, 1, 0x8, [⟨⟨1, 0⟩, .ro⟩, ⟨⟨7, 4⟩, .ro⟩]⟩,
   ⟨.stk, 0x80018, 1, 0x8, [⟨⟨63, 0⟩, .rc⟩]⟩,
   ⟨.stk, 0x80020, 1, 0x8, [⟨⟨63, 0⟩, .rc⟩]⟩,
   ⟨.stk, 0x80028, 1, 0x8, [⟨⟨63, 0⟩, .rc⟩]⟩]

/-- Registers of block flash. -/
def regs_flash0 : List RegDesc :=
  [⟨.flash, 0x80000, 1, 0x8, [⟨⟨49, 14⟩, .rw⟩]⟩,
   ⟨.flash, 0x80008, 1, 0x8, [⟨⟨1, 0⟩, .wo⟩, ⟨⟨5, 2⟩, .wo⟩, ⟨⟨31, 8⟩, .wo⟩, ⟨⟨63, 32⟩, .wo⟩]⟩,
   ⟨.flash, 0x80010, 1, 0x8, [⟨⟨6, 0⟩, .ro⟩, ⟨⟨8, 8⟩, .w1c⟩, ⟨⟨63, 32⟩, .ro⟩]⟩]

/-- Registers of block dir. -/
def regs_dir0 : List RegDesc :=
  [⟨.dir, 0x0, 1, 0x8, [⟨⟨15, 0⟩, .wo⟩, ⟨⟨16, 16⟩, .wo⟩, ⟨⟨17, 17⟩, .wo⟩, ⟨⟨18, 18⟩, .wo⟩]⟩,
   ⟨.dir, 0x8, 1, 0x8, [⟨⟨49, 16⟩, .rw⟩]⟩,
   ⟨.dir, 0x10, 1, 0x8, [⟨⟨48, 16⟩, .rw⟩]⟩,
   ⟨.dir, 0x18, 1, 0x8, [⟨⟨2, 0⟩, .ro⟩, ⟨⟨8, 8⟩, .w1c⟩, ⟨⟨63, 32⟩, .ro⟩]⟩,
   ⟨.dir, 0x20, 1, 0x8, [⟨⟨63, 0⟩, .rw⟩]⟩,
   ⟨.dir, 0x28, 1, 0x8, [⟨⟨31, 0⟩, .rw⟩]⟩,
   ⟨.dir, 0x40, 1, 0x8, [⟨⟨63, 0⟩, .rc⟩]⟩,
   ⟨.dir, 0x48, 1, 0x8, [⟨⟨63, 0⟩, .rc⟩]⟩,
   ⟨.dir, 0x50, 1, 0x8, [⟨⟨63, 0⟩, .rc⟩]⟩,
   ⟨.dir, 0x58, 1, 0x8, [⟨⟨63, 0⟩, .rc⟩]⟩,
   ⟨.dir, 0x60, 1, 0x8, [⟨⟨63, 0⟩, .rc⟩]⟩,
   ⟨.dir, 0x68, 1, 0x8, [⟨⟨63, 0⟩, .rc⟩]⟩,
   ⟨.dir, 0x80, 1, 0x8, [⟨⟨49, 6⟩, .rw⟩]⟩,
   ⟨.dir, 0x88, 1, 0x8, [⟨⟨1, 0⟩, .ro⟩]⟩,
   ⟨.dir, 0x90, 5, 0x8, [⟨⟨63, 0⟩, .ro⟩]⟩]

/-- Registers of block job. -/
def regs_job0 : List RegDesc :=
  [⟨.job, 0x0, 1, 0x8, [⟨⟨47, 0⟩, .ro⟩]⟩,
   ⟨.job, 0x8, 1, 0x8, [⟨⟨47, 0⟩, .wo⟩, ⟨⟨50, 48⟩, .wo⟩]⟩,
   ⟨.job, 0x10, 1, 0x8, [⟨⟨2, 0⟩, .ro⟩, ⟨⟨3, 3⟩, .w1c⟩, ⟨⟨10, 8⟩, .ro⟩, ⟨⟨63, 16⟩, .ro⟩]⟩,
   ⟨.job, 0x18, 1, 0x8, [⟨⟨10, 0⟩, .ro⟩, ⟨⟨63, 32⟩, .ro⟩]⟩,
   ⟨.job, 0xa0, 1, 0x8, [⟨⟨0, 0⟩, .wo⟩, ⟨⟨1, 1⟩, .rw⟩, ⟨⟨2, 2⟩, .ro⟩]⟩,
   ⟨.job, 0x20, 1, 0x8, [⟨⟨31, 0⟩, .ro⟩]⟩,
   ⟨.job, 0x28, 1, 0x8, [⟨⟨15, 0⟩, .rw⟩, ⟨⟨31, 16⟩, .rw⟩, ⟨⟨46, 32⟩, .rw⟩, ⟨⟨47, 47⟩, .rw⟩, ⟨⟨59, 48⟩, .rw⟩]⟩,
   ⟨.job, 0x30, 1, 0x8, [⟨⟨49, 6⟩, .rw⟩]⟩,
   ⟨.job, 0x38, 1, 0x8, [⟨⟨49, 6⟩, .rw⟩]⟩,
   ⟨.job, 0x40, 1, 0x8, [⟨⟨16, 0⟩, .rw⟩]⟩,
   ⟨.job, 0x48, 1, 0x8, [⟨⟨49, 12⟩, .rw⟩]⟩,
   ⟨.job, 0x50, 1, 0x8, [⟨⟨49, 12⟩, .rw⟩]⟩,
   ⟨.job, 0x58, 1, 0x8, [⟨⟨49, 12⟩, .rw⟩, ⟨⟨11, 0⟩, .rw⟩]⟩,
   ⟨.job, 0x80, 1, 0x8, [⟨⟨31, 0⟩, .rw⟩]⟩,
   ⟨.job, 0x88, 1, 0x8, [⟨⟨31, 0⟩, .rw⟩, ⟨⟨63, 32⟩, .rw⟩]⟩,
   ⟨.job, 0x90, 1, 0x8, [⟨⟨31, 0⟩, .rw⟩, ⟨⟨63, 32⟩, .rw⟩]⟩,
   ⟨.job, 0x98, 1, 0x8, [⟨⟨31, 0⟩, .rw⟩, ⟨⟨33, 32⟩, .rw⟩]⟩,
   ⟨.job, 0xc0, 1, 0x8, [⟨⟨0, 0⟩, .w1s⟩, ⟨⟨2, 1⟩, .wo⟩, ⟨⟨3, 3⟩, .wo⟩]⟩,
   ⟨.job, 0xc8, 1, 0x8, [⟨⟨1, 0⟩, .ro⟩, ⟨⟨2, 2⟩, .ro⟩, ⟨⟨3, 3⟩, .w1c⟩, ⟨⟨63, 16⟩, .ro⟩]⟩,
   ⟨.job, 0xd0, 1, 0x8, [⟨⟨31, 0⟩, .rw⟩, ⟨⟨63, 32⟩, .rw⟩]⟩,
   ⟨.job, 0xd8, 1, 0x8, [⟨⟨31, 0⟩, .rw⟩, ⟨⟨63, 32⟩, .rw⟩]⟩,
   ⟨.job, 0xe0, 4, 0x8, [⟨⟨63, 0⟩, .ro⟩]⟩,
   ⟨.job, 0x100, 1, 0x8, [⟨⟨63, 0⟩, .rc⟩]⟩,
   ⟨.job, 0x108, 1, 0x8, [⟨⟨63, 0⟩, .rc⟩]⟩]

/-- Registers of block job. -/
def regs_job1 : List RegDesc :=
  [⟨.job, 0x110, 1, 0x8, [⟨⟨63, 0⟩, .rc⟩]⟩,
   ⟨.job, 0x118, 1, 0x8, [⟨⟨63, 0⟩, .rc⟩]⟩,
   ⟨.job, 0x120, 1, 0x8, [⟨⟨63, 0⟩, .rc⟩]⟩,
   ⟨.job, 0x128, 1, 0x8, [⟨⟨63, 0⟩, .rc⟩]⟩,
   ⟨.job, 0x130, 1, 0x8, [⟨⟨63, 0⟩, .rc⟩]⟩,
   ⟨.job, 0x138, 1, 0x8, [⟨⟨63, 0⟩, .rc⟩]⟩,
   ⟨.job, 0x140, 1, 0x8, [⟨⟨63, 0⟩, .rc⟩]⟩,
   ⟨.job, 0x148, 1, 0x8, [⟨⟨63, 0⟩, .rc⟩]⟩]

/-- Registers of block fab. -/
def regs_fab0 : List RegDesc :=
  [⟨.fab, 0x0, 1, 0x8, [⟨⟨15, 0⟩, .ro⟩, ⟨⟨16, 16⟩, .ro⟩, ⟨⟨18, 17⟩, .ro⟩, ⟨⟨19, 19⟩, .ro⟩]⟩,
   ⟨.fab, 0x100, 16, 0x8, [⟨⟨1, 0⟩, .ro⟩, ⟨⟨3, 2⟩, .ro⟩, ⟨⟨4, 4⟩, .ro⟩, ⟨⟨31, 16⟩, .ro⟩, ⟨⟨42, 32⟩, .ro⟩]⟩,
   ⟨.fab, 0x200, 16, 0x20, [⟨⟨63, 0⟩, .rc⟩]⟩,
   ⟨.fab, 0x208, 16, 0x20, [⟨⟨63, 0⟩, .rc⟩]⟩,
   ⟨.fab, 0x210, 16, 0x20, [⟨⟨63, 0⟩, .rc⟩]⟩,
   ⟨.fab, 0x218, 16, 0x20, [⟨⟨63, 0⟩, .rc⟩]⟩,
   ⟨.fab, 0x400, 1, 0x8, [⟨⟨49, 12⟩, .rw⟩]⟩,
   ⟨.fab, 0x408, 1, 0x8, [⟨⟨15, 0⟩, .wo⟩, ⟨⟨17, 16⟩, .wo⟩]⟩,
   ⟨.fab, 0x410, 1, 0x8, [⟨⟨0, 0⟩, .ro⟩, ⟨⟨1, 1⟩, .w1c⟩, ⟨⟨63, 32⟩, .ro⟩]⟩,
   ⟨.fab, 0x420, 1, 0x8, [⟨⟨15, 0⟩, .rw⟩]⟩,
   ⟨.fab, 0x428, 1, 0x8, [⟨⟨1, 0⟩, .ro⟩, ⟨⟨31, 16⟩, .ro⟩]⟩,
   ⟨.fab, 0x500, 1, 0x8, [⟨⟨63, 0⟩, .rc⟩]⟩,
   ⟨.fab, 0x508, 1, 0x8, [⟨⟨63, 0⟩, .rc⟩]⟩,
   ⟨.fab, 0x510, 1, 0x8, [⟨⟨63, 0⟩, .rc⟩]⟩,
   ⟨.fab, 0x518, 1, 0x8, [⟨⟨63, 0⟩, .rc⟩]⟩,
   ⟨.fab, 0x520, 1, 0x8, [⟨⟨63, 0⟩, .rc⟩]⟩,
   ⟨.fab, 0x528, 1, 0x8, [⟨⟨63, 0⟩, .rc⟩]⟩,
   ⟨.fab, 0x530, 1, 0x8, [⟨⟨63, 0⟩, .rc⟩]⟩]

/-- Registers of block coll. -/
def regs_coll0 : List RegDesc :=
  [⟨.coll, 0x0, 1, 0x8, [⟨⟨49, 6⟩, .rw⟩]⟩,
   ⟨.coll, 0x8, 1, 0x8, [⟨⟨49, 6⟩, .rw⟩]⟩,
   ⟨.coll, 0x40, 1, 0x8, [⟨⟨63, 0⟩, .rc⟩]⟩,
   ⟨.coll, 0x48, 1, 0x8, [⟨⟨63, 0⟩, .rc⟩]⟩,
   ⟨.coll, 0x50, 1, 0x8, [⟨⟨63, 0⟩, .rc⟩]⟩,
   ⟨.coll, 0x58, 1, 0x8, [⟨⟨63, 0⟩, .rc⟩]⟩]

/-- Registers of block plalia. -/
def regs_plalia0 : List RegDesc :=
  [⟨.plalia, 0x0, 19, 0x40, [⟨⟨1, 0⟩, .ro⟩, ⟨⟨3, 2⟩, .ro⟩, ⟨⟨7, 4⟩, .ro⟩, ⟨⟨15, 8⟩, .ro⟩, ⟨⟨20, 16⟩, .ro⟩]⟩,
   ⟨.plalia, 0x8, 19, 0x40, [⟨⟨7, 0⟩, .ro⟩, ⟨⟨15, 8⟩, .ro⟩, ⟨⟨23, 16⟩, .ro⟩, ⟨⟨39, 24⟩, .ro⟩]⟩,
   ⟨.plalia, 0x10, 19, 0x40, [⟨⟨63, 0⟩, .rc⟩]⟩,
   ⟨.plalia, 0x18, 19, 0x40, [⟨⟨31, 0⟩, .rc⟩]⟩,
   ⟨.plalia, 0x20, 19, 0x40, [⟨⟨31, 0⟩, .rc⟩]⟩]

/-- Registers of block sec. -/
def regs_sec0 : List RegDesc :=
  [⟨.sec, 0x0, 1, 0x8, [⟨⟨0, 0⟩, .ro⟩, ⟨⟨1, 1⟩, .ro⟩, ⟨⟨3, 2⟩, .ro⟩, ⟨⟨5, 4⟩, .ro⟩, ⟨⟨9, 6⟩, .ro⟩, ⟨⟨10, 10⟩, .ro⟩, ⟨⟨31, 16⟩, .ro⟩, ⟨⟨47, 32⟩, .ro⟩]⟩,
   ⟨.sec, 0x10, 2, 0x8, [⟨⟨63, 0⟩, .ro⟩]⟩,
   ⟨.sec, 0x20, 8, 0x8, [⟨⟨63, 0⟩, .ro⟩]⟩,
   ⟨.sec, 0x100, 16, 0x8, [⟨⟨31, 0⟩, .ro⟩, ⟨⟨32, 32⟩, .ro⟩, ⟨⟨33, 33⟩, .w1c⟩, ⟨⟨63, 48⟩, .ro⟩]⟩,
   ⟨.sec, 0x180, 1, 0x8, [⟨⟨63, 0⟩, .rc⟩]⟩,
   ⟨.sec, 0x200, 1, 0x8, [⟨⟨3, 0⟩, .rw⟩]⟩,
   ⟨.sec, 0x208, 6, 0x8, [⟨⟨63, 0⟩, .ro⟩]⟩]

/-- Registers of block rel. -/
def regs_rel0 : List RegDesc :=
  [⟨.rel, 0x0, 1, 0x8, [⟨⟨4, 0⟩, .rw⟩, ⟨⟨49, 12⟩, .rw⟩]⟩,
   ⟨.rel, 0x200, 16, 0x20, [⟨⟨4, 0⟩, .rw⟩, ⟨⟨49, 12⟩, .rw⟩]⟩,
   ⟨.rel, 0x8, 1, 0x8, [⟨⟨31, 0⟩, .ro⟩, ⟨⟨63, 32⟩, .rw⟩]⟩,
   ⟨.rel, 0x208, 16, 0x20, [⟨⟨31, 0⟩, .ro⟩, ⟨⟨63, 32⟩, .rw⟩]⟩,
   ⟨.rel, 0x10, 1, 0x8, [⟨⟨63, 0⟩, .rw⟩]⟩,
   ⟨.rel, 0x210, 16, 0x20, [⟨⟨63, 0⟩, .rw⟩]⟩,
   ⟨.rel, 0x18, 1, 0x8, [⟨⟨31, 0⟩, .rw⟩]⟩,
   ⟨.rel, 0x218, 16, 0x20, [⟨⟨31, 0⟩, .rw⟩]⟩,
   ⟨.rel, 0x100, 1, 0x8, [⟨⟨31, 0⟩, .rc⟩, ⟨⟨32, 32⟩, .w1c⟩]⟩,
   ⟨.rel, 0x108, 4, 0x8, [⟨⟨63, 0⟩, .ro⟩]⟩,
   ⟨.rel, 0x128, 1, 0x8, [⟨⟨31, 0⟩, .ro⟩, ⟨⟨47, 32⟩, .ro⟩]⟩,
   ⟨.rel, 0x400, 1, 0x8, [⟨⟨0, 0⟩, .ro⟩, ⟨⟨63, 32⟩, .ro⟩]⟩,
   ⟨.rel, 0x408, 1, 0x8, [⟨⟨25, 0⟩, .rw⟩]⟩,
   ⟨.rel, 0x410, 1, 0x8, [⟨⟨26, 0⟩, .ro⟩]⟩,
   ⟨.rel, 0x1000, 512, 0x8, [⟨⟨63, 0⟩, .ro⟩]⟩]

/-- Registers of block hub. -/
def regs_hub0 : List RegDesc :=
  [⟨.hub, 0x2000, 1, 0x8, [⟨⟨15, 0⟩, .ro⟩, ⟨⟨27, 16⟩, .ro⟩, ⟨⟨28, 28⟩, .ro⟩, ⟨⟨29, 29⟩, .ro⟩, ⟨⟨30, 30⟩, .ro⟩, ⟨⟨31, 31⟩, .ro⟩, ⟨⟨42, 32⟩, .ro⟩]⟩,
   ⟨.hub, 0x2008, 1, 0x8, [⟨⟨3, 0⟩, .wo⟩, ⟨⟨4, 4⟩, .wo⟩, ⟨⟨5, 5⟩, .wo⟩]⟩,
   ⟨.hub, 0x0, 1, 0x8, [⟨⟨7, 0⟩, .ro⟩, ⟨⟨31, 16⟩, .ro⟩]⟩,
   ⟨.hub, 0x8, 1, 0x8, [⟨⟨63, 0⟩, .ro⟩]⟩,
   ⟨.hub, 0x10, 1, 0x8, [⟨⟨31, 0⟩, .rc⟩]⟩]

/-- Registers of block hubWin. -/
def regs_hubWin0 : List RegDesc :=
  [⟨.hubWin, 0x0, 2, 0x8, [⟨⟨63, 0⟩, .rw⟩]⟩,
   ⟨.hubWin, 0x10, 1, 0x8, [⟨⟨63, 2⟩, .rw⟩]⟩,
   ⟨.hubWin, 0x100, 1, 0x8, [⟨⟨0, 0⟩, .rw⟩, ⟨⟨4, 1⟩, .rw⟩, ⟨⟨49, 12⟩, .rw⟩]⟩]

/-- The registers of one block. -/
def blockRegs : Blk → List RegDesc
  | .engP => regs_engP0 ++ regs_engP1
  | .engC => regs_engC0
  | .carder => regs_carder0
  | .carderWin => regs_carderWin0
  | .rh => regs_rh0 ++ regs_rh1
  | .stk => regs_stk0
  | .flash => regs_flash0
  | .dir => regs_dir0
  | .job => regs_job0 ++ regs_job1
  | .fab => regs_fab0
  | .coll => regs_coll0
  | .plalia => regs_plalia0
  | .sec => regs_sec0
  | .rel => regs_rel0
  | .hub => regs_hub0
  | .hubWin => regs_hubWin0

/-- The description of the register at a key, if the manual gives one there. -/
def regDesc (k : RegKey) : Option RegDesc :=
  (blockRegs k.blk).find? (fun d =>
    decide (d.off ≤ k.off) && decide ((k.off - d.off) % d.stride = 0) && decide ((k.off - d.off) / d.stride < d.count))

end Sys2Proof.Machine
end

