-- ==== Sys2Proof/Machine/Ops.lean ====
section
/-! DEFINITION. The named operations over registers, dictionary objects, memory and poison that every meaning uses. -/

namespace Sys2Proof.Machine

open Sys2Proof

/-! ### Registers (R13, R14) -/

/-- The bits of a field. -/
def Fd.width (f : Fd) : Nat := f.hi + 1 - f.lo

/-- The value of a field. -/
def fget (v : Word) (f : Fd) : Nat := (v.extractLsb' f.lo f.width).toNat

/-- The bits a field occupies. -/
def Fd.mask (f : Fd) : Word := BitVec.ofNat 64 (2 ^ f.width - 1) <<< f.lo

/-- The register with a field replaced by the low bits of `x`. -/
def fset (v : Word) (f : Fd) (x : Nat) : Word := (v &&& ~~~f.mask) ||| ((BitVec.ofNat 64 x <<< f.lo) &&& f.mask)

/-- What a register holds. -/
def getR (s : State) (r : Reg) : Word := mapGet s.regs r.key r.reset

/-- A register written whole. -/
def setR (s : State) (r : Reg) (v : Word) : State := { s with regs := mapSet s.regs r.key v }

/-- The value of a register field. -/
def getF (s : State) (r : Reg) (f : Fd) : Nat := fget (getR s r) f

/-- A register field written. -/
def setF (s : State) (r : Reg) (f : Fd) (x : Nat) : State := setR s r (fset (getR s r) f x)

/-- A bit field written with a truth value. -/
def setB (s : State) (r : Reg) (f : Fd) (b : Bool) : State := setF s r f b.toNat

/-- Whether a one-bit field is set. -/
def getB (s : State) (r : Reg) (f : Fd) : Bool := decide (getF s r f = 1)

/-- A counter raised by `n`, staying at its largest value (several counters are said to saturate; the model takes all of
them so: DESIGN CHOICE, log 3). -/
def bump (s : State) (r : Reg) (f : Fd) (n : Nat) : State := setF s r f (min (getF s r f + n) (2 ^ f.width - 1))

/-- A free-running count raised by `n`: it wraps at the field's width. -/
def advance (s : State) (r : Reg) (f : Fd) (n : Nat) : State := setF s r f ((getF s r f + n) % 2 ^ f.width)

/-- The pending copy of a member of an armed group (R448): the active value until the group's member is written. -/
def getPend (s : State) (r : Reg) : Word := mapGet s.pend r.key (getR s r)

/-- A member of an armed group written: its pending copy (R448). -/
def setPend (s : State) (r : Reg) (v : Word) : State := { s with pend := mapSet s.pend r.key v }

/-! ### Dictionary objects (R434 to R437) -/

/-- The default of an object. -/
def objDefault (k : ObjKey) : Bytes :=
  match objDesc k with
  | some d => d.dflt
  | none => []

/-- The stored value of an object. -/
def objBytes (s : State) (k : ObjKey) : Bytes := mapGet s.dict k (objDefault k)

/-- The stored value as an unsigned number. -/
def objNat (s : State) (k : ObjKey) : Nat := leNat (objBytes s k)

/-- The stored value as a two's complement number. -/
def objInt (s : State) (k : ObjKey) : Int :=
  let bs := objBytes s k
  (BitVec.ofNat (8 * bs.length) (leNat bs)).toInt

/-- An object written. -/
def setObj (s : State) (k : ObjKey) (v : Bytes) : State := { s with dict := mapSet s.dict k v }

/-- An object written with an `n`-byte number. -/
def setObjNat (s : State) (k : ObjKey) (n v : Nat) : State := setObj s k (natLE n v)

/-- The value in force of an object that is applied only at a module reset or a link-up: what `applied` holds, else the
default (R190, R432, R444). -/
def appliedNat (s : State) (k : ObjKey) : Nat := leNat (mapGet s.mgmt.applied k (objDefault k))

/-! ### Free values -/

/-- The next free value and the state with the draw counted. -/
def drawFree (s : State) : Word × State := (Config.freeWord s.freeCtr, { s with freeCtr := s.freeCtr + 1 })

/-! ### Memory of the MPA space (R10, R186)

A list of address and byte pairs, addresses rising, no byte 0. A byte that is not listed reads 0 (DESIGN CHOICE, log 2). -/

/-- The byte at an address. -/
def cellGet : List Host.Cell → Nat → Byte
  | [], _ => 0
  | (x, c) :: m, a => if x = a then c else cellGet m a

/-- The memory with one byte written, in canonical form. -/
def cellSet : List Host.Cell → Nat → Byte → List Host.Cell
  | [], a, b => if b = 0 then [] else [(a, b)]
  | (x, c) :: m, a, b =>
    if x < a then (x, c) :: cellSet m a b
    else if x = a then (if b = 0 then m else (a, b) :: m)
    else (if b = 0 then (x, c) :: m else (a, b) :: (x, c) :: m)

/-- The memory with a byte string written from an address up. -/
def cellsPut : List Host.Cell → Nat → Bytes → List Host.Cell
  | m, _, [] => m
  | m, a, b :: bs => cellsPut (cellSet m a b) (a + 1) bs

/-- The memory with `n` bytes from an address up made 0. -/
def cellsZero (m : List Host.Cell) (a n : Nat) : List Host.Cell :=
  m.filter (fun c => decide (c.1 < a) || decide (a + n ≤ c.1))

/-- The memory with the listed bytes of `[src, src + n)` copied to `dst`, the span at `dst` cleared first. -/
def cellsCopy (m : List Host.Cell) (src dst n : Nat) : List Host.Cell :=
  (m.filter (fun c => decide (src ≤ c.1) && decide (c.1 < src + n))).foldl
    (fun m' c => cellSet m' (dst + (c.1 - src)) c.2) (cellsZero m dst n)

/-- The canonical form: addresses strictly rising, no byte 0. -/
def Memory.wfFrom : Nat → List Host.Cell → Bool
  | _, [] => true
  | lo, (x, c) :: m => decide (lo ≤ x) && decide (c ≠ 0) && Memory.wfFrom (x + 1) m

/-- The canonical form of memory. -/
def Memory.wf (m : List Host.Cell) : Bool := Memory.wfFrom 0 m

/-- The bytes at `n` addresses from `a` up, as they lie. -/
def cellsRead (m : List Host.Cell) (a n : Nat) : Bytes := (List.range n).map (fun i => cellGet m (a + i))

/-! ### Poison (R214): the poisoned 64-byte lines, by address / 64 -/

/-- A line number inserted in a rising list without repeats. -/
def lineInsert : List Nat → Nat → List Nat
  | [], l => [l]
  | x :: xs, l => if x < l then x :: lineInsert xs l else if x = l then x :: xs else l :: x :: xs

/-- The lines that `[a, a + n)` touches. -/
def linesOf (a n : Nat) : List Nat :=
  if n = 0 then [] else (List.range ((a + n - 1) / 64 + 1 - a / 64)).map (fun i => a / 64 + i)

/-- Whether a line lies wholly in `[a, a + n)`. -/
def lineWhole (a n l : Nat) : Bool := decide (a ≤ 64 * l) && decide (64 * l + 64 ≤ a + n)

/-- A line poisoned. -/
def poisonLine (s : State) (l : Nat) : State := { s with poison := lineInsert s.poison l }

/-- Poison cleared from every line that `[a, a + n)` covers wholly (R214). -/
def unpoison (s : State) (a n : Nat) : State :=
  { s with poison := s.poison.filter (fun l => !lineWhole a n l) }

/-- Bytes written where they lie: whole lines lose their poison, partly written lines keep it (R214). -/
def rawWrite (s : State) (a : Nat) (bs : Bytes) : State :=
  unpoison { s with mem := cellsPut s.mem a bs } a bs.length

/-- Zeros written where they lie. -/
def rawZero (s : State) (a n : Nat) : State := unpoison { s with mem := cellsZero s.mem a n } a n

/-- The memory with every byte of a span given anew. -/
def cellsSplice (m : List Host.Cell) (a n : Nat) (f : Nat → Byte) : List Host.Cell :=
  m.filter (fun c => decide (c.1 < a)) ++
    (((List.range n).map (fun i => (a + i, f (a + i)))).filter (fun (c : Nat × Byte) => decide (c.2 ≠ 0)) ++
      m.filter (fun c => decide (a + n ≤ c.1)))

/-- Contents the manual leaves undefined: every byte of the span becomes a free value of one draw. -/
def scramble (s : State) (a n : Nat) : State :=
  let k := s.freeCtr
  unpoison { s with mem := cellsSplice s.mem a n (Config.freeByte k), freeCtr := k + 1 } a n

/-! ### The address map (R186, R189 to R191) -/

def bulkBytes : Nat := 3 * 2 ^ 39
def stackBase : Nat := 0x040000000000
def sramBase : Nat := 0x048000000000
def spreadBase : Nat := 0x050000000000
def flashBase : Nat := 0x200000000000
def mmioBase : Nat := 0x3FF0000000000
def gib : Nat := 2 ^ 30
def granBytes : Nat := 2 ^ 21

/-- The populated regions. -/
inductive Region
  | bulk
  /-- Direct view of die d. -/
  | direct (d : Nat)
  | sram (e : Nat)
  | spread
  | flash
  | mmio
deriving DecidableEq, Repr

/-- STACK_SPREAD_GIB in force (R189, R190). -/
def spreadGib (s : State) : Nat := appliedNat s oStackSpreadGib

/-- The populated region an address lies in; `none` where R187 refuses it. The direct view is populated to 48 GiB; R189
bars every agent but the migration engine and margining from its upper part (see `directOpen`). -/
def regionOf (s : State) (a : Nat) : Option Region :=
  if a < bulkBytes then some .bulk
  else if stackBase ≤ a ∧ a < sramBase then
    let o := a - stackBase
    if o % (64 * gib) < 48 * gib then some (.direct (o / (64 * gib))) else none
  else if sramBase ≤ a ∧ a < sramBase + 2 ^ 31 then
    let o := a - sramBase
    if o % 2 ^ 26 < 48 * 2 ^ 20 then some (.sram (o / 2 ^ 26)) else none
  else if spreadBase ≤ a ∧ a < spreadBase + 8 * spreadGib s * gib then some .spread
  else if flashBase ≤ a ∧ a < flashBase + Config.flashLogicalBytes then some .flash
  else if mmioBase ≤ a ∧ a < 2 ^ 50 then some .mmio
  else none

/-- The region that holds all of `[a, a + n)`, `n` at least 1. Populated parts of one region are contiguous within a die
or an engine slot. -/
def spanRegion (s : State) (a n : Nat) : Option Region :=
  match regionOf s a, regionOf s (a + (n - 1)) with
  | some r, some r' => if r = r' then some r else none
  | _, _ => none

/-- Whether the direct-view span lies below the spread region of its die (R189). -/
def directOpen (s : State) (a n : Nat) : Bool :=
  decide ((a - stackBase) % (64 * gib) + n ≤ (48 - spreadGib s) * gib)

/-- The compute die whose memory holds the byte at `a`, where it lies: its under-stack or the SRAM of one of its engines. -/
def dieAt (s : State) (a : Nat) : Option Nat :=
  match regionOf s a with
  | some (.direct d) => some d
  | some .spread => some ((a - spreadBase) / 65536 % 8)
  | some (.sram e) => some (e / 4)
  | _ => none

/-- The byte lies on a die that has been removed from the module's resources (R25, R361). -/
def deadAt (s : State) (a : Nat) : Bool :=
  match dieAt s a with
  | some d => s.d2d.removed.elem d
  | none => false

/-- Whether a line is poisoned; a read of a removed die returns poison (R361). -/
def linePoisoned (s : State) (l : Nat) : Bool := s.poison.elem l || deadAt s (64 * l)

/-- MPA of byte `o` of engine e's bobbin store (R191). -/
def sramAddr (e o : Nat) : Nat := sramBase + e * 2 ^ 26 + o

/-- MPA of a stacked frame (R199). -/
def frameAddr (f : Nat) : Nat := spreadBase + f * granBytes

/-! ### Granules: where a home address lies now (R203, R206) -/

/-- The hub's entry for a granule. -/
def gran (s : State) (g : Nat) : Gran := mapGet s.hub.grans g {}

def setGran (s : State) (g : Nat) (x : Gran) : State := { s with hub := { s.hub with grans := mapSet s.hub.grans g x } }

/-- The spread-view address of the byte at offset `o` of die d's spread region (R190). -/
def spreadAt (d o : Nat) : Nat := spreadBase + o / 65536 * 524288 + d * 65536 + o % 65536

/-- Where the byte at an MPA lies: a bulk home of a granule in RESIDENT_HIGH or DEMOTING lies in its frame (R206), and the
upper part of a die's direct view is the spread region, whose bytes have their place in the spread view (R189, R190). -/
def locate (s : State) (a : Nat) : Nat :=
  if a < bulkBytes then
    let g := gran s (a / granBytes)
    if g.state = 2 ∨ g.state = 3 then frameAddr g.frame + a % granBytes else a
  else if stackBase ≤ a ∧ a < sramBase then
    let o := (a - stackBase) % (64 * gib)
    if (48 - spreadGib s) * gib ≤ o ∧ o < 48 * gib then spreadAt ((a - stackBase) / (64 * gib)) (o - (48 - spreadGib s) * gib) else a
  else a

/-- The granules that `[a, a + n)` touches, for a bulk span. -/
def granulesOf (a n : Nat) : List Nat :=
  if n = 0 ∨ bulkBytes ≤ a then [] else (List.range ((a + n - 1) / granBytes + 1 - a / granBytes)).map (fun i => a / granBytes + i)

/-- A write that meets a granule in PROMOTING or DEMOTING stalls (R206). -/
def migrationStalls (s : State) (a n : Nat) : Bool :=
  (granulesOf a n).any (fun g => decide ((gran s g).state = 1) || decide ((gran s g).state = 3))

/-- Read at MPA `a`: the bytes as they lie, home addresses redirected. -/
def mpaRead (s : State) (a n : Nat) : Bytes := (List.range n).map (fun i => cellGet s.mem (locate s (a + i)))

/-- Whether a line that `[a, a + n)` touches is poisoned. -/
def mpaPoisoned (s : State) (a n : Nat) : Bool := (linesOf a n).any (fun l => linePoisoned s (locate s (64 * l) / 64))

/-- The line under its home MPA: a line of a frame that holds a granule is that granule's (R198, R203). -/
def homeLine (s : State) (l : Nat) : Nat :=
  if 64 * l < spreadBase then l
  else
    match s.hub.grans.find? (fun g => (decide (g.2.state = 2) || decide (g.2.state = 3)) && decide (frameAddr g.2.frame ≤ 64 * l) &&
        decide (64 * l < frameAddr (g.2.frame + 1))) with
    | some g => (g.1 * granBytes + (64 * l - frameAddr g.2.frame)) / 64
    | none => l

/-- A write met a line that a server core caches, or has cached, in breach of R248: it stays undefined until it has been evicted
and rewritten whole (R276). -/
def breachWrite (s : State) (l : Nat) (whole : Bool) : State :=
  let h := homeLine s l
  match s.hub.breach.find? (fun x => decide (x.1 = h)) with
  | none => s
  | some x =>
    if x.2 ∧ whole then { s with hub := { s.hub with breach := s.hub.breach.filter (fun y => decide (y.1 ≠ h)) } }
    else scramble s (64 * (locate s (64 * l) / 64)) 64

/-- Write at MPA `a`, home addresses redirected. A granule is a whole number of lines, so poison follows line by line. -/
def mpaWrite (s : State) (a : Nat) (bs : Bytes) : State :=
  (linesOf a bs.length).foldl (fun s l =>
    let lo := max a (64 * l)
    let hi := min (a + bs.length) (64 * l + 64)
    breachWrite (rawWrite s (locate s lo) ((bs.drop (lo - a)).take (hi - lo))) l (lineWhole a bs.length l)) s

/-- Poison put on every line that `[a, a + n)` touches. -/
def mpaPoison (s : State) (a n : Nat) : State :=
  (linesOf a n).foldl (fun s l => poisonLine s (locate s (64 * l) / 64)) s

/-- A number read or written little-endian (R11). -/
def mpaNat (s : State) (a n : Nat) : Nat := leNat (mpaRead s a n)
def mpaPutNat (s : State) (a n v : Nat) : State := mpaWrite s a (natLE n v)

/-! ### Message-signalled interrupts (R148, R446) -/

/-- Offset of the server-die blocks in the MMIO window and their size (R445). -/
def imsicBase : Nat := mmioBase + 0x30000000

/-- The interrupt file an MSI address names: server core of R264 and file (0 M-level, 1 S-level, 1 + g guest g). -/
def imsicFile (a : Nat) : Option (Nat × Nat) :=
  if imsicBase ≤ a ∧ a < imsicBase + 2 ^ 25 then
    let sc := (a - imsicBase) / 2 ^ 24
    let o := (a - imsicBase) % 2 ^ 24
    if o < 64 * 0x1000 then some (64 * sc + o / 0x1000, 0)
    else if 0x400000 ≤ o ∧ o < 0x400000 + 64 * 0x8000 then
      some (64 * sc + (o - 0x400000) / 0x8000, 1 + (o - 0x400000) % 0x8000 / 0x1000)
    else none
  else none

/-- An identity made pending in an interrupt file of 2,047 identities (R247). -/
def imsicSet (s : State) (c f id : Nat) : State :=
  if 1 ≤ id ∧ id ≤ 2047 then
    { s with mgmt := { s.mgmt with imsic := mapSet s.mgmt.imsic (c, f) (lineInsert (mapGet s.mgmt.imsic (c, f) []) id) } }
  else s

/-- An MSI: the 32-bit write of `data` to `addr`; address 0 sends none (R148). It makes the identity pending in the
interrupt file that the address names. -/
def sendMsi (s : State) (addr data : Nat) : State :=
  if addr = 0 then s
  else
    let s := { s with mgmt := { s.mgmt with msiOut := s.mgmt.msiOut ++ [(addr, data)] } }
    match imsicFile addr with
    | some (c, f) => imsicSet s c f data
    | none => s

end Sys2Proof.Machine
end

