-- ==== Sys2Proof/Machine/Rights.lean ====
section
/-! DEFINITION. Who owns what and who may reach what: partitions and their shares (R365 to R368), the register pages
(R371, R372) and the blocks of the MMIO window (R445). -/

namespace Sys2Proof.Machine

open Sys2Proof

/-! ### Owners (R365) -/

/-- The bit `i` of a number. -/
def bitOf (v i : Nat) : Bool := decide (v / 2 ^ i % 2 = 1)

/-- What an engine keeps beside its registers. -/
def engAux (s : State) (e : Nat) : EngAux := mapGet s.eng.engs e {}

def setEngAux (s : State) (e : Nat) (x : EngAux) : State := { s with eng := { s.eng with engs := mapSet s.eng.engs e x } }

/-- A delivery to an engine that is not ACTIVE wakes it (R424). The manual has the engine hold it until then; here it lands at once
and the engine wakes after it, which differs in time only (log 40). -/
def wakeFor (s : State) (e : Nat) : State :=
  if getF s (rEngPwr e) fEngPwrState = 0 then s else setEngAux s e { engAux s e with wake := true }

/-- A store that lands in an engine's SRAM wakes the engine (R424). -/
def wakeAt (s : State) (a : Nat) : State :=
  match regionOf s a with
  | some (.sram e) => wakeFor s e
  | _ => s

/-- The partition that owns engine e; none while its die is removed (R25). -/
def engOwner (s : State) (e : Nat) : Option Nat :=
  if s.d2d.removed.elem (e / 4) then none
  else (List.range 16).find? (fun p => bitOf (objNat s (oPartEngines p)) e)

/-- The partition that owns server core c; none for a removed core (R396) or die (R25). -/
def coreOwner (s : State) (c : Nat) : Option Nat :=
  if s.rel.removedCores.elem c ∨ s.d2d.removed.elem (8 + c / 64) then none
  else (List.range 16).find? (fun p => bitOf (objNat s (oPartCores p)) c)

/-- TENANT_ISOLATE (R368). -/
def tenantIsolate (s : State) : Bool := decide (objNat s oTenantIsolate = 1)

/-- The debug level and partition of R385. -/
def debugLevel (s : State) : Nat := getF s rSecStatus fSecStatusDebugLevel
def debugPart (s : State) : Nat := getF s rSecStatus fSecStatusDebugPartition

/-- The partition of a requester (R367). A peer's request carries the partition of its connection. -/
def agentPart (s : State) : Agent → Option Nat
  | .core c _ => coreOwner s c.val
  | .spindle e _ _ => engOwner s e.val
  | .engine e _ => engOwner s e.val
  | .hubUnit p => some p.val
  | .guest => some (objNat s oGuestPartition)
  | .debugger _ => if debugLevel s = 1 then some (debugPart s) else none
  | .peer conn => some (mapGet s.fab.conns conn.toNat {}).part
  | .hubFw | .dict | .migration | .ckptWriter | .scrubber => none

/-- Requesters that R367 does not bind: P_0 server cores and hub firmware while TENANT_ISOLATE is FALSE, the migration
engine, the checkpoint writer and the scrubber always (R368), a debugger at level 2 (R451). -/
def shareExempt (s : State) (ag : Agent) : Bool :=
  match ag with
  | .core c _ => decide (coreOwner s c.val = some 0) && !tenantIsolate s
  | .hubFw | .dict => !tenantIsolate s
  | .migration | .ckptWriter | .scrubber => true
  | .debugger _ => decide (debugLevel s = 2)
  | _ => false

/-! ### Shares (R365, R367) -/

/-- Whether `[a, a + n)` lies in `[base, base + size)`. -/
def inSpan (a n base size : Nat) : Bool := decide (base ≤ a) && decide (a + n ≤ base + size)

/-- The first frame of the pool region: the top Σ POOL_FRAMES_P frames of the populated spread view (R208). -/
def poolFrames (s : State) : Nat := (List.range 16).foldl (fun t p => t + objNat s (oPoolFramesP p)) 0
def spreadFrames (s : State) : Nat := 8 * spreadGib s * 512
def poolFirst (s : State) : Nat := spreadFrames s - poolFrames s

/-- The pool frame f is charged to partition p (R367). -/
def frameCharged (s : State) (p f : Nat) : Bool :=
  s.hub.grans.any (fun g => decide (g.2.state ≠ 0) && decide (g.2.frame = f) && decide (g.2.part = p))

/-- Whether the span lies in partition p's shares: its tier ranges, its charged pool frames, the SRAM of its engines
(R367). -/
def inShare (s : State) (p a n : Nat) : Bool :=
  match spanRegion s a n with
  | some .bulk =>
    let v := objNat s (oPartBulk p)
    inSpan a n (v % 65536 * gib) (v / 65536 * gib)
  | some (.direct d) =>
    let bs := objBytes s (oPartLocal p)
    inSpan (a - stackBase - d * 64 * gib) n (u8At bs (2 * d) * gib) (u8At bs (2 * d + 1) * gib)
  | some .spread =>
    let v := objNat s (oPartSpread p)
    let o := a - spreadBase
    if inSpan o n (v % 65536 * gib) (v / 65536 * gib) then true
    else (List.range ((o + (n - 1)) / granBytes + 1 - o / granBytes)).all (fun i =>
      decide (poolFirst s ≤ o / granBytes + i) && frameCharged s p (o / granBytes + i))
  | some (.sram e) => decide (engOwner s e = some p)
  | some .flash =>
    let v := objNat s (oPartFlash p)
    inSpan (a - flashBase) n (v % 2 ^ 32 * 16384) (v / 2 ^ 32 * 16384)
  | _ => false

/-- The partition that owns an address (R400). -/
def addrOwner (s : State) (a : Nat) : Option Nat := (List.range 16).find? (fun p => inShare s p a 1)

/-! ### Bytes under the scrub of a layout change (R370) -/

/-- The state with the layout objects of a confirmed set in force. -/
def withLayout (s : State) (l : List Triple) : State := l.foldl (fun s t => setObj s (t.index, t.sub) t.value) s

/-- Where the shares of the partitions begin and end. -/
def shareBounds (s : State) : List Nat :=
  (List.range 16).flatMap (fun p =>
    let b := objNat s (oPartBulk p)
    let v := objNat s (oPartSpread p)
    let f := objNat s (oPartFlash p)
    let l := objBytes s (oPartLocal p)
    [b % 65536 * gib, (b % 65536 + b / 65536) * gib, spreadBase + v % 65536 * gib, spreadBase + (v % 65536 + v / 65536) * gib,
      flashBase + f % 2 ^ 32 * 16384, flashBase + (f % 2 ^ 32 + f / 2 ^ 32) * 16384] ++
    (List.range 8).flatMap (fun d => [stackBase + (64 * d + u8At l (2 * d)) * gib, stackBase + (64 * d + u8At l (2 * d) + u8At l (2 * d + 1)) * gib])) ++
  (List.range 32).map (fun e => sramBase + e * 2 ^ 26)

/-- A byte of the span changes owner under a confirmed set whose scrub has not ended. -/
def underScrub (s : State) (a n : Nat) : Bool :=
  match s.sec.layout with
  | none => false
  | some (l, _) =>
    let t := withLayout s l
    (a :: (shareBounds s ++ shareBounds t).filter (fun x => decide (a < x) && decide (x < a + n))).any (fun x => decide (addrOwner s x ≠ addrOwner t x))

/-- The partition whose shares an agent's memory accesses are held to: hub firmware's, where it is not exempt, is P_0 (R368). -/
def sharePart (s : State) : Agent → Option Nat
  | .hubFw | .dict => some 0
  | ag => agentPart s ag

/-- Whether a memory access of an agent is admitted: a populated region of memory (R187), the direct view below the spread
region (R189), the requester's shares (R367, R368). A span under the scrub of a layout change is refused to all but the
scrubber (R370). The flash window takes reads only (R192). A write to a
removed die is refused (R361). -/
def mpaAdmits (s : State) (ag : Agent) (a n : Nat) (write : Bool) : Bool :=
  match spanRegion s a n with
  | none => false
  | some r =>
    let openRegion := match r with
      | .direct _ => directOpen s a n || decide (ag = .migration)
      | .flash => !write && s.dev.flOpen
      | .mmio => false
      | _ => true
    openRegion && !(underScrub s a n && decide (ag ≠ .scrubber)) && !(write && !s.d2d.removed.isEmpty && (List.range ((n - 1) / 65536 + 2)).any (fun i => deadAt s (locate s (min (a + 65536 * i) (a + (n - 1)))))) &&
      (shareExempt s ag ||
        match sharePart s ag with
        | some p => inShare s p a n
        | none => false)

/-! ### The blocks of the MMIO window (R115, R445) -/

/-- What an offset in the MMIO window names. -/
inductive MmioTarget
  /-- A register place of a block. -/
  | reg (k : RegKey)
  /-- A page of an interrupt file (R446). -/
  | imsic (core file off : Nat)
  /-- The guest site's block (R354 to R356). -/
  | guest (off : Nat)
  /-- Outside every block: refused under R187. -/
  | outside
deriving DecidableEq, Repr

/-- The place that an MMIO offset names. Places inside a block without a register are `reg` keys without a description:
they read 0 and write nothing (R445). -/
def mmioTarget (o : Nat) : MmioTarget :=
  if o < 0x1000000 then
    if 0x10000 ≤ o ∧ o < 0x20000 then .reg ⟨.hubWin, (o - 0x10000) / 0x1000, 0, o % 0x1000⟩ else .reg ⟨.hub, 0, 0, o⟩
  else if o < 0x2000000 then .reg ⟨.rh, 0, 0, o - 0x1000000⟩
  else if o < 0x3000000 then .reg ⟨.dir, 0, 0, o - 0x2000000⟩
  else if o < 0x4000000 then .reg ⟨.fab, 0, 0, o - 0x3000000⟩
  else if o < 0x5000000 then .reg ⟨.coll, 0, 0, o - 0x4000000⟩
  else if o < 0x6000000 then
    let x := o - 0x5000000
    if x < 0x10000 then .reg ⟨.job, x / 0x1000, 0, x % 0x1000⟩ else .reg ⟨.job, 16, 0, x⟩
  else if o < 0x7000000 then .reg ⟨.flash, 0, 0, o - 0x6000000⟩
  else if o < 0x8000000 then
    let x := o - 0x7000000
    if 0x10000 ≤ x ∧ x < 0x20000 then .reg ⟨.carderWin, (x - 0x10000) / 0x1000, 0, x % 0x1000⟩ else .reg ⟨.carder, 0, 0, x⟩
  else if o < 0x9000000 then .reg ⟨.rel, 0, 0, o - 0x8000000⟩
  else if o < 0xA000000 then .reg ⟨.sec, 0, 0, o - 0x9000000⟩
  else if 0x10000000 ≤ o ∧ o < 0x12000000 then
    let e := (o - 0x10000000) / 0x100000
    let x := o % 0x100000
    if 0x40000 ≤ x ∧ x < 0x50000 then .reg ⟨.engC, e, (x - 0x40000) / 0x1000, x % 0x1000⟩ else .reg ⟨.engP, e, 0, x⟩
  else if 0x20000000 ≤ o ∧ o < 0x20800000 then .reg ⟨.stk, (o - 0x20000000) / 0x100000, 0, o % 0x100000⟩
  else if 0x30000000 ≤ o ∧ o < 0x32000000 then
    match imsicFile (mmioBase + o) with
    | some (c, f) => .imsic c f (o % 0x1000)
    | none => .imsic 0 9 0
  else if 0x40000000 ≤ o ∧ o < 0x40001000 then .reg ⟨.plalia, 0, 0, o - 0x40000000⟩
  else if 0x50000000 ≤ o ∧ o < 0x60000000 then .guest (o - 0x50000000)
  else .outside

/-- Whether a place lies in a window of a partition rather than in a privileged page (R371, R372). -/
def keyWindow (s : State) (k : RegKey) : Option (Option Nat) :=
  match k.blk with
  | .engC => some (engOwner s k.i)
  | .hubWin | .carderWin => some (some k.i)
  | _ => none

/-- The rights of R371 and R372: a window is open to requesters of its partition; a privileged page to P_0 server cores in
S-mode or M-mode, hub firmware and the dictionary; the security block to P_0 cores in M-mode only. A debugger at level 2
reaches every MPA (R451). -/
def regRight (s : State) (ag : Agent) (k : RegKey) : Bool :=
  if (match ag with | .debugger _ => decide (debugLevel s = 2) | _ => false) then true
  else
    match keyWindow s k with
    | some owner => decide (owner.isSome) && decide (agentPart s ag = owner)
    | none =>
      match ag with
      | .core c pr =>
        decide (coreOwner s c.val = some 0) &&
          (if k.blk = .sec then decide (pr = .m) else decide (pr ≠ .u))
      | .hubFw | .dict => decide (k.blk ≠ .sec)
      | _ => false

/-- A refused register access: it reads 0, writes nothing and counts (R371, R372). -/
def violation (s : State) : State := bump s rSecViolations fSecViolationsCount 1

/-- The answer to a refused access (R187): an access-fault exception of a core, a refusal to every other requester. -/
def denied : Agent → AccessOut
  | .core .. | .spindle .. => .accessFault
  | _ => .refused

/-- A register access with its rights checked: `f` where admitted, the count otherwise. -/
def guarded (s : State) (ag : Agent) (k : RegKey) (f : State → State) : State :=
  if regRight s ag k then f s else violation s

end Sys2Proof.Machine
end

