-- ==== Sys2Proof/Machine/Report.lean ====
section
/-! DEFINITION. What the module reports: coherent access to memory by units of the hub, record rings, error records
(R400 to R402), the counts of the event recorder's epoch (R403), Pennants (R296) and consumed poison (R215). -/

namespace Sys2Proof.Machine

open Sys2Proof

/-! ### The directory's data (R267, R272, R273) -/

/-- The directory's entry for a line. -/
def dirFind (s : State) (line : Nat) : Option DirEnt := s.hub.dir.find? (fun d => decide (d.line = line))

/-- The directory without a line. -/
def dirDrop (s : State) (line : Nat) : State :=
  { s with hub := { s.hub with dir := s.hub.dir.filter (fun d => !decide (d.line = line)) } }

/-- Reservations on a line are lost (R271, R283's table, R453). -/
def dropResv (s : State) (line : Nat) : State :=
  { s with hub := { s.hub with resv := s.hub.resv.filter (fun r => !decide (r.2 = line)) } }

/-- An owner's data written back to its line; the line keeps its poison, which travelled with it (R214). -/
def writeBack (s : State) (line : Nat) (bs : Bytes) : State := { s with mem := cellsPut s.mem (locate s (64 * line)) bs }

/-- The line recalled from every cache: an owner's data is written back unless the recalling write replaces all of it, every
copy is invalidated and counted, and the line ends in NONE (R273, R281). -/
def recallLine (s : State) (line : Nat) (discard : Bool) : State :=
  match dirFind s line with
  | none => dropResv s line
  | some d =>
    let s := match d.owned, d.data with
      | true, some bs => if discard then s else writeBack s line bs
      | _, _ => s
    dropResv (dirDrop (bump s rInvalidations fInvalidations d.pv.length) line) line

/-- The bytes a current read sees: an owner's data where the line is OWNED, else memory (R272). -/
def cohRead (s : State) (a n : Nat) : Bytes :=
  (List.range n).map (fun i =>
    match dirFind s ((a + i) / 64) with
    | some d => match d.owned, d.data with
      | true, some bs => bs.getD ((a + i) % 64) 0
      | _, _ => cellGet s.mem (locate s (a + i))
    | none => cellGet s.mem (locate s (a + i)))

/-- Lines of the span that an owner supplies (R272). -/
def ownedLines (s : State) (a n : Nat) : Nat :=
  ((linesOf a n).filter (fun l => match dirFind s l with | some d => d.owned | none => false)).length

/-- A write of a non-caching agent to memory under the directory: every line is recalled, whole lines discard an owner's
data, then the bytes land (R273). -/
def cohWrite (s : State) (a : Nat) (bs : Bytes) : State :=
  mpaWrite ((linesOf a bs.length).foldl (fun s l => recallLine s l (lineWhole a bs.length l)) s) a bs

/-- A line within its owner's hold (R271). -/
def lineHeld (s : State) (line : Nat) : Bool :=
  match dirFind s line with
  | some d => d.owned && (match d.hold with | some t => decide (s.time < t) | none => false)
  | none => false

/-- A line of the span is held by its new owner (R271). -/
def spanHeld (s : State) (a n : Nat) : Bool := (linesOf a n).any (lineHeld s)

/-! ### Accesses of the hub's own units at MPAs (R206, R209, R271, R272) -/

/-- The frames of the spread view that a span touches. -/
def framesOf (s : State) (a n : Nat) : List Nat :=
  match regionOf s a with
  | some .spread => (List.range ((a + n - 1) / granBytes + 1 - a / granBytes)).map (fun i => a / granBytes + i - spreadBase / granBytes)
  | _ => []

/-- An access at a frame restarts the age of the granule that lies there (R209). -/
def touchFrame (s : State) (f : Nat) : State :=
  match s.hub.grans.find? (fun g => decide (g.2.state = 2) && decide (g.2.frame = f)) with
  | some g => setGran s g.1 { g.2 with age := 0 }
  | none => s

/-- An access of any agent restarts the ages of the granules it meets in RESIDENT_HIGH (R209). -/
def restartAges (s : State) (a n : Nat) : State :=
  (granulesOf a n).foldl (fun s g => if (gran s g).state = 2 then setGran s g { gran s g with age := 0 } else s)
    ((if n = 0 then [] else framesOf s a n).foldl touchFrame s)

/-- The span is populated memory that a hub unit may write: neither the flash window nor MMIO, in the direct view below the
spread region (R187, R189, R192). -/
def hubPlaced (s : State) (a n : Nat) : Bool :=
  match spanRegion s a n with
  | some .flash | some .mmio | none => false
  | some (.direct _) => directOpen s a n
  | some _ => true

/-- A hub unit's write waits: its granule migrates, its line is held, or an earlier write of the hub to one of its lines
waits (R206, R269, R271). -/
def hubWaits (s : State) (a n : Nat) : Bool :=
  migrationStalls s a n || spanHeld s a n || s.hub.writes.any (fun w => (linesOf w.addr w.data.length).any (fun l => (linesOf a n).elem l))

/-- The bytes of a span that waiting writes of the hub cover, as its units see them: requests for one line complete in order
(R269). -/
def hubView (s : State) (a n : Nat) : Bytes :=
  s.hub.writes.foldl (fun bs w => (List.range n).map (fun i =>
    if w.addr ≤ a + i ∧ a + i < w.addr + w.data.length then w.data.getD (a + i - w.addr) 0 else bs.getD i 0)) (cohRead s a n)

/-- What a read of a hub unit counts: data that an owner supplied (R272), and the age of what it met (R209). -/
def hubTouch (s : State) (a n : Nat) : State := restartAges (bump s rOwnerSupply fOwnerSupply (ownedLines s a n)) a n

/-- A hub unit's write lands. -/
def hubLand (s : State) (a : Nat) (bs : Bytes) : State := restartAges (cohWrite s a bs) a bs.length

/-- A write of a hub unit at an MPA: refused where R187 or R192 refuses it, it changes nothing; else it lands, or waits. -/
def hubPut (s : State) (a : Nat) (bs : Bytes) : State :=
  if !hubPlaced s a bs.length then s
  else if hubWaits s a bs.length then { s with hub := { s.hub with writes := s.hub.writes ++ [{ addr := a, data := bs, ring := none }] } }
  else hubLand s a bs

/-! ### Record rings addressed by MPA (R148, R260, R400) -/

/-- A ring: its name, base and size field, its pointers, its MSI registers (none: it sends no MSI). -/
structure RingRegs where
  id    : RingId
  base  : Reg
  fBase : Fd
  fLog2 : Fd
  ptr   : Reg
  fProd : Fd
  fCons : Fd
  msi   : Option (Reg × Reg)

/-- The binary logarithm of a ring's size. -/
def RingRegs.log2 (r : RingRegs) (s : State) : Nat := getF s r.base r.fLog2
def RingRegs.prod (r : RingRegs) (s : State) : Nat := getF s r.ptr r.fProd
def RingRegs.cons (r : RingRegs) (s : State) : Nat := getF s r.ptr r.fCons

/-- Records of the ring that wait to land. -/
def RingRegs.queued (r : RingRegs) (s : State) : Nat := (s.hub.writes.filter (fun w => decide (w.ring = some r.id))).length

/-- The count of the next record: those written and those that wait to land. -/
def RingRegs.next (r : RingRegs) (s : State) : Nat := (r.prod s + r.queued s) % 2 ^ 32

/-- The ring holds 2^n records not yet consumed. -/
def RingRegs.full (r : RingRegs) (s : State) : Bool :=
  decide (2 ^ r.log2 s ≤ (r.next s + 2 ^ 32 - r.cons s) % 2 ^ 32)

/-- PHASE of the next record: the inverse of bit n of the records before it (R148). -/
def RingRegs.phase (r : RingRegs) (s : State) : Nat := if bitOf (r.next s) (r.log2 s) then 0 else 1

/-- The MPA of the next record of `n` bytes. -/
def RingRegs.slot (r : RingRegs) (s : State) (n : Nat) : Nat :=
  getF s r.base r.fBase * 4096 + r.next s % 2 ^ r.log2 s * n

/-- Whether the next record's place can be written (R187, R260). -/
def RingRegs.placed (r : RingRegs) (s : State) (n : Nat) : Bool := hubPlaced s (r.slot s n) n

/-- A record lands: it is written, the producer advances, then the MSI is sent (R148, R260). -/
def RingRegs.land (r : RingRegs) (s : State) (a : Nat) (bs : Bytes) : State :=
  let s := advance (hubLand s a bs) r.ptr r.fProd 1
  match r.msi with
  | some (x, d) => sendMsi s (getR s x).toNat (getR s d).toNat
  | none => s

/-- The next record of a ring: it lands, or waits behind earlier ones and for its granule or its line (R206, R271). -/
def RingRegs.put (r : RingRegs) (s : State) (bs : Bytes) : State :=
  let a := r.slot s bs.length
  if decide (r.queued s ≠ 0) || hubWaits s a bs.length then
    { s with hub := { s.hub with writes := s.hub.writes ++ [{ addr := a, data := bs, ring := some r.id }] } }
  else r.land s a bs

/-- The error ring of P_0 and that of a partition (R400). -/
def errRing : RingRegs :=
  ⟨.err, rErrRingBase, fErrRingBaseBase, fErrRingBaseLog2, rErrRingPtr, fErrRingPtrProducer, fErrRingPtrConsumer, some (rErrRingMsiAddr, rErrRingMsiData)⟩
def errPring (p : Nat) : RingRegs :=
  ⟨.errP p, rErrPringBase p, fErrPringBaseBase, fErrPringBaseLog2, rErrPringPtr p, fErrPringPtrProducer, fErrPringPtrConsumer,
    some (rErrPringMsiAddr p, rErrPringMsiData p)⟩

/-- The fault ring of a context slot (R260). -/
def frRing (e n : Nat) : RingRegs :=
  ⟨.fr e n, rFrBase e n, fFrBaseBase, fFrBaseLog2, rFrPtr e n, fFrPtrProducer, fFrPtrConsumer, some (rFrMsiAddr e n, rFrMsiData e n)⟩

/-- The fault ring of a partition (R261). -/
def pfRing (p : Nat) : RingRegs :=
  ⟨.pfr p, rRhPfrBase p, fRhPfrBaseBase, fRhPfrBaseLog2, rRhPfrPtr p, fRhPfrPtrProducer, fRhPfrPtrConsumer, some (rRhPfrMsiAddr p, rRhPfrMsiData p)⟩

/-- The consult ring (R252). -/
def consultRing : RingRegs :=
  ⟨.consult, rRhConsultBase, fRhConsultBaseBase, fRhConsultBaseLog2, rRhConsultPtr, fRhConsultPtrProducer, fRhConsultPtrConsumer,
    some (rRhConsultMsiAddr, rRhConsultMsiData)⟩

/-- The hot list (R201). -/
def hotRing : RingRegs :=
  ⟨.hot, rHotBase, fHotBaseBase, fHotBaseLog2Entries, rHotPtr, fHotPtrProducer, fHotPtrConsumer, none⟩

/-- The ring of a name. -/
def ringOf : RingId → RingRegs
  | .err => errRing
  | .errP p => errPring p
  | .fr e n => frRing e n
  | .pfr p => pfRing p
  | .consult => consultRing
  | .hot => hotRing

/-- The hub's waiting writes land in their order, each once nothing holds it and no earlier one to its line or of its ring
still waits; `kept` are those that go on waiting. -/
def landWrites (s : State) (kept : List HubWrite) : List HubWrite → State
  | [] => { s with hub := { s.hub with writes := kept } }
  | w :: l =>
    let t := { s with hub := { s.hub with writes := kept } }
    if hubWaits t w.addr w.data.length || (w.ring.isSome && kept.any (fun k => decide (k.ring = w.ring))) then landWrites s (kept ++ [w]) l
    else
      landWrites (match w.ring with
        | some r => (ringOf r).land t w.addr w.data
        | none => hubLand t w.addr w.data) kept l

/-- The hub's waiting writes tried again. -/
def releaseWrites (s : State) : State := landWrites s [] s.hub.writes

/-! ### The event recorder's counts (R403, R404) -/

/-- A count of the epoch raised: section type, instance and word; words of U32 payloads stay at their largest value. -/
def evrCount (s : State) (sec inst word n : Nat) : State :=
  { s with rel := { s.rel with epoch := mapSet s.rel.epoch (sec, inst, word) (mapGet s.rel.epoch (sec, inst, word) 0 + n) } }

/-- A variable section of the epoch (types 8 to 10). -/
def evrEvent (s : State) (sec inst : Nat) (payload : Bytes) : State :=
  { s with rel := { s.rel with events := s.rel.events ++ [(sec, inst, payload)] } }

/-- LAT_HIST bin of a latency in ns (R404). -/
def latBin (ns : Nat) : Nat := if ns = 0 then 0 else min 31 ns.log2
def evrLatency (s : State) (inst ns : Nat) : State := evrCount s 1 inst (latBin ns) 1

/-! ### Error records (R400 to R402) -/

/-- Severities of R400. -/
def sevCorrected : Nat := 0
def sevUncorrected : Nat := 1
def sevRemoved : Nat := 2
def sevService : Nat := 3

/-- What an error record says. -/
structure ErrInfo where
  addr : Nat := 0
  src  : Nat
  sev  : Nat
  typ  : Nat
  part : Nat := 0
  unit : Nat := 0
  die  : Nat := 10

/-- The 32 bytes of an error record, PHASE as given (R400). -/
def errBytes (s : State) (i : ErrInfo) (phase supp : Nat) : Bytes :=
  natLE 8 i.addr ++ natLE 8 s.time ++ natLE 1 i.src ++ natLE 1 i.sev ++ natLE 1 i.typ ++
    natLE 1 (i.part % 16 + 16 * phase) ++ natLE 2 i.unit ++ natLE 1 i.die ++ [0] ++ natLE 4 supp ++ [0, 0, 0, 0]

/-- The location a corrected error is counted at: its line, or its unit (R401). -/
def errLocation (i : ErrInfo) : Nat := if i.addr = 0 then 2 * (i.src * 2 ^ 16 + i.unit) + 1 else 2 * (i.addr / 64)

/-- One second in ns. -/
def oneSecond : Nat := 1000000000

/-- 24 hours in ns. -/
def dayNs : Nat := 86400000000000

/-- The record in one ring: dropped when the ring is full or lies nowhere. The drop is counted at P_0's ring. -/
def errPut (s : State) (r : RingRegs) (i : ErrInfo) (supp : Nat) (countDrop : Bool) : State :=
  if r.full s || !r.placed s 32 then (if countDrop then bump s rErrStatus fErrStatusOverflow 1 else s)
  else r.put s (errBytes s i (r.phase s) supp)

/-- ERR_LAST_0 to ERR_LAST_3 take the record (R402). -/
def errLast (s : State) (bs : Bytes) : State :=
  (List.range 4).foldl (fun s w => setR s (rErrLast w) (BitVec.ofNat 64 (u64At bs (8 * w)))) s

/-- An error record: P_0's ring, and for uncorrected errors and removals the owner's ring; SERVICE and UNIT_REMOVED raise
the in-band interrupt and set ERR_LAST (R400 to R402). The owner P_0 has its ring once (DEDUCED, log 6). -/
def errWrite (s : State) (i : ErrInfo) (owner : Option Nat) (supp : Nat) : State :=
  let ph := errRing.phase s
  let s := errPut s errRing i supp true
  let s := match owner with
    | some p => if (i.sev = 1 ∨ i.sev = 2) ∧ p ≠ 0 then errPut s (errPring p) i supp false else s
    | none => s
  if i.sev = 2 ∨ i.sev = 3 then
    let s := errLast s (errBytes s i ph supp)
    let s := { s with rel := { s.rel with ibi := s.rel.ibi + 1 } }
    if i.sev = 3 then setF s rErrStatus fErrStatusService 1 else s
  else s

/-- A detected error: the epoch's counts (R403), then the record; corrected errors at one location at most once a second
(R401). -/
def logError (s : State) (i : ErrInfo) (owner : Option Nat) : State :=
  let s := evrCount s 6 i.src (if i.typ = 1 then 2 else if i.sev = 0 then 0 else 1) 1
  let s := if i.sev = 2 ∨ i.typ = 3 then evrEvent s 10 0 (errBytes s i 0 0) else s
  if i.sev = 0 then
    let (t, n) := mapGet s.rel.supp (errLocation i) (0, 0)
    let known := s.rel.supp.any (fun x => decide (x.1 = errLocation i))
    if known ∧ s.time < t + oneSecond then
      { s with rel := { s.rel with supp := mapSet s.rel.supp (errLocation i) (t, n + 1) } }
    else
      let s := { s with rel := { s.rel with supp := mapSet s.rel.supp (errLocation i) (s.time, 0) } }
      errWrite s i owner n
  else errWrite s i owner 0

/-- The error source of a region (R400). -/
def regionSource (s : State) (a : Nat) : Nat :=
  match regionOf s a with
  | some .bulk => 1
  | some (.direct _) | some .spread => 0
  | some (.sram _) => 3
  | some .flash => 2
  | _ => 15

/-! ### The repair map (R394) -/

/-- Entries that a copy of the map holds. -/
def repairCap : Nat := 1048575

/-- Pages programmed for n bytes of an SLC region: each raises the sequence number of R235. -/
def slcPages (s : State) (n : Nat) : State :=
  { s with dev := { s.dev with flSeq := s.dev.flSeq + BitVec.ofNat 64 ((n + 16383) / 16384) } }

/-- A repair's entry: kind, die, unit, bank, target and spare, programmed with a new copy of the map; it is also an event of the
epoch (R403). A full map takes no entry (DESIGN CHOICE, log 133). -/
def addRepair (s : State) (kind die unit bank target spare : Nat) : State :=
  let e := natLE 1 kind ++ natLE 1 die ++ natLE 2 unit ++ natLE 2 bank ++ [0, 0] ++ natLE 4 target ++ natLE 4 spare ++
    natLE 8 s.time ++ natLE 4 s.pow.powerOns ++ [0, 0, 0, 0]
  if repairCap ≤ s.rel.repairMap.length then s
  else
    let s := slcPages s (32 * (s.rel.repairMap.length + 2))
    evrEvent { s with rel := { s.rel with repairMap := s.rel.repairMap ++ [e], repairSeq := s.rel.repairSeq + 1 } } 9 0 e

/-! ### Jobs and Pennants (R285, R296) -/

def job (s : State) (p : Nat) : Job := mapGet s.jobs p {}
def setJob (s : State) (p : Nat) (j : Job) : State := { s with jobs := mapSet s.jobs p j }

/-- CUR_STEP of a partition (R285). -/
def curStep (s : State) (p : Nat) : Nat := getF s (rStepCur p) fStepCurCurStep

/-- The causes raised so far for a step. -/
def causesOf (j : Job) (step : Nat) : Nat := mapGet j.causes step 0

/-- A bit set in a mask. -/
def setBit (v i : Nat) : Nat := if bitOf v i then v else v + 2 ^ i

/-- The Pennant of a step raised for a cause (R296). A cause charged to a step that has voted, or whose outcome is known, is
too late and is dropped (DEDUCED, log 7). -/
def raisePennant (s : State) (p step cause : Nat) : State :=
  let j := job s p
  let late := decide (step < j.awaited) || (match j.voted with
    | some (v, _) => decide (step ≤ v)
    | none => false)
  if late then s else setJob s p { j with causes := mapSet j.causes step (setBit (causesOf j step) cause) }

/-- Poison consumed at an address by a unit of partition p, charged to a step: an error record and the Pennant's cause 6
(R215, R296). The record is UNCORRECTED with TYPE POISON_CONSUMED (DEDUCED, log 8). -/
def consumePoison (s : State) (p : Nat) (step : Option Nat) (a unit die : Nat) : State :=
  let s := logError s { addr := 64 * (a / 64), src := regionSource s a, sev := 1, typ := 5, part := p, unit := unit, die := die } (addrOwner s a)
  match step with
  | some st => raisePennant s p st 6
  | none => s

end Sys2Proof.Machine
end

