-- ==== Sys2Proof/Machine/Tier.lean ====
section
/-! DEFINITION. Granules, heat and the hot list (R199 to R202), the migration queue and the pools (R207 to R211). -/

namespace Sys2Proof.Machine

open Sys2Proof

/-- A request for the queue of 64 (R202): full, it is dropped and REQ_REFUSED is set. -/
def queueMig (s : State) (m : MigReq) : State :=
  if 64 ≤ s.hub.migQ.length then setF s rMigStatus fMigStatusReqRefused 1
  else { s with hub := { s.hub with migQ := s.hub.migQ ++ [m] } }

/-- A promotion queued, charged to an ASTAG of a partition (R202, R211). -/
def queuePromotion (s : State) (g astag part : Nat) : State :=
  queueMig s { gran := g, promote := true, astag := astag, part := part, victim := none, bounced := false }

/-- The partition of an ASTAG: that of its root entry (R243). -/
def rootBase (s : State) : Nat := getF s rRhRoot fRhRootBase * 2 ^ 20
def astagPart (s : State) (astag : Nat) : Nat := u8At (cohRead s (rootBase s + 16 * astag + 12) 1) 0 % 16

/-- A hot-list entry (R201). -/
def hotEntry (g astag heat : Nat) (first : Bool) : Bytes := natLE 8 (g + astag * 2 ^ 20 + heat * 2 ^ 36 + first.toNat * 2 ^ 44)

/-- Entries of the hot list that nobody has consumed; at most the ring's size. -/
def hotWaiting (s : State) : Nat := min (2 ^ hotRing.log2 s) ((hotRing.prod s + 2 ^ 32 - hotRing.cons s) % 2 ^ 32)

/-- Hub firmware takes `k` entries from the hot list in ring order and queues their promotions (R202); an entry that names no
granule is passed over. -/
def takeHot : Nat → State → State
  | 0, s => s
  | k + 1, s =>
    let v := leNat (hubView s (getF s rHotBase fHotBaseBase * 4096 + hotRing.cons s % 2 ^ hotRing.log2 s * 8) 8)
    let s := advance s rHotPtr fHotPtrConsumer 1
    takeHot k (if v % 2 ^ 20 < 786432 then queuePromotion s (v % 2 ^ 20) (natField v 35 20) (astagPart s (natField v 35 20)) else s)

/-- Under POLICY 0 hub firmware promotes every reported granule in ring order (R202). -/
def promoteHot (s : State) : State := if getF s rMigCfg fMigCfgPolicy = 0 then takeHot (hotWaiting s) s else s

/-- A granule reported hot (R200, R201). A report that finds the ring full is dropped and re-armed; a ring whose place R187
refuses takes no report either, and the report is dropped in the same way (DESIGN CHOICE, log 116). -/
def hotReport (s : State) (g astag : Nat) (first : Bool) : State :=
  let x := gran s g
  if hotRing.full s || !hotRing.placed s 8 then setGran (bump s rHotDrop fHotDrop 1) g { x with reported := false, first := false }
  else promoteHot (hotRing.put (setGran s g { x with reported := true, first := x.first || first }) (hotEntry g astag x.heat first))

/-- An access of `lines` lines reaches granule g of a range with a hint (R200, R209): the age restarts; in RESIDENT_LOW a
granule of an AUTO or HIGH_FIRST range is sampled, one access in 2^SAMPLE_LOG2, and a HIGH_FIRST granule is reported at its
first access, sampled or not (R196). -/
def touchGranule (s : State) (g astag hint lines : Nat) : State :=
  let x := gran s g
  if x.state = 2 then setGran s g { x with age := 0 }
  else if x.state ≠ 0 then s
  else if hint = 1 ∨ hint = 2 then
    let k := getF s rMigCfg fMigCfgSampleLog2
    let before := s.hub.sampleCtr
    let after := before + lines
    let n := after / 2 ^ k - before / 2 ^ k
    let heat := min 255 (x.heat + n)
    let s := { s with hub := { s.hub with sampleCtr := after % 2 ^ 32 } }
    let s := if n = 0 then s else setGran s g { x with heat := heat }
    if hint = 2 ∧ ¬x.first then hotReport s g astag true
    else if heat ≥ getF s rMigCfg fMigCfgHotThresh ∧ ¬x.reported ∧ n ≠ 0 then hotReport s g astag false else s
  else s

/-- Every granule that a span touches, at its home or at its frame. -/
def touchSpan (s : State) (a n astag hint : Nat) : State :=
  (granulesOf a n).foldl (fun s g =>
    let lo := max a (g * granBytes)
    let hi := min (a + n) (g * granBytes + granBytes)
    touchGranule s g astag hint (linesOf lo (hi - lo)).length) ((if n = 0 then [] else framesOf s a n).foldl touchFrame s)

/-! ### Pools (R208 to R211) -/

/-- The valid account of an ASTAG in the active set (R210). -/
def poolAcct (s : State) (astag part : Nat) : Option Nat :=
  (List.range 256).find? (fun i => getB s (rPoolAcct i) fPoolAcctValid && decide (getF s (rPoolAcct i) fPoolAcctAstag = astag) &&
    decide (getF s (rPoolAcct i) fPoolAcctPartition = part))

/-- Floor and ceiling of a context (R210). -/
def poolFloor (s : State) (astag part : Nat) : Nat :=
  match poolAcct s astag part with
  | some i => getF s (rPoolAcct i) fPoolAcctFloor
  | none => 0
def poolCeiling (s : State) (astag part : Nat) : Nat :=
  match poolAcct s astag part with
  | some i => getF s (rPoolAcct i) fPoolAcctCeiling
  | none => objNat s (oPoolFramesP part)

/-- Granules that hold a frame charged to a context; a context without an account is charged with the partition's other
such contexts (R210, R211). -/
def chargedTo (s : State) (astag part : Nat) (x : Gran) : Bool :=
  decide (x.state ≠ 0) && decide (x.part = part) &&
    (match poolAcct s astag part with
      | some _ => decide (x.astag = astag) && !x.unacct
      | none => decide (poolAcct s x.astag part = none) || x.unacct)
def poolCharge (s : State) (astag part : Nat) : Nat := (s.hub.grans.filter (fun g => chargedTo s astag part g.2)).length

/-- Frames a partition holds. -/
def partFrames (s : State) (part : Nat) : Nat :=
  (s.hub.grans.filter (fun g => decide (g.2.state ≠ 0) && decide (g.2.part = part))).length

/-- A pool frame that nobody holds and that no repair withdrew (R395). -/
def freeFrame (s : State) : Option Nat :=
  ((List.range (poolFrames s)).map (fun i => poolFirst s + i)).find? (fun f =>
    !(s.hub.grans.any (fun g => decide (g.2.state ≠ 0) && decide (g.2.frame = f))) && !s.hub.badFrames.elem f)

/-- The older of two RESIDENT_HIGH granules: the higher age, among equal ages the lower index (R209). -/
def older (a b : Nat × Gran) : Nat × Gran :=
  if b.2.age > a.2.age ∨ (b.2.age = a.2.age ∧ b.1 < a.1) then b else a

/-- The oldest RESIDENT_HIGH granule with a property that no waiting promotion has chosen yet. -/
def oldest (s : State) (f : Gran → Bool) : Option Nat :=
  match s.hub.grans.filter (fun g => decide (g.2.state = 2) && f g.2 && !s.hub.migQ.any (fun m => decide (m.victim = some g.1))) with
  | [] => none
  | g :: gs => some (gs.foldl older g).1

/-- Where a promotion's frame comes from (R210). -/
inductive FrameChoice
  | free (f : Nat)
  | victim (g : Nat)
  | refused
deriving DecidableEq, Repr

/-- The frame for a promotion charged to `astag` of partition `part`, in the order of R210. -/
def chooseFrame (s : State) (astag part : Nat) : FrameChoice :=
  let victim (f : Gran → Bool) : FrameChoice := match oldest s f with
    | some g => .victim g
    | none => .refused
  if poolCharge s astag part ≥ poolCeiling s astag part then victim (chargedTo s astag part)
  else
    match (if partFrames s part < objNat s (oPoolFramesP part) then freeFrame s else none) with
    | some f => .free f
    | none => victim (fun x => decide (x.part = part) && decide (if x.unacct then True else poolCharge s x.astag part > poolFloor s x.astag part))

/-- Migrations running (R202). -/
def migInFlight (s : State) : Nat := (s.hub.grans.filter (fun g => decide (g.2.state = 1) || decide (g.2.state = 3))).length

end Sys2Proof.Machine
end

