-- ==== Sys2Proof/Machine/Xlate.lean ====
section
/-! DEFINITION. Range translation (R243 to R256): the walk of a range table, the range caches, permissions, and the access
of a unit to a span of virtual addresses. A translation is done whole within the command that needs it; its times (R251)
are left out. -/

namespace Sys2Proof.Machine

open Sys2Proof

/-! ### Fault causes (R255) -/

def fNoRange : Nat := 1
def fNoRoot : Nat := 2
def fPermRead : Nat := 3
def fPermWrite : Nat := 4
def fPermExec : Nat := 5
def fPermRemote : Nat := 6
def fBadEntry : Nat := 7
def fRefused : Nat := 8
def fConsultRefused : Nat := 9
def fConsultTimeout : Nat := 10
def fReplayLimit : Nat := 11

/-- Completion statuses (R149). -/
def stOk : Nat := 0
def stCancelled : Nat := 1
def stFaultTranslation : Nat := 2
def stFaultPermission : Nat := 3
def stPoison : Nat := 4
def stAbft : Nat := 5
def stStale : Nat := 6
def stTimeout : Nat := 7
def stStepVoid : Nat := 8
def stFormat : Nat := 9
def stResource : Nat := 10

/-- The completion status of a fault cause (R255). -/
def causeStatus (c : Nat) : Nat := if c = 1 ∨ c = 2 ∨ c = 9 ∨ c = 10 then stFaultTranslation else stFaultPermission

/-! ### Range entries (R244) -/

/-- What a walk or a lookup gives. -/
inductive WalkRes
  /-- A fault with its cause, and whether it takes the replay path (R256). -/
  | fault (cause : Nat) (replay : Bool)
  /-- The resolved entry has CONSULT = 1 (R252). -/
  | consult (e : RcEntry)
  | entry (e : RcEntry)
deriving DecidableEq, Repr

/-- A canonical Sv57 address: bits 63 to 57 equal bit 56 (R246). -/
def canonical57 (a : Nat) : Bool := decide (a / 2 ^ 56 = 0) || decide (a / 2 ^ 56 = 2 ^ 8 - 1)

/-- The tier hint in force: codes 1 to 3 count only for a range in the bulk tier (R197). -/
def effHint (s : State) (hint mpa : Nat) : Nat := if regionOf s mpa = some .bulk then hint else 0

/-- The bias in force: a range over engine SRAM or the flash window behaves as DEVICE (R275). -/
def effShared (s : State) (shared : Bool) (mpa : Nat) : Bool :=
  match regionOf s mpa with
  | some (.sram _) | some .flash => false
  | _ => shared

/-- The checks of R246 on an entry's bytes for the table of `astag`, of partition `part`. -/
def entryOk (s : State) (astag part : Nat) (bs : Bytes) : Bool :=
  let w := u64At bs 0
  let start := u64At bs 8
  let len := u64At bs 16
  let mpa := u64At bs 24
  let hint := natField w 7 6
  decide (natField w 15 10 = 0) && decide (natField w 63 32 = 0) && decide (natField w 31 16 = astag) &&
  decide (start % 65536 = 0) && decide (len % 65536 = 0) && decide (65536 ≤ len) && decide (len ≤ 2 ^ 48) &&
  decide (mpa % 65536 = 0) && decide (mpa < 2 ^ 50) && canonical57 start &&
  (match spanRegion s mpa len with
    | none | some .mmio => false
    | some (.direct _) => directOpen s mpa len
    | some .spread => decide (effHint s hint mpa ≠ 0) || decide (mpa + len ≤ frameAddr (poolFirst s))
    | some _ => true) &&
  inShare s part mpa len

/-- An entry's bytes as a cache entry of the whole range. -/
def entryWhole (s : State) (astag part : Nat) (rootReplay : Bool) (bs : Bytes) : RcEntry :=
  let w := u64At bs 0
  let mpa := u64At bs 24
  { astag := astag, start := u64At bs 8, len := u64At bs 16, mpa := mpa
    r := bitOf w 1, w := bitOf w 2, x := bitOf w 3, remote := bitOf w 4, shared := effShared s (bitOf w 5) mpa
    hint := effHint s (natField w 7 6) mpa, replay := bitOf w 8, rootReplay := rootReplay, part := part, consulted := false }

/-- The cache entry for the access to `va`: the whole range, or the part within one granule for a DEVICE-bias AUTO or
HIGH_FIRST range, at the frame when the granule is RESIDENT_HIGH (R250). -/
def entryAt (s : State) (e : RcEntry) (va : Nat) : RcEntry :=
  if !e.shared && (decide (e.hint = 1) || decide (e.hint = 2)) then
    let a := e.mpa + (va - e.start)
    let g := a / granBytes
    let lo := max e.mpa (g * granBytes)
    let hi := min (e.mpa + e.len) (g * granBytes + granBytes)
    let at_ := if (gran s g).state = 2 then frameAddr (gran s g).frame + lo % granBytes else lo
    { e with start := e.start + (lo - e.mpa), len := hi - lo, mpa := at_ }
  else e

/-- Binary search of a table of `n` entries at `t` for the greatest START not above `va`, with the entries compared. -/
def searchTable (s : State) (t va : Nat) : Nat → Nat → Nat → List Nat → Nat × List Nat
  | 0, lo, _, seen => (lo, seen)
  | k + 1, lo, hi, seen =>
    if hi ≤ lo + 1 then (lo, seen)
    else
      let mid := (lo + hi) / 2
      if u64At (hubView s (t + 32 * mid + 8) 8) 0 ≤ va then searchTable s t va k mid hi (mid :: seen)
      else searchTable s t va k lo mid (mid :: seen)

/-- The table is sorted by START, as a coherent agent sees it (R244). -/
def tableSorted (s : State) (t n : Nat) : Bool :=
  (List.range (n - 1)).all (fun i => decide (leNat (hubView s (t + 32 * i + 8) 8) < leNat (hubView s (t + 32 * (i + 1) + 8) 8)))

/-- A line of memory read by a unit of the hub is poisoned. -/
def hubPoison (s : State) (a n : Nat) : Bool := mpaPoisoned s a n

/-- The walk (R244 to R246). In an unsorted table the entry is a free choice among the table's own (R245). The compared
entries are those of a binary search (DESIGN CHOICE, log 9). -/
def walk (s : State) (astag part va : Nat) : State × WalkRes :=
  if ¬getB s rRhRoot fRhRootEnable then (s, .fault fNoRoot false)
  else
    let s := bump s rRhWalks fRhWalksCount 1
    let ra := rootBase s + 16 * astag
    if spanRegion s ra 16 ≠ some .bulk then (s, .fault fNoRoot false)
    else if hubPoison s ra 16 then (s, .fault fNoRoot false)
    else
      let rb := hubView s ra 16
      let s := hubTouch s ra 16
      let t := u64At rb 0
      let n := u32At rb 8
      let fl := u8At rb 12
      let rr := bitOf fl 5
      if ¬bitOf fl 4 ∨ 2 ^ 50 ≤ t ∨ 64 ≤ fl ∨ ¬zeroSpan rb 13 3 ∨ fl % 16 ≠ part ∨ t % 32 ≠ 0 ∨ 1048576 < n ∨
          (bulkBytes < t + 32 * n ∨ bulkBytes ≤ t) then (s, .fault fNoRoot rr)
      else
        if n = 0 then (s, .fault fNoRange rr)
        else
          let (i, seen) := searchTable s t va (clog2 n + 1) 0 n []
          let sorted := tableSorted s t n
          let (f, s') := drawFree s
          let i := if sorted then i else f.toNat % n
          let s := (i :: seen).foldl (fun s j => hubTouch s (t + 32 * j) 32) (if sorted then s else s')
          if (i :: seen).any (fun j => hubPoison s (t + 32 * j) 32) then
            (bump s rRhBadEntry fRhBadEntryCount 1, .fault fBadEntry rr)
          else
            let bs := hubView s (t + 32 * i) 32
            let start := u64At bs 8
            let len := u64At bs 16
            if ¬bitOf (u64At bs 0) 0 ∨ va < start ∨ start + len ≤ va then (s, .fault fNoRange rr)
            else if ¬entryOk s astag part bs then
              (bump s rRhBadEntry fRhBadEntryCount 1, .fault fBadEntry (rr || bitOf (u64At bs 0) 8))
            else
              let mpa := u64At bs 24
              let s := if natField (u64At bs 0) 7 6 ≠ 0 ∧ effHint s (natField (u64At bs 0) 7 6) mpa = 0 then
                bump s rHintIgnored fHintIgnored 1 else s
              let e := entryWhole s astag part rr bs
              if bitOf (u64At bs 0) 9 then (s, .consult e) else (s, .entry (entryAt s e va))

/-! ### Range caches (R249) -/

/-- A cache: an engine's, or the hub's. -/
def rcOf (s : State) : Option Nat → List RcEntry
  | some e => (engAux s e).rc
  | none => s.hub.rc

def rcSize : Option Nat → Nat
  | some _ => 256
  | none => 2048

def setRc (s : State) (c : Option Nat) (l : List RcEntry) : State :=
  match c with
  | some e => setEngAux s e { engAux s e with rc := l }
  | none => { s with hub := { s.hub with rc := l } }

/-- An entry covers an address of an address space. -/
def RcEntry.covers (e : RcEntry) (astag va : Nat) : Bool :=
  decide (e.astag = astag) && decide (e.start ≤ va) && decide (va < e.start + e.len)

/-- An entry installed as the most recently used; the least recently used falls out (R249). -/
def rcInstall (s : State) (c : Option Nat) (e : RcEntry) : State :=
  setRc s c ((e :: (rcOf s c).filter (fun x => decide (x ≠ e))).take (rcSize c))

/-- A lookup: a hit makes its entry the most recently used. -/
def rcLookup (s : State) (c : Option Nat) (astag va : Nat) : State × Option RcEntry :=
  match (rcOf s c).find? (fun e => e.covers astag va) with
  | some e =>
    let s := setRc s c (e :: (rcOf s c).filter (fun x => decide (x ≠ e)))
    (match c with | some i => bump s (rRcHits i) fRcHitsHits 1 | none => s, some e)
  | none => (match c with | some i => bump s (rRcMisses i) fRcMissesMisses 1 | none => s, none)

/-- The effect of FLUSH_TAG's start (R253): the entries of an ASTAG, or all, leave every range cache, and its walks and consults start again. -/
def flushCaches (s : State) (astag : Nat) (all : Bool) : State :=
  let keep (e : RcEntry) : Bool := !all && decide (e.astag ≠ astag)
  let mark (l : List Walk) : List Walk := l.map (fun (w : Walk) => if all || decide (w.req.astag.toNat = astag) then { w with restart := true } else w)
  let s := { s with hub := { s.hub with
    rc := s.hub.rc.filter keep, walks := mark s.hub.walks,
    consults := s.hub.consults.map (fun (c : Consult) => if all || decide (c.req.astag.toNat = astag) then { c with restart := true } else c) } }
  { s with eng := { s.eng with engs := s.eng.engs.map (fun (x : Nat × EngAux) => (x.1, { x.2 with rc := x.2.rc.filter keep, walks := mark x.2.walks })) } }

/-- A software flush that has completed. -/
def flushDone (s : State) (f : Flush) : State := if f.software then advance s rRhFlushStatus fRhFlushStatusDone 1 else s

/-- Requests translated before the flush that have not completed: those that waited already when it started. A write that waits
for the migration that the flush serves is held at the hub and is not in flight (R205, R206). -/
def flushPending (s : State) (f : Flush) : Bool :=
  s.hub.stalled.any (fun x => (f.all || decide (x.req.astag.toNat = f.astag)) && decide (x.id < f.started.getD s.hub.nextId) &&
    (match f.gran with
      | some g => !(granulesOf x.req.mpa.toNat (max x.req.len x.req.data.length)).elem g
      | none => true))

/-- The flushes at the front of the queue run in order (R253, R254): each drops its entries as it starts; one without DRAIN is
then complete, one with DRAIN stays until its requests have completed (software's until FLUSH_TAG_DONE). -/
def runFlushes (s : State) : List Flush → State
  | [] => { s with hub := { s.hub with flushQ := [] } }
  | f :: l =>
    let (s, f) : State × Flush := match f.started with
      | some _ => (s, f)
      | none => (flushCaches s f.astag f.all, { f with started := some s.hub.nextId })
    if f.drain && (f.software || flushPending s f) then { s with hub := { s.hub with flushQ := f :: l } } else runFlushes (flushDone s f) l

/-- The queue runs on, and the migration engine's flushes take the room that it leaves (R254). -/
def pumpFlushes (s : State) : State :=
  let s := runFlushes s (s.hub.flushQ ++ s.hub.flushWait)
  { s with hub := { s.hub with flushQ := s.hub.flushQ.take 16, flushWait := s.hub.flushQ.drop 16 } }

/-- The ASTAGs whose cached entries map a granule, at its home or its frame. -/
def granTags (s : State) (g : Nat) : List Nat :=
  let maps (e : RcEntry) : Bool :=
    (decide (e.mpa < (g + 1) * granBytes) && decide (g * granBytes < e.mpa + e.len)) ||
      (decide ((gran s g).state ≠ 0) && decide (e.mpa < frameAddr ((gran s g).frame + 1)) && decide (frameAddr (gran s g).frame < e.mpa + e.len))
  (((s.hub.rc ++ s.eng.engs.flatMap (fun x => x.2.rc)).filter maps).map (fun e => e.astag)).dedup

/-- FLUSH_TAG of every ASTAG that maps a granule, for its migration (R204, R205): queued behind the others, waiting for room
where 16 are queued (R254). A demotion's flushes drain. -/
def flushGranule (s : State) (g : Nat) (drain : Bool) : State :=
  let fs : List Flush := (granTags s g).map (fun t => { astag := t, all := false, drain := drain, software := false, gran := some g })
  pumpFlushes { s with hub := { s.hub with flushWait := s.hub.flushWait ++ fs } }

/-- A flush for the granule's migration has not completed. -/
def granFlushing (s : State) (g : Nat) : Bool := (s.hub.flushQ ++ s.hub.flushWait).any (fun f => decide (f.gran = some g))

/-! ### Translation of an address (R255, R256) -/

/-- What a unit asks of a translation. -/
structure XReq where
  /-- The cache used: an engine's, or the hub's. -/
  cache  : Option Nat
  /-- The requester the memory controller sees (R367). -/
  ag     : Agent
  astag  : Nat
  part   : Nat
  write  : Bool
  read   : Bool
  exec   : Bool := false
  remote : Bool := false
  /-- UNIT code of the fault record (R260). -/
  unit   : Nat
  /-- Permissions are not looked at: PREFETCH (R167). -/
  noPerm : Bool := false
  /-- TIER_TIMEOUT has answered the request: it waits no longer (R213). -/
  noWait : Bool := false
  /-- What lies on a removed die is left out of the write (R32). -/
  absent : Bool := false

/-- A piece of a span: where it lies and how it is reached. -/
structure Piece where
  va     : Nat
  mpa    : Nat
  n      : Nat
  shared : Bool
  hint   : Nat
  astag  : Nat
deriving DecidableEq, Repr

/-- The answer to a translation. -/
inductive XRes
  | ok (ps : List Piece)
  /-- A fault at an address with its cause; whether it takes the replay path. -/
  | fault (va cause : Nat) (replay : Bool)
  /-- A CONSULT range at an address: its entry must be asked for (R252). -/
  | consult (va : Nat) (e : RcEntry)
  /-- The access waits for a migration (R206) or a line held under R271. -/
  | wait (ps : List Piece)
deriving DecidableEq, Repr

/-- The first permission of R255 that an access lacks. Another module's write needs R as well (R328); with W alone it lacks R (DESIGN
CHOICE, log 120). -/
def permFault (e : RcEntry) (q : XReq) : Option Nat :=
  if q.noPerm then none
  else if q.remote ∧ ¬e.remote then some fPermRemote
  else if q.exec ∧ ¬e.x then some fPermExec
  else if q.read ∧ ¬e.r then some fPermRead
  else if q.write ∧ ¬e.w then some fPermWrite
  else if q.remote ∧ ¬e.r then some fPermRead
  else none

/-- The entry for an address: from the cache, or by a walk whose entry is installed (R249). -/
def lookupEntry (s : State) (q : XReq) (va : Nat) : State × WalkRes :=
  match rcLookup s q.cache q.astag va with
  | (s, some e) => (s, .entry e)
  | (s, none) =>
    match walk s q.astag q.part va with
    | (s, .entry e) => (rcInstall s q.cache e, .entry e)
    | (s, r) => (s, r)

/-- One piece of a span from `va` up, of at most `n` bytes. -/
def xlatePiece (s : State) (q : XReq) (va n : Nat) : State × XRes :=
  match lookupEntry s q va with
  | (s, .fault c r) => (s, .fault va c r)
  | (s, .consult e) => (s, .consult va e)
  | (s, .entry e) =>
    match permFault e q with
    | some c => (s, .fault va c (e.replay || e.rootReplay))
    | none =>
      let k := min n (e.start + e.len - va)
      let mpa := e.mpa + (va - e.start)
      let kept := q.write && q.absent
      if !q.noPerm && (!mpaAdmits s q.ag mpa k (q.write && !q.absent) || (kept && decide (spanRegion s mpa k = some .flash))) then (s, .fault va fRefused (e.replay || e.rootReplay))
      else (s, .ok [{ va := va, mpa := mpa, n := k, shared := e.shared, hint := e.hint, astag := q.astag }])

/-- A whole span, piece by piece; `fuel` bounds the pieces. -/
def xlateFrom (s : State) (q : XReq) : Nat → Nat → Nat → List Piece → State × XRes
  | 0, _, _, acc => (s, .ok acc)
  | k + 1, va, n, acc =>
    if n = 0 then (s, .ok acc)
    else
      match xlatePiece s q va n with
      | (s, .ok ps) =>
        let m := (ps.map (fun p => p.n)).sum
        xlateFrom s q k (va + m) (n - m) (acc ++ ps)
      | (s, r) => (s, r)

/-- An access to a piece waits: a write that meets a migration (R206), any access that meets a SHARED line within its hold
(R271), or one behind a waiting write of the hub (R269). -/
def pieceWaits (s : State) (write : Bool) (p : Piece) : Bool :=
  (write && migrationStalls s p.mpa p.n) ||
    (p.shared && (spanHeld s p.mpa p.n || s.hub.writes.any (fun w => (linesOf w.addr w.data.length).any (fun l => (linesOf p.mpa p.n).elem l))))

/-- A span of `n` bytes at `va` translated, every piece admitted; an access that a piece holds back waits (R206, R271). -/
def xlate (s : State) (q : XReq) (va n : Nat) : State × XRes :=
  match xlateFrom s q (n / 65536 + 2) va n [] with
  | (s, .ok ps) => if !q.noWait && ps.any (pieceWaits s q.write) then (s, .wait ps) else (s, .ok ps)
  | (s, r) => (s, r)

/-! ### Access to the pieces -/

/-- The bytes of a span as the reading unit sees them: a current read of SHARED lines (R272), memory of DEVICE lines. -/
def piecesRead (s : State) (ps : List Piece) : Bytes :=
  ps.flatMap (fun p => if p.shared then cohRead s p.mpa p.n else mpaRead s p.mpa p.n)

/-- Whether a line of the span is poisoned. -/
def piecesPoisoned (s : State) (ps : List Piece) : Bool := ps.any (fun p => mpaPoisoned s p.mpa p.n)

/-- The offsets, 64-byte units of the span as the pieces cut it, whose source line is poisoned: byte offset and length. -/
def piecesPoison (s : State) (ps : List Piece) : List (Nat × Nat) :=
  (ps.foldl (fun (acc : Nat × List (Nat × Nat)) p =>
    (acc.1 + p.n, acc.2 ++ ((linesOf p.mpa p.n).filter (fun l => linePoisoned s (locate s (64 * l) / 64))).map (fun l =>
      let lo := max p.mpa (64 * l)
      let hi := min (p.mpa + p.n) (64 * l + 64)
      (acc.1 + (lo - p.mpa), hi - lo)))) (0, [])).2

/-- The first poisoned address of the span. -/
def firstPoison (s : State) (ps : List Piece) : Nat :=
  match (ps.flatMap (fun p => linesOf p.mpa p.n)).find? (fun l => linePoisoned s (locate s (64 * l) / 64)) with
  | some l => 64 * l
  | none => 0

/-- Reads are counted: heat and age of the granules, supplies of owners (R200, R209, R272). -/
def piecesTouch (s : State) (ps : List Piece) : State :=
  ps.foldl (fun s p => touchSpan (if p.shared then bump s rOwnerSupply fOwnerSupply (ownedLines s p.mpa p.n) else s) p.mpa p.n p.astag p.hint) s

/-- A byte string written over the pieces (R273 for SHARED lines). -/
def piecesWrite (s : State) (ps : List Piece) (bs : Bytes) : State :=
  (ps.foldl (fun (acc : State × Bytes) p =>
    let s := acc.1
    let s := if p.shared then cohWrite s p.mpa (acc.2.take p.n) else mpaWrite s p.mpa (acc.2.take p.n)
    (wakeAt (touchSpan s p.mpa p.n p.astag p.hint) p.mpa, acc.2.drop p.n)) (s, bs)).1

/-- Zeros written over the pieces. -/
def piecesZero (s : State) (ps : List Piece) : State := piecesWrite s ps (List.replicate ((ps.map (fun p => p.n)).sum) 0)

/-- Poison delivered at offset `o`, length `n`, of the span: every destination line that holds one of those bytes (R214). -/
def piecesDeliver (s : State) (ps : List Piece) (o n : Nat) : State :=
  (ps.foldl (fun (acc : State × Nat) p =>
    let lo := max o acc.2
    let hi := min (o + n) (acc.2 + p.n)
    (if lo < hi then mpaPoison acc.1 (p.mpa + (lo - acc.2)) (hi - lo) else acc.1, acc.2 + p.n)) (s, 0)).1

/-- The contents of the pieces become undefined. -/
def piecesScramble (s : State) (ps : List Piece) : State :=
  let k := s.freeCtr
  ps.foldl (fun s p => mpaWrite s p.mpa ((List.range p.n).map (fun i => Config.freeByte k (p.mpa + i)))) { s with freeCtr := k + 1 }

end Sys2Proof.Machine
end

