-- ==== Sys2Proof/Machine/Bobbin.lean ====
section
/-! DEFINITION. Context slots, bobbins (R155 to R159) and task slots (R126 to R131): what is kept of them and how they
change. -/

namespace Sys2Proof.Machine

open Sys2Proof

/-! ### Context slots -/

def ctxAstag (s : State) (e n : Nat) : Nat := getF s (rCtxCfg e n) fCtxCfgAstag
def ctxPart (s : State) (e n : Nat) : Nat := getF s (rCtxCfg e n) fCtxCfgPartition
def ctxValid (s : State) (e n : Nat) : Bool := getB s (rCtxCfg e n) fCtxCfgValid
def ctxAux (s : State) (e n : Nat) : CtxAux := mapGet s.eng.ctxs (e, n) {}
def setCtxAux (s : State) (e n : Nat) (x : CtxAux) : State :=
  { s with eng := { s.eng with ctxs := mapSet s.eng.ctxs (e, n) x } }

/-! ### Bobbins -/

/-- Bobbin states (R156). -/
def bUnalloc : Nat := 0
def bEmpty : Nat := 1
def bFilling : Nat := 2
def bReady : Nat := 3

def bobAux (s : State) (e b : Nat) : BobAux := mapGet s.eng.bobs (e, b) {}
def setBobAux (s : State) (e b : Nat) (x : BobAux) : State := { s with eng := { s.eng with bobs := mapSet s.eng.bobs (e, b) x } }
def bobState (s : State) (e b : Nat) : Nat := getF s (rBobState e b) fBobStateState
def bobMarked (s : State) (e b : Nat) : Bool := getB s (rBobState e b) fBobStateMarked
def bobRemaining (s : State) (e b : Nat) : Nat := getF s (rBobState e b) fBobStateRemaining
def bobOwner (s : State) (e b : Nat) : Nat := getF s (rBobCfg e b) fBobCfgOwner
def bobStaging (s : State) (e b : Nat) : Bool := getB s (rBobCfg e b) fBobCfgStaging
/-- The bobbin is allocated to context slot n. -/
def bobOwned (s : State) (e n b : Nat) : Bool := getB s (rBobCfg e b) fBobCfgValid && decide (bobOwner s e b = n)
/-- Bytes of a bobbin, and the MPA of its first byte. -/
def bobSize (s : State) (e b : Nat) : Nat := 65536 * 2 ^ getF s (rBobCfg e b) fBobCfgSize
def bobBase (s : State) (e b : Nat) : Nat := sramAddr e (65536 * getF s (rBobCfg e b) fBobCfgBase)

/-- A refused transition or mark counted in BOB_ERR of a context (R156, R158). -/
def bobErr (s : State) (e n : Nat) : State := bump s (rBobErr e n) fBobErrCount 1

/-- BOB_STATE_n written: state, holder, mark and remaining reads. -/
def setBob (s : State) (e b st holder : Nat) (marked : Bool) (rem : Nat) : State :=
  let s := setF s (rBobState e b) fBobStateState st
  let s := setF s (rBobState e b) fBobStateHolder holder
  let s := setB s (rBobState e b) fBobStateMarked marked
  setF s (rBobState e b) fBobStateRemaining rem

/-- A bobbin EMPTY (R156). -/
def bobToEmpty (s : State) (e b : Nat) : State := setBobAux (setBob s e b bEmpty 0 false 0) e b {}

/-- A bobbin FILLING under a command, which with CONT leaves it to a later one (R157). -/
def bobFill (s : State) (u : SpoolId) (slot b : Nat) (cont : Bool) : State :=
  setBobAux (setBob s u.e b bFilling u.s.val false 0) u.e b { writer := some (u, slot), cont := cont }

/-! ### Tasks -/

/-- Task slot states (R127). -/
def tFree : Nat := 0
def tQueued : Nat := 1
def tReady : Nat := 2
def tRunning : Nat := 3
def tWaiting : Nat := 4

def task (s : State) (e i : Nat) : Task := mapGet s.eng.tasks (e, i) {}
def setTask (s : State) (e i : Nat) (t : Task) : State := { s with eng := { s.eng with tasks := mapSet s.eng.tasks (e, i) t } }
def taskState (s : State) (e i : Nat) : Nat := getF s (rSchedSlot e i) fSchedSlotState
def setTaskState (s : State) (e i st : Nat) : State := setF s (rSchedSlot e i) fSchedSlotState st
def taskOwner (s : State) (e i : Nat) : Nat := getF s (rSchedSlot e i) fSchedSlotOwner

/-- Spindle core states (SPN_STATE_n). -/
def cReset : Nat := 0
def cIdle : Nat := 1
def cRunning : Nat := 2
def cHalted : Nat := 4

def coreState (s : State) (e k : Nat) : Nat := getF s (rSpnState e k) fSpnStateState
def coreSlot (s : State) (e k : Nat) : Nat := getF s (rSpnState e k) fSpnStateSlot

/-- The core that runs a task idles (R129); a halted one stays halted, without the task. -/
def freeCore (s : State) (e i : Nat) : State :=
  match (List.range 4).find? (fun k => decide (coreState s e k = cRunning) && decide (coreSlot s e k = i)) with
  | some k => setF (setF s (rSpnState e k) fSpnStateState cIdle) (rSpnState e k) fSpnStateSlot 0
  | none =>
    let t := task s e i
    if t.haltedAt.isSome then
      setF (setTask s e i { t with haltedAt := none }) (rSpnState e (getF s (rSchedSlot e i) fSchedSlotCore)) fSpnStateSlot 0
    else s

/-- Time a task has spent RUNNING and WAITING (R131); it does not pass while the task's core is halted (R453). -/
def taskUsed (s : State) (e i : Nat) : Nat :=
  let t := task s e i
  if taskState s e i = tRunning ∨ taskState s e i = tWaiting then t.used + (t.haltedAt.getD s.time - t.ranAt) else t.used

/-- A task becomes READY: its core, if it has one, is given up (R128, R129). -/
def taskToReady (s : State) (e i : Nat) : State :=
  let t := { task s e i with used := taskUsed s e i, readyAt := s.time, await := none, stalled := false }
  let s := if taskState s e i = tRunning then freeCore s e i else s
  setTaskState (setTask s e i t) e i tReady

/-- Tasks whose bobbins have become ready: WAITING tasks that await one, QUEUED tasks whose inputs are all ready (R127). -/
def wakeTasks (s : State) (e : Nat) : State :=
  (List.range 16).foldl (fun s i =>
    let t := task s e i
    if taskState s e i = tWaiting then
      match t.await with
      | some b => if bobState s e b = bReady then taskToReady s e i else s
      | none => s
    else if taskState s e i = tQueued then
      if t.inputs.all (fun b => decide (bobState s e b = bReady)) then taskToReady s e i else s
    else s) s

/-- A bobbin READY with a read count; a count of 0 given means the configured one (R157). -/
def bobToReady (s : State) (e b readers : Nat) : State :=
  let rem := if readers = 0 then getF s (rBobCfg e b) fBobCfgReaders else readers
  wakeTasks (setBobAux (setBob s e b bReady 0 false rem) e b {}) e

/-- One read of a bobbin counted for a context (R158): the last one empties it, 0 remaining is unlimited; a bobbin that is
not READY takes no read and the count is an error. -/
def bobRead (s : State) (e n b : Nat) : State :=
  if bobState s e b ≠ bReady then bobErr s e n
  else
    match bobRemaining s e b with
    | 0 => s
    | 1 => bobToEmpty s e b
    | k + 2 => setF s (rBobState e b) fBobStateRemaining (k + 1)

/-- Every READY bobbin of a context slot released (R168). -/
def releaseAll (s : State) (e n : Nat) : State :=
  (List.range 256).foldl (fun s b => if bobOwned s e n b ∧ bobState s e b = bReady then bobToEmpty s e b else s) s

end Sys2Proof.Machine
end

