-- ==== Sys2Proof/Machine/Spool.lean ====
section
/-! DEFINITION. Spools (R141 to R154): the fetch buffer and the counts, completion records and their ring, fault records
(R260), the kill path (R257), the replay path (R258, R259) and cancellation (R168, R169). -/

namespace Sys2Proof.Machine

open Sys2Proof

/-! ### Spool records -/

def spool (s : State) (u : SpoolId) : Spool := mapGet s.eng.spools u {}

/-- The first slot whose command has not started, and the oldest slot whose command has not completed (R142). -/
def Spool.started (sp : Spool) : Nat := match sp.cmds.find? (fun c => decide (c.phase = .fetched)) with
  | some c => c.slot
  | none => sp.fetched
def Spool.done (sp : Spool) : Nat := match sp.cmds with
  | c :: _ => c.slot
  | [] => sp.fetched

/-- n and m: the ring sizes. -/
def sqLog2 (s : State) (u : SpoolId) : Nat := getF s (rSpCfg u.e u.n u.s) fSpCfgSqLog2
def cqLog2 (s : State) (u : SpoolId) : Nat := getF s (rSpCfg u.e u.n u.s) fSpCfgCqLog2
def cqTail (s : State) (u : SpoolId) : Nat := (getR s (rCqPtr u.e u.n u.s)).toNat % 2 ^ 32
def cqHeadOf (s : State) (u : SpoolId) : Nat := (getR s (rCqPtr u.e u.n u.s)).toNat / 2 ^ 32
def cqFull (s : State) (u : SpoolId) : Bool := decide (2 ^ cqLog2 s u ≤ (cqTail s u + 2 ^ 32 - cqHeadOf s u) % 2 ^ 32)

/-- The spool's record with the registers that show it: SQ_HEAD and SP_STATUS.CQ_FULL. -/
def setSpool (s : State) (u : SpoolId) (sp : Spool) : State :=
  let s := { s with eng := { s.eng with spools := mapSet s.eng.spools u sp } }
  let s := setR s (rSqHead u.e u.n u.s) (BitVec.ofNat 64 (sp.started % 2 ^ 32 + 2 ^ 32 * (sp.done % 2 ^ 32)))
  setB s (rSpStatus u.e u.n u.s) fSpStatusCqFull (!sp.held.isEmpty && cqFull s u)

/-- Spool states (SP_STATUS). -/
def spDisabled : Nat := 0
def spActive : Nat := 1
def spStopped : Nat := 2
def spKilled : Nat := 3
def spCancelling : Nat := 4

def spState (s : State) (u : SpoolId) : Nat := getF s (rSpStatus u.e u.n u.s) fSpStatusState
def setSpState (s : State) (u : SpoolId) (st : Nat) : State := setF s (rSpStatus u.e u.n u.s) fSpStatusState st
/-- TAIL, the last accepted doorbell. -/
def sqTail (s : State) (u : SpoolId) : Nat := (getR s (rSqTail u.e u.n u.s)).toNat % 2 ^ 32
/-- The spool s of the same context slot. -/
def sibling (u : SpoolId) (i : Fin 4) : SpoolId := { u with s := i }

def spoolCmd (s : State) (u : SpoolId) (slot : Nat) : Option Cmd := (spool s u).cmds.find? (fun c => decide (c.slot = slot))

/-- One command of a spool replaced. -/
def updCmd (s : State) (u : SpoolId) (slot : Nat) (f : Cmd → Cmd) : State :=
  let sp := spool s u
  setSpool s u { sp with cmds := sp.cmds.map (fun c => if c.slot = slot then f c else c) }

/-! ### Command headers (R147) -/

def Cmd.opcode (c : Cmd) : Nat := u8At c.bytes 0
def Cmd.cmpl (c : Cmd) : Bool := bitOf (u8At c.bytes 1) 0
def Cmd.irq (c : Cmd) : Bool := bitOf (u8At c.bytes 1) 1
def Cmd.barrier (c : Cmd) : Bool := bitOf (u8At c.bytes 1) 2
def Cmd.tag (c : Cmd) : Nat := u16At c.bytes 2
/-- The header's reserved bits are 0. -/
def headerOk (b : Bytes) : Bool := decide (u8At b 1 < 8) && zeroSpan b 4 4

/-- A command as COMMAND_FETCH puts it into the fetch buffer. -/
def newCmd (slot nslots : Nat) (bytes : Bytes) : Cmd :=
  { slot := slot, nslots := nslots, bytes := bytes, poisonFirst := false, poisonLater := false, phase := .fetched
    order := 0, step := 0, status := 0, detail := 0, stall := .none, first := none, fills := [], reads := [], readers := 0
    cont := false, since := 0, outBase := 0, outLen := 0, deps := [] }

/-- The command has started and has not ended. -/
def Cmd.live (c : Cmd) : Bool := decide (c.phase = .started) || decide (c.phase = .retry)

/-! ### Ending a command (R149) -/

/-- Statuses after which the spool enters STOPPED (R149). -/
def stopping (st : Nat) : Bool :=
  decide (st = stStale) || decide (st = stTimeout) || decide (st = stFormat) || decide (st = stResource)

/-- A command ends with a status; its completion is owed. A stopping status stops the spool, as a WAIT's POISON does
(R149, R153). The spool stops when the status is determined (DESIGN CHOICE, log 10). -/
def endCmd (s : State) (u : SpoolId) (slot status detail : Nat) : State :=
  let isWait := match spoolCmd s u slot with
    | some c => decide (c.opcode = 0x51)
    | none => false
  let s := updCmd s u slot (fun c => { c with phase := .ended, status := status, detail := detail, stall := .none })
  if (stopping status || (isWait && decide (status = stPoison))) ∧ spState s u = spActive then setSpState s u spStopped else s

/-! ### Translation for an engine (R118, R255) -/

/-- TIER_TIMEOUT has answered the request that the spool's command waited for (R213). -/
def tierOver (s : State) (u : SpoolId) : Bool := s.hub.tierWaits.any (fun w => w.late && decide (w.u = u))

/-- A command's access waits: its wait begins at its first attempt (R213). -/
def tierHold (s : State) (u : SpoolId) (slot : Nat) (spans : List (Nat × Nat)) : State :=
  if s.hub.tierWaits.any (fun w => decide (w.u = u ∧ w.slot = slot)) then s
  else
    let id := s.hub.nextId
    { s with hub := { s.hub with nextId := id + 1, tierWaits := s.hub.tierWaits ++ [{ id := id, u := u, slot := slot, since := s.time, spans := spans, late := false }] } }

/-- A command waits for no access any more. -/
def tierDrop (s : State) (u : SpoolId) (slot : Nat) : State :=
  { s with hub := { s.hub with tierWaits := s.hub.tierWaits.filter (fun w => !decide (w.u = u ∧ w.slot = slot)) } }

/-- A command's access has gone on; what it wrote after TIER_TIMEOUT answered it is poisoned (R213; DESIGN CHOICE, log 117). -/
def tierDone (s : State) (u : SpoolId) (slot : Nat) : State :=
  (s.hub.tierWaits.filter (fun w => decide (w.u = u ∧ w.slot = slot) && w.late)).foldl
    (fun s w => w.spans.foldl (fun s x => mpaPoison s x.1 x.2) s) (tierDrop s u slot)

/-- A request of a unit of engine e for a context slot. -/
def engReq (s : State) (u : SpoolId) (unit : Nat) (write read : Bool) : XReq :=
  { cache := some u.e, ag := .engine u.e u.n, astag := ctxAstag s u.e u.n, part := ctxPart s u.e u.n, write := write, read := read, unit := unit
    noWait := tierOver s u }

/-- A request of a hub unit for a context slot: the hub's range cache (R249). -/
def hubReq (s : State) (u : SpoolId) (unit : Nat) (write read : Bool) : XReq :=
  { cache := none, ag := .hubUnit (Fin.ofNat 16 (ctxPart s u.e u.n)), astag := ctxAstag s u.e u.n
    part := ctxPart s u.e u.n, write := write, read := read, unit := unit, noWait := tierOver s u }

/-- Whether a piece lies in engine SRAM (R141). -/
def pieceSram (s : State) (p : Piece) : Bool := match regionOf s p.mpa with
  | some (.sram _) => true
  | _ => false

/-- The replay flag of the entry that serves an address (R256). -/
def replayOf (s : State) (q : XReq) (va : Nat) : Bool :=
  match (rcOf s q.cache).find? (fun e => e.covers q.astag va) with
  | some e => e.replay || e.rootReplay
  | none => false

/-- A ring access: a translation into engine SRAM is refused (R141, R471). -/
def xlateRing (s : State) (u : SpoolId) (write : Bool) (va n : Nat) : State × XRes :=
  let q := engReq s u 1 write (!write)
  match xlate s q va n with
  | (s, .ok ps) => if ps.any (pieceSram s) then (s, .fault va fRefused (replayOf s q va)) else (s, .ok ps)
  | r => r

/-! ### Fault records (R260) -/

def engGen (s : State) (e : Nat) : Nat := getF s (rEngGen e) fEngGenGen

/-- A fault record's 32 bytes with PHASE 0. -/
def faultBytes (s : State) (u : SpoolId) (tag slot : Nat) (i : FaultInfo) (cause seq : Nat) (replay killed : Bool) : Bytes :=
  natLE 8 i.va ++ natLE 8 seq ++ natLE 2 i.astag ++ natLE 1 cause ++
    natLE 1 (i.write.toNat + 2 * replay.toNat + 4 * killed.toNat) ++ natLE 1 i.unit ++ natLE 1 u.e ++
    natLE 1 (u.n + 16 * u.s.val) ++ natLE 1 (engGen s u.e) ++ natLE 2 tag ++ natLE 2 slot ++ [0, 0, 0, 0]

/-- PHASE put into byte `k`, bit `b`, of a record. -/
def withPhase (bs : Bytes) (k b phase : Nat) : Bytes := bs.set k (bs.getD k 0 ||| BitVec.ofNat 8 (phase * 2 ^ b))

/-- A record for a fault ring: written, held while the ring is full, or dropped where the ring lies nowhere; held and
dropped records are counted (R260). -/
def putFault (s : State) (e n : Nat) (bs : Bytes) : State :=
  let r := frRing e n
  let a := ctxAux s e n
  if !r.placed s 32 then bump s (rFrStatus e n) fFrStatusOverflow 1
  else if r.full s || !a.held.isEmpty then
    bump (setCtxAux s e n { a with held := a.held ++ [⟨bs⟩] }) (rFrStatus e n) fFrStatusOverflow 1
  else r.put s (withPhase bs 19 3 (r.phase s))

/-- Held fault records written as far as the ring has room. -/
def flushFaults (s : State) (e n : Nat) : Nat → State
  | 0 => s
  | k + 1 =>
    let r := frRing e n
    let a := ctxAux s e n
    match a.held with
    | [] => s
    | h :: hs =>
      if r.full s || !r.placed s 32 then s
      else flushFaults (r.put (setCtxAux s e n { a with held := hs }) (withPhase h.bytes 19 3 (r.phase s))) e n k

/-- The next sequence number of a context slot, and the state that has used it. -/
def takeSeq (s : State) (e n : Nat) : Nat × State :=
  let a := ctxAux s e n
  (a.seq, setCtxAux s e n { a with seq := a.seq + 1 })

/-! ### Consult requests (R252) -/

/-- A consult request's 16 bytes. -/
def consultBytes (c : Consult) (phase : Nat) : Bytes :=
  natLE 8 c.req.va.toNat ++ natLE 2 c.req.astag.toNat ++ natLE 1 c.req.unit ++
    natLE 1 (c.req.write.toNat + 2 * c.req.exec.toNat + 128 * phase) ++ natLE 4 c.id

/-- Consult requests not yet written are written in order as far as the ring has room (R252). -/
def flushConsults (s : State) : State :=
  s.hub.consults.foldl (fun s c =>
    if c.written ∨ consultRing.full s ∨ ¬consultRing.placed s 16 then s
    else
      let s := consultRing.put s (consultBytes c (consultRing.phase s))
      { s with hub := { s.hub with consults := s.hub.consults.map (fun d => if d.id = c.id then { d with written := true } else d) } }) s

/-- A consult request added, and written where the ring has room. Its identity is the hub's next number. -/
def addConsult (s : State) (req : XlateReq) (e : RcEntry) : State × Nat :=
  let id := s.hub.nextId
  let c : Consult := { id := id, req := req, entry := e, since := s.time, written := false, restart := false }
  (flushConsults { s with hub := { s.hub with nextId := id + 1, consults := s.hub.consults ++ [c] } }, id)

/-- The translation request of a command's access. -/
def cmdXreq (q : XReq) (u : SpoolId) (slot va : Nat) : XlateReq :=
  { engine := q.cache.map (Fin.ofNat 32), e := u.e, ctx := u.n, spool := u.s, slot := BitVec.ofNat 32 slot
    part := Fin.ofNat 16 q.part, astag := BitVec.ofNat 16 q.astag, va := BitVec.ofNat 64 va
    write := q.write, read := q.read, exec := q.exec, remote := q.remote, unit := q.unit }

/-! ### Cancelling (R131, R168, R169) -/

/-- The contents of a bobbin become undefined (R157). -/
def scrambleBob (s : State) (e b : Nat) : State := scramble s (bobBase s e b) (bobSize s e b)

/-- What the hub still does for a command is dropped, with its packets that have not left. -/
def dropHub (s : State) (u : SpoolId) (slot : Nat) : State :=
  let mine (v : SpoolId) (k : Nat) : Bool := decide (v = u) && decide (k = slot)
  let ids := (s.fab.ops.filter (fun o => mine o.u o.slot)).map (fun o => o.id) ++ (s.fab.disps.filter (fun o => mine o.u o.slot)).map (fun o => o.id) ++
    (s.fab.combs.filter (fun o => mine o.u o.slot)).map (fun o => o.id)
  { s with fab := { s.fab with
    ops := s.fab.ops.filter (fun o => !mine o.u o.slot)
    disps := s.fab.disps.filter (fun o => !mine o.u o.slot)
    combs := s.fab.combs.filter (fun o => !mine o.u o.slot)
    conns := if ids.isEmpty then s.fab.conns else
      s.fab.conns.map (fun x => (x.1, { x.2 with outQ := x.2.outQ.filter (fun p => !ids.elem p.owner) })) } }

/-- The tile passes of a command are dropped and its recomputes abandoned (R113, R169). -/
def dropRun (s : State) (u : SpoolId) (slot : Nat) : State :=
  let a := engAux s u.e
  let mine (v : SpoolId) (k : Nat) : Bool := decide (v = u) && decide (k = slot)
  let lost := (a.recomp.filter (fun r => mine r.u r.slot)).length
  let s := setEngAux s u.e { a with
    runs := a.runs.filter (fun r => !mine r.u r.slot)
    recomp := a.recomp.filter (fun r => !mine r.u r.slot) }
  if lost = 0 then s else bump (evrCount s 4 u.e 3 lost) (rAbftAbandoned u.e) fAbftAbandoned lost

/-- The accumulator sets of a context slot that a spool of the mask last held are released (R169). -/
def releaseSets (s : State) (e n : Nat) (f : SpoolId → Bool) : State :=
  let a := engAux s e
  let keep (x : AccSet) : Bool := !(decide (x.n = n) && f x.u)
  let gone := (a.accs.filter (fun x => !keep x)).map (fun x => x.id)
  let s := setEngAux s e { a with accs := a.accs.filter keep }
  gone.foldl (fun s id => setF s (rCtxAccHeld e n) ⟨id, id⟩ 0) s

/-- A task ends (R131): its slot is FREE, its core idles, its TASK ends with the status. -/
def endTask (s : State) (e i status detail : Nat) : State :=
  let t := task s e i
  let s := if taskState s e i = tRunning then freeCore s e i else s
  let s := setTaskState s e i tFree
  let s := { s with eng := { s.eng with tasks := mapDel s.eng.tasks (e, i) } }
  match t.u with
  | some (u, slot) => endCmd s u slot status detail
  | none => s

/-- The task slot that a started TASK command occupies. -/
def taskSlotOf (s : State) (u : SpoolId) (slot : Nat) : Option Nat :=
  (List.range 16).find? (fun i => decide (taskState s u.e i ≠ tFree) && decide ((task s u.e i).u = some (u, slot)))

/-- The pieces of a span up to the first that does not translate. -/
def xlatePrefix (s : State) (q : XReq) : Nat → Nat → Nat → List Piece → State × List Piece
  | 0, _, _, acc => (s, acc)
  | k + 1, va, n, acc =>
    if n = 0 then (s, acc)
    else
      match xlatePiece s q va n with
      | (s, .ok ps) =>
        let m := (ps.map (fun p => p.n)).sum
        xlatePrefix s q k (va + m) (n - m) (acc ++ ps)
      | (s, _) => (s, acc)

/-- The output of a command that has started becomes undefined as far as it translates (R169); naming those bytes is no
access, so it walks nothing and counts nothing. -/
def scrambleOut (s : State) (u : SpoolId) (c : Cmd) : State :=
  if c.outLen = 0 then s
  else
    let (w, ps) := xlatePrefix s (engReq s u 4 true false) (c.outLen / 65536 + 2) c.outBase c.outLen []
    piecesScramble { s with freeCtr := w.freeCtr } ps

/-- Consult requests of a command, and of a spool's unfetched slots, that nobody awaits any more: a reply to one is ignored
(R168, R252). -/
def dropConsults (s : State) (f : XlateReq → Bool) : State :=
  { s with hub := { s.hub with consults := s.hub.consults.filter (fun c => !f c.req) } }
def ofCmd (u : SpoolId) (slot : Nat) (r : XlateReq) : Bool :=
  decide (r.unit ≠ 8) && decide (r.unit ≠ 1) && decide (r.e = u.e ∧ r.ctx = u.n ∧ r.spool = u.s) && decide (r.slot.toNat = slot % 2 ^ 32)
def ofFetch (u : SpoolId) (r : XlateReq) : Bool :=
  decide (r.unit = 1) && !r.write && decide (r.e = u.e ∧ r.ctx = u.n ∧ r.spool = u.s)

/-- Waiting accesses of an agent dropped: its writes are not accepted by memory, its reads are discarded (R257). -/
def dropAccesses (s : State) (f : Agent → Bool) : State :=
  let ids := (s.hub.stalled.filter (fun x => f x.req.agent)).map (fun x => x.id)
  { s with
    hub := { s.hub with stalled := s.hub.stalled.filter (fun x => !f x.req.agent) }
    d2d := { s.d2d with waits := s.d2d.waits.filter (fun w => !ids.elem w.1) } }

/-- One fetched or started command cancelled: it writes nothing more, its output is undefined, its record carries
CANCELLED (R168, R169). A command that has ended keeps its status. -/
def cancelCmd (s : State) (u : SpoolId) (c : Cmd) : State :=
  if c.phase = .ended then s
  else
    let s := if c.live then scrambleOut s u c else s
    let s := c.fills.foldl (fun s b => scrambleBob s u.e b) s
    let s := dropHub (dropRun (tierDrop (dropConsults s (ofCmd u c.slot)) u c.slot) u c.slot) u c.slot
    let s := match taskSlotOf s u c.slot with
      | some i => endTask s u.e i stCancelled 0
      | none => s
    endCmd s u c.slot stCancelled 0

/-- The commands of a spool that a property holds of cancelled, oldest first. -/
def cancelCmds (s : State) (u : SpoolId) (f : Cmd → Bool) : State :=
  ((spool s u).cmds.filter f).foldl (fun s c => cancelCmd s u c) s

/-- The unfetched slots of a spool up to TAIL skipped; how many they were (R168). Commands of mx.issue among them are
forgotten. -/
def skipUnfetched (s : State) (u : SpoolId) : State × Nat :=
  let sp := spool s u
  let n := (sqTail s u + 2 ^ 32 - sp.fetched) % 2 ^ 32
  let s := dropConsults (setSpool s u { sp with fetched := sqTail s u, fetchHold := none, fetchFirst := none }) (ofFetch u)
  ({ s with eng := { s.eng with issued := s.eng.issued.filter (fun x => !decide (x.1.1 = u)) } }, n)

/-- A whole spool cancelled (R168): its commands, then its unfetched slots. -/
def cancelSpool (s : State) (u : SpoolId) : State × Nat := skipUnfetched (cancelCmds s u (fun _ => true)) u

/-! ### The kill path (R257) -/

/-- The granules whose promotion a context caused pass their charge to the unaccounted charge when it is killed during the
promotion (R207). -/
def unaccountPromotions (s : State) (astag part : Nat) : State :=
  { s with hub := { s.hub with grans := s.hub.grans.map (fun g =>
    if g.2.state = 1 ∧ g.2.astag = astag ∧ g.2.part = part then (g.1, { g.2 with unacct := true }) else g) } }

/-- The steps of the commands that a context slot holds started. -/
def heldSteps (s : State) (e : Fin 32) (n : Fin 16) : List Nat :=
  (List.finRange 4).flatMap (fun i => ((spool s ⟨e, n, i⟩).cmds.filter (fun c => decide (c.phase ≠ .fetched))).map (fun c => c.step))

/-- A context slot goes down the kill path (R257): every spool KILLED, every other command CANCELLED, unfetched slots
skipped, tasks ended, accumulator sets released, accesses that memory has not accepted dropped, and the Pennant raised for the steps it
held commands of (R296). A record held by a replay stall is tried once more. The kill record follows at KILL_RECORD. -/
def killCtx (s : State) (e : Fin 32) (n : Fin 16) (k : KillRec) : State :=
  let s := (heldSteps s e n).foldl (fun s st => raisePennant s (ctxPart s e n) st 7) s
  let s := setCtxAux s e n { ctxAux s e n with kill := some k }
  let s := setF s (rFrStatus e n) fFrStatusKilled 1
  let s := (List.finRange 4).foldl (fun s i =>
    let s := (cancelSpool (setSpState s ⟨e, n, i⟩ spKilled) ⟨e, n, i⟩).1
    setSpool s ⟨e, n, i⟩ { spool s ⟨e, n, i⟩ with cqHold := none, cqFirst := none }) s
  let s := dropAccesses s (fun a => decide (a = .engine e n))
  let s := releaseSets s e n (fun _ => true)
  unaccountPromotions s (ctxAstag s e n) (ctxPart s e n)

/-- The slot's kill is in progress (R257). -/
def killing (s : State) (e n : Nat) : Bool := (ctxAux s e n).kill.isSome

/-- The kill record's data for a fault of a command. -/
def killRec (u : SpoolId) (tag slot : Nat) (i : FaultInfo) (cause : Nat) : KillRec :=
  { va := i.va, astag := i.astag, cause := cause, write := i.write, unit := i.unit, spool := u.s.val, tag := tag, slot := slot }

/-- REPLAY_LIMIT in ns. -/
def replayLimitNs (s : State) : Nat := objNat s oReplayLimit * 1000000

/-- A started command ends with a fault's status: through its task where it is a TASK. -/
def endFaulted (s : State) (u : SpoolId) (c : Cmd) (status detail : Nat) : State :=
  let s := c.fills.foldl (fun s b => scrambleBob s u.e b) (scrambleOut s u c)
  let s := dropHub (dropRun (tierDrop (dropConsults s (ofCmd u c.slot)) u c.slot) u c.slot) u c.slot
  match taskSlotOf s u c.slot with
  | some i => endTask s u.e i status detail
  | none => endCmd s u c.slot status detail

/-- A command of a slot faults (R256 to R259). A command that has ended takes no fault, and a fault of one that is stalled for
replay is held under its record (R258). While a kill is in progress it only ends. On the replay path it stalls under a record; once its stall has reached REPLAY_LIMIT, or off the replay path, the slot is killed. -/
def faultCmd (s : State) (u : SpoolId) (slot : Nat) (i : FaultInfo) (replay : Bool) : State :=
  match spoolCmd s u slot with
  | none => s
  | some c =>
    if c.phase = .ended then s
    else if killing s u.e u.n then endFaulted s u c (causeStatus i.cause) 0
    else if (match c.stall with | .replay _ => true | _ => false) then s
    else
      let first := c.first.getD i
      if replay ∧ s.time < first.since + replayLimitNs s then
        let (seq, s) := takeSeq s u.e u.n
        let s := updCmd s u slot (fun c => { c with phase := .started, stall := .replay seq, first := some first })
        let s := match taskSlotOf s u slot with
          | some t => setTask (if taskState s u.e t = tRunning then freeCore s u.e t else s) u.e t { task s u.e t with stalled := true }
          | none => s
        putFault s u.e u.n (faultBytes s u c.tag slot i i.cause seq true false)
      else if replay then
        let s := endFaulted s u c (causeStatus first.cause) (ctxAux s u.e u.n).seq
        killCtx s u.e u.n (killRec u c.tag slot first fReplayLimit)
      else
        let (seq, s) := takeSeq s u.e u.n
        let s := putFault s u.e u.n (faultBytes s u c.tag slot i i.cause seq false false)
        let s := endFaulted s u c (causeStatus i.cause) seq
        killCtx s u.e u.n (killRec u c.tag slot i i.cause)

/-- The record that opens the kill path for a stalled access (R257, step 1), and its number. At REPLAY_LIMIT none is written, and
the number is that of the kill record to come (R259). After FR_RESUME KILL it is written anew (DEDUCED, log 118). -/
def stallRecord (s : State) (u : SpoolId) (tag slot : Nat) (first : FaultInfo) (limit : Bool) : Nat × State :=
  if limit then ((ctxAux s u.e u.n).seq, s)
  else
    let (seq, s) := takeSeq s u.e u.n
    (seq, putFault s u.e u.n (faultBytes s u tag slot first first.cause seq false false))

/-- A stalled command goes down the kill path under its first fault (R258, R259): its own cause after FR_RESUME KILL, or
REPLAY_LIMIT. -/
def killStalled (s : State) (u : SpoolId) (c : Cmd) (limit : Bool) : State :=
  match c.first with
  | none => s
  | some first =>
    let (seq, s) := stallRecord s u c.tag c.slot first limit
    let s := endFaulted s u c (causeStatus first.cause) seq
    killCtx s u.e u.n (killRec u c.tag c.slot first (if limit then fReplayLimit else first.cause))

/-! ### Completion records (R148, R471) -/

/-- The VA of the next completion record. -/
def cqVa (s : State) (u : SpoolId) : Nat :=
  (getR s (rCqBase u.e u.n u.s)).toNat / 4096 * 4096 + cqTail s u % 2 ^ cqLog2 s u * 16

/-- A record written at its translated place, the count advanced, then the MSI (R148). -/
def writeRec (s : State) (u : SpoolId) (h : HeldRec) (ps : List Piece) : State :=
  let phase := if bitOf (cqTail s u) (cqLog2 s u) then 0 else 1
  let s := piecesWrite s ps (withPhase h.bytes 4 2 phase)
  let s := setR s (rCqPtr u.e u.n u.s) (BitVec.ofNat 64 ((cqTail s u + 1) % 2 ^ 32 + 2 ^ 32 * cqHeadOf s u))
  if h.irq then sendMsi s (getR s (rSpMsiAddr u.e u.n u.s)).toNat ((getR s (rSpMsiData u.e u.n u.s)).toNat % 2 ^ 32) else s

/-- The write of a completion record faults (R471): on the replay path the record is held under a fault record, on the kill
path it is lost. While a kill is in progress no further record is written (09_range_translation.md, coinciding events). -/
def recFault (s : State) (u : SpoolId) (i : FaultInfo) (replay : Bool) : State :=
  let sp := spool s u
  match sp.held with
  | [] => s
  | h :: hs =>
    let first := sp.cqFirst.getD i
    let tag := u16At h.bytes 2
    let slot := u16At h.bytes 6
    if killing s u.e u.n then setSpool s u { sp with held := hs }
    else if replay ∧ s.time < first.since + replayLimitNs s then
      let (seq, s) := takeSeq s u.e u.n
      let s := setSpool s u { sp with cqHold := some (seq, first) }
      putFault s u.e u.n (faultBytes s u tag slot i i.cause seq true false)
    else if replay then killCtx (setSpool s u { sp with held := hs }) u.e u.n (killRec u tag slot first fReplayLimit)
    else
      let s := setSpool s u { sp with held := hs }
      let (seq, s) := takeSeq s u.e u.n
      let s := putFault s u.e u.n (faultBytes s u tag slot i i.cause seq false false)
      killCtx s u.e u.n (killRec u tag slot i i.cause)

/-- The held records of a spool written, oldest first, as far as the ring has room and its accesses do not fault. A replay
fault holds the record under a fault record; a kill-path fault loses it (R471). -/
def flushRecs (s : State) (u : SpoolId) : Nat → State
  | 0 => s
  | k + 1 =>
    let sp := spool s u
    match sp.held, sp.cqHold with
    | h :: hs, none =>
      if cqFull s u then s
      else
        match xlateRing s u true (cqVa s u) 16 with
        | (s, .ok ps) => flushRecs (writeRec (setSpool s u { sp with held := hs, cqFirst := none }) u h ps) u k
        | (s, .wait _) => s
        | (s, .consult va e) =>
          if s.hub.consults.any (fun c => decide (c.req.unit = 1) && c.req.write && decide (c.req.e = u.e ∧ c.req.ctx = u.n ∧ c.req.spool = u.s)) then s
          else (addConsult s (cmdXreq (engReq s u 1 true false) u (u16At h.bytes 6) va) e).1
        | (s, .fault va cause replay) =>
          flushRecs (recFault s u { va := va, astag := ctxAstag s u.e u.n, cause := cause, write := true, unit := 1, since := s.time } replay) u k
    | _, _ => s

/-- A spool or a context slot whose cancellation is over takes its final state (R426, R472). -/
def settle (s : State) (u : SpoolId) : State :=
  let idle (s : State) (v : SpoolId) : Bool := (spool s v).cmds.isEmpty && (spool s v).held.isEmpty
  let s := if spState s u = spCancelling ∧ idle s u then setSpState s u spDisabled else s
  let a := ctxAux s u.e u.n
  if a.clearing ∧ (List.finRange 4).all (fun i => idle s (sibling u i)) then
    setCtxAux (setB s (rCtxCfg u.e u.n) fCtxCfgValid false) u.e u.n { a with clearing := false }
  else s

/-- Held records of a spool, then its final state, with CQ_FULL as the ring now stands. -/
def flushSpool (s : State) (u : SpoolId) : State :=
  let s := flushRecs s u ((spool s u).held.length + 1)
  settle (setSpool s u (spool s u)) u

/-- Records that waited for a migration or a held line are tried again. -/
def flushWaitingRecs (s : State) : State :=
  s.eng.spools.foldl (fun s x => if x.2.held.isEmpty then s else flushSpool s x.1) s

/-- The completion record of a command, PHASE 0. -/
def recBytes (s : State) (u : SpoolId) (c : Cmd) : Bytes :=
  natLE 1 c.opcode ++ natLE 1 c.status ++ natLE 2 c.tag ++ natLE 1 u.s.val ++ natLE 1 (engGen s u.e) ++ natLE 2 c.slot ++ natLE 8 c.detail

/-- What a finished command does to the bobbins it filled, held for staging and read (R157, R158, R163). A bobbin that a later command
has taken over is that one's to make READY. A MATMUL or MATMUL_ACC has counted its reads with its last tile pass. -/
def settleBobs (s : State) (u : SpoolId) (c : Cmd) : State :=
  let wrote := decide (c.status = stOk) || decide (c.status = stPoison) || decide (c.status = stAbft)
  let s := c.fills.foldl (fun s b =>
    if wrote then
      if c.cont ∨ (bobAux s u.e b).writer ≠ some (u, c.slot) then s else bobToReady s u.e b c.readers
    else if bobState s u.e b = bFilling ∧ ((bobAux s u.e b).writer.map (fun w => w.1)) = some u then bobToEmpty s u.e b
    else s) s
  let s := c.stage.foldl (fun s b => bobToEmpty (scrambleBob s u.e b) u.e b) s
  if c.opcode = 0x10 ∨ c.opcode = 0x11 then s else c.reads.foldl (fun s b => bobRead s u.e u.n b) s

/-- A finished command completes (R148, R154): its bobbins, its record, and the FENCEs that wait for it. -/
def completeCmd (s : State) (u : SpoolId) (c : Cmd) : State :=
  let s := settleBobs s u c
  let sp := spool s u
  let s := setSpool s u { sp with cmds := sp.cmds.filter (fun d => decide (d.slot ≠ c.slot)) }
  let s := if c.status = stOk then s else setF s (rSpStatus u.e u.n u.s) fSpStatusLastStatus c.status
  let s := if c.status ≠ stOk ∨ c.cmpl then
      let sp := spool s u
      setSpool s u { sp with held := sp.held ++ [⟨recBytes s u c, c.irq⟩] }
    else s
  let s := (List.finRange 4).foldl (fun s i =>
    let v := sibling u i
    ((spool s v).cmds.filter (fun d => decide (d.opcode = 0x52) && d.live)).foldl (fun s d =>
      let deps := d.deps.filter (fun x => !decide (x = (u, c.slot)))
      let s := updCmd s v d.slot (fun d => { d with deps := deps })
      if deps = [] then endCmd s v d.slot stOk 0 else s) s) s
  flushSpool (setEngAux s u.e { engAux s u.e with idleSince := some s.time }) u

end Sys2Proof.Machine
end

