-- ==== Sys2Proof/Machine/Issue.lean ====
section
/-! DEFINITION. How a spool's command starts (R149, R150, R470) and the accesses of commands: the skeleton that every
command's meaning fills in. -/

namespace Sys2Proof.Machine

open Sys2Proof

/-- What a command's body answers. -/
inductive Act
  /-- An input condition does not hold: the command stays unstarted. -/
  | waits
  /-- An access waits at a granule or a held line (R206, R271): the command stays as it was. -/
  | held (spans : List (Nat × Nat))
  /-- Started; an access of it waits so. -/
  | holds (spans : List (Nat × Nat))
  | ends (status detail : Nat)
  /-- Started, and goes on. -/
  | runs
  | faults (i : FaultInfo) (replay : Bool)
  /-- An access needs the handler's answer for a CONSULT range. -/
  | asks (q : XReq) (va : Nat) (e : RcEntry)

/-! ### Which command starts -/

/-- A command that holds back the later commands of its spool: stalled, or a WAIT or FENCE that has not ended
(R153, R154, R252, R258). -/
def Cmd.blocks (c : Cmd) : Bool :=
  c.live && (decide (c.stall ≠ .none) || decide (c.phase = .retry) || decide (c.opcode = 0x51) || decide (c.opcode = 0x52))

/-- The oldest unstarted command, where the spool may start it: ACTIVE, no record held, nothing before it that blocks, its
BARRIER met (R148 to R150), the module serving work (R25). -/
def startable (s : State) (u : SpoolId) : Option Cmd :=
  let sp := spool s u
  let before := sp.cmds.takeWhile (fun c => decide (c.phase ≠ .fetched))
  match sp.cmds.find? (fun c => decide (c.phase = .fetched)) with
  | none => none
  | some c =>
    if ¬s.pow.stopped ∧ spState s u = spActive ∧ sp.held = [] ∧ sp.cqHold = none ∧ ¬before.any Cmd.blocks ∧ (¬c.barrier ∨ before = []) then some c
    else none

/-- The command a row acts on: one released from its stall, else the oldest unstarted. -/
def pick (s : State) (u : SpoolId) : Option Cmd :=
  match (spool s u).cmds.find? (fun c => decide (c.phase = .retry)) with
  | some c => some c
  | none => startable s u

/-- A bobbin that a command may not name (R470). -/
def badBobbin (s : State) (u : SpoolId) (b : Nat) : Bool := !bobOwned s u.e u.n b || bobStaging s u.e b

/-- The command with its start marked: its order, its step (R286) and the time; kept over a retry. -/
def markStart (s : State) (u : SpoolId) (c : Cmd) : State × Cmd :=
  if c.phase = .fetched then
    let a := engAux s u.e
    (setEngAux s u.e { a with order := a.order + 1 },
      { c with phase := .started, order := a.order, step := curStep s (ctxPart s u.e u.n), since := s.time })
  else (s, { c with phase := .started })

def putCmd (s : State) (u : SpoolId) (c : Cmd) : State := updCmd s u c.slot (fun _ => c)

/-- Poison consumed by a command of engine u.e, charged to its step (R215). -/
def cmdPoison (s : State) (u : SpoolId) (step a : Nat) : State :=
  consumePoison s (ctxPart s u.e u.n) (some step) a u.e (u.e.val / 4)

/-- The outcome of a body applied to the state before the start. A command whose accesses have succeeded leaves its replay stall
behind it (R259). -/
def applyAct (before s : State) (u : SpoolId) (c : Cmd) : Act → State
  | .waits => before
  | .held ps => tierHold before u c.slot ps
  | .holds ps => tierHold (putCmd s u c) u c.slot ps
  | .ends st d => endCmd (putCmd (tierDone s u c.slot) u c) u c.slot st d
  | .runs => putCmd (tierDone s u c.slot) u { c with first := none }
  | .faults i r => faultCmd (putCmd (tierDone s u c.slot) u c) u c.slot i r
  | .asks q va e =>
    let (s, id) := addConsult (putCmd (tierDone s u c.slot) u c) (cmdXreq q u c.slot va) e
    updCmd s u c.slot (fun c => { c with stall := .consult id })

/-- The oldest unstarted command of an ACTIVE spool. -/
def oldestCmd (s : State) (u : SpoolId) : Option Cmd :=
  if s.pow.stopped ∨ spState s u ≠ spActive then none else (spool s u).cmds.find? (fun c => decide (c.phase = .fetched))

/-- A command that names a bobbin it may not completes with RESOURCE once it is the oldest unstarted, before it awaits any condition
(R470); one with a condition of FORMAT does not. -/
def refuseBobs (s : State) (u : SpoolId) (sel : Bytes → Bool) (bad : State → Cmd → Bool) (bobs : Bytes → List Nat) : State :=
  match oldestCmd s u with
  | none => s
  | some c0 =>
    if sel c0.bytes ∧ ¬c0.poisonLater ∧ headerOk c0.bytes ∧ ¬bad s c0 ∧ (bobs c0.bytes).any (badBobbin s u) then
      let (s, c) := markStart s u c0
      endCmd (putCmd s u c) u c.slot stResource 0
    else s

/-- A command starts (R149, R150): FORMAT first, then RESOURCE for a bobbin it may not name (R470), then its body. A poisoned later slot
raises the Pennant of the step the command takes here (R286, R471). -/
def runCmd (s : State) (u : SpoolId) (sel : Bytes → Bool) (bad : State → Cmd → Bool) (bobs : Bytes → List Nat)
    (body : State → Cmd → State × Cmd × Act) : State :=
  match pick s u with
  | none => refuseBobs s u sel bad bobs
  | some c0 =>
    if ¬sel c0.bytes then refuseBobs s u sel bad bobs
    else
      let (s1, c) := markStart s u c0
      if c.poisonLater then endCmd (putCmd (raisePennant s1 (ctxPart s1 u.e u.n) c.step 6) u c) u c.slot stPoison 0
      else if ¬headerOk c.bytes ∨ bad s1 c then endCmd (putCmd s1 u c) u c.slot stFormat 0
      else if (bobs c.bytes).any (badBobbin s u) then endCmd (putCmd s1 u c) u c.slot stResource 0
      else
        let (s2, c2, act) := body s1 c
        applyAct s s2 u c2 act

/-! ### Accesses of a body -/

/-- The translation of a span for a body: its pieces, or the act that ends the attempt. -/
def reach (s : State) (q : XReq) (va n : Nat) : State × Except Act (List Piece) :=
  match xlate s q va n with
  | (s, .ok ps) => (s, .ok ps)
  | (s, .fault a cause r) => (s, .error (.faults { va := a, astag := q.astag, cause := cause, write := q.write, unit := q.unit, since := s.time } r))
  | (s, .consult a e) => (s, .error (.asks q a e))
  | (s, .wait ps) => (s, .error (.held (ps.map (fun p => (p.mpa, p.n)))))

/-- The bobbin b may be written by the command (R157): EMPTY, already FILLING under it, or FILLING under an earlier command of its
spool with CONT. -/
def outReady (s : State) (u : SpoolId) (slot b : Nat) : Bool :=
  decide (bobState s u.e b = bEmpty) ||
    (match (bobAux s u.e b).writer with
      | some (v, k) => decide (v = u) && (decide (k = slot) || (bobAux s u.e b).cont)
      | none => false)

/-- The input bobbins are READY. -/
def insReady (s : State) (u : SpoolId) (bs : List Nat) : Bool := bs.all (fun b => decide (bobState s u.e b = bReady))

/-- A byte string in a bobbin: a whole overwrite clears the line's poison (R214). -/
def bobWrite (s : State) (e b off : Nat) (bs : Bytes) : State := mpaWrite s (bobBase s e b + off) bs

/-- Whether a byte range of a bobbin lies inside it. -/
def bobFits (s : State) (e b off n : Nat) : Bool := decide (off + n ≤ bobSize s e b)

end Sys2Proof.Machine
end

