-- ==== Sys2Proof/Machine/Layout.lean ====
section
/-! DEFINITION. How operands lie in memory: packed codes (R41), row-major tensors with their planes (R39, R96, R133) and the
array layout with its base fields and metadata (R88 to R91). -/

namespace Sys2Proof.Machine

open Sys2Proof

/-! ### Sources and targets -/

/-- Bytes read for an operand, and the spans of them that lie in poisoned lines: offset and length. -/
structure Src where
  bytes : Bytes
  bad   : List (Nat × Nat)

/-- Whether a byte range of a source touches poison. -/
def Src.poisoned (x : Src) (off n : Nat) : Bool := x.bad.any (fun b => decide (b.1 < off + n) && decide (off < b.1 + b.2))

/-- Where an operand is written: from an MPA up (a bobbin), or over translated pieces. -/
inductive Tgt
  | mpa (a : Nat)
  | pieces (ps : List Piece)

/-- The pieces of the bytes `[off, off + n)` of a span. -/
def subPieces : List Piece → Nat → Nat → List Piece
  | [], _, _ => []
  | p :: ps, off, n =>
    if n = 0 then []
    else if p.n ≤ off then subPieces ps (off - p.n) n
    else
      let k := min n (p.n - off)
      { p with va := p.va + off, mpa := p.mpa + off, n := k } :: subPieces ps 0 (n - k)

def Tgt.put (t : Tgt) (s : State) (off : Nat) (bs : Bytes) : State := match t with
  | .mpa a => mpaWrite s (a + off) bs
  | .pieces ps => piecesWrite s (subPieces ps off bs.length) bs

def Tgt.zero (t : Tgt) (s : State) (off n : Nat) : State := t.put s off (List.replicate n 0)

/-- Poison delivered to the lines that hold `[off, off + n)` (R214). -/
def Tgt.poison (t : Tgt) (s : State) (off n : Nat) : State := match t with
  | .mpa a => mpaPoison s (a + off) n
  | .pieces ps => piecesDeliver s ps off n

/-- A span of a bobbin as a source. -/
def bobSrc (s : State) (e b off n : Nat) : Src :=
  let a := bobBase s e b + off
  { bytes := mpaRead s a n, bad := piecesPoison s [{ va := 0, mpa := a, n := n, shared := false, hint := 0, astag := 0 }] }

def vaSrc (s : State) (ps : List Piece) : Src := { bytes := piecesRead s ps, bad := piecesPoison s ps }

/-! ### Packing (R41) -/

/-- The code of `w` bits at bit offset `o` of a byte string. -/
def codeAt (bs : Bytes) (o w : Nat) : Nat := leNat ((bs.drop (o / 8)).take ((o % 8 + w + 7) / 8)) / 2 ^ (o % 8) % 2 ^ w

/-- Codes of `w` bits packed from bit 0 of the first byte up. -/
def packCodes (w : Nat) (cs : List Nat) : Bytes :=
  natLE ((cs.length * w + 7) / 8) ((cs.foldr (fun c acc => acc * 2 ^ w + c % 2 ^ w) 0))

/-- Entries of a scale plane per row, and the bytes of one entry (R39). -/
def blocksOf (k : Nat) : Nat := cdiv k 32
def Fmt.scaleBytes (f : Fmt) : Nat := match f.mt with | .none => 0 | .e8m0 => 1 | .zero => 2

/-- Bytes of the codes of one row. -/
def Fmt.rowBytes (f : Fmt) (k : Nat) : Nat := cdiv (k * f.w) 8

/-- Bytes of the planes of a row-major tensor of `rows` rows at a pitch: elements, scales, zero points. A tensor without
metadata ends with its last row's codes; where the pitch is below a row's codes, rows and planes share bytes (log 123). -/
def Fmt.planes (f : Fmt) (rows k pitch : Nat) : Nat := match f.mt with
  | .none => (rows - 1) * pitch + f.rowBytes k
  | .e8m0 => max (rows * pitch + rows * blocksOf k) ((rows - 1) * pitch + f.rowBytes k)
  | .zero => max (rows * pitch + rows * blocksOf k * 3) ((rows - 1) * pitch + f.rowBytes k)

/-- The code, scale and zero point of element (r, j) of a row-major tensor (R39, R133). -/
def rowMajor (f : Fmt) (bs : Bytes) (rows k pitch r j : Nat) : Nat × Nat × Nat :=
  let c := codeAt bs (8 * (r * pitch) + j * f.w) f.w
  let blk := r * blocksOf k + j / 32
  match f.mt with
  | .none => (c, 0, 0)
  | .e8m0 => (c, u8At bs (rows * pitch + blk), 0)
  | .zero => (c, u16At bs (rows * pitch + 2 * blk), u8At bs (rows * pitch + 2 * (rows * blocksOf k) + blk))

/-- Whether the code of element (r, j) of a row-major tensor is poisoned. -/
def rowMajorCodeBad (f : Fmt) (x : Src) (pitch r j : Nat) : Bool :=
  let o := 8 * (r * pitch) + j * f.w
  x.poisoned (o / 8) ((o % 8 + f.w + 7) / 8)

/-- The metadata of a block of a row-major tensor whose scale plane starts at `m`: offset and length. -/
def blockSpans (f : Fmt) (m rows k blk : Nat) : List (Nat × Nat) := match f.mt with
  | .none => []
  | .e8m0 => [(m + blk, 1)]
  | .zero => [(m + 2 * blk, 2), (m + 2 * (rows * blocksOf k) + blk, 1)]

/-- The bytes of element (r, j) of a row-major tensor: its code and its block's metadata. -/
def rowMajorSpans (f : Fmt) (rows k pitch r j : Nat) : List (Nat × Nat) :=
  let o := 8 * (r * pitch) + j * f.w
  (o / 8, (o % 8 + f.w + 7) / 8) :: blockSpans f (rows * pitch) rows k (r * blocksOf k + j / 32)

/-- Whether element (r, j) of a row-major tensor, or its block's metadata, is poisoned. -/
def rowMajorBad (f : Fmt) (x : Src) (rows k pitch r j : Nat) : Bool :=
  (rowMajorSpans f rows k pitch r j).any (fun p => x.poisoned p.1 p.2)

/-- The first poisoned byte among spans of a source. -/
def Src.firstBad (x : Src) (spans : List (Nat × Nat)) : Option Nat :=
  spans.findSome? (fun p => (x.bad.find? (fun b => decide (b.1 < p.1 + p.2) && decide (p.1 < b.1 + b.2))).map (fun b => max p.1 b.1))

/-! ### Slices and pieces (R51, R56, R57) -/

/-- The base of a slice: the largest binade of its finite nonzero values, −512 without one (R51). -/
def sliceBase (xs : List Num) : Int :=
  xs.foldl (fun b x => match x with | .fin d => if d.isZero then b else max b d.binade | _ => b) (-512)

/-- The 24-bit significand of a nonzero binary32 value cut by position (R57): piece 0, 1 or 2. -/
def piece32 (i : Nat) (d : Dy) : Dy :=
  if d.isZero then Dy.zero
  else
    let lsb := d.binade - 23
    let m := rndMag 1 0 d lsb
    let p : Nat := if i = 0 then m / 2 ^ 14 * 2 ^ 14 else if i = 1 then m % 2 ^ 14 / 2 ^ 4 * 2 ^ 4 else m % 2 ^ 4
    ⟨if d.isNeg then -(p : Int) else p, lsb⟩

def numMap (g : Dy → Dy) : Num → Num
  | .fin d => .fin (g d)
  | x => x

/-- The base fields of a slice of an operand class (R89). -/
def baseFields (c : Cls) (xs : List Num) : List Int :=
  match c with
  | .h => [sliceBase (xs.map (numMap round10)), sliceBase (xs.map (numMap (piece32 0))), sliceBase (xs.map (numMap (piece32 1)))]
  | .s => (List.range 3).map (fun i => sliceBase (xs.map (numMap (piece32 i))))
  | _ => [sliceBase xs]

/-- An I16 base field. -/
def i16Bytes (x : Int) : Bytes := natLE 2 ((x % 65536).toNat)

/-! ### The array layout (R88 to R90) -/

/-- A layout: format, operand rows, reduction length, tile rows, pitch, skew step. -/
structure Lay where
  f : Fmt
  rows : Nat
  k : Nat
  t : Nat
  p : Nat
  g : Nat

/-- Elements of a stored slice, and stored slices. -/
def Lay.len (l : Lay) : Nat := 128 * l.f.e
def Lay.slices (l : Lay) : Nat := cdiv l.k l.len
def Lay.d (l : Lay) : Nat := if l.g = 4 then 31 else 0
/-- Lane bytes of a skewed row, bytes of its base field. -/
def Fmt.laneBytes (f : Fmt) : Nat := 16 * f.e * f.w
def Fmt.baseBytes (f : Fmt) : Nat := 2 * f.bases
/-- The minimum row pitch of a format (R90). -/
def Fmt.minPitch (f : Fmt) : Nat := cdiv (f.laneBytes + f.baseBytes + 4 * f.e * f.slot) 4 * 4

/-- Rows of row tile r. -/
def Lay.tileRows (l : Lay) (r : Nat) : Nat := min l.t (l.rows - r * l.t)
/-- Skewed rows before row tile r: every earlier tile is full. -/
def Lay.tileStart (l : Lay) (r : Nat) : Nat := r * (l.slices * l.t + l.d)
/-- Skewed rows of the whole operand. -/
def Lay.skewRows (l : Lay) : Nat :=
  (List.range (cdiv l.rows l.t)).foldl (fun n r => n + (l.slices * l.tileRows r + l.d)) 0
/-- Bytes of the whole operand. -/
def Lay.bytes (l : Lay) : Nat := l.skewRows * l.p

/-- The skewed row of lane 0 of operand row x in stored slice s. -/
def Lay.row (l : Lay) (x s : Nat) : Nat :=
  let r := x / l.t
  l.tileStart r + s * l.tileRows r + x % l.t

/-- Byte offset of group g (four lanes) of row x, slice s; of its base field; of its metadata slot b. -/
def Lay.groupAt (l : Lay) (x s g : Nat) : Nat := (l.row x s + (if l.g = 4 then g else 0)) * l.p + g * (l.f.e * l.f.w / 2)
def Lay.baseAt (l : Lay) (x s : Nat) : Nat := l.row x s * l.p + l.f.laneBytes
def Lay.metaAt (l : Lay) (x s b : Nat) : Nat :=
  (l.row x s + (if l.g = 4 then 32 * b / l.f.e / 4 else 0)) * l.p + l.f.laneBytes + l.f.baseBytes + b * l.f.slot

/-- Bytes of one group. -/
def Lay.groupBytes (l : Lay) : Nat := l.f.e * l.f.w / 2

/-- The code of element k of row x. -/
def Lay.code (l : Lay) (bs : Bytes) (x k : Nat) : Nat :=
  let s := k / l.len
  let i := k % l.len
  let g := i / (4 * l.f.e)
  codeAt bs (8 * l.groupAt x s g + i % (4 * l.f.e) * l.f.w) l.f.w

/-- The scale and zero point of element k of row x. -/
def Lay.scale (l : Lay) (bs : Bytes) (x k : Nat) : Nat × Nat :=
  let o := l.metaAt x (k / l.len) (k % l.len / 32)
  match l.f.mt with
  | .none => (0, 0)
  | .e8m0 => (u8At bs o, 0)
  | .zero => (u16At bs o, u8At bs (o + 2))

/-- The value of element k of row x; positions that no element occupies are zero (R91). -/
def Lay.val (l : Lay) (bs : Bytes) (x k : Nat) : Num :=
  if x < l.rows ∧ k < l.k then
    let (sc, zp) := l.scale bs x k
    l.f.dec (l.code bs x k) sc zp
  else .fin Dy.zero

/-- A stored slice of a row as values, without the tensor exponent. -/
def Lay.slice (l : Lay) (bs : Bytes) (x s : Nat) : List Num := (List.range l.len).map (fun i => l.val bs x (s * l.len + i))

/-- The base field i of a slice. -/
def Lay.base (l : Lay) (bs : Bytes) (x s i : Nat) : Int := i16At bs (l.baseAt x s + 2 * i)

/-- Whether a byte that elements k0 to k0 + n of a row use is poisoned: their codes, their stored slice's base field, their blocks'
metadata. Positions that no element occupies do not count (R91). -/
def Lay.badSpan (l : Lay) (src : Src) (x k0 n : Nat) : Bool :=
  let s := k0 / l.len
  let k1 := min (k0 + n) l.k
  let grp := 4 * l.f.e
  let held (o len : Nat) : Bool := decide (k0 < s * l.len + o + len ∧ s * l.len + o < k1)
  decide (x < l.rows) &&
    ((List.range 32).any (fun g => held (g * grp) grp &&
        src.poisoned (l.groupAt x s g) (cdiv (min grp (k1 - (s * l.len + g * grp)) * l.f.w) 8)) ||
      src.poisoned (l.baseAt x s) l.f.baseBytes ||
      (l.f.blocked && (List.range grp).any (fun b => held (32 * b) 32 && src.poisoned (l.metaAt x s b) l.f.slot)))

/-- Whether a byte that a stored slice of a row uses is poisoned. -/
def Lay.bad (l : Lay) (src : Src) (x s : Nat) : Bool := l.badSpan src x (s * l.len) l.len

/-- What is written for row x of an operand from its codes and its blocks' scales and zero points: offsets and bytes of the
groups that hold elements, the base fields and the metadata (R88 to R90, R92). -/
def Lay.rowWrites (l : Lay) (x : Nat) (codes : List Nat) (metas : List (Nat × Nat)) : List (Nat × Bytes) :=
  (List.range l.slices).flatMap (fun s =>
    let cs := (codes.drop (s * l.len)).take l.len
    let ms := (metas.drop (s * (l.len / 32))).take (l.len / 32)
    let vals := (List.range cs.length).map (fun i =>
      let m := ms.getD (i / 32) (0, 0)
      l.f.dec (cs.getD i 0) m.1 m.2)
    let groups := (List.range (cdiv cs.length (4 * l.f.e))).map (fun g =>
      let c4 := (List.range (4 * l.f.e)).map (fun i => cs.getD (g * (4 * l.f.e) + i) 0)
      (l.groupAt x s g, packCodes l.f.w c4))
    let base := (l.baseAt x s, (baseFields l.f.cls vals).flatMap i16Bytes)
    let slots := if l.f.blocked then
        (List.range (cdiv cs.length 32)).map (fun b =>
          let m := ms.getD b (0, 0)
          (l.metaAt x s b, match l.f.mt with
            | .zero => natLE 2 m.1 ++ natLE 1 m.2
            | _ => natLE 1 m.1))
      else []
    groups ++ [base] ++ slots)

/-- The groups of row x whose codes are all there, of the first codes of a row. -/
def Lay.groupWrites (l : Lay) (x : Nat) (codes : List Nat) : List (Nat × Bytes) :=
  (List.range l.slices).flatMap (fun s =>
    let cs := (codes.drop (s * l.len)).take l.len
    (List.range (cs.length / (4 * l.f.e))).map (fun g => (l.groupAt x s g, packCodes l.f.w ((cs.drop (g * (4 * l.f.e))).take (4 * l.f.e)))))

/-- A list of writes made at a target. -/
def putAll (s : State) (t : Tgt) (ws : List (Nat × Bytes)) : State := ws.foldl (fun s w => t.put s w.1 w.2) s

/-- The base fields and metadata that are poisoned for row x when elements are (R160): the base field of a slice with one,
the metadata of a block with one. -/
def Lay.rowMetaPoison (l : Lay) (x : Nat) (bad : List Bool) : List (Nat × Nat) :=
  (List.range l.slices).flatMap (fun s =>
    let bs := (bad.drop (s * l.len)).take l.len
    let hit (o n : Nat) : Bool := ((bs.drop o).take n).any id
    (if bs.any id then [(l.baseAt x s, l.f.baseBytes)] else []) ++
      (if l.f.blocked then ((List.range (4 * l.f.e)).filter (fun b => hit (32 * b) 32)).map (fun b => (l.metaAt x s b, l.f.slot)) else []))

/-- The groups of row x that hold a poisoned code. -/
def Lay.rowCodePoison (l : Lay) (x : Nat) (bad : List Bool) : List (Nat × Nat) :=
  (List.range l.slices).flatMap (fun s =>
    let bs := (bad.drop (s * l.len)).take l.len
    ((List.range 32).filter (fun g => ((bs.drop (g * (4 * l.f.e))).take (4 * l.f.e)).any id)).map (fun g => (l.groupAt x s g, l.groupBytes)))

end Sys2Proof.Machine
end

