-- ==== Sys2Proof/Machine/Matrix.lean ====
section
/-! DEFINITION. Matrix arithmetic: the passes of a command's operand classes (R55 to R57), expansion into KF16 and KF10 (R49
to R54), column sums (R58 to R60), the checksum column (R106, R107), the stat table (R75 to R78), and rows quantised into
an output. -/

namespace Sys2Proof.Machine

open Sys2Proof

/-! ### The passes of a mode (R55 to R57) -/

/-- A piece of an operand's value: all of it, the two pieces of binary16, the three of binary32. -/
inductive Pc | all | hi | lo | cut (i : Nat)
deriving DecidableEq, Repr

def Pc.of : Pc → Dy → Dy
  | .all, d => d
  | .hi, d => round10 d
  | .lo, d => d.sub (round10 d)
  | .cut i, d => piece32 i d

/-- The piece whose base anchors this one: tags travel with the high piece (R56, R89). -/
def Pc.anchor : Pc → Pc
  | .lo => .hi
  | p => p

/-- The base field that a piece is checked against (R89); binary16 has none for piece 2. -/
def Pc.field (c : Cls) : Pc → Option Nat
  | .cut i => if c = .h then (if i < 2 then some (i + 1) else none) else some i
  | _ => some 0

/-- The passes of two operand classes; each pass sums its products of pieces. -/
def passesOf : Cls → Cls → List (List (Pc × Pc))
  | .h, .h => [[(.hi, .hi)], [(.hi, .lo), (.lo, .hi)]]
  | .s, .s | .s, .h | .h, .s =>
    [[(.cut 0, .cut 0)], [(.cut 0, .cut 1)], [(.cut 1, .cut 0)], [(.cut 0, .cut 2)], [(.cut 1, .cut 1)], [(.cut 2, .cut 0)]]
  | .h, _ => [[(.hi, .all)], [(.lo, .all)]]
  | _, .h => [[(.all, .hi)], [(.all, .lo)]]
  | .s, _ => [[(.cut 0, .all)], [(.cut 1, .all)], [(.cut 2, .all)]]
  | _, .s => [[(.all, .cut 0)], [(.all, .cut 1)], [(.all, .cut 2)]]
  | _, _ => [[(.all, .all)]]

/-- Two class-P operands run in paired mode (R55, R87). -/
def paired (a b : Cls) : Bool := decide (a = .p) && decide (b = .p)

/-- Elements of a slice of the mode. -/
def sliceLen (a b : Cls) : Nat := if paired a b then 256 else 128

/-! ### Expansion (R49 to R54) -/

/-- An expanded slice of one pass: its base, its values with the flushed ones zero, how many were flushed, and whether a
non-finite element poisons it. -/
structure Exp where
  base  : Int
  vals  : List Dy
  flush : Nat
  bad   : Bool

def Num.get : Num → Dy
  | .fin d => d
  | _ => Dy.zero

/-- The largest offset below the base: KF10 in paired mode, KF16 otherwise. -/
def maxOff (pair : Bool) : Int := if pair then 15 else 63

/-- A slice expanded for a piece (R52): a value further below the base than the format reaches is flushed and counted; a tag
is never flushed (R56). -/
def expand (pair : Bool) (p : Pc) (xs : List Num) : Exp :=
  let anchor := xs.map (numMap p.anchor.of)
  let b := sliceBase anchor
  let out (d : Dy) : Bool := !d.isZero && decide (maxOff pair < b - d.binade)
  { base := b
    vals := xs.map (fun x =>
      let a := p.anchor.of x.get
      let v := p.of x.get
      if p ≠ .lo ∧ out a then Dy.zero else v)
    flush := (anchor.filter (fun x => match x with | .fin d => out d | _ => false)).length
    bad := xs.any (fun x => !numFinite x) }

/-- The sum of one slice in the adder tree's window, in units of 2^lsb: every cell's product truncated there (R59). A pass
with two products of pieces forms them in one multiply (R56; DEDUCED, log 14). -/
def windowSum (lsb : Int) (ts : List (Exp × Exp)) (n : Nat) : Int :=
  (List.range n).foldl (fun acc i =>
    acc + (ts.foldl (fun d t => d.add ((t.1.vals.getD i Dy.zero).mul (t.2.vals.getD i Dy.zero))) Dy.zero).truncAt lsb) 0

/-- The unit of the window: 46 fraction bits below the anchor, 45 in paired mode (R59). -/
def windowLsb (pair : Bool) (ba bb : Int) : Int := ba + bb - (if pair then 45 else 46)

/-! ### The checksum column (R106, R107) -/

/-- c_k over the tile's columns: each value truncated at the window's end, the sum rounded to ten significant bits. -/
def checkSlice (bbmax : Int) (cols : List Exp) (n : Nat) : List Num :=
  (List.range n).map (fun i =>
    let u := bbmax - 55
    let c := cols.foldl (fun a e => a + (e.vals.getD i Dy.zero).truncAt u) 0
    .fin (round10 ⟨c, u⟩))

/-- Whether the check of one row of a pass reports a mismatch. `a` and `cols`: per product of pieces, the row's slice and
the columns'; `sums`: the columns' window sums with their units. -/
def checkRow (rel floor : Int) (n : Nat) (ts : List (Exp × List Exp)) (sums : List (Int × Int)) : Bool :=
  let ba := ts.foldl (fun b t => max b t.1.base) (-512)
  let bb := ts.foldl (fun b t => t.2.foldl (fun b e => max b e.base) b) (-512)
  if ba = -512 ∨ bb = -512 then false
  else
    let unit := ba + bb - 46
    let d := sums.foldl (fun acc x => acc + (Dy.mk x.1 x.2).truncAt unit) 0
    let cs := ts.map (fun t => (t.1, expand false .all (checkSlice bb t.2 n)))
    let sum (g : Dy → Dy) : Int := cs.foldl (fun acc t =>
      let lsb := t.1.base + t.2.base - 46
      acc + (Dy.mk ((List.range n).foldl (fun acc i =>
        acc + (g ((t.1.vals.getD i Dy.zero).mul (t.2.vals.getD i Dy.zero))).truncAt lsb) 0) lsb).truncAt unit) 0
    let c := sum id
    let q := sum Dy.abs
    let lhs : Dy := ⟨(d - c).natAbs, unit⟩
    let rhs := Dy.add ⟨q, unit + rel⟩ ⟨1, floor + ba + bb⟩
    rhs.lt lhs

/-! ### The stat table (R75 to R78) -/

def statEntry (s : State) (e i : Nat) : StatEntry := mapGet s.eng.stats (e, i) {}
def setStat (s : State) (e i : Nat) (x : StatEntry) : State := { s with eng := { s.eng with stats := mapSet s.eng.stats (e, i) x } }

/-- The entry of a tensor id: the one it has, else the first free one of 0 to 254, else the catch-all (R76). -/
def statIndex (s : State) (e tensor : Nat) : Nat :=
  if tensor = 0xFFFF then 255
  else
    match (List.range 255).find? (fun i => (statEntry s e i).valid && decide ((statEntry s e i).tensor = tensor)) with
    | some i => i
    | none =>
      match (List.range 255).find? (fun i => !(statEntry s e i).valid) with
      | some i => i
      | none => 255

/-- A U32 count raised; whether it would pass its largest value (R77). -/
def satU32 (a n : Nat) : Nat × Bool := (min (a + n) (2 ^ 32 - 1), decide (2 ^ 32 - 1 < a + n))

/-- The counts of a set of written elements. -/
structure Tally where
  total : Nat := 0
  clipped : Nat := 0
  flushed : Nat := 0
  nonfin : Nat := 0
  amax : BitVec 32 := 0

def Tally.add (t : Tally) (q : Quant) (x : BitVec 32) : Tally :=
  let m := x &&& 0x7FFFFFFF
  { total := t.total + 1, clipped := t.clipped + q.clipped.toNat, flushed := t.flushed + q.flushed.toNat
    nonfin := t.nonfin + q.nonfin.toNat, amax := if numFinite (f32Dec x) ∧ t.amax < m then m else t.amax }

/-- The update of a tensor's entry (R75 to R77). TOTAL, a U64, stays at its largest value (DESIGN CHOICE, log 3). -/
def statUpdate (s : State) (e tensor : Nat) (t : Tally) : State :=
  let i := statIndex s e tensor
  let x := statEntry s e i
  let (cl, o1) := satU32 x.clipped t.clipped
  let (fl, o2) := satU32 x.flushed t.flushed
  let (nf, o3) := satU32 x.nonfinite t.nonfin
  setStat s e i { tensor := if i = 255 then 0xFFFF else tensor, valid := true, saturated := x.saturated || o1 || o2 || o3
                  amax := if x.amax < t.amax then t.amax else x.amax, total := min (x.total + t.total) (2 ^ 64 - 1)
                  clipped := cl, flushed := fl, nonfinite := nf }

/-! ### Rows of results into an output (R66 to R74, R96) -/

/-- One row of results quantised: codes, block scales and zero points, and the quantised elements. -/
structure QRow where
  quants : List Quant
  metas  : List (Nat × Nat)

/-- A list cut into pieces of n; `fuel` at least the number of pieces. -/
def chunks {α : Type} (n : Nat) : Nat → List α → List (List α)
  | 0, _ => []
  | k + 1, l => if l.isEmpty then [] else l.take n :: chunks n k (l.drop n)

/-- A row quantised block by block with its random bits (R66, R70, R72). -/
def quantRow (f : Fmt) (mode : Nat) (c : Int) (xs : List (BitVec 32)) (rs : Nat → Nat) : QRow :=
  let ys := (List.range xs.length).map (fun j => (scaleOut (xs.getD j 0) c, rs j))
  let bs := (chunks 32 (xs.length + 1) ys).map (quantBlock f mode)
  { quants := bs.flatMap (fun b => b.elems), metas := if f.blocked then bs.map (fun b => (b.scale, b.zp)) else [] }

/-- The counts of a quantised row. -/
def tallyRow (t : Tally) (q : QRow) (xs : List (BitVec 32)) : Tally :=
  (List.range xs.length).foldl (fun t j => t.add (q.quants.getD j { code := 0 }) (xs.getD j 0)) t

/-- The writes of a row-major output of `rows` rows: elements of row r, its scales, its zero points (R39, R96). -/
def planeWrites (f : Fmt) (rows k pitch r : Nat) (q : QRow) : List (Nat × Bytes) :=
  let el := (r * pitch, packCodes f.w (q.quants.map (fun x => x.code)))
  match f.mt with
  | .none => [el]
  | .e8m0 => [el, (rows * pitch + r * blocksOf k, q.metas.flatMap (fun m => natLE 1 m.1))]
  | .zero => [el, (rows * pitch + 2 * (r * blocksOf k), q.metas.flatMap (fun m => natLE 2 m.1)),
      (rows * pitch + 2 * (rows * blocksOf k) + r * blocksOf k, q.metas.flatMap (fun m => natLE 1 m.2))]

/-- The writes of all rows of an output, row-major or in the array layout with G = 4 (R96). -/
def outWrites (f : Fmt) (skew : Bool) (rows k t pitch : Nat) (qs : List QRow) : List (Nat × Bytes) :=
  (List.range rows).flatMap (fun r =>
    let q := qs.getD r ⟨[], []⟩
    if skew then (Lay.mk f rows k t pitch 4).rowWrites r (q.quants.map (fun x => x.code)) q.metas
    else planeWrites f rows k pitch r q)

/-- Bytes that an output spans. -/
def outBytes (f : Fmt) (skew : Bool) (rows k t pitch : Nat) : Nat :=
  if skew then (Lay.mk f rows k t pitch 4).bytes else f.planes rows k pitch

end Sys2Proof.Machine
end

