-- ==== Sys2Proof/Machine/SpoolControl.lean ====
section
/-! DEFINITION. The commands that drive a spool: doorbells and the submission lock (R143, R145, R454), its configuration
(R149, R472), the context slot's assignment (R426, R472) and cancellation by register (R168), fetching (R146, R471),
completions (R148), and the synchronisation commands SIGNAL, WAIT, FENCE, CANCEL and PREFETCH (R152 to R154, R167, R168). -/

namespace Sys2Proof.Machine

open Sys2Proof

/-! ### Engines that are not ACTIVE hold the accesses that wake them (R424) -/

def engActive (s : State) (e : Nat) : Bool := decide (getF s (rEngPwr e) fEngPwrState = 0)

/-- An access that wakes an engine: performed where the engine is ACTIVE, else held until it is. -/
def whenAwake (s : State) (e : Nat) (c : Instr) (f : State → State) : State :=
  if engActive s e then f s
  else
    let a := engAux s e
    setEngAux s e { a with heldWake := a.heldWake ++ [c], wake := true }

/-! ### Doorbells and the lock -/

/-- 1 ms in ns: the lease limit (R454). -/
def leaseNs : Nat := 1000000

/-- A doorbell write (R143): refused or accepted; the accepted write of the lock's holder frees the lock (R145). -/
def doorbell (s : State) (ag : Agent) (u : SpoolId) (tail : Nat) : State :=
  let sp := spool s u
  let old := sqTail s u
  let held : Bool := match sp.lease with
    | some (h, _) => decide (h ≠ ag)
    | none => false
  if 2 ^ 31 ≤ (tail + 2 ^ 32 - old) % 2 ^ 32 ∨ 2 ^ sqLog2 s u < (tail + 2 ^ 32 - sp.done % 2 ^ 32) % 2 ^ 32 ∨ held ∨
      sp.expired = some ag ∨ spState s u ≠ spActive then setF s (rSpStatus u.e u.n u.s) fSpStatusDbErr 1
  else
    let s := setR s (rSqTail u.e u.n u.s) (BitVec.ofNat 64 tail)
    match sp.lease with
    | some (h, _) => if h = ag then setF (setSpool s u { sp with lease := none }) (rSpLock u.e u.n u.s) fSpLockHolder 0 else s
    | none => s

/-- SQ_TAIL (R143): a doorbell. -/
def execSqTail (ag : Agent) (u : SpoolId) (val : BitVec 32) (s : State) : Host.Outcome State Fault Refusal :=
  .next (guarded s ag (rSqTail u.e u.n u.s).key (fun s => whenAwake s u.e (.sqTail ag u val) (fun s => doorbell s ag u val.toNat)))

/-- A value returned by a register read. -/
def putOut (s : State) (v : Word) : State := { s with mgmt := { s.mgmt with regOut := s.mgmt.regOut ++ [v] } }

/-- A read of SP_LOCK that may take the lock (R145), and what it returns. -/
def lockRead (s : State) (ag : Agent) (u : SpoolId) : State × Word :=
  let sp := spool s u
  let r := rSpLock u.e u.n u.s
  let grant (s : State) : State × Word :=
    let sp := spool s u
    let s := if sp.expired = some ag then setF (setSpool s u { sp with expired := none }) r fSpLockExpired 0 else s
    (s, fset (getR s r) fSpLockGranted 1)
  match sp.lease with
  | some (h, _) => if h = ag then grant s else (s, getR s r)
  | none => grant (setF (setSpool s u { sp with lease := some (ag, s.time) }) r fSpLockHolder (Config.requesterId ag).toNat)

/-- SP_LOCK (R145): a 64-bit read or a read of the lower half may take the lock; a read of the upper half returns bits
[63:32] and takes nothing; another width is refused (R447). A refused read returns 0 (R371). -/
def execSpLock (ag : Agent) (u : SpoolId) (acc : RegAccess) (s : State) : Host.Outcome State Fault Refusal :=
  let r := rSpLock u.e u.n u.s
  .next (
    if ¬regRight s ag r.key then putOut (violation s) 0
    else match acc with
      | .w64 | .lo32 =>
        let (s, v) := lockRead s ag u
        putOut s (if acc = .w64 then v else v &&& 0xFFFFFFFF)
      | .hi32 => putOut s (getR s r >>> 32)
      | .bad => { s with hub := { s.hub with accOut := s.hub.accOut ++ [denied ag] } })

/-- LEASE_EXPIRY (R454): the lease is over 1 ms after the GRANTED read. -/
def execLeaseExpiry (u : SpoolId) (s : State) : Host.Outcome State Fault Refusal :=
  .next (
    let sp := spool s u
    match sp.lease with
    | none => s
    | some (h, t) =>
      if s.time < t + leaseNs then s
      else
        let s := setSpool s u { sp with lease := none, expired := some h }
        let s := setF (setF s (rSpLock u.e u.n u.s) fSpLockHolder 0) (rSpLock u.e u.n u.s) fSpLockExpired (Config.requesterId h).toNat
        setF s (rSpStatus u.e u.n u.s) fSpStatusLeaseErr 1)

/-! ### SP_CFG (R149, R472) -/

/-- A spool with its counts at 0 and nothing in it; the lock stays. -/
def zeroSpool (s : State) (u : SpoolId) : State :=
  let sp := spool s u
  let s := setSpool s u { lease := sp.lease, expired := sp.expired }
  let s := setR (setR s (rSqTail u.e u.n u.s) 0) (rCqPtr u.e u.n u.s) 0
  { s with eng := { s.eng with issued := s.eng.issued.filter (fun x => !decide (x.1.1 = u)) } }

/-- The slot has been killed since VALID was set. -/
def slotKilled (s : State) (e n : Nat) : Bool := getB s (rFrStatus e n) fFrStatusKilled

/-- A write of SP_CFG (R472): ignored whole with a log2 outside 6 to 16. -/
def spCfgWrite (s : State) (u : SpoolId) (val : Word) : State :=
  let r := rSpCfg u.e u.n u.s
  let sq := fget val fSpCfgSqLog2
  let cq := fget val fSpCfgCqLog2
  let en := decide (fget val fSpCfgEnable = 1)
  if sq < 6 ∨ 16 < sq ∨ cq < 6 ∨ 16 < cq then s
  else if ¬getB s r fSpCfgEnable then
    let s := setF (setF s r fSpCfgSqLog2 sq) r fSpCfgCqLog2 cq
    if en then
      let s := zeroSpool (setF s r fSpCfgEnable 1) u
      setSpState s u (if slotKilled s u.e u.n then spKilled else spActive)
    else s
  else if en then
    if fget val fSpCfgResume = 1 ∧ spState s u = spStopped then setSpState s u spActive else s
  else
    let s := setSpState (setF s r fSpCfgEnable 0) u spCancelling
    let s := (cancelSpool s u).1
    flushSpool (releaseSets s u.e u.n (fun v => decide (v = u))) u

/-- SP_CFG_ENABLE (R472). -/
def execSpCfgEnable (ag : Agent) (u : SpoolId) (val : BitVec 64) (s : State) : Host.Outcome State Fault Refusal :=
  .next (guarded s ag (rSpCfg u.e u.n u.s).key (fun s => spCfgWrite s u val))

/-- SP_CFG_DISABLE (R472). -/
def execSpCfgDisable (ag : Agent) (u : SpoolId) (val : BitVec 64) (s : State) : Host.Outcome State Fault Refusal :=
  .next (guarded s ag (rSpCfg u.e u.n u.s).key (fun s => spCfgWrite s u val))

/-- RESUME (R149). -/
def execResume (ag : Agent) (u : SpoolId) (val : BitVec 64) (s : State) : Host.Outcome State Fault Refusal :=
  .next (guarded s ag (rSpCfg u.e u.n u.s).key (fun s => spCfgWrite s u val))

/-! ### Context slots (R168, R426, R472) -/

/-- The spools of a mask cancelled (R168, R169): how many unfetched slots were skipped. -/
def cancelMask (s : State) (e : Fin 32) (n : Fin 16) (mask : Nat) (all : Bool) : State × Nat :=
  let (s, k) := (List.finRange 4).foldl (fun (a : State × Nat) i =>
    if bitOf mask i.val then
      let (s, k) := cancelSpool a.1 ⟨e, n, i⟩
      (s, a.2 + k)
    else a) (s, 0)
  let s := releaseSets s e n (fun v => bitOf mask v.s.val)
  (if all then releaseAll s e n else s, k)

/-- Every spool of a slot: held records and final states. -/
def flushCtx (s : State) (e : Fin 32) (n : Fin 16) : State :=
  (List.finRange 4).foldl (fun s i => flushSpool s ⟨e, n, i⟩) s

/-- The slot assigned (R472): EPOCH rises, its spools are DISABLED with ENABLE 0, its fault sequence starts at 0 (R260), its
counters are reset. -/
def assignSlot (s : State) (e : Fin 32) (n : Fin 16) : State :=
  let s := advance (setF s (rCtxCfg e n) fCtxCfgValid 1) (rCtxCfg e n) fCtxCfgEpoch 1
  let s := setCtxAux s e n {}
  let s := setF s (rFrStatus e n) fFrStatusKilled 0
  let s := setR s (rCtxMatrixCnt e n) 0
  (List.finRange 4).foldl (fun s i =>
    let u : SpoolId := ⟨e, n, i⟩
    let s := setF s (rSpCfg e n i) fSpCfgEnable 0
    setSpState (zeroSpool s u) u spDisabled) s

/-- A write of CTX_CFG_n: ASTAG and PARTITION only while VALID = 0; VALID 0 to 1 assigns the slot, unless PARTITION is not the
engine's owner (R369); VALID 1 to 0 cancels all
its spools and releases its READY bobbins, and VALID reads 0 once the last record is written (R426). -/
def ctxCfgWrite (s : State) (e : Fin 32) (n : Fin 16) (val : Word) : State :=
  let r := rCtxCfg e n
  let v := decide (fget val fCtxCfgValid = 1)
  if ¬getB s r fCtxCfgValid then
    let s := setF (setF s r fCtxCfgAstag (fget val fCtxCfgAstag)) r fCtxCfgPartition (fget val fCtxCfgPartition)
    if v then (if engOwner s e = some (ctxPart s e n) then assignSlot s e n else violation s) else s
  else if v then s
  else
    let s := (cancelMask s e n 15 true).1
    flushCtx (setCtxAux s e n { ctxAux s e n with clearing := true }) e n

/-- CTX_CFG_VALID_SET (R472): it wakes the engine (R424). -/
def execCtxCfgValidSet (ag : Agent) (e : Fin 32) (n : Fin 16) (val : BitVec 64) (s : State) : Host.Outcome State Fault Refusal :=
  .next (guarded s ag (rCtxCfg e n).key (fun s => whenAwake s e (.ctxCfgValidSet ag e n val) (fun s => ctxCfgWrite s e n val)))

/-- CTX_CFG_VALID_CLEAR (R426). -/
def execCtxCfgValidClear (ag : Agent) (e : Fin 32) (n : Fin 16) (val : BitVec 64) (s : State) : Host.Outcome State Fault Refusal :=
  .next (guarded s ag (rCtxCfg e n).key (fun s => ctxCfgWrite s e n val))

/-- CTX_CANCEL (R168). -/
def execCtxCancel (ag : Agent) (e : Fin 32) (n : Fin 16) (mask : BitVec 4) (all : Bool) (s : State) : Host.Outcome State Fault Refusal :=
  .next (guarded s ag (rCtxCancel e n).key (fun s => flushCtx (cancelMask s e n mask.toNat all).1 e n))

/-! ### Fetching (R146, R471) -/

/-- The VA of the slot of a count. -/
def slotVa (s : State) (u : SpoolId) (x : Nat) : Nat :=
  (getR s (rSqBase u.e u.n u.s)).toNat / 4096 * 4096 + x % 2 ^ sqLog2 s u * 64

/-- What a read of a ring slot gives. -/
inductive SlotRead
  | bytes (b : Bytes) (poison : Option Nat)
  | fault (i : FaultInfo) (replay : Bool)
  | asks (q : XReq) (va : Nat) (e : RcEntry)
  | later

def readSlot (s : State) (u : SpoolId) (x : Nat) : State × SlotRead :=
  let va := slotVa s u x
  match xlateRing s u false va 64 with
  | (s, .ok ps) => (piecesTouch s ps, .bytes (piecesRead s ps) (if piecesPoisoned s ps then some (firstPoison s ps) else none))
  | (s, .fault a cause r) => (s, .fault { va := a, astag := ctxAstag s u.e u.n, cause := cause, write := false, unit := 1, since := s.time } r)
  | (s, .consult a e) => (s, .asks (engReq s u 1 false true) a e)
  | (s, .wait _) => (s, .later)

/-- The next slot may be fetched: fetch buffer below 32 commands, slots below TAIL, fetching not held (R146, R471), the module
serving work (R25). -/
def mayFetch (s : State) (u : SpoolId) : Bool :=
  let sp := spool s u
  decide (sp.cmds.length < 32) && decide (sp.fetched % 2 ^ 32 ≠ sqTail s u) && sp.fetchHold.isNone &&
    (decide (spState s u = spActive) || decide (spState s u = spStopped)) && !s.pow.stopped

/-- A command joins the fetch buffer. -/
def pushCmd (s : State) (u : SpoolId) (c : Cmd) : State :=
  let sp := spool s u
  setSpool s u { sp with cmds := sp.cmds ++ [c], fetched := (sp.fetched + c.nslots) % 2 ^ 32, fetchFirst := none }

/-- A faulting fetch goes down the kill path: its slot completes with the fault's status (R471). -/
def fetchKill (s : State) (u : SpoolId) (i : FaultInfo) (cause detail : Nat) : State :=
  let slot := (spool s u).fetched
  let s := pushCmd s u { newCmd slot 1 [] with phase := .ended, status := causeStatus i.cause, detail := detail, step := curStep s (ctxPart s u.e u.n) }
  killCtx s u.e u.n (killRec u 0 slot i cause)

/-- A fetch that faults (R471): on the replay path fetching is held under a record; on the kill path the slot completes
with the fault's status and the context is killed. While a kill is in progress nothing is fetched. -/
def fetchFault (s : State) (u : SpoolId) (i : FaultInfo) (replay : Bool) : State :=
  let sp := spool s u
  let slot := sp.fetched
  let first := sp.fetchFirst.getD i
  if killing s u.e u.n then s
  else if replay ∧ s.time < first.since + replayLimitNs s then
    let (seq, s) := takeSeq s u.e u.n
    let s := setSpool s u { sp with fetchHold := some (seq, first) }
    putFault s u.e u.n (faultBytes s u 0 slot i i.cause seq true false)
  else if replay then fetchKill s u first fReplayLimit (ctxAux s u.e u.n).seq
  else
    let (seq, s) := takeSeq s u.e u.n
    let s := putFault s u.e u.n (faultBytes s u 0 slot i i.cause seq false false)
    fetchKill s u i i.cause seq

/-- A consult request of a spool's ring read is outstanding. -/
def fetchAsked (s : State) (u : SpoolId) : Bool :=
  s.hub.consults.any (fun c => decide (c.req.unit = 1) && !c.req.write && decide (c.req.e = u.e ∧ c.req.ctx = u.n ∧ c.req.spool = u.s))

/-- A slot whose first line is poisoned completes with POISON and occupies one slot (R471). -/
def pushPoisoned (s : State) (u : SpoolId) (a : Nat) : State :=
  let st := curStep s (ctxPart s u.e u.n)
  let s := cmdPoison s u st a
  pushCmd s u { newCmd (spool s u).fetched 1 [] with poisonFirst := true, phase := .ended, status := stPoison, step := st }

/-- The next slot's first 64 bytes: those of the issue path, else a ring read. -/
def nextSlot (s : State) (u : SpoolId) : State × SlotRead :=
  let x := (spool s u).fetched
  match mapFind s.eng.issued (u, x) with
  | some b => (s, .bytes b none)
  | none => readSlot s u x

/-- The three further slots of a TRANSFER_INLINE read. -/
def readMore (s : State) (u : SpoolId) (x : Nat) : Nat → Bytes → Option Nat → State × SlotRead
  | 0, acc, p => (s, .bytes acc p)
  | k + 1, acc, p =>
    match readSlot s u (x % 2 ^ 32) with
    | (s, .bytes b q) => readMore s u (x + 1) k (acc ++ b) (match p with | some _ => p | none => q)
    | r => r

/-- One command fetched; whether fetching goes on. A CANCEL is left for its own event (R168). -/
def fetchOne (s : State) (u : SpoolId) : State × Bool :=
  if ¬mayFetch s u then (s, false)
  else
    let x := (spool s u).fetched
    match nextSlot s u with
    | (s, .later) => (s, false)
    | (s, .asks q va e) => (if fetchAsked s u then s else (addConsult s (cmdXreq q u x va) e).1, false)
    | (s, .fault i r) => (fetchFault s u i r, false)
    | (s, .bytes _ (some a)) => (pushPoisoned s u a, true)
    | (s, .bytes b none) =>
      if u8At b 0 = 0x7F then (s, false)
      else if u8At b 0 = 2 then
        if (sqTail s u + 2 ^ 32 - x % 2 ^ 32) % 2 ^ 32 < 4 then (s, false)
        else if b.length = 256 then
          (pushCmd { s with eng := { s.eng with issued := mapDel s.eng.issued (u, x) } } u (newCmd x 4 b), true)
        else
          match readMore s u (x + 1) 3 b none with
          | (s, .bytes b p) =>
            let s := match p with
              | some a => consumePoison s (ctxPart s u.e u.n) none a u.e (u.e.val / 4)
              | none => s
            (pushCmd s u { newCmd x 4 b with poisonLater := p.isSome }, true)
          | (s, .later) => (s, false)
          | (s, .asks q va e) => (if fetchAsked s u then s else (addConsult s (cmdXreq q u x va) e).1, false)
          | (s, .fault i r) => (fetchFault s u i r, false)
      else (pushCmd { s with eng := { s.eng with issued := mapDel s.eng.issued (u, x) } } u (newCmd x 1 b), true)

def fetchMany (s : State) (u : SpoolId) : Nat → State
  | 0 => s
  | k + 1 =>
    match fetchOne s u with
    | (s, true) => fetchMany s u k
    | (s, false) => s

/-- COMMAND_FETCH (R146, R471): the next commands up to TAIL, 32 in the buffer, or a CANCEL. -/
def execCommandFetch (u : SpoolId) (s : State) : Host.Outcome State Fault Refusal := .next (fetchMany s u 32)

/-! ### Completing (R148) -/

/-- Opcodes and operation codes that some command of R147 has. -/
def cmdKnown (b : Bytes) : Bool :=
  let o := u8At b 0
  [0x01, 0x02, 0x10, 0x11, 0x18, 0x20, 0x41, 0x42, 0x50, 0x51, 0x52, 0x60, 0x70, 0x7F].elem o ||
    (decide (o = 0x30) && decide (u8At b 8 % 4 < 2)) || (decide (o = 0x40) && [0, 1, 2, 3, 4, 8, 9, 10, 11].elem (u8At b 8 % 16))

/-- A command of no kind, or a code of no operation, completes with FORMAT once it is the oldest unstarted (R147). -/
def refuseUnknown (s : State) (u : SpoolId) (slot : Nat) : State :=
  match startable s u with
  | some c0 =>
    if c0.slot = slot ∧ ¬cmdKnown c0.bytes then
      let (s, c) := markStart s u c0
      endCmd (putCmd s u c) u c.slot stFormat 0
    else s
  | none => s

/-- COMMAND_COMPLETE (R148): the command at a slot count, if it has ended, completes. -/
def execCommandComplete (u : SpoolId) (slot : BitVec 32) (s : State) : Host.Outcome State Fault Refusal :=
  .next (
    let s := refuseUnknown s u slot.toNat
    match spoolCmd s u slot.toNat with
    | some c => if c.phase = .ended then completeCmd s u c else s
    | none => s)

/-- CQ_HEAD (R148): software's count of consumed records; held records follow. -/
def execCqHead (ag : Agent) (u : SpoolId) (val : BitVec 32) (s : State) : Host.Outcome State Fault Refusal :=
  .next (guarded s ag (rCqPtr u.e u.n u.s).key (fun s =>
    flushSpool (setR s (rCqPtr u.e u.n u.s) (BitVec.ofNat 64 (cqTail s u + 2 ^ 32 * val.toNat))) u))

/-! ### SIGNAL, WAIT, FENCE (R152 to R154) -/

/-- One poll of a WAIT: its condition met, the poison of its word consumed, or the last value noted. The value that the
poisoned read gave is not stated, so DETAIL is then free (DESIGN CHOICE, log 110). -/
def waitBody (u : SpoolId) (s : State) (c : Cmd) : State × Cmd × Act :=
  match reach s (engReq s u 9 false true) (u64At c.bytes 16) 8 with
  | (s, .error a) => (s, c, a)
  | (s, .ok ps) =>
    let s := piecesTouch s ps
    if piecesPoisoned s ps then
      let (v, s) := drawFree (cmdPoison s u c.step (firstPoison s ps))
      (s, c, .ends stPoison v.toNat)
    else
      let v := leNat (piecesRead s ps)
      let x := u64At c.bytes 24
      let cond := u8At c.bytes 8 % 4
      let met := if cond = 0 then decide (x ≤ v) else if cond = 1 then decide (v = x) else decide (v ≠ x)
      if met then (s, c, .ends stOk v) else (s, { c with detail := v }, .runs)

def waitBad (_ : State) (c : Cmd) : Bool :=
  let b := c.bytes
  !(decide (u8At b 8 < 3) && zeroSpan b 9 3 && decide (u32At b 12 ≤ 1000000) && decide (u64At b 16 % 8 = 0) && zeroSpan b 32 32)

/-- A started WAIT of a spool reads its word again. -/
def pollWait (s : State) (u : SpoolId) : State :=
  match (spool s u).cmds.find? (fun c => decide (c.opcode = 0x51) && decide (c.phase = .started) && decide (c.stall = .none)) with
  | none => s
  | some c =>
    let (s2, c2, act) := waitBody u s c
    applyAct s s2 u c2 act

/-- WAIT (R153). -/
def execWait (u : SpoolId) (s : State) : Host.Outcome State Fault Refusal :=
  .next (runCmd s u (fun b => decide (u8At b 0 = 0x51)) waitBad (fun _ => []) (waitBody u))

/-- WAIT_POLL (R153). -/
def execWaitPoll (u : SpoolId) (s : State) : Host.Outcome State Fault Refusal := .next (pollWait s u)

/-- WAIT_TIMEOUT (R153): TIMEOUT µs after its start an unmet WAIT ends, with the value last read. -/
def execWaitTimeout (u : SpoolId) (s : State) : Host.Outcome State Fault Refusal :=
  .next (
    match (spool s u).cmds.find? (fun c => decide (c.opcode = 0x51) && c.live) with
    | none => s
    | some c =>
      let t := u32At c.bytes 12
      if t = 0 ∨ s.time < c.since + t * 1000 then s else endCmd s u c.slot stTimeout c.detail)

/-- Every started WAIT of the engine on an address reads it again at once (R153). -/
def pollWaits (s : State) (e : Fin 32) (va : Nat) : State :=
  (List.finRange 16).foldl (fun s n => (List.finRange 4).foldl (fun s i =>
    let v : SpoolId := ⟨e, n, i⟩
    if (spool s v).cmds.any (fun c => decide (c.opcode = 0x51) && decide (u64At c.bytes 16 = va)) then pollWait s v else s) s) s

/-- An atomic counted where it runs (R281, R282). -/
def countAtomic (s : State) (ps : List Piece) : State :=
  if ps.any (fun p => p.shared) then bump s rHomeAtomics fHomeAtomics 1 else bump s rNearAtomics fNearAtomics 1

/-- An atomic at home recalls its line from every cache; the line ends in NONE (R281). -/
def recallPieces (s : State) (ps : List Piece) : State :=
  ps.foldl (fun s p => if p.shared then (linesOf p.mpa p.n).foldl (fun s l => recallLine s l false) s else s) s

/-- The write of a SIGNAL whose earlier commands have completed (R152); an atomic add that meets poison consumes it
(R283). -/
def signalBody (u : SpoolId) (s : State) (c : Cmd) : State × Cmd × Act :=
  let before := (spool s u).cmds.takeWhile (fun d => decide (d.slot ≠ c.slot))
  if before ≠ [] then (s, c, .runs)
  else
    let add := decide (u8At c.bytes 8 = 1)
    let va := u64At c.bytes 16
    match reach s (engReq s u 9 true add) va 8 with
    | (s, .error (.held ps)) => (s, c, .holds ps)
    | (s, .error a) => (s, c, a)
    | (s, .ok ps) =>
      if add then
        let s := recallPieces (countAtomic s ps) ps
        if piecesPoisoned s ps then (cmdPoison s u c.step (firstPoison s ps), c, .ends stPoison 0)
        else
          let old := leNat (piecesRead s ps)
          (pollWaits (piecesWrite s ps (natLE 8 (old + u64At c.bytes 24))) u.e va, c, .ends stOk 0)
      else (pollWaits (piecesWrite s ps (natLE 8 (u64At c.bytes 24))) u.e va, c, .ends stOk 0)

def signalBad (_ : State) (c : Cmd) : Bool :=
  let b := c.bytes
  !(decide (u8At b 8 < 2) && zeroSpan b 9 7 && decide (u64At b 16 % 8 = 0) && zeroSpan b 32 32)

/-- SIGNAL (R152): it starts when it is the oldest unstarted command; once every earlier command of its spool has
completed it writes and ends. -/
def execSignal (u : SpoolId) (s : State) : Host.Outcome State Fault Refusal :=
  .next (
    match (spool s u).cmds with
    | c :: _ =>
      if c.opcode = 0x50 ∧ c.phase = .started ∧ c.stall = .none then
        let (s2, c2, act) := signalBody u s c
        applyAct s s2 u c2 act
      else runCmd s u (fun b => decide (u8At b 0 = 0x50)) signalBad (fun _ => []) (signalBody u)
    | [] => s)

/-- FENCE (R154): what it waits for are the masked spools' commands fetched before it started, of its own spool those
before it. -/
def fenceBody (u : SpoolId) (s : State) (c : Cmd) : State × Cmd × Act :=
  let mask := u8At c.bytes 8 / 4 % 16
  let deps := (List.finRange 4).flatMap (fun i =>
    if bitOf mask i.val then
      let v := sibling u i
      let l := if v = u then (spool s v).cmds.takeWhile (fun d => decide (d.slot ≠ c.slot)) else (spool s v).cmds
      l.map (fun d => (v, d.slot))
    else [])
  if deps = [] then (s, c, .ends stOk 0) else (s, { c with deps := deps }, .runs)

def fenceBad (_ : State) (c : Cmd) : Bool :=
  let b := c.bytes
  !(decide (u8At b 8 % 4 = 0) && decide (u8At b 8 / 64 < 3) && zeroSpan b 9 55)

/-- FENCE (R154). -/
def execFence (u : SpoolId) (s : State) : Host.Outcome State Fault Refusal :=
  .next (runCmd s u (fun b => decide (u8At b 0 = 0x52)) fenceBad (fun _ => []) (fenceBody u))

/-! ### CANCEL (R168) -/

/-- The fields of a CANCEL. -/
def cancelOk (b : Bytes) : Bool := headerOk b && decide (u8At b 8 < 32) && zeroSpan b 9 55

/-- The effect of a CANCEL of spool u at its fetch: its own spool loses only the commands before it. -/
def cancelAt (s : State) (u : SpoolId) (mask : Nat) (all : Bool) : State × Nat :=
  let (s, k) := (List.finRange 4).foldl (fun (a : State × Nat) i =>
    if bitOf mask i.val then
      let v := sibling u i
      if v = u then (cancelCmds a.1 v (fun _ => true), a.2)
      else
        let (s, k) := cancelSpool a.1 v
        (s, a.2 + k)
    else a) (s, 0)
  let s := releaseSets s u.e u.n (fun v => bitOf mask v.s.val)
  (if all then releaseAll s u.e u.n else s, k)

/-- CANCEL (R168): acts when it is fetched. -/
def execCancel (u : SpoolId) (s : State) : Host.Outcome State Fault Refusal :=
  .next (
    if ¬mayFetch s u then s
    else
      let x := (spool s u).fetched
      match nextSlot s u with
      | (s1, .bytes b none) =>
        if u8At b 0 ≠ 0x7F then s
        else
          let s := { s1 with eng := { s1.eng with issued := mapDel s1.eng.issued (u, x) } }
          let st := curStep s (ctxPart s u.e u.n)
          if ¬cancelOk b then endCmd (pushCmd s u { newCmd x 1 b with step := st }) u x stFormat 0
          else
            let (s, k) := cancelAt s u (u8At b 8 % 16) (bitOf (u8At b 8) 4)
            pushCmd s u { newCmd x 1 b with phase := .ended, status := stOk, detail := k, step := st }
      | _ => s)

/-! ### PREFETCH (R167) -/

/-- The entries of a range loaded piece by piece until one does not translate: the bytes covered. -/
def prefetchFrom (s : State) (q : XReq) (target : Nat) : Nat → Nat → Nat → Nat → State × Nat
  | 0, _, _, done => (s, done)
  | k + 1, va, n, done =>
    if n = 0 then (s, done)
    else
      match lookupEntry s q va with
      | (s, .entry e) =>
        let m := min n (e.start + e.len - va)
        let mpa := e.mpa + (va - e.start)
        let s := if target = 1 then touchSpan s mpa m q.astag e.hint
          else if target = 2 ∧ e.hint ≠ 3 ∧ e.hint ≠ 0 then (granulesOf mpa m).foldl (fun s g => queuePromotion s g q.astag q.part) s
          else s
        prefetchFrom s q target k (va + m) (n - m) (done + m)
      | (s, _) => (s, done)

def prefetchBody (u : SpoolId) (s : State) (c : Cmd) : State × Cmd × Act :=
  let n := u64At c.bytes 24
  let (s, k) := prefetchFrom s { engReq s u 0 false false with noPerm := true } (u8At c.bytes 8) (n / 65536) (u64At c.bytes 16) n 0
  (s, c, .ends stOk k)

def prefetchBad (_ : State) (c : Cmd) : Bool :=
  let b := c.bytes
  !(decide (u8At b 8 < 3) && zeroSpan b 9 7 && decide (u64At b 16 % 65536 = 0) && decide (u64At b 24 % 65536 = 0) &&
    decide (65536 ≤ u64At b 24) && decide (u64At b 24 ≤ 2 ^ 48) && zeroSpan b 32 32)

/-- PREFETCH (R167). -/
def execPrefetch (u : SpoolId) (s : State) : Host.Outcome State Fault Refusal :=
  .next (runCmd s u (fun b => decide (u8At b 0 = 0x70)) prefetchBad (fun _ => []) (prefetchBody u))

end Sys2Proof.Machine
end

