-- ==== Sys2Proof/Machine/BobbinControl.lean ====
section
/-! DEFINITION. The bobbin marks (R156, R158), the commit of the bobbin configuration (R155), and the answers to fault
records: FR_RESUME, the kill record, REPLAY_LIMIT and the rings' consumer counts (R257 to R261). -/

namespace Sys2Proof.Machine

open Sys2Proof

/-! ### BOB_MARK -/

/-- A mark of a bobbin by its context: refused and counted for a bobbin that is not allocated, belongs to another slot or
is a staging bobbin (R156, R163). -/
def markBob (s : State) (ag : Agent) (e : Fin 32) (n : Fin 16) (b : Nat) (c : Instr) (f : State → State) : State :=
  guarded s ag (rBobMark e n).key (fun s => whenAwake s e c (fun s => if badBobbin s ⟨e, n, 0⟩ b then bobErr s e n else f s))

def markFill (s : State) (e n b : Nat) : State :=
  if bobState s e b = bEmpty then setBobAux (setBob s e b bFilling 0 true 0) e b {} else bobErr s e n

def markReady (s : State) (e n b readers : Nat) : State :=
  if bobState s e b = bFilling ∧ bobMarked s e b then bobToReady s e b readers else bobErr s e n

def markRelease (s : State) (e n b : Nat) : State :=
  if bobState s e b = bReady ∨ (bobState s e b = bFilling ∧ bobMarked s e b) then bobToEmpty s e b else bobErr s e n

/-- BOB_MARK_FILL (R156). -/
def execBobMarkFill (ag : Agent) (e : Fin 32) (n : Fin 16) (b : Fin 256) (s : State) : Host.Outcome State Fault Refusal :=
  .next (markBob s ag e n b (.bobMarkFill ag e n b) (fun s => markFill s e n b))

/-- BOB_MARK_READY (R156). -/
def execBobMarkReady (ag : Agent) (e : Fin 32) (n : Fin 16) (b : Fin 256) (readers : BitVec 16) (s : State) : Host.Outcome State Fault Refusal :=
  .next (markBob s ag e n b (.bobMarkReady ag e n b readers) (fun s => markReady s e n b readers.toNat))

/-- BOB_MARK_CONSUMED (R158). -/
def execBobMarkConsumed (ag : Agent) (e : Fin 32) (n : Fin 16) (b : Fin 256) (s : State) : Host.Outcome State Fault Refusal :=
  .next (markBob s ag e n b (.bobMarkConsumed ag e n b) (fun s => bobRead s e n b))

/-- BOB_MARK_RELEASE (R156). -/
def execBobMarkRelease (ag : Agent) (e : Fin 32) (n : Fin 16) (b : Fin 256) (s : State) : Host.Outcome State Fault Refusal :=
  .next (markBob s ag e n b (.bobMarkRelease ag e n b) (fun s => markRelease s e n b))

/-! ### BOB_ARM (R155) -/

/-- The pending entry of bobbin b: its span in 64 KiB units where it is valid. -/
def pendBob (s : State) (e b : Nat) : Word := getPend s (rBobCfg e b)
def pendValid (s : State) (e b : Nat) : Bool := decide (fget (pendBob s e b) fBobCfgValid = 1)
def pendBase (s : State) (e b : Nat) : Nat := fget (pendBob s e b) fBobCfgBase
def pendSize (s : State) (e b : Nat) : Nat := 2 ^ fget (pendBob s e b) fBobCfgSize

/-- The pending entry of a bobbin refuses the set (R155). -/
def bobBad (s : State) (e b : Nat) : Bool :=
  (pendValid s e b &&
    (decide (pendBase s e b % pendSize s e b ≠ 0) || decide (768 < pendBase s e b + pendSize s e b) ||
      (List.range 256).any (fun c => decide (c ≠ b) && pendValid s e c &&
        decide (pendBase s e b < pendBase s e c + pendSize s e c) && decide (pendBase s e c < pendBase s e b + pendSize s e b)))) ||
  (decide (pendBob s e b ≠ getR s (rBobCfg e b)) &&
    (decide (bobState s e b ≠ bEmpty) && decide (bobState s e b ≠ bUnalloc) || decide (getF s (rBobState e b) fBobStateOutstanding ≠ 0)))

/-- A bobbin's pending entry made active: a newly allocated bobbin is EMPTY, one no longer allocated UNALLOC (R156). -/
def commitBob (s : State) (e b : Nat) : State :=
  if pendBob s e b = getR s (rBobCfg e b) then s
  else
    let v := pendBob s e b
    let s := { setR s (rBobCfg e b) v with pend := mapDel s.pend (rBobCfg e b).key }
    setBobAux (setBob s e b (if fget v fBobCfgValid = 1 then bEmpty else bUnalloc) 0 false 0) e b {}

/-- The commit of the pending set (R155, R448). -/
def bobCommit (s : State) (e : Nat) : State :=
  match (List.range 256).find? (bobBad s e) with
  | some b => setF (setF s (rBobArm e) fBobArmRefused 1) (rBobArm e) fBobArmFirstBad b
  | none => setF (setF ((List.range 256).foldl (fun s b => commitBob s e b) s) (rBobArm e) fBobArmRefused 0) (rBobArm e) fBobArmFirstBad 0

/-- BOB_ARM (R155): VIEW is written with ARM. -/
def execBobArm (ag : Agent) (e : Fin 32) (view : Bool) (s : State) : Host.Outcome State Fault Refusal :=
  .next (guarded s ag (rBobArm e).key (fun s => bobCommit (setB s (rBobArm e) fBobArmView view) e))

/-! ### FR_RESUME (R258, R259) -/

/-- What a record number names among the stalls of a slot. -/
inductive Stalled
  | cmd (u : SpoolId) (c : Cmd)
  | fetch (u : SpoolId) (i : FaultInfo)
  | record (u : SpoolId) (i : FaultInfo)

/-- The stalls of a context slot with their record numbers and first faults. -/
def stallsOf (s : State) (e : Fin 32) (n : Fin 16) : List (Nat × Stalled) :=
  (List.finRange 4).flatMap (fun i =>
    let u : SpoolId := ⟨e, n, i⟩
    let sp := spool s u
    sp.cmds.filterMap (fun c => match c.stall with
      | .replay q => some (q, Stalled.cmd u c)
      | _ => none) ++
    (match sp.fetchHold with | some (q, i) => [(q, Stalled.fetch u i)] | none => []) ++
    (match sp.cqHold with | some (q, i) => [(q, Stalled.record u i)] | none => []))

/-- The stall that the low 48 bits of a record number name. -/
def stallNamed (s : State) (e : Fin 32) (n : Fin 16) (seq : Nat) : Option Stalled :=
  ((stallsOf s e n).find? (fun x => decide (x.1 % 2 ^ 48 = seq))).map (fun x => x.2)

/-- A command released from its stall: one whose unit still holds its work goes on, another issues its accesses again. A
matrix command whose tiles are done issues the drain that was held up. -/
def releaseCmd (s : State) (u : SpoolId) (c : Cmd) : State :=
  let going := (engAux s u.e).runs.any (fun r => decide (r.u = u) && decide (r.slot = c.slot) && !(r.todo.isEmpty && r.tiles.isEmpty)) ||
    s.fab.ops.any (fun o => decide (o.u = u) && decide (o.slot = c.slot)) ||
    s.fab.disps.any (fun o => decide (o.u = u) && decide (o.slot = c.slot)) ||
    s.fab.combs.any (fun o => decide (o.u = u) && decide (o.slot = c.slot))
  match taskSlotOf s u c.slot with
  | some i => updCmd (taskToReady s u.e i) u c.slot (fun c => { c with stall := .none })
  | none => updCmd s u c.slot (fun c => { c with stall := .none, phase := if going then .started else .retry })

def resumeIgnored (s : State) (e : Nat) : State := bump s (rResumeIgnored e) fResumeIgnoredCount 1

/-- FR_RESUME with RETRY. -/
def retryStall (s : State) (e : Fin 32) (n : Fin 16) (seq : Nat) : State :=
  if killing s e n then resumeIgnored s e
  else
    match stallNamed s e n seq with
    | none => resumeIgnored s e
    | some (.cmd u c) => releaseCmd s u c
    | some (.fetch u i) => setSpool s u { spool s u with fetchHold := none, fetchFirst := some i }
    | some (.record u i) => flushSpool (setSpool s u { spool s u with cqHold := none, cqFirst := some i }) u

/-- A stall taken down the kill path. -/
def killStall (s : State) (x : Nat × Stalled) (limit : Bool) : State :=
  match x.2 with
  | .cmd u c => killStalled s u c limit
  | .fetch u i =>
    let (seq, s) := stallRecord s u 0 (spool s u).fetched i limit
    fetchKill (setSpool s u { spool s u with fetchHold := none }) u i (if limit then fReplayLimit else i.cause) seq
  | .record u i =>
    match (spool s u).held with
    | [] => s
    | h :: hs =>
      let s := (stallRecord s u (u16At h.bytes 2) (u16At h.bytes 6) i limit).2
      let s := setSpool s u { spool s u with cqHold := none, held := hs }
      killCtx s u.e u.n (killRec u (u16At h.bytes 2) (u16At h.bytes 6) i (if limit then fReplayLimit else i.cause))

/-- FR_RESUME with KILL. -/
def resumeKill (s : State) (e : Fin 32) (n : Fin 16) (seq : Nat) : State :=
  if killing s e n then resumeIgnored s e
  else
    match (stallsOf s e n).find? (fun x => decide (x.1 % 2 ^ 48 = seq)) with
    | none => resumeIgnored s e
    | some x => flushCtx (killStall s x false) e n

/-- FR_RESUME_RETRY (R258). -/
def execFrResumeRetry (ag : Agent) (e : Fin 32) (n : Fin 16) (seq : BitVec 48) (s : State) : Host.Outcome State Fault Refusal :=
  .next (guarded s ag (rFrResume e).key (fun s => retryStall s e n seq.toNat))

/-- FR_RESUME_KILL (R258). -/
def execFrResumeKill (ag : Agent) (e : Fin 32) (n : Fin 16) (seq : BitVec 48) (s : State) : Host.Outcome State Fault Refusal :=
  .next (guarded s ag (rFrResume e).key (fun s => resumeKill s e n seq.toNat))

/-- The first fault of a stall. -/
def stallSince (x : Stalled) : Nat := match x with
  | .cmd _ c => (c.first.map (fun i => i.since)).getD 0
  | .fetch _ i | .record _ i => i.since

/-- REPLAY_LIMIT (R259): a stall that has lasted REPLAY_LIMIT takes the kill path. -/
def execReplayLimit (e : Fin 32) (n : Fin 16) (s : State) : Host.Outcome State Fault Refusal :=
  .next (
    if killing s e n then s
    else
      match (stallsOf s e n).find? (fun x => decide (stallSince x.2 + replayLimitNs s ≤ s.time)) with
      | none => s
      | some x => flushCtx (killStall s x true) e n)

/-- Every write of a context slot has landed or been dropped (R257): its commands have completed, their records are written, and no
access of it waits. -/
def slotQuiet (s : State) (e : Fin 32) (n : Fin 16) : Bool :=
  (List.finRange 4).all (fun i => (spool s ⟨e, n, i⟩).cmds.isEmpty && (spool s ⟨e, n, i⟩).held.isEmpty) &&
    s.hub.stalled.all (fun x => decide (x.req.agent ≠ .engine e n))

/-- KILL_RECORD (R257): once no write of the slot is to come, the kill record with a new sequence number, and the ring's MSI. -/
def execKillRecord (e : Fin 32) (n : Fin 16) (s : State) : Host.Outcome State Fault Refusal :=
  .next (
    match (ctxAux s e n).kill with
    | none => s
    | some k =>
      if ¬slotQuiet s e n then s
      else
      let (seq, s) := takeSeq s e n
      let s := setCtxAux s e n { ctxAux s e n with kill := none }
      let i : FaultInfo := { va := k.va, astag := k.astag, cause := k.cause, write := k.write, unit := k.unit, since := s.time }
      flushCtx (putFault s e n (faultBytes s ⟨e, n, Fin.ofNat 4 k.spool⟩ k.tag k.slot i k.cause seq false true)) e n)

/-! ### Partition fault rings (R261) -/


/-- The fault of a request from another peer, in the ring of the ASTAG's partition: UNIT 8, ENGINE and CTX 0 (R261). -/
def putPeerFault (s : State) (p : Nat) (i : FaultInfo) : State :=
  let seq := mapGet s.hub.pfSeq p 0
  let s := { s with hub := { s.hub with pfSeq := mapSet s.hub.pfSeq p (seq + 1) } }
  let bs := natLE 8 i.va ++ natLE 8 seq ++ natLE 2 i.astag ++ natLE 1 i.cause ++ natLE 1 i.write.toNat ++ [8, 0, 0, 0] ++ List.replicate 8 0
  let r := pfRing p
  let held := mapGet s.hub.pfHeld p []
  if !r.placed s 32 then s
  else if r.full s || !held.isEmpty then { s with hub := { s.hub with pfHeld := mapSet s.hub.pfHeld p (held ++ [⟨bs⟩]) } }
  else r.put s (withPhase bs 19 3 (r.phase s))

/-- Held records of a partition's ring written as far as it has room. -/
def flushPeerFaults (s : State) (p : Nat) : Nat → State
  | 0 => s
  | k + 1 =>
    let r := pfRing p
    match mapGet s.hub.pfHeld p [] with
    | [] => s
    | h :: hs =>
      if r.full s || !r.placed s 32 then s
      else flushPeerFaults (r.put { s with hub := { s.hub with pfHeld := mapSet s.hub.pfHeld p hs } } (withPhase h.bytes 19 3 (r.phase s))) p k

/-- FR_PTR_CONSUMER (R260): the consumer count written; held records follow. -/
def execFrPtrConsumer (ag : Agent) (ring : RingSel) (val : BitVec 32) (s : State) : Host.Outcome State Fault Refusal :=
  .next (match ring with
    | .ctx e n => guarded s ag (rFrPtr e n).key (fun s =>
        let s := setF s (rFrPtr e n) fFrPtrConsumer val.toNat
        flushFaults s e n (ctxAux s e n).held.length)
    | .part p => guarded s ag (rRhPfrPtr p).key (fun s =>
        let s := setF s (rRhPfrPtr p) fRhPfrPtrConsumer val.toNat
        flushPeerFaults s p (mapGet s.hub.pfHeld p.val []).length))

end Sys2Proof.Machine
end

