-- ==== Sys2Proof/Machine/Tasks.lean ====
section
/-! DEFINITION. TASK and the task scheduler (R126 to R131), and the matrix-issue instructions of the Spindle cores (R121 to
R125, R158). -/

namespace Sys2Proof.Machine

open Sys2Proof

/-! ### TASK (R126, R127) -/

def taskSlotIdx (b : Bytes) : Nat := u8At b 8
def taskBobs (b : Bytes) : List Nat := ((b.drop 40).take 4).filterMap (fun x => if x.toNat = 0xFF then none else some x.toNat)

def taskBad (_ : State) (c : Cmd) : Bool :=
  let b := c.bytes
  !(decide (u8At b 8 < 16) && decide (u8At b 9 < 32) && decide (u32At b 12 ≤ 1000000) && zeroSpan b 44 20)

/-- The state a task starts in (R127): registers not listed are 0, vtype.vill is 1. -/
def startHart (b : Bytes) : Hart :=
  { pc := BitVec.ofNat 64 (u64At b 16)
    x := [(10, BitVec.ofNat 64 (u64At b 24)), (11, BitVec.ofNat 64 (taskSlotIdx b)), (12, BitVec.ofNat 64 (u16At b 10)), (2, BitVec.ofNat 64 (u64At b 32))]
    vtype := BitVec.ofNat 64 (2 ^ 63) }

def taskBody (u : SpoolId) (s : State) (c : Cmd) : State × Cmd × Act :=
  let i := taskSlotIdx c.bytes
  let r := rSchedSlot u.e i
  let f := u8At c.bytes 9
  let retired := bitOf f 2 && (engAux s u.e).deadCores.elem (f / 8 % 4)
  if taskOwner s u.e i ≠ u.n.val ∨ ¬getB s r fSchedSlotEnable ∨ taskState s u.e i ≠ tFree ∨ retired then (s, c, .ends stResource 0)
  else
    let t : Task := { hart := startHart c.bytes, prio := f % 4, pin := if bitOf f 2 then some (f / 8 % 4) else none
                      inputs := taskBobs c.bytes, budget := u32At c.bytes 12, u := some (u, c.slot) }
    let s := setTaskState (setTask s u.e i t) u.e i tQueued
    let s := setR (setF s (rCtxTask u.e u.n i) fCtxTaskExit 0) (rCtxTaskCause u.e u.n i) 0
    (wakeTasks s u.e, c, .runs)

/-- TASK (R126): the slot becomes QUEUED, and READY once its input bobbins are; the completion waits for the task's end.
A pin to a retired core gives RESOURCE (R397). -/
def execTask (u : SpoolId) (s : State) : Host.Outcome State Fault Refusal :=
  .next (runCmd s u (fun b => decide (u8At b 0 = 0x60)) taskBad taskBobs (taskBody u))

/-! ### The scheduler (R128 to R131) -/

/-- A READY task that may run on core k. -/
def mayRun (s : State) (e k i : Nat) : Bool :=
  decide (taskState s e i = tReady) && !(task s e i).stalled &&
    (match (task s e i).pin with | some p => decide (p = k) | none => true)

/-- The better of two READY tasks: the higher priority, then the longer READY (R128), then the lower slot, where R128 names none (DESIGN
CHOICE, log 131). -/
def betterTask (s : State) (e i j : Nat) : Nat :=
  let a := task s e i
  let b := task s e j
  if b.prio > a.prio ∨ (b.prio = a.prio ∧ b.readyAt < a.readyAt) then j else i

def bestTask (s : State) (e k : Nat) : Option Nat :=
  match (List.range 16).filter (mayRun s e k) with
  | [] => none
  | i :: is => some (is.foldl (betterTask s e) i)

/-- TASK_DISPATCH (R128). -/
def execTaskDispatch (c : CoreId) (s : State) : Host.Outcome State Fault Refusal :=
  .next (
    if coreState s c.e c.k ≠ cIdle then s
    else
      match bestTask s c.e c.k with
      | none => s
      | some i =>
        let s := setTask s c.e i { task s c.e i with ranAt := s.time }
        let s := setF (setTaskState s c.e i tRunning) (rSchedSlot c.e i) fSchedSlotCore c.k
        let s := setF (setF s (rSpnState c.e c.k) fSpnStateState cRunning) (rSpnState c.e c.k) fSpnStateSlot i
        bump s (rSwitches c.e) fSwitches 1)

/-- QUANTUM_EXPIRY (R130). -/
def execQuantumExpiry (c : CoreId) (s : State) : Host.Outcome State Fault Refusal :=
  .next (
    let q := getF s (rSchedCfg c.e) fSchedCfgQuantum
    if q = 0 ∨ coreState s c.e c.k ≠ cRunning then s
    else
      let i := coreSlot s c.e c.k
      let t := task s c.e i
      if s.time < t.ranAt + q * 1000 then s
      else if (List.range 16).any (fun j => decide (j ≠ i) && mayRun s c.e c.k j && decide (t.prio ≤ (task s c.e j).prio)) then taskToReady s c.e i
      else s)

/-- BUDGET_EXPIRY (R131): the time RUNNING and WAITING exceeds BUDGET. -/
def execBudgetExpiry (e : Fin 32) (slot : Fin 16) (s : State) : Host.Outcome State Fault Refusal :=
  .next (
    let t := task s e slot
    if taskState s e slot = tFree ∨ t.budget = 0 ∨ taskUsed s e slot ≤ t.budget * 1000 then s
    else endTask s e slot stTimeout 0)

/-! ### The harts (R118, R121) -/

/-- The hart an instruction of a core runs in: the running task's, in U-mode, or the core's own in M-mode; the context
slot it acts for; the task slot. A core in reset or halted runs none. -/
structure HartCtx where
  hart : Hart
  n    : Nat
  slot : Option Nat

def hartOf (s : State) (c : CoreId) : Option HartCtx :=
  if coreState s c.e c.k = cRunning then
    let i := coreSlot s c.e c.k
    some { hart := (task s c.e i).hart, n := taskOwner s c.e i, slot := some i }
  else if coreState s c.e c.k = cIdle then
    some { hart := mapGet s.eng.harts c {}, n := getF s (rSpnCtx c.e c.k) fSpnCtxCtx, slot := none }
  else none

def putHart (s : State) (c : CoreId) (h : HartCtx) (x : Hart) : State :=
  match h.slot with
  | some i => setTask s c.e i { task s c.e i with hart := x }
  | none => { s with eng := { s.eng with harts := mapSet s.eng.harts c x } }

/-- An integer register; x0 reads 0 and discards writes. -/
def Hart.readX (h : Hart) (r : Nat) : Nat := if r = 0 then 0 else (mapGet h.x r 0).toNat
def Hart.writeX (h : Hart) (r v : Nat) : Hart := if r = 0 then h else { h with x := mapSet h.x r (BitVec.ofNat 64 v) }
/-- The next instruction of 4 bytes. -/
def Hart.adv (h : Hart) : Hart := { h with pc := h.pc + 4 }
/-- A vector register of VLEN 512 bits. -/
def Hart.readV (h : Hart) (r : Nat) : Bytes := mapGet h.v r (List.replicate 64 0)

/-- mstatus as a trap from M-mode into M-mode leaves it: MPIE takes MIE, MIE is 0, MPP is 3 (the RISC-V privileged
specification, R117). -/
def trapStatus (m : Word) : Word :=
  fset (fset (fset m ⟨7, 7⟩ (fget m ⟨3, 3⟩)) ⟨3, 3⟩ 0) ⟨12, 11⟩ 3

/-- An exception of a core's hart: it ends a U-mode task with FAULT_PERMISSION and keeps its cause (R131); in M-mode it is
taken at mtvec. -/
def hartException (s : State) (c : CoreId) (h : HartCtx) (cause tval : Nat) : State :=
  match h.slot with
  | some i =>
    let v : Word := fset (fset (fset 0 fCtxTaskCauseCause cause) fCtxTaskCauseTval tval) fCtxTaskCauseValid 1
    endTask (setR s (rCtxTaskCause c.e h.n i) v) c.e i stFaultPermission 0
  | none =>
    let x := h.hart
    putHart s c h { x with mepc := x.pc, mcause := BitVec.ofNat 64 cause, mtval := BitVec.ofNat 64 tval
                           mstatus := trapStatus x.mstatus, pc := x.mtvec &&& ~~~3 }

/-- Illegal instruction, cause 2. What mtval holds then is left to the implementation: a free value (log 12). -/
def illegal (s : State) (c : CoreId) (h : HartCtx) : State :=
  let (v, s) := drawFree s
  hartException s c h 2 v.toNat

/-- SPINDLE_EXCEPTION (R131). -/
def execSpindleException (c : CoreId) (cause : BitVec 6) (tval : BitVec 64) (s : State) : Host.Outcome State Fault Refusal :=
  .next (match hartOf s c with
    | none => s
    | some h => hartException s c h cause.toNat tval.toNat)

/-! ### Matrix-issue instructions (R121 to R125) -/

/-- Which agent a hart is. -/
def spindleAgent (c : CoreId) (h : HartCtx) : Agent := .spindle c.e c.k (if h.slot.isSome then .u else .m)

/-- What an access of a hart asks of its engine's range cache, under the ASTAG of the context slot it acts for (R118). -/
def hartReq (s : State) (c : CoreId) (h : HartCtx) (write read exec : Bool) : XReq :=
  { cache := some c.e, ag := spindleAgent c h, astag := ctxAstag s c.e h.n, part := ctxPart s c.e h.n, write := write, read := read, exec := exec, unit := 2 }

/-- The TASK command of the hart's task. -/
def hartCmd (s : State) (c : CoreId) (h : HartCtx) : Option (SpoolId × Nat) := h.slot.bind (fun i => (task s c.e i).u)

/-- A translation fault of a hart: charged to the TASK of its task (R256, R131); in M-mode an access-fault exception. -/
def hartFault (s : State) (c : CoreId) (h : HartCtx) (q : XReq) (va cause : Nat) (replay : Bool) : State :=
  match hartCmd s c h with
  | some (u, slot) => faultCmd s u slot { va := va, astag := q.astag, cause := cause, write := q.write, unit := q.unit, since := s.time } replay
  | none => hartException s c h (if q.exec then 1 else if q.write then 7 else 5) va

/-- A CONSULT range met by a hart: its task gives up the core until the handler's answer (R252); in M-mode, where no command can await
one, an access-fault exception (log 61). -/
def hartConsult (s : State) (c : CoreId) (h : HartCtx) (q : XReq) (va : Nat) (e : RcEntry) : State :=
  match hartCmd s c h, h.slot with
  | some (u, slot), some i =>
    let (s, id) := addConsult s (cmdXreq q u slot va) e
    updCmd (setTask (freeCore s c.e i) c.e i { task s c.e i with stalled := true }) u slot (fun x => { x with stall := .consult id })
  | _, _ => hartFault s c h q va fRefused false

/-- A span that a hart reaches; without pieces the instruction has not completed. -/
def hartReach (s : State) (c : CoreId) (h : HartCtx) (q : XReq) (va n : Nat) : State × Option (List Piece) :=
  match xlate s q va n with
  | (s, .ok ps) => (s, some ps)
  | (s, .fault a cause r) => (hartFault s c h q a cause r, none)
  | (s, .consult a e) => (hartConsult s c h q a e, none)
  | (_, .wait _) => (s, none)

/-- The spool a register names, where it is enabled for the context slot (R125). -/
def mxSpool (s : State) (c : CoreId) (h : HartCtx) (r : Nat) : Option SpoolId :=
  let k := h.hart.readX r % 256
  if k < 4 ∧ getB s (rSpCfg c.e h.n k) fSpCfgEnable then some ⟨c.e, Fin.ofNat 16 h.n, Fin.ofNat 4 k⟩ else none

/-- The bobbin a register names, where it is allocated to the context slot and no staging bobbin (R125, R470). -/
def mxBob (s : State) (c : CoreId) (h : HartCtx) (r : Nat) : Option Nat :=
  let b := h.hart.readX r % 256
  if badBobbin s ⟨c.e, Fin.ofNat 16 h.n, 0⟩ b then none else some b

/-- The free command slots of a spool. -/
def freeSlots (s : State) (u : SpoolId) : Nat :=
  2 ^ sqLog2 s u - (sqTail s u + 2 ^ 32 - (spool s u).done % 2 ^ 32) % 2 ^ 32

/-- The ring slots from x up as the hart reaches them; one in engine SRAM is refused (R141). -/
def reachSlots (s : State) (c : CoreId) (h : HartCtx) (u : SpoolId) (x : Nat) : Nat → State × Option (List (List Piece))
  | 0 => (s, some [])
  | k + 1 =>
    let q := hartReq s c h true false false
    match hartReach s c h q (slotVa s u x) 64 with
    | (s, none) => (s, none)
    | (s, some ps) =>
      if ps.any (pieceSram s) then (hartFault s c h q (slotVa s u x) fRefused (replayOf s q (slotVa s u x)), none)
      else
        match reachSlots s c h u ((x + 1) % 2 ^ 32) k with
        | (s, none) => (s, none)
        | (s, some l) => (s, some (ps :: l))

/-- The command's bytes, 64 to a slot, written into the slots. -/
def writeSlots (s : State) : List (List Piece) → Bytes → State
  | [], _ => s
  | ps :: l, b => writeSlots (piecesWrite s ps (b.take 64)) l (b.drop 64)

/-- A command appended through the issue path: its slots, its place for the fetch, and the tail as a doorbell moves it
(R122). -/
def appendCmd (s : State) (ag : Agent) (u : SpoolId) (slots : List (List Piece)) (b : Bytes) : State :=
  let x := sqTail s u
  let s := writeSlots s slots b
  let s := { s with eng := { s.eng with issued := mapSet s.eng.issued (u, x) b } }
  doorbell s ag u ((x + b.length / 64) % 2 ^ 32)

/-- A load or store of a core: one that an engine which is not ACTIVE holds may be among them (R424). -/
def coreAccess (c : CoreId) (i : Instr) : Bool :=
  let mine (ag : Agent) : Bool := match ag with
    | .spindle e k _ => decide (e = c.e ∧ k = c.k)
    | _ => false
  match i with
  | .memoryAccess r => mine r.agent
  | .sqTail ag .. | .bobMarkFill ag .. | .bobMarkReady ag .. | .bobMarkConsumed ag .. | .bobMarkRelease ag .. | .ctxCfgValidSet ag .. => mine ag
  | _ => false

/-- An earlier load or store of a core has not been performed: it waits at the hub, or for an engine's wake (R123). -/
def hartPending (s : State) (c : CoreId) : Bool :=
  s.hub.stalled.any (fun x => coreAccess c (.memoryAccess x.req)) || s.eng.engs.any (fun x => x.2.heldWake.any (coreAccess c))

/-- MX_ISSUE (R122 to R124): it awaits the hart's earlier accesses; BUSY while another agent holds the lock, FULL with too few free slots;
where a doorbell would be refused (R143) nothing is written, DB_ERR is set and rd is a free value (log 13). Slots that do not translate
give the hart's fault, and nothing is issued (log 61). -/
def execMxIssue (c : CoreId) (rd rs1 vs2 : Fin 32) (s : State) : Host.Outcome State Fault Refusal :=
  .next (match hartOf s c with
    | none => s
    | some h =>
      match mxSpool s c h rs1 with
      | none => illegal s c h
      | some u =>
        let long := decide (u8At (h.hart.readV vs2) 0 = 2)
        if long ∧ vs2.val % 4 ≠ 0 then illegal s c h
        else
          let b := if long then (List.range 4).flatMap (fun i => h.hart.readV (vs2.val + i)) else h.hart.readV vs2
          let ag := spindleAgent c h
          let done (s : State) (v : Nat) : State := putHart s c h (h.hart.writeX rd v).adv
          let busy : Bool := match (spool s u).lease with
            | some (a, _) => decide (a ≠ ag)
            | none => false
          if hartPending s c then s
          else if busy then done s 2
          else if freeSlots s u < b.length / 64 then done s 1
          else if spState s u ≠ spActive ∨ (spool s u).expired = some ag then
            let (v, s) := drawFree (setF s (rSpStatus u.e u.n u.s) fSpStatusDbErr 1)
            done s v.toNat
          else
            match reachSlots s c h u (sqTail s u) (b.length / 64) with
            | (s, some slots) => done (appendCmd s ag u slots b) 0
            | (s, none) => s)

/-- MX_ROOM (R121). -/
def execMxRoom (c : CoreId) (rd rs1 : Fin 32) (s : State) : Host.Outcome State Fault Refusal :=
  .next (match hartOf s c with
    | none => s
    | some h =>
      match mxSpool s c h rs1 with
      | none => illegal s c h
      | some u => putHart s c h (h.hart.writeX rd (freeSlots s u)).adv)

/-- MX_AWAIT (R121): a task whose bobbin is not ready moves to WAITING behind the instruction; in M-mode the instruction
does not return until the bobbin is ready. -/
def execMxAwait (c : CoreId) (rs1 : Fin 32) (s : State) : Host.Outcome State Fault Refusal :=
  .next (match hartOf s c with
    | none => s
    | some h =>
      match mxBob s c h rs1 with
      | none => illegal s c h
      | some b =>
        if bobState s c.e b = bReady then putHart s c h h.hart.adv
        else
          match h.slot with
          | none => s
          | some i =>
            let s := putHart s c h h.hart.adv
            let s := setTask (freeCore s c.e i) c.e i { task s c.e i with await := some b }
            setTaskState s c.e i tWaiting)

/-- MX_BSTATE (R121): bits [31:0] of BOB_STATE_n. -/
def execMxBstate (c : CoreId) (rd rs1 : Fin 32) (s : State) : Host.Outcome State Fault Refusal :=
  .next (match hartOf s c with
    | none => s
    | some h =>
      match mxBob s c h rs1 with
      | none => illegal s c h
      | some b => putHart s c h (h.hart.writeX rd ((getR s (rBobState c.e b)).toNat % 2 ^ 32)).adv)

/-- MX_BDONE (R158). -/
def execMxBdone (c : CoreId) (rs1 : Fin 32) (s : State) : Host.Outcome State Fault Refusal :=
  .next (match hartOf s c with
    | none => s
    | some h =>
      match mxBob s c h rs1 with
      | none => illegal s c h
      | some b => bobRead (putHart s c h h.hart.adv) c.e h.n b)

/-- MX_YIELD (R121). In M-mode, where no task runs, it only returns (DESIGN CHOICE, log 132). -/
def execMxYield (c : CoreId) (s : State) : Host.Outcome State Fault Refusal :=
  .next (match hartOf s c with
    | none => s
    | some h =>
      let s := putHart s c h h.hart.adv
      match h.slot with
      | some i => taskToReady s c.e i
      | none => s)

/-- MX_EXIT (R131): the task ends with rs1[31:0] and its TASK completes with OK. In M-mode, where no task runs, it only returns (DESIGN
CHOICE, log 132). -/
def execMxExit (c : CoreId) (rs1 : Fin 32) (s : State) : Host.Outcome State Fault Refusal :=
  .next (match hartOf s c with
    | none => s
    | some h =>
      match h.slot with
      | some i =>
        let v := h.hart.readX rs1 % 2 ^ 32
        endTask (setF s (rCtxTask c.e h.n i) fCtxTaskExit v) c.e i stOk v
      | none => putHart s c h h.hart.adv)

end Sys2Proof.Machine
end

