-- ==== Sys2Proof/Machine/MatrixRun.lean ====
section
/-! DEFINITION. MATMUL, MATMUL_ACC and ELEMWISE (R94 to R105), their tile passes on the arrays (R83 to R87, R99), recompute
and retirement (R110 to R113), the stat-table registers (R76, R78) and ABFT_INJECT. -/

namespace Sys2Proof.Machine

open Sys2Proof

/-! ### Fields -/

/-- The fields of a MATMUL or MATMUL_ACC (R94). -/
structure Mm where
  fa : Nat
  fb : Nat
  fo : Nat
  rnd : Nat
  drain : Bool
  load : Bool
  skew : Bool
  id : Nat
  ta : Int
  tb : Int
  tc : Int
  m : Nat
  n : Nat
  k : Nat
  tensor : Nat
  tile : Nat
  aBob : Nat
  bBob : Nat
  aOff : Nat
  aPitch : Nat
  t : Nat
  bOff : Nat
  bPitch : Nat
  out : Nat
  pitch : Nat

def mmOf (b : Bytes) : Mm :=
  let w := u32At b 8
  { fa := w % 32, fb := natField w 9 5, fo := natField w 14 10, rnd := natField w 16 15, drain := bitOf w 17, load := bitOf w 18
    skew := bitOf w 19, id := natField w 23 20, ta := i8At b 12, tb := i8At b 13, tc := i8At b 14, m := u16At b 16, n := u16At b 18
    k := u16At b 20, tensor := u16At b 22, tile := u32At b 24, aBob := u8At b 28, bBob := u8At b 29, aOff := u24At b 32
    aPitch := u16At b 36, t := u16At b 38, bOff := u24At b 40, bPitch := u16At b 44, out := u64At b 48, pitch := u32At b 56 }

def inRange (x lo hi : Nat) : Bool := decide (lo ≤ x) && decide (x ≤ hi)

/-- A pitch of the array layout: at least the minimum, at most 1,024, a multiple of 4 (R88, R90; R147 names a MATMUL pitch above 1,024
among its cases of FORMAT). -/
def layPitchOk (f : Fmt) (p : Nat) : Bool := inRange p f.minPitch 1024 && decide (p % 4 = 0)

/-- The layouts of A and of B stored transposed (R93). -/
def layA (x : Mm) (f : Fmt) : Lay := ⟨f, x.m, x.k, x.t, x.aPitch, 4⟩
def layB (x : Mm) (f : Fmt) : Lay := ⟨f, x.n, x.k, 128, x.bPitch, 0⟩

/-- An operand of a bobbin that is the context's extends beyond it; a bobbin that is not is RESOURCE (R470). -/
def beyond (s : State) (u : SpoolId) (b off n : Nat) : Bool := !badBobbin s u b && !bobFits s u.e b off n

/-- The conditions of R35, R47, R67 and R95. A row-major OUT_PITCH has no minimum of its own (log 123). -/
def mmBad (u : SpoolId) (s : State) (c : Cmd) : Bool :=
  let b := c.bytes
  let x := mmOf b
  match matFmt x.fa, matFmt x.fb, drainFmt x.fo with
  | some fa, some fb, some fo =>
    !(zeroSpan b 11 1 && zeroSpan b 15 1 && zeroSpan b 30 2 && zeroSpan b 43 1 && zeroSpan b 46 2 && zeroSpan b 60 4 &&
      decide (x.rnd < 3) && decide (x.ta ≠ -128) && decide (x.tb ≠ -128) && decide (x.tc ≠ -128) &&
      inRange x.m 1 32768 && inRange x.n 1 32768 && inRange x.k 1 32768 && inRange x.t 1 512 && decide (u8At b 35 = 4) &&
      layPitchOk fa x.aPitch && layPitchOk fb x.bPitch &&
      (if x.skew then layPitchOk fo x.pitch else decide (x.pitch % 4 = 0)) &&
      !(x.load && (decide (c.opcode = 0x10) || decide (x.fo ≠ 0) || x.skew))) ||
      beyond s u x.aBob x.aOff (layA x fa).bytes || beyond s u x.bBob x.bOff (layB x fb).bytes
  | _, _, _ => true

/-! ### Arrays and placement (R81, R99, R113) -/

def arrState (s : State) (e pa : Nat) : Nat := getF s (rArrayState e pa) fArrayStateState
def arrPos (s : State) (e pa : Nat) : Nat := getF s (rArrayState e pa) fArrayStatePosition
def arrActive (s : State) (e pa : Nat) : Bool := decide (arrState s e pa = 0)
def arrAux (s : State) (e pa : Nat) : ArrAux := mapGet s.eng.arrays (e, pa) {}
def setArrAux (s : State) (e pa : Nat) (x : ArrAux) : State := { s with eng := { s.eng with arrays := mapSet s.eng.arrays (e, pa) x } }

/-- The active array in a position. -/
def arrayAt (s : State) (e pos : Nat) : Option Nat := (List.range 13).find? (fun pa => arrActive s e pa && decide (arrPos s e pa = pos))

/-- The array that serves a position: its own, else the one in the next occupied position above, wrapping (R99). -/
def serves (s : State) (e pos : Nat) : Option Nat := ((List.range 12).map (fun i => (pos + i) % 12)).findSome? (arrayAt s e)

/-- Rows of output tile q. -/
def tileRowsOf (x : Mm) (q : Nat) : Nat := min x.t (x.m - q / cdiv x.n 128 * x.t)
def tileCount (x : Mm) : Nat := cdiv x.m x.t * cdiv x.n 128

/-- The context's held set ACC_ID. -/
def accSet (s : State) (e n id : Nat) : Option AccSet := (engAux s e).accs.find? (fun a => decide (a.n = n) && decide (a.id = id))

/-- Rows of held sets that lie on an array: each tile at the array that serves its position (R98). -/
def heldRows (s : State) (e pa : Nat) : Nat :=
  ((engAux s e).accs.map (fun a =>
    ((List.range (cdiv a.m a.aRows * cdiv a.cols 128)).map (fun q =>
      if serves s e (q % 12) = some pa then min a.aRows (a.m - q / cdiv a.cols 128 * a.aRows) else 0)).sum)).sum

/-- The rows of a placed command on an array. -/
def placedRows (s : State) (e : Nat) (x : Mm) (pa : Nat) : Nat :=
  ((List.range (tileCount x)).map (fun q => if serves s e (q % 12) = some pa then tileRowsOf x q else 0)).sum

/-- The drain buffers cannot hold a command's rows beside the held ones on any one array: the rows placed there, or for tiles that take
the first free array one tile's (R98, R99; DEDUCED, log 15). -/
def noRoom (s : State) (e : Nat) (x : Mm) (fixed : Bool) : Bool :=
  let act := (List.range 13).filter (fun pa => arrActive s e pa)
  if fixed then act.any (fun pa => decide (512 < placedRows s e x pa + heldRows s e pa))
  else act.any (fun pa => decide (512 < min x.t x.m + heldRows s e pa))

/-! ### Start (R94 to R98) -/

/-- The set registered or continued by a command: its last holder, and a released one dropped at the end. -/
def putSet (s : State) (e : Nat) (a : AccSet) : State :=
  let g := engAux s e
  let s := setEngAux s e { g with accs := g.accs.filter (fun x => !(decide (x.n = a.n) && decide (x.id = a.id))) ++ [a] }
  setF s (rCtxAccHeld e a.n) ⟨a.id, a.id⟩ 1
def dropSet (s : State) (e n id : Nat) : State :=
  let g := engAux s e
  let s := setEngAux s e { g with accs := g.accs.filter (fun x => !(decide (x.n = n) && decide (x.id = id))) }
  setF s (rCtxAccHeld e n) ⟨id, id⟩ 0

/-- The FP32 rows of an output range read as initial accumulators; a poisoned element is consumed and reads NaN (R98,
R215). -/
def readInit (src : Src) (m n pitch : Nat) : List (List (BitVec 32)) :=
  (List.range m).map (fun r => (List.range n).map (fun j =>
    if src.poisoned (r * pitch + 4 * j) 4 then f32Nan else BitVec.ofNat 32 (u32At src.bytes (r * pitch + 4 * j))))

/-- The runs that hold or continue a context's set ACC_ID, in the order of their starts. -/
def setRuns (s : State) (e n id : Nat) : List (MatRun × Cmd) :=
  (engAux s e).runs.filterMap (fun r => (spoolCmd s r.u r.slot).bind (fun c =>
    if r.u.n.val = n ∧ r.fixed ∧ (mmOf c.bytes).id = id then some (r, c) else none))

/-- The start of a MATMUL or MATMUL_ACC: the conditions of R98, then its tiles are ready for the arrays. A command that would continue a
set which a running one is about to release waits for its end (DESIGN CHOICE, log 126). -/
def mmStart (acc : Bool) (u : SpoolId) (s : State) (c : Cmd) : State × Cmd × Act :=
  let x := mmOf c.bytes
  let held := accSet s u.e u.n x.id
  let cont := acc && !x.load
  let fixed := cont || !x.drain
  if ¬insReady s u [x.aBob, x.bBob] ∨ (cont ∧ (setRuns s u.e u.n x.id).any (fun y => (mmOf y.2.bytes).drain)) then (s, c, .waits)
  else if (!acc && held.isSome) || (acc && x.load && !x.drain && held.isSome) || (cont && held.isNone) || (!cont && noRoom s u.e x fixed) then
    (s, c, .ends stResource 0)
  else if cont && (match held with | some a => decide (a.m ≠ x.m) || decide (a.cols ≠ x.n) || decide (a.aRows ≠ x.t) | none => false) then
    (s, c, .ends stFormat 0)
  else
    let run (init : Option (List (List (BitVec 32)))) (pois : Bool) : MatRun :=
      { u := u, slot := c.slot, todo := List.range (tileCount x), tiles := [], done := [], init := init, fixed := fixed, unres := false, pois := pois }
    let start (s : State) (init : Option (List (List (BitVec 32)))) (pois : Bool) : State × Cmd × Act :=
      let g := engAux s u.e
      let s := setEngAux s u.e { g with runs := g.runs ++ [run init pois] }
      let s := match held with
        | some a => if fixed then putSet s u.e { a with u := u, slot := c.slot } else s
        | none => if fixed then putSet s u.e { n := u.n.val, id := x.id, m := x.m, cols := x.n, aRows := x.t, u := u, slot := c.slot, tiles := [] } else s
      (s, { c with reads := [x.aBob, x.bBob].dedup
                   outBase := x.out, outLen := if x.drain then ((drainFmt x.fo).map (fun f => outBytes f x.skew x.m x.n x.t x.pitch)).getD 0 else 0 }, .runs)
    if acc && x.load then
      match reach s (engReq s u 4 false true) x.out ((x.m - 1) * x.pitch + 4 * x.n) with
      | (s, .error a) => (s, c, a)
      | (s, .ok ps) =>
        let s := piecesTouch s ps
        let src := vaSrc s ps
        let pois := (List.range x.m).any (fun r => src.poisoned (r * x.pitch) (4 * x.n))
        start (if pois then cmdPoison s u c.step (firstPoison s ps) else s) (some (readInit src x.m x.n x.pitch)) pois
    else start s none false

/-! ### The end of a run: drain and status (R97, R100 to R102) -/

/-- The row of results of output row r from the finished tiles. -/
def outRow (x : Mm) (done : List (Nat × List (List (BitVec 32)))) (r : Nat) : List (BitVec 32) :=
  (List.range (cdiv x.n 128)).flatMap (fun cb =>
    let q := r / x.t * cdiv x.n 128 + cb
    (((done.find? (fun d => decide (d.1 = q))).map (fun d => d.2)).getD []).getD (r % x.t) [])

/-- The random bits of an output element (R101). -/
def mmBits (x : Mm) (step r j : Nat) : Nat := srBits step x.tensor (x.tile + r / 128 * cdiv x.n 128 + j / 128) (r % 128) (j % 128)

/-- The status of a run without FORMAT (R102). -/
def runStatus (r : MatRun) : Nat := if r.pois then stPoison else if r.unres then stAbft else stOk

/-- A run's entry replaced or removed. -/
def putRun (s : State) (e : Nat) (r : MatRun) : State :=
  let g := engAux s e
  setEngAux s e { g with runs := g.runs.map (fun x => if x.u = r.u ∧ x.slot = r.slot then r else x) }
def endRun (s : State) (r : MatRun) (c : Cmd) : State × Cmd × Act :=
  let g := engAux s r.u.e
  let s := setEngAux s r.u.e { g with runs := g.runs.filter (fun x => !(decide (x.u = r.u) && decide (x.slot = r.slot))) }
  let s := if runStatus r = stAbft then advance s (rCtxMatrixCnt r.u.e r.u.n) fCtxMatrixCntUnresolved 1 else s
  (s, c, .ends (runStatus r) 0)

/-- Bobbin reads of a matrix command count when its last tile pass has passed its checks (R158). -/
def countReads (s : State) (u : SpoolId) (c : Cmd) : State × Cmd :=
  (c.reads.foldl (fun s b => bobRead s u.e u.n b) s, { c with reads := [] })

/-- A list of FP32 results of a run written out: the whole output of a command is written when its last tile is done
(DESIGN CHOICE, log 16). -/
def drainOut (s : State) (u : SpoolId) (f : Fmt) (skew : Bool) (rows k t pitch out tensor rnd : Nat) (tc : Int)
    (row : Nat → List (BitVec 32)) (bits : Nat → Nat → Nat) : State × Except Act Unit :=
  match reach s (engReq s u 4 true false) out (outBytes f skew rows k t pitch) with
  | (s, .error a) => (s, .error a)
  | (s, .ok ps) =>
    let xs := (List.range rows).map row
    let qs := (List.range rows).map (fun r => quantRow f rnd tc (xs.getD r []) (bits r))
    let tally := (List.range rows).foldl (fun t r => tallyRow t (qs.getD r ⟨[], []⟩) (xs.getD r [])) {}
    let s := putAll s (.pieces ps) (outWrites f skew rows k t pitch qs)
    (statUpdate s u.e tensor tally, .ok ())

/-- A run whose tiles are done: with DRAIN the output is written and a held set released (R97, R98); without, the set
holds the accumulators. -/
def mmFinish (s : State) (u : SpoolId) (c : Cmd) (r : MatRun) : State × Cmd × Act :=
  let x := mmOf c.bytes
  let (s, c) := countReads s u c
  if ¬x.drain then
    match accSet s u.e u.n x.id with
    | some a => endRun (putSet s u.e { a with tiles := r.done.map (fun d => (d.1, d.1 % 12, d.2)) }) r c
    | none => endRun s r c
  else
    match drainFmt x.fo with
    | none => endRun s r c
    | some f =>
      match drainOut s u f x.skew x.m x.n x.t x.pitch x.out x.tensor x.rnd x.tc (outRow x r.done) (mmBits x c.step) with
      | (s, .error a) => (s, c, a)
      | (s, .ok _) => endRun (if c.opcode = 0x11 then dropSet s u.e u.n x.id else s) r c

/-! ### ELEMWISE (R103 to R105) -/

structure Ew where
  fa : Nat
  fb : Nat
  fo : Nat
  rnd : Nat
  addC : Bool
  ta : Int
  tb : Int
  tc : Int
  count : Nat
  tensor : Nat
  tile : Nat
  a : Nat
  b : Nat
  c : Nat
  aOff : Nat
  bOff : Nat
  cOff : Nat
  out : Nat

def ewOf (b : Bytes) : Ew :=
  let w := u32At b 8
  { fa := w % 32, fb := natField w 9 5, fo := natField w 14 10, rnd := natField w 16 15, addC := bitOf w 17
    ta := i8At b 12, tb := i8At b 13, tc := i8At b 14, count := u32At b 16, tensor := u16At b 20, tile := u32At b 24
    a := u8At b 28, b := u8At b 29, c := u8At b 30, aOff := u24At b 32, bOff := u24At b 36, cOff := u24At b 40, out := u64At b 48 }

/-- The layout of A or B: one operand row of COUNT elements, G = 0, at the format's minimum pitch (R103 gives no pitch field;
DEDUCED, log 17). -/
def ewLay (x : Ew) (f : Fmt) : Lay := ⟨f, 1, x.count, 1, f.minPitch, 0⟩

def ewBobs (x : Ew) : List Nat := if x.addC then [x.a, x.b, x.c] else [x.a, x.b]

def ewBad (u : SpoolId) (s : State) (c : Cmd) : Bool :=
  let b := c.bytes
  let x := ewOf b
  match matFmt x.fa, matFmt x.fb, drainFmt x.fo with
  | some fa, some fb, some _ =>
    !(decide (fa.cls = .f) && decide (fb.cls = .f) && decide (u32At b 8 / 2 ^ 18 = 0) && zeroSpan b 15 1 && zeroSpan b 22 2 &&
      zeroSpan b 31 1 && zeroSpan b 35 1 && zeroSpan b 39 1 && zeroSpan b 43 5 && zeroSpan b 56 8 && decide (x.rnd < 3) &&
      decide (x.ta ≠ -128) && decide (x.tb ≠ -128) && decide (x.tc ≠ -128) && inRange x.count 1 (2 ^ 24)) ||
      beyond s u x.a x.aOff (ewLay x fa).bytes || beyond s u x.b x.bOff (ewLay x fb).bytes ||
      (x.addC && beyond s u x.c x.cOff (4 * x.count))
  | _, _, _ => true

def ewStart (u : SpoolId) (s : State) (c : Cmd) : State × Cmd × Act :=
  let x := ewOf c.bytes
  if ¬insReady s u (ewBobs x) then (s, c, .waits)
  else
    let g := engAux s u.e
    let r : MatRun := { u := u, slot := c.slot, todo := List.range (cdiv x.count 16384), tiles := [], done := [], init := none, fixed := false, unres := false, pois := false }
    (setEngAux s u.e { g with runs := g.runs ++ [r] },
      { c with reads := (ewBobs x).dedup, outBase := x.out
               outLen := ((drainFmt x.fo).map (fun f => f.planes 1 x.count (f.rowBytes x.count))).getD 0 }, .runs)

def ewBits (x : Ew) (step j : Nat) : Nat := srBits step x.tensor (x.tile + j / 16384) (j / 128 % 128) (j % 128)

def ewFinish (s : State) (u : SpoolId) (c : Cmd) (r : MatRun) : State × Cmd × Act :=
  let x := ewOf c.bytes
  match drainFmt x.fo with
  | none => endRun s r c
  | some f =>
    let xs := (List.range (cdiv x.count 16384)).flatMap (fun q => (((r.done.find? (fun d => decide (d.1 = q))).map (fun d => d.2)).getD []).flatten)
    match drainOut s u f false 1 x.count 1 (f.rowBytes x.count) x.out x.tensor x.rnd x.tc (fun _ => xs) (fun _ j => ewBits x c.step j) with
    | (s, .error a) => (s, c, a)
    | (s, .ok _) => endRun s r c

/-- A finished run of any of the three commands. -/
def runFinish (s : State) (u : SpoolId) (c : Cmd) (r : MatRun) : State × Cmd × Act :=
  if c.opcode = 0x18 then ewFinish s u c r else mmFinish s u c r

/-- The run of a command. -/
def runOf (s : State) (u : SpoolId) (slot : Nat) : Option MatRun :=
  (engAux s u.e).runs.find? (fun r => decide (r.u = u) && decide (r.slot = slot))

/-- A body that goes on with a run whose drain was held up, or starts one. -/
def startOr (f : SpoolId → State → Cmd → State × Cmd × Act) (u : SpoolId) (s : State) (c : Cmd) : State × Cmd × Act :=
  match runOf s u c.slot with
  | some r => runFinish s u c r
  | none => f u s c

/-- MATMUL (R94 to R102). -/
def execMatmul (u : SpoolId) (s : State) : Host.Outcome State Fault Refusal :=
  .next (runCmd s u (fun b => decide (u8At b 0 = 0x10)) (mmBad u) (fun b => [u8At b 28, u8At b 29]) (startOr (mmStart false) u))

/-- MATMUL_ACC (R98). -/
def execMatmulAcc (u : SpoolId) (s : State) : Host.Outcome State Fault Refusal :=
  .next (runCmd s u (fun b => decide (u8At b 0 = 0x11)) (mmBad u) (fun b => [u8At b 28, u8At b 29]) (startOr (mmStart true) u))

/-- ELEMWISE (R103). -/
def execElemwise (u : SpoolId) (s : State) : Host.Outcome State Fault Refusal :=
  .next (runCmd s u (fun b => decide (u8At b 0 = 0x18)) (ewBad u) (fun b => ewBobs (ewOf b)) (startOr ewStart u))

/-! ### Tile passes (R83 to R87, R93, R106, R107) -/

/-- What one pass of one tile gives. -/
structure PassRes where
  /-- Per row: the value to add to each column; NaN where a slice is poisoned. -/
  adds  : List (List Num)
  /-- Rows whose check reports a mismatch, and rows that are checked at all. -/
  bad   : List Nat
  checked : List Nat
  flush : Nat
  poisoned : Nat
  /-- A base field differs (R93). -/
  base  : Bool
  /-- Poisoned memory was read: the first operand with poison, by its address. -/
  mem   : Option Nat

/-- Elements of a slice of the mode of a row, without the tensor exponent. -/
def modeSlice (l : Lay) (src : Src) (n x s : Nat) : List Num :=
  (List.range n).map (fun i => l.val src.bytes x (s * n + i))

/-- A base field of a row's slice differs from the values' base for a piece (R93); a class-P slice in KF16 mode is checked
whole (R87). Every slice is compared, one of poisoned memory too. -/
def baseWrong (l : Lay) (src : Src) (x stored : Nat) (p : Pc) : Bool :=
  match p.anchor.field l.f.cls with
  | none => false
  | some i => decide (l.base src.bytes x stored i ≠ sliceBase ((l.slice src.bytes x stored).map (numMap p.anchor.of)))

/-- The address of the first poisoned span of a source that lies at `a`. -/
def srcPoison (x : Src) (a : Nat) : Nat := a + ((x.bad.head?).map (fun b => b.1)).getD 0

/-- Poison that a pass met, consumed once for a command (R215). -/
def passPoison (s : State) (r : MatRun) (c : Cmd) (p : Option Nat) : State :=
  match p with
  | some a => if r.pois then s else cmdPoison s r.u c.step a
  | none => s

/-- Pass t of tile q of a MATMUL: slice t / p, pass t mod p (R85). -/
def mmPass (s : State) (u : SpoolId) (x : Mm) (rel floor : Int) (q t : Nat) : PassRes :=
  match matFmt x.fa, matFmt x.fb with
  | some fa, some fb =>
    let pair := paired fa.cls fb.cls
    let n := sliceLen fa.cls fb.cls
    let ps := passesOf fa.cls fb.cls
    let sl := t / ps.length
    let terms := ps.getD (t % ps.length) []
    let la := layA x fa
    let lb := layB x fb
    let sa := bobSrc s u.e x.aBob x.aOff la.bytes
    let sb := bobSrc s u.e x.bBob x.bOff lb.bytes
    let cb := cdiv x.n 128
    let rows := (List.range (tileRowsOf x q)).map (fun i => q / cb * x.t + i)
    let cols := (List.range (min 128 (x.n - q % cb * 128))).map (fun j => q % cb * 128 + j)
    let storedA := sl * n / la.len
    let storedB := sl * n / lb.len
    let badA (r : Nat) : Bool := la.badSpan sa r (sl * n) n
    let badB (j : Nat) : Bool := lb.badSpan sb j (sl * n) n
    let ea := rows.map (fun r => terms.map (fun p => expand pair p.1 (modeSlice la sa n r sl)))
    let eb := cols.map (fun j => terms.map (fun p => expand pair p.2 (modeSlice lb sb n j sl)))
    let nanA := (List.range rows.length).map (fun i => (ea.getD i []).any (fun e => e.bad) || badA (rows.getD i 0))
    let nanB := (List.range cols.length).map (fun j => (eb.getD j []).any (fun e => e.bad) || badB (cols.getD j 0))
    let zero : Exp := ⟨-512, [], 0, false⟩
    let lsbOf (i j : Nat) : Int :=
      windowLsb pair (((ea.getD i []).map (fun e => e.base)).foldl max (-512)) (((eb.getD j []).map (fun e => e.base)).foldl max (-512))
    let sumOf (i j : Nat) : Int := windowSum (lsbOf i j) ((ea.getD i []).zip (eb.getD j [])) n
    let anyB := nanB.any id
    let checked := (List.range rows.length).filter (fun i => !anyB && !nanA.getD i false)
    { adds := (List.range rows.length).map (fun i => (List.range cols.length).map (fun j =>
        if nanA.getD i false || nanB.getD j false then .nan else .fin ⟨sumOf i j, lsbOf i j + x.ta + x.tb⟩))
      checked := checked
      bad := checked.filter (fun i =>
        checkRow rel floor n ((List.range terms.length).map (fun k => ((ea.getD i []).getD k zero, eb.map (fun es => es.getD k zero))))
          ((List.range cols.length).map (fun j => (sumOf i j, lsbOf i j))))
      flush := ((ea ++ eb).map (fun es => ((es.map (fun e => e.flush)).foldl max 0))).sum
      poisoned := if t % ps.length = 0 then (nanA.filter id).length + (nanB.filter id).length else 0
      base := rows.any (fun r => terms.any (fun p => baseWrong la sa r storedA p.1)) || cols.any (fun j => terms.any (fun p => baseWrong lb sb j storedB p.2))
      mem := if rows.any badA then some (srcPoison sa (bobBase s u.e x.aBob + x.aOff))
        else if cols.any badB then some (srcPoison sb (bobBase s u.e x.bBob + x.bOff)) else none }
  | _, _ => ⟨[], [], [], 0, 0, false, none⟩

/-- The one pass of tile q of an ELEMWISE: 128 rows of 128 elements (R104, R105). Its results stand in `adds` already rounded
to FP32. Poisoned memory in A or B makes the whole row of 128 NaN, in C its own element (DESIGN CHOICE, log 127). -/
def ewPass (s : State) (u : SpoolId) (x : Ew) (q : Nat) : PassRes :=
  match matFmt x.fa, matFmt x.fb with
  | some fa, some fb =>
    let la := ewLay x fa
    let lb := ewLay x fb
    let sa := bobSrc s u.e x.a x.aOff la.bytes
    let sb := bobSrc s u.e x.b x.bOff lb.bytes
    let sc : Src := if x.addC then bobSrc s u.e x.c x.cOff (4 * x.count) else ⟨[], []⟩
    let rows := ((List.range 128).map (fun i => q * 128 + i)).filter (fun r => decide (r * 128 < x.count))
    let ea := rows.map (fun r => expand false .all (la.slice sa.bytes 0 r))
    let eb := rows.map (fun r => expand false .all (lb.slice sb.bytes 0 r))
    let zero : Exp := ⟨-512, [], 0, false⟩
    let cBad (k : Nat) : Bool := x.addC && sc.poisoned (4 * k) 4
    let value (i j : Nat) : Num :=
      let r := rows.getD i 0
      let k := r * 128 + j
      if la.bad sa 0 r || lb.bad sb 0 r || !numFinite (la.val sa.bytes 0 k) || !numFinite (lb.val sb.bytes 0 k) || cBad k then .nan
      else
        let p := ((ea.getD i zero).vals.getD j Dy.zero).mul ((eb.getD i zero).vals.getD j Dy.zero)
        let cn : Num := if x.addC then f32Dec (BitVec.ofNat 32 (u32At sc.bytes (4 * k))) else .fin Dy.zero
        f32Dec (f32Of (numAdd (.fin (p.scale (x.ta + x.tb))) cn))
    let memRow (r : Nat) : Bool := la.bad sa 0 r || lb.bad sb 0 r
    { adds := (List.range rows.length).map (fun i => (List.range (min 128 (x.count - rows.getD i 0 * 128))).map (value i))
      bad := [], checked := []
      flush := ((ea ++ eb).map (fun e => e.flush)).sum
      poisoned := ((List.range rows.length).filter (fun i => (ea.getD i zero).bad || memRow (rows.getD i 0))).length +
        ((List.range rows.length).filter (fun i => (eb.getD i zero).bad)).length
      base := rows.any (fun r => baseWrong la sa 0 r .all || baseWrong lb sb 0 r .all)
      mem := if rows.any (fun r => la.bad sa 0 r) then some (srcPoison sa (bobBase s u.e x.a + x.aOff))
        else if rows.any memRow then some (srcPoison sb (bobBase s u.e x.b + x.bOff))
        else if rows.any (fun r => x.addC && sc.poisoned (4 * (r * 128)) (4 * min 128 (x.count - r * 128))) then
          some (srcPoison sc (bobBase s u.e x.c + x.cOff))
        else none }
  | _, _ => ⟨[], [], [], 0, 0, false, none⟩

/-- Passes of a tile: slices times passes of the mode (R83, R87). -/
def passCount (c : Cmd) : Nat :=
  if c.opcode = 0x18 then 1
  else
    let x := mmOf c.bytes
    match matFmt x.fa, matFmt x.fb with
    | some fa, some fb => cdiv x.k (sliceLen fa.cls fb.cls) * (passesOf fa.cls fb.cls).length
    | _, _ => 1

/-- One row of accumulators with a pass's sums added and rounded (R60). -/
def addRow (acc : List (BitVec 32)) (adds : List Num) : List (BitVec 32) :=
  (List.range adds.length).map (fun j => f32Of (numAdd (f32Dec (acc.getD j 0)) (adds.getD j (.fin Dy.zero))))

/-- The rows of a tile accumulated, but for those withheld. -/
def accumulate (acc : List (List (BitVec 32))) (adds : List (List Num)) (skip : Nat → Bool) : List (List (BitVec 32)) :=
  (List.range acc.length).map (fun i => if skip i then acc.getD i [] else addRow (acc.getD i []) (adds.getD i []))

/-- The accumulators a tile starts with: a held set's, LOAD's, or zero. A tile that continues a set waits while an earlier command of the
set runs (R100). -/
def initialAcc (s : State) (u : SpoolId) (c : Cmd) (r : MatRun) (q : Nat) : Option (List (List (BitVec 32))) :=
  if c.opcode = 0x18 then
    let x := ewOf c.bytes
    some ((List.range (min 128 (cdiv (x.count - q * 16384) 128))).map (fun i => List.replicate (min 128 (x.count - q * 16384 - i * 128)) 0))
  else
    let x := mmOf c.bytes
    let cb := cdiv x.n 128
    let cols := min 128 (x.n - q % cb * 128)
    let rows := tileRowsOf x q
    match r.init with
    | some m => some ((List.range rows).map (fun i => ((m.getD (q / cb * x.t + i) []).drop (q % cb * 128)).take cols))
    | none =>
      if c.opcode = 0x11 then
        if (((setRuns s u.e u.n x.id).takeWhile (fun y => ¬(y.1.u = r.u ∧ y.1.slot = r.slot))) ≠ []) then none
        else match accSet s u.e u.n x.id with
        | some a => (a.tiles.find? (fun t => decide (t.1 = q))).map (fun t => t.2.2)
        | none => none
      else some (List.replicate rows (List.replicate cols 0))

/-- The arrays' next tile for pa from a run: for placed tiles the lowest one whose position pa serves, else the lowest left
where the array has room (R98, R99). A tile of a continued set waits for its accumulators. An array that is to retire takes none, but
with the spare in service the tiles of the sets it must still hold (R112, R113). -/
def nextTile (s : State) (pa : Nat) (r : MatRun) (c : Cmd) : Option Nat :=
  let retiring := (arrAux s r.u.e pa).retiring
  r.todo.find? (fun q =>
    (initialAcc s r.u c r q).isSome && (!retiring || (r.fixed && decide (arrState s r.u.e 12 ≠ 1))) &&
      (if r.fixed then decide (serves s r.u.e (q % 12) = some pa)
       else decide (c.opcode = 0x18) || decide (heldRows s r.u.e pa + tileRowsOf (mmOf c.bytes) q ≤ 512)))

/-- The run that gets array pa next: contexts in turn after the last, in a context the earliest start (R151). -/
def nextRun (s : State) (e pa : Nat) : Option (MatRun × Cmd × Nat) :=
  let cands := (engAux s e).runs.filterMap (fun r =>
    match spoolCmd s r.u r.slot with
    | some c => if c.stall = .none then (nextTile s pa r c).map (fun q => (r, c, q)) else none
    | none => none)
  let last := (engAux s e).lastCtx
  ((List.range 16).map (fun i => (last + 1 + i) % 16)).findSome? (fun n =>
    match cands.filter (fun x => decide (x.1.u.n.val = n)) with
    | [] => none
    | y :: ys => some (ys.foldl (fun a b => if b.2.1.order < a.2.1.order then b else a) y))

/-- A tile handed to an array. -/
def assignTile (s : State) (pa : Nat) (r : MatRun) (c : Cmd) (q : Nat) : State :=
  match initialAcc s r.u c r q with
  | none => s
  | some acc =>
    let t : TileRun := { q := q, arr := pa, pass := 0, acc := acc, wait := false }
    let s := putRun s r.u.e { r with todo := r.todo.filter (fun x => decide (x ≠ q)), tiles := r.tiles ++ [t] }
    setEngAux s r.u.e { engAux s r.u.e with lastCtx := r.u.n.val }

/-- The tile an array works on. -/
def tileOn (s : State) (e pa : Nat) : Option (MatRun × TileRun) :=
  (engAux s e).runs.findSome? (fun r => (r.tiles.find? (fun t => decide (t.arr = pa))).map (fun t => (r, t)))

/-- The command ends with FORMAT: a base field differs (R93). Its output and its held set are undefined; a set stays held, also one that
DRAIN would have released (DESIGN CHOICE, log 128). -/
def baseFault (s : State) (u : SpoolId) (c : Cmd) : State :=
  let fixed := (runOf s u c.slot).any (fun r => r.fixed)
  let s := bump s (rBaseFaults u.e) fBaseFaults 1
  let s := dropRun (scrambleOut s u c) u c.slot
  let k := s.freeCtr
  let g := engAux s u.e
  let undef (a : AccSet) : AccSet :=
    if fixed ∧ a.n = u.n ∧ a.id = (mmOf c.bytes).id then
      { a with tiles := (List.range (cdiv a.m a.aRows * cdiv a.cols 128)).map (fun q =>
          (q, q % 12, (List.range (min a.aRows (a.m - q / cdiv a.cols 128 * a.aRows))).map (fun i =>
            (List.range (min 128 (a.cols - q % cdiv a.cols 128 * 128))).map (fun j => (Config.freeWord (k + q * 65536 + i * 128 + j)).setWidth 32)))) }
    else a
  let s := { setEngAux s u.e { g with accs := g.accs.map undef } with freeCtr := k + 2 ^ 40 }
  endCmd s u c.slot stFormat 0

/-- The counts of a pass (R52, R63, CTX_MATRIX_CNT). -/
def countPass (s : State) (u : SpoolId) (p : PassRes) : State :=
  let s := bump (evrCount s 4 u.e 4 p.flush) (rAlignFlush u.e) fAlignFlush p.flush
  let s := bump (evrCount s 4 u.e 5 p.poisoned) (rPoisonSlices u.e) fPoisonSlices p.poisoned
  let s := advance s (rCtxMatrixCnt u.e u.n) fCtxMatrixCntAlignFlush p.flush
  advance s (rCtxMatrixCnt u.e u.n) fCtxMatrixCntPoisonSlices p.poisoned

/-- A tile's pass is over: the next pass, or the tile is finished, and with the last tile the run. -/
def passOver (s : State) (r : MatRun) (c : Cmd) (t : TileRun) : State :=
  if t.pass < passCount c then putRun s r.u.e { r with tiles := r.tiles.map (fun x => if x.q = t.q then t else x) }
  else
    let r := { r with tiles := r.tiles.filter (fun x => decide (x.q ≠ t.q)), done := r.done ++ [(t.q, t.acc)] }
    let s := putRun s r.u.e r
    if r.todo = [] ∧ r.tiles = [] then
      let (s2, c2, act) := runFinish s r.u c r
      applyAct s s2 r.u c2 act
    else s

/-- ABFT tolerances of the dictionary, shown by ABFT_TOL, taken at a tile-pass boundary (R107, R116). -/
def takeTol (s : State) (e : Nat) : State :=
  let r := objInt s oAbftRelExp
  let f := objInt s oAbftFloorExp
  setF (setF s (rAbftTol e) fAbftTolRelExp (r % 256).toNat) (rAbftTol e) fAbftTolFloorExp (f % 256).toNat

/-- The array whose turn a queued recompute takes: the spare, or with the spare in service the active array in the lowest
position other than the one that mismatched (R110, R113). -/
def recompArray (s : State) (e : Nat) (x : Recomp) : Option Nat :=
  if arrState s e 12 = 1 then some 12
  else
    ((List.range 12).filterMap (arrayAt s e)).find? (fun pa => decide (pa ≠ x.arr))

/-- A pass of a run's tile. -/
def runPass (s : State) (u : SpoolId) (c : Cmd) (q pass : Nat) : PassRes :=
  if c.opcode = 0x18 then ewPass s u (ewOf c.bytes) q
  else mmPass s u (mmOf c.bytes) (objInt s oAbftRelExp) (objInt s oAbftFloorExp) q pass

/-- An armed ABFT_INJECT taken by a tile pass on an array: it forces a mismatch only while DIAG_INJECT_EN is TRUE (R20). -/
def takeInject (s : State) (e pa : Nat) : State × Bool :=
  (setArrAux s e pa { arrAux s e pa with inject := false }, (arrAux s e pa).inject && decide (objNat s oDiagInjectEn = 1))

/-- One pass of a tile on array pa. `hw`: rows for which the array reports a mismatch, of the checksum or of the drain's residue check;
the latter checks the accumulate step of every row, also where the checksum does not (R105, R107, R108). An injected mismatch is on
the first checked row, else on the first (log 129). -/
def passOn (s : State) (e pa : Nat) (r : MatRun) (c : Cmd) (t : TileRun) (hw : List Nat) : State :=
  let s := takeTol s e
  let p := runPass s r.u c t.q t.pass
  let s := countPass s r.u p
  if p.base then baseFault s r.u c
  else
    let s := passPoison s r c p.mem
    let r := { r with pois := r.pois || p.mem.isSome }
    let (s, inj) := takeInject s e pa
    let rows := List.range t.acc.length
    let forced := if inj then (p.checked ++ rows).take 1 else []
    let bad := rows.filter (fun i => p.bad.elem i || hw.elem i || forced.elem i)
    let acc := accumulate t.acc p.adds bad.elem
    if bad = [] then passOver s r c { t with pass := t.pass + 1, acc := acc }
    else
      let s := bump (bump (evrCount s 4 e 0 1) (rAbftMismatch e) fAbftMismatch 1) (rArrayState e pa) fArrayStateMismatches 1
      let s := putRun s e { r with tiles := r.tiles.map (fun x => if x.q = t.q then { t with acc := acc, wait := true } else x) }
      let g := engAux s e
      setEngAux s e { g with recomp := g.recomp ++ [{ u := r.u, slot := r.slot, q := t.q, pass := t.pass, arr := pa, rows := bad
                                                      injected := inj && decide (bad = forced) }] }

/-- TILE_PASS (R83, R85, R110, R151): an active array runs the next pass of its tile, or takes the next tile and runs its first.
`bad`: rows for which the array's hardware reports a mismatch. A tile that waits for its recompute starts no pass; a recompute that
the array has to run comes first. -/
def execTilePass (e : Fin 32) (pa : Fin 13) (bad : List Nat) (s : State) : Host.Outcome State Fault Refusal :=
  .next (
    let due : Bool := match (engAux s e).recomp with
      | x :: _ => decide (recompArray s e x = some pa.val)
      | [] => false
    if ¬arrActive s e pa ∨ due then s
    else
      match tileOn s e pa with
      | some (r, t) =>
        if t.wait then s
        else
          match spoolCmd s r.u r.slot with
          | some c => passOn s e pa r c t bad
          | none => s
      | none =>
        match nextRun s e pa with
        | none => s
        | some (r, c, q) =>
          let s := assignTile s pa r c q
          match tileOn s e pa with
          | some (r, t) => passOn s e pa r c t bad
          | none => s)

/-! ### Recompute and retirement (R110 to R113) -/

/-- A suspect mark; the third within 24 hours retires the array (R112). -/
def addMark (s : State) (e pa : Nat) : State :=
  let a := arrAux s e pa
  let ms := (a.marks.filter (fun t => decide (s.time < t + dayNs))) ++ [s.time]
  let s := setArrAux s e pa { a with marks := ms, retiring := a.retiring || decide (3 ≤ ms.length) }
  setF s (rArrayState e pa) fArrayStateMarks (min ms.length 3)

/-- A recompute of a tile's withheld rows on array pa (R110, R111). -/
def recompOn (s : State) (e : Fin 32) (x : Recomp) (r : MatRun) (c : Cmd) (t : TileRun) (pa : Nat) (bad : List Nat) : State :=
  let s := takeTol s e
  let p := runPass s x.u c x.q x.pass
  let s := countPass s x.u { p with poisoned := 0 }
  let (s, inj) := takeInject s e pa
  let forced := if inj then x.rows.take 1 else []
  let wrong := x.rows.filter (fun i => bad.elem i)
  let fails := x.rows.filter (fun i => bad.elem i || p.bad.elem i || forced.elem i)
  let k := s.freeCtr
  let acc := (List.range t.acc.length).map (fun i =>
    if wrong.elem i then (t.acc.getD i []).mapIdx (fun j _ => (Config.freeWord (k + i * 128 + j)).setWidth 32)
    else if x.rows.elem i then addRow (t.acc.getD i []) (p.adds.getD i []) else t.acc.getD i [])
  let s := if wrong = [] then s else { s with freeCtr := k + 2 ^ 16 }
  let t := { t with acc := acc, wait := false, pass := t.pass + 1 }
  if fails = [] then
    let s := bump (evrCount s 4 e 1 1) (rAbftResolved e) fAbftResolved 1
    passOver (if x.injected then s else addMark s e x.arr) r c t
  else
    let s := bump (evrCount s 4 e 2 1) (rAbftUnresolved e) fAbftUnresolved 1
    let s := raisePennant s (ctxPart s x.u.e x.u.n) c.step 5
    passOver s { r with unres := true } c t

/-- RECOMPUTE (R110, R111): the oldest queued recompute. `bad`: withheld rows on which the recomputing array's hardware
differs; their results are then accumulated as they are, which the manual does not give. An ABFT_INJECT armed for the recomputing array
fails the check of the first withheld row (log 129). The rerun's expansions count in ALIGN_FLUSH (R52); its poisoned slices were counted
by the pass it repeats (DESIGN CHOICE, log 53). -/
def execRecompute (e : Fin 32) (bad : List Nat) (s : State) : Host.Outcome State Fault Refusal :=
  .next (
    let g := engAux s e
    match g.recomp with
    | [] => s
    | x :: xs =>
      let s := setEngAux s e { g with recomp := xs }
      match runOf s x.u x.slot, spoolCmd s x.u x.slot, recompArray s e x with
      | some r, some c, some pa =>
        match r.tiles.find? (fun t => decide (t.q = x.q)) with
        | none => s
        | some t => recompOn s e x r c t pa bad
      | _, _, _ => s)

/-- Arrays that are active, shown by ENG_ID (R21). -/
def showActive (s : State) (e : Nat) : State :=
  setF s (rEngId e) fEngIdArraysActive ((List.range 13).filter (fun pa => arrActive s e pa)).length

/-- ARRAY_RETIREMENT (R112, R113): an array with three marks, free of its tile, is retired. The spare takes its position; with
the spare in service the array must hold no accumulator set, and the engine runs on 11 arrays. -/
def execArrayRetirement (e : Fin 32) (pa : Fin 13) (s : State) : Host.Outcome State Fault Refusal :=
  .next (
    let spare := decide (arrState s e 12 = 1)
    let pos := arrPos s e pa
    let busy : Bool := (tileOn s e pa).isSome || !(engAux s e).recomp.isEmpty
    if ¬(arrAux s e pa).retiring ∨ ¬arrActive s e pa ∨ busy ∨ (¬spare ∧ heldRows s e pa ≠ 0) then s
    else
      let s := setArrAux s e pa { arrAux s e pa with retiring := false }
      let s := setF (setF s (rArrayState e pa) fArrayStateState 2) (rArrayState e pa) fArrayStatePosition 0xF
      let s := if spare then setF (setF s (rArrayState e 12) fArrayStateState 0) (rArrayState e 12) fArrayStatePosition pos else s
      let s := addRepair s 1 (e.val / 4) e 0 pa 12
      let s := logError s { src := 12, sev := 2, typ := 6, part := (engOwner s e).getD 0, unit := e, die := e.val / 4 } (engOwner s e)
      showActive s e)

/-- SUSPECT_WINDOW_EXPIRY (R112): marks older than 24 hours leave the count. -/
def execSuspectWindowExpiry (e : Fin 32) (pa : Fin 13) (s : State) : Host.Outcome State Fault Refusal :=
  .next (
    let a := arrAux s e pa
    let ms := a.marks.filter (fun t => decide (s.time < t + dayNs))
    setF (setArrAux s e pa { a with marks := ms }) (rArrayState e pa) fArrayStateMarks (min ms.length 3))

/-- ABFT_INJECT (R20, DIAG_INJECT_EN): armed for the named array's next tile pass; ignored while injection is disabled or the
number names no array. -/
def execAbftInject (ag : Agent) (e : Fin 32) (pa : BitVec 4) (arm : Bool) (s : State) : Host.Outcome State Fault Refusal :=
  .next (guarded s ag (rAbftInject e).key (fun s =>
    if arm ∧ pa.toNat < 13 ∧ objNat s oDiagInjectEn = 1 then setArrAux s e pa.toNat { arrAux s e pa.toNat with inject := true } else s))

/-! ### The stat-table registers (R75, R76, R78) -/

/-- An entry's 32 bytes (R75). The catch-all's TENSOR_ID reads 0xFFFF. -/
def statBytes (i : Nat) (x : StatEntry) : Bytes :=
  natLE 2 (if i = 255 then 0xFFFF else x.tensor) ++ natLE 1 (x.valid.toNat + 2 * x.saturated.toNat) ++ [0] ++ natLE 4 x.amax.toNat ++
    natLE 8 x.total ++ natLE 4 x.clipped ++ natLE 4 x.flushed ++ natLE 4 x.nonfinite ++ [0, 0, 0, 0]

/-- An entry cleared: counts and AMAX 0, allocation kept (R76). -/
def StatEntry.cleared (x : StatEntry) : StatEntry := { tensor := x.tensor, valid := x.valid }

/-- The key whose rights the stat registers follow: the engine's page, or a context window. -/
def statKey (e : Nat) (win : Option (Fin 16)) : RegKey := match win with
  | some n => (rCtxStatSel e n).key
  | none => (rStatSel e).key

/-- A snapshot of an entry into STAT_DATA or CTX_STAT_DATA, ENTRY written with it; with `clear`, the entry is then cleared. -/
def statSnap (s : State) (e : Nat) (win : Option (Fin 16)) (i : Nat) (clear : Bool) : State :=
  let x := statEntry s e i
  let bs := statBytes i x
  let put (s : State) (w : Nat) : State :=
    let v := BitVec.ofNat 64 (u64At bs (8 * w))
    match win with
    | some n => setR s (rCtxStatData e n w) v
    | none => setR s (rStatData e w) v
  let s := (List.range 4).foldl put s
  let s := match win with
    | some n => setF s (rCtxStatSel e n) fCtxStatSelEntry i
    | none => setF s (rStatSel e) fStatSelEntry i
  if clear then setStat s e i x.cleared else s

/-- STAT_SEL_SNAP (R76). -/
def execStatSelSnap (ag : Agent) (e : Fin 32) (win : Option (Fin 16)) (entry : Fin 256) (s : State) : Host.Outcome State Fault Refusal :=
  .next (guarded s ag (statKey e win) (fun s => statSnap s e win entry false))

/-- STAT_SEL_CLEAR (R78). -/
def execStatSelClear (ag : Agent) (e : Fin 32) (win : Option (Fin 16)) (entry : Fin 256) (s : State) : Host.Outcome State Fault Refusal :=
  .next (guarded s ag (statKey e win) (fun s => statSnap s e win entry true))

/-- STAT_CLEAR_ALL (R76): every entry cleared, 0 to 254 freed. -/
def execStatClearAll (ag : Agent) (e : Fin 32) (s : State) : Host.Outcome State Fault Refusal :=
  .next (guarded s ag (rStatClearAll e).key (fun s =>
    let x := statEntry s e 255
    setStat { s with eng := { s.eng with stats := s.eng.stats.filter (fun y => !decide (y.1.1 = e.val)) } } e 255 x.cleared))

end Sys2Proof.Machine
end

