-- ==== Sys2Proof/Machine/Crypto.lean ====
section
/-! DEFINITION. The published codes that the manual names and does not print: CRC-32 (R235, R305, R394, R403) and CRC-32C (R315)
in their reflected form, and AES-256-GCM (R326, R379), from the standards of those names (PRESUMED, log 67). Nothing here reads
the state. -/

namespace Sys2Proof.Machine

open Sys2Proof

/-! ### Cyclic redundancy codes -/

/-- Bits of a reflected code shifted out of a register, `poly` folded in. -/
def crcShift (poly : Nat) : Nat → Nat → Nat
  | 0, c => c
  | k + 1, c => crcShift poly k (if c % 2 = 1 then Nat.xor (c / 2) poly else c / 2)

/-- The register after a byte string. -/
def crcFold (poly : Nat) : Nat → Bytes → Nat
  | c, [] => c
  | c, b :: bs => crcFold poly (crcShift poly 8 (Nat.xor c b.toNat)) bs

/-- A 32-bit reflected code: the register starts at all ones and its complement is the result. -/
def crcOf (poly : Nat) (bs : Bytes) : Nat := Nat.xor (crcFold poly 0xFFFFFFFF bs) 0xFFFFFFFF

/-- CRC-32, of IEEE 802.3. -/
def crc32 (bs : Bytes) : Nat := crcOf 0xEDB88320 bs

/-- CRC-32C. -/
def crc32c (bs : Bytes) : Nat := crcOf 0x82F63B78 bs

/-! ### AES-256 -/

/-- Doubling in the field of 256 elements. -/
def aesDouble (a : Nat) : Nat := if a < 128 then 2 * a else Nat.xor (2 * a % 256) 0x1B

/-- Product in that field, over `k` bits of `b`. -/
def aesMul : Nat → Nat → Nat → Nat
  | 0, _, _ => 0
  | k + 1, a, b => Nat.xor (if b % 2 = 1 then a else 0) (aesMul k (aesDouble a) (b / 2))

/-- Powers in that field: `a` to the power `n`, over `k` bits of `n`. -/
def aesPow : Nat → Nat → Nat → Nat
  | 0, _, _ => 1
  | k + 1, a, n => aesMul 8 (if n % 2 = 1 then a else 1) (aesPow k (aesMul 8 a a) (n / 2))

/-- A byte rotated left by `k` bits. -/
def rotl8 (a k : Nat) : Nat := a * 2 ^ k % 256 + a * 2 ^ k / 256

/-- The substitution of a byte: its inverse, then the affine map. -/
def aesSub (a : Nat) : Nat :=
  let b := aesPow 8 a 254
  Nat.xor (Nat.xor (Nat.xor b (rotl8 b 1)) (Nat.xor (rotl8 b 2) (rotl8 b 3))) (Nat.xor (rotl8 b 4) 0x63)

/-- Two byte strings combined by exclusive or, as far as the shorter goes. -/
def xorBytes (a b : Bytes) : Bytes := List.zipWith (fun x y => x ^^^ y) a b

def subBytes (bs : Bytes) : Bytes := bs.map (fun b => BitVec.ofNat 8 (aesSub b.toNat))

/-- The words of the key schedule, newest first; `i` counts up to 60. -/
def aesWords : Nat → Nat → Nat → List Bytes → List Bytes
  | 0, _, _, ws => ws
  | k + 1, i, rc, ws =>
    let t := ws.headD []
    let old := ws.getD 7 []
    if i % 8 = 0 then
      let r := xorBytes (subBytes (t.drop 1 ++ t.take 1)) [BitVec.ofNat 8 rc, 0, 0, 0]
      aesWords k (i + 1) (aesDouble rc) (xorBytes old r :: ws)
    else if i % 8 = 4 then aesWords k (i + 1) rc (xorBytes old (subBytes t) :: ws)
    else aesWords k (i + 1) rc (xorBytes old t :: ws)

/-- The 15 round keys of a 32-byte key. -/
def aesKeys (key : Bytes) : List Bytes :=
  let w0 := ((List.range 8).map (fun i => (key.drop (4 * i)).take 4)).reverse
  let ws := (aesWords 52 8 1 w0).reverse
  (List.range 15).map (fun r => (ws.drop (4 * r)).take 4 |>.flatten)

/-- Rows of the 4 by 4 state, which stands column by column, rotated. -/
def shiftRows (b : Bytes) : Bytes := (List.range 16).map (fun i => b.getD ((i + 4 * (i % 4)) % 16) 0)

/-- One column mixed. -/
def mixColumn (c : Bytes) : Bytes :=
  (List.range 4).map (fun i =>
    let x (j : Nat) : Nat := (c.getD ((i + j) % 4) 0).toNat
    BitVec.ofNat 8 (Nat.xor (Nat.xor (aesDouble (x 0)) (Nat.xor (aesDouble (x 1)) (x 1))) (Nat.xor (x 2) (x 3))))

def mixColumns (b : Bytes) : Bytes := (List.range 4).flatMap (fun i => mixColumn ((b.drop (4 * i)).take 4))

/-- One block under a key schedule. -/
def aesBlock (ks : List Bytes) (b : Bytes) : Bytes :=
  let mid := ((ks.drop 1).take 13).foldl (fun b k => xorBytes (mixColumns (shiftRows (subBytes b))) k) (xorBytes b (ks.headD []))
  xorBytes (shiftRows (subBytes mid)) (ks.getD 14 [])

/-! ### GCM -/

/-- Product in the field of 2^128 elements, first bits first: `k` bits of `x` from its highest. -/
def ghashMul : Nat → Nat → Nat → Nat → Nat
  | 0, _, _, z => z
  | k + 1, x, v, z =>
    ghashMul k x (if v % 2 = 1 then Nat.xor (v / 2) (0xE1 * 2 ^ 120) else v / 2) (if x / 2 ^ k % 2 = 1 then Nat.xor z v else z)

/-- The hash of a byte string cut into blocks of 16 bytes, the last filled up with zeros. -/
def ghash (h : Nat) (bs : Bytes) : Nat :=
  (List.range (cdiv bs.length 16)).foldl (fun y i =>
    let b := (bs.drop (16 * i)).take 16
    ghashMul 128 (Nat.xor y (beNat (b ++ List.replicate (16 - b.length) 0))) h 0) 0

/-- Zeros that fill a byte string up to whole blocks. -/
def padBlock (bs : Bytes) : Bytes := bs ++ List.replicate (16 * cdiv bs.length 16 - bs.length) 0

/-- AES-256-GCM with a 96-bit nonce: the ciphertext and its 16-byte tag. -/
def aesGcm (key nonce aad plain : Bytes) : Bytes × Bytes :=
  let ks := aesKeys key
  let ctr (i : Nat) : Bytes := aesBlock ks (nonce ++ natBE 4 i)
  let text := (List.range (cdiv plain.length 16)).flatMap (fun i => xorBytes ((plain.drop (16 * i)).take 16) (ctr (i + 2)))
  let h := beNat (aesBlock ks (List.replicate 16 0))
  let y := ghash h (padBlock aad ++ padBlock text ++ natBE 8 (8 * aad.length) ++ natBE 8 (8 * text.length))
  (text, natBE 16 (Nat.xor y (beNat (ctr 1))))

end Sys2Proof.Machine
end

