-- ==== Sys2Proof/Machine/Devices.lean ====
section
/-! DEFINITION. The memory devices (R218 to R242): where a line lies in a stack, repairs, refresh and re-training, the flash
controller's requests and its recovery, margining, and the scrubs (R391, R392). -/

namespace Sys2Proof.Machine

open Sys2Proof

/-! ### Where a line lies (R188, R190, R219) -/

/-- A place in a stack or a bulk device. -/
structure Place where
  bulk : Bool
  die  : Nat
  chan : Nat
  bank : Nat
  row  : Nat
  col  : Nat
deriving DecidableEq, Repr

/-- A die-local address by the map of R219. -/
def stackPlace (d a : Nat) : Place :=
  { bulk := false, die := d, chan := Nat.xor (natField a 15 9) (natField a 28 22), bank := natField a 19 18 * 4 + natField a 21 20
    row := natField a 35 22, col := natField a 17 16 * 8 + natField a 8 6 }

/-- The place of the byte at an MPA, where it lies in DRAM. Bank and row of a bulk device are not given. -/
def placeOf (s : State) (mpa : Nat) : Option Place :=
  match regionOf s mpa with
  | some .bulk => some { bulk := true, die := 10, chan := mpa / 4096 % 96, bank := Config.bulkBank (mpa / 64), row := Config.bulkRow (mpa / 64), col := 0 }
  | some (.direct d) => some (stackPlace d ((mpa - stackBase) % (64 * gib)))
  | some .spread =>
    let o := mpa - spreadBase
    some (stackPlace (o / 65536 % 8) ((48 - spreadGib s) * gib + o / 524288 * 65536 + o % 65536))
  | _ => none

/-- Die-local address of the first byte of a row. -/
def rowAddr (bank row : Nat) : Nat := row * 2 ^ 22 + bank % 4 * 2 ^ 20 + bank / 4 * 2 ^ 18

/-- Die-local address of a sector of a row, by the map of R219. -/
def sectorAddr (chan bank row col : Nat) : Nat :=
  rowAddr bank row + col / 8 * 2 ^ 16 + Nat.xor chan (row % 128) * 2 ^ 9 + col % 8 * 64

/-- MPA of a die-local address: direct view below the spread region, spread view above. -/
def localMpa (s : State) (d a : Nat) : Nat :=
  let lim := (48 - spreadGib s) * gib
  if a < lim then stackBase + d * 64 * gib + a
  else spreadBase + (a - lim) / 65536 * 524288 + d * 65536 + (a - lim) % 65536

/-! ### Stacked repair (R227 to R229, R393 to R395) -/

/-- The resource group of a repair, and how many spares it has (R227, R389): 1 connection, 2 row, 3 column, 4 check connection. -/
def spareGroup (r : StkRepair) : Nat := if r.kind = 1 then (if r.target < 128 then r.target / 32 else 4) else r.bank
def spareCount (r : StkRepair) : Nat := if r.kind = 1 ∨ r.kind = 4 then 1 else if r.kind = 2 then 32 else 8
def stkQueue (s : State) (d : Nat) : List StkRepair := mapGet s.dev.stkQ d []

/-- Spares taken or promised. -/
def sparesUsed (s : State) (d : Nat) (r : StkRepair) : Nat :=
  mapGet s.dev.stkUsed (d, r.chan, r.kind, spareGroup r) 0 +
    ((stkQueue s d).filter (fun x => decide (x.kind = r.kind) && decide (x.chan = r.chan) && decide (spareGroup x = spareGroup r))).length

/-- The target number exists. -/
def targetOk (r : StkRepair) : Bool :=
  if r.kind = 1 then decide (r.target ≤ 151) else if r.kind = 2 then decide (r.target < 12288) else decide (r.target < 32)

/-- The channel is being margined (R241). -/
def margined (s : State) (d chan : Nat) : Bool := s.dev.margin.any (fun m => decide (m.1 = 0) && decide (m.2.1 = d * 128 + chan))

def stkStatus (s : State) (d st reason : Nat) : State :=
  setF (setF s (rStkRepairStatus d) fStkRepairStatusState st) (rStkRepairStatus d) fStkRepairStatusReason reason

/-- What follows a repair refused for lack of a resource (R395). -/
def unrepaired (s : State) (d : Nat) (r : StkRepair) : State :=
  let s := addRepair s 12 d r.chan r.bank r.target 0
  let a := localMpa s d (if r.kind = 2 then rowAddr r.bank r.target else if r.kind = 3 then rowAddr r.bank 0 else 0)
  let f := (a - spreadBase) / granBytes
  if r.kind = 2 ∧ spreadBase ≤ a ∧ poolFirst s ≤ f then
    let s := { s with hub := { s.hub with badFrames := lineInsert s.hub.badFrames f } }
    match s.hub.grans.find? (fun g => decide (g.2.state ≠ 0) && decide (g.2.frame = f)) with
    | some g => queueMig s { gran := g.1, promote := false, astag := g.2.astag, part := g.2.part, victim := none, bounced := false }
    | none => s
  else logError s { addr := a, src := 0, sev := 3, typ := 4, unit := r.chan, die := d } none

/-- A repair request of the register or of hub firmware (R228, R229). -/
def stkRequest (s : State) (d : Nat) (r : StkRepair) : State :=
  if ¬targetOk r then stkStatus s d 3 3
  else if margined s d r.chan then stkStatus s d 3 2
  else if spareCount r ≤ sparesUsed s d r then unrepaired (stkStatus s d 3 1) d r
  else stkStatus { s with dev := { s.dev with stkQ := mapSet s.dev.stkQ d (stkQueue s d ++ [r]) } } d 1 0

/-- STK_REPAIR_CONNECTION (R228). -/
def execStkRepairConnection (ag : Agent) (d : Fin 8) (chan : Fin 128) (target : BitVec 14) (s : State) : Host.Outcome State Fault Refusal :=
  .next (guarded s ag (rStkRepair d).key (fun s => stkRequest s d ⟨1, chan, 0, target.toNat⟩))

/-- STK_REPAIR_ROW (R228). -/
def execStkRepairRow (ag : Agent) (d : Fin 8) (chan : Fin 128) (bank : Fin 16) (target : BitVec 14) (s : State) : Host.Outcome State Fault Refusal :=
  .next (guarded s ag (rStkRepair d).key (fun s => stkRequest s d ⟨2, chan, bank, target.toNat⟩))

/-- STK_REPAIR_COLUMN (R228). -/
def execStkRepairColumn (ag : Agent) (d : Fin 8) (chan : Fin 128) (bank : Fin 16) (target : BitVec 14) (s : State) : Host.Outcome State Fault Refusal :=
  .next (guarded s ag (rStkRepair d).key (fun s => stkRequest s d ⟨3, chan, bank, target.toNat⟩))

/-- The kind code of a repair in the repair map (R394). -/
def repairKind (k : Nat) : Nat := if k = 1 then 4 else if k = 2 then 6 else if k = 4 then 5 else 7

/-- A repair complete: its entry is programmed, its spare is taken, and it is counted. -/
def repaired (s : State) (d : Nat) (r : StkRepair) : State :=
  let k := (d, r.chan, r.kind, spareGroup r)
  let n := mapGet s.dev.stkUsed k 0
  let s := addRepair s (repairKind r.kind) d r.chan r.bank r.target n
  advance { s with dev := { s.dev with stkUsed := mapSet s.dev.stkUsed k (n + 1) } } (rStkRepairs d) fStkRepairsRepairs 1

/-- The spares taken as the repair map tells them, at start-up (R228, R394). -/
def sparesOf (m : List Bytes) : FMap (Nat × Nat × Nat × Nat) Nat :=
  m.foldl (fun t e =>
    let k := u8At e 0
    if k < 4 ∨ 7 < k then t
    else
      let r : StkRepair := ⟨if k = 4 then 1 else if k = 5 then 4 else k - 4, u16At e 2, u16At e 4, u32At e 8⟩
      let i := (u8At e 1, r.chan, r.kind, spareGroup r)
      mapSet t i (mapGet t i 0 + 1)) []

/-! ### Refresh and re-training (R225, R226, R230) -/

def refDebt (s : State) (d c b : Nat) : Int := mapGet s.dev.refDebt (d, c, b) 0

/-- A row repair of the bank waits or runs. -/
def bankRepairing (s : State) (d c b : Nat) : Bool :=
  (stkQueue s d).any (fun r => decide (r.kind = 2) && decide (r.chan = c) && decide (r.bank = b))

/-- The refresh interval of a die in ns (R225). -/
def refInterval (s : State) (d : Nat) : Nat := if s.pow.stackHot.elem d then 1950 else 3900

/-- How many refreshes of a bank may be postponed, and pulled in. The bulk devices take the largest numbers of R225 (DESIGN
CHOICE, log 134). -/
def refPostpone (s : State) (d : Nat) : Nat := if d < 8 then getF s (rStkCfg d) fStkCfgRefPostpone else 8
def refPullin (s : State) (d : Nat) : Nat := if d < 8 then getF s (rStkCfg d) fStkCfgRefPullin else 8

/-- A channel exists: 128 in a stack, 96 in the bulk devices. -/
def chanThere (d chan : Nat) : Bool := decide (d < 8) || decide (chan < 96)

/-- A refresh of a bank has fallen due. -/
def refreshDue (s : State) (d c b : Nat) : Bool :=
  match mapFind s.dev.refAt (d, c, b) with
  | none => true
  | some t => decide (t + refInterval s d ≤ s.time)

/-- REFRESH (R225, R230): one falls due every tREFI. During a row repair of its bank, and where the controller so chooses, it is
postponed as far as REF_POSTPONE allows; otherwise it is issued, unless it was pulled in before. A refresh pulled in makes up a
postponed one first, and runs ahead as far as REF_PULLIN allows. -/
def execRefresh (d : Fin 9) (chan : Fin 128) (bank : BankRef) (s : State) : Host.Outcome State Fault Refusal :=
  .next (
    let k := (d.val, chan.val, bank.bank.val)
    let x := refDebt s d chan bank.bank
    let put (s : State) (y : Int) : State := { s with dev := { s.dev with refDebt := mapSet s.dev.refDebt k y } }
    if ¬chanThere d chan then s
    else match bank.act with
      | .pullIn => if -(refPullin s d : Int) < x then put s (x - 1) else s
      | _ =>
        if ¬refreshDue s d chan bank.bank then s
        else
          let s := { s with dev := { s.dev with refAt := mapSet s.dev.refAt k s.time } }
          let late := decide (bank.act = .postpone) || bankRepairing s d chan bank.bank
          put s (if x < 0 ∨ (late ∧ x < refPostpone s d) then x + 1 else x))

/-- A re-training window may begin: STK_RECAL_MS after the channel's last, and in a stack in no other channel's window. -/
def recalMay (s : State) (d chan : Nat) : Bool :=
  (match mapFind s.dev.recalAt (d, chan) with
    | none => true
    | some t => decide (t + objNat s oStkRecalMs * 1000000 ≤ s.time)) &&
  (decide (d = 8) || s.dev.recalAt.all (fun x => decide (x.1.1 ≠ d) || decide (x.1.2 = chan) || decide (x.2 + 2000 ≤ s.time)))

/-- RECAL_WINDOW (R226, R230): the window is counted, and all 16 banks of the channel take their refresh. -/
def execRecalWindow (d : Fin 9) (chan : Fin 128) (s : State) : Host.Outcome State Fault Refusal :=
  .next (
    if ¬chanThere d chan ∨ ¬recalMay s d chan then s
    else
      let s := if d.val < 8 then advance s (rRecalWindows d) fRecalWindows 1 else s
      { s with dev := { s.dev with
          recalAt := mapSet s.dev.recalAt (d.val, chan.val) s.time
          refDebt := s.dev.refDebt.filter (fun x => !(decide (x.1.1 = d.val) && decide (x.1.2.1 = chan.val))) } })

/-! ### NAND (R232, R233, R235) -/

def pageBytes : Nat := 16384
def pageAddr (lpn : Nat) : Nat := flashBase + lpn * pageBytes

/-- Word lines of a block, and the pages of a word line: lower in the first pass, middle and upper in the second (R232, R239). -/
def blockLines : Nat := 768
def linePages : Nat := 3
def blockPages : Nat := blockLines * linePages

/-- Where a block lies: channel, die, plane. How many blocks a plane has is not given, nor how they are numbered (DESIGN CHOICE,
log 133). -/
def blockChannel (b : Nat) : Nat := b % 16
def blockDie (b : Nat) : Nat := b % Config.flashDies
def blockPlane (b : Nat) : Nat := b / Config.flashDies % 4

/-- The page that holds a logical page: the newest of the journal, else the mapping table's. -/
def pageOf (s : State) (lpn : Nat) : Option FlPage :=
  match s.dev.flJournal.reverse.find? (fun p => decide (p.lpn = lpn)) with
  | some p => some p
  | none => mapFind s.dev.flTable lpn

/-- The newer of two programs of one logical page holds: the one with the higher sequence number (R237). -/
def mapPage (t : FMap Nat FlPage) (p : FlPage) : FMap Nat FlPage :=
  match mapFind t p.lpn with
  | some q => if p.seq.toNat < q.seq.toNat then t else mapSet t p.lpn p
  | none => mapSet t p.lpn p

/-- The mapping tables written anew with what the journal says. -/
def foldJournal (s : State) : State :=
  { s with dev := { s.dev with flTable := s.dev.flJournal.foldl mapPage s.dev.flTable, flJournal := [] } }

/-- A logical page no longer mapped: it reads zeros. -/
def unmapPage (s : State) (lpn : Nat) : State :=
  { s with dev := { s.dev with
      flTable := mapDel s.dev.flTable lpn, flJournal := s.dev.flJournal.filter (fun p => decide (p.lpn ≠ lpn)) } }

/-- Every page that a logical page is mapped to. -/
def validPages (s : State) : List FlPage :=
  (foldJournal s).dev.flTable.map (fun x => x.2)

/-- The first number at or after b outside a list no longer than k. -/
def outside (l : List Nat) : Nat → Nat → Nat
  | 0, b => b
  | k + 1, b => if l.elem b then outside l k (b + 1) else b

/-- A block to fill: one that holds no valid page and is not retired, erased now if it has been programmed since its last erase; an
erase that a loss of power abandoned is made up here (R235, R236). Which of them is the controller's choice: a free value. -/
def takeBlock (s : State) : State :=
  let (f, s) := drawFree s
  let used := s.dev.flRetired ++ (validPages s).map (fun p => p.block)
  let b := outside used used.length f.toNat
  { s with dev := { s.dev with flBlock := some (b, 0), flWritten := lineInsert s.dev.flWritten b } }

/-- The next page of the block being filled. -/
def nextPage (s : State) : Nat × Nat × State :=
  let s := match s.dev.flBlock with
    | some (_, n) => if n < blockPages then s else takeBlock s
    | none => takeBlock s
  let (b, n) := s.dev.flBlock.getD (0, 0)
  (b, n, { s with dev := { s.dev with flBlock := some (b, n + 1) } })

/-- The key of a partition that flash pages are encrypted under: partition and generation (R379, R381). -/
def flashKey (s : State) (p : Nat) : Nat × Nat := (p, mapGet s.sec.flashKeys p 0)

/-- What the CRC-32 of a spare area covers: the page's data, its logical page number and its sequence number (R235). How the fields
stand there is not given (DESIGN CHOICE, log 133). -/
def pageCrc (s : State) (lpn : Nat) (seq : Word) : Nat :=
  crc32 (mpaRead s (pageAddr lpn) pageBytes ++ natLE 8 lpn ++ natLE 8 seq.toNat)

/-- A logical page's contents programmed into an erased page with the next sequence number, and journalled (R235, R237). Of a lower
page the SLC journal keeps a copy until its word line's second pass has completed (R239). -/
def programPage (s : State) (key : Nat × Nat) (lpn : Nat) : State :=
  let (b, n, s) := nextPage s
  let seq := s.dev.flSeq + 1
  let p : FlPage := { block := b, page := n, lpn := lpn, seq := seq, crc := pageCrc s lpn seq, key := key }
  let s := { s with dev := { s.dev with flSeq := seq, flJournal := s.dev.flJournal ++ [p] } }
  if n % linePages = 0 then slcPages { s with dev := { s.dev with flLower := s.dev.flLower ++ [p] } } pageBytes
  else if n % linePages = 2 then { s with dev := { s.dev with
    flLower := s.dev.flLower.filter (fun q => decide (q.block ≠ b) || decide (q.page / linePages ≠ n / linePages)) } }
  else s

/-- The valid pages of a block programmed elsewhere, each under its key (R392, R393). -/
def movePages (s : State) (b : Nat) : State :=
  let l := (validPages s).filter (fun p => decide (p.block = b))
  let s := if s.dev.flBlock.any (fun x => decide (x.1 = b)) then { s with dev := { s.dev with flBlock := none } } else s
  l.foldl (fun s p => programPage s p.key p.lpn) s

/-! ### The flash tier's requests (R234 to R239) -/

/-- The source span lies in the bulk or the stacked tier. -/
def flSourceOk (s : State) (a n : Nat) : Bool :=
  match spanRegion s a n with
  | some .bulk | some .spread | some (.direct _) => true
  | _ => false

/-- A request queued or refused (R234). -/
def flRequest (s : State) (write : Bool) (part pages lpn : Nat) : State :=
  let src := getF s rFlReqSrc fFlReqSrcMpa * pageBytes
  if 64 ≤ s.dev.flQ.length ∨ Config.flashLogicalBytes < (lpn + pages) * pageBytes ∨
      (write = true ∧ pages ≠ 0 ∧ ¬flSourceOk s src (pages * pageBytes)) then setF s rFlReqStatus fFlReqStatusRefused 1
  else { s with dev := { s.dev with flQ := s.dev.flQ ++ [{ write := write, part := part, pages := pages, lpn := lpn, src := src }] } }

/-- FL_REQ_WRITE (R234). -/
def execFlReqWrite (ag : Agent) (part : Fin 16) (pages : BitVec 24) (lpn : BitVec 32) (s : State) : Host.Outcome State Fault Refusal :=
  .next (guarded s ag rFlReqCtl.key (fun s => flRequest s true part pages.toNat lpn.toNat))

/-- FL_REQ_TRIM (R234). -/
def execFlReqTrim (ag : Agent) (part : Fin 16) (pages : BitVec 24) (lpn : BitVec 32) (s : State) : Host.Outcome State Fault Refusal :=
  .next (guarded s ag rFlReqCtl.key (fun s => flRequest s false part pages.toNat lpn.toNat))

/-- Poison of a source span delivered to a destination span (R214, R215). -/
def carryPoison (s : State) (src dst n : Nat) : State :=
  (linesOf src n).foldl (fun s l =>
    if linePoisoned s (locate s (64 * l) / 64) then
      let lo := max src (64 * l)
      let hi := min (src + n) (64 * l + 64)
      mpaPoison s (dst + (lo - src)) (hi - lo)
    else s) s

/-- A page written under the key of a partition other than its owner reads, under the owner's key, as undefined data; a page that no
partition owns reads under the key it was written with (DESIGN CHOICE, log 133). -/
def foreignKey (s : State) (part lpn : Nat) : Bool :=
  match addrOwner s (pageAddr lpn) with
  | some q => decide (q ≠ part)
  | none => false

/-- Page i of a request takes its new contents. -/
def flPageDo (s : State) (r : FlReq) (i : Nat) : State :=
  let lpn := r.lpn + i
  let a := pageAddr lpn
  if r.write then
    let src := r.src + i * pageBytes
    let bs := hubView s src pageBytes
    let s := programPage (carryPoison (rawWrite (hubTouch s src pageBytes) a bs) src a pageBytes) (flashKey s r.part) lpn
    if foreignKey s r.part lpn then scramble s a pageBytes else s
  else unmapPage (rawZero s a pageBytes) lpn

/-- Programs may start: the hold-up bank is charged and no power-fail stop holds (R236, R413). -/
def flashRuns (s : State) : Bool := !s.dev.flStop && getB s rPwrStatus fPwrStatusHoldupReady

/-- FLASH_REQUEST_DONE (R234, R238): every page of the oldest request is programmed and mapped, and COMPLETED advances. -/
def execFlashRequestDone (s : State) : Host.Outcome State Fault Refusal :=
  .next (
    match s.dev.flQ with
    | [] => s
    | r :: l =>
      if ¬flashRuns s then s
      else
        let s := (List.range r.pages).foldl (fun s i => flPageDo s r i) { s with dev := { s.dev with flQ := l } }
        advance (foldJournal s) rFlReqStatus fFlReqStatusCompleted 1)

/-- A page in flight: what it held, what it takes. -/
def cutPage (s : State) (r : FlReq) (i : Nat) : State :=
  let lpn := r.lpn + i
  let old := ((List.range pageBytes).map (fun k => (k, cellGet s.mem (pageAddr lpn + k)))).filter (fun (x : Nat × Byte) => decide (x.2 ≠ 0))
  let bad := s.poison.filter (fun l => decide (pageAddr lpn ≤ 64 * l) && decide (64 * l < pageAddr lpn + pageBytes))
  let t := flPageDo s r i
  let p : FlProg := { lpn := lpn, page := if r.write then pageOf t lpn else none, old := old, bad := bad, was := pageOf s lpn }
  { t with dev := { t.dev with flInflight := t.dev.flInflight ++ [p] } }

/-- Power fails while the oldest request runs (R236 to R238): its pages are in flight, each with the bytes it held, until the
rebuild tells which programs ended. The other requests are lost. -/
def flashCut (s : State) : State :=
  let s := match s.dev.flQ with
    | [] => s
    | r :: _ =>
      if ¬flashRuns s then s
      else (List.range r.pages).foldl (fun s i => cutPage s r i) s
  { s with dev := { s.dev with flQ := [], flStop := true, flOpen := false } }

/-- The bytes, poison and mapping of a page as they were before its program (R237). -/
def revertPage (s : State) (p : FlProg) : State :=
  let s := p.old.foldl (fun s x => { s with mem := cellSet s.mem (pageAddr p.lpn + x.1) x.2 }) (rawZero s (pageAddr p.lpn) pageBytes)
  let s := unmapPage (p.bad.foldl poisonLine s) p.lpn
  match p.was with
  | some q => { s with dev := { s.dev with flTable := mapSet s.dev.flTable p.lpn q } }
  | none => s

/-- The first pass of a lower page had completed when power failed (R239): so the row's operand says, or a page of the same word
line's second pass has finished. -/
def firstPassDone (s : State) (cut held : List Nat) (p : FlProg) : Bool :=
  match p.page with
  | none => false
  | some q => decide (q.page % linePages = 0) && (held.elem p.lpn || s.dev.flInflight.any (fun x =>
      !cut.elem x.lpn && x.page.any (fun y => decide (y.block = q.block) && decide (y.page / linePages = q.page / linePages) && decide (y.page % linePages ≠ 0))))

/-- The mapping rebuilt (R237, R239): a page whose CRC fails reads what it held before its program began, but a lower page whose
first pass had completed keeps what it held then; every other page in flight reads the new value. -/
def rebuildMap (s : State) (cut held : List Nat) : State :=
  let t := s.dev.flInflight.foldr (fun p t => if cut.elem p.lpn && !firstPassDone s cut held p then revertPage t p else t) s
  let t := foldJournal t
  { t with dev := { t.dev with flInflight := [] } }

/-- FLASH_SCRUB (R392): the block is read; a block that needed heavy correction is rewritten to an erased one, with the same
contents at the same logical pages, and is erased. -/
def execFlashScrub (block : Nat) (heavy : Bool) (s : State) : Host.Outcome State Fault Refusal :=
  .next (
    let s := { s with dev := { s.dev with flScrubbed := mapSet s.dev.flScrubbed block s.time } }
    if ¬heavy ∨ ¬flashRuns s then s
    else
      let s := movePages s block
      { s with dev := { s.dev with flWritten := s.dev.flWritten.filter (fun b => decide (b ≠ block)) } })

/-- FLASH_PROGRAM_FAILURE (R393): the program is done on another block, the valid pages are moved and the block is retired
with an entry in the repair map. -/
def execFlashProgramFailure (block : Nat) (s : State) : Host.Outcome State Fault Refusal :=
  .next (
    if s.dev.flRetired.elem block then s
    else
      let s := movePages { s with dev := { s.dev with flRetired := lineInsert s.dev.flRetired block } } block
      addRepair s 9 10 (blockDie block) (blockPlane block) block 0)

/-! ### Margining (R241) -/

/-- A spare connection of the channel is in use. -/
def spareInUse (s : State) (unit : Nat) : Bool :=
  (List.range 4).any (fun g => decide (mapGet s.dev.stkUsed (unit / 128, unit % 128, 1, g) 0 ≠ 0))

/-- The units of an interface. -/
def marginUnits (i : Nat) : Nat := if i = 0 then 1024 else if i = 1 then 96 else if i = 2 then 16 else 0

/-- The write of TRUE to MARGIN_START (R241). -/
def marginStart (s : State) : State :=
  let i := objNat s oMarginIf
  let u := objNat s oMarginUnit
  let ax := objNat s oMarginAxis
  if marginUnits i ≤ u ∨ 3 < ax ∨ s.dev.margin.any (fun m => decide (m.1 = i)) ∨ (i = 0 ∧ spareInUse s u) then setObjNat s oMarginState 1 3
  else setObjNat { s with dev := { s.dev with margin := s.dev.margin ++ [(i, u, ax)] } } oMarginState 1 1

/-- MARGIN_START (R241). -/
def execMarginStart (s : State) : Host.Outcome State Fault Refusal := .next (marginStart s)

/-- MARGIN_DONE (R241): the oldest sweep ends with its edges. -/
def execMarginDone (lo hi : BitVec 16) (step : BitVec 32) (s : State) : Host.Outcome State Fault Refusal :=
  .next (
    match s.dev.margin with
    | [] => s
    | _ :: l =>
      let s := { s with dev := { s.dev with margin := l } }
      let s := setObj s oMarginResult (natLE 2 lo.toNat ++ natLE 2 hi.toNat ++ natLE 4 step.toNat ++ List.replicate 8 0)
      setObjNat s oMarginState 1 2)

/-! ### Errors that the codes report (R388, R390, R393) -/

/-- A row repair asked for by hub firmware; a bulk row is repaired soft at once (R230, R393). A trigger for a row whose repair waits
or runs is ignored. -/
def rowTrigger (s : State) (p : Place) : State :=
  if p.bulk then addRepair { s with dev := { s.dev with softRows := s.dev.softRows ++ [(p.chan, p.bank, p.row)] } } 8 10 p.chan p.bank p.row 0
  else if (stkQueue s p.die).any (fun r => decide (r.kind = 2) && decide (r.chan = p.chan) && decide (r.bank = p.bank) && decide (r.target = p.row)) then s
  else stkRequest s p.die ⟨2, p.chan, p.bank, p.row⟩

/-- A connection with errors in 16 sectors within 1 s (R393): a data or command-address connection's repair is requested, unless it
waits or runs; a check connection is steered to its own spare without a request (R389), or stays in service where that is taken
(R395). -/
def connTrigger (s : State) (p : Place) (c : Nat) : State :=
  let r : StkRepair := if c < 152 then ⟨1, p.chan, 0, c⟩ else ⟨4, p.chan, 0, c - 152⟩
  if r.kind = 1 then (if (stkQueue s p.die).elem r then s else stkRequest s p.die r)
  else if spareCount r ≤ sparesUsed s p.die r then unrepaired s p.die r
  else repaired s p.die r

/-- A corrected error counted at the connection that the code names. -/
def countConn (s : State) (p : Place) (line : Nat) (conn : Option (Fin 168)) : State :=
  match conn with
  | none => s
  | some c =>
    if p.bulk then s
    else
      let k := (p.die, p.chan, c.val)
      let l := (mapGet s.rel.connErr k []).filter (fun x => decide (s.time < x.2 + oneSecond) && decide (x.1 ≠ line)) ++ [(line, s.time)]
      if 16 ≤ l.length then connTrigger { s with rel := { s.rel with connErr := mapDel s.rel.connErr k } } p c
      else { s with rel := { s.rel with connErr := mapSet s.rel.connErr k l } }

/-- A corrected error counted at its row and, in a stack, at its column; the triggers of R393 that count rows and columns. -/
def countCorrected (s : State) (p : Place) : State :=
  let k := (if p.bulk then 12 else p.die, p.chan, p.bank, p.row)
  let ts := (mapGet s.rel.rowErr k []).filter (fun t => decide (s.time < t + dayNs)) ++ [s.time]
  let s := { s with rel := { s.rel with rowErr := mapSet s.rel.rowErr k ts } }
  let s := if objNat s oCeRowLimit ≤ ts.length then
      rowTrigger { s with rel := { s.rel with rowErr := mapDel s.rel.rowErr k } } p
    else s
  if p.bulk then s
  else
    let kc := (p.die, p.chan, p.bank, p.col)
    let cs := (mapGet s.rel.colErr kc []).filter (fun x => decide (s.time < x.2 + dayNs) && decide (x.1 ≠ p.row)) ++ [(p.row, s.time)]
    if 3 ≤ cs.length then stkRequest { s with rel := { s.rel with colErr := mapDel s.rel.colErr kc } } p.die ⟨3, p.chan, p.bank, p.col⟩
    else { s with rel := { s.rel with colErr := mapSet s.rel.colErr kc cs } }

/-- Error record of a line at where it lies. -/
def lineError (s : State) (a : Nat) (sev typ : Nat) : ErrInfo :=
  match placeOf s a with
  | some p => { addr := 64 * (a / 64), src := regionSource s a, sev := sev, typ := typ, unit := p.chan, die := p.die, part := (addrOwner s a).getD 0 }
  | none => match regionOf s a with
    | some (.sram e) => { addr := 64 * (a / 64), src := 3, sev := sev, typ := typ, unit := e, die := e / 4, part := (addrOwner s a).getD 0 }
    | _ => { addr := 64 * (a / 64), src := regionSource s a, sev := sev, typ := typ, part := (addrOwner s a).getD 0 }

/-- What the codes report of a read of the line at `a`, where it lies: corrections are logged and counted, an uncorrectable
error or a parity error of data poisons the line and is logged once (R214, R390, R400). -/
def eccRead (s : State) (a : Nat) (r : EccResult) : State :=
  if linePoisoned s (a / 64) then s
  else
    match r with
    | .ok => s
    | .corrected conn =>
      let s := logError s (lineError s a 0 0) (addrOwner s a)
      match placeOf s a with
      | some p => countConn (countCorrected s p) p (a / 64) conn
      | none => s
    | .uncorrectable =>
      let s := logError (poisonLine s (a / 64)) (lineError s a 1 0) (addrOwner s a)
      match placeOf s a with
      | some p => rowTrigger s p
      | none => s
    | .pathParity => logError (poisonLine s (a / 64)) (lineError s a 1 1) (addrOwner s a)
    | .pathParityAddr => logError s (lineError s a 1 1) (addrOwner s a)

/-- The lines that a repair reads: the sectors of a row, or a column's sector of each row (R228). A connection's repair copies
nothing. -/
def repairLine (s : State) (d : Nat) (r : StkRepair) (i : Nat) : Option Nat :=
  if r.kind = 2 ∧ i < 32 then some (localMpa s d (sectorAddr r.chan r.bank r.target i))
  else if r.kind = 3 ∧ i < 12288 then some (localMpa s d (sectorAddr r.chan r.bank i r.target))
  else none

/-- The old row or column read through ECC: what it finds is logged, and a line that cannot be corrected goes into the spare as
poison (R228). -/
def repairRead (s : State) (d : Nat) (r : StkRepair) (x : Nat × EccResult) : State :=
  match repairLine s d r x.1 with
  | some a => eccRead s (locate s a) x.2
  | none => s

/-- REPAIR_DONE (R228, R394): the oldest repair of a die has copied its target into the spare, and it is complete once its entry
is programmed; a flash controller that starts no program holds it back. -/
def execRepairDone (d : RepairEnd) (s : State) : Host.Outcome State Fault Refusal :=
  .next (
    match stkQueue s d.die with
    | [] => s
    | r :: _ =>
      if ¬flashRuns s then s
      else
        let s := repaired (d.reads.foldl (fun s x => repairRead s d.die r x) s) d.die r
        let l := (stkQueue s d.die).drop 1
        stkStatus { s with dev := { s.dev with stkQ := mapSet s.dev.stkQ d.die.val l } } d.die (if l.isEmpty then 2 else 1) 0)

/-- Lines of the two DRAM tiers. -/
def dramLines : Nat := (bulkBytes + 8 * 48 * gib) / 64

/-- PATROL_SCRUB (R391): one line of the stacked or bulk tier is read where its data lies now; corrections and poison markers
are written back, and the pass moves on. -/
def execPatrolScrub (line : BitVec 44) (r : EccResult) (s : State) : Host.Outcome State Fault Refusal :=
  .next (
    let a := 64 * line.toNat
    match regionOf s a with
    | some .bulk | some .spread | some (.direct _) =>
      let s := eccRead s (locate s a) r
      let n := s.dev.scrubbed + 1
      let over_ := decide (dramLines ≤ n)
      let n := if over_ then 0 else n
      let s := { s with dev := { s.dev with scrubbed := n } }
      let s := if over_ then advance s rScrubStatus fScrubStatusPasses 1 else s
      setF s rScrubStatus fScrubStatusProgress (n * 65536 / dramLines)
    | _ => s)

end Sys2Proof.Machine
end

