-- ==== Sys2Proof/Machine/Flits.lean ====
section
/-! DEFINITION. Flits (R345 to R347): messages cut into slots, the slot credits of each class, and the modules that carry them. -/

namespace Sys2Proof.Machine

open Sys2Proof

def link (s : State) (l : Nat) : Link := mapGet s.d2d.links l {}
def setLink (s : State) (l : Nat) (x : Link) : State := { s with d2d := { s.d2d with links := mapSet s.d2d.links l x } }

/-- The die of a connection as the repair map and error records name it. -/
def linkDie (l : Nat) : Nat := if l < 8 then l else if l < 16 then l - 8 else if l < 18 then l - 8 else 11

/-! ### Slots of a message (R346, R347) -/

/-- The class of a message, in the order of CREDITS: MEM_REQ, MEM_RSP, COH_REQ, COH_RSP, IRQ, DBG, MGT. -/
def plaClass (m : PlaMsg) : Nat :=
  match m.chan.toNat with
  | 0 => m.rsp.toNat
  | 1 => 2 + m.rsp.toNat
  | 2 => 4
  | 3 => 5
  | _ => 6

/-- The message header's 16 bytes. -/
def plaHeader (m : PlaMsg) : Bytes :=
  natLE 1 (m.chan.toNat + 8 * m.rsp.toNat + 16 * m.op.toNat) ++
    natLE 1 (m.lines.toNat + 4 * (!m.data.isEmpty).toNat + 8 * m.poison.toNat) ++ natLE 2 m.tag.toNat ++ natLE 2 m.agent.toNat ++
    natLE 1 m.status.toNat ++ natLE 1 (m.nc.toNat + 2 * m.aop.toNat + 16 * m.size64.toNat + 32 * m.signed.toNat) ++ natLE 8 m.addr.toNat

/-- Bytes in pieces of 16, the last filled with zeros. -/
def slotsOf (bs : Bytes) : List Bytes :=
  (List.range (cdiv bs.length 16)).map (fun i => ((bs.drop (16 * i)).take 16 ++ List.replicate 16 0).take 16)

/-- The slots of a message, each with its SLOT_TYPE: the header, the data, and for a WRP the byte mask, which stands last (DESIGN CHOICE,
log 137). -/
def plaSlots (m : PlaMsg) : List (Nat × Bytes) :=
  (1, plaHeader m) :: ((slotsOf m.data ++
    (if m.chan = 0 ∧ ¬m.rsp ∧ m.op = 2 then slotsOf (natLE 8 m.mask.toNat) else [])).map (fun b => (2, b)))

/-! ### Flits (R345, R346) -/

/-- Message slots of a flit. -/
def flitSlots : Nat := 14

/-- The control slot: the credits returned and the types of the other slots. -/
def controlSlot (creds types : List Nat) : Bytes :=
  (List.range 7).flatMap (fun i => natLE 1 (creds.getD i 0)) ++ [0] ++
    natLE 4 ((types.zipIdx).foldl (fun (t : Nat) (x : Nat × Nat) => t + x.1 * 4 ^ x.2) 0) ++ List.replicate 4 0

/-- The 240 bytes of a flit. -/
def flitBody (creds : List Nat) (slots : List (Nat × Bytes)) : Bytes :=
  (controlSlot creds (slots.map Prod.fst) ++ slots.flatMap Prod.snd ++ List.replicate 240 0).take 240

/-- The module that the next flit takes: the UP modules of a connection in rotation, from `k` on (R345). -/
def nextModule (s : State) (l k : Nat) : Option Nat :=
  ((List.range 4).map (fun i => (k + i) % 4)).find? (fun m => bitOf (getF s (rPlaLinkState l) fPlaLinkStateModulesUp) m)

/-- DISCOVER and AGREE go before any credit is known (R351). -/
def beforeCredits (m : PlaMsg) : Bool := decide (m.chan = 4) && !m.rsp && decide (m.op.toNat < 2)

/-- The messages that may leave now, those that wait, and the credits left: of each class in order, each with a credit for every slot
(R346, R349). -/
def sendable : List PlaMsg → List Nat → List Nat → List PlaMsg × List PlaMsg × List Nat
  | [], cr, _ => ([], [], cr)
  | m :: ms, cr, shut =>
    let c := plaClass m
    let n := (plaSlots m).length
    if beforeCredits m then
      let (a, b, cr) := sendable ms cr shut
      (m :: a, b, cr)
    else if shut.elem c ∨ cr.getD c 0 < n then
      let (a, b, cr) := sendable ms cr (c :: shut)
      (a, m :: b, cr)
    else
      let (a, b, cr) := sendable ms (cr.set c (cr.getD c 0 - n)) shut
      (m :: a, b, cr)

/-- Flits sent one after the other: the slots in order, the credits owed as far as a byte holds them. -/
def sendFlits (s : State) (l : Nat) : Nat → List (Nat × Bytes) → State
  | 0, _ => s
  | k + 1, slots =>
    let x := link s l
    match nextModule s l x.nextMod with
    | none => s
    | some m =>
      let back := x.owed.map (fun n => min n 255)
      let f : Flit := { link := l, mod := m, body := flitBody back (slots.take flitSlots) }
      let s := setLink { s with d2d := { s.d2d with flits := s.d2d.flits ++ [f] } } l
        { x with owed := (x.owed.zip back).map (fun y => y.1 - y.2), nextMod := (m + 1) % 4 }
      sendFlits s l k (slots.drop flitSlots)

/-- What can leave a connection leaves: messages with credits, and the credits that this end owes. -/
def pumpFlits (s : State) (l : Nat) : State :=
  let x := link s l
  if (nextModule s l x.nextMod).isNone then s
  else
    let (go, stay, cr) := sendable x.flitQ x.credits []
    let slots := go.flatMap plaSlots
    let n := max (cdiv slots.length flitSlots) (if x.owed.any (fun n => decide (n ≠ 0)) then 1 else 0)
    sendFlits (setLink s l { x with flitQ := stay, credits := cr }) l n slots

/-- Slot credits that the other end states in its DISCOVER line (R351). -/
def initialCredits (line : Bytes) : List Nat := (List.range 7).map (fun i => u8At line (8 + i))

/-- The guest has credits to return, since when (R357). -/
def guestDebt (s : State) : Option Nat :=
  let x := link s 18
  match x.heard with
  | some d =>
    if (initialCredits d).zip x.credits |>.any (fun y => decide (y.2 < y.1)) then some (s.d2d.guestCredit.getD s.time) else none
  | none => s.d2d.guestCredit

/-- A message given to a connection (R346): it leaves in flits as its credits allow. The guest owes the credits for those sent to it
(R357). -/
def plaSend (s : State) (l : Nat) (m : PlaMsg) : State :=
  let x := link s l
  let s := setLink { s with d2d := { s.d2d with out := s.d2d.out ++ [(l, m)] } } l { x with flitQ := x.flitQ ++ [m] }
  let s := pumpFlits s l
  { s with d2d := { s.d2d with guestCredit := if l = 18 then some (s.d2d.guestCredit.getD s.time) else s.d2d.guestCredit } }

/-- The credits that a message brings, and those that its slots are worth to the other end once it is taken (R346). Credits that come
back from the guest end its debt, or begin it anew for what it still owes. -/
def takeCredits (s : State) (l : Nat) (m : PlaMsg) : State :=
  let x := link s l
  let cr := (List.range 7).map (fun i => x.credits.getD i 0 + m.creds.getD i 0)
  let owed := (List.range 7).map (fun i => x.owed.getD i 0 + (if i = plaClass m ∧ ¬beforeCredits m then (plaSlots m).length else 0))
  let s := setLink s l { x with credits := cr, owed := owed }
  if l = 18 ∧ m.creds.any (fun n => decide (n ≠ 0)) then
    let s := { s with d2d := { s.d2d with guestCredit := none } }
    { s with d2d := { s.d2d with guestCredit := guestDebt s } }
  else s

end Sys2Proof.Machine
end

