-- ==== Sys2Proof/Machine/Access.lean ====
section
/-! DEFINITION. Accesses at MPAs (R187, R192, R206, R213 to R215, R267 to R276, R280 to R283, R428): what the hub, the
controllers and the directory answer to one access, what it changes, and when it waits. -/

namespace Sys2Proof.Machine

open Sys2Proof

/-! ### Requests -/

/-- The presence bit of a caching agent (R264). -/
def presenceBit : Agent → Option Nat
  | .core c _ => some c.val
  | .spindle e k _ => some (128 + 4 * e.val + k.val)
  | _ => none

/-- The width of an atomic operation (R280). -/
def atomicBytes (op : AtomicOp) (size64 : Bool) : Nat :=
  match op with
  | .fadd32 | .faddbf16 => 4
  | _ => if size64 then 8 else 4

/-- The bytes an access covers. -/
def reqBytes (r : MemReq) : Nat :=
  match r.kind with
  | .write | .sc => r.data.length
  | .atomic op sz _ => atomicBytes op sz
  | _ => r.len

/-- Writes of memory; atomic operations count as writes (R206). -/
def reqWrites (r : MemReq) : Bool :=
  match r.kind with
  | .write | .sc | .atomic .. => true
  | _ => false

/-- The answer to a misaligned atomic (R280). -/
def misalignedOut : Agent → AccessOut
  | .core .. | .spindle .. => .misaligned
  | _ => .refused

/-! ### Generations (R427, R428) -/

/-- The generation of a unit: engines show theirs in ENG_GEN. -/
def unitGen (s : State) : UnitId → Nat
  | .engine e => engGen s e.val
  | u => mapGet s.pow.gens u 0

/-- The unit whose generation an agent's requests carry. -/
def agentUnit : Agent → Option UnitId
  | .core c _ => some (.core c)
  | .spindle e _ _ => some (.engine e)
  | .engine e _ => some (.engine e)
  | _ => none

/-- A 32-bit generation older than the unit's own. -/
def genOlder (cur g : Nat) : Bool :=
  let d := (cur + 2 ^ 32 - g % 2 ^ 32) % 2 ^ 32
  decide (0 < d) && decide (d < 2 ^ 31)

/-- A stale write counted in GEN_STALE of its unit (R428). -/
def countStale (s : State) (u : UnitId) : State :=
  match u with
  | .engine e => bump s (rEngGen e) fEngGenGenStale 1
  | _ => { s with pow := { s.pow with stale := mapSet s.pow.stale u (mapGet s.pow.stale u 0 + 1) } }

/-- A write of an older generation of its unit. -/
def staleUnit (s : State) (r : MemReq) : Option UnitId :=
  match agentUnit r.agent with
  | some u => if reqWrites r && genOlder (unitGen s u) r.gen.toNat then some u else none
  | none => none

/-! ### Atomic operations (R280) -/

/-- FP32 rounded once to BF16, to nearest even. -/
def bf16Of (x : BitVec 32) : Nat :=
  if x = 0x80000000 then 0x8000
  else match f32Dec x with
    | .fin d => if d.isNeg ∧ ffBf16.rne d = 0 then 0x8000 else ffBf16.rne d
    | .inf n => if n then 0xFF80 else 0x7F80
    | .nan => 0x7FC0

/-- One BF16 lane of FADDBF16. -/
def bf16Lane (a b : Nat) : Nat := bf16Of (f32Add (BitVec.ofNat 32 (a % 65536 * 65536)) (BitVec.ofNat 32 (b % 65536 * 65536)))

/-- A number of 4 or 8 bytes read as signed. -/
def asSigned (n v : Nat) : Int := if v < 2 ^ (8 * n - 1) then v else (v : Int) - 2 ^ (8 * n)

/-- The number an atomic writes, of `n` bytes; none where a CAS compares unequal. -/
def atomicNew (op : AtomicOp) (signed : Bool) (n old x cmp : Nat) : Option Nat :=
  let m := 2 ^ (8 * n)
  let x := x % m
  let less (a b : Nat) : Bool := if signed then decide (asSigned n a < asSigned n b) else decide (a < b)
  match op with
  | .add => some ((old + x) % m)
  | .fadd32 => some (f32Add (BitVec.ofNat 32 old) (BitVec.ofNat 32 x)).toNat
  | .faddbf16 => some (bf16Lane old x + 65536 * bf16Lane (old / 65536) (x / 65536))
  | .min => some (if less x old then x else old)
  | .max => some (if less old x then x else old)
  | .swap => some x
  | .cas => if old = cmp % m then some x else none

/-! ### The directory's entries (R266 to R268) -/

/-- The home slice and set of a line (R266). -/
def dirHome (line : Nat) : Nat × Nat :=
  (Nat.xor (Nat.xor (natField line 3 0) (natField line 7 4)) (Nat.xor (natField line 11 8) (natField line 15 12)),
    Nat.xor (natField line 19 4) (natField line 35 20))

/-- An entry put in the most recently used place. -/
def dirPut (s : State) (d : DirEnt) : State :=
  let s := dirDrop s d.line
  { s with hub := { s.hub with dir := d :: s.hub.dir } }

/-- The victim among a set's entries, most recently used first: fewest presence bits, then least recently used (R268). -/
def dirVictim : List DirEnt → Option DirEnt
  | [] => none
  | d :: l => some (l.foldl (fun b x => if x.pv.length ≤ b.pv.length then x else b) d)

/-- Room for a new entry of a line: a full set of 16 ways evicts one entry (R268). -/
def dirRoom (s : State) (line : Nat) : State :=
  match dirFind s line with
  | some _ => s
  | none =>
    let set_ := s.hub.dir.filter (fun d => decide (dirHome d.line = dirHome line))
    if set_.length < 16 then s
    else match dirVictim set_ with
      | some d => bump (recallLine s d.line false) rDirEvict fDirEvict 1
      | none => s

/-- A new entry for the line would evict an owner within its hold: the request waits for that acknowledgement (R268, R271). -/
def dirBlocked (s : State) (line : Nat) : Bool :=
  match dirFind s line with
  | some _ => false
  | none =>
    let set_ := s.hub.dir.filter (fun d => decide (dirHome d.line = dirHome line))
    decide (16 ≤ set_.length) && (match dirVictim set_ with
      | some d => lineHeld s d.line || !d.waiters.isEmpty
      | none => false)

/-- 128 hub cycles, 71.1 ns, in whole ns (R271). -/
def holdNs : Nat := 72

/-- A line within its new owner's hold, for every agent but the owner (R271). -/
def heldLine (s : State) (bit : Option Nat) (line : Nat) : Bool :=
  match dirFind s line with
  | some d => decide (bit.map (fun b => [b]) ≠ some d.pv) && lineHeld s line
  | none => false

/-- The agent owns the line: its access needs no answer of the home. -/
def ownsLine (s : State) (bit : Option Nat) (line : Nat) : Bool :=
  match dirFind s line with
  | some d => d.owned && decide (bit.map (fun b => [b]) = some d.pv)
  | none => false

/-- A request of number `id` for a SHARED line waits at the home: for a hold (R271), or behind an earlier request for the line
that has not completed (R269). -/
def lineWaits (s : State) (bit : Option Nat) (id line : Nat) : Bool :=
  !ownsLine s bit line &&
    (heldLine s bit line || (match dirFind s line with | some d => !d.waiters.isEmpty | none => false) ||
      s.hub.writes.any (fun w => (linesOf w.addr w.data.length).elem line) ||
      s.hub.stalled.any (fun x => decide (x.id < id) && (linesOf x.req.mpa.toNat (max x.req.len x.req.data.length)).elem line))

/-- A read miss or hit of a caching agent (R267, R270): an owner's data comes home and it keeps a read-only copy. -/
def coreReadLine (s : State) (bit line : Nat) : State :=
  match dirFind s line with
  | none => dirPut (dirRoom s line) { line := line, owned := false, pv := [bit], data := none, hold := none, waiters := [] }
  | some d =>
    if d.pv.elem bit then dirPut s d
    else if d.owned then
      let s := match d.data with
        | some bs => writeBack s line bs
        | none => s
      dirPut (bump s rOwnerSupply fOwnerSupply 1) { d with owned := false, pv := d.pv ++ [bit], data := none, hold := none }
    else dirPut s { d with pv := d.pv ++ [bit] }

/-- A store, SC or LR of a caching agent gains OWNED (R267, R270, R271). -/
def coreOwnLine (s : State) (bit line : Nat) : State :=
  match dirFind s line with
  | none =>
    let s := dirRoom s line
    dirPut s { line := line, owned := true, pv := [bit], data := some (cohRead s (64 * line) 64), hold := some (s.time + holdNs), waiters := [] }
  | some d =>
    if d.owned ∧ d.pv = [bit] then dirPut s d
    else
      let others := (d.pv.filter (fun b => decide (b ≠ bit))).length
      let data := cohRead s (64 * line) 64
      let s := bump (dropResv s line) rInvalidations fInvalidations others
      let s := if d.owned then bump s rOwnerSupply fOwnerSupply 1 else s
      dirPut s { d with owned := true, pv := [bit], data := some data, hold := some (s.time + holdNs) }

/-- Bytes of a store in the lines its agent owns; a line written whole loses its poison. -/
def coreStore (s : State) (bit a : Nat) (bs : Bytes) : State :=
  (linesOf a bs.length).foldl (fun s l =>
    let s := coreOwnLine s bit l
    match dirFind s l with
    | none => s
    | some d =>
      let old := d.data.getD (List.replicate 64 0)
      let new := (List.range 64).map (fun i => if a ≤ 64 * l + i ∧ 64 * l + i < a + bs.length then bs.getD (64 * l + i - a) 0 else old.getD i 0)
      let s := dirPut s { d with data := some new }
      if lineWhole a bs.length l then unpoison s (locate s (64 * l)) 64 else s) s

/-! ### Breach of R248 (R276) -/

/-- A line that a server core caches in breach of R248: undefined until evicted and rewritten whole (R276). -/
def breachLine (s : State) (l : Nat) : State :=
  let h := homeLine s l
  let s := scramble s (64 * (locate s (64 * l) / 64)) 64
  { s with hub := { s.hub with breach := (h, false) :: s.hub.breach.filter (fun y => decide (y.1 ≠ h)) } }

/-- A cacheable access of a server core to a DEVICE range. -/
def breachLines (s : State) (a n : Nat) : State := (linesOf a n).foldl breachLine s

/-- A line cached in breach has left the cache: its contents stay undefined until it is rewritten whole (R276). -/
def breachEvict (s : State) (l : Nat) : State :=
  let h := homeLine s l
  if s.hub.breach.any (fun y => decide (y.1 = h)) then
    { scramble s (64 * (locate s (64 * l) / 64)) 64 with hub := { s.hub with breach := s.hub.breach.map (fun y => if y.1 = h then (h, true) else y) } }
  else s

/-- A server core installs lines of a span whose change to DEVICE is under way: the scan may have passed them (R279). -/
def noteStale (s : State) (r : MemReq) (a n : Nat) : State :=
  match r.agent, s.hub.biasQ with
  | .core .., b :: l =>
    if r.cached && r.shared && !b.toShared && decide (b.start ≤ a) && decide (a < b.start + b.len) then
      { s with hub := { s.hub with biasQ := { b with stale := (b.stale ++ linesOf a n).dedup } :: l } }
    else s
  | _, _ => s

/-! ### Consumed poison of cores (R215) -/

/-- Poison met by a load or fetch of a core: a server core takes an access fault; a U-mode task ends with POISON. -/
def corePoison (s : State) (ag : Agent) (a : Nat) : State :=
  match ag with
  | .core c _ =>
    let p := (coreOwner s c.val).getD 0
    consumePoison s p (some (curStep s p)) a c.val (8 + c.val / 64)
  | .spindle e k _ =>
    let p := (engOwner s e.val).getD 0
    match hartOf s ⟨e, k⟩ with
    | some h =>
      match h.slot with
      | some i =>
        let step := match (task s e i).u with
          | some (u, slot) => match spoolCmd s u slot with
            | some c => c.step
            | none => curStep s p
          | none => curStep s p
        endTask (consumePoison s p (some step) a (4 * e.val + k.val) (e.val / 4)) e i stPoison 0
      | none => hartException (consumePoison s p (some (curStep s p)) a (4 * e.val + k.val) (e.val / 4)) ⟨e, k⟩ h 5 a
    | none => consumePoison s p (some (curStep s p)) a (4 * e.val + k.val) (e.val / 4)
  | _ => s

/-- The answer with the bytes read: a core's load does not retire on poison; every other requester gets the poison. -/
def answerRead (s : State) (r : MemReq) (bs : Bytes) : State × AccessOut :=
  let a := r.mpa.toNat
  if mpaPoisoned s a bs.length then
    match r.agent with
    | .core .. | .spindle .. => (corePoison s r.agent a, .accessFault)
    | _ => (s, .data bs true)
  else (s, .data bs false)

/-! ### One access -/

/-- An access waits: for a migration (R206) or for the end of a hold (R271). -/
def stallReq (s : State) (r : MemReq) : State × AccessOut :=
  let id := s.hub.nextId
  ({ s with hub := { s.hub with nextId := id + 1, stalled := s.hub.stalled ++ [{ id := id, req := r, since := s.time }] } }, .stalled id)

/-- What is asked of memory before its granule state is looked at: generation, address, alignment. -/
def refusal (s : State) (r : MemReq) : Option AccessOut :=
  let a := r.mpa.toNat
  let n := reqBytes r
  match r.kind with
  | .atomic op sz _ =>
    if a % atomicBytes op sz ≠ 0 then some (misalignedOut r.agent)
    else if ¬mpaAdmits s r.agent a n true then some (denied r.agent) else none
  | _ => if ¬mpaAdmits s r.agent a n (reqWrites r) then some (denied r.agent) else none

/-- The engine whose SRAM a store reaches while it is not ACTIVE (R424). -/
def sleepingStore (s : State) (r : MemReq) : Option Nat :=
  match reqWrites r, regionOf s r.mpa.toNat with
  | true, some (.sram e) => if getF s (rEngPwr e) fEngPwrState = 0 then none else some e
  | _, _ => none

/-- The error codes' report of the read that an access makes; a store of whole lines reads none. -/
def reqEcc (s : State) (r : MemReq) : State :=
  let a := r.mpa.toNat
  let n := reqBytes r
  let whole := decide (a % 64 = 0) && decide (n % 64 = 0) && r.strobe.isNone
  match r.kind with
  | .write | .sc => if whole then s else eccRead s (locate s a) r.ecc
  | .peek => s
  | _ => eccRead s (locate s a) r.ecc

/-- An atomic operation (R280 to R283): at home for SHARED lines, near memory for the others. -/
def serveAtomic (s : State) (r : MemReq) (shared : Bool) (op : AtomicOp) (sz signed : Bool) : State × AccessOut :=
  let a := r.mpa.toNat
  let n := atomicBytes op sz
  let s := if shared then bump (recallLine s (a / 64) false) rHomeAtomics fHomeAtomics 1
    else bump (dropResv s (a / 64)) rNearAtomics fNearAtomics 1
  let old := mpaNat s a n
  if mpaPoisoned s a n then
    match r.agent with
    | .core .. | .spindle .. => (corePoison s r.agent a, .accessFault)
    | _ => (s, .old (BitVec.ofNat 64 old) true)
  else
    let s := match atomicNew op signed n old r.operand.toNat r.compare.toNat with
      | some v => mpaPutNat s a n v
      | none => s
    (s, .old (BitVec.ofNat 64 old) false)

/-- The reservation of an agent covers an access (R271). -/
def resvHeld (s : State) (bit : Option Nat) (a : Nat) : Bool :=
  match bit with
  | some b => decide (mapFind s.hub.resv b = some (a / 64))
  | none => false

def setResv (s : State) (bit : Option Nat) (a : Nat) : State :=
  match bit with
  | some b => { s with hub := { s.hub with resv := mapSet s.hub.resv b (a / 64) } }
  | none => s

def clearResv (s : State) (bit : Option Nat) : State :=
  match bit with
  | some b => { s with hub := { s.hub with resv := mapDel s.hub.resv b } }
  | none => s

/-- A run of bytes stored: through the agent's cache, through the directory, or to memory. -/
def storeRun (s : State) (r : MemReq) (shared : Bool) (a : Nat) (bs : Bytes) : State :=
  match shared, r.cached, presenceBit r.agent with
  | true, true, some b => coreStore s b a bs
  | true, _, _ => cohWrite s a bs
  | false, _, _ => mpaWrite ((linesOf a bs.length).foldl dropResv s) a bs

/-- The runs of bytes that strobes select: offset and bytes. -/
def strobeRuns (m : BitVec 64) : Nat → Bytes → Option (Nat × Bytes) → List (Nat × Bytes)
  | _, [], none => []
  | _, [], some r => [r]
  | i, b :: bs, cur =>
    if m.getLsbD i then
      match cur with
      | none => strobeRuns m (i + 1) bs (some (i, [b]))
      | some (o, l) => strobeRuns m (i + 1) bs (some (o, l ++ [b]))
    else
      match cur with
      | none => strobeRuns m (i + 1) bs none
      | some r => r :: strobeRuns m (i + 1) bs none

/-- A store by an agent, of every byte or of the bytes its strobes select. -/
def storeBytes (s : State) (r : MemReq) (shared : Bool) : State :=
  let a := r.mpa.toNat
  match r.strobe with
  | none => storeRun s r shared a r.data
  | some m => (strobeRuns m 0 r.data none).foldl (fun s x => storeRun s r shared (a + x.1) x.2) s

/-- Load of an agent: through its cache, a current read, or memory. -/
def loadBytes (s : State) (r : MemReq) (shared own : Bool) : State × Bytes :=
  let a := r.mpa.toNat
  let n := reqBytes r
  match shared, r.cached, presenceBit r.agent with
  | true, true, some b =>
    let s := (linesOf a n).foldl (fun s l => if own then coreOwnLine s b l else coreReadLine s b l) s
    (s, cohRead s a n)
  | true, _, _ => (bump s rOwnerSupply fOwnerSupply (ownedLines s a n), cohRead s a n)
  | false, _, _ => (s, mpaRead s a n)

/-- A load that the agent's own cache answers: the access reaches no memory. -/
def cacheHit (s : State) (bit : Option Nat) (shared : Bool) (r : MemReq) : Bool :=
  shared && !reqWrites r && (match bit with
    | some b => (linesOf r.mpa.toNat (reqBytes r)).all (fun l => match dirFind s l with
      | some d => d.pv.elem b
      | none => false)
    | none => false)

/-- An admitted access that nothing holds back. -/
def serveNow (s : State) (r : MemReq) (shared hit : Bool) : State × AccessOut :=
  let a := r.mpa.toNat
  let bit := presenceBit r.agent
  let s := if hit then s else reqEcc s r
  match r.kind with
  | .peek => (s, .data (if shared then cohRead s a r.len else mpaRead s a r.len) (mpaPoisoned s a r.len))
  | .read | .fetch =>
    let (s, bs) := loadBytes s r shared false
    answerRead s r bs
  | .lr =>
    let (s, bs) := loadBytes s r shared true
    answerRead (setResv s bit a) r bs
  | .own =>
    let (s, bs) := loadBytes s r shared true
    answerRead s r bs
  | .write =>
    let s := storeBytes s r shared
    (if r.ecc = .pathParity then eccRead s (locate s a) .pathParity else s, .done)
  | .sc =>
    if resvHeld s bit a then (storeBytes (clearResv s bit) r shared, .done)
    else (clearResv s bit, .scFail)
  | .atomic op sz signed => serveAtomic s r shared op sz signed

/-- The access of number `id` waits: a write for a migration (R206); for a SHARED line as its home orders requests (R269, R271), and
for a directory entry whose victim is held (R268). -/
def reqWaits (s : State) (r : MemReq) (id : Nat) : Bool :=
  let a := r.mpa.toNat
  let n := reqBytes r
  let bit := if r.cached then presenceBit r.agent else none
  (reqWrites r && migrationStalls s a n) ||
    (decide (r.kind ≠ .peek) && effShared s r.shared a && (linesOf a n).any (fun l => lineWaits s bit id l || (bit.isSome && dirBlocked s l)))

/-- One access at an MPA of memory; `id` is its place in the order of requests. -/
def serveAs (s : State) (r : MemReq) (id : Nat) : State × AccessOut :=
  let a := r.mpa.toNat
  let n := reqBytes r
  match staleUnit s r with
  | some u => (countStale s u, denied r.agent)
  | none =>
    if n = 0 then (s, if reqWrites r then .done else .data [] false)
    else if r.ecc = .pathParityAddr then (eccRead s (locate s a) .pathParityAddr, denied r.agent)
    else match refusal s r with
      | some o => (s, o)
      | none =>
        let shared := effShared s r.shared a
        let bit := if r.cached then presenceBit r.agent else none
        if reqWaits s r id then stallReq s r
        else
          let s := noteStale s r a n
          let s := match r.agent with
            | .core .. => if r.cached && !r.shared then breachLines s a n else s
            | _ => s
          let hit := cacheHit s bit shared r
          let s := if r.kind = .peek ∨ hit then s else touchSpan s a n r.astag.toNat r.hint.toNat
          serveNow s r shared hit

/-- A new access. -/
def serve (s : State) (r : MemReq) : State × AccessOut := serveAs s r s.hub.nextId

/-- An answer given to the requester. -/
def putAccess (s : State) (o : AccessOut) : State := { s with hub := { s.hub with accOut := s.hub.accOut ++ [o] } }

/-! ### Answers to the dies (R347, R361) -/

/-- The answer to a Plalia request by its access: DATA or ACK with the request's tag. -/
def plaReply (s : State) (link : Nat) (m : PlaMsg) (status : Nat) (data : Bytes) (poison : Nat) : State :=
  let op : BitVec 4 := if m.chan = 4 then 1 else if m.chan = 3 then 0 else
    if (m.chan = 0 ∧ (m.op = 0 ∨ m.op = 3)) ∨ (m.chan = 1 ∧ (m.op = 0 ∨ m.op = 1 ∨ m.op = 3)) then 0 else 1
  let r : PlaMsg := { m with
    rsp := true, op := op, poison := BitVec.ofNat 4 poison, agent := Config.hubAgent, status := BitVec.ofNat 8 status
    nc := false, aop := 0, size64 := false, signed := false, addr := 0, data := data, mask := 0, creds := [], parity := .ok }
  plaSend s link r

/-- POISON bits of the lines of a span. -/
def poisonBits (s : State) (a k : Nat) : Nat :=
  (List.range k).foldl (fun t i => if mpaPoisoned s (a + 64 * i) 64 then t + 2 ^ i else t) 0

/-- The bytes of a read that its requester's die is given, poison or not. -/
def readOut (s : State) (r : MemReq) : Bytes :=
  if effShared s r.shared r.mpa.toNat then cohRead s r.mpa.toNat r.len else mpaRead s r.mpa.toNat r.len

/-- A Plalia request answered from what its access gave. A read that met poison gives the poisoned lines with their POISON
bits; a write with POISON bits poisons its lines (R214, R347). -/
def plaAnswer (s : State) (link : Nat) (m : PlaMsg) (r : MemReq) (o : AccessOut) : State :=
  let k := m.lines.toNat + 1
  match o with
  | .data bs p =>
    let b := poisonBits s r.mpa.toNat k
    plaReply s link m 0 bs (if p ∧ b = 0 then 2 ^ k - 1 else b)
  | .old v p => plaReply s link m 0 (natLE 8 v.toNat ++ List.replicate 56 0) p.toNat
  | .done =>
    let s := (List.range k).foldl (fun s i => if m.poison.getLsbD i then mpaPoison s (r.mpa.toNat + 64 * i) 64 else s) s
    plaReply s link m 0 [] 0
  | .accessFault =>
    if (refusal s r).isNone && !reqWrites r then plaReply s link m 0 (readOut s r) (poisonBits s r.mpa.toNat k)
    else if (refusal s r).isNone then plaReply s link m 0 (mpaRead s r.mpa.toNat 8 ++ List.replicate 56 0) 1
    else plaReply s link m 8 [] 0
  | .refused | .misaligned | .scFail => plaReply s link m 8 [] 0
  | .stalled _ => s

/-- MSIs of a connection whose earlier writes have been acknowledged are applied (R349). -/
def releaseMsis (s : State) (link : Nat) : State :=
  let l := mapGet s.d2d.links link {}
  let ready (x : PlaMsg × List Nat) : Bool := x.2.all (fun id => !(s.d2d.waits.any (fun w => decide (w.1 = id))))
  let s := { s with d2d := { s.d2d with links := mapSet s.d2d.links link { l with msiHeld := l.msiHeld.filter (fun x => !ready x) } } }
  (l.msiHeld.filter ready).foldl (fun s x =>
    match imsicFile x.1.addr.toNat with
    | some (c, f) => imsicSet s c f (x.1.tag.toNat + 65536 * x.1.agent.toNat)
    | none => s) s

/-- The answer to an access that waited, given to the die that sent it or to the observer. -/
def answerId (s : State) (x : StalledReq) (o : AccessOut) : State :=
  match mapFind s.d2d.waits x.id with
  | some (link, m) =>
    releaseMsis (plaAnswer { s with d2d := { s.d2d with waits := mapDel s.d2d.waits x.id } } link m x.req o) link
  | none => putAccess s o

/-- The stalled accesses that a property holds of are served again, in their order; what still waits keeps its place. -/
def retryStalled (s : State) (f : State → StalledReq → Bool) : State :=
  s.hub.stalled.foldl (fun s x =>
    if ¬f s x then s
    else
      let s1 := { s with hub := { s.hub with stalled := s.hub.stalled.filter (fun y => decide (y.id ≠ x.id)) } }
      match serveAs s1 x.req x.id with
      | (_, .stalled _) => s
      | (s, o) => answerId s x o) s

/-- Accesses that nothing holds back any more, since a line has left the directory, are served (R269). -/
def settleWaits (s : State) : State :=
  if s.hub.stalled.any (fun y => !reqWaits s y.req y.id) then retryStalled s (fun s y => !reqWaits s y.req y.id) else s

/-- An access with its answer; a store to the SRAM of an engine that is not ACTIVE wakes it and is held until it is
(R424). -/
def accessMem (s : State) (r : MemReq) : State :=
  match sleepingStore s r with
  | some e =>
    let a := engAux s e
    setEngAux s e { a with heldWake := a.heldWake ++ [.memoryAccess r], wake := true }
  | none =>
    let (s, o) := serve s r
    settleWaits (putAccess s o)

/-- What waited at the hub is tried again: writes of hub units, accesses in their order, completion records, and reports that
hub firmware has still to take. -/
def retryAll (s : State) : State := promoteHot (flushWaitingRecs (retryStalled (releaseWrites s) (fun _ _ => true)))

/-- A granule's migration has ended: what waited for it goes on. -/
def retryGranule (s : State) (_ : Nat) : State := retryAll s

end Sys2Proof.Machine
end

