-- ==== Sys2Proof/Machine/Fabric.lean ====
section
/-! DEFINITION. The Ehrant transport: ports and the link layer of direct mode (R311 to R319), planes and peers (R330),
connections and their contexts (R324, R325), numbered packets, acknowledgement and retransmission (R320 to R323). -/

namespace Sys2Proof.Machine

open Sys2Proof

/-! ### Accessors -/

def conn (s : State) (c : Nat) : Conn := mapGet s.fab.conns c {}
def setConn (s : State) (c : Nat) (x : Conn) : State := { s with fab := { s.fab with conns := mapSet s.fab.conns c x } }
def port (s : State) (p : Nat) : Port := mapGet s.fab.ports p {}
/-- A port's link layer with the register that shows its replay buffer. -/
def setPort (s : State) (p : Nat) (x : Port) : State :=
  setF { s with fab := { s.fab with ports := mapSet s.fab.ports p x } } (rFabPort p) fFabPortReplayHeld x.replay.length
def peerOf (s : State) (q : Nat) : Peer := mapGet s.fab.peers q {}
def setPeer (s : State) (q : Nat) (x : Peer) : State := { s with fab := { s.fab with peers := mapSet s.fab.peers q x } }

/-- PEER_ID and PEER_ID_VALID in force (R432). -/
def peerIdValid (s : State) : Bool := decide (appliedNat s oPeerIdValid = 1)
def peerId (s : State) : Nat := appliedNat s oPeerId

/-- Direct mode (R343). -/
def direct (s : State) : Bool := decide (objNat s oLinkMode = 0)
def portState (s : State) (p : Nat) : Nat := getF s (rFabPort p) fFabPortState

/-! ### Planes (R311, R330) -/

/-- The port leads to the peer: every port in switched mode, the cabled ones in direct mode. -/
def leadsTo (s : State) (q p : Nat) : Bool :=
  !direct s || (getB s (rFabPort p) fFabPortNeighbourValid && decide (getF s (rFabPort p) fFabPortNeighbour = q))

/-- A plane is UP for a peer. -/
def planeUp (s : State) (q p : Nat) : Bool := decide (portState s p = 2) && !(peerOf s q).failed.elem p && leadsTo s q p
def peerPlanes (s : State) (q : Nat) : List Nat := (List.range 16).filter (planeUp s q)

/-- The time since which a peer has had no plane UP, kept current (R330). -/
def noteDown (s : State) (q : Nat) : State :=
  let x := peerOf s q
  if (peerPlanes s q).isEmpty then setPeer s q { x with downSince := some (x.downSince.getD s.time) }
  else setPeer s q { x with downSince := none }

/-- Every known peer's, after a change of a port. -/
def noteAllDown (s : State) : State := (s.fab.peers.map (fun x => x.1)).foldl noteDown s

/-- The peer counts as unreachable (R330). -/
def unreachable (s : State) (q : Nat) : Bool := decide ((peerOf s q).state = 2)

/-! ### Frames on the wire (R313, R317 to R319) -/

/-- Bytes of a frame of direct mode: Ethernet header, link word, Ehrant header, payload, tag, FCS (R313); it bears no VLAN tag
there (DESIGN CHOICE, log 119). The credits it takes (R319). -/
def frameBytes (f : Frame) : Nat := 54 + f.payload.length + (if f.enc then 16 else 0)
def frameCost (f : Frame) : Nat := if f.cls = 2 then 0 else cdiv (frameBytes f) 256

/-- Bytes 0 to 27 of the header, most significant byte first (R315). -/
def frameHead (f : Frame) : Bytes :=
  let flags := f.first.toNat + 2 * f.last.toNat + 4 * f.fence.toNat + 8 * f.enc.toNat + 16 * f.unit.toNat + 32 * f.retx.toNat + 64 * f.ece.toNat
  natBE 1 (16 + f.cls.toNat) ++ natBE 1 flags ++ natBE 2 f.srcPeer.toNat ++ natBE 2 f.dstPeer.toNat ++ natBE 3 (16 * f.conn.toNat + f.plane.val) ++
    natBE 3 f.psn.toNat ++ natBE 2 f.group.toNat ++ natBE 2 f.opid.toNat ++ natBE 2 f.payload.length ++ natBE 1 f.opcode.toNat ++ natBE 1 f.reason.toNat ++
    natBE 8 f.addr.toNat

/-- The payload of a frame as it is sent (R326): of an encrypted one the AES-256-GCM ciphertext and the tag, under the connection's
key. The nonce's PSN is 0 in a frame without one. -/
def sealBody (s : State) (c : Conn) (ext : Nat) (f : Frame) : Bytes :=
  if f.enc then
    let k := mapGet s.sec.keys (c.part, c.keySlot) {}
    let nonce := natBE 12 (f.srcPeer.toNat * 2 ^ 80 + f.conn.toNat * 2 ^ 60 + k.gen % 2 ^ 16 * 2 ^ 44 + ext % 2 ^ 44)
    let (text, tag) := aesGcm k.key nonce (frameHead { f with plane := 0, retx := false }) f.payload
    text ++ tag
  else f.payload

/-- PCP and DSCP of a class (R314). -/
def classPcp (s : State) (f : Frame) : Nat := objNat s (if f.cls = 0 then oPcpData else if f.cls = 2 then oPcpHalyard else oPcpCtrl)
def classDscp (s : State) (f : Frame) : Nat := objNat s (if f.cls = 0 then oDscpData else if f.cls = 2 then oDscpHalyard else oDscpCtrl)

/-- The UDP source port of a connection on a plane (R313). -/
def udpSource (f : Frame) : Nat := 49152 + (f.conn.toNat * 16 + f.plane.val) % 16384

/-- A frame as its port sends it (R313 to R317): in direct mode always Ethernet encapsulation, with the link word. -/
def wireOf (s : State) (f : Frame) (body : Bytes) : Wire :=
  let en := if direct s then 0 else objNat s oEncap
  let head := frameHead f
  { port := f.plane, encap := en
    etype := if en = 0 then objNat s oEthertype else if en = 1 then 0x0800 else 0x86DD
    udp := if en = 0 then none else some (udpSource f, objNat s oUdpPort)
    pcp := classPcp s f, dscp := classDscp s f
    link := if direct s then natBE 4 (f.lseq.toNat * 2 ^ 20 + f.ackLseq.toNat * 2 ^ 8 + f.credits.toNat) else []
    header := head ++ natBE 4 (crc32c (head ++ body)), body := body }

/-- The opcode LINK_ACK; its frames take no link sequence number and are not held for replay (DESIGN CHOICE, log 21). -/
def isLinkAck (f : Frame) : Bool := decide (f.opcode = 0x32)

/-- Whether a port takes a frame now (R318, R319). -/
def portRoom (s : State) (p : Nat) (f : Frame) : Bool :=
  let x := port s p
  decide (portState s p = 2) &&
    (!direct s || (decide (x.replay.length < 1536) && decide ((x.replay.map frameBytes).sum + frameBytes f ≤ 2 ^ 20) && decide (frameCost f ≤ x.credits)))

/-- A frame leaves on a port with its payload as sent; in direct mode it carries the link word and is kept for replay. -/
def putSealed (s : State) (p : Nat) (f : Frame) (body : Bytes) : State :=
  let f := { f with plane := Fin.ofNat 16 p }
  let s := bump s (rPortTxFrames p) fPortTxFramesTxFrames 1
  let x := port s p
  let (s, f) : State × Frame :=
    if direct s then
      let f := { f with lseq := BitVec.ofNat 12 x.lseq, ackLseq := BitVec.ofNat 12 (x.expect + 4095), credits := BitVec.ofNat 8 (min 255 x.owed) }
      let x := { x with owed := x.owed - min 255 x.owed, unacked := 0 }
      let x := if isLinkAck f then x
        else { x with lseq := (x.lseq + 1) % 4096, replay := x.replay ++ [f], wires := x.wires ++ [wireOf s f body], credits := x.credits - frameCost f }
      (setPort s p x, f)
    else (s, f)
  { s with fab := { s.fab with out := s.fab.out ++ [f], wire := s.fab.wire ++ [wireOf s f body] } }

/-- A frame of no encrypted connection leaves on a port. -/
def putFrame (s : State) (p : Nat) (f : Frame) : State := putSealed s p f f.payload

/-- A frame with the module's own peer id as its source and nothing else. -/
def emptyFrame (s : State) : Frame :=
  { cls := 0, first := true, last := true, fence := false, enc := false, unit := false, retx := false, ece := false
    srcPeer := BitVec.ofNat 16 (peerId s), dstPeer := 0, conn := 0, plane := 0, psn := 0, group := 0, opid := 0, opcode := 0
    reason := 0, addr := 0, payload := [], bad := [], lseq := 0, ackLseq := 0, credits := 0, icrcOk := true, gcmOk := true, ce := false }

/-- The header that a connection gives its frames (R315, R324). -/
def connFrame (s : State) (c : Conn) : Frame :=
  { emptyFrame s with enc := c.enc, dstPeer := BitVec.ofNat 16 c.peer, conn := BitVec.ofNat 20 c.remote }

/-- LINK_ACK, with the NAK bit or without (R317, R318). -/
def sendLinkAck (s : State) (p : Nat) (nak : Bool) : State :=
  if portState s p = 2 then
    putFrame s p { emptyFrame s with cls := 1, opcode := 0x32, reason := if nak then 0x80 else 0
                                     dstPeer := BitVec.ofNat 16 (getF s (rFabPort p) fFabPortNeighbour) }
  else s

/-! ### Contexts (R325) -/

/-- A context put in the cache; the least recently used one without a packet in flight and without PIN makes room. None where
every one is held. -/
def cacheCtx (s : State) (c : Nat) : Option State :=
  let l := s.fab.cached.filter (fun x => decide (x ≠ c))
  if l.length < 8192 then some { s with fab := { s.fab with cached := c :: l } }
  else
    match l.reverse.find? (fun x => !(conn s x).pin && (conn s x).inflight.isEmpty) with
    | some v => some { s with fab := { s.fab with cached := c :: l.filter (fun x => decide (x ≠ v)) } }
    | none => none

/-- A context used: the most recently used; whether it is cached. A miss is counted once and starts the fetch. -/
def useCtx (s : State) (c : Nat) : State × Bool :=
  if s.fab.cached.elem c then
    ({ s with fab := { s.fab with cached := c :: s.fab.cached.filter (fun x => decide (x ≠ c)) } }, true)
  else if (conn s c).fetching then (s, false)
  else (setConn (bump s rCtxMiss fCtxMiss 1) c { conn s c with fetching := true }, false)

/-! ### Sending packets (R320, R323, R336) -/

/-- DATA and CTRL packets are numbered. -/
def numbered (f : Frame) : Bool := decide (f.cls = 0) || decide (f.cls = 1)

/-- The congestion window of a plane (R323). -/
def cwndOf (c : Conn) (p : Nat) : Nat := mapGet c.cwnd p 64

/-- The oldest packet without acknowledgement lies within the window (R320). -/
def windowOpen (c : Conn) : Bool :=
  match c.inflight with
  | [] => true
  | x :: _ => decide ((c.sendPsn + 2 ^ 24 - x.frame.psn.toNat) % 2 ^ 24 < 2 ^ c.winLog2)

/-- The planes on which a frame of a connection may leave now. A numbered packet goes to one of them in turn by its number
(DESIGN CHOICE, log 22); a HALYARD frame to the two lowest (R336); every other frame to the lowest. -/
def planesFor (s : State) (c : Conn) (f : Frame) : List Nat :=
  let ps := (peerPlanes s c.peer).filter (fun p => bitOf c.planes p && portRoom s p f)
  if numbered f then
    let qs := ps.filter (fun p => decide ((c.inflight.filter (fun x => decide (x.frame.plane.val = p))).length < cwndOf c p))
    if windowOpen c then (match qs[c.sendPsn % qs.length]? with | some p => [p] | none => []) else []
  else ps.take (if f.cls = 2 then 2 else 1)

/-- A packet leaves on its planes: numbered packets take the next number and stay in flight (R320, R382). -/
def transmit (s : State) (id : Nat) (x : Pkt) (ps : List Nat) : State :=
  let c := conn s id
  if numbered x.frame then
    let f := { x.frame with psn := BitVec.ofNat 24 c.sendPsn, plane := Fin.ofNat 16 (ps.headD 0) }
    let body := sealBody s c c.sendPsn f
    let s := setConn s id { c with sendPsn := c.sendPsn + 1, inflight := c.inflight ++ [{ x with frame := f, sent := s.time, body := body }] }
    let s := if c.sendPsn + 1 = 2 ^ 43 then setF s (rSecPart c.part) fSecPartKeyRoll 1 else s
    putSealed s (ps.headD 0) f body
  else ps.foldl (fun s p => putSealed s p x.frame (sealBody s c 0 x.frame)) s

/-- A packet in flight sent again on an UP plane, another one where there is one (R322, R330). Where no plane takes it now, it goes
once one does. -/
def retransmit (s : State) (id psn : Nat) : State :=
  let c := conn s id
  match c.inflight.find? (fun x => decide (x.frame.psn.toNat = psn)) with
  | none => s
  | some x =>
    let ps := (peerPlanes s c.peer).filter (fun p => bitOf c.planes p && portRoom s p x.frame)
    let put (y' : Pkt) : Conn := { c with inflight := c.inflight.map (fun y => if y.frame.psn = x.frame.psn then y' else y) }
    match ps.find? (fun p => decide (p ≠ x.frame.plane.val)), ps with
    | some p, _ | none, p :: _ =>
      let f := { x.frame with retx := true, plane := Fin.ofNat 16 p }
      let s := setConn s id (put { x with frame := f, sent := s.time, again := false })
      putSealed (bump s rRetx fRetx 1) p f x.body
    | none, [] => setConn s id (put { x with again := true })

/-- The packets of a connection that were handed back and wait go again as far as a plane takes them. -/
def sendAgain (s : State) (id : Nat) : State :=
  ((conn s id).inflight.filter (fun x => x.again)).foldl (fun s x => retransmit s id x.frame.psn.toNat) s

/-- The queue of a port that a frame goes through (R314): HALYARD, then CTRL, ACK and NACK, then DATA. -/
def queueOf (f : Frame) : Nat := if f.cls = 2 then 0 else if f.cls = 0 then 2 else 1

/-- The waiting packets of a connection for one queue leave, in order, as far as the window, the planes and the ports let them; at
most one of them under `one`. -/
def pumpQ (s : State) (id q : Nat) (one : Bool) : List Pkt → Bool → List Pkt → State
  | [], _, rest => setConn s id { conn s id with outQ := rest.reverse }
  | x :: l, blocked, rest =>
    if queueOf x.frame ≠ q || (numbered x.frame && blocked) then pumpQ s id q one l blocked (x :: rest)
    else
      match planesFor s (conn s id) x.frame with
      | [] => pumpQ s id q one l (blocked || numbered x.frame) (x :: rest)
      | ps =>
        if one then
          let s := transmit s id x ps
          setConn s id { conn s id with outQ := rest.reverse ++ l }
        else pumpQ (transmit s id x ps) id q one l blocked rest

/-- The waiting packets of a connection for one queue, once its context is cached (R325). -/
def pumpQueue (s : State) (q : Nat) (one : Bool) (id : Nat) : State :=
  if (conn s id).outQ.any (fun x => decide (queueOf x.frame = q)) then
    match useCtx s id with
    | (s, true) => pumpQ s id q one (conn s id).outQ false []
    | (s, false) => s
  else s

/-- The waiting packets of a connection; what was handed back goes first. -/
def pump (s : State) (id : Nat) : State := pumpQueue (pumpQueue (pumpQueue (sendAgain s id) 0 false id) 1 false id) 2 false id

/-- Packets that wait to leave. -/
def waitingPkts (s : State) : Nat := (s.fab.conns.map (fun x => x.2.outQ.length)).sum

/-- One turn of the DATA queue: a packet of each connection that has one and may send it. -/
def dataTurn (s : State) (ids : List Nat) : State :=
  ids.foldl (fun s id =>
    let t := pumpQueue s 2 true id
    if (conn t id).outQ.length < (conn s id).outQ.length then { t with fab := { t.fab with served := id } } else t) s

/-- DATA in round robin, turn after turn (R314). -/
def dataTurns : Nat → State → List Nat → State
  | 0, s, _ => s
  | k + 1, s, ids =>
    let t := dataTurn s ids
    if waitingPkts t < waitingPkts s then dataTurns k t ids else t

/-- Every waiting packet that may leave does, in the order of the ports' queues (R314). The round robin of DATA starts behind the
connection served last; it runs over the connections and not port by port (DESIGN CHOICE, log 22). -/
def pumpAll (s : State) : State :=
  let ids := s.fab.conns.map (fun x => x.1)
  let s := ids.foldl sendAgain s
  let s := ids.foldl (fun s id => pumpQueue s 0 false id) s
  let s := ids.foldl (fun s id => pumpQueue s 1 false id) s
  let late := s.fab.served
  dataTurns (waitingPkts s) s (ids.filter (fun i => decide (late < i)) ++ ids.filter (fun i => decide (i ≤ late)))

/-- A frame given to a connection, for an operation of the hub. -/
def sendFrame (s : State) (id : Nat) (f : Frame) (owner : Nat) : State :=
  let c := conn s id
  pump (setConn s id { c with outQ := c.outQ ++ [{ frame := f, sent := 0, owner := owner }] }) id

/-- Frames of one message: FIRST and LAST set. -/
def sendMsg (s : State) (id : Nat) (fs : List Frame) (owner : Nat) : State :=
  (fs.mapIdx (fun i f => { f with first := decide (i = 0), last := decide (i + 1 = fs.length) })).foldl (fun s f => sendFrame s id f owner) s

/-- The packets of an operation that have not been acknowledged or have not left. -/
def owes (s : State) (owner : Nat) : Bool :=
  s.fab.conns.any (fun x => x.2.inflight.any (fun p => decide (p.owner = owner)) || x.2.outQ.any (fun p => decide (p.owner = owner)))

/-- The packets of an operation that have not left are dropped. -/
def dropQueued (s : State) (owner : Nat) : State :=
  { s with fab := { s.fab with conns := s.fab.conns.map (fun x => (x.1, { x.2 with outQ := x.2.outQ.filter (fun p => decide (p.owner ≠ owner)) })) } }

/-! ### Acknowledgements (R321) -/

/-- The 32-byte SACK bitmap: bit i is the (i + 1)-th PSN above the cumulative one. -/
def sackBytes (got : List Nat) (recv : Nat) : Bytes :=
  (List.range 32).map (fun b => BitVec.ofNat 8 ((List.range 8).foldl (fun t i => if got.elem ((recv + 8 * b + i) % 2 ^ 24) then t + 2 ^ i else t) 0))

/-- The PSNs of a connection that have arrived above the ones applied in order (R320): applied, waiting behind a FENCE, or waiting
for a handler or for memory. -/
def arrivedPsns (s : State) (id : Nat) : List Nat :=
  let c := conn s id
  c.arrived ++ c.fenced.map (fun f => f.psn.toNat) ++ (s.fab.asked.filter (fun x => decide (x.2.1 = id))).map (fun x => x.2.2.psn.toNat) ++
    (s.fab.held.filter (fun x => decide (x.1 = id))).map (fun x => x.2.psn.toNat)

/-- An ACK for a connection's arrivals: the highest PSN applied in order and the bitmap (DEDUCED, log 23). -/
def sendAck (s : State) (id : Nat) : State :=
  let c := conn s id
  let f := { connFrame s c with cls := 3, enc := false, psn := BitVec.ofNat 24 (c.recvPsn + 2 ^ 24 - 1), ece := c.ece, payload := sackBytes (arrivedPsns s id) c.recvPsn }
  sendFrame (setConn s id { c with ackDue := 0, ece := false }) id f 0

/-- An arrival to acknowledge; the sixteenth is acknowledged at once (R321). -/
def noteArrival (s : State) (id : Nat) (ce : Bool) : State :=
  let c := conn s id
  let s := setConn s id { c with ackDue := c.ackDue + 1, ackSince := if c.ackDue = 0 then s.time else c.ackSince, ece := c.ece || ce }
  if 16 ≤ c.ackDue + 1 then sendAck s id else s

/-- A NACK for a packet: its number, opcode, group and address come back with the reason (DESIGN CHOICE, log 24). -/
def sendNack (s : State) (id : Nat) (f : Frame) (reason : Nat) : State :=
  let c := conn s id
  sendFrame (bump s rNackTx fNackTx 1) id
    { connFrame s c with cls := 4, enc := false, psn := f.psn, group := f.group, opid := f.opid, opcode := f.opcode, addr := f.addr, reason := BitVec.ofNat 8 reason } 0

/-- A NACK to a packet that names no open connection: it leaves on the plane that brought the packet and names the packet's
own CONN (DESIGN CHOICE, log 24). -/
def nackNoConn (s : State) (f : Frame) : State :=
  let g := { emptyFrame s with cls := 4, dstPeer := f.srcPeer, conn := f.conn, psn := f.psn, group := f.group, opid := f.opid, opcode := f.opcode, addr := f.addr, reason := 0x21 }
  let s := bump s rNackTx fNackTx 1
  if portRoom s f.plane g then putFrame s f.plane g else s

/-- PSN a lies after PSN b. -/
def psnAfter (a b : Nat) : Bool :=
  let d := (a + 2 ^ 24 - b) % 2 ^ 24
  decide (0 < d) && decide (d < 2 ^ 23)

/-- An ACK acknowledges a PSN: up to the cumulative one, or by its bit. -/
def ackCovers (f : Frame) (psn : Nat) : Bool :=
  !psnAfter psn f.psn.toNat ||
    (let d := (psn + 2 ^ 24 - f.psn.toNat) % 2 ^ 24
     decide (d ≤ 256) && bitOf (u8At f.payload ((d - 1) / 8)) ((d - 1) % 8))

/-- The congestion window of a plane halved, at most once a round trip (R323). -/
def shrink (now rtt p : Nat) (c : Conn) : Conn :=
  match mapFind c.halved p with
  | some t => if now < t + rtt then c else { c with cwnd := mapSet c.cwnd p (max 1 (cwndOf c p / 2)), halved := mapSet c.halved p now }
  | none => { c with cwnd := mapSet c.cwnd p (max 1 (cwndOf c p / 2)), halved := mapSet c.halved p now }

/-- The congestion window of a plane raised by one packet, once a round trip (R323). -/
def grow (now rtt p : Nat) (c : Conn) : Conn :=
  if now < mapGet c.rose p 0 + rtt then c else { c with cwnd := mapSet c.cwnd p (cwndOf c p + 1), rose := mapSet c.rose p now }

/-- RTO of a plane in µs (R322). -/
def rtoOf (s : State) (c : Conn) (p : Nat) : Nat := mapGet c.rto p (objNat s oRtoInit)

/-- A packet acknowledged: its plane's RTO and expiries start again, its window moves (R322, R323); its round trip enters the
epoch's latencies. -/
def settlePkt (s : State) (id : Nat) (ece : Bool) (x : Pkt) : State :=
  let p := x.frame.plane.val
  let rtt := s.time - x.sent
  let c := conn s id
  let c := { c with rto := mapDel c.rto p, expiries := mapDel c.expiries p }
  evrLatency (setConn s id (if ece then shrink s.time rtt p c else grow s.time rtt p c)) (11 + p) rtt

/-- CLOSE ends once nothing is outstanding (R324). -/
def finishClose (s : State) (id : Nat) : State :=
  let c := conn s id
  if c.closing && c.inflight.isEmpty && c.outQ.isEmpty then
    let s := { setConn s id {} with fab := { (setConn s id {}).fab with cached := s.fab.cached.filter (fun x => decide (x ≠ id)) } }
    advance (setB s rConnStatus fConnStatusBusy (s.fab.conns.any (fun x => x.2.closing))) rConnStatus fConnStatusDone 1
  else s

/-- An ACK at the transport (R321 to R323): the packets it covers leave the window; in switched mode packets it shows missing
behind a later one of their plane are sent again. -/
def transportAck (s : State) (id : Nat) (f : Frame) : State :=
  let c := conn s id
  let hit := c.inflight.filter (fun x => ackCovers f x.frame.psn.toNat)
  let rest := c.inflight.filter (fun x => !ackCovers f x.frame.psn.toNat)
  let s := hit.foldl (fun s x => settlePkt s id f.ece x) (setConn s id { c with inflight := rest })
  let lost := if direct s then [] else
    rest.filter (fun x => hit.any (fun y => decide (y.frame.plane = x.frame.plane) && psnAfter y.frame.psn.toNat x.frame.psn.toNat && decide (x.sent ≤ y.sent)))
  let s := lost.foldl (fun s x =>
    let c := conn s id
    retransmit (setConn s id (shrink s.time (s.time - x.sent) x.frame.plane.val c)) id x.frame.psn.toNat) s
  finishClose (pump s id) id

/-! ### Planes that fail (R330) -/

/-- The traffic of a failed plane goes to the peer's other planes; in direct mode the frames that the port holds are handed back
(R318, R322). -/
def resendPlane (s : State) (q p : Nat) : State :=
  if direct s then s
  else (s.fab.conns.filter (fun x => decide (x.2.peer = q))).foldl (fun s x =>
    (x.2.inflight.filter (fun y => decide (y.frame.plane.val = p))).foldl (fun s y => retransmit s x.1 y.frame.psn.toNat) s) s

/-- A plane fails for a peer. -/
def failPlane (s : State) (q p : Nat) : State :=
  let x := peerOf s q
  if x.failed.elem p then s else resendPlane (noteDown (setPeer s q { x with failed := x.failed ++ [p] }) q) q p

/-- RTO_EXPIRY (R322, R330): the oldest packet of the plane goes again and RTO doubles, up to 64 times RTO_INIT; the eighth
expiry in a row fails the plane for the peer. -/
def execRtoExpiry (c : BitVec 16) (plane : Fin 16) (s : State) : Host.Outcome State Fault Refusal :=
  .next (
    let id := c.toNat
    let p := plane.val
    let x := conn s id
    match x.inflight.find? (fun y => decide (y.frame.plane = plane)) with
    | none => s
    | some y =>
      if direct s ∨ s.time < y.sent + rtoOf s x p * 1000 then s
      else
        let n := mapGet x.expiries p 0 + 1
        let x := { x with rto := mapSet x.rto p (min (2 * rtoOf s x p) (64 * objNat s oRtoInit)), expiries := mapSet x.expiries p n }
        let s := setConn s id (shrink s.time (s.time - y.sent) p x)
        if n = 8 then failPlane s x.peer p else retransmit s id y.frame.psn.toNat)

/-! ### The link layer of direct mode (R317 to R319) -/

/-- The frames that the link partner has received leave the replay buffer. -/
def freeReplay (s : State) (p : Nat) (f : Frame) : State :=
  let x := port s p
  let keep := x.replay.filter (fun g => decide (2048 ≤ (f.ackLseq.toNat + 4096 - g.lseq.toNat) % 4096))
  setPort s p { x with replay := keep, wires := x.wires.drop (x.replay.length - keep.length), replays := if keep.length < x.replay.length then 0 else x.replays, credits := min 4096 (x.credits + f.credits.toNat) }

/-- A frame handed back to the transport: numbered packets are sent again on another plane, other frames of a connection are
queued again (R318). -/
def handBack (s : State) (f : Frame) : State :=
  match s.fab.conns.find? (fun x => x.2.open_ && decide (x.2.peer = f.dstPeer.toNat) && decide (x.2.remote = f.conn.toNat)) with
  | none => s
  | some x => if numbered f then retransmit s x.1 f.psn.toNat else if f.opcode = 0x31 then s else sendFrame s x.1 f 0

/-- A port whose link starts anew. -/
def freshPort (s : State) (p : Nat) : State := setPort s p {}

/-- The port leaves UP: its held frames go back to the transport (R318). DOWN or FAILED, the plane has failed for every peer that
the port led to (R330); a port that retrains comes back with its plane. -/
def dropLink (s : State) (p st : Nat) : State :=
  let held := (port s p).replay
  let led := (s.fab.peers.map (fun x => x.1)).filter (fun q => leadsTo s q p)
  let s := setF (setB (freshPort s p) (rFabPort p) fFabPortNeighbourValid false) (rFabPort p) fFabPortState st
  let s := if st = 1 then s else led.foldl (fun s q => failPlane s q p) s
  held.foldl handBack s

/-- HELLO at link-up (R317). -/
def sendHello (s : State) (p : Nat) : State := putFrame s p { emptyFrame s with cls := 1, opcode := 0x30 }

/-- A NAK: every held frame after the acknowledged ones is sent again; after eight replays of one frame the port retrains
(R318). -/
def replayPort (s : State) (p : Nat) : State :=
  let x := port s p
  if x.replay.isEmpty then s
  else if 8 ≤ x.replays then dropLink s p 1
  else
    let s := setPort s p { x with replays := x.replays + 1 }
    let s := bump (bump s (rPortLinkReplays p) fPortLinkReplaysLinkReplays x.replay.length) (rPortTxFrames p) fPortTxFramesTxFrames x.replay.length
    { s with fab := { s.fab with out := s.fab.out ++ x.replay, wire := s.fab.wire ++ x.wires } }

/-- A frame lost to an FCS error or behind a gap: one NAK, then frames are discarded until the expected one (R318). -/
def nakLink (s : State) (p : Nat) : State :=
  let x := port s p
  if x.nakSent then s else sendLinkAck (setPort s p { x with nakSent := true }) p true

/-- The link layer's part of an arriving frame: whether it goes on. A frame that is discarded acknowledges nothing and returns no
credits: its replay does (R318, R319). -/
def linkReceive (s : State) (f : Frame) : State × Bool :=
  let p := f.plane.val
  let s := bump s (rPortRxFrames p) fPortRxFramesRxFrames 1
  if ¬direct s then (s, true)
  else
    let x := port s p
    if f.lseq.toNat = x.expect then
      let s := freeReplay s p f
      let x := port s p
      let x := { x with expect := (x.expect + 1) % 4096, owed := x.owed + frameCost f, nakSent := false, unacked := x.unacked + 1
                        unackedSince := if x.unacked = 0 then s.time else x.unackedSince }
      let s := setPort s p x
      (if 32 ≤ x.unacked then sendLinkAck s p false else s, true)
    else if (f.lseq.toNat + 4096 - x.expect) % 4096 < 2048 then (nakLink s p, false)
    else (s, false)

/-- LINK_ACK (R317, R318): acknowledged frames leave the replay buffer; with the NAK bit the others are replayed. -/
def execLinkAck (p : Fin 16) (f : Frame) (s : State) : Host.Outcome State Fault Refusal :=
  .next (
    if ¬direct s ∨ portState s p ≠ 2 then s
    else
      let s := freeReplay (bump s (rPortRxFrames p) fPortRxFramesRxFrames 1) p f
      pumpAll (if f.reason.getLsbD 7 then replayPort s p else s))

/-- FCS_ERROR (R318): the frame is discarded; in direct mode a NAK is sent. -/
def execFcsError (p : Fin 16) (badFcs : Bool) (s : State) : Host.Outcome State Fault Refusal :=
  .next (
    let s := if badFcs then bump s (rPortFcsErr p) fPortFcsErrFcsErr 1 else s
    if direct s then nakLink s p else s)

/-- LINK_ACK_TIMER (R317). -/
def execLinkAckTimer (p : Fin 16) (s : State) : Host.Outcome State Fault Refusal :=
  .next (if direct s ∧ (0 < (port s p).unacked ∨ 0 < (port s p).owed) then sendLinkAck s p false else s)

/-- PORT_STATE_CHANGE (R312, R317, R330): a port that leaves UP gives its held frames back; one that comes UP, at a rate of R312
that LANE_RATE allows, says HELLO in direct mode. A port does not come UP at another rate. -/
def execPortStateChange (p : Fin 16) (st : PortState) (rate : BitVec 2) (s : State) : Host.Outcome State Fault Refusal :=
  .next (
    let n := match st with | .down => 0 | .training => 1 | .up => 2 | .failed => 3
    let was := portState s p
    let only := objNat s oLaneRate
    if n = 2 ∧ (rate = 0 ∨ rate = 3 ∨ (only ≠ 0 ∧ rate.toNat ≠ only)) then s
    else
    let s := setF s (rFabPort p) fFabPortRate (if n = 2 then rate.toNat else 0)
    if n = 2 then
      if was = 2 then s
      else
        let s := setF (freshPort s p) (rFabPort p) fFabPortState 2
        pumpAll (noteAllDown (if direct s then sendHello s p else s))
    else if was = 2 then noteAllDown (dropLink s p n)
    else noteAllDown (setF s (rFabPort p) fFabPortState n))

/-! ### HELLO and PROBE (R317, R330) -/

/-- A frame of a peer shows it is there. -/
def sawPeer (s : State) (q : Nat) : State :=
  let x := peerOf s q
  if x.state = 0 then noteDown (setPeer s q { x with state := 1 }) q else s

/-- HELLO (R317): the port's far end is known, and the ports that lead to one peer are its planes. -/
def execHello (f : Frame) (s : State) : Host.Outcome State Fault Refusal :=
  .next (
    let p := f.plane.val
    if f.opcode ≠ 0x30 ∨ portState s p ≠ 2 ∨ ¬direct s then s
    else
      match linkReceive s f with
      | (s, false) => s
      | (s, true) =>
        let q := f.srcPeer.toNat
        let s := setF (setB s (rFabPort p) fFabPortNeighbourValid true) (rFabPort p) fFabPortNeighbour q
        pumpAll (noteDown (sawPeer s q) q))

/-- PROBE (R330): a request is answered on its plane with the ACK class; an answer brings the plane back UP and the peer back
to REACHABLE (DESIGN CHOICE of the answer's form, log 24). -/
def execProbe (f : Frame) (s : State) : Host.Outcome State Fault Refusal :=
  .next (
    let p := f.plane.val
    let q := f.srcPeer.toNat
    if f.opcode ≠ 0x31 ∨ portState s p ≠ 2 then s
    else
      match linkReceive s f with
      | (s, false) => s
      | (s, true) =>
        if f.cls = 3 then
          let x := peerOf s q
          pumpAll (noteDown (setPeer s q { x with state := 1, failed := x.failed.filter (fun y => decide (y ≠ p)) }) q)
        else
          let g := { emptyFrame s with cls := 3, opcode := 0x31, dstPeer := f.srcPeer }
          if portRoom s p g then putFrame s p g else s)

/-- PROBE_TIMER (R330): a PROBE on a failed plane, every 1 ms. -/
def execProbeTimer (peer : BitVec 16) (plane : Fin 16) (s : State) : Host.Outcome State Fault Refusal :=
  .next (
    let q := peer.toNat
    let x := peerOf s q
    let g := { emptyFrame s with cls := 1, opcode := 0x31, dstPeer := peer }
    if x.failed.elem plane.val ∧ portRoom s plane g ∧ mapGet x.probeAt plane.val 0 + 1000000 ≤ s.time then
      putFrame (setPeer s q { x with probeAt := mapSet x.probeAt plane.val s.time }) plane g
    else s)

/-! ### HALY_MISS (R299) -/

/-- The peer ids of HALY_MISS: the missing children in ascending rank; empty fields hold the module's own (R299). -/
def setMiss (s : State) (p : Nat) (l : List Nat) : State :=
  (List.range 4).foldl (fun s i => setR s (rHalyMiss p i) (BitVec.ofNat 64 (leNat ((List.range 4).flatMap (fun k => natLE 2 (l.getD (4 * i + k) (peerId s))))))) s

/-! ### Connections (R324, R325) -/

/-- A connection table entry's software part (R324). -/
def connOf (b : Bytes) : Conn :=
  { open_ := bitOf (u8At b 2) 0, peer := u16At b 0, enc := bitOf (u8At b 2) 1, pin := bitOf (u8At b 2) 2, part := u8At b 3 % 16
    remote := u32At b 4 % 2 ^ 20, astag := u16At b 8, keySlot := u8At b 10 % 16, planes := u16At b 12, winLog2 := u8At b 14 }

/-- The window of an entry: WINDOW_LOG2, or where that is not 6 to 20 a free one of that range (DESIGN CHOICE, log 25). -/
def windowOf (s : State) (b : Bytes) : State × Nat :=
  let w := u8At b 14
  if 6 ≤ w ∧ w ≤ 20 then (s, w)
  else
    let (f, s) := drawFree s
    (s, 6 + f.toNat % 15)

/-- The other connections with PIN = 1. -/
def otherPins (s : State) (id : Nat) : Nat := (s.fab.conns.filter (fun x => decide (x.1 ≠ id) && x.2.pin)).length

/-- CONN_INIT (R324, R325): the entry's software part opens the connection; a 1,025th pinned one is refused, and one whose
entry cannot be read (DESIGN CHOICE, log 25). Reserved fields are not looked at. -/
def connInit (s : State) (id : Nat) : State :=
  let a := getF s rConnTable fConnTableBase * 4096 + 128 * id
  let b := hubView s a 32
  let c := connOf b
  if spanRegion s a 128 ≠ some .bulk then setB s rConnStatus fConnStatusRefused true
  else if mpaPoisoned s a 32 ∨ (c.pin ∧ 1024 ≤ otherPins s id) then setB (hubTouch s a 32) rConnStatus fConnStatusRefused true
  else
    let (s, w) := windowOf (hubTouch s a 32) b
    let s := setConn s id (if c.open_ then { c with winLog2 := w } else {})
    let s := { s with fab := { s.fab with cached := s.fab.cached.filter (fun x => decide (x ≠ id)) } }
    let s := if c.open_ && c.pin then (cacheCtx s id).getD s else s
    advance (if c.open_ then noteDown s c.peer else s) rConnStatus fConnStatusDone 1

/-- CONN_INIT (R324, R325). -/
def execConnInit (ag : Agent) (c : BitVec 16) (s : State) : Host.Outcome State Fault Refusal :=
  .next (guarded s ag rConnCtl.key (fun s => connInit s c.toNat))

/-- CONN_CLOSE (R324): the connection closes after its outstanding packets. -/
def execConnClose (ag : Agent) (c : BitVec 16) (s : State) : Host.Outcome State Fault Refusal :=
  .next (guarded s ag rConnCtl.key (fun s =>
    finishClose (setB (setConn s c.toNat { conn s c.toNat with closing := true }) rConnStatus fConnStatusBusy true) c.toNat))

end Sys2Proof.Machine
end

