-- ==== Sys2Proof/Machine/Remote.lean ====
section
/-! DEFINITION. What a peer's requests do here: memory-form requests translated under the connection's ASTAG (R193, R328) and
unit-form payloads into bobbins (R329). -/

namespace Sys2Proof.Machine

open Sys2Proof

/-! ### Memory-form requests (R328) -/

/-- The connection leads to the module itself: its requests cross no fabric (R193). -/
def ownConn (s : State) (id : Nat) : Bool := decide ((conn s id).peer = peerId s)

/-- The translation request of a connection: R for reads and atomics, W for writes and atomics, and REMOTE for another module's
(R255, R328). -/
def connReq (s : State) (id : Nat) (write read : Bool) : XReq :=
  let c := conn s id
  { cache := none, ag := .peer (BitVec.ofNat 16 id), astag := c.astag, part := c.part, write := write, read := read, remote := !ownConn s id, unit := 8 }

/-- What a memory-form request asks. -/
inductive MemOp
  | write (data : Bytes) (bad : List (Nat × Nat))
  | read
  | atomic (op : AtomicOp) (size64 signed : Bool) (operand compare : Nat)

def MemOp.writes : MemOp → Bool
  | .read => false
  | _ => true
def MemOp.reads : MemOp → Bool
  | .write .. => false
  | _ => true

/-- The answer: data with its poisoned spans; a fault, its address, its cause and whether its entry takes the replay path; a
question to the handler of a CONSULT range; or a wait for memory (R206, R271). -/
inductive MemAns
  | done (data : Bytes) (bad : List (Nat × Nat))
  | nack (va cause : Nat) (replay : Bool)
  | ask (va : Nat) (e : RcEntry)
  | wait (ps : List Piece)

/-- A memory-form request of `n` bytes at an offset, under a translation request. -/
def serveMem (s : State) (q : XReq) (off n : Nat) (o : MemOp) : State × MemAns :=
  let bad := match o with
    | .atomic .. => decide (off % n ≠ 0)
    | _ => false
  if bad then (s, .nack off fRefused (replayOf s q off))
  else
    match xlate s q off n with
    | (s, .fault va cause r) => (s, .nack va cause r)
    | (s, .consult va e) => (s, .ask va e)
    | (s, .wait ps) => (s, .wait ps)
    | (s, .ok ps) =>
      match o with
      | .write data bad => (bad.foldl (fun s b => piecesDeliver s ps b.1 b.2) (piecesWrite s ps data), .done [] [])
      | .read => (piecesTouch s ps, .done (piecesRead s ps) (piecesPoison s ps))
      | .atomic op sz signed x cmp =>
        match ps with
        | p :: _ =>
          let r : MemReq := { agent := q.ag, kind := .atomic op sz signed, mpa := BitVec.ofNat 50 p.mpa, len := n, data := [], strobe := none
                              operand := BitVec.ofNat 64 x, compare := BitVec.ofNat 64 cmp, shared := p.shared, cached := false, astag := BitVec.ofNat 16 q.astag
                              hint := BitVec.ofNat 2 p.hint, direct := false, gen := 0, ecc := .ok }
          match serveAtomic (touchSpan s p.mpa n p.astag p.hint) r p.shared op sz signed with
          | (s, .old v b) => (s, .done (natLE n v.toNat) (if b then [(0, n)] else []))
          | (s, _) => (s, .nack off fRefused false)
        | [] => (s, .nack off fRefused false)

/-- What became of an arrived packet. -/
inductive Applied
  | done
  /-- Answered with a NACK. -/
  | refused
  /-- Answered with NACK BUSY: the packet comes again (R329). -/
  | busy
  /-- It awaits the handler of a CONSULT range. -/
  | asked
  /-- It waits for memory. -/
  | held
deriving DecidableEq

/-- The spans of a payload cut to `[o, o + n)`, from its first byte. -/
def cutBad (bad : List (Nat × Nat)) (o n : Nat) : List (Nat × Nat) :=
  bad.filterMap (fun b =>
    let lo := max o b.1
    let hi := min (o + n) (b.1 + b.2)
    if lo < hi then some (lo - o, hi - lo) else none)

/-- A number of a control payload, most significant byte first (R11). -/
def beAt (b : Bytes) (o n : Nat) : Nat := beNat ((b.drop o).take n)

/-- The largest payload of a frame (R313). -/
def maxPayload : Nat := 8192

/-- A byte string as frames of at most `k` bytes of payload, the address of each counted on in units of `w`. -/
def splitFrames (f : Frame) (k w : Nat) (data : Bytes) (bad : List (Nat × Nat)) : List Frame :=
  (List.range (max 1 (cdiv data.length k))).map (fun i =>
    { f with addr := f.addr + BitVec.ofNat 64 (i * k * w), payload := (data.drop (i * k)).take k, bad := cutBad bad (i * k) k })

/-- The frames of a response to a request: its group and operation number come back. -/
def respond (s : State) (id : Nat) (f : Frame) (opcode : Nat) (data : Bytes) (bad : List (Nat × Nat)) : State :=
  let g := { connFrame s (conn s id) with opcode := BitVec.ofNat 8 opcode, group := f.group, opid := f.opid, addr := f.addr }
  sendMsg s id (splitFrames g maxPayload 1 data bad) 0

/-- The operation an ATOMIC_REQ's payload names: byte 0 as COLLECTIVE's AOP byte, bytes 8 to 15 the operand, bytes 16 to 23
the compare value (DESIGN CHOICE, log 24). -/
def atomicOf (code : Nat) : Option AtomicOp :=
  match code % 8 with
  | 0 => some .add
  | 1 => some .fadd32
  | 2 => some .faddbf16
  | 3 => some .min
  | 4 => some .max
  | 5 => some .swap
  | 6 => some .cas
  | _ => none

/-- A memory-form frame: what it asks and of how many bytes (READ_REQ's payload is the length, log 24). -/
def memOpOf (f : Frame) : Option (MemOp × Nat) :=
  match f.opcode.toNat with
  | 0x01 => some (.write f.payload f.bad, f.payload.length)
  | 0x02 => some (.read, u64At f.payload 0)
  | 0x04 =>
    let b := u8At f.payload 0
    (atomicOf b).map (fun op => (.atomic op (bitOf b 3) (bitOf b 4) (u64At f.payload 8) (u64At f.payload 16), atomicBytes op (bitOf b 3)))
  | _ => none

/-- WRITE, READ_REQ and ATOMIC_REQ applied on arrival (R328); a fault is recorded in the partition's ring (R261). -/
def applyMem (s : State) (id : Nat) (f : Frame) : State × Applied :=
  match memOpOf f with
  | none => (sendNack s id f fRefused, .refused)
  | some (o, n) =>
    let off := f.addr.toNat % 2 ^ 48
    let q := connReq s id o.writes o.reads
    match serveMem s q off n o with
    | (s, .nack va cause _) =>
      (sendNack (putPeerFault s q.part { va := va, astag := q.astag, cause := cause, write := o.writes, unit := 8, since := s.time }) id f cause, .refused)
    | (s, .wait _) => ({ s with fab := { s.fab with held := s.fab.held ++ [(id, f)] } }, .held)
    | (s, .ask va e) =>
      let c := conn s id
      let r : XlateReq := { engine := none, e := 0, ctx := 0, spool := 0, slot := 0, part := Fin.ofNat 16 c.part, astag := BitVec.ofNat 16 c.astag
                            va := BitVec.ofNat 64 va, write := q.write, read := q.read, exec := false, remote := q.remote, unit := 8 }
      let (s, k) := addConsult s r e
      ({ s with fab := { s.fab with asked := s.fab.asked ++ [(k, id, f)] } }, .asked)
    | (s, .done data bad) =>
      match f.opcode.toNat with
      | 0x02 => (respond s id f 0x03 data bad, .done)
      | 0x04 => (respond s id f 0x05 data bad, .done)
      | _ => (s, .done)

/-! ### Unit-form payloads (R316, R329) -/

/-- A role epoch is current: the slot is VALID and holds it. -/
def epochCurrent (s : State) (e n epoch : Nat) : Bool := ctxValid s e n && decide (getF s (rCtxCfg e n) fCtxCfgEpoch = epoch)

/-- A message refused under R329. -/
def staleRx (s : State) (id : Nat) (f : Frame) : State := sendNack (bump s rStaleRx fStaleRx 1) id f 0x20

/-- What stands against a unit-form payload: a NACK reason, or 0. A bobbin that the slot may not fill, or bytes beyond it,
are refused as an address (DESIGN CHOICE, log 26). -/
def sendVerdict (s : State) (id : Nat) (f : Frame) : Nat :=
  let a := f.addr.toNat
  let e := natField a 4 0
  let n := natField a 8 5
  let b := natField a 32 25
  if ¬epochCurrent s e n (natField a 24 9) then 0x20
  else if ¬bobOwned s e n b ∨ bobStaging s e b ∨ ¬bobFits s e b (natField a 55 33) f.payload.length then fRefused
  else if bobState s e b ≠ bEmpty ∧ ¬(bobState s e b = bFilling ∧ (bobAux s e b).remote = some (id, f.opid.toNat)) then 0x23
  else 0

/-- The bytes of a unit-form payload written, its bobbin FILLING under the message. -/
def putUnit (s : State) (id : Nat) (f : Frame) : State :=
  let a := f.addr.toNat
  let e := natField a 4 0
  let b := natField a 32 25
  let off := natField a 55 33
  let s := if bobState s e b = bEmpty then setBobAux (setBob s e b bFilling 0 false 0) e b { remote := some (id, f.opid.toNat) } else s
  f.bad.foldl (fun s x => mpaPoison s (bobBase s e b + off + x.1) x.2) (bobWrite s e b off f.payload)

/-- SEND applied on arrival (R329). A message whose epoch passes leaves its bobbin EMPTY. -/
def applySend (s : State) (id : Nat) (f : Frame) : State × Applied :=
  match sendVerdict s id f with
  | 0 => (wakeFor (putUnit s id f) (natField f.addr.toNat 4 0), .done)
  | 0x20 =>
    let e := natField f.addr.toNat 4 0
    let b := natField f.addr.toNat 32 25
    let mine := decide (bobState s e b = bFilling) && decide ((bobAux s e b).remote = some (id, f.opid.toNat))
    (staleRx (if mine then bobToEmpty s e b else s) id f, .refused)
  | 0x23 => (sendNack s id f 0x23, .busy)
  | r => (sendNack s id f r, .refused)

/-- A whole SEND: the bobbin is READY with its own count of readers (R329). -/
def wholeSend (s : State) (id : Nat) (f : Frame) : State :=
  let e := natField f.addr.toNat 4 0
  let b := natField f.addr.toNat 32 25
  if (bobAux s e b).remote = some (id, f.opid.toNat) ∧ bobState s e b = bFilling then bobToReady s e b 0 else s

/-! ### Whole messages (R320) -/

/-- The frames of a message from its first up to the one numbered `psn`. -/
def partsBack (l : List Frame) : Nat → Nat → List Frame → Option (List Frame)
  | 0, _, _ => none
  | k + 1, psn, acc =>
    match l.find? (fun f => decide (f.psn.toNat = psn)) with
    | none => none
    | some f => if f.first then some (f :: acc) else partsBack l k ((psn + 2 ^ 24 - 1) % 2 ^ 24) (f :: acc)

/-- The frames of a message from the one numbered `psn` to its last. -/
def partsOn (l : List Frame) : Nat → Nat → List Frame → Option (List Frame)
  | 0, _, _ => none
  | k + 1, psn, acc =>
    match l.find? (fun f => decide (f.psn.toNat = psn)) with
    | none => none
    | some f => if f.last then some (acc ++ [f]) else partsOn l k ((psn + 1) % 2 ^ 24) (acc ++ [f])

/-- The whole message that a frame belongs to, once every frame of it is here. -/
def wholeMsg (l : List Frame) (f : Frame) : Option (List Frame) :=
  match partsBack l (l.length + 1) f.psn.toNat [] with
  | none => none
  | some front => if f.last then some front else partsOn l (l.length + 1) ((f.psn.toNat + 1) % 2 ^ 24) front

/-- The payload of a message and its poisoned spans. -/
def msgPayload (fs : List Frame) : Bytes := fs.flatMap (fun f => f.payload)
def msgBad (fs : List Frame) : List (Nat × Nat) :=
  (fs.foldl (fun (a : Nat × List (Nat × Nat)) f => (a.1 + f.payload.length, a.2 ++ f.bad.map (fun b => (a.1 + b.1, b.2)))) (0, [])).2

end Sys2Proof.Machine
end

