-- ==== Sys2Proof/Machine/Reduce.lean ====
section
/-! DEFINITION. The Reduction Engine: groups (R331), COLLECTIVE (R332 to R334), the fixed chains of the reductions (R293,
R333), and the GCHK table (R294, R295). -/

namespace Sys2Proof.Machine

open Sys2Proof

/-! ### Groups (R331) -/

/-- A group entry in use. -/
structure Grp where
  size    : Nat
  rank    : Nat
  halving : Bool
  members : List Nat

/-- The hub's own translation request for a partition, under its job's ASTAG (R290, R331). -/
def jobReq (s : State) (p unit : Nat) (write read : Bool) : XReq :=
  { cache := none, ag := .hubUnit (Fin.ofNat 16 p), astag := getF s (rJobCfg p) fJobCfgAstag, part := p, write := write, read := read, unit := unit }

/-- The answer to the reading of a group. -/
inductive GrpAns
  | bad
  | ok (g : Grp)
  /-- Its member list awaits a handler's answer or waits for memory (R252, R271). -/
  | stop (a : Act)

/-- A group of a partition; bad where its entry is not VALID, is another partition's, breaks its layout, or its member list
cannot be read (R331; DESIGN CHOICE for the last two, log 27). -/
def readGroup (s : State) (p gid : Nat) : State × GrpAns :=
  let a := getF s rGrpTable fGrpTableBase * 64 + 64 * gid
  let b := hubView s a 64
  let n := u16At b 0
  let r := u16At b 2
  let algo := u8At b 4 / 2 % 8
  if 4096 ≤ gid ∨ spanRegion s a 64 = none ∨ spanRegion s a 64 = some .mmio ∨ mpaPoisoned s a 64 then (s, .bad)
  else if ¬bitOf (u8At b 4) 0 ∨ u8At b 4 / 16 ≠ p ∨ 1 < algo ∨ ¬zeroSpan b 5 3 ∨ ¬zeroSpan b 16 48 ∨ n = 0 ∨ 16384 < n ∨ n ≤ r then (hubTouch s a 64, .bad)
  else
    let q := jobReq s p 7 false true
    match xlate (hubTouch s a 64) q (u64At b 8) (2 * n) with
    | (s, .ok ps) =>
      if piecesPoisoned s ps then (s, .bad)
      else
        let l := piecesRead s ps
        (piecesTouch s ps, .ok { size := n, rank := r, halving := decide (algo = 1), members := (List.range n).map (fun i => u16At l (2 * i)) })
    | (s, .consult va e) => (s, .stop (.asks q va e))
    | (s, .wait ps) => (s, .stop (.held (ps.map (fun p => (p.mpa, p.n)))))
    | (s, _) => (s, .bad)

/-- The handler of a CONSULT range asked for an access of the hub's own, once for each (R252). -/
def askHub (s : State) (q : XReq) (va : Nat) (e : RcEntry) (w : HubAsk) : State :=
  if s.fab.asks.any (fun x => decide (x.2 = w)) then s
  else
    let r : XlateReq := { engine := none, e := 0, ctx := 0, spool := 0, slot := 0, part := Fin.ofNat 16 q.part, astag := BitVec.ofNat 16 q.astag
                          va := BitVec.ofNat 64 va, write := q.write, read := q.read, exec := false, remote := q.remote, unit := 8 }
    let (s, k) := addConsult s r e
    { s with fab := { s.fab with asks := s.fab.asks ++ [(k, w)] } }

/-- The open connection of a partition to a peer; of several the lowest. -/
def connTo (s : State) (p q : Nat) : Option Nat :=
  ((s.fab.conns.filter (fun x => x.2.open_ && decide (x.2.part = p) && decide (x.2.peer = q))).map (fun x => x.1)).foldl
    (fun m c => match m with | none => some c | some d => some (min c d)) none

/-! ### Operands as FP32 (R293) -/

/-- A slice of a source. -/
def Src.cut (x : Src) (o n : Nat) : Src := { bytes := (x.bytes.drop o).take n, bad := cutBad x.bad o n }

/-- Poisoned spans widened to whole elements of 4 bytes. -/
def wholeElems (bad : List (Nat × Nat)) : List (Nat × Nat) := bad.map (fun b => (b.1 / 4 * 4, cdiv (b.1 + b.2) 4 * 4 - b.1 / 4 * 4))

def Src.f32 (x : Src) (i : Nat) : BitVec 32 := BitVec.ofNat 32 (u32At x.bytes (4 * i))

/-- The larger of two values; a NaN stays. -/
def redMax (a b : BitVec 32) : BitVec 32 :=
  match f32Dec a, f32Dec b with
  | .nan, _ | _, .nan => f32Nan
  | x, y => if numLt x y then b else a

/-- Two partial results combined element by element, the first one's operand on the left. -/
def Src.combine (mx : Bool) (a b : Src) : Src :=
  { bytes := (List.range (a.bytes.length / 4)).flatMap (fun i => natLE 4 (if mx then redMax (a.f32 i) (b.f32 i) else f32Add (a.f32 i) (b.f32 i)).toNat)
    bad := a.bad ++ b.bad }

/-- Elements of a BS16 frame: whole blocks of 32, codes then scales (DESIGN CHOICE, log 24). -/
def bsElems : Nat := 4032

/-- FP32 elements as BS16 codes and scales (R46, R293). -/
def bsEncode (x : Src) : Bytes :=
  let k := x.bytes.length / 4
  let bs := (List.range (cdiv k 32)).map (fun b => bs16Encode ((List.range (min 32 (k - 32 * b))).map (fun i => x.f32 (32 * b + i))))
  bs.flatMap (fun b => b.2.flatMap (fun c => natLE 2 c)) ++ bs.flatMap (fun b => natLE 1 b.1)

/-- The FP32 elements of a BS16 payload. -/
def bsDecode (data : Bytes) (bad : List (Nat × Nat)) : Src :=
  let k := data.length * 32 / 65
  { bytes := (List.range k).flatMap (fun i => natLE 4 (bs16Decode (u8At data (2 * k + i / 32)) (u16At data (2 * i))).toNat)
    bad := (cutBad bad 0 (2 * k)).map (fun b => (b.1 / 2 * 4, (cdiv (b.1 + b.2) 2 - b.1 / 2) * 4)) }

/-- The values that the wire carries. -/
def wireRound (bs16 : Bool) (x : Src) : Src :=
  if bs16 then { bytes := (List.range (cdiv (x.bytes.length / 4) 32)).flatMap (fun b => (bsDecode (bsEncode (x.cut (128 * b) 128)) []).bytes), bad := x.bad } else x

/-! ### The chains (R332, R333, R335) -/

def FabOp.size (o : FabOp) : Nat := o.members.length
def FabOp.src (o : FabOp) : Src := { bytes := o.data, bad := wholeElems o.bad }
/-- The operation runs on the 16-ary tree (R333). -/
def FabOp.tree (o : FabOp) : Bool := decide (o.op = 3) || decide (o.op = 4) || (decide (o.op = 0) && decide (o.len ≤ 262144))
/-- Bytes of a shard. -/
def FabOp.shard (o : FabOp) : Nat := o.len / o.size
/-- The wire encoding: reductions only (R331). -/
def FabOp.wire (o : FabOp) : Bool := o.bs16 && decide (o.op ≤ 1)
def FabOp.logSize (o : FabOp) : Nat := o.size.log2

/-- Place in the tree and the rank at a place: BROADCAST's tree is rooted at ROOT (DEDUCED, log 28). -/
def FabOp.place (o : FabOp) (r : Nat) : Nat := (r + o.size - o.root) % o.size
def FabOp.rankAt (o : FabOp) (v : Nat) : Nat := (v + o.root) % o.size

/-- Children and parent in the 16-ary tree (R335). -/
def treeKids (n v : Nat) : List Nat := ((List.range 16).map (fun i => 16 * v + 1 + i)).filter (fun c => decide (c < n))
def FabOp.kids (o : FabOp) : List Nat := (treeKids o.size (o.place o.rank)).map o.rankAt
def FabOp.parent (o : FabOp) : Option Nat := if o.place o.rank = 0 then none else some (o.rankAt ((o.place o.rank - 1) / 16))

/-- A piece put in its place by ADDR. -/
def insertPiece (l : List CollPiece) (x : CollPiece) : List CollPiece :=
  l.takeWhile (fun y => decide (y.addr ≤ x.addr)) ++ x :: l.dropWhile (fun y => decide (y.addr ≤ x.addr))

/-- What a rank has sent of the bytes `[off, off + n)` of a phase, once it is all here. -/
def FabOp.recv (o : FabOp) (q phase off n : Nat) : Option Src :=
  let lo := phase * o.len + off
  let ps := (o.got.filter (fun x => decide (x.rank = q) && decide (lo ≤ x.addr) && decide (x.addr < lo + Nat.max 1 n))).foldl insertPiece []
  if ps.isEmpty ∨ (ps.map (fun x => x.data.length)).sum < n then none
  else some { bytes := ps.flatMap (fun x => x.data), bad := ps.flatMap (fun x => x.bad.map (fun b => (x.addr - lo + b.1, b.2))) }

/-- This member's own bytes of a shard. -/
def FabOp.own (o : FabOp) (c : Nat) : Src := o.src.cut (c * o.shard) o.shard

/-- The rank after, the rank before, on the ring. -/
def FabOp.after (o : FabOp) : Nat := (o.rank + 1) % o.size
def FabOp.before (o : FabOp) : Nat := (o.rank + o.size - 1) % o.size

/-- RING: the partial of shard c that leaves this rank: the chain starts at rank c + 1, and each hop adds its own
contribution to the incoming partial. -/
def FabOp.ringPart (o : FabOp) (c : Nat) : Option Src :=
  if o.size = 1 ∨ o.rank = (c + 1) % o.size then some (o.own c)
  else (o.recv o.before 0 (c * o.shard) o.shard).map (fun x => x.combine o.max (o.own c))

/-- HALVING: the partial of shard c before step j; the lower rank's stands on the left. -/
def FabOp.halfPart (o : FabOp) (c : Nat) : Nat → Option Src
  | 0 => some (o.own c)
  | j + 1 =>
    match o.halfPart c j, o.recv (Nat.xor o.rank (2 ^ j)) 0 (c * o.shard) o.shard with
    | some a, some b => some (if bitOf o.rank j then b.combine o.max a else a.combine o.max b)
    | _, _ => none

/-- Tree: the partial of this rank and its children, added one by one in ascending rank. -/
def FabOp.treePart (o : FabOp) : Option Src :=
  o.kids.foldl (fun acc q =>
    match acc, o.recv q 0 0 o.data.length with
    | some a, some b => some (if o.op = 4 then a else a.combine o.max b)
    | _, _ => none) (some o.src)

/-- The shard that this member owns after the reduction. -/
def FabOp.ownResult (o : FabOp) : Option Src :=
  if o.op = 2 then some o.src
  else if o.halving then o.halfPart o.rank o.logSize else o.ringPart o.rank

/-- A shard of the gather phase as this member holds it. -/
def FabOp.gathered (o : FabOp) (c : Nat) : Option Src :=
  if c = o.rank then o.ownResult.map (wireRound o.wire)
  else if o.halving then
    (match (List.range o.logSize).find? (fun j => decide (bitOf c j ≠ bitOf o.rank j)) with
      | some j => o.recv (Nat.xor o.rank (2 ^ j)) 1 (c * o.shard) o.shard
      | none => none)
  else o.recv o.before 1 (c * o.shard) o.shard

/-- One send: target rank, phase, shard, offset, and its bytes once they are known. -/
structure CollSend where
  dest  : Nat
  phase : Nat
  shard : Nat
  off   : Nat
  data  : Option Src

/-- The sends of the reduction phase. -/
def FabOp.reduceSends (o : FabOp) : List CollSend :=
  if o.halving then
    (List.range o.logSize).flatMap (fun j =>
      ((List.range o.size).filter (fun c => decide (c % 2 ^ j = o.rank % 2 ^ j) && decide (bitOf c j ≠ bitOf o.rank j))).map (fun c =>
        { dest := Nat.xor o.rank (2 ^ j), phase := 0, shard := c, off := c * o.shard, data := o.halfPart c j }))
  else
    ((List.range o.size).filter (fun c => decide (c ≠ o.rank))).map (fun c =>
      { dest := o.after, phase := 0, shard := c, off := c * o.shard, data := o.ringPart c })

/-- The sends of the gather phase. -/
def FabOp.gatherSends (o : FabOp) : List CollSend :=
  if o.halving then
    (List.range o.logSize).flatMap (fun j =>
      ((List.range o.size).filter (fun c => decide (c % 2 ^ (j + 1) = o.rank % 2 ^ (j + 1)))).map (fun c =>
        { dest := Nat.xor o.rank (2 ^ j), phase := 1, shard := c, off := c * o.shard, data := o.gathered c }))
  else
    ((List.range o.size).filter (fun c => decide (c ≠ o.after))).map (fun c =>
      { dest := o.after, phase := 1, shard := c, off := c * o.shard, data := o.gathered c })

/-- What comes down the tree to this rank. -/
def FabOp.treeDown (o : FabOp) : Option Src :=
  match o.parent with
  | none => if o.op = 3 then some o.src else o.treePart.map (wireRound o.wire)
  | some q => o.recv q (if o.op = 3 then 0 else 1) 0 (if o.op = 4 then 0 else o.len)

/-- Every send of the operation at this member. -/
def FabOp.sends (o : FabOp) : List CollSend :=
  if o.size ≤ 1 then []
  else if o.tree then
    (if o.op = 3 then [] else match o.parent with
      | some q => [{ dest := q, phase := 0, shard := 0, off := 0, data := o.treePart }]
      | none => []) ++
    o.kids.map (fun q => { dest := q, phase := if o.op = 3 then 0 else 1, shard := 0, off := 0, data := o.treeDown })
  else (if o.op ≤ 1 then o.reduceSends else []) ++ (if o.op = 1 then [] else o.gatherSends)

/-- The ranks it exchanges frames with (R331). -/
def FabOp.partners (o : FabOp) : List Nat :=
  if o.size ≤ 1 then []
  else if o.tree then o.kids ++ o.parent.toList
  else if o.halving then (List.range o.logSize).map (fun j => Nat.xor o.rank (2 ^ j))
  else [o.after, o.before].dedup

/-- What the operation writes at DST (R332), once it is known. -/
def FabOp.result (o : FabOp) : Option Src :=
  if o.op = 4 then (if o.size ≤ 1 then some { bytes := [], bad := [] } else o.treeDown.map (fun _ => { bytes := [], bad := [] }))
  else if o.tree then o.treeDown
  else if o.op = 1 then o.ownResult
  else
    (List.range o.size).foldl (fun acc c =>
      match acc, o.gathered c with
      | some a, some b => some { bytes := a.bytes ++ b.bytes, bad := a.bad ++ b.bad.map (fun x => (a.bytes.length + x.1, x.2)) }
      | _, _ => none) (some { bytes := [], bad := [] })

/-! ### GCHK (R294, R295) -/

def ffB64 : FloatFmt := ⟨52, 11, 1023, ⟨2 ^ 53 - 1, 971⟩, true, false⟩

/-- A GCHK entry. -/
structure Gchk where
  sumsq  : Nat
  amax   : BitVec 32
  nonfin : Nat
  norm   : BitVec 32
  step   : Nat

def gchkAddr (s : State) (p tid : Nat) : Nat := getF s (rGchkBase p) fGchkBase * 4096 + 32 * tid
def gchkOf (b : Bytes) : Gchk :=
  { sumsq := u64At b 0, amax := BitVec.ofNat 32 (u32At b 8), nonfin := u32At b 12, norm := BitVec.ofNat 32 (u32At b 16), step := u64At b 20 }
def gchkBytes (g : Gchk) : Bytes := natLE 8 g.sumsq ++ natLE 4 g.amax.toNat ++ natLE 4 g.nonfin ++ natLE 4 g.norm.toNat ++ natLE 8 g.step ++ [0, 0, 0, 0]

/-- A structure of the job at an MPA can be reached: in the bulk tier (R290, R294, R304). -/
def bulkSpan (s : State) (a n : Nat) : Bool := decide (spanRegion s a n = some .bulk)

/-- One landed element entered. -/
def Gchk.add (g : Gchk) (x : BitVec 32) : Gchk :=
  match f32Dec x with
  | .fin d =>
    let sq := match ffB64.dec g.sumsq with
      | .fin a => ffB64.rne (a.add (d.mul d))
      | _ => g.sumsq
    { g with sumsq := sq, amax := if g.amax < (x &&& 0x7FFFFFFF) then x &&& 0x7FFFFFFF else g.amax }
  | _ => { g with nonfin := min (g.nonfin + 1) (2 ^ 32 - 1) }

/-- The owned shard of a tensor id lands in a step (R294): an entry of another step is cleared first; NORM_AVG stays. Elements
enter in ascending order, and poisoned ones do not (DESIGN CHOICE, log 29). -/
def gchkLand (s : State) (p tid step : Nat) (x : Src) : State :=
  let a := gchkAddr s p tid
  if tid = 0xFFFF ∨ ¬bulkSpan s a 32 then s
  else
    let g := gchkOf (hubView s a 32)
    let s := hubTouch s a 32
    let g := if g.step = step then g else { g with sumsq := 0, amax := 0, nonfin := 0, step := step }
    let g := (List.range (x.bytes.length / 4)).foldl (fun g i => if x.poisoned (4 * i) 4 then g else g.add (x.f32 i)) g
    hubPut s a (gchkBytes g)

/-! ### An operation goes on (R334) -/

def fabOp (s : State) (id : Nat) : Option FabOp := s.fab.ops.find? (fun o => decide (o.id = id))
def setOp (s : State) (o : FabOp) : State := { s with fab := { s.fab with ops := s.fab.ops.map (fun x => if x.id = o.id then o else x) } }
def dropOp (s : State) (id : Nat) : State :=
  dropQueued { s with fab := { s.fab with ops := s.fab.ops.filter (fun o => decide (o.id ≠ id)) } } id

/-- The frames of a send. -/
def collFrames (s : State) (o : FabOp) (c : Conn) (t : CollSend) (x : Src) : List Frame :=
  let f := { connFrame s c with opcode := 0x10, group := BitVec.ofNat 16 o.group, opid := BitVec.ofNat 16 o.opid, addr := BitVec.ofNat 64 (t.phase * o.len + t.off) }
  if o.wire then
    (List.range (max 1 (cdiv x.bytes.length (4 * bsElems)))).map (fun i =>
      let y := x.cut (4 * bsElems * i) (4 * bsElems)
      { f with addr := f.addr + BitVec.ofNat 64 (4 * bsElems * i), payload := bsEncode y, bad := y.bad.map (fun b => (b.1 / 2, b.2 / 2)) })
  else splitFrames f maxPayload 1 x.bytes x.bad

/-- The sends that are ready leave. -/
def pushSends (s : State) (o : FabOp) : State × FabOp :=
  o.sends.foldl (fun (a : State × FabOp) t =>
    let o := a.2
    if o.done.elem (t.dest, t.phase, t.shard) then a
    else
      match t.data, connTo a.1 (ctxPart a.1 o.u.e o.u.n) (o.members.getD t.dest 0) with
      | some x, some c =>
        let fs := collFrames a.1 o (conn a.1 c) t x
        (sendMsg a.1 c fs o.id, { o with done := o.done ++ [(t.dest, t.phase, t.shard)], sent := o.sent + (fs.map (fun f => f.payload.length)).sum, since := a.1.time })
      | _, _ => a) (s, o)

/-- The hub's write of a command's output: its pieces, or the act that ends the attempt. -/
def reachOut (s : State) (u : SpoolId) (unit va n : Nat) : State × Except Act (List Piece) :=
  let q := hubReq s u unit true false
  match xlate s q va n with
  | (s, .ok ps) => (s, .ok ps)
  | (s, .fault a cause r) => (s, .error (.faults { va := a, astag := q.astag, cause := cause, write := true, unit := unit, since := s.time } r))
  | (s, .consult a e) => (s, .error (.asks q a e))
  | (s, .wait ps) => (s, .error (.holds (ps.map (fun p => (p.mpa, p.n)))))

/-- Bytes with their poison written over pieces (R214, R295). -/
def landSrc (s : State) (ps : List Piece) (x : Src) : State := x.bad.foldl (fun s b => piecesDeliver s ps b.1 b.2) (piecesWrite s ps x.bytes)

/-- The operation ended in success: POISON where a reduction landed poisoned (R295). -/
def opDone (s : State) (o : FabOp) (detail : Nat) : State × Act :=
  let s := if o.op ≤ 4 then bump (dropOp s o.id) rCollOps fCollOps 1 else dropOp s o.id
  (s, .ends (if o.pois then stPoison else stOk) detail)

/-- A group operation sends what it can, writes its result, and ends when its own output is written and every frame it sent
is acknowledged (R334). -/
def groupAdvance (s : State) (o : FabOp) : State × Act :=
  let (s, o) := pushSends s o
  let s := setOp s o
  if ¬o.wrote then
    match o.result with
    | none => (s, .runs)
    | some x =>
      match reachOut s o.u 7 o.dst x.bytes.length with
      | (s, .error a) => (s, a)
      | (s, .ok ps) =>
        let pois := decide (o.op ≤ 1) && !x.bad.isEmpty
        let s := landSrc s ps x
        let s := if o.op = 1 then gchkLand s (ctxPart s o.u.e o.u.n) o.tensor o.step x else s
        let s := if pois then raisePennant s (ctxPart s o.u.e o.u.n) o.step 6 else s
        let o := { o with wrote := true, pois := pois, since := s.time }
        let s := setOp s o
        if owes s o.id ∨ o.sends.any (fun t => !o.done.elem (t.dest, t.phase, t.shard)) then (s, .runs) else opDone s o o.sent
  else if owes s o.id ∨ o.sends.any (fun t => !o.done.elem (t.dest, t.phase, t.shard)) then (s, .runs)
  else opDone s o o.sent

/-- PUT and SEND end with their acknowledgement; GET and ATOMIC when what they asked for has been written at LOCAL_VA (R334).
An ATOMIC whose old value is poisoned completes POISON (R283). -/
def pointAdvance (s : State) (o : FabOp) : State × Act :=
  if o.op = 8 ∨ o.op = 11 then (if owes s o.id then (s, .runs) else opDone s o o.len)
  else if (o.got.map (fun x => x.data.length)).sum < o.len then (s, .runs)
  else
    let ps := o.got.foldl insertPiece []
    let x : Src := { bytes := ps.flatMap (fun x => x.data), bad := ps.flatMap (fun x => x.bad.map (fun b => (x.addr + b.1, b.2))) }
    match reachOut s o.u 7 o.dst o.len with
    | (s, .error a) => (s, a)
    | (s, .ok ps) =>
      let s := landSrc s ps x
      let pois := decide (o.op = 10) && !x.bad.isEmpty
      let s := if pois then raisePennant s (ctxPart s o.u.e o.u.n) o.step 6 else s
      opDone s { o with pois := pois } (if o.op = 9 then 0 else o.len)

def opAdvance (s : State) (o : FabOp) : State × Act := if o.op ≤ 4 then groupAdvance s o else pointAdvance s o

/-- An event moved an operation on: the command it belongs to takes the outcome, unless it is stalled. -/
def opEvent (s : State) (id : Nat) : State :=
  match fabOp s id with
  | none => s
  | some o =>
    match spoolCmd s o.u o.slot with
    | none => s
    | some c => if c.phase ≠ .started ∨ c.stall ≠ .none then s else
      match opAdvance s o with
      | (s, .runs) | (s, .waits) => s
      | (s, a) => applyAct s s o.u c a

/-! ### Starting (R331, R332) -/

/-- The bits of DST that R316 fixes at 0 are 0: [63:48] of a remote offset, [63:56] of a unit-form address. -/
def dstOk (b : Bytes) : Bool :=
  match u8At b 8 % 16 with
  | 8 | 9 | 10 => decide (u64At b 32 < 2 ^ 48)
  | 11 => decide (u64At b 32 < 2 ^ 56)
  | _ => true

/-- The fields of COLLECTIVE that R332 checks without the group. An ATOMIC's size is its LENGTH, which SIZE64 must match
(DESIGN CHOICE, log 30). -/
def collBad (_ : State) (c : Cmd) : Bool :=
  let b := c.bytes
  let n := u40At b 16
  !(decide (u8At b 8 < 128) && decide (u8At b 8 / 16 % 4 < 2) && decide (u8At b 9 < 32) && decide (u8At b 9 % 8 < 7) && zeroSpan b 21 3 && zeroSpan b 56 8 && decide (0 < n) && dstOk b &&
    (decide (u8At b 8 % 16 ≠ 10) || (match atomicOf (u8At b 9) with | some op => decide (n = atomicBytes op (bitOf (u8At b 9) 3)) && (decide (n = 8) == bitOf (u8At b 9) 3) | none => false)))

/-- The operation a COLLECTIVE spells. -/
def newOp (s : State) (u : SpoolId) (c : Cmd) (g : Grp) : FabOp :=
  let b := c.bytes
  { id := s.fab.nextOp, u := u, slot := c.slot, op := u8At b 8 % 16, group := u16At b 10, opid := 0, peer := u16At b 10
    rank := g.rank, members := g.members, halving := g.halving, len := u40At b 16, data := [], bad := [], dst := u64At b 32
    max := decide (u8At b 8 / 16 % 4 = 1), bs16 := bitOf (u8At b 8) 6, tensor := u16At b 12
    root := if u8At b 8 % 16 = 3 then u16At b 14 else 0, step := c.step, got := [], done := [], sent := 0, wrote := false, pois := false, since := s.time }

/-- The conditions of R332 that need the group's size. -/
def groupBad (o : FabOp) : Bool :=
  (decide (o.op ≤ 1) && decide (o.len % (128 * o.size) ≠ 0)) || ((decide (o.op = 1) || decide (o.op = 2)) && decide (o.len % o.size ≠ 0)) ||
    (o.halving && decide (2 ^ o.logSize ≠ o.size)) || (decide (o.op = 3) && decide (o.size ≤ o.root))

/-- The bytes that this member reads: its whole vector, its shard, or the root's bytes. -/
def FabOp.readLen (o : FabOp) : Nat :=
  if o.op ≤ 1 then o.len else if o.op = 2 then o.shard else if o.op = 3 then (if o.rank = o.root then o.len else 0) else 0

/-- A frame of COLL_DATA as a piece of an operation. -/
def pieceOf (o : FabOp) (f : Frame) : CollPiece :=
  let x : Src := if o.wire then bsDecode f.payload f.bad else { bytes := f.payload, bad := f.bad }
  { rank := o.members.idxOf f.srcPeer.toNat, addr := f.addr.toNat, data := x.bytes, bad := if o.op ≤ 1 then wholeElems x.bad else x.bad }

/-- A frame belongs to an operation: group, number and partition agree. -/
def collMatches (s : State) (o : FabOp) (id : Nat) (f : Frame) : Bool :=
  decide (o.op ≤ 4) && decide (o.group = f.group.toNat) && decide (o.opid = f.opid.toNat) && decide (ctxPart s o.u.e o.u.n = (conn s id).part)

/-- A group's next operation number taken (R331). -/
def takeOpid (s : State) (gid : Nat) : Nat × State :=
  let k := mapGet s.fab.opCount gid 0
  (k % 65536, { s with fab := { s.fab with opCount := mapSet s.fab.opCount gid (k + 1) } })

/-- A group operation issued (R331): it takes its group's next number, the bytes it has read and what has arrived for it already; poison
read by a reduction raises the Pennant (R295). -/
def issueOp (s : State) (u : SpoolId) (c : Cmd) (o : FabOp) (ps : List Piece) : State × FabOp :=
  let s := piecesTouch s ps
  let s := if o.op ≤ 1 ∧ piecesPoisoned s ps then cmdPoison s u c.step (firstPoison s ps) else s
  let (k, s) := takeOpid s o.group
  let o := { o with opid := k, data := piecesRead s ps, bad := piecesPoison s ps }
  let mine (x : Nat × Frame) : Bool := collMatches s o x.1 x.2
  let o := { o with got := (s.fab.early.filter mine).map (fun x => pieceOf o x.2) }
  ({ s with fab := { s.fab with nextOp := o.id + 1, ops := s.fab.ops ++ [o], early := s.fab.early.filter (fun x => !mine x) } }, o)

/-- The peers that a member of a group operation exchanges frames with (R331). -/
def FabOp.partnerPeers (o : FabOp) : List Nat := o.partners.map (fun r => o.members.getD r 0)

/-- A group operation starts (R331 to R333): RESOURCE for a group or a connection it has not, FORMAT under R332, TIMEOUT for an
unreachable partner (R330), then its bytes are read; poison read by a reduction raises the Pennant (R295). -/
def groupBody (u : SpoolId) (s : State) (c : Cmd) : State × Cmd × Act :=
  match s.fab.ops.find? (fun o => decide (o.u = u) && decide (o.slot = c.slot)) with
  | some o =>
    let (s, a) := opAdvance s o
    (s, c, a)
  | none =>
    let p := ctxPart s u.e u.n
    match readGroup s p (u16At c.bytes 10) with
    | (s, .bad) => (s, c, .ends stResource 0)
    | (s, .stop a) => (s, c, a)
    | (s, .ok g) =>
      let o := newOp s u c g
      if groupBad o then (s, c, .ends stFormat 0)
      else if o.partnerPeers.any (fun q => (connTo s p q).isNone) then (s, c, .ends stResource 0)
      else if o.partnerPeers.any (unreachable s) then (s, c, .ends stTimeout 0)
      else
        match reach s (hubReq s u 7 false true) (u64At c.bytes 24) o.readLen with
        | (s, .error a) => (s, c, a)
        | (s, .ok ps) =>
          let (s, o) := issueOp s u c o ps
          let (s, a) := opAdvance s o
          (s, c, a)

/-- The operations of a spool whose access waited for memory try it again (R206, R271). -/
def resumeOps (s : State) (u : SpoolId) : State :=
  (s.hub.tierWaits.filter (fun w => decide (w.u = u))).foldl (fun s w =>
    match s.fab.ops.find? (fun o => decide (o.u = u) && decide (o.slot = w.slot)) with
    | some o => opEvent s o.id
    | none => s) s

/-- The spool's next command is one of a kind. -/
def nextIs (s : State) (u : SpoolId) (sel : Bytes → Bool) : Bool :=
  match pick s u with
  | some c => sel c.bytes
  | none => false

/-- A COLLECTIVE of an OP. -/
def isColl (op : Nat) (b : Bytes) : Bool := decide (u8At b 0 = 0x40) && decide (u8At b 8 % 16 = op)

/-- A COLLECTIVE with a group operation's OP starts; with none to start, those that wait for memory try again. -/
def runGroup (s : State) (u : SpoolId) (op : Nat) : State :=
  if nextIs s u (isColl op) then runCmd s u (isColl op) collBad (fun _ => []) (groupBody u) else resumeOps s u

/-- ALL_REDUCE (R332). -/
def execAllReduce (u : SpoolId) (s : State) : Host.Outcome State Fault Refusal := .next (runGroup s u 0)
/-- REDUCE_SCATTER (R332). -/
def execReduceScatter (u : SpoolId) (s : State) : Host.Outcome State Fault Refusal := .next (runGroup s u 1)
/-- ALL_GATHER (R332). -/
def execAllGather (u : SpoolId) (s : State) : Host.Outcome State Fault Refusal := .next (runGroup s u 2)
/-- BROADCAST (R332). -/
def execBroadcast (u : SpoolId) (s : State) : Host.Outcome State Fault Refusal := .next (runGroup s u 3)
/-- BARRIER (R333). -/
def execBarrier (u : SpoolId) (s : State) : Host.Outcome State Fault Refusal := .next (runGroup s u 4)

/-! ### PUT, GET, ATOMIC and SEND (R328, R329, R334) -/

/-- The outcome of a NACK for a command: a fault cause of a memory-form request takes the kill path, never the replay path
(R328); STALE_EPOCH is a status of its own, NO_CONTEXT gives RESOURCE and NOT_IN_DOMAIN FAULT_PERMISSION (DESIGN CHOICE,
log 31). -/
def nackAct (s : State) (u : SpoolId) (op va reason : Nat) : Act :=
  if reason = 0x20 then .ends stStale 0
  else if reason = 0x21 then .ends stResource 0
  else if 1 ≤ reason ∧ reason ≤ 0x0B ∧ op ≠ 11 then
    .faults { va := va, astag := ctxAstag s u.e u.n, cause := reason, write := decide (op ≠ 9), unit := 7, since := s.time } false
  else .ends stFaultPermission 0

/-- The request frames of a point-to-point operation. -/
def pointFrames (s : State) (o : FabOp) (c : Conn) (b : Bytes) : List Frame :=
  let f := { connFrame s c with opid := BitVec.ofNat 16 o.id, addr := BitVec.ofNat 64 (if o.op = 11 then u64At b 32 else u64At b 32 % 2 ^ 48) }
  match o.op with
  | 8 => splitFrames { f with opcode := 0x01 } maxPayload 1 o.data o.bad
  | 9 => [{ f with opcode := 0x02, payload := natLE 8 o.len }]
  | 10 => [{ f with opcode := 0x04, payload := natLE 8 (u8At b 9) ++ natLE 8 (u64At b 40) ++ natLE 8 (u64At b 48) }]
  | _ => splitFrames { f with opcode := 0x06, unit := true } maxPayload (2 ^ 33) o.data o.bad

/-- A point-to-point operation with the module's own peer id is served here (R193). -/
def pointLocal (s : State) (o : FabOp) (id : Nat) (b : Bytes) : State × Act :=
  let off := u64At b 32 % 2 ^ 48
  let fs := pointFrames s o (conn s id) b
  if o.op = 11 then
    match fs.map (sendVerdict s id) with
    | vs =>
      match vs.find? (fun v => decide (v ≠ 0)) with
      | some 0x23 => (s, .waits)
      | some v => (s, nackAct s o.u 11 0 v)
      | none =>
        let s := fs.foldl (fun s f => putUnit s id f) s
        (wholeSend s id (fs.headD (emptyFrame s)), .ends stOk o.len)
  else
    match memOpOf (fs.headD (emptyFrame s)) with
    | none => (s, .ends stFormat 0)
    | some (k, _) =>
      let q := { connReq s id k.writes k.reads with unit := 7, noWait := tierOver s o.u }
      match serveMem s q off o.len (match k with | .write .. => .write o.data o.bad | k => k) with
      | (s, .nack va cause r) => (s, .faults { va := va, astag := q.astag, cause := cause, write := k.writes, unit := 7, since := s.time } r)
      | (s, .ask a e) => (s, .asks q a e)
      | (s, .wait ps) => (s, .held (ps.map (fun p => (p.mpa, p.n))))
      | (s, .done data bad) =>
        if o.op = 8 then (s, .ends stOk o.len)
        else
          let o := { o with got := [{ rank := 0, addr := 0, data := data, bad := bad }] }
          pointAdvance s o

/-- The operation that a point-to-point COLLECTIVE spells; its own bytes lie at LOCAL_VA. -/
def pointOp (s : State) (u : SpoolId) (c : Cmd) : FabOp :=
  { newOp s u c { size := 1, rank := 0, halving := false, members := [] } with dst := u64At c.bytes 24 }

/-- The bytes it reads at LOCAL_VA before it sends (R334). -/
def pointLen (o : FabOp) : Nat := if o.op = 8 ∨ o.op = 11 then o.len else 0
def pointRead (s : State) (o : FabOp) (ps : List Piece) : FabOp := { o with data := piecesRead s ps, bad := piecesPoison s ps }

/-- The operation issued to another peer: its request frames leave. -/
def pointSend (s : State) (o : FabOp) (id : Nat) (b : Bytes) : State :=
  let s := { s with fab := { s.fab with nextOp := o.id + 1, ops := s.fab.ops ++ [o] } }
  sendMsg s id (pointFrames s o (conn s id) b) o.id

/-- PUT, GET, ATOMIC and SEND start: RESOURCE without a connection, TIMEOUT for an unreachable peer (R330, R331). -/
def pointBody (u : SpoolId) (s : State) (c : Cmd) : State × Cmd × Act :=
  match s.fab.ops.find? (fun o => decide (o.u = u) && decide (o.slot = c.slot)) with
  | some o =>
    let (s, a) := opAdvance s o
    (s, c, a)
  | none =>
    let o := pointOp s u c
    match connTo s (ctxPart s u.e u.n) o.peer with
    | none => (s, c, .ends stResource 0)
    | some id =>
      if unreachable s o.peer then (s, c, .ends stTimeout 0)
      else
        match reach s (hubReq s u 7 false true) o.dst (pointLen o) with
        | (s, .error a) => (s, c, a)
        | (s, .ok ps) =>
          let s := piecesTouch s ps
          let o := pointRead s o ps
          if o.peer = peerId s then
            let (s, a) := pointLocal s o id c.bytes
            (s, c, a)
          else (pointSend s o id c.bytes, c, .runs)

/-- A COLLECTIVE with the OP of a point-to-point operation; see `runGroup`. -/
def runPoint (s : State) (u : SpoolId) (op : Nat) : State :=
  if nextIs s u (isColl op) then runCmd s u (isColl op) collBad (fun _ => []) (pointBody u) else resumeOps s u

/-- PUT (R334). -/
def execPut (u : SpoolId) (s : State) : Host.Outcome State Fault Refusal := .next (runPoint s u 8)
/-- GET (R334). -/
def execGet (u : SpoolId) (s : State) : Host.Outcome State Fault Refusal := .next (runPoint s u 9)
/-- ATOMIC (R334). -/
def execAtomic (u : SpoolId) (s : State) : Host.Outcome State Fault Refusal := .next (runPoint s u 10)
/-- COLLECTIVE with OP SEND (R329). -/
def execCollectiveSend (u : SpoolId) (s : State) : Host.Outcome State Fault Refusal := .next (runPoint s u 11)

/-! ### Data that arrives for an operation -/

/-- COLL_DATA applied on arrival (R320): to its operation, or kept until the operation is issued here; data of an operation
that has ended is dropped. -/
def applyColl (s : State) (id : Nat) (f : Frame) : State :=
  match s.fab.ops.find? (fun o => collMatches s o id f && o.members.elem f.srcPeer.toNat) with
  | some o => opEvent (setOp s { o with got := o.got ++ [pieceOf o f], since := s.time }) o.id
  | none =>
    let k := mapGet s.fab.opCount f.group.toNat 0
    if (k + 65536 - 1 - f.opid.toNat) % 65536 < 32768 ∧ f.opid.toNat ≠ k % 65536 ∧ 0 < k then s
    else { s with fab := { s.fab with early := s.fab.early ++ [(id, f)] } }

/-- READ_RESP and ATOMIC_RESP applied to the operation that their OPID names, at their offset from its remote offset. -/
def applyResp (s : State) (id : Nat) (f : Frame) : State :=
  match s.fab.ops.find? (fun o => (decide (o.op = 9) || decide (o.op = 10)) && decide (o.id % 65536 = f.opid.toNat) && decide (o.peer = (conn s id).peer)) with
  | none => s
  | some o =>
    let base := match spoolCmd s o.u o.slot with
      | some c => u64At c.bytes 32 % 2 ^ 48
      | none => 0
    opEvent (setOp s { o with got := o.got ++ [{ rank := 0, addr := f.addr.toNat - base, data := f.payload, bad := f.bad }], since := s.time }) o.id

end Sys2Proof.Machine
end

