-- ==== Sys2Proof/Machine/Experts.lean ====
section
/-! DEFINITION. The Dispatch/Combine Engine (R338 to R342): DISPATCH and COMBINE at their source, landing entries and their
grants at the host. The forms of the messages' payloads are the model's (DESIGN CHOICE, log 24). -/

namespace Sys2Proof.Machine

open Sys2Proof

/-! ### Landing entries (R338) -/

/-- A landing entry in use. -/
structure LandEnt where
  capacity : Nat
  perTarget : Nat
  f        : Fmt
  fmt      : Nat
  va       : Bool
  targets  : Nat
  k        : Nat
  t        : Nat
  p        : Nat
  readers  : Nat
  astag    : Nat
  out      : Fmt
  countVa  : Nat
  outVa    : Nat
  outPitch : Nat
  doneVa   : Nat
  dest     : List Nat

/-- A token format: class F or P (R338). -/
def tokenFmt (c : Nat) : Option Fmt := (fmtOf c).filter (fun f => decide (f.cls = .f) || decide (f.cls = .p))

/-- The landing entry at an index. None where it is not VALID, its fields are reserved or out of range, or it cannot be read:
it accepts no copy and returns no row (DESIGN CHOICE, log 32). -/
def landEntry (s : State) (i : Nat) : Option LandEnt :=
  let a := getF s rLandTable fLandTableBase * 64 + 512 * i
  let b := hubView s a 512
  let outF := match u8At b 20 with
    | 0 => fmtOf 0
    | 2 => fmtOf 2
    | _ => none
  match tokenFmt (u8At b 8 % 32), outF with
  | some f, some o =>
    let x : LandEnt := { capacity := u32At b 0, perTarget := u32At b 4, f := f, fmt := u8At b 8 % 32, va := bitOf (u8At b 8) 5, targets := u8At b 9,
                         k := u16At b 10, t := u16At b 12, p := u16At b 14, readers := u16At b 16, astag := u16At b 18, out := o, countVa := u64At b 24,
                         outVa := u64At b 32, outPitch := u32At b 40, doneVa := u64At b 48, dest := (List.range 32).map (fun j => u64At b (64 + 8 * j)) }
    if i < 4096 ∧ spanRegion s a 512 ≠ none ∧ spanRegion s a 512 ≠ some .mmio ∧ ¬mpaPoisoned s a 512 ∧ bitOf (u8At b 8) 6 ∧ u8At b 8 < 128 ∧
        zeroSpan b 21 3 ∧ zeroSpan b 44 4 ∧ zeroSpan b 56 8 ∧ zeroSpan b 320 192 ∧ inRange x.targets 1 32 ∧ inRange x.perTarget 1 65536 ∧
        inRange x.t 1 512 ∧ x.perTarget % x.t = 0 ∧ x.capacity ≤ x.targets * x.perTarget ∧ inRange x.k 1 32768 ∧ layPitchOk f x.p then some x
    else none
  | _, _ => none

/-- The hub has read a landing entry (R209, R272). -/
def landTouch (s : State) (i : Nat) : State :=
  let a := getF s rLandTable fLandTableBase * 64 + 512 * i
  if spanRegion s a 512 = none ∨ spanRegion s a 512 = some .mmio then s else hubTouch s a 512

/-- A KIND 0 target: engine, context slot, bobbin. -/
def bobTarget (v : Nat) : Nat × Nat × Nat := (natField v 4 0, natField v 8 5, natField v 23 16)

/-- A hub access under a landing entry's address space. -/
def landReq (_ : State) (part astag : Nat) (write : Bool) : XReq :=
  { cache := none, ag := .hubUnit (Fin.ofNat 16 part), astag := astag, part := part, write := write, read := !write, unit := 6 }

/-- The tag of a bobbin that a landing fills. -/
def landTag (idx target : Nat) : Nat × Nat := (2 ^ 32 + idx, target)

/-- Elements and block metadata of a token row: bytes in all, and of the elements (R338, R41). -/
def Fmt.tokenBytes (f : Fmt) (k : Nat) : Nat := match f.mt with
  | .none => f.rowBytes k
  | .e8m0 => f.rowBytes k + blocksOf k
  | .zero => f.rowBytes k + 3 * blocksOf k

/-! ### The counts and the grant (R340) -/

/-- The counts held for an operation: every member's are here. -/
def countsOf (s : State) (part group opid : Nat) : List LandCount :=
  s.fab.counts.filter (fun c => decide (c.part = part) && decide (c.group = group) && decide (c.opid = opid))

/-- Copies that a source counted for a landing entry; none of another token format (R339). -/
def LandCount.copies (c : LandCount) (idx fmt : Nat) : Nat := if c.fmt = fmt then mapGet c.counts idx 0 else 0

/-- The rows of target i of a landing entry with a total (R340). -/
def targetRows (x : LandEnt) (total i : Nat) : Nat := min x.perTarget (total - i * x.perTarget)

/-- What is granted for one landing entry: index, the entry, runs of the sources in ascending rank, total, dropped. -/
structure LandPlan where
  idx     : Nat
  ent     : Option LandEnt
  /-- Source peer, first slot, accepted. -/
  runs    : List (Nat × Nat × Nat)
  total   : Nat
  dropped : Nat

/-- The runs of consecutive slots: sources in ascending rank, slots at or beyond CAPACITY dropped. -/
def planRuns (cs : List LandCount) (idx fmt cap : Nat) : List Nat → Nat → List (Nat × Nat × Nat)
  | [], _ => []
  | q :: l, first =>
    match cs.find? (fun c => decide (c.peer = q)) with
    | none => planRuns cs idx fmt cap l first
    | some c =>
      let n := c.copies idx fmt
      (if c.counts.any (fun x => decide (x.1 = idx)) then [(q, first, min n (cap - first))] else []) ++ planRuns cs idx fmt cap l (first + n)

def landPlan (s : State) (cs : List LandCount) (members : List Nat) (idx : Nat) : LandPlan :=
  match landEntry s idx with
  | none => { idx := idx, ent := none, runs := (cs.filter (fun c => c.counts.any (fun x => decide (x.1 = idx)))).map (fun c => (c.peer, 0, 0)), total := 0, dropped := 0 }
  | some x =>
    let sum := (cs.map (fun c => c.copies idx x.fmt)).sum
    { idx := idx, ent := some x, runs := planRuns cs idx x.fmt x.capacity members 0, total := min sum x.capacity, dropped := sum - min sum x.capacity }

/-- The targets of a plan that receive rows. -/
def LandPlan.live (p : LandPlan) : List Nat := match p.ent with
  | none => []
  | some x => (List.range x.targets).filter (fun i => decide (0 < targetRows x p.total i))

/-- Every KIND 0 target that receives rows is an EMPTY bobbin of its slot (R157, R340). -/
def LandPlan.ready (p : LandPlan) (s : State) : Bool := match p.ent with
  | none => true
  | some x => x.va || p.live.all (fun i =>
      let (e, n, b) := bobTarget (x.dest.getD i 0)
      bobOwned s e n b && !bobStaging s e b && decide (bobState s e b = bEmpty))

/-- The epoch of a target (R340); a KIND 1 target has none. -/
def targetEpoch (s : State) (x : LandEnt) (i : Nat) : Nat :=
  let (e, n, _) := bobTarget (x.dest.getD i 0)
  if x.va then 0 else getF s (rCtxCfg e n) fCtxCfgEpoch

/-- The landing record written and the targets FILLING; the GRANTS value. -/
def grantEntry (s : State) (part group opid : Nat) (p : LandPlan) : State × Nat :=
  match p.ent with
  | none => (s, 0)
  | some x =>
    match xlate s (landReq s part x.astag true) x.countVa 16 with
    | (s, .ok ps) =>
      let g := leNat ((piecesRead s ps).take 8) + 1
      let s := piecesWrite s ps (natLE 8 g ++ natLE 4 p.total ++ natLE 4 p.dropped)
      let s := bump s rRowsDropped fRowsDropped p.dropped
      let s := p.live.foldl (fun s i =>
        let s := { s with fab := { s.fab with lands := s.fab.lands ++ [{ part := part, group := group, opid := opid, idx := p.idx, target := i, rows := targetRows x p.total i, left := targetRows x p.total i, refused := false }] } }
        let (e, _, b) := bobTarget (x.dest.getD i 0)
        if x.va then s else setBobAux (setBob s e b bFilling 0 false 0) e b { remote := some (landTag p.idx i) }) s
      (s, g % 2 ^ 64)
    | (s, _) => (s, 0)

/-- Whether the landing record of a plan can be written. -/
def LandPlan.reach (p : LandPlan) (s : State) (part : Nat) : State × XRes :=
  match p.ent with
  | none => (s, .ok [])
  | some x => xlate s (landReq s part x.astag true) x.countVa 16

/-- The first plan whose landing record cannot be written now: the request and what stands against it. -/
def plansReach (s : State) (part : Nat) : List LandPlan → State × Option (XReq × XRes)
  | [] => (s, none)
  | p :: l =>
    match p.reach s part with
    | (s, .ok _) => plansReach s part l
    | (s, r) => (s, some (landReq s part ((p.ent.map (fun x => x.astag)).getD 0) true, r))

/-! ### Rows at the host (R341) -/

/-- The landing-form address of a row. -/
def landAddr (idx target row epoch : Nat) : Nat := idx + target * 2 ^ 12 + row * 2 ^ 17 + epoch * 2 ^ 33

/-- A target in progress loses a row: with the last one it is READY with its count of readers, or EMPTY again where a row was
refused. -/
def landDone (s : State) (x : LandEnt) (d : Landing) (refused : Bool) : State :=
  let mine (y : Landing) : Bool := decide (y.part = d.part) && decide (y.group = d.group) && decide (y.opid = d.opid) && decide (y.idx = d.idx) && decide (y.target = d.target)
  let r := d.refused || refused
  if 1 < d.left then { s with fab := { s.fab with lands := s.fab.lands.map (fun y => if mine y then { y with left := d.left - 1, refused := r } else y) } }
  else
    let s := { s with fab := { s.fab with lands := s.fab.lands.filter (fun y => !mine y) } }
    let (e, _, b) := bobTarget (x.dest.getD d.target 0)
    if x.va ∨ (bobAux s e b).remote ≠ some (landTag d.idx d.target) ∨ bobState s e b ≠ bFilling then s
    else if r then bobToEmpty s e b else bobToReady s e b x.readers

/-- The codes, the block metadata and the poison of a token row. -/
def rowCodes (f : Fmt) (k : Nat) (row : Bytes) : List Nat := (List.range k).map (fun j => codeAt row (j * f.w) f.w)
def rowMetas (f : Fmt) (k : Nat) (row : Bytes) : List (Nat × Nat) :=
  let o := f.rowBytes k
  match f.mt with
  | .none => []
  | .e8m0 => (List.range (blocksOf k)).map (fun b => (u8At row (o + b), 0))
  | .zero => (List.range (blocksOf k)).map (fun b => (u16At row (o + 2 * b), u8At row (o + 2 * blocksOf k + b)))
def rowCodeBad (f : Fmt) (x : Src) (j : Nat) : Bool := x.poisoned (j * f.w / 8) ((j * f.w % 8 + f.w + 7) / 8)
def rowElemBad (f : Fmt) (k : Nat) (x : Src) (j : Nat) : Bool :=
  let o := f.rowBytes k
  rowCodeBad f x j || (match f.mt with
    | .none => false
    | .e8m0 => x.poisoned (o + j / 32) 1
    | .zero => x.poisoned (o + 2 * (j / 32)) 2 || x.poisoned (o + 2 * blocksOf k + j / 32) 1)

/-- A row written in the array layout of its target (R341, R92), with its poison. -/
def rowPut (s : State) (t : Tgt) (x : LandEnt) (rows r : Nat) (row : Src) : State :=
  let l : Lay := ⟨x.f, rows, x.k, x.t, x.p, 4⟩
  let s := putAll s t (l.rowWrites r (rowCodes x.f x.k row.bytes) (rowMetas x.f x.k row.bytes))
  let codes := (List.range x.k).map (rowCodeBad x.f row)
  let all := (List.range x.k).map (rowElemBad x.f x.k row)
  if row.bad.isEmpty then s
  else (l.rowCodePoison r codes ++ l.rowMetaPoison r all).foldl (fun s p => t.poison s p.1 p.2) s

/-- The target in progress that a landing-form address names, and its entry. -/
def landOf (s : State) (part group opid addr : Nat) : Option (LandEnt × Landing) :=
  let idx := natField addr 11 0
  let i := natField addr 16 12
  match landEntry s idx, s.fab.lands.find? (fun y => decide (y.part = part) && decide (y.group = group) && decide (y.opid = opid) && decide (y.idx = idx) && decide (y.target = i)) with
  | some x, some d => some (x, d)
  | _, _ => none

/-- What becomes of a row at its host. -/
inductive LandAns
  | landed
  /-- Refused with a NACK reason. -/
  | nack (reason : Nat)
  /-- A fault of the target's address space. -/
  | fault (q : XReq) (va cause : Nat) (replay : Bool)
  | ask (q : XReq) (va : Nat) (e : RcEntry)
  | wait (ps : List Piece)

/-- A row of a target in progress is refused. -/
def landRefuse (s : State) (part group opid addr : Nat) : State :=
  match landOf s part group opid addr with
  | some (x, d) => landDone s x d true
  | none => s

/-- Where a row lands: its target, or what stands against it (R329, R341). A row for no target in progress, or beyond its target, is
refused as an address (DESIGN CHOICE, log 32). -/
def landPlace (s : State) (part addr : Nat) (x : LandEnt) (d : Landing) (noWait : Bool) : State × Except LandAns Tgt :=
  let l : Lay := ⟨x.f, d.rows, x.k, x.t, x.p, 4⟩
  if d.rows ≤ natField addr 32 17 then (s, .error (.nack fRefused))
  else if x.va then
    let q := { landReq s part x.astag true with noWait := noWait }
    match xlate s q (x.dest.getD d.target 0) l.bytes with
    | (s, .ok ps) => (s, .ok (.pieces ps))
    | (s, .fault va cause r) => (s, .error (.fault q va cause r))
    | (s, .consult va e) => (s, .error (.ask q va e))
    | (s, .wait ps) => (s, .error (.wait ps))
  else
    let (e, n, b) := bobTarget (x.dest.getD d.target 0)
    if ¬epochCurrent s e n (natField addr 48 33) then (s, .error (.nack 0x20))
    else if (bobAux s e b).remote ≠ some (landTag d.idx d.target) ∨ ¬bobFits s e b 0 l.bytes then (s, .error (.nack fRefused))
    else (s, .ok (.mpa (bobBase s e b)))

/-- A token row lands (R341); a refused one counts against its target, and a stale one in STALE_RX (R329). A row of another size is
refused as an address (DESIGN CHOICE, log 32). -/
def landRow (s : State) (part group opid addr : Nat) (row : Src) (noWait : Bool) : State × LandAns :=
  match landOf s part group opid addr with
  | none => (s, .nack fRefused)
  | some (x, d) =>
    if row.bytes.length ≠ x.f.tokenBytes x.k then (landDone s x d true, .nack fRefused)
    else
      match landPlace (landTouch s d.idx) part addr x d noWait with
      | (s, .ok t) =>
        let s := bump (rowPut s t x d.rows (natField addr 32 17) row) rRowsLanded fRowsLanded 1
        (landDone (if x.va then s else wakeFor s (bobTarget (x.dest.getD d.target 0)).1) x d false, .landed)
      | (s, .error (.nack r)) => (landDone (if r = 0x20 then bump s rStaleRx fStaleRx 1 else s) x d true, .nack r)
      | (s, .error a) => (s, a)

/-- A peer's access of unit 8 that asks a handler, for a frame (R252). -/
def askFrame (s : State) (q : XReq) (va : Nat) (e : RcEntry) (id : Nat) (f : Frame) : State :=
  let r : XlateReq := { engine := none, e := 0, ctx := 0, spool := 0, slot := 0, part := Fin.ofNat 16 q.part, astag := BitVec.ofNat 16 q.astag
                        va := BitVec.ofNat 64 va, write := q.write, read := q.read, exec := false, remote := q.remote, unit := 8 }
  let (s, k) := addConsult s r e
  { s with fab := { s.fab with asked := s.fab.asked ++ [(k, id, f)] } }

/-- The outcome of a peer's row for its frame: a fault is recorded in the partition's ring and answered with its cause (R261). -/
def rowAnswer (s : State) (id : Nat) (f : Frame) (addr : Nat) : LandAns → State × Applied
  | .landed => (s, .done)
  | .nack r => (sendNack s id f r, .refused)
  | .fault q va cause _ =>
    let s := landRefuse s (conn s id).part f.group.toNat f.opid.toNat addr
    (sendNack (putPeerFault s q.part { va := va, astag := q.astag, cause := cause, write := true, unit := 8, since := s.time }) id f cause, .refused)
  | .ask q va e => (askFrame s q va e id f, .asked)
  | .wait _ => ({ s with fab := { s.fab with held := s.fab.held ++ [(id, f)] } }, .held)

/-- The first frames of a row placed as they arrive (R320): the groups whose codes are all there. The header gives a later frame no
offset, so it is placed once it joins the row's first frames; base fields and metadata follow with the whole row (DEDUCED,
log 121). -/
def rowBegin (s : State) (id : Nat) (f : Frame) (front : List Frame) : State :=
  let addr := (front.headD f).addr.toNat
  match landOf s (conn s id).part f.group.toNat f.opid.toNat addr with
  | none => s
  | some (x, d) =>
    match landPlace s (conn s id).part addr x d false with
    | (s, .ok t) =>
      let bytes := msgPayload front
      let n := min x.k (8 * bytes.length / x.f.w)
      let l : Lay := ⟨x.f, d.rows, x.k, x.t, x.p, 4⟩
      putAll s t (l.groupWrites (natField addr 32 17) (rowCodes x.f n bytes))
    | (s, .error _) => s

/-- A frame of DISPATCH_ROW applied on arrival (R320, R341): with the last frame of its row the row lands. -/
def applyRow (s : State) (id : Nat) (f : Frame) : State × Applied :=
  match wholeMsg ((conn s id).parts ++ [f]) f with
  | some fs =>
    let addr := (fs.headD f).addr.toNat
    let (s, a) := landRow s (conn s id).part f.group.toNat f.opid.toNat addr { bytes := msgPayload fs, bad := msgBad fs } false
    rowAnswer s id f addr a
  | none =>
    match partsBack ((conn s id).parts ++ [f]) ((conn s id).parts.length + 2) f.psn.toNat [] with
    | some front => (rowBegin s id f front, .done)
    | none => (s, .done)

/-! ### DISPATCH at its source (R339 to R341) -/

/-- The fields of a DISPATCH. -/
structure Dp where
  topk    : Nat
  fmt     : Nat
  experts : Nat
  tokens  : Nat
  k       : Nat
  group   : Nat
  pitch   : Nat
  src     : Nat
  route   : Nat
  expert  : Nat
  map_    : Nat

def dpOf (b : Bytes) : Dp :=
  { topk := u8At b 8, fmt := u8At b 9, experts := u16At b 10, tokens := u32At b 12, k := u16At b 16, group := u16At b 18, pitch := u32At b 20,
    src := u64At b 24, route := u64At b 32, expert := u64At b 40, map_ := u64At b 48 }

/-- The fields that R339 checks before anything is read. -/
def dpBad (_ : State) (c : Cmd) : Bool :=
  let x := dpOf c.bytes
  match tokenFmt x.fmt with
  | none => true
  | some f => !(inRange x.topk 1 8 && inRange x.experts 1 4096 && inRange x.tokens 1 65536 && inRange x.k 1 32768 &&
      decide (f.tokenBytes x.k ≤ 32768) && zeroSpan c.bytes 56 8)

/-- Token row t as it travels: elements, then block metadata. -/
def tokenRow (f : Fmt) (x : Dp) (src : Src) (t : Nat) : Src :=
  let nb := blocksOf x.k
  let part (o n : Nat) : Src := src.cut o n
  let join (a b : Src) : Src := { bytes := a.bytes ++ b.bytes, bad := a.bad ++ b.bad.map (fun p => (a.bytes.length + p.1, p.2)) }
  let el := part (t * x.pitch) (f.rowBytes x.k)
  let m := x.tokens * x.pitch
  match f.mt with
  | .none => el
  | .e8m0 => join el (part (m + t * nb) nb)
  | .zero => join (join el (part (m + 2 * (t * nb)) (2 * nb))) (part (m + 2 * (x.tokens * nb) + t * nb) nb)

def disp (s : State) (id : Nat) : Option Disp := s.fab.disps.find? (fun d => decide (d.id = id))
def setDisp (s : State) (d : Disp) : State := { s with fab := { s.fab with disps := s.fab.disps.map (fun x => if x.id = d.id then d else x) } }
def dropDisp (s : State) (id : Nat) : State := dropQueued { s with fab := { s.fab with disps := s.fab.disps.filter (fun d => decide (d.id ≠ id)) } } id

/-- The landing entries that a DISPATCH uses at a member, ascending, with the copies it routes there. -/
def Disp.countsAt (d : Disp) (q : Nat) : List (Nat × Nat) :=
  let mine := d.copies.filter (fun c => decide (c.peer = q))
  (List.range 4096).filterMap (fun i =>
    let n := (mine.filter (fun c => decide (c.idx = i))).length
    if n = 0 then none else some (i, n))

/-- The slot of a copy: its place among the copies for its landing entry, in ascending token and k; none where dropped. -/
def Disp.slotOf (d : Disp) (c : Copy) : Option Nat :=
  match d.grants.find? (fun g => decide (g.peer = c.peer) && decide (g.idx = c.idx)) with
  | none => none
  | some g =>
    let j := (d.copies.takeWhile (fun y => !(decide (y.tok = c.tok) && decide (y.k = c.k)))).countP (fun y => decide (y.peer = c.peer) && decide (y.idx = c.idx))
    if j < g.accepted then some (g.first + j) else none

/-- A DISPATCH_COUNT's payload: the token format and the counts, most significant byte first (R11). -/
def countBytes (fmt : Nat) (l : List (Nat × Nat)) : Bytes := natBE 8 fmt ++ l.flatMap (fun x => natBE 2 x.1 ++ [0, 0] ++ natBE 4 x.2)

/-- MAP_VA's entries (R340). -/
def Disp.mapBytes (d : Disp) (x : Dp) (route : Bytes) : Bytes :=
  (List.range (x.tokens * x.topk)).flatMap (fun i =>
    let slot := match d.copies.find? (fun c => decide (c.tok = i / x.topk) && decide (c.k = i % x.topk)) with
      | some c => d.slotOf c
      | none => none
    (route.drop (8 * i)).take 2 ++ [0, 0] ++ natLE 4 (slot.getD 0xFFFFFFFF))

/-- The grants of a DISPATCH noted for the COMBINE that pairs with it (R342). -/
def noteMap (s : State) (u : SpoolId) (va : Nat) (d : Disp) : State :=
  let p := ctxPart s u.e u.n
  let a := ctxAstag s u.e u.n
  let rec_ : MapRec := { part := p, astag := a, va := va, grants := d.grants.map (fun g => (g.peer, g.idx, g.grants)) }
  { s with fab := { s.fab with maps := rec_ :: s.fab.maps.filter (fun m => !(decide (m.part = p) && decide (m.astag = a) && decide (m.va = va))) } }

/-- An accepted copy leaves as a DISPATCH_ROW, or lands here. -/
def sendRow (s : State) (d : Disp) (part : Nat) (row : Src) (c : Copy) (slot : Nat) : State × Nat × LandAns :=
  match d.grants.find? (fun g => decide (g.peer = c.peer) && decide (g.idx = c.idx)) with
  | none => (s, 0, .landed)
  | some g =>
    let i := slot / max 1 g.cap
    let a := landAddr c.idx i (slot % max 1 g.cap) (g.epochs.getD i 0)
    if c.peer = peerId s then
      let (s, r) := landRow s part d.group d.opid a row (tierOver s d.u)
      (s, a, r)
    else
      match connTo s part c.peer with
      | none => (s, a, .nack 0x21)
      | some id =>
        let f := { connFrame s (conn s id) with opcode := 0x13, group := BitVec.ofNat 16 d.group, opid := BitVec.ofNat 16 d.opid, addr := BitVec.ofNat 64 a }
        (sendMsg s id (splitFrames f maxPayload 0 row.bytes row.bad) d.id, a, .landed)

/-- The copies that have not left are sent in turn; one for a target here may fault, ask a handler or wait, and is tried again
(R256, R258). -/
def sendCopies (part : Nat) (f : Fmt) (x : Dp) (src : Src) : List Copy → State → Disp → State × Disp × Act
  | [], s, d => (s, { d with left := [] }, .runs)
  | y :: l, s, d =>
    match d.slotOf y with
    | none => sendCopies part f x src l s d
    | some k =>
      match sendRow s d part (tokenRow f x src y.tok) y k with
      | (s, _, .landed) => sendCopies part f x src l s d
      | (s, _, .nack r) => sendCopies part f x src l s (if d.nack = 0 then { d with nack := r } else d)
      | (s, a, .fault q va cause r) =>
        (if r then s else landRefuse s part d.group d.opid a, { d with left := if r then y :: l else l },
          .faults { va := va, astag := q.astag, cause := cause, write := true, unit := 6, since := s.time } r)
      | (s, _, .ask q va e) => (s, { d with left := y :: l }, .asks q va e)
      | (s, _, .wait ps) => (s, { d with left := y :: l }, .holds (ps.map (fun p => (p.mpa, p.n))))

/-- The rows phase: MAP_VA written, every accepted copy sent (R340). -/
def sendRows (s : State) (d : Disp) (c : Cmd) : State × Disp × Act :=
  let x := dpOf c.bytes
  let part := ctxPart s d.u.e d.u.n
  let q := hubReq s d.u 6 false true
  match tokenFmt x.fmt with
  | none => (s, d, .ends stFormat 0)
  | some f =>
    match reach s q x.src (f.planes x.tokens x.k x.pitch) with
    | (s, .error a) => (s, d, a)
    | (s, .ok ss) =>
      if d.rows then sendCopies part f x (vaSrc s ss) d.left s d
      else
        match reach s q x.route (8 * x.tokens * x.topk) with
        | (s, .error a) => (s, d, a)
        | (s, .ok rs) =>
          match reachOut s d.u 6 x.map_ (8 * x.tokens * x.topk) with
          | (s, .error a) => (s, d, a)
          | (s, .ok ms) =>
            let src := vaSrc s ss
            let s := piecesWrite (piecesTouch s ss) ms (d.mapBytes x (piecesRead s rs))
            let s := noteMap s d.u x.map_ d
            let d := { d with rows := true, accepted := (d.copies.filterMap d.slotOf).length, dropped := d.copies.length - (d.copies.filterMap d.slotOf).length, since := s.time }
            sendCopies part f x src d.copies s d

/-- The end of a DISPATCH. -/
def dispEnd (s : State) (d : Disp) (x : Dp) : State × Act :=
  (dropDisp s d.id, if d.nack = 0 then .ends stOk (d.accepted + d.dropped * 2 ^ 32) else nackAct s d.u 12 x.src d.nack)

/-- A DISPATCH goes on: with every grant here it sends its rows; with every row acknowledged it ends (R341). A host that refuses its
counts ends it. -/
def dispAdvance (s : State) (d : Disp) (c : Cmd) : State × Act :=
  let x := dpOf c.bytes
  if ¬d.rows ∧ d.nack ≠ 0 then dispEnd s d x
  else if ¬d.rows ∧ d.members.any (fun q => !d.granted.elem q) then (s, .runs)
  else if ¬d.rows ∧ d.grants.any (fun g => decide (g.cap = 0) && decide (g.accepted = 1)) then (dropDisp s d.id, .ends stFormat 0)
  else if ¬d.rows ∨ d.left ≠ [] then
    match sendRows s d c with
    | (s, d, .runs) =>
      let s := setDisp s d
      if owes s d.id then (s, .runs) else dispEnd s d x
    | (s, d, a) => (setDisp s d, a)
  else if owes s d.id then (s, .runs)
  else dispEnd s d x

/-- An event moved a DISPATCH on. -/
def dispEvent (s : State) (id : Nat) : State :=
  match disp s id with
  | none => s
  | some d =>
    match spoolCmd s d.u d.slot with
    | none => s
    | some c => if c.phase ≠ .started ∨ c.stall ≠ .none then s else
      match dispAdvance s d c with
      | (s, .runs) | (s, .waits) => s
      | (s, a) => applyAct s s d.u c a

/-- The copies that a routing table asks for. -/
def copiesOf (x : Dp) (route experts : Bytes) : List Copy :=
  (List.range (x.tokens * x.topk)).filterMap (fun i =>
    let e := u16At route (8 * i)
    if e = 0xFFFF then none
    else some { tok := i / x.topk, k := i % x.topk, expert := e, peer := u16At experts (8 * e), idx := u16At experts (8 * e + 2) })

/-- A count taken in at the host. -/
def addCount (s : State) (x : LandCount) : State := { s with fab := { s.fab with counts := s.fab.counts ++ [x] } }

/-- An expert beyond the table, a peer outside the group, or a landing entry here of another token format (R339). -/
def dispRefused (s : State) (x : Dp) (g : Grp) (route : Bytes) (copies : List Copy) : Bool :=
  let localBad (y : Copy) : Bool := decide (y.peer = peerId s) && (match landEntry s y.idx with | some l => decide (l.fmt ≠ x.fmt) | none => false)
  ((List.range (x.tokens * x.topk)).map (fun i => u16At route (8 * i))).any (fun e => decide (e ≠ 0xFFFF) && decide (x.experts ≤ e)) ||
    copies.any (fun y => !g.members.elem y.peer || localBad y)

/-- The members of a group but this module. -/
def Grp.others (g : Grp) (s : State) : List Nat := g.members.filter (fun q => decide (q ≠ peerId s))

/-- A DISPATCH issued (R340): it takes its group's next number, and its counts leave for every member. -/
def dispStart (s : State) (u : SpoolId) (c : Cmd) (g : Grp) (copies : List Copy) : State :=
  let x := dpOf c.bytes
  let p := ctxPart s u.e u.n
  let (k, s) := takeOpid s x.group
  let d : Disp := { id := s.fab.nextOp, u := u, slot := c.slot, group := x.group, opid := k, members := g.members, copies := copies, grants := [], granted := [],
                    rows := false, accepted := 0, dropped := 0, nack := 0, since := s.time }
  let s := { s with fab := { s.fab with nextOp := d.id + 1, disps := s.fab.disps ++ [d] } }
  let s := if g.members.elem (peerId s) then
      addCount s { group := x.group, opid := k, part := p, peer := peerId s, fmt := x.fmt, counts := d.countsAt (peerId s) }
    else s
  (g.others s).foldl (fun s q =>
    match connTo s p q with
    | none => s
    | some id =>
      let f := { connFrame s (conn s id) with opcode := 0x11, group := BitVec.ofNat 16 x.group, opid := BitVec.ofNat 16 k }
      sendMsg s id (splitFrames f maxPayload 0 (countBytes x.fmt (d.countsAt q)) []) d.id) s

/-- A DISPATCH's command while it runs. -/
def dpCmd (c : Cmd) : Cmd := { c with outBase := (dpOf c.bytes).map_, outLen := 8 * (dpOf c.bytes).tokens * (dpOf c.bytes).topk }

/-- A DISPATCH starts (R339, R340): RESOURCE for a group or a connection it has not, TIMEOUT for an unreachable member, FORMAT
under R339, POISON where its routing or its expert table is poisoned; then its counts leave. -/
def dispBody (u : SpoolId) (s : State) (c : Cmd) : State × Cmd × Act :=
  match s.fab.disps.find? (fun d => decide (d.u = u) && decide (d.slot = c.slot)) with
  | some d =>
    let (s, a) := dispAdvance s d c
    (s, c, a)
  | none =>
    let x := dpOf c.bytes
    let p := ctxPart s u.e u.n
    match readGroup s p x.group with
    | (s, .bad) => (s, c, .ends stResource 0)
    | (s, .stop a) => (s, c, a)
    | (s, .ok g) =>
      if (g.others s).any (fun q => (connTo s p q).isNone) then (s, c, .ends stResource 0)
      else if (g.others s).any (unreachable s) then (s, c, .ends stTimeout 0)
      else
        match reach s (hubReq s u 6 false true) x.route (8 * x.tokens * x.topk) with
        | (s, .error a) => (s, c, a)
        | (s, .ok rs) =>
          match reach s (hubReq s u 6 false true) x.expert (8 * x.experts) with
          | (s, .error a) => (s, c, a)
          | (s, .ok es) =>
            let s := piecesTouch (piecesTouch s rs) es
            if piecesPoisoned s (rs ++ es) then (cmdPoison s u c.step (firstPoison s (rs ++ es)), c, .ends stPoison 0)
            else
              let copies := copiesOf x (piecesRead s rs) (piecesRead s es)
              if dispRefused s x g (piecesRead s rs) copies then (s, c, .ends stFormat 0)
              else (dispStart s u c g copies, dpCmd c, .runs)

/-- The DISPATCHes of a spool whose access waited for memory try it again (R206, R271). -/
def resumeDisps (s : State) (u : SpoolId) : State :=
  (s.hub.tierWaits.filter (fun w => decide (w.u = u))).foldl (fun s w =>
    match s.fab.disps.find? (fun d => decide (d.u = u) && decide (d.slot = w.slot)) with
    | some d => dispEvent s d.id
    | none => s) s

/-- DISPATCH (R340); with none to start, those that wait for memory try again. -/
def execDispatch (u : SpoolId) (s : State) : Host.Outcome State Fault Refusal :=
  .next (if nextIs s u (fun b => decide (u8At b 0 = 0x41)) then runCmd s u (fun b => decide (u8At b 0 = 0x41)) dpBad (fun _ => []) (dispBody u) else resumeDisps s u)

/-! ### Counts and grants on the wire -/

/-- DISPATCH_COUNT's message applied on arrival (R340). -/
def applyCount (s : State) (id : Nat) (f : Frame) (fs : List Frame) : State :=
  let b := msgPayload fs
  addCount s { group := f.group.toNat, opid := f.opid.toNat, part := (conn s id).part, peer := (conn s id).peer, fmt := beAt b 0 8,
               counts := (List.range ((b.length - 8) / 8)).map (fun i => (beAt b (8 + 8 * i) 2, beAt b (12 + 8 * i) 4)) }

/-- A grant reaches its source. A landing entry of another token format answers with no capacity and one accepted copy
(R339). -/
def takeGrant (s : State) (part peer group opid : Nat) (g : Option Grant) (last : Bool) : State :=
  match s.fab.disps.find? (fun d => decide (d.group = group) && decide (d.opid = opid) && decide (ctxPart s d.u.e d.u.n = part) && d.members.elem peer) with
  | none => s
  | some d =>
    let d := { d with grants := d.grants ++ g.toList, since := s.time }
    let d := if last ∨ (d.countsAt peer).all (fun c => d.grants.any (fun y => decide (y.peer = peer) && decide (y.idx = c.1))) then { d with granted := peer :: d.granted } else d
    dispEvent (setDisp s d) d.id

/-- A DISPATCH_GRANT's payload, most significant byte first (R11). -/
def grantBytes (g : Grant) : Bytes := natBE 4 g.first ++ natBE 4 g.accepted ++ natBE 4 g.cap ++ natBE 4 0 ++ natBE 8 g.grants ++ g.epochs.flatMap (natBE 2)

/-- DISPATCH_GRANT's message applied on arrival (R340). -/
def applyGrant (s : State) (id : Nat) (f : Frame) (fs : List Frame) : State :=
  let b := msgPayload fs
  let c := conn s id
  let idx := (fs.headD f).addr.toNat
  if idx = 0xFFFF then takeGrant s c.part c.peer f.group.toNat f.opid.toNat none true
  else takeGrant s c.part c.peer f.group.toNat f.opid.toNat
    (some { peer := c.peer, idx := idx, first := beAt b 0 4, accepted := beAt b 4 4, cap := beAt b 8 4, grants := beAt b 16 8,
            epochs := (List.range ((b.length - 24) / 2)).map (fun i => beAt b (24 + 2 * i) 2) }) false

/-- A source's grant for one landing entry, sent to it or taken here. -/
def giveGrant (s : State) (part group opid : Nat) (q : Nat) (g : Option Grant) : State :=
  if q = peerId s then takeGrant s part q group opid g g.isNone
  else
    match connTo s part q with
    | none => s
    | some id =>
      let f := { connFrame s (conn s id) with opcode := 0x12, group := BitVec.ofNat 16 group, opid := BitVec.ofNat 16 opid, addr := BitVec.ofNat 64 ((g.map (fun (x : Grant) => x.idx)).getD 0xFFFF) }
      sendMsg s id [{ f with payload := (g.map grantBytes).getD [] }] 0

/-- The grant that a plan holds for a source. -/
def planGrant (s : State) (p : LandPlan) (grants : Nat) (cs : List LandCount) (run : Nat × Nat × Nat) : Grant :=
  let q := run.1
  match p.ent with
  | none => { peer := peerId s, idx := p.idx, first := 0, accepted := 0, cap := 1, grants := 0, epochs := [] }
  | some x =>
    if cs.any (fun c => decide (c.peer = q) && decide (c.fmt ≠ x.fmt)) then { peer := peerId s, idx := p.idx, first := 0, accepted := 1, cap := 0, grants := 0, epochs := [] }
    else { peer := peerId s, idx := p.idx, first := run.2.1, accepted := run.2.2, cap := x.perTarget, grants := grants,
           epochs := (List.range x.targets).map (targetEpoch s x) }

/-- The host cannot make a grant: the counts are given up, every other source is refused with the cause under a record (R261), and
this module's own DISPATCH faults by itself (R255, R256). -/
def refuseGrant (s : State) (part group opid : Nat) (q : XReq) (va cause : Nat) (replay : Bool) : State :=
  let cs := countsOf s part group opid
  let others := cs.filter (fun c => decide (c.peer ≠ peerId s))
  let own := s.fab.disps.find? (fun d => decide (d.group = group) && decide (d.opid = opid) && decide (ctxPart s d.u.e d.u.n = part))
  let i : FaultInfo := { va := va, astag := q.astag, cause := cause, write := q.write, unit := 8, since := s.time }
  let fail (s : State) (r : Bool) : State :=
    match own.bind (fun d => (spoolCmd s d.u d.slot).map (fun c => (d, c))) with
    | some (d, c) => if c.phase ≠ .started ∨ c.stall ≠ .none then s else applyAct s s d.u c (.faults { i with unit := 6 } r)
    | none => s
  if others = [] ∧ replay then fail s true
  else
    let s := if others = [] then s else putPeerFault s part i
    let s := { s with fab := { s.fab with counts := s.fab.counts.filter (fun c => !(decide (c.part = part) && decide (c.group = group) && decide (c.opid = opid))) } }
    let s := others.foldl (fun s c =>
      match connTo s part c.peer with
      | none => s
      | some id => sendNack s id { connFrame s (conn s id) with opcode := 0x11, group := BitVec.ofNat 16 group, opid := BitVec.ofNat 16 opid } cause) s
    fail s false

/-- The landing entries that the counts of a DISPATCH name, rising. -/
def countIdxs (cs : List LandCount) : List Nat := ((cs.flatMap (fun c => c.counts.map (fun x => x.1))).dedup).mergeSort (fun a b => decide (a ≤ b))

/-- The plans of a DISPATCH carried out (R340): the counts are used up, the landing records are written, the targets are FILLING and each
source has its runs. -/
def grantAll (s : State) (part group opid : Nat) (cs : List LandCount) (g : Grp) (plans : List LandPlan) : State :=
  let s := (countIdxs cs).foldl landTouch s
  let s := { s with fab := { s.fab with counts := s.fab.counts.filter (fun c => !(decide (c.part = part) && decide (c.group = group) && decide (c.opid = opid))) } }
  let (s, gs) := plans.foldl (fun (a : State × List (LandPlan × Nat)) p =>
    let (s, n) := grantEntry a.1 part group opid p
    (s, a.2 ++ [(p, n)])) (s, [])
  let s := gs.foldl (fun s x => x.1.runs.foldl (fun s r => giveGrant s part group opid r.1 (some (planGrant s x.1 x.2 cs r))) s) s
  (g.members.filter (fun q => !plans.any (fun p => p.runs.any (fun r => decide (r.1 = q))))).foldl (fun s q => giveGrant s part group opid q none) s

/-- The grant of a DISPATCH at its host (R340): once every member's counts are here and every target that will receive rows
is EMPTY, its plans are carried out. -/
def landingGrant (s : State) (part group opid : Nat) : State :=
  let cs := countsOf s part group opid
  match readGroup s part group with
  | (_, .bad) => s
  | (s1, .stop (.asks q va e)) => askHub s1 q va e (.group part group)
  | (s1, .stop _) => s1
  | (s1, .ok g) =>
    if g.members.any (fun q => !cs.any (fun c => decide (c.peer = q))) then s
    else
      let plans := (countIdxs cs).map (landPlan s1 cs g.members)
      if ¬plans.all (fun p => p.ready s1) then s
      else
        match plansReach s1 part plans with
        | (s2, some (q, .fault va cause r)) => refuseGrant s2 part group opid q va cause r
        | (s2, some (q, .consult va e)) => askHub s2 q va e (.grant part group opid)
        | (s2, some _) => s2
        | (s2, none) => grantAll s2 part group opid cs g plans

/-- LANDING_GRANT (R340). -/
def execLandingGrant (group opid : BitVec 16) (s : State) : Host.Outcome State Fault Refusal :=
  .next (
    match s.fab.counts.find? (fun c => decide (c.group = group.toNat) && decide (c.opid = opid.toNat)) with
    | none => s
    | some c => landingGrant s c.part group.toNat opid.toNat)

/-! ### COMBINE (R342) -/

/-- The fields of a COMBINE. -/
structure Cb where
  topk   : Nat
  rnd    : Nat
  fmt    : Nat
  texp   : Int
  tokens : Nat
  n      : Nat
  group  : Nat
  pitch  : Nat
  dst    : Nat
  route  : Nat
  expert : Nat
  map_   : Nat
  tensor : Nat
  tile   : Nat

def cbOf (b : Bytes) : Cb :=
  { topk := u8At b 8 % 16, rnd := u8At b 8 / 16 % 4, fmt := u8At b 9, texp := i8At b 10, tokens := u32At b 12, n := u16At b 16, group := u16At b 18,
    pitch := u32At b 20, dst := u64At b 24, route := u64At b 32, expert := u64At b 40, map_ := u64At b 48, tensor := u16At b 56, tile := u32At b 60 }

def cbBad (_ : State) (c : Cmd) : Bool :=
  let x := cbOf c.bytes
  !(decide (u8At c.bytes 8 < 64) && inRange x.topk 1 8 && decide (x.rnd < 3) && decide (u8At c.bytes 9 < 32) && (drainFmt x.fmt).isSome &&
    zeroSpan c.bytes 11 1 && zeroSpan c.bytes 58 2 && inRange x.tokens 1 65536 && inRange x.n 1 32768 && decide (x.texp ≠ -128))

def comb (s : State) (id : Nat) : Option Comb := s.fab.combs.find? (fun d => decide (d.id = id))
def setComb (s : State) (d : Comb) : State := { s with fab := { s.fab with combs := s.fab.combs.map (fun x => if x.id = d.id then d else x) } }
def dropComb (s : State) (id : Nat) : State := dropQueued { s with fab := { s.fab with combs := s.fab.combs.filter (fun d => decide (d.id ≠ id)) } } id

/-- The random bits of an output element (R101). -/
def cbBits (x : Cb) (step r j : Nat) : Nat := srBits step x.tensor (x.tile + r / 128 * cdiv x.n 128 + j / 128) (r % 128) (j % 128)

/-- The gate-weighted sum of a token: each product and each sum rounded, in ascending k (R342); elements of a poisoned row are
NaN (R215). -/
def combTok (x : Cb) (route table map_ : Bytes) (rows : List CombRow) (t : Nat) : List (BitVec 32) :=
  (List.range x.topk).foldl (fun acc k =>
    let i := t * x.topk + k
    let e := u16At map_ (8 * i)
    let slot := u32At map_ (8 * i + 4)
    if slot = 0xFFFFFFFF then acc
    else
      let gate := BitVec.ofNat 32 (u32At route (8 * i + 4))
      let q := u16At table (8 * e)
      let idx := u16At table (8 * e + 2)
      match rows.find? (fun r => decide (r.peer = q) && decide (r.idx = idx) && decide (r.slot = slot)) with
      | none => acc
      | some r => (List.range x.n).map (fun j => f32Add (acc.getD j 0) (f32Mul gate (if r.bad then f32Nan else r.vals.getD j 0)))) (List.replicate x.n 0)

/-- The tables of a COMBINE: routing, experts, map. -/
def combTables (s : State) (u : SpoolId) (x : Cb) : State × Except Act (List Piece × List Piece × List Piece) :=
  let q := hubReq s u 6 false true
  match reach s q x.route (8 * x.tokens * x.topk) with
  | (s, .error a) => (s, .error a)
  | (s, .ok rs) =>
    match reach s q x.map_ (8 * x.tokens * x.topk) with
    | (s, .error a) => (s, .error a)
    | (s, .ok ms) =>
      let m := piecesRead s ms
      let top := (List.range (x.tokens * x.topk)).foldl (fun t i => if u32At m (8 * i + 4) = 0xFFFFFFFF then t else max t (u16At m (8 * i) + 1)) 0
      match reach s q x.expert (8 * top) with
      | (s, .error a) => (s, .error a)
      | (s, .ok es) => (s, .ok (rs, es, ms))

/-- A COMBINE goes on: with every row here it writes its sums and ends. -/
def combAdvance (s : State) (d : Comb) (c : Cmd) : State × Act :=
  let x := cbOf c.bytes
  if d.nack ≠ 0 then (dropComb s d.id, nackAct s d.u 12 x.map_ d.nack)
  else if d.need.any (fun y => !d.rows.any (fun r => decide (r.peer = y.1) && decide (r.idx = y.2.1) && decide (r.slot = y.2.2))) then (s, .runs)
  else
    match drainFmt x.fmt, combTables s d.u x with
    | some f, (s, .ok (rs, es, ms)) =>
      match reachOut s d.u 6 x.dst (f.planes x.tokens x.n x.pitch) with
      | (s, .error a) => (s, a)
      | (s, .ok ps) =>
        let route := piecesRead s rs
        let table := piecesRead s es
        let m := piecesRead s ms
        let qs := (List.range x.tokens).map (fun t => quantRow f x.rnd x.texp (combTok x route table m d.rows t) (cbBits x c.step t))
        let s := putAll s (.pieces ps) (outWrites f false x.tokens x.n 0 x.pitch qs)
        let s := dropComb s d.id
        if d.rows.any (fun r => r.bad) then (raisePennant s (ctxPart s d.u.e d.u.n) c.step 6, .ends stPoison 0) else (s, .ends stOk 0)
    | none, (s, _) => (dropComb s d.id, .ends stFormat 0)
    | _, (s, .error .waits) => (s, .runs)
    | _, (s, .error a) => (s, a)

def combEvent (s : State) (id : Nat) : State :=
  match comb s id with
  | none => s
  | some d =>
    match spoolCmd s d.u d.slot with
    | none => s
    | some c => if c.phase ≠ .started ∨ c.stall ≠ .none then s else
      match combAdvance s d c with
      | (s, .runs) | (s, .waits) => s
      | (s, a) => applyAct s s d.u c a

/-- The slots that a COMBINE needs: peer, landing entry, slot; each once. -/
def combNeed (x : Cb) (table map_ : Bytes) : List (Nat × Nat × Nat) :=
  ((List.range (x.tokens * x.topk)).filterMap (fun i =>
    let e := u16At map_ (8 * i)
    let slot := u32At map_ (8 * i + 4)
    if slot = 0xFFFFFFFF then none else some (u16At table (8 * e), u16At table (8 * e + 2), slot))).dedup

/-- The request for a run of slots of a landing entry (R342). -/
structure RunReq where
  peer  : Nat
  idx   : Nat
  first : Nat
  count : Nat
  need  : Nat

/-- The runs of a COMBINE: one per landing entry it used, with the GRANTS value of its pairing DISPATCH; without a record of
that DISPATCH the host serves at once (DESIGN CHOICE, log 33). -/
def combRuns (s : State) (u : SpoolId) (x : Cb) (need : List (Nat × Nat × Nat)) : List RunReq :=
  let m := (s.fab.maps.find? (fun m => decide (m.part = ctxPart s u.e u.n) && decide (m.astag = ctxAstag s u.e u.n) && decide (m.va = x.map_))).map (fun m => m.grants)
  ((need.map (fun y => (y.1, y.2.1))).dedup).map (fun k =>
    let slots := (need.filter (fun y => decide (y.1 = k.1) && decide (y.2.1 = k.2))).map (fun y => y.2.2)
    let lo := slots.foldl min (slots.headD 0)
    let hi := slots.foldl max 0
    { peer := k.1, idx := k.2, first := lo, count := hi + 1 - lo
      need := (((m.getD []).find? (fun g => decide (g.1 = k.1) && decide (g.2.1 = k.2))).map (fun g => g.2.2)).getD 0 })

/-- A COMBINE issued (R342): it takes its group's next number, and its requests leave. -/
def combStart (s : State) (u : SpoolId) (c : Cmd) (need : List (Nat × Nat × Nat)) (runs : List RunReq) : State × Comb :=
  let x := cbOf c.bytes
  let p := ctxPart s u.e u.n
  let (k, s) := takeOpid s x.group
  let d : Comb := { id := s.fab.nextOp, u := u, slot := c.slot, group := x.group, opid := k, need := need, rows := [], nack := 0, since := s.time }
  let s := { s with fab := { s.fab with nextOp := d.id + 1, combs := s.fab.combs ++ [d] } }
  (runs.foldl (fun s r =>
    if r.peer = peerId s then
      { s with fab := { s.fab with nextOp := s.fab.nextOp + 1, combQ := s.fab.combQ ++ [{ id := s.fab.nextOp, conn := none, part := p, group := x.group, opid := k, idx := r.idx, first := r.first, count := r.count, need := r.need, n := x.n }] } }
    else
      match connTo s p r.peer with
      | none => s
      | some id =>
        let f := { connFrame s (conn s id) with opcode := 0x14, group := BitVec.ofNat 16 x.group, opid := BitVec.ofNat 16 k, addr := BitVec.ofNat 64 r.idx }
        sendMsg s id [{ f with payload := natBE 4 r.first ++ natBE 4 r.count ++ natBE 8 r.need ++ natBE 4 x.n }] d.id) s, d)

/-- A COMBINE's command while it runs. -/
def cbCmd (c : Cmd) : Cmd :=
  let x := cbOf c.bytes
  { c with outBase := x.dst, outLen := ((drainFmt x.fmt).map (fun f => f.planes x.tokens x.n x.pitch)).getD 0 }

/-- The other peers that a COMBINE asks. -/
def runPeers (s : State) (runs : List RunReq) : List Nat := (runs.map (fun r => r.peer)).filter (fun q => decide (q ≠ peerId s))

/-- A COMBINE starts (R331, R342). -/
def combBody (u : SpoolId) (s : State) (c : Cmd) : State × Cmd × Act :=
  match s.fab.combs.find? (fun d => decide (d.u = u) && decide (d.slot = c.slot)) with
  | some d =>
    let (s, a) := combAdvance s d c
    (s, c, a)
  | none =>
    let x := cbOf c.bytes
    let p := ctxPart s u.e u.n
    match readGroup s p x.group with
    | (s, .bad) => (s, c, .ends stResource 0)
    | (s, .stop a) => (s, c, a)
    | (s, .ok _) =>
      match combTables s u x with
      | (s, .error a) => (s, c, a)
      | (s, .ok (rs, es, ms)) =>
        let s := piecesTouch (piecesTouch (piecesTouch s rs) es) ms
        if piecesPoisoned s (rs ++ es ++ ms) then (cmdPoison s u c.step (firstPoison s (rs ++ es ++ ms)), c, .ends stPoison 0)
        else
          let need := combNeed x (piecesRead s es) (piecesRead s ms)
          let runs := combRuns s u x need
          if (runPeers s runs).any (fun q => (connTo s p q).isNone) then (s, c, .ends stResource 0)
          else if (runPeers s runs).any (unreachable s) then (s, c, .ends stTimeout 0)
          else
            let (s, d) := combStart s u c need runs
            let (s, a) := combAdvance s d (cbCmd c)
            (s, cbCmd c, a)

/-- The COMBINEs of a spool whose access waited for memory try it again (R206, R271). -/
def resumeCombs (s : State) (u : SpoolId) : State :=
  (s.hub.tierWaits.filter (fun w => decide (w.u = u))).foldl (fun s w =>
    match s.fab.combs.find? (fun d => decide (d.u = u) && decide (d.slot = w.slot)) with
    | some d => combEvent s d.id
    | none => s) s

/-- COMBINE (R342); with none to start, those that wait for memory try again. -/
def execCombine (u : SpoolId) (s : State) : Host.Outcome State Fault Refusal :=
  .next (if nextIs s u (fun b => decide (u8At b 0 = 0x42)) then runCmd s u (fun b => decide (u8At b 0 = 0x42)) cbBad (fun _ => []) (combBody u) else resumeCombs s u)

/-- COMBINE_REQ applied on arrival: it is held (R342). -/
def applyCombReq (s : State) (id : Nat) (f : Frame) : State :=
  let b := f.payload
  { s with fab := { s.fab with nextOp := s.fab.nextOp + 1, combQ := s.fab.combQ ++ [{ id := s.fab.nextOp, conn := some id, part := (conn s id).part, group := f.group.toNat, opid := f.opid.toNat,
                                                                                       idx := f.addr.toNat, first := beAt b 0 4, count := beAt b 4 4, need := beAt b 8 8, n := beAt b 16 4 }] } }

/-- A row reaches its COMBINE. -/
def takeRow (s : State) (part group opid : Nat) (r : CombRow) : State :=
  match s.fab.combs.find? (fun d => decide (d.group = group) && decide (d.opid = opid) && decide (ctxPart s d.u.e d.u.n = part)) with
  | none => s
  | some d => combEvent (setComb s { d with rows := d.rows ++ [r], since := s.time }) d.id

/-- The values of an expert output row. -/
def outVals (f : Fmt) (n : Nat) (row : Bytes) : List (BitVec 32) := (List.range n).map (fun j => f32Of (f.dec (codeAt row (j * f.w) f.w) 0 0))

/-- COMBINE_RESP's message applied on arrival (R342). -/
def applyCombResp (s : State) (id : Nat) (f : Frame) (fs : List Frame) : State :=
  let b := msgPayload fs
  match fmtOf (u32At b 4) with
  | none => s
  | some o => takeRow s (conn s id).part f.group.toNat f.opid.toNat
      { peer := (conn s id).peer, idx := (fs.headD f).addr.toNat, slot := u32At b 0, vals := outVals o ((b.length - 8) * 8 / o.w) (b.drop 8), bad := !(msgBad fs).isEmpty }

/-- A host's refusal of a COMBINE. -/
def combNack (s : State) (q : CombReq) (reason : Nat) : State :=
  match q.conn with
  | some id => sendNack s id { connFrame s (conn s id) with opcode := 0x14, group := BitVec.ofNat 16 q.group, opid := BitVec.ofNat 16 q.opid, addr := BitVec.ofNat 64 q.idx } reason
  | none =>
    match s.fab.combs.find? (fun d => decide (d.group = q.group) && decide (d.opid = q.opid) && decide (ctxPart s d.u.e d.u.n = q.part)) with
    | none => s
    | some d => combEvent (setComb s { d with nack := reason }) d.id

/-- One row returned. -/
def returnRow (s : State) (q : CombReq) (x : LandEnt) (slot : Nat) (row : Src) : State :=
  match q.conn with
  | none => takeRow s q.part q.group q.opid { peer := peerId s, idx := q.idx, slot := slot, vals := outVals x.out q.n row.bytes, bad := !row.bad.isEmpty }
  | some id =>
    let f := { connFrame s (conn s id) with opcode := 0x15, group := BitVec.ofNat 16 q.group, opid := BitVec.ofNat 16 q.opid, addr := BitVec.ofNat 64 q.idx }
    let data := natLE 4 slot ++ natLE 4 (if x.out.w = 32 then 0 else 2) ++ row.bytes
    sendMsg s id (splitFrames f maxPayload 0 data (row.bad.map (fun b => (b.1 + 8, b.2)))) 0

/-- The command of this module's own COMBINE that a held request belongs to. -/
def ownComb (s : State) (q : CombReq) : Option (SpoolId × Cmd) :=
  match q.conn with
  | some _ => none
  | none =>
    (s.fab.combs.find? (fun d => decide (d.group = q.group) && decide (d.opid = q.opid) && decide (ctxPart s d.u.e d.u.n = q.part))).bind
      (fun d => (spoolCmd s d.u d.slot).map (fun c => (d.u, c)))

/-- A held request leaves the host. -/
def dropReq (s : State) (q : CombReq) : State := { s with fab := { s.fab with combQ := s.fab.combQ.filter (fun y => decide (y.id ≠ q.id)) } }

/-- The service of a request faults: another peer's is refused with the cause under a record of the partition's ring (R261); this
module's own COMBINE faults (R255, R256). -/
def combFault (s : State) (q : CombReq) (astag va cause : Nat) (replay : Bool) : State :=
  let i : FaultInfo := { va := va, astag := astag, cause := cause, write := false, unit := 8, since := s.time }
  match q.conn, ownComb s q with
  | some _, _ => combNack (dropReq (putPeerFault s q.part i) q) q cause
  | none, some (u, c) => applyAct s (if replay then s else dropReq s q) u c (.faults { i with unit := 6 } replay)
  | none, none => dropReq s q

/-- Bytes of an expert output row that a request asks for, and of all its rows from the first on. -/
def combWidth (q : CombReq) (x : LandEnt) : Nat := q.n * x.out.w / 8
def combSpan (q : CombReq) (x : LandEnt) : Nat := (q.count - 1) * x.outPitch + combWidth q x

/-- The rows that a held request asks for, read at their pieces and returned (R342). -/
def combReturn (s : State) (q : CombReq) (x : LandEnt) (ps : List Piece) : State :=
  let src := vaSrc s ps
  let s := bump (dropReq (piecesTouch s ps) q) rCombineRows fCombineRows q.count
  (List.range q.count).foldl (fun s i => returnRow s q x (q.first + i) (src.cut (i * x.outPitch) (combWidth q x))) s

/-- A held request served once the U64 at DONE_VA has reached its GRANTS value (R342). One of this module's own COMBINEs waits while
that is stalled (R258). -/
def combServe (s : State) (q : CombReq) : State :=
  match landEntry s q.idx with
  | none => combNack (dropReq s q) q fRefused
  | some x =>
    let r := landReq s q.part x.astag false
    if (ownComb s q).any (fun y => decide (y.2.phase ≠ .started) || decide (y.2.stall ≠ .none)) then s
    else
    match xlate (landTouch s q.idx) r x.doneVa 8 with
    | (s, .fault va cause p) => combFault s q x.astag va cause p
    | (s, .consult va e) => askHub s r va e (.comb q.id)
    | (s, .wait _) => s
    | (s, .ok ds) =>
      if leNat (piecesRead s ds) < q.need then s
      else
        match xlate s r (x.outVa + q.first * x.outPitch) (combSpan q x) with
        | (s, .fault va cause p) => combFault s q x.astag va cause p
        | (s, .consult va e) => askHub s r va e (.comb q.id)
        | (s, .wait _) => s
        | (s, .ok ps) => combReturn s q x ps

/-- COMBINE_SERVE (R342). -/
def execCombineServe (id : Nat) (s : State) : Host.Outcome State Fault Refusal :=
  .next (
    match s.fab.combQ.find? (fun q => decide (q.id = id)) with
    | none => s
    | some q => combServe s q)

end Sys2Proof.Machine
end

