-- ==== Sys2Proof/Machine/Receive.lean ====
section
/-! DEFINITION. Frames that arrive (R314, R320, R321, R325 to R329): what is dropped, what waits, what is applied; the
acknowledgements and refusals that come back to a sender; and the timers of the transport and of the operations (R329, R330,
R334). -/

namespace Sys2Proof.Machine

open Sys2Proof

/-! ### Admission -/

/-- The opcodes of the Ehrant messages (R315). -/
def frameOpcodes : List Nat := [0x01, 0x02, 0x03, 0x04, 0x05, 0x06, 0x10, 0x11, 0x12, 0x13, 0x14, 0x15, 0x20, 0x21, 0x30, 0x31, 0x32]

/-- A reserved class, or a reserved opcode in a class whose frames are messages (R314, R315). -/
def badFrame (f : Frame) : Bool := decide (4 < f.cls.toNat) || (decide (f.cls.toNat < 3) && !frameOpcodes.elem f.opcode.toNat)

/-- The record of a parity error that the receive path finds in a frame (R390, R400). -/
def frameParity (s : State) (f : Frame) : State :=
  if ¬f.hurtField ∧ f.hurt = [] then s else logError s { addr := 0, src := 11, sev := 1, typ := 1, unit := f.plane, die := 10 } none

/-- The part of every arrival before its connection is looked at (R314, R318, R326, R432): the module takes Ehrant traffic, the
port is UP, the link layer hands the frame on, its class and opcode are known and its ICRC holds. A parity error in its header, or in a
payload that is not a message's, refuses it (R390; DESIGN CHOICE: it is not taken in, log 137). -/
def takeIn (s : State) (f : Frame) : State × Bool :=
  if ¬s.fab.ready ∨ portState s f.plane ≠ 2 then (s, false)
  else
    match linkReceive s f with
    | (s, false) => (s, false)
    | (s, true) =>
      if badFrame f then (bump s rBadFrame fBadFrame 1, false)
      else if ¬f.icrcOk then (bump s rIcrcErr fIcrcErr 1, false)
      else if f.hurtField ∨ (f.hurt ≠ [] ∧ 3 ≤ f.cls.toNat) then (frameParity s f, false)
      else (sawPeer (frameParity s f) f.srcPeer.toNat, true)

/-- The connection a frame names: open, and its GCM tag verified where the connection is encrypted (R325, R326). A frame whose
ENC bit is not its connection's counts as one whose tag fails (DESIGN CHOICE, log 24). -/
def admitConn (s : State) (f : Frame) : State × Bool :=
  let c := conn s f.conn.toNat
  if ¬c.open_ then (nackNoConn s f, false)
  else if c.enc ≠ f.enc ∨ (f.enc ∧ ¬f.gcmOk) then (bump s rGcmFail fGcmFail 1, false)
  else (s, true)

/-- The peer is in the module's domain (R327). -/
def inDomain (s : State) (q : Nat) : Bool := decide (q / 2 ^ 14 = peerId s / 2 ^ 14)

/-! ### Application (R320) -/

/-- What a frame does when it arrives, whatever its order. -/
def applyFrame (s : State) (id : Nat) (f : Frame) : State × Applied :=
  match f.opcode.toNat with
  | 0x01 | 0x02 | 0x04 => applyMem s id f
  | 0x03 | 0x05 => (applyResp s id f, .done)
  | 0x06 => applySend s id f
  | 0x10 => (applyColl s id f, .done)
  | 0x13 => applyRow s id f
  | _ => (s, .done)

/-- What a message does once every frame of it is here. -/
def applyWhole (s : State) (id : Nat) (f : Frame) (fs : List Frame) : State :=
  match f.opcode.toNat with
  | 0x06 => wholeSend s id f
  | 0x11 => applyCount s id f fs
  | 0x12 => applyGrant s id f fs
  | 0x14 => applyCombReq s id f
  | 0x15 => applyCombResp s id f fs
  | _ => s

/-- PSNs applied in order leave the bitmap. -/
def slidePsn (c : Conn) : Nat → Conn
  | 0 => c
  | k + 1 => if c.arrived.elem c.recvPsn then slidePsn { c with recvPsn := (c.recvPsn + 1) % 2 ^ 24, arrived := c.arrived.filter (fun p => decide (p ≠ c.recvPsn)) } k else c

/-- The PSN of an applied packet noted. -/
def markPsn (s : State) (id : Nat) (f : Frame) : State :=
  let c := conn s id
  setConn s id (slidePsn { c with arrived := c.arrived ++ [f.psn.toNat], parts := c.parts ++ [f] } (c.arrived.length + 1))

/-- A message whose frames are all here is complete (R320). -/
def settleMsg (s : State) (id : Nat) (f : Frame) : State :=
  match wholeMsg (conn s id).parts f with
  | none => s
  | some fs =>
    let c := conn s id
    applyWhole (setConn s id { c with parts := c.parts.filter (fun g => !fs.any (fun h => decide (h.psn = g.psn))) }) id f fs

/-- An applied packet: its PSN is noted, its arrival where that has not been, and its message completed where it is whole (R320,
R321). -/
def noteApplied (s : State) (id : Nat) (f : Frame) (late : Bool) : State :=
  let s := markPsn s id f
  settleMsg (if late then s else noteArrival s id f.ce) id f

/-- The place of a PSN against the window: behind it, in it, or beyond it. -/
def psnAhead (c : Conn) (f : Frame) : Nat := (f.psn.toNat + 2 ^ 24 - c.recvPsn) % 2 ^ 24

/-- A packet applied now (R320, R327). One that awaits a handler or memory has arrived (R321); one answered with BUSY has not, and
comes again (R329). A SEND whose arrival was acknowledged before (`late`) waits here for its bobbin instead (DESIGN CHOICE,
log 122). -/
def applyNow (s : State) (id : Nat) (f : Frame) (late : Bool) : State :=
  if f.opcode ≠ 0x06 ∧ ¬inDomain s f.srcPeer.toNat then noteApplied (sendNack s id f 0x22) id { f with opcode := 0 } late
  else if late ∧ f.opcode = 0x06 ∧ sendVerdict s id f = 0x23 then { s with fab := { s.fab with held := s.fab.held ++ [(id, f)] } }
  else
    match applyFrame s id f with
    | (s, .done) | (s, .refused) => noteApplied s id f late
    | (s, .busy) => s
    | (s, .asked) | (s, .held) => if late then s else noteArrival s id f.ce

/-- A packet with a PSN (R320): a duplicate is acknowledged again and discarded, one beyond the window discarded; a FENCE packet
waits for every lower PSN, its arrival noted. -/
def deliver (s : State) (id : Nat) (f : Frame) : State :=
  let c := conn s id
  let d := psnAhead c f
  if 2 ^ 23 ≤ d ∨ (arrivedPsns s id).elem f.psn.toNat then noteArrival s id f.ce
  else if 2 ^ c.winLog2 ≤ d then s
  else if f.fence ∧ d ≠ 0 then noteArrival (setConn s id { c with fenced := c.fenced ++ [f] }) id f.ce
  else applyNow s id f false

/-- FENCE packets whose lower PSNs have all been applied. -/
def deliverFenced (s : State) (id : Nat) : Nat → State
  | 0 => s
  | k + 1 =>
    let c := conn s id
    match c.fenced.find? (fun f => decide (f.psn.toNat = c.recvPsn)) with
    | none => s
    | some f => deliverFenced (applyNow (setConn s id { c with fenced := c.fenced.filter (fun g => decide (g.psn ≠ f.psn)) }) id f true) id k

/-- A packet that waited applied again, then the FENCE packets behind it. -/
def applyLate (s : State) (id : Nat) (f : Frame) : State :=
  let s := applyNow s id f true
  deliverFenced s id (conn s id).fenced.length

/-- The packets that wait for memory, or for their bobbin, try again (R206, R271; DESIGN CHOICE of when, log 22). -/
def retryHeld (s : State) : State :=
  s.fab.held.foldl (fun s x => applyLate s x.1 x.2) { s with fab := { s.fab with held := [] } }

/-- A packet delivered, then the FENCE packets behind it. -/
def deliverAll (s : State) (id : Nat) (f : Frame) : State :=
  let s := deliver s id f
  deliverFenced s id (conn s id).fenced.length

/-- A packet for a connection: it waits where the context is being fetched (R325). Payload with a parity error is poisoned (R390). -/
def arrive (s : State) (f : Frame) : State :=
  let f := { f with bad := f.bad ++ f.hurt, hurt := [] }
  let id := f.conn.toNat
  match admitConn s f with
  | (s, false) => s
  | (s, true) =>
    match useCtx s id with
    | (s, true) => deliverAll s id f
    | (s, false) => setConn s id { conn s id with waiting := (conn s id).waiting ++ [f] }

/-- A frame of one opcode arrives; what waits tries again first. A frame of another known opcode is not this row's. -/
def receive (s : State) (f : Frame) (opcode : Nat) : State :=
  if (f.opcode.toNat ≠ opcode ∨ 2 < f.cls.toNat) ∧ ¬badFrame f then s
  else
    match takeIn s f with
    | (s, false) => s
    | (s, true) => arrive (retryHeld s) f

/-- ACK_TIMER (R321): arrivals are acknowledged. -/
def execAckTimer (c : BitVec 16) (s : State) : Host.Outcome State Fault Refusal :=
  let s := retryHeld s
  .next (if (conn s c.toNat).open_ ∧ 0 < (conn s c.toNat).ackDue then sendAck s c.toNat else s)

/-- WRITE (R328). -/
def execWrite (f : Frame) (s : State) : Host.Outcome State Fault Refusal := .next (receive s f 0x01)
/-- READ_REQ (R328). -/
def execReadReq (f : Frame) (s : State) : Host.Outcome State Fault Refusal := .next (receive s f 0x02)
/-- READ_RESP (R334). -/
def execReadResp (f : Frame) (s : State) : Host.Outcome State Fault Refusal := .next (receive s f 0x03)
/-- ATOMIC_REQ (R328). -/
def execAtomicReq (f : Frame) (s : State) : Host.Outcome State Fault Refusal := .next (receive s f 0x04)
/-- ATOMIC_RESP (R334). -/
def execAtomicResp (f : Frame) (s : State) : Host.Outcome State Fault Refusal := .next (receive s f 0x05)
/-- SEND (R329). -/
def execSend (f : Frame) (s : State) : Host.Outcome State Fault Refusal := .next (receive s f 0x06)
/-- COLL_DATA (R333). -/
def execCollData (f : Frame) (s : State) : Host.Outcome State Fault Refusal := .next (receive s f 0x10)
/-- DISPATCH_COUNT (R340). -/
def execDispatchCount (f : Frame) (s : State) : Host.Outcome State Fault Refusal := .next (receive s f 0x11)
/-- DISPATCH_GRANT (R340). -/
def execDispatchGrant (f : Frame) (s : State) : Host.Outcome State Fault Refusal := .next (receive s f 0x12)
/-- DISPATCH_ROW (R341). -/
def execDispatchRow (f : Frame) (s : State) : Host.Outcome State Fault Refusal := .next (receive s f 0x13)
/-- COMBINE_REQ (R342). -/
def execCombineReq (f : Frame) (s : State) : Host.Outcome State Fault Refusal := .next (receive s f 0x14)
/-- COMBINE_RESP (R342). -/
def execCombineResp (f : Frame) (s : State) : Host.Outcome State Fault Refusal := .next (receive s f 0x15)

/-! ### What comes back to a sender -/

/-- An event for whatever an identity of the hub names. -/
def ownerEvent (s : State) (id : Nat) : State := if id = 0 then s else combEvent (dispEvent (opEvent s id) id) id

/-- Progress of an operation (R334). -/
def touchOwner (s : State) (id : Nat) : State :=
  { s with fab := { s.fab with
    ops := s.fab.ops.map (fun o => if o.id = id then { o with since := s.time } else o),
    disps := s.fab.disps.map (fun o => if o.id = id then { o with since := s.time } else o),
    combs := s.fab.combs.map (fun o => if o.id = id then { o with since := s.time } else o) } }

/-- ACK (R321 to R323, R334): the packets it acknowledges leave the window; their operations go on. -/
def execAck (f : Frame) (s : State) : Host.Outcome State Fault Refusal :=
  .next (
    if f.cls ≠ 3 ∨ f.opcode = 0x31 then s
    else
      match takeIn s f with
      | (s, false) => s
      | (s, true) =>
        let id := f.conn.toNat
        if ¬(conn s id).open_ then s
        else
          let owners := (((conn s id).inflight.filter (fun x => ackCovers f x.frame.psn.toNat)).map (fun x => x.owner)).dedup
          owners.foldl (fun s o => ownerEvent (touchOwner s o) o) (transportAck s id f))

/-- An operation of the hub ends with a status. -/
def failOp (s : State) (o : FabOp) (a : Act) : State :=
  match spoolCmd s o.u o.slot with
  | none => dropOp s o.id
  | some c => if c.phase = .ended then dropOp s o.id else applyAct s (dropOp s o.id) o.u c a
def failDisp (s : State) (d : Disp) (a : Act) : State :=
  match spoolCmd s d.u d.slot with
  | none => dropDisp s d.id
  | some c => if c.phase = .ended then dropDisp s d.id else applyAct s (dropDisp s d.id) d.u c a
def failComb (s : State) (d : Comb) (a : Act) : State :=
  match spoolCmd s d.u d.slot with
  | none => dropComb s d.id
  | some c => if c.phase = .ended then dropComb s d.id else applyAct s (dropComb s d.id) d.u c a

/-- The all-gather of a hank fails (R303). -/
def failGather (s : State) (id : Nat) : State :=
  { s with jobs := s.jobs.map (fun x => (x.1, { x.2 with gather := x.2.gather.map (fun g => if g.1 = id then (g.1, false) else g) })) }

/-- A refusal reaches the operation it belongs to (R328, R329): a command of its own ends; a DISPATCH ends with its last row
(R341). -/
def nackOwner (s : State) (id va reason : Nat) : State :=
  match fabOp s id, disp s id, comb s id with
  | some o, _, _ => failOp s o (nackAct s o.u o.op (match spoolCmd s o.u o.slot with | some c => u64At c.bytes 32 % 2 ^ 48 | none => va) reason)
  | _, some d, _ => dispEvent (setDisp s (if d.nack = 0 then { d with nack := reason } else d)) id
  | _, _, some d => combEvent (setComb s { d with nack := reason }) id
  | none, none, none => failGather s id

/-- The connection that a NACK speaks of: its own, or for NO_CONTEXT the one whose remote end it names. -/
def nackConn (s : State) (f : Frame) : Option Nat :=
  if f.reason = 0x21 then (s.fab.conns.find? (fun x => x.2.open_ && decide (x.2.remote = f.conn.toNat) && decide (x.2.peer = f.srcPeer.toNat))).map (fun x => x.1)
  else if (conn s f.conn.toNat).open_ then some f.conn.toNat else none

/-- A refusal of a packet that an ACK has covered: it reaches the operation that its opcode, group and number name, where that still
runs (DESIGN CHOICE, log 122). -/
def nackNamed (s : State) (id : Nat) (f : Frame) : State :=
  let q := (conn s id).peer
  match f.opcode.toNat with
  | 0x14 =>
    (match s.fab.combs.find? (fun d => decide (d.group = f.group.toNat) && decide (d.opid = f.opid.toNat)) with
    | some d => nackOwner s d.id 0 f.reason.toNat
    | none => s)
  | 0x11 | 0x13 =>
    (match s.fab.disps.find? (fun d => decide (d.group = f.group.toNat) && decide (d.opid = f.opid.toNat) && d.members.elem q) with
    | some d => nackOwner s d.id 0 f.reason.toNat
    | none => s)
  | 0x01 | 0x02 | 0x04 | 0x06 =>
    (match s.fab.ops.find? (fun o => decide (8 ≤ o.op) && decide (o.id % 65536 = f.opid.toNat) && decide (o.peer = q)) with
    | some o => nackOwner s o.id f.addr.toNat f.reason.toNat
    | none => s)
  | _ => s

/-- NACK (R325, R327 to R329): BUSY is tried again after 10 µs; any other reason ends what the packet belonged to. -/
def execNack (f : Frame) (s : State) : Host.Outcome State Fault Refusal :=
  .next (
    if f.cls ≠ 4 then s
    else
      match takeIn s f with
      | (s, false) => s
      | (s, true) =>
        match nackConn s f with
        | none => s
        | some id =>
          let c := conn s id
          match c.inflight.find? (fun x => decide (x.frame.psn = f.psn) && decide (x.frame.opcode = f.opcode)) with
          | some x =>
            if f.reason = 0x23 then
              if s.fab.retries.any (fun r => decide (r.conn = id) && decide (r.psn = f.psn.toNat)) then s
              else { s with fab := { s.fab with nextOp := s.fab.nextOp + 1, retries := s.fab.retries ++ [{ id := s.fab.nextOp, conn := id, psn := f.psn.toNat, since := s.time }] } }
            else
              let s := settlePkt (setConn s id { c with inflight := c.inflight.filter (fun y => decide (y.frame.psn ≠ f.psn)) }) id false x
              let s := nackOwner s x.owner f.addr.toNat f.reason.toNat
              finishClose (pump s id) id
          | none => if f.reason = 0x23 then s else nackNamed s id f)

/-- SEND_RETRY (R329): 10 µs after BUSY the packet goes again. -/
def execSendRetry (id : Nat) (s : State) : Host.Outcome State Fault Refusal :=
  .next (
    match s.fab.retries.find? (fun r => decide (r.id = id)) with
    | none => s
    | some r =>
      if s.time < r.since + 10000 then s
      else retransmit { s with fab := { s.fab with retries := s.fab.retries.filter (fun x => decide (x.id ≠ id)) } } r.conn r.psn)

/-- CONTEXT_FETCH (R325): the context is cached; what waited for it proceeds. -/
def execContextFetch (c : BitVec 16) (s : State) : Host.Outcome State Fault Refusal :=
  .next (
    let id := c.toNat
    if ¬(conn s id).fetching then s
    else
      match cacheCtx s id with
      | none => s
      | some s =>
        let w := (conn s id).waiting
        let s := setConn s id { conn s id with fetching := false, waiting := [] }
        pump (w.foldl (fun s f => deliverAll s id f) s) id)

/-! ### Answers of a consult handler to a peer's request (R252, R261) -/

/-- What awaits a consult request leaves it. -/
def unasked (s : State) (k : Nat) : State :=
  { s with fab := { s.fab with asked := s.fab.asked.filter (fun x => decide (x.1 ≠ k)), asks := s.fab.asks.filter (fun x => decide (x.1 ≠ k)) } }

/-- An access of the hub's own tried again. -/
def askAgain (s : State) : HubAsk → State
  | .comb id => (match s.fab.combQ.find? (fun q => decide (q.id = id)) with
    | some q => combServe s q
    | none => s)
  | .grant part group opid => landingGrant s part group opid
  | .group part gid => (s.fab.counts.filter (fun c => decide (c.part = part) && decide (c.group = gid))).foldl (fun s c => landingGrant s part gid c.opid) s

/-- The answer came: the frames and the hub's own accesses that await it are made again. -/
def answerAsked (s : State) (k : Nat) : State :=
  let l := s.fab.asked.filter (fun x => decide (x.1 = k))
  let h := s.fab.asks.filter (fun x => decide (x.1 = k))
  h.foldl (fun s x => askAgain s x.2) (l.foldl (fun s x => applyLate s x.2.1 x.2.2) (unasked s k))

/-- A frame that awaited an answer is refused with a cause; a row counts against its target (R341). -/
def nackFrame (s : State) (id : Nat) (f : Frame) (cause : Nat) : State :=
  let row := ((wholeMsg ((conn s id).parts ++ [f]) f).getD [f]).headD f
  let s := if f.opcode = 0x13 then landRefuse s (conn s id).part f.group.toNat f.opid.toNat row.addr.toNat else s
  noteApplied (sendNack s id f cause) id { f with opcode := if f.opcode = 0x13 then f.opcode else 0 } true

/-- An access of the hub's own faults (R256, R261). -/
def askFault (s : State) (r : XlateReq) (cause : Nat) (replay : Bool) : HubAsk → State
  | .comb id => (match s.fab.combQ.find? (fun q => decide (q.id = id)) with
    | some q => combFault s q r.astag.toNat r.va.toNat cause replay
    | none => s)
  | .grant part group opid => refuseGrant s part group opid (landReq s part r.astag.toNat true) r.va.toNat cause replay
  | .group .. => s

/-- What awaits an answer faults: the frames are refused with the cause under one record of the partition's ring (R261); an access
of the hub's own faults by itself. -/
def nackAsked (s : State) (k : Nat) (r : XlateReq) (cause : Nat) (replay : Bool) : State :=
  let l := s.fab.asked.filter (fun x => decide (x.1 = k))
  let h := s.fab.asks.filter (fun x => decide (x.1 = k))
  let s := unasked s k
  let s := if l = [] then s
    else putPeerFault s r.part { va := r.va.toNat, astag := r.astag.toNat, cause := cause, write := r.write, unit := 8, since := s.time }
  h.foldl (fun s x => askFault s r cause replay x.2) (l.foldl (fun s x => nackFrame s x.2.1 x.2.2 cause) s)

/-- What awaits one request awaits another. -/
def moveAsked (s : State) (k k' : Nat) : State :=
  { s with fab := { s.fab with asked := s.fab.asked.map (fun x => if x.1 = k then (k', x.2) else x), asks := s.fab.asks.map (fun x => if x.1 = k then (k', x.2) else x) } }

/-! ### Timers of peers and operations (R330, R334) -/

/-- The peers an operation exchanges frames with. -/
def FabOp.peers (o : FabOp) : List Nat := if o.op ≤ 4 then o.partners.map (fun r => o.members.getD r 0) else [o.peer]

/-- PEER_UNREACHABLE (R330): no plane UP for 50 ms; every operation outstanding to the peer completes with TIMEOUT. -/
def execPeerUnreachable (peer : BitVec 16) (s : State) : Host.Outcome State Fault Refusal :=
  .next (
    let q := peer.toNat
    let x := peerOf s q
    match x.downSince with
    | none => s
    | some t =>
      if s.time < t + objNat s oUnreachableMs * 1000000 ∨ ¬(peerPlanes s q).isEmpty ∨ x.state = 2 then s
      else
        let s := setPeer s q { x with state := 2 }
        let owners := (s.fab.conns.filter (fun c => decide (c.2.peer = q))).flatMap (fun c => (c.2.inflight ++ c.2.outQ).map (fun p => p.owner))
        let s := (s.fab.ops.filter (fun o => o.peers.elem q)).foldl (fun s o => failOp s o (.ends stTimeout o.sent)) s
        let s := (s.fab.disps.filter (fun d => d.members.elem q)).foldl (fun s d => failDisp s d (.ends stTimeout 0)) s
        let s := (s.fab.combs.filter (fun d => d.need.any (fun y => decide (y.1 = q)))).foldl (fun s d => failComb s d (.ends stTimeout 0)) s
        (owners.filter (fun o => decide (o ≠ 0))).foldl failGather s)

/-- COLL_TIMEOUT (R334): a group operation without progress for COLL_TIMEOUT completes with TIMEOUT. -/
def execCollTimeout (id : Nat) (s : State) : Host.Outcome State Fault Refusal :=
  .next (
    let old (since : Nat) : Bool := decide (since + objNat s oCollTimeout * 1000000 ≤ s.time)
    match fabOp s id, disp s id, comb s id with
    | some o, _, _ => if o.op ≤ 4 ∧ old o.since then failOp s o (.ends stTimeout o.sent) else s
    | _, some d, _ => if old d.since then failDisp s d (.ends stTimeout 0) else s
    | _, _, some d => if old d.since then failComb s d (.ends stTimeout 0) else s
    | none, none, none => s)

end Sys2Proof.Machine
end

