-- ==== Sys2Proof/Machine/Jobs.lean ====
section
/-! DEFINITION. The training step's bookkeeping (R285 to R301, R308) and the Halyard (R299, R335, R336): closes, snapshots,
Pennants, votes and outcomes. -/

namespace Sys2Proof.Machine

open Sys2Proof

def jobEnabled (s : State) (p : Nat) : Bool := getB s (rJobCfg p) fJobCfgEnable

/-- A refused STEP_CTL write. -/
def ctlErr (s : State) (p : Nat) : State := setF s (rStepStatus p) fStepStatusCtlErr 1

/-- The job's phase (STEP_STATUS.PHASE). -/
def jobPhase (s : State) (p : Nat) : Nat :=
  let j := job s p
  if j.restore.isSome then 6
  else if j.lost then 5
  else if j.diverged then 4
  else if j.upd.isSome ∨ j.hoists ≠ [] then 3
  else if (match j.voted with | some (v, _) => decide (v = j.awaited) && j.ownVote.isSome | none => false) then 2
  else if j.closed ≠ [] then 1
  else 0

/-- JOB_CFG.ENABLE goes 0 to 1: the step awaited is the current one (DESIGN CHOICE, log 34). -/
def jobStart (s : State) (p : Nat) : State :=
  setJob s p { job s p with closed := [], awaited := curStep s p, voted := none, ownVote := none, votedLost := false, kids := [], upSent := false, firstAt := none }

/-! ### Closing a step (R287) -/

/-- The stat-table entries of the partition's engines, and the state with each cleared and kept allocated. -/
def takeSnapshot (s : State) (p : Nat) : State × List StatEntry :=
  let mine (x : (Nat × Nat) × StatEntry) : Bool := decide (engOwner s x.1.1 = some p)
  let snap := (s.eng.stats.filter (fun x => mine x && x.2.valid)).map (fun x => if x.1.2 = 255 then { x.2 with tensor := 0xFFFF } else x.2)
  ({ s with eng := { s.eng with stats := s.eng.stats.map (fun x => if mine x then (x.1, x.2.cleared) else x) } }, snap)

/-- The write of CLOSE (R287): a job that takes part in no step (R285) refuses it too (DESIGN CHOICE, log 34). -/
def stepClose (s : State) (p step : Nat) : State :=
  let j := job s p
  if ¬jobEnabled s p ∨ step ≠ curStep s p ∨ j.diverged ∨ j.lost then ctlErr s p
  else
    let (s, snap) := takeSnapshot s p
    let s := setF s (rStepCur p) fStepCurCurStep (step + 1)
    setJob s p { j with closed := j.closed ++ [{ step := step, snap := snap, merged := [], done := false }] }

/-- STEP_CLOSE (R287). -/
def execStepClose (ag : Agent) (p : Fin 16) (step : BitVec 48) (s : State) : Host.Outcome State Fault Refusal :=
  .next (guarded s ag (rStepCtl p).key (fun s => stepClose s p step.toNat))

/-- The write of RAISE (R296, R297): refused for a step already voted and for one that is not yet current, and by a job that takes
part in no step (R285; DESIGN CHOICE, log 34). -/
def stepRaise (s : State) (p step : Nat) : State :=
  let j := job s p
  let voted : Bool := match j.voted with
    | some (v, _) => decide (step ≤ v)
    | none => false
  if ¬jobEnabled s p ∨ step < j.awaited ∨ curStep s p < step ∨ voted then ctlErr s p
  else raisePennant s p step 10

/-- STEP_RAISE (R296). -/
def execStepRaise (ag : Agent) (p : Fin 16) (step : BitVec 48) (s : State) : Host.Outcome State Fault Refusal :=
  .next (guarded s ag (rStepCtl p).key (fun s => stepRaise s p step.toNat))

/-- The write of REJOIN (R308). -/
def stepRejoin (s : State) (p step : Nat) : State :=
  let j := job s p
  if j.diverged ∧ step = getF s (rStepStatus p) fStepStatusLastStep then setJob s p { j with diverged := false } else ctlErr s p

/-- STEP_REJOIN (R308). -/
def execStepRejoin (ag : Agent) (p : Fin 16) (step : BitVec 48) (s : State) : Host.Outcome State Fault Refusal :=
  .next (guarded s ag (rStepCtl p).key (fun s => stepRejoin s p step.toNat))

/-! ### The snapshot's merge (R297) -/

/-- Two entries of one tensor: counts added exactly, AMAX the larger. -/
def StatEntry.merge (a b : StatEntry) : StatEntry :=
  { tensor := a.tensor, valid := true, saturated := a.saturated || b.saturated
    amax := if a.amax < b.amax then b.amax else a.amax, total := a.total + b.total, clipped := a.clipped + b.clipped
    flushed := a.flushed + b.flushed, nonfinite := a.nonfinite + b.nonfinite }

/-- A merged entry as a record holds it: a count beyond its field stays at the field's largest value and sets SATURATED (R77). -/
def StatEntry.fitted (x : StatEntry) : StatEntry :=
  let (cl, o1) := satU32 x.clipped 0
  let (fl, o2) := satU32 x.flushed 0
  let (nf, o3) := satU32 x.nonfinite 0
  { x with saturated := x.saturated || o1 || o2 || o3, total := min x.total (2 ^ 64 - 1), clipped := cl, flushed := fl, nonfinite := nf }

/-- An entry taken into the merged list. -/
def mergeInto (l : List StatEntry) (x : StatEntry) : List StatEntry :=
  if l.any (fun y => decide (y.tensor = x.tensor)) then l.map (fun y => if y.tensor = x.tensor then y.merge x else y) else l ++ [x]

/-- Records in a free order: each is placed by a free word of its own. The order of the merged records is not stated
(DESIGN CHOICE, log 111). -/
def freeOrder (c : Nat) (l : List StatEntry) : List StatEntry :=
  let key (x : Nat × StatEntry) : Nat := (Config.freeWord (c + x.1)).toNat
  let put (acc : List (Nat × StatEntry)) (x : Nat × StatEntry) : List (Nat × StatEntry) :=
    acc.takeWhile (fun y => decide (key y ≤ key x)) ++ x :: acc.dropWhile (fun y => decide (key y ≤ key x))
  (((List.range l.length).zip l).foldl put []).map (fun x => x.2)

/-- The records at STAT_OUT: beyond its capacity they are merged into one final record of tensor id 0xFFFF. -/
def statOutList (l : List StatEntry) (cap : Nat) : List StatEntry :=
  if l.length ≤ cap then l
  else if cap = 0 then []
  else
    let rest := l.drop (cap - 1)
    l.take (cap - 1) ++ [{ (rest.tail).foldl StatEntry.merge (rest.headD {}) with tensor := 0xFFFF }]

/-- SNAPSHOT_MERGE (R297). -/
def execSnapshotMerge (p : Fin 16) (s : State) : Host.Outcome State Fault Refusal :=
  .next (
    let j := job s p
    match j.closed.find? (fun c => !c.done) with
    | none => s
    | some c =>
      let l := freeOrder s.freeCtr (c.snap.foldl mergeInto [])
      let s := { s with freeCtr := s.freeCtr + l.length }
      let bs := (statOutList l (getF s (rStatOut p) fStatOutStatOutCap)).flatMap (fun x => statBytes (if x.tensor = 0xFFFF then 255 else 0) x.fitted)
      let s := if bs.isEmpty then s else hubPut s (getF s (rStatOut p) fStatOut * 4096) bs
      let keep := j.closed.map (fun d => if d.step = c.step then { d with merged := l, done := true } else d)
      setJob s p { j with closed := keep.filter (fun d => !(d.done && decide (d.step < j.awaited))) })

/-! ### The Pennant's tests (R296) -/

/-- The uncompleted commands of a step (R288). -/
def stepPending (s : State) (p step : Nat) : Nat :=
  (s.eng.spools.map (fun x => if ctxPart s x.1.e x.1.n = p then (x.2.cmds.filter (fun c => decide (c.phase ≠ .fetched) && decide (c.step = step))).length else 0)).sum

/-- 2^k × a is below b. -/
def exceeds (b a : Dy) (k : Int) : Bool := (a.scale k).lt b

/-- A magnitude as an exact value; a non-finite one counts as none. -/
def f32Mag (x : BitVec 32) : Dy := match f32Dec x with
  | .fin d => d.abs
  | _ => Dy.zero

/-- √SUMSQ exceeds 2^k × NORM_AVG, by squares. -/
def normAbsurd (g : Gchk) (k : Int) : Bool :=
  let n := f32Mag g.norm
  !n.isZero && (match ffB64.dec g.sumsq with
    | .fin q => exceeds q (n.mul n) (2 * k)
    | _ => true)

/-- The GCHK entry of a tensor id. -/
def gchkAt (s : State) (p tid : Nat) : Gchk := gchkOf (hubView s (gchkAddr s p tid) 32)

/-- The causes that the tests find for a step: bit c of a cause mask; TESTS_ENABLE gates causes 1 to 4. -/
def testCauses (s : State) (p : Nat) (c : ClosedStep) : Nat :=
  let en (i : Nat) : Bool := bitOf (objNat s oTestsEnable) (i - 1)
  let gs := if bulkSpan s (gchkAddr s p 0) (65536 * 32) then ((List.range 65536).map (gchkAt s p)).filter (fun g => decide (g.step = c.step)) else []
  let lim := objInt s oAbsurdLimitExp
  let share (n total : Nat) (k : Int) : Bool := exceeds (Dy.ofNat n) (Dy.ofNat total) k
  let b0 := c.snap.any (fun x => decide (0 < x.nonfinite)) || gs.any (fun g => decide (0 < g.nonfin))
  let b1 := en 1 && (c.snap.any (fun x => exceeds (f32Mag x.amax) (Dy.ofNat 1) lim) || gs.any (fun g => exceeds (f32Mag g.amax) (Dy.ofNat 1) lim))
  let b2 := en 2 && gs.any (fun g => normAbsurd g (objInt s oNormRatioExp))
  let b3 := en 3 && c.merged.any (fun x => share x.clipped x.total (objInt s oClipLimitExp))
  let b4 := en 4 && c.merged.any (fun x => share x.flushed x.total (objInt s oFlushLimitExp))
  b0.toNat + 2 * b1.toNat + 4 * b2.toNat + 8 * b3.toNat + 16 * b4.toNat

/-- Two cause masks together. -/
def orMask (a b : Nat) : Nat := (List.range 11).foldl (fun t i => if bitOf a i || bitOf b i then t + 2 ^ i else t) 0

/-! ### The tree (R335, R336) -/

/-- A group of a job for its own use; a member list in a CONSULT range is asked for (R252). -/
def jobGroup (s : State) (p gid : Nat) : State × GrpAns :=
  match readGroup s p gid with
  | (s, .stop (.asks q va e)) => (askHub s q va e (.group p gid), .stop .waits)
  | r => r

/-- The vote group of a job: size, this member's rank, members. -/
def voteGroup (s : State) (p : Nat) : State × Option Grp :=
  match jobGroup s p (getF s (rJobCfg p) fJobCfgVoteGroup) with
  | (s, .ok g) => (s, some g)
  | (s, _) => (s, none)

/-- A HALYARD message's payload, most significant byte first (R11, R336). -/
def halyBytes (step : Nat) (or_ : Bool) (code count p : Nat) : Bytes :=
  natBE 6 step ++ natBE 1 (or_.toNat + 2 * code) ++ [0] ++ natBE 4 count ++ natBE 1 p ++ [0, 0, 0]

/-- A HALYARD frame to a member, on its pinned connection (R335). -/
def halySend (s : State) (p q opcode : Nat) (data : Bytes) : State :=
  match ((s.fab.conns.filter (fun x => x.2.open_ && x.2.pin && decide (x.2.part = p) && decide (x.2.peer = q))).map (fun x => x.1)).mergeSort (fun a b => decide (a ≤ b)) with
  | [] => s
  | id :: _ => sendFrame s id { connFrame s (conn s id) with cls := 2, opcode := BitVec.ofNat 8 opcode, payload := data } 0

/-! ### Outcomes (R299 to R301) -/

/-- The step block's U64 at an offset. -/
def blockAddr (s : State) (p off : Nat) : Nat := getF s (rStepBlock p) fStepBlock * 64 + off

/-- The commands of a voided step that are still pending complete with STEP_VOID (R300): their outputs are as after a
cancellation (DESIGN CHOICE, log 35). -/
def voidStep (s : State) (p step : Nat) : State :=
  (s.eng.spools.filter (fun x => decide (ctxPart s x.1.e x.1.n = p))).foldl (fun s x =>
    (x.2.cmds.filter (fun c => c.live && decide (c.step = step))).foldl (fun s c =>
      let s := c.fills.foldl (fun s b => scrambleBob s x.1.e b) (scrambleOut s x.1 c)
      let s := dropHub (dropRun s x.1 c.slot) x.1 c.slot
      match taskSlotOf s x.1 c.slot with
      | some i => endTask s x.1.e i stStepVoid 0
      | none => endCmd s x.1 c.slot stStepVoid 0) s) s

/-- An outcome's counters (R300, R403). -/
def countOutcome (s : State) (p code : Nat) : State :=
  match code with
  | 1 => bump (evrCount s 7 p 0 1) (rHoists p) fHoists 1
  | 2 => bump (evrCount s 7 p 1 1) (rSkipRaised p) fSkipRaised 1
  | 3 => bump (evrCount s 7 p 2 1) (rSkipVoid p) fSkipVoid 1
  | 4 => bump (evrCount s 7 p 3 1) (rDivergedCount p) fDivergedCount 1
  | _ => s

/-- The outcome of the awaited step at this member (R300, R301): what the step block, the registers and the event recorder
take, what a VOID ends, what a CLEAR lets begin; then the next step is awaited. A DIVERGED outcome is this member's alone and
is not forwarded (DEDUCED, log 36). -/
def applyOutcome (s : State) (p code : Nat) : State :=
  let j := job s p
  let st := j.awaited
  let local_ := if j.ownVote.isSome && j.votedLost then 5 else code
  let (s, g) := voteGroup s p
  let kids := match g with
    | some g => (treeKids g.size g.rank).map (fun r => (r, g.members.getD r 0))
    | none => []
  let miss := (kids.filter (fun k => !j.kids.any (fun y => decide (y.1 = k.1)))).map (fun k => k.2)
  let s := setMiss s p miss
  let s := hubPut s (blockAddr s p 0) (natLE 8 (st * 16 + local_))
  let s := setF (setF s (rStepStatus p) fStepStatusLastOutcome local_) (rStepStatus p) fStepStatusLastStep st
  let s := countOutcome s p local_
  let s := if code = 3 then evrEvent s 8 p (natLE 8 st ++ (List.range 16).flatMap (fun k => natLE 2 (miss.getD k (peerId s)))) else s
  let s := match j.voted with
    | some (v, t) => if v = st then evrLatency s 27 (s.time - t) else s
    | none => s
  let s := if code = 3 then voidStep s p st else s
  let j := job s p
  let s := setJob s p { j with awaited := (st + 1) % 2 ^ 48, ownVote := none, votedLost := false, kids := [], upSent := false, firstAt := none
                               causes := j.causes.filter (fun x => decide (st < x.1)), diverged := j.diverged || decide (local_ = 4)
                               hoists := if local_ = 1 then j.hoists ++ [st] else j.hoists, closed := j.closed.filter (fun c => !(c.done && decide (c.step ≤ st))) }
  let s := { s with fab := { s.fab with halySeen := s.fab.halySeen.filter (fun x => !(decide (x.1 = p) && decide (x.2.1 < st))) } }
  if code = 4 then s else kids.foldl (fun s k => halySend s p k.2 0x21 (halyBytes st false code 0 p)) s

/-- Contributions so far: this member's own and its children's, OR and count. -/
def Job.orOf (j : Job) : Bool := j.ownVote.getD false || j.kids.any (fun k => k.2.1)
def Job.countOf (j : Job) : Nat := (if j.ownVote.isSome then 1 else 0) + (j.kids.map (fun k => k.2.2)).sum

/-- The Halyard goes on at this member (R299, R336): the root completes at MEMBERS contributions; another member sends its
subtree's vote to its parent once it is whole. -/
def halyProgress (s : State) (p : Nat) : State :=
  let j := job s p
  match voteGroup s p with
  | (s, none) => s
  | (s, some g) =>
    if g.rank = 0 then
      let s := if j.firstAt.isNone ∧ 0 < j.countOf then setJob s p { j with firstAt := some s.time } else s
      if getF s (rJobCfg p) fJobCfgMembers ≤ j.countOf ∧ j.ownVote.isSome then applyOutcome s p (if j.orOf then 2 else 1) else s
    else if j.ownVote.isSome ∧ ¬j.upSent ∧ (treeKids g.size g.rank).all (fun r => j.kids.any (fun k => decide (k.1 = r))) then
      let s := setJob s p { j with upSent := true }
      halySend s p (g.members.getD ((g.rank - 1) / 16) 0) 0x20 (halyBytes j.awaited j.orOf 0 j.countOf p)
    else s

/-- HALYARD_VOTE (R288, R296, R299): the tests are made, the causes are shown and counted, and the module contributes once.
A DIVERGED job does not vote (DESIGN CHOICE, log 36). -/
def halyVote (s : State) (p : Nat) : State :=
  let j := job s p
  match j.closed.find? (fun c => decide (c.step = j.awaited)) with
  | none => s
  | some c =>
    if ¬jobEnabled s p ∨ j.diverged ∨ j.restore.isSome ∨ j.ownVote.isSome ∨ ¬c.done ∨ stepPending s p c.step ≠ 0 then s
    else
      let causes := orMask (orMask (testCauses s p c) (causesOf j c.step)) (if j.lost then 2 ^ 9 else 0)
      let s := setF (if bulkSpan s (gchkAddr s p 0) (65536 * 32) then hubTouch s (gchkAddr s p 0) (65536 * 32) else s) (rPennantCause p) fPennantCauseCause causes
      let s := (List.range 11).foldl (fun s i => if bitOf causes i then evrCount s 7 p (4 + i) 1 else s) s
      let s := setJob s p { j with ownVote := some (decide (causes ≠ 0)), votedLost := j.lost, voted := some (c.step, s.time), closed := j.closed.filter (fun d => decide (d.step ≠ c.step)) }
      halyProgress s p

/-- HALYARD_VOTE (R299). -/
def execHalyardVote (p : Fin 16) (s : State) : Host.Outcome State Fault Refusal := .next (halyVote s p)

/-- A HALYARD frame admitted: its fields, unless it is the second copy (R336); from another domain it is answered with a NACK
(R327). -/
def halyFrame (s : State) (f : Frame) (opcode : Nat) : State × Option (Nat × Nat) :=
  if (f.opcode.toNat ≠ opcode ∨ f.cls ≠ 2) ∧ ¬badFrame f then (s, none)
  else
    match takeIn s f with
    | (s, false) => (s, none)
    | (s, true) =>
      match admitConn s f with
      | (s, false) => (s, none)
      | (s, true) =>
        let step := beAt f.payload 0 6
        let p := u8At f.payload 12 % 16
        let key := (p, step, opcode, f.srcPeer.toNat)
        if ¬inDomain s f.srcPeer.toNat then (sendNack s f.conn.toNat f 0x22, none)
        else if s.fab.halySeen.elem key then (s, none)
        else ({ s with fab := { s.fab with halySeen := key :: s.fab.halySeen } }, some (p, step))

/-- A contribution or an outcome for another step than the one awaited (R299). -/
def staleVote (s : State) (p : Nat) : State := bump s (rStaleVotes p) fStaleVotes 1

/-- HALYARD_UP (R299, R336): a child's subtree. -/
def execHalyardUp (f : Frame) (s : State) : Host.Outcome State Fault Refusal :=
  .next (
    match halyFrame s f 0x20 with
    | (s, none) => s
    | (s, some (p, step)) =>
      let j := job s p
      if ¬jobEnabled s p ∨ step ≠ j.awaited then staleVote s p
      else
        match voteGroup s p with
        | (s, none) => s
        | (s, some g) =>
          match (treeKids g.size g.rank).find? (fun r => decide (g.members.getD r 0 = f.srcPeer.toNat)) with
          | none => s
          | some r => halyProgress (setJob s p { j with kids := j.kids ++ [(r, bitOf (u8At f.payload 6) 0, beAt f.payload 8 4)] }) p)

/-- HALYARD_DOWN (R300, R336): the outcome arrives, is applied and forwarded. -/
def execHalyardDown (f : Frame) (s : State) : Host.Outcome State Fault Refusal :=
  .next (
    match halyFrame s f 0x21 with
    | (s, none) => s
    | (s, some (p, step)) =>
      let code := u8At f.payload 6 / 2 % 8
      if ¬jobEnabled s p ∨ step ≠ (job s p).awaited then staleVote s p
      else if code = 0 ∨ 3 < code then s
      else applyOutcome s p code)

/-- HALYARD_TIMEOUT (R299): the root declares the step VOID. -/
def execHalyardTimeout (p : Fin 16) (s : State) : Host.Outcome State Fault Refusal :=
  .next (
    let j := job s p
    match j.firstAt, voteGroup s p with
    | none, _ => s
    | some _, (s, none) => s
    | some t, (s, some g) => if jobEnabled s p ∧ g.rank = 0 ∧ t + objNat s oHalyardTimeout * 1000000 ≤ s.time then applyOutcome s p 3 else s)

/-- DIVERGED_TIMEOUT (R300): no outcome within twice HALYARD_TIMEOUT of this member's vote. -/
def execDivergedTimeout (p : Fin 16) (s : State) : Host.Outcome State Fault Refusal :=
  .next (
    let j := job s p
    match j.voted with
    | some (v, t) =>
      if jobEnabled s p ∧ v = j.awaited ∧ j.ownVote.isSome ∧ t + 2 * (objNat s oHalyardTimeout * 1000000) ≤ s.time then applyOutcome s p 4 else s
    | none => s)

/-! ### The optimiser's armed set (R302, R448) -/

/-- The registers of the set. -/
def optRegs (p : Nat) : List Reg := [rOptLr p, rOptBeta p, rOptEpsWd p, rOptScale p]

/-- A value is finite; a beta lies in [0, 1). -/
def optFinite (x : Nat) : Bool := numFinite (f32Dec (BitVec.ofNat 32 x))
def betaOk (x : Nat) : Bool := match f32Dec (BitVec.ofNat 32 x) with
  | .fin d => !d.isNeg && d.lt (Dy.ofNat 1)
  | _ => false

/-- The pending set is fit to be committed. -/
def optOk (s : State) (p : Nat) : Bool :=
  let b := getPend s (rOptBeta p)
  let e := getPend s (rOptEpsWd p)
  let c := getPend s (rOptScale p)
  optFinite (fget (getPend s (rOptLr p)) fOptLrLr) && betaOk (fget b fOptBetaBeta1) && betaOk (fget b fOptBetaBeta2) &&
    optFinite (fget e fOptEpsWdEps) && optFinite (fget e fOptEpsWdWeightDecay) && optFinite (fget c fOptScaleGradScale) &&
    (decide (fget c fOptScaleRnd = 0) || decide (fget c fOptScaleRnd = 2))

/-- OPT_ARM (R448): VIEW is written with ARM; the pending set is committed or refused whole. -/
def execOptArm (ag : Agent) (p : Fin 16) (view : Bool) (s : State) : Host.Outcome State Fault Refusal :=
  .next (guarded s ag (rOptArm p).key (fun s =>
    let s := setB s (rOptArm p) fOptArmView view
    if optOk s p then
      let s := (optRegs p).foldl (fun s r => { setR s r (getPend s r) with pend := mapDel s.pend r.key }) s
      setF s (rOptArm p) fOptArmRefused 0
    else setF s (rOptArm p) fOptArmRefused 1))

end Sys2Proof.Machine
end

