-- ==== Sys2Proof/Machine/Optim.lean ====
section
/-! DEFINITION. The optimiser engine (R289 to R291, R302 to R304, R306): the Hoist, the update hank by hank, the ledger, the
working copy and its all-gather. -/

namespace Sys2Proof.Machine

open Sys2Proof

/-- Elements of a hank (R310). -/
def hankElems : Nat := 2 ^ 20

/-! ### The update table (R290, R291) -/

/-- A segment descriptor. -/
structure Seg where
  tid    : Nat
  wd     : Bool
  frozen : Bool
  texp   : Int
  count  : Nat
  grad   : Nat
  master : Nat
  m      : Nat
  v      : Nat
  wc     : Nat
  lrMult : BitVec 32
  first  : Nat

def segAddr (s : State) (p i : Nat) : Nat := getF s (rUpdTable p) fUpdTable * 64 + 64 * i
def updCount (s : State) (p : Nat) : Nat := min 65536 (getF s (rUpdCount p) fUpdCount)

def segAt (b : Bytes) : Seg :=
  { tid := u16At b 0, wd := bitOf (u8At b 2) 0, frozen := bitOf (u8At b 2) 1, texp := i8At b 3, count := u32At b 4, grad := u64At b 8, master := u64At b 16
    m := u64At b 24, v := u64At b 32, wc := u64At b 40, lrMult := BitVec.ofNat 32 (u32At b 48), first := u32At b 52 }

/-- A descriptor that can be read, with nothing reserved set and elements to update. -/
def segGood (s : State) (p i : Nat) : Bool :=
  let a := segAddr s p i
  let b := hubView s a 64
  bulkSpan s a 64 && !mpaPoisoned s a 64 && decide (u8At b 2 < 4) && zeroSpan b 56 8 && decide (u32At b 4 ≠ 0)
def segRead (s : State) (p i : Nat) : Seg := segAt (hubView s (segAddr s p i) 64)

def Seg.hanks (d : Seg) : Nat := cdiv d.count hankElems
def Seg.len (d : Seg) (k : Nat) : Nat := min (d.count - k * hankElems) hankElems

/-- The hank ids of descriptor i overlap those of another descriptor of the table (R291). -/
def segOverlaps (s : State) (p i : Nat) : Bool :=
  let d := segRead s p i
  (List.range (updCount s p)).any (fun j =>
    let x := segRead s p j
    decide (j ≠ i) && decide (d.first < x.first + x.hanks) && decide (x.first < d.first + d.hanks))

/-- The planes of a hank: VA and bytes of the gradient, the master, the moments' codes and scales, the working copy's codes and
scales. -/
def Seg.gradSpan (d : Seg) (k : Nat) : Nat × Nat := (d.grad + 4 * (k * hankElems), 4 * d.len k)
def Seg.masterSpan (d : Seg) (k : Nat) : Nat × Nat := (d.master + 4 * (k * hankElems), 4 * d.len k)
def Seg.momCodes (d : Seg) (va k : Nat) : Nat × Nat := (va + k * hankElems, d.len k)
def Seg.momScales (d : Seg) (va k : Nat) : Nat × Nat := (va + d.count + 2 * (k * (hankElems / 64)), 2 * cdiv (d.len k) 64)
def Seg.wcCodes (d : Seg) (k : Nat) : Nat × Nat := (d.wc + k * hankElems, d.len k)
def Seg.wcScales (d : Seg) (k : Nat) : Nat × Nat := (d.wc + d.count + k * (hankElems / 32), cdiv (d.len k) 32)

/-! ### Translation for the optimiser (R290) -/

/-- The spans of a hank translated, or what keeps the engine from them. -/
inductive OptReach
  | ok (l : List (List Piece))
  | fault
  /-- The handler of a CONSULT range is asked (R252). -/
  | later

/-- Spans under the job's ASTAG: VA, bytes, written; what lies on a removed die is left out of a write (R32). A fault is recorded in
the partition's fault ring (DESIGN CHOICE, log 37). -/
def optReach (s : State) (p : Nat) : List (Nat × Nat × Bool) → List (List Piece) → State × OptReach
  | [], acc => (s, .ok acc.reverse)
  | (va, n, w) :: l, acc =>
    let q := { jobReq s p 8 w true with absent := true }
    match xlate s q va n with
    | (s, .ok ps) => optReach s p l (ps :: acc)
    | (s, .fault a cause _) => (putPeerFault s p { va := a, astag := q.astag, cause := cause, write := w, unit := 8, since := s.time }, .fault)
    | (s, .consult a e) =>
      if s.hub.consults.any (fun c => decide (c.req.unit = 8) && decide (c.req.astag.toNat = q.astag) && decide (c.req.va.toNat = a)) then (s, .later)
      else
        ((addConsult s { engine := none, e := 0, ctx := 0, spool := 0, slot := 0, part := Fin.ofNat 16 p, astag := BitVec.ofNat 16 q.astag
                         va := BitVec.ofNat 64 a, write := w, read := true, exec := false, remote := false, unit := 8 } e).1, .later)
    | (s, .wait _) => (s, .later)

def OptReach.get (r : OptReach) (i : Nat) : List Piece := match r with
  | .ok l => l.getD i []
  | _ => []

/-! ### The working copy (R303, R304) -/

/-- The format of the working copy. -/
def wcFmt : Fmt := ⟨8, .flt ffE4m3, .e8m0, .f, true⟩

/-- A hank's working copy handed to the Reduction Engine: written at the same VA on every other member of JOB_CFG.GROUP. -/
def gatherHank (s : State) (p : Nat) (parts : List (Nat × Bytes)) : State :=
  match readGroup s p (getF s (rJobCfg p) fJobCfgGroup) with
  | (s, .bad) | (s, .stop _) => setJob { s with fab := { s.fab with nextOp := s.fab.nextOp + 1 } } p { job s p with gather := (job s p).gather ++ [(s.fab.nextOp, false)] }
  | (s, .ok g) =>
    let owner := s.fab.nextOp
    let others := g.members.filter (fun q => decide (q ≠ peerId s))
    let ok := others.all (fun q => (connTo s p q).isSome && !unreachable s q)
    let s := { s with fab := { s.fab with nextOp := owner + 1 } }
    let s := others.foldl (fun s q =>
      match connTo s p q with
      | none => s
      | some id => parts.foldl (fun s x =>
          sendMsg s id (splitFrames { connFrame s (conn s id) with opcode := 0x01, addr := BitVec.ofNat 64 (x.1 % 2 ^ 48) } maxPayload 1 x.2 []) owner) s) s
    setJob s p { job s p with gather := (job s p).gather ++ [(owner, ok)] }

/-- The gather group can be read now. -/
def gatherReady (s : State) (p : Nat) : State × Bool :=
  match jobGroup s p (getF s (rJobCfg p) fJobCfgGroup) with
  | (s, .stop _) => (s, false)
  | (s, _) => (s, true)

/-- A byte string written over the pieces but for what lies on a removed die (R32). -/
def liveWrite (s : State) (ps : List Piece) (bs : Bytes) : State :=
  (ps.foldl (fun (acc : State × Bytes) p =>
    let parts := (List.range ((p.mpa + p.n - 1) / 65536 + 1 - p.mpa / 65536)).map (fun i =>
      let lo := max p.mpa (65536 * (p.mpa / 65536 + i))
      (lo, min (p.mpa + p.n) (65536 * (p.mpa / 65536 + i + 1)) - lo))
    (parts.foldl (fun s x => if deadAt s (locate s x.1) then s
      else piecesWrite s [{ p with va := p.va + (x.1 - p.mpa), mpa := x.1, n := x.2 }] ((acc.2.drop (x.1 - p.mpa)).take x.2)) acc.1, acc.2.drop p.n)) (s, bs)).1

/-- A hank's working copy written from its masters and handed on. The value of a poisoned master is free, so that the codes
and the scale of its block are (DESIGN CHOICE, log 38). -/
def emitHank (s : State) (p : Nat) (d : Seg) (k : Nat) (masters : Src) (codes scales : List Piece) : State :=
  let n := d.len k
  let c := s.freeCtr
  let s := if masters.bad.isEmpty then s else { s with freeCtr := c + n }
  let xs := (List.range n).map (fun e => if masters.poisoned (4 * e) 4 then (Config.freeWord (c + e)).truncate 32 else BitVec.ofNat 32 (u32At masters.bytes (4 * e)))
  let q := quantRow wcFmt 0 d.texp xs (fun _ => 0)
  let cb := packCodes 8 (q.quants.map (fun x => x.code))
  let sb := q.metas.flatMap (fun m => natLE 1 m.1)
  let s := liveWrite (liveWrite s codes cb) scales sb
  let s := bump s (rOptWcClip p) fOptWcClip (q.quants.countP (fun x => x.clipped))
  gatherHank s p [((d.wcCodes k).1, cb), ((d.wcScales k).1, sb)]

/-! ### The arithmetic (R302) -/

/-- A power, rounded once. -/
def f32Pow (b : BitVec 32) (t : Nat) : BitVec 32 := match f32Dec b with
  | .fin d => f32Of (.fin ⟨d.m ^ t, d.e * t⟩)
  | x => f32Of x

/-- 1 / (1 − beta^t). -/
def biasFactor (beta : BitVec 32) (t : Nat) : BitVec 32 := f32Div 0x3F800000 (f32Sub 0x3F800000 (f32Pow beta t))

/-- The constants of one update. -/
structure OptK where
  lr    : BitVec 32
  b1    : BitVec 32
  b2    : BitVec 32
  eps   : BitVec 32
  wd    : BitVec 32
  gs    : BitVec 32
  rnd   : Nat
  c1    : BitVec 32
  c2    : BitVec 32

def optK (j : Job) (t : Nat) : OptK :=
  let g (i : Nat) : BitVec 32 := BitVec.ofNat 32 (j.opt.getD i 0)
  { lr := g 0, b1 := g 1, b2 := g 2, eps := g 3, wd := g 4, gs := g 5, rnd := j.opt.getD 6 0, c1 := biasFactor (g 1) t, c2 := biasFactor (g 2) t }

/-- One element: master, m and v after the update. -/
def optElem (k : OptK) (d : Seg) (grad w m v : BitVec 32) : BitVec 32 × BitVec 32 × BitVec 32 :=
  let g := f32Mul grad k.gs
  let m := f32Add (f32Mul k.b1 m) (f32Mul (f32Sub 0x3F800000 k.b1) g)
  let v := f32Add (f32Mul k.b2 v) (f32Mul (f32Mul (f32Sub 0x3F800000 k.b2) g) g)
  let u := f32Div (f32Mul m k.c1) (f32Add (f32Sqrt (f32Mul v k.c2)) k.eps)
  let u := if d.wd then f32Add u (f32Mul k.wd w) else u
  (f32Sub w (f32Mul (f32Mul k.lr d.lrMult) u), m, v)

/-- A moment's element: its code with its block's scale (R44). -/
def momAt (sqrt : Bool) (codes scales : Src) (e : Nat) : BitVec 32 :=
  let sc := u16At scales.bytes (2 * (e / 64))
  if sqrt then kb8Sqrt (u8At codes.bytes e) sc else kb8Lin (u8At codes.bytes e) sc

/-- The random bits of a moment's element (R69, R302). -/
def momBits (step tensor hankId e : Nat) : Nat := srBits step tensor (hankId * 64 + e / 16384) (e / 128 % 128) (e % 128)

/-- The blocks of 64 of a moment encoded; a block that is skipped or poisoned keeps its codes and its scale. -/
def momWrite (s : State) (p : Nat) (sqrt : Bool) (rnd tensor step hankId n : Nat) (keep : Nat → Bool) (val : Nat → BitVec 32) (codes scales : List Piece) : State :=
  (List.range (cdiv n 64)).foldl (fun s b =>
    if keep b then s
    else
      let k := min 64 (n - 64 * b)
      let x := kb8Encode sqrt rnd ((List.range k).map (fun i => (val (64 * b + i), momBits step tensor hankId (64 * b + i))))
      let s := (Tgt.pieces codes).put s (64 * b) (packCodes 8 x.codes)
      let s := (Tgt.pieces scales).put s (2 * b) (natLE 2 x.scale)
      bump (bump s (rOptMomClip p) fOptMomClip x.clipped) (rOptMomNonfinite p) fOptMomNonfinite x.nonfin.toNat) s

/-! ### The ledger (R304) -/

def ledgerAddr (s : State) (p id : Nat) : Nat := getF s (rLedgerBase p) fLedgerBase * 4096 + 16 * id

/-- A hank's ledger entry; CKPT stays. -/
def ledgerPut (s : State) (p id step t flags : Nat) : State :=
  let a := ledgerAddr s p id
  if bulkSpan s a 16 then hubPut s a (natLE 8 step ++ natLE 4 t ++ natLE 1 flags ++ natLE 1 (u8At (hubView s (a + 13) 1) 0) ++ [0, 0]) else s

/-- The job becomes STATE_LOST (R303). -/
def loseState (s : State) (p : Nat) : State := setJob s p { job s p with lost := true }

/-! ### A hank (R303) -/

/-- The largest finite magnitude of a list of masters, as a pattern. -/
def amaxOf (a : Nat) (xs : List (BitVec 32)) : Nat := xs.foldl (fun a x => if numFinite (f32Dec x) ∧ a < (x &&& 0x7FFFFFFF).toNat then (x &&& 0x7FFFFFFF).toNat else a) a

/-- The spans of a hank's update, in this order: gradient, master, m, v with their scales, working copy. -/
def hankSpans (d : Seg) (k : Nat) : List (Nat × Nat × Bool) :=
  let r (x : Nat × Nat) (w : Bool) : Nat × Nat × Bool := (x.1, x.2, w)
  [r (d.gradSpan k) false, r (d.masterSpan k) true, r (d.momCodes d.m k) true, r (d.momScales d.m k) true, r (d.momCodes d.v k) true, r (d.momScales d.v k) true,
    r (d.wcCodes k) true, r (d.wcScales k) true]

/-- Masters and moments of a hank updated: the state, and whether the gradient and the state were poisoned. -/
def hankCompute (s : State) (p : Nat) (d : Seg) (k step : Nat) (ps : OptReach) : State × Bool × Bool :=
  let kk := optK (job s p) (getF s (rOptT p) fOptTT + 1)
  let n := d.len k
  let grad := vaSrc s (ps.get 0)
  let w := vaSrc s (ps.get 1)
  let mc := vaSrc s (ps.get 2)
  let ms := vaSrc s (ps.get 3)
  let vc := vaSrc s (ps.get 4)
  let vs := vaSrc s (ps.get 5)
  let gradBad (b : Nat) : Bool := grad.poisoned (256 * b) (min 256 (4 * n - 256 * b))
  let mBad (b : Nat) : Bool := mc.poisoned (64 * b) (min 64 (n - 64 * b)) || ms.poisoned (2 * b) 2
  let vBad (b : Nat) : Bool := vc.poisoned (64 * b) (min 64 (n - 64 * b)) || vs.poisoned (2 * b) 2
  let elemBad (e : Nat) : Bool := w.poisoned (4 * e) 4 || mc.poisoned e 1 || ms.poisoned (2 * (e / 64)) 2 || vc.poisoned e 1 || vs.poisoned (2 * (e / 64)) 2
  let new (e : Nat) : BitVec 32 × BitVec 32 × BitVec 32 := optElem kk d (grad.f32 e) (w.f32 e) (momAt false mc ms e) (momAt true vc vs e)
  let id := d.first + k
  let s := (List.range n).foldl (fun s e => if gradBad (e / 64) || elemBad e then s else (Tgt.pieces (ps.get 1)).put s (4 * e) (natLE 4 (new e).1.toNat)) s
  let s := momWrite s p false kk.rnd 0xFFF1 step id n (fun b => gradBad b || mBad b) (fun e => (new e).2.1) (ps.get 2) (ps.get 3)
  let s := momWrite s p true kk.rnd 0xFFF2 step id n (fun b => gradBad b || vBad b) (fun e => (new e).2.2) (ps.get 4) (ps.get 5)
  (bump s (rOptGradPoison p) fOptGradPoison grad.bad.length, !grad.bad.isEmpty, !(w.bad ++ mc.bad ++ ms.bad ++ vc.bad ++ vs.bad).isEmpty)

/-- One hank: masters and moments, the ledger entry, the working copy, the all-gather (R303). -/
def hankDo (s : State) (p : Nat) (u : Upd) (d : Seg) (ps : OptReach) : State :=
  let k := u.hank
  let s := (List.range 6).foldl (fun s i => piecesTouch s (ps.get i)) s
  let (s, gradBad, stateBad) := if d.frozen then (s, false, !(vaSrc s (ps.get 1)).bad.isEmpty) else hankCompute s p d k u.step ps
  let s := if stateBad then loseState s p else s
  let t := getF s (rOptT p) fOptTT
  let s := ledgerPut s p (d.first + k) u.step (t + 1) (1 + 2 * gradBad.toNat + 4 * stateBad.toNat + 8 * d.frozen.toNat)
  let masters := vaSrc s (ps.get 1)
  let xs := ((List.range (d.len k)).filter (fun e => !masters.poisoned (4 * e) 4)).map masters.f32
  let a := amaxOf (mapGet u.amax u.seg 0) xs
  let s := emitHank s p d k masters (ps.get 6) (ps.get 7)
  let next : Upd := if k + 1 < d.hanks then { u with hank := k + 1 } else { u with seg := u.seg + 1, hank := 0 }
  setJob s p { job s p with upd := some { next with amax := mapSet u.amax u.seg a } }

/-! ### The end of an update (R304) -/

/-- The square root of SUMSQ as FP32. -/
def rootSumsq (g : Gchk) : BitVec 32 := match ffB64.dec g.sumsq with
  | .fin d =>
    let odd := d.e % 2 ≠ 0
    let m := if odd then d.m.natAbs * 2 else d.m.natAbs
    let e := if odd then d.e - 1 else d.e
    let n := m * 4 ^ 80
    let q := isqrt n
    let sticky := if q * q = n then 0 else 1
    if d.isZero then 0 else BitVec.ofNat 32 (ffB32.rne ⟨(2 * q + sticky : Nat), e / 2 - 80 - 1⟩)
  | .inf _ => f32Inf false
  | .nan => f32Nan

/-- NORM_AVG after an update. -/
def nextNorm (g : Gchk) : BitVec 32 :=
  let r := rootSumsq g
  if g.norm &&& 0x7FFFFFFF = 0 then r else f32Add g.norm (f32Mul 0x3D800000 (f32Sub r g.norm))

/-- WC_TEXP from the largest master of a segment; a segment of zeros keeps its own. -/
def nextTexp (d : Seg) (a : Nat) : Int :=
  match f32Dec (BitVec.ofNat 32 a) with
  | .fin x => if x.isZero then d.texp else clampInt (-127) 127 (blockExp x ⟨448, 0⟩)
  | _ => d.texp

/-- A segment's exponent and running norm, both from the state `s0` in which the last hank is ledgered (R304: at the same
moment for each segment, so segments of one tensor id give its entry one value). -/
def settleSeg (s0 : State) (p : Nat) (s : State) (x : Nat × Nat) : State :=
  let d := segRead s0 p x.1
  let s := hubPut s (segAddr s p x.1 + 3) (natLE 1 ((nextTexp d x.2) % 256).toNat)
  let a := gchkAddr s p d.tid
  if bulkSpan s a 32 then hubPut s (a + 16) (natLE 4 (nextNorm (gchkAt s0 p d.tid)).toNat) else s

/-- The last hank is ledgered: OPT_T, APPLIED, exponents and norms. -/
def finishUpdate (s : State) (p : Nat) (u : Upd) : State :=
  let s := u.amax.foldl (settleSeg s p) s
  let s := advance s (rOptT p) fOptTT 1
  let s := hubPut s (blockAddr s p 16) (natLE 8 (getF s (rOptT p) fOptTT * 65536 + 0xFFFF))
  setJob s p { job s p with upd := none }

/-! ### HANK_UPDATE -/

/-- The checkpoint of an earlier step has still to program a hank (R306). -/
def ckptHolds (j : Job) (step id : Nat) : Bool :=
  (match j.ckpt with
    | some c => decide (c.step < step) && c.todo.any (fun x => decide (x.2.2 = id))
    | none => false) || j.ckptDue.any (fun x => decide (x.1 < step))

/-- Descriptors from the one reached that cannot be used make the job STATE_LOST and are passed over; at the end of the table
the update is over. -/
def reachSeg (s : State) (p : Nat) : Nat → State
  | 0 => s
  | k + 1 =>
    match (job s p).upd with
    | none => s
    | some u =>
      if updCount s p ≤ u.seg then finishUpdate s p u
      else if u.hank ≠ 0 then s
      else
        if ¬segGood s p u.seg ∨ segOverlaps s p u.seg then
          let s := loseState s p
          reachSeg (setJob s p { job s p with upd := some { u with seg := u.seg + 1 } }) p k
        else s

/-- The wait for a checkpoint begins, or ends and is counted (R306). -/
def ckptWait (s : State) (p : Nat) (wait : Bool) : State :=
  let j := job s p
  match wait, j.waitSince with
  | true, none => setJob s p { j with waitSince := some s.time }
  | true, some _ => s
  | false, some t => bump (setJob s p { j with waitSince := none }) (rCkptWait p) fCkptWait (s.time - t)
  | false, none => s

/-- HANK_UPDATE (R302, R303): the next hank of the update. -/
def execHankUpdate (p : Fin 16) (s : State) : Host.Outcome State Fault Refusal :=
  .next (
    let s := reachSeg s p (updCount s p + 1)
    match (job s p).upd with
    | none => s
    | some u =>
      let d := segRead s p u.seg
      if ckptHolds (job s p) u.step (d.first + u.hank) then ckptWait s p true
      else
        let s := hubTouch (ckptWait s p false) (segAddr s p u.seg) 64
        match gatherReady s p with
        | (s, false) => s
        | (s, true) =>
        match optReach s p (hankSpans d u.hank) [] with
        | (s, .later) => s
        | (s, .fault) =>
          let s := loseState s p
          reachSeg (setJob s p { job s p with upd := some { u with seg := u.seg + 1, hank := 0 } }) p (updCount s p + 1)
        | (s, .ok l) => reachSeg (hankDo s p u d (.ok l)) p (updCount s p + 1))

/-- HOIST (R302, R305): the oldest CLEAR step, once the previous update is over. -/
def execHoist (p : Fin 16) (s : State) : Host.Outcome State Fault Refusal :=
  .next (
    let j := job s p
    match j.hoists, j.upd with
    | st :: l, none =>
      if j.restore.isSome then s
      else
        let f (r : Reg) (x : Fd) : Nat := getF s r x
        let set := [f (rOptLr p) fOptLrLr, f (rOptBeta p) fOptBetaBeta1, f (rOptBeta p) fOptBetaBeta2, f (rOptEpsWd p) fOptEpsWdEps,
          f (rOptEpsWd p) fOptEpsWdWeightDecay, f (rOptScale p) fOptScaleGradScale, f (rOptScale p) fOptScaleRnd]
        let t := getF s (rOptT p) fOptTT + 1
        let n := getF s (rCkptCfg p) fCkptCfgInterval
        let next := getB s (rCkptCtl p) fCkptCtlNext
        let due := next || (decide (n ≠ 0) && decide (t % n = 0))
        let s := setB s (rCkptCtl p) fCkptCtlNext false
        let s := setJob s p { j with hoists := l, opt := set, upd := some { step := st, seg := 0, hank := 0, amax := [] }
                                     ckptDue := if due then j.ckptDue ++ [(st, t)] else j.ckptDue }
        if updCount s p = 0 then reachSeg s p 1 else s
    | _, _ => s)

/-- HANKS_DONE (R303): the oldest hank handed on has been acknowledged by every member. -/
def execHanksDone (p : Fin 16) (s : State) : Host.Outcome State Fault Refusal :=
  .next (
    let j := job s p
    match j.gather with
    | (id, true) :: l =>
      if owes s id then s
      else
        let a := blockAddr s p 8
        hubPut (hubTouch (setJob s p { j with gather := l }) a 8) a (natLE 8 (leNat (hubView s a 8) + 1))
    | _ => s)

end Sys2Proof.Machine
end

