-- ==== Sys2Proof/Machine/Checkpoint.lean ====
section
/-! DEFINITION. Checkpoints and their restore (R305 to R307). -/

namespace Sys2Proof.Machine

open Sys2Proof

/-! ### The layout of a slot (R305) -/

/-- Pages of a hank, of the GCHK table, and of an update table. -/
def hankPages : Nat := 388
def gchkPages : Nat := 65536 * 32 / pageBytes
def tablePages (n : Nat) : Nat := cdiv (64 * n) pageBytes

/-- The hanks of the job in update-table order: segment, hank, global id. -/
def allHanks (s : State) (p n : Nat) : List (Nat × Nat × Nat) :=
  ((List.range n).filter (segGood s p)).flatMap (fun i =>
    let d := segRead s p i
    (List.range d.hanks).map (fun k => (i, k, d.first + k)))

/-- The first page of a slot. -/
def slotLpn (s : State) (p : Nat) (b : Bool) : Nat := getF s (rCkptBase p) (if b then fCkptBaseLpnB else fCkptBaseLpnA)

/-- Bytes programmed at a page onward, the last page filled with zeros, their poison with them. -/
def flashPut (s : State) (p lpn : Nat) (x : Src) : State :=
  let n := cdiv x.bytes.length pageBytes
  let s := rawWrite s (pageAddr lpn) (x.bytes ++ List.replicate (n * pageBytes - x.bytes.length) 0)
  let s := x.bad.foldl (fun s b => mpaPoison s (pageAddr lpn + b.1) b.2) s
  (List.range n).foldl (fun s i => programPage s (flashKey s p) (lpn + i)) s

/-- Offsets of the six planes of a hank in its pages: master, m codes, m scales, v codes, v scales. The planes of a short hank
stand where a full one's do (DESIGN CHOICE, log 39). -/
def planeAt : List Nat := [0, 4 * hankElems, 5 * hankElems, 5 * hankElems + hankElems / 32, 6 * hankElems + hankElems / 32]

/-- The planes of a hank in the tiers. -/
def ckptSpans (d : Seg) (k : Nat) (w : Bool) : List (Nat × Nat × Bool) :=
  let r (x : Nat × Nat) : Nat × Nat × Bool := (x.1, x.2, w)
  [r (d.masterSpan k), r (d.momCodes d.m k), r (d.momScales d.m k), r (d.momCodes d.v k), r (d.momScales d.v k)]

/-- A hank's page in a slot. -/
def hankLpn (s : State) (p : Nat) (b : Bool) (segs i : Nat) : Nat := slotLpn s p b + 1 + tablePages segs + gchkPages + hankPages * i

/-- A checkpoint that cannot go on. -/
def ckptFail (s : State) (p : Nat) : State :=
  setF (setF (setJob s p { job s p with ckpt := none }) (rCkptStatus p) fCkptStatusFailed 1) (rCkptStatus p) fCkptStatusState 0

/-! ### Writing (R305) -/

/-- CHECKPOINT_START (R305): the header page is trimmed, the tables are written. A layout beyond SLOT_PAGES, or beyond the flash
tier, is not taken. -/
def execCheckpointStart (p : Fin 16) (s : State) : Host.Outcome State Fault Refusal :=
  .next (
    let j := job s p
    match j.ckptDue, j.ckpt with
    | (st, t) :: l, none =>
      let n := updCount s p
      let b := !j.lastSlotB
      let todo := allHanks s p n
      let pages := 1 + tablePages n + gchkPages + hankPages * todo.length
      if ¬flashRuns s then s
      else if getF s (rCkptCfg p) fCkptCfgSlotPages < pages ∨ Config.flashLogicalBytes < (slotLpn s p b + pages) * pageBytes then
        setF (setJob s p { j with ckptDue := l }) (rCkptStatus p) fCkptStatusFailed 1
      else
        let lpn := slotLpn s p b
        let s := unmapPage (rawZero s (pageAddr lpn) pageBytes) lpn
        let read (a k : Nat) : Src := { bytes := hubView s a k, bad := ((linesOf a k).filter (fun x => linePoisoned s (locate s (64 * x) / 64))).map (fun x => (64 * x - a, 64)) }
        let tbl := read (segAddr s p 0) (64 * n)
        let chk := read (gchkAddr s p 0) (65536 * 32)
        let s := hubTouch (hubTouch s (segAddr s p 0) (64 * n)) (gchkAddr s p 0) (65536 * 32)
        let s := flashPut (flashPut s p (lpn + 1) tbl) p (lpn + 1 + tablePages n) chk
        let s := setF (setB s (rCkptStatus p) fCkptStatusSlot b) (rCkptStatus p) fCkptStatusState 1
        setJob s p { job s p with ckptDue := l, ckpt := some { step := st, optT := t, slotB := b, todo := todo, done := 0 } }
    | _, _ => s)

/-- A hank's planes programmed at its pages, its ledger entry marked with the slot. -/
def ckptHankPut (s : State) (p : Nat) (c : Ckpt) (id : Nat) (ls : List (List Piece)) : State :=
  let s := ls.foldl piecesTouch (hubTouch s (ledgerAddr s p id) 16)
  let lpn := hankLpn s p c.slotB (updCount s p) c.done
  let s := rawZero s (pageAddr lpn) (hankPages * pageBytes)
  let s := (List.range 5).foldl (fun s x =>
    let src := vaSrc s (ls.getD x [])
    let a := pageAddr lpn + planeAt.getD x 0
    src.bad.foldl (fun s b => mpaPoison s (a + b.1) b.2) (rawWrite s a src.bytes)) s
  let s := (List.range hankPages).foldl (fun s x => programPage s (flashKey s p) (lpn + x)) s
  if bulkSpan s (ledgerAddr s p id) 16 then hubPut s (ledgerAddr s p id + 13) (natLE 1 (if c.slotB then 2 else 1)) else s

/-- CHECKPOINT_HANK (R305): the next hank, once the optimiser of the step has ledgered it. A hank that cannot be read ends the
checkpoint (DESIGN CHOICE, log 39). -/
def execCheckpointHank (p : Fin 16) (s : State) : Host.Outcome State Fault Refusal :=
  .next (
    let j := job s p
    match j.ckpt with
    | none => s
    | some c =>
      match c.todo with
      | [] => s
      | (i, k, id) :: l =>
        let e := hubView s (ledgerAddr s p id) 16
        if ¬flashRuns s ∨ ¬bitOf (u8At e 12) 0 ∨ u64At e 0 ≠ c.step ∨ u32At e 8 ≠ c.optT then s
        else
          let d := segRead s p i
          match optReach s p (ckptSpans d k false) [] with
          | (s, .later) => s
          | (s, .fault) => ckptFail s p
          | (s, .ok ls) =>
            let s := ckptHankPut s p c id ls
            setJob s p { job s p with ckpt := some { c with todo := l, done := c.done + 1 } })

/-- The header page's bytes. -/
def headerBytes (st t segs hanks crc : Nat) : Bytes := natLE 8 st ++ natLE 4 t ++ natLE 4 segs ++ natLE 4 hanks ++ natLE 4 crc

/-- CHECKPOINT_HEADER (R305): written last. -/
def execCheckpointHeader (p : Fin 16) (s : State) : Host.Outcome State Fault Refusal :=
  .next (
    let j := job s p
    match j.ckpt with
    | none => s
    | some c =>
      if ¬flashRuns s ∨ c.todo ≠ [] then s
      else
        let n := updCount s p
        let lpn := slotLpn s p c.slotB
        let crc := crc32 (mpaRead s (pageAddr (lpn + 1)) (64 * n))
        let s := flashPut s p lpn { bytes := headerBytes c.step c.optT n c.done crc, bad := [] }
        let s := setF (setF s (rCkptStatus p) fCkptStatusState 0) (rCkptStatus p) fCkptStatusLastStep c.step
        setJob s p { job s p with ckpt := none, lastSlotB := c.slotB })

/-- CKPT_NEXT (R305). -/
def execCkptNext (ag : Agent) (p : Fin 16) (s : State) : Host.Outcome State Fault Refusal :=
  .next (guarded s ag (rCkptCtl p).key (fun s => setB s (rCkptCtl p) fCkptCtlNext true))

/-! ### Restoring (R307) -/

/-- A slot's header; none where it reads zero or its table fails the check. -/
def slotHeader (s : State) (p : Nat) (b : Bool) : Option Bytes :=
  let lpn := slotLpn s p b
  let h := mpaRead s (pageAddr lpn) 24
  if Config.flashLogicalBytes < (lpn + 1) * pageBytes ∨ h.all (· == 0) ∨ crc32 (mpaRead s (pageAddr (lpn + 1)) (64 * u32At h 12)) ≠ u32At h 20 then none
  else some h

/-- The write of CKPT_CTL with OP = RESTORE (R307). -/
def ckptRestore (s : State) (p : Nat) (b : Bool) : State :=
  let j := job s p
  if j.upd.isSome ∨ j.hoists ≠ [] ∨ j.restore.isSome ∨ (slotHeader s p b).isNone then setF s (rCkptStatus p) fCkptStatusFailed 1
  else setF (setJob s p { j with restore := some b }) (rCkptStatus p) fCkptStatusState 2

/-- CKPT_RESTORE (R307). -/
def execCkptRestore (ag : Agent) (p : Fin 16) (b : Bool) (s : State) : Host.Outcome State Fault Refusal :=
  .next (guarded s ag (rCkptCtl p).key (fun s => ckptRestore s p b))

/-- The spans that a hank's restore writes. -/
def restoreSpans (d : Seg) (k : Nat) : List (Nat × Nat × Bool) :=
  ckptSpans d k true ++ [((d.wcCodes k).1, (d.wcCodes k).2, true), ((d.wcScales k).1, (d.wcScales k).2, true)]

/-- Whether every span of a restore can be reached now. -/
def restoreReach (s : State) (p : Nat) : List (Nat × Nat × Nat) → State × OptReach
  | [] => (s, .ok [])
  | (i, k, _) :: l =>
    match optReach s p (restoreSpans (segRead s p i) k) [] with
    | (s, .ok _) => restoreReach s p l
    | r => r

/-- The hanks of a slot read back in order, each with its ledger entry and its working copy; none where one cannot be
reached. -/
def restoreHanks (s : State) (p : Nat) (b : Bool) (segs st t : Nat) : List (Nat × Nat × Nat) → Nat → State × Bool
  | [], _ => (s, true)
  | (i, k, id) :: l, n =>
    let d := segRead s p i
    match optReach s p (restoreSpans d k) [] with
    | (s, .ok ls) =>
      let lpn := hankLpn s p b segs n
      let s := (List.range 5).foldl (fun s x =>
        let ps := ls.getD x []
        let a := pageAddr lpn + planeAt.getD x 0
        let m := (ps.map (fun q => q.n)).sum
        let bad := ((linesOf a m).filter (linePoisoned s)).map (fun y => (64 * y - a, 64))
        bad.foldl (fun s y => piecesDeliver s ps y.1 y.2) (piecesWrite s ps (mpaRead s a m))) s
      let s := ledgerPut s p id st t (1 + 8 * d.frozen.toNat)
      let s := if bulkSpan s (ledgerAddr s p id) 16 then hubPut s (ledgerAddr s p id + 13) (natLE 1 (if b then 2 else 1)) else s
      restoreHanks (emitHank s p d k (vaSrc s (ls.getD 0 [])) (ls.getD 5 []) (ls.getD 6 [])) p b segs st t l (n + 1)
    | (s, _) => (s, false)

/-- Pages of the flash tier copied into the bulk tier, their poison with them (R214). -/
def pageCopy (s : State) (a lpn n : Nat) : State :=
  let src := pageAddr lpn
  let bad := ((linesOf src n).filter (linePoisoned s)).map (fun l => 64 * l - src)
  bad.foldl (fun s o => mpaPoison s (a + o) 64) (hubLand s a (mpaRead s src n))

/-- RESTORE_DONE (R307): the slot is read back; the job runs on from the slot's step. It waits for a migration or a held line of its
tables, and for the gather group (R206, R252, R271). A restore that cannot reach a span fails and leaves the job as it was
(DESIGN CHOICE, log 39). -/
def execRestoreDone (p : Fin 16) (s : State) : Host.Outcome State Fault Refusal :=
  .next (
    let j := job s p
    match j.restore with
    | none => s
    | some b =>
      let fail (s : State) : State :=
        setF (setF (setJob s p { job s p with restore := none }) (rCkptStatus p) fCkptStatusState 0) (rCkptStatus p) fCkptStatusFailed 1
      match slotHeader s p b with
      | none => fail s
      | some h =>
        let st := u64At h 0
        let t := u32At h 8
        let segs := min 65536 (u32At h 12)
        let lpn := slotLpn s p b
        if ¬bulkSpan s (segAddr s p 0) (max 1 (64 * segs)) ∨ ¬bulkSpan s (gchkAddr s p 0) (65536 * 32) then fail s
        else if hubWaits s (segAddr s p 0) (64 * segs) ∨ hubWaits s (gchkAddr s p 0) (65536 * 32) then s
        else
        match gatherReady s p with
        | (s, false) => s
        | (s, true) =>
          let s := pageCopy s (segAddr s p 0) (lpn + 1) (64 * segs)
          let s := pageCopy s (gchkAddr s p 0) (lpn + 1 + tablePages segs) (65536 * 32)
          match restoreReach s p (allHanks s p segs) with
          | (s, .later) => s
          | (s, .fault) => fail s
          | (s, .ok _) =>
          match restoreHanks s p b segs st t (allHanks s p segs) 0 with
          | (s, false) => fail s
          | (s, true) =>
            let s := setF (setF s (rStepCur p) fStepCurCurStep (st + 1)) (rOptT p) fOptTT t
            let s := setF s (rCkptStatus p) fCkptStatusState 0
            let s := { s with fab := { s.fab with halySeen := s.fab.halySeen.filter (fun x => decide (x.1 ≠ p)) } }
            setJob s p { job s p with
              closed := [], causes := [], awaited := (st + 1) % 2 ^ 48, voted := none, ownVote := none, votedLost := false, kids := [], upSent := false, firstAt := none,
              diverged := false, lost := false, hoists := [], upd := none, ckpt := none, ckptDue := [], restore := none, waitSince := none })

end Sys2Proof.Machine
end

