-- ==== Sys2Proof/Machine/Migration.lean ====
section
/-! DEFINITION. Migration (R202 to R211), the pool accounts' commit (R216), ages and heat (R200, R209) and the tier timeout
(R213). -/

namespace Sys2Proof.Machine

open Sys2Proof

/-- The granules of the bulk tier (R199). -/
def granCount : Nat := 786432

/-- MIG_REQ_PROMOTE (R202). -/
def execMigReqPromote (ag : Agent) (g : BitVec 20) (astag : BitVec 16) (s : State) : Host.Outcome State Fault Refusal :=
  .next (guarded s ag rMigReq.key (fun s =>
    if granCount ≤ g.toNat then s else queuePromotion s g.toNat astag.toNat (astagPart s astag.toNat)))

/-- MIG_REQ_DEMOTE (R202, R207). -/
def execMigReqDemote (ag : Agent) (g : BitVec 20) (s : State) : Host.Outcome State Fault Refusal :=
  .next (guarded s ag rMigReq.key (fun s =>
    if granCount ≤ g.toNat then s
    else queueMig s { gran := g.toNat, promote := false, astag := 0, part := 0, victim := none, bounced := false }))

/-! ### POOL_ARM (R216, R448) -/

def pendAcct (s : State) (i : Nat) : Word := getPend s (rPoolAcct i)
def acctValid (s : State) (i : Nat) : Bool := decide (fget (pendAcct s i) fPoolAcctValid = 1)
def acctPart (s : State) (i : Nat) : Nat := fget (pendAcct s i) fPoolAcctPartition
def acctFloor (s : State) (i : Nat) : Nat := fget (pendAcct s i) fPoolAcctFloor
def acctCeiling (s : State) (i : Nat) : Nat := fget (pendAcct s i) fPoolAcctCeiling
def acctAstag (s : State) (i : Nat) : Nat := fget (pendAcct s i) fPoolAcctAstag

/-- The floors of a partition in the pending set. -/
def pendFloors (s : State) (p : Nat) : Nat :=
  (List.range 256).foldl (fun t i => if acctValid s i ∧ acctPart s i = p then t + acctFloor s i else t) 0

/-- The pending entry takes part in a cause of refusal (R216). -/
def acctBad (s : State) (i : Nat) : Bool :=
  acctValid s i &&
    (decide (acctCeiling s i < acctFloor s i) || decide (objNat s (oPoolFramesP (acctPart s i)) < acctCeiling s i) ||
      (List.range 256).any (fun j => decide (j ≠ i) && acctValid s j && decide (acctAstag s j = acctAstag s i)) ||
      (decide (acctFloor s i ≠ 0) && decide (objNat s (oPoolFramesP (acctPart s i)) < pendFloors s (acctPart s i))))

/-- An account that the commit takes away passes its charges to the unaccounted charge (R211). -/
def passCharges (before s : State) : State :=
  { s with hub := { s.hub with grans := s.hub.grans.map (fun g =>
    if g.2.state ≠ 0 ∧ poolAcct before g.2.astag g.2.part ≠ none ∧ poolAcct s g.2.astag g.2.part = none then (g.1, { g.2 with unacct := true }) else g) } }

/-- The pending set made active. -/
def commitAcct (s : State) (i : Nat) : State :=
  { setR s (rPoolAcct i) (pendAcct s i) with pend := mapDel s.pend (rPoolAcct i).key }

/-- POOL_ARM (R216): VIEW is written with ARM. -/
def execPoolArm (ag : Agent) (view : Bool) (s : State) : Host.Outcome State Fault Refusal :=
  .next (guarded s ag rPoolArm.key (fun s =>
    let s := setB s rPoolArm fPoolArmView view
    match (List.range 256).find? (acctBad s) with
    | some i => setF (setF s rPoolArm fPoolArmRefused 1) rPoolArm fPoolArmFirstBad i
    | none => setF (setF (passCharges s ((List.range 256).foldl commitAcct s)) rPoolArm fPoolArmRefused 0) rPoolArm fPoolArmFirstBad 0))

/-! ### Promotions and demotions (R204, R205, R207, R210) -/

/-- The copies of a granule, both ways: the bytes and the poison of the source stand at the destination (R207, R214). -/
def copyGranule (s : State) (src dst : Nat) : State :=
  let inRange (b l : Nat) : Bool := decide (b / 64 ≤ l) && decide (l < b / 64 + granBytes / 64)
  let moved := (s.poison.filter (inRange src)).map (fun l => l - src / 64 + dst / 64)
  let kept := s.poison.filter (fun l => !inRange dst l)
  let s := { s with mem := cellsCopy s.mem src dst granBytes, poison := moved.foldl lineInsert kept }
  bump s rMigBytes fMigBytes granBytes

/-- A migration may begin: fewer than MAX_INFLIGHT run, and none is held back for heat (R202, R415). -/
def migRoom (s : State) : Bool := decide (migInFlight s < getF s rMigCfg fMigCfgMaxInflight)

/-- The granule enters PROMOTING with its frame and charge (R204). -/
def startPromotion (s : State) (m : MigReq) (f : Nat) : State :=
  setGran s m.gran { gran s m.gran with state := 1, frame := f, astag := m.astag, part := m.part, age := 0, copying := false, unacct := false, since := s.time }

/-- The queue's promotions in order until one gets a frame (R207, R210): done entries leave the queue, waiting ones stay. -/
def promoteFrom (s : State) (kept : List MigReq) : List MigReq → State
  | [] => { s with hub := { s.hub with migQ := kept } }
  | m :: l =>
    if ¬m.promote ∨ kept.any (fun x => decide (x.gran = m.gran)) then promoteFrom s (kept ++ [m]) l
    else
      let st := (gran s m.gran).state
      if st = 1 ∨ st = 2 then promoteFrom s kept l
      else if st = 3 then
        promoteFrom (if m.bounced then s else bump s rBounces fBounces 1) (kept ++ [{ m with bounced := true }]) l
      else
        let waits := match m.victim with
          | some v => decide ((gran s v).state = 2) || decide ((gran s v).state = 3)
          | none => false
        if waits then promoteFrom s (kept ++ [m]) l
        else
          let sq := { s with hub := { s.hub with migQ := kept ++ l } }
          match chooseFrame sq m.astag m.part with
          | .free f => startPromotion sq m f
          | .victim v => promoteFrom s (kept ++ [{ m with victim := some v }]) l
          | .refused => promoteFrom (bump s rPoolRefused fPoolRefused 1) kept l

/-- PROMOTION_START (R204, R210): none starts while ENABLE is 0 or migration is paused for heat. -/
def execPromotionStart (s : State) : Host.Outcome State Fault Refusal :=
  .next (if ¬getB s rMigCfg fMigCfgEnable ∨ ¬migRoom s ∨ s.pow.migPaused then s else promoteFrom s [] s.hub.migQ)

/-- A promotion whose copy and flush are done: the granule enters RESIDENT_HIGH with age 0 (R204). -/
def finishPromotion (s : State) (g : Nat) : State :=
  let x := gran s g
  if x.state = 1 ∧ x.copying ∧ ¬granFlushing s g then
    let s := setGran s g { x with state := 2, age := 0, copying := false }
    retryGranule (bump (evrLatency s 28 (s.time - x.since)) rPromotions fPromotions 1) g
  else s

/-- Flushes have completed: the promotions that awaited them are done. -/
def afterFlushes (s : State) : State :=
  (s.hub.grans.filter (fun g => decide (g.2.state = 1) && g.2.copying)).foldl (fun s g => finishPromotion s g.1) s

/-- PROMOTION_DONE (R204): the copy has ended; the granule enters RESIDENT_HIGH once its flush is done, at once where nothing is
queued before it. -/
def execPromotionDone (g : BitVec 20) (s : State) : Host.Outcome State Fault Refusal :=
  .next (
    let g := g.toNat
    let x := gran s g
    if x.state ≠ 1 ∨ x.copying then s
    else
      let s := copyGranule s (g * granBytes) (frameAddr x.frame)
      let s := setGran s g { x with copying := true }
      afterFlushes (flushGranule s g false))

/-- The first queued request of a granule is a demotion. -/
def demoteQueued (s : State) (g : Nat) : Bool :=
  match s.hub.migQ.find? (fun m => decide (m.gran = g)) with
  | some m => !m.promote
  | none => false

/-- The granule's context holds more than its account's ceiling, and the granule is its oldest (R211). -/
def overCeiling (s : State) (g : Nat) : Bool :=
  let x := gran s g
  match poolAcct s x.astag x.part with
  | some i =>
    let here (y : Gran) : Bool := chargedTo s x.astag x.part y
    decide (getF s (rPoolAcct i) fPoolAcctCeiling < (s.hub.grans.filter (fun y => here y.2 && decide (y.2.state ≠ 3))).length) &&
      here x && decide (oldest s here = some g)
  | none => false

/-- The queued demotion of a granule taken off the queue. -/
def dropDemote (s : State) (g : Nat) : State :=
  match s.hub.migQ.findIdx? (fun m => decide (m.gran = g)) with
  | some i => { s with hub := { s.hub with migQ := s.hub.migQ.eraseIdx i } }
  | none => s

/-- DEMOTION_START (R205, R207, R210, R211): for a queued DEMOTE, a chosen victim, or an account above its ceiling. -/
def execDemotionStart (g : BitVec 20) (s : State) : Host.Outcome State Fault Refusal :=
  .next (
    let g := g.toNat
    let x := gran s g
    let asked := demoteQueued s g
    let s1 := if asked then dropDemote s g else s
    if x.state = 1 ∧ asked then bump s1 rRefusedDemote fRefusedDemote 1
    else if x.state ≠ 2 then s1
    else if ¬migRoom s then s
    else if asked ∨ s.hub.migQ.any (fun m => decide (m.victim = some g)) ∨ overCeiling s g then
      afterFlushes (flushGranule (setGran s1 g { x with state := 3, copying := false, since := s.time }) g true)
    else s)

/-- DEMOTION_COPY (R205): the copy begins once no request translated by a dropped entry is in flight. -/
def execDemotionCopy (g : BitVec 20) (s : State) : Host.Outcome State Fault Refusal :=
  .next (
    let s := afterFlushes (pumpFlushes s)
    let x := gran s g.toNat
    if x.state = 3 ∧ ¬granFlushing s g.toNat then setGran s g.toNat { x with copying := true } else s)

/-- The frame of a demoted granule passes to the promotion that waited for it (R210). -/
def passFrame (s : State) (g f : Nat) : State :=
  match s.hub.migQ.find? (fun m => decide (m.victim = some g)) with
  | none => s
  | some m =>
    if s.hub.badFrames.elem f ∨ ¬getB s rMigCfg fMigCfgEnable ∨ (gran s m.gran).state ≠ 0 then
      { s with hub := { s.hub with migQ := s.hub.migQ.map (fun x => if x.victim = some g then { x with victim := none } else x) } }
    else startPromotion { s with hub := { s.hub with migQ := s.hub.migQ.filter (fun x => decide (x ≠ m)) } } m f

/-- DEMOTION_DONE (R205). -/
def execDemotionDone (g : BitVec 20) (s : State) : Host.Outcome State Fault Refusal :=
  .next (
    let g := g.toNat
    let x := gran s g
    if x.state ≠ 3 ∨ ¬x.copying then s
    else
      let s := copyGranule s (frameAddr x.frame) (g * granBytes)
      let s := setGran s g { x with state := 0, age := 0, frame := 0, astag := 0, part := 0, copying := false, unacct := false, first := false }
      retryGranule (passFrame (bump (evrLatency s 28 (s.time - x.since)) rDemotions fDemotions 1) g x.frame) g)

/-- AGE_TICK (R200, R209): ages rise, heats halve, and a granule whose heat falls below half the threshold may be reported
again. -/
def execAgeTick (s : State) : Host.Outcome State Fault Refusal :=
  .next (
    let half := getF s rMigCfg fMigCfgHotThresh / 2
    { s with hub := { s.hub with grans := s.hub.grans.map (fun g =>
      (g.1, { g.2 with
        age := if g.2.state = 2 then min 255 (g.2.age + 1) else g.2.age
        heat := g.2.heat / 2
        reported := g.2.reported && !decide (g.2.heat / 2 < half) })) } })

/-- The answer with poison of an access that was not answered in time (R213). A core's load or atomic does not retire (R215). A
write is not performed, and the lines that it would have reached are poisoned (DESIGN CHOICE, log 117). -/
def timedOut (s : State) (r : MemReq) : State × AccessOut :=
  let a := r.mpa.toNat
  let n := reqBytes r
  let reads : Bool := match r.kind with | .write | .sc => false | _ => true
  if !reads then (mpaPoison s a n, .done)
  else match r.agent, r.kind with
    | .core .., _ | .spindle .., _ => (corePoison s r.agent a, .accessFault)
    | _, .atomic .. => (s, .old 0 true)
    | _, _ => (s, .data (List.replicate n 0) true)

/-- TIER_TIMEOUT (R213): the request, an access or a command's, is answered with poison and logged as an uncorrectable error of
its tier. The command goes on at its next attempt, and what it writes there is poisoned. -/
def execTierTimeout (id : Nat) (s : State) : Host.Outcome State Fault Refusal :=
  .next (
    match s.hub.stalled.find? (fun x => decide (x.id = id)) with
    | none =>
      match s.hub.tierWaits.find? (fun x => decide (x.id = id) && !x.late) with
      | none => s
      | some x =>
        if s.time < x.since + objNat s oTierTimeout * 1000000 then s
        else
          let a := (x.spans.head?.getD (0, 0)).1
          let s := { s with hub := { s.hub with tierWaits := s.hub.tierWaits.map (fun y => if y.id = id then { y with late := true } else y) } }
          logError s (lineError s (locate s a) 1 2) (addrOwner s a)
    | some x =>
      if s.time < x.since + objNat s oTierTimeout * 1000000 then s
      else
        let a := x.req.mpa.toNat
        let s := { s with hub := { s.hub with stalled := s.hub.stalled.filter (fun y => decide (y.id ≠ id)) } }
        let (s, o) := timedOut (logError s (lineError s (locate s a) 1 2) (addrOwner s a)) x.req
        answerId s x o)

end Sys2Proof.Machine
end

