-- ==== Sys2Proof/Machine/Units.lean ====
section
/-! DEFINITION. Units that lose their state: generations (R427, R428), the loss of an engine, of a core's copies and of a die
(R25, R361, R425). -/

namespace Sys2Proof.Machine

open Sys2Proof

/-! ### Generations (R427) -/

/-- The generation of a unit raised. -/
def bumpGen (s : State) (u : UnitId) : State :=
  match u with
  | .engine e => advance s (rEngGen e) fEngGenGen 1
  | _ => { s with pow := { s.pow with gens := mapSet s.pow.gens u ((mapGet s.pow.gens u 0 + 1) % 2 ^ 32) } }

/-! ### Caching agents -/

/-- An entry of the directory replaced in its place. -/
def dirUpdate (s : State) (d : DirEnt) : State :=
  { s with hub := { s.hub with dir := s.hub.dir.map (fun x => if x.line = d.line then d else x) } }

/-- What becomes of the dirty lines of a caching agent that goes. -/
inductive Dirty
  /-- Written back: the agent drained. -/
  | back
  /-- Poisoned at their home (R428). -/
  | poison
  /-- Lost with the cache: the line's contents are not stated. -/
  | lost
deriving DecidableEq, Repr

/-- A caching agent's copies go (R428). -/
def dropAgent (s : State) (bit : Nat) (how : Dirty) : State :=
  let s := s.hub.dir.foldl (fun s d =>
    if ¬d.pv.elem bit then s
    else
      let s := if ¬d.owned then s
        else match how with
          | .back => match d.data with
            | some bs => writeBack s d.line bs
            | none => s
          | .poison => poisonLine s (locate s (64 * d.line) / 64)
          | .lost => scramble s (locate s (64 * d.line)) 64
      let pv := d.pv.filter (fun b => decide (b ≠ bit))
      if pv = [] then dirDrop s d.line else dirUpdate s { d with owned := false, pv := pv, data := none, hold := none }) s
  { s with hub := { s.hub with resv := mapDel s.hub.resv bit } }

/-- The core's bit in every partition's CORE_HOLD set: it is held in reset (R429). -/
def holdCore (s : State) (c : Nat) : State :=
  (List.range 16).foldl (fun s p => setR s (rCoreHold p (c / 64)) (getR s (rCoreHold p (c / 64)) ||| BitVec.ofNat 64 (2 ^ (c % 64)))) s

/-- A server core stops: its copies go, it is held in reset. -/
def stopCore (s : State) (c : Nat) (how : Dirty) : State :=
  let s := holdCore (dropAgent s c how) c
  { s with pow := { s.pow with corePc := mapDel s.pow.corePc c } }

/-! ### Engines -/

/-- What the hub holds for an engine's spools is dropped. -/
def dropHubEngine (s : State) (e : Nat) : State :=
  let mine (u : SpoolId) : Bool := decide (u.e.val = e)
  { s with
    fab := { s.fab with
      ops := s.fab.ops.filter (fun o => !mine o.u), disps := s.fab.disps.filter (fun o => !mine o.u), combs := s.fab.combs.filter (fun o => !mine o.u) }
    hub := { s.hub with consults := s.hub.consults.filter (fun c => decide (c.req.unit = 8) || !decide (c.req.e.val = e)) } }

/-- The records of an engine's spools, contexts, tasks and caches are gone. The accesses held for its wake are kept (R424). -/
def dropEngRecords (s : State) (e : Nat) : State :=
  let a := engAux s e
  let g := s.eng
  { s with eng := { g with
    spools := g.spools.filter (fun x => !decide (x.1.e.val = e))
    bobs := g.bobs.filter (fun x => !decide (x.1.1 = e))
    stats := g.stats.filter (fun x => !decide (x.1.1 = e))
    harts := g.harts.filter (fun x => !decide (x.1.e.val = e))
    tasks := g.tasks.filter (fun x => !decide (x.1.1 = e))
    ctxs := g.ctxs.filter (fun x => !decide (x.1.1 = e))
    issued := g.issued.filter (fun x => !decide (x.1.1.e.val = e))
    engs := mapSet g.engs e { idleSince := some s.time, heldWake := a.heldWake, wake := a.wake, deadCores := a.deadCores } } }

/-- The registers of an engine's context windows as they are after reset. -/
def resetWindows (s : State) (e : Nat) : State :=
  { s with regs := s.regs.filter (fun x => !(decide (x.1.blk = .engC) && decide (x.1.i = e))) }

/-- Bobbin n EMPTY where BOB_CFG_n allocates it, else UNALLOC. -/
def emptyBob (s : State) (e b : Nat) : State :=
  setBob s e b (if getB s (rBobCfg e b) fBobCfgValid then bEmpty else bUnalloc) 0 false 0

/-- A Spindle core without a task, unless it is in reset or retired. -/
def idleCore (s : State) (e k : Nat) : State :=
  if coreState s e k = cReset ∨ (engAux s e).deadCores.elem k then s
  else setF (setF s (rSpnState e k) fSpnStateState cIdle) (rSpnState e k) fSpnStateSlot 0

/-- Bytes of a bobbin store (R3). -/
def sramBytes : Nat := 48 * 2 ^ 20

/-- An engine loses its state (R425): bobbin contents, tasks, accumulator sets, stat table, range cache, every VALID bit.
BOB_CFG, SCHED_SLOT and CTX_CFG keep their other fields. The L1 caches of its Spindle cores go with it. -/
def dropEngine (s : State) (e : Nat) (force : Bool) : State :=
  let s := (List.range 4).foldl (fun s k => dropAgent s (128 + 4 * e + k) (if force then .lost else .back)) s
  let s := resetWindows (dropEngRecords (dropHubEngine s e) e) e
  let s := { s with pend := s.pend.filter (fun x => !(decide (x.1.blk = .engP) && decide (x.1.i = e))) }
  let s := (List.range 16).foldl (fun s n => setF s (rCtxCfg e n) fCtxCfgValid 0) s
  let s := (List.range 256).foldl (fun s b => emptyBob s e b) s
  let s := (List.range 16).foldl (fun s i => setF (setTaskState s e i tFree) (rSchedSlot e i) fSchedSlotCore 0) s
  let s := (List.range 4).foldl (fun s k => idleCore s e k) s
  scramble s (sramAddr e 0) sramBytes

/-- The commands of a spool that have ended complete. -/
def completeEnded (s : State) (u : SpoolId) : State :=
  ((spool s u).cmds.filter (fun c => decide (c.phase = .ended))).foldl (fun s c => completeCmd s u c) s

/-- The spools of an engine. -/
def engSpools (e : Fin 32) : List SpoolId := (List.finRange 16).flatMap (fun n => (List.finRange 4).map (fun i => ⟨e, n, i⟩))

/-- An engine drains (R423): its ended commands complete and the records it owes are written as far as their rings have room. -/
def drainEngine (s : State) (e : Fin 32) : State := (engSpools e).foldl completeEnded s

/-- Nothing of the engine is left to write. -/
def engDrained (s : State) (e : Fin 32) : Bool := (engSpools e).all (fun u => (spool s u).cmds.isEmpty && (spool s u).held.isEmpty)

/-- Every context slot of an engine cleared as by CTX_CFG_n.VALID = 0 (R425, R426). -/
def clearContexts (s : State) (e : Fin 32) : State :=
  (List.finRange 16).foldl (fun s n =>
    if ctxValid s e n.val then ctxCfgWrite s e n (fset (getR s (rCtxCfg e n)) fCtxCfgValid 0) else s) s

/-- An engine leaves with its state: ACTIVE under a new generation (R425, R427). -/
def finishEngReset (s : State) (e : Nat) (force : Bool) : State :=
  bumpGen (setF (dropEngine s e force) (rEngPwr e) fEngPwrState 0) (.engine (Fin.ofNat 32 e))

/-- An engine reset (R425, R428): FORCE resets at once; otherwise the contexts are cleared, the engine drains, and the reset
ends when nothing is left to write. -/
def engineReset (s : State) (e : Fin 32) (force : Bool) : State :=
  if force then finishEngReset s e true
  else
    let s := drainEngine (clearContexts s e) e
    if engDrained s e then finishEngReset s e false else setEngAux s e { engAux s e with depart := some s.time }

/-- Steps of the commands that an engine holds, with their partitions. -/
def engineSteps (s : State) (e : Fin 32) : List (Nat × Nat) :=
  (List.finRange 16).flatMap (fun n => (heldSteps s e n).map (fun st => (ctxPart s e n, st)))

/-- UNIT_LOST for the steps that an engine holds commands of (R296). -/
def raiseLost (s : State) (e : Fin 32) : State := (engineSteps s e).foldl (fun s x => raisePennant s x.1 x.2 8) s

/-! ### Dies (R25, R361) -/

/-- Partitions that own an engine or a core of a die. -/
def dieOwners (s : State) (d : Nat) : List Nat :=
  (List.range 16).filter (fun p =>
    (decide (d < 8) && (List.range 4).any (fun k => decide (engOwner s (4 * d + k) = some p))) ||
    (decide (8 ≤ d) && decide (d < 10) && (List.range 64).any (fun k => decide (coreOwner s (64 * (d - 8) + k) = some p))))

/-- A UNIT_REMOVED record: P_0's ring, then the rings of the other owners. -/
def logRemoved (s : State) (i : ErrInfo) (owners : List Nat) : State :=
  let s := logError s i none
  (owners.filter (fun p => decide (p ≠ 0))).foldl (fun s p => errPut s (errPring p) { i with part := p } 0 false) s

/-- The removal of a die (R25, R361): its engines or cores are lost, the steps they hold commands of take the Pennant's cause
UNIT_LOST, and the loss is recorded. -/
def removeDie (s : State) (d : Fin 12) : State :=
  if s.d2d.removed.elem d.val then s
  else
    let owners := dieOwners s d
    let s := if d.val < 8 then
        (List.range 4).foldl (fun s k => dropEngine (raiseLost s (Fin.ofNat 32 (4 * d.val + k))) (4 * d.val + k) true) s
      else if d.val < 10 then
        (List.range 64).foldl (fun s k => stopCore s (64 * (d.val - 8) + k) .poison) s
      else s
    let s := { s with d2d := { s.d2d with removed := lineInsert s.d2d.removed d.val } }
    let s := if s.d2d.removed.elem 8 && s.d2d.removed.elem 9 then
        { s with pow := { s.pow with stopped := true }, fab := { s.fab with ready := false } } else s
    logRemoved s { src := 10, sev := 2, typ := 6, unit := d, die := d } owners

/-- A removed die returns after a fresh discovery (R360): its units come back without state under new generations (R427). The module
serves again once a server die is in (R25). -/
def rejoinDie (s : State) (d : Fin 12) : State :=
  if ¬s.d2d.removed.elem d.val then s
  else
    let s := { s with d2d := { s.d2d with removed := s.d2d.removed.filter (fun x => decide (x ≠ d.val)) } }
    let out := s.d2d.removed.elem 8 && s.d2d.removed.elem 9
    let s := { s with pow := { s.pow with stopped := out }, fab := { s.fab with ready := !out && decide (objNat s oStartState = 12) } }
    let s := if d.val < 8 then (List.range 4).foldl (fun s k => finishEngReset s (4 * d.val + k) true) s
      else if d.val < 10 then (List.range 64).foldl (fun s k => bumpGen s (.core (Fin.ofNat 128 (64 * (d.val - 8) + k)))) s
      else s
    bumpGen s (.die d)

end Sys2Proof.Machine
end

