-- ==== Sys2Proof/Machine/Plalia.lean ====
section
/-! DEFINITION. Plalia messages (R346 to R349, R356): the MEM, COH, IRQ and MGT channels, the guest's requests, and the
coherence commands and bias changes (R267 to R278). -/

namespace Sys2Proof.Machine

open Sys2Proof

/-! ### Connections -/

def linkState (s : State) (l : Nat) : Nat := getF s (rPlaLinkState l) fPlaLinkStateState
def linkChannels (s : State) (l : Nat) : Nat := getF s (rPlaLinkState l) fPlaLinkStateChannels

/-- Connection states (PLA_LINK_STATE_n). -/
def lkDown : Nat := 0
def lkTraining : Nat := 1
def lkUp : Nat := 2
def lkFailed : Nat := 3

/-- A channel of R347 is open on a connection: both ends hold AGREE and it was agreed (R351). -/
def chanOpen (s : State) (l c : Nat) : Bool := decide (linkState s l = lkUp) && (link s l).agreed && bitOf (linkChannels s l) c

/-- A reserved code, or a channel that was not agreed: counted; a request is answered UNSUPPORTED (R348). -/
def plaBad (s : State) (l : Nat) (m : PlaMsg) : State :=
  let s := bump s (rPlaBad l) fPlaBad 1
  if m.rsp then s else plaReply s l m 0x20 [] 0

/-- The header spells the row's message, and a message with data carries its lines whole (R347). -/
def plaSpells (m : PlaMsg) (chan : Nat) (rsp : Bool) (op : Nat) (data : Bool) : Bool :=
  decide (m.chan.toNat = chan) && decide (m.rsp = rsp) && decide (m.op.toNat = op) &&
    (!data || decide (m.data.length = 64 * (m.lines.toNat + 1)))

/-- The message after the parity check of its sender (R350, R390): lines with a parity error are poisoned. -/
def parityMsg (m : PlaMsg) : PlaMsg :=
  match m.parity with
  | .data ls => { m with poison := m.poison ||| ls, parity := .ok }
  | _ => m

/-- The record of a parity error in a message (R390, R400). -/
def parityRecord (s : State) (l : Nat) (m : PlaMsg) : State :=
  if m.parity = .ok then s
  else logError s { addr := 64 * (m.addr.toNat / 64), src := 10, sev := 1, typ := 1, unit := l, die := linkDie l,
                    part := (addrOwner s m.addr.toNat).getD 0 } (addrOwner s m.addr.toNat)

/-- A message reaches the end of its connection: nothing arrives over a connection that is down or failed, but a request of a
removed guest is refused. A parity error in its data poisons the lines concerned; one in its header refuses a request, and a response
is dropped (R390; DESIGN CHOICE for the response, log 137). The credits go round with it (R346). -/
def plaMessage (s : State) (l : Fin 19) (m : PlaMsg) (chan : Nat) (rsp : Bool) (op : Nat) (data : Bool) (f : State → PlaMsg → State) : State :=
  if linkState s l = lkDown ∨ linkState s l = lkFailed ∨ (link s l).inReset then
    if l.val = 18 ∧ s.d2d.removed.elem 11 ∧ ¬m.rsp then plaReply s l m 8 [] 0 else s
  else
    let s := parityRecord (takeCredits s l m) l m
    let early := decide (chan = 4) && decide (op < 2) && !rsp
    let s := if m.parity = .field then (if m.rsp then s else plaReply s l m 8 [] 0)
      else if plaSpells m chan rsp op data ∧ (early ∨ chanOpen s l chan) then f s (parityMsg m) else plaBad s l m
    pumpFlits s l

/-- The agent that a header's AGENT field names on a connection. The field's coding is not given. -/
def plaSource (l : Fin 19) (m : PlaMsg) : Agent :=
  let x := Config.agentIndex m.agent
  if l.val = 18 then .guest
  else if 16 ≤ l.val then .core (Fin.ofNat 128 (64 * (l.val - 16) + x % 64)) (match x / 64 % 3 with | 0 => .u | 1 => .s | _ => .m)
  else
    let d := if l.val < 8 then l.val else (l.val - 8 + x / 1024 % 2) % 8
    let e : Fin 32 := Fin.ofNat 32 (4 * d + x % 4)
    if x / 4 % 2 = 0 then .engine e (Fin.ofNat 16 (x / 8)) else .spindle e (Fin.ofNat 4 (x / 8)) .u

/-- The access a MEM or COH request asks for. The header carries no generation, no ASTAG and no hint. -/
def plaReq (s : State) (l : Fin 19) (m : PlaMsg) (kind : MemKind) (cached : Bool) (strobe : Option (BitVec 64)) : MemReq :=
  let ag := plaSource l m
  { agent := ag, kind := kind
    mpa := match kind with
      | .atomic .. => m.addr
      | _ => BitVec.ofNat 50 (m.addr.toNat / 64 * 64)
    len := 64 * (m.lines.toNat + 1), data := m.data, strobe := strobe
    operand := BitVec.ofNat 64 (u64At m.data 0), compare := BitVec.ofNat 64 (u64At m.data 8)
    shared := !m.nc, cached := cached, astag := 0, hint := 0, direct := false
    gen := match agentUnit ag with
      | some u => BitVec.ofNat 32 (unitGen s u)
      | none => 0
    ecc := .ok }

/-- The guest's conditions of R356: a window holds the whole access, and the partition's share of a tier does. -/
def guestMay (s : State) (r : MemReq) : Bool :=
  let a := r.mpa.toNat
  let n := reqBytes r
  (List.range 4).any (fun i => let w := objBytes s (oGuestWin i); inSpan a n (u64At w 0) (u64At w 8)) &&
    (match spanRegion s a n with
      | some .bulk | some .spread | some (.direct _) | some .flash => true
      | _ => false) &&
    inShare s (objNat s oGuestPartition) a n

/-- A request of the guest refused (R356). -/
def guestRefuse (s : State) (m : PlaMsg) : State :=
  let s := bump s (rPlaGuestRefused 18) fPlaGuestRefused 1
  let s := { s with d2d := { s.d2d with guestBad := s.d2d.guestBad.filter (fun t => decide (s.time < t + oneSecond)) ++ [s.time] } }
  plaReply s 18 m 8 [] 0

/-- A request on a neighbour link: to the stacked tier of the die at the other end, or of a die whose hub traffic is carried by that link
(R24, R359). Another does not belong there, and is refused (DESIGN CHOICE, log 138). -/
def ringMay (s : State) (l : Nat) (m : PlaMsg) (r : MemReq) : Bool :=
  if l < 8 ∨ 16 ≤ l then true
  else
    let a := l - 8
    let b := (l - 7) % 8
    let src := (a + Config.agentIndex m.agent / 1024 % 2) % 8
    let dst := if src = a then b else a
    let route := getF s (rPlaLinkState src) fPlaLinkStateRoute
    (match regionOf s r.mpa.toNat with
      | some (.direct d) => decide (d = dst)
      | some .spread => decide (dieAt s r.mpa.toNat = some dst)
      | _ => false) || (decide (src = a) && decide (route = 1)) || (decide (src = b) && decide (route = 2))

/-- A MEM or COH request served at its MPA; one that waits is answered when its access is. A store into the SRAM of an engine
that is not ACTIVE wakes it and is held (R424). -/
def plaServe (s : State) (l : Fin 19) (m : PlaMsg) (c : Instr) (r : MemReq) : State :=
  if l.val = 18 ∧ ¬guestMay s r then guestRefuse s m
  else if ¬ringMay s l m r then plaReply s l m 8 [] 0
  else
    match sleepingStore s r with
    | some e =>
      let a := engAux s e
      setEngAux s e { a with heldWake := a.heldWake ++ [c], wake := true }
    | none =>
      match serve s r with
      | (s, .stalled id) => { s with d2d := { s.d2d with waits := mapSet s.d2d.waits id (l.val, m) } }
      | (s, o) => settleWaits (plaAnswer s l m r o)

/-! ### The MEM channel -/

/-- RD (R347). -/
def execRd (l : Fin 19) (m : PlaMsg) (s : State) : Host.Outcome State Fault Refusal :=
  .next (plaMessage s l m 0 false 0 false (fun s m => plaServe s l m (.rd l m) (plaReq s l m .read false none)))

/-- A WR served. -/
def wrServe (s : State) (l : Fin 19) (m : PlaMsg) : State := plaServe s l m (.wr l m) (plaReq s l m .write false none)

/-- WR (R347). -/
def execWr (l : Fin 19) (m : PlaMsg) (s : State) : Host.Outcome State Fault Refusal :=
  .next (plaMessage s l m 0 false 1 true (fun s m => wrServe s l m))

/-- A WRP served. -/
def wrpServe (s : State) (l : Fin 19) (m : PlaMsg) : State := plaServe s l m (.wrp l m) (plaReq s l m .write false (some m.mask))

/-- WRP (R347): one line under its byte mask. -/
def execWrp (l : Fin 19) (m : PlaMsg) (s : State) : Host.Outcome State Fault Refusal :=
  .next (
    if m.lines ≠ 0 then plaMessage s l m 0 false 16 true (fun s _ => s)
    else plaMessage s l m 0 false 2 true (fun s m => wrpServe s l m))

/-- The operation that AOP names; code 7 is reserved. -/
def aopOf (m : PlaMsg) : Option AtomicOp :=
  match m.aop.toNat with
  | 0 => some .add
  | 1 => some .fadd32
  | 2 => some .faddbf16
  | 3 => some .min
  | 4 => some .max
  | 5 => some .swap
  | 6 => some .cas
  | _ => none

/-- An ATOM served. -/
def atomServe (s : State) (l : Fin 19) (m : PlaMsg) (op : AtomicOp) : State :=
  plaServe s l m (.atom l m) (plaReq s l m (.atomic op m.size64 m.signed) false none)

/-- ATOM (R280 to R283, R347): operand in bytes 0 to 7 of its line, compare value in bytes 8 to 15. -/
def execAtom (l : Fin 19) (m : PlaMsg) (s : State) : Host.Outcome State Fault Refusal :=
  .next (
    match aopOf m with
    | none => plaMessage s l m 0 false 16 true (fun s _ => s)
    | some op => plaMessage s l m 0 false 3 true (fun s m => atomServe s l m op))

/-- A response received: the request it answers is no longer outstanding; an access of a server core to the guest's windows
(kind 0) has its answer. -/
def plaResponse (s : State) (l : Fin 19) (m : PlaMsg) : State :=
  let x := link s l
  match x.outReq.find? (fun r => decide (r.1 = m.tag.toNat)) with
  | none => s
  | some (t, k) =>
    let s := setLink s l { x with outReq := x.outReq.filter (fun r => decide (r.1 ≠ t)), slice := mapDel x.slice t }
    if k = 0 then
      let (o, n) := mapGet x.slice t (0, 64)
      putAccess s (if m.status ≠ 0 then .accessFault else if m.op = 0 then .data ((m.data.drop o).take n) (decide (m.poison ≠ 0)) else .done)
    else { s with d2d := { s.d2d with telemetry := s.d2d.telemetry ++ [(l.val, m)] } }

/-- MEM_DATA (R347). -/
def execMemData (l : Fin 19) (m : PlaMsg) (s : State) : Host.Outcome State Fault Refusal :=
  .next (plaMessage s l m 0 true 0 true (fun s m => plaResponse s l m))

/-- MEM_ACK (R347). -/
def execMemAck (l : Fin 19) (m : PlaMsg) (s : State) : Host.Outcome State Fault Refusal :=
  .next (plaMessage s l m 0 true 1 false (fun s m => plaResponse s l m))

/-- COH_DATA (R347). -/
def execCohData (l : Fin 19) (m : PlaMsg) (s : State) : Host.Outcome State Fault Refusal :=
  .next (plaMessage s l m 1 true 0 true (fun s m => plaResponse s l m))

/-- COH_ACK (R347). -/
def execCohAck (l : Fin 19) (m : PlaMsg) (s : State) : Host.Outcome State Fault Refusal :=
  .next (plaMessage s l m 1 true 1 false (fun s m => plaResponse s l m))

/-- DBG_DATA (R347). -/
def execDbgData (l : Fin 19) (m : PlaMsg) (s : State) : Host.Outcome State Fault Refusal :=
  .next (plaMessage s l m 3 true 0 true (fun s m => plaResponse s l m))

/-- MGT_DATA (R347). -/
def execMgtData (l : Fin 19) (m : PlaMsg) (s : State) : Host.Outcome State Fault Refusal :=
  .next (plaMessage s l m 4 true 0 true (fun s m => plaResponse s l m))

/-- MGT_ACK (R347). -/
def execMgtAck (l : Fin 19) (m : PlaMsg) (s : State) : Host.Outcome State Fault Refusal :=
  .next (plaMessage s l m 4 true 1 false (fun s m => plaResponse s l m))

/-! ### The COH channel (R267 to R271) -/

/-- The connection of a caching agent's die. -/
def bitLink (b : Nat) : Nat := if b < 128 then 16 + b / 64 else (b - 128) / 16

/-- The connection that carries what the hub sends to a die: with its own failed, the neighbour's (R359). -/
def viaLink (s : State) (l : Nat) : Nat :=
  if 8 ≤ l then l
  else match getF s (rPlaLinkState l) fPlaLinkStateRoute with
    | 1 => (l + 1) % 8
    | 2 => (l + 7) % 8
    | _ => l

/-- A snoop on connection l reaches the die of connection d: its own, the one it is rerouted over, or the neighbour link between. -/
def reaches (s : State) (l d : Nat) : Bool :=
  decide (l = d) || (decide (d < 8) && decide (viaLink s d ≠ d) &&
    (decide (l = viaLink s d) || decide (l = (if viaLink s d = (d + 1) % 8 then 8 + d else 8 + (d + 7) % 8))))

/-- A snoop sent to a die. -/
def sendSnoop (s : State) (l line op : Nat) : State :=
  let id := s.hub.nextId
  let m : PlaMsg := { chan := 1, rsp := false, op := BitVec.ofNat 4 op, poison := 0, tag := BitVec.ofNat 16 id, agent := Config.hubAgent
                      status := 0, nc := false, aop := 0, size64 := false, signed := false, addr := BitVec.ofNat 50 (64 * line)
                      lines := 0, data := [], mask := 0 }
  let s := { s with hub := { s.hub with nextId := id + 1 } }
  let x := link s l
  plaSend (setLink s l { x with outReq := x.outReq ++ [(id % 65536, 1)] }) l m

/-- The snoops that a request of agent `bit` for a line needs (R270): SNP_FWD to an owner for a read, SNP_INV to every other
holder for ownership. -/
def snoopsFor (s : State) (bit : Option Nat) (own : Bool) (line : Nat) : State :=
  match dirFind s line with
  | none => s
  | some d =>
    let others := d.pv.filter (fun b => decide (some b ≠ bit))
    if own then (others.map bitLink).dedup.foldl (fun s l => sendSnoop s (viaLink s l) line 2) s
    else if d.owned then (others.map bitLink).dedup.foldl (fun s l => sendSnoop s (viaLink s l) line 3) s
    else s

/-- A coherent read of a caching agent: its snoops go out, then the home serves it line by line. -/
def cohRequest (s : State) (l : Fin 19) (m : PlaMsg) (own : Bool) (c : Instr) : State :=
  let r := plaReq s l m (if own then .own else .read) true none
  match presenceBit r.agent with
  | none => plaReply s l m 8 [] 0
  | some b =>
    if (refusal s r).isSome then plaReply s l m 8 [] 0
    else plaServe ((linesOf r.mpa.toNat r.len).foldl (fun s line => snoopsFor s (some b) own line) s) l m c { r with shared := true }

/-- RD_SHARED (R270). -/
def execRdShared (l : Fin 19) (m : PlaMsg) (s : State) : Host.Outcome State Fault Refusal :=
  .next (plaMessage s l m 1 false 0 false (fun s m => cohRequest s l m false (.rdShared l m)))

/-- RD_OWN (R270). -/
def execRdOwn (l : Fin 19) (m : PlaMsg) (s : State) : Host.Outcome State Fault Refusal :=
  .next (plaMessage s l m 1 false 1 false (fun s m => cohRequest s l m true (.rdOwn l m)))

/-- The holders of a line on the dies that a connection reaches. -/
def dieHolders (s : State) (d : DirEnt) (l : Nat) : List Nat := d.pv.filter (fun b => reaches s l (bitLink b))

/-- A snoop takes effect at the die of its connection: SNP_INV takes its copies away, an owner's data going home; SNP_FWD makes
the owner send its data and keep a read-only copy (R270). -/
def applySnoop (s : State) (l : Nat) (m : PlaMsg) : State :=
  let line := m.addr.toNat / 64
  match dirFind s line with
  | none => plaReply s l m 0 [] 0
  | some d =>
    let mine := dieHolders s d l
    if mine = [] then plaReply s l m 0 [] 0
    else if m.op.toNat = 2 then
      let s := match d.owned, d.data with
        | true, some bs => writeBack s line bs
        | _, _ => s
      let s := bump s rInvalidations fInvalidations mine.length
      let s := { s with hub := { s.hub with resv := s.hub.resv.filter (fun x => !(decide (x.2 = line) && mine.elem x.1)) } }
      let pv := d.pv.filter (fun b => !mine.elem b)
      plaReply (if pv = [] then dirDrop s line else dirUpdate s { d with owned := false, pv := pv, data := none, hold := none }) l m 0 [] 0
    else if d.owned then
      let bs := hubView s (64 * line) 64
      let s := match d.data with
        | some bs => writeBack s line bs
        | none => s
      let s := bump s rOwnerSupply fOwnerSupply 1
      plaReply (dirUpdate s { d with owned := false, data := none, hold := none }) l m 0 bs (poisonBits s (64 * line) 1)
    else plaReply s l m 0 [] 0

/-- A snoop that meets an owner within its hold waits there (R271). -/
def snoop (s : State) (l : Nat) (m : PlaMsg) : State :=
  let line := m.addr.toNat / 64
  match dirFind s line with
  | some d =>
    if d.owned ∧ dieHolders s d l ≠ [] ∧ heldLine s none line then dirUpdate s { d with waiters := d.waiters ++ [(l, m, s.time)] }
    else applySnoop s l m
  | none => applySnoop s l m

/-- SNP_INV (R270). -/
def execSnpInv (l : Fin 19) (m : PlaMsg) (s : State) : Host.Outcome State Fault Refusal :=
  .next (plaMessage s l m 1 false 2 false (fun s m => snoop s l m))

/-- SNP_FWD (R270). -/
def execSnpFwd (l : Fin 19) (m : PlaMsg) (s : State) : Host.Outcome State Fault Refusal :=
  .next (plaMessage s l m 1 false 3 false (fun s m => snoop s l m))

/-- A writeback that meets a migrating granule waits as every write does (R206): the owner's data is at the home meanwhile, and the
answer follows when it has landed. -/
def holdWriteback (s : State) (l : Fin 19) (m : PlaMsg) (d : DirEnt) (b : Nat) : State :=
  let bs := m.data.take 64
  let s := dirUpdate s { d with pv := d.pv.filter (fun x => decide (x ≠ b)), data := some bs, hold := none }
  match stallReq s { plaReq s l m .write false none with data := bs, shared := true } with
  | (s, .stalled id) => { s with d2d := { s.d2d with waits := mapSet s.d2d.waits id (l.val, m) } }
  | (s, _) => s

/-- A writeback of an owned line: its data lands and the line goes to NONE, or to COPIES if others remain; the writeback of an
agent that no longer owns the line writes nothing (R267, the table under R283). A line cached in breach of R248 has been
evicted (R276). -/
def writebackLine (s : State) (l : Fin 19) (m : PlaMsg) : State :=
  let line := m.addr.toNat / 64
  let s := if 16 ≤ l.val then breachEvict s line else s
  match presenceBit (plaSource l m), dirFind s line with
  | some b, some d =>
    if d.owned ∧ d.pv.elem b then
      if migrationStalls s (64 * line) 64 then holdWriteback s l m d b
      else
      let s := rawWrite s (locate s (64 * line)) (m.data.take 64)
      let s := if m.poison.getLsbD 0 then poisonLine s (locate s (64 * line) / 64) else s
      let pv := d.pv.filter (fun x => decide (x ≠ b))
      plaReply (if pv = [] then dirDrop s line else dirUpdate s { d with owned := false, pv := pv, data := none, hold := none }) l m 0 [] 0
    else plaReply s l m 0 [] 0
  | _, _ => plaReply s l m 0 [] 0

/-- WB (R267). -/
def execWb (l : Fin 19) (m : PlaMsg) (s : State) : Host.Outcome State Fault Refusal :=
  .next (plaMessage s l m 1 false 4 true (fun s m => settleWaits (writebackLine s l m)))

/-- Hub cycles in a time in ns (1.8 GHz). -/
def hubCycles (ns : Nat) : Nat := ns * 9 / 5

/-- A hold ends: what waited at the owner proceeds, and its wait is counted (R271). -/
def endHold (s : State) (d : DirEnt) : State :=
  let here (x : StalledReq) : Bool := (linesOf x.req.mpa.toNat (reqBytes x.req)).elem d.line
  let waited := ((s.hub.stalled.filter here).map (fun x => hubCycles (s.time - x.since))).sum +
    (d.waiters.map (fun w => hubCycles (s.time - w.2.2))).sum
  let s := bump (dirUpdate s { d with hold := none, waiters := [] }) rHoldWait fHoldWait waited
  retryAll (d.waiters.foldl (fun s w => snoop s w.1 w.2.1) s)

/-- OWNERSHIP_HOLD_EXPIRY (R271): the hold is over. Requests that waited for a line which has left the directory meanwhile go
on too (R269). -/
def execOwnershipHoldExpiry (line : BitVec 44) (s : State) : Host.Outcome State Fault Refusal :=
  .next (
    match dirFind s line.toNat with
    | none => settleWaits s
    | some d =>
      match d.hold with
      | none => settleWaits s
      | some t => if s.time < t then s else endHold s d)

/-! ### The IRQ channel (R349, R356) -/

/-- MEM writes of a connection that no target has acknowledged. -/
def waitingWrites (s : State) (l : Nat) : List Nat :=
  (s.d2d.waits.filter (fun w => decide (w.2.1 = l) && decide (w.2.2.chan = 0) && decide (w.2.2.op ≠ 0))).map (fun w => w.1)

/-- The interrupt file belongs to the guest's partition. -/
def guestFile (s : State) (m : PlaMsg) : Bool :=
  match imsicFile m.addr.toNat with
  | some (c, _) => decide (coreOwner s c = some (objNat s oGuestPartition))
  | none => false

/-- MSI (R349): applied once every MEM write sent before it on the connection is acknowledged; the guest's only to a file of
its partition (R356). -/
def execMsi (l : Fin 19) (m : PlaMsg) (s : State) : Host.Outcome State Fault Refusal :=
  .next (plaMessage s l m 2 false 0 false (fun s m =>
    if l.val = 18 ∧ ¬guestFile s m then s
    else
      let x := link s l
      releaseMsis (setLink s l { x with msiHeld := x.msiHeld ++ [(m, waitingWrites s l)] }) l))

/-! ### The MGT channel -/

/-- An MGT request recorded and acknowledged. -/
def mgtRequest (s : State) (l : Fin 19) (m : PlaMsg) : State :=
  plaReply { s with d2d := { s.d2d with telemetry := s.d2d.telemetry ++ [(l.val, m)] } } l m 0 [] 0

/-- DICT (R347). -/
def execDict (l : Fin 19) (m : PlaMsg) (s : State) : Host.Outcome State Fault Refusal :=
  .next (plaMessage s l m 4 false 2 false (fun s m => mgtRequest s l m))

/-- RESET_REQ (R347). -/
def execResetReq (l : Fin 19) (m : PlaMsg) (s : State) : Host.Outcome State Fault Refusal :=
  .next (plaMessage s l m 4 false 3 false (fun s m => mgtRequest s l m))

/-- TELEMETRY (R347). -/
def execTelemetry (l : Fin 19) (m : PlaMsg) (s : State) : Host.Outcome State Fault Refusal :=
  .next (plaMessage s l m 4 false 4 false (fun s m => mgtRequest s l m))

/-! ### Bias changes (R277, R278) -/

/-- DIR_BIAS_REQ (R278): queued with the current span, at most four, else refused. The span lies at home MPAs: not in pool frames,
and not in the spread region through the direct view. -/
def execDirBiasReq (ag : Agent) (astag : BitVec 16) (all toShared : Bool) (s : State) : Host.Outcome State Fault Refusal :=
  .next (guarded s ag rDirBiasReq.key (fun s =>
    let a := getF s rDirBiasSpan fDirBiasSpanStart * 65536
    let n := getF s rDirBiasLen fDirBiasLenLength * 65536
    let tier : Bool := match spanRegion s a n with
      | some .bulk => true
      | some .spread => decide (a + n ≤ frameAddr (poolFirst s))
      | some (.direct _) => directOpen s a n
      | _ => false
    if 4 ≤ s.hub.biasQ.length ∨ ¬tier then setF s rDirBiasStatus fDirBiasStatusRefused 1
    else
      let s := { s with hub := { s.hub with biasQ := s.hub.biasQ ++ [{ start := a, len := n, astag := astag.toNat, all := all, toShared := toShared }] } }
      setF s rDirBiasStatus fDirBiasStatusQueued s.hub.biasQ.length))

/-- Step 2 of R278: FLUSH_TAG with DRAIN, queued with the others (R254), once. -/
def biasFlush (s : State) (b : BiasReq) (l : List BiasReq) : State :=
  if b.flushed then s
  else { s with hub := { s.hub with
    biasQ := { b with flushed := true } :: l
    flushWait := s.hub.flushWait ++ [{ astag := b.astag, all := b.all, drain := true, software := false, bias := true }] } }

/-- The bias change's flush has not completed. -/
def biasFlushing (s : State) : Bool := (s.hub.flushQ ++ s.hub.flushWait).any (fun f => f.bias)

/-- A line of the span leaves the directory in the scan of step 3. One that a server core with a stale mapping installed meanwhile
may have been passed by the scan already: a free choice, and R276 applies to it then (R279; DESIGN CHOICE, log 85). -/
def scanLine (s : State) (b : BiasReq) (line : Nat) : State :=
  if b.stale.elem line then
    let (f, s) := drawFree s
    let s := recallLine s line false
    if f.getLsbD 0 then breachLine s line else s
  else recallLine s line false

/-- A line of the span. -/
def inBias (b : BiasReq) (line : Nat) : Bool := decide (b.start ≤ 64 * line) && decide (64 * line < b.start + b.len)

/-- BIAS_CHANGE_DONE (R278): no granule of the span migrates, the flush has drained, for DEVICE the lines of the span have left
the directory; DONE advances and the MSI is sent. A line within its hold is waited for (R271). -/
def execBiasChangeDone (s : State) : Host.Outcome State Fault Refusal :=
  .next (
    match s.hub.biasQ with
    | [] => s
    | b :: l =>
      if migrationStalls s b.start b.len then s
      else
      let s := afterFlushes (pumpFlushes (biasFlush s b l))
      let held := s.hub.dir.any (fun d => inBias b d.line && heldLine s none d.line)
      if biasFlushing s ∨ (held ∧ ¬b.toShared) then s
      else
        let s := if b.toShared then s else (s.hub.dir.filter (fun d => inBias b d.line)).foldl (fun s d => scanLine s b d.line) s
        let s := { s with hub := { s.hub with biasQ := l } }
        let s := advance (setF s rDirBiasStatus fDirBiasStatusQueued l.length) rDirBiasStatus fDirBiasStatusDone 1
        sendMsi s (getR s rDirBiasMsiAddr).toNat (getR s rDirBiasMsiData).toNat)

end Sys2Proof.Machine
end

