-- ==== Sys2Proof/Machine/Links.lean ====
section
/-! DEFINITION. The UCIe connections (R345, R351 to R361): discovery and agreement, repair, rerouting, and the removal of the
guest and of dies. -/

namespace Sys2Proof.Machine

open Sys2Proof

/-! ### Discovery and agreement (R351 to R355) -/

/-- Modules of a connection (R22): two on a neighbour link, four elsewhere. -/
def linkModules (l : Nat) : Nat := if 8 ≤ l ∧ l < 16 then 2 else 4

/-- 1 ms in ns. -/
def oneMs : Nat := 1000000

/-- The line that the hub's end offers: version 1, every channel, and the requests it accepts (R351, R354). -/
def offerLine (l : Nat) (chans : Nat) (maxOut : Nat) (wins : List (Nat × Nat)) : Bytes :=
  natLE 1 1 ++ natLE 1 (if 8 ≤ l ∧ l < 16 then 1 else 3) ++ [Config.dieGen, 0x42] ++ natLE 1 chans ++ [0] ++ natLE 2 maxOut ++
    (List.range 7).map Config.slotCredits ++ [0] ++
    (List.range 2).flatMap (fun i => let w := wins.getD i (0, 0); natLE 8 w.1 ++ natLE 8 w.2) ++ List.replicate 16 0

/-- Outstanding requests the hub accepts on a connection (R354). -/
def hubMaxOut (l : Nat) : Nat := if l = 18 then 1024 else 8192

/-- An MGT request with one line. -/
def mgtMsg (s : State) (op : Nat) (line : Bytes) : PlaMsg :=
  { chan := 4, rsp := false, op := BitVec.ofNat 4 op, poison := 0, tag := BitVec.ofNat 16 s.hub.nextId, agent := Config.hubAgent
    status := 0, nc := false, aop := 0, size64 := false, signed := false, addr := 0, lines := 0, data := line, mask := 0 }

/-- A link reaches the active state: DISCOVER is sent, and no channel is open until AGREE (R351). -/
def linkUp (s : State) (l : Nat) : State :=
  let r := rPlaLinkState l
  let s := setF (setF (setF s r fPlaLinkStateState lkTraining) r fPlaLinkStateModulesUp (2 ^ linkModules l - 1)) r fPlaLinkStateChannels 0
  let s := setLink s l { link s l with activeAt := some s.time, heard := none, agreed := false, failedAt := none, credits := [], owed := [] }
  plaSend s l (mgtMsg s 0 (offerLine l 31 (hubMaxOut l) []))

/-- A die stands at the other end: a guest only on Y7200-O16 (R2). -/
def siteFitted (l : Nat) : Bool := decide (l ≠ 18) || Config.guestFitted

/-- LINK_ACTIVE (R351): a connection that is held in reset stays there, and in stand-alone test no link leaves its die
(R362). -/
def execLinkActive (l : Fin 19) (s : State) : Host.Outcome State Fault Refusal :=
  .next (if siteFitted l ∧ linkState s l = lkDown ∧ ¬(link s l).inReset ∧ s.pow.testSel ≠ 2 then linkUp s l else s)

/-- Windows rounded up to 4 KiB and placed one after the other in the guest-site block; one that does not fit is not agreed
(R355). -/
def placeWindows (ws : List (Nat × Nat)) : List (Nat × Nat) :=
  (ws.foldl (fun (acc : Nat × List (Nat × Nat)) w =>
    let n := cdiv w.2 4096 * 4096
    if w.2 = 0 ∨ 2 ^ 28 < acc.1 + n then (acc.1, acc.2 ++ [(0, 0)]) else (acc.1 + n, acc.2 ++ [(w.1, n)])) (0, [])).2

/-- The channels agreed with the end that sent a DISCOVER line (R352 to R354); 0: no agreement. -/
def agreedChannels (s : State) (l : Nat) (d : Bytes) : Nat :=
  let c := u8At d 4 % 32
  let base := bitOf c 0 && bitOf c 2 && bitOf c 4
  if u8At d 0 < 1 ∨ ¬base then 0
  else if l = 18 then
    if ¬Config.guestFitted ∨ u8At d 1 < 0x80 then 0 else 21 + (if debugLevel s = 2 ∧ bitOf c 3 then 8 else 0)
  else c

/-- DISCOVER (R351 to R353): the hub's end answers with AGREE; with no channel agreed the connection stays in reset. The guest
holds AGREE from then on. -/
def discovered (s : State) (l : Fin 19) (m : PlaMsg) : State :=
  let d := m.data
  let c := agreedChannels s l d
  let maxOut := min (u16At d 6) (hubMaxOut l)
  let wins := if l.val = 18 then placeWindows [(u64At d 16, u64At d 24), (u64At d 32, u64At d 40)] else []
  let line := offerLine l c maxOut wins
  let p := rPlaLinkPeer l
  let s := setF (setF (setF (setF s p fPlaLinkPeerDieType (u8At d 1)) p fPlaLinkPeerGen (u8At d 2)) p fPlaLinkPeerVer (min 1 (u8At d 0)))
    p fPlaLinkPeerMaxOut maxOut
  let s := plaSend s l (mgtMsg s 1 line)
  if c = 0 then setLink (setF s (rPlaLinkState l) fPlaLinkStateState lkDown) l { link s l with inReset := true, activeAt := none }
  else
    let s := setLink s l { link s l with heard := some d, winBase := wins, agreed := decide (l.val = 18), credits := initialCredits d }
    if l.val = 18 then
      let s := setF (setF s (rPlaLinkState l) fPlaLinkStateState lkUp) (rPlaLinkState l) fPlaLinkStateChannels c
      setObjNat s oGuestPresent 1 1
    else s

/-- DISCOVER (R351, R352). -/
def execDiscover (l : Fin 19) (m : PlaMsg) (s : State) : Host.Outcome State Fault Refusal :=
  .next (plaMessage s l m 4 false 0 true (fun s m => if linkState s l = lkTraining ∧ (link s l).heard = none then discovered s l m else s))

/-! ### Rerouting (R359 to R361) -/

/-- A die's hub link is in service. -/
def hubUp (s : State) (d : Nat) : Bool := decide (linkState s d = lkUp)

/-- A connection retrains, for less than 2 ms: the hub waits for it before it takes the other neighbour (the table under R361). -/
def retraining (s : State) (l : Nat) : Bool :=
  decide (linkState s l = lkTraining) && (match (link s l).activeAt with
    | some t => decide (s.time < t + 2 * oneMs)
    | none => false)

/-- The route of a compute die's hub traffic: its own link; with that failed, through CD_(d+1) or CD_(d+7), whichever neighbour
link is UP and reaches a hub link that is UP. -/
def routeOf (s : State) (d : Nat) : Nat :=
  if s.d2d.removed.elem d then 3
  else if linkState s d ≠ lkFailed then 0
  else if linkState s (8 + d) = lkUp ∧ hubUp s ((d + 1) % 8) then 1
  else if retraining s (8 + d) ∧ hubUp s ((d + 1) % 8) then getF s (rPlaLinkState d) fPlaLinkStateRoute
  else if linkState s (8 + (d + 7) % 8) = lkUp ∧ hubUp s ((d + 7) % 8) then 2
  else getF s (rPlaLinkState d) fPlaLinkStateRoute

/-- A record of the connection: a failure or a reroute, an event of the epoch (R358, R359, R403). -/
def linkRecord (s : State) (l : Nat) : State :=
  logError s { src := 10, sev := 0, typ := 3, unit := l, die := if l < 8 then l else if l < 16 then l - 8 else if l < 18 then l - 8 else 11 } none

/-- What waits on a die's own connection goes on over its detour, so that no message is lost (R359). -/
def moveQueue (s : State) (d : Nat) : State :=
  let v := viaLink s d
  let q := (link s d).flitQ
  let s := setLink s d { link s d with flitQ := [] }
  pumpFlits (setLink s v { link s v with flitQ := (link s v).flitQ ++ q }) v

/-- Every die's route after a change of a connection; a new detour is recorded. -/
def reroute (s : State) : State :=
  (List.range 8).foldl (fun s d =>
    let r := routeOf s d
    if r = getF s (rPlaLinkState d) fPlaLinkStateRoute then s
    else
      let s := setF s (rPlaLinkState d) fPlaLinkStateRoute r
      if r = 1 ∨ r = 2 then moveQueue (linkRecord s d) d else s) s

/-- The dies that a connection reaches. -/
def linkDies (l : Nat) : List (Fin 12) :=
  if l < 8 then [Fin.ofNat 12 l] else if l < 16 then [Fin.ofNat 12 (l - 8), Fin.ofNat 12 ((l - 7) % 8)]
  else if l < 18 then [Fin.ofNat 12 (l - 8)] else [11]

/-- AGREE (R351, R360): the connection opens its channels; a die that had been removed or rerouted returns. -/
def agreed (s : State) (l : Fin 19) (m : PlaMsg) : State :=
  let c := u8At m.data 4 % 32
  if c = 0 then setLink (setF s (rPlaLinkState l) fPlaLinkStateState lkDown) l { link s l with inReset := true, activeAt := none }
  else
    let s := setF (setF s (rPlaLinkState l) fPlaLinkStateState lkUp) (rPlaLinkState l) fPlaLinkStateChannels c
    let s := setLink s l { link s l with agreed := true }
    reroute ((linkDies l).foldl rejoinDie s)

/-- AGREE (R351, R352): the answer to the hub's end on LINK_18 comes from no one, since the hub takes that part. -/
def execAgree (l : Fin 19) (m : PlaMsg) (s : State) : Host.Outcome State Fault Refusal :=
  .next (plaMessage s l m 4 false 1 true (fun s m =>
    if linkState s l = lkTraining ∧ l.val ≠ 18 ∧ (link s l).heard.isSome then agreed s l m else s))

/-- A connection FAILED (R351, R359): its die's traffic is rerouted. -/
def failLink (s : State) (l : Nat) : State :=
  let s := setF (setF s (rPlaLinkState l) fPlaLinkStateState lkFailed) (rPlaLinkState l) fPlaLinkStateChannels 0
  let s := setLink s l { link s l with agreed := false, heard := none, activeAt := none, failedAt := some s.time }
  reroute (linkRecord s l)

/-- DISCOVERY_TIMEOUT (R351). Before it is due, a die that waited 2 ms for a neighbour link's retrain takes the other neighbour. -/
def execDiscoveryTimeout (l : Fin 19) (s : State) : Host.Outcome State Fault Refusal :=
  .next (
    match (link s l).activeAt with
    | none => s
    | some t =>
      if linkState s l ≠ lkTraining then s
      else if s.time < t + objNat s oDiscoveryTimeout * oneMs then reroute s
      else failLink s l)

/-- MODULE_DOWN (R358): the module leaves the connection, and the repair map records it. -/
def execModuleDown (l : Fin 19) (mod : Fin 4) (s : State) : Host.Outcome State Fault Refusal :=
  .next (
    let up := getF s (rPlaLinkState l) fPlaLinkStateModulesUp
    if ¬bitOf up mod then s
    else addRepair (setF s (rPlaLinkState l) fPlaLinkStateModulesUp (up - 2 ^ mod.val)) 3 (linkDie l) l 0 mod 0)

/-- One lane of a connection repaired: its entry in the repair map (R394). Which lane failed and which redundant lane takes its
place are free values. -/
def repairLane (s : State) (l : Fin 19) : State :=
  let (lane, s) := drawFree s
  let (spare, s) := drawFree s
  addRepair s 2 (linkDie l) l 0 (lane.toNat % 2 ^ 32) (spare.toNat % 2 ^ 32)

/-- LANE_REPAIR (R358): lanes of a module move to its redundant lanes, each with its own entry in the repair map. -/
def execLaneRepair (l : Fin 19) (mod : Fin 4) (lanes : Nat) (s : State) : Host.Outcome State Fault Refusal :=
  .next (
    if ¬bitOf (getF s (rPlaLinkState l) fPlaLinkStateModulesUp) mod ∨ lanes = 0 then s
    else
      (List.range lanes).foldl (fun s _ => repairLane s l) (bump s (rPlaLinkState l) fPlaLinkStateLanesRepaired lanes))

/-- LINK_FAILED (R359): a connection whose modules are all DOWN. -/
def execLinkFailed (l : Fin 19) (s : State) : Host.Outcome State Fault Refusal :=
  .next (
    if (linkState s l = lkUp ∨ linkState s l = lkTraining) ∧ getF s (rPlaLinkState l) fPlaLinkStateModulesUp = 0 then failLink s l else s)

/-- LINK_RETRY (R360): 1 s after it failed a connection starts discovery afresh. -/
def execLinkRetry (l : Fin 19) (s : State) : Host.Outcome State Fault Refusal :=
  .next (
    match (link s l).failedAt with
    | none => s
    | some t => if linkState s l ≠ lkFailed ∨ s.time < t + oneSecond ∨ (link s l).inReset then s else linkUp s l)

/-! ### Removals (R357, R361) -/

/-- The accesses outstanding to a removed die are answered: reads with poison, writes and atomics refused (R361). -/
def answerDead (s : State) : State := retryStalled s (fun s x => deadAt s (locate s x.req.mpa.toNat))

/-- The conditions of a die's removal (R361). -/
def dieLost (s : State) (d : Nat) : Bool :=
  if d < 8 then decide (linkState s d = lkFailed) && decide (linkState s (8 + d) = lkFailed) && decide (linkState s (8 + (d + 7) % 8) = lkFailed)
  else if d < 10 then decide (linkState s (8 + d) = lkFailed) else false

/-- DIE_REMOVAL (R25, R361). -/
def execDieRemoval (d : Fin 12) (s : State) : Host.Outcome State Fault Refusal :=
  .next (if dieLost s d then reroute (answerDead (removeDie s d)) else s)

/-- The guest breaks R356 too often, or owes credits for 100 ms (R357). -/
def guestLost (s : State) : Bool :=
  decide (1000 < (s.d2d.guestBad.filter (fun t => decide (s.time < t + oneSecond))).length) ||
    (match s.d2d.guestCredit with
      | some t => decide (t + 100 * oneMs ≤ s.time)
      | none => false)

/-- GUEST_REMOVAL (R25, R357): LINK_18 is held in reset until the next module reset. -/
def execGuestRemoval (s : State) : Host.Outcome State Fault Refusal :=
  .next (
    if linkState s 18 ≠ lkUp ∨ ¬guestLost s then s
    else
      let s := removeDie s 11
      let s := setF (setF s (rPlaLinkState 18) fPlaLinkStateState lkDown) (rPlaLinkState 18) fPlaLinkStateChannels 0
      setObjNat (setLink s 18 { link s 18 with agreed := false, heard := none, activeAt := none, inReset := true, msiHeld := [] }) oGuestPresent 1 0)

end Sys2Proof.Machine
end

