-- ==== Sys2Proof/Machine/Recorder.lean ====
section
/-! DEFINITION. The event recorder (R403 to R408): the epoch record and its sections, the region, its window and its clearing;
the commands that a confirmed stage set left to run. -/

namespace Sys2Proof.Machine

open Sys2Proof

/-! ### Extremes of an epoch (R403) -/

/-- Milliseconds of a time into the epoch. -/
def epochMs (s : State) : Nat := (s.time - s.rel.epochStart) / 1000000

def evrPut (s : State) (sec inst word v : Nat) : State :=
  { s with rel := { s.rel with epoch := mapSet s.rel.epoch (sec, inst, word) v } }

def evrWord (s : State) (sec inst word : Nat) : Option Nat := mapFind s.rel.epoch (sec, inst, word)

/-- An input sample in mV: VOLT_EXT MIN, MAX and T_MIN of instance 0. -/
def evrVolt (s : State) (mv : Nat) : State :=
  let s := match evrWord s 3 0 0 with
    | some v => if mv < v then evrPut (evrPut s 3 0 0 mv) 3 0 3 (epochMs s) else s
    | none => evrPut (evrPut s 3 0 0 mv) 3 0 3 (epochMs s)
  match evrWord s 3 0 1 with
  | some v => if v < mv then evrPut s 3 0 1 mv else s
  | none => evrPut s 3 0 1 mv

/-- A temperature in °C: TEMP_EXT MIN, MAX and T_MAX of an instance; kept above −1,000 °C. -/
def evrTemp (s : State) (inst : Nat) (c : Int) : State :=
  let v := (c + 1000).toNat
  let s := match evrWord s 2 inst 1 with
    | some x => if x < v then evrPut (evrPut s 2 inst 1 v) 2 inst 2 (epochMs s) else s
    | none => evrPut (evrPut s 2 inst 1 v) 2 inst 2 (epochMs s)
  match evrWord s 2 inst 0 with
  | some x => if v < x then evrPut s 2 inst 0 v else s
  | none => evrPut s 2 inst 0 v

/-! ### The record (R403, R404) -/

/-- A section: its 8-byte header and its payload. -/
def evrSection (typ inst : Nat) (payload : Bytes) : Bytes := natLE 2 typ ++ natLE 2 inst ++ natLE 4 payload.length ++ payload

/-- A count of the epoch, at most `2^bits - 1`. -/
def evrCnt (s : State) (sec inst word bits : Nat) : Nat := min (mapGet s.rel.epoch (sec, inst, word) 0) (2 ^ bits - 1)

/-- FP32 of a number of thousandths. -/
def milliF32 (mv : Nat) : Nat := (f32DivDy ⟨mv, 0⟩ ⟨1000, 0⟩).toNat

/-- FP32 of a stored temperature. -/
def tempF32 (v : Nat) : Nat := ffB32.rne ⟨(v : Int) - 1000, 0⟩

/-- Four bytes of a value where it was sampled, else free ones. -/
def sampled (k tag : Nat) (v : Option Nat) : Bytes :=
  match v with
  | some x => natLE 4 x
  | none => (List.range 4).map (fun i => Config.freeByte k (tag * 4 + i))

/-- The sections of fixed size (types 1 to 7). What was not sampled, and the cycle counts of STALL, are free values. -/
def evrFixed (s : State) (k : Nat) : Bytes :=
  (List.range 29).flatMap (fun i => evrSection 1 i ((List.range 32).flatMap (fun b => natLE 4 (evrCnt s 1 i b 32)))) ++
  (List.range 24).flatMap (fun i => evrSection 2 i (
    sampled k (100 + i) ((evrWord s 2 i 0).map tempF32) ++ sampled k (200 + i) ((evrWord s 2 i 1).map tempF32) ++
    sampled k (300 + i) (evrWord s 2 i 2) ++ [0, 0, 0, 0])) ++
  (List.range 17).flatMap (fun i => evrSection 3 i (
    sampled k (400 + i) ((evrWord s 3 i 0).map milliF32) ++ sampled k (500 + i) ((evrWord s 3 i 1).map milliF32) ++
    (if i = 0 then natLE 4 (evrCnt s 3 0 2 32) else natLE 4 0) ++ sampled k (600 + i) (evrWord s 3 i 3))) ++
  (List.range 32).flatMap (fun e => evrSection 4 e (
    (List.range 4).flatMap (fun w => natLE 4 (evrCnt s 4 e w 32)) ++ (List.range 2).flatMap (fun w => natLE 8 (evrCnt s 4 e (4 + w) 64)))) ++
  (List.range 32).flatMap (fun e => evrSection 5 e ((List.range 56).map (fun i => Config.freeByte k (4096 + e * 64 + i)))) ++
  (List.range 16).flatMap (fun c => evrSection 6 c ((List.range 3).flatMap (fun w => natLE 8 (evrCnt s 6 c w 64)))) ++
  (List.range 16).flatMap (fun p => evrSection 7 p ((List.range 15).flatMap (fun w => natLE 4 (evrCnt s 7 p w 32)) ++ [0, 0, 0, 0]))

/-- Variable sections up to the 256 KiB limit: the bytes, how many sections, and whether one was left out (R404). -/
def evrVariable (room : Nat) : List (Nat × Nat × Bytes) → Bytes → Nat → Bytes × Nat × Bool
  | [], acc, n => (acc, n, false)
  | x :: l, acc, n =>
    let b := evrSection x.1 x.2.1 x.2.2
    if room < acc.length + b.length then (acc, n, true) else evrVariable room l (acc ++ b) (n + 1)

/-- The record of the epoch in progress. -/
def evrRecord (s : State) (early : Bool) (k : Nat) : Bytes :=
  let fixed := evrFixed s k
  let (var, n, trunc) := evrVariable (262144 - 64 - fixed.length) s.rel.events [] 0
  let body := fixed ++ var
  let total := cdiv (64 + body.length) 16384 * 16384
  let head (crc : Nat) : Bytes := natLE 4 0x45565231 ++ natLE 4 total ++ natLE 8 s.rel.evrSeq ++ natLE 8 s.rel.epochStart ++
    natLE 4 (epochMs s) ++ natLE 2 (166 + n) ++ natLE 1 (trunc.toNat + 2 * s.rel.prevLost.toNat + 4 * early.toNat) ++ [0] ++
    natLE 4 crc ++ natLE 4 s.pow.powerOns ++ natLE 2 (objNat s oPeerId) ++ List.replicate 22 0
  let pad := List.replicate (total - 64 - body.length) 0
  head (crc32 (head 0 ++ body ++ pad)) ++ body ++ pad

/-- Bytes of the region (R403). -/
def evrRegionBytes : Nat := 67108864

/-- The epoch closes: its record goes into the region, or is discarded once one does not fit (R405); the next epoch begins. -/
def closeEpoch (s : State) (early : Bool) : State :=
  let k := s.freeCtr
  let r := evrRecord s early k
  let s := { s with freeCtr := k + 1 }
  let s := if getB s rEvrStatus fEvrStatusFull then bump s rEvrStatus fEvrStatusDiscarded 1
    else if evrRegionBytes < s.rel.region.length + r.length then setF s rEvrStatus fEvrStatusFull 1
    else
      let region := s.rel.region ++ r
      let s := slcPages s r.length
      setF { s with rel := { s.rel with region := region } } rEvrEnd fEvrEndOffset region.length
  { s with rel := { s.rel with evrSeq := s.rel.evrSeq + 1, epochStart := s.time, epoch := [], events := [], prevLost := false } }

/-- EPOCH_CLOSE (R403): EVR_EPOCH_S after the epoch began. A flash controller that starts no program holds it back (R413). -/
def execEpochClose (s : State) : Host.Outcome State Fault Refusal :=
  .next (if s.time < s.rel.epochStart + objNat s oEvrEpochS * oneSecond ∨ ¬flashRuns s then s else closeEpoch s false)

/-! ### The window (R406) -/

/-- The 8 bytes of the region at EVR_CURSOR. -/
def evrWordAt (s : State) : Nat :=
  let c := getF s rEvrCursor fEvrCursorOffset / 8 * 8
  if s.rel.region.length ≤ c then 0 else u64At s.rel.region c

/-- A 64-bit read of the window: the word, and the cursor advanced unless it is at EVR_END. -/
def evrTake (s : State) : State × Word :=
  let c := getF s rEvrCursor fEvrCursorOffset / 8 * 8
  if s.rel.region.length ≤ c then (s, 0) else (setF s rEvrCursor fEvrCursorOffset (c + 8), BitVec.ofNat 64 (evrWordAt s))

/-- EVR_WINDOW (R406): a 64-bit read returns the word and advances; at EVR_END it returns 0 and does not; nor does a 32-bit
read. -/
def execEvrWindow (ag : Agent) (acc : RegAccess) (s : State) : Host.Outcome State Fault Refusal :=
  .next (
    if ¬regRight s ag (rEvrWindow 0).key then putOut (violation s) 0
    else match acc with
      | .w64 =>
        let (s, v) := evrTake s
        putOut s v
      | .lo32 | .hi32 => putOut s 0
      | .bad => putAccess s (denied ag))

/-! ### Actions of confirmed stage sets (R384) -/

/-- The first action that waits for an object, taken off the list. -/
def takeAction (s : State) (f : Triple → Bool) : Option (Triple × State) :=
  match s.sec.actions.find? f with
  | none => none
  | some t => some (t, { s with sec := { s.sec with actions := s.sec.actions.eraseIdx (s.sec.actions.findIdx f) } })

/-- A triple names an object. -/
def Triple.names (t : Triple) (k : ObjKey) : Bool := decide ((t.index, t.sub) = k)

/-- EVR_CLEAR (R408): the region is erased, cursor, end, FULL and DISCARDED are 0, SEQ runs on. -/
def execEvrClear (s : State) : Host.Outcome State Fault Refusal :=
  .next (
    match takeAction s (fun t => t.names oEvrClear) with
    | none => s
    | some (t, s) =>
      if leNat t.value = 0 then s
      else setR (setR (setR { s with rel := { s.rel with region := [] } } rEvrCursor 0) rEvrEnd 0) rEvrStatus 0)

end Sys2Proof.Machine
end

