-- ==== Sys2Proof/Machine/Power.lean ====
section
/-! DEFINITION. Input levels, power and thermal limits, clocks (R410 to R419) and the engines' power states (R420 to R424). -/

namespace Sys2Proof.Machine

open Sys2Proof

/-! ### Input samples (R410, R411) -/

/-- An input sample in mV: shown in PWR_STATUS and taken into VOLT_EXT. -/
def inputSample (s : State) (mv : Nat) : State :=
  let s := evrVolt (setF s rPwrStatus fPwrStatusInputMv mv) mv
  { s with pow := { s.pow with
    lowAt := if mv < 42000 then s.time else s.pow.lowAt
    overSince := if mv ≤ 59500 then none else s.pow.overSince } }

/-- INPUT_WARNING (R411): a sample below 41.0 V puts the dip throttle on; a fall from 41.0 V or above is an excursion. -/
def execInputWarning (mv : Nat) (s : State) : Host.Outcome State Fault Refusal :=
  .next (
    let before := getF s rPwrStatus fPwrStatusInputMv
    let s1 := inputSample s mv
    if 41000 ≤ mv then s1
    else
      let fresh := !getB s rPwrStatus fPwrStatusDip || decide (41000 ≤ before)
      let s1 := if fresh then { s1 with pow := { s1.pow with dips := s1.pow.dips + 1 } } else s1
      setF s1 rPwrStatus fPwrStatusDip 1)

/-- WARNING_RECOVERY (R411): 100 µs at or above 42.0 V lift the dip throttle, and the excursions are counted. -/
def execWarningRecovery (mv : Nat) (s : State) : Host.Outcome State Fault Refusal :=
  .next (
    let s := inputSample s mv
    if mv < 42000 ∨ s.time < s.pow.lowAt + 100000 ∨ ¬getB s rPwrStatus fPwrStatusDip then s
    else
      let s := evrCount s 3 0 2 s.pow.dips
      setF { s with pow := { s.pow with dips := 0 } } rPwrStatus fPwrStatusDip 0)

/-! ### Power cap (R414) -/

/-- The array clock that ARRAY_CLK_MHZ and the power limit leave (R416). -/
def cappedMhz (s : State) : Nat := min s.pow.capMhz (objNat s oArrayClkMhz)

/-- POWER_CAP_SAMPLE (R414): the limit is lowered from the clock in force, so that every lowering lowers the arrays' clock. -/
def execPowerCapSample (avgW sampleW : Nat) (s : State) : Host.Outcome State Fault Refusal :=
  .next (
    let cap := objNat s oPowerCap
    let s := setF s rPwrStatus fPwrStatusPowerW avgW
    let mhz := if cap < avgW then max 800 (cappedMhz s - 50) else if 100 * avgW < 95 * cap then min 1800 (s.pow.capMhz + 50) else s.pow.capMhz
    let s := { s with pow := { s.pow with capMhz := mhz } }
    if 3300 < sampleW then setF s rPwrStatus fPwrStatusPeak 1
    else if avgW < cap then setF s rPwrStatus fPwrStatusPeak 0 else s)

/-! ### Thermal limits (R415) -/

/-- A sensor's instance of TEMP_EXT. -/
def sensorInst : Sensor → Nat
  | .computeDie d => d
  | .stack d => 12 + d
  | .serverDie n => 8 + n
  | .hubDie => 10
  | .coolantOutlet => 23

/-- The throttle limit; the coolant outlet has none. -/
def throttleLimit (s : State) : Sensor → Option Int
  | .computeDie _ => some (objInt s oDieThrottleC)
  | .stack _ => some (objInt s oStackThrottleC)
  | .serverDie _ | .hubDie => some 100
  | .coolantOutlet => none

/-- The shutdown limit. -/
def shutdownLimit : Sensor → Int
  | .stack _ => 105
  | .coolantOutlet => 60
  | _ => 110

/-- THERM_ALERT_N and PWR_STATUS.THERMAL as the active throttles and the inlet have them. -/
def showThermal (s : State) : State :=
  let hot := !s.pow.throttled.isEmpty
  let s := setB s rPwrStatus fPwrStatusThermal hot
  { s with pow := { s.pow with thermAlertN := !(hot || s.pow.coolantHot) } }

/-- The sensors that limit the arrays of a compute die. -/
def dieHot (s : State) (d : Fin 8) : Bool := s.pow.throttled.elem (.computeDie d) || s.pow.throttled.elem (.stack d)

def dieMhz (s : State) (d : Nat) : Nat := mapGet s.pow.dieMhz d 1800
def setDieMhz (s : State) (d v : Nat) : State := { s with pow := { s.pow with dieMhz := mapSet s.pow.dieMhz d v } }
def scLimit (s : State) (n : Nat) : Nat := mapGet s.pow.scLimit n 3600
def setScLimit (s : State) (n v : Nat) : State := { s with pow := { s.pow with scLimit := mapSet s.pow.scLimit n v } }

/-- One step of a die's array clock: down while its sensor is at its limit, up once the sensors of the die have fallen below
their limits less 3 °C. -/
def stepDie (s : State) (d : Fin 8) (x : Sensor) (lim c : Int) : State :=
  if lim ≤ c then
    let s := { s with pow := { s.pow with throttled := if s.pow.throttled.elem x then s.pow.throttled else s.pow.throttled ++ [x] } }
    setDieMhz s d (max 800 (min (dieMhz s d) (cappedMhz s) - 50))
  else if c < lim - 3 then
    let s := { s with pow := { s.pow with throttled := s.pow.throttled.filter (fun y => decide (y ≠ x)) } }
    if dieHot s d then s else setDieMhz s d (min 1800 (dieMhz s d + 50))
  else s

/-- A throttle that is on at or above its limit and off below it. -/
def throttleAt (s : State) (x : Sensor) (hot : Bool) : State :=
  let l := s.pow.throttled.filter (fun y => decide (y ≠ x))
  { s with pow := { s.pow with throttled := if hot then l ++ [x] else l } }

/-- A server die: the boost goes first, then the cores' clock by 100 MHz a step; both come back below the limit. -/
def stepServer (s : State) (n : Fin 2) (c : Int) : State :=
  if 100 ≤ c then
    let s := throttleAt s (.serverDie n) true
    if s.pow.boostOff.elem n.val then setScLimit s n (max 1200 (min (scLimit s n) (objNat s oScClkMhz) - 100))
    else { s with pow := { s.pow with boostOff := s.pow.boostOff ++ [n.val] } }
  else
    let s := throttleAt s (.serverDie n) false
    if scLimit s n < objNat s oScClkMhz then setScLimit s n (scLimit s n + 100)
    else { setScLimit s n 3600 with pow := { (setScLimit s n 3600).pow with boostOff := s.pow.boostOff.filter (fun k => decide (k ≠ n.val)) } }

/-- THERMAL_THROTTLE (R415): one sample of a sensor, one step of what it throttles. -/
def execThermalThrottle (sensor : Sensor) (tempC : Int) (s : State) : Host.Outcome State Fault Refusal :=
  .next (
    let s := evrTemp s (sensorInst sensor) tempC
    match sensor, throttleLimit s sensor with
    | .computeDie d, some lim => showThermal (stepDie s d sensor lim tempC)
    | .stack d, some lim =>
      let hot := s.pow.stackHot.filter (fun k => decide (k ≠ d.val))
      let s := { s with pow := { s.pow with stackHot := if 85 < tempC then hot ++ [d.val] else hot } }
      showThermal (stepDie s d sensor lim tempC)
    | .serverDie n, some _ => showThermal (stepServer s n tempC)
    | .hubDie, some lim =>
      let hot := decide (lim ≤ tempC)
      showThermal (throttleAt { s with pow := { s.pow with migPaused := hot, carderHalf := hot } } sensor hot)
    | _, _ => s)

/-- COOLANT_ALERT (R415). -/
def execCoolantAlert (inletC : Int) (s : State) : Host.Outcome State Fault Refusal :=
  .next (
    let s := evrTemp s 22 inletC
    showThermal { s with pow := { s.pow with coolantHot := decide (objInt s oCoolantAlertC < inletC) } })

/-! ### Clocks (R416 to R419) -/

/-- ARRAY_CLK_MHZ (R419): an array takes the new clock at a tile-pass boundary. -/
def execArrayClkMhz (e : Fin 32) (pa : Fin 13) (s : State) : Host.Outcome State Fault Refusal :=
  .next (setArrAux s e pa { arrAux s e pa with mhz := objNat s oArrayClkMhz })

/-- The effective clock of an array (R416). -/
def effMhz (s : State) (e pa : Nat) : Nat :=
  let m := min (arrAux s e pa).mhz (min s.pow.capMhz (dieMhz s (e / 4)))
  if getB s rPwrStatus fPwrStatusDip || getB s rPwrStatus fPwrStatusPeak then m / 2 else m

/-- ARRAY_MHZ_MIN: the lowest effective array clock. -/
def arrayMhzMin (s : State) : Nat :=
  (List.range 32).foldl (fun t e => (List.range 13).foldl (fun t pa => min t (effMhz s e pa)) t) (effMhz s 0 0)

/-- A server core may run above SC_CLK_MHZ (R418). -/
def mayBoost (s : State) (core : Fin 128) (dieW : Nat) (dieC : Int) : Bool :=
  decide (objNat s oScBoost = 1) && decide (dieW < 190) && decide (dieC < 90) && !s.pow.boostOff.elem (core.val / 64)

/-- SC_CLK_MHZ (R417, R418): the core takes its clock; how far above SC_CLK_MHZ it runs when it may is a free value. -/
def execScClkMhz (core : Fin 128) (dieW : Nat) (dieC : Int) (s : State) : Host.Outcome State Fault Refusal :=
  .next (
    let base := objNat s oScClkMhz
    let lim := scLimit s (core.val / 64)
    let put (s : State) (v : Nat) : State := { s with pow := { s.pow with coreMhz := mapSet s.pow.coreMhz core.val (min v lim) } }
    if mayBoost s core dieW dieC then
      let (f, s) := drawFree s
      put s (base + 100 * (f.toNat % ((3600 - base) / 100 + 1)))
    else put s base)

/-! ### Engine power states (R420 to R424) -/

/-- Nothing fetched or published waits in a spool. -/
def spoolIdle (s : State) (u : SpoolId) : Bool :=
  (spool s u).cmds.isEmpty && (decide ((spool s u).fetched % 2 ^ 32 = sqTail s u) || (decide (spState s u ≠ spActive) && decide (spState s u ≠ spStopped)))

/-- The engine is idle (R421). -/
def engIdle (s : State) (e : Fin 32) : Bool :=
  (engSpools e).all (spoolIdle s) && (List.range 16).all (fun i => decide (taskState s e i = tFree)) &&
    (engAux s e).recomp.isEmpty && (engAux s e).runs.isEmpty && (engAux s e).heldWake.isEmpty

/-- No context slot is VALID. -/
def noContext (s : State) (e : Nat) : Bool := (List.range 16).all (fun n => !ctxValid s e n)

/-- LTOL of the engine's owner in µs; without an owner every latency is tolerated. -/
def engTolerates (s : State) (e us : Nat) : Bool :=
  match engOwner s e with
  | some p => decide (us ≤ objNat s (oLtolP p))
  | none => true

/-- Engine power states (R420). -/
def psActive : Nat := 0
def psIdle : Nat := 1
def psNap : Nat := 2
def psDoze : Nat := 3
def psOff : Nat := 4

/-- The deepest state that R422 allows an engine that has been idle for `ns`. -/
def deepest (s : State) (e ns : Nat) : Nat :=
  let req := getF s (rEngPwr e) fEngPwrReq
  if req = 1 then psActive
  else if req = 2 ∧ noContext s e ∧ engTolerates s e 400 then psOff
  else if noContext s e ∧ engTolerates s e 400 ∧ 4000000 ≤ ns then psDoze
  else if engTolerates s e 40 ∧ 400000 ≤ ns then psNap
  else if engTolerates s e 2 ∧ 20000 ≤ ns then psIdle
  else psActive

/-- ENG_PWR.DEEPEST: with any idle time (R422). -/
def engDeepest (s : State) (e : Nat) : Nat := deepest s e 4000000

/-- The registers of an engine's privileged page that outlast OFF: power, generation, identity and the arrays of the repair map. -/
def outlastsOff (k : RegKey) : Bool :=
  k.off = 0x5000 || k.off = 0x5008 || k.off = 0 || k.off = 8 || (decide (0x100 ≤ k.off) && decide (k.off < 0x168))

/-- The engine enters a state (R420, R423). -/
def enterState (s : State) (e : Fin 32) (st : Nat) : State :=
  let s := if st = psNap then setEngAux s e { engAux s e with rc := [] }
    else if st = psDoze then dropEngine s e false
    else if st = psOff then
      let s := dropEngine s e false
      { s with regs := s.regs.filter (fun x => !(decide (x.1.blk = .engP) && decide (x.1.i = e.val) && !outlastsOff x.1)) }
    else s
  setF s (rEngPwr e) fEngPwrState st

/-- POWER_STATE_ENTRY (R422, R423): an idle engine enters the deepest state allowed, deeper than the one it is in; before NAP,
DOZE or OFF it drains, and an engine that cannot drain does not enter. -/
def execPowerStateEntry (e : Fin 32) (s : State) : Host.Outcome State Fault Refusal :=
  .next (
    let a := engAux s e
    let st := deepest s e (s.time - a.idleSince.getD 0)
    if ¬engIdle s e ∨ a.wake ∨ st ≤ getF s (rEngPwr e) fEngPwrState then s
    else if st = psIdle then enterState s e st
    else
      let s1 := drainEngine s e
      if engDrained s1 e then enterState s1 e st else s1)

/-- ENG_PWR_REQ (R422, R424): the request is set, and the write wakes the engine. -/
def execEngPwrReq (ag : Agent) (e : Fin 32) (req : BitVec 2) (s : State) : Host.Outcome State Fault Refusal :=
  .next (guarded s ag (rEngPwr e).key (fun s =>
    let s := setF s (rEngPwr e) fEngPwrReq req.toNat
    if engActive s e then s else setEngAux s e { engAux s e with wake := true }))

/-- The engine must wake: an event or a held access, or an LTOL that no longer allows its state (R424). -/
def mustWake (s : State) (e : Nat) : Bool :=
  let a := engAux s e
  let st := getF s (rEngPwr e) fEngPwrState
  a.wake || !a.heldWake.isEmpty ||
    (decide (st ≠ psActive) && !engTolerates s e (if st = psIdle then 2 else if st = psNap then 40 else 400))

/-- The engine ACTIVE again, under a new generation if it had lost its state (R420, R427); the accesses held for it are still
to be performed. -/
def wakeEngine (s : State) (e : Fin 32) : State :=
  let st := getF s (rEngPwr e) fEngPwrState
  let s := setF s (rEngPwr e) fEngPwrState psActive
  let s := if st = psDoze ∨ st = psOff then bumpGen s (.engine e) else s
  setEngAux s e { engAux s e with wake := false, heldWake := [], idleSince := some s.time }

end Sys2Proof.Machine
end

