-- ==== Sys2Proof/Machine/Measure.lean ====
section
/-! DEFINITION. Boot images and measurements (R374 to R376). -/

namespace Sys2Proof.Machine

open Sys2Proof

/-- The 48 bytes of a SHA-384 digest, first byte lowest. -/
def sha384 (b : Bytes) : Bytes := natLE 48 (Config.sha384 b).toNat

def image (s : State) (k : Nat) : Image := mapGet s.sec.slots k {}

/-- A slot that may boot: its signature verifies and its SVN is not below FUSE_SVN. -/
def bootable (s : State) (k : Nat) : Bool := (image s k).sigOk && decide (s.sec.fuseSvn ≤ (image s k).svn)

/-- The slot to boot and whether it is the second choice (R374); none: neither qualifies. -/
def bootChoice (s : State) : Option (Nat × Bool) :=
  let first := if bootable s 0 ∧ bootable s 1 then (if (image s 0).version < (image s 1).version then some 1 else some 0)
    else if bootable s 0 then some 0 else if bootable s 1 then some 1 else none
  match first with
  | none => none
  | some k =>
    if (image s k).bodyOk then some (k, false)
    else if bootable s (1 - k) ∧ (image s (1 - k)).bodyOk then some (1 - k, true) else none

/-- The slot whose firmware a class runs: the running slot, unless an activation gave it the other (R398). -/
def classSlot (s : State) (c : Nat) : Nat := mapGet s.sec.classSlot c s.sec.runSlot

/-- The firmware class, 0 to 4 for classes 1 to 5 of R398, that a measurement index covers: microcode is part of the hub
firmware's index (R375 gives it none of its own). -/
def indexClass (i : Nat) : Nat := if i = 2 then 0 else if i = 3 then 1 else if i = 4 then 3 else 4

/-- What a measurement index covers (R375). The manual names the content and not its bytes; the digest of the bytes below
stands for it. -/
def measured (s : State) (i : Nat) : Bytes :=
  if i = 1 then Config.bootRom ++ natLE 2 s.sec.fuseSvn
  else if i ≤ 5 then (image s (classSlot s (indexClass i))).digest ++ [BitVec.ofNat 8 i]
  else if i = 6 then natLE 8 (getR s (rPlaLinkPeer 18)).toNat ++ (link s 18).heard.getD []
  else if i = 7 then
    (List.range 16).flatMap (fun p => (List.range 7).flatMap (fun k => objBytes s (0x4010 + p, 1 + k))) ++ objBytes s oTenantIsolate ++ s.sec.lastDigest
  else natLE 1 (debugLevel s) ++ natLE 1 (debugPart s)

/-- A measurement taken. -/
def remeasure (s : State) (i : Nat) : State := { s with sec := { s.sec with meas := mapSet s.sec.meas i (sha384 (measured s i)) } }

/-- The digest of an index. -/
def measurement (s : State) (i : Nat) : Bytes := mapGet s.sec.meas i (List.replicate 48 0)

end Sys2Proof.Machine
end

