-- ==== Sys2Proof/Machine/Reset.lean ====
section
/-! DEFINITION. Resets (R425 to R429), the power-fail sequence (R412), start-up (R431, R432) and the losses of cores (R396,
R397). -/

namespace Sys2Proof.Machine

open Sys2Proof

/-! ### What a reset keeps (R425) -/

/-- The objects that outlast a reset: RWP values, RW values unless power was off; the spare cores left follow from the repair map;
debug ends (R385). RWS values outlast every reset, which R15 and R425 do not say (DESIGN CHOICE, log 136). -/
def objOutlasts (powerOn : Bool) (k : ObjKey) : Bool :=
  if k = oDebugUnlock then false
  else if k = oSpareCoresLeft then true
  else
    match objDesc k with
    | some d => match d.acc with
      | .rwp | .rws => !d.wo
      | .rw => !powerOn
      | _ => false
    | none => false

/-- An address of the flash window. -/
def inFlash (a : Nat) : Bool := decide (flashBase ≤ a) && decide (a < mmioBase)

/-- Registers that the repair map sets: the arrays' state, suspect marks and position, and ENG_ID. -/
def repairRegs (s : State) : FMap RegKey Word :=
  (s.regs.filter (fun x => decide (x.1.blk = .engP) && (decide (x.1.off = 0) || (decide (0x100 ≤ x.1.off) && decide (x.1.off < 0x168))))).map
    (fun x => if x.1.off = 0 then x else (x.1, fset x.2 fArrayStateMismatches 0))

/-- The suspect marks of the arrays, and a retirement that they have decided, outlast a reset (R112, the reset value of MARKS). After
a loss of power, whose length no rule lets the module know, the 24 hours of a mark begin anew (DESIGN CHOICE, log 135). -/
def markedArrays (s : State) (powerOn : Bool) : FMap (Nat × Nat) ArrAux :=
  (s.eng.arrays.filter (fun x => !x.2.marks.isEmpty || x.2.retiring)).map
    (fun x => (x.1, { marks := if powerOn then x.2.marks.map (fun _ => 0) else x.2.marks, retiring := x.2.retiring }))

/-- Generations after a reset of the module: 0 at power-on, else one more (R427). -/
def resetGens (before s : State) (powerOn : Bool) : State :=
  if powerOn then s
  else
    let s := (List.range 32).foldl (fun s e => setF s (rEngGen e) fEngGenGen ((getF before (rEngGen e) fEngGenGen + 1) % 2 ^ 32)) s
    let units := (List.finRange 128).map UnitId.core ++ (List.finRange 12).map UnitId.die ++ (List.finRange 4).map UnitId.carder
    { s with pow := { s.pow with gens := units.map (fun u => (u, (mapGet before.pow.gens u 0 + 1) % 2 ^ 32)) } }

/-- The registers that show dictionary values (R202, R221, R419). -/
def loadDict (s : State) : State :=
  let s := setF s rMigCfg fMigCfgEnable (objNat s oMigEnable)
  let s := setF s rMigCfg fMigCfgPolicy (objNat s oMigPolicy)
  let s := setF s rMigCfg fMigCfgSampleLog2 (objNat s oSampleLog2)
  let s := setF s rMigCfg fMigCfgHotThresh (objNat s oHotThresh)
  let s := setF s rMigCfg fMigCfgMaxInflight (objNat s oMigMaxInflight)
  let s := (List.range 8).foldl (fun s d => setF s (rStkCfg d) fStkCfgWrBatch (objNat s oStkWrBatch)) s
  if objNat s oArrayClkMhz = 1600 then s
  else (List.range 32).foldl (fun s e => (List.range 13).foldl (fun s pa => setArrAux s e pa { arrAux s e pa with mhz := objNat s oArrayClkMhz }) s) s

/-- Objects whose value is taken at a module reset. -/
def appliedAtReset : List ObjKey := [oStackSpreadGib, oPeerId, oPeerIdValid]

/-- The module as it comes out of a loss of its state. Kept: NAND with its mapping, boot flash, fuses, the repair map and what
follows from it, the event recorder's region, the dictionary as `objOutlasts`; what the module has sent; the model's own
counters. Stacked and bulk tiers read 0 once their check bits are initialised (R431); engine SRAM holds what unwritten memory
holds. -/
def bootState (s : State) (powerOn : Bool) : State :=
  let z : State := {}
  let dict := s.dict.filter (fun x => objOutlasts powerOn x.1)
  let t : State := { z with
    pending := s.pending, time := if powerOn then 0 else s.time, freeCtr := s.freeCtr
    regs := repairRegs s, dict := dict
    mem := s.mem.filter (fun c => inFlash c.1), poison := s.poison.filter (fun l => inFlash (64 * l))
    eng := { z.eng with
      engs := (s.eng.engs.filter (fun x => !x.2.deadCores.isEmpty)).map (fun x => (x.1, { deadCores := x.2.deadCores }))
      arrays := markedArrays s powerOn }
    hub := { z.hub with accOut := s.hub.accOut }
    dev := { z.dev with
      stkUsed := sparesOf s.rel.repairMap, hardRows := s.dev.hardRows ++ s.dev.softRows, flSeq := s.dev.flSeq, flTable := s.dev.flTable
      flJournal := s.dev.flJournal, flLower := s.dev.flLower, flBlock := s.dev.flBlock, flWritten := s.dev.flWritten
      flInflight := s.dev.flInflight, flRetired := s.dev.flRetired, flScrubbed := s.dev.flScrubbed, flStop := true }
    fab := { z.fab with out := s.fab.out }
    d2d := { z.d2d with out := s.d2d.out }
    sec := { z.sec with
      slots := s.sec.slots, fuseSvn := s.sec.fuseSvn, creds := s.sec.creds, flashKeys := s.sec.flashKeys
      memKeys := (List.range 16).map (fun p => (p, mapGet s.sec.memKeys p 0 + 1)), lastDigest := s.sec.lastDigest, spdmOut := s.sec.spdmOut }
    rel := { z.rel with
      repairMap := s.rel.repairMap, repairSeq := s.rel.repairSeq, spareCores := s.rel.spareCores, removedCores := s.rel.removedCores, region := s.rel.region
      evrSeq := s.rel.evrSeq, prevLost := s.rel.prevLost, epochStart := if powerOn then 0 else s.time, ibi := s.rel.ibi }
    pow := { z.pow with testSel := s.pow.testSel, idStrap := s.pow.idStrap, strapped := s.pow.strapped && !powerOn, powerOns := s.pow.powerOns + powerOn.toNat }
    mgmt := { z.mgmt with
      rsps := s.mgmt.rsps, msiOut := s.mgmt.msiOut, regOut := s.mgmt.regOut }}
  let t := { t with mgmt := { t.mgmt with applied := appliedAtReset.map (fun k => (k, objBytes t k)) } }
  let t := if peerId t = 0 then t else (List.range 16).foldl (fun t p => setMiss t p []) t
  let t := setF t rEvrEnd fEvrEndOffset s.rel.region.length
  let t := setF t rEvrStatus fEvrStatusFull (getF s rEvrStatus fEvrStatusFull)
  loadDict (resetGens s t powerOn)

/-! ### Power failure (R412, R437) -/

/-- RWP writes of the last second may not have been programmed: each leaves the old value or the new one (R437). -/
def loseRecent (s : State) : State :=
  s.mgmt.recent.foldl (fun s x =>
    if x.2.2 + oneSecond ≤ s.time then s
    else
      let (f, s) := drawFree s
      if f.toNat % 2 = 0 then s else setObj s x.1 x.2.1) s

/-- The power-fail sequence (R412): programs in flight end on hold-up energy, everything else volatile is lost, PWR_GOOD falls. -/
def powerFail (s : State) (mode : Nat) : State :=
  let s := flashCut (loseRecent s)
  let t := bootState { s with rel := { s.rel with prevLost := true } } (decide (mode = 0))
  { t with pow := { t.pow with mode := mode, pwrGood := false } }

/-- The input goes off while a thermal shutdown holds the module down: the next start is a power-on (R415, R425). -/
def inputOff (s : State) (mv : Nat) : State :=
  let t := bootState s true
  setF { t with pow := { t.pow with mode := 0, pwrGood := false, lowAt := t.time } } rPwrStatus fPwrStatusInputMv mv

/-- POWER_FAIL (R410, R412): below 38.0 V the sequence runs; a module that is off after a thermal shutdown has its input
cycled. -/
def execPowerFail (mv : Nat) (s : State) : Host.Outcome State Fault Refusal :=
  .next (
    let s := inputSample s mv
    if 38000 ≤ mv then s
    else if s.pow.mode = 1 then powerFail s 0
    else if s.pow.mode = 2 then inputOff s mv
    else { s with pow := { s.pow with above42 := none } })

/-- OVER_VOLTAGE (R410, R412): above 59.5 V for more than 1 ms. -/
def execOverVoltage (mv : Nat) (s : State) : Host.Outcome State Fault Refusal :=
  .next (
    let s := inputSample s mv
    if mv ≤ 59500 then s
    else
      match s.pow.overSince with
      | none => { s with pow := { s.pow with overSince := some s.time } }
      | some t => if s.time ≤ t + oneMs ∨ s.pow.mode ≠ 1 then s else powerFail s 0)

/-- THERMAL_SHUTDOWN (R415): the sequence of R412; the module stays off until MOD_RST_N or a cycle of the input. -/
def execThermalShutdown (sensor : Sensor) (tempC : Int) (s : State) : Host.Outcome State Fault Refusal :=
  .next (
    let s := evrTemp s (sensorInst sensor) tempC
    if tempC < shutdownLimit sensor ∨ s.pow.mode ≠ 1 then s else powerFail s 2)

/-! ### Module reset (R425, R467) -/

/-- A module reset: the epoch closes early, and start-up begins again at step 3 with its power good. -/
def moduleReset (s : State) : State :=
  let s := if flashRuns s then closeEpoch s true else { s with rel := { s.rel with prevLost := true } }
  let s := flashCut s
  let holdup := getB s rPwrStatus fPwrStatusHoldupReady
  let mv := getF s rPwrStatus fPwrStatusInputMv
  let t := bootState s false
  let t := setF (setB t rPwrStatus fPwrStatusHoldupReady holdup) rPwrStatus fPwrStatusInputMv mv
  let t := { t with pow := { t.pow with
    mode := 1, ended := if s.pow.mode = 2 then [1] else [1, 2], startAt := s.pow.startAt, pwrGood := decide (s.pow.mode ≠ 2)
    pwrGoodAt := s.pow.pwrGoodAt, heldInReset := s.pow.heldInReset, modRstLow := s.pow.modRstLow, lowAt := s.pow.lowAt } }
  setObjNat t oStartState 1 (if s.pow.mode = 2 then 1 else 2)

/-- MODULE_RESET (R425). -/
def execModuleReset (s : State) : Host.Outcome State Fault Refusal := .next (moduleReset s)

/-- MOD_RST_N (R467): a sample of the pin; the twentieth low one in a row starts a module reset, held at step 3 while the pin
is low. The pin is read once PWR_GOOD is asserted, and in a module that a thermal shutdown turned off (R415). -/
def execModRstN (low : Bool) (s : State) : Host.Outcome State Fault Refusal :=
  .next (
    if ¬s.pow.pwrGood ∧ s.pow.mode ≠ 2 then s
    else if ¬low then { s with pow := { s.pow with modRstLow := 0 } }
    else
      let n := s.pow.modRstLow + 1
      let s := { s with pow := { s.pow with modRstLow := n } }
      if n = 20 then moduleReset { s with pow := { s.pow with heldInReset := true } } else s)

/-- MOD_RST_N_RISING_EDGE (R467). -/
def execModRstNRisingEdge (s : State) : Host.Outcome State Fault Refusal :=
  .next { s with pow := { s.pow with heldInReset := false, modRstLow := 0 } }

/-! ### Start-up (R431, R432) -/

/-- The steps that a step starts after. -/
def startsAfter (k : Nat) : List Nat :=
  if k = 8 ∨ k = 10 then [5] else if k = 9 then [7] else if k = 12 then [8, 9, 11] else if k ≤ 1 then [] else [k - 1]


/-- The Ehrant ports start only in mission mode with a valid peer id (R362, R363, R432). -/
def fabricStarts (s : State) : Bool := peerIdValid s && decide (s.pow.testSel = 3)

/-- A step has started and has not ended. -/
def stepStarted (s : State) (k : Nat) : Bool :=
  decide (s.pow.mode = 1) && !s.pow.ended.elem k && (startsAfter k).all (fun j => s.pow.ended.elem j) &&
    !(decide (3 ≤ k) && s.pow.heldInReset) && !(decide (3 < k) && decide (s.pow.testSel = 0)) &&
    !((decide (k = 10) || decide (k = 11)) && !fabricStarts s) && !(decide (3 < k) && s.sec.bootFail)

/-- A step may end now: step 8 once the mapping is rebuilt (R237). -/
def stepRuns (s : State) (k : Nat) : Bool := stepStarted s k && (decide (k ≠ 8) || s.dev.flInflight.isEmpty)

/-- MAPPING_REBUILD (R237, R431): in step 8 of the start-up, before the flash window opens. -/
def execMappingRebuild (cutLpns : CutPages) (s : State) : Host.Outcome State Fault Refusal :=
  .next (if stepStarted s 8 then rebuildMap s cutLpns.cut cutLpns.lowerHeld else s)

/-- Step 4: the slot is chosen and measured, or the module stays in reset with BOOT_FAIL (R374). -/
def bootStep (s : State) : State :=
  match bootChoice s with
  | none => setObjNat { s with sec := { s.sec with bootFail := true }, pow := { s.pow with failedStep := some 4 } } oStartState 1 0x84
  | some (k, fb) =>
    let s := { s with sec := { s.sec with runSlot := k, bootFail := false } }
    let s := setF (setB s rSecStatus fSecStatusFallback fb) rSecStatus fSecStatusImageSvn (image s k).svn
    (List.range 8).foldl (fun s i => remeasure s (1 + i)) (setF s rSecStatus fSecStatusBootSlot k)

/-- Step 9: engine firmware runs on the Spindle cores, engines fall under R422, and P_0's cores run the host loader of the boot
image (R429). -/
def firmwareStep (s : State) : State :=
  let s := (List.range 32).foldl (fun s e =>
    let s := (List.range 4).foldl (fun s k =>
      if (engAux s e).deadCores.elem k then s else setF s (rSpnState e k) fSpnStateState cIdle) s
    setEngAux s e { engAux s e with idleSince := some s.time }) s
  (List.range 128).foldl (fun s c =>
    if coreOwner s c = some 0 then
      let r := rCoreHold 0 (c / 64)
      let s := setR s r (getR s r &&& ~~~(BitVec.ofNat 64 (2 ^ (c % 64))))
      let (pc, s) := drawFree s
      { s with pow := { s.pow with corePc := mapSet s.pow.corePc c pc } }
    else s) s

/-- The straps are sampled once after a power-on (R362): later changes are ignored until the next. -/
def sampleStraps (s : State) (testSel : BitVec 2) (idStrap : BitVec 3) : State :=
  if s.pow.strapped then s
  else { s with pow := { s.pow with testSel := testSel.toNat, idStrap := idStrap.toNat, strapped := true } }

/-- What the end of a step leaves. -/
def stepEffect (s : State) (k : Nat) (testSel : BitVec 2) (idStrap : BitVec 3) : State :=
  match k with
  | 2 => { s with pow := { s.pow with pwrGood := true, pwrGoodAt := s.time } }
  | 3 =>
    let s := sampleStraps s testSel idStrap
    setObjNat (setObjNat s oTestSel 1 s.pow.testSel) oI3cStaticAddr 1 (0x30 + s.pow.idStrap)
  | 4 => bootStep s
  | 6 =>
    if s.pow.testSel = 3 then s
    else
      let k := s.freeCtr
      { s with freeCtr := k + 1, d2d := { s.d2d with testResult := (List.range 12).map (Config.freeByte k) } }
  | 7 => (List.range 16).foldl (fun s p => setF s (rSecPart p) fSecPartKeysReady 1) s
  | 8 => { s with dev := { s.dev with flOpen := true, flStop := false } }
  | 9 => firmwareStep s
  | _ => s

/-- A step ends. Without a fabric to start, the end of steps 8 and 9 leaves the module UNCONFIGURED. -/
def endStep (s : State) (k : Nat) (testSel : BitVec 2) (idStrap : BitVec 3) : State :=
  let s := stepEffect s k testSel idStrap
  if s.sec.bootFail then s
  else
    let s := { s with pow := { s.pow with ended := s.pow.ended ++ [k] } }
    setObjNat s oStartState 1 (if ¬peerIdValid s ∧ s.pow.ended.elem 8 ∧ s.pow.ended.elem 9 then 13 else k)

/-- Port states: one UP, every other UP or FAILED. -/
def portsSettled (s : State) : Bool :=
  let st (p : Nat) : Nat := getF s (rFabPort p) fFabPortState
  (List.range 16).any (fun p => decide (st p = 2)) && (List.range 16).all (fun p => decide (st p = 2) || decide (st p = 3))

/-- FABRIC_READY (R432). -/
def fabricReady (s : State) : State :=
  if stepRuns s 12 ∧ fabricStarts s ∧ portsSettled s then
    let s := { s with pow := { s.pow with ended := s.pow.ended ++ [12] }, fab := { s.fab with ready := !s.pow.stopped } }
    setObjNat (setObjNat s oStartState 1 12) oStartTimeMs 4 ((s.time - s.pow.startAt) / 1000000)
  else s

/-- FABRIC_READY (R432). -/
def execFabricReady (s : State) : Host.Outcome State Fault Refusal := .next (fabricReady s)

/-- START_UP (R410, R431): the start condition, the end of a step, or its failure. -/
def execStartUp (ev : StartEvent) (s : State) : Host.Outcome State Fault Refusal :=
  .next (
    match ev with
    | .condition mv =>
      let s := inputSample s mv
      if s.pow.mode ≠ 0 then s
      else if mv < 42000 then { s with pow := { s.pow with above42 := none } }
      else
        match s.pow.above42 with
        | none => { s with pow := { s.pow with above42 := some s.time } }
        | some t =>
          if s.time < t + 100 * oneMs then s
          else endStep { s with pow := { s.pow with mode := 1, startAt := t } } 1 0 0
    | .ends k testSel idStrap =>
      if k.val = 12 then fabricReady s
      else if 2 ≤ k.val ∧ stepRuns s k then endStep s k testSel idStrap else s
    | .fails k =>
      if stepRuns s k then { s with pow := { s.pow with failedStep := some k.val } } else s)

/-- START_TIMEOUT (R432): 90 s after the input first reached 42.0 V without fabric ready, START_STATE records the step that
failed: the one that reported so, else the first that has not ended. -/
def execStartTimeout (s : State) : Host.Outcome State Fault Refusal :=
  .next (
    if s.pow.mode ≠ 1 ∨ s.time < s.pow.startAt + 90 * oneSecond ∨ s.pow.ended.elem 12 ∨ objNat s oStartState = 13 then s
    else
      let k := match s.pow.failedStep with
        | some k => k
        | none => ((List.range 13).find? (fun k => decide (1 ≤ k) && !s.pow.ended.elem k)).getD 12
      setObjNat s oStartState 1 (128 + k))

/-- HOLDUP_READY (R413): the hold-up bank is charged, after PWR_GOOD. -/
def execHoldupReady (s : State) : Host.Outcome State Fault Refusal :=
  .next (if s.pow.pwrGood then setF s rPwrStatus fPwrStatusHoldupReady 1 else s)

/-! ### Engine, die and core resets (R425, R428, R429) -/

/-- ENG_RESET (R425, R428). -/
def execEngReset (ag : Agent) (e : Fin 32) (force : Bool) (s : State) : Host.Outcome State Fault Refusal :=
  .next (guarded s ag (rEngReset e).key (fun s => engineReset s e force))

/-- The engines of a compute die. -/
def dieEngines (d : Nat) : List (Fin 32) := (List.range 4).map (fun k => Fin.ofNat 32 (4 * d + k))

/-- The end of a die's departure: its engines or cores lose their state, and its units come back under new generations; a
discovery under way on its links starts again. -/
def finishDie (s : State) (d : Fin 12) (force : Bool) : State :=
  let s := { s with pow := { s.pow with departs := mapDel s.pow.departs (.die d) } }
  let s := if d.val < 8 then ((dieEngines d).map Fin.val).foldl (fun s e => finishEngReset s e force) s
    else if d.val < 10 then (List.range 64).foldl (fun s k =>
      bumpGen (stopCore s (64 * (d.val - 8) + k) (if force then .poison else .back)) (.core (Fin.ofNat 128 (64 * (d.val - 8) + k)))) s
    else s
  let links : List Nat := if d.val < 8 then [d.val, 8 + d.val, 8 + (d.val + 7) % 8] else if d.val < 10 then [8 + d.val] else [18]
  let s := links.foldl (fun s l =>
    if (linkState s l = lkTraining ∨ (d.val = 11 ∧ linkState s l = lkUp)) ∧ ¬(link s l).inReset then linkUp s l else s) s
  bumpGen s (.die d)

/-- A die reset (R425, R428). -/
def dieReset (s : State) (d : Fin 12) (force : Bool) : State :=
  if d.val = 10 then s
  else if force ∨ 8 ≤ d.val then finishDie s d force
  else
    let s := (dieEngines d).foldl (fun s e => drainEngine (clearContexts s e) e) s
    if (dieEngines d).all (engDrained s) then finishDie s d false
    else { s with pow := { s.pow with departs := mapSet s.pow.departs (.die d) s.time } }

/-- DIE_RESET (R425): dies 0 to 9 and 11; others are ignored. -/
def execDieReset (ag : Agent) (die : BitVec 4) (force : Bool) (s : State) : Host.Outcome State Fault Refusal :=
  .next (guarded s ag rDieReset.key (fun s => if die.toNat < 12 then dieReset s (Fin.ofNat 12 die.toNat) force else s))

/-- DEPARTURE_TIMEOUT (R428): a drain that has ended completes the departure; one that has not within 100 µs is forced. -/
def execDepartureTimeout (unit : UnitId) (s : State) : Host.Outcome State Fault Refusal :=
  .next (
    match unit with
    | .engine e =>
      match (engAux s e).depart with
      | none => s
      | some t => if engDrained s e then finishEngReset s e false else if s.time < t + 100000 then s else finishEngReset s e true
    | .die d =>
      match mapFind s.pow.departs (.die d) with
      | none => s
      | some t =>
        if (dieEngines d).all (engDrained s) then finishDie s d false else if s.time < t + 100000 then s else finishDie s d true
    | _ => s)

/-- A core released or held by its partition's bit. -/
def holdBit (s : State) (p : Nat) (c : Nat) (hold : Bool) : State :=
  let r := rCoreHold p (c / 64)
  let was := bitOf (getR s r).toNat (c % 64)
  if coreOwner s c ≠ some p ∨ was = hold then s
  else if hold then bumpGen (stopCore s c .back) (.core (Fin.ofNat 128 c))
  else
    let s := setR s r (getR s r &&& ~~~(BitVec.ofNat 64 (2 ^ (c % 64))))
    { s with pow := { s.pow with corePc := mapSet s.pow.corePc c (BitVec.ofNat 64 (4 * getF s (rCoreBoot p) fCoreBootAddr)) } }

/-- CORE_HOLD (R429): the bits of the partition's own cores take effect. -/
def execCoreHold (ag : Agent) (p : Fin 16) (w : Fin 2) (val : BitVec 64) (s : State) : Host.Outcome State Fault Refusal :=
  .next (guarded s ag (rCoreHold p w).key (fun s =>
    (List.range 64).foldl (fun s i => holdBit s p (64 * w.val + i) (val.getLsbD i)) s))

/-! ### Faults of cores (R396, R397) -/

/-- A record that names a spare core in the rings of P_0 and of the failed core's owner. -/
def spareRecord (s : State) (c spare : Nat) (owner : Option Nat) : State :=
  let i : ErrInfo := { src := 13, sev := 0, typ := 7, part := owner.getD 0, unit := spare, die := 8 + c / 64 }
  let s := errPut s errRing i 0 true
  match owner with
  | some p => if p = 0 then s else errPut s (errPring p) i 0 false
  | none => s

/-- SERVER_CORE_FAULT (R396): a spare takes over the core's index, held in reset; with none left the core is removed. -/
def execServerCoreFault (core : Fin 128) (s : State) : Host.Outcome State Fault Refusal :=
  .next (
    let c := core.val
    let d := c / 64
    if s.rel.removedCores.elem c then s
    else
      let owner := coreOwner s c
      let s := logRemoved s { src := 13, sev := 2, typ := 7, part := owner.getD 0, unit := c, die := 8 + d } owner.toList
      let s := stopCore s c .poison
      let used := mapGet s.rel.spareCores d 0
      if 2 ≤ used then { s with rel := { s.rel with removedCores := lineInsert s.rel.removedCores c } }
      else
        let s := { s with rel := { s.rel with spareCores := mapSet s.rel.spareCores d (used + 1) } }
        let s := setObjNat s oSpareCoresLeft 1 (objNat s oSpareCoresLeft - 1)
        let s := addRepair (bumpGen s (.core core)) 10 (8 + d) c 0 c (64 + used)
        spareRecord s c (64 + used) owner)

/-- SPINDLE_CORE_FAULT (R397): the core is retired; its task ends with FAULT_PERMISSION and no cause. -/
def execSpindleCoreFault (c : CoreId) (s : State) : Host.Outcome State Fault Refusal :=
  .next (
    if (engAux s c.e).deadCores.elem c.k.val then s
    else
      let s := if coreState s c.e c.k = cRunning then
          let i := coreSlot s c.e c.k
          endTask (setR s (rCtxTaskCause c.e (taskOwner s c.e i) i) 0) c.e i stFaultPermission 0
        else s
      let s := dropAgent s (128 + 4 * c.e.val + c.k.val) .poison
      let s := setF (setF s (rSpnState c.e c.k) fSpnStateState cReset) (rSpnState c.e c.k) fSpnStateSlot 0
      let s := setEngAux s c.e { engAux s c.e with deadCores := (engAux s c.e).deadCores ++ [c.k.val] }
      let s := addRepair s 11 (c.e.val / 4) c.e 0 c.k 0
      let owner := engOwner s c.e
      logRemoved s { src := 14, sev := 2, typ := 7, part := owner.getD 0, unit := 4 * c.e.val + c.k.val, die := c.e.val / 4 } owner.toList)

end Sys2Proof.Machine
end

