-- ==== Sys2Proof/Machine/Translation.lean ====
section
/-! DEFINITION. The Range Home's own events (R249 to R256): walks, consult requests and their answers, FLUSH_TAG. -/

namespace Sys2Proof.Machine

open Sys2Proof

/-! ### Walks in flight (R251) -/

/-- The walks of a cache: an engine's or the hub's. -/
def walksOf (s : State) : Option Nat → List Walk
  | some e => (engAux s e).walks
  | none => s.hub.walks

def setWalks (s : State) (c : Option Nat) (l : List Walk) : State :=
  match c with
  | some e => setEngAux s e { engAux s e with walks := l }
  | none => { s with hub := { s.hub with walks := l } }

/-- The cache a request looks in. -/
def reqCache (r : XlateReq) : Option Nat := r.engine.map (fun e => e.val)

def reqUnit (r : XlateReq) : SpoolId := ⟨r.e, r.ctx, r.spool⟩

/-- The fault of a request. -/
def reqFault (s : State) (r : XlateReq) (cause : Nat) : FaultInfo :=
  { va := r.va.toNat, astag := r.astag.toNat, cause := cause, write := r.write, unit := r.unit, since := s.time }

/-- A fault given to its requester (R255, R256, R261, R471). -/
def giveFault (s : State) (r : XlateReq) (cause : Nat) (replay : Bool) : State :=
  let i := reqFault s r cause
  let u := reqUnit r
  if r.unit = 8 then putPeerFault s r.part i
  else if r.unit = 1 then (if r.write then flushSpool (recFault s u i replay) u else fetchFault s u i replay)
  else faultCmd s u r.slot.toNat i replay

/-- What a resolved walk gives a request: the first permission it lacks is its fault (R255); with none, nothing. -/
def giveEntry (s : State) (r : XlateReq) (e : RcEntry) : State :=
  let q : XReq := { cache := reqCache r, ag := .engine r.e r.ctx, astag := r.astag.toNat, part := r.part, write := r.write,
                    read := r.read, exec := r.exec, remote := r.remote, unit := r.unit }
  match permFault e q with
  | some c => giveFault s r c (e.replay || e.rootReplay)
  | none => s

/-- A walk ends for one request (R245, R249, R252). -/
def resolveReq (s : State) (r : XlateReq) : State × WalkRes :=
  match walk s r.astag.toNat r.part r.va.toNat with
  | (s, .entry e) => (giveEntry (rcInstall s (reqCache r) e) r e, .entry e)
  | (s, .fault c replay) => (giveFault s r c replay, .fault c replay)
  | (s, .consult e) => ((addConsult s r e).1, .consult e)

/-- Whether two requests lie in one range of their table. -/
def sameRange (s : State) (a b : XlateReq) : Bool :=
  decide (a.astag = b.astag) && decide (a.part = b.part) &&
    (match (walk s a.astag.toNat a.part a.va.toNat).2 with
      | .entry e | .consult e => e.covers b.astag.toNat b.va.toNat
      | .fault .. => decide (a.va = b.va))

/-- A request that misses: with RH_ROOT.ENABLE 0 no walk starts and the miss faults; a range under a walk is waited for; else
a walk begins (R244, R251). -/
def beginWalk (s : State) (r : XlateReq) : State :=
  let c := reqCache r
  if ¬getB s rRhRoot fRhRootEnable then giveFault s r fNoRoot false
  else
    let l := walksOf s c
    if l.any (fun w => sameRange s w.req r) then
      let k := l.findIdx (fun w => sameRange s w.req r)
      setWalks s c (l.mapIdx (fun i w => if i = k then { w with joined := w.joined ++ [r] } else w))
    else
      let id := s.hub.nextId
      setWalks { s with hub := { s.hub with nextId := id + 1 } } c (l ++ [{ id := id, req := r, joined := [], restart := false }])

/-- RANGE_CACHE_MISS (R244, R251): a hit needs no walk. -/
def execRangeCacheMiss (r : XlateReq) (s : State) : Host.Outcome State Fault Refusal :=
  .next (
    match rcLookup s (reqCache r) r.astag.toNat r.va.toNat with
    | (s, some e) => giveEntry s r e
    | (s, none) => beginWalk s r)

/-- A request that waited for another's walk has its result (R251): the installed entry where it covers the address, the fault,
or its own consult request; an entry that covers another part of the range leaves it missing, and its own walk begins. -/
def joinResult (s : State) (r : XlateReq) : WalkRes → State
  | .entry e => if e.covers r.astag.toNat r.va.toNat then giveEntry s r e else beginWalk s r
  | .fault c replay => giveFault s r c replay
  | .consult e => (addConsult s r e).1

/-- The walks that the Range Home may have under way: an engine's first 16, and every one of the hub's (R251). -/
def walkIds (s : State) : List Nat :=
  (walksOf s none).map (fun w => w.id) ++ (List.range 32).flatMap (fun e => ((walksOf s (some e)).take 16).map (fun w => w.id))

/-- A walk is under way: one of the first 16 of its engine, and of the 64 that the Range Home runs at once, taken in the order of
their requests (R251). -/
def walkRuns (s : State) (id : Nat) : Bool :=
  (walkIds s).elem id && decide (((walkIds s).filter (fun j => decide (j < id))).length < 64)

/-- The walk with an identity, its cache, and the walks of that cache. -/
def walkNamed (s : State) (id : Nat) : Option (Option Nat × Walk) :=
  let here (c : Option Nat) : Option (Option Nat × Walk) := ((walksOf s c).find? (fun w => decide (w.id = id))).map (fun w => (c, w))
  match here none with
  | some x => some x
  | none => (List.range 32).findSome? (fun e => here (some e))

/-- WALK_COMPLETE (R245, R251, R253): a walk that a flush met starts again. -/
def execWalkComplete (id : Nat) (s : State) : Host.Outcome State Fault Refusal :=
  .next (
    match walkNamed s id with
    | none => s
    | some (c, w) =>
      let l := walksOf s c
      if ¬walkRuns s id then s
      else if w.restart then setWalks s c (l.map (fun x => if x.id = id then { x with restart := false } else x))
      else
        let (s, res) := resolveReq (setWalks s c (l.filter (fun x => decide (x.id ≠ id)))) w.req
        w.joined.foldl (fun s r => joinResult s r res) s)

/-! ### Consult requests (R252): an identity is quoted by its low 32 bits -/

def consultNamed (s : State) (id : Nat) : Option Consult := s.hub.consults.find? (fun c => decide (c.id % 2 ^ 32 = id))

/-- A consult request answered or given up leaves the list; the requests held for the ring follow. -/
def dropConsult (s : State) (id : Nat) : State :=
  flushConsults { s with hub := { s.hub with consults := s.hub.consults.filter (fun c => decide (c.id ≠ id)) } }

/-- A command that awaited the answer goes on: its accesses are made again; a peer's request is applied again. -/
def releaseConsult (s : State) (c : Consult) : State :=
  let u := reqUnit c.req
  if c.req.unit = 8 then answerAsked s c.id
  else match (spool s u).cmds.find? (fun x => decide (x.stall = .consult c.id)) with
  | some x => releaseCmd s u x
  | none => if c.req.unit = 1 then flushSpool s u else s

/-- A consult request ends in a fault; a peer's request is refused with it (R261). -/
def consultFault (s : State) (c : Consult) (cause : Nat) (replay : Bool) : State :=
  if c.req.unit = 8 then nackAsked s c.id c.req cause replay else giveFault s c.req cause replay

/-- A flushed consult starts again: its walk is made anew (R253). -/
def restartConsult (s : State) (c : Consult) : State :=
  let s := dropConsult s c.id
  match walk s c.req.astag.toNat c.req.part c.req.va.toNat with
  | (s, .entry e) => releaseConsult (rcInstall s (reqCache c.req) e) c
  | (s, .fault cause replay) => consultFault s c cause replay
  | (s, .consult e) =>
    let (s, id) := addConsult s c.req e
    let s := moveAsked s c.id id
    let u := reqUnit c.req
    match (spool s u).cmds.find? (fun x => decide (x.stall = .consult c.id)) with
    | some x => updCmd s u x.slot (fun y => { y with stall := .consult id })
    | none => s

/-- The reply's 32 bytes. -/
def replyBytes (s : State) : Bytes := (List.range 4).flatMap (fun i => natLE 8 (getR s (rRhReply i)).toNat)

/-- The reply lies within the consulted entry and carries no permission that it lacks (R252). -/
def replyWithin (e r : RcEntry) : Bool :=
  decide (e.start ≤ r.start) && decide (r.start + r.len ≤ e.start + e.len) &&
    (!r.r || e.r) && (!r.w || e.w) && (!r.x || e.x) && (!r.remote || e.remote)

/-- A reply that installs its entry, or gives BAD_ENTRY (R246, R252). -/
def installReply (s : State) (c : Consult) : State :=
  let bs := replyBytes s
  let astag := c.req.astag.toNat
  let e := entryWhole s astag c.req.part c.entry.rootReplay bs
  let s := dropConsult s c.id
  if bitOf (u64At bs 0) 0 ∧ entryOk s astag c.req.part bs ∧ replyWithin c.entry e then
    let va := c.req.va.toNat
    let at_ := if e.covers astag va then va else e.start
    let s := if natField (u64At bs 0) 7 6 ≠ 0 ∧ effHint s (natField (u64At bs 0) 7 6) (u64At bs 24) = 0 then bump s rHintIgnored fHintIgnored 1 else s
    releaseConsult (rcInstall s (reqCache c.req) { entryAt s e at_ with consulted := true }) c
  else consultFault (bump s rRhBadEntry fRhBadEntryCount 1) c fBadEntry (c.entry.replay || c.entry.rootReplay)

/-- RH_REPLY_INSTALL (R252): an identity that names no request is ignored. -/
def execRhReplyInstall (ag : Agent) (id : BitVec 32) (s : State) : Host.Outcome State Fault Refusal :=
  .next (guarded s ag rRhReplyCtl.key (fun s =>
    match consultNamed s id.toNat with
    | none => s
    | some c => if c.restart then restartConsult s c else installReply s c))

/-- RH_REPLY_REFUSE (R252). -/
def execRhReplyRefuse (ag : Agent) (id : BitVec 32) (s : State) : Host.Outcome State Fault Refusal :=
  .next (guarded s ag rRhReplyCtl.key (fun s =>
    match consultNamed s id.toNat with
    | none => s
    | some c =>
      if c.restart then restartConsult s c
      else consultFault (dropConsult s c.id) c fConsultRefused (c.entry.replay || c.entry.rootReplay)))

/-- CONSULT_TIMEOUT (R252). -/
def execConsultTimeout (id : BitVec 32) (s : State) : Host.Outcome State Fault Refusal :=
  .next (
    match consultNamed s id.toNat with
    | none => s
    | some c =>
      if s.time < c.since + objNat s oConsultTimeout * 1000000 then s
      else if c.restart then restartConsult s c
      else consultFault (dropConsult s c.id) c fConsultTimeout (c.entry.replay || c.entry.rootReplay))

/-- RH_CONSULT_PTR_CONSUMER (R252). -/
def execRhConsultPtrConsumer (ag : Agent) (val : BitVec 32) (s : State) : Host.Outcome State Fault Refusal :=
  .next (guarded s ag rRhConsultPtr.key (fun s => flushConsults (setF s rRhConsultPtr fRhConsultPtrConsumer val.toNat)))

/-! ### FLUSH_TAG (R253, R254) -/

/-- FLUSH_TAG (R253, R254). -/
def execFlushTag (ag : Agent) (astag : BitVec 16) (all drain : Bool) (s : State) : Host.Outcome State Fault Refusal :=
  .next (guarded s ag rRhFlush.key (fun s =>
    if 16 ≤ s.hub.flushQ.length then setF s rRhFlushStatus fRhFlushStatusRefused 1
    else
      let f : Flush := { astag := astag.toNat, all := all, drain := drain, software := true }
      afterFlushes (pumpFlushes { s with hub := { s.hub with flushQ := s.hub.flushQ ++ [f] } })))

/-- FLUSH_TAG_DONE (R253): the draining flush at the front completes once its requests have, and the next ones start. -/
def execFlushTagDone (s : State) : Host.Outcome State Fault Refusal :=
  .next (
    match s.hub.flushQ with
    | [] => s
    | f :: l =>
      if f.started.isNone || flushPending s f then s
      else afterFlushes (pumpFlushes (flushDone { s with hub := { s.hub with flushQ := l } } f)))

end Sys2Proof.Machine
end

