-- ==== Sys2Proof/Machine/Registers.lean ====
section
/-! DEFINITION. Accesses to the MMIO window (R13, R14, R445 to R447): what a register read returns and clears, and what a
register write changes, each register with the behaviour its description gives it. -/

namespace Sys2Proof.Machine

open Sys2Proof

/-- The state a total meaning answers. -/
def nextOf (o : Host.Outcome State Fault Refusal) (s : State) : State :=
  match o with
  | .next t => t
  | _ => s

/-! ### Reset values by place -/

/-- The member of an indexed group of `n` registers, where the index is one of the group's. -/
def member (n i : Nat) (r : Nat → Reg) : List Reg := if i < n then [r i] else []

/-- The registers of a place whose reset value is not 0. -/
def resetRegs (k : RegKey) : List Reg :=
  match k.blk with
  | .engP => [rEngId k.i, rAbftTol k.i, rStatFind k.i] ++ member 13 ((k.off - 0x100) / 8) (rArrayState k.i) ++
      member 256 ((k.off - 0x2200) / 8) (rBobCfg k.i) ++ member 16 ((k.off - 0x4100) / 32) (rFrBase k.i)
  | .engC => [rCtxStatFind k.i k.n] ++ member 4 (k.off / 0x80) (rSpCfg k.i k.n)
  | .hub => [rHubId]
  | .hubWin => [rAuqMbx k.i] ++ member 2 (k.off / 8) (rCoreHold k.i)
  | .rh => [rMigCfg, rHotBase, rRhConsultBase] ++ member 16 ((k.off - 0x1000) / 32) rRhPfrBase
  | .stk => [rStkCfg k.i]
  | .sec => [rMeasSel]
  | .rel => [rErrRingBase] ++ member 16 ((k.off - 0x200) / 32) rErrPringBase
  | _ => []

/-- The register at a place with its reset value. -/
def regAt (k : RegKey) : Reg :=
  match (resetRegs k).find? (fun r => decide (r.key = k)) with
  | some r => r
  | none => ⟨k, 0⟩

/-! ### What a register shows -/

/-- Bits of a list of flags, from bit 0 up. -/
def flagBits (l : List Bool) : Nat := (l.zipIdx).foldl (fun t x => if x.1 then t + 2 ^ x.2 else t) 0

/-- The stat-table entry from 0 to 254 that holds a tensor id (STAT_FIND). -/
def statFind (s : State) (e tensor : Nat) : Option Nat :=
  if tensor = 0xFFFF then none
  else (List.range 255).find? (fun i => (statEntry s e i).valid && decide ((statEntry s e i).tensor = tensor))

def findView (s : State) (e : Nat) (v : Word) : Word :=
  match statFind s e (v.toNat % 65536) with
  | some i => fset (fset v fStatFindEntry i) fStatFindFound 1
  | none => fset (fset v fStatFindEntry 255) fStatFindFound 0

/-- The context slot whose TRANSFER runs on a mover. -/
def moverCtx (s : State) (e m : Nat) : Option Nat :=
  (s.eng.spools.find? (fun x => decide (x.1.e.val = e) && x.2.cmds.any (fun c => c.live && decide (c.opcode = 0x01) && decide (c.mover = some m)))).map
    (fun x => x.1.n.val)

/-- Owners of 16 units as 4-bit fields; an unowned one reads 0xF (SEC_ENG_OWNER, SEC_CORE_OWNER). -/
def ownerWord (f : Nat → Option Nat) : Word := BitVec.ofNat 64 ((List.range 16).foldl (fun t i => t + (f i).getD 15 * 2 ^ (4 * i)) 0)

/-- The charge of account n (POOL_CHARGE_n). -/
def acctCharge (s : State) (i : Nat) : Nat :=
  (s.hub.grans.filter (fun g => decide (g.2.state ≠ 0) && !g.2.unacct && decide (poolAcct s g.2.astag g.2.part = some i))).length

/-- The frames of a partition that no account holds (POOL_UNACCT_p). -/
def unacctCharge (s : State) (p : Nat) : Nat :=
  (s.hub.grans.filter (fun g => decide (g.2.state ≠ 0) && decide (g.2.part = p) && (g.2.unacct || decide (poolAcct s g.2.astag p = none)))).length

/-- GRAN_DATA of a granule. -/
def granView (x : Gran) : Word :=
  fset (fset (fset (fset (fset (fset (fset 0 fGranDataState x.state) fGranDataAge x.age) fGranDataHeat x.heat) fGranDataFrame x.frame)
    fGranDataAstag x.astag) fGranDataPartition x.part) fGranDataReported x.reported.toNat

/-- Registers of an engine's privileged page that show other state. -/
def engPView (s : State) (k : RegKey) (v : Word) : Word :=
  let e := k.i
  if k = (rStatFind e).key then findView s e v
  else if 0x2200 ≤ k.off ∧ k.off < 0x2A00 ∧ getB s (rBobArm e) fBobArmView then getPend s (regAt k)
  else if 0x3800 ≤ k.off ∧ k.off < 0x3820 then
    match moverCtx s e ((k.off - 0x3800) / 8) with
    | some n => fset (fset (fset v fMoverBusy 1) fMoverCtx n) fMoverOutstanding ((Config.freeWord s.freeCtr).toNat % 385)
    | none => fset (fset v fMoverBusy 0) fMoverCtx 0
  else if k = (rRcStatus e).key then fset (fset v fRcStatusEntries (engAux s e).rc.length) fRcStatusWalks (engAux s e).walks.length
  else if 0x4300 ≤ k.off ∧ k.off < 0x4380 then
    fset v fFrStatusStalled (min 255 (stallsOf s (Fin.ofNat 32 e) (Fin.ofNat 16 ((k.off - 0x4300) / 8))).length)
  else if k = (rEngPwr e).key then fset v fEngPwrDeepest (engDeepest s e)
  else v

/-- Registers of a context window that show other state. -/
def engCView (s : State) (k : RegKey) (v : Word) : Word :=
  if k = (rCtxStatFind k.i k.n).key then findView s k.i v
  else if 0x400 ≤ k.off ∧ k.off < 0x480 then
    let i := (k.off - 0x400) / 8
    if taskOwner s k.i i = k.n then
      fset (fset v fCtxTaskState (taskState s k.i i)) fCtxTaskOwned (getF s (rSchedSlot k.i i) fSchedSlotEnable)
    else fset (fset v fCtxTaskState 0) fCtxTaskOwned 0
  else v

/-- Registers of the Range Home and migration block that show other state. -/
def rhView (s : State) (k : RegKey) (v : Word) : Word :=
  if k = rMigStatus.key then fset (fset v fMigStatusQueued s.hub.migQ.length) fMigStatusInFlight (migInFlight s)
  else if k = rGranData.key then granView (gran s (getF s rGranSel fGranSelGranule))
  else if 0x11000 ≤ k.off ∧ k.off < 0x11800 ∧ getB s rPoolArm fPoolArmView then getPend s (regAt k)
  else if 0x11800 ≤ k.off ∧ k.off < 0x12000 then BitVec.ofNat 64 (acctCharge s ((k.off - 0x11800) / 8))
  else if 0x10800 ≤ k.off ∧ k.off < 0x10880 then BitVec.ofNat 64 (unacctCharge s ((k.off - 0x10800) / 8))
  else if k = rRhFlushStatus.key then fset v fRhFlushStatusQueued s.hub.flushQ.length
  else v

/-- The directory's answer for the line of DIR_LOOK_SEL (R266). -/
def dirView (s : State) (k : RegKey) (v : Word) : Word :=
  match dirFind s (getF s rDirLookSel fDirLookSelLine) with
  | none => if k = rDirLookState.key ∨ (0x90 ≤ k.off ∧ k.off < 0xB8) then 0 else v
  | some d =>
    if k = rDirLookState.key then (if d.owned then 2 else 1)
    else if 0x90 ≤ k.off ∧ k.off < 0xB8 then
      let w := (k.off - 0x90) / 8
      BitVec.ofNat 64 (flagBits ((List.range 64).map (fun i => d.pv.elem (64 * w + i))))
    else v

/-- Registers of a step job that show other state. -/
def jobView (s : State) (k : RegKey) (v : Word) : Word :=
  let p := k.i
  if k = (rStepStatus p).key then fset v fStepStatusPhase (jobPhase s p)
  else if k = (rPennantCause p).key then
    match (job s p).closed with
    | c :: _ => fset v fPennantCausePending (stepPending s p c.step)
    | [] => fset v fPennantCausePending 0
  else if 0x80 ≤ k.off ∧ k.off < 0xA0 ∧ getB s (rOptArm p) fOptArmView then getPend s (regAt k)
  else v

/-- Registers of the Ehrant block that show other state. -/
def fabView (s : State) (k : RegKey) (v : Word) : Word :=
  if k = rFabId.key then
    fset (fset (fset (fset v fFabIdPeerId (peerId s)) fFabIdMode (objNat s oLinkMode)) fFabIdEncap (objNat s oEncap)) fFabIdPeerValid (peerIdValid s).toNat
  else if k = rPeerState.key then
    let q := getF s rPeerSel fPeerSelPeer
    fset (fset v fPeerStateState (peerOf s q).state) fPeerStatePlanesUp (flagBits ((List.range 16).map (planeUp s q)))
  else v

/-- Registers of the security block that show other state. -/
def secView (s : State) (k : RegKey) (v : Word) : Word :=
  if k = rSecStatus.key then
    fset (fset (fset v fSecStatusLifecycle (objNat s oLifecycle)) fSecStatusTenantIsolate (objNat s oTenantIsolate)) fSecStatusFuseSvn s.sec.fuseSvn
  else if 0x10 ≤ k.off ∧ k.off < 0x20 then ownerWord (fun i => engOwner s (16 * ((k.off - 0x10) / 8) + i))
  else if 0x20 ≤ k.off ∧ k.off < 0x60 then ownerWord (fun i => coreOwner s (16 * ((k.off - 0x20) / 8) + i))
  else if 0x100 ≤ k.off ∧ k.off < 0x180 then
    let p := (k.off - 0x100) / 8
    fset v fSecPartLinkSlots (flagBits ((List.range 16).map (fun i => s.sec.keys.any (fun x => decide (x.1 = (p, i))))))
  else if 0x208 ≤ k.off ∧ k.off < 0x238 then
    BitVec.ofNat 64 (u64At (measurement s (getF s rMeasSel fMeasSelIndex)) (k.off - 0x208))
  else v

/-- CORE_HOLD_w shows every core's hold, in each partition's window (R429): a core runs where its owner's bit is clear. -/
def hubWinView (s : State) (k : RegKey) (v : Word) : Word :=
  if k.off < 16 then (List.range 16).foldl (fun m p => m &&& getR s (rCoreHold p (k.off / 8))) v else v

/-- Counts of cycles, bus turns and retried flits, which follow from the timing that the model leaves out: STALL_e_c, TURNAROUNDS and
CRC_RETRY_n. Such a register shows a free value (log 70). -/
def timedCount (k : RegKey) : Bool :=
  (decide (k.blk = .rh) && decide (0x12000 ≤ k.off) && decide (k.off < 0x12800) && decide (k.off % 64 < 0x38)) ||
    (decide (k.blk = .stk) && decide (k.off = 0x80028)) ||
    (decide (k.blk = .plalia) && decide (k.off < 19 * 64) && decide (k.off % 64 = 0x10))

/-- What a register shows: what it holds, with the fields that show other state taken from there. -/
def regView (s : State) (k : RegKey) : Word :=
  let v := if timedCount k then Config.freeWord s.freeCtr else getR s (regAt k)
  match k.blk with
  | .engP => engPView s k v
  | .engC => engCView s k v
  | .rh => rhView s k v
  | .dir => dirView s k v
  | .job => jobView s k v
  | .fab => fabView s k v
  | .sec => secView s k v
  | .hubWin => hubWinView s k v
  | .flash => if k = rFlReqStatus.key then fset v fFlReqStatusQueued s.dev.flQ.length else v
  | .hub => if k = rModuleTime.key then BitVec.ofNat 64 s.time
      else if k = rPwrStatus.key then fset v fPwrStatusArrayMhzMin (arrayMhzMin s) else v
  | _ => v

/-! ### Reads (R14, R447) -/

/-- The fields of a register with one access code, as a mask. -/
def accMask (d : RegDesc) (f : Acc → Bool) : Word := d.fields.foldl (fun m x => if f x.acc then m ||| x.fd.mask else m) 0

/-- The bits that an access covers. -/
def accessBits : RegAccess → Word
  | .w64 => 0xFFFFFFFFFFFFFFFF
  | .lo32 => 0xFFFFFFFF
  | .hi32 => 0xFFFFFFFF00000000
  | .bad => 0

/-- The value as an access returns it. -/
def accessValue (acc : RegAccess) (v : Word) : Word :=
  match acc with
  | .w64 => v
  | .lo32 => v &&& 0xFFFFFFFF
  | .hi32 => v >>> 32
  | .bad => 0

/-- RC fields that a read clears: those that lie wholly within what it covers (R447). -/
def rcCleared (d : RegDesc) (acc : RegAccess) : Word :=
  d.fields.foldl (fun m x => if x.acc = .rc ∧ x.fd.mask &&& accessBits acc = x.fd.mask then m ||| x.fd.mask else m) 0

/-- The hart behind an agent, whatever its privilege. -/
def hartAgent : Agent → Agent
  | .core c _ => .core c .m
  | .spindle e k _ => .spindle e k .m
  | a => a

/-- MODULE_TIME: a read of the lower half latches the upper half for the same hart's next read of it. -/
def timeRead (s : State) (ag : Agent) (acc : RegAccess) : State × Word :=
  let h := hartAgent ag
  let t := BitVec.ofNat 64 s.time
  match acc with
  | .lo32 => ({ s with mgmt := { s.mgmt with timeLatch := mapSet s.mgmt.timeLatch h (s.time / 2 ^ 32 % 2 ^ 32) } }, t &&& 0xFFFFFFFF)
  | .hi32 =>
    match mapFind s.mgmt.timeLatch h with
    | some v => ({ s with mgmt := { s.mgmt with timeLatch := mapDel s.mgmt.timeLatch h } }, BitVec.ofNat 64 v)
    | none => (s, t >>> 32)
  | _ => (s, t)

/-- The spool whose block holds a place of a context window. -/
def spoolAt (k : RegKey) : SpoolId := ⟨Fin.ofNat 32 k.i, Fin.ofNat 16 k.n, Fin.ofNat 4 (k.off / 0x80)⟩

/-- A read of a register that shows a free value uses that value up. -/
def readFree (s : State) (k : RegKey) : State :=
  if timedCount k ∨ (k.blk = .engP ∧ 0x3800 ≤ k.off ∧ k.off < 0x3820) then { s with freeCtr := s.freeCtr + 1 } else s

/-- An admitted read of a register. -/
def readReg (s : State) (ag : Agent) (k : RegKey) (acc : RegAccess) : State × Word :=
  if k = rModuleTime.key then timeRead s ag acc
  else if k.blk = .engC ∧ k.off < 0x200 ∧ k = (rSpLock k.i k.n (k.off / 0x80)).key then
    match acc with
    | .w64 | .lo32 =>
      let (s, v) := lockRead s ag (spoolAt k)
      (s, accessValue acc v)
    | _ => (s, accessValue acc (regView s k))
  else if k.blk = .rel ∧ 0x1000 ≤ k.off ∧ k.off < 0x2000 then (if acc = .w64 then evrTake s else (s, 0))
  else
    match regDesc k with
    | none => (s, 0)
    | some d =>
      let shown := regView s k &&& ~~~(accMask d (fun a => decide (a = .wo)))
      let c := rcCleared d acc
      (readFree (if c = 0 then s else setR s (regAt k) (getR s (regAt k) &&& ~~~c)) k, accessValue acc shown)

/-- A peek of a register (R452): nothing changes; a peek of SP_LOCK reads GRANTED as 0. -/
def peekReg (s : State) (k : RegKey) (acc : RegAccess) : Word :=
  if k.blk = .rel ∧ 0x1000 ≤ k.off ∧ k.off < 0x2000 then accessValue acc (BitVec.ofNat 64 (evrWordAt s))
  else
    match regDesc k with
    | none => 0
    | some d => accessValue acc (regView s k &&& ~~~(accMask d (fun a => decide (a = .wo))))

/-! ### Writes (R14, R447) -/

/-- The 64-bit value a write puts forward: a half stands in its place, the other half as the register shows it. -/
def writeValue (s : State) (k : RegKey) (acc : RegAccess) (val : Word) : Word :=
  match acc with
  | .w64 => val
  | .lo32 => (getR s (regAt k) &&& 0xFFFFFFFF00000000) ||| (val &&& 0xFFFFFFFF)
  | .hi32 => (getR s (regAt k) &&& 0xFFFFFFFF) ||| (val <<< 32)
  | .bad => 0

/-- A value written per the access codes: RW fields take it, W1C bits are cleared and W1S bits set by ones, all within the bits
that the access covers. -/
def writeCodes (d : RegDesc) (acc : RegAccess) (old val : Word) : Word :=
  let m := accessBits acc
  let v := match acc with
    | .hi32 => val <<< 32
    | _ => val
  let rw := accMask d (fun a => decide (a = .rw)) &&& m
  let w1c := accMask d (fun a => decide (a = .w1c)) &&& m
  let w1s := accMask d (fun a => decide (a = .w1s)) &&& m
  (((old &&& ~~~rw) ||| (v &&& rw)) &&& ~~~(v &&& w1c)) ||| (v &&& w1s)

/-- A write of a register without behaviour of its own. -/
def writePlain (s : State) (k : RegKey) (d : RegDesc) (acc : RegAccess) (val : Word) : State :=
  setR s (regAt k) (writeCodes d acc (getR s (regAt k)) val)

/-- A write of a member of an armed group: its pending copy (R448). -/
def writeMember (s : State) (k : RegKey) (d : RegDesc) (acc : RegAccess) (val : Word) : State :=
  setPend s (regAt k) (writeCodes d acc (getPend s (regAt k)) val)

/-- STAT_SEL and CTX_STAT_SEL: ENTRY alone, or the snapshot. -/
def writeStatSel (s : State) (ag : Agent) (e : Fin 32) (win : Option (Fin 16)) (k : RegKey) (d : RegDesc) (v : Word) : State :=
  let i := Fin.ofNat 256 (fget v fStatSelEntry)
  if fget v fStatSelSnap = 0 then writePlain s k d .w64 v
  else if fget v fStatSelClear = 1 then nextOf (execStatSelClear ag e win i s) s
  else nextOf (execStatSelSnap ag e win i s) s

/-- CTX_CFG_n: setting VALID wakes the engine (R424). -/
def writeCtxCfg (s : State) (ag : Agent) (e : Fin 32) (n : Fin 16) (v : Word) : State :=
  if getB s (rCtxCfg e n) fCtxCfgValid ∨ fget v fCtxCfgValid = 0 then nextOf (execCtxCfgValidClear ag e n v s) s
  else nextOf (execCtxCfgValidSet ag e n v s) s

/-- Writes of an engine's privileged page. -/
def writeEngP (s : State) (ag : Agent) (k : RegKey) (d : RegDesc) (acc : RegAccess) (val : Word) : State :=
  let e : Fin 32 := Fin.ofNat 32 k.i
  let v := writeValue s k acc val
  if k = (rAbftInject e).key then nextOf (execAbftInject ag e (BitVec.ofNat 4 (fget v fAbftInjectArray)) (decide (fget v fAbftInjectArm = 1)) s) s
  else if k = (rStatSel e).key then writeStatSel s ag e none k d v
  else if k = (rStatClearAll e).key then (if fget v fStatClearAllAll = 1 then nextOf (execStatClearAll ag e s) s else s)
  else if 0x1100 ≤ k.off ∧ k.off < 0x1180 then
    let w := writeCodes d acc (getR s (regAt k)) val
    if taskState s e ((k.off - 0x1100) / 8) = tFree then setR s (regAt k) w else setF s (regAt k) fSchedSlotEnable (fget w fSchedSlotEnable)
  else if 0x2000 ≤ k.off ∧ k.off < 0x2080 then writeCtxCfg s ag e (Fin.ofNat 16 ((k.off - 0x2000) / 8)) v
  else if k = (rBobArm e).key then
    if fget v fBobArmArm = 1 then nextOf (execBobArm ag e (decide (fget v fBobArmView = 1)) s) s else writePlain s k d acc val
  else if 0x2200 ≤ k.off ∧ k.off < 0x2A00 then writeMember s k d acc val
  else if 0x4100 ≤ k.off ∧ k.off < 0x4300 ∧ k.off % 32 = 8 then
    if acc = .lo32 then s
    else nextOf (execFrPtrConsumer ag (.ctx e (Fin.ofNat 16 ((k.off - 0x4100) / 32))) (v.extractLsb' 32 32) s) s
  else if k = (rFrResume e).key then
    let n : Fin 16 := Fin.ofNat 16 (fget v fFrResumeCtx)
    let seq := BitVec.ofNat 48 (fget v fFrResumeSeq)
    match fget v fFrResumeAction with
    | 1 => nextOf (execFrResumeRetry ag e n seq s) s
    | 2 => nextOf (execFrResumeKill ag e n seq s) s
    | _ => s
  else if k = (rEngPwr e).key then
    if acc = .hi32 then s else nextOf (execEngPwrReq ag e (BitVec.ofNat 2 (fget v fEngPwrReq)) s) s
  else if k = (rEngReset e).key then
    if fget v fEngResetGo = 1 then nextOf (execEngReset ag e (decide (fget v fEngResetForce = 1)) s) s else s
  else writePlain s k d acc val

/-- BOB_MARK (R156). -/
def writeBobMark (s : State) (ag : Agent) (e : Fin 32) (n : Fin 16) (v : Word) : State :=
  let b : Fin 256 := Fin.ofNat 256 (fget v fBobMarkBobbin)
  match fget v fBobMarkOp with
  | 1 => nextOf (execBobMarkFill ag e n b s) s
  | 2 => nextOf (execBobMarkReady ag e n b (BitVec.ofNat 16 (fget v fBobMarkReaders)) s) s
  | 3 => nextOf (execBobMarkConsumed ag e n b s) s
  | 4 => nextOf (execBobMarkRelease ag e n b s) s
  | _ => s

/-- SP_CFG (R149, R472), by what the write does. -/
def writeSpCfg (s : State) (ag : Agent) (u : SpoolId) (v : Word) : State :=
  if fget v fSpCfgEnable = 0 then nextOf (execSpCfgDisable ag u v s) s
  else if fget v fSpCfgResume = 1 then nextOf (execResume ag u v s) s
  else nextOf (execSpCfgEnable ag u v s) s

/-- Writes of a context window. -/
def writeEngC (s : State) (ag : Agent) (k : RegKey) (d : RegDesc) (acc : RegAccess) (val : Word) : State :=
  let e : Fin 32 := Fin.ofNat 32 k.i
  let n : Fin 16 := Fin.ofNat 16 k.n
  let u := spoolAt k
  let v := writeValue s k acc val
  if k.off < 0x200 then
    match k.off % 0x80 with
    | 0x00 | 0x08 => if getB s (rSpCfg e n u.s) fSpCfgEnable then s else writePlain s k d acc val
    | 0x10 => writeSpCfg s ag u v
    | 0x18 => if acc = .hi32 then s else nextOf (execSqTail ag u (v.extractLsb' 0 32) s) s
    | 0x28 => if acc = .lo32 then s else nextOf (execCqHead ag u (v.extractLsb' 32 32) s) s
    | _ => writePlain s k d acc val
  else if k = (rBobMark e n).key then writeBobMark s ag e n v
  else if k = (rCtxCancel e n).key then
    nextOf (execCtxCancel ag e n (BitVec.ofNat 4 (fget v fCtxCancelSpoolMask)) (decide (fget v fCtxCancelReleaseAll = 1)) s) s
  else if k = (rCtxStatSel e n).key then writeStatSel s ag e (some n) k d v
  else writePlain s k d acc val

/-- Writes of the Range Home and migration block. -/
def writeRh (s : State) (ag : Agent) (k : RegKey) (d : RegDesc) (acc : RegAccess) (val : Word) : State :=
  let v := writeValue s k acc val
  if k = rMigReq.key then
    let g := BitVec.ofNat 20 (fget v fMigReqGranule)
    match fget v fMigReqOp with
    | 1 => nextOf (execMigReqPromote ag g (BitVec.ofNat 16 (fget v fMigReqAstag)) s) s
    | 2 => nextOf (execMigReqDemote ag g s) s
    | _ => s
  else if k = rPoolArm.key then
    if fget v fPoolArmArm = 1 then nextOf (execPoolArm ag (decide (fget v fPoolArmView = 1)) s) s else writePlain s k d acc val
  else if 0x11000 ≤ k.off ∧ k.off < 0x11800 then writeMember s k d acc val
  else if k = rRhFlush.key then
    if fget v fRhFlushGo = 1 then
      nextOf (execFlushTag ag (BitVec.ofNat 16 (fget v fRhFlushAstag)) (decide (fget v fRhFlushAll = 1)) (decide (fget v fRhFlushDrain = 1)) s) s
    else s
  else if k = rRhConsultPtr.key then (if acc = .lo32 then s else nextOf (execRhConsultPtrConsumer ag (v.extractLsb' 32 32) s) s)
  else if 0x40 ≤ k.off ∧ k.off < 0x60 then setR s (regAt k) v
  else if k = rRhReplyCtl.key then
    let id := BitVec.ofNat 32 (fget v fRhReplyCtlId)
    match fget v fRhReplyCtlAction with
    | 1 => nextOf (execRhReplyInstall ag id s) s
    | 2 => nextOf (execRhReplyRefuse ag id s) s
    | _ => s
  else if 0x1000 ≤ k.off ∧ k.off < 0x1200 ∧ k.off % 32 = 8 then
    if acc = .lo32 then s else nextOf (execFrPtrConsumer ag (.part (Fin.ofNat 16 ((k.off - 0x1000) / 32))) (v.extractLsb' 32 32) s) s
  else if k = rMigCfg.key then promoteHot (writePlain s k d acc val)
  else writePlain s k d acc val

/-- Writes of a step job. -/
def writeJob (s : State) (ag : Agent) (k : RegKey) (d : RegDesc) (acc : RegAccess) (val : Word) : State :=
  let p : Fin 16 := Fin.ofNat 16 k.i
  let v := writeValue s k acc val
  if k = (rStepCtl p).key then
    let st := BitVec.ofNat 48 (fget v fStepCtlStep)
    match fget v fStepCtlOp with
    | 0 => s
    | 1 => nextOf (execStepClose ag p st s) s
    | 2 => nextOf (execStepRaise ag p st s) s
    | 3 => nextOf (execStepRejoin ag p st s) s
    | _ => ctlErr s p
  else if k = (rOptArm p).key then
    if fget v fOptArmArm = 1 then nextOf (execOptArm ag p (decide (fget v fOptArmView = 1)) s) s else writePlain s k d acc val
  else if 0x80 ≤ k.off ∧ k.off < 0xA0 then writeMember s k d acc val
  else if k = (rJobCfg p).key then
    if jobEnabled s p then setF s (rJobCfg p) fJobCfgEnable (fget v fJobCfgEnable)
    else
      let s := writePlain s k d acc val
      if jobEnabled s p then jobStart s p else s
  else if 0x30 ≤ k.off ∧ k.off < 0x60 then (if jobEnabled s p then s else writePlain s k d acc val)
  else if k = (rCkptCtl p).key then
    let s := if fget v fCkptCtlNext = 1 then nextOf (execCkptNext ag p s) s else s
    if fget v fCkptCtlOp = 1 then nextOf (execCkptRestore ag p (decide (fget v fCkptCtlSlot = 1)) s) s else s
  else writePlain s k d acc val

/-- STK_REPAIR (R228). -/
def writeStkRepair (s : State) (ag : Agent) (die : Fin 8) (v : Word) : State :=
  let c : Fin 128 := Fin.ofNat 128 (fget v fStkRepairChannel)
  let b : Fin 16 := Fin.ofNat 16 (fget v fStkRepairBank)
  let t := BitVec.ofNat 14 (fget v fStkRepairTarget)
  match fget v fStkRepairOp with
  | 1 => nextOf (execStkRepairConnection ag die c t s) s
  | 2 => nextOf (execStkRepairRow ag die c b t s) s
  | 3 => nextOf (execStkRepairColumn ag die c b t s) s
  | _ => s

/-- FL_REQ_CTL (R234). -/
def writeFlReq (s : State) (ag : Agent) (v : Word) : State :=
  let p : Fin 16 := Fin.ofNat 16 (fget v fFlReqCtlPartition)
  let n := BitVec.ofNat 24 (fget v fFlReqCtlPages)
  let l := BitVec.ofNat 32 (fget v fFlReqCtlLpn)
  match fget v fFlReqCtlOp with
  | 1 => nextOf (execFlReqWrite ag p n l s) s
  | 2 => nextOf (execFlReqTrim ag p n l s) s
  | _ => s

/-- CONN_CTL (R324). -/
def writeConnCtl (s : State) (ag : Agent) (v : Word) : State :=
  let c := BitVec.ofNat 16 (fget v fConnCtlConn)
  match fget v fConnCtlOp with
  | 1 => nextOf (execConnInit ag c s) s
  | 2 => nextOf (execConnClose ag c s) s
  | _ => s

/-! ### AUQ_MBX (R449) -/

/-- A write of AUQ_MBX_p: LOG2, 4 to 10, and BASE only while ENABLE = 0; ENABLE 0 to 1 sets the four indices to 0. -/
def mbxWrite (s : State) (p : Nat) (v : Word) : State :=
  let r := rAuqMbx p
  if getB s r fAuqMbxEnable then setF s r fAuqMbxEnable (fget v fAuqMbxEnable)
  else
    let n := fget v fAuqMbxLog2
    let s := if 4 ≤ n ∧ n ≤ 10 then setF s r fAuqMbxLog2 n else s
    let s := setF (setF s r fAuqMbxBase (fget v fAuqMbxBase)) r fAuqMbxEnable (fget v fAuqMbxEnable)
    if fget v fAuqMbxEnable = 0 then s else hubPut s (fget v fAuqMbxBase * 4096) (List.replicate 16 0)

/-- AUQ_MBX_ENABLE (R449). -/
def execAuqMbxEnable (ag : Agent) (p : Fin 16) (val : BitVec 64) (s : State) : Host.Outcome State Fault Refusal :=
  .next (guarded s ag (rAuqMbx p).key (fun s => mbxWrite s p val))

/-- An admitted write of a register that the manual describes. -/
def writeReg (s : State) (ag : Agent) (k : RegKey) (d : RegDesc) (acc : RegAccess) (val : Word) : State :=
  let v := writeValue s k acc val
  if acc ≠ .w64 ∧ accMask d (fun a => decide (a = .wo)) ≠ 0 then bump s rMmioWidthErr fMmioWidthErrCount 1
  else
    match k.blk with
    | .engP => writeEngP s ag k d acc val
    | .engC => writeEngC s ag k d acc val
    | .rh => writeRh s ag k d acc val
    | .job => writeJob s ag k d acc val
    | .stk => if k = (rStkRepair k.i).key then writeStkRepair s ag (Fin.ofNat 8 k.i) v else writePlain s k d acc val
    | .flash => if k = rFlReqCtl.key then writeFlReq s ag v else writePlain s k d acc val
    | .dir =>
      if k = rDirBiasReq.key then
        if fget v fDirBiasReqGo = 1 then
          nextOf (execDirBiasReq ag (BitVec.ofNat 16 (fget v fDirBiasReqAstag)) (decide (fget v fDirBiasReqAll = 1)) (decide (fget v fDirBiasReqTo = 1)) s) s
        else s
      else writePlain s k d acc val
    | .fab => if k = rConnCtl.key then writeConnCtl s ag v else writePlain s k d acc val
    | .hub =>
      if k = rDieReset.key then
        if fget v fDieResetGo = 1 then nextOf (execDieReset ag (BitVec.ofNat 4 (fget v fDieResetDie)) (decide (fget v fDieResetForce = 1)) s) s else s
      else writePlain s k d acc val
    | .hubWin =>
      if k.off < 0x10 then nextOf (execCoreHold ag (Fin.ofNat 16 k.i) (Fin.ofNat 2 (k.off / 8)) v s) s
      else if k = (rAuqMbx k.i).key then mbxWrite s k.i v
      else writePlain s k d acc val
    | _ => writePlain s k d acc val

/-! ### Accesses by offset -/

/-- A write of an interrupt file's page (R446): seteipnum_le and seteipnum_be, 32 bits wide; nothing else is writable. -/
def imsicWrite (s : State) (c f off : Nat) (acc : RegAccess) (val : Word) : State :=
  if off / 8 ≠ 0 ∨ 8 < f then s
  else match acc with
    | .lo32 => imsicSet s c f (val.toNat % 2 ^ 32)
    | .hi32 => imsicSet s c f (beNat (natLE 4 (val.toNat % 2 ^ 32)))
    | _ => s

/-- A write in the MMIO window that is not the guest site's: what changes, or the refusal of R187. -/
def mmioWrite (s : State) (ag : Agent) (off : Nat) (acc : RegAccess) (val : Word) : State × Bool :=
  match mmioTarget off with
  | .outside => (s, false)
  | .guest _ => (s, false)
  | .imsic c f o => if acc = .bad then (s, false) else (imsicWrite s c f o acc val, true)
  | .reg k =>
    if acc = .bad then (s, false)
    else if ¬regRight s ag k then (violation s, true)
    else match regDesc k with
      | none => (s, true)
      | some d => (writeReg s ag k d acc val, true)

/-- A read in the MMIO window that is not the guest site's: the value, or none where R187 refuses it. -/
def mmioRead (s : State) (ag : Agent) (off : Nat) (acc : RegAccess) (peek : Bool) : State × Option Word :=
  match mmioTarget off with
  | .outside => (s, none)
  | .guest _ => (s, none)
  | .imsic _ _ _ => if acc = .bad then (s, none) else (s, some 0)
  | .reg k =>
    if acc = .bad then (s, none)
    else if ¬regRight s ag k then (violation s, some 0)
    else if peek then (s, some (peekReg s k acc))
    else
      let (s, v) := readReg s ag k acc
      (s, some v)

/-! ### The guest site's block (R355) -/

/-- The guest's window that an offset of the block lies in: the guest's own address there. -/
def guestAddr (s : State) (off : Nat) : Option Nat :=
  ((link s 18).winBase.foldl (fun (a : Nat × Option Nat) w =>
    (a.1 + w.2, if a.1 ≤ off ∧ off < a.1 + w.2 then some (w.1 + (off - a.1)) else a.2)) (0, none)).2

/-- An access of a server core to the guest's windows: a MEM request on LINK_18, whose answer is the access's. Other
requesters, and offsets in no agreed window, are refused. -/
def guestAccess (s : State) (ag : Agent) (off : Nat) (data : Option Bytes) (len : Nat) : State :=
  let core : Bool := match ag with
    | .core .. => true
    | _ => false
  match core && chanOpen s 18 0, guestAddr s off with
  | true, some a =>
    let id := s.hub.nextId
    let tag := id % 65536
    let o := a % 64
    let x := link s 18
    let s := setLink { s with hub := { s.hub with nextId := id + 1 } } 18 { x with outReq := x.outReq ++ [(tag, 0)], slice := mapSet x.slice tag (o, len) }
    plaSend s 18 { chan := 0, rsp := false, op := if data.isSome then 2 else 0, poison := 0, tag := BitVec.ofNat 16 tag, agent := Config.hubAgent,
                   status := 0, nc := true, aop := 0, size64 := false, signed := false, addr := BitVec.ofNat 50 (a - o), lines := 0,
                   data := (data.map (fun b => List.replicate o 0 ++ b ++ List.replicate (64 - o - b.length) 0)).getD [],
                   mask := if data.isSome then BitVec.ofNat 64 ((2 ^ len - 1) * 2 ^ o) else 0 }
  | _, _ => putAccess s (denied ag)

/-! ### MEMORY_ACCESS and REGISTER_WRITE -/

/-- How an access of `len` bytes at an offset reaches a register (R447). -/
def accessOf (off len : Nat) : RegAccess :=
  if len = 8 ∧ off % 8 = 0 then .w64 else if len = 4 ∧ off % 8 = 0 then .lo32 else if len = 4 ∧ off % 8 = 4 then .hi32 else .bad

/-- An access in the MMIO window: reads, writes and peeks reach registers; atomic and coherent accesses are refused. -/
def accessMmio (s : State) (r : MemReq) : State :=
  let off := r.mpa.toNat - mmioBase
  let n := reqBytes r
  let acc := accessOf off n
  let ok (b : Bool) : AccessOut := if b then .done else denied r.agent
  match staleUnit s r with
  | some u => putAccess (countStale s u) (denied r.agent)
  | none =>
    match mmioTarget off, r.kind with
    | .guest o, .read | .guest o, .fetch => if acc = .bad then putAccess s (denied r.agent) else guestAccess s r.agent o none n
    | .guest o, .write => if acc = .bad then putAccess s (denied r.agent) else guestAccess s r.agent o (some r.data) n
    | _, .write =>
      let (s, b) := mmioWrite s r.agent (off / 8 * 8) acc (BitVec.ofNat 64 (leNat r.data))
      putAccess s (ok b)
    | _, .read | _, .fetch | _, .peek =>
      let (s, v) := mmioRead s r.agent (off / 8 * 8) acc (decide (r.kind = .peek))
      putAccess s (match v with
        | some v => .data (natLE n v.toNat) false
        | none => denied r.agent)
    | _, _ => putAccess s (denied r.agent)

/-- An access at an MPA, of memory or of the MMIO window. -/
def accessAt (s : State) (r : MemReq) : State := if mmioBase ≤ r.mpa.toNat then accessMmio s r else accessMem s r

/-- An access by its translated pieces, each an access of its own; a core caches SHARED ranges only, and no engine SRAM (R119). -/
def accessPieces (s : State) (r : MemReq) : List Piece → Nat → State
  | [], _ => s
  | p :: ps, o =>
    let q : MemReq := { r with
      mpa := BitVec.ofNat 50 p.mpa, len := if r.kind = .write ∨ r.kind = .sc then 0 else p.n, data := (r.data.drop o).take p.n
      strobe := r.strobe.map (fun m => BitVec.ushiftRight m o), shared := p.shared, cached := r.cached && p.shared && !pieceSram s p
      astag := BitVec.ofNat 16 p.astag, hint := BitVec.ofNat 2 p.hint, va := none }
    accessPieces (accessAt s q) r ps (o + p.n)

/-- MEMORY_ACCESS (R186, R206): an access at an MPA, of memory or of the MMIO window. A running task's access at a virtual address is
translated first, under the ASTAG of its context slot; where that faults, the access is not made (R118, R131). -/
def execMemoryAccess (r : MemReq) (s : State) : Host.Outcome State Fault Refusal :=
  .next (match r.va, r.agent with
    | some va, .spindle e k .u =>
      match hartOf s ⟨e, k⟩ with
      | some h =>
        if h.slot.isNone then accessAt s r
        else
          let w := reqWrites r
          let rd := decide (r.kind ≠ .fetch) && (!w || (match r.kind with | .atomic .. => true | _ => false))
          let q := { hartReq s ⟨e, k⟩ h w rd (decide (r.kind = .fetch)) with noWait := true }
          match hartReach s ⟨e, k⟩ h q va.toNat (reqBytes r) with
          | (s, some ps) => accessPieces s r ps 0
          | (s, none) => s
      | none => s
    | _, _ => accessAt s r)

/-- REGISTER_WRITE (R14, R447): a write at an offset of the MMIO window; one that R187 refuses is answered so. -/
def execRegisterWrite (ag : Agent) (off : BitVec 40) (acc : RegAccess) (val : BitVec 64) (s : State) : Host.Outcome State Fault Refusal :=
  .next (
    if off.toNat % 8 ≠ 0 then putAccess s (denied ag)
    else match mmioTarget off.toNat with
      | .guest o =>
        match acc with
        | .w64 => guestAccess s ag o (some (natLE 8 val.toNat)) 8
        | .lo32 => guestAccess s ag o (some (natLE 4 val.toNat)) 4
        | .hi32 => guestAccess s ag (o + 4) (some (natLE 4 val.toNat)) 4
        | .bad => putAccess s (denied ag)
      | _ =>
        let (s, b) := mmioWrite s ag off.toNat acc val
        if b then s else putAccess s (denied ag))

end Sys2Proof.Machine
end

