-- ==== Sys2Proof/Machine/Debug.lean ====
section
/-! DEFINITION. Debug (R450 to R453) and test access (R455): the debug modules behind the DBG channel and the DMI objects,
halting and resuming harts, the system bus, peeks, and TAP_SEQ. Register layouts are those of the RISC-V Debug Specification
1.0, which R450 names. -/

namespace Sys2Proof.Machine

open Sys2Proof

/-! ### Harts of a debug module (R450) -/

/-- What a hart number of a debug module stands for. -/
inductive DbgHart
  | core (c : Fin 128)
  | spindle (c : CoreId)
deriving DecidableEq, Repr

/-- The repair-map entry of the spare that serves server core c, if one does: its hart number (R396). -/
def spareHart (s : State) (c : Nat) : Option Nat :=
  (s.rel.repairMap.reverse.find? (fun e => decide (u8At e 0 = 10) && decide (u8At e 1 = 8 + c / 64) && decide (u16At e 2 = c))).map (fun e => u32At e 12)

/-- Hart h of debug module dm: server cores 0 to 63 and the spares in service of DM_0 and DM_1, the Spindle cores of a compute
die behind DM_2 to DM_9. -/
def dmHartAny (s : State) (dm h : Nat) : Option DbgHart :=
  if dm < 2 then
    if s.d2d.removed.elem (8 + dm) then none
    else if h < 64 then
      if s.rel.removedCores.elem (64 * dm + h) ∨ (spareHart s (64 * dm + h)).isSome then none else some (.core (Fin.ofNat 128 (64 * dm + h)))
    else
      ((List.range 64).find? (fun i => decide (spareHart s (64 * dm + i) = some h) && !s.rel.removedCores.elem (64 * dm + i))).map
        (fun i => .core (Fin.ofNat 128 (64 * dm + i)))
  else if dm < 10 ∧ h < 16 then
    let e := 4 * (dm - 2) + h / 4
    if s.d2d.removed.elem (dm - 2) ∨ (engAux s e).deadCores.elem (h % 4) then none else some (.spindle ⟨Fin.ofNat 32 e, Fin.ofNat 4 (h % 4)⟩)
  else none

/-- The harts a debugger sees: all at level 2, those of DEBUG_PARTITION at level 1 (R451). -/
def dmHart (s : State) (dm h : Nat) : Option DbgHart :=
  match dmHartAny s dm h with
  | none => none
  | some x =>
    let owner := match x with
      | .core c => coreOwner s c
      | .spindle c => engOwner s c.e
    if debugLevel s = 2 ∨ (debugLevel s = 1 ∧ owner = some (debugPart s)) then some x else none

/-- Harts of a module by number. -/
def dmSize (dm : Nat) : Nat := if dm < 2 then 66 else 16

/-- The task on a halted Spindle core. -/
def haltedTask (s : State) (c : CoreId) : Option Nat :=
  (List.range 16).find? (fun i => decide (taskState s c.e i = tRunning) && (task s c.e i).haltedAt.isSome &&
    decide (getF s (rSchedSlot c.e i) fSchedSlotCore = c.k.val))

/-- A hart that runs no instruction: held in reset. -/
def hartAway (s : State) (x : DbgHart) : Bool :=
  match x with
  | .core c => (mapFind s.pow.corePc c.val).isNone
  | .spindle c => decide (coreState s c.e c.k = cReset) || !engActive s c.e

def hartHalted (s : State) (dm h : Nat) : Bool := s.mgmt.halted.elem (dm, h)

/-- The presence bit of a hart (R264). -/
def hartBit (x : DbgHart) : Nat :=
  match x with
  | .core c => c.val
  | .spindle c => 128 + 4 * c.e.val + c.k.val

/-! ### Halting and resuming (R453) -/

/-- What a halt takes from a hart: its reservation, and the lines it holds for forward progress. -/
def haltEffects (s : State) (bit : Nat) : State :=
  let s := { s with hub := { s.hub with resv := mapDel s.hub.resv bit } }
  (s.hub.dir.filter (fun d => d.owned && decide (d.pv = [bit]) && d.hold.isSome)).foldl (fun s d => endHold s d) s

/-- One hart halts: a Spindle core keeps its task RUNNING, and the task's time stops. -/
def haltOne (s : State) (dm h : Nat) : State :=
  match dmHart s dm h with
  | none => s
  | some x =>
    if hartHalted s dm h ∨ hartAway s x then s
    else
      let s := haltEffects { s with mgmt := { s.mgmt with halted := s.mgmt.halted ++ [(dm, h)] } } (hartBit x)
      match x with
      | .core _ => s
      | .spindle c =>
        let s := if coreState s c.e c.k = cRunning then
            let i := coreSlot s c.e c.k
            setTask s c.e i { task s c.e i with haltedAt := some s.time }
          else s
        setF s (rSpnState c.e c.k) fSpnStateState cHalted

/-- The harts that halt with one: those of its halt group (R450). -/
def haltGroupOf (s : State) (dm h : Nat) : List Nat :=
  let g := mapGet s.mgmt.haltGroup (dm, h) 0
  if g = 0 then [h] else h :: (List.range (dmSize dm)).filter (fun k => decide (k ≠ h) && decide (mapGet s.mgmt.haltGroup (dm, k) 0 = g))

def haltHart (s : State) (dm h : Nat) : State := (haltGroupOf s dm h).foldl (fun s k => haltOne s dm k) s

/-- The number of dpc among the CSRs. -/
def csrDpc : Nat := 0x7b1

/-- A hart resumes at its dpc; a Spindle core goes on with its task, whose time runs again. -/
def resumeHart (s : State) (dm h : Nat) : State :=
  match dmHart s dm h with
  | none => s
  | some x =>
    if ¬hartHalted s dm h then s
    else
      let pc := mapFind s.mgmt.hartRegs (dm, h, csrDpc)
      let s := { s with mgmt := { s.mgmt with
        halted := s.mgmt.halted.filter (fun y => decide (y ≠ (dm, h)))
        resumed := s.mgmt.resumed.filter (fun y => decide (y ≠ (dm, h))) ++ [(dm, h)]
        hartRegs := s.mgmt.hartRegs.filter (fun y => !(decide (y.1.1 = dm) && decide (y.1.2.1 = h))) } }
      match x with
      | .core c => match pc with
        | some v => { s with pow := { s.pow with corePc := mapSet s.pow.corePc c.val v } }
        | none => s
      | .spindle c =>
        match haltedTask s c with
        | some i =>
          let t := task s c.e i
          let s := setTask s c.e i { t with ranAt := t.ranAt + (s.time - t.haltedAt.getD s.time), haltedAt := none }
          setF (setF s (rSpnState c.e c.k) fSpnStateState cRunning) (rSpnState c.e c.k) fSpnStateSlot i
        | none => setF s (rSpnState c.e c.k) fSpnStateState cIdle

/-- A hart reset by the debugger: a server core departs (R428) and starts again at its CORE_BOOT; Spindle harts have none. -/
def resetHart (s : State) (dm h : Nat) : State :=
  match dmHart s dm h with
  | some (.core c) =>
    if hartAway s (.core c) then s
    else
      let p := (coreOwner s c).getD 0
      let s := bumpGen (dropAgent s c .back) (.core c)
      { s with
        pow := { s.pow with corePc := mapSet s.pow.corePc c.val (BitVec.ofNat 64 (4 * getF s (rCoreBoot p) fCoreBootAddr)) }
        mgmt := { s.mgmt with
          halted := s.mgmt.halted.filter (fun y => decide (y ≠ (dm, h))), reset_ := s.mgmt.reset_ ++ [(dm, h)]
          hartRegs := s.mgmt.hartRegs.filter (fun y => !(decide (y.1.1 = dm) && decide (y.1.2.1 = h))) } }
  | _ => s

/-! ### Registers of a halted hart (R450) -/

/-- The hart record that a halted Spindle core stands in. -/
def spindleHart (s : State) (c : CoreId) : HartCtx :=
  match haltedTask s c with
  | some i => { hart := (task s c.e i).hart, n := taskOwner s c.e i, slot := some i }
  | none => { hart := mapGet s.eng.harts c {}, n := getF s (rSpnCtx c.e c.k) fSpnCtxCtx, slot := none }

/-- The registers that a Spindle hart's record holds: debug number to value. -/
def hartField (h : Hart) (r : Nat) : Option Word :=
  if 0x1000 ≤ r ∧ r < 0x1020 then some (BitVec.ofNat 64 (h.readX (r - 0x1000)))
  else if 0x1020 ≤ r ∧ r < 0x1040 then some (mapGet h.f (r - 0x1020) 0)
  else match r with
    | 0x003 => some h.fcsr
    | 0x008 => some h.vstart
    | 0x00F => some h.vcsr
    | 0x304 => some h.mie
    | 0x340 => some h.mscratch
    | 0x344 => some h.mip
    | 0xC20 => some h.vl
    | 0xC21 => some h.vtype
    | 0x300 => some h.mstatus
    | 0x305 => some h.mtvec
    | 0x341 => some h.mepc
    | 0x342 => some h.mcause
    | 0x343 => some h.mtval
    | 0x7b1 => some h.pc
    | _ => none

def hartPut (h : Hart) (r : Nat) (v : Word) : Option Hart :=
  if 0x1000 ≤ r ∧ r < 0x1020 then some (h.writeX (r - 0x1000) v.toNat)
  else if 0x1020 ≤ r ∧ r < 0x1040 then some { h with f := mapSet h.f (r - 0x1020) v }
  else match r with
    | 0x003 => some { h with fcsr := v }
    | 0x008 => some { h with vstart := v }
    | 0x00F => some { h with vcsr := v }
    | 0x304 => some { h with mie := v }
    | 0x340 => some { h with mscratch := v }
    | 0x344 => some { h with mip := v }
    | 0x300 => some { h with mstatus := v }
    | 0x305 => some { h with mtvec := v }
    | 0x341 => some { h with mepc := v }
    | 0x342 => some { h with mcause := v }
    | 0x343 => some { h with mtval := v }
    | 0x7b1 => some { h with pc := v }
    | _ => none

/-- A register number of the abstract command Access Register: CSRs, GPRs and FPRs. -/
def regNumOk (r : Nat) : Bool := decide (r < 0x1040)

/-- A register of a halted hart. One that no record of the state holds has a free value, the same until the hart resumes. -/
def hartRead (s : State) (dm h : Nat) (x : DbgHart) (r : Nat) : State × Word :=
  let held := mapFind s.mgmt.hartRegs (dm, h, r)
  let fresh (s : State) : State × Word :=
    match held with
    | some v => (s, v)
    | none =>
      let (v, s) := drawFree s
      ({ s with mgmt := { s.mgmt with hartRegs := mapSet s.mgmt.hartRegs (dm, h, r) v } }, v)
  match x with
  | .core c =>
    if r = 0x1000 then (s, 0)
    else if r = csrDpc then (s, held.getD (mapGet s.pow.corePc c.val 0))
    else fresh s
  | .spindle c => match hartField (spindleHart s c).hart r with
    | some v => (s, v)
    | none => fresh s

def hartWrite (s : State) (dm h : Nat) (x : DbgHart) (r : Nat) (v : Word) : State :=
  let keep (s : State) : State := { s with mgmt := { s.mgmt with hartRegs := mapSet s.mgmt.hartRegs (dm, h, r) v } }
  match x with
  | .core _ => if r = 0x1000 then s else keep s
  | .spindle c =>
    let y := spindleHart s c
    match hartPut y.hart r v with
    | some z => putHart s c y z
    | none => keep s

/-- Instructions of the program buffer may change any register of the hart: each has a free value afterwards. -/
def runProgbuf (s : State) (dm h : Nat) (x : DbgHart) : State :=
  let s := { s with mgmt := { s.mgmt with hartRegs := s.mgmt.hartRegs.filter (fun y => !(decide (y.1.1 = dm) && decide (y.1.2.1 = h)) || decide (y.1.2.2 = csrDpc)) } }
  match x with
  | .core _ => s
  | .spindle c =>
    let y := spindleHart s c
    let k := s.freeCtr
    let z := { y.hart with
      x := (List.range 31).map (fun i => (i + 1, Config.freeWord (k + i))), f := (List.range 32).map (fun i => (i, Config.freeWord (k + 31 + i))) }
    putHart { s with freeCtr := k + 63 } c y z

/-! ### Registers of the debug modules -/

def aData0 : Nat := 0x04
def aControl : Nat := 0x10
def aStatus : Nat := 0x11
def aAbstractcs : Nat := 0x16
def aCommand : Nat := 0x17
def aProgbuf0 : Nat := 0x20
def aDmcs2 : Nat := 0x32
def aSbcs : Nat := 0x38
def aSbaddress0 : Nat := 0x39
def aSbdata0 : Nat := 0x3c
def aHaltsum0 : Nat := 0x40

/-- What a module's register holds. -/
def dmReg (s : State) (dm a : Nat) : Nat := (mapGet s.mgmt.dmi (dm, a) 0).toNat
def setDmReg (s : State) (dm a v : Nat) : State := { s with mgmt := { s.mgmt with dmi := mapSet s.mgmt.dmi (dm, a) (BitVec.ofNat 32 v) } }

/-- hartsel of dmcontrol. -/
def hartSel (s : State) (dm : Nat) : Nat := natField (dmReg s dm aControl) 25 16 + 1024 * natField (dmReg s dm aControl) 15 6

/-- cmderr of abstractcs. -/
def cmdErr (s : State) (dm : Nat) : Nat := natField (dmReg s dm aAbstractcs) 10 8
def setCmdErr (s : State) (dm e : Nat) : State := setDmReg s dm aAbstractcs (256 * e)

/-- dmstatus of the selected hart: version 3, authenticated, implicit ebreak. -/
def dmStatus (s : State) (dm : Nat) : Nat :=
  let h := hartSel s dm
  let two (b : Bool) (i : Nat) : Nat := if b then 3 * 2 ^ i else 0
  3 + 2 ^ 7 + 2 ^ 22 +
    (match dmHart s dm h with
      | none => two true 14
      | some x =>
        let away := hartAway s x
        let halted := hartHalted s dm h
        two (halted && !away) 8 + two (!halted && !away) 10 + two away 12) +
    two (s.mgmt.resumed.elem (dm, h)) 16 + two (s.mgmt.reset_.elem (dm, h)) 18

/-- A read of a register without side effect. -/
def dmView (s : State) (dm a : Nat) : Nat :=
  if a = aStatus then dmStatus s dm
  else if a = aAbstractcs then 8 * 2 ^ 24 + 256 * cmdErr s dm + 2
  else if a = aHaltsum0 then (flagBits ((List.range 32).map (fun i => hartHalted s dm (hartSel s dm / 32 * 32 + i))))
  else if a = aDmcs2 then 4 * mapGet s.mgmt.haltGroup (dm, hartSel s dm) 0
  else if a = aSbcs then
    let v := dmReg s dm aSbcs
    2 ^ 29 + natField v 20 12 * 2 ^ 12 + 50 * 2 ^ 5 + 2 ^ 3 + 2 ^ 2
  else if a = aControl ∨ a = aData0 ∨ a = aData0 + 1 ∨ (aProgbuf0 ≤ a ∧ a < aProgbuf0 + 8) ∨ a = aSbaddress0 ∨ a = aSbaddress0 + 1 ∨ a = aSbdata0 ∨ a = aSbdata0 + 1 then dmReg s dm a
  else 0

/-! ### System bus access (R450 to R452) -/

/-- A debugger's request at an MPA. -/
def sbReq (dm a len : Nat) (kind : MemKind) (data : Bytes) : MemReq :=
  { agent := .debugger (Fin.ofNat 10 dm), kind := kind, mpa := BitVec.ofNat 50 a, len := len, data := data, strobe := none, operand := 0, compare := 0
    shared := true, cached := false, astag := 0, hint := 0, direct := false, gen := 0, ecc := .ok }

/-- A read of `len` bytes: the bytes and whether they are poisoned, or none where it is refused or must wait. -/
def busRead (s : State) (dm a len : Nat) (peek : Bool) : State × Option (Bytes × Bool) :=
  if mmioBase ≤ a then
    let (t, v) := mmioRead s (.debugger (Fin.ofNat 10 dm)) ((a - mmioBase) / 8 * 8) (accessOf (a - mmioBase) len) peek
    (t, v.map (fun w => (natLE len w.toNat, false)))
  else
    match serve s (sbReq dm a len (if peek then .peek else .read) []) with
    | (t, .data b p) => (t, some (b, p))
    | (_, .stalled _) => (s, none)
    | (t, _) => (t, none)

/-- A write: whether it was done. -/
def busWrite (s : State) (dm a : Nat) (b : Bytes) : State × Bool :=
  if mmioBase ≤ a then
    mmioWrite s (.debugger (Fin.ofNat 10 dm)) ((a - mmioBase) / 8 * 8) (accessOf (a - mmioBase) b.length) (BitVec.ofNat 64 (leNat b))
  else
    match serve s (sbReq dm a b.length .write b) with
    | (t, .done) => (t, true)
    | (_, .stalled _) => (s, false)
    | (t, _) => (t, false)

/-- sbcs with an error. -/
def sbError (s : State) (dm e : Nat) : State :=
  let v := dmReg s dm aSbcs
  setDmReg s dm aSbcs (v - natField v 14 12 * 4096 + e * 4096)

/-- The address in sbaddress, and the access size of sbcs in bytes. -/
def sbAddress (s : State) (dm : Nat) : Nat := dmReg s dm aSbaddress0 + 2 ^ 32 * dmReg s dm (aSbaddress0 + 1)
def sbSize (s : State) (dm : Nat) : Nat := 2 ^ natField (dmReg s dm aSbcs) 19 17
def sbBit (s : State) (dm i : Nat) : Bool := bitOf (dmReg s dm aSbcs) i

/-- The address moved past an access where sbautoincrement is set. -/
def sbAdvance (s : State) (dm : Nat) : State :=
  if sbBit s dm 16 then
    let a := sbAddress s dm + sbSize s dm
    setDmReg (setDmReg s dm aSbaddress0 (a % 2 ^ 32)) dm (aSbaddress0 + 1) (a / 2 ^ 32)
  else s

/-- Why the next system bus access cannot start: an unsupported size or a misaligned address. -/
def sbBad (s : State) (dm : Nat) : Option Nat :=
  if sbSize s dm ≠ 4 ∧ sbSize s dm ≠ 8 then some 4 else if sbAddress s dm % sbSize s dm ≠ 0 then some 3 else none

/-- A system bus read into sbdata. -/
def sbRead (s : State) (dm : Nat) : State :=
  if natField (dmReg s dm aSbcs) 14 12 ≠ 0 then s
  else match sbBad s dm with
    | some e => sbError s dm e
    | none =>
      match busRead s dm (sbAddress s dm) (sbSize s dm) false with
      | (t, some (b, _)) => sbAdvance (setDmReg (setDmReg t dm aSbdata0 (u32At b 0)) dm (aSbdata0 + 1) (u32At b 4)) dm
      | (t, none) => sbError t dm 2

/-- A system bus write of sbdata. -/
def sbWrite (s : State) (dm : Nat) : State :=
  if natField (dmReg s dm aSbcs) 14 12 ≠ 0 then s
  else match sbBad s dm with
    | some e => sbError s dm e
    | none =>
      let b := (natLE 4 (dmReg s dm aSbdata0) ++ natLE 4 (dmReg s dm (aSbdata0 + 1))).take (sbSize s dm)
      match busWrite s dm (sbAddress s dm) b with
      | (t, true) => sbAdvance t dm
      | (t, false) => sbError t dm 2

/-! ### Abstract commands (R450) -/

/-- The arguments in data0 and data1. -/
def argWord (s : State) (dm : Nat) : Nat := dmReg s dm aData0 + 2 ^ 32 * dmReg s dm (aData0 + 1)
def setArg (s : State) (dm : Nat) (v : Word) (wide : Bool) : State :=
  let s := setDmReg s dm aData0 (v.toNat % 2 ^ 32)
  if wide then setDmReg s dm (aData0 + 1) (v.toNat / 2 ^ 32) else s

/-- Access Register: of a halted hart, 32 or 64 bits, GPRs, FPRs and CSRs; then the program buffer where postexec is set. -/
def abstractCommand (s : State) (dm v : Nat) : State :=
  let h := hartSel s dm
  let r := v % 65536
  let wide := decide (natField v 22 20 = 3)
  let transfer := bitOf v 17
  if cmdErr s dm ≠ 0 then s
  else if natField v 31 24 ≠ 0 ∨ bitOf v 19 ∨ (transfer ∧ (¬(wide ∨ natField v 22 20 = 2) ∨ ¬regNumOk r)) then setCmdErr s dm 2
  else match dmHart s dm h with
    | none => setCmdErr s dm 4
    | some x =>
      if ¬hartHalted s dm h ∨ hartAway s x then setCmdErr s dm 4
      else
        let s := if ¬transfer then s
          else if bitOf v 16 then
            let (s, old) := hartRead s dm h x r
            hartWrite s dm h x r (if wide then BitVec.ofNat 64 (argWord s dm) else BitVec.ofNat 64 (old.toNat / 2 ^ 32 * 2 ^ 32 + dmReg s dm aData0))
          else
            let (s, w) := hartRead s dm h x r
            setArg s dm w wide
        if bitOf v 18 then runProgbuf s dm h x else s

/-! ### DMI accesses -/

/-- A write of dmcontrol. With dmactive = 0 the module's own registers return to reset. -/
def writeControl (s : State) (dm v : Nat) : State :=
  if ¬bitOf v 0 then { s with mgmt := { s.mgmt with dmi := s.mgmt.dmi.filter (fun x => decide (x.1.1 ≠ dm)) } }
  else
    let was := bitOf (dmReg s dm aControl) 29
    let keep := natField v 29 29 * 2 ^ 29 + natField v 25 6 * 2 ^ 6 + 1
    let s := setDmReg s dm aControl keep
    let h := hartSel s dm
    let s := if bitOf v 28 then { s with mgmt := { s.mgmt with reset_ := s.mgmt.reset_.filter (fun y => decide (y ≠ (dm, h))) } } else s
    let s := if bitOf v 29 ∧ ¬was then resetHart s dm h else s
    if bitOf v 31 then haltHart s dm h
    else if bitOf v 30 then resumeHart { s with mgmt := { s.mgmt with resumed := s.mgmt.resumed.filter (fun y => decide (y ≠ (dm, h))) } } dm h
    else s

/-- A write of a module's register. -/
def dmWrite (s : State) (dm a v : Nat) : State :=
  if a = aControl then writeControl s dm v
  else if ¬bitOf (dmReg s dm aControl) 0 then s
  else if a = aAbstractcs then setCmdErr s dm (Nat.land (cmdErr s dm) (7 - natField v 10 8))
  else if a = aCommand then abstractCommand s dm v
  else if a = aDmcs2 then
    if bitOf v 1 ∧ ¬bitOf v 11 ∧ natField v 6 2 ≤ 4 then
      { s with mgmt := { s.mgmt with haltGroup := mapSet s.mgmt.haltGroup (dm, hartSel s dm) (natField v 6 2) } }
    else s
  else if a = aSbcs then
    let old := dmReg s dm aSbcs
    setDmReg s dm aSbcs (natField v 20 15 * 2 ^ 15 + Nat.land (natField old 14 12) (7 - natField v 14 12) * 2 ^ 12)
  else if a = aSbaddress0 then
    let s := setDmReg s dm a v
    if sbBit s dm 20 then sbRead s dm else s
  else if a = aSbdata0 then sbWrite (setDmReg s dm a v) dm
  else if a = aData0 ∨ a = aData0 + 1 ∨ (aProgbuf0 ≤ a ∧ a < aProgbuf0 + 8) ∨ a = aSbaddress0 + 1 ∨ a = aSbdata0 + 1 then setDmReg s dm a v
  else s

/-- A read of a module's register; a read of sbdata0 may start the next system bus read. -/
def dmRead (s : State) (dm a : Nat) : State × Nat :=
  let v := dmView s dm a
  (if a = aSbdata0 ∧ sbBit s dm 15 then sbRead s dm else s, v)

/-- The connection that carries the DMI of a debug module's die: its own, or the neighbour's it is routed over. -/
def dmOpen (s : State) (dm : Nat) : Bool :=
  if dm < 2 then chanOpen s (16 + dm) 3
  else
    let d := dm - 2
    match routeOf s d with
    | 0 => chanOpen s d 3
    | 1 => chanOpen s (8 + d) 3
    | 2 => chanOpen s (8 + (d + 7) % 8) 3
    | _ => false

/-- A DMI access: data and response code 0 done, 2 failed. At debug level 0 every request is refused (R451). -/
def dmiAccess (s : State) (dm a op data : Nat) : State × Nat × Nat :=
  if debugLevel s = 0 ∨ 10 ≤ dm then (s, 0, 2)
  else if op = 1 then
    let (s, v) := dmRead s dm a
    (s, v, 0)
  else if op = 2 then (dmWrite s dm a data, 0, 0)
  else (s, 0, if op = 0 then 0 else 2)

/-- The debug module behind a connection. -/
def linkDm (s : State) (l : Nat) : Option Nat :=
  if l < 8 then some (2 + l)
  else if l < 16 then some (if routeOf s (l - 8) = 1 then 2 + (l - 8) else 2 + (l - 7) % 8)
  else if l < 18 then some (l - 16)
  else none

/-- A DMI message at the die of its connection: the DMI address stands in ADDR, the data in the first four bytes of a line. The
guest's debug module is its own: the hub passes the request on to it. -/
def dmiMessage (s : State) (l : Fin 19) (m : PlaMsg) (op : Nat) : State :=
  match linkDm s l with
  | none =>
    if debugLevel s = 2 then setLink (plaSend s l m) l { link (plaSend s l m) l with outReq := (link s l).outReq ++ [(m.tag.toNat, 3)] }
    else plaReply s l m 8 [] 0
  | some dm =>
    let (s, v, r) := dmiAccess s dm (m.addr.toNat % 128) op (u32At m.data 0)
    plaReply s l m (if r = 0 then 0 else 8) (natLE 4 v ++ List.replicate 60 0) 0

/-- DMI_RD (R450). -/
def execDmiRd (l : Fin 19) (m : PlaMsg) (s : State) : Host.Outcome State Fault Refusal :=
  .next (plaMessage s l m 3 false 0 false (fun s m => dmiMessage s l m 1))

/-- DMI_WR (R450, R453). -/
def execDmiWr (l : Fin 19) (m : PlaMsg) (s : State) : Host.Outcome State Fault Refusal :=
  .next (plaMessage s l m 3 false 1 true (fun s m => dmiMessage s l m 2))

/-- A DMI access through the objects: op 1 read, 2 write; the response stands in DBG_DMI_RSP (R450, R456). -/
def dmiObject (s : State) (v : Nat) : State :=
  let dm := objNat s oDbgDmSel
  let (s, d, r) := if dmOpen s dm then dmiAccess s dm (natField v 38 32) (natField v 41 40) (v % 2 ^ 32) else (s, 0, 2)
  setObjNat s oDbgDmiRsp 8 (d + r * 2 ^ 32)

/-- DBG_DMI_REQ (R450): refused at debug level 0 (R451). -/
def execDbgDmiReq (req : BitVec 64) (s : State) : Host.Outcome State Fault Refusal := .next (dmiObject s req.toNat)

/-! ### Peeks (R452) -/

/-- The 8 bytes at DBG_PEEK_ADDR, without side effect; none where it is refused. -/
def peekWord (s : State) : Option (Bytes × Bool) :=
  if debugLevel s = 0 ∨ objNat s oDbgPeekAddr % 8 ≠ 0 then none else (busRead s 0 (objNat s oDbgPeekAddr) 8 true).2

/-- DBG_PEEK (R452): the bytes in DBG_PEEK_DATA, POISON or REFUSED in DBG_PEEK_STATUS. -/
def dbgPeek (s : State) : State :=
  match peekWord s with
  | some (b, p) => setObjNat (setObj s oDbgPeekData b) oDbgPeekStatus 1 p.toNat
  | none => setObjNat (setObjNat s oDbgPeekData 8 0) oDbgPeekStatus 1 2

/-- DBG_PEEK (R452). -/
def execDbgPeek (s : State) : Host.Outcome State Fault Refusal := .next (dbgPeek s)

/-! ### Test access (R455) -/

/-- Whether the test bridge may drive the chain: chained mode, or mission mode at debug level 2 (R362, R455). -/
def tapAllowed (s : State) : Bool := decide (s.pow.testSel = 1) || (decide (s.pow.testSel = 3) && decide (debugLevel s = 2))

/-- The steps of a TAP_SEQ value: kind and bit count; none where a header or its bits are cut short or a kind is reserved. -/
def tapSteps : Nat → Bytes → Option (List (Nat × Nat))
  | _, [] => some []
  | 0, _ => none
  | k + 1, b =>
    let n := u16At b 2
    let kind := u8At b 0
    let len := 4 + cdiv n 8
    if b.length < len ∨ 4 ≤ kind then none else (tapSteps k (b.drop len)).map (fun l => (kind, n) :: l)

/-- Bits packed into bytes, least significant first, the last byte padded with 0. -/
def packBits (l : List Bool) : Bytes := (List.range (cdiv l.length 8)).map (fun i => BitVec.ofNat 8 (flagBits ((l.drop (8 * i)).take 8)))

/-- The captured bits of the shifts, in order, from what the chain returned; a bit it did not return is 0. -/
def tapCapture : List (Nat × Nat) → List Bool → Bytes
  | [], _ => []
  | (k, n) :: l, tdo =>
    if k = 1 ∨ k = 2 then packBits ((List.range n).map (fun i => tdo.getD i false)) ++ tapCapture l (tdo.drop n) else tapCapture l tdo

/-- A TAP_SEQ write runs its steps (R455): TAP_RESULT takes the captured bits; elsewhere the write is refused. -/
def tapRun (s : State) (tdo : List Bool) : State :=
  match tapAllowed s, tapSteps (objBytes s oTapSeq).length (objBytes s oTapSeq) with
  | true, some l => setObjNat { s with mgmt := { s.mgmt with tapResult := tapCapture l tdo } } oTapState 1 2
  | _, _ => setObjNat s oTapState 1 3

/-- TAP_SEQ (R455): the steps last written run, and the chain returns `tdo`. -/
def execTapSeq (tdo : List Bool) (s : State) : Host.Outcome State Fault Refusal := .next (tapRun s tdo)

end Sys2Proof.Machine
end

