-- ==== Sys2Proof/Machine/Security.lean ====
section
/-! DEFINITION. Staging and the commands of confirmed sets (R365 to R370, R374 to R376, R379 to R385, R398). -/

namespace Sys2Proof.Machine

open Sys2Proof

/-! ### Credentials and sessions (R383, R439) -/

/-- The credential that a session acts with: its number and role. -/
def sesCred (s : State) (ses : Option Nat) : Option (Nat × Role) :=
  match ses with
  | none => none
  | some n =>
    match mapFind s.sec.sessions n with
    | some x => if x.established then x.cred else none
    | none => none

/-- LIFECYCLE reads PROVISIONING (R383). -/
def provisioning (s : State) : Bool := decide (objNat s oLifecycle = 0)

/-- The partition whose entry an object is: its index or subindex names it (R439). -/
def objEntryOf (k : ObjKey) : Option Nat :=
  if 0x4010 ≤ k.1 ∧ k.1 ≤ 0x401F then some (k.1 - 0x4010)
  else if 0x4020 ≤ k.1 ∧ k.1 ≤ 0x402F then some (k.1 - 0x4020)
  else if (k.1 = 0x3003 ∨ k.1 = 0x4030 ∨ k.1 = 0xA001) ∧ 1 ≤ k.2 ∧ k.2 ≤ 16 then some (k.2 - 1)
  else none

/-- The place of a staged write. -/
def Triple.key (t : Triple) : ObjKey := (t.index, t.sub)

/-- LINK_KEY_p_k: the objects whose value is a key. -/
def Triple.isKey (t : Triple) : Bool := decide (0x4020 ≤ t.index) && decide (t.index ≤ 0x402F) && decide (2 ≤ t.sub)

/-- The resources of the table of R365: a set that names one changes ownership. -/
def Triple.isLayout (t : Triple) : Bool :=
  (decide (0x4010 ≤ t.index) && decide (t.index ≤ 0x401F)) || decide (t.index = 0x3003) || decide (t.index = 0x4030)

/-- Objects whose confirmed value is carried out by a command of its own (R375, R381, R382, R385, R398, R408). -/
def Triple.isAction (t : Triple) : Bool :=
  decide (t.key = oSvnCommit) || decide (t.key = oFwImage) || decide (t.key = oDebugUnlock) || decide (t.key = oFwActivate) ||
    decide (t.key = oEvrClear) || (decide (0x4020 ≤ t.index) && decide (t.index ≤ 0x402F))

/-- A triple as STAGE_DIGEST and STAGE_LIST take it: a key is replaced by its SHA-384 (R384). -/
def Triple.bytes (t : Triple) : Bytes := natLE 2 t.index ++ natLE 1 t.sub ++ (if t.isKey then sha384 t.value else t.value)

/-! ### Stage sets (R384) -/

/-- STAGE_STATE_s. -/
def stFree : Nat := 0
def stOpen : Nat := 1
def stSealed : Nat := 2
def stApplying : Nat := 3
def stApplied : Nat := 4
def stRefused : Nat := 5
def stageState (s : State) (k : Nat) : Nat := objNat s (oStageState k)
def setStage (s : State) (k v : Nat) : State := setObjNat s (oStageState k) 1 v

def stageSet (s : State) (k : Nat) : StageSet := mapGet s.sec.sets k {}
def setStageSet (s : State) (k : Nat) (x : StageSet) : State := { s with sec := { s.sec with sets := mapSet s.sec.sets k x } }

/-- A set discarded. -/
def discardSet (s : State) (k v : Nat) : State := setStage { s with sec := { s.sec with sets := mapDel s.sec.sets k } } k v

/-- STAGE_LIST_s: the triples of a set. -/
def stageList (s : State) (k : Nat) : Bytes := (stageSet s k).items.flatMap Triple.bytes

/-- Statuses of R442 that staging answers. -/
def aqOk : Nat := 0x00
def aqNoRight : Nat := 0x07
def aqNeedStage : Nat := 0x08
def aqRefused : Nat := 0x0C

/-- OPEN: a set that is FREE, APPLIED or REFUSED opens for a credential. -/
def stageOpen (s : State) (ses : Option Nat) (k : Nat) : State × Nat :=
  match sesCred s ses with
  | none => (s, aqNoRight)
  | some (c, role) =>
    if stageState s k = stFree ∨ stageState s k = stApplied ∨ stageState s k = stRefused then
      (setStage (setObj (setStageSet s k { cred := c, role := some role }) (oStageDigest k) (List.replicate 48 0)) k stOpen, aqOk)
    else (s, aqRefused)

/-- A sealed set other than k names one of the places (R384). -/
def sealedNames (s : State) (k : Nat) (l : List Triple) : Bool :=
  (List.range 4).any (fun j => decide (j ≠ k) && (decide (stageState s j = stSealed) || decide (stageState s j = stApplying)) &&
    (stageSet s j).items.any (fun t => l.any (fun u => decide (t.key = u.key))))

/-- SEAL: the digest is fixed and the 60 s window starts; a set that names an object of another sealed set is refused. -/
def stageSeal (s : State) (ses : Option Nat) (k : Nat) : State × Nat :=
  match sesCred s ses with
  | none => (s, aqNoRight)
  | some (c, _) =>
    let x := stageSet s k
    if stageState s k ≠ stOpen ∨ x.cred ≠ c ∨ sealedNames s k x.items then (s, aqRefused)
    else
      let d := sha384 (x.items.flatMap Triple.bytes)
      (setStage (setObj (setStageSet s k { x with digest := d, sealedAt := s.time }) (oStageDigest k) d) k stSealed, aqOk)

/-- ABORT: the credential that opened a set discards it. -/
def stageAbort (s : State) (ses : Option Nat) (k : Nat) : State × Nat :=
  match sesCred s ses with
  | none => (s, aqNoRight)
  | some (c, _) =>
    if (stageState s k ≠ stOpen ∧ stageState s k ≠ stSealed) ∨ (stageSet s k).cred ≠ c then (s, aqRefused)
    else (discardSet s k stFree, aqOk)

/-- The open set of a session's credential that takes its writes: the lowest numbered (DESIGN CHOICE, log 41). -/
def openSetOf (s : State) (c : Nat) : Option Nat := (List.range 4).find? (fun k => decide (stageState s k = stOpen) && decide ((stageSet s k).cred = c))

/-- An RWS write into the open set of the same credential, 64 objects at most. -/
def stageWrite (s : State) (ses : Option Nat) (t : Triple) : State × Nat :=
  match sesCred s ses with
  | none => (s, aqNeedStage)
  | some (c, _) =>
    match openSetOf s c with
    | none => (s, aqNeedStage)
    | some k =>
      let x := stageSet s k
      if 64 ≤ x.items.length then (s, aqRefused) else (setStageSet s k { x with items := x.items ++ [t] }, aqOk)

/-! ### The checks at confirmation (R185, R208, R366, R370, R375, R385) -/

/-- Spans of Nat, base and size, that lie apart. -/
def spansApart (l : List (Nat × Nat)) : Bool :=
  (l.zipIdx).all (fun x => (l.zipIdx).all (fun y => decide (x.2 = y.2) || decide (x.1.2 = 0) || decide (y.1.2 = 0) ||
    decide (x.1.1 + x.1.2 ≤ y.1.1) || decide (y.1.1 + y.1.2 ≤ x.1.1)))

/-- Spans within a limit and apart. -/
def spansFit (l : List (Nat × Nat)) (limit : Nat) : Bool := l.all (fun x => decide (x.2 = 0) || decide (x.1 + x.2 ≤ limit)) && spansApart l

/-- The spans that every partition's object gives. -/
def partSpans (f : Nat → Nat × Nat) : List (Nat × Nat) := (List.range 16).map f

/-- The partitions whose mask has a bit. -/
def maskOwners (s : State) (o : Nat → ObjKey) (i : Nat) : List Nat := (List.range 16).filter (fun p => bitOf (objNat s (o p)) i)

/-- Floors of a partition's accounts in force. -/
def activeFloors (s : State) (p : Nat) : Nat :=
  ((List.range 256).map (fun i =>
    if getB s (rPoolAcct i) fPoolAcctValid ∧ getF s (rPoolAcct i) fPoolAcctPartition = p then getF s (rPoolAcct i) fPoolAcctFloor else 0)).sum

/-- No resource of the layout belongs to two partitions, every share lies in a populated region below the pool region, and P_0 owns
a core (R365, R366, R370). -/
def layoutSound (t : State) : Bool :=
  (List.range 32).all (fun e => decide ((maskOwners t oPartEngines e).length ≤ 1)) &&
  (List.range 128).all (fun c => decide ((maskOwners t oPartCores c).length ≤ 1)) &&
  decide (objNat t (oPartCores 0) ≠ 0) &&
  spansFit (partSpans (fun p => (objNat t (oPartBulk p) % 65536, objNat t (oPartBulk p) / 65536))) (bulkBytes / gib) &&
  spansFit (partSpans (fun p => (objNat t (oPartSpread p) % 65536 * 512, objNat t (oPartSpread p) / 65536 * 512))) (poolFirst t) &&
  (List.range 8).all (fun d => spansFit (partSpans (fun p => (u8At (objBytes t (oPartLocal p)) (2 * d), u8At (objBytes t (oPartLocal p)) (2 * d + 1)))) (48 - spreadGib t)) &&
  spansFit (partSpans (fun p => (objNat t (oPartFlash p) % 2 ^ 32, objNat t (oPartFlash p) / 2 ^ 32))) (Config.flashLogicalBytes / pageBytes) &&
  spansFit (partSpans (fun p => (objNat t (oPartConn p) % 65536, objNat t (oPartConn p) / 65536 % 131072))) 65536

/-- The partition whose run holds a connection id. -/
def connOwner (s : State) (id : Nat) : Option Nat :=
  (List.range 16).find? (fun p => decide (objNat s (oPartConn p) % 65536 ≤ id) && decide (id < objNat s (oPartConn p) % 65536 + objNat s (oPartConn p) / 65536 % 131072))

/-- What changes owner is out of use: no VALID context slot, cores held in reset by the losing partition, connections closed. -/
def layoutQuiet (s t : State) : Bool :=
  (List.range 32).all (fun e => decide (maskOwners s oPartEngines e = maskOwners t oPartEngines e) || noContext s e) &&
  (List.range 128).all (fun c => decide (maskOwners s oPartCores c = maskOwners t oPartCores c) ||
    (maskOwners s oPartCores c).all (fun p => bitOf (getR s (rCoreHold p (c / 64))).toNat (c % 64))) &&
  s.fab.conns.all (fun x => !x.2.open_ || decide (connOwner s x.1 = connOwner t x.1))

/-- The pools and Carder shares of a layout (R185, R208). -/
def poolsSound (s t : State) : Bool :=
  decide (poolFrames t ≤ spreadFrames t) && (List.range 16).all (fun p => decide (activeFloors s p ≤ objNat t (oPoolFramesP p))) &&
  decide (((List.range 16).map (fun p => objNat t (oCarderShareP p))).sum ≤ 64)

/-- Debug of the whole module while P_1 to P_15 own an engine or a core (R385). -/
def tenantsOwn (s : State) : Bool := (List.range 15).any (fun i => decide (objNat s (oPartEngines (i + 1)) ≠ 0) || decide (objNat s (oPartCores (i + 1)) ≠ 0))

/-- An image as its 4 KiB header and its body give it (R374). -/
def parseImage (v : Bytes) : Image :=
  let body := v.drop 4096
  { version := u32At v 4, svn := u32At v 8
    sigOk := decide (u32At v 0 = 0x59414E55) && Config.sigVerifies (v.take 64) ((v.drop 64).take 96)
    bodyOk := decide (4096 ≤ v.length) && decide (u32At v 12 = body.length) && decide (body.length ≤ 29356032) && decide ((v.drop 16).take 48 = sha384 body)
    digest := (v.drop 16).take 48 }

/-- The role of a credential's code. -/
def roleOf (n : Nat) : Option Role :=
  match n with
  | 0 => some .operator
  | 1 => some .security
  | 2 => some .service
  | k + 3 => if k < 16 then some (.tenant (Fin.ofNat 16 k)) else none

/-- The role that a CRED_n value carries. An empty value removes the credential (DESIGN CHOICE, log 42). -/
def certRole (v : Bytes) : Option Role := (Config.credRole v).bind roleOf

/-- A check that a single object's chapter states. -/
def itemSound (s t : State) (x : Triple) : Bool :=
  if x.key = oFwImage then (parseImage x.value).sigOk && (parseImage x.value).bodyOk
  else if x.key = oDebugUnlock then !(decide (leNat x.value % 4 = 2) && tenantsOwn t)
  else if x.key = oLifecycle then decide (objNat s oLifecycle ≤ leNat x.value)
  else if x.index = 0x4001 then x.value.isEmpty || (certRole x.value).isSome
  else true

/-- A set passes the checks of confirmation: all of it, against the layout it would leave. -/
def setSound (s : State) (l : List Triple) : Bool :=
  let t := withLayout s (l.filter (fun x => !x.isAction))
  l.all (itemSound s t) && (!l.any Triple.isLayout || (layoutSound t && layoutQuiet s t && poolsSound s t))

/-! ### Applying a set (R370, R384) -/

/-- One object of an applied set: its value stands at once, or its command waits. -/
def applyItem (s : State) (x : Triple) : State :=
  if x.isAction then
    let s := { s with sec := { s.sec with actions := s.sec.actions ++ [x] } }
    if x.key = oFwActivate then setObjNat s oFwActState 1 1 else s
  else
    let s := setObj s x.key x.value
    if x.index = 0x4001 then
      match certRole x.value with
      | some r => { s with sec := { s.sec with creds := mapSet s.sec.creds (x.sub - 1) r } }
      | none => { s with sec := { s.sec with creds := mapDel s.sec.creds (x.sub - 1) } }
    else s

/-- The objects of a set in force; indices 7 and 8 are measured anew (R376). -/
def applyItems (s : State) (l : List Triple) : State := remeasure (remeasure (l.foldl applyItem s) 7) 8

/-- A set that passed its checks: a layout waits for the flush and the scrub, any other set applies now. -/
def startSet (s : State) (k : Nat) (l : List Triple) (digest : Bytes) : State :=
  let s := { s with sec := { s.sec with lastDigest := digest } }
  if l.any Triple.isLayout then
    let f : Flush := { astag := 0, all := true, drain := true, software := false }
    let s := { s with sec := { s.sec with layout := some (l, k) } }
    let s := if k < 4 then setStage s k stApplying else s
    afterFlushes (pumpFlushes { s with hub := { s.hub with flushWait := s.hub.flushWait ++ [f] } })
  else
    let s := applyItems s l
    if k < 4 then setStage s k stApplied else s

/-- A TENANT credential confirms only sets whose objects all concern its partition (R384). -/
def mayConfirm (r : Role) (l : List Triple) : Bool :=
  match r with
  | .tenant p => l.all (fun t => decide (objEntryOf t.key = some p.val))
  | _ => true

/-- The 60 s window of a sealed set. -/
def windowNs : Nat := 60 * oneSecond

/-- CONFIRM: within the window, by a credential of a different role that has written the digest. A layout waits its turn while another
is being applied: the confirmation is refused and the window keeps running (DESIGN CHOICE, log 43). -/
def stageConfirm (s : State) (ses : Option Nat) (k : Nat) : State × Nat :=
  match sesCred s ses with
  | none => (s, aqNoRight)
  | some (c, role) =>
    let x := stageSet s k
    if stageState s k ≠ stSealed then (s, aqRefused)
    else if x.sealedAt + windowNs < s.time then (discardSet s k stFree, aqRefused)
    else if x.cred = c ∨ x.role = some role ∨ ¬mayConfirm role x.items ∨ mapGet s.sec.confirm (ses.getD 0) [] ≠ x.digest then (s, aqRefused)
    else if x.items.any Triple.isLayout ∧ s.sec.layout.isSome then (s, aqRefused)
    else if ¬setSound s x.items then (setStage s k stRefused, aqRefused)
    else (startSet s k x.items x.digest, aqOk)

/-- STAGE_OPEN (R384). -/
def execStageOpen (ses : Nat) (set : Fin 4) (s : State) : Host.Outcome State Fault Refusal := .next (stageOpen s (some ses) set).1

/-- STAGE_SEAL (R384). -/
def execStageSeal (ses : Nat) (set : Fin 4) (s : State) : Host.Outcome State Fault Refusal := .next (stageSeal s (some ses) set).1

/-- STAGE_CONFIRM (R384). -/
def execStageConfirm (ses : Nat) (set : Fin 4) (s : State) : Host.Outcome State Fault Refusal := .next (stageConfirm s (some ses) set).1

/-- STAGE_ABORT (R384). -/
def execStageAbort (ses : Nat) (set : Fin 4) (s : State) : Host.Outcome State Fault Refusal := .next (stageAbort s (some ses) set).1

/-- STAGE_WINDOW_EXPIRY (R384): a confirmation at 60.000 s is still accepted, so a set goes only after it. -/
def execStageWindowExpiry (set : Fin 4) (s : State) : Host.Outcome State Fault Refusal :=
  .next (if stageState s set = stSealed ∧ (stageSet s set).sealedAt + windowNs < s.time then discardSet s set stFree else s)

/-! ### LAYOUT_APPLY (R370) -/

/-- The spans, start and end, whose owner a layout changes. -/
def changedSpans (s t : State) : List (Nat × Nat) :=
  let b := (shareBounds s ++ shareBounds t ++ (List.range 32).map (fun e => sramBase + e * 2 ^ 26 + sramBytes)).foldl lineInsert []
  (b.zip (b.drop 1)).filter (fun x => decide (addrOwner s x.1 ≠ addrOwner t x.1))

/-- A granule returns to its home without a frame: its frame's bytes first where they are the granule's contents. -/
def evictGranule (s : State) (g : Nat) : State :=
  let x := gran s g
  if x.state = 0 then s
  else
    let s := if x.state = 1 then s else copyGranule s (frameAddr x.frame) (g * granBytes)
    retryGranule (setGran (flushGranule s g false) g {}) g

/-- Granules whose frames leave the pool region, and the oldest ones of a partition that holds more frames than it keeps, return to
their homes. -/
def shrinkPools (s t : State) : State :=
  let s := (s.hub.grans.filter (fun x => decide (x.2.state ≠ 0) && decide (x.2.frame < poolFirst t))).foldl (fun s x => evictGranule s x.1) s
  (List.range 16).foldl (fun s p =>
    let held := (s.hub.grans.filter (fun x => decide (x.2.state ≠ 0) && decide (x.2.part = p))).length
    (List.range (held - objNat t (oPoolFramesP p))).foldl (fun s _ =>
      match oldest s (fun x => decide (x.state = 2) && decide (x.part = p)) with
      | some g => evictGranule s g
      | none => s) s) s

/-- The pages of a span of the flash window trimmed (R234). -/
def trimSpan (s : State) (x : Nat × Nat) : State :=
  (((validPages s).map (fun p => p.lpn)).filter (fun n => decide (x.1 ≤ pageAddr n) && decide (pageAddr n < x.2))).foldl unmapPage s

/-- A span that changes owner reads zeros: the granules homed there lose their frames, caches their copies. -/
def scrubSpan (s : State) (x : Nat × Nat) : State :=
  let homed (a : Nat) : Bool := decide (x.1 ≤ a) && decide (a < x.2)
  let s := (s.hub.grans.filter (fun g => homed (g.1 * granBytes) && decide (g.2.state ≠ 0))).foldl
    (fun s g => setGran (rawZero s (frameAddr g.2.frame) granBytes) g.1 {}) s
  let s := trimSpan (rawZero s x.1 (x.2 - x.1)) x
  { s with hub := { s.hub with
      dir := s.hub.dir.filter (fun d => !homed (64 * d.line))
      resv := s.hub.resv.filter (fun r => !homed (64 * r.2)) } }

/-- A partition gained or lost a resource. -/
def shareChanged (s t : State) (p : Nat) : Bool :=
  (List.range 7).any (fun i => decide (objBytes s (0x4010 + p, 1 + i) ≠ objBytes t (0x4010 + p, 1 + i))) ||
    decide (objBytes s (oPoolFramesP p) ≠ objBytes t (oPoolFramesP p)) || decide (objBytes s (oCarderShareP p) ≠ objBytes t (oCarderShareP p))

/-- A partition holds a share of the stacked tier. -/
def stackedShare (s : State) (p : Nat) : Bool :=
  decide (objNat s (oPartSpread p) / 65536 ≠ 0) || (List.range 8).any (fun d => decide (u8At (objBytes s (oPartLocal p)) (2 * d + 1) ≠ 0))

/-- The owners switch (R370 steps 3 and 4, R379). -/
def switchLayout (s : State) (l : List Triple) (k : Nat) : State :=
  let t := withLayout s (l.filter (fun x => !x.isAction))
  let s1 := (changedSpans s t).foldl scrubSpan (shrinkPools s t)
  let s1 := applyItems { s1 with sec := { s1.sec with layout := none } } l
  let s1 := (List.range 16).foldl (fun s1 p =>
    let s1 := if shareChanged s t p then advance s1 (rSecPart p) fSecPartPartGen 1 else s1
    if stackedShare t p ∧ ¬stackedShare s p then { s1 with sec := { s1.sec with memKeys := mapSet s1.sec.memKeys p (mapGet s1.sec.memKeys p 0 + 1) } } else s1) s1
  if k < 4 then setStage s1 k stApplied else s1

/-- LAYOUT_APPLY (R370): the flush has drained, the scrub ends, and the owners switch. -/
def execLayoutApply (s : State) : Host.Outcome State Fault Refusal :=
  .next (
    match s.sec.layout with
    | none => s
    | some (l, k) => if (s.hub.flushQ ++ s.hub.flushWait).any (fun f => f.all && f.drain && !f.software && !f.bias) then s else switchLayout s l k)

/-! ### Images and live activation (R375, R398, R399) -/

/-- FW_IMAGE (R375): the image is written to the inactive slot. -/
def execFwImage (s : State) : Host.Outcome State Fault Refusal :=
  .next (
    match takeAction s (fun t => t.names oFwImage) with
    | none => s
    | some (t, s) => { s with sec := { s.sec with slots := mapSet s.sec.slots (1 - s.sec.runSlot) (parseImage t.value) } })

/-- SVN_COMMIT (R375): FUSE_SVN rises to the SVN of the running image. -/
def execSvnCommit (s : State) : Host.Outcome State Fault Refusal :=
  .next (
    match takeAction s (fun t => t.names oSvnCommit) with
    | none => s
    | some (t, s) => if leNat t.value = 0 then s else { s with sec := { s.sec with fuseSvn := max s.sec.fuseSvn (image s s.sec.runSlot).svn } })

/-- Every session ends; transfers carried in one end with it (R442's table). -/
def endSessions (s : State) (f : Nat → Bool) : State :=
  { s with
    sec := { s.sec with
      sessions := s.sec.sessions.filter (fun x => !f x.1), confirm := s.sec.confirm.filter (fun x => !f x.1) }
    mgmt := { s.mgmt with xfers := s.mgmt.xfers.filter (fun x => match x.2.ses with
      | some n => !f n
      | none => true) } }

/-- The measurement index of a firmware class (R375); microcode has none. -/
def classIndex (c : Nat) : Option Nat := if c = 0 then some 2 else if c = 1 then some 3 else if c = 3 then some 4 else if c = 4 then some 5 else none

/-- The class's index measured anew. -/
def measureClass (s : State) (c : Nat) : State :=
  match classIndex c with
  | some i => remeasure s i
  | none => s

/-- A class starts its new firmware: sessions end with class 1, its index is measured, the epoch closes (R398). -/
def activateClass (s : State) (c k : Nat) : State :=
  let s := if c = 0 then endSessions s (fun _ => true) else s
  closeEpoch (measureClass { s with sec := { s.sec with classSlot := mapSet s.sec.classSlot c k } } c) true

/-- The classes before the one that fails revert in reverse order (R399). -/
def revertClasses (s : State) (before : FMap Nat Nat) (l : List Nat) : State :=
  l.reverse.foldl (fun s c => measureClass { s with sec := { s.sec with classSlot := mapSet s.sec.classSlot c (mapGet before c s.sec.runSlot) } } c) s

/-- With every class on one slot, that slot is the running one. -/
def settleSlot (s : State) (k : Nat) : State :=
  if (List.range 5).all (fun c => decide (classSlot s c = k)) then
    setF { s with sec := { s.sec with runSlot := k, classSlot := [] } } rSecStatus fSecStatusImageSvn (image s k).svn
  else s

/-- A recompute is queued on some engine: engine firmware is not activated until none is (chapter 15, coinciding events). -/
def recomputeQueued (s : State) : Bool := (List.range 32).any (fun e => !(engAux s e).recomp.isEmpty)

/-- FW_ACTIVATE (R398, R399): the classes named, in order; `failClass` is the one that fails to start. An image that does not verify,
or lies below FUSE_SVN, activates nothing. One that names the engine firmware, class 4, waits for queued recomputes. -/
def execFwActivate (failClass : Option (Fin 5)) (s : State) : Host.Outcome State Fault Refusal :=
  .next (
    let s0 := s
    match takeAction s (fun t => t.names oFwActivate) with
    | none => s
    | some (t, s) =>
      let k := 1 - s.sec.runSlot
      let l := (List.range 5).filter (fun c => bitOf (leNat t.value) c)
      if ¬bootable s k ∨ ¬(image s k).bodyOk then setObjNat s oFwActState 1 3
      else if l.elem 3 ∧ recomputeQueued s then s0
      else
        match failClass with
        | some f =>
          if l.elem f.val then
            let done := l.filter (fun c => decide (c < f.val))
            setObjNat (revertClasses (done.foldl (fun s c => activateClass s c k) s) s.sec.classSlot done) oFwActState 1 3
          else setObjNat (settleSlot (l.foldl (fun s c => activateClass s c k) s) k) oFwActState 1 2
        | none => setObjNat (settleSlot (l.foldl (fun s c => activateClass s c k) s) k) oFwActState 1 2)

/-! ### Keys (R379 to R382) -/

/-- NAND_KEY_ERASE (R381): a new flash key; the share's pages read as undefined data. -/
def execNandKeyErase (p : Fin 16) (s : State) : Host.Outcome State Fault Refusal :=
  .next (
    match takeAction s (fun t => t.names (oNandKeyErase p)) with
    | none => s
    | some (t, s) =>
      if leNat t.value = 0 then s
      else
        let v := objNat s (oPartFlash p)
        let s := { s with sec := { s.sec with flashKeys := mapSet s.sec.flashKeys p (mapGet s.sec.flashKeys p 0 + 1) } }
        scramble s (flashBase + v % 2 ^ 32 * pageBytes) (v / 2 ^ 32 * pageBytes))

/-- LINK_KEY (R382): the key and its generation stand in the slot; the one it replaces is kept for 10 s. -/
def execLinkKey (p : Fin 16) (slot : Fin 16) (s : State) : Host.Outcome State Fault Refusal :=
  .next (
    match takeAction s (fun t => t.names (oLinkKey p slot)) with
    | none => s
    | some (t, s) =>
      let old := (mapFind s.sec.keys (p.val, slot.val)).map (fun x => (x.key, x.gen))
      let x : LinkKey := { key := t.value.take 32, gen := u16At t.value 32, prev := old, replacedAt := s.time }
      { s with sec := { s.sec with keys := mapSet s.sec.keys (p.val, slot.val) x } })

/-- REPLACED_KEY_EXPIRY (R382). -/
def execReplacedKeyExpiry (p : Fin 16) (slot : Fin 16) (s : State) : Host.Outcome State Fault Refusal :=
  .next (
    match mapFind s.sec.keys (p.val, slot.val) with
    | none => s
    | some x =>
      if x.replacedAt + 10 * oneSecond ≤ s.time then { s with sec := { s.sec with keys := mapSet s.sec.keys (p.val, slot.val) { x with prev := none } } } else s)

/-! ### Debug (R354, R385) -/

/-- The guest's DBG channel follows the debug level. -/
def guestDebug (s : State) : State :=
  match (link s 18).heard with
  | some d => if linkState s 18 = lkUp then setF s (rPlaLinkState 18) fPlaLinkStateChannels (agreedChannels s 18 d) else s
  | none => s

/-- A debug level and partition in force, measured in index 8 (R376). -/
def setDebug (s : State) (level part : Nat) : State :=
  remeasure (guestDebug (setF (setF s rSecStatus fSecStatusDebugLevel level) rSecStatus fSecStatusDebugPartition part)) 8

/-- DEBUG_UNLOCK (R385): the level and partition hold for LEASE_H hours. -/
def execDebugUnlock (s : State) : Host.Outcome State Fault Refusal :=
  .next (
    match takeAction s (fun t => t.names oDebugUnlock) with
    | none => s
    | some (t, s) =>
      let v := leNat t.value
      let s := setObj { s with sec := { s.sec with debugUntil := s.time + natField v 23 8 * 3600 * oneSecond } } oDebugUnlock t.value
      setDebug s (natField v 1 0) (natField v 7 4))

/-- DEBUG_LEASE_EXPIRY (R385). -/
def execDebugLeaseExpiry (s : State) : Host.Outcome State Fault Refusal :=
  .next (if debugLevel s ≠ 0 ∧ s.sec.debugUntil ≤ s.time then setDebug (setObjNat s oDebugUnlock 4 0) 0 0 else s)

end Sys2Proof.Machine
end

