-- ==== Sys2Proof/Machine/Spdm.lean ====
section
/-! DEFINITION. The SPDM responder (R377, R378): the twelve requests of the subset, sessions and their end. The manual names the
requests; the layout of the messages is that of DSP0274 (PRESUMED, log 44). -/

namespace Sys2Proof.Machine

open Sys2Proof

/-! ### Transports (R438) -/

/-- A transport is in service: its start-up step has ended and nothing switches it off. -/
def transportUp (s : State) (tr : Transport) : Bool :=
  match tr with
  | .i3c => s.pow.ended.elem 5
  | .mgtPort => s.pow.ended.elem 5 && decide (objNat s oMgtPortEnable = 1) && s.mgmt.mgtUp
  | .inband p => s.pow.ended.elem 12 && decide (objNat s oInbandEnable = 1) && getB s (rAuqMbx p) fAuqMbxEnable

/-- The number of a transport. -/
def transportNo (tr : Transport) : Nat :=
  match tr with
  | .i3c => 0
  | .mgtPort => 1
  | .inband p => 2 + p.val

/-! ### Messages -/

def spdmConn (s : State) (tr : Transport) : SpdmConn := mapGet s.sec.spdm (transportNo tr) {}
def setSpdmConn (s : State) (tr : Transport) (c : SpdmConn) : State := { s with sec := { s.sec with spdm := mapSet s.sec.spdm (transportNo tr) c } }

/-- A response. -/
def spdmPut (s : State) (version code p1 p2 : Nat) (body : Bytes) : State :=
  { s with sec := { s.sec with spdmOut := s.sec.spdmOut ++ [natLE 1 version ++ natLE 1 code ++ natLE 1 p1 ++ natLE 1 p2 ++ body] } }

/-- Response codes. -/
def spDigests : Nat := 0x01
def spCertificate : Nat := 0x02
def spChallengeAuth : Nat := 0x03
def spVersion : Nat := 0x04
def spMeasurements : Nat := 0x60
def spCapabilities : Nat := 0x61
def spAlgorithms : Nat := 0x63
def spKeyExchangeRsp : Nat := 0x64
def spFinishRsp : Nat := 0x65
def spHeartbeatAck : Nat := 0x68
def spKeyUpdateAck : Nat := 0x69
def spEndSessionAck : Nat := 0x6C
def spError : Nat := 0x7F

/-- Error codes. -/
def seInvalid : Nat := 0x01
def seUnexpected : Nat := 0x04
def seDecrypt : Nat := 0x06
def seMismatch : Nat := 0x41

/-- An ERROR response. -/
def spdmError (s : State) (r : SpdmReq) (code : Nat) : State := spdmPut s r.version.toNat spError code 0 []

/-- `n` bytes that the manual does not give: nonces, signatures, exchange data. -/
def freeBytes (s : State) (n : Nat) : State × Bytes :=
  ({ s with freeCtr := s.freeCtr + 1 }, (List.range n).map (Config.freeByte s.freeCtr))

/-- The session of a request is in service: it lives on the request's transport. -/
def sesLive (s : State) (r : SpdmReq) : Bool :=
  match r.ses with
  | none => true
  | some n =>
    match mapFind s.sec.sessions n with
    | some x => decide (x.tr = r.tr)
    | none => false

/-- A request in a session keeps it from idling (R444). -/
def touchSession (s : State) (ses : Option Nat) : State :=
  match ses with
  | none => s
  | some n =>
    match mapFind s.sec.sessions n with
    | some x => { s with sec := { s.sec with sessions := mapSet s.sec.sessions n { x with last := s.time } } }
    | none => s

/-- A request whose transport and session are in service. -/
def spdmServe (s : State) (r : SpdmReq) (f : State → State) : State :=
  if transportUp s r.tr ∧ sesLive s r then f (touchSession s r.ses) else s

/-- A request after GET_VERSION: its version is the negotiated one. -/
def spdmVersioned (s : State) (r : SpdmReq) (f : State → State) : State :=
  spdmServe s r (fun s =>
    if (spdmConn s r.tr).version = 0 then spdmError s r seUnexpected
    else if (spdmConn s r.tr).version ≠ r.version.toNat then spdmError s r seMismatch
    else f s)

/-- A request after NEGOTIATE_ALGORITHMS. -/
def spdmReady (s : State) (r : SpdmReq) (f : State → State) : State :=
  spdmVersioned s r (fun s => if (spdmConn s r.tr).algs then f s else spdmError s r seUnexpected)

/-! ### Version, capabilities, algorithms -/

/-- GET_VERSION (R377): versions 1.2 and 1.3; what was negotiated before is forgotten. -/
def execGetVersion (r : SpdmReq) (s : State) : Host.Outcome State Fault Refusal :=
  .next (spdmServe s r (fun s => spdmPut (setSpdmConn s r.tr {}) 0x10 spVersion 0 0 ([0, 2] ++ natLE 2 0x1200 ++ natLE 2 0x1300)))

/-- Capability flags of R377: CERT, CHAL, MEAS with signature, ENCRYPT, MAC, MUT_AUTH, KEY_EX, HBEAT, KEY_UPD. -/
def spdmFlags : Nat := 0x2 + 0x4 + 0x10 + 0x40 + 0x80 + 0x100 + 0x200 + 0x2000 + 0x4000

/-- GET_CAPABILITIES (R377): the connection takes the version of the request. Timing and sizes are free values. -/
def execGetCapabilities (r : SpdmReq) (s : State) : Host.Outcome State Fault Refusal :=
  .next (spdmServe s r (fun s =>
    if r.version ≠ 0x12 ∧ r.version ≠ 0x13 then spdmError s r seMismatch
    else
      let s := setSpdmConn s r.tr { version := r.version.toNat, caps := true, algs := false }
      let (s, b) := freeBytes s 12
      spdmPut s r.version.toNat spCapabilities 0 0 (b.take 4 ++ natLE 4 spdmFlags ++ b.drop 4)))

/-- NEGOTIATE_ALGORITHMS (R377): ECDSA P-384, SHA-384, secp384r1, AES-256-GCM; a requester without them gets no algorithms. -/
def execNegotiateAlgorithms (r : SpdmReq) (s : State) : Host.Outcome State Fault Refusal :=
  .next (spdmVersioned s r (fun s =>
    if ¬(spdmConn s r.tr).caps then spdmError s r seUnexpected
    else if ¬(bitOf (u32At r.body 4) 7 ∧ bitOf (u32At r.body 8) 1) then spdmError s r seInvalid
    else
      let s := setSpdmConn s r.tr { spdmConn s r.tr with algs := true }
      spdmPut s r.version.toNat spAlgorithms 2 0
        (natLE 2 44 ++ [1, 2] ++ natLE 4 4 ++ natLE 4 0x80 ++ natLE 4 2 ++ List.replicate 16 0 ++ [2, 0x20] ++ natLE 2 0x10 ++ [3, 0x20] ++ natLE 2 2)))

/-! ### Certificates -/

/-- GET_DIGESTS (R377): the digests of the chains in slots 0 and 1. -/
def execGetDigests (r : SpdmReq) (s : State) : Host.Outcome State Fault Refusal :=
  .next (spdmReady s r (fun s => spdmPut s r.version.toNat spDigests 0 3 (sha384 (Config.certChain 0) ++ sha384 (Config.certChain 1))))

/-- GET_CERTIFICATE (R377): a portion of a chain. -/
def execGetCertificate (r : SpdmReq) (s : State) : Host.Outcome State Fault Refusal :=
  .next (spdmReady s r (fun s =>
    let k := r.param1.toNat
    let c := Config.certChain k
    let off := u16At r.body 0
    if 2 ≤ k ∨ c.length < off then spdmError s r seInvalid
    else
      let part := (c.drop off).take (u16At r.body 2)
      spdmPut s r.version.toNat spCertificate k 0 (natLE 2 part.length ++ natLE 2 (c.length - off - part.length) ++ part)))

/-! ### Measurements (R375, R378) -/

/-- The role that a request is served with: its session's, or TENANT(p) in-band. -/
def spdmRole (s : State) (r : SpdmReq) : Option Role :=
  match sesCred s r.ses, r.tr with
  | some (_, x), _ => some x
  | none, .inband p => some (.tenant p)
  | none, _ => none

/-- Debug reaches a partition (R378, R385). -/
def debugReaches (s : State) (p : Nat) : Bool := decide (debugLevel s = 2) || (decide (debugLevel s = 1) && decide (debugPart s = p))

/-- The digest of an index as a role receives it: for TENANT(p), index 7 covers P_p's own layout and TENANT_ISOLATE, index 8 whether
debug reaches P_p (R378). -/
def roleMeasurement (s : State) (role : Option Role) (i : Nat) : Bytes :=
  match role with
  | some (.tenant p) =>
    if i = 7 then sha384 ((List.range 7).flatMap (fun k => objBytes s (0x4010 + p, 1 + k)) ++ objBytes s oTenantIsolate)
    else if i = 8 then sha384 (natLE 1 (debugReaches s p).toNat)
    else measurement s i
  | _ => measurement s i

/-- A DMTF measurement block. -/
def measBlock (s : State) (role : Option Role) (i : Nat) : Bytes := natLE 1 i ++ [1] ++ natLE 2 51 ++ [0] ++ natLE 2 48 ++ roleMeasurement s role i

/-- Digest over all blocks, where a summary is asked. -/
def measSummary (s : State) (r : SpdmReq) (typ : Nat) : Bytes :=
  if typ = 0 then [] else sha384 ((List.range 8).flatMap (fun i => measBlock s (spdmRole s r) (1 + i)))

/-- CHALLENGE (R377): the chain's digest, a nonce, the summary asked for and a signature. -/
def execChallenge (r : SpdmReq) (s : State) : Host.Outcome State Fault Refusal :=
  .next (spdmReady s r (fun s =>
    let k := r.param1.toNat
    if 2 ≤ k then spdmError s r seInvalid
    else
      let (s, nonce) := freeBytes s 32
      let (s, sig) := freeBytes s 96
      spdmPut s r.version.toNat spChallengeAuth k 3 (sha384 (Config.certChain k) ++ nonce ++ measSummary s r r.param2.toNat ++ natLE 2 0 ++ sig)))

/-- GET_MEASUREMENTS (R377, R378): the number of indices, one block or all of them, always signed. -/
def execGetMeasurements (r : SpdmReq) (s : State) : Host.Outcome State Fault Refusal :=
  .next (spdmReady s r (fun s =>
    let op := r.param2.toNat
    let l := if op = 0xFF then (List.range 8).map (fun i => 1 + i) else if 1 ≤ op ∧ op ≤ 8 then [op] else []
    if op ≠ 0 ∧ l = [] then spdmError s r seInvalid
    else
      let rec_ := l.flatMap (measBlock s (spdmRole s r))
      let (s, nonce) := freeBytes s 32
      let (s, sig) := freeBytes s 96
      spdmPut s r.version.toNat spMeasurements (if op = 0 then 8 else 0) 0
        (natLE 1 l.length ++ natLE 3 rec_.length ++ rec_ ++ nonce ++ natLE 2 0 ++ sig)))

/-! ### Sessions (R377, R444) -/

/-- KEY_EXCHANGE (R377): a session is opened, which FINISH has to authenticate. -/
def execKeyExchange (r : SpdmReq) (s : State) : Host.Outcome State Fault Refusal :=
  .next (spdmReady s r (fun s =>
    if 2 ≤ r.param2.toNat then spdmError s r seInvalid
    else
      let id := s.sec.nextSes
      let x : Session := { tr := r.tr, cred := none, last := s.time, established := false, keyGen := 0, heartbeat := 0 }
      let s := { s with sec := { s.sec with nextSes := id + 1, sessions := mapSet s.sec.sessions id x } }
      let (s, rand) := freeBytes s 32
      let (s, exch) := freeBytes s 96
      let (s, sig) := freeBytes s 144
      spdmPut s r.version.toNat spKeyExchangeRsp 0 0
        (natLE 2 id ++ [1, 0] ++ rand ++ exch ++ measSummary s r r.param1.toNat ++ natLE 2 0 ++ sig)))

/-- FINISH (R377, R383): mutual authentication gives the session its credential; a requester that no credential of the table
authenticates loses the session. -/
def execFinish (r : SpdmReq) (s : State) : Host.Outcome State Fault Refusal :=
  .next (spdmReady s r (fun s =>
    match r.ses with
    | none => spdmError s r seUnexpected
    | some n =>
      match mapFind s.sec.sessions n with
      | none => spdmError s r seUnexpected
      | some x =>
        if x.established then spdmError s r seUnexpected
        else
          match (Config.spdmSigner r.body).bind (fun c => (mapFind s.sec.creds c).map (fun role => (c, role))) with
          | some cr =>
            let s := { s with sec := { s.sec with sessions := mapSet s.sec.sessions n { x with established := true, cred := some cr, last := s.time } } }
            let (s, v) := freeBytes s 48
            spdmPut s r.version.toNat spFinishRsp 0 0 v
          | none => spdmError (endSessions s (fun k => decide (k = n))) r seDecrypt))

/-- A request that only an established session carries. -/
def inSession (s : State) (r : SpdmReq) (f : State → Nat → Session → State) : State :=
  spdmReady s r (fun s =>
    match r.ses with
    | none => spdmError s r seUnexpected
    | some n =>
      match mapFind s.sec.sessions n with
      | some x => if x.established then f s n x else spdmError s r seUnexpected
      | none => spdmError s r seUnexpected)

/-- END_SESSION (R377): the session ends, and its transfers as if aborted (R442's table). -/
def execEndSession (r : SpdmReq) (s : State) : Host.Outcome State Fault Refusal :=
  .next (inSession s r (fun s n _ => spdmPut (endSessions s (fun k => decide (k = n))) r.version.toNat spEndSessionAck 0 0 []))

/-- HEARTBEAT (R377). -/
def execHeartbeat (r : SpdmReq) (s : State) : Host.Outcome State Fault Refusal :=
  .next (inSession s r (fun s n x =>
    spdmPut { s with sec := { s.sec with sessions := mapSet s.sec.sessions n { x with heartbeat := s.time } } } r.version.toNat spHeartbeatAck 0 0 []))

/-- KEY_UPDATE (R377): operation 1 or 2 updates keys, 3 verifies the new one. -/
def execKeyUpdate (r : SpdmReq) (s : State) : Host.Outcome State Fault Refusal :=
  .next (inSession s r (fun s n x =>
    let op := r.param1.toNat
    if op = 0 ∨ 3 < op then spdmError s r seInvalid
    else
      let x := if op = 3 then x else { x with keyGen := x.keyGen + 1 }
      spdmPut { s with sec := { s.sec with sessions := mapSet s.sec.sessions n x } } r.version.toNat spKeyUpdateAck op r.param2.toNat []))

/-- SESSION_IDLE (R444): a session idle for SESSION_IDLE seconds ends. -/
def execSessionIdle (ses : Nat) (s : State) : Host.Outcome State Fault Refusal :=
  .next (
    match mapFind s.sec.sessions ses with
    | none => s
    | some x => if x.last + objNat s oSessionIdle * oneSecond ≤ s.time then endSessions s (fun k => decide (k = ses)) else s)

end Sys2Proof.Machine
end

