-- ==== Sys2Proof/Machine/Auquin.lean ====
section
/-! DEFINITION. The object dictionary as it is read and written (R434 to R437), its rights (R439) and its messages (R440 to
R442). -/

namespace Sys2Proof.Machine

open Sys2Proof

/-! ### Statuses (R442) -/

def aqNoObject : Nat := 0x01
def aqNoSub : Nat := 0x02
def aqReadOnly : Nat := 0x03
def aqWriteOnly : Nat := 0x04
def aqTypeLength : Nat := 0x05
def aqRange : Nat := 0x06
def aqSegmentSeq : Nat := 0x09
def aqTimeout : Nat := 0x0A
def aqBusy : Nat := 0x0B

/-! ### Rights (R439) -/

/-- The role of a request; none: ANONYMOUS. -/
def auqRole (s : State) (r : AuqReq) : Option Role :=
  match sesCred s r.ses, r.tr with
  | some (_, x), _ => some x
  | none, .inband p => some (.tenant p)
  | none, .i3c => if provisioning s then some .security else none
  | none, .mgtPort => none

/-- The identity and communication objects, which every role reads. -/
def openIndex (i : Nat) : Bool := decide (0x1000 ≤ i) && decide (i ≤ 0x11FF)

/-- The Read column of R439. -/
def mayRead (role : Option Role) (k : ObjKey) : Bool :=
  match role with
  | none => openIndex k.1
  | some (.tenant p) => openIndex k.1 || decide (objEntryOf k = some p.val)
  | some .operator | some .security => decide (k.1 < 0xF000)
  | some .service => true

/-- The column Write RW, RWP, WO of R439. STAGE_CTL and STAGE_CONFIRM_DIGEST are what a credential stages and confirms with: their
columns are the two others, and `stageCtl` asks for the session's credential. -/
def mayWrite (role : Option Role) (k : ObjKey) : Bool :=
  match role with
  | none => false
  | some (.tenant p) => decide (objEntryOf k = some p.val) || decide (k = oStageCtl) || decide (k = oStageConfirmDigest)
  | some .operator | some .security => decide (k.1 < 0xF000)
  | some .service => true

/-- The column Stage RWS of R439; an in-band request outside a session may not stage. -/
def mayStage (s : State) (r : AuqReq) (k : ObjKey) : Bool :=
  match auqRole s r with
  | none => false
  | some (.tenant p) => (sesCred s r.ses).isSome && decide (objEntryOf k = some p.val)
  | some _ => true

/-! ### Values (R434, R443, R456) -/

/-- STATE of the 13 arrays of an engine, two bits each. -/
def arrayMap (s : State) (e : Nat) : Nat := (List.range 13).foldl (fun t pa => t + getF s (rArrayState e pa) fArrayStateState * 4 ^ pa) 0

/-- The record of the region with a sequence number (EVR_SELECT). -/
def evrFind (seq : Nat) : Nat → Bytes → Bytes
  | 0, _ => []
  | k + 1, b =>
    let n := u32At b 4
    if b.length < 64 ∨ n = 0 then []
    else if u64At b 8 = seq then b.take n else evrFind seq k (b.drop n)

/-- A die is on the module: every one but a guest die that is not fitted. -/
def dieFitted (d : Nat) : Bool := decide (d ≠ 11) || Config.guestFitted

/-- The value of an object. DBG_PEEK_DATA is taken by the read itself (R452). -/
def objRead (s : State) (k : ObjKey) : State × Bytes :=
  if k.2 = 0 then (s, natLE 1 (objHighest k.1))
  else if k.1 = 0x6011 then (s, natLE 4 (arrayMap s (k.2 - 1)))
  else if k.1 = 0x4002 ∧ 11 ≤ k.2 then (s, stageList s (k.2 - 11))
  else if k = oRepairMap then (s, s.rel.repairMap.flatten)
  else if k = oEvrRecord then (s, evrFind (objNat s oEvrSelect) s.rel.region.length s.rel.region)
  else if k = oD2dTestResult then (s, s.d2d.testResult)
  else if k = oTapResult then (s, s.mgmt.tapResult)
  else if k = oFwVersion then (s, natLE 4 (image s s.sec.runSlot).version)
  else if k = oFwSlot then (s, natLE 1 s.sec.runSlot)
  else if k.1 = 0x1001 then (s, if dieFitted (k.2 - 1) then natLE 16 (Config.dieUid (k.2 - 1)).toNat else List.replicate 16 0)
  else if k = oPowerOnCount then (s, natLE 4 s.pow.powerOns)
  else if k = oDbgPeekData then
    let s := dbgPeek s
    (s, objBytes s k)
  else (s, objBytes s k)

/-! ### Checks of a written value (R436) -/

/-- The length of a value fits its type. -/
def lengthOk (ty : ObjType) (n : Nat) : Bool :=
  match ty with
  | .bool => decide (n = 1)
  | .num m | .int m | .float m | .octets m => decide (n = m)
  | .str m => decide (n ≤ m)
  | .domain => decide (n < 2 ^ 32)

/-- The number a value spells under its type. -/
def typedValue (ty : ObjType) (v : Bytes) : Int :=
  match ty with
  | .int _ => (BitVec.ofNat (8 * v.length) (leNat v)).toInt
  | _ => leNat v

/-- Ranges that the objects' Range columns state in words. -/
def rangeWords (s : State) (k : ObjKey) (v : Bytes) : Bool :=
  let n := leNat v
  if k = oDbgPeekAddr then decide (n % 8 = 0)
  else if k = oDbgDmSel then decide (n ≤ 9)
  else if k = oDbgDmiReq then decide (natField n 41 40 = 1) || decide (natField n 41 40 = 2)
  else if k = oDebugUnlock then decide (n % 4 ≤ 2) && (decide (n % 4 = 0) || (decide (1 ≤ natField n 23 8) && decide (natField n 23 8 ≤ 24)))
  else if k = oLifecycle then decide (objNat s oLifecycle ≤ n)
  else if k = oStageCtl then decide (1 ≤ n % 16) && decide (n % 16 ≤ 4)
  else if k = oFwActivate then decide (n < 32)
  else if 0x4010 ≤ k.1 ∧ k.1 ≤ 0x401F ∧ k.2 = 7 then decide (n / 65536 % 131072 ≤ 65536)
  else true

/-- The value lies in the object's Range/Unit column. -/
def rangeOk (s : State) (d : ObjDesc) (k : ObjKey) (v : Bytes) : Bool :=
  (match d.ty with
    | .bool => decide (leNat v ≤ 1)
    | _ => true) &&
  (match d.rng with
    | some (lo, hi, m) => decide (lo ≤ typedValue d.ty v) && decide (typedValue d.ty v ≤ hi) && decide (typedValue d.ty v % m = 0)
    | none => true) && rangeWords s k v

/-! ### Writes (R437) -/

/-- STAGE_CTL (R384). -/
def stageCtl (s : State) (ses : Option Nat) (v : Nat) : State × Nat :=
  let k := natField v 5 4
  match v % 16 with
  | 1 => stageOpen s ses k
  | 2 => stageSeal s ses k
  | 3 => stageConfirm s ses k
  | _ => stageAbort s ses k

/-- Registers that show an object just written (R202, R221). -/
def showObject (s : State) (k : ObjKey) : State :=
  if k = oMigEnable then setF s rMigCfg fMigCfgEnable (objNat s k)
  else if k = oMigPolicy then promoteHot (setF s rMigCfg fMigCfgPolicy (objNat s k))
  else if k = oSampleLog2 then setF s rMigCfg fMigCfgSampleLog2 (objNat s k)
  else if k = oHotThresh then setF s rMigCfg fMigCfgHotThresh (objNat s k)
  else if k = oMigMaxInflight then setF s rMigCfg fMigCfgMaxInflight (objNat s k)
  else if k = oStkWrBatch then (List.range 8).foldl (fun s d => setF s (rStkCfg d) fStkCfgWrBatch (objNat s k)) s
  else s

/-- A value stored. A persistent one is programmed within 1 s: until then a power loss may bring the old one back (R437). A change
of EVR_EPOCH_S closes the epoch early (R403). -/
def storeObject (s : State) (d : ObjDesc) (k : ObjKey) (v : Bytes) : State :=
  let s := if k = oEvrEpochS ∧ objBytes s k ≠ v then closeEpoch s true else s
  let s := if d.acc = .rwp then { s with mgmt := { s.mgmt with recent := (k, objBytes s k, s.time) :: s.mgmt.recent } } else s
  showObject (setObj s k v) k

/-- What a write of an RW, RWP or WO object does. -/
def writeEffect (s : State) (ses : Option Nat) (d : ObjDesc) (k : ObjKey) (v : Bytes) : State × Nat :=
  if k = oStageCtl then stageCtl s ses (leNat v)
  else if k = oStageConfirmDigest then
    match sesCred s ses, ses with
    | some _, some n => ({ s with sec := { s.sec with confirm := mapSet s.sec.confirm n v } }, aqOk)
    | _, _ => (s, aqNoRight)
  else if k = oMarginStart then
    if leNat v = 0 then (s, aqOk)
    else
      let s := marginStart s
      (s, if objNat s oMarginState = 3 then aqRefused else aqOk)
  else if k = oModuleReset then (if leNat v = 0 then s else moduleReset s, aqOk)
  else if k = oTapSeq then
    if tapAllowed s then (setObjNat (setObj s oTapSeq v) oTapState 1 1, aqOk) else (setObjNat s oTapState 1 3, aqRefused)
  else if k = oDbgDmiReq then (dmiObject s (leNat v), if debugLevel s = 0 then aqRefused else aqOk)
  else (storeObject s d k v, aqOk)

/-- An RWS write over I3C in PROVISIONING takes effect at once, after the checks of confirmation (R383). A link key needs a secure
session (R382). -/
def writeNow (s : State) (r : AuqReq) (t : Triple) : State × Nat :=
  if (t.isKey ∧ ¬(sesCred s r.ses).isSome) ∨ (t.isLayout ∧ s.sec.layout.isSome) ∨ ¬setSound s [t] then (s, aqRefused)
  else (startSet s 4 [t] s.sec.lastDigest, aqOk)

/-- The first reason to refuse a write before its value is looked at. The order of the checks is the model's (DESIGN CHOICE, log
45). -/
def writeBarred (s : State) (r : AuqReq) (k : ObjKey) : Nat :=
  if ¬objIndexExists k.1 then aqNoObject
  else if k.2 = 0 then aqReadOnly
  else match objDesc k with
    | none => aqNoSub
    | some d =>
      match d.acc with
      | .const | .ro => if mayRead (auqRole s r) k then aqReadOnly else aqNoRight
      | .rws => if mayStage s r k then aqOk else aqNoRight
      | _ => if mayWrite (auqRole s r) k then aqOk else aqNoRight

/-- A whole value arrives for an object (R436, R437). -/
def objWrite (s : State) (r : AuqReq) (k : ObjKey) (v : Bytes) : State × Nat :=
  match writeBarred s r k, objDesc k with
  | 0, some d =>
    if ¬lengthOk d.ty v.length then (s, aqTypeLength)
    else if ¬rangeOk s d k v then (s, aqRange)
    else if d.acc = .rws then
      if provisioning s ∧ r.tr = .i3c then writeNow s r ⟨k.1, k.2, v⟩ else stageWrite s r.ses ⟨k.1, k.2, v⟩
    else writeEffect s r.ses d k v
  | e, _ => (s, if e = 0 then aqNoSub else e)

/-- The first reason to refuse a read. -/
def readBarred (s : State) (r : AuqReq) (k : ObjKey) : Nat :=
  if ¬objIndexExists k.1 then aqNoObject
  else if k.2 ≠ 0 ∧ (objDesc k).isNone then aqNoSub
  else if ¬mayRead (auqRole s r) k then aqNoRight
  else match objDesc k with
    | some d => if d.wo ∧ k.2 ≠ 0 then aqWriteOnly else aqOk
    | none => aqOk

/-! ### Messages (R440, R441) -/

/-- Data bytes that one segment of a transport carries behind the header (R438). -/
def segBytes (tr : Transport) : Nat :=
  match tr with
  | .i3c => 1024
  | .mgtPort => 8192
  | .inband _ => 56

/-- An object of at most 4 bytes that is not a DOMAIN is read and written expedited. -/
def expeditedObj (k : ObjKey) : Bool :=
  if k.2 = 0 then true
  else match objDesc k with
    | none => true
    | some d =>
      match d.ty with
      | .bool => true
      | .num n | .int n | .float n | .str n | .octets n => decide (n ≤ 4)
      | .domain => false

def opRead : Nat := 0x01
def opWrite : Nat := 0x02
def opSegment : Nat := 0x03
def opAbort : Nat := 0x04

/-- A response without data. -/
def auqPlain (r : AuqReq) (op status : Nat) : AuqRsp :=
  { tr := r.tr, op := op, token := r.token, index := r.index.toNat, sub := r.sub.toNat, status := status, expedited := false, last := false
    toggle := false, total := 0, data := [] }

def xferOf (s : State) (tr : Transport) : Option Xfer := mapFind s.mgmt.xfers tr
def setXfer (s : State) (tr : Transport) (x : Xfer) : State := { s with mgmt := { s.mgmt with xfers := mapSet s.mgmt.xfers tr x } }
def dropXfer (s : State) (tr : Transport) : State := { s with mgmt := { s.mgmt with xfers := mapDel s.mgmt.xfers tr } }

/-- A request is served when its transport is in service and the session that carries it is established there. -/
def auqLive (s : State) (r : AuqReq) : Bool :=
  transportUp s r.tr &&
  match r.ses with
  | none => true
  | some n =>
    match mapFind s.sec.sessions n with
    | some x => x.established && decide (x.tr = r.tr)
    | none => false

/-- READ (R441). -/
def auqRead (s : State) (r : AuqReq) : State × AuqRsp :=
  let k : ObjKey := (r.index.toNat, r.sub.toNat)
  if (xferOf s r.tr).isSome then (s, auqPlain r opRead aqBusy)
  else
    match readBarred s r k with
    | 0 =>
      let (s, v) := objRead s k
      if expeditedObj k then (s, { auqPlain r opRead aqOk with expedited := true, data := v })
      else
        let n := segBytes r.tr - 4
        let part := v.take n
        let whole := decide (v.length ≤ n)
        let s := if whole then s else setXfer s r.tr
          { write := false, index := k.1, sub := k.2, total := v.length, data := v, done := part.length, toggle := false, last := s.time, ses := r.ses
            token := r.token }
        (s, { auqPlain r opRead aqOk with last := whole, total := v.length, data := part })
    | e => (s, auqPlain r opRead e)

/-- WRITE (R441): an expedited value, a segmented one that is whole in its first message, or the beginning of a transfer. -/
def auqWrite (s : State) (r : AuqReq) : State × AuqRsp :=
  let k : ObjKey := (r.index.toNat, r.sub.toNat)
  let answer (x : State × Nat) : State × AuqRsp := (x.1, auqPlain r opWrite x.2)
  if (xferOf s r.tr).isSome then answer (s, aqBusy)
  else
    match writeBarred s r k with
    | 0 =>
      if r.expedited then (if expeditedObj k ∧ r.data.length ≤ 4 then answer (objWrite s r k r.data) else answer (s, aqTypeLength))
      else if expeditedObj k ∨ segBytes r.tr - 4 < r.data.length ∨ r.total < r.data.length ∨ (r.last ∧ r.data.length ≠ r.total) then answer (s, aqTypeLength)
      else if r.last then answer (objWrite s r k r.data)
      else answer (setXfer s r.tr
        { write := true, index := k.1, sub := k.2, total := r.total, data := r.data, done := r.data.length, toggle := false, last := s.time, ses := r.ses
          token := r.token }, aqOk)
    | e => answer (s, e)

/-- SEGMENT (R441). -/
def auqSegment (s : State) (r : AuqReq) : State × AuqRsp :=
  let answer (x : State × Nat) : State × AuqRsp := (x.1, auqPlain r opSegment x.2)
  match xferOf s r.tr with
  | none => answer (s, aqSegmentSeq)
  | some x =>
    if x.ses ≠ r.ses then answer (s, aqSegmentSeq)
    else if x.last + oneSecond ≤ s.time then answer (dropXfer s r.tr, aqTimeout)
    else if x.toggle ≠ r.toggle then answer (dropXfer s r.tr, aqSegmentSeq)
    else if x.write then
      let data := x.data ++ r.data
      if segBytes r.tr < r.data.length ∨ x.total < data.length ∨ (r.last ∧ data.length ≠ x.total) then answer (dropXfer s r.tr, aqTypeLength)
      else if r.last then answer (objWrite (dropXfer s r.tr) r (x.index, x.sub) data)
      else answer (setXfer s r.tr { x with data := data, done := data.length, toggle := !x.toggle, last := s.time, token := r.token }, aqOk)
    else
      let part := (x.data.drop x.done).take (segBytes r.tr)
      let done := x.done + part.length
      let whole := decide (x.total ≤ done)
      let s := if whole then dropXfer s r.tr else setXfer s r.tr { x with done := done, toggle := !x.toggle, last := s.time, token := r.token }
      (s, { auqPlain r opSegment aqOk with last := whole, toggle := r.toggle, data := part })

/-- ABORT (R441). -/
def auqAbort (s : State) (r : AuqReq) : State × AuqRsp := (dropXfer s r.tr, auqPlain r opAbort aqOk)

/-- A request of J_MGT or the mailbox that comes as a command, answered on its transport. -/
def auqCommand (s : State) (r : AuqReq) (f : State → AuqReq → State × AuqRsp) : State :=
  if auqLive s r then
    let (s, x) := f (touchSession s r.ses) r
    { s with mgmt := { s.mgmt with rsps := s.mgmt.rsps ++ [x] } }
  else s

/-- AUQUIN_READ (R441). -/
def execAuquinRead (r : AuqReq) (s : State) : Host.Outcome State Fault Refusal := .next (auqCommand s r auqRead)

/-- AUQUIN_WRITE (R441). -/
def execAuquinWrite (r : AuqReq) (s : State) : Host.Outcome State Fault Refusal := .next (auqCommand s r auqWrite)

/-- AUQUIN_SEGMENT (R441). -/
def execAuquinSegment (r : AuqReq) (s : State) : Host.Outcome State Fault Refusal := .next (auqCommand s r auqSegment)

/-- AUQUIN_ABORT (R441). -/
def execAuquinAbort (r : AuqReq) (s : State) : Host.Outcome State Fault Refusal := .next (auqCommand s r auqAbort)

/-- SEG_TIMEOUT (R441): a transfer idle for 1 s ends with TIMEOUT; a write that ends so changes nothing. -/
def execSegTimeout (tr : Transport) (s : State) : Host.Outcome State Fault Refusal :=
  .next (
    match xferOf s tr with
    | none => s
    | some x =>
      if s.time < x.last + oneSecond then s
      else
        let s := dropXfer s tr
        let rsp : AuqRsp := { tr := tr, op := if x.write then opWrite else opRead, token := x.token, index := x.index, sub := x.sub, status := aqTimeout
                              expedited := false, last := false, toggle := false, total := 0, data := [] }
        { s with mgmt := { s.mgmt with rsps := s.mgmt.rsps ++ [rsp] } })

/-! ### The in-band mailbox (R449) -/

/-- The request that a 64-byte record holds; `none` for a reserved OP. A segment carries as much of its value as a record holds
(R440, R449). -/
def mailboxReq (s : State) (p : Fin 16) (b : Bytes) : Option (AuqReq × (State → AuqReq → State × AuqRsp)) :=
  let op := u8At b 0 % 128
  let exp := bitOf (u8At b 5) 0
  let left : Nat := match xferOf s (.inband p) with
    | some x => if x.write then x.total - x.done else 0
    | none => 0
  let data : Bytes := if op = opWrite then (if exp then (b.drop 8).take (u8At b 7) else (b.drop 12).take (min (u32At b 8) 52))
    else if op = opSegment then (b.drop 8).take (min left 56) else []
  let r : AuqReq :=
    { tr := .inband p, ses := none, token := b.getD 1 0, index := BitVec.ofNat 16 (u16At b 2), sub := b.getD 4 0
      expedited := exp, last := bitOf (u8At b 5) 1, toggle := bitOf (u8At b 5) 2, total := u32At b 8, data := data }
  if op = opRead then some (r, auqRead) else if op = opWrite then some (r, auqWrite) else if op = opSegment then some (r, auqSegment)
  else if op = opAbort then some (r, auqAbort) else none

/-- A response as a 64-byte record (R440). -/
def rspRecord (x : AuqRsp) : Bytes :=
  let head := natLE 1 (128 + x.op) ++ [x.token] ++ natLE 2 x.index ++ natLE 1 x.sub ++
    natLE 1 (x.expedited.toNat + 2 * x.last.toNat + 4 * x.toggle.toNat) ++ natLE 1 x.status ++ natLE 1 (if x.expedited then x.data.length else 0)
  let body := if x.op = opRead ∧ x.status = aqOk ∧ ¬x.expedited then natLE 4 x.total ++ x.data else x.data
  (head ++ body ++ List.replicate 64 0).take 64

/-- Requests served one after the other: each response is written before RSP_PRODUCER advances, and a full response ring holds the
next request. -/
def mailboxServe (p : Fin 16) (base n : Nat) : Nat → State → State
  | 0, s => s
  | k + 1, s =>
    let ix (o : Nat) : Nat := leNat (hubView s (base + o) 4)
    if ix 0 = ix 4 ∨ 2 ^ n ≤ (ix 8 + 2 ^ 32 - ix 12) % 2 ^ 32 then s
    else
      let from_ := base + 64 + ix 4 % 2 ^ n * 64
      let req := hubView s from_ 64
      let s := hubTouch s from_ 64
      let slot := base + 64 + 2 ^ n * 64 + ix 8 % 2 ^ n * 64
      let cons := natLE 4 ((ix 4 + 1) % 2 ^ 32)
      let prod := natLE 4 ((ix 8 + 1) % 2 ^ 32)
      match mailboxReq s p req with
      | none => mailboxServe p base n k (hubPut s (base + 4) cons)
      | some (r, f) =>
        let (t, x) := f s r
        mailboxServe p base n k (hubPut (hubPut (hubPut t slot (rspRecord x)) (base + 8) prod) (base + 4) cons)

/-- MAILBOX_POLL (R449): a mailbox in service that lies in a range of its partition. -/
def execMailboxPoll (p : Fin 16) (s : State) : Host.Outcome State Fault Refusal :=
  .next (
    let base := getF s (rAuqMbx p) fAuqMbxBase * 4096
    let n := getF s (rAuqMbx p) fAuqMbxLog2
    if transportUp s (.inband p) ∧ mpaAdmits s (.hubUnit p) base (64 + 2 ^ n * 128) true then mailboxServe p base n (2 ^ n) s else s)

/-! ### Management pins (R444, R466) -/

/-- DYNAMIC_ADDRESS (R466): before step 5 the I3C pins are high impedance. -/
def execDynamicAddress (addr : BitVec 8) (s : State) : Host.Outcome State Fault Refusal :=
  .next (if s.pow.ended.elem 5 then setObj s oI3cDynAddr [addr] else s)

/-- SET_ENDPOINT_ID (R444). -/
def execSetEndpointId (eid : BitVec 8) (s : State) : Host.Outcome State Fault Refusal :=
  .next (if s.pow.ended.elem 5 then setObj s oMctpEid [eid] else s)

/-- Objects that are taken when the management port comes up. -/
def appliedAtLinkUp : List ObjKey := [oMgtIpv4, oMgtIpv4Mask, oMgtIpv4Gw, oMgtIpv6]

/-- MGT_LINK_CHANGE (R444): the port comes up with its addressing objects, or goes down and loses its transfer. -/
def execMgtLinkChange (link : BitVec 2) (s : State) : Host.Outcome State Fault Refusal :=
  .next (
    if s.pow.mode ≠ 1 then s
    else
      let up := decide (link ≠ 0)
      let s1 := setObjNat { s with mgmt := { s.mgmt with mgtUp := up } } oMgtLink 1 link.toNat
      if up ∧ ¬s.mgmt.mgtUp then
        { s1 with mgmt := { s1.mgmt with applied := appliedAtLinkUp.foldl (fun m k => mapSet m k (objBytes s1 k)) s1.mgmt.applied } }
      else if up then s1 else dropXfer s1 .mgtPort)

end Sys2Proof.Machine
end

