-- ==== Sys2Proof/Machine/Transfer.lean ====
section
/-! DEFINITION. TRANSFER and TRANSFER_INLINE (R160 to R165). -/

namespace Sys2Proof.Machine

open Sys2Proof

/-- The fields of a TRANSFER. -/
structure Tr where
  srcBob : Bool
  dstBob : Bool
  layout : Nat
  zero : Bool
  cont : Bool
  fmt : Nat
  sb : Nat
  db : Nat
  readers : Nat
  g : Nat
  len : Nat
  src : Nat
  dst : Nat
  rows : Nat
  t : Nat
  k : Nat
  p : Nat
  srcPitch : Nat

def trOf (b : Bytes) : Tr :=
  let w := u8At b 8
  { srcBob := bitOf w 0, dstBob := bitOf w 1, layout := natField w 3 2, zero := bitOf w 4, cont := bitOf w 5, fmt := u8At b 9
    sb := u8At b 10, db := u8At b 11, readers := u16At b 12, g := u8At b 14, len := u40At b 16, src := u64At b 24, dst := u64At b 32
    rows := u32At b 40, t := u32At b 44, k := u16At b 48, p := u16At b 50, srcPitch := u32At b 52 }

def Tr.array (x : Tr) : Bool := decide (x.layout = 1)
def Tr.lay (x : Tr) (f : Fmt) : Lay := ⟨f, x.rows, x.k, x.t, x.p, x.g⟩

/-- Bytes read at the source, and bytes written at the destination (R160). -/
def Tr.srcLen (x : Tr) (f : Fmt) : Nat := if x.array then f.planes x.rows x.k x.srcPitch else x.len
def Tr.dstLen (x : Tr) (f : Fmt) : Nat := if x.array then (x.lay f).bytes else x.len

/-- The format of an ARRAY TRANSFER; LINEAR has none. -/
def Tr.format (x : Tr) : Option Fmt := if x.array then matFmt x.fmt else fmtOf 0

/-- A bobbin span at a 64-bit offset. -/
def beyondAt (s : State) (u : SpoolId) (b off n : Nat) : Bool := !badBobbin s u b && decide (bobSize s u.e b < off + n)

/-- The conditions of R161. -/
def trBad (u : SpoolId) (s : State) (c : Cmd) : Bool :=
  let b := c.bytes
  let x := trOf b
  match x.format with
  | none => true
  | some f =>
    !(decide (u8At b 8 < 64) && decide (x.layout < 2) && decide (x.fmt < 32) && zeroSpan b 15 1 && zeroSpan b 21 3 && zeroSpan b 56 8 &&
      !(x.srcBob && x.zero) &&
      (if x.array then
        (decide (x.g = 0) || decide (x.g = 4)) && inRange x.rows 1 (2 ^ 24) && inRange x.k 1 32768 &&
          inRange x.t 1 (if x.g = 4 then 512 else x.rows) && layPitchOk f x.p &&
          decide (x.srcPitch % 4 = 0)
       else decide (x.len ≠ 0))) ||
      (x.srcBob && beyondAt s u x.sb x.src (x.srcLen f)) || (x.dstBob && beyondAt s u x.db x.dst (x.dstLen f))

/-- The bobbins it names (R470). -/
def trBobs (b : Bytes) : List Nat :=
  let x := trOf b
  (if x.srcBob then [x.sb] else []) ++ (if x.dstBob then [x.db] else [])

/-- Both sides are memory: the copy is staged (R163). -/
def Tr.staged (x : Tr) : Bool := !x.srcBob && !x.dstBob && !x.zero

/-- The staging bobbins of a context. -/
def stagings (s : State) (e n : Nat) : List Nat := (List.range 256).filter (fun b => bobOwned s e n b && bobStaging s e b)

/-- The free mover with the lowest index: movers of TRANSFERs that are started and not ended are taken (R162). -/
def freeMover (s : State) (e : Fin 32) : Option Nat :=
  let taken := (List.finRange 16).flatMap (fun n => (List.finRange 4).flatMap (fun i =>
    ((spool s ⟨e, n, i⟩).cmds.filter (fun c => decide (c.opcode = 0x01) && c.live)).filterMap (fun c => c.mover)))
  (List.range 4).find? (fun m => !taken.elem m)

/-- The writes of an ARRAY TRANSFER: every byte of the layout is 0 but for its rows (R160). -/
def arrayPut (s : State) (t : Tgt) (x : Tr) (f : Fmt) (src : Src) : State :=
  let l := x.lay f
  let nb := blocksOf x.k
  let s := t.zero s 0 l.bytes
  let code (r j : Nat) : Nat := (rowMajor f src.bytes x.rows x.k x.srcPitch r j).1
  let mt (r b : Nat) : Nat × Nat := let m := rowMajor f src.bytes x.rows x.k x.srcPitch r (32 * b); (m.2.1, m.2.2)
  let s := (List.range x.rows).foldl (fun s r =>
    if x.zero then
      putAll s t (l.rowWrites r (List.replicate x.k 0) (List.replicate nb (if f.mt = .e8m0 then (0x67, 0) else (0, 0))))
    else putAll s t (l.rowWrites r ((List.range x.k).map (code r)) (if f.blocked then (List.range nb).map (mt r) else []))) s
  if x.zero ∨ src.bad = [] then s
  else
    (List.range x.rows).foldl (fun s r =>
      let all := (List.range x.k).map (fun j => rowMajorBad f src x.rows x.k x.srcPitch r j)
      let codes := (List.range x.k).map (fun j => rowMajorCodeBad f src x.srcPitch r j)
      (l.rowCodePoison r codes ++ l.rowMetaPoison r all).foldl (fun s p => t.poison s p.1 p.2) s) s

/-- A LINEAR copy: the bytes, then the poison of the source lines delivered (R214, R215). -/
def linearPut (s : State) (t : Tgt) (x : Tr) (src : Src) : State :=
  if x.zero then t.zero s 0 x.len
  else src.bad.foldl (fun s b => t.poison s b.1 b.2) (t.put s 0 src.bytes)

/-- The staging bobbins that a copy of n bytes takes: one that is EMPTY, and a second where the copy has more than one segment and
another is EMPTY at that moment (R163). -/
def takeStaging (s : State) (u : SpoolId) (n : Nat) : List Nat :=
  match (stagings s u.e u.n).filter (fun b => decide (bobState s u.e b = bEmpty)) with
  | [] => []
  | b :: l => b :: (if bobSize s u.e b < n then l.take 1 else [])

/-- The staging bobbins given back; their contents are not stated afterwards (R163). -/
def freeStaging (s : State) (u : SpoolId) (l : List Nat) : State := l.foldl (fun s b => bobToEmpty (scrambleBob s u.e b) u.e b) s

/-- The transfer works within one bobbin. -/
def Tr.inPlace (x : Tr) : Bool := x.srcBob && x.dstBob && decide (x.sb = x.db)

/-- The bobbins a TRANSFER fills. -/
def Tr.fills (x : Tr) : List Nat := if x.dstBob && !x.inPlace then [x.db] else []

/-- The mover of a TRANSFER: its own over a retry, else a free one (R162). -/
def trMover (s : State) (u : SpoolId) (c : Cmd) : Option Nat :=
  match c.mover with
  | some m => some m
  | none => freeMover s u.e

/-- The staging bobbins of a TRANSFER: its own over a retry. -/
def trStage (s : State) (u : SpoolId) (c : Cmd) (f : Fmt) : List Nat :=
  if ¬(trOf c.bytes).staged then [] else if c.stage = [] then takeStaging s u ((trOf c.bytes).dstLen f) else c.stage

/-- The bobbins a TRANSFER takes at its start. -/
def trTake (s : State) (u : SpoolId) (slot : Nat) (x : Tr) (stage : List Nat) : State :=
  stage.foldl (fun s b => bobFill s u slot b false) (x.fills.foldl (fun s b => bobFill s u slot b x.cont) s)

/-- What a TRANSFER reads. -/
def trSource (s : State) (u : SpoolId) (x : Tr) (f : Fmt) : State × Except Act Src :=
  if x.zero then (s, .ok ⟨[], []⟩)
  else if x.srcBob then (s, .ok (bobSrc s u.e x.sb x.src (x.srcLen f)))
  else
    match reach s (engReq s u 0 false true) x.src (x.srcLen f) with
    | (s, .ok ps) => (piecesTouch s ps, .ok (vaSrc s ps))
    | (s, .error a) => (s, .error a)

/-- Where a TRANSFER writes. -/
def trTarget (s : State) (u : SpoolId) (x : Tr) (f : Fmt) : State × Except Act Tgt :=
  if x.dstBob then (s, .ok (.mpa (bobBase s u.e x.db + x.dst)))
  else
    match reach s (engReq s u 0 true false) x.dst (x.dstLen f) with
    | (s, .ok ps) => (s, .ok (.pieces ps))
    | (s, .error a) => (s, .error a)

/-- What a TRANSFER writes. -/
def trPut (s : State) (t : Tgt) (x : Tr) (f : Fmt) (src : Src) : State := if x.array then arrayPut s t x f src else linearPut s t x src

/-- A TRANSFER's command while it runs. -/
def trCmd (c : Cmd) (m : Nat) (x : Tr) (f : Fmt) (stage : List Nat) : Cmd :=
  { c with mover := some m, fills := x.fills, reads := if x.srcBob && !x.inPlace then [x.sb] else [], readers := x.readers
           cont := x.cont, outBase := if x.dstBob then 0 else x.dst, outLen := if x.dstBob then 0 else x.dstLen f, stage := stage }

/-- The body of a TRANSFER (R160 to R163): it runs whole at its start. -/
def trBody (u : SpoolId) (s : State) (c : Cmd) : State × Cmd × Act :=
  let x := trOf c.bytes
  match x.format with
  | none => (s, c, .ends stFormat 0)
  | some f =>
    let stage := trStage s u c f
    if x.staged ∧ stagings s u.e u.n = [] then (s, c, .ends stResource 0)
    else if x.staged ∧ stage = [] then (s, c, .waits)
    else if x.srcBob ∧ ¬insReady s u [x.sb] then (s, c, .waits)
    else if x.dstBob ∧ ¬x.inPlace ∧ ¬outReady s u c.slot x.db then (s, c, .waits)
    else
      match trMover s u c with
      | none => (s, c, .waits)
      | some m =>
        let c := trCmd c m x f stage
        match trSource (trTake s u c.slot x stage) u x f with
        | (s, .error a) => (s, c, a)
        | (s, .ok sr) =>
          match trTarget s u x f with
          | (s, .error a) => (s, c, a)
          | (s, .ok t) =>
            (advance (freeStaging (trPut s t x f sr) u stage) (rMoverBytes u.e m) fMoverBytesBytes (x.dstLen f), { c with stage := [] }, .ends stOk (x.dstLen f))

/-- TRANSFER (R160). -/
def execTransfer (u : SpoolId) (s : State) : Host.Outcome State Fault Refusal :=
  .next (runCmd s u (fun b => decide (u8At b 0 = 0x01)) (trBad u) trBobs (trBody u))

/-! ### TRANSFER_INLINE (R165) -/

def inlineBad (u : SpoolId) (s : State) (c : Cmd) : Bool :=
  let b := c.bytes
  !(decide (u8At b 8 < 4) && inRange (u8At b 9) 1 192 && zeroSpan b 11 1 && zeroSpan b 14 2 && zeroSpan b 24 40) ||
    (bitOf (u8At b 8) 0 && beyondAt s u (u8At b 10) (u64At b 16) (u8At b 9))

def inlineBobs (b : Bytes) : List Nat := if bitOf (u8At b 8) 0 then [u8At b 10] else []

def inlineBody (u : SpoolId) (s : State) (c : Cmd) : State × Cmd × Act :=
  let b := c.bytes
  let n := u8At b 9
  let db := u8At b 10
  let dst := u64At b 16
  let payload := (b.drop 64).take n
  if bitOf (u8At b 8) 0 then
    if ¬outReady s u c.slot db then (s, c, .waits)
    else
      let s := bobFill s u c.slot db (bitOf (u8At b 8) 1)
      (bobWrite s u.e db dst payload, { c with fills := [db], readers := u16At b 12, cont := bitOf (u8At b 8) 1 }, .ends stOk n)
  else
    match reach s (engReq s u 0 true false) dst n with
    | (s, .ok ps) => (piecesWrite s ps payload, c, .ends stOk n)
    | (s, .error a) => (s, { c with outBase := dst, outLen := n }, a)

/-- TRANSFER_INLINE (R165). -/
def execTransferInline (u : SpoolId) (s : State) : Host.Outcome State Fault Refusal :=
  .next (runCmd s u (fun b => decide (u8At b 0 = 0x02)) (inlineBad u) inlineBobs (inlineBody u))

end Sys2Proof.Machine
end

