-- ==== Sys2Proof/Machine/Carder.lean ====
section
/-! DEFINITION. The Carder (R171 to R185): CARD in image and token mode. A command runs whole at its start; one whose access stalls goes on
from what it has read. -/

namespace Sys2Proof.Machine

open Sys2Proof

/-- The fields of a CARD. -/
structure Cd where
  mode : Nat
  layout : Nat
  dec : Nat
  dstBob : Bool
  cont : Bool
  fmt : Nat
  rnd : Nat
  ch1 : Bool
  texp : Int
  db : Nat
  readers : Nat
  p : Nat
  mask : Nat
  split : Bool
  wide : Bool
  desc : Nat
  count : Nat
  w : Nat
  h : Nat
  len : Nat
  dst : Nat
  pitch : Nat
  t : Nat
  slots : Nat
  tensor : Nat
  tile : Nat

def cdOf (b : Bytes) : Cd :=
  let m := u8At b 8
  { mode := m % 4, layout := natField m 3 2, dec := natField m 5 4, dstBob := bitOf m 6, cont := bitOf m 7, fmt := u8At b 9 % 32
    rnd := natField (u8At b 9) 6 5, ch1 := bitOf (u8At b 9) 7, texp := i8At b 10, db := u8At b 11, readers := u16At b 12
    p := u8At b 14 % 64, mask := u8At b 15 % 16, split := bitOf (u8At b 15) 4, wide := bitOf (u8At b 15) 5, desc := u64At b 16
    count := u32At b 24, w := u16At b 28, h := u16At b 30, len := u32At b 28, dst := u64At b 32, pitch := u32At b 40
    t := u16At b 44 % 1024, slots := u16At b 44 / 1024 + 1, tensor := u16At b 46, tile := u32At b 48 }

def Cd.chans (x : Cd) : Nat := if x.ch1 then 1 else 3
/-- The decimation factor. -/
def Cd.d (x : Cd) : Nat := 2 ^ x.dec
def Cd.cells (x : Cd) : Nat := x.count * x.slots
/-- Rows and row length of the output view (R181). -/
def Cd.rows (x : Cd) : Nat :=
  if x.layout = 1 then x.cells * x.chans * x.h
  else if x.p = 0 then x.cells * x.h else x.cells * (x.h / x.p * (x.w / x.p))
def Cd.rowLen (x : Cd) : Nat :=
  if x.layout = 1 then x.w else if x.p = 0 then x.w * x.chans else x.p * x.p * x.chans
def Cd.skew (x : Cd) : Bool := decide (x.layout = 2)
def Cd.format (x : Cd) : Option Fmt := if [0x02, 0x03, 0x04, 0x0A, 0x0B, 0x0C, 0x0D, 0x0E].elem x.fmt then drainFmt x.fmt else none
def Cd.outLen (x : Cd) (f : Fmt) : Nat := outBytes f x.skew x.rows x.rowLen x.t x.pitch

/-- A three-channel unit set: the units a command may use that are in service (R172, R185). -/
def cardUnits (s : State) (x : Cd) : List Nat :=
  (List.range 4).filter (fun i => bitOf (objNat s oCarderUnits) i && (decide (x.mask = 0) || bitOf x.mask i))

/-- The conditions of R180 for image mode. A row-major OUT_PITCH has no bound (log 123). -/
def imageBad (u : SpoolId) (s : State) (c : Cmd) : Bool :=
  let b := c.bytes
  let x := cdOf b
  match x.format with
  | none => true
  | some f =>
    !(decide (x.layout < 3) && decide (x.dec < 3) && decide (x.rnd < 3) && decide (x.texp ≠ -128) && decide (u8At b 14 < 64) && decide (x.p ≤ 32) &&
      decide (u8At b 15 < 64) && inRange x.count 1 65536 && inRange x.w 1 16384 && inRange x.h 1 16384 &&
      (decide (x.p = 0) || (decide (x.w % x.p = 0) && decide (x.h % x.p = 0) && decide (x.layout ≠ 1))) &&
      (if x.skew then decide (x.rowLen ≤ 32768) && inRange x.t 1 512 && layPitchOk f x.pitch else true)) ||
      (x.dstBob && beyondAt s u x.db x.dst (x.outLen f))

/-- The conditions of R180 for token mode. -/
def tokensBad (u : SpoolId) (s : State) (c : Cmd) : Bool :=
  let b := c.bytes
  let x := cdOf b
  !(decide (x.layout = 0) && decide (x.dec = 0) && decide (u8At b 9 = 0) && decide (u8At b 10 = 0) && decide (u8At b 14 = 0) &&
    decide (u8At b 15 < 64) && decide (x.t = 0) && inRange x.count 1 65536 && inRange x.len 1 65536) ||
    (x.dstBob && beyondAt s u x.db x.dst (4 * x.len * x.pitch))

def cardBobs (b : Bytes) : List Nat := let x := cdOf b; if x.dstBob then [x.db] else []

/-! ### Reads -/

/-- A CARD at work: its next source is the `k`-th that it reads. -/
structure Rd where
  s : State
  c : Cmd
  k : Nat

/-- A command under way whose access waits stays started. -/
def Act.started : Act → Act
  | .held ps => .holds ps
  | a => a

/-- A read by the Carder. A source that the command read before a stall is not read again (R176). -/
def cardRead (r : Rd) (u : SpoolId) (va n : Nat) : Rd × Except Act Src :=
  match r.c.log[r.k]? with
  | some x => ({ r with k := r.k + 1 }, .ok ⟨x.1, x.2⟩)
  | none =>
    match reach r.s (hubReq r.s u 5 false true) va n with
    | (s, .ok ps) =>
      let x := vaSrc s ps
      (⟨piecesTouch s ps, { r.c with log := r.c.log ++ [(x.bytes, x.bad)] }, r.k + 1⟩, .ok x)
    | (s, .error a) => ({ r with s := s }, .error a.started)

/-- Several reads. -/
def cardReads (s : Rd) (u : SpoolId) : List (Nat × Nat) → List Src → Rd × Except Act (List Src)
  | [], acc => (s, .ok acc)
  | (va, n) :: l, acc =>
    match cardRead s u va n with
    | (s, .ok x) => cardReads s u l (acc ++ [x])
    | (s, .error a) => (s, .error a)

/-! ### Image samples (R174 to R178) -/

/-- A sample descriptor. -/
structure Sm where
  y : Nat
  c : Nat
  w : Nat
  h : Nat
  pitch : Nat
  pitchC : Nat
  fmt : Nat
  matrix : Nat
  full : Bool
  flip : Bool
  jx : Int
  jy : Int
  gain : List (BitVec 32)
  offset : List (BitVec 32)
  regionVa : Nat

/-- A binary16 field as FP32. -/
def f16At (b : Bytes) (o : Nat) : BitVec 32 := f32Of (ffB16.dec (u16At b o))

def smOf (b : Bytes) : Sm :=
  { y := u64At b 0, c := u64At b 8, w := u16At b 16, h := u16At b 18, pitch := u32At b 20, pitchC := u32At b 24, fmt := u8At b 28
    matrix := u8At b 29 % 4, full := bitOf (u8At b 29) 2, flip := bitOf (u8At b 30) 0, jx := i16At b 32, jy := i16At b 34
    gain := (List.range 3).map (fun i => f16At b (36 + 2 * i)), offset := (List.range 3).map (fun i => f16At b (42 + 2 * i))
    regionVa := u64At b 48 }

/-- Planes: YUV formats have a chroma plane; 10-bit formats two bytes a value. -/
def Sm.yuv (x : Sm) : Bool := decide (3 ≤ x.fmt)
def Sm.vb (x : Sm) : Nat := if 6 ≤ x.fmt then 2 else 1
def Sm.bpp (x : Sm) : Nat := if x.fmt = 1 ∨ x.fmt = 2 then 3 else x.vb
def Sm.sx (x : Sm) : Nat := if x.fmt = 3 ∨ x.fmt = 4 ∨ x.fmt = 6 ∨ x.fmt = 7 then 2 else 1
def Sm.sy (x : Sm) : Nat := if x.fmt = 3 ∨ x.fmt = 6 then 2 else 1

/-- The errors of R175 that the descriptor shows. -/
def smBad (ch1 : Bool) (b : Bytes) : Bool :=
  let x := smOf b
  !(decide (x.fmt ≤ 8) && decide (u8At b 29 < 8) && decide (x.matrix < 3) && decide (u8At b 30 < 2) && zeroSpan b 31 1 && zeroSpan b 60 4 &&
    inRange x.w 1 16384 && inRange x.h 1 16384 && decide (x.w % x.sx = 0) && decide (x.h % x.sy = 0) &&
    decide (x.w * x.bpp ≤ x.pitch) && (!x.yuv || decide (x.w / x.sx * (2 * x.vb) ≤ x.pitchC)) && (!ch1 || decide (x.fmt = 0)))

/-- A region. -/
structure Rg where
  x0 : Int
  y0 : Int
  w : Nat
  h : Nat

def rgOf (b : Bytes) (j : Nat) : Rg := ⟨i16At b (16 + 16 * j), i16At b (18 + 16 * j), u16At b (20 + 16 * j), u16At b (22 + 16 * j)⟩

/-- W and H of an entry are 1 to 16,384; another value is a code out of range (R175; DEDUCED, log 20). -/
def rgBad (r : Rg) : Bool := !(inRange r.w 1 16384 && inRange r.h 1 16384)

/-- The frame rows and columns a region covers: first and count. -/
def clip (o : Int) (n lim : Nat) : Nat × Nat :=
  let lo := max o 0
  let hi := min (o + n) lim
  (lo.toNat, (hi - lo).toNat)

/-- The reads of a region: per frame row the luma span, then per chroma row the chroma span. -/
def rgReads (x : Sm) (r : Rg) : List (Nat × Nat) × List (Nat × Nat) :=
  let (fx, nx) := clip (r.x0 + x.jx) r.w x.w
  let (fy, ny) := clip (r.y0 + x.jy) r.h x.h
  if nx = 0 ∨ ny = 0 then ([], [])
  else
    let luma := (List.range ny).map (fun i => ((x.y + (fy + i) * x.pitch + fx * x.bpp) % 2 ^ 64, nx * x.bpp))
    let cx := fx / x.sx
    let cn := (fx + nx - 1) / x.sx + 1 - cx
    let cy := fy / x.sy
    let cm := (fy + ny - 1) / x.sy + 1 - cy
    (luma, if x.yuv then (List.range cm).map (fun i => ((x.c + (cy + i) * x.pitchC + cx * (2 * x.vb)) % 2 ^ 64, cn * (2 * x.vb))) else [])

/-- A quotient of naturals as FP32, rounded once. -/
def f32Ratio (n d : Nat) : BitVec 32 := f32DivDy (Dy.ofNat n) (Dy.ofNat d)
def f32Int (n : Int) : BitVec 32 := f32Of (.fin ⟨n, 0⟩)

/-- kr and kb in units of 1/10,000 (R178). -/
def matrixK (m : Nat) : Nat × Nat := if m = 0 then (2990, 1140) else if m = 1 then (2126, 722) else (2627, 593)

/-- r, g, b of codes (R178). -/
def yuvRgb (x : Sm) (y cb cr : Nat) : List (BitVec 32) :=
  let ten := decide (x.vb = 2)
  let (oy, ry, oc, rc) : Nat × Nat × Nat × Nat :=
    if x.full then (if ten then (0, 1023, 512, 1023) else (0, 255, 128, 255)) else (if ten then (64, 876, 512, 896) else (16, 219, 128, 224))
  let (kr, kb) := matrixK x.matrix
  let kg := 10000 - kr - kb
  let norm (v o r : Nat) : BitVec 32 := f32Div (f32Sub (f32Int v) (f32Int o)) (f32Int r)
  let yn := norm y oy ry
  let cbn := norm cb oc rc
  let crn := norm cr oc rc
  [ f32Add yn (f32Mul (f32Ratio (2 * (10000 - kr)) 10000) crn),
    f32Sub (f32Sub yn (f32Mul (f32Ratio (2 * kb * (10000 - kb)) (10000 * kg)) cbn)) (f32Mul (f32Ratio (2 * kr * (10000 - kr)) (10000 * kg)) crn),
    f32Add yn (f32Mul (f32Ratio (2 * (10000 - kb)) 10000) cbn) ]

/-- A value of a plane: one byte, or bits [9:0] of two. -/
def valAt (b : Bytes) (vb i : Nat) : Nat := if vb = 2 then u16At b (2 * i) % 1024 else u8At b i

/-- The channels of frame pixel (px, py) before the gain, from the rows read. -/
def pixel (x : Sm) (r : Rg) (luma chroma : List Src) (px py : Nat) : List (BitVec 32) :=
  let (fx, _) := clip (r.x0 + x.jx) r.w x.w
  let (fy, _) := clip (r.y0 + x.jy) r.h x.h
  let row := (luma.getD (py - fy) ⟨[], []⟩).bytes
  if x.yuv then
    let cr := (chroma.getD (py / x.sy - fy / x.sy) ⟨[], []⟩).bytes
    let ci := px / x.sx - fx / x.sx
    yuvRgb x (valAt row x.vb (px - fx)) (valAt cr x.vb (2 * ci)) (valAt cr x.vb (2 * ci + 1))
  else
    let g (i : Nat) : BitVec 32 := f32Div (f32Int (u8At row ((px - fx) * x.bpp + i))) (f32Int 255)
    if x.fmt = 0 then [g 0, g 0, g 0] else if x.fmt = 1 then [g 0, g 1, g 2] else [g 2, g 1, g 0]

/-- One value of a region's result: the box's mean in raster order, then mean and scale (R178). -/
def boxVal (x : Cd) (m : Sm) (r : Rg) (luma chroma : List Src) (mean scale : Nat → BitVec 32) (c bx by_ : Nat) : BitVec 32 :=
  let at_ (k : Nat) : BitVec 32 :=
    let px := r.x0 + m.jx + (bx * x.d + k % x.d : Nat)
    let py := r.y0 + m.jy + (by_ * x.d + k / x.d : Nat)
    if px < 0 ∨ py < 0 ∨ (m.w : Int) ≤ px ∨ (m.h : Int) ≤ py then mean c
    else f32Add (f32Mul ((pixel m r luma chroma px.toNat py.toNat).getD c 0) (m.gain.getD c 0)) (m.offset.getD c 0)
  let vs := (List.range (x.d * x.d)).map at_
  let sum := match vs with
    | [] => 0
    | v :: l => l.foldl f32Add v
  f32Mul (f32Sub (f32Mul sum (f32Ratio 1 (x.d * x.d))) (mean c)) (scale c)

/-- What a sample leaves: per cell its values by channel, row and column, with the counts. -/
structure SmOut where
  /-- Cells, each by value index (c, y, x); a cell not listed is zero. -/
  cells : List (Nat × (Nat → Nat → Nat → BitVec 32))
  err : Bool
  poison : Option Nat
  pixels : Nat
  outFrame : Nat
  clipped : Nat

def SmOut.none : SmOut := ⟨[], false, Option.none, 0, 0, 0⟩

/-- A region as the values of its cell: zero outside what it covers (R177). -/
def cellOf (x : Cd) (m : Sm) (r : Rg) (luma chroma : List Src) (mean scale : Nat → BitVec 32) : Nat → Nat → Nat → BitVec 32 :=
  let rw_ := r.w / x.d
  let rh := r.h / x.d
  fun c y px => if px < rw_ ∧ y < rh then boxVal x m r luma chroma mean scale c (if m.flip then rw_ - 1 - px else px) y else 0

/-- The regions of a sample, one after another. -/
def doRegions (s : Rd) (u : SpoolId) (x : Cd) (m : Sm) (mean scale : Nat → BitVec 32) : List (Nat × Rg) → SmOut → Rd × Except Act SmOut
  | [], o => (s, .ok o)
  | (j, r) :: l, o =>
    let (lr, cr) := rgReads m r
    match cardReads s u lr [] with
    | (s, .error a) => (s, .error a)
    | (s, .ok luma) =>
      match cardReads s u cr [] with
      | (s, .error a) => (s, .error a)
      | (s, .ok chroma) =>
        let (_, nx) := clip (r.x0 + m.jx) r.w m.w
        let (_, ny) := clip (r.y0 + m.jy) r.h m.h
        let bad := ((luma.zip lr) ++ (chroma.zip cr)).findSome? (fun z => if z.1.bad = [] then Option.none else some z.2.1)
        let rw_ := r.w / x.d
        let rh := r.h / x.d
        doRegions s u x m mean scale l { o with
          cells := o.cells ++ [(j, cellOf x m r luma chroma mean scale)]
          poison := match o.poison with | some a => some a | Option.none => bad
          pixels := o.pixels + r.w * r.h
          outFrame := o.outFrame + (r.w * r.h - nx * ny)
          clipped := o.clipped + (rw_ * rh - min rw_ x.w * min rh x.h) }

/-- Bytes of a region list up to the end of the line that holds its header: the list's first read. -/
def headLen (va : Nat) : Nat := ((va + 15) / 64 + 1) * 64 - va

/-- A region list of n regions, the rest of it read line by line after its head. -/
def restOfList (s : Rd) (u : SpoolId) (va n : Nat) (hd : Src) : Rd × Except Act Src :=
  let k := headLen va
  if 16 + 16 * n ≤ k then (s, .ok hd)
  else
    match cardRead s u ((va + k) % 2 ^ 64) (16 + 16 * n - k) with
    | (s, .error a) => (s, .error a)
    | (s, .ok x) => (s, .ok ⟨hd.bytes ++ x.bytes, hd.bad ++ x.bad.map (fun b => (b.1 + k, b.2))⟩)

/-- One sample of an image command (R175 to R177); its descriptor and its region list are read once (R176). Poison of either is poison
of the sample. -/
def doSample (s : Rd) (u : SpoolId) (x : Cd) (mean scale : Nat → BitVec 32) (i : Nat) : Rd × Except Act SmOut :=
  match cardRead s u ((x.desc + 64 * i) % 2 ^ 64) 64 with
  | (s, .error a) => (s, .error a)
  | (s, .ok d) =>
    if d.bad ≠ [] then (s, .ok { SmOut.none with poison := some (x.desc + 64 * i) })
    else if smBad x.ch1 d.bytes then (s, .ok { SmOut.none with err := true })
    else
      let m := smOf d.bytes
      let whole : Rg := ⟨0, 0, m.w, m.h⟩
      if m.regionVa = 0 then doRegions s u x m mean scale [(0, whole)] SmOut.none
      else
        match cardRead s u m.regionVa (headLen m.regionVa) with
        | (s, .error a) => (s, .error a)
        | (s, .ok hd) =>
          let n := u16At hd.bytes 0
          if hd.poisoned 0 16 then (s, .ok { SmOut.none with poison := some m.regionVa })
          else if 64 < n then (s, .ok { SmOut.none with err := true })
          else
            match restOfList s u m.regionVa n hd with
            | (s, .error a) => (s, .error a)
            | (s, .ok rl) =>
              let rs := (List.range (min n x.slots)).map (fun j => (j, rgOf rl.bytes j))
              if rs.any (fun r => rgBad r.2) then
                (s, .ok { SmOut.none with err := true, poison := if rl.poisoned 0 (16 + 16 * n) then some m.regionVa else Option.none })
              else if rl.poisoned 0 (16 + 16 * n) then (s, .ok { SmOut.none with poison := some m.regionVa })
              else doRegions s u x m mean scale rs SmOut.none

/-- The cell that row r of the view belongs to (R181). -/
def Cd.rowCell (x : Cd) (r : Nat) : Nat :=
  if x.layout = 1 then r / (x.chans * x.h) else if x.p = 0 then r / x.h else r / (x.h / x.p * (x.w / x.p))

/-- The value of the output at row r and column j of the view (R181). A sample in error or with poison is all zeros. -/
def imageVal (x : Cd) (os : List SmOut) (r j : Nat) : BitVec 32 :=
  let (cell, c, y, px) : Nat × Nat × Nat × Nat :=
    if x.layout = 1 then (r / (x.chans * x.h), r / x.h % x.chans, r % x.h, j)
    else if x.p = 0 then (r / x.h, j % x.chans, r % x.h, j / x.chans)
    else
      let per := x.h / x.p * (x.w / x.p)
      let k := r % per
      (r / per, j % x.chans, k / (x.w / x.p) * x.p + j / (x.p * x.chans), k % (x.w / x.p) * x.p + j / x.chans % x.p)
  let o := os.getD (cell / x.slots) SmOut.none
  if o.err ∨ o.poison.isSome then 0
  else
    match o.cells.find? (fun z => decide (z.1 = cell % x.slots)) with
    | some z => z.2 c y px
    | Option.none => 0

/-- The random bits of an output element (R101, R179). -/
def cardBits (x : Cd) (step r j : Nat) : Nat := srBits step x.tensor (x.tile + r / 128 * cdiv x.rowLen 128 + j / 128) (r % 128) (j % 128)

/-- The unit a sample runs on: the hand-out over time is not fixed by the manual (R172), so it is a free choice among the
command's units. -/
def drawUnit (s : State) (units : List Nat) : Nat × State :=
  let (w, s) := drawFree s
  (units.getD (w.toNat % units.length) 0, s)

/-- A sample counted at its unit and in its partition's window. -/
def countSample (s : State) (part i : Nat) (o : SmOut) : State :=
  let s := advance (advance s (rCuPixels i) fCuPixelsPixels o.pixels) (rCarderPPixels part) fCarderPPixelsPixels o.pixels
  let s := advance (advance s (rCuOutOfFrame i) fCuOutOfFrameOutOfFrame o.outFrame) (rCuRoiClip i) fCuRoiClipRoiClip o.clipped
  if o.err then bump (bump s (rCuSampleErr i) fCuSampleErrSampleErr 1) (rCarderPSampleErr part) fCarderPSampleErrSampleErr 1 else s

/-- The i-th sample of a CARD is done: it runs on a unit, which `count` counts it at, and poison in it is consumed (R184, R215). A sample
counted before a stall is not counted again. -/
def sampleDone (r : Rd) (u : SpoolId) (units : List Nat) (i : Nat) (poison : Option Nat) (count : State → Nat → State) : Rd :=
  if i < r.c.units.length then r
  else
    let (k, s) := drawUnit r.s units
    let s := count s k
    let s := match poison with
      | some a => cmdPoison s u r.c.step a
      | Option.none => s
    { r with s := s, c := { r.c with units := r.c.units ++ [k] } }

def doSamples (r : Rd) (u : SpoolId) (x : Cd) (units : List Nat) (mean scale : Nat → BitVec 32) : List Nat → List SmOut → Rd × Except Act (List SmOut)
  | [], acc => (r, .ok acc)
  | i :: l, acc =>
    match doSample r u x mean scale i with
    | (r, .error a) => (r, .error a)
    | (r, .ok o) =>
      let r := sampleDone r u units i o.poison (fun s k => countSample s (ctxPart r.s u.e u.n) k o)
      doSamples r u x units mean scale l (acc ++ [o])

/-- The destination of a CARD: its bobbin FILLING, or its pieces. -/
def cardDst (s : State) (u : SpoolId) (x : Cd) (n : Nat) : State × Except Act Tgt :=
  if x.dstBob then (s, .ok (.mpa (bobBase s u.e x.db + x.dst)))
  else
    match reach s (hubReq s u 5 true false) x.dst n with
    | (s, .ok ps) => (s, .ok (.pieces ps))
    | (s, .error a) => (s, .error a.started)

/-- A CARD's command while it runs. -/
def cdCmd (c : Cmd) (x : Cd) : Cmd := { c with fills := if x.dstBob then [x.db] else [], readers := x.readers, cont := x.cont }

/-- The start of a CARD: shares, units, its destination bobbin (R157, R172, R173), then the work. -/
def cardBody (work : SpoolId → State → Cmd → Cd → List Nat → State × Cmd × Act) (u : SpoolId) (s : State) (c : Cmd) : State × Cmd × Act :=
  let x := cdOf c.bytes
  let units := cardUnits s x
  if (objNat s (oCarderShareP (ctxPart s u.e u.n)) = 0 ∧ c.log = []) ∨ units = [] then (s, c, .ends stResource 0)
  else if x.dstBob ∧ ¬outReady s u c.slot x.db then (s, c, .waits)
  else
    let s := if x.dstBob then bobFill s u c.slot x.db x.cont else s
    work u s (cdCmd c x) x units

/-- Clipped and flushed elements of a row, at the unit that its sample ran on (R179). -/
def countMarks (s : State) (i : Nat) (q : QRow) : State :=
  advance s (rCuClippedFlushed i) fCuClippedFlushedClippedFlushed (q.quants.filter (fun e => e.clipped || e.flushed)).length

/-- The rows of a batch of images written out, and the marks of each at the unit of its sample (R177 to R181). -/
def imagePut (s : State) (c : Cmd) (x : Cd) (f : Fmt) (t : Tgt) (os : List SmOut) : State :=
  let qs := (List.range x.rows).map (fun r => quantRow f x.rnd x.texp ((List.range x.rowLen).map (imageVal x os r)) (cardBits x c.step r))
  (List.range x.rows).foldl (fun s r => countMarks s (c.units.getD (x.rowCell r / x.slots) 0) (qs.getD r ⟨[], []⟩))
    (putAll s t (outWrites f x.skew x.rows x.rowLen x.t x.pitch qs))

/-- The status and the detail of a batch of images: samples in error in bits [63:32], the others below (R175, R184). -/
def imageStatus (os : List SmOut) : Nat := if os.any (fun o => o.poison.isSome) then stPoison else stOk
def imageDetail (x : Cd) (os : List SmOut) : Nat := x.count - (os.filter (fun o => o.err)).length + (os.filter (fun o => o.err)).length * 2 ^ 32

/-- Image mode (R177 to R181, R184). -/
def imageWork (u : SpoolId) (s : State) (c : Cmd) (x : Cd) (units : List Nat) : State × Cmd × Act :=
  match x.format with
  | Option.none => (s, c, .ends stFormat 0)
  | some f =>
    let n := x.outLen f
    let c := if x.dstBob then c else { c with outBase := x.dst, outLen := n }
    let mean (i : Nat) : BitVec 32 := f16At c.bytes (52 + 2 * i)
    let scale (i : Nat) : BitVec 32 := f16At c.bytes (58 + 2 * i)
    match doSamples ⟨s, c, 0⟩ u x units mean scale (List.range x.count) [] with
    | (r, .error a) => (r.s, r.c, a)
    | (r, .ok os) =>
      let c := r.c
      match cardDst r.s u x n with
      | (s, .error a) => (s, c, a)
      | (s, .ok t) => (imagePut s c x f t os, c, .ends (imageStatus os) (imageDetail x os))

/-- CARD in image mode (R177). -/
def execCardImage (u : SpoolId) (s : State) : Host.Outcome State Fault Refusal :=
  .next (runCmd s u (fun b => decide (u8At b 0 = 0x30) && decide (u8At b 8 % 4 = 0)) (imageBad u) cardBobs (cardBody imageWork u))

/-! ### Skeins (R182, R183) -/

/-- A slot of a skein: token, position within its sample, segment. -/
structure Slot where
  token : Nat
  pos : Nat
  seg : Nat

/-- A skein being packed. -/
structure Skein where
  first : Nat
  firstPos : Nat
  segs : Nat
  slots : List Slot

/-- A token sample: its tokens, whether cut, whether its source was poisoned. -/
structure Tok where
  toks : List Nat
  cut : Bool
  poison : Option Nat

/-- Room in the open skein. -/
def skRest (len : Nat) (sk : List Skein) : Nat := match sk.getLast? with
  | some k => if 65535 ≤ k.segs then 0 else len - k.slots.length
  | Option.none => 0

/-- Tokens appended as one segment to the open skein. -/
def skAppend (sk : List Skein) (toks : List Nat) (pos : Nat) : List Skein :=
  match sk.getLast? with
  | some k => sk.dropLast ++ [{ k with segs := k.segs + 1, slots := k.slots ++ (List.range toks.length).map (fun i => ⟨toks.getD i 0, pos + i, k.segs⟩) }]
  | Option.none => sk

/-- A sample's tokens put from position `pos` on, over as many skeins as it takes. -/
def skSplit (len i : Nat) : Nat → List Skein → List Nat → Nat → List Skein
  | 0, sk, _, _ => sk
  | k + 1, sk, toks, pos =>
    if toks.isEmpty then sk
    else if skRest len sk = 0 then skSplit len i k (sk ++ [⟨i, pos, 0, []⟩]) toks pos
    else
      let n := min (skRest len sk) toks.length
      skSplit len i k (skAppend sk (toks.take n) pos) (toks.drop n) (pos + n)

/-- The skeins after sample i, or none where it would need one more than the capacity (R182). -/
def skPut (x : Cd) (i : Nat) (sk : List Skein) (t : Tok) : Option (List Skein) :=
  let out :=
    if t.toks.isEmpty then sk
    else if x.split then skSplit x.len i (2 * t.toks.length + 2) sk t.toks 0
    else if t.toks.length ≤ skRest x.len sk then skAppend sk t.toks 0
    else skAppend (sk ++ [⟨i, 0, 0, []⟩]) t.toks 0
  if out.length ≤ x.pitch then some out else Option.none

/-- The list packed up to the first sample that does not fit: skeins and samples packed. -/
def skPack (x : Cd) : List Tok → Nat → List Skein → List Skein × Nat
  | [], i, sk => (sk, i)
  | t :: l, i, sk => match skPut x i sk t with
    | some sk => skPack x l (i + 1) sk
    | Option.none => (sk, i)

/-- A token sample read: its entry, then its tokens. A sample that cannot be packed is not looked at beyond the first. -/
def doTok (s : Rd) (u : SpoolId) (x : Cd) (i : Nat) : Rd × Except Act Tok :=
  match cardRead s u ((x.desc + 16 * i) % 2 ^ 64) 16 with
  | (s, .error a) => (s, .error a)
  | (s, .ok d) =>
    if d.bad ≠ [] then (s, .ok ⟨[], false, some (x.desc + 16 * i)⟩)
    else
      let n := u32At d.bytes 8
      let cut := !x.split && decide (x.len < n)
      let n := if cut then x.len else n
      let w := if x.wide then 4 else 2
      match cardRead s u (u64At d.bytes 0) (n * w) with
      | (s, .error a) => (s, .error a)
      | (s, .ok src) =>
        let toks := (List.range n).map (fun k => if x.wide then u32At src.bytes (4 * k) else u16At src.bytes (2 * k))
        if src.bad = [] then (s, .ok ⟨toks, cut, Option.none⟩) else (s, .ok ⟨toks.map (fun _ => 0), cut, some (u64At d.bytes 0)⟩)

/-- A packed sample counted at its unit. -/
def countTok (t : Tok) (s : State) (i : Nat) : State :=
  let s := advance s (rCuTokens i) fCuTokensTokens t.toks.length
  if t.cut then bump s (rCuTruncated i) fCuTruncatedTruncated 1 else s

/-- Samples read and packed in list order until one does not fit. -/
def doToks (s : Rd) (u : SpoolId) (x : Cd) (units : List Nat) : Nat → Nat → List Tok → List Skein → Rd × Except Act (List Tok × List Skein)
  | 0, _, ts, sk => (s, .ok (ts, sk))
  | k + 1, i, ts, sk =>
    match doTok s u x i with
    | (s, .error a) => (s, .error a)
    | (s, .ok t) => match skPut x i sk t with
      | some sk => doToks (sampleDone s u units i t.poison (countTok t)) u x units k (i + 1) (ts ++ [t]) sk
      | Option.none => (s, .ok (ts, sk))

/-- The tokens, marks and record of a skein (R182, R183). -/
def skTokens (x : Cd) (pad : Nat) (k : Skein) : Bytes :=
  (List.range x.len).flatMap (fun i => natLE 4 (if h : i < k.slots.length then (k.slots[i]).token else pad))
def skMarks (x : Cd) (k : Skein) : Bytes :=
  (List.range x.len).flatMap (fun i => natLE 4 (if h : i < k.slots.length then (k.slots[i]).pos % 65536 + 65536 * (k.slots[i]).seg else 0xFFFF0000))
def skRecord (k : Skein) : Bytes := natLE 4 k.first ++ natLE 4 k.firstPos ++ natLE 4 k.segs ++ natLE 4 k.slots.length

/-- The skeins, their marks and their records written out (R182, R183). -/
def skeinsPut (s : State) (x : Cd) (pad : Nat) (sk : List Skein) (t : Tgt) (ms rs : List Piece) : State :=
  piecesWrite (piecesWrite (t.put s 0 (sk.flatMap (skTokens x pad))) ms (sk.flatMap (skMarks x))) rs (sk.flatMap skRecord)

/-- The status and the detail of a batch of token samples: skeins in bits [63:32], samples packed below (R184). -/
def tokensStatus (ts : List Tok) : Nat := if ts.any (fun k => k.poison.isSome) then stPoison else stOk
def tokensDetail (ts : List Tok) (sk : List Skein) : Nat := ts.length + sk.length * 2 ^ 32

/-- Token mode (R182 to R184). -/
def tokensWork (u : SpoolId) (s : State) (c : Cmd) (x : Cd) (units : List Nat) : State × Cmd × Act :=
  let segVa := u64At c.bytes 52
  let pad := u32At c.bytes 60
  match doToks ⟨s, c, 0⟩ u x units x.count 0 [] [] with
  | (r, .error a) => (r.s, r.c, a)
  | (r, .ok (ts, sk)) =>
    let n := 4 * x.len * sk.length
    let c := if x.dstBob then r.c else { r.c with outBase := x.dst, outLen := n }
    match cardDst r.s u x n with
    | (s, .error a) => (s, c, a)
    | (s, .ok t) =>
      match reach s (hubReq s u 5 true false) segVa n with
      | (s, .error a) => (s, c, a.started)
      | (s, .ok ms) =>
        match reach s (hubReq s u 5 true false) ((segVa + 4 * x.len * x.pitch) % 2 ^ 64) (16 * sk.length) with
        | (s, .error a) => (s, c, a.started)
        | (s, .ok rs) => (skeinsPut s x pad sk t ms rs, c, .ends (tokensStatus ts) (tokensDetail ts sk))

/-- CARD in token mode (R182). -/
def execCardTokens (u : SpoolId) (s : State) : Host.Outcome State Fault Refusal :=
  .next (runCmd s u (fun b => decide (u8At b 0 = 0x30) && decide (u8At b 8 % 4 = 1)) (tokensBad u) cardBobs (cardBody tokensWork u))

end Sys2Proof.Machine
end

