-- ==== Sys2Proof/Machine/Transc.lean ====
section
/-! DEFINITION. The transcendental operations of the vector unit (R138). Each exact value is formed in 200-bit fixed point; a
result is any FP32 value within the rule's bound, chosen by `Config.vuTrans`, or the correctly rounded one where that
choice does not meet the bound. -/

namespace Sys2Proof.Machine

open Sys2Proof

/-- 1.0, ln 2 and 2 / sqrt pi in fixed point with 200 fraction bits. -/
def fxOne : Int := 2 ^ 200
def fxLn2 : Int := 1113844574712631719546256151097547306333272293549090750737802
def fxErf : Int := 1813235411955051368075975534027907639852476658415964181376627

/-- A value in fixed point, truncated. -/
def fxOf (d : Dy) : Int := d.truncAt (-200)

/-- The exponential series from term `t` of index `i`. -/
def fxExpFrom (x : Int) : Nat → Int → Int → Int
  | 0, _, acc => acc
  | k + 1, t, acc => fxExpFrom x k (t * x / fxOne / (61 - (k + 1) : Int)) (acc + t * x / fxOne / (61 - (k + 1) : Int))

/-- e to the x, x in fixed point: the power of two and the series of the remainder. -/
def expDy (x : Int) : Dy :=
  let k := (x + fxLn2 / 2) / fxLn2
  ⟨fxExpFrom (x - k * fxLn2) 60 fxOne fxOne, k - 200⟩

/-- The series of 2 artanh z. -/
def fxArtanh (z z2 : Int) : Nat → Int → Int → Int
  | 0, _, acc => 2 * acc
  | k + 1, p, acc => fxArtanh z z2 k (p * z2 / fxOne) (acc + p / (2 * (70 - (k + 1)) + 1 : Int))

/-- ln x of a positive value, with the mantissa brought near 1. -/
def logDy (d : Dy) : Dy :=
  let b := d.binade
  let m := fxOf ⟨d.m, d.e - b⟩
  let (m, b) := if 3 * fxOne < 2 * m then (m / 2, b + 1) else (m, b)
  let z := (m - fxOne) * fxOne / (m + fxOne)
  ⟨b * fxLn2 + fxArtanh z (z * z / fxOne) 70 z 0, -200⟩

/-- The error-function series: term n of x^(2n+1) / n! with alternating sign. -/
def fxErfFrom (x2 : Int) : Nat → Nat → Int → Int → Int
  | 0, _, _, acc => acc
  | k + 1, n, t, acc => fxErfFrom x2 k (n + 1) (-(t * x2 / fxOne / (n + 1 : Int))) (acc + t / (2 * n + 1 : Int))

/-- erf x. -/
def erfDy (d : Dy) : Dy :=
  let x := fxOf d
  ⟨fxErfFrom (x * x / fxOne) 140 0 x 0 * fxErf / fxOne, -200⟩

/-- A quotient of fixed-point numbers. -/
def fxDiv (a b : Int) : Dy := ⟨a * fxOne / b, -200⟩

/-- tanh x from e to the 2x. -/
def tanhDy (d : Dy) : Dy :=
  let ex := expDy (2 * fxOf d.abs)
  let v := ex.truncAt (-200)
  let t := fxDiv (v - fxOne) (v + fxOne)
  if d.isNeg then t.neg else t

/-- 1 / sqrt x of a positive value. -/
def rsqrtDy (d : Dy) : Dy :=
  let odd := decide (d.e % 2 ≠ 0)
  let m := if odd then d.m.natAbs * 2 else d.m.natAbs
  let e := if odd then d.e - 1 else d.e
  ⟨isqrt (4 ^ 100 / m), -100 - e / 2⟩

/-- 1 / x. -/
def recipDy (d : Dy) : Dy := ⟨(if d.isNeg then -1 else 1) * (2 ^ 200 / d.m.natAbs : Nat), -200 - d.e⟩

/-- A result within `n` units in the last place of an exact value. -/
def within (n : Nat) (exact : Dy) (r : BitVec 32) : Bool :=
  match f32Dec r with
  | .fin v =>
    let d := (v.sub exact).abs
    let unit := if exact.isZero then -149 else ffB32.lsb exact.binade
    d.le ⟨n, unit⟩
  | _ => false

/-- The result of a transcendental operation with an exact value (R138). -/
def bounded (op n : Nat) (x : BitVec 32) (exact : Dy) : BitVec 32 :=
  if within n exact (Config.vuTrans op x) then Config.vuTrans op x else f32Of (.fin exact)

/-- 88.722, -103.973, 9.01 and 3.92 as fractions of 1000. -/
def milli (n : Int) (x : Dy) : Bool := Dy.le ⟨n, 0⟩ (Dy.mul x ⟨1000, 0⟩)

/-- EXP (R138). -/
def vuExp (x : BitVec 32) : BitVec 32 :=
  match f32Dec x with
  | .nan => f32Nan
  | .inf n => if n then 0 else f32Inf false
  | .fin d =>
    if milli 88722 d ∧ ¬Dy.le (Dy.mul d ⟨1000, 0⟩) ⟨88722, 0⟩ then f32Inf false
    else if (Dy.mul d ⟨1000, 0⟩).lt ⟨-103973, 0⟩ then 0
    else bounded 0x10 2 x (expDy (fxOf d))

/-- LOG (R138). -/
def vuLog (x : BitVec 32) : BitVec 32 :=
  match f32Dec x with
  | .nan => f32Nan
  | .inf n => if n then f32Nan else f32Inf false
  | .fin d => if d.isZero then f32Inf true else if d.isNeg then f32Nan else bounded 0x11 2 x (logDy d)

/-- RSQRT (R138). -/
def vuRsqrt (x : BitVec 32) : BitVec 32 :=
  match f32Dec x with
  | .nan => f32Nan
  | .inf n => if n then f32Nan else 0
  | .fin d => if d.isZero then f32Inf (f32Neg x) else if d.isNeg then f32Nan else bounded 0x12 1 x (rsqrtDy d)

/-- RECIP (R138). -/
def vuRecip (x : BitVec 32) : BitVec 32 :=
  match f32Dec x with
  | .nan => f32Nan
  | .inf n => if n then 0x80000000 else 0
  | .fin d => if d.isZero then f32Inf (f32Neg x) else bounded 0x15 1 x (recipDy d)

/-- ±1 by the sign of a value. -/
def f32One (neg : Bool) : BitVec 32 := if neg then 0xBF800000 else 0x3F800000

/-- TANH (R138). -/
def vuTanh (x : BitVec 32) : BitVec 32 :=
  match f32Dec x with
  | .nan => f32Nan
  | .inf n => f32One n
  | .fin d => if milli 9010 d.abs then f32One d.isNeg else bounded 0x13 2 x (tanhDy d)

/-- ERF (R138). -/
def vuErf (x : BitVec 32) : BitVec 32 :=
  match f32Dec x with
  | .nan => f32Nan
  | .inf n => f32One n
  | .fin d => if milli 3920 d.abs then f32One d.isNeg else bounded 0x14 2 x (erfDy d)

end Sys2Proof.Machine
end

