-- ==== Sys2Proof/Machine/Vector.lean ====
section
/-! DEFINITION. VECOP (R132 to R139): the vector unit's operations over rows of bobbin operands. -/

namespace Sys2Proof.Machine

open Sys2Proof

/-- The fields of a VECOP. -/
structure Vo where
  op : Nat
  fx : Nat
  fy : Nat
  fo : Nat
  rnd : Nat
  skew : Bool
  causal : Bool
  tx : Int
  ty : Int
  tc : Int
  k : Nat
  rows : Nat
  tensor : Nat
  tile : Nat
  x : Nat
  y : Nat
  out : Nat
  aux : Nat
  xOff : Nat
  yOff : Nat
  outOff : Nat
  auxOff : Nat
  xPitch : Nat
  yPitch : Nat
  outPitch : Nat
  t : Nat
  scalar : BitVec 32
  q0 : Nat
  k0 : Nat

def voOf (b : Bytes) : Vo :=
  let w := u32At b 8
  { op := w % 64, fx := natField w 10 6, fy := natField w 15 11, fo := natField w 20 16, rnd := natField w 22 21
    skew := bitOf w 23, causal := bitOf w 24, tx := i8At b 12, ty := i8At b 13, tc := i8At b 14, k := u32At b 16, rows := u32At b 20
    tensor := u16At b 24, tile := u32At b 28, x := u8At b 32, y := u8At b 33, out := u8At b 34, aux := u8At b 35
    xOff := u24At b 36, yOff := u24At b 40, outOff := u24At b 44, auxOff := u24At b 48, xPitch := u16At b 52, yPitch := u16At b 54
    outPitch := u16At b 56, t := u16At b 58, scalar := BitVec.ofNat 32 (u32At b 60), q0 := u16At b 60, k0 := u16At b 62 }

/-! ### The operations and their operands -/

def voOps : List Nat :=
  (List.range 10) ++ [0x10, 0x11, 0x12, 0x13, 0x14, 0x15, 0x20, 0x21, 0x22, 0x23, 0x28, 0x29, 0x2A, 0x2B, 0x30, 0x38, 0x39, 0x3A]

/-- Operations with Y as a row-major operand, with Y as indices, with an output, with AUX as row state read or written. -/
def Vo.useY (v : Vo) : Bool := decide (1 ≤ v.op) && decide (v.op ≤ 7) 
def Vo.idxY (v : Vo) : Bool := decide (0x38 ≤ v.op)
def Vo.useOut (v : Vo) : Bool := !(decide (0x20 ≤ v.op) && decide (v.op ≤ 0x28))
def Vo.auxIn (v : Vo) : Bool := decide (0x28 ≤ v.op) && decide (v.op ≤ 0x2B)
def Vo.auxOut (v : Vo) : Bool := decide (0x20 ≤ v.op) && decide (v.op ≤ 0x29)
def Vo.mask (v : Vo) : Bool := decide (v.op = 0x30)
def Vo.gather (v : Vo) : Bool := decide (v.op = 0x38)
def Vo.scatter (v : Vo) : Bool := decide (v.op = 0x39) || decide (v.op = 0x3A)
/-- SCATTER_ADD reads and writes OUT. -/
def Vo.addsOut (v : Vo) : Bool := decide (v.op = 0x3A)

/-- ABS and MIN, MAX, SCALE share the codes 6 to 9 with one operand or two. -/
def Vo.binary (v : Vo) : Bool := v.useY

/-- Bobbins read, and bobbins written. -/
def Vo.ins (v : Vo) : List Nat :=
  ([v.x] ++ (if v.binary || v.idxY || v.mask then [v.y] else []) ++ (if v.auxIn || v.mask then [v.aux] else []) ++
    (if v.addsOut then [v.out] else [])).dedup
def Vo.outs (v : Vo) : List Nat := ((if v.useOut then [v.out] else []) ++ (if v.auxOut then [v.aux] else [])).dedup
/-- Outputs that the command does not also read: these it fills (R157). -/
def Vo.fillsOf (v : Vo) : List Nat := v.outs.filter (fun b => !v.ins.elem b)
/-- Inputs that the command does not also write: of these a read counts. -/
def Vo.readsOf (v : Vo) : List Nat := v.ins.filter (fun b => !v.outs.elem b)
def Vo.bobs (v : Vo) : List Nat := (v.ins ++ v.outs).dedup

/-- The conditions of R134, R35, R47 and R147. The pitches are multiples of 4, used or not; one below a row's bytes lets rows overlap
(log 123). -/
def voBad (u : SpoolId) (s : State) (c : Cmd) : Bool :=
  let b := c.bytes
  let v := voOf b
  match drainFmt v.fx, drainFmt v.fy, drainFmt v.fo with
  | some fx, some fy, some fo =>
    !(voOps.elem v.op && decide (u32At b 8 / 2 ^ 25 = 0) && zeroSpan b 15 1 && zeroSpan b 26 2 && zeroSpan b 39 1 && zeroSpan b 43 1 &&
      zeroSpan b 47 1 && zeroSpan b 51 1 && decide (v.rnd < 3) && decide (v.tx ≠ -128) && decide (v.ty ≠ -128) && decide (v.tc ≠ -128) &&
      inRange v.k 1 (2 ^ 20) && inRange v.rows 1 (2 ^ 20) && decide (v.k * v.rows ≤ 2 ^ 24) &&
      decide (v.xPitch % 4 = 0) && decide (v.yPitch % 4 = 0) && decide (v.outPitch % 4 = 0) &&
      (!v.useOut || !v.skew || (layPitchOk fo v.outPitch && inRange v.t 1 512)) &&
      v.bobs.all (fun x => decide (x ≠ 0xFF))) ||
      (!v.gather && beyond s u v.x v.xOff (fx.planes v.rows v.k v.xPitch)) ||
      (v.gather && beyond s u v.x v.xOff 0) ||
      (v.binary && beyond s u v.y v.yOff (fy.planes v.rows v.k v.yPitch)) ||
      (v.idxY && beyond s u v.y v.yOff ((v.rows - 1) * v.yPitch + 4 * v.k)) ||
      (v.mask && (beyond s u v.y v.yOff (4 * (v.q0 + v.rows)) || beyond s u v.aux v.auxOff (4 * (v.k0 + v.k)))) ||
      ((v.auxIn || v.auxOut) && beyond s u v.aux v.auxOff (16 * v.rows)) ||
      (v.useOut && !v.scatter && beyond s u v.out v.outOff (outBytes fo v.skew v.rows v.k v.t v.outPitch)) ||
      (v.scatter && beyond s u v.out v.outOff 0)
  | _, _, _ => true

/-! ### Elements -/

/-- A decoded element as an FP32 lane value: scaled by its tensor exponent and rounded once. A zero keeps its sign for the
special cases of R138 (DEDUCED, log 18). An element of Z8 or Z4 takes R53's rounding to ten bits here too, where R53 names only the
expander (DESIGN CHOICE, log 130). -/
def laneOf (f : Fmt) (texp : Int) (code scale zp : Nat) : BitVec 32 :=
  match f.dec code scale zp with
  | .fin d =>
    if d.isZero then
      match f.elem with
      | .flt g => if decide (code / 2 ^ (g.mb + g.eb) % 2 = 1) then 0x80000000 else 0
      | _ => 0
    else f32Sign d.isNeg (f32Of (.fin (d.scale texp)))
  | x => f32Of x

/-- Element (r, j) of a row-major operand as the unit sees it; a poisoned element is NaN (R215). -/
def laneAt (f : Fmt) (texp : Int) (src : Src) (rows k pitch r j : Nat) : BitVec 32 :=
  if rowMajorBad f src rows k pitch r j then f32Nan
  else
    let (c, sc, zp) := rowMajor f src.bytes rows k pitch r j
    laneOf f texp c sc zp

/-- Absolute value of a code. -/
def f32Abs (x : BitVec 32) : BitVec 32 := if f32Dec x = .nan then f32Nan else x &&& 0x7FFFFFFF

/-- The smaller or the larger of two values; with a NaN operand the result is free (the manual names none). -/
def vuMin (op : Nat) (a b : BitVec 32) : BitVec 32 :=
  if f32Dec a = .nan ∨ f32Dec b = .nan then Config.vuNan op a b else if numLt (f32Dec b) (f32Dec a) then b else a
def vuMax (op : Nat) (a b : BitVec 32) : BitVec 32 :=
  if f32Dec a = .nan ∨ f32Dec b = .nan then Config.vuNan op a b else if numLt (f32Dec a) (f32Dec b) then b else a

/-! ### Sums in the tree order (R135) -/

def LaneTree.leaves : Sys2Proof.LaneTree → List Nat
  | .leaf i => [i]
  | .node l r => LaneTree.leaves l ++ LaneTree.leaves r

def LaneTree.sum (xs : List (BitVec 32)) : Sys2Proof.LaneTree → BitVec 32
  | .leaf i => xs.getD i 0
  | .node l r => f32Add (LaneTree.sum xs l) (LaneTree.sum xs r)

/-- One level of the balanced tree: neighbours added. -/
def pairUp : List (BitVec 32) → List (BitVec 32)
  | a :: b :: l => f32Add a b :: pairUp l
  | l => l
def balanced : Nat → List (BitVec 32) → BitVec 32
  | 0, l => l.headD 0
  | k + 1, l => match l with
    | [] => 0
    | [a] => a
    | l => balanced k (pairUp l)

/-- The lanes of one beat summed in the unit's fixed tree; a shape that does not visit every lane once in ascending order is
none the manual allows, and the balanced one stands in its place. -/
def laneSum (xs : List (BitVec 32)) : BitVec 32 :=
  let t := Config.laneTree xs.length
  if LaneTree.leaves t = List.range xs.length then LaneTree.sum xs t else balanced 21 xs

/-- A row's sum: its beats of 1,024 lanes in ascending order, onto a starting value if there is one. -/
def rowSum (start : Option (BitVec 32)) (xs : List (BitVec 32)) : BitVec 32 :=
  let beats := (chunks 1024 (xs.length + 1) xs).map laneSum
  match start, beats with
  | some a, bs => bs.foldl f32Add a
  | none, b :: bs => bs.foldl f32Add b
  | none, [] => 0

/-! ### Rows -/

/-- The row state of AUX: M, L, C (R133). -/
structure RowSt where
  m : BitVec 32
  l : BitVec 32
  c : BitVec 32

/-- The element operations (0x00 to 0x15). -/
def elemOp (v : Vo) (x y : BitVec 32) : BitVec 32 :=
  match v.op with
  | 0x00 => x
  | 0x01 => f32Add x y
  | 0x02 => f32Sub x y
  | 0x03 => f32Mul x y
  | 0x04 => f32Fma x y v.scalar
  | 0x05 => f32Fma v.scalar x y
  | 0x06 => vuMin 0x06 x y
  | 0x07 => vuMax 0x07 x y
  | 0x08 => f32Abs x
  | 0x09 => f32Mul v.scalar x
  | 0x10 => vuExp x
  | 0x11 => vuLog x
  | 0x12 => vuRsqrt x
  | 0x13 => vuTanh x
  | 0x14 => vuErf x
  | _ => vuRecip x

/-- The largest of a nonempty row. -/
def rowMax (op : Nat) : List (BitVec 32) → BitVec 32
  | [] => f32Inf true
  | x :: xs => xs.foldl (vuMax op) x

/-- One row: what goes to OUT, and the row state afterwards (R134, R135). -/
def rowOp (v : Vo) (st : RowSt) (xs ys : List (BitVec 32)) (same : Nat → Bool) : List (BitVec 32) × RowSt :=
  match v.op with
  | 0x20 => ([], { st with m := rowSum none xs })
  | 0x21 => ([], { st with m := rowMax 0x21 xs })
  | 0x22 => ([], { st with m := rowMax 0x22 (xs.map f32Abs) })
  | 0x23 => ([], { st with m := rowSum none (xs.map (fun x => f32Mul x x)) })
  | 0x28 =>
    let m' := vuMax 0x28 st.m (rowMax 0x28 xs)
    if m' = f32Inf true then ([], { st with m := m', c := 0x3F800000 })
    else
      let c := vuExp (f32Sub st.m m')
      ([], { m := m', l := f32Mul st.l c, c := c })
  | 0x29 =>
    let os := xs.map (fun x => vuExp (f32Sub x st.m))
    (os, { st with l := rowSum (some st.l) os })
  | 0x2A => (if f32Dec st.l = .fin Dy.zero ∨ st.l = 0x80000000 then xs.map (fun _ => 0) else xs.map (fun x => f32Mul x (vuRecip st.l)), st)
  | 0x2B => (xs.map (fun x => f32Mul x st.c), st)
  | 0x30 => ((List.range xs.length).map (fun j => if same j then xs.getD j 0 else f32Inf true), st)
  | _ => ((List.range xs.length).map (fun j => elemOp v (xs.getD j 0) (ys.getD j 0)), st)

/-! ### The command -/

/-- Operands as read: X, Y, AUX and the bytes of OUT's bobbin. -/
structure VoSrc where
  x : Src
  y : Src
  aux : Src

/-- The random bits of element (r, j) (R101, R133). -/
def voBits (v : Vo) (step r j : Nat) : Nat := srBits step v.tensor (v.tile + r / 128 * cdiv v.k 128 + j / 128) (r % 128) (j % 128)

/-- Beats of the command (R136). -/
def voBeats (v : Vo) : Nat := if 1024 ≤ v.k then cdiv v.k 1024 * v.rows else cdiv v.rows (1024 / 2 ^ clog2 v.k)

/-- The segment id of a mark (R183). -/
def segOf (bs : Bytes) (o : Nat) : Nat := u32At bs o / 65536

/-- The index of element (r, j); none where its entry is poisoned. -/
def voIdx (v : Vo) (q : VoSrc) (r j : Nat) : Option Nat :=
  let o := r * v.yPitch + 4 * j
  if q.y.poisoned o 4 then none else some (u32At q.y.bytes o)

/-- Every element of the command, row by row. -/
def voGrid {α : Type} (v : Vo) (f : Nat → Nat → List α) : List α :=
  (List.range v.rows).flatMap (fun r => (List.range v.k).flatMap (f r))

/-- A gathered element's index lies outside X's bobbin. -/
def gatherOor (s : State) (u : SpoolId) (v : Vo) (fx : Fmt) (i : Nat) : Bool := decide (8 * bobSize s u.e v.x < 8 * v.xOff + (i + 1) * fx.w)

/-- The bytes of a gathered element: its code and its block's metadata (log 19). -/
def gatherSpans (v : Vo) (fx : Fmt) (i : Nat) : List (Nat × Nat) :=
  (i * fx.w / 8, (i * fx.w % 8 + fx.w + 7) / 8) :: blockSpans fx (v.rows * v.xPitch) v.rows v.k (i / 32)

/-- The fields of AUX's row state that an operation reads. -/
def auxFields (v : Vo) : List Nat := match v.op with
  | 0x28 | 0x29 => [0, 4]
  | 0x2A => [4]
  | 0x2B => [8]
  | _ => []

/-- The bytes of X, Y and AUX whose values the command uses. -/
def xSpans (s : State) (u : SpoolId) (v : Vo) (fx : Fmt) (q : VoSrc) : List (Nat × Nat) :=
  voGrid v (fun r j =>
    if v.gather then (match voIdx v q r j with
      | some i => if gatherOor s u v fx i then [] else gatherSpans v fx i
      | none => [])
    else rowMajorSpans fx v.rows v.k v.xPitch r j)
def ySpans (v : Vo) (fy : Fmt) : List (Nat × Nat) :=
  if v.mask then (List.range v.rows).map (fun r => (4 * (v.q0 + r), 4))
  else if v.idxY then voGrid v (fun r j => [(r * v.yPitch + 4 * j, 4)])
  else if v.binary then voGrid v (fun r j => rowMajorSpans fy v.rows v.k v.yPitch r j)
  else []
def auxSpans (v : Vo) : List (Nat × Nat) :=
  if v.mask then (List.range v.k).map (fun j => (4 * (v.k0 + j), 4))
  else (List.range v.rows).flatMap (fun r => (auxFields v).map (fun o => (16 * r + o, 4)))

/-- The address of the first poisoned byte that the command consumes (R139, R215). -/
def voPoison (s : State) (u : SpoolId) (v : Vo) (fx fy : Fmt) (q : VoSrc) : Option Nat :=
  let first (x : Src) (b off : Nat) (spans : List (Nat × Nat)) : Option Nat := (x.firstBad spans).map (fun o => bobBase s u.e b + off + o)
  match first q.x v.x v.xOff (xSpans s u v fx q) with
  | some a => some a
  | none => match first q.y v.y v.yOff (ySpans v fy) with
    | some a => some a
    | none => first q.aux v.aux v.auxOff (auxSpans v)

/-- Row state r of AUX; a poisoned one is NaN. -/
def rowState (q : VoSrc) (r : Nat) : RowSt :=
  let g (o : Nat) : BitVec 32 := if q.aux.poisoned (16 * r + o) 4 then f32Nan else BitVec.ofNat 32 (u32At q.aux.bytes (16 * r + o))
  ⟨g 0, g 4, g 8⟩

/-- The parts of the row state that an operation writes. -/
def auxWrites (v : Vo) (r : Nat) (st : RowSt) : List (Nat × Bytes) :=
  let w (o : Nat) (x : BitVec 32) : Nat × Bytes := (16 * r + o, natLE 4 x.toNat)
  if v.op ≤ 0x23 then [w 0 st.m] else if v.op = 0x28 then [w 0 st.m, w 4 st.l, w 8 st.c] else [w 4 st.l]

def countNan (xs : List (BitVec 32)) : Nat := (xs.filter (fun x => decide (f32Dec x = .nan))).length

/-- The row operations: outputs and row states. -/
def voRows (v : Vo) (fx fy fo : Fmt) (s : State) (u : SpoolId) (c : Cmd) (q : VoSrc) : State :=
  let row (r : Nat) : List (BitVec 32) × RowSt :=
    let xs := (List.range v.k).map (fun j => laneAt fx v.tx q.x v.rows v.k v.xPitch r j)
    let ys := if v.binary then (List.range v.k).map (fun j => laneAt fy v.ty q.y v.rows v.k v.yPitch r j) else []
    let st : RowSt := if v.auxIn then rowState q r else ⟨0, 0, 0⟩
    let same (j : Nat) : Bool :=
      decide (segOf q.y.bytes (4 * (v.q0 + r)) = segOf q.aux.bytes (4 * (v.k0 + j))) && (!v.causal || decide (v.k0 + j ≤ v.q0 + r))
    let res := rowOp v st xs ys same
    if v.mask then ((List.range v.k).map (fun j =>
        if q.y.poisoned (4 * (v.q0 + r)) 4 || q.aux.poisoned (4 * (v.k0 + j)) 4 then f32Nan else res.1.getD j 0), res.2)
    else res
  let rs := (List.range v.rows).map row
  let s := if v.useOut then
      let qs := (List.range v.rows).map (fun r => quantRow fo v.rnd v.tc (rs.getD r ([], ⟨0, 0, 0⟩)).1 (voBits v c.step r))
      let s := putAll s (.mpa (bobBase s u.e v.out + v.outOff)) (outWrites fo v.skew v.rows v.k v.t v.outPitch qs)
      bump s (rVuNan u.e) fVuNan ((rs.map (fun r => countNan r.1)).sum)
    else s
  if v.auxOut then
    let ws := (List.range v.rows).flatMap (fun r => auxWrites v r (rs.getD r ([], ⟨0, 0, 0⟩)).2)
    let nans := countNan (ws.map (fun w => BitVec.ofNat 32 (leNat w.2)))
    bump (putAll s (.mpa (bobBase s u.e v.aux + v.auxOff)) ws) (rVuNan u.e) fVuNan nans
  else s

/-- GATHER (R137): elements of X by linear index; one outside the bobbin reads 0. Blocks of a block-scaled X have their
metadata at X_OFF + ROWS × X_PITCH, by block of the index (DEDUCED, log 19). -/
def voGather (v : Vo) (fx fo : Fmt) (s : State) (u : SpoolId) (c : Cmd) (q : VoSrc) : State :=
  let oor (i : Nat) : Bool := gatherOor s u v fx i
  let val (r j : Nat) : BitVec 32 :=
    match voIdx v q r j with
    | none => f32Nan
    | some i => if oor i then 0 else
      let o := i * fx.w
      let m := v.rows * v.xPitch
      let blk := i / 32
      if (gatherSpans v fx i).any (fun p => q.x.poisoned p.1 p.2) then f32Nan
      else
        let code := codeAt q.x.bytes o fx.w
        match fx.mt with
        | .none => laneOf fx v.tx code 0 0
        | .e8m0 => laneOf fx v.tx code (u8At q.x.bytes (m + blk)) 0
        | .zero => laneOf fx v.tx code (u16At q.x.bytes (m + 2 * blk)) (u8At q.x.bytes (m + 2 * (v.rows * blocksOf v.k) + blk))
  let rs := (List.range v.rows).map (fun r => (List.range v.k).map (val r))
  let qs := (List.range v.rows).map (fun r => quantRow fo v.rnd v.tc (rs.getD r []) (voBits v c.step r))
  let s := putAll s (.mpa (bobBase s u.e v.out + v.outOff)) (outWrites fo v.skew v.rows v.k v.t v.outPitch qs)
  let s := bump s (rVuNan u.e) fVuNan ((rs.map countNan).sum)
  let miss := ((List.range v.rows).map (fun r => ((List.range v.k).filter (fun j => match voIdx v q r j with | some i => oor i | none => false)).length)).sum
  bump s (rVuIdxOor u.e) fVuIdxOor miss

/-- The codes of packed elements of less than a byte keep their neighbours' bits. -/
def putCode (s : State) (a bitOff w code : Nat) : State :=
  let lo := a + bitOff / 8
  let n := (bitOff % 8 + w + 7) / 8
  let old := leNat (mpaRead s lo n)
  let m := 2 ^ (bitOff % 8)
  let v := old % m + code % 2 ^ w * m + old / (m * 2 ^ w) * (m * 2 ^ w)
  mpaWrite s lo (natLE n v)

/-- Where element `i` of a scattered output lies: its code in bits from OUT's offset, its block's scale and zero point in bytes. Linear
indices count along the rows of the array layout where OUT_SKEW writes it (R133; DEDUCED, log 19). -/
structure OutPlace where
  bit   : Nat
  scale : Nat
  zp    : Nat

def outPlace (v : Vo) (fo : Fmt) (i : Nat) : OutPlace :=
  if v.skew then
    let l := Lay.mk fo v.rows v.k v.t v.outPitch 4
    let x := i / v.k
    let j := i % v.k
    let grp := 4 * fo.e
    let m := l.metaAt x (j / l.len) (j % l.len / 32)
    ⟨8 * l.groupAt x (j / l.len) (j % l.len / grp) + j % l.len % grp * fo.w, m, m + 2⟩
  else
    let m := v.rows * v.outPitch
    ⟨i * fo.w, m + fo.scaleBytes * (i / 32), m + 2 * (v.rows * blocksOf v.k) + i / 32⟩

/-- An index outside the bobbin, or outside the operand that OUT_SKEW lays out, drops its write (R137; log 19). -/
def scatterOor (s : State) (u : SpoolId) (v : Vo) (fo : Fmt) (i : Nat) : Bool :=
  (v.skew && decide (v.rows ≤ i / v.k)) || decide (8 * bobSize s u.e v.out < 8 * v.outOff + (outPlace v fo i).bit + fo.w)

/-- A code's bytes from OUT's offset. -/
def OutPlace.span (p : OutPlace) (fo : Fmt) : Nat × Nat := (p.bit / 8, (p.bit % 8 + fo.w + 7) / 8)
def OutPlace.metaSpans (p : OutPlace) (fo : Fmt) : List (Nat × Nat) := match fo.mt with
  | .none => []
  | .e8m0 => [(p.scale, 1)]
  | .zero => [(p.scale, 2), (p.zp, 1)]

/-- A block's metadata as it stands in memory. -/
def placeMeta (s : State) (base : Nat) (fo : Fmt) (p : OutPlace) : Nat × Nat := match fo.mt with
  | .none => (0, 0)
  | .e8m0 => (mpaNat s (base + p.scale) 1, 0)
  | .zero => (mpaNat s (base + p.scale) 2, mpaNat s (base + p.zp) 1)

/-- Free metadata for a block that SCATTER writes into: an MX scale of R70's window, or a positive FP16 scale and a zero point. -/
def freeMeta (fo : Fmt) (w : Nat) : Nat × Nat := match fo.mt with
  | .none => (0, 0)
  | .e8m0 => (103 + w % 32, 0)
  | .zero => (1 + w % 0x7BFF, w / 2 ^ 16 % 2 ^ fo.w)

/-- An element quantised under its block's metadata; a non-finite one makes the block non-finite (R65). -/
def scatterQuant (fo : Fmt) (rnd bits : Nat) (m : Nat × Nat) (y : Num) : Nat × Nat × Nat :=
  match fo.mt, y with
  | .e8m0, .fin d => ((fo.elem.quant rnd bits (d.scale (127 - (m.1 : Int)))).code, m)
  | .zero, .fin d => ((quantZ rnd bits (2 ^ fo.w - 1) m.2 (match ffB16.dec m.1 with | .fin s => s | _ => Dy.zero) d).code, m)
  | _, _ =>
    let b := quantBlock fo rnd [(y, bits)]
    ((b.elems.getD 0 { code := 0 }).code, b.scale, b.zp)

/-- A scatter under way: the state, the metadata of the blocks written so far, and the rows and slices of the array layout. -/
structure Scat where
  s     : State
  metas : FMap Nat (Nat × Nat)
  rows  : List (Nat × Nat)

/-- One lane of SCATTER or SCATTER_ADD (R137). Of a block-scaled output the block takes free metadata, which its other codes keep
(log 19). -/
def scatterLane (v : Vo) (fx fo : Fmt) (u : SpoolId) (c : Cmd) (q : VoSrc) (a : Scat) (r j : Nat) : Scat :=
  let s := a.s
  match voIdx v q r j with
  | none => a
  | some i =>
    if scatterOor s u v fo i then { a with s := bump s (rVuIdxOor u.e) fVuIdxOor 1 }
    else
      let base := bobBase s u.e v.out + v.outOff
      let p := outPlace v fo i
      let n := p.span fo
      let x := laneAt fx v.tx q.x v.rows v.k v.xPitch r j
      let m := placeMeta s base fo p
      let x := if v.addsOut then
          if (n :: p.metaSpans fo).any (fun b => mpaPoisoned s (base + b.1) b.2) then f32Nan
          else f32Add (laneOf fo v.tc (codeAt (mpaRead s (base + n.1) n.2) (p.bit % 8) fo.w) m.1 m.2) x
        else x
      let (w, s) := drawFree s
      let m := match mapFind a.metas p.scale with
        | some m => m
        | none => freeMeta fo w.toNat
      let (code, m) := scatterQuant fo v.rnd (voBits v c.step (i / v.k) (i % v.k)) m (scaleOut x v.tc)
      let s := putCode s base p.bit fo.w code
      let s := match fo.mt with
        | .none => s
        | .e8m0 => mpaPutNat s (base + p.scale) 1 m.1
        | .zero => mpaPutNat (mpaPutNat s (base + p.scale) 2 m.1) (base + p.zp) 1 m.2
      { s := bump s (rVuNan u.e) fVuNan (countNan [x])
        metas := if fo.blocked then mapSet a.metas p.scale m else a.metas
        rows := if v.skew then (a.rows ++ [(i / v.k, i % v.k / (128 * fo.e))]).dedup else a.rows }

/-- The base field of a slice of the array layout taken anew from what it holds (R92). -/
def rebase (l : Lay) (base : Nat) (s : State) (x : Nat × Nat) : State :=
  let bs := mpaRead s base l.bytes
  mpaWrite s (base + l.baseAt x.1 x.2) ((baseFields l.f.cls (l.slice bs x.1 x.2)).flatMap i16Bytes)

/-- SCATTER and SCATTER_ADD (R137): lanes in ascending order, so the highest of colliding lanes wins. -/
def voScatter (v : Vo) (fx fo : Fmt) (s : State) (u : SpoolId) (c : Cmd) (q : VoSrc) : State :=
  let a := (voGrid v (fun r j => [(r, j)])).foldl (fun a p => scatterLane v fx fo u c q a p.1 p.2) ⟨s, [], []⟩
  a.rows.foldl (rebase (Lay.mk fo v.rows v.k v.t v.outPitch 4) (bobBase s u.e v.out + v.outOff)) a.s

/-- Poison that SCATTER_ADD reads in the elements it adds to. -/
def scatterPoison (v : Vo) (fo : Fmt) (s : State) (u : SpoolId) (q : VoSrc) : Option Nat :=
  if ¬v.addsOut then none
  else
    let base := bobBase s u.e v.out + v.outOff
    (voGrid v (fun r j => match voIdx v q r j with
      | some i => if scatterOor s u v fo i then [] else (outPlace v fo i).span fo :: (outPlace v fo i).metaSpans fo
      | none => [])).findSome? (fun b => if mpaPoisoned s (base + b.1) b.2 then some (base + b.1) else none)

/-- What a VECOP reads (R132, R133, R137). -/
def voSources (v : Vo) (fx fy : Fmt) (s : State) (u : SpoolId) : VoSrc :=
  { x := bobSrc s u.e v.x v.xOff (if v.gather then bobSize s u.e v.x - v.xOff else fx.planes v.rows v.k v.xPitch)
    y := if v.binary then bobSrc s u.e v.y v.yOff (fy.planes v.rows v.k v.yPitch)
      else if v.idxY then bobSrc s u.e v.y v.yOff ((v.rows - 1) * v.yPitch + 4 * v.k)
      else if v.mask then bobSrc s u.e v.y v.yOff (4 * (v.q0 + v.rows)) else ⟨[], []⟩
    aux := if v.mask then bobSrc s u.e v.aux v.auxOff (4 * (v.k0 + v.k))
      else if v.auxIn then bobSrc s u.e v.aux v.auxOff (16 * v.rows) else ⟨[], []⟩ }

/-- The first poisoned line that a VECOP consumes (R139). -/
def voConsumes (v : Vo) (fx fy fo : Fmt) (s : State) (u : SpoolId) (q : VoSrc) : Option Nat := match voPoison s u v fx fy q with
  | some a => some a
  | none => scatterPoison v fo s u q

/-- The poison charged to the command's step, and the outputs FILLING under it. -/
def voTake (v : Vo) (s : State) (u : SpoolId) (c : Cmd) (pois : Option Nat) : State :=
  let s := match pois with
    | some a => cmdPoison s u c.step a
    | none => s
  v.fillsOf.foldl (fun s b => bobFill s u c.slot b false) s

/-- The operation of a VECOP over its rows, and its beats (R140). -/
def voWork (v : Vo) (fx fy fo : Fmt) (s : State) (u : SpoolId) (c : Cmd) (q : VoSrc) : State :=
  let s := if v.gather then voGather v fx fo s u c q else if v.scatter then voScatter v fx fo s u c q else voRows v fx fy fo s u c q
  bump s (rVuBeats u.e) fVuBeats (voBeats v)

/-- A VECOP's command while it runs. -/
def voCmd (v : Vo) (c : Cmd) : Cmd := { c with fills := v.fillsOf, reads := v.readsOf, readers := 0, cont := false }

/-- The body of a VECOP: its inputs READY, its outputs free to be written, then the operation whole. -/
def voBody (u : SpoolId) (s : State) (c : Cmd) : State × Cmd × Act :=
  let v := voOf c.bytes
  if ¬insReady s u v.ins ∨ ¬v.fillsOf.all (fun b => outReady s u c.slot b) then (s, c, .waits)
  else
    match drainFmt v.fx, drainFmt v.fy, drainFmt v.fo with
    | some fx, some fy, some fo =>
      let q := voSources v fx fy s u
      let pois := voConsumes v fx fy fo s u q
      (voWork v fx fy fo (voTake v s u c pois) u c q, voCmd v c, .ends (if pois.isSome then stPoison else stOk) 0)
    | _, _, _ => (s, c, .ends stFormat 0)

/-- VECOP (R132 to R139). -/
def execVecop (u : SpoolId) (s : State) : Host.Outcome State Fault Refusal :=
  .next (runCmd s u (fun b => decide (u8At b 0 = 0x20)) (voBad u) (fun b => (voOf b).bobs) (voBody u))

end Sys2Proof.Machine
end

