-- ==== Sys2Proof/Machine/Wake.lean ====
section
/-! DEFINITION. The wake of an engine, with the accesses held for it (R424). -/

namespace Sys2Proof.Machine

open Sys2Proof

/-- A held access performed: the doorbells, bobbin marks, VALID writes and stores that wake an engine. -/
def performHeld (s : State) (c : Instr) : State :=
  match c with
  | .sqTail ag u val => nextOf (execSqTail ag u val s) s
  | .bobMarkFill ag e n b => nextOf (execBobMarkFill ag e n b s) s
  | .bobMarkReady ag e n b r => nextOf (execBobMarkReady ag e n b r s) s
  | .bobMarkConsumed ag e n b => nextOf (execBobMarkConsumed ag e n b s) s
  | .bobMarkRelease ag e n b => nextOf (execBobMarkRelease ag e n b s) s
  | .ctxCfgValidSet ag e n val => nextOf (execCtxCfgValidSet ag e n val s) s
  | .memoryAccess r => nextOf (execMemoryAccess r s) s
  | .wr l m => wrServe s l m
  | .wrp l m => wrpServe s l m
  | .atom l m => match aopOf m with
    | some op => atomServe s l m op
    | none => s
  | .rdOwn l m => cohRequest s l m true c
  | _ => s

/-- ENGINE_WAKE (R424): the engine is ACTIVE again, and the accesses held for it are performed in the order they came. -/
def execEngineWake (e : Fin 32) (s : State) : Host.Outcome State Fault Refusal :=
  .next (if mustWake s e then (engAux s e).heldWake.foldl performHeld (wakeEngine s e) else s)

end Sys2Proof.Machine
end

