-- ==== Sys2Proof/Machine/Dispatch.lean ====
section
/-! DEFINITION. The dispatch: one arm for each command. -/

namespace Sys2Proof.Machine

open Sys2Proof

def exec (i : Instr) (s : State) : Host.Outcome State Fault Refusal :=
  match i with
  | .transfer u => Sys2Proof.Machine.execTransfer u s
  | .transferInline u => Sys2Proof.Machine.execTransferInline u s
  | .matmul u => Sys2Proof.Machine.execMatmul u s
  | .matmulAcc u => Sys2Proof.Machine.execMatmulAcc u s
  | .elemwise u => Sys2Proof.Machine.execElemwise u s
  | .vecop u => Sys2Proof.Machine.execVecop u s
  | .cardImage u => Sys2Proof.Machine.execCardImage u s
  | .cardTokens u => Sys2Proof.Machine.execCardTokens u s
  | .allReduce u => Sys2Proof.Machine.execAllReduce u s
  | .reduceScatter u => Sys2Proof.Machine.execReduceScatter u s
  | .allGather u => Sys2Proof.Machine.execAllGather u s
  | .broadcast u => Sys2Proof.Machine.execBroadcast u s
  | .barrier u => Sys2Proof.Machine.execBarrier u s
  | .put u => Sys2Proof.Machine.execPut u s
  | .get u => Sys2Proof.Machine.execGet u s
  | .atomic u => Sys2Proof.Machine.execAtomic u s
  | .collectiveSend u => Sys2Proof.Machine.execCollectiveSend u s
  | .dispatch u => Sys2Proof.Machine.execDispatch u s
  | .combine u => Sys2Proof.Machine.execCombine u s
  | .signal u => Sys2Proof.Machine.execSignal u s
  | .wait u => Sys2Proof.Machine.execWait u s
  | .fence u => Sys2Proof.Machine.execFence u s
  | .task u => Sys2Proof.Machine.execTask u s
  | .prefetch u => Sys2Proof.Machine.execPrefetch u s
  | .cancel u => Sys2Proof.Machine.execCancel u s
  | .commandFetch u => Sys2Proof.Machine.execCommandFetch u s
  | .commandComplete u slot => Sys2Proof.Machine.execCommandComplete u slot s
  | .cqHead ag u val => Sys2Proof.Machine.execCqHead ag u val s
  | .mxIssue c rd rs1 vs2 => Sys2Proof.Machine.execMxIssue c rd rs1 vs2 s
  | .mxRoom c rd rs1 => Sys2Proof.Machine.execMxRoom c rd rs1 s
  | .mxAwait c rs1 => Sys2Proof.Machine.execMxAwait c rs1 s
  | .mxBstate c rd rs1 => Sys2Proof.Machine.execMxBstate c rd rs1 s
  | .mxBdone c rs1 => Sys2Proof.Machine.execMxBdone c rs1 s
  | .mxYield c => Sys2Proof.Machine.execMxYield c s
  | .mxExit c rs1 => Sys2Proof.Machine.execMxExit c rs1 s
  | .spindleException c cause tval => Sys2Proof.Machine.execSpindleException c cause tval s
  | .taskDispatch c => Sys2Proof.Machine.execTaskDispatch c s
  | .quantumExpiry c => Sys2Proof.Machine.execQuantumExpiry c s
  | .budgetExpiry e slot => Sys2Proof.Machine.execBudgetExpiry e slot s
  | .tilePass e pa bad => Sys2Proof.Machine.execTilePass e pa bad s
  | .recompute e bad => Sys2Proof.Machine.execRecompute e bad s
  | .arrayRetirement e pa => Sys2Proof.Machine.execArrayRetirement e pa s
  | .sqTail ag u val => Sys2Proof.Machine.execSqTail ag u val s
  | .spLock ag u acc => Sys2Proof.Machine.execSpLock ag u acc s
  | .leaseExpiry u => Sys2Proof.Machine.execLeaseExpiry u s
  | .spCfgEnable ag u val => Sys2Proof.Machine.execSpCfgEnable ag u val s
  | .spCfgDisable ag u val => Sys2Proof.Machine.execSpCfgDisable ag u val s
  | .resume ag u val => Sys2Proof.Machine.execResume ag u val s
  | .ctxCfgValidSet ag e n val => Sys2Proof.Machine.execCtxCfgValidSet ag e n val s
  | .ctxCfgValidClear ag e n val => Sys2Proof.Machine.execCtxCfgValidClear ag e n val s
  | .ctxCancel ag e n mask releaseAll => Sys2Proof.Machine.execCtxCancel ag e n mask releaseAll s
  | .bobMarkFill ag e n b => Sys2Proof.Machine.execBobMarkFill ag e n b s
  | .bobMarkReady ag e n b readers => Sys2Proof.Machine.execBobMarkReady ag e n b readers s
  | .bobMarkConsumed ag e n b => Sys2Proof.Machine.execBobMarkConsumed ag e n b s
  | .bobMarkRelease ag e n b => Sys2Proof.Machine.execBobMarkRelease ag e n b s
  | .bobArm ag e view => Sys2Proof.Machine.execBobArm ag e view s
  | .statSelSnap ag e win entry => Sys2Proof.Machine.execStatSelSnap ag e win entry s
  | .statSelClear ag e win entry => Sys2Proof.Machine.execStatSelClear ag e win entry s
  | .statClearAll ag e => Sys2Proof.Machine.execStatClearAll ag e s
  | .abftInject ag e pa arm => Sys2Proof.Machine.execAbftInject ag e pa arm s
  | .frResumeRetry ag e n seq => Sys2Proof.Machine.execFrResumeRetry ag e n seq s
  | .frResumeKill ag e n seq => Sys2Proof.Machine.execFrResumeKill ag e n seq s
  | .engPwrReq ag e req => Sys2Proof.Machine.execEngPwrReq ag e req s
  | .engReset ag e force => Sys2Proof.Machine.execEngReset ag e force s
  | .dieReset ag die force => Sys2Proof.Machine.execDieReset ag die force s
  | .coreHold ag p w val => Sys2Proof.Machine.execCoreHold ag p w val s
  | .migReqPromote ag gran astag => Sys2Proof.Machine.execMigReqPromote ag gran astag s
  | .migReqDemote ag gran => Sys2Proof.Machine.execMigReqDemote ag gran s
  | .poolArm ag view => Sys2Proof.Machine.execPoolArm ag view s
  | .flushTag ag astag all drain => Sys2Proof.Machine.execFlushTag ag astag all drain s
  | .flushTagDone => Sys2Proof.Machine.execFlushTagDone s
  | .rhReplyInstall ag id => Sys2Proof.Machine.execRhReplyInstall ag id s
  | .rhReplyRefuse ag id => Sys2Proof.Machine.execRhReplyRefuse ag id s
  | .dirBiasReq ag astag all toShared => Sys2Proof.Machine.execDirBiasReq ag astag all toShared s
  | .biasChangeDone => Sys2Proof.Machine.execBiasChangeDone s
  | .stepClose ag p step => Sys2Proof.Machine.execStepClose ag p step s
  | .stepRaise ag p step => Sys2Proof.Machine.execStepRaise ag p step s
  | .stepRejoin ag p step => Sys2Proof.Machine.execStepRejoin ag p step s
  | .optArm ag p view => Sys2Proof.Machine.execOptArm ag p view s
  | .ckptNext ag p => Sys2Proof.Machine.execCkptNext ag p s
  | .ckptRestore ag p slotB => Sys2Proof.Machine.execCkptRestore ag p slotB s
  | .restoreDone p => Sys2Proof.Machine.execRestoreDone p s
  | .connInit ag conn => Sys2Proof.Machine.execConnInit ag conn s
  | .connClose ag conn => Sys2Proof.Machine.execConnClose ag conn s
  | .stkRepairConnection ag d chan target => Sys2Proof.Machine.execStkRepairConnection ag d chan target s
  | .stkRepairRow ag d chan bank target => Sys2Proof.Machine.execStkRepairRow ag d chan bank target s
  | .stkRepairColumn ag d chan bank target => Sys2Proof.Machine.execStkRepairColumn ag d chan bank target s
  | .repairDone d => Sys2Proof.Machine.execRepairDone d s
  | .flReqWrite ag part pages lpn => Sys2Proof.Machine.execFlReqWrite ag part pages lpn s
  | .flReqTrim ag part pages lpn => Sys2Proof.Machine.execFlReqTrim ag part pages lpn s
  | .flashRequestDone => Sys2Proof.Machine.execFlashRequestDone s
  | .auqMbxEnable ag p val => Sys2Proof.Machine.execAuqMbxEnable ag p val s
  | .mailboxPoll p => Sys2Proof.Machine.execMailboxPoll p s
  | .evrWindow ag acc => Sys2Proof.Machine.execEvrWindow ag acc s
  | .registerWrite ag off acc val => Sys2Proof.Machine.execRegisterWrite ag off acc val s
  | .memoryAccess req => Sys2Proof.Machine.execMemoryAccess req s
  | .promotionStart => Sys2Proof.Machine.execPromotionStart s
  | .promotionDone gran => Sys2Proof.Machine.execPromotionDone gran s
  | .demotionStart gran => Sys2Proof.Machine.execDemotionStart gran s
  | .demotionCopy gran => Sys2Proof.Machine.execDemotionCopy gran s
  | .demotionDone gran => Sys2Proof.Machine.execDemotionDone gran s
  | .ageTick => Sys2Proof.Machine.execAgeTick s
  | .tierTimeout id => Sys2Proof.Machine.execTierTimeout id s
  | .rangeCacheMiss req => Sys2Proof.Machine.execRangeCacheMiss req s
  | .walkComplete id => Sys2Proof.Machine.execWalkComplete id s
  | .consultTimeout id => Sys2Proof.Machine.execConsultTimeout id s
  | .killRecord e n => Sys2Proof.Machine.execKillRecord e n s
  | .replayLimit e n => Sys2Proof.Machine.execReplayLimit e n s
  | .rd link m => Sys2Proof.Machine.execRd link m s
  | .wr link m => Sys2Proof.Machine.execWr link m s
  | .wrp link m => Sys2Proof.Machine.execWrp link m s
  | .atom link m => Sys2Proof.Machine.execAtom link m s
  | .memData link m => Sys2Proof.Machine.execMemData link m s
  | .memAck link m => Sys2Proof.Machine.execMemAck link m s
  | .rdShared link m => Sys2Proof.Machine.execRdShared link m s
  | .rdOwn link m => Sys2Proof.Machine.execRdOwn link m s
  | .snpInv link m => Sys2Proof.Machine.execSnpInv link m s
  | .snpFwd link m => Sys2Proof.Machine.execSnpFwd link m s
  | .wb link m => Sys2Proof.Machine.execWb link m s
  | .cohData link m => Sys2Proof.Machine.execCohData link m s
  | .cohAck link m => Sys2Proof.Machine.execCohAck link m s
  | .ownershipHoldExpiry line => Sys2Proof.Machine.execOwnershipHoldExpiry line s
  | .msi link m => Sys2Proof.Machine.execMsi link m s
  | .dmiRd link m => Sys2Proof.Machine.execDmiRd link m s
  | .dmiWr link m => Sys2Proof.Machine.execDmiWr link m s
  | .dbgData link m => Sys2Proof.Machine.execDbgData link m s
  | .discover link m => Sys2Proof.Machine.execDiscover link m s
  | .agree link m => Sys2Proof.Machine.execAgree link m s
  | .dict link m => Sys2Proof.Machine.execDict link m s
  | .resetReq link m => Sys2Proof.Machine.execResetReq link m s
  | .telemetry link m => Sys2Proof.Machine.execTelemetry link m s
  | .mgtData link m => Sys2Proof.Machine.execMgtData link m s
  | .mgtAck link m => Sys2Proof.Machine.execMgtAck link m s
  | .linkActive link => Sys2Proof.Machine.execLinkActive link s
  | .discoveryTimeout link => Sys2Proof.Machine.execDiscoveryTimeout link s
  | .moduleDown link mod => Sys2Proof.Machine.execModuleDown link mod s
  | .linkFailed link => Sys2Proof.Machine.execLinkFailed link s
  | .linkRetry link => Sys2Proof.Machine.execLinkRetry link s
  | .guestRemoval => Sys2Proof.Machine.execGuestRemoval s
  | .dieRemoval die => Sys2Proof.Machine.execDieRemoval die s
  | .write f => Sys2Proof.Machine.execWrite f s
  | .readReq f => Sys2Proof.Machine.execReadReq f s
  | .readResp f => Sys2Proof.Machine.execReadResp f s
  | .atomicReq f => Sys2Proof.Machine.execAtomicReq f s
  | .atomicResp f => Sys2Proof.Machine.execAtomicResp f s
  | .send f => Sys2Proof.Machine.execSend f s
  | .collData f => Sys2Proof.Machine.execCollData f s
  | .dispatchCount f => Sys2Proof.Machine.execDispatchCount f s
  | .landingGrant group opid => Sys2Proof.Machine.execLandingGrant group opid s
  | .dispatchGrant f => Sys2Proof.Machine.execDispatchGrant f s
  | .dispatchRow f => Sys2Proof.Machine.execDispatchRow f s
  | .combineReq f => Sys2Proof.Machine.execCombineReq f s
  | .combineServe id => Sys2Proof.Machine.execCombineServe id s
  | .combineResp f => Sys2Proof.Machine.execCombineResp f s
  | .halyardVote p => Sys2Proof.Machine.execHalyardVote p s
  | .halyardUp f => Sys2Proof.Machine.execHalyardUp f s
  | .halyardDown f => Sys2Proof.Machine.execHalyardDown f s
  | .halyardTimeout p => Sys2Proof.Machine.execHalyardTimeout p s
  | .divergedTimeout p => Sys2Proof.Machine.execDivergedTimeout p s
  | .hello f => Sys2Proof.Machine.execHello f s
  | .probe f => Sys2Proof.Machine.execProbe f s
  | .linkAck port f => Sys2Proof.Machine.execLinkAck port f s
  | .fcsError port badFcs => Sys2Proof.Machine.execFcsError port badFcs s
  | .ack f => Sys2Proof.Machine.execAck f s
  | .nack f => Sys2Proof.Machine.execNack f s
  | .linkAckTimer port => Sys2Proof.Machine.execLinkAckTimer port s
  | .ackTimer conn => Sys2Proof.Machine.execAckTimer conn s
  | .rtoExpiry conn plane => Sys2Proof.Machine.execRtoExpiry conn plane s
  | .portStateChange port st rate => Sys2Proof.Machine.execPortStateChange port st rate s
  | .probeTimer peer plane => Sys2Proof.Machine.execProbeTimer peer plane s
  | .peerUnreachable peer => Sys2Proof.Machine.execPeerUnreachable peer s
  | .collTimeout id => Sys2Proof.Machine.execCollTimeout id s
  | .sendRetry id => Sys2Proof.Machine.execSendRetry id s
  | .contextFetch conn => Sys2Proof.Machine.execContextFetch conn s
  | .waitPoll u => Sys2Proof.Machine.execWaitPoll u s
  | .waitTimeout u => Sys2Proof.Machine.execWaitTimeout u s
  | .snapshotMerge p => Sys2Proof.Machine.execSnapshotMerge p s
  | .hoist p => Sys2Proof.Machine.execHoist p s
  | .hankUpdate p => Sys2Proof.Machine.execHankUpdate p s
  | .hanksDone p => Sys2Proof.Machine.execHanksDone p s
  | .checkpointStart p => Sys2Proof.Machine.execCheckpointStart p s
  | .checkpointHank p => Sys2Proof.Machine.execCheckpointHank p s
  | .checkpointHeader p => Sys2Proof.Machine.execCheckpointHeader p s
  | .mappingRebuild cutLpns => Sys2Proof.Machine.execMappingRebuild cutLpns s
  | .refresh d chan bank => Sys2Proof.Machine.execRefresh d chan bank s
  | .recalWindow d chan => Sys2Proof.Machine.execRecalWindow d chan s
  | .patrolScrub line r => Sys2Proof.Machine.execPatrolScrub line r s
  | .flashScrub block heavy => Sys2Proof.Machine.execFlashScrub block heavy s
  | .marginStart => Sys2Proof.Machine.execMarginStart s
  | .marginDone lo hi step => Sys2Proof.Machine.execMarginDone lo hi step s
  | .serverCoreFault core => Sys2Proof.Machine.execServerCoreFault core s
  | .spindleCoreFault c => Sys2Proof.Machine.execSpindleCoreFault c s
  | .epochClose => Sys2Proof.Machine.execEpochClose s
  | .evrClear => Sys2Proof.Machine.execEvrClear s
  | .inputWarning mv => Sys2Proof.Machine.execInputWarning mv s
  | .warningRecovery mv => Sys2Proof.Machine.execWarningRecovery mv s
  | .powerFail mv => Sys2Proof.Machine.execPowerFail mv s
  | .overVoltage mv => Sys2Proof.Machine.execOverVoltage mv s
  | .startUp ev => Sys2Proof.Machine.execStartUp ev s
  | .fabricReady => Sys2Proof.Machine.execFabricReady s
  | .startTimeout => Sys2Proof.Machine.execStartTimeout s
  | .holdupReady => Sys2Proof.Machine.execHoldupReady s
  | .powerCapSample avgW sampleW => Sys2Proof.Machine.execPowerCapSample avgW sampleW s
  | .thermalThrottle sensor tempC => Sys2Proof.Machine.execThermalThrottle sensor tempC s
  | .thermalShutdown sensor tempC => Sys2Proof.Machine.execThermalShutdown sensor tempC s
  | .arrayClkMhz e pa => Sys2Proof.Machine.execArrayClkMhz e pa s
  | .scClkMhz core dieW dieC => Sys2Proof.Machine.execScClkMhz core dieW dieC s
  | .powerStateEntry e => Sys2Proof.Machine.execPowerStateEntry e s
  | .engineWake e => Sys2Proof.Machine.execEngineWake e s
  | .departureTimeout unit => Sys2Proof.Machine.execDepartureTimeout unit s
  | .modRstN low => Sys2Proof.Machine.execModRstN low s
  | .moduleReset => Sys2Proof.Machine.execModuleReset s
  | .stageOpen ses set => Sys2Proof.Machine.execStageOpen ses set s
  | .stageSeal ses set => Sys2Proof.Machine.execStageSeal ses set s
  | .stageConfirm ses set => Sys2Proof.Machine.execStageConfirm ses set s
  | .stageAbort ses set => Sys2Proof.Machine.execStageAbort ses set s
  | .stageWindowExpiry set => Sys2Proof.Machine.execStageWindowExpiry set s
  | .layoutApply => Sys2Proof.Machine.execLayoutApply s
  | .fwImage => Sys2Proof.Machine.execFwImage s
  | .svnCommit => Sys2Proof.Machine.execSvnCommit s
  | .fwActivate failClass => Sys2Proof.Machine.execFwActivate failClass s
  | .nandKeyErase p => Sys2Proof.Machine.execNandKeyErase p s
  | .linkKey p slot => Sys2Proof.Machine.execLinkKey p slot s
  | .debugUnlock => Sys2Proof.Machine.execDebugUnlock s
  | .debugLeaseExpiry => Sys2Proof.Machine.execDebugLeaseExpiry s
  | .getVersion r => Sys2Proof.Machine.execGetVersion r s
  | .getCapabilities r => Sys2Proof.Machine.execGetCapabilities r s
  | .negotiateAlgorithms r => Sys2Proof.Machine.execNegotiateAlgorithms r s
  | .getDigests r => Sys2Proof.Machine.execGetDigests r s
  | .getCertificate r => Sys2Proof.Machine.execGetCertificate r s
  | .challenge r => Sys2Proof.Machine.execChallenge r s
  | .getMeasurements r => Sys2Proof.Machine.execGetMeasurements r s
  | .keyExchange r => Sys2Proof.Machine.execKeyExchange r s
  | .finish r => Sys2Proof.Machine.execFinish r s
  | .endSession r => Sys2Proof.Machine.execEndSession r s
  | .heartbeat r => Sys2Proof.Machine.execHeartbeat r s
  | .keyUpdate r => Sys2Proof.Machine.execKeyUpdate r s
  | .auquinRead r => Sys2Proof.Machine.execAuquinRead r s
  | .auquinWrite r => Sys2Proof.Machine.execAuquinWrite r s
  | .auquinSegment r => Sys2Proof.Machine.execAuquinSegment r s
  | .auquinAbort r => Sys2Proof.Machine.execAuquinAbort r s
  | .segTimeout tr => Sys2Proof.Machine.execSegTimeout tr s
  | .sessionIdle ses => Sys2Proof.Machine.execSessionIdle ses s
  | .dbgDmiReq req => Sys2Proof.Machine.execDbgDmiReq req s
  | .dbgPeek => Sys2Proof.Machine.execDbgPeek s
  | .tapSeq tdo => Sys2Proof.Machine.execTapSeq tdo s
  | .laneRepair link mod lanes => Sys2Proof.Machine.execLaneRepair link mod lanes s
  | .replacedKeyExpiry p slot => Sys2Proof.Machine.execReplacedKeyExpiry p slot s
  | .suspectWindowExpiry e pa => Sys2Proof.Machine.execSuspectWindowExpiry e pa s
  | .frPtrConsumer ag ring val => Sys2Proof.Machine.execFrPtrConsumer ag ring val s
  | .rhConsultPtrConsumer ag val => Sys2Proof.Machine.execRhConsultPtrConsumer ag val s
  | .dynamicAddress addr => Sys2Proof.Machine.execDynamicAddress addr s
  | .setEndpointId eid => Sys2Proof.Machine.execSetEndpointId eid s
  | .mgtLinkChange link => Sys2Proof.Machine.execMgtLinkChange link s
  | .modRstNRisingEdge => Sys2Proof.Machine.execModRstNRisingEdge s
  | .coolantAlert inletC => Sys2Proof.Machine.execCoolantAlert inletC s
  | .flashProgramFailure block => Sys2Proof.Machine.execFlashProgramFailure block s

end Sys2Proof.Machine
end

