-- ==== Sys2Proof/Machine/Tick.lean ====
section
/-! DEFINITION. What passes while no command waits. -/

namespace Sys2Proof.Machine

/-- One nanosecond of module time (R400). Timers compare against module time when their event is commanded. -/
def tick (s : State) : State := { s with time := s.time + 1 }

end Sys2Proof.Machine
end

