-- ==== Sys2Proof/WellFormed.lean ====
section
/-! DEFINITION. The commands whose operands have the shape the manual gives their carriers. A meaning is total: it also answers a
command that is not well formed, by the refusal its chapter states or by leaving the state as it is. -/

namespace Sys2Proof

/-- Row numbers of a tile pass: below 512 and rising (R83, R84). -/
def wfRows : Nat → List Nat → Bool
  | _, [] => true
  | lo, r :: l => decide (lo ≤ r) && decide (r < 512) && wfRows (r + 1) l

/-- An access carries at least one byte; a write carries its data (R206, R280). -/
def wfMemReq (r : MemReq) : Bool :=
  match r.kind with
  | .write | .sc => decide (r.data ≠ [])
  | .read | .fetch | .peek => decide (r.len ≠ 0)
  | .atomic .. | .lr | .own => true

/-- A Plalia message carries whole lines, no more than LINES says, and at most seven credit counts of a byte (R346, R347). -/
def wfPlaMsg (m : PlaMsg) : Bool :=
  (decide (m.data = []) || decide (m.data.length = 64 * (m.lines.toNat + 1))) && decide (m.creds.length ≤ 7) && m.creds.all (fun n => decide (n < 256))

/-- Poisoned spans lie in the payload of a frame, which is at most 8,192 bytes (R312, R315). -/
def wfFrame (f : Frame) : Bool := decide (f.payload.length ≤ 8192) && (f.bad ++ f.hurt).all (fun x => decide (x.1 + x.2 ≤ f.payload.length))

/-- An expedited request carries 1 to 4 bytes, and no more than a message holds (R440, R441). -/
def wfAuqReq (r : AuqReq) : Bool := !r.expedited || decide (r.data.length ≤ 4)

/-- A start-up step is one of 1 to 12 (R431). -/
def wfStart : StartEvent → Bool
  | .condition _ => true
  | .ends k _ _ | .fails k => decide (k ≠ 0)

/-- A well-formed command. -/
def Instr.wf : Instr → Bool
  | .tilePass _ _ bad | .recompute _ bad => wfRows 0 bad
  | .memoryAccess r => wfMemReq r
  | .rd _ m | .wr _ m | .wrp _ m | .atom _ m | .memData _ m | .memAck _ m | .rdShared _ m | .rdOwn _ m | .snpInv _ m | .snpFwd _ m
  | .wb _ m | .cohData _ m | .cohAck _ m | .msi _ m | .dmiRd _ m | .dmiWr _ m | .dbgData _ m | .discover _ m | .agree _ m | .dict _ m
  | .resetReq _ m | .telemetry _ m | .mgtData _ m | .mgtAck _ m => wfPlaMsg m
  | .write f | .readReq f | .readResp f | .atomicReq f | .atomicResp f | .send f | .collData f | .dispatchCount f | .dispatchGrant f
  | .dispatchRow f | .combineReq f | .combineResp f | .halyardUp f | .halyardDown f | .hello f | .probe f | .linkAck _ f | .ack f
  | .nack f => wfFrame f
  | .startUp ev => wfStart ev
  | .marginDone lo hi _ => decide (lo.toInt ≤ hi.toInt)
  | .auquinRead r | .auquinWrite r | .auquinSegment r | .auquinAbort r => wfAuqReq r
  | .laneRepair _ _ lanes => decide (1 ≤ lanes)
  | .transfer .. | .transferInline .. | .matmul .. | .matmulAcc .. | .elemwise .. | .vecop .. | .cardImage ..
  | .cardTokens .. | .allReduce .. | .reduceScatter .. | .allGather .. | .broadcast .. | .barrier .. | .put .. | .get ..
  | .atomic .. | .collectiveSend .. | .dispatch .. | .combine .. | .signal .. | .wait .. | .fence .. | .task ..
  | .prefetch .. | .cancel .. | .commandFetch .. | .commandComplete .. | .cqHead .. | .mxIssue .. | .mxRoom .. | .mxAwait ..
  | .mxBstate .. | .mxBdone .. | .mxYield .. | .mxExit .. | .spindleException .. | .taskDispatch .. | .quantumExpiry ..
  | .budgetExpiry .. | .arrayRetirement .. | .sqTail .. | .spLock .. | .leaseExpiry .. | .spCfgEnable .. | .spCfgDisable ..
  | .resume .. | .ctxCfgValidSet .. | .ctxCfgValidClear .. | .ctxCancel .. | .bobMarkFill .. | .bobMarkReady ..
  | .bobMarkConsumed .. | .bobMarkRelease .. | .bobArm .. | .statSelSnap .. | .statSelClear .. | .statClearAll ..
  | .abftInject .. | .frResumeRetry .. | .frResumeKill .. | .engPwrReq .. | .engReset .. | .dieReset .. | .coreHold ..
  | .migReqPromote .. | .migReqDemote .. | .poolArm .. | .flushTag .. | .flushTagDone .. | .rhReplyInstall ..
  | .rhReplyRefuse .. | .dirBiasReq .. | .biasChangeDone .. | .stepClose .. | .stepRaise .. | .stepRejoin .. | .optArm ..
  | .ckptNext .. | .ckptRestore .. | .restoreDone .. | .connInit .. | .connClose .. | .stkRepairConnection ..
  | .stkRepairRow .. | .stkRepairColumn .. | .repairDone .. | .flReqWrite .. | .flReqTrim .. | .flashRequestDone ..
  | .auqMbxEnable .. | .mailboxPoll .. | .evrWindow .. | .registerWrite .. | .promotionStart .. | .promotionDone ..
  | .demotionStart .. | .demotionCopy .. | .demotionDone .. | .ageTick .. | .tierTimeout .. | .rangeCacheMiss ..
  | .walkComplete .. | .consultTimeout .. | .killRecord .. | .replayLimit .. | .ownershipHoldExpiry .. | .linkActive ..
  | .discoveryTimeout .. | .moduleDown .. | .linkFailed .. | .linkRetry .. | .guestRemoval .. | .dieRemoval ..
  | .landingGrant .. | .combineServe .. | .halyardVote .. | .halyardTimeout .. | .divergedTimeout .. | .fcsError ..
  | .linkAckTimer .. | .ackTimer .. | .rtoExpiry .. | .portStateChange .. | .probeTimer .. | .peerUnreachable ..
  | .collTimeout .. | .sendRetry .. | .contextFetch .. | .waitPoll .. | .waitTimeout .. | .snapshotMerge .. | .hoist ..
  | .hankUpdate .. | .hanksDone .. | .checkpointStart .. | .checkpointHank .. | .checkpointHeader .. | .mappingRebuild ..
  | .refresh .. | .recalWindow .. | .patrolScrub .. | .flashScrub .. | .marginStart .. | .serverCoreFault ..
  | .spindleCoreFault .. | .epochClose .. | .evrClear .. | .inputWarning .. | .warningRecovery .. | .powerFail ..
  | .overVoltage .. | .fabricReady .. | .startTimeout .. | .holdupReady .. | .powerCapSample .. | .thermalThrottle ..
  | .thermalShutdown .. | .arrayClkMhz .. | .scClkMhz .. | .powerStateEntry .. | .engineWake .. | .departureTimeout ..
  | .modRstN .. | .moduleReset .. | .stageOpen .. | .stageSeal .. | .stageConfirm .. | .stageAbort .. | .stageWindowExpiry ..
  | .layoutApply .. | .fwImage .. | .svnCommit .. | .fwActivate .. | .nandKeyErase .. | .linkKey .. | .debugUnlock ..
  | .debugLeaseExpiry .. | .getVersion .. | .getCapabilities .. | .negotiateAlgorithms .. | .getDigests ..
  | .getCertificate .. | .challenge .. | .getMeasurements .. | .keyExchange .. | .finish .. | .endSession .. | .heartbeat ..
  | .keyUpdate .. | .segTimeout .. | .sessionIdle .. | .dbgDmiReq .. | .dbgPeek .. | .tapSeq .. | .replacedKeyExpiry ..
  | .suspectWindowExpiry .. | .frPtrConsumer .. | .rhConsultPtrConsumer .. | .dynamicAddress .. | .setEndpointId ..
  | .mgtLinkChange .. | .modRstNRisingEdge .. | .coolantAlert .. | .flashProgramFailure .. => true

end Sys2Proof
end

