-- ==== Sys2Proof/Safety.lean ====
section
/-! DEFINITION. What a safe run is and the terms that statements about the machine use: one byte of memory, what two states
agree on, and the rows that drive a spool's commands. -/

namespace Sys2Proof.Machine

open Sys2Proof

/-! ### What a run keeps -/

/-- A rising list without repeats. -/
def Rising : List Nat → Prop
  | [] => True
  | [_] => True
  | x :: y :: l => x < y ∧ Rising (y :: l)

/-- The form every reachable state has: memory in its canonical form, the poisoned lines listed once and in order. -/
def Sound (s : State) : Prop := Memory.wf s.mem = true ∧ Rising s.poison

/-- A safe step answers a next state that is sound again. -/
def SafeStep (s : State) : Prop := ∃ t, step s = .next t ∧ Sound t

/-! ### What two states agree on -/

/-- The byte that lies at an address. -/
def byteAt (s : State) (a : Nat) : Byte := cellGet s.mem a

/-- An address outside `[base, base + n)`. -/
def Outside (a base n : Nat) : Prop := a < base ∨ base + n ≤ a

/-- Every byte of memory and every poisoned line is as it was. -/
def SameMemory (s t : State) : Prop := (∀ a, byteAt t a = byteAt s a) ∧ t.poison = s.poison

/-- Every register but those at the listed places reads as it did. -/
def SameRegsBut (ks : List RegKey) (s t : State) : Prop := ∀ r : Reg, r.key ∉ ks → getR t r = getR s r

/-- Every dictionary object but those listed reads as it did. -/
def SameObjectsBut (ks : List ObjKey) (s t : State) : Prop := ∀ k, k ∉ ks → objBytes t k = objBytes s k

/-- Nothing outside the register table and what the module reports differs: memory, bobbins, spools, memory devices, jobs, the
fabric, the connections between dies and the power manager are as they were. -/
def SameUnits (s t : State) : Prop :=
  t.mem = s.mem ∧ t.poison = s.poison ∧ t.eng = s.eng ∧ t.hub = s.hub ∧ t.dev = s.dev ∧ t.jobs = s.jobs ∧ t.fab = s.fab ∧ t.d2d = s.d2d ∧
    t.sec = s.sec ∧ t.pow = s.pow ∧ t.dict = s.dict

/-! ### Rows that are writes of one register (R371, R372) -/

/-- Who writes which register, for the rows that are the write of one register with an effect of its own. -/
def rowWrite : Instr → Option (Agent × RegKey)
  | .sqTail ag u _ => some (ag, (rSqTail u.e u.n u.s).key)
  | .cqHead ag u _ => some (ag, (rCqPtr u.e u.n u.s).key)
  | .spCfgEnable ag u _ | .spCfgDisable ag u _ | .resume ag u _ => some (ag, (rSpCfg u.e u.n u.s).key)
  | .ctxCfgValidSet ag e n _ | .ctxCfgValidClear ag e n _ => some (ag, (rCtxCfg e n).key)
  | .ctxCancel ag e n _ _ => some (ag, (rCtxCancel e n).key)
  | .bobMarkFill ag e n _ | .bobMarkReady ag e n _ _ | .bobMarkConsumed ag e n _ | .bobMarkRelease ag e n _ => some (ag, (rBobMark e n).key)
  | .bobArm ag e _ => some (ag, (rBobArm e).key)
  | .statSelSnap ag e w _ | .statSelClear ag e w _ => some (ag, statKey e w)
  | .statClearAll ag e => some (ag, (rStatClearAll e).key)
  | .abftInject ag e _ _ => some (ag, (rAbftInject e).key)
  | .frResumeRetry ag e _ _ | .frResumeKill ag e _ _ => some (ag, (rFrResume e).key)
  | .frPtrConsumer ag (.ctx e n) _ => some (ag, (rFrPtr e n).key)
  | .frPtrConsumer ag (.part p) _ => some (ag, (rRhPfrPtr p).key)
  | .engPwrReq ag e _ => some (ag, (rEngPwr e).key)
  | .engReset ag e _ => some (ag, (rEngReset e).key)
  | .dieReset ag _ _ => some (ag, rDieReset.key)
  | .coreHold ag p w _ => some (ag, (rCoreHold p w).key)
  | .migReqPromote ag _ _ | .migReqDemote ag _ => some (ag, rMigReq.key)
  | .poolArm ag _ => some (ag, rPoolArm.key)
  | .flushTag ag _ _ _ => some (ag, rRhFlush.key)
  | .rhReplyInstall ag _ | .rhReplyRefuse ag _ => some (ag, rRhReplyCtl.key)
  | .rhConsultPtrConsumer ag _ => some (ag, rRhConsultPtr.key)
  | .dirBiasReq ag _ _ _ => some (ag, rDirBiasReq.key)
  | .stepClose ag p _ | .stepRaise ag p _ | .stepRejoin ag p _ => some (ag, (rStepCtl p).key)
  | .optArm ag p _ => some (ag, (rOptArm p).key)
  | .ckptNext ag p | .ckptRestore ag p _ => some (ag, (rCkptCtl p).key)
  | .connInit ag _ | .connClose ag _ => some (ag, rConnCtl.key)
  | .stkRepairConnection ag d _ _ | .stkRepairRow ag d _ _ _ | .stkRepairColumn ag d _ _ _ => some (ag, (rStkRepair d).key)
  | .flReqWrite ag _ _ _ | .flReqTrim ag _ _ _ => some (ag, rFlReqCtl.key)
  | .auqMbxEnable ag p _ => some (ag, (rAuqMbx p).key)
  | _ => none

/-! ### Commands of a spool (R147, R149, R150) -/

/-- A row that drives one kind of command of a spool: which commands it serves, when FORMAT ends them, the bobbins they name
and what they do. -/
structure SpoolRow where
  row  : SpoolId → Instr
  sel  : Bytes → Bool
  bad  : SpoolId → State → Cmd → Bool
  bobs : Bytes → List Nat
  body : SpoolId → State → Cmd → State × Cmd × Act

/-- A command with opcode `op`. -/
def isOp (op : Nat) (b : Bytes) : Bool := decide (u8At b 0 = op)

def noBobs (_ : Bytes) : List Nat := []

/-- The bobbins of a MATMUL or MATMUL_ACC. -/
def mmBobs (b : Bytes) : List Nat := [u8At b 28, u8At b 29]

/-- The accumulator set that a command with DRAIN = 0 registers, before its tiles are done (R98). -/
def newSet (u : SpoolId) (slot : Nat) (x : Mm) : AccSet :=
  { n := u.n.val, id := x.id, m := x.m, cols := x.n, aRows := x.t, u := u, slot := slot, tiles := [] }

/-- A CARD of mode `m`. -/
def isCard (m : Nat) (b : Bytes) : Bool := decide (u8At b 0 = 0x30) && decide (u8At b 8 % 4 = m)

/-- The rows, but SIGNAL, which waits after its start. -/
def spoolRows : List SpoolRow := [
  ⟨.transfer, isOp 0x01, trBad, trBobs, trBody⟩,
  ⟨.transferInline, isOp 0x02, inlineBad, inlineBobs, inlineBody⟩,
  ⟨.matmul, isOp 0x10, mmBad, mmBobs, startOr (mmStart false)⟩,
  ⟨.matmulAcc, isOp 0x11, mmBad, mmBobs, startOr (mmStart true)⟩,
  ⟨.elemwise, isOp 0x18, ewBad, fun b => ewBobs (ewOf b), startOr ewStart⟩,
  ⟨.vecop, isOp 0x20, voBad, fun b => (voOf b).bobs, voBody⟩,
  ⟨.cardImage, isCard 0, imageBad, cardBobs, cardBody imageWork⟩,
  ⟨.cardTokens, isCard 1, tokensBad, cardBobs, cardBody tokensWork⟩,
  ⟨.allReduce, isColl 0, fun _ => collBad, noBobs, groupBody⟩,
  ⟨.reduceScatter, isColl 1, fun _ => collBad, noBobs, groupBody⟩,
  ⟨.allGather, isColl 2, fun _ => collBad, noBobs, groupBody⟩,
  ⟨.broadcast, isColl 3, fun _ => collBad, noBobs, groupBody⟩,
  ⟨.barrier, isColl 4, fun _ => collBad, noBobs, groupBody⟩,
  ⟨.put, isColl 8, fun _ => collBad, noBobs, pointBody⟩,
  ⟨.get, isColl 9, fun _ => collBad, noBobs, pointBody⟩,
  ⟨.atomic, isColl 10, fun _ => collBad, noBobs, pointBody⟩,
  ⟨.collectiveSend, isColl 11, fun _ => collBad, noBobs, pointBody⟩,
  ⟨.dispatch, isOp 0x41, fun _ => dpBad, noBobs, dispBody⟩,
  ⟨.combine, isOp 0x42, fun _ => cbBad, noBobs, combBody⟩,
  ⟨.wait, isOp 0x51, fun _ => waitBad, noBobs, waitBody⟩,
  ⟨.fence, isOp 0x52, fun _ => fenceBad, noBobs, fenceBody⟩,
  ⟨.task, isOp 0x60, fun _ => taskBad, taskBobs, taskBody⟩,
  ⟨.prefetch, isOp 0x70, fun _ => prefetchBad, noBobs, prefetchBody⟩]

/-- The command `c` is due: it is the one its spool acts on, `c0` is it with its start marked, in the state `s0`, and it passes the checks
of its start (R147, R149, R470, R471). -/
def CmdDue (sel : Bytes → Bool) (bad : State → Cmd → Bool) (bobs : Bytes → List Nat) (s : State) (u : SpoolId) (c : Cmd) (s0 : State) (c0 : Cmd) : Prop :=
  pick s u = some c ∧ markStart s u c = (s0, c0) ∧ sel c.bytes = true ∧ c.poisonLater = false ∧ headerOk c.bytes = true ∧ bad s0 c0 = false ∧
    (bobs c.bytes).any (badBobbin s u) = false

/-- A row's command is due. -/
def SpoolRow.Due (r : SpoolRow) (s : State) (u : SpoolId) (c : Cmd) (s0 : State) (c0 : Cmd) : Prop := CmdDue r.sel (r.bad u) r.bobs s u c s0 c0

/-- The spool's oldest unstarted command names no bobbin that is to be refused, and no access of a command of it waits. -/
def SpoolRow.Quiet (r : SpoolRow) (s : State) (u : SpoolId) : Prop :=
  (∀ c, oldestCmd s u = some c → (r.bobs c.bytes).any (badBobbin s u) = false) ∧ (∀ w ∈ s.hub.tierWaits, w.u ≠ u)

/-- The rows of CARD: which commands they serve and when FORMAT ends them. -/
def cardRows : List ((SpoolId → Instr) × (Bytes → Bool) × (SpoolId → State → Cmd → Bool)) := [(.cardImage, isCard 0, imageBad), (.cardTokens, isCard 1, tokensBad)]

/-- The rows of the group operations and of the point-to-point operations, with their OP codes (R331, R334). -/
def groupRows : List ((SpoolId → Instr) × Nat) := [(.allReduce, 0), (.reduceScatter, 1), (.allGather, 2), (.broadcast, 3), (.barrier, 4)]
def pointRows : List ((SpoolId → Instr) × Nat) := [(.put, 8), (.get, 9), (.atomic, 10), (.collectiveSend, 11)]

/-- A COLLECTIVE with operation `k` is due. -/
def CollDue (k : Nat) (s : State) (u : SpoolId) (c : Cmd) (s0 : State) (c0 : Cmd) : Prop := CmdDue (isColl k) collBad noBobs s u c s0 c0

/-- A command ends with a status and a detail: where it stood, it is marked ended, and its spool stops if the status says so. -/
def endsWith (s : State) (u : SpoolId) (c : Cmd) (status detail : Nat) : State := endCmd (putCmd s u c) u c.slot status detail

/-- A command whose accesses have all been made ends so; it waits for none of them any more. -/
def finishes (s : State) (u : SpoolId) (c : Cmd) (status detail : Nat) : State := endsWith (tierDone s u c.slot) u c status detail

/-- A command that has started goes on. -/
def goesOn (s : State) (u : SpoolId) (c : Cmd) : State := putCmd (tierDone s u c.slot) u { c with first := none }

/-- The condition of a WAIT holds of the value read: at least VALUE, equal to it, or not (R153). -/
def waitMet (flags v x : Nat) : Prop := if flags % 4 = 0 then x ≤ v else if flags % 4 = 1 then v = x else v ≠ x

/-- What a FENCE waits for: the uncompleted commands of the spools it names, of its own spool those before it (R154). -/
def fenceDeps (s : State) (u : SpoolId) (c : Cmd) : List (SpoolId × Nat) :=
  (List.finRange 4).flatMap (fun i =>
    if bitOf (u8At c.bytes 8 / 4 % 16) i.val then
      (if sibling u i = u then (spool s u).cmds.takeWhile (fun d => decide (d.slot ≠ c.slot)) else (spool s (sibling u i)).cmds).map (fun d => (sibling u i, d.slot))
    else [])

/-- No access of the command waits. -/
def NoWait (s : State) (u : SpoolId) (slot : Nat) : Prop := ∀ w ∈ s.hub.tierWaits, ¬(w.u = u ∧ w.slot = slot)

/-! ### The words of custom-0 (R121) -/

/-- A word of custom-0 in R-type form: opcode 0001011 in bits [6:0], rd in [11:7], funct3 in [14:12], rs1 in [19:15], rs2 in [24:20]. -/
def mxWord (funct3 : Nat) (rd rs1 rs2 : Fin 32) : Nat := 0b0001011 + 2 ^ 7 * rd.val + 2 ^ 12 * funct3 + 2 ^ 15 * rs1.val + 2 ^ 20 * rs2.val

/-! ### What waits at the hub (R206, R253, R269) -/

/-- No promotion has ended its copy and awaits its flush. -/
def NoneAwaitsFlush (s : State) : Prop := ∀ x ∈ s.hub.grans, x.2.state = 1 → x.2.copying = false

/-- Nothing waits at the hub: no access, write, flush or completion record, and no report that hub firmware has still to take. -/
def HubIdle (s : State) : Prop :=
  s.hub.stalled = [] ∧ s.hub.writes = [] ∧ s.hub.flushQ = [] ∧ s.hub.flushWait = [] ∧ (∀ x ∈ s.eng.spools, x.2.held = []) ∧ hotWaiting s = 0 ∧
    NoneAwaitsFlush s

/-- An access of memory that reaches its place: it is of no older generation of its unit, sleeping engines are not its place, and no rule
refuses it (R187, R280, R424, R428). -/
def Admitted (s : State) (r : MemReq) : Prop :=
  r.va = none ∧ r.mpa.toNat < mmioBase ∧ sleepingStore s r = none ∧ staleUnit s r = none ∧ reqBytes r ≠ 0 ∧ r.ecc ≠ .pathParityAddr ∧ refusal s r = none

/-- It is no access of a server core's cache to a DEVICE range, and no change of bias runs (R248, R276, R279). -/
def KeepsR248 (s : State) (r : MemReq) : Prop := (r.cached = false ∨ ∀ c p, r.agent ≠ .core c p) ∨ (r.shared = true ∧ s.hub.biasQ = [])

/-- The state in which an access reads and writes: its granules are touched, and the codes have reported (R200, R209, R390). -/
def touched (s : State) (r : MemReq) : State := reqEcc (touchSpan s r.mpa.toNat (reqBytes r) r.astag.toNat r.hint.toNat) r

/-- The agent keeps lines in a cache of its own. -/
def caches (r : MemReq) : Option Nat := if r.cached then presenceBit r.agent else none

/-! ### Engines that sleep (R424) -/

/-- An access that wakes an engine is held until it is ACTIVE. -/
def heldForWake (s : State) (e : Nat) (c : Instr) : State :=
  setEngAux s e { engAux s e with heldWake := (engAux s e).heldWake ++ [c], wake := true }

/-! ### Plalia messages (R347, R348) -/

/-- A row that is one Plalia message: the channel, direction and code it spells, and whether it carries data lines. -/
structure PlaRow where
  row  : Fin 19 → PlaMsg → Instr
  chan : Nat
  rsp  : Bool
  op   : Nat
  data : Bool

/-- The rows, but DISCOVER and AGREE, which need no open channel. -/
def plaRows : List PlaRow := [
  ⟨.rd, 0, false, 0, false⟩, ⟨.wr, 0, false, 1, true⟩, ⟨.wrp, 0, false, 2, true⟩, ⟨.atom, 0, false, 3, true⟩,
  ⟨.memData, 0, true, 0, true⟩, ⟨.memAck, 0, true, 1, false⟩,
  ⟨.rdShared, 1, false, 0, false⟩, ⟨.rdOwn, 1, false, 1, false⟩, ⟨.snpInv, 1, false, 2, false⟩, ⟨.snpFwd, 1, false, 3, false⟩,
  ⟨.wb, 1, false, 4, true⟩, ⟨.cohData, 1, true, 0, true⟩, ⟨.cohAck, 1, true, 1, false⟩,
  ⟨.msi, 2, false, 0, false⟩, ⟨.dmiRd, 3, false, 0, false⟩, ⟨.dmiWr, 3, false, 1, true⟩, ⟨.dbgData, 3, true, 0, true⟩,
  ⟨.dict, 4, false, 2, false⟩, ⟨.resetReq, 4, false, 3, false⟩, ⟨.telemetry, 4, false, 4, false⟩,
  ⟨.mgtData, 4, true, 0, true⟩, ⟨.mgtAck, 4, true, 1, false⟩]

/-- The rows that are responses. -/
def plaResponses : List PlaRow := plaRows.filter (fun r => r.rsp)

/-- A message that the row stands for, sound, over a connection with that channel open. -/
def PlaRow.Arrives (r : PlaRow) (s : State) (l : Fin 19) (m : PlaMsg) : Prop :=
  (link s l).inReset = false ∧ chanOpen s l r.chan = true ∧ plaSpells m r.chan r.rsp r.op r.data = true ∧ m.parity = .ok

/-- A connection over which messages arrive. -/
def LinkOpen (s : State) (l : Fin 19) : Prop := linkState s l ≠ lkDown ∧ linkState s l ≠ lkFailed ∧ (link s l).inReset = false

/-- The hub's end sent one message more on the connection: the answer to `m`, with its tag. -/
def Replied (s t : State) (l : Fin 19) (m : PlaMsg) (status : Nat) (data : Bytes) : Prop :=
  ∃ r : PlaMsg, t.d2d.out = s.d2d.out ++ [(l.val, r)] ∧ r.rsp = true ∧ r.chan = m.chan ∧ r.tag = m.tag ∧
    r.status = BitVec.ofNat 8 status ∧ r.data = data

/-! ### Ehrant frames (R314, R315, R320, R325) -/

/-- The rows that are one frame with a packet number, with their opcodes. -/
def frameRows : List ((Frame → Instr) × Nat) := [
  (.write, 0x01), (.readReq, 0x02), (.readResp, 0x03), (.atomicReq, 0x04), (.atomicResp, 0x05), (.send, 0x06), (.collData, 0x10),
  (.dispatchCount, 0x11), (.dispatchGrant, 0x12), (.dispatchRow, 0x13), (.combineReq, 0x14), (.combineResp, 0x15)]

/-- A frame of opcode `k`, its payload sound, reaches its open connection, whose context is cached; `t` is the state in which it is
delivered, what waited before it having tried again. -/
def Reaches (s t : State) (f : Frame) (k : Nat) : Prop :=
  f.opcode.toNat = k ∧ f.cls.toNat ≤ 2 ∧ f.hurt = [] ∧
    ∃ s1 s2, takeIn s f = (s1, true) ∧ admitConn (retryHeld s1) f = (s2, true) ∧ useCtx s2 f.conn.toNat = (t, true)

/-- The frame lies in the connection's window, has not arrived before, waits for no other and comes from the domain: it is
applied now. -/
def Applies (t : State) (f : Frame) : Prop :=
  let c := conn t f.conn.toNat
  psnAhead c f < 2 ^ 23 ∧ psnAhead c f < 2 ^ c.winLog2 ∧ (arrivedPsns t f.conn.toNat).elem f.psn.toNat = false ∧ (f.fence = true → psnAhead c f = 0) ∧
    (f.opcode = 0x06 ∨ inDomain t f.srcPeer.toNat = true)

/-- The packet is applied, its number and its arrival noted, and the FENCE packets of the connection that can follow are delivered too. -/
def applied (s : State) (f : Frame) : State :=
  let s := noteApplied s f.conn.toNat f false
  deliverFenced s f.conn.toNat (conn s f.conn.toNat).fenced.length

/-- The FENCE packets of the connection that can follow are delivered too. -/
def thenFenced (s : State) (id : Nat) : State := deliverFenced s id (conn s id).fenced.length

end Sys2Proof.Machine
end

