-- ==== Sys2Proof/Certificates/Slice0/Obligations.lean ====
section
/-! DEFINITION. The statements about the machine, for the provers: what a step is, what every command keeps, the rights of register
writes, and for each family of rows what its commands do and leave alone. -/

open Sys2Proof Sys2Proof.Machine


/-! ### The machine as a whole -/

/-- A step runs the command at the front of the queue, with the queue's rest (no rule of the manual: the block's interface). -/
def Obligations.StepRunsFrontCommand : Prop :=
  (∀ (c : Instr) (rest : List Instr) (s : State), s.pending = c :: rest → step s = exec c { s with pending := rest }) ∧
  (∀ (c : Instr) (s : State), step { s with pending := c :: s.pending } = exec c s)

/-- Every command answers a next state: no event stops the module. It leaves the waiting commands alone and takes no module time; a power-on starts the module's time at 0 (the model's choice, log 1). -/
def Obligations.EveryCommandCompletesAndKeepsTheQueue : Prop :=
  ∀ (c : Instr) (s : State), ∃ t, exec c s = .next t ∧ t.pending = s.pending ∧ (t.time = s.time ∨ t.time = 0)

/-- Reset has nothing in memory, no poisoned line and no waiting command. Values that reset gives, one of each kind of state: registers, dictionary objects, engines, spools, the fabric, the power manager. On an empty queue a step lets one nanosecond of module time pass and touches nothing else of memory, registers and objects (the model's own choice, log 1). The empty queue, the output lists and the registers without a stated value start as logs 1, 63 and 103 choose. -/
def Obligations.ResetIsSoundAndTheIdleBlockPassesTime : Prop :=
  (
  Sound State.reset ∧ State.reset.mem = [] ∧ State.reset.pending = [] ∧ State.reset.time = 0) ∧
  (
  getR State.reset (rAbftTol 0) = 0xE8F9 ∧ getF State.reset (rArrayState 3 5) fArrayStatePosition = 5 ∧
  getF State.reset (rArrayState 3 12) fArrayStateState = 1 ∧ getF State.reset (rStatFind 7) fStatFindEntry = 255 ∧
  objNat State.reset oTierTimeout = 100 ∧ objNat State.reset oTenantIsolate = 0 ∧ objNat State.reset oStartState = 0 ∧
  (spool State.reset ⟨31, 15, 3⟩).cmds = [] ∧ spState State.reset ⟨31, 15, 3⟩ = spDisabled ∧ bobState State.reset 0 0 = bUnalloc ∧
  State.reset.fab.ops = [] ∧ State.reset.pow.pwrGood = false) ∧
  (
  ∀ s : State, s.pending = [] → ∃ t, step s = .next t ∧ t.time = s.time + 1 ∧ t.pending = [] ∧ t.mem = s.mem ∧ t.poison = s.poison ∧
    t.regs = s.regs ∧ t.dict = s.dict)

/-- Every step keeps memory in its canonical form and the poisoned lines listed once and in order, from every state that has that form. -/
def Obligations.StepKeepsSound : Prop :=
 ∀ s t : State, Sound s → step s = .next t → Sound t

/-- R375, over all commands: FUSE_SVN rises only with SVN_COMMIT, and never falls. -/
def Obligations.OnlySvnCommitRaisesFuseSvn : Prop :=
  ∀ (c : Instr) (s t : State), exec c s = .next t →
    (c ≠ .svnCommit → t.sec.fuseSvn = s.sec.fuseSvn) ∧ s.sec.fuseSvn ≤ t.sec.fuseSvn

/-! ### Memory and rights -/

/-- A byte string written where it lies is read back, every byte outside it stays, whole lines under it lose their poison and every other line keeps it (R214). A read at an MPA redirects the home of a granule in RESIDENT_HIGH or DEMOTING to its frame (R206), an address of the direct view in its die's spread region to that byte's place in the spread view (R189, R190), and reads every other address where it lies. -/
def Obligations.MemoryReadAfterWrite : Prop :=
  (
  ∀ (s : State) (a : Nat) (bs : Bytes), Memory.wf s.mem = true → bs ≠ [] →
    (∀ i, i < bs.length → byteAt (rawWrite s a bs) (a + i) = bs.getD i 0) ∧
    (∀ x, Outside x a bs.length → byteAt (rawWrite s a bs) x = byteAt s x) ∧
    (∀ l, l ∈ (rawWrite s a bs).poison ↔ l ∈ s.poison ∧ lineWhole a bs.length l = false)) ∧
  (
  (∀ (s : State) (g o : Nat), g < granCount → o < granBytes → ((gran s g).state = 2 ∨ (gran s g).state = 3) →
    locate s (g * granBytes + o) = frameAddr (gran s g).frame + o) ∧
  (∀ (s : State) (g o : Nat), g < granCount → o < granBytes → (gran s g).state ≠ 2 → (gran s g).state ≠ 3 →
    locate s (g * granBytes + o) = g * granBytes + o) ∧
  (∀ (s : State) (d o : Nat), d < 8 → spreadGib s ≤ 48 → (48 - spreadGib s) * gib ≤ o → o < 48 * gib →
    locate s (stackBase + d * (64 * gib) + o) = spreadAt d (o - (48 - spreadGib s) * gib)) ∧
  (∀ (s : State) (d o : Nat), d < 8 → o < (48 - spreadGib s) * gib → locate s (stackBase + d * (64 * gib) + o) = stackBase + d * (64 * gib) + o) ∧
  (∀ (s : State) (a : Nat), bulkBytes ≤ a → (a < stackBase ∨ sramBase ≤ a) → locate s a = a))

/-- A row that writes a register, from a requester without the right to it, writes nothing and counts in SEC_VIOLATIONS. -/
def Obligations.RefusedRegisterRowsOnlyCount : Prop :=
  ∀ (c : Instr) (ag : Agent) (k : RegKey) (s : State), rowWrite c = some (ag, k) → regRight s ag k = false →
    ∃ t, exec c s = .next t ∧ getF t rSecViolations fSecViolationsCount = min (getF s rSecViolations fSecViolationsCount + 1) (2 ^ fSecViolationsCount.width - 1) ∧
      SameRegsBut [rSecViolations.key] s t ∧ SameUnits s t

/-- R372: a context window or a per-partition window accepts accesses only from requesters of the partition that owns it; any other access reads 0, writes nothing and counts. -/
def Obligations.WindowsAcceptOnlyTheirPartition : Prop :=
  ∀ (s : State) (ag : Agent) (k : RegKey) (o : Nat), mmioTarget o = .reg k → o % 8 = 0 → o < 2 ^ 40 →
    (k.blk = .engC ∨ k.blk = .hubWin ∨ k.blk = .carderWin) →
    (∀ d, ag = .debugger d → debugLevel s ≠ 2) →
    (let owner := if k.blk = .engC then engOwner s k.i else some k.i
     regRight s ag k = (decide (owner.isSome) && decide (agentPart s ag = owner))) ∧
    (regRight s ag k = false →
      (∀ (val : BitVec 64), exec (.registerWrite ag (BitVec.ofNat 40 o) .w64 val) s = .next (violation s)) ∧
      mmioRead s ag o .w64 false = (violation s, some 0))

/-! ### Commands of a spool -/

/-- A spool's row with no command to act on, or with one of another kind in front, changes nothing, where no bobbin is to be refused and no access waits (the event's condition does not hold). The checks of a start, in their order: a TRANSFER_INLINE with a later poisoned slot ends with POISON and raises its step's Pennant (R471, R286), a reserved header bit or an invalid field with FORMAT (R147, R149), a bobbin that the command may not name with RESOURCE (R470), and that as soon as the command is the oldest unstarted, whatever it awaits. That an event whose condition does not hold changes nothing is the model's reading (log 4). -/
def Obligations.SpoolCommandsAreCheckedBeforeTheyStart : Prop :=
  (
  (∀ r ∈ spoolRows, ∀ (s : State) (u : SpoolId), pick s u = none → r.Quiet s u → exec (r.row u) s = .next s) ∧
  (∀ r ∈ spoolRows, ∀ (s : State) (u : SpoolId) (c : Cmd), pick s u = some c → r.sel c.bytes = false → r.Quiet s u → exec (r.row u) s = .next s) ∧
  (∀ (s : State) (u : SpoolId), s.pow.stopped = true ∨ spState s u ≠ spActive ∨ (spool s u).held ≠ [] ∨ (spool s u).cqHold ≠ none → startable s u = none)) ∧
  (
  (∀ r ∈ spoolRows, ∀ (s s0 : State) (u : SpoolId) (c c0 : Cmd), pick s u = some c → markStart s u c = (s0, c0) → r.sel c.bytes = true → c.poisonLater = true →
    exec (r.row u) s = .next (endsWith (raisePennant s0 (ctxPart s0 u.e u.n) c0.step 6) u c0 stPoison 0)) ∧
  (∀ r ∈ spoolRows, ∀ (s s0 : State) (u : SpoolId) (c c0 : Cmd), pick s u = some c → markStart s u c = (s0, c0) → r.sel c.bytes = true → c.poisonLater = false →
    (headerOk c.bytes = false ∨ r.bad u s0 c0 = true) →
    exec (r.row u) s = .next (endsWith s0 u c0 stFormat 0)) ∧
  (∀ r ∈ spoolRows, ∀ (s s0 : State) (u : SpoolId) (c c0 : Cmd), pick s u = some c → markStart s u c = (s0, c0) → r.sel c.bytes = true → c.poisonLater = false →
    headerOk c.bytes = true → r.bad u s0 c0 = false → (r.bobs c.bytes).any (badBobbin s u) = true →
    exec (r.row u) s = .next (endsWith s0 u c0 stResource 0)) ∧
  (∀ r ∈ spoolRows, ∀ (s s0 : State) (u : SpoolId) (c c0 : Cmd), oldestCmd s u = some c → markStart s u c = (s0, c0) → (∀ d, pick s u = some d → r.sel d.bytes = false) →
    r.sel c.bytes = true → c.poisonLater = false → headerOk c.bytes = true → r.bad u s c = false → (r.bobs c.bytes).any (badBobbin s u) = true →
    exec (r.row u) s = .next (endsWith s0 u c0 stResource 0)))

/-- A command that is due does what its body gives: it ends with the status and detail, goes on, faults, asks the handler, waits with an access at a migrating granule or a held line (R206, R271), or waits for an input condition and has not started (R149, R150, R252, R256). The body of a row is the model's own function; the choices in it carry logs 5 and 16. -/
def Obligations.DueCommandsDoTheirWork : Prop :=
  ∀ r ∈ spoolRows, ∀ (s s0 : State) (u : SpoolId) (c c0 : Cmd), r.Due s u c s0 c0 →
    (∀ s2 c2 st d, r.body u s0 c0 = (s2, c2, .ends st d) → exec (r.row u) s = .next (finishes s2 u c2 st d)) ∧
    (∀ s2 c2, r.body u s0 c0 = (s2, c2, .runs) → exec (r.row u) s = .next (goesOn s2 u c2)) ∧
    (∀ s2 c2, r.body u s0 c0 = (s2, c2, .waits) → exec (r.row u) s = .next s) ∧
    (∀ s2 c2 ps, r.body u s0 c0 = (s2, c2, .held ps) → exec (r.row u) s = .next (tierHold s u c2.slot ps)) ∧
    (∀ s2 c2 ps, r.body u s0 c0 = (s2, c2, .holds ps) → exec (r.row u) s = .next (tierHold (putCmd s2 u c2) u c2.slot ps)) ∧
    (∀ s2 c2 i b, r.body u s0 c0 = (s2, c2, .faults i b) →
      exec (r.row u) s = .next (faultCmd (putCmd (tierDone s2 u c2.slot) u c2) u c2.slot i b)) ∧
    (∀ s2 c2 q va e, r.body u s0 c0 = (s2, c2, .asks q va e) → ∃ s3 id,
      addConsult (putCmd (tierDone s2 u c2.slot) u c2) (cmdXreq q u c2.slot va) e = (s3, id) ∧
        exec (r.row u) s = .next (updCmd s3 u c2.slot (fun c => { c with stall := .consult id })))

/-- R286, R151: a command that starts takes the engine's next start number, its partition's CUR_STEP and the time. How a command ends (R149): where it stood in its spool it is marked ended with its status and detail, every other command of the spool stays, and a status marked "Stops", or the POISON of a WAIT, takes an ACTIVE spool to STOPPED; every other status leaves it ACTIVE. -/
def Obligations.CommandsStartAndEnd : Prop :=
  (
  (∀ (s : State) (u : SpoolId) (c : Cmd), c.phase = .fetched →
    (markStart s u c).2 = { c with phase := .started, order := (engAux s u.e).order, step := curStep s (ctxPart s u.e u.n), since := s.time } ∧
    (engAux (markStart s u c).1 u.e).order = (engAux s u.e).order + 1 ∧ (markStart s u c).1.regs = s.regs ∧ (markStart s u c).1.mem = s.mem) ∧
  (∀ (s : State) (u : SpoolId) (c : Cmd), c.phase = .retry → markStart s u c = (s, { c with phase := .started }))) ∧
  (
  ∀ (s : State) (u : SpoolId) (slot st d : Nat),
    (spool (endCmd s u slot st d) u).cmds =
      (spool s u).cmds.map (fun c => if c.slot = slot then { c with phase := .ended, status := st, detail := d, stall := .none } else c) ∧
    (spState s u = spActive → spState (endCmd s u slot st d) u =
      if stopping st = true ∨ (st = stPoison ∧ (spoolCmd s u slot).any (fun c => decide (c.opcode = 0x51)) = true) then spStopped else spActive) ∧
    (spState s u ≠ spActive → spState (endCmd s u slot st d) u = spState s u) ∧
    (endCmd s u slot st d).mem = s.mem ∧ (endCmd s u slot st d).poison = s.poison ∧
    (∀ st' : Nat, stopping st' = true ↔ st' = stStale ∨ st' = stTimeout ∨ st' = stFormat ∨ st' = stResource))

/-- MATMUL (R94, R97, R98): with both inputs READY, no set held under its ACC_ID and rows for its accumulators, it starts over all its output tiles with the accumulators at zero, with DRAIN = 0 the set registered under its ACC_ID and held; it reads its two bobbins and stores nothing yet. MATMUL_ACC (R98) with LOAD = 0: the set held under its ACC_ID in its context, of the same shape, is taken up by the command, which starts over all its output tiles from the accumulators held; with LOAD = 1, its output range readable, it starts from the FP32 values there, with DRAIN = 0 the set registered. A command that continues a set of another shape ends with FORMAT; with LOAD = 0 and no set held, MATMUL on a held set, LOAD = 1 with DRAIN = 0 on a held set, or accumulators without room, it ends with RESOURCE. ELEMWISE (R103) with its inputs READY starts over its 16,384-element tiles. VECOP (R132 to R139) with its inputs READY and outputs free reads its sources, takes its outputs, writes what its rows give and ends with OK, or with POISON where it consumed poison. None of them starts while an input is not READY. That the whole output is written at the command's end is the model's choice (log 16), as is the status of MATMUL on a held set; that a command waits for one that releases the set it would continue is too (log 126). Rows completed: MATMUL, MATMUL_ACC, ELEMWISE, VECOP. -/
def Obligations.MatrixAndVectorCommands : Prop :=
  (
  (∀ (s s0 : State) (u : SpoolId) (c c0 : Cmd), CmdDue (isOp 0x10) (mmBad u) mmBobs s u c s0 c0 → NoWait s u c.slot → runOf s u c.slot = none →
    accSet s u.e u.n (mmOf c.bytes).id = none → insReady s u (mmBobs c.bytes) = true → noRoom s u.e (mmOf c.bytes) (!(mmOf c.bytes).drain) = false →
    ∃ t s2 c2, exec (.matmul u) s = .next t ∧ t = goesOn s2 u c2 ∧ c2.slot = c.slot ∧ c2.reads = (mmBobs c.bytes).dedup ∧
      (∃ r, (engAux t u.e).runs = (engAux s u.e).runs ++ [r] ∧ r.u = u ∧ r.slot = c.slot ∧ r.todo = List.range (tileCount (mmOf c.bytes)) ∧
        r.init = none ∧ r.done = [] ∧ r.fixed = !(mmOf c.bytes).drain) ∧
      ((mmOf c.bytes).drain = true → (engAux t u.e).accs = (engAux s u.e).accs) ∧
      ((mmOf c.bytes).drain = false → (engAux t u.e).accs = (engAux s u.e).accs ++ [newSet u c.slot (mmOf c.bytes)] ∧
        getF t (rCtxAccHeld u.e u.n) ⟨(mmOf c.bytes).id, (mmOf c.bytes).id⟩ = 1) ∧ SameMemory s t) ∧
  (∀ (s s0 : State) (u : SpoolId) (c c0 : Cmd), CmdDue (isOp 0x10) (mmBad u) mmBobs s u c s0 c0 → runOf s u c.slot = none → insReady s u (mmBobs c.bytes) = true →
    ((accSet s u.e u.n (mmOf c.bytes).id).isSome = true ∨ noRoom s u.e (mmOf c.bytes) (!(mmOf c.bytes).drain) = true) →
    exec (.matmul u) s = .next (finishes s0 u c0 stResource 0)) ∧
  (∀ (s s0 : State) (u : SpoolId) (c c0 : Cmd), CmdDue (isOp 0x10) (mmBad u) mmBobs s u c s0 c0 → runOf s u c.slot = none → insReady s u (mmBobs c.bytes) = false →
    exec (.matmul u) s = .next s)) ∧
  (
  (∀ (s s0 : State) (u : SpoolId) (c c0 : Cmd) (a : AccSet), CmdDue (isOp 0x11) (mmBad u) mmBobs s u c s0 c0 → NoWait s u c.slot → runOf s u c.slot = none →
    (mmOf c.bytes).load = false → accSet s u.e u.n (mmOf c.bytes).id = some a → a.m = (mmOf c.bytes).m → a.cols = (mmOf c.bytes).n → a.aRows = (mmOf c.bytes).t →
    insReady s u (mmBobs c.bytes) = true → (setRuns s u.e u.n (mmOf c.bytes).id).any (fun y => (mmOf y.2.bytes).drain) = false →
    ∃ t s2 c2, exec (.matmulAcc u) s = .next t ∧ t = goesOn s2 u c2 ∧ c2.slot = c.slot ∧ c2.reads = (mmBobs c.bytes).dedup ∧
      (∃ r, (engAux t u.e).runs = (engAux s u.e).runs ++ [r] ∧ r.u = u ∧ r.slot = c.slot ∧ r.todo = List.range (tileCount (mmOf c.bytes)) ∧
        r.init = none ∧ r.done = [] ∧ r.fixed = true) ∧
      { a with u := u, slot := c.slot } ∈ (engAux t u.e).accs ∧ SameMemory s t) ∧
  (∀ (s s0 s2 s3 : State) (u : SpoolId) (c c0 : Cmd) (ps : List Piece) (x : Mm) (pois : Bool), CmdDue (isOp 0x11) (mmBad u) mmBobs s u c s0 c0 → runOf s u c.slot = none →
    x = mmOf c.bytes → x.load = true → (x.drain = true ∨ accSet s u.e u.n x.id = none) → insReady s u (mmBobs c.bytes) = true → noRoom s u.e x (!x.drain) = false →
    reach s0 (engReq s0 u 4 false true) x.out ((x.m - 1) * x.pitch + 4 * x.n) = (s2, .ok ps) →
    pois = (List.range x.m).any (fun r => (vaSrc (piecesTouch s2 ps) ps).poisoned (r * x.pitch) (4 * x.n)) →
    s3 = (if pois then cmdPoison (piecesTouch s2 ps) u c0.step (firstPoison (piecesTouch s2 ps) ps) else piecesTouch s2 ps) →
    ∃ s4 c2, exec (.matmulAcc u) s = .next (goesOn s4 u c2) ∧ c2.slot = c.slot ∧ c2.reads = (mmBobs c.bytes).dedup ∧
      (∃ r, (engAux s4 u.e).runs = (engAux s3 u.e).runs ++ [r] ∧ r.u = u ∧ r.slot = c.slot ∧ r.todo = List.range (tileCount x) ∧
        r.init = some (readInit (vaSrc (piecesTouch s2 ps) ps) x.m x.n x.pitch) ∧ r.done = [] ∧ r.fixed = !x.drain ∧ r.pois = pois) ∧
      (x.drain = false → ∃ a ∈ (engAux s4 u.e).accs, a.n = u.n.val ∧ a.id = x.id ∧ a.m = x.m ∧ a.cols = x.n ∧ a.aRows = x.t ∧ a.u = u ∧ a.slot = c.slot)) ∧
  (∀ (s s0 : State) (u : SpoolId) (c c0 : Cmd) (a : AccSet), CmdDue (isOp 0x11) (mmBad u) mmBobs s u c s0 c0 → runOf s u c.slot = none →
    (mmOf c.bytes).load = false → accSet s u.e u.n (mmOf c.bytes).id = some a →
    (a.m ≠ (mmOf c.bytes).m ∨ a.cols ≠ (mmOf c.bytes).n ∨ a.aRows ≠ (mmOf c.bytes).t) →
    insReady s u (mmBobs c.bytes) = true → (setRuns s u.e u.n (mmOf c.bytes).id).any (fun y => (mmOf y.2.bytes).drain) = false →
    exec (.matmulAcc u) s = .next (finishes s0 u c0 stFormat 0)) ∧
  (∀ (s s0 : State) (u : SpoolId) (c c0 : Cmd), CmdDue (isOp 0x11) (mmBad u) mmBobs s u c s0 c0 → runOf s u c.slot = none → insReady s u (mmBobs c.bytes) = true →
    (((mmOf c.bytes).load = false ∧ accSet s u.e u.n (mmOf c.bytes).id = none ∧
        (setRuns s u.e u.n (mmOf c.bytes).id).any (fun y => (mmOf y.2.bytes).drain) = false) ∨
      ((mmOf c.bytes).load = true ∧ (((mmOf c.bytes).drain = false ∧ (accSet s u.e u.n (mmOf c.bytes).id).isSome = true) ∨
        noRoom s u.e (mmOf c.bytes) (!(mmOf c.bytes).drain) = true))) →
    exec (.matmulAcc u) s = .next (finishes s0 u c0 stResource 0)) ∧
  (∀ (s s0 : State) (u : SpoolId) (c c0 : Cmd), CmdDue (isOp 0x11) (mmBad u) mmBobs s u c s0 c0 → runOf s u c.slot = none →
    (insReady s u (mmBobs c.bytes) = false ∨ ((mmOf c.bytes).load = false ∧ (setRuns s u.e u.n (mmOf c.bytes).id).any (fun y => (mmOf y.2.bytes).drain) = true)) →
    exec (.matmulAcc u) s = .next s)) ∧
  (
  (∀ (s s0 : State) (u : SpoolId) (c c0 : Cmd), CmdDue (isOp 0x18) (ewBad u) (fun b => ewBobs (ewOf b)) s u c s0 c0 → NoWait s u c.slot → runOf s u c.slot = none →
    insReady s u (ewBobs (ewOf c.bytes)) = true →
    ∃ t s2 c2, exec (.elemwise u) s = .next t ∧ t = goesOn s2 u c2 ∧ c2.slot = c.slot ∧ c2.reads = (ewBobs (ewOf c.bytes)).dedup ∧
      (∃ r, (engAux t u.e).runs = (engAux s u.e).runs ++ [r] ∧ r.u = u ∧ r.slot = c.slot ∧ r.todo = List.range (cdiv (ewOf c.bytes).count 16384) ∧ r.done = []) ∧
      SameMemory s t) ∧
  (∀ (s s0 : State) (u : SpoolId) (c c0 : Cmd), CmdDue (isOp 0x18) (ewBad u) (fun b => ewBobs (ewOf b)) s u c s0 c0 → runOf s u c.slot = none →
    insReady s u (ewBobs (ewOf c.bytes)) = false → exec (.elemwise u) s = .next s)) ∧
  (
  (∀ (s s0 : State) (u : SpoolId) (c c0 : Cmd) (v : Vo) (fx fy fo : Fmt) (q : VoSrc) (p : Option Nat), CmdDue (isOp 0x20) (voBad u) (fun b => (voOf b).bobs) s u c s0 c0 →
    v = voOf c.bytes → drainFmt v.fx = some fx → drainFmt v.fy = some fy → drainFmt v.fo = some fo →
    insReady s0 u v.ins = true → v.fillsOf.all (fun b => outReady s0 u c.slot b) = true → q = voSources v fx fy s0 u → p = voConsumes v fx fy fo s0 u q →
    exec (.vecop u) s = .next (finishes (voWork v fx fy fo (voTake v s0 u c0 p) u c0 q) u (voCmd v c0) (if p.isSome then stPoison else stOk) 0)) ∧
  (∀ (s s0 : State) (u : SpoolId) (c c0 : Cmd), CmdDue (isOp 0x20) (voBad u) (fun b => (voOf b).bobs) s u c s0 c0 →
    (insReady s u (voOf c.bytes).ins = false ∨ (voOf c.bytes).fillsOf.all (fun b => outReady s0 u c.slot b) = false) → exec (.vecop u) s = .next s))

/-- TRANSFER and TRANSFER_INLINE complete. TRANSFER_INLINE to a bobbin that it may fill (R157, R165): its payload lands in the bobbin from the offset it names, the command ends OK with the number of bytes, and every byte of memory outside the payload's place stays; to a VA whose span translates, the payload is written there. TRANSFER (R160 to R163), every form: with its format, a free mover or its own, its source bobbin READY, its destination bobbin free and, for a copy from memory to memory, a staging bobbin, it reads its source, writes its destination, gives its staging bobbins back, counts the bytes in its mover's MOVER_BYTES and ends OK with the bytes it wrote. Of its LINEAR forms between bobbins: zeros make the destination's span zero, a copy gives it the source's bytes, and every other byte of memory stays. With no staging bobbin in its context a staged copy ends RESOURCE; with an input, an output or a mover not free it waits. That the bytes land at one step is the model's choice (logs 5, 98). Rows completed: TRANSFER, TRANSFER_INLINE. -/
def Obligations.TransfersFillTheirSpans : Prop :=
  (
  (∀ (s s0 : State) (u : SpoolId) (c c0 : Cmd), CmdDue (isOp 0x02) (inlineBad u) inlineBobs s u c s0 c0 →
    bitOf (u8At c.bytes 8) 0 = true → outReady s0 u c0.slot (u8At c.bytes 10) = true → s.hub.breach = [] → c.bytes.length = 256 → Memory.wf s.mem = true →
    ∃ t s2 c2, exec (.transferInline u) s = .next t ∧ t = finishes s2 u c2 stOk (u8At c.bytes 9) ∧ c2.slot = c.slot ∧ c2.fills = [u8At c.bytes 10] ∧
      (∀ i, i < u8At c.bytes 9 → byteAt t (bobBase s u.e (u8At c.bytes 10) + u64At c.bytes 16 + i) = c.bytes.getD (64 + i) 0) ∧
      (∀ a, Outside a (bobBase s u.e (u8At c.bytes 10) + u64At c.bytes 16) (u8At c.bytes 9) → byteAt t a = byteAt s a)) ∧
  (∀ (s s0 : State) (u : SpoolId) (c c0 : Cmd), CmdDue (isOp 0x02) (inlineBad u) inlineBobs s u c s0 c0 →
    bitOf (u8At c.bytes 8) 0 = true → outReady s0 u c0.slot (u8At c.bytes 10) = true →
    exec (.transferInline u) s = .next (finishes
      (bobWrite (bobFill s0 u c0.slot (u8At c.bytes 10) (bitOf (u8At c.bytes 8) 1)) u.e (u8At c.bytes 10) (u64At c.bytes 16) ((c.bytes.drop 64).take (u8At c.bytes 9)))
      u { c0 with fills := [u8At c.bytes 10], readers := u16At c.bytes 12, cont := bitOf (u8At c.bytes 8) 1 } stOk (u8At c.bytes 9))) ∧
  (∀ (s s0 s2 : State) (u : SpoolId) (c c0 : Cmd) (ps : List Piece), CmdDue (isOp 0x02) (inlineBad u) inlineBobs s u c s0 c0 →
    bitOf (u8At c.bytes 8) 0 = false → reach s0 (engReq s0 u 0 true false) (u64At c.bytes 16) (u8At c.bytes 9) = (s2, .ok ps) →
    exec (.transferInline u) s = .next (finishes (piecesWrite s2 ps ((c.bytes.drop 64).take (u8At c.bytes 9))) u c0 stOk (u8At c.bytes 9))) ∧
  (∀ (s s0 : State) (u : SpoolId) (c c0 : Cmd), CmdDue (isOp 0x02) (inlineBad u) inlineBobs s u c s0 c0 →
    bitOf (u8At c.bytes 8) 0 = true → outReady s0 u c0.slot (u8At c.bytes 10) = false → exec (.transferInline u) s = .next s)) ∧
  (
  (∀ (s s0 s1 s2 : State) (u : SpoolId) (c c0 : Cmd) (f : Fmt) (m : Nat) (src : Src) (t : Tgt), CmdDue (isOp 0x01) (trBad u) trBobs s u c s0 c0 →
    (trOf c.bytes).format = some f → ((trOf c.bytes).staged = true → stagings s0 u.e u.n ≠ [] ∧ trStage s0 u c0 f ≠ []) →
    ((trOf c.bytes).srcBob = true → insReady s0 u [(trOf c.bytes).sb] = true) →
    ((trOf c.bytes).dstBob = true → (trOf c.bytes).inPlace = true ∨ outReady s0 u c0.slot (trOf c.bytes).db = true) → trMover s0 u c0 = some m →
    trSource (trTake s0 u c0.slot (trOf c.bytes) (trStage s0 u c0 f)) u (trOf c.bytes) f = (s1, .ok src) → trTarget s1 u (trOf c.bytes) f = (s2, .ok t) →
    exec (.transfer u) s = .next (finishes
      (advance (freeStaging (trPut s2 t (trOf c.bytes) f src) u (trStage s0 u c0 f)) (rMoverBytes u.e m) fMoverBytesBytes ((trOf c.bytes).dstLen f))
      u { trCmd c0 m (trOf c.bytes) f (trStage s0 u c0 f) with stage := [] } stOk ((trOf c.bytes).dstLen f))) ∧
  (∀ (s s0 : State) (u : SpoolId) (c c0 : Cmd), CmdDue (isOp 0x01) (trBad u) trBobs s u c s0 c0 → c.mover = none →
    (trOf c.bytes).array = false → (trOf c.bytes).dstBob = true → ((trOf c.bytes).zero = true ∨ (trOf c.bytes).srcBob = true) →
    ((trOf c.bytes).srcBob = true → insReady s u [(trOf c.bytes).sb] = true) → ((trOf c.bytes).inPlace = true ∨ outReady s u c.slot (trOf c.bytes).db = true) →
    (freeMover s u.e).isSome = true → s.hub.breach = [] → Memory.wf s.mem = true →
    ∃ t s2 c2, exec (.transfer u) s = .next t ∧ t = finishes s2 u c2 stOk (trOf c.bytes).len ∧ c2.slot = c.slot ∧
      (∀ i, i < (trOf c.bytes).len → byteAt t (bobBase s u.e (trOf c.bytes).db + (trOf c.bytes).dst + i) =
        if (trOf c.bytes).zero = true then 0 else byteAt s (bobBase s u.e (trOf c.bytes).sb + (trOf c.bytes).src + i)) ∧
      (∀ a, Outside a (bobBase s u.e (trOf c.bytes).db + (trOf c.bytes).dst) (trOf c.bytes).len → byteAt t a = byteAt s a)) ∧
  (∀ (s s0 : State) (u : SpoolId) (c c0 : Cmd) (f : Fmt), CmdDue (isOp 0x01) (trBad u) trBobs s u c s0 c0 →
    (trOf c.bytes).format = some f → (trOf c.bytes).staged = true → stagings s0 u.e u.n = [] →
    exec (.transfer u) s = .next (finishes s0 u c0 stResource 0)) ∧
  (∀ (s s0 : State) (u : SpoolId) (c c0 : Cmd) (f : Fmt), CmdDue (isOp 0x01) (trBad u) trBobs s u c s0 c0 → (trOf c.bytes).format = some f →
    ((trOf c.bytes).staged = false ∨ stagings s0 u.e u.n ≠ []) →
    (((trOf c.bytes).srcBob = true ∧ insReady s0 u [(trOf c.bytes).sb] = false) ∨ ((trOf c.bytes).staged = true ∧ trStage s0 u c0 f = []) ∨
      ((trOf c.bytes).dstBob = true ∧ (trOf c.bytes).inPlace = false ∧ outReady s0 u c0.slot (trOf c.bytes).db = false) ∨ trMover s0 u c0 = none) →
    exec (.transfer u) s = .next s))

/-- TASK (R126, R127): with its slot assigned to the context, enabled and FREE, and no retired core named, the slot holds the task with its entry state, priority and budget, READY where its input bobbins are ready and else QUEUED, EXIT and the cause are cleared, and the command goes on until the task ends; a slot that is not the context's, not enabled or not FREE, or a retired core, ends it with RESOURCE, and nothing of the slot changes; an invalid field ends it with FORMAT. The order of the two ends is the model's (log 106). Row completed: TASK. -/
def Obligations.TaskQueuesItsSlotOrEndsWithResource : Prop :=
  (∀ (s s0 : State) (u : SpoolId) (c c0 : Cmd), CmdDue (isOp 0x60) taskBad taskBobs s u c s0 c0 → NoWait s u c.slot →
    taskOwner s u.e (taskSlotIdx c.bytes) = u.n.val → getB s (rSchedSlot u.e (taskSlotIdx c.bytes)) fSchedSlotEnable = true →
    taskState s u.e (taskSlotIdx c.bytes) = tFree →
    (bitOf (u8At c.bytes 9) 2 && (engAux s u.e).deadCores.elem (u8At c.bytes 9 / 8 % 4)) = false →
    ∃ t s2, exec (.task u) s = .next t ∧ t = goesOn s2 u c0 ∧
      taskState t u.e (taskSlotIdx c.bytes) = (if (taskBobs c.bytes).all (fun b => decide (bobState s u.e b = bReady)) then tReady else tQueued) ∧
      (task t u.e (taskSlotIdx c.bytes)).hart = startHart c.bytes ∧ (task t u.e (taskSlotIdx c.bytes)).budget = u32At c.bytes 12 ∧
      (task t u.e (taskSlotIdx c.bytes)).prio = u8At c.bytes 9 % 4 ∧ (task t u.e (taskSlotIdx c.bytes)).u = some (u, c.slot) ∧
      getF t (rCtxTask u.e u.n (taskSlotIdx c.bytes)) fCtxTaskExit = 0 ∧ getR t (rCtxTaskCause u.e u.n (taskSlotIdx c.bytes)) = 0 ∧ SameMemory s t) ∧
  (∀ (s s0 : State) (u : SpoolId) (c c0 : Cmd), CmdDue (isOp 0x60) taskBad taskBobs s u c s0 c0 →
    (taskOwner s u.e (taskSlotIdx c.bytes) ≠ u.n.val ∨ taskState s u.e (taskSlotIdx c.bytes) ≠ tFree ∨
      getB s (rSchedSlot u.e (taskSlotIdx c.bytes)) fSchedSlotEnable = false ∨
      (bitOf (u8At c.bytes 9) 2 && (engAux s u.e).deadCores.elem (u8At c.bytes 9 / 8 % 4)) = true) →
    ∃ t, exec (.task u) s = .next t ∧ t = finishes s0 u c0 stResource 0 ∧
      taskState t u.e (taskSlotIdx c.bytes) = taskState s u.e (taskSlotIdx c.bytes) ∧ task t u.e (taskSlotIdx c.bytes) = task s u.e (taskSlotIdx c.bytes)) ∧
  (∀ (s s0 : State) (u : SpoolId) (c c0 : Cmd), pick s u = some c → markStart s u c = (s0, c0) → isOp 0x60 c.bytes = true → c.poisonLater = false →
    (zeroSpan c.bytes 44 20 = false ∨ 1000000 < u32At c.bytes 12) → exec (.task u) s = .next (endsWith s0 u c0 stFormat 0))

/-- FENCE, WAIT, SIGNAL and PREFETCH complete (R152 to R154, R167). A FENCE that nothing of its spools precedes ends OK at once, else it goes on until those commands complete. A WAIT whose word translates and meets its condition, of the three it may name, ends OK with the value read; a poisoned word ends it with POISON. A SIGNAL behind an uncompleted command goes on without writing; at the front of its spool, its store writes VALUE where VA lies, its add adds VALUE to the word there, at home, and each ends OK; an add that meets poison ends POISON. A PREFETCH ends OK with the bytes it covered. WAIT_POLL and WAIT_TIMEOUT (R153): a started WAIT reads its word again, and ends OK with a value that meets its condition or goes on with the value read; TIMEOUT µs after its start an unmet WAIT ends with TIMEOUT and its spool stops; before that, or with TIMEOUT 0, it goes on. Where WAIT reads again, and that a command's store is one step, is the model's (logs 4, 5). Rows completed: SIGNAL, WAIT, FENCE, PREFETCH, WAIT_POLL, WAIT_TIMEOUT. -/
def Obligations.SynchronisationCommands : Prop :=
  (
  (∀ (s s0 : State) (u : SpoolId) (c c0 : Cmd), CmdDue (isOp 0x52) fenceBad noBobs s u c s0 c0 → fenceDeps s0 u c0 = [] →
    exec (.fence u) s = .next (finishes s0 u c0 stOk 0)) ∧
  (∀ (s s0 : State) (u : SpoolId) (c c0 : Cmd), CmdDue (isOp 0x52) fenceBad noBobs s u c s0 c0 → fenceDeps s0 u c0 ≠ [] →
    exec (.fence u) s = .next (goesOn s0 u { c0 with deps := fenceDeps s0 u c0 })) ∧
  (∀ (s s0 s2 : State) (u : SpoolId) (c c0 : Cmd) (ps : List Piece), CmdDue (isOp 0x51) waitBad noBobs s u c s0 c0 →
    reach s0 (engReq s0 u 9 false true) (u64At c.bytes 16) 8 = (s2, .ok ps) →
    piecesPoisoned (piecesTouch s2 ps) ps = false → waitMet (u8At c.bytes 8) (leNat (piecesRead (piecesTouch s2 ps) ps)) (u64At c.bytes 24) →
    exec (.wait u) s = .next (finishes (piecesTouch s2 ps) u c0 stOk (leNat (piecesRead (piecesTouch s2 ps) ps)))) ∧
  (∀ (s s0 s2 : State) (u : SpoolId) (c c0 : Cmd) (ps : List Piece), CmdDue (isOp 0x51) waitBad noBobs s u c s0 c0 →
    reach s0 (engReq s0 u 9 false true) (u64At c.bytes 16) 8 = (s2, .ok ps) →
    piecesPoisoned (piecesTouch s2 ps) ps = false → ¬waitMet (u8At c.bytes 8) (leNat (piecesRead (piecesTouch s2 ps) ps)) (u64At c.bytes 24) →
    exec (.wait u) s = .next (goesOn (piecesTouch s2 ps) u { c0 with detail := leNat (piecesRead (piecesTouch s2 ps) ps) })) ∧
  (∀ (s s0 s2 : State) (u : SpoolId) (c c0 : Cmd) (ps : List Piece), CmdDue (isOp 0x51) waitBad noBobs s u c s0 c0 →
    reach s0 (engReq s0 u 9 false true) (u64At c.bytes 16) 8 = (s2, .ok ps) → piecesPoisoned (piecesTouch s2 ps) ps = true →
    ∃ s3 d, exec (.wait u) s = .next (finishes s3 u c0 stPoison d)) ∧
  (∀ (s s0 : State) (u : SpoolId) (c c0 d : Cmd) (l : List Cmd), (spool s u).cmds = d :: l → d.slot ≠ c.slot →
    ¬(d.opcode = 0x50 ∧ d.phase = .started ∧ d.stall = .none) → CmdDue (isOp 0x50) signalBad noBobs s u c s0 c0 →
    exec (.signal u) s = .next (goesOn s0 u c0)) ∧
  (∀ (s s0 s2 : State) (u : SpoolId) (c c0 : Cmd) (l : List Cmd) (ps : List Piece), (spool s u).cmds = c :: l →
    ((c.opcode = 0x50 ∧ c.phase = .started ∧ c.stall = .none ∧ s0 = s ∧ c0 = c) ∨ (c.phase ≠ .started ∧ CmdDue (isOp 0x50) signalBad noBobs s u c s0 c0)) →
    reach s0 (engReq s0 u 9 true (decide (u8At c.bytes 8 = 1))) (u64At c.bytes 16) 8 = (s2, .ok ps) →
    (u8At c.bytes 8 ≠ 1 → exec (.signal u) s =
      .next (finishes (pollWaits (piecesWrite s2 ps (natLE 8 (u64At c.bytes 24))) u.e (u64At c.bytes 16)) u c0 stOk 0)) ∧
    (u8At c.bytes 8 = 1 → piecesPoisoned (recallPieces (countAtomic s2 ps) ps) ps = false → exec (.signal u) s =
      .next (finishes (pollWaits (piecesWrite (recallPieces (countAtomic s2 ps) ps) ps
        (natLE 8 (leNat (piecesRead (recallPieces (countAtomic s2 ps) ps) ps) + u64At c.bytes 24))) u.e (u64At c.bytes 16)) u c0 stOk 0)) ∧
    (u8At c.bytes 8 = 1 → piecesPoisoned (recallPieces (countAtomic s2 ps) ps) ps = true → exec (.signal u) s =
      .next (finishes (cmdPoison (recallPieces (countAtomic s2 ps) ps) u c0.step (firstPoison (recallPieces (countAtomic s2 ps) ps) ps)) u c0 stPoison 0))) ∧
  (∀ (s s0 s2 : State) (u : SpoolId) (c c0 : Cmd) (k : Nat), CmdDue (isOp 0x70) prefetchBad noBobs s u c s0 c0 →
    prefetchFrom s0 { engReq s0 u 0 false false with noPerm := true } (u8At c.bytes 8) (u64At c.bytes 24 / 65536) (u64At c.bytes 16) (u64At c.bytes 24) 0 = (s2, k) →
    exec (.prefetch u) s = .next (finishes s2 u c0 stOk k))) ∧
  (
  (∀ (s s2 : State) (u : SpoolId) (c : Cmd) (ps : List Piece), (spool s u).cmds = [c] → c.opcode = 0x51 → c.phase = .started → c.stall = .none →
    reach s (engReq s u 9 false true) (u64At c.bytes 16) 8 = (s2, .ok ps) → piecesPoisoned (piecesTouch s2 ps) ps = false →
    (waitMet (u8At c.bytes 8) (leNat (piecesRead (piecesTouch s2 ps) ps)) (u64At c.bytes 24) →
      exec (.waitPoll u) s = .next (finishes (piecesTouch s2 ps) u c stOk (leNat (piecesRead (piecesTouch s2 ps) ps)))) ∧
    (¬waitMet (u8At c.bytes 8) (leNat (piecesRead (piecesTouch s2 ps) ps)) (u64At c.bytes 24) →
      exec (.waitPoll u) s = .next (goesOn (piecesTouch s2 ps) u { c with detail := leNat (piecesRead (piecesTouch s2 ps) ps) }))) ∧
  (∀ (s : State) (u : SpoolId) (c : Cmd), (spool s u).cmds = [c] → c.opcode = 0x51 → c.phase = .started → u32At c.bytes 12 ≠ 0 →
    c.since + u32At c.bytes 12 * 1000 ≤ s.time → spState s u = spActive →
    ∃ t, exec (.waitTimeout u) s = .next t ∧ spState t u = spStopped ∧
      (spool t u).cmds = [{ c with phase := .ended, status := stTimeout, stall := .none }] ∧ SameMemory s t) ∧
  (∀ (s : State) (u : SpoolId) (c : Cmd), (spool s u).cmds = [c] → c.opcode = 0x51 → c.phase = .started →
    (u32At c.bytes 12 = 0 ∨ s.time < c.since + u32At c.bytes 12 * 1000) → exec (.waitTimeout u) s = .next s))

/-- CARD commands complete (R172 to R184): with no Carder share for the partition and no sample begun, or no unit in service, they end with RESOURCE; with an output bobbin that is not free they wait; else, in image mode, with every sample read and the destination reached, the rows are written and the command ends with the status and the count of its samples; in token mode, with every sample read, packed into skeins, and the places of the skeins, their marks and records reached, these are written and the command ends with the counts of the samples packed and the skeins. RESOURCE without a unit in service is the model's choice (log 59). Rows completed: CARD_IMAGE, CARD_TOKENS. -/
def Obligations.CardCommands : Prop :=
  (
  (∀ x ∈ cardRows, ∀ (s s0 : State) (u : SpoolId) (c c0 : Cmd), CmdDue x.2.1 (x.2.2 u) cardBobs s u c s0 c0 →
    ((objNat s0 (oCarderShareP (ctxPart s0 u.e u.n)) = 0 ∧ c0.log = []) ∨ cardUnits s0 (cdOf c.bytes) = []) →
    exec (x.1 u) s = .next (finishes s0 u c0 stResource 0)) ∧
  (∀ x ∈ cardRows, ∀ (s s0 : State) (u : SpoolId) (c c0 : Cmd), CmdDue x.2.1 (x.2.2 u) cardBobs s u c s0 c0 →
    (objNat s (oCarderShareP (ctxPart s u.e u.n)) ≠ 0 ∨ c.log ≠ []) → cardUnits s (cdOf c.bytes) ≠ [] →
    (cdOf c.bytes).dstBob = true → outReady s0 u c.slot (cdOf c.bytes).db = false →
    exec (x.1 u) s = .next s)) ∧
  (
  (∀ (s s0 s2 : State) (u : SpoolId) (c c0 c2 : Cmd) (x : Cd) (f : Fmt) (r : Rd) (os : List SmOut) (t : Tgt), CmdDue (isCard 0) (imageBad u) cardBobs s u c s0 c0 →
    x = cdOf c.bytes → x.format = some f → (objNat s0 (oCarderShareP (ctxPart s0 u.e u.n)) ≠ 0 ∨ c0.log ≠ []) → cardUnits s0 x ≠ [] →
    (x.dstBob = true → outReady s0 u c.slot x.db = true) →
    c2 = (if x.dstBob then cdCmd c0 x else { cdCmd c0 x with outBase := x.dst, outLen := x.outLen f }) →
    doSamples ⟨if x.dstBob then bobFill s0 u c.slot x.db x.cont else s0, c2, 0⟩ u x (cardUnits s0 x) (fun i => f16At c.bytes (52 + 2 * i)) (fun i => f16At c.bytes (58 + 2 * i))
      (List.range x.count) [] = (r, .ok os) →
    cardDst r.s u x (x.outLen f) = (s2, .ok t) →
    exec (.cardImage u) s = .next (finishes (imagePut s2 r.c x f t os) u r.c (imageStatus os) (imageDetail x os))) ∧
  (∀ (s s0 s2 s3 s4 : State) (u : SpoolId) (c c0 c2 : Cmd) (x : Cd) (r : Rd) (ts : List Tok) (sk : List Skein) (t : Tgt) (ms rs : List Piece),
    CmdDue (isCard 1) (tokensBad u) cardBobs s u c s0 c0 →
    x = cdOf c.bytes → (objNat s0 (oCarderShareP (ctxPart s0 u.e u.n)) ≠ 0 ∨ c0.log ≠ []) → cardUnits s0 x ≠ [] →
    (x.dstBob = true → outReady s0 u c.slot x.db = true) →
    doToks ⟨if x.dstBob then bobFill s0 u c.slot x.db x.cont else s0, cdCmd c0 x, 0⟩ u x (cardUnits s0 x) x.count 0 [] [] = (r, .ok (ts, sk)) →
    c2 = (if x.dstBob then r.c else { r.c with outBase := x.dst, outLen := 4 * x.len * sk.length }) →
    cardDst r.s u x (4 * x.len * sk.length) = (s2, .ok t) →
    reach s2 (hubReq s2 u 5 true false) (u64At c.bytes 52) (4 * x.len * sk.length) = (s3, .ok ms) →
    reach s3 (hubReq s3 u 5 true false) ((u64At c.bytes 52 + 4 * x.len * x.pitch) % 2 ^ 64) (16 * sk.length) = (s4, .ok rs) →
    exec (.cardTokens u) s = .next (finishes (skeinsPut s4 x (u32At c.bytes 60) sk t ms rs) u c2 (tokensStatus ts) (tokensDetail ts sk))))

/-- A group command (R331) of a group that its partition may use, well-formed, with its peers connected and reachable and its source readable, becomes an operation of the hub under the group's next operation number, with the bytes of its source, and goes as far as the exchange has come: it goes on until its own result is written and every frame it sent is acknowledged, and then ends with the status and the bytes it sent; a group that cannot be read ends it with RESOURCE, and the conditions of R332 that need the group's size with FORMAT. A point-to-point command (R329, R334) without a connection of its partition to the peer ends with RESOURCE, with a peer that is not reachable with TIMEOUT; else its local bytes are read and it becomes an operation of the hub, its request frames sent, and goes on; with the module's own peer id it is served here and ends. DISPATCH (R340): with its group readable, its members connected and reachable, and its routing and expert tables readable, free of poison and in order, its counts leave and it goes on; COMBINE (R342): with its tables readable and free of poison and the hosts of its rows connected and reachable, its requests leave and it goes as far as the exchange has come; without a readable group both end with RESOURCE; one whose exchange is under way goes on with what the exchange has reached. RESOURCE for a bad group is the model's choice (log 27). Rows completed: ALL_REDUCE, REDUCE_SCATTER, ALL_GATHER, BROADCAST, BARRIER, PUT, GET, ATOMIC, COLLECTIVE_SEND, DISPATCH, COMBINE. -/
def Obligations.FabricCommandsIssueOperations : Prop :=
  (
  ∀ x ∈ groupRows,
    (∀ (s s0 s2 : State) (u : SpoolId) (c c0 : Cmd), CollDue x.2 s u c s0 c0 → s0.fab.ops.find? (fun o => decide (o.u = u) && decide (o.slot = c0.slot)) = none →
      readGroup s0 (ctxPart s0 u.e u.n) (u16At c.bytes 10) = (s2, .bad) → exec (x.1 u) s = .next (finishes s2 u c0 stResource 0)) ∧
    (∀ (s s0 s2 : State) (u : SpoolId) (c c0 : Cmd) (g : Grp), CollDue x.2 s u c s0 c0 → s0.fab.ops.find? (fun o => decide (o.u = u) && decide (o.slot = c0.slot)) = none →
      readGroup s0 (ctxPart s0 u.e u.n) (u16At c.bytes 10) = (s2, .ok g) → groupBad (newOp s2 u c0 g) = true →
      exec (x.1 u) s = .next (finishes s2 u c0 stFormat 0)) ∧
    (∀ (s s0 s2 s3 s4 s5 : State) (u : SpoolId) (c c0 : Cmd) (g : Grp) (ps : List Piece) (o : FabOp), CollDue x.2 s u c s0 c0 →
      s0.fab.ops.find? (fun o => decide (o.u = u) && decide (o.slot = c0.slot)) = none →
      readGroup s0 (ctxPart s0 u.e u.n) (u16At c.bytes 10) = (s2, .ok g) → groupBad (newOp s2 u c0 g) = false →
      (∀ q ∈ (newOp s2 u c0 g).partnerPeers, (connTo s2 (ctxPart s0 u.e u.n) q).isSome = true ∧ unreachable s2 q = false) →
      reach s2 (hubReq s2 u 7 false true) (u64At c.bytes 24) (newOp s2 u c0 g).readLen = (s3, .ok ps) →
      issueOp s3 u c0 (newOp s2 u c0 g) ps = (s4, o) →
      (o.u = u ∧ o.slot = c0.slot ∧ o.op = x.2 ∧ o.members = g.members ∧ o.rank = g.rank ∧ o ∈ s4.fab.ops) ∧
      (opAdvance s4 o = (s5, .runs) → exec (x.1 u) s = .next (goesOn s5 u c0)) ∧
      (∀ st d, opAdvance s4 o = (s5, .ends st d) → exec (x.1 u) s = .next (finishes s5 u c0 st d))) ∧
    (∀ (s s0 s5 : State) (u : SpoolId) (c c0 : Cmd) (o : FabOp), CollDue x.2 s u c s0 c0 →
      s0.fab.ops.find? (fun o => decide (o.u = u) && decide (o.slot = c0.slot)) = some o →
      (opAdvance s0 o = (s5, .runs) → exec (x.1 u) s = .next (goesOn s5 u c0)) ∧
      (∀ st d, opAdvance s0 o = (s5, .ends st d) → exec (x.1 u) s = .next (finishes s5 u c0 st d)))) ∧
  (
  ∀ (s : State) (u : SpoolId) (c : Cmd) (o : FabOp) (ps : List Piece), piecesPoisoned (piecesTouch s ps) ps = false → (piecesTouch s ps).fab.early = [] →
    (issueOp s u c o ps).1.mem = (piecesTouch s ps).mem ∧
    (issueOp s u c o ps).2.opid = mapGet (piecesTouch s ps).fab.opCount o.group 0 % 65536 ∧
    mapGet (issueOp s u c o ps).1.fab.opCount o.group 0 = mapGet (piecesTouch s ps).fab.opCount o.group 0 + 1 ∧
    (issueOp s u c o ps).2.data = piecesRead (piecesTouch s ps) ps ∧
    (issueOp s u c o ps).1.fab.ops = (piecesTouch s ps).fab.ops ++ [(issueOp s u c o ps).2]) ∧
  (
  ∀ x ∈ pointRows,
    (∀ (s s0 : State) (u : SpoolId) (c c0 : Cmd), CollDue x.2 s u c s0 c0 → s0.fab.ops.find? (fun o => decide (o.u = u) && decide (o.slot = c0.slot)) = none →
      connTo s0 (ctxPart s0 u.e u.n) (u16At c.bytes 10) = none →
      exec (x.1 u) s = .next (finishes s0 u c0 stResource 0)) ∧
    (∀ (s s0 : State) (u : SpoolId) (c c0 : Cmd) (id : Nat), CollDue x.2 s u c s0 c0 → s0.fab.ops.find? (fun o => decide (o.u = u) && decide (o.slot = c0.slot)) = none →
      connTo s0 (ctxPart s0 u.e u.n) (u16At c.bytes 10) = some id → unreachable s0 (u16At c.bytes 10) = true →
      exec (x.1 u) s = .next (finishes s0 u c0 stTimeout 0)) ∧
    (∀ (s s0 s3 : State) (u : SpoolId) (c c0 : Cmd) (id : Nat) (ps : List Piece) (o : FabOp), CollDue x.2 s u c s0 c0 →
      s0.fab.ops.find? (fun o => decide (o.u = u) && decide (o.slot = c0.slot)) = none →
      connTo s0 (ctxPart s0 u.e u.n) (u16At c.bytes 10) = some id → unreachable s0 (u16At c.bytes 10) = false →
      reach s0 (hubReq s0 u 7 false true) (u64At c.bytes 24) (if x.2 = 8 ∨ x.2 = 11 then u40At c.bytes 16 else 0) = (s3, .ok ps) →
      o = pointRead (piecesTouch s3 ps) (pointOp s0 u c0) ps →
      (o.u = u ∧ o.slot = c0.slot ∧ o.op = x.2 ∧ o.peer = u16At c.bytes 10 ∧ o.len = u40At c.bytes 16 ∧ o.dst = u64At c.bytes 24 ∧
        o.data = piecesRead (piecesTouch s3 ps) ps) ∧
      (u16At c.bytes 10 ≠ peerId (piecesTouch s3 ps) →
        exec (x.1 u) s = .next (goesOn (pointSend (piecesTouch s3 ps) o id c.bytes) u c0)) ∧
      (∀ s4 st d, u16At c.bytes 10 = peerId (piecesTouch s3 ps) → pointLocal (piecesTouch s3 ps) o id c.bytes = (s4, .ends st d) →
        exec (x.1 u) s = .next (finishes s4 u c0 st d))) ∧
    (∀ (s s0 s5 : State) (u : SpoolId) (c c0 : Cmd) (o : FabOp), CollDue x.2 s u c s0 c0 →
      s0.fab.ops.find? (fun o => decide (o.u = u) && decide (o.slot = c0.slot)) = some o →
      (opAdvance s0 o = (s5, .runs) → exec (x.1 u) s = .next (goesOn s5 u c0)) ∧
      (∀ st d, opAdvance s0 o = (s5, .ends st d) → exec (x.1 u) s = .next (finishes s5 u c0 st d)))) ∧
  (
  (∀ (s s0 s2 : State) (u : SpoolId) (c c0 : Cmd), CmdDue (isOp 0x41) dpBad noBobs s u c s0 c0 →
    s0.fab.disps.find? (fun d => decide (d.u = u) && decide (d.slot = c0.slot)) = none →
    readGroup s0 (ctxPart s0 u.e u.n) (u16At c.bytes 18) = (s2, .bad) → exec (.dispatch u) s = .next (finishes s2 u c0 stResource 0)) ∧
  (∀ (s s0 s2 s3 s4 s5 : State) (u : SpoolId) (c c0 : Cmd) (x : Dp) (g : Grp) (rs es : List Piece) (copies : List Copy), CmdDue (isOp 0x41) dpBad noBobs s u c s0 c0 →
    s0.fab.disps.find? (fun d => decide (d.u = u) && decide (d.slot = c0.slot)) = none → x = dpOf c.bytes →
    readGroup s0 (ctxPart s0 u.e u.n) x.group = (s2, .ok g) →
    (∀ q ∈ g.others s2, (connTo s2 (ctxPart s0 u.e u.n) q).isSome = true ∧ unreachable s2 q = false) →
    reach s2 (hubReq s2 u 6 false true) x.route (8 * x.tokens * x.topk) = (s3, .ok rs) →
    reach s3 (hubReq s3 u 6 false true) x.expert (8 * x.experts) = (s4, .ok es) → s5 = piecesTouch (piecesTouch s4 rs) es →
    piecesPoisoned s5 (rs ++ es) = false → copies = copiesOf x (piecesRead s5 rs) (piecesRead s5 es) → dispRefused s5 x g (piecesRead s5 rs) copies = false →
    exec (.dispatch u) s = .next (goesOn (dispStart s5 u c0 g copies) u (dpCmd c0))) ∧
  (∀ (s s0 s5 : State) (u : SpoolId) (c c0 : Cmd) (d : Disp), CmdDue (isOp 0x41) dpBad noBobs s u c s0 c0 →
    s0.fab.disps.find? (fun d => decide (d.u = u) && decide (d.slot = c0.slot)) = some d →
    (dispAdvance s0 d c0 = (s5, .runs) → exec (.dispatch u) s = .next (goesOn s5 u c0)) ∧
    (∀ st k, dispAdvance s0 d c0 = (s5, .ends st k) → exec (.dispatch u) s = .next (finishes s5 u c0 st k)))) ∧
  (
  (∀ (s s0 s2 : State) (u : SpoolId) (c c0 : Cmd), CmdDue (isOp 0x42) cbBad noBobs s u c s0 c0 →
    s0.fab.combs.find? (fun d => decide (d.u = u) && decide (d.slot = c0.slot)) = none →
    readGroup s0 (ctxPart s0 u.e u.n) (u16At c.bytes 18) = (s2, .bad) → exec (.combine u) s = .next (finishes s2 u c0 stResource 0)) ∧
  (∀ (s s0 s2 s3 s4 s5 s6 : State) (u : SpoolId) (c c0 : Cmd) (x : Cb) (g : Grp) (rs es ms : List Piece) (need : List (Nat × Nat × Nat)) (runs : List RunReq) (d : Comb),
    CmdDue (isOp 0x42) cbBad noBobs s u c s0 c0 → s0.fab.combs.find? (fun d => decide (d.u = u) && decide (d.slot = c0.slot)) = none → x = cbOf c.bytes →
    readGroup s0 (ctxPart s0 u.e u.n) x.group = (s2, .ok g) → combTables s2 u x = (s3, .ok (rs, es, ms)) →
    s4 = piecesTouch (piecesTouch (piecesTouch s3 rs) es) ms → piecesPoisoned s4 (rs ++ es ++ ms) = false →
    need = combNeed x (piecesRead s4 es) (piecesRead s4 ms) → runs = combRuns s4 u x need →
    (∀ q ∈ runPeers s4 runs, (connTo s4 (ctxPart s0 u.e u.n) q).isSome = true ∧ unreachable s4 q = false) →
    combStart s4 u c0 need runs = (s5, d) →
    (combAdvance s5 d (cbCmd c0) = (s6, .runs) → exec (.combine u) s = .next (goesOn s6 u (cbCmd c0))) ∧
    (∀ st k, combAdvance s5 d (cbCmd c0) = (s6, .ends st k) → exec (.combine u) s = .next (finishes s6 u (cbCmd c0) st k))) ∧
  (∀ (s s0 s5 : State) (u : SpoolId) (c c0 : Cmd) (d : Comb), CmdDue (isOp 0x42) cbBad noBobs s u c s0 c0 →
    s0.fab.combs.find? (fun d => decide (d.u = u) && decide (d.slot = c0.slot)) = some d →
    (combAdvance s0 d c0 = (s5, .runs) → exec (.combine u) s = .next (goesOn s5 u c0)) ∧
    (∀ st k, combAdvance s0 d c0 = (s5, .ends st k) → exec (.combine u) s = .next (finishes s5 u c0 st k))))

/-! ### Spools, contexts and bobbins -/

/-- SQ_TAIL (R143, R145): an admissible doorbell to an ACTIVE spool of an ACTIVE engine, its lock free, moves TAIL and nothing else; from the lock's holder it moves TAIL and frees the lock; a doorbell that goes back, that passes the ring, to a spool that is not ACTIVE, from an agent while another holds the lock, or from its expired holder changes nothing and sets DB_ERR. To an engine that is not ACTIVE it is held and wakes the engine (R424). Row completed: SQ_TAIL. -/
def Obligations.DoorbellsMoveTailOrSetDbErr : Prop :=
  (∀ (s : State) (ag : Agent) (u : SpoolId) (val : BitVec 32), regRight s ag (rSqTail u.e u.n u.s).key = true → engActive s u.e = true → spState s u = spActive →
    (spool s u).lease = none → (spool s u).expired ≠ some ag → (val.toNat + 2 ^ 32 - sqTail s u) % 2 ^ 32 < 2 ^ 31 →
    (val.toNat + 2 ^ 32 - (spool s u).done % 2 ^ 32) % 2 ^ 32 ≤ 2 ^ sqLog2 s u →
    ∃ t, exec (.sqTail ag u val) s = .next t ∧ sqTail t u = val.toNat ∧ SameRegsBut [(rSqTail u.e u.n u.s).key] s t ∧ SameUnits s t) ∧
  (∀ (s : State) (ag : Agent) (t0 : Nat) (u : SpoolId) (val : BitVec 32), regRight s ag (rSqTail u.e u.n u.s).key = true → engActive s u.e = true → spState s u = spActive →
    (spool s u).lease = some (ag, t0) → (spool s u).expired ≠ some ag → (val.toNat + 2 ^ 32 - sqTail s u) % 2 ^ 32 < 2 ^ 31 →
    (val.toNat + 2 ^ 32 - (spool s u).done % 2 ^ 32) % 2 ^ 32 ≤ 2 ^ sqLog2 s u →
    ∃ t, exec (.sqTail ag u val) s = .next t ∧ sqTail t u = val.toNat ∧ (spool t u).lease = none ∧ getF t (rSpLock u.e u.n u.s) fSpLockHolder = 0 ∧
      (spool t u).cmds = (spool s u).cmds ∧ SameMemory s t) ∧
  (∀ (s : State) (ag : Agent) (u : SpoolId) (val : BitVec 32), regRight s ag (rSqTail u.e u.n u.s).key = true → engActive s u.e = true →
    (2 ^ 31 ≤ (val.toNat + 2 ^ 32 - sqTail s u) % 2 ^ 32 ∨ 2 ^ sqLog2 s u < (val.toNat + 2 ^ 32 - (spool s u).done % 2 ^ 32) % 2 ^ 32 ∨
      spState s u ≠ spActive ∨ (spool s u).expired = some ag ∨ (∃ h t, (spool s u).lease = some (h, t) ∧ h ≠ ag)) →
    ∃ t, exec (.sqTail ag u val) s = .next t ∧ getF t (rSpStatus u.e u.n u.s) fSpStatusDbErr = 1 ∧ sqTail t u = sqTail s u ∧
      SameRegsBut [(rSpStatus u.e u.n u.s).key] s t ∧ SameUnits s t) ∧
  (∀ (s : State) (ag : Agent) (u : SpoolId) (val : BitVec 32), regRight s ag (rSqTail u.e u.n u.s).key = true → engActive s u.e = false →
    exec (.sqTail ag u val) s = .next (heldForWake s u.e (.sqTail ag u val)))

/-- SP_LOCK and LEASE_EXPIRY (R145, R454): a 64-bit read of a free lock takes it for its reader from now, a read of the lower half takes it too; the holder's own read is granted again; a read by another agent while it is held, and a read of the upper half, take nothing; an access of another width is refused; 1 ms after the read the lock is free, its holder recorded as expired and LEASE_ERR set; before that it stays. That a read of the upper half takes nothing is the model's reading (log 47). Rows completed: SP_LOCK, LEASE_EXPIRY. -/
def Obligations.SubmissionLockIsALease : Prop :=
  (∀ (s : State) (ag : Agent) (u : SpoolId), regRight s ag (rSpLock u.e u.n u.s).key = true → (spool s u).lease = none → (spool s u).expired = none →
    (∃ t v, exec (.spLock ag u .w64) s = .next t ∧ (spool t u).lease = some (ag, s.time) ∧ t.mgmt.regOut = s.mgmt.regOut ++ [v] ∧
      fget v fSpLockGranted = 1 ∧ fget v fSpLockHolder = (Config.requesterId ag).toNat % 2 ^ fSpLockHolder.width ∧ SameMemory s t) ∧
    (∃ t v, exec (.spLock ag u .lo32) s = .next t ∧ (spool t u).lease = some (ag, s.time) ∧ t.mgmt.regOut = s.mgmt.regOut ++ [v &&& 0xFFFFFFFF] ∧
      fget v fSpLockGranted = 1 ∧ SameMemory s t)) ∧
  (∀ (s t : State) (ag : Agent) (u : SpoolId) (v : Word), regRight s ag (rSpLock u.e u.n u.s).key = true → lockRead s ag u = (t, v) →
    exec (.spLock ag u .w64) s = .next (putOut t v) ∧ exec (.spLock ag u .lo32) s = .next (putOut t (v &&& 0xFFFFFFFF))) ∧
  (∀ (s : State) (ag : Agent) (t0 : Nat) (u : SpoolId), (spool s u).lease = some (ag, t0) → (spool s u).expired ≠ some ag →
    lockRead s ag u = (s, fset (getR s (rSpLock u.e u.n u.s)) fSpLockGranted 1)) ∧
  (∀ (s : State) (ag h : Agent) (t0 : Nat) (u : SpoolId), regRight s ag (rSpLock u.e u.n u.s).key = true → (spool s u).lease = some (h, t0) → h ≠ ag →
    exec (.spLock ag u .w64) s = .next (putOut s (getR s (rSpLock u.e u.n u.s)))) ∧
  (∀ (s : State) (ag : Agent) (u : SpoolId), regRight s ag (rSpLock u.e u.n u.s).key = true →
    exec (.spLock ag u .hi32) s = .next (putOut s (getR s (rSpLock u.e u.n u.s) >>> 32)) ∧
    exec (.spLock ag u .bad) s = .next { s with hub := { s.hub with accOut := s.hub.accOut ++ [denied ag] } }) ∧
  (∀ (s : State) (u : SpoolId) (h : Agent) (t0 : Nat), (spool s u).lease = some (h, t0) → t0 + leaseNs ≤ s.time →
    ∃ t, exec (.leaseExpiry u) s = .next t ∧ (spool t u).lease = none ∧ (spool t u).expired = some h ∧ getF t (rSpLock u.e u.n u.s) fSpLockHolder = 0 ∧
      getF t (rSpLock u.e u.n u.s) fSpLockExpired = (Config.requesterId h).toNat % 2 ^ fSpLockExpired.width ∧
      getF t (rSpStatus u.e u.n u.s) fSpStatusLeaseErr = 1 ∧ (spool t u).cmds = (spool s u).cmds ∧ SameMemory s t) ∧
  (∀ (s : State) (u : SpoolId) (h : Agent) (t0 : Nat), (spool s u).lease = some (h, t0) → s.time < t0 + leaseNs → exec (.leaseExpiry u) s = .next s)

/-- SP_CFG (R149, R472): ENABLE from 0 to 1 with ring sizes of 2^6 to 2^16 zeroes the counts and makes the spool ACTIVE, or KILLED in a slot that has been killed; RESUME takes a STOPPED spool back to ACTIVE; ENABLE = 0 cancels the spool alone and leaves its state to settle, on a spool not enabled it only stores the sizes; a size outside 6 to 16 is ignored whole. Context slots (R168, R426, R472): VALID set by the owner's partition assigns the slot: EPOCH rises by one, its spools are DISABLED and empty and its fault numbers start at 0, and the write wakes an engine that is not ACTIVE (R424); VALID cleared cancels every spool, releases its READY bobbins and settles; CTX_CANCEL cancels the masked spools, its PARTITION and ASTAG staying. That a size outside 6 to 16 leaves the whole write out is the model's reading (log 62). Rows completed: SP_CFG_ENABLE, SP_CFG_DISABLE, RESUME, CTX_CFG_VALID_SET, CTX_CFG_VALID_CLEAR, CTX_CANCEL. -/
def Obligations.SpoolsAndContextSlotsAreConfigured : Prop :=
  (
  (∀ (s : State) (ag : Agent) (u : SpoolId) (val : Word), regRight s ag (rSpCfg u.e u.n u.s).key = true → getB s (rSpCfg u.e u.n u.s) fSpCfgEnable = false →
    6 ≤ fget val fSpCfgSqLog2 → fget val fSpCfgSqLog2 ≤ 16 → 6 ≤ fget val fSpCfgCqLog2 → fget val fSpCfgCqLog2 ≤ 16 →
    (fget val fSpCfgEnable = 1 →
      ∃ t, exec (.spCfgEnable ag u val) s = .next t ∧ spState t u = (if slotKilled s u.e u.n then spKilled else spActive) ∧
        getB t (rSpCfg u.e u.n u.s) fSpCfgEnable = true ∧ sqTail t u = 0 ∧
        cqTail t u = 0 ∧ cqHeadOf t u = 0 ∧ (spool t u).cmds = [] ∧ (spool t u).held = [] ∧ (spool t u).fetched = 0 ∧ SameMemory s t) ∧
    (fget val fSpCfgEnable = 0 → exec (.spCfgDisable ag u val) s = .next
      (setF (setF s (rSpCfg u.e u.n u.s) fSpCfgSqLog2 (fget val fSpCfgSqLog2)) (rSpCfg u.e u.n u.s) fSpCfgCqLog2 (fget val fSpCfgCqLog2)))) ∧
  (∀ (s : State) (ag : Agent) (u : SpoolId) (val : Word), regRight s ag (rSpCfg u.e u.n u.s).key = true → getB s (rSpCfg u.e u.n u.s) fSpCfgEnable = true →
    6 ≤ fget val fSpCfgSqLog2 → fget val fSpCfgSqLog2 ≤ 16 → 6 ≤ fget val fSpCfgCqLog2 → fget val fSpCfgCqLog2 ≤ 16 → fget val fSpCfgEnable = 1 →
    fget val fSpCfgResume = 1 → spState s u = spStopped →
    ∃ t, exec (.resume ag u val) s = .next t ∧ spState t u = spActive ∧ SameRegsBut [(rSpStatus u.e u.n u.s).key] s t ∧ SameUnits s t) ∧
  (∀ (s : State) (ag : Agent) (u : SpoolId) (val : Word), regRight s ag (rSpCfg u.e u.n u.s).key = true → getB s (rSpCfg u.e u.n u.s) fSpCfgEnable = true →
    6 ≤ fget val fSpCfgSqLog2 → fget val fSpCfgSqLog2 ≤ 16 → 6 ≤ fget val fSpCfgCqLog2 → fget val fSpCfgCqLog2 ≤ 16 → fget val fSpCfgEnable = 0 →
    exec (.spCfgDisable ag u val) s = .next (flushSpool (releaseSets
      (cancelSpool (setSpState (setF s (rSpCfg u.e u.n u.s) fSpCfgEnable 0) u spCancelling) u).1 u.e u.n (fun v => decide (v = u))) u)) ∧
  (∀ (s : State) (ag : Agent) (u : SpoolId) (val : Word), regRight s ag (rSpCfg u.e u.n u.s).key = true →
    (fget val fSpCfgSqLog2 < 6 ∨ 16 < fget val fSpCfgSqLog2 ∨ fget val fSpCfgCqLog2 < 6 ∨ 16 < fget val fSpCfgCqLog2) →
    exec (.spCfgEnable ag u val) s = .next s ∧ exec (.spCfgDisable ag u val) s = .next s ∧ exec (.resume ag u val) s = .next s)) ∧
  (
  (∀ (s : State) (ag : Agent) (e : Fin 32) (n : Fin 16) (val : Word), regRight s ag (rCtxCfg e n).key = true → engActive s e = true →
    getB s (rCtxCfg e n) fCtxCfgValid = false → fget val fCtxCfgValid = 1 → engOwner s e = some (fget val fCtxCfgPartition) →
    ∃ t, exec (.ctxCfgValidSet ag e n val) s = .next t ∧ getB t (rCtxCfg e n) fCtxCfgValid = true ∧
      getF t (rCtxCfg e n) fCtxCfgEpoch = (getF s (rCtxCfg e n) fCtxCfgEpoch + 1) % 2 ^ fCtxCfgEpoch.width ∧
      getF t (rCtxCfg e n) fCtxCfgAstag = fget val fCtxCfgAstag ∧ getF t (rCtxCfg e n) fCtxCfgPartition = fget val fCtxCfgPartition ∧ (ctxAux t e n).seq = 0 ∧
      (∀ i : Fin 4, spState t ⟨e, n, i⟩ = spDisabled ∧ (spool t ⟨e, n, i⟩).cmds = [] ∧ sqTail t ⟨e, n, i⟩ = 0) ∧ SameMemory s t) ∧
  (∀ (s : State) (ag : Agent) (e : Fin 32) (n : Fin 16) (val : Word), regRight s ag (rCtxCfg e n).key = true → engActive s e = false →
    exec (.ctxCfgValidSet ag e n val) s = .next (heldForWake s e (.ctxCfgValidSet ag e n val))) ∧
  (∀ (s : State) (ag : Agent) (e : Fin 32) (n : Fin 16) (val : Word), regRight s ag (rCtxCfg e n).key = true →
    getB s (rCtxCfg e n) fCtxCfgValid = true → fget val fCtxCfgValid = 0 →
    exec (.ctxCfgValidClear ag e n val) s =
      .next (flushCtx (setCtxAux (cancelMask s e n 15 true).1 e n { ctxAux (cancelMask s e n 15 true).1 e n with clearing := true }) e n)) ∧
  (∀ (s : State) (ag : Agent) (e : Fin 32) (n : Fin 16) (m : BitVec 4) (all : Bool), regRight s ag (rCtxCancel e n).key = true →
    exec (.ctxCancel ag e n m all) s = .next (flushCtx (cancelMask s e n m.toNat all).1 e n)))

/-- R369: a write that sets VALID while PARTITION differs from the engine's owner leaves VALID at 0 and counts in SEC_VIOLATIONS. -/
def Obligations.ValidNeedsTheOwnersPartition : Prop :=
  ∀ (s : State) (ag : Agent) (e : Fin 32) (n : Fin 16) (val : Word), regRight s ag (rCtxCfg e n).key = true → engActive s e = true →
    getB s (rCtxCfg e n) fCtxCfgValid = false → fget val fCtxCfgValid = 1 → engOwner s e ≠ some (fget val fCtxCfgPartition) →
    ∃ t, exec (.ctxCfgValidSet ag e n val) s = .next t ∧ getB t (rCtxCfg e n) fCtxCfgValid = false ∧
      getF t rSecViolations fSecViolationsCount = min (getF s rSecViolations fSecViolationsCount + 1) (2 ^ fSecViolationsCount.width - 1)

/-- COMMAND_FETCH (R146, R471): a spool with nothing below TAIL, a held fetch or a full buffer of 32 fetches nothing; else the command in the next slot joins the buffer with its bytes, a TRANSFER_INLINE with its four slots, and fetching goes on. CANCEL (R168) is taken by its own row at its fetch, and ends OK with the count of slots it skipped, or FORMAT with an invalid field. COMMAND_COMPLETE and CQ_HEAD (R148, R154): a command that has ended completes: its bobbins, its record, the FENCEs behind it; one that has not ended, or is not there, does not; one of no kind ends with FORMAT once it is the oldest and completes so (R147). CQ_HEAD moves the consumer count and writes held records where the ring has room. A completion record written where its ring gives its place (R148): PHASE is the inverse of the count's bit, the count is one higher, the consumer's count and the spool's commands stay. That a row whose condition does not hold changes nothing is the model's reading (log 4). Rows completed: CANCEL, COMMAND_FETCH, COMMAND_COMPLETE, CQ_HEAD. -/
def Obligations.CommandsAreFetchedAndCompleted : Prop :=
  (
  (∀ (s : State) (u : SpoolId), ((spool s u).fetched % 2 ^ 32 = sqTail s u ∨ (spool s u).fetchHold.isSome = true ∨ 32 ≤ (spool s u).cmds.length) →
    exec (.commandFetch u) s = .next s) ∧
  (∀ (s t : State) (u : SpoolId), fetchOne s u = (t, true) → exec (.commandFetch u) s = .next (fetchMany t u 31)) ∧
  (∀ (s s2 : State) (u : SpoolId) (b : Bytes), mayFetch s u = true → nextSlot s u = (s2, .bytes b none) → u8At b 0 ≠ 0x7F → u8At b 0 ≠ 2 →
    ∃ t, exec (.commandFetch u) s = .next (fetchMany t u 31) ∧ t.mem = s2.mem ∧
      (spool t u).cmds = (spool s2 u).cmds ++ [newCmd (spool s u).fetched 1 b] ∧ (spool t u).fetched = ((spool s2 u).fetched + 1) % 2 ^ 32) ∧
  (∀ (s s2 s3 : State) (u : SpoolId) (b b4 : Bytes), mayFetch s u = true → nextSlot s u = (s2, .bytes b none) → u8At b 0 = 2 → b.length ≠ 256 →
    4 ≤ (sqTail s2 u + 2 ^ 32 - (spool s u).fetched % 2 ^ 32) % 2 ^ 32 → readMore s2 u ((spool s u).fetched + 1) 3 b none = (s3, .bytes b4 none) →
    ∃ t, exec (.commandFetch u) s = .next (fetchMany t u 31) ∧ t.mem = s3.mem ∧
      (spool t u).cmds = (spool s3 u).cmds ++ [newCmd (spool s u).fetched 4 b4] ∧ (spool t u).fetched = ((spool s3 u).fetched + 4) % 2 ^ 32) ∧
  (∀ (s s2 : State) (u : SpoolId) (b : Bytes), mayFetch s u = true → nextSlot s u = (s2, .bytes b none) → u8At b 0 = 0x7F → cancelOk b = true →
    ∃ (s3 : State) (k : Nat), exec (.cancel u) s = .next (pushCmd s3 u { newCmd (spool s u).fetched 1 b with
      phase := .ended, status := stOk, detail := k, step := curStep s2 (ctxPart s2 u.e u.n) }) ∧
      (s3, k) = cancelAt { s2 with eng := { s2.eng with issued := mapDel s2.eng.issued (u, (spool s u).fetched) } } u (u8At b 8 % 16) (bitOf (u8At b 8) 4)) ∧
  (∀ (s s2 : State) (u : SpoolId) (b : Bytes), mayFetch s u = true → nextSlot s u = (s2, .bytes b none) → u8At b 0 = 0x7F → cancelOk b = false →
    ∃ s3, s3 = { s2 with eng := { s2.eng with issued := mapDel s2.eng.issued (u, (spool s u).fetched) } } ∧
      exec (.cancel u) s = .next (endCmd (pushCmd s3 u { newCmd (spool s u).fetched 1 b with step := curStep s3 (ctxPart s3 u.e u.n) }) u (spool s u).fetched stFormat 0)) ∧
  (∀ (s s2 : State) (u : SpoolId) (b : Bytes), mayFetch s u = true → nextSlot s u = (s2, .bytes b none) → u8At b 0 = 0x7F → exec (.commandFetch u) s = .next s2)) ∧
  (
  (∀ (s : State) (u : SpoolId) (slot : BitVec 32) (c : Cmd), (∀ d, startable s u = some d → d.slot ≠ slot.toNat ∨ cmdKnown d.bytes = true) →
    spoolCmd s u slot.toNat = some c → c.phase = .ended →
    exec (.commandComplete u slot) s = .next (completeCmd s u c)) ∧
  (∀ (s : State) (u : SpoolId) (slot : BitVec 32) (c : Cmd), (∀ d, startable s u = some d → d.slot ≠ slot.toNat ∨ cmdKnown d.bytes = true) →
    spoolCmd s u slot.toNat = some c → c.phase ≠ .ended →
    exec (.commandComplete u slot) s = .next s) ∧
  (∀ (s s0 : State) (u : SpoolId) (slot : BitVec 32) (c0 d : Cmd), startable s u = some d → d.slot = slot.toNat → cmdKnown d.bytes = false → markStart s u d = (s0, c0) →
    ∀ c, spoolCmd (endsWith s0 u c0 stFormat 0) u slot.toNat = some c → c.phase = .ended →
      exec (.commandComplete u slot) s = .next (completeCmd (endsWith s0 u c0 stFormat 0) u c)) ∧
  (∀ (s : State) (ag : Agent) (u : SpoolId) (val : BitVec 32), regRight s ag (rCqPtr u.e u.n u.s).key = true →
    exec (.cqHead ag u val) s = .next (flushSpool (setR s (rCqPtr u.e u.n u.s) (BitVec.ofNat 64 (cqTail s u + 2 ^ 32 * val.toNat))) u)) ∧
  (∀ (s : State) (ag : Agent) (u : SpoolId) (val : BitVec 32), regRight s ag (rCqPtr u.e u.n u.s).key = true → (spool s u).held = [] →
    spState s u ≠ spCancelling → (ctxAux s u.e u.n).clearing = false →
    ∃ t, exec (.cqHead ag u val) s = .next t ∧ cqHeadOf t u = val.toNat ∧ cqTail t u = cqTail s u ∧ spState t u = spState s u ∧ spool t u = spool s u ∧
      SameRegsBut [(rCqPtr u.e u.n u.s).key, (rSqHead u.e u.n u.s).key, (rSpStatus u.e u.n u.s).key] s t ∧ SameMemory s t)) ∧
  (
  ∀ (s : State) (u : SpoolId) (h : HeldRec) (ps : List Piece), (spool s u).cqHold = none →
    cqTail (writeRec s u h ps) u = (cqTail s u + 1) % 2 ^ 32 ∧ cqHeadOf (writeRec s u h ps) u = cqHeadOf s u ∧ spool (writeRec s u h ps) u = spool s u ∧
    (h.irq = false → (writeRec s u h ps).mem = (piecesWrite s ps (withPhase h.bytes 4 2 (if bitOf (cqTail s u) (cqLog2 s u) then 0 else 1))).mem))

/-- Bobbin marks (R156, R158) of a bobbin that the slot owns and that is no staging bobbin: FILL takes EMPTY to FILLING under a mark, READY takes a marked FILLING to READY with its read count, RELEASE takes READY or a marked FILLING to EMPTY, CONSUMED counts a read, the last one empties it, and a count of 0 is unlimited. A mark that the table does not allow, or on another bobbin, counts in BOB_ERR and leaves the bobbin; one for an engine that is not ACTIVE is held and wakes it (R424). BOB_ARM (R155): a pending set with a bad entry is refused whole, naming the first; a set without one is committed and no bobbin is refused. The pending set at reset is the model's (log 91). Rows completed: BOB_MARK_FILL, BOB_MARK_READY, BOB_MARK_CONSUMED, BOB_MARK_RELEASE, BOB_ARM. -/
def Obligations.BobbinsFollowTheStateTable : Prop :=
  (
  (∀ (s : State) (ag : Agent) (e : Fin 32) (n : Fin 16) (b : Fin 256), regRight s ag (rBobMark e n).key = true → engActive s e = true →
    badBobbin s ⟨e, n, 0⟩ b = false →
    (bobState s e b = bEmpty → ∃ t, exec (.bobMarkFill ag e n b) s = .next t ∧ bobState t e b = bFilling ∧ bobMarked t e b = true ∧ SameMemory s t) ∧
    (∀ k : BitVec 16, bobState s e b = bFilling → bobMarked s e b = true →
      ∃ t, exec (.bobMarkReady ag e n b k) s = .next t ∧ bobState t e b = bReady ∧
        bobRemaining t e b = (if k.toNat = 0 then getF s (rBobCfg e b) fBobCfgReaders else k.toNat) % 2 ^ fBobStateRemaining.width ∧ SameMemory s t) ∧
    ((bobState s e b = bReady ∨ (bobState s e b = bFilling ∧ bobMarked s e b = true)) →
      ∃ t, exec (.bobMarkRelease ag e n b) s = .next t ∧ bobState t e b = bEmpty ∧ SameMemory s t) ∧
    (bobState s e b = bReady → bobRemaining s e b = 0 → exec (.bobMarkConsumed ag e n b) s = .next s) ∧
    (bobState s e b = bReady → bobRemaining s e b = 1 → ∃ t, exec (.bobMarkConsumed ag e n b) s = .next t ∧ bobState t e b = bEmpty ∧ SameMemory s t) ∧
    (∀ k : Nat, bobState s e b = bReady → bobRemaining s e b = k + 2 →
      ∃ t, exec (.bobMarkConsumed ag e n b) s = .next t ∧ bobState t e b = bReady ∧ bobRemaining t e b = k + 1 ∧ SameMemory s t) ∧
    (bobState s e b ≠ bEmpty → exec (.bobMarkFill ag e n b) s = .next (bobErr s e n)) ∧
    (∀ k : BitVec 16, ¬(bobState s e b = bFilling ∧ bobMarked s e b = true) → exec (.bobMarkReady ag e n b k) s = .next (bobErr s e n)) ∧
    (¬(bobState s e b = bReady ∨ (bobState s e b = bFilling ∧ bobMarked s e b = true)) → exec (.bobMarkRelease ag e n b) s = .next (bobErr s e n)) ∧
    (bobState s e b ≠ bReady → exec (.bobMarkConsumed ag e n b) s = .next (bobErr s e n))) ∧
  (∀ (s : State) (ag : Agent) (e : Fin 32) (n : Fin 16) (b : Fin 256), regRight s ag (rBobMark e n).key = true → engActive s e = true →
    badBobbin s ⟨e, n, 0⟩ b = true → exec (.bobMarkFill ag e n b) s = .next (bobErr s e n) ∧ exec (.bobMarkRelease ag e n b) s = .next (bobErr s e n) ∧
      exec (.bobMarkConsumed ag e n b) s = .next (bobErr s e n) ∧ (∀ k : BitVec 16, exec (.bobMarkReady ag e n b k) s = .next (bobErr s e n))) ∧
  (∀ (s : State) (ag : Agent) (e : Fin 32) (n : Fin 16) (b : Fin 256), regRight s ag (rBobMark e n).key = true → engActive s e = false →
    exec (.bobMarkFill ag e n b) s = .next (heldForWake s e (.bobMarkFill ag e n b)) ∧ exec (.bobMarkRelease ag e n b) s = .next (heldForWake s e (.bobMarkRelease ag e n b)) ∧
      exec (.bobMarkConsumed ag e n b) s = .next (heldForWake s e (.bobMarkConsumed ag e n b)) ∧
      (∀ k : BitVec 16, exec (.bobMarkReady ag e n b k) s = .next (heldForWake s e (.bobMarkReady ag e n b k))))) ∧
  (
  (∀ (s : State) (ag : Agent) (e : Fin 32) (view : Bool) (b : Nat), regRight s ag (rBobArm e).key = true →
    (List.range 256).find? (bobBad (setB s (rBobArm e) fBobArmView view) e) = some b →
    ∃ t, exec (.bobArm ag e view) s = .next t ∧ getF t (rBobArm e) fBobArmRefused = 1 ∧ getF t (rBobArm e) fBobArmFirstBad = b % 2 ^ fBobArmFirstBad.width ∧
      t.pend = s.pend ∧ SameRegsBut [(rBobArm e).key] s t ∧ SameUnits s t) ∧
  (∀ (s : State) (ag : Agent) (e : Fin 32) (view : Bool), regRight s ag (rBobArm e).key = true →
    (List.range 256).find? (bobBad (setB s (rBobArm e) fBobArmView view) e) = none →
    ∃ t, exec (.bobArm ag e view) s = .next t ∧ getF t (rBobArm e) fBobArmRefused = 0 ∧
      (∀ b < 256, getR t (rBobCfg e b) = getPend s (rBobCfg e b)) ∧ SameMemory s t))

/-! ### Tasks, arrays and faults -/

/-- The Spindle instructions of a core that runs, a task in U-mode or idle in M-mode (R118, R121, R158): MX_ROOM writes the free slots of an enabled spool, MX_BSTATE the bobbin's state register, both go on; MX_AWAIT on a READY bobbin goes on, on another it makes the task WAITING and frees the core, and in M-mode does not return; MX_BDONE counts one read; MX_YIELD makes the task READY. An index of no spool or bobbin of the context is an illegal instruction. MX_ISSUE (R122, R123), with no earlier access of its core waiting: on an ACTIVE spool whose lock is free or its own, with room and with its slots reached, it appends the command's slots, rings the doorbell and answers 0; without room it answers 1, with the lock held by another agent 2, and issues nothing; behind an access that waits it has not completed. A TRANSFER_INLINE takes four vector registers from one whose number is a multiple of 4, else the instruction is illegal. The words of custom-0 (R121): funct3 0 to 6 are the seven instructions, with their registers, and funct3 7 is illegal. MX_ISSUE on a spool that is not ACTIVE sets DB_ERR, writes nothing and answers a free value: the model's (log 13); slots that do not translate are too (log 61), MX_YIELD in M-mode (log 132), and which word a core decodes (log 102). Rows completed: MX_ISSUE, MX_ROOM, MX_AWAIT, MX_BSTATE, MX_BDONE, MX_YIELD. -/
def Obligations.SpindleInstructions : Prop :=
  (
  ∀ (s : State) (c : CoreId) (h : HartCtx), hartOf s c = some h →
    (∀ (rd rs1 : Fin 32) (u : SpoolId), mxSpool s c h rs1 = some u →
      exec (.mxRoom c rd rs1) s = .next (putHart s c h (h.hart.writeX rd (freeSlots s u)).adv)) ∧
    (∀ (rd rs1 : Fin 32) (b : Nat), mxBob s c h rs1 = some b →
      exec (.mxBstate c rd rs1) s = .next (putHart s c h (h.hart.writeX rd ((getR s (rBobState c.e b)).toNat % 2 ^ 32)).adv)) ∧
    (∀ (rs1 : Fin 32) (b : Nat), mxBob s c h rs1 = some b → bobState s c.e b = bReady → exec (.mxAwait c rs1) s = .next (putHart s c h h.hart.adv)) ∧
    (∀ (rs1 : Fin 32) (b : Nat), mxBob s c h rs1 = some b → bobState s c.e b ≠ bReady → h.slot = none → exec (.mxAwait c rs1) s = .next s) ∧
    (∀ (rs1 : Fin 32) (b : Nat), mxBob s c h rs1 = some b → exec (.mxBdone c rs1) s = .next (bobRead (putHart s c h h.hart.adv) c.e h.n b)) ∧
    (h.slot = none → exec (.mxYield c) s = .next (putHart s c h h.hart.adv)) ∧
    (∀ (rs1 : Fin 32), mxSpool s c h rs1 = none →
      ∀ rd vs2 : Fin 32, exec (.mxRoom c rd rs1) s = .next (illegal s c h) ∧ exec (.mxIssue c rd rs1 vs2) s = .next (illegal s c h)) ∧
    (∀ (rs1 : Fin 32), mxBob s c h rs1 = none →
      exec (.mxAwait c rs1) s = .next (illegal s c h) ∧ exec (.mxBdone c rs1) s = .next (illegal s c h) ∧
        ∀ rd : Fin 32, exec (.mxBstate c rd rs1) s = .next (illegal s c h))) ∧
  (
  ∀ (s : State) (c : CoreId) (h : HartCtx) (i : Nat), hartOf s c = some h → h.slot = some i →
    (∀ (rs1 : Fin 32) (b : Nat), mxBob s c h rs1 = some b → bobState s c.e b ≠ bReady → taskState s c.e i = tRunning →
      (∀ k : Fin 4, k ≠ c.k → ¬(coreState s c.e k = cRunning ∧ coreSlot s c.e k = i)) →
      ∃ t, exec (.mxAwait c rs1) s = .next t ∧ taskState t c.e i = tWaiting ∧ (task t c.e i).await = some b ∧ (task t c.e i).hart = h.hart.adv ∧
        coreState t c.e c.k = cIdle ∧ SameMemory s t) ∧
    (∃ t, exec (.mxYield c) s = .next t ∧ taskState t c.e i = tReady ∧ (task t c.e i).hart = h.hart.adv ∧ (task t c.e i).readyAt = s.time ∧ SameMemory s t)) ∧
  (
  (∀ (s : State) (c : CoreId) (h : HartCtx) (u : SpoolId) (rd rs1 vs2 : Fin 32) (b : Bytes), hartOf s c = some h → mxSpool s c h rs1 = some u →
    (u8At (h.hart.readV vs2) 0 = 2 → vs2.val % 4 = 0) →
    (if u8At (h.hart.readV vs2) 0 = 2 then (List.range 4).flatMap (fun i => h.hart.readV (vs2.val + i)) else h.hart.readV vs2) = b →
    (hartPending s c = true → exec (.mxIssue c rd rs1 vs2) s = .next s) ∧
    (∀ (s2 : State) (slots : List (List Piece)), hartPending s c = false → (∀ a t, (spool s u).lease = some (a, t) → a = spindleAgent c h) →
      b.length / 64 ≤ freeSlots s u → spState s u = spActive → (spool s u).expired ≠ some (spindleAgent c h) →
      reachSlots s c h u (sqTail s u) (b.length / 64) = (s2, some slots) →
      exec (.mxIssue c rd rs1 vs2) s = .next (putHart (appendCmd s2 (spindleAgent c h) u slots b) c h (h.hart.writeX rd 0).adv)) ∧
    (hartPending s c = false → (∀ a t, (spool s u).lease = some (a, t) → a = spindleAgent c h) → freeSlots s u < b.length / 64 →
      exec (.mxIssue c rd rs1 vs2) s = .next (putHart s c h (h.hart.writeX rd 1).adv)) ∧
    (∀ (a : Agent) (t : Nat), hartPending s c = false → (spool s u).lease = some (a, t) → a ≠ spindleAgent c h →
      exec (.mxIssue c rd rs1 vs2) s = .next (putHart s c h (h.hart.writeX rd 2).adv))) ∧
  (∀ (s : State) (c : CoreId) (h : HartCtx) (u : SpoolId) (rd rs1 vs2 : Fin 32), hartOf s c = some h → mxSpool s c h rs1 = some u →
    u8At (h.hart.readV vs2) 0 = 2 → vs2.val % 4 ≠ 0 → exec (.mxIssue c rd rs1 vs2) s = .next (illegal s c h))) ∧
  (
  ∀ (c : CoreId) (rd rs1 rs2 : Fin 32),
    mxDecode c (mxWord 0 rd rs1 rs2) = some (.mxIssue c rd rs1 rs2) ∧ mxDecode c (mxWord 1 rd rs1 rs2) = some (.mxRoom c rd rs1) ∧
    mxDecode c (mxWord 2 rd rs1 rs2) = some (.mxAwait c rs1) ∧ mxDecode c (mxWord 3 rd rs1 rs2) = some (.mxBstate c rd rs1) ∧
    mxDecode c (mxWord 4 rd rs1 rs2) = some (.mxBdone c rs1) ∧ mxDecode c (mxWord 5 rd rs1 rs2) = some (.mxYield c) ∧
    mxDecode c (mxWord 6 rd rs1 rs2) = some (.mxExit c rs1) ∧ mxDecode c (mxWord 7 rd rs1 rs2) = none)

/-- The end of a task (R131): MX_EXIT ends it with OK and the exit value, an exception with FAULT_PERMISSION and its cause, a used-up budget with TIMEOUT; its slot is FREE again, its core idles, and its TASK command is ended with that status. In M-mode an exception is taken at mtvec with its pc, cause and value saved, and MX_EXIT goes on (log 132). The scheduler (R128, R130): an idle core takes the best READY task that may run on it, which then is RUNNING there from now; a core that is not idle, or with no such task, takes none. A task that has run QUANTUM µs becomes READY where another READY task of at least its priority may use the core; with QUANTUM 0, before that time, or with no such other task none does. That the other rows of a core without a task change nothing is the model's reading (log 4). Rows completed: MX_EXIT, SPINDLE_EXCEPTION, TASK_DISPATCH, QUANTUM_EXPIRY, BUDGET_EXPIRY. -/
def Obligations.TasksAreScheduledAndEnd : Prop :=
  (
  ∀ (s : State) (c : CoreId) (h : HartCtx) (i : Fin 16) (u : SpoolId) (cmd : Cmd), hartOf s c = some h → h.slot = some i.val → taskState s c.e i = tRunning →
    (task s c.e i).u = some (u, cmd.slot) → (spool s u).cmds = [cmd] → cmd.opcode = 0x60 →
    (∀ k : Fin 4, k ≠ c.k → ¬(coreState s c.e k = cRunning ∧ coreSlot s c.e k = i.val)) →
    (∀ rs1 : Fin 32, ∃ t, exec (.mxExit c rs1) s = .next t ∧ taskState t c.e i = tFree ∧
      getF t (rCtxTask c.e h.n i) fCtxTaskExit = h.hart.readX rs1 % 2 ^ 32 ∧ coreState t c.e c.k = cIdle ∧
      (spool t u).cmds = [{ cmd with phase := .ended, status := stOk, detail := h.hart.readX rs1 % 2 ^ 32, stall := .none }] ∧ SameMemory s t) ∧
    (∀ (cause : BitVec 6) (tval : BitVec 64), ∃ t, exec (.spindleException c cause tval) s = .next t ∧ taskState t c.e i = tFree ∧
      getF t (rCtxTaskCause c.e h.n i) fCtxTaskCauseValid = 1 ∧ getF t (rCtxTaskCause c.e h.n i) fCtxTaskCauseCause = cause.toNat % 2 ^ fCtxTaskCauseCause.width ∧
      (spool t u).cmds = [{ cmd with phase := .ended, status := stFaultPermission, detail := 0, stall := .none }] ∧ SameMemory s t) ∧
    ((task s c.e i).budget ≠ 0 → (task s c.e i).budget * 1000 < taskUsed s c.e i → ∃ t, exec (.budgetExpiry c.e i) s = .next t ∧ taskState t c.e i = tFree ∧
      (spool t u).cmds = [{ cmd with phase := .ended, status := stTimeout, detail := 0, stall := .none }] ∧ SameMemory s t) ∧
    ((task s c.e i).budget = 0 ∨ taskUsed s c.e i ≤ (task s c.e i).budget * 1000 → exec (.budgetExpiry c.e i) s = .next s)) ∧
  (
  (∀ (s : State) (c : CoreId) (h : HartCtx) (i : Nat) (rs1 : Fin 32), hartOf s c = some h → h.slot = some i →
    exec (.mxExit c rs1) s = .next (endTask (setF s (rCtxTask c.e h.n i) fCtxTaskExit (h.hart.readX rs1 % 2 ^ 32)) c.e i stOk (h.hart.readX rs1 % 2 ^ 32))) ∧
  (∀ (s : State) (c : CoreId) (h : HartCtx) (rs1 : Fin 32), hartOf s c = some h → h.slot = none → exec (.mxExit c rs1) s = .next (putHart s c h h.hart.adv)) ∧
  (∀ (s : State) (c : CoreId) (h : HartCtx) (cause : BitVec 6) (tval : BitVec 64), hartOf s c = some h →
    exec (.spindleException c cause tval) s = .next (hartException s c h cause.toNat tval.toNat)) ∧
  (∀ (s : State) (c : CoreId) (h : HartCtx) (cause : BitVec 6) (tval : BitVec 64), hartOf s c = some h → h.slot = none →
    ∃ x : Hart, exec (.spindleException c cause tval) s = .next (putHart s c h x) ∧ x.mepc = h.hart.pc ∧ x.mcause = BitVec.ofNat 64 cause.toNat ∧
      x.mtval = tval ∧ x.pc = h.hart.mtvec &&& ~~~3 ∧ x.x = h.hart.x) ∧
  (∀ (s : State) (e : Fin 32) (i : Fin 16), taskState s e i ≠ tFree → (task s e i).budget ≠ 0 → (task s e i).budget * 1000 < taskUsed s e i →
    exec (.budgetExpiry e i) s = .next (endTask s e i stTimeout 0))) ∧
  (
  (∀ (s : State) (c : CoreId) (i : Fin 16), coreState s c.e c.k = cIdle → bestTask s c.e c.k = some i.val →
    ∃ t, exec (.taskDispatch c) s = .next t ∧ taskState t c.e i = tRunning ∧ coreState t c.e c.k = cRunning ∧ coreSlot t c.e c.k = i.val ∧
      (task t c.e i).ranAt = s.time ∧ SameMemory s t) ∧
  (∀ (s : State) (c : CoreId), (coreState s c.e c.k ≠ cIdle ∨ bestTask s c.e c.k = none) → exec (.taskDispatch c) s = .next s) ∧
  (∀ (s : State) (c : CoreId) (j : Fin 16), getF s (rSchedCfg c.e) fSchedCfgQuantum ≠ 0 → coreState s c.e c.k = cRunning →
    (task s c.e (coreSlot s c.e c.k)).ranAt + getF s (rSchedCfg c.e) fSchedCfgQuantum * 1000 ≤ s.time → j.val ≠ coreSlot s c.e c.k →
    mayRun s c.e c.k j = true → (task s c.e (coreSlot s c.e c.k)).prio ≤ (task s c.e j).prio → coreSlot s c.e c.k < 16 →
    ∃ t, exec (.quantumExpiry c) s = .next t ∧ taskState t c.e (coreSlot s c.e c.k) = tReady ∧ SameMemory s t) ∧
  (∀ (s : State) (c : CoreId), (getF s (rSchedCfg c.e) fSchedCfgQuantum = 0 ∨ coreState s c.e c.k ≠ cRunning ∨
      s.time < (task s c.e (coreSlot s c.e c.k)).ranAt + getF s (rSchedCfg c.e) fSchedCfgQuantum * 1000 ∨
      (∀ j : Fin 16, j.val ≠ coreSlot s c.e c.k → mayRun s c.e c.k j = false ∨ (task s c.e j).prio < (task s c.e (coreSlot s c.e c.k)).prio)) →
    exec (.quantumExpiry c) s = .next s))

/-- TILE_PASS, RECOMPUTE and the array's marks (R83, R110, R112): an array with a tile that does not wait runs its next pass; one without a tile takes the next tile of the run whose turn it is and runs its first pass; with no run in the engine it does nothing; the oldest queued recompute runs its tile's withheld rows again, one whose tile is gone only leaves the queue, and a queue without a recompute stays; an array that retires hands its position to the spare, or with the spare in service leaves it, holding no accumulator set. A mark older than 24 h leaves MARKS. The stat table (R76, R78): SNAP shows an entry in the data registers of its window and keeps it; CLEAR shows it and clears its counts, keeping its tensor and VALID; STAT_CLEAR_ALL frees entries 0 to 254 of the engine and clears entry 255, other engines' tables staying. ABFT_INJECT arms its array only while DIAG_INJECT_EN is TRUE. Rows whose condition does not hold change nothing (log 4); the injection's row is the model's choice (logs 52, 129), and so is a full repair map (log 133). Rows completed: TILE_PASS, RECOMPUTE, ARRAY_RETIREMENT, STAT_SEL_SNAP, STAT_SEL_CLEAR, STAT_CLEAR_ALL, ABFT_INJECT, SUSPECT_WINDOW_EXPIRY. -/
def Obligations.ArraysAndTheStatTable : Prop :=
  (
  (∀ (s : State) (e : Fin 32) (pa : Fin 13) (bad : List Nat) (r : MatRun) (t : TileRun) (c : Cmd), arrActive s e pa = true → (engAux s e).recomp = [] →
    tileOn s e pa = some (r, t) → t.wait = false → spoolCmd s r.u r.slot = some c →
    exec (.tilePass e pa bad) s = .next (passOn s e pa r c t bad)) ∧
  (∀ (s s2 : State) (e : Fin 32) (pa : Fin 13) (bad : List Nat) (r r2 : MatRun) (t : TileRun) (c : Cmd) (q : Nat), arrActive s e pa = true → (engAux s e).recomp = [] →
    tileOn s e pa = none → nextRun s e pa = some (r, c, q) → s2 = assignTile s pa r c q → tileOn s2 e pa = some (r2, t) →
    exec (.tilePass e pa bad) s = .next (passOn s2 e pa r2 c t bad)) ∧
  (∀ (s : State) (e : Fin 32) (pa : Fin 13) (bad : List Nat), (engAux s e).runs = [] → (engAux s e).recomp = [] → exec (.tilePass e pa bad) s = .next s) ∧
  (∀ (s : State) (e : Fin 32) (bad : List Nat), (engAux s e).recomp = [] → exec (.recompute e bad) s = .next s) ∧
  (∀ (s s2 : State) (e : Fin 32) (bad : List Nat) (x : Recomp) (xs : List Recomp), (engAux s e).recomp = x :: xs → s2 = setEngAux s e { engAux s e with recomp := xs } →
    (runOf s2 x.u x.slot = none → exec (.recompute e bad) s = .next s2) ∧
    (∀ (r : MatRun) (c : Cmd) (pa : Nat) (t : TileRun), runOf s2 x.u x.slot = some r → spoolCmd s2 x.u x.slot = some c → recompArray s2 e x = some pa →
      r.tiles.find? (fun t => decide (t.q = x.q)) = some t → exec (.recompute e bad) s = .next (recompOn s2 e x r c t pa bad))) ∧
  (∀ (s : State) (e : Fin 32) (pa : Fin 13), (arrAux s e pa).retiring = true → arrActive s e pa = true → tileOn s e pa = none → (engAux s e).recomp = [] →
    (arrState s e 12 = 1 ∧ pa.val ≠ 12) ∨ (arrState s e 12 ≠ 1 ∧ heldRows s e pa = 0) → s.rel.repairMap.length < repairCap →
    ∃ t, exec (.arrayRetirement e pa) s = .next t ∧ getF t (rArrayState e pa) fArrayStateState = 2 ∧
      (arrState s e 12 = 1 → getF t (rArrayState e 12) fArrayStateState = 0 ∧ getF t (rArrayState e 12) fArrayStatePosition = arrPos s e pa) ∧
      (arrAux t e pa).retiring = false ∧ t.rel.repairMap.length = s.rel.repairMap.length + 1) ∧
  (∀ (s : State) (e : Fin 32) (pa : Fin 13),
    ∃ t, exec (.suspectWindowExpiry e pa) s = .next t ∧ (arrAux t e pa).marks = (arrAux s e pa).marks.filter (fun x => decide (s.time < x + dayNs)) ∧
      getF t (rArrayState e pa) fArrayStateMarks = min (arrAux t e pa).marks.length 3 ∧ SameRegsBut [(rArrayState e pa).key] s t ∧ SameMemory s t)) ∧
  (
  (∀ (s : State) (ag : Agent) (e : Fin 32) (n : Fin 16) (i : Fin 256), regRight s ag (rCtxStatSel e n).key = true →
    ∃ t, exec (.statSelSnap ag e (some n) i) s = .next t ∧ (∀ w < 4, getR t (rCtxStatData e n w) = BitVec.ofNat 64 (u64At (statBytes i (statEntry s e i)) (8 * w))) ∧
      getF t (rCtxStatSel e n) fCtxStatSelEntry = i.val ∧ t.eng = s.eng ∧ SameMemory s t) ∧
  (∀ (s : State) (ag : Agent) (e : Fin 32) (i : Fin 256), regRight s ag (rStatSel e).key = true →
    ∃ t, exec (.statSelSnap ag e none i) s = .next t ∧ (∀ w < 4, getR t (rStatData e w) = BitVec.ofNat 64 (u64At (statBytes i (statEntry s e i)) (8 * w))) ∧
      getF t (rStatSel e) fStatSelEntry = i.val ∧ t.eng = s.eng ∧ SameMemory s t) ∧
  (∀ (s : State) (ag : Agent) (e : Fin 32) (i j : Fin 256), regRight s ag (rStatSel e).key = true → j ≠ i →
    ∃ t, exec (.statSelClear ag e none i) s = .next t ∧ (∀ w < 4, getR t (rStatData e w) = BitVec.ofNat 64 (u64At (statBytes i (statEntry s e i)) (8 * w))) ∧
      statEntry t e i = { tensor := (statEntry s e i).tensor, valid := (statEntry s e i).valid } ∧ statEntry t e j = statEntry s e j ∧ SameMemory s t) ∧
  (∀ (s : State) (ag : Agent) (e : Fin 32) (n : Fin 16) (i j : Fin 256), regRight s ag (rCtxStatSel e n).key = true → j ≠ i →
    ∃ t, exec (.statSelClear ag e (some n) i) s = .next t ∧ (∀ w < 4, getR t (rCtxStatData e n w) = BitVec.ofNat 64 (u64At (statBytes i (statEntry s e i)) (8 * w))) ∧
      statEntry t e i = { tensor := (statEntry s e i).tensor, valid := (statEntry s e i).valid } ∧ statEntry t e j = statEntry s e j ∧ SameMemory s t) ∧
  (∀ (s : State) (ag : Agent) (e f : Fin 32) (i : Nat), regRight s ag (rStatClearAll e).key = true → i < 255 → f ≠ e →
    ∃ t, exec (.statClearAll ag e) s = .next t ∧ statEntry t e i = {} ∧ statEntry t e 255 = (statEntry s e 255).cleared ∧ statEntry t f i = statEntry s f i ∧
      t.regs = s.regs ∧ SameMemory s t) ∧
  (∀ (s : State) (ag : Agent) (e : Fin 32) (pa : BitVec 4), regRight s ag (rAbftInject e).key = true → pa.toNat < 13 →
    (objNat s oDiagInjectEn = 1 → ∃ t, exec (.abftInject ag e pa true) s = .next t ∧ (arrAux t e pa.toNat).inject = true ∧ t.regs = s.regs ∧ SameMemory s t) ∧
    (objNat s oDiagInjectEn ≠ 1 → exec (.abftInject ag e pa true) s = .next s)))

/-- FR_RESUME and REPLAY_LIMIT (R258, R259): RETRY lets a replay-stalled command issue its accesses again and keeps its first fault, a held fetch go on, and a held record be written; KILL and the limit take its context down the kill path; a number that names no stall is ignored and counted. KILL_RECORD and the fault rings (R257, R260, R261): once no write of a slot is to come, its kill record is written once, under the next number; before that, and with no kill owed, nothing happens. A fault record for a ring that lies nowhere is counted in OVERFLOW and not written; one for a full ring is held and counted. Software's CONSUMER makes room for held records, and with nothing held only the pointer moves. Rows completed: FR_RESUME_RETRY, FR_RESUME_KILL, KILL_RECORD, REPLAY_LIMIT, FR_PTR_CONSUMER. -/
def Obligations.FaultsAreRecordedAndReplayed : Prop :=
  (
  (∀ (s : State) (ag : Agent) (e : Fin 32) (n : Fin 16) (seq : BitVec 48), regRight s ag (rFrResume e).key = true → killing s e n = false →
    (∀ x ∈ stallsOf s e n, x.1 % 2 ^ 48 ≠ seq.toNat) →
    exec (.frResumeRetry ag e n seq) s = .next (resumeIgnored s e) ∧ exec (.frResumeKill ag e n seq) s = .next (resumeIgnored s e)) ∧
  (∀ (s : State) (ag : Agent) (e : Fin 32) (n : Fin 16) (seq : BitVec 48), regRight s ag (rFrResume e).key = true → killing s e n = false →
    (∀ u c, stallNamed s e n seq.toNat = some (.cmd u c) → exec (.frResumeRetry ag e n seq) s = .next (releaseCmd s u c)) ∧
    (∀ u i, stallNamed s e n seq.toNat = some (.fetch u i) →
      exec (.frResumeRetry ag e n seq) s = .next (setSpool s u { spool s u with fetchHold := none, fetchFirst := some i })) ∧
    (∀ u i, stallNamed s e n seq.toNat = some (.record u i) →
      exec (.frResumeRetry ag e n seq) s = .next (flushSpool (setSpool s u { spool s u with cqHold := none, cqFirst := some i }) u))) ∧
  (∀ (s : State) (ag : Agent) (e : Fin 32) (n : Fin 16) (seq : BitVec 48) (x : Nat × Stalled), regRight s ag (rFrResume e).key = true → killing s e n = false →
    (stallsOf s e n).find? (fun x => decide (x.1 % 2 ^ 48 = seq.toNat)) = some x → exec (.frResumeKill ag e n seq) s = .next (flushCtx (killStall s x false) e n)) ∧
  (∀ (s : State) (e : Fin 32) (n : Fin 16) (x : Nat × Stalled), killing s e n = false →
    (stallsOf s e n).find? (fun x => decide (stallSince x.2 + replayLimitNs s ≤ s.time)) = some x → exec (.replayLimit e n) s = .next (flushCtx (killStall s x true) e n)) ∧
  (∀ (s : State) (e : Fin 32) (n : Fin 16), (∀ x ∈ stallsOf s e n, s.time < stallSince x.2 + replayLimitNs s) → exec (.replayLimit e n) s = .next s)) ∧
  (
  (∀ (s : State) (e : Fin 32) (n : Fin 16), ((ctxAux s e n).kill = none ∨ slotQuiet s e n = false) → exec (.killRecord e n) s = .next s) ∧
  (∀ (s : State) (e : Fin 32) (n : Fin 16) (k : KillRec), (ctxAux s e n).kill = some k → slotQuiet s e n = true →
    ∃ t b, exec (.killRecord e n) s = .next (flushCtx (putFault t e n b) e n) ∧ (ctxAux t e n).kill = none ∧ (ctxAux t e n).seq = (ctxAux s e n).seq + 1 ∧
      b.take 8 = natLE 8 k.va ∧ t.mem = s.mem) ∧
  (∀ (s : State) (e n : Nat) (b : Bytes), (frRing e n).placed s 32 = false → putFault s e n b = bump s (rFrStatus e n) fFrStatusOverflow 1) ∧
  (∀ (s : State) (e n : Nat) (b : Bytes), (frRing e n).placed s 32 = true → (frRing e n).full s = true →
    (putFault s e n b).mem = s.mem ∧ (ctxAux (putFault s e n b) e n).held = (ctxAux s e n).held ++ [⟨b⟩] ∧
      getF (putFault s e n b) (rFrPtr e n) fFrPtrProducer = getF s (rFrPtr e n) fFrPtrProducer) ∧
  (∀ (s : State) (ag : Agent) (e : Fin 32) (n : Fin 16) (val : BitVec 32), regRight s ag (rFrPtr e n).key = true →
    exec (.frPtrConsumer ag (.ctx e n) val) s = .next (flushFaults (setF s (rFrPtr e n) fFrPtrConsumer val.toNat) e n (ctxAux s e n).held.length) ∧
    ((ctxAux s e n).held = [] → exec (.frPtrConsumer ag (.ctx e n) val) s = .next (setF s (rFrPtr e n) fFrPtrConsumer val.toNat))) ∧
  (∀ (s : State) (ag : Agent) (p : Fin 16) (val : BitVec 32), regRight s ag (rRhPfrPtr p).key = true →
    exec (.frPtrConsumer ag (.part p) val) s =
      .next (flushPeerFaults (setF s (rRhPfrPtr p) fRhPfrPtrConsumer val.toNat) p (mapGet s.hub.pfHeld p.val []).length) ∧
    (mapGet s.hub.pfHeld p.val [] = [] → exec (.frPtrConsumer ag (.part p) val) s = .next (setF s (rRhPfrPtr p) fRhPfrPtrConsumer val.toNat))))

/-- RANGE_CACHE_MISS and WALK_COMPLETE (R244, R249, R251, R253): a request that a cached entry covers is answered by it; one that misses starts a walk under the hub's next number, or joins the walk of its range; with the root off it faults with NO_ROOT. A completed walk answers its request and then those that joined it; one that a flush met walks again; a number that names no walk, or one that waits for its turn, changes nothing. RH_REPLY_INSTALL, RH_REPLY_REFUSE and CONSULT_TIMEOUT (R252): the handler's reply is checked and installed, its refusal and the time limit fault with CONSULT_REFUSED and CONSULT_TIMEOUT, a request that a flush met walks again, a number that names no request changes nothing. RH_CONSULT_PTR_CONSUMER lets held requests be written. FLUSH_TAG and FLUSH_TAG_DONE (R253, R254): with 16 requests queued a flush is refused and sets REFUSED; behind another it waits its turn; alone it drops every entry of its ASTAG from every range cache, and without DRAIN DONE rises at once, with DRAIN once no request translated under its ASTAG is outstanding. That a flushed consult restarts at its answer is the model's reading (log 82). Rows completed: FLUSH_TAG, FLUSH_TAG_DONE, RH_REPLY_INSTALL, RH_REPLY_REFUSE, RANGE_CACHE_MISS, WALK_COMPLETE, CONSULT_TIMEOUT, RH_CONSULT_PTR_CONSUMER. -/
def Obligations.RangeTranslation : Prop :=
  (
  (∀ (s s2 : State) (r : XlateReq) (e : RcEntry), rcLookup s (reqCache r) r.astag.toNat r.va.toNat = (s2, some e) → exec (.rangeCacheMiss r) s = .next (giveEntry s2 r e)) ∧
  (∀ (s s2 : State) (r : XlateReq), rcLookup s (reqCache r) r.astag.toNat r.va.toNat = (s2, none) → getB s2 rRhRoot fRhRootEnable = false →
    exec (.rangeCacheMiss r) s = .next (giveFault s2 r fNoRoot false)) ∧
  (∀ (s s2 : State) (r : XlateReq), rcLookup s (reqCache r) r.astag.toNat r.va.toNat = (s2, none) → getB s2 rRhRoot fRhRootEnable = true →
    (∀ w ∈ walksOf s2 (reqCache r), sameRange s2 w.req r = false) →
    ∃ t, exec (.rangeCacheMiss r) s = .next t ∧ walksOf t (reqCache r) = walksOf s2 (reqCache r) ++ [{ id := s2.hub.nextId, req := r, joined := [], restart := false }] ∧
      t.hub.nextId = s2.hub.nextId + 1 ∧ SameMemory s2 t) ∧
  (∀ (s s2 : State) (r : XlateReq) (w : Walk), rcLookup s (reqCache r) r.astag.toNat r.va.toNat = (s2, none) → getB s2 rRhRoot fRhRootEnable = true →
    walksOf s2 (reqCache r) = [w] → sameRange s2 w.req r = true →
    ∃ t, exec (.rangeCacheMiss r) s = .next t ∧ walksOf t (reqCache r) = [{ w with joined := w.joined ++ [r] }] ∧ t.hub.nextId = s2.hub.nextId ∧ SameMemory s2 t) ∧
  (∀ (s : State) (id : Nat), walkNamed s id = none ∨ walkRuns s id = false → exec (.walkComplete id) s = .next s) ∧
  (∀ (s : State) (id : Nat) (c : Option Nat) (w : Walk), walkNamed s id = some (c, w) → walkRuns s id = true →
    (w.restart = false → ∀ s2 res, resolveReq (setWalks s c ((walksOf s c).filter (fun x => decide (x.id ≠ id)))) w.req = (s2, res) →
      exec (.walkComplete id) s = .next (w.joined.foldl (fun t r => joinResult t r res) s2)) ∧
    (w.restart = true → exec (.walkComplete id) s = .next (setWalks s c ((walksOf s c).map (fun x => if x.id = id then { x with restart := false } else x)))))) ∧
  (
  (∀ (s : State) (ag : Agent) (id : BitVec 32) (c : Consult), regRight s ag rRhReplyCtl.key = true → consultNamed s id.toNat = some c → c.restart = false →
    exec (.rhReplyInstall ag id) s = .next (installReply s c) ∧
    exec (.rhReplyRefuse ag id) s = .next (consultFault (dropConsult s c.id) c fConsultRefused (c.entry.replay || c.entry.rootReplay))) ∧
  (∀ (s : State) (id : BitVec 32) (c : Consult), consultNamed s id.toNat = some c →
    (c.restart = false → c.since + objNat s oConsultTimeout * 1000000 ≤ s.time →
      exec (.consultTimeout id) s = .next (consultFault (dropConsult s c.id) c fConsultTimeout (c.entry.replay || c.entry.rootReplay))) ∧
    (c.restart = true → c.since + objNat s oConsultTimeout * 1000000 ≤ s.time → exec (.consultTimeout id) s = .next (restartConsult s c)) ∧
    (s.time < c.since + objNat s oConsultTimeout * 1000000 → exec (.consultTimeout id) s = .next s)) ∧
  (∀ (s : State) (ag : Agent) (id : BitVec 32) (c : Consult), regRight s ag rRhReplyCtl.key = true → consultNamed s id.toNat = some c → c.restart = true →
    exec (.rhReplyInstall ag id) s = .next (restartConsult s c) ∧ exec (.rhReplyRefuse ag id) s = .next (restartConsult s c)) ∧
  (∀ (s : State) (ag : Agent) (id : BitVec 32), regRight s ag rRhReplyCtl.key = true → consultNamed s id.toNat = none →
    exec (.rhReplyInstall ag id) s = .next s ∧ exec (.rhReplyRefuse ag id) s = .next s ∧ exec (.consultTimeout id) s = .next s) ∧
  (∀ (s : State) (ag : Agent) (val : BitVec 32), regRight s ag rRhConsultPtr.key = true →
    exec (.rhConsultPtrConsumer ag val) s = .next (flushConsults (setF s rRhConsultPtr fRhConsultPtrConsumer val.toNat)) ∧
    (s.hub.consults = [] → exec (.rhConsultPtrConsumer ag val) s = .next (setF s rRhConsultPtr fRhConsultPtrConsumer val.toNat)))) ∧
  (
  (∀ (s : State) (ag : Agent) (a : BitVec 16) (all drain : Bool), regRight s ag rRhFlush.key = true → 16 ≤ s.hub.flushQ.length →
    exec (.flushTag ag a all drain) s = .next (setF s rRhFlushStatus fRhFlushStatusRefused 1)) ∧
  (∀ (s : State) (ag : Agent) (a : BitVec 16) (all drain : Bool) (f : Flush) (l : List Flush), regRight s ag rRhFlush.key = true → s.hub.flushQ = f :: l → l.length < 15 →
    f.started.isSome = true → f.drain = true → f.software = true → s.hub.flushWait = [] → NoneAwaitsFlush s →
    ∃ t, exec (.flushTag ag a all drain) s = .next t ∧ t.hub.flushQ = s.hub.flushQ ++ [{ astag := a.toNat, all := all, drain := drain, software := true }] ∧
      t.hub.flushWait = [] ∧ t.regs = s.regs ∧ t.hub.rc = s.hub.rc ∧ SameMemory s t) ∧
  (∀ (s : State) (ag : Agent) (a : BitVec 16) (all drain : Bool) (e : Fin 32), regRight s ag rRhFlush.key = true → s.hub.flushQ = [] → s.hub.flushWait = [] → NoneAwaitsFlush s →
    ∃ t, exec (.flushTag ag a all drain) s = .next t ∧ (∀ x ∈ t.hub.rc, all = false ∧ x.astag ≠ a.toNat) ∧ (∀ x ∈ (engAux t e).rc, all = false ∧ x.astag ≠ a.toNat) ∧
      t.hub.flushQ = (if drain then [{ astag := a.toNat, all := all, drain := drain, software := true, started := some s.hub.nextId }] else []) ∧
      getF t rRhFlushStatus fRhFlushStatusDone = (getF s rRhFlushStatus fRhFlushStatusDone + (!drain).toNat) % 2 ^ fRhFlushStatusDone.width ∧ SameMemory s t) ∧
  (∀ (s : State) (f : Flush) (l : List Flush), s.hub.flushQ = f :: l →
    (f.started = none ∨ flushPending s f = true → exec .flushTagDone s = .next s) ∧
    (f.started.isSome = true → flushPending s f = false →
      exec .flushTagDone s = .next (afterFlushes (pumpFlushes (flushDone { s with hub := { s.hub with flushQ := l } } f))))) ∧
  (∀ (s : State) (f : Flush), s.hub.flushQ = [f] → f.started.isSome = true → flushPending s f = false → s.hub.flushWait = [] → NoneAwaitsFlush s →
    ∃ t, exec .flushTagDone s = .next t ∧ t.hub.flushQ = [] ∧
      getF t rRhFlushStatus fRhFlushStatusDone = (getF s rRhFlushStatus fRhFlushStatusDone + f.software.toNat) % 2 ^ fRhFlushStatusDone.width ∧ SameMemory s t) ∧
  (∀ s : State, s.hub.flushQ = [] → exec .flushTagDone s = .next s))

/-! ### Memory accesses, registers and tiers -/

/-- MEMORY_ACCESS. Where it goes: a task's access at a virtual address is translated under the ASTAG of its context slot and made piece by piece, or not at all (R118); one of an older generation is counted and refused (R428); a store to the SRAM of an engine that is not ACTIVE wakes it and is held (R424); one that a rule refuses answers the refusal and changes nothing (R187, R280); a write to a granule in migration waits (R206), as does one to a line within a hold or behind another (R269, R271). What it does: each kind, read, fetch, peek, LR, own, write, SC and atomic, completes with its answer; a write's bytes lie where the granule lies and every other byte stays; a load of a DEVICE line answers the bytes where the granule lies; a caching agent's read of a SHARED line adds its presence, its LR or own makes it the owner; an SC without its reservation fails and stores nothing (R192, R198, R203, R214, R267, R270, R280). A register is read and written at its offset (R447). Unlisted memory reads 0 (log 2, the model's choice); no clause rests on that value. Row completed: MEMORY_ACCESS. -/
def Obligations.AccessesLieWhereTheGranuleLies : Prop :=
  (
  (∀ (s s2 : State) (r : MemReq) (va : Word) (e : Fin 32) (k : Fin 4) (h : HartCtx), r.va = some va → r.agent = .spindle e k .u → hartOf s ⟨e, k⟩ = some h → h.slot.isSome = true →
    let q : XReq := { hartReq s ⟨e, k⟩ h (reqWrites r) (decide (r.kind ≠ .fetch) && (!reqWrites r || (match r.kind with | .atomic .. => true | _ => false)))
      (decide (r.kind = .fetch)) with noWait := true }
    (∀ ps, xlate s q va.toNat (reqBytes r) = (s2, .ok ps) → exec (.memoryAccess r) s = .next (accessPieces s2 r ps 0)) ∧
    (∀ a c p, xlate s q va.toNat (reqBytes r) = (s2, .fault a c p) → exec (.memoryAccess r) s = .next (hartFault s2 ⟨e, k⟩ h q a c p))) ∧
  (∀ (s : State) (r : MemReq) (u : UnitId), r.va = none → r.mpa.toNat < mmioBase → sleepingStore s r = none → staleUnit s r = some u → s.hub.stalled = [] →
    exec (.memoryAccess r) s = .next (putAccess (countStale s u) (denied r.agent))) ∧
  (∀ (s : State) (r : MemReq) (e : Nat), r.va = none → r.mpa.toNat < mmioBase → sleepingStore s r = some e → exec (.memoryAccess r) s = .next (heldForWake s e (.memoryAccess r))) ∧
  (∀ (s : State) (r : MemReq) (o : AccessOut), r.va = none → r.mpa.toNat < mmioBase → sleepingStore s r = none → staleUnit s r = none → reqBytes r ≠ 0 → r.ecc ≠ .pathParityAddr →
    refusal s r = some o → s.hub.stalled = [] → exec (.memoryAccess r) s = .next (putAccess s o)) ∧
  (∀ (s : State) (r : MemReq), r.va = none → r.mpa.toNat < mmioBase → sleepingStore s r = none → staleUnit s r = none → reqBytes r ≠ 0 → r.ecc = .pathParityAddr →
    exec (.memoryAccess r) s = .next (settleWaits (putAccess (eccRead s (locate s r.mpa.toNat) .pathParityAddr) (denied r.agent)))) ∧
  (∀ (s : State) (r : MemReq), Admitted s r → reqWaits s r s.hub.nextId = true → s.hub.stalled = [] →
    ∃ t, exec (.memoryAccess r) s = .next t ∧ t.hub.stalled = [{ id := s.hub.nextId, req := r, since := s.time }] ∧
      t.hub.accOut = s.hub.accOut ++ [.stalled s.hub.nextId] ∧ SameMemory s t)) ∧
  (
  (∀ (s : State) (r : MemReq), Admitted s r → KeepsR248 s r → reqWaits s r s.hub.nextId = false → r.kind = .write → r.ecc ≠ .pathParity →
    exec (.memoryAccess r) s = .next (settleWaits (putAccess (storeBytes (touched s r) r (effShared s r.shared r.mpa.toNat)) .done))) ∧
  (∀ (s : State) (r : MemReq), Admitted s r → KeepsR248 s r → reqWaits s r s.hub.nextId = false → s.hub.stalled = [] → r.data ≠ [] → r.ecc = .ok → r.kind = .write → r.strobe = none →
    effShared s r.shared r.mpa.toNat = false → r.hint ≠ 1 → r.hint ≠ 2 → s.hub.breach = [] → Memory.wf s.mem = true →
    (∀ i j, i < r.data.length → j < r.data.length → locate s (r.mpa.toNat + i) = locate s (r.mpa.toNat + j) → i = j) →
    ∃ t, exec (.memoryAccess r) s = .next t ∧ t.hub.accOut = s.hub.accOut ++ [.done] ∧
      (∀ i, i < r.data.length → byteAt t (locate s (r.mpa.toNat + i)) = r.data.getD i 0) ∧
      (∀ x, (∀ i, i < r.data.length → x ≠ locate s (r.mpa.toNat + i)) → byteAt t x = byteAt s x)) ∧
  (∀ (s : State) (r : MemReq), Admitted s r → KeepsR248 s r → s.hub.stalled = [] → r.ecc = .ok → (r.kind = .read ∨ r.kind = .fetch) → effShared s r.shared r.mpa.toNat = false →
    r.hint ≠ 1 → r.hint ≠ 2 → (mpaPoisoned s r.mpa.toNat r.len = false ∨ presenceBit r.agent = none) →
    ∃ t, exec (.memoryAccess r) s = .next t ∧ t.hub.accOut = s.hub.accOut ++ [.data (mpaRead s r.mpa.toNat r.len) (mpaPoisoned s r.mpa.toNat r.len)] ∧
      t.hub.dir = s.hub.dir ∧ SameMemory s t) ∧
  (∀ (s : State) (r : MemReq) (b l : Nat), Admitted s r → KeepsR248 s r → reqWaits s r s.hub.nextId = false → s.hub.stalled = [] → r.ecc = .ok → caches r = some b →
    effShared s r.shared r.mpa.toNat = true → r.hint ≠ 1 → r.hint ≠ 2 → mpaPoisoned s r.mpa.toNat r.len = false → linesOf r.mpa.toNat (reqBytes r) = [l] →
    Memory.wf s.mem = true → (∀ d bs, dirFind s l = some d → d.data = some bs → bs.length = 64) →
    ((dirFind s l).isSome = true ∨ (s.hub.dir.filter (fun d => decide (dirHome d.line = dirHome l))).length < 16) →
    ((r.kind = .read ∨ r.kind = .fetch) → ∃ t d, exec (.memoryAccess r) s = .next t ∧ t.hub.accOut = s.hub.accOut ++ [.data (cohRead s r.mpa.toNat r.len) false] ∧
      dirFind t l = some d ∧ b ∈ d.pv) ∧
    ((r.kind = .own ∨ r.kind = .lr) → ∃ t d, exec (.memoryAccess r) s = .next t ∧ t.hub.accOut = s.hub.accOut ++ [.data (cohRead s r.mpa.toNat r.len) false] ∧
      dirFind t l = some d ∧ d.owned = true ∧ d.pv = [b] ∧ (r.kind = .lr → mapFind t.hub.resv b = some l))) ∧
  (∀ (s : State) (r : MemReq), Admitted s r → r.kind = .peek → s.hub.stalled = [] → KeepsR248 s r →
    exec (.memoryAccess r) s = .next (putAccess s (.data (if effShared s r.shared r.mpa.toNat then cohRead s r.mpa.toNat r.len else mpaRead s r.mpa.toNat r.len)
      (mpaPoisoned s r.mpa.toNat r.len)))) ∧
  (∀ (s : State) (r : MemReq), Admitted s r → KeepsR248 s r → reqWaits s r s.hub.nextId = false → r.kind = .sc →
    (resvHeld (touched s r) (presenceBit r.agent) r.mpa.toNat = true →
      exec (.memoryAccess r) s = .next (settleWaits (putAccess (storeBytes (clearResv (touched s r) (presenceBit r.agent)) r (effShared s r.shared r.mpa.toNat)) .done))) ∧
    (resvHeld (touched s r) (presenceBit r.agent) r.mpa.toNat = false →
      exec (.memoryAccess r) s = .next (settleWaits (putAccess (clearResv (touched s r) (presenceBit r.agent)) .scFail)))) ∧
  (∀ (s : State) (r : MemReq) (op : AtomicOp) (sz sg : Bool) (v : Nat), Admitted s r → KeepsR248 s r → reqWaits s r s.hub.nextId = false → s.hub.stalled = [] → r.kind = .atomic op sz sg →
    effShared s r.shared r.mpa.toNat = false → r.ecc = .ok → r.hint ≠ 1 → r.hint ≠ 2 → s.hub.breach = [] → Memory.wf s.mem = true → mpaPoisoned s r.mpa.toNat (atomicBytes op sz) = false →
    atomicNew op sg (atomicBytes op sz) (mpaNat s r.mpa.toNat (atomicBytes op sz)) r.operand.toNat r.compare.toNat = some v →
    ∃ t, exec (.memoryAccess r) s = .next t ∧ t.hub.accOut = s.hub.accOut ++ [.old (BitVec.ofNat 64 (mpaNat s r.mpa.toNat (atomicBytes op sz))) false] ∧
      getF t rNearAtomics fNearAtomics = min (2 ^ fNearAtomics.width - 1) (getF s rNearAtomics fNearAtomics + 1) ∧
      (∀ x, (∀ i, i < atomicBytes op sz → x ≠ locate s (r.mpa.toNat + i)) → byteAt t x = byteAt s x)) ∧
  (∀ (s s2 : State) (r : MemReq) (op : AtomicOp) (sz sg : Bool) (o : AccessOut), Admitted s r → KeepsR248 s r → reqWaits s r s.hub.nextId = false → r.kind = .atomic op sz sg →
    serveAtomic (touched s r) r (effShared s r.shared r.mpa.toNat) op sz sg = (s2, o) → exec (.memoryAccess r) s = .next (settleWaits (putAccess s2 o))) ∧
  (∀ (s : State) (r : MemReq) (k : RegKey), r.va = none → mmioBase ≤ r.mpa.toNat → staleUnit s r = none → mmioTarget (r.mpa.toNat - mmioBase) = .reg k →
    mmioTarget ((r.mpa.toNat - mmioBase) / 8 * 8) = .reg k → accessOf (r.mpa.toNat - mmioBase) (reqBytes r) ≠ .bad → regRight s r.agent k = true →
    (r.kind = .read → exec (.memoryAccess r) s = .next (putAccess (readReg s r.agent k (accessOf (r.mpa.toNat - mmioBase) (reqBytes r))).1
      (.data (natLE (reqBytes r) (readReg s r.agent k (accessOf (r.mpa.toNat - mmioBase) (reqBytes r))).2.toNat) false))) ∧
    (r.kind = .write → ∀ d, regDesc k = some d → exec (.memoryAccess r) s = .next (putAccess
      (writeReg s r.agent k d (accessOf (r.mpa.toNat - mmioBase) (reqBytes r)) (BitVec.ofNat 64 (leNat r.data))) .done))))

/-- R272: a non-caching agent reads a SHARED line as a current read: an owner supplies its data and keeps the line unchanged, else the home supplies it; no presence bit is set. R276: a line that a server core caches although its range has DEVICE bias is in breach of R248, its contents undefined (free) until it is evicted and rewritten whole. -/
def Obligations.NonCachingReadsAreCurrentReads : Prop :=
  (∀ (s : State) (r : MemReq), Admitted s r → KeepsR248 s r → reqWaits s r s.hub.nextId = false → s.hub.stalled = [] → r.ecc = .ok → r.kind = .read →
    effShared s r.shared r.mpa.toNat = true → caches r = none → r.hint ≠ 1 → r.hint ≠ 2 → mpaPoisoned s r.mpa.toNat r.len = false →
    ∃ t bs, exec (.memoryAccess r) s = .next t ∧ t.hub.accOut = s.hub.accOut ++ [.data bs false] ∧ t.hub.dir = s.hub.dir ∧ SameMemory s t ∧
      (∀ i d b, i < r.len → dirFind s ((r.mpa.toNat + i) / 64) = some d → d.owned = true → d.data = some b → bs.getD i 0 = b.getD ((r.mpa.toNat + i) % 64) 0) ∧
      (∀ i, i < r.len → (∀ d, dirFind s ((r.mpa.toNat + i) / 64) = some d → d.owned = false) → bs.getD i 0 = byteAt s (locate s (r.mpa.toNat + i)))) ∧
  (∀ (s : State) (r : MemReq) (c : Fin 128) (p : Priv), Admitted s r → r.agent = .core c p → r.cached = true → r.shared = false → s.hub.stalled = [] → r.ecc = .ok → r.kind = .read →
    r.hint ≠ 1 → r.hint ≠ 2 → mpaPoisoned s r.mpa.toNat r.len = false → Memory.wf s.mem = true →
    ∃ t, exec (.memoryAccess r) s = .next t ∧ (∀ l ∈ linesOf r.mpa.toNat r.len, (homeLine s l, false) ∈ t.hub.breach) ∧
      (∀ a, (∀ l ∈ linesOf r.mpa.toNat r.len, Outside a (64 * (locate s (64 * l) / 64)) 64) → byteAt t a = byteAt s a))

/-- REGISTER_WRITE (R14, R355, R445, R447): an offset that is not a register's, and a width that is refused, is refused to its requester and writes nothing; a place without a register is read as 0 and written without effect; a register of the collective or Plalia block takes its RW bits, clears the W1C bits written 1, and every other register stays; a register of another block does what its write does. A server core's access in the guest's agreed windows goes to LINK_18. Row completed: REGISTER_WRITE. -/
def Obligations.PlainRegistersTakeTheirWritableBits : Prop :=
  (∀ (s : State) (ag : Agent) (off : BitVec 40) (acc : RegAccess) (val : Word), off.toNat % 8 ≠ 0 →
    exec (.registerWrite ag off acc val) s = .next (putAccess s (denied ag))) ∧
  (∀ (s : State) (ag : Agent) (off : BitVec 40) (acc : RegAccess) (val : Word), off.toNat % 8 = 0 → mmioTarget off.toNat = .outside →
    exec (.registerWrite ag off acc val) s = .next (putAccess s (denied ag))) ∧
  (∀ (s : State) (ag : Agent) (off : BitVec 40) (k : RegKey) (val : Word), off.toNat % 8 = 0 → mmioTarget off.toNat = .reg k →
    exec (.registerWrite ag off .bad val) s = .next (putAccess s (denied ag))) ∧
  (∀ (s : State) (ag : Agent) (off : BitVec 40) (k : RegKey) (val : Word), off.toNat % 8 = 0 → mmioTarget off.toNat = .reg k → regRight s ag k = true →
    regDesc k = none → exec (.registerWrite ag off .w64 val) s = .next s ∧ (readReg s ag k .w64).2 = 0) ∧
  (∀ (s : State) (ag : Agent) (off : BitVec 40) (k : RegKey) (d : RegDesc) (acc : RegAccess) (val : Word), off.toNat % 8 = 0 → mmioTarget off.toNat = .reg k → acc ≠ .bad →
    regRight s ag k = true → regDesc k = some d → exec (.registerWrite ag off acc val) s = .next (writeReg s ag k d acc val)) ∧
  (∀ (s : State) (ag : Agent) (off : BitVec 40) (k : RegKey) (d : RegDesc) (val : Word), off.toNat % 8 = 0 → mmioTarget off.toNat = .reg k → regRight s ag k = true →
    regDesc k = some d → (k.blk = .coll ∨ k.blk = .plalia) →
    ∃ t, exec (.registerWrite ag off .w64 val) s = .next t ∧ SameRegsBut [k] s t ∧ SameUnits s t ∧
      getR t (regAt k) = (((getR s (regAt k) &&& ~~~accMask d (fun a => decide (a = .rw))) ||| (val &&& accMask d (fun a => decide (a = .rw)))) &&&
        ~~~(val &&& accMask d (fun a => decide (a = .w1c)))) ||| (val &&& accMask d (fun a => decide (a = .w1s)))) ∧
  (∀ (s : State) (ag : Agent) (off : BitVec 40) (c f o : Nat) (acc : RegAccess) (val : Word), off.toNat % 8 = 0 → mmioTarget off.toNat = .imsic c f o → acc ≠ .bad →
    exec (.registerWrite ag off acc val) s = .next (imsicWrite s c f o acc val)) ∧
  (∀ (s : State) (ag : Agent) (off : BitVec 40) (o : Nat) (val : Word), off.toNat % 8 = 0 → mmioTarget off.toNat = .guest o →
    exec (.registerWrite ag off .w64 val) s = .next (guestAccess s ag o (some (natLE 8 val.toNat)) 8) ∧
    exec (.registerWrite ag off .lo32 val) s = .next (guestAccess s ag o (some (natLE 4 val.toNat)) 4) ∧
    exec (.registerWrite ag off .hi32 val) s = .next (guestAccess s ag (o + 4) (some (natLE 4 val.toNat)) 4))

/-- MIG_REQ_PROMOTE, MIG_REQ_DEMOTE and PROMOTION_START (R202, R207, R210): a request of a granule that exists joins a queue of 64, a full queue refuses it; with migration off, paused or at its limit none starts; a queued promotion of a granule in RESIDENT_LOW with a free frame enters PROMOTING with that frame, charged to its ASTAG; without one it waits for its victim. PROMOTION_DONE, DEMOTION_START, DEMOTION_COPY and DEMOTION_DONE (R204, R205, R211): a granule in PROMOTING becomes RESIDENT_HIGH with age 0, its bytes then in its frame, once its flush is done; one asked for demotion, chosen as victim or above its account's ceiling enters DEMOTING, its copy starts once no request translated by a flushed entry is in flight, and at its end it is RESIDENT_LOW without frame or charge, and the promotion that waited for the frame gets it. A granule that is not in the stage's state stays. AGE_TICK (R200, R209): the age of every granule in RESIDENT_HIGH rises by one and stays at 255, HEAT halves, a granule below half the threshold may be reported again, and no granule changes its state. TIER_TIMEOUT and POOL_ARM (R213, R216): a request that has waited TIER_TIMEOUT is answered with poison and leaves the waiting list, a command's is marked so, one that has not waits on; a pool set with a bad entry is refused whole, naming the first, a set without one is committed. A granule's copy at one step is the model's choice (log 105), as are logs 75, 80 and 117. Rows completed: MIG_REQ_PROMOTE, MIG_REQ_DEMOTE, POOL_ARM, PROMOTION_START, PROMOTION_DONE, DEMOTION_START, DEMOTION_COPY, DEMOTION_DONE, AGE_TICK, TIER_TIMEOUT. -/
def Obligations.GranulesMigrateAndAge : Prop :=
  (
  (∀ (s : State) (ag : Agent) (g : BitVec 20) (a : BitVec 16), regRight s ag rMigReq.key = true → g.toNat < granCount → s.hub.migQ.length < 64 →
    ∃ t, exec (.migReqPromote ag g a) s = .next t ∧ SameMemory s t ∧ t.regs = s.regs ∧ t.hub.migQ = s.hub.migQ ++
      [{ gran := g.toNat, promote := true, astag := a.toNat, part := astagPart s a.toNat, victim := none, bounced := false }]) ∧
  (∀ (s : State) (ag : Agent) (g : BitVec 20), regRight s ag rMigReq.key = true → g.toNat < granCount → s.hub.migQ.length < 64 →
    ∃ t, exec (.migReqDemote ag g) s = .next t ∧ SameMemory s t ∧ t.regs = s.regs ∧ t.hub.migQ = s.hub.migQ ++
      [{ gran := g.toNat, promote := false, astag := 0, part := 0, victim := none, bounced := false }]) ∧
  (∀ (s : State) (ag : Agent) (g : BitVec 20) (a : BitVec 16), regRight s ag rMigReq.key = true → g.toNat < granCount → 64 ≤ s.hub.migQ.length →
    exec (.migReqPromote ag g a) s = .next (setF s rMigStatus fMigStatusReqRefused 1) ∧ exec (.migReqDemote ag g) s = .next (setF s rMigStatus fMigStatusReqRefused 1)) ∧
  (∀ s : State, (getB s rMigCfg fMigCfgEnable = false ∨ migRoom s = false ∨ s.pow.migPaused = true) → exec .promotionStart s = .next s) ∧
  (∀ (s : State) (m : MigReq), getB s rMigCfg fMigCfgEnable = true → migRoom s = true → s.pow.migPaused = false → s.hub.migQ = [m] → m.promote = true →
    m.victim = none → (gran s m.gran).state = 0 →
    (∀ f, chooseFrame { s with hub := { s.hub with migQ := [] } } m.astag m.part = .free f →
      ∃ t, exec .promotionStart s = .next t ∧ (gran t m.gran).state = 1 ∧ (gran t m.gran).frame = f ∧ (gran t m.gran).astag = m.astag ∧ (gran t m.gran).part = m.part ∧
        t.hub.migQ = [] ∧ (∀ g ≠ m.gran, gran t g = gran s g) ∧ SameMemory s t) ∧
    (∀ v, chooseFrame { s with hub := { s.hub with migQ := [] } } m.astag m.part = .victim v →
      exec .promotionStart s = .next { s with hub := { s.hub with migQ := [{ m with victim := some v }] } }))) ∧
  (
  (∀ (s : State) (g : BitVec 20), (gran s g.toNat).state = 1 → (gran s g.toNat).copying = false → HubIdle s →
    ∃ t, exec (.promotionDone g) s = .next t ∧ (gran t g.toNat).state = 2 ∧ (gran t g.toNat).age = 0 ∧ (gran t g.toNat).frame = (gran s g.toNat).frame ∧
      t.mem = cellsCopy s.mem (g.toNat * granBytes) (frameAddr (gran s g.toNat).frame) granBytes ∧ (∀ h ≠ g.toNat, gran t h = gran s h)) ∧
  (∀ (s : State) (g : BitVec 20), (gran s g.toNat).state = 2 → migRoom s = true → NoneAwaitsFlush s →
    (demoteQueued s g.toNat = true ∨ s.hub.migQ.any (fun m => decide (m.victim = some g.toNat)) = true ∨ overCeiling s g.toNat = true) →
    ∃ t, exec (.demotionStart g) s = .next t ∧ (gran t g.toNat).state = 3 ∧ (gran t g.toNat).copying = false ∧ (gran t g.toNat).frame = (gran s g.toNat).frame ∧
      SameMemory s t) ∧
  (∀ (s : State) (g : BitVec 20), (gran s g.toNat).state = 3 → NoneAwaitsFlush s →
    (granFlushing (pumpFlushes s) g.toNat = true → exec (.demotionCopy g) s = .next (pumpFlushes s)) ∧
    (granFlushing (pumpFlushes s) g.toNat = false → ∃ t, exec (.demotionCopy g) s = .next t ∧ (gran t g.toNat).copying = true ∧ (gran t g.toNat).state = 3 ∧ SameMemory s t)) ∧
  (∀ (s : State) (g : BitVec 20), (gran s g.toNat).state = 3 → (gran s g.toNat).copying = true → HubIdle s → (∀ m ∈ s.hub.migQ, m.victim ≠ some g.toNat) →
    ∃ t, exec (.demotionDone g) s = .next t ∧ (gran t g.toNat).state = 0 ∧ (gran t g.toNat).copying = false ∧
      t.mem = cellsCopy s.mem (frameAddr (gran s g.toNat).frame) (g.toNat * granBytes) granBytes ∧ (∀ h ≠ g.toNat, gran t h = gran s h)) ∧
  (∀ (s : State) (g : BitVec 20) (m : MigReq), (gran s g.toNat).state = 3 → (gran s g.toNat).copying = true → HubIdle s →
    s.hub.migQ.find? (fun x => decide (x.victim = some g.toNat)) = some m → m.gran ≠ g.toNat → (gran s m.gran).state = 0 → getB s rMigCfg fMigCfgEnable = true →
    s.hub.badFrames.elem (gran s g.toNat).frame = false →
    ∃ t, exec (.demotionDone g) s = .next t ∧ (gran t g.toNat).state = 0 ∧ (gran t m.gran).state = 1 ∧ (gran t m.gran).frame = (gran s g.toNat).frame ∧
      (gran t m.gran).astag = m.astag ∧ (gran t m.gran).part = m.part) ∧
  (∀ (s : State) (g : BitVec 20), ((gran s g.toNat).state ≠ 1 → exec (.promotionDone g) s = .next s) ∧
    ((gran s g.toNat).state ≠ 3 ∨ (gran s g.toNat).copying = false → exec (.demotionDone g) s = .next s))) ∧
  (
  ∀ s : State, ∃ t, exec .ageTick s = .next t ∧ SameMemory s t ∧ t.regs = s.regs ∧
    ∀ g, (gran t g).state = (gran s g).state ∧ (gran t g).frame = (gran s g).frame ∧ (gran t g).heat = (gran s g).heat / 2 ∧
      (gran t g).age = (if (gran s g).state = 2 then min 255 ((gran s g).age + 1) else (gran s g).age) ∧
      (gran t g).reported = ((gran s g).reported && !decide ((gran s g).heat / 2 < getF s rMigCfg fMigCfgHotThresh / 2))) ∧
  (
  (∀ (s : State) (x : StalledReq), s.hub.stalled = [x] → s.d2d.waits = [] → x.since + objNat s oTierTimeout * 1000000 ≤ s.time →
    (reqWrites x.req = false → presenceBit x.req.agent = none →
      ∃ t, exec (.tierTimeout x.id) s = .next t ∧ t.hub.stalled = [] ∧ t.hub.accOut = s.hub.accOut ++ [.data (List.replicate (reqBytes x.req) 0) true]) ∧
    (x.req.kind = .write → ∃ t, exec (.tierTimeout x.id) s = .next t ∧ t.hub.stalled = [] ∧ t.hub.accOut = s.hub.accOut ++ [.done] ∧
      mpaPoisoned t x.req.mpa.toNat x.req.data.length = decide (x.req.data ≠ []))) ∧
  (∀ (s : State) (x : TierWait), s.hub.stalled = [] → s.hub.tierWaits = [x] → x.late = false → x.since + objNat s oTierTimeout * 1000000 ≤ s.time →
    ∃ t, exec (.tierTimeout x.id) s = .next t ∧ t.hub.tierWaits = [{ x with late := true }]) ∧
  (∀ (s : State) (x : StalledReq), s.hub.stalled = [x] → s.time < x.since + objNat s oTierTimeout * 1000000 → exec (.tierTimeout x.id) s = .next s) ∧
  (∀ (s : State) (x : TierWait), s.hub.stalled = [] → s.hub.tierWaits = [x] → s.time < x.since + objNat s oTierTimeout * 1000000 → exec (.tierTimeout x.id) s = .next s) ∧
  (∀ (s : State) (ag : Agent) (view : Bool) (i : Nat), regRight s ag rPoolArm.key = true → (List.range 256).find? (acctBad (setB s rPoolArm fPoolArmView view)) = some i →
    ∃ t, exec (.poolArm ag view) s = .next t ∧ getF t rPoolArm fPoolArmRefused = 1 ∧ getF t rPoolArm fPoolArmFirstBad = i % 2 ^ fPoolArmFirstBad.width ∧ t.pend = s.pend ∧
      SameRegsBut [rPoolArm.key] s t ∧ SameUnits s t) ∧
  (∀ (s : State) (ag : Agent) (view : Bool), regRight s ag rPoolArm.key = true → (List.range 256).find? (acctBad (setB s rPoolArm fPoolArmView view)) = none →
    ∃ t, exec (.poolArm ag view) s = .next t ∧ getF t rPoolArm fPoolArmRefused = 0 ∧ (∀ i < 256, getR t (rPoolAcct i) = getPend s (rPoolAcct i)) ∧ SameMemory s t))

/-- STK_REPAIR_CONNECTION, STK_REPAIR_ROW and STK_REPAIR_COLUMN (R227, R228, R394): a request with a target that exists, on a channel that no sweep holds, with a spare left, joins the die's queue; a wrong target, a swept channel and no spare are refused for their reason. REPAIR_DONE copies the oldest's target, programs its entry, counts it, uses its spare and enters the repair map; it waits for the hold-up bank. A check connection with 16 errors within 1 s is steered to its own spare without a request (R389, R393). REFRESH and RECAL_WINDOW (R225, R226, R230): one refresh of a bank falls due every interval; a bank under repair, or a controller that so chooses, postpones it while REF_POSTPONE allows; one is pulled in as far as REF_PULLIN allows; a training window, STK_RECAL_MS after the last and in no other channel's, counts and clears the debt of its channel alone. The numbering of banks (log 73) and the bulk devices' limits (log 134) are the model's. Rows completed: STK_REPAIR_CONNECTION, STK_REPAIR_ROW, STK_REPAIR_COLUMN, REPAIR_DONE, REFRESH, RECAL_WINDOW. -/
def Obligations.StackedMemoryIsRepairedAndRefreshed : Prop :=
  (
  (∀ (s : State) (ag : Agent) (d : Fin 8) (ch : Fin 128) (b : Fin 16) (x : BitVec 14), regRight s ag (rStkRepair d).key = true → margined s d ch = false →
    (x.toNat ≤ 151 → sparesUsed s d ⟨1, ch, 0, x.toNat⟩ < 1 → ∃ t, exec (.stkRepairConnection ag d ch x) s = .next t ∧ stkQueue t d = stkQueue s d ++ [⟨1, ch, 0, x.toNat⟩] ∧
      getF t (rStkRepairStatus d) fStkRepairStatusState = 1 ∧ SameMemory s t) ∧
    (x.toNat < 12288 → sparesUsed s d ⟨2, ch, b, x.toNat⟩ < 32 → ∃ t, exec (.stkRepairRow ag d ch b x) s = .next t ∧ stkQueue t d = stkQueue s d ++ [⟨2, ch, b, x.toNat⟩] ∧
      getF t (rStkRepairStatus d) fStkRepairStatusState = 1 ∧ SameMemory s t) ∧
    (x.toNat < 32 → sparesUsed s d ⟨3, ch, b, x.toNat⟩ < 8 → ∃ t, exec (.stkRepairColumn ag d ch b x) s = .next t ∧ stkQueue t d = stkQueue s d ++ [⟨3, ch, b, x.toNat⟩] ∧
      getF t (rStkRepairStatus d) fStkRepairStatusState = 1 ∧ SameMemory s t)) ∧
  (∀ (s : State) (ag : Agent) (d : Fin 8) (ch : Fin 128) (b : Fin 16) (x : BitVec 14), regRight s ag (rStkRepair d).key = true →
    (151 < x.toNat → exec (.stkRepairConnection ag d ch x) s = .next (stkStatus s d 3 3)) ∧
    (12288 ≤ x.toNat → exec (.stkRepairRow ag d ch b x) s = .next (stkStatus s d 3 3)) ∧
    (32 ≤ x.toNat → exec (.stkRepairColumn ag d ch b x) s = .next (stkStatus s d 3 3)) ∧
    (margined s d ch = true → x.toNat < 32 → exec (.stkRepairConnection ag d ch x) s = .next (stkStatus s d 3 2) ∧
      exec (.stkRepairRow ag d ch b x) s = .next (stkStatus s d 3 2) ∧ exec (.stkRepairColumn ag d ch b x) s = .next (stkStatus s d 3 2)) ∧
    (margined s d ch = false → x.toNat < 12288 → 32 ≤ sparesUsed s d ⟨2, ch, b, x.toNat⟩ →
      exec (.stkRepairRow ag d ch b x) s = .next (unrepaired (stkStatus s d 3 1) d ⟨2, ch, b, x.toNat⟩))) ∧
  (∀ (s : State) (d : Fin 8) (r : StkRepair) (l : List StkRepair), stkQueue s d = r :: l → s.dev.flStop = false → getB s rPwrStatus fPwrStatusHoldupReady = true →
    s.rel.repairMap.length < repairCap →
    ∃ t, exec (.repairDone ⟨d, []⟩) s = .next t ∧ stkQueue t d = l ∧ t.rel.repairMap.length = s.rel.repairMap.length + 1 ∧
      getF t (rStkRepairs d) fStkRepairsRepairs = (getF s (rStkRepairs d) fStkRepairsRepairs + 1) % 2 ^ fStkRepairsRepairs.width ∧
      mapGet t.dev.stkUsed (d.val, r.chan, r.kind, spareGroup r) 0 = mapGet s.dev.stkUsed (d.val, r.chan, r.kind, spareGroup r) 0 + 1 ∧ SameMemory s t) ∧
  (∀ (s : State) (d : Fin 8) (reads : List (Nat × EccResult)) (r : StkRepair) (l : List StkRepair), stkQueue s d = r :: l → flashRuns s = true →
    let u := repaired (reads.foldl (fun s x => repairRead s d r x) s) d r
    exec (.repairDone ⟨d, reads⟩) s = .next (stkStatus { u with dev := { u.dev with stkQ := mapSet u.dev.stkQ d.val ((stkQueue u d).drop 1) } } d
      (if ((stkQueue u d).drop 1).isEmpty then 2 else 1) 0)) ∧
  (∀ (s : State) (d : Fin 8) (reads : List (Nat × EccResult)), (stkQueue s d = [] ∨ s.dev.flStop = true ∨ getB s rPwrStatus fPwrStatusHoldupReady = false) →
    exec (.repairDone ⟨d, reads⟩) s = .next s) ∧
  (∀ (s : State) (p : Place) (line : Nat) (c : Fin 168), p.bulk = false → 152 ≤ c.val → sparesUsed s p.die ⟨4, p.chan, 0, c.val - 152⟩ = 0 →
    15 ≤ ((mapGet s.rel.connErr (p.die, p.chan, c.val) []).filter (fun x => decide (s.time < x.2 + oneSecond) && decide (x.1 ≠ line))).length →
    countConn s p line (some c) =
      repaired { s with rel := { s.rel with connErr := mapDel s.rel.connErr (p.die, p.chan, c.val) } } p.die ⟨4, p.chan, 0, c.val - 152⟩)) ∧
  (
  (∀ (s : State) (d : Fin 9) (ch : Fin 128) (b : Fin 16) (a : RefAct), chanThere d ch = true → refreshDue s d ch b = true → a ≠ .pullIn →
    ∃ t, exec (.refresh d ch ⟨b, a⟩) s = .next t ∧ refreshDue t d ch b = false ∧ t.regs = s.regs ∧ SameMemory s t ∧
      refDebt t d ch b = (if refDebt s d ch b < 0 ∨ ((a = .postpone ∨ bankRepairing s d ch b = true) ∧ refDebt s d ch b < refPostpone s d)
        then refDebt s d ch b + 1 else refDebt s d ch b)) ∧
  (∀ (s : State) (d : Fin 9) (ch : Fin 128) (b : Fin 16), chanThere d ch = true → ∃ t, exec (.refresh d ch ⟨b, .pullIn⟩) s = .next t ∧ t.regs = s.regs ∧ SameMemory s t ∧
      refDebt t d ch b = if -(refPullin s d : Int) < refDebt s d ch b then refDebt s d ch b - 1 else refDebt s d ch b) ∧
  (∀ (s : State) (d : Fin 9) (ch : Fin 128) (b : Fin 16) (a : RefAct), (chanThere d ch = false ∨ (refreshDue s d ch b = false ∧ a ≠ .pullIn)) → exec (.refresh d ch ⟨b, a⟩) s = .next s) ∧
  (∀ (s : State) (d : Fin 9) (ch ch' : Fin 128) (b : Fin 16), ch' ≠ ch → chanThere d ch = true → recalMay s d ch = true →
    ∃ t, exec (.recalWindow d ch) s = .next t ∧ refDebt t d ch b = 0 ∧ refDebt t d ch' b = refDebt s d ch' b ∧ mapFind t.dev.recalAt (d.val, ch.val) = some s.time ∧
      (d.val < 8 → getF t (rRecalWindows d) fRecalWindows = (getF s (rRecalWindows d) fRecalWindows + 1) % 2 ^ fRecalWindows.width) ∧ SameMemory s t) ∧
  (∀ (s : State) (d : Fin 9) (ch : Fin 128), recalMay s d ch = false → exec (.recalWindow d ch) s = .next s))

/-- FL_REQ_WRITE, FL_REQ_TRIM and FLASH_REQUEST_DONE (R234, R235, R238): a request within the logical pages joins a queue of 64, a full queue refuses it; a TRIM makes its pages zero, a WRITE gives them the source's bytes, and COMPLETED rises. MAPPING_REBUILD (R236, R237, R239): in step 8 of the start-up, every page in flight whose newest page fails its CRC reads what it held before, but a lower page whose first pass had completed keeps its value, and every other reads the new one. FLASH_SCRUB and FLASH_PROGRAM_FAILURE (R392, R393): a scrub notes its time and moves what a worn block holds; a failed block is retired once, with an entry in the repair map. MARGIN_START, MARGIN_DONE and PATROL_SCRUB (R241, R391): a sweep of a unit and an axis that exist, its interface free, starts; its end gives the result; a line that reads clean moves the scrub's progress on and changes no memory, a corrected one the same with its record, an uncorrectable one is poisoned; outside the tiers nothing is scrubbed. The form of blocks and of a page's CRC is the model's (log 133); a failed program writes no error record (log 74). Rows completed: FL_REQ_WRITE, FL_REQ_TRIM, FLASH_REQUEST_DONE, MAPPING_REBUILD, PATROL_SCRUB, FLASH_SCRUB, MARGIN_START, MARGIN_DONE, FLASH_PROGRAM_FAILURE. -/
def Obligations.FlashMarginingAndScrub : Prop :=
  (
  (∀ (s : State) (ag : Agent) (p : Fin 16) (n : BitVec 24) (lpn : BitVec 32), regRight s ag rFlReqCtl.key = true → s.dev.flQ.length < 64 →
    (lpn.toNat + n.toNat) * pageBytes ≤ Config.flashLogicalBytes →
    (∃ t, exec (.flReqTrim ag p n lpn) s = .next t ∧ SameMemory s t ∧ t.regs = s.regs ∧
      t.dev.flQ = s.dev.flQ ++ [{ write := false, part := p, pages := n.toNat, lpn := lpn.toNat, src := getF s rFlReqSrc fFlReqSrcMpa * pageBytes }]) ∧
    (flSourceOk s (getF s rFlReqSrc fFlReqSrcMpa * pageBytes) (n.toNat * pageBytes) = true →
      ∃ t, exec (.flReqWrite ag p n lpn) s = .next t ∧ SameMemory s t ∧ t.regs = s.regs ∧
        t.dev.flQ = s.dev.flQ ++ [{ write := true, part := p, pages := n.toNat, lpn := lpn.toNat, src := getF s rFlReqSrc fFlReqSrcMpa * pageBytes }])) ∧
  (∀ (s : State) (ag : Agent) (p : Fin 16) (n : BitVec 24) (lpn : BitVec 32), regRight s ag rFlReqCtl.key = true → 64 ≤ s.dev.flQ.length →
    exec (.flReqWrite ag p n lpn) s = .next (setF s rFlReqStatus fFlReqStatusRefused 1) ∧ exec (.flReqTrim ag p n lpn) s = .next (setF s rFlReqStatus fFlReqStatusRefused 1)) ∧
  (∀ (s : State) (r : FlReq) (l : List FlReq), s.dev.flQ = r :: l → flashRuns s = true →
    exec .flashRequestDone s = .next (advance (foldJournal ((List.range r.pages).foldl (fun t i => flPageDo t r i) { s with dev := { s.dev with flQ := l } }))
      rFlReqStatus fFlReqStatusCompleted 1)) ∧
  (∀ (s : State) (r : FlReq) (l : List FlReq), s.dev.flQ = r :: l → flashRuns s = true → r.pages = 1 → Memory.wf s.mem = true →
    (r.write = false → ∃ t, exec .flashRequestDone s = .next t ∧ t.dev.flQ = l ∧ (∀ i, i < pageBytes → byteAt t (pageAddr r.lpn + i) = 0) ∧ pageOf t r.lpn = none ∧
      (∀ x, Outside x (pageAddr r.lpn) pageBytes → byteAt t x = byteAt s x) ∧
      getF t rFlReqStatus fFlReqStatusCompleted = (getF s rFlReqStatus fFlReqStatusCompleted + 1) % 2 ^ fFlReqStatusCompleted.width) ∧
    (r.write = true → foreignKey s r.part r.lpn = false →
      ∃ t, exec .flashRequestDone s = .next t ∧ t.dev.flQ = l ∧ (∀ i, i < pageBytes → byteAt t (pageAddr r.lpn + i) = (hubView s r.src pageBytes).getD i 0) ∧
      (∀ x, Outside x (pageAddr r.lpn) pageBytes → byteAt t x = byteAt s x) ∧
      getF t rFlReqStatus fFlReqStatusCompleted = (getF s rFlReqStatus fFlReqStatusCompleted + 1) % 2 ^ fFlReqStatusCompleted.width)) ∧
  (∀ s : State, (s.dev.flQ = [] ∨ flashRuns s = false) → exec .flashRequestDone s = .next s) ∧
  (∀ (s : State) (cut held : List Nat), (stepStarted s 8 = true → exec (.mappingRebuild ⟨cut, held⟩) s = .next (rebuildMap s cut held)) ∧
    (stepStarted s 8 = false → exec (.mappingRebuild ⟨cut, held⟩) s = .next s)) ∧
  (∀ (s : State) (cut held : List Nat) (p : FlProg), stepStarted s 8 = true → s.dev.flInflight = [p] → Memory.wf s.mem = true → (p.old.map (fun x => x.1)).Nodup →
    (∀ x ∈ p.old, x.1 < pageBytes) →
    ∃ t, exec (.mappingRebuild ⟨cut, held⟩) s = .next t ∧ t.dev.flInflight = [] ∧ (∀ x, Outside x (pageAddr p.lpn) pageBytes → byteAt t x = byteAt s x) ∧
      (cut.elem p.lpn = true → firstPassDone s cut held p = false → ∀ i, i < pageBytes → byteAt t (pageAddr p.lpn + i) = mapGet p.old i 0) ∧
      ((cut.elem p.lpn = false ∨ firstPassDone s cut held p = true) → ∀ i, i < pageBytes → byteAt t (pageAddr p.lpn + i) = byteAt s (pageAddr p.lpn + i))) ∧
  (∀ (s : State) (b : Nat) (h : Bool), ∃ t, exec (.flashScrub b h) s = .next t ∧ mapGet t.dev.flScrubbed b 0 = s.time ∧ t.regs = s.regs ∧ SameMemory s t) ∧
  (∀ (s : State) (b : Nat), s.dev.flRetired.elem b = false → s.rel.repairMap.length < repairCap →
    ∃ t, exec (.flashProgramFailure b) s = .next t ∧ t.dev.flRetired.elem b = true ∧ t.rel.repairMap.length = s.rel.repairMap.length + 1 ∧ t.regs = s.regs ∧ SameMemory s t) ∧
  (∀ (s : State) (b : Nat), s.dev.flRetired.elem b = true → exec (.flashProgramFailure b) s = .next s)) ∧
  (
  (∀ s : State, objNat s oMarginUnit < marginUnits (objNat s oMarginIf) → objNat s oMarginAxis ≤ 3 → (∀ m ∈ s.dev.margin, m.1 ≠ objNat s oMarginIf) →
    ¬(objNat s oMarginIf = 0 ∧ spareInUse s (objNat s oMarginUnit) = true) →
    ∃ t, exec .marginStart s = .next t ∧ t.dev.margin = s.dev.margin ++ [(objNat s oMarginIf, objNat s oMarginUnit, objNat s oMarginAxis)] ∧ objNat t oMarginState = 1 ∧ SameMemory s t) ∧
  (∀ s : State, (marginUnits (objNat s oMarginIf) ≤ objNat s oMarginUnit ∨ 3 < objNat s oMarginAxis) → exec .marginStart s = .next (setObjNat s oMarginState 1 3)) ∧
  (∀ (s : State) (lo hi : BitVec 16) (st : BitVec 32) (m : Nat × Nat × Nat) (l : List (Nat × Nat × Nat)), s.dev.margin = m :: l →
    ∃ t, exec (.marginDone lo hi st) s = .next t ∧ t.dev.margin = l ∧ objNat t oMarginState = 2 ∧ (objBytes t oMarginResult).take 4 = natLE 2 lo.toNat ++ natLE 2 hi.toNat ∧ SameMemory s t) ∧
  (∀ (s : State) (line : BitVec 44) (e : Nat), regionOf s (64 * line.toNat) = some (.sram e) → ∀ r, exec (.patrolScrub line r) s = .next s) ∧
  (∀ (s : State) (line : BitVec 44), (regionOf s (64 * line.toNat) = some .bulk ∨ regionOf s (64 * line.toNat) = some .spread ∨ ∃ d, regionOf s (64 * line.toNat) = some (.direct d)) →
    s.dev.scrubbed + 1 < dramLines →
    (∃ t, exec (.patrolScrub line .ok) s = .next t ∧ t.dev.scrubbed = s.dev.scrubbed + 1 ∧
      getF t rScrubStatus fScrubStatusProgress = (s.dev.scrubbed + 1) * 65536 / dramLines % 2 ^ fScrubStatusProgress.width ∧ SameRegsBut [rScrubStatus.key] s t ∧ SameMemory s t) ∧
    (∀ r, ∃ t, exec (.patrolScrub line r) s = .next t ∧ t.dev.scrubbed = s.dev.scrubbed + 1)) ∧
  (∀ (s : State) (line : BitVec 44), regionOf s (64 * line.toNat) = some .bulk → s.hub.breach = [] →
    ∃ t, exec (.patrolScrub line .uncorrectable) s = .next t ∧ (linePoisoned t (locate s (64 * line.toNat) / 64) = true)))

/-! ### Plalia and the connections between dies -/

/-- R348, over every row that is a Plalia message, RD, WR, WRP, ATOM, MEM_DATA, MEM_ACK, RD_SHARED, RD_OWN, SNP_INV, SNP_FWD, WB, COH_DATA, COH_ACK, MSI, DMI_RD, DMI_WR, DBG_DATA, DICT, RESET_REQ, TELEMETRY, MGT_DATA, MGT_ACK, DISCOVER and AGREE: a reserved code, or a header for a channel that was not agreed, is counted in PLA_BAD; a request is answered UNSUPPORTED and a response dropped; the receiving die is not reset, and no memory changes. R350, R390: a message whose header fails its parity check is recorded, and a request is refused; the lines whose data fail it arrive poisoned. What a response with a bad header does is the model's choice (log 137); the rows' operands are the model's (log 102). -/
def Obligations.ReservedCodesAreAnsweredUnsupported : Prop :=
  (∀ r ∈ plaRows, ∀ (s : State) (l : Fin 19) (m : PlaMsg), LinkOpen s l → m.parity = .ok →
    (plaSpells m r.chan r.rsp r.op r.data = false ∨ chanOpen s l r.chan = false) →
    ∃ t, exec (r.row l m) s = .next t ∧ getF t (rPlaBad l) fPlaBad = min (getF s (rPlaBad l) fPlaBad + 1) (2 ^ fPlaBad.width - 1) ∧
      (m.rsp = true → t.d2d.out = s.d2d.out) ∧ (m.rsp = false → Replied s t l m 0x20 []) ∧ SameRegsBut [(rPlaBad l).key] s t ∧
      t.pow = s.pow ∧ t.eng = s.eng ∧ SameMemory s t) ∧
  (∀ (s : State) (l : Fin 19) (m : PlaMsg), LinkOpen s l → m.parity = .ok →
    (plaSpells m 4 false 0 true = false →
      ∃ t, exec (.discover l m) s = .next t ∧ getF t (rPlaBad l) fPlaBad = min (getF s (rPlaBad l) fPlaBad + 1) (2 ^ fPlaBad.width - 1) ∧
        (m.rsp = true → t.d2d.out = s.d2d.out) ∧ (m.rsp = false → Replied s t l m 0x20 []) ∧ SameRegsBut [(rPlaBad l).key] s t ∧ t.pow = s.pow ∧ SameMemory s t) ∧
    (plaSpells m 4 false 1 true = false →
      ∃ t, exec (.agree l m) s = .next t ∧ getF t (rPlaBad l) fPlaBad = min (getF s (rPlaBad l) fPlaBad + 1) (2 ^ fPlaBad.width - 1) ∧
        (m.rsp = true → t.d2d.out = s.d2d.out) ∧ (m.rsp = false → Replied s t l m 0x20 []) ∧ SameRegsBut [(rPlaBad l).key] s t ∧ t.pow = s.pow ∧ SameMemory s t)) ∧
  (∀ r ∈ plaRows, ∀ (s : State) (l : Fin 19) (m : PlaMsg), LinkOpen s l → m.parity = .field →
    exec (r.row l m) s = .next (pumpFlits (if m.rsp then parityRecord (takeCredits s l m) l m else plaReply (parityRecord (takeCredits s l m) l m) l m 8 [] 0) l)) ∧
  (∀ (s : State) (l : Fin 19) (m : PlaMsg) (ls : BitVec 4), (link s l).inReset = false → chanOpen s l 0 = true → plaSpells m 0 false 1 true = true → m.parity = .data ls →
    exec (.wr l m) s = .next (pumpFlits (wrServe (parityRecord (takeCredits s l m) l m) l { m with poison := m.poison ||| ls, parity := .ok }) l))

/-- The MEM channel (R24, R206, R347, R356): RD of a DEVICE span answers its bytes and changes no memory; WR lands where the granule lies and is acknowledged; RD, WR, WRP and ATOM are answered by what their access gives, and one that waits is answered later; a request of the guest that R356 does not allow is refused, counted and writes nothing. Closed connections (R357, R361): nothing arrives over a connection that is down, failed or in reset, but a request of the removed guest is refused. Credits go round with every message (R346). The coding of a request's agent and data is the model's (log 84), as is the refusal of a request that does not belong on a neighbour link (log 138). Rows completed: RD, WR, WRP, ATOM. -/
def Obligations.PlaliaMemoryRequests : Prop :=
  (
  (∀ (s : State) (l : Fin 19) (m : PlaMsg) (r : MemReq), PlaRow.Arrives ⟨.rd, 0, false, 0, false⟩ s l m → plaReq s l m .read false none = r → (l.val = 18 → guestMay s r = true) →
    ringMay s l m r = true → s.hub.stalled = [] → refusal s r = none → effShared s r.shared r.mpa.toNat = false → mpaPoisoned s r.mpa.toNat r.len = false →
    ∃ t, exec (.rd l m) s = .next t ∧ Replied s t l m 0 (mpaRead s r.mpa.toNat r.len) ∧ SameMemory s t) ∧
  (∀ (s : State) (l : Fin 19) (m : PlaMsg) (r : MemReq), PlaRow.Arrives ⟨.wr, 0, false, 1, true⟩ s l m → plaReq s l m .write false none = r → (l.val = 18 → guestMay s r = true) →
    ringMay s l m r = true → s.hub.stalled = [] → staleUnit s r = none → refusal s r = none → sleepingStore s r = none → effShared s r.shared r.mpa.toNat = false → m.poison = 0 →
    migrationStalls s r.mpa.toNat m.data.length = false → s.hub.breach = [] → Memory.wf s.mem = true →
    (∀ i j, i < m.data.length → j < m.data.length → locate s (r.mpa.toNat + i) = locate s (r.mpa.toNat + j) → i = j) →
    ∃ t, exec (.wr l m) s = .next t ∧ Replied s t l m 0 [] ∧
      (∀ i, i < m.data.length → byteAt t (locate s (r.mpa.toNat + i)) = m.data.getD i 0) ∧
      (∀ x, (∀ i, i < m.data.length → x ≠ locate s (r.mpa.toNat + i)) → byteAt t x = byteAt s x)) ∧
  (∀ (s s2 : State) (l : Fin 19) (m : PlaMsg) (c : Instr) (r : MemReq) (o : AccessOut),
    ((PlaRow.Arrives ⟨.rd, 0, false, 0, false⟩ s l m ∧ c = .rd l m ∧ r = plaReq s l m .read false none) ∨
      (PlaRow.Arrives ⟨.wr, 0, false, 1, true⟩ s l m ∧ c = .wr l m ∧ r = plaReq s l m .write false none) ∨
      (PlaRow.Arrives ⟨.wrp, 0, false, 2, true⟩ s l m ∧ m.lines = 0 ∧ c = .wrp l m ∧ r = plaReq s l m .write false (some m.mask)) ∨
      (PlaRow.Arrives ⟨.atom, 0, false, 3, true⟩ s l m ∧ c = .atom l m ∧ ∃ op, aopOf m = some op ∧ r = plaReq s l m (.atomic op m.size64 m.signed) false none)) →
    (l.val = 18 → guestMay s r = true) → ringMay s l m r = true →
    (∀ e, sleepingStore s r = some e → exec c s = .next (pumpFlits (heldForWake (takeCredits s l m) e c) l)) ∧
    (sleepingStore s r = none → serve (takeCredits s l m) r = (s2, o) →
      ((∀ id, o ≠ .stalled id) → exec c s = .next (pumpFlits (settleWaits (plaAnswer s2 l m r o)) l)) ∧
      (∀ id, o = .stalled id → exec c s = .next (pumpFlits { s2 with d2d := { s2.d2d with waits := mapSet s2.d2d.waits id (l.val, m) } } l)))) ∧
  (∀ (s : State) (m : PlaMsg), PlaRow.Arrives ⟨.wr, 0, false, 1, true⟩ s 18 m → guestMay s (plaReq s 18 m .write false none) = false →
    ∃ t, exec (.wr 18 m) s = .next t ∧ Replied s t 18 m 8 [] ∧
      getF t (rPlaGuestRefused 18) fPlaGuestRefused = min (getF s (rPlaGuestRefused 18) fPlaGuestRefused + 1) (2 ^ fPlaGuestRefused.width - 1) ∧ SameMemory s t)) ∧
  (
  (∀ r ∈ plaRows, ∀ (s : State) (l : Fin 19) (m : PlaMsg), (linkState s l = lkDown ∨ linkState s l = lkFailed ∨ (link s l).inReset = true) →
    ((l.val ≠ 18 ∨ s.d2d.removed.elem 11 = false ∨ m.rsp = true) → exec (r.row l m) s = .next s) ∧
    (l.val = 18 → s.d2d.removed.elem 11 = true → m.rsp = false → ∃ t, exec (r.row l m) s = .next t ∧ Replied s t l m 8 [] ∧ t.regs = s.regs ∧ SameMemory s t)))

/-- The responses of every channel, MEM_DATA, MEM_ACK, COH_DATA, COH_ACK, DBG_DATA, MGT_DATA and MGT_ACK (R347): one whose tag no request of the connection holds changes nothing but the credits; the answer to a server core's access is given to it; another is recorded; the tag is then free. MSI, DMI_RD, DMI_WR, DICT, RESET_REQ and TELEMETRY (R349, R356, R443, R347): an MSI behind no unacknowledged write sets its interrupt, one behind such a write is held; the guest's MSI to a file of another partition is dropped. A DMI request reaches the die's debug module and is answered; one to a die without is refused unless debug is unlocked, when the guest gets it; DICT, RESET_REQ and TELEMETRY are recorded and acknowledged. That management requests are recorded and acknowledged is the model's (log 86). Rows completed: MEM_DATA, MEM_ACK, COH_DATA, COH_ACK, MSI, DMI_RD, DMI_WR, DBG_DATA, DICT, RESET_REQ, TELEMETRY, MGT_DATA, MGT_ACK. -/
def Obligations.DieResponsesInterruptsAndRequests : Prop :=
  (
  ∀ r ∈ plaResponses, ∀ (s : State) (l : Fin 19) (m : PlaMsg), r.Arrives s l m →
    ((∀ x ∈ (link s l).outReq, x.1 ≠ m.tag.toNat) → exec (r.row l m) s = .next (pumpFlits (takeCredits s l m) l)) ∧
    (∀ k, (link s l).outReq.find? (fun x => decide (x.1 = m.tag.toNat)) = some (m.tag.toNat, k) →
      ∃ t, exec (r.row l m) s = .next t ∧ (link t l).outReq = (link s l).outReq.filter (fun x => decide (x.1 ≠ m.tag.toNat)) ∧
        (k ≠ 0 → t.d2d.telemetry = s.d2d.telemetry ++ [(l.val, m)] ∧ t.hub = s.hub) ∧
        (k = 0 → t.d2d.telemetry = s.d2d.telemetry ∧ ∃ o, t.hub.accOut = s.hub.accOut ++ [o] ∧ (m.status ≠ 0 → o = .accessFault) ∧
          (m.status = 0 → m.op ≠ 0 → o = .done)) ∧ t.regs = s.regs ∧ SameMemory s t)) ∧
  (
  (∀ (s : State) (l : Fin 19) (m : PlaMsg), PlaRow.Arrives ⟨.msi, 2, false, 0, false⟩ s l m → (l.val = 18 → guestFile s m = true) → (link s l).msiHeld = [] →
    (waitingWrites s l = [] → ∀ c f, imsicFile m.addr.toNat = some (c, f) →
      ∃ s2, exec (.msi l m) s = .next (pumpFlits (imsicSet s2 c f (m.tag.toNat + 65536 * m.agent.toNat)) l) ∧ (link s2 l).msiHeld = [] ∧ s2.regs = s.regs ∧ SameMemory s s2) ∧
    (waitingWrites s l ≠ [] → ∃ t, exec (.msi l m) s = .next t ∧ (link t l).msiHeld = [(m, waitingWrites s l)] ∧ t.mgmt = s.mgmt ∧ t.regs = s.regs ∧ SameMemory s t)) ∧
  (∀ (s : State) (m : PlaMsg), PlaRow.Arrives ⟨.msi, 2, false, 0, false⟩ s 18 m → guestFile s m = false → exec (.msi 18 m) s = .next (pumpFlits (takeCredits s 18 m) 18)) ∧
  (∀ (s : State) (l : Fin 19) (m : PlaMsg), linkDm s l = none → debugLevel s ≠ 2 →
    (PlaRow.Arrives ⟨.dmiRd, 3, false, 0, false⟩ s l m → ∃ t, exec (.dmiRd l m) s = .next t ∧ Replied s t l m 8 [] ∧ t.regs = s.regs ∧ SameMemory s t) ∧
    (PlaRow.Arrives ⟨.dmiWr, 3, false, 1, true⟩ s l m → ∃ t, exec (.dmiWr l m) s = .next t ∧ Replied s t l m 8 [] ∧ t.regs = s.regs ∧ SameMemory s t)) ∧
  (∀ (s : State) (l : Fin 19) (m : PlaMsg), linkDm s l = none → debugLevel s = 2 →
    (PlaRow.Arrives ⟨.dmiRd, 3, false, 0, false⟩ s l m → ∃ t, exec (.dmiRd l m) s = .next t ∧ t.d2d.out = s.d2d.out ++ [(l.val, m)] ∧
      (link t l).outReq = (link s l).outReq ++ [(m.tag.toNat, 3)] ∧ t.regs = s.regs ∧ SameMemory s t) ∧
    (PlaRow.Arrives ⟨.dmiWr, 3, false, 1, true⟩ s l m → ∃ t, exec (.dmiWr l m) s = .next t ∧ t.d2d.out = s.d2d.out ++ [(l.val, m)] ∧
      (link t l).outReq = (link s l).outReq ++ [(m.tag.toNat, 3)] ∧ t.regs = s.regs ∧ SameMemory s t)) ∧
  (∀ (s s2 : State) (l : Fin 19) (m : PlaMsg) (dm v r : Nat), linkDm s l = some dm →
    (PlaRow.Arrives ⟨.dmiRd, 3, false, 0, false⟩ s l m → dmiAccess (takeCredits s l m) dm (m.addr.toNat % 128) 1 (u32At m.data 0) = (s2, v, r) →
      exec (.dmiRd l m) s = .next (pumpFlits (plaReply s2 l m (if r = 0 then 0 else 8) (natLE 4 v ++ List.replicate 60 0) 0) l)) ∧
    (PlaRow.Arrives ⟨.dmiWr, 3, false, 1, true⟩ s l m → dmiAccess (takeCredits s l m) dm (m.addr.toNat % 128) 2 (u32At m.data 0) = (s2, v, r) →
      exec (.dmiWr l m) s = .next (pumpFlits (plaReply s2 l m (if r = 0 then 0 else 8) (natLE 4 v ++ List.replicate 60 0) 0) l))) ∧
  (∀ r ∈ plaRows, r.chan = 4 → r.rsp = false → ∀ (s : State) (l : Fin 19) (m : PlaMsg), r.Arrives s l m →
    ∃ t, exec (r.row l m) s = .next t ∧ t.d2d.telemetry = s.d2d.telemetry ++ [(l.val, m)] ∧ Replied s t l m 0 [] ∧ t.regs = s.regs ∧ SameMemory s t))

/-- The COH channel (R267, R270): RD_SHARED of a line that no agent holds makes its reader the one copy, RD_OWN its owner; RD_SHARED and RD_OWN of a line that others hold send their snoops and are served; a request of no caching agent is refused. SNP_INV at a line's only holders takes it out of the directory, an owner's data going home, SNP_FWD leaves its owner a copy; a snoop of a line that the die does not hold is answered. WB of the owner writes its data home and the line goes, or waits for a migration; a WB of another agent writes nothing. OWNERSHIP_HOLD_EXPIRY (R271): before its end a hold stays; at its end it is over, the owner stays, and what waited proceeds. A transition done at one step at its home is the model's choice (log 85). Rows completed: RD_SHARED, RD_OWN, SNP_INV, SNP_FWD, WB, OWNERSHIP_HOLD_EXPIRY. -/
def Obligations.CoherenceCommandsAndHolds : Prop :=
  (
  (∀ (s : State) (l : Fin 19) (m : PlaMsg) (b : Nat), PlaRow.Arrives ⟨.rdShared, 1, false, 0, false⟩ s l m → l.val ≠ 18 → m.lines = 0 → presenceBit (plaSource l m) = some b →
    refusal s (plaReq s l m .read true none) = none → ringMay s l m (plaReq s l m .read true none) = true → regionOf s (m.addr.toNat / 64 * 64) = some .bulk →
    dirFind s (m.addr.toNat / 64) = none → mpaPoisoned s (m.addr.toNat / 64 * 64) 64 = false → s.hub.stalled = [] → s.hub.writes = [] → dirBlocked s (m.addr.toNat / 64) = false →
    ∃ t bs d, exec (.rdShared l m) s = .next t ∧ Replied s t l m 0 bs ∧ dirFind t (m.addr.toNat / 64) = some d ∧ d.owned = false ∧ d.pv = [b]) ∧
  (∀ (s : State) (l : Fin 19) (m : PlaMsg) (b : Nat), PlaRow.Arrives ⟨.rdOwn, 1, false, 1, false⟩ s l m → l.val ≠ 18 → m.lines = 0 → presenceBit (plaSource l m) = some b →
    refusal s (plaReq s l m .own true none) = none → ringMay s l m (plaReq s l m .own true none) = true → regionOf s (m.addr.toNat / 64 * 64) = some .bulk →
    dirFind s (m.addr.toNat / 64) = none → mpaPoisoned s (m.addr.toNat / 64 * 64) 64 = false → s.hub.stalled = [] → s.hub.writes = [] → dirBlocked s (m.addr.toNat / 64) = false →
    ∃ t bs d, exec (.rdOwn l m) s = .next t ∧ Replied s t l m 0 bs ∧ dirFind t (m.addr.toNat / 64) = some d ∧ d.owned = true ∧ d.pv = [b] ∧ d.hold = some (s.time + holdNs)) ∧
  (∀ (s : State) (l : Fin 19) (m : PlaMsg) (b : Nat), presenceBit (plaSource l m) = some b →
    (PlaRow.Arrives ⟨.rdShared, 1, false, 0, false⟩ s l m → refusal s (plaReq s l m .read true none) = none →
      exec (.rdShared l m) s = .next (pumpFlits (plaServe ((linesOf (plaReq s l m .read true none).mpa.toNat (plaReq s l m .read true none).len).foldl
        (fun s line => snoopsFor s (some b) false line) (takeCredits s l m)) l m (.rdShared l m) { plaReq s l m .read true none with shared := true }) l)) ∧
    (PlaRow.Arrives ⟨.rdOwn, 1, false, 1, false⟩ s l m → refusal s (plaReq s l m .own true none) = none →
      exec (.rdOwn l m) s = .next (pumpFlits (plaServe ((linesOf (plaReq s l m .own true none).mpa.toNat (plaReq s l m .own true none).len).foldl
        (fun s line => snoopsFor s (some b) true line) (takeCredits s l m)) l m (.rdOwn l m) { plaReq s l m .own true none with shared := true }) l))) ∧
  (∀ (s : State) (l : Fin 19) (m : PlaMsg), presenceBit (plaSource l m) = none →
    (PlaRow.Arrives ⟨.rdShared, 1, false, 0, false⟩ s l m → exec (.rdShared l m) s = .next (pumpFlits (plaReply (takeCredits s l m) l m 8 [] 0) l)) ∧
    (PlaRow.Arrives ⟨.rdOwn, 1, false, 1, false⟩ s l m → exec (.rdOwn l m) s = .next (pumpFlits (plaReply (takeCredits s l m) l m 8 [] 0) l))) ∧
  (∀ (s : State) (l : Fin 19) (m : PlaMsg) (d : DirEnt) (bs : Bytes), PlaRow.Arrives ⟨.snpInv, 1, false, 2, false⟩ s l m → dirFind s (m.addr.toNat / 64) = some d → d.pv ≠ [] →
    (∀ b ∈ d.pv, reaches s l (bitLink b) = true) → d.owned = true → d.data = some bs → heldLine s none (m.addr.toNat / 64) = false →
    ∃ t, exec (.snpInv l m) s = .next t ∧ Replied s t l m 0 [] ∧ dirFind t (m.addr.toNat / 64) = none ∧ t.mem = (writeBack s (m.addr.toNat / 64) bs).mem) ∧
  (∀ (s : State) (l : Fin 19) (m : PlaMsg) (d : DirEnt) (bs : Bytes), PlaRow.Arrives ⟨.snpFwd, 1, false, 3, false⟩ s l m → dirFind s (m.addr.toNat / 64) = some d →
    (∃ b ∈ d.pv, reaches s l (bitLink b) = true) → d.owned = true → d.data = some bs → heldLine s none (m.addr.toNat / 64) = false →
    ∃ t, exec (.snpFwd l m) s = .next t ∧ Replied s t l m 0 (hubView s (64 * (m.addr.toNat / 64)) 64) ∧
      dirFind t (m.addr.toNat / 64) = some { d with owned := false, data := none, hold := none } ∧ t.mem = (writeBack s (m.addr.toNat / 64) bs).mem) ∧
  (∀ (s : State) (l : Fin 19) (m : PlaMsg), dirFind s (m.addr.toNat / 64) = none →
    (PlaRow.Arrives ⟨.snpInv, 1, false, 2, false⟩ s l m → exec (.snpInv l m) s = .next (pumpFlits (plaReply (takeCredits s l m) l m 0 [] 0) l)) ∧
    (PlaRow.Arrives ⟨.snpFwd, 1, false, 3, false⟩ s l m → exec (.snpFwd l m) s = .next (pumpFlits (plaReply (takeCredits s l m) l m 0 [] 0) l))) ∧
  (∀ (s : State) (l : Fin 19) (m : PlaMsg) (b : Nat) (d : DirEnt), PlaRow.Arrives ⟨.wb, 1, false, 4, true⟩ s l m → presenceBit (plaSource l m) = some b →
    dirFind s (m.addr.toNat / 64) = some d → s.hub.breach = [] → s.hub.stalled = [] →
    (d.owned = true → d.pv = [b] → migrationStalls s (64 * (m.addr.toNat / 64)) 64 = false →
      ∃ t, exec (.wb l m) s = .next t ∧ Replied s t l m 0 [] ∧ dirFind t (m.addr.toNat / 64) = none ∧
      t.mem = (rawWrite s (locate s (64 * (m.addr.toNat / 64))) (m.data.take 64)).mem) ∧
    (d.owned = true → d.pv = [b] → migrationStalls s (64 * (m.addr.toNat / 64)) 64 = true →
      ∃ t, exec (.wb l m) s = .next t ∧ t.hub.stalled.length = 1 ∧ mapFind t.d2d.waits s.hub.nextId = some (l.val, m) ∧ SameMemory s t) ∧
    ((d.owned = false ∨ b ∉ d.pv) → exec (.wb l m) s = .next (pumpFlits (plaReply (takeCredits s l m) l m 0 [] 0) l)))) ∧
  (
  (∀ (s : State) (line : BitVec 44), s.hub.stalled = [] → (dirFind s line.toNat = none ∨ ∃ d, dirFind s line.toNat = some d ∧ (d.hold = none ∨ ∃ h, d.hold = some h ∧ s.time < h)) →
    exec (.ownershipHoldExpiry line) s = .next s) ∧
  (∀ (s : State) (line : BitVec 44) (d : DirEnt) (h : Nat), dirFind s line.toNat = some d → d.hold = some h → h ≤ s.time → exec (.ownershipHoldExpiry line) s = .next (endHold s d)) ∧
  (∀ (s : State) (line : BitVec 44) (d : DirEnt) (h : Nat), dirFind s line.toNat = some d → d.hold = some h → h ≤ s.time → d.waiters = [] → HubIdle s →
    ∃ t, exec (.ownershipHoldExpiry line) s = .next t ∧ dirFind t line.toNat = some { d with hold := none } ∧ getR t rHoldWait = getR s rHoldWait ∧ SameMemory s t))

/-- DIR_BIAS_REQ and BIAS_CHANGE_DONE (R254, R278): a request for a span of the bulk or stacked tier at home addresses joins a queue of four, another is refused; the oldest waits while a granule of its span migrates, its flush has not drained, or, for a change to DEVICE, a line of it is within its hold; then the queue moves on, DONE rises, and after a change to DEVICE no line of the span is left in the directory. A change done at one step is the model's choice (log 85). Rows completed: DIR_BIAS_REQ, BIAS_CHANGE_DONE. -/
def Obligations.BiasChangesRunInOrder : Prop :=
  (∀ (s : State) (ag : Agent) (a : BitVec 16) (all sh : Bool), regRight s ag rDirBiasReq.key = true → s.hub.biasQ.length < 4 →
    let base := getF s rDirBiasSpan fDirBiasSpanStart * 65536
    let n := getF s rDirBiasLen fDirBiasLenLength * 65536
    (spanRegion s base n = some .bulk ∨ (spanRegion s base n = some .spread ∧ base + n ≤ frameAddr (poolFirst s)) ∨ ((∃ d, spanRegion s base n = some (.direct d)) ∧ directOpen s base n = true)) →
    ∃ t, exec (.dirBiasReq ag a all sh) s = .next t ∧ t.hub.biasQ = s.hub.biasQ ++ [{ start := base, len := n, astag := a.toNat, all := all, toShared := sh }] ∧
      getF t rDirBiasStatus fDirBiasStatusQueued = s.hub.biasQ.length + 1 ∧ SameRegsBut [rDirBiasStatus.key] s t ∧ SameMemory s t) ∧
  (∀ (s : State) (ag : Agent) (a : BitVec 16) (all sh : Bool), regRight s ag rDirBiasReq.key = true →
    (4 ≤ s.hub.biasQ.length ∨ spanRegion s (getF s rDirBiasSpan fDirBiasSpanStart * 65536) (getF s rDirBiasLen fDirBiasLenLength * 65536) = some .flash) →
    exec (.dirBiasReq ag a all sh) s = .next (setF s rDirBiasStatus fDirBiasStatusRefused 1)) ∧
  (∀ s : State, s.hub.biasQ = [] → exec .biasChangeDone s = .next s) ∧
  (∀ (s : State) (b : BiasReq) (l : List BiasReq), s.hub.biasQ = b :: l → migrationStalls s b.start b.len = true → exec .biasChangeDone s = .next s) ∧
  (∀ (s : State) (b : BiasReq) (l : List BiasReq), s.hub.biasQ = b :: l → migrationStalls s b.start b.len = false → NoneAwaitsFlush s →
    (biasFlushing (pumpFlushes (biasFlush s b l)) = true ∨ (b.toShared = false ∧ ∃ d ∈ s.hub.dir, inBias b d.line = true ∧ heldLine s none d.line = true)) →
    exec .biasChangeDone s = .next (pumpFlushes (biasFlush s b l))) ∧
  (∀ (s : State) (b : BiasReq) (l : List BiasReq), s.hub.biasQ = b :: l → migrationStalls s b.start b.len = false → NoneAwaitsFlush s →
    biasFlushing (pumpFlushes (biasFlush s b l)) = false →
    (b.toShared = true ∨ ∀ d ∈ s.hub.dir, inBias b d.line = true → heldLine s none d.line = false) →
    ∃ t, exec .biasChangeDone s = .next t ∧ t.hub.biasQ = l ∧ getF t rDirBiasStatus fDirBiasStatusDone = (getF s rDirBiasStatus fDirBiasStatusDone + 1) % 2 ^ fDirBiasStatusDone.width ∧
      (b.toShared = true → t.hub.dir = s.hub.dir ∧ SameMemory s t) ∧ (b.toShared = false → ∀ d ∈ t.hub.dir, inBias b d.line = false))

/-- LINK_ACTIVE, LINK_RETRY, DISCOVER and AGREE (R2, R351, R360): a DOWN connection that is not held in reset and has a die at its other end, or a FAILED one after 1 s, starts training with no channel and sends DISCOVER; the DISCOVER it hears is answered with AGREE and noted; the AGREE it hears opens the channels that it names. A code out of its place changes nothing but the credits. DISCOVERY_TIMEOUT, MODULE_DOWN, LANE_REPAIR, LINK_FAILED, DIE_REMOVAL and GUEST_REMOVAL (R351, R357 to R361): a connection without AGREE after DISCOVERY_TIMEOUT, or with every module DOWN, is FAILED; a module that goes DOWN leaves MODULES_UP and lane repairs are counted, both in the repair map. A die whose connections are lost, and a guest that breaks its rules, is removed. When a hub's AGREE brings LINK_18 up, and codes out of place, are the model's readings (logs 4, 87). Rows completed: DISCOVER, AGREE, LINK_ACTIVE, DISCOVERY_TIMEOUT, MODULE_DOWN, LINK_FAILED, LINK_RETRY, GUEST_REMOVAL, DIE_REMOVAL, LANE_REPAIR. -/
def Obligations.ConnectionsBetweenDies : Prop :=
  (
  (∀ (s : State) (l : Fin 19), linkState s l = lkDown → (link s l).inReset = false → s.pow.testSel ≠ 2 → siteFitted l = true →
    ∃ t m, exec (.linkActive l) s = .next t ∧ linkState t l = lkTraining ∧ linkChannels t l = 0 ∧ (link t l).activeAt = some s.time ∧ (link t l).agreed = false ∧
      t.d2d.out = s.d2d.out ++ [(l.val, m)] ∧ m.chan = 4 ∧ m.op = 0 ∧ m.rsp = false ∧ SameRegsBut [(rPlaLinkState l).key] s t ∧ SameMemory s t) ∧
  (∀ (s : State) (l : Fin 19), (linkState s l ≠ lkDown ∨ (link s l).inReset = true ∨ s.pow.testSel = 2 ∨ siteFitted l = false) → exec (.linkActive l) s = .next s) ∧
  (∀ (s : State) (l : Fin 19) (t0 : Nat), (link s l).failedAt = some t0 → linkState s l = lkFailed → (link s l).inReset = false →
    (t0 + oneSecond ≤ s.time → ∃ t, exec (.linkRetry l) s = .next t ∧ linkState t l = lkTraining ∧ linkChannels t l = 0 ∧ (link t l).failedAt = none ∧ SameMemory s t) ∧
    (s.time < t0 + oneSecond → exec (.linkRetry l) s = .next s)) ∧
  (∀ (s : State) (l : Fin 19) (m : PlaMsg), linkState s l = lkTraining → (link s l).inReset = false → plaSpells m 4 false 0 true = true → m.parity = .ok → (link s l).heard = none → l.val ≠ 18 →
    agreedChannels s l m.data ≠ 0 →
    ∃ t a, exec (.discover l m) s = .next t ∧ (link t l).heard = some m.data ∧ linkState t l = lkTraining ∧ t.d2d.out = s.d2d.out ++ [(l.val, a)] ∧ a.chan = 4 ∧ a.op = 1 ∧
      getF t (rPlaLinkPeer l) fPlaLinkPeerDieType = u8At m.data 1 ∧ SameMemory s t) ∧
  (∀ (s : State) (m : PlaMsg), linkState s 18 = lkTraining → (link s 18).inReset = false → plaSpells m 4 false 0 true = true → m.parity = .ok → (link s 18).heard = none →
    agreedChannels s 18 m.data ≠ 0 →
    ∃ t, exec (.discover 18 m) s = .next t ∧ linkState t 18 = lkUp ∧ linkChannels t 18 = agreedChannels s 18 m.data ∧ objNat t oGuestPresent = 1 ∧
      (link t 18).winBase = placeWindows [(u64At m.data 16, u64At m.data 24), (u64At m.data 32, u64At m.data 40)] ∧ SameMemory s t) ∧
  (∀ (s : State) (l : Fin 19) (m : PlaMsg), linkState s l = lkTraining → (link s l).inReset = false → plaSpells m 4 false 0 true = true → m.parity = .ok → (link s l).heard = none →
    agreedChannels s l m.data = 0 → ∃ t, exec (.discover l m) s = .next t ∧ linkState t l = lkDown ∧ (link t l).inReset = true ∧ SameMemory s t) ∧
  (∀ (s : State) (l : Fin 19) (m : PlaMsg), linkState s l = lkTraining → (link s l).inReset = false → plaSpells m 4 false 1 true = true → m.parity = .ok → (link s l).heard.isSome = true → l.val ≠ 18 →
    s.d2d.removed = [] → u8At m.data 4 % 32 ≠ 0 →
    ∃ t, exec (.agree l m) s = .next t ∧ linkState t l = lkUp ∧ linkChannels t l = u8At m.data 4 % 32 ∧ (link t l).agreed = true) ∧
  (∀ (s : State) (l : Fin 19) (m : PlaMsg), linkState s l = lkTraining → (link s l).inReset = false → plaSpells m 4 false 1 true = true → m.parity = .ok →
    ((link s l).heard = none ∨ l.val = 18) → exec (.agree l m) s = .next (pumpFlits (takeCredits s l m) l))) ∧
  (
  (∀ (s : State) (l : Fin 19) (t0 : Nat), (link s l).activeAt = some t0 → linkState s l = lkTraining →
    (t0 + objNat s oDiscoveryTimeout * oneMs ≤ s.time →
      ∃ t, exec (.discoveryTimeout l) s = .next t ∧ linkState t l = lkFailed ∧ linkChannels t l = 0 ∧ (link t l).failedAt = some s.time ∧ (link t l).agreed = false) ∧
    (s.time < t0 + objNat s oDiscoveryTimeout * oneMs → exec (.discoveryTimeout l) s = .next (reroute s))) ∧
  (∀ (s : State) (l : Fin 19) (mod : Fin 4), bitOf (getF s (rPlaLinkState l) fPlaLinkStateModulesUp) mod = true → s.rel.repairMap.length < repairCap →
    ∃ t, exec (.moduleDown l mod) s = .next t ∧ getF t (rPlaLinkState l) fPlaLinkStateModulesUp = getF s (rPlaLinkState l) fPlaLinkStateModulesUp - 2 ^ mod.val ∧
      linkState t l = linkState s l ∧ t.rel.repairMap.length = s.rel.repairMap.length + 1 ∧ SameMemory s t) ∧
  (∀ (s : State) (l : Fin 19) (mod : Fin 4), bitOf (getF s (rPlaLinkState l) fPlaLinkStateModulesUp) mod = false →
    exec (.moduleDown l mod) s = .next s) ∧
  (∀ (s : State) (l : Fin 19) (mod : Fin 4) (n : Nat), bitOf (getF s (rPlaLinkState l) fPlaLinkStateModulesUp) mod = false → exec (.laneRepair l mod n) s = .next s) ∧
  (∀ (s : State) (l : Fin 19) (mod : Fin 4) (n : Nat), bitOf (getF s (rPlaLinkState l) fPlaLinkStateModulesUp) mod = true → s.rel.repairMap.length + n ≤ repairCap →
    ∃ t, exec (.laneRepair l mod n) s = .next t ∧ getF t (rPlaLinkState l) fPlaLinkStateLanesRepaired =
      min (getF s (rPlaLinkState l) fPlaLinkStateLanesRepaired + n) (2 ^ fPlaLinkStateLanesRepaired.width - 1) ∧ t.rel.repairMap.length = s.rel.repairMap.length + n ∧ SameMemory s t) ∧
  (∀ (s : State) (l : Fin 19), (linkState s l = lkUp ∨ linkState s l = lkTraining) →
    (getF s (rPlaLinkState l) fPlaLinkStateModulesUp = 0 → ∃ t, exec (.linkFailed l) s = .next t ∧ linkState t l = lkFailed ∧ (link t l).failedAt = some s.time) ∧
    (getF s (rPlaLinkState l) fPlaLinkStateModulesUp ≠ 0 → exec (.linkFailed l) s = .next s)) ∧
  (∀ (s : State) (d : Fin 12), (dieLost s d = true → ∃ t, exec (.dieRemoval d) s = .next t ∧ t.d2d.removed.elem d.val = true) ∧
    (dieLost s d = false → exec (.dieRemoval d) s = .next s)) ∧
  (∀ s : State, (linkState s 18 = lkUp → guestLost s = true → ∃ t, exec .guestRemoval s = .next t ∧ t.d2d.removed.elem 11 = true ∧ linkState t 18 = lkDown ∧ (link t 18).inReset = true ∧
      objNat t oGuestPresent = 0) ∧
    ((linkState s 18 ≠ lkUp ∨ guestLost s = false) → exec .guestRemoval s = .next s)))

/-! ### The Ehrant fabric -/

/-- What arrives (R314, R325, R326, R327, R390, R432), over every row that is a numbered frame, WRITE, READ_REQ, READ_RESP, ATOMIC_REQ, ATOMIC_RESP, SEND, COLL_DATA, DISPATCH_COUNT, DISPATCH_GRANT, DISPATCH_ROW, COMBINE_REQ and COMBINE_RESP: nothing before the fabric is ready or over a port that is not UP. In switched mode a frame whose ICRC fails is counted and dropped; one whose header fails its parity check is recorded and goes no further; one that names no open connection is answered with a NACK of NO_CONTEXT; one whose tag or encryption does not hold is counted and dropped. Delivery (R320, R321, R325): a duplicate is acknowledged again and not applied; one beyond the window is discarded; a FENCE packet waits for every lower number, its arrival noted; a packet whose context is being fetched waits for it; one of another domain, SEND apart, is refused. The payload forms and what stands outside connections are the model's (logs 23, 24), as is the dropping of a bad header (log 137). -/
def Obligations.FramesAreAdmittedAndDeliveredOnce : Prop :=
  (
  ∀ x ∈ frameRows, ∀ (s : State) (f : Frame), f.opcode.toNat = x.2 → f.cls.toNat ≤ 2 →
    ((s.fab.ready = false ∨ portState s f.plane ≠ 2) → exec (x.1 f) s = .next s) ∧
    (s.fab.ready = true → portState s f.plane = 2 → direct s = false →
      (f.icrcOk = false → ∃ t, exec (x.1 f) s = .next t ∧ getF t rIcrcErr fIcrcErr = min (getF s rIcrcErr fIcrcErr + 1) (2 ^ fIcrcErr.width - 1) ∧
        SameRegsBut [rIcrcErr.key, (rPortRxFrames f.plane).key] s t ∧ t.fab = s.fab ∧ SameMemory s t) ∧
      (f.icrcOk = true → f.hurtField = true → exec (x.1 f) s = .next (frameParity (bump s (rPortRxFrames f.plane) fPortRxFramesRxFrames 1) f)) ∧
      (f.icrcOk = true → f.hurtField = false → f.hurt = [] → s.fab.held = [] → (conn s f.conn.toNat).open_ = false →
        ∃ t g, exec (x.1 f) s = .next t ∧ t.fab.out = s.fab.out ++ [g] ∧ g.cls = 4 ∧ g.reason = 0x21 ∧ g.conn = f.conn ∧ g.psn = f.psn ∧ g.dstPeer = f.srcPeer ∧
          getF t rNackTx fNackTx = min (getF s rNackTx fNackTx + 1) (2 ^ fNackTx.width - 1) ∧ t.fab.conns = s.fab.conns ∧ SameMemory s t) ∧
      (f.icrcOk = true → f.hurtField = false → f.hurt = [] → s.fab.held = [] → (conn s f.conn.toNat).open_ = true → ((conn s f.conn.toNat).enc ≠ f.enc ∨ (f.enc = true ∧ f.gcmOk = false)) →
        ∃ t, exec (x.1 f) s = .next t ∧ getF t rGcmFail fGcmFail = min (getF s rGcmFail fGcmFail + 1) (2 ^ fGcmFail.width - 1) ∧
          t.fab.conns = s.fab.conns ∧ t.fab.out = s.fab.out ∧ SameMemory s t))) ∧
  (
  ∀ x ∈ frameRows, ∀ (s t : State) (f : Frame),
    (Reaches s t f x.2 → (2 ^ 23 ≤ psnAhead (conn t f.conn.toNat) f ∨ (arrivedPsns t f.conn.toNat).elem f.psn.toNat = true) →
      exec (x.1 f) s = .next (thenFenced (noteArrival t f.conn.toNat f.ce) f.conn.toNat)) ∧
    (Reaches s t f x.2 → psnAhead (conn t f.conn.toNat) f < 2 ^ 23 → (arrivedPsns t f.conn.toNat).elem f.psn.toNat = false →
      2 ^ (conn t f.conn.toNat).winLog2 ≤ psnAhead (conn t f.conn.toNat) f → exec (x.1 f) s = .next (thenFenced t f.conn.toNat)) ∧
    (Reaches s t f x.2 → f.fence = true → 0 < psnAhead (conn t f.conn.toNat) f → psnAhead (conn t f.conn.toNat) f < 2 ^ 23 →
      psnAhead (conn t f.conn.toNat) f < 2 ^ (conn t f.conn.toNat).winLog2 → (arrivedPsns t f.conn.toNat).elem f.psn.toNat = false →
      exec (x.1 f) s = .next (thenFenced (noteArrival (setConn t f.conn.toNat { conn t f.conn.toNat with fenced := (conn t f.conn.toNat).fenced ++ [f] }) f.conn.toNat f.ce) f.conn.toNat)) ∧
    (Reaches s t f x.2 → psnAhead (conn t f.conn.toNat) f < 2 ^ 23 → psnAhead (conn t f.conn.toNat) f < 2 ^ (conn t f.conn.toNat).winLog2 →
      (arrivedPsns t f.conn.toNat).elem f.psn.toNat = false → (f.fence = true → psnAhead (conn t f.conn.toNat) f = 0) → f.opcode ≠ 0x06 → inDomain t f.srcPeer.toNat = false →
      exec (x.1 f) s = .next (thenFenced (noteApplied (sendNack t f.conn.toNat f 0x22) f.conn.toNat { f with opcode := 0 } false) f.conn.toNat)) ∧
    (∀ s1 s2, f.opcode.toNat = x.2 → f.cls.toNat ≤ 2 → f.hurt = [] → takeIn s f = (s1, true) → admitConn (retryHeld s1) f = (s2, true) → useCtx s2 f.conn.toNat = (t, false) →
      exec (x.1 f) s = .next (setConn t f.conn.toNat { conn t f.conn.toNat with waiting := (conn t f.conn.toNat).waiting ++ [f] })))

/-- The memory-form requests of a peer, WRITE, READ_REQ and ATOMIC_REQ (R206, R261, R271, R328): WRITE lands in the pieces that its translation gives; READ_REQ and ATOMIC_REQ are answered with the bytes read, or the old value, under the request's operation; a fault is recorded and answered with a NACK of its cause; each is then noted as applied; one that meets a migration or a held line waits, its arrival noted. The payload forms and the access size are the model's (logs 24, 30). Rows completed: WRITE, READ_REQ, ATOMIC_REQ. -/
def Obligations.PeerMemoryRequests : Prop :=
  ∀ (s t u : State) (f : Frame) (c : Instr), Applies t f → ((c = .write f ∧ Reaches s t f 0x01) ∨ (c = .readReq f ∧ Reaches s t f 0x02) ∨ (c = .atomicReq f ∧ Reaches s t f 0x04)) →
    (∀ va cause p op n, memOpOf f = some (op, n) → serveMem t (connReq t f.conn.toNat op.writes op.reads) (f.addr.toNat % 2 ^ 48) n op = (u, .nack va cause p) →
      exec c s = .next (applied (sendNack (putPeerFault u (connReq t f.conn.toNat op.writes op.reads).part
        { va := va, astag := (connReq t f.conn.toNat op.writes op.reads).astag, cause := cause, write := op.writes, unit := 8, since := u.time }) f.conn.toNat f cause) f)) ∧
    (∀ ps op n, memOpOf f = some (op, n) → serveMem t (connReq t f.conn.toNat op.writes op.reads) (f.addr.toNat % 2 ^ 48) n op = (u, .wait ps) →
      exec c s = .next (thenFenced (noteArrival { u with fab := { u.fab with held := u.fab.held ++ [(f.conn.toNat, f)] } } f.conn.toNat f.ce) f.conn.toNat)) ∧
    (memOpOf f = none → exec c s = .next (applied (sendNack t f.conn.toNat f fRefused) f)) ∧
    (∀ ps, c = .write f → xlate t (connReq t f.conn.toNat true false) (f.addr.toNat % 2 ^ 48) f.payload.length = (u, .ok ps) → f.bad = [] →
      exec c s = .next (applied (piecesWrite u ps f.payload) f)) ∧
    (∀ ps, c = .readReq f → xlate t (connReq t f.conn.toNat false true) (f.addr.toNat % 2 ^ 48) (u64At f.payload 0) = (u, .ok ps) →
      exec c s = .next (applied (respond (piecesTouch u ps) f.conn.toNat f 0x03 (piecesRead u ps) (piecesPoison u ps)) f)) ∧
    (∀ op n data bad, c = .atomicReq f → memOpOf f = some (op, n) → serveMem t (connReq t f.conn.toNat op.writes op.reads) (f.addr.toNat % 2 ^ 48) n op = (u, .done data bad) →
      exec c s = .next (applied (respond u f.conn.toNat f 0x05 data bad) f))

/-- The other packets of operations, READ_RESP, ATOMIC_RESP, COLL_DATA, SEND, DISPATCH_COUNT, DISPATCH_GRANT, DISPATCH_ROW, COMBINE_REQ and COMBINE_RESP (R329, R333, R334, R340 to R342): responses and collective data go to their operation; SEND fills its bobbin where the epoch holds and the bobbin is free for it, is refused as STALE or as an address, or answered BUSY else; a row whose last packet arrives lands at its target or is refused; any other whole message of DISPATCH and COMBINE is taken when its last packet is applied. LANDING_GRANT and COMBINE_SERVE (R340, R342): a landing without its counts, and a COMBINE row that is not queued, change nothing; else the landing is planned and granted once every count is there and every target is EMPTY, the COMBINE row served once DONE_VA has reached its GRANTS value. SEND to a bobbin of another slot is the model's reading (log 26), a landing entry that cannot be used too (log 32). Rows completed: READ_RESP, ATOMIC_RESP, SEND, COLL_DATA, DISPATCH_COUNT, LANDING_GRANT, DISPATCH_GRANT, DISPATCH_ROW, COMBINE_REQ, COMBINE_SERVE, COMBINE_RESP. -/
def Obligations.OperationPacketsAreTaken : Prop :=
  (
  ∀ (s t : State) (f : Frame), Applies t f →
    (Reaches s t f 0x03 → exec (.readResp f) s = .next (applied (applyResp t f.conn.toNat f) f)) ∧
    (Reaches s t f 0x05 → exec (.atomicResp f) s = .next (applied (applyResp t f.conn.toNat f) f)) ∧
    (Reaches s t f 0x10 → exec (.collData f) s = .next (applied (applyColl t f.conn.toNat f) f)) ∧
    (Reaches s t f 0x06 → sendVerdict t f.conn.toNat f = 0 → exec (.send f) s = .next (applied (wakeFor (putUnit t f.conn.toNat f) (natField f.addr.toNat 4 0)) f)) ∧
    (Reaches s t f 0x06 → sendVerdict t f.conn.toNat f = 0x20 →
      (∀ b, (bobAux t (natField f.addr.toNat 4 0) b).remote ≠ some (f.conn.toNat, f.opid.toNat)) →
      exec (.send f) s = .next (applied (staleRx t f.conn.toNat f) f)) ∧
    (Reaches s t f 0x06 → sendVerdict t f.conn.toNat f = 0x23 → exec (.send f) s = .next (thenFenced (sendNack t f.conn.toNat f 0x23) f.conn.toNat)) ∧
    (Reaches s t f 0x06 → sendVerdict t f.conn.toNat f = fRefused → exec (.send f) s = .next (applied (sendNack t f.conn.toNat f fRefused) f)) ∧
    (Reaches s t f 0x11 → exec (.dispatchCount f) s = .next (applied t f)) ∧
    (Reaches s t f 0x12 → exec (.dispatchGrant f) s = .next (applied t f)) ∧
    (Reaches s t f 0x14 → exec (.combineReq f) s = .next (applied t f)) ∧
    (Reaches s t f 0x15 → exec (.combineResp f) s = .next (applied t f)) ∧
    (∀ fs u, Reaches s t f 0x13 → wholeMsg ((conn t f.conn.toNat).parts ++ [f]) f = some fs →
      (landRow t (conn t f.conn.toNat).part f.group.toNat f.opid.toNat (fs.headD f).addr.toNat { bytes := msgPayload fs, bad := msgBad fs } false = (u, .landed) →
        exec (.dispatchRow f) s = .next (applied u f)) ∧
      (∀ r, landRow t (conn t f.conn.toNat).part f.group.toNat f.opid.toNat (fs.headD f).addr.toNat { bytes := msgPayload fs, bad := msgBad fs } false = (u, .nack r) →
        exec (.dispatchRow f) s = .next (applied (sendNack u f.conn.toNat f r) f))) ∧
    (∀ front, Reaches s t f 0x13 → wholeMsg ((conn t f.conn.toNat).parts ++ [f]) f = none →
      partsBack ((conn t f.conn.toNat).parts ++ [f]) ((conn t f.conn.toNat).parts.length + 2) f.psn.toNat [] = some front →
      exec (.dispatchRow f) s = .next (applied (rowBegin t f.conn.toNat f front) f)) ∧
    (∀ fs, wholeMsg ((conn t f.conn.toNat).parts ++ [f]) f = some fs →
      ∃ v, noteApplied t f.conn.toNat f false = applyWhole v f.conn.toNat f fs ∧ v.mem = t.mem ∧ v.poison = t.poison ∧ v.fab.counts = t.fab.counts ∧ v.fab.combQ = t.fab.combQ ∧
        v.fab.disps = t.fab.disps ∧ v.fab.combs = t.fab.combs)) ∧
  (
  (∀ (s : State) (g o : BitVec 16), (∀ c ∈ s.fab.counts, ¬(c.group = g.toNat ∧ c.opid = o.toNat)) → exec (.landingGrant g o) s = .next s) ∧
  (∀ (s s2 : State) (g o : BitVec 16) (c : LandCount), s.fab.counts.find? (fun c => decide (c.group = g.toNat) && decide (c.opid = o.toNat)) = some c →
    readGroup s c.part g.toNat = (s2, .bad) → exec (.landingGrant g o) s = .next s) ∧
  (∀ (s s2 : State) (g o : BitVec 16) (c : LandCount) (grp : Grp) (q : Nat), s.fab.counts.find? (fun c => decide (c.group = g.toNat) && decide (c.opid = o.toNat)) = some c →
    readGroup s c.part g.toNat = (s2, .ok grp) → q ∈ grp.members → (∀ y ∈ countsOf s c.part g.toNat o.toNat, y.peer ≠ q) →
    exec (.landingGrant g o) s = .next s) ∧
  (∀ (s s1 s2 : State) (g o : BitVec 16) (c : LandCount) (grp : Grp), s.fab.counts.find? (fun c => decide (c.group = g.toNat) && decide (c.opid = o.toNat)) = some c →
    readGroup s c.part g.toNat = (s1, .ok grp) → (∀ q ∈ grp.members, ∃ y ∈ countsOf s c.part g.toNat o.toNat, y.peer = q) →
    let cs := countsOf s c.part g.toNat o.toNat
    let plans := (countIdxs cs).map (landPlan s1 cs grp.members)
    plans.all (fun p => p.ready s1) = true → plansReach s1 c.part plans = (s2, none) →
    exec (.landingGrant g o) s = .next (grantAll s2 c.part g.toNat o.toNat cs grp plans)) ∧
  (∀ (s : State) (id : Nat), (∀ q ∈ s.fab.combQ, q.id ≠ id) → exec (.combineServe id) s = .next s) ∧
  (∀ (s : State) (id : Nat) (q : CombReq), s.fab.combQ.find? (fun y => decide (y.id = id)) = some q → landEntry s q.idx = none →
    exec (.combineServe id) s = .next (combNack (dropReq s q) q fRefused)) ∧
  (∀ (s s1 s2 : State) (id : Nat) (q : CombReq) (x : LandEnt) (ds : List Piece), s.fab.combQ.find? (fun y => decide (y.id = id)) = some q → landEntry s q.idx = some x →
    (∀ y ∈ ownComb s q, y.2.phase = .started ∧ y.2.stall = .none) → xlate (landTouch s q.idx) (landReq s q.part x.astag false) x.doneVa 8 = (s1, .ok ds) →
    (leNat (piecesRead s1 ds) < q.need → exec (.combineServe id) s = .next s1) ∧
    (∀ ps, q.need ≤ leNat (piecesRead s1 ds) → xlate s1 (landReq s q.part x.astag false) (x.outVa + q.first * x.outPitch) (combSpan q x) = (s2, .ok ps) →
      exec (.combineServe id) s = .next (combReturn s2 q x ps))))

/-- ACK, NACK, SEND_RETRY, ACK_TIMER and RTO_EXPIRY (R321 to R323, R329, R330): the packets that an ACK covers leave the window and no other; a NACK of BUSY is tried again 10 µs later, each packet once; another refusal reaches its operation; ACK_TIMER acknowledges what has arrived; RTO_EXPIRY does nothing in direct mode or before the time, sends the oldest packet of its plane again, and with the eighth in a row fails the plane. The form of NACK and SACK is the model's (logs 23, 24), and how a refusal after an ACK finds its operation (log 122). Rows completed: ACK, NACK, ACK_TIMER, RTO_EXPIRY, SEND_RETRY. -/
def Obligations.AcknowledgementsAndRetries : Prop :=
  (∀ (s t : State) (f : Frame), f.cls = 3 → f.opcode ≠ 0x31 → takeIn s f = (t, true) → (conn t f.conn.toNat).open_ = true → (conn t f.conn.toNat).closing = false →
    (conn t f.conn.toNat).outQ = [] → direct t = true → (∀ x ∈ (conn t f.conn.toNat).inflight, x.owner = 0 ∧ x.again = false) →
    ∃ v, exec (.ack f) s = .next v ∧ (conn v f.conn.toNat).inflight = (conn t f.conn.toNat).inflight.filter (fun x => !ackCovers f x.frame.psn.toNat) ∧ SameMemory t v) ∧
  (∀ (s t : State) (f : Frame), f.cls = 3 → f.opcode ≠ 0x31 → takeIn s f = (t, true) → (conn t f.conn.toNat).open_ = true →
    exec (.ack f) s = .next ((((conn t f.conn.toNat).inflight.filter (fun x => ackCovers f x.frame.psn.toNat)).map (fun x => x.owner)).dedup.foldl
      (fun v o => ownerEvent (touchOwner v o) o) (transportAck t f.conn.toNat f))) ∧
  (∀ (s : State) (f : Frame), (f.cls ≠ 3 ∨ f.opcode = 0x31) → exec (.ack f) s = .next s) ∧
  (∀ (s t : State) (f : Frame) (id : Nat) (x : Pkt), f.cls = 4 → takeIn s f = (t, true) → nackConn t f = some id →
    (conn t id).inflight.find? (fun x => decide (x.frame.psn = f.psn) && decide (x.frame.opcode = f.opcode)) = some x →
    (f.reason = 0x23 → (∀ r ∈ t.fab.retries, ¬(r.conn = id ∧ r.psn = f.psn.toNat)) →
      ∃ v r, exec (.nack f) s = .next v ∧ v.fab.retries = t.fab.retries ++ [r] ∧ r.conn = id ∧ r.psn = f.psn.toNat ∧ r.since = t.time ∧ v.fab.conns = t.fab.conns ∧ SameMemory t v) ∧
    (f.reason ≠ 0x23 → exec (.nack f) s = .next (finishClose (pump (nackOwner
      (settlePkt (setConn t id { conn t id with inflight := (conn t id).inflight.filter (fun y => decide (y.frame.psn ≠ f.psn)) }) id false x) x.owner f.addr.toNat f.reason.toNat) id) id))) ∧
  (∀ (s t : State) (f : Frame) (id : Nat), f.cls = 4 → takeIn s f = (t, true) → nackConn t f = some id →
    (conn t id).inflight.find? (fun x => decide (x.frame.psn = f.psn) && decide (x.frame.opcode = f.opcode)) = none →
    exec (.nack f) s = .next (if f.reason = 0x23 then t else nackNamed t id f)) ∧
  (∀ (s : State) (f : Frame), f.cls ≠ 4 → exec (.nack f) s = .next s) ∧
  (∀ (s : State) (id : Nat) (r : Retry), s.fab.retries.find? (fun r => decide (r.id = id)) = some r →
    (r.since + 10000 ≤ s.time → exec (.sendRetry id) s = .next (retransmit { s with fab := { s.fab with retries := s.fab.retries.filter (fun x => decide (x.id ≠ id)) } } r.conn r.psn)) ∧
    (s.time < r.since + 10000 → exec (.sendRetry id) s = .next s)) ∧
  (∀ (s : State) (c : BitVec 16), (conn (retryHeld s) c.toNat).open_ = true → 0 < (conn (retryHeld s) c.toNat).ackDue → exec (.ackTimer c) s = .next (sendAck (retryHeld s) c.toNat)) ∧
  (∀ (s : State) (c : BitVec 16), s.fab.held = [] → ((conn s c.toNat).open_ = false ∨ (conn s c.toNat).ackDue = 0) → exec (.ackTimer c) s = .next s) ∧
  (∀ (s : State) (c : BitVec 16) (p : Fin 16) (y : Pkt), (conn s c.toNat).inflight.find? (fun y => decide (y.frame.plane = p)) = some y →
    ((direct s = true ∨ s.time < y.sent + rtoOf s (conn s c.toNat) p.val * 1000) → exec (.rtoExpiry c p) s = .next s) ∧
    (direct s = false → y.sent + rtoOf s (conn s c.toNat) p.val * 1000 ≤ s.time → y.frame.psn.toNat < 2 ^ 24 →
      ∃ v, mapGet (conn v c.toNat).expiries p.val 0 = mapGet (conn s c.toNat).expiries p.val 0 + 1 ∧
        mapGet (conn v c.toNat).rto p.val 0 = min (2 * rtoOf s (conn s c.toNat) p.val) (64 * objNat s oRtoInit) ∧ SameMemory s v ∧
        exec (.rtoExpiry c p) s = .next (if mapGet (conn s c.toNat).expiries p.val 0 = 7 then failPlane v (conn s c.toNat).peer p.val
          else retransmit v c.toNat y.frame.psn.toNat)))

/-- The link layer, FCS_ERROR, LINK_ACK_TIMER, LINK_ACK and PORT_STATE_CHANGE (R312, R317 to R319): in switched mode a bad FCS is counted and no more; in direct mode it is answered with one LINK_ACK that carries the NAK bit. LINK_ACK_TIMER acknowledges what came; a LINK_ACK frees the frames it names, and with the NAK bit the others are replayed. PORT_STATE_CHANGE takes the port to its state, UP only at a rate that LANE_RATE allows. HELLO, PROBE and PROBE_TIMER (R317, R330): HELLO names the port's far end; PROBE is answered, and its answer brings the plane back; PROBE_TIMER probes a failed plane once a millisecond; HELLO and PROBE over a port that is not UP change nothing. LINK_ACK's own number is the model's reading (log 21). Rows completed: HELLO, PROBE, LINK_ACK, FCS_ERROR, LINK_ACK_TIMER, PORT_STATE_CHANGE, PROBE_TIMER. -/
def Obligations.PortsAndTheirLinkLayer : Prop :=
  (∀ (s : State) (p : Fin 16), direct s = false →
    ∃ t, exec (.fcsError p true) s = .next t ∧ getF t (rPortFcsErr p) fPortFcsErrFcsErr = min (getF s (rPortFcsErr p) fPortFcsErrFcsErr + 1) (2 ^ fPortFcsErrFcsErr.width - 1) ∧
      SameRegsBut [(rPortFcsErr p).key] s t ∧ SameUnits s t) ∧
  (∀ (s : State) (p : Fin 16), direct s = true → portState s p = 2 → (port s p).nakSent = false →
    ∃ t g, exec (.fcsError p false) s = .next t ∧ t.fab.out = s.fab.out ++ [g] ∧ g.opcode = 0x32 ∧ g.reason = 0x80 ∧ g.plane = p ∧ (port t p).nakSent = true ∧ SameMemory s t) ∧
  (∀ (s : State) (p : Fin 16), direct s = true → (port s p).nakSent = true → exec (.fcsError p false) s = .next s) ∧
  (∀ (s : State) (p : Fin 16), direct s = true → portState s p = 2 → 0 < (port s p).unacked →
    ∃ t g, exec (.linkAckTimer p) s = .next t ∧ t.fab.out = s.fab.out ++ [g] ∧ g.opcode = 0x32 ∧ g.reason = 0 ∧ (port t p).unacked = 0 ∧ SameMemory s t) ∧
  (∀ (s : State) (p : Fin 16), (direct s = false ∨ ((port s p).unacked = 0 ∧ (port s p).owed = 0)) → exec (.linkAckTimer p) s = .next s) ∧
  (∀ (s : State) (p : Fin 16) (f : Frame), (direct s = false ∨ portState s p ≠ 2) → exec (.linkAck p f) s = .next s) ∧
  (∀ (s : State) (p : Fin 16) (f : Frame), direct s = true → portState s p = 2 →
    ∃ v, (port v p).replay = (port s p).replay.filter (fun g => decide (2048 ≤ (f.ackLseq.toNat + 4096 - g.lseq.toNat) % 4096)) ∧
      (port v p).credits = min 4096 ((port s p).credits + f.credits.toNat) ∧ SameMemory s v ∧
      exec (.linkAck p f) s = .next (pumpAll (if f.reason.getLsbD 7 then replayPort v p else v))) ∧
  (∀ (s : State) (p : Fin 16) (r : BitVec 2), portState s p ≠ 2 →
    (∃ t, exec (.portStateChange p .training r) s = .next t ∧ portState t p = 1 ∧ SameRegsBut [(rFabPort p).key] s t ∧ SameMemory s t) ∧
    ((r = 1 ∨ r = 2) → (objNat s oLaneRate = 0 ∨ objNat s oLaneRate = r.toNat) →
      ∃ v, exec (.portStateChange p .up r) s = .next (pumpAll (noteAllDown v)) ∧ portState v p = 2 ∧ getF v (rFabPort p) fFabPortRate = r.toNat ∧ SameMemory s v)) ∧
  (∀ (s : State) (p : Fin 16) (r : BitVec 2), (r = 0 ∨ r = 3 ∨ (objNat s oLaneRate ≠ 0 ∧ objNat s oLaneRate ≠ r.toNat)) → exec (.portStateChange p .up r) s = .next s) ∧
  (∀ (s : State) (p : Fin 16) (r : BitVec 2), portState s p = 2 →
    ∃ v, v.fab = s.fab ∧ getF v (rFabPort p) fFabPortRate = 0 ∧ SameMemory s v ∧ exec (.portStateChange p .failed r) s = .next (noteAllDown (dropLink v p 3)) ∧
      exec (.portStateChange p .down r) s = .next (noteAllDown (dropLink v p 0)) ∧ exec (.portStateChange p .training r) s = .next (noteAllDown (dropLink v p 1))) ∧
  (∀ (s : State) (f : Frame), portState s f.plane ≠ 2 → exec (.hello f) s = .next s ∧ exec (.probe f) s = .next s) ∧
  (∀ (s t : State) (f : Frame), f.opcode = 0x30 → portState s f.plane = 2 → direct s = true → linkReceive s f = (t, true) →
    exec (.hello f) s = .next (pumpAll (noteDown (sawPeer (setF (setB t (rFabPort f.plane) fFabPortNeighbourValid true) (rFabPort f.plane) fFabPortNeighbour f.srcPeer.toNat) f.srcPeer.toNat)
      f.srcPeer.toNat))) ∧
  (∀ (s : State) (f : Frame), f.opcode = 0x31 → portState s f.plane = 2 → direct s = false → f.cls ≠ 3 →
    ∃ t g, exec (.probe f) s = .next t ∧ t.fab.out = s.fab.out ++ [g] ∧ g.cls = 3 ∧ g.opcode = 0x31 ∧ g.plane = f.plane ∧ g.dstPeer = f.srcPeer ∧ SameMemory s t) ∧
  (∀ (s t : State) (f : Frame), f.opcode = 0x31 → portState s f.plane = 2 → f.cls = 3 → linkReceive s f = (t, true) →
    exec (.probe f) s = .next (pumpAll (noteDown (setPeer t f.srcPeer.toNat { peerOf t f.srcPeer.toNat with state := 1, failed := (peerOf t f.srcPeer.toNat).failed.filter (fun y => decide (y ≠ f.plane.val)) })
      f.srcPeer.toNat))) ∧
  (∀ (s : State) (q : BitVec 16) (p : Fin 16), (peerOf s q.toNat).failed.elem p.val = true → portState s p = 2 → direct s = false →
    (mapGet (peerOf s q.toNat).probeAt p.val 0 + 1000000 ≤ s.time →
      ∃ t g, exec (.probeTimer q p) s = .next t ∧ t.fab.out = s.fab.out ++ [g] ∧ g.opcode = 0x31 ∧ g.dstPeer = q ∧ mapGet (peerOf t q.toNat).probeAt p.val 0 = s.time ∧ SameMemory s t) ∧
    (s.time < mapGet (peerOf s q.toNat).probeAt p.val 0 + 1000000 → exec (.probeTimer q p) s = .next s))

/-- PEER_UNREACHABLE, COLL_TIMEOUT, CONTEXT_FETCH, CONN_INIT and CONN_CLOSE (R324, R325, R330, R334): a peer without an UP plane for UNREACHABLE_MS is unreachable; a group operation without progress for COLL_TIMEOUT ends with TIMEOUT; a fetched context is cached and what waited for it goes on; CONN_INIT opens a connection from its table entry and refuses a 1,025th pinned one and an entry that cannot be read; CONN_CLOSE ends a connection with nothing outstanding at once. What CONN_INIT does with an entry that cannot be read, or a window out of range, is the model's (log 25). Rows completed: CONN_INIT, CONN_CLOSE, PEER_UNREACHABLE, COLL_TIMEOUT, CONTEXT_FETCH. -/
def Obligations.ConnectionsOpenCloseAndTimeOut : Prop :=
  (∀ (s : State) (q : BitVec 16) (t0 : Nat), (peerOf s q.toNat).downSince = some t0 → (peerPlanes s q.toNat).isEmpty = true → (peerOf s q.toNat).state ≠ 2 →
    (t0 + objNat s oUnreachableMs * 1000000 ≤ s.time → s.fab.ops = [] → s.fab.disps = [] → s.fab.combs = [] → s.fab.conns = [] →
      exec (.peerUnreachable q) s = .next (setPeer s q.toNat { peerOf s q.toNat with state := 2 })) ∧
    (s.time < t0 + objNat s oUnreachableMs * 1000000 → exec (.peerUnreachable q) s = .next s)) ∧
  (∀ (s : State) (id : Nat) (o : FabOp) (c : Cmd), fabOp s id = some o → o.op ≤ 4 → spoolCmd s o.u o.slot = some c → c.phase ≠ .ended →
    (o.since + objNat s oCollTimeout * 1000000 ≤ s.time → exec (.collTimeout id) s = .next (applyAct s (dropOp s o.id) o.u c (.ends stTimeout o.sent))) ∧
    (s.time < o.since + objNat s oCollTimeout * 1000000 → exec (.collTimeout id) s = .next s)) ∧
  (∀ (s : State) (c : BitVec 16), (conn s c.toNat).fetching = false → exec (.contextFetch c) s = .next s) ∧
  (∀ (s : State) (c : BitVec 16), (conn s c.toNat).fetching = true → s.fab.cached.length < 8192 → (conn s c.toNat).waiting = [] → (conn s c.toNat).outQ = [] →
    ∃ t, exec (.contextFetch c) s = .next t ∧ t.fab.cached.elem c.toNat = true ∧ (conn t c.toNat).fetching = false ∧ SameMemory s t) ∧
  (∀ (s : State) (ag : Agent) (c : BitVec 16), regRight s ag rConnCtl.key = true →
    (let a := getF s rConnTable fConnTableBase * 4096 + 128 * c.toNat
     let b := hubView s a 32
     (spanRegion s a 128 ≠ some .bulk → exec (.connInit ag c) s = .next (setB s rConnStatus fConnStatusRefused true)) ∧
     (spanRegion s a 128 = some .bulk → (mpaPoisoned s a 32 = true ∨ ((connOf b).pin = true ∧ 1024 ≤ otherPins s c.toNat)) →
      exec (.connInit ag c) s = .next (setB (hubTouch s a 32) rConnStatus fConnStatusRefused true)) ∧
     (spanRegion s a 128 = some .bulk → mpaPoisoned s a 32 = false → (connOf b).open_ = true → (connOf b).pin = false →
      ∃ t w, exec (.connInit ag c) s = .next t ∧ conn t c.toNat = { connOf b with winLog2 := w } ∧ 6 ≤ w ∧ w ≤ 20 ∧
        (6 ≤ u8At b 14 → u8At b 14 ≤ 20 → conn t c.toNat = connOf b) ∧
        getF t rConnStatus fConnStatusDone = (getF s rConnStatus fConnStatusDone + 1) % 2 ^ fConnStatusDone.width ∧ SameRegsBut [rConnStatus.key, rOwnerSupply.key] s t ∧ SameMemory s t))) ∧
  (∀ (s : State) (ag : Agent) (c : BitVec 16), regRight s ag rConnCtl.key = true →
    ((conn s c.toNat).inflight = [] → (conn s c.toNat).outQ = [] →
      ∃ t, exec (.connClose ag c) s = .next t ∧ conn t c.toNat = {} ∧ getF t rConnStatus fConnStatusDone = (getF s rConnStatus fConnStatusDone + 1) % 2 ^ fConnStatusDone.width ∧ SameMemory s t) ∧
    ((conn s c.toNat).inflight ≠ [] →
      ∃ t, exec (.connClose ag c) s = .next t ∧ (conn t c.toNat).closing = true ∧ getF t rConnStatus fConnStatusBusy = 1 ∧ SameMemory s t))

/-! ### Training steps -/

/-- STEP_CTL (R285, R287, R296, R308): CLOSE of the current step moves CUR_STEP on and puts the step among those that await their vote; RAISE of a step not yet voted adds its cause; REJOIN with the last step ends DIVERGED; any other sets CTL_ERR and changes nothing else. Reserved OP codes, and CLOSE and RAISE while ENABLE is 0, are the model's (logs 34, 76). Rows completed: STEP_CLOSE, STEP_RAISE, STEP_REJOIN. -/
def Obligations.StepsAreClosedRaisedAndRejoined : Prop :=
  (∀ (s : State) (ag : Agent) (p : Fin 16) (n : BitVec 48), regRight s ag (rStepCtl p).key = true → jobEnabled s p = true → n.toNat = curStep s p → (job s p).diverged = false → (job s p).lost = false →
    ∃ t c, exec (.stepClose ag p n) s = .next t ∧ getF t (rStepCur p) fStepCurCurStep = (n.toNat + 1) % 2 ^ fStepCurCurStep.width ∧ (job t p).closed = (job s p).closed ++ [c] ∧ c.step = n.toNat ∧ c.done = false ∧
      SameRegsBut [(rStepCur p).key] s t ∧ SameMemory s t) ∧
  (∀ (s : State) (ag : Agent) (p : Fin 16) (n : BitVec 48), regRight s ag (rStepCtl p).key = true → (jobEnabled s p = false ∨ n.toNat ≠ curStep s p ∨ (job s p).diverged = true ∨ (job s p).lost = true) →
    exec (.stepClose ag p n) s = .next (setF s (rStepStatus p) fStepStatusCtlErr 1)) ∧
  (∀ (s : State) (ag : Agent) (p : Fin 16) (n : BitVec 48), regRight s ag (rStepCtl p).key = true →
    ((jobEnabled s p = false ∨ n.toNat < (job s p).awaited ∨ curStep s p < n.toNat ∨ ∃ v t0, (job s p).voted = some (v, t0) ∧ n.toNat ≤ v) →
      exec (.stepRaise ag p n) s = .next (setF s (rStepStatus p) fStepStatusCtlErr 1)) ∧
    (jobEnabled s p = true → (job s p).awaited ≤ n.toNat → n.toNat ≤ curStep s p → (∀ v t0, (job s p).voted = some (v, t0) → v < n.toNat) →
      exec (.stepRaise ag p n) s = .next (raisePennant s p n.toNat 10))) ∧
  (∀ (s : State) (ag : Agent) (p : Fin 16) (n : BitVec 48), regRight s ag (rStepCtl p).key = true →
    ((job s p).diverged = true → n.toNat = getF s (rStepStatus p) fStepStatusLastStep →
      ∃ t, exec (.stepRejoin ag p n) s = .next t ∧ (job t p).diverged = false ∧ (job t p).awaited = (job s p).awaited ∧ t.regs = s.regs ∧ SameMemory s t) ∧
    (((job s p).diverged = false ∨ n.toNat ≠ getF s (rStepStatus p) fStepStatusLastStep) → exec (.stepRejoin ag p n) s = .next (setF s (rStepStatus p) fStepStatusCtlErr 1)))

/-- The Halyard (R285, R297, R299, R300, R327, R336): a closed step is merged once, its records written at STAT_OUT; a vote before its step's merge, or while a command of the step is pending, is not made; a member votes once. A frame's step and partition are read most significant byte first (R11); one from another domain is answered with a NACK of NOT_IN_DOMAIN, a second copy is dropped. One of another step than the awaited one, or of a disabled job, counts in STALE_VOTES; an outcome of the awaited step is applied; the root's time limit voids the step, and a member without an outcome in twice that diverges, in an enabled job only. That a DIVERGED job does not vote is the model's reading (log 36), the order of the merged records is free (log 111). Rows completed: SNAPSHOT_MERGE, HALYARD_VOTE, HALYARD_UP, HALYARD_DOWN, HALYARD_TIMEOUT, DIVERGED_TIMEOUT. -/
def Obligations.TheHalyardDecidesSteps : Prop :=
  (∀ (s : State) (p : Fin 16), (∀ c ∈ (job s p).closed, c.done = true) → exec (.snapshotMerge p) s = .next s) ∧
  (∀ (s : State) (p : Fin 16) (c : ClosedStep), (job s p).closed = [c] → c.done = false → (job s p).awaited ≤ c.step →
    ∃ t m, exec (.snapshotMerge p) s = .next t ∧ (job t p).closed = [{ c with merged := m, done := true }] ∧ m.Perm (c.snap.foldl mergeInto []) ∧
      (getF s (rStatOut p) fStatOutStatOutCap = 0 → t.regs = s.regs ∧ SameMemory s t) ∧
      (m ≠ [] → m.length ≤ getF s (rStatOut p) fStatOutStatOutCap →
        t.mem = (hubPut { s with freeCtr := s.freeCtr + m.length } (getF s (rStatOut p) fStatOut * 4096) (m.flatMap (fun x => statBytes (if x.tensor = 0xFFFF then 255 else 0) x.fitted))).mem)) ∧
  (∀ (s : State) (p : Fin 16), ((∀ c ∈ (job s p).closed, c.step ≠ (job s p).awaited) ∨ (job s p).ownVote.isSome = true ∨ jobEnabled s p = false ∨
      (∃ c, (job s p).closed.find? (fun c => decide (c.step = (job s p).awaited)) = some c ∧ (c.done = false ∨ stepPending s p c.step ≠ 0))) →
    exec (.halyardVote p) s = .next s) ∧
  (∀ (s : State) (p : Fin 16) (c : ClosedStep), (job s p).closed.find? (fun c => decide (c.step = (job s p).awaited)) = some c → jobEnabled s p = true → (job s p).diverged = false →
    (job s p).restore = none → (job s p).ownVote = none → c.done = true → stepPending s p c.step = 0 →
    ∃ v b, exec (.halyardVote p) s = .next (halyProgress v p) ∧ (job v p).ownVote = some b ∧ (b = true ↔ getF v (rPennantCause p) fPennantCauseCause ≠ 0) ∧
      ((job s p).lost = true → b = true) ∧ (job v p).votedLost = (job s p).lost ∧ (job v p).voted = some (c.step, s.time) ∧ v.mem = s.mem) ∧
  (∀ (s t u : State) (f : Frame) (k : Nat), ((k = 0x20 ∧ f.opcode = 0x20) ∨ (k = 0x21 ∧ f.opcode = 0x21)) → f.cls = 2 → takeIn s f = (t, true) → admitConn t f = (u, true) →
    (inDomain u f.srcPeer.toNat = false →
      (f.opcode = 0x20 → exec (.halyardUp f) s = .next (sendNack u f.conn.toNat f 0x22)) ∧ (f.opcode = 0x21 → exec (.halyardDown f) s = .next (sendNack u f.conn.toNat f 0x22))) ∧
    (inDomain u f.srcPeer.toNat = true → (u8At f.payload 12 % 16, beAt f.payload 0 6, k, f.srcPeer.toNat) ∈ u.fab.halySeen →
      (f.opcode = 0x20 → exec (.halyardUp f) s = .next u) ∧ (f.opcode = 0x21 → exec (.halyardDown f) s = .next u)) ∧
    (inDomain u f.srcPeer.toNat = true → (u8At f.payload 12 % 16, beAt f.payload 0 6, k, f.srcPeer.toNat) ∉ u.fab.halySeen →
      halyFrame s f k = ({ u with fab := { u.fab with halySeen := (u8At f.payload 12 % 16, beAt f.payload 0 6, k, f.srcPeer.toNat) :: u.fab.halySeen } },
        some (u8At f.payload 12 % 16, beAt f.payload 0 6)))) ∧
  (∀ (s t : State) (f : Frame) (p n : Nat), halyFrame s f 0x20 = (t, some (p, n)) → (jobEnabled t p = false ∨ n ≠ (job t p).awaited) →
    exec (.halyardUp f) s = .next (bump t (rStaleVotes p) fStaleVotes 1)) ∧
  (∀ (s t u : State) (f : Frame) (p n r : Nat) (g : Grp), halyFrame s f 0x20 = (t, some (p, n)) → jobEnabled t p = true → n = (job t p).awaited → voteGroup t p = (u, some g) →
    (treeKids g.size g.rank).find? (fun r => decide (g.members.getD r 0 = f.srcPeer.toNat)) = some r →
    exec (.halyardUp f) s = .next (halyProgress (setJob u p { job t p with kids := (job t p).kids ++ [(r, bitOf (u8At f.payload 6) 0, beAt f.payload 8 4)] }) p)) ∧
  (∀ (s t : State) (f : Frame) (p n : Nat), halyFrame s f 0x21 = (t, some (p, n)) →
    ((jobEnabled t p = false ∨ n ≠ (job t p).awaited) → exec (.halyardDown f) s = .next (bump t (rStaleVotes p) fStaleVotes 1)) ∧
    (jobEnabled t p = true → n = (job t p).awaited → 1 ≤ u8At f.payload 6 / 2 % 8 → u8At f.payload 6 / 2 % 8 ≤ 3 → exec (.halyardDown f) s = .next (applyOutcome t p (u8At f.payload 6 / 2 % 8)))) ∧
  (∀ (s u : State) (p : Fin 16) (t0 : Nat) (g : Grp), (job s p).firstAt = some t0 → voteGroup s p = (u, some g) →
    (jobEnabled u p = true → g.rank = 0 → t0 + objNat u oHalyardTimeout * 1000000 ≤ u.time → exec (.halyardTimeout p) s = .next (applyOutcome u p 3)) ∧
    ((jobEnabled u p = false ∨ g.rank ≠ 0 ∨ u.time < t0 + objNat u oHalyardTimeout * 1000000) → exec (.halyardTimeout p) s = .next u)) ∧
  (∀ (s : State) (p : Fin 16), (job s p).firstAt = none → exec (.halyardTimeout p) s = .next s) ∧
  (∀ (s : State) (p : Fin 16) (t0 : Nat), (job s p).voted = some ((job s p).awaited, t0) → (job s p).ownVote.isSome = true →
    (jobEnabled s p = true → t0 + 2 * (objNat s oHalyardTimeout * 1000000) ≤ s.time → exec (.divergedTimeout p) s = .next (applyOutcome s p 4)) ∧
    ((jobEnabled s p = false ∨ s.time < t0 + 2 * (objNat s oHalyardTimeout * 1000000)) → exec (.divergedTimeout p) s = .next s)) ∧
  (∀ (s : State) (p : Fin 16) (code : Nat), (job (applyOutcome s p code) p).awaited = ((job s p).awaited + 1) % 2 ^ 48 ∧ (job (applyOutcome s p code) p).ownVote = none) ∧
  (∀ (s : State) (p : Fin 16) (code : Nat), (code = 1 ∨ code = 2) → ((job s p).ownVote = none ∨ (job s p).votedLost = false) →
    getF (applyOutcome s p code) (rStepStatus p) fStepStatusLastOutcome = code ∧ getF (applyOutcome s p code) (rStepStatus p) fStepStatusLastStep = (job s p).awaited % 2 ^ 48 ∧
    (job (applyOutcome s p code) p).hoists = (if code = 1 then (job s p).hoists ++ [(job s p).awaited] else (job s p).hoists))

/-- The optimiser and its checkpoints (R252, R302 to R307, R448): a pending set is committed or refused whole; a Hoist takes the oldest clear step with the armed set and asks for the checkpoints that are due; without an update or a checkpoint under way their rows change nothing; a hank waits for the checkpoint that still needs it, for its group's list and for what its spans meet, and is then updated whole; a hank that cannot be reached makes the job STATE_LOST. CKPT_NEXT asks for a checkpoint, CKPT_RESTORE of a slot without a header is refused; the header is written last and ends the checkpoint; a restore sets the job at the slot's step. The failures of a checkpoint are the model's (log 39), an empty update table too (log 97). Rows completed: OPT_ARM, HOIST, HANK_UPDATE, HANKS_DONE, CHECKPOINT_START, CHECKPOINT_HANK, CHECKPOINT_HEADER, CKPT_NEXT, CKPT_RESTORE, RESTORE_DONE. -/
def Obligations.OptimiserAndCheckpoints : Prop :=
  (∀ (s : State) (ag : Agent) (p : Fin 16) (view : Bool), regRight s ag (rOptArm p).key = true →
    (optOk (setB s (rOptArm p) fOptArmView view) p = true →
      ∃ t, exec (.optArm ag p view) s = .next t ∧ getF t (rOptArm p) fOptArmRefused = 0 ∧ (∀ r ∈ optRegs p, getR t r = getPend s r) ∧ SameUnits s t) ∧
    (optOk (setB s (rOptArm p) fOptArmView view) p = false →
      ∃ t, exec (.optArm ag p view) s = .next t ∧ getF t (rOptArm p) fOptArmRefused = 1 ∧ t.pend = s.pend ∧ SameRegsBut [(rOptArm p).key] s t ∧ SameUnits s t)) ∧
  (∀ (s : State) (p : Fin 16) (st : Nat) (l : List Nat), (job s p).hoists = st :: l → (job s p).upd = none → (job s p).restore = none → updCount s p ≠ 0 →
    ∃ t u, exec (.hoist p) s = .next t ∧ (job t p).hoists = l ∧ (job t p).upd = some u ∧ u.step = st ∧ u.seg = 0 ∧ u.hank = 0 ∧
      (job t p).opt.head? = some (getF s (rOptLr p) fOptLrLr) ∧ getB t (rCkptCtl p) fCkptCtlNext = false ∧
      (job t p).ckptDue = (if getB s (rCkptCtl p) fCkptCtlNext = true ∨ (getF s (rCkptCfg p) fCkptCfgInterval ≠ 0 ∧ (getF s (rOptT p) fOptTT + 1) % getF s (rCkptCfg p) fCkptCfgInterval = 0)
        then (job s p).ckptDue ++ [(st, getF s (rOptT p) fOptTT + 1)] else (job s p).ckptDue) ∧
      SameRegsBut [(rCkptCtl p).key] s t ∧ SameMemory s t) ∧
  (∀ (s : State) (p : Fin 16), ((job s p).hoists = [] ∨ (job s p).upd.isSome = true ∨ (job s p).restore.isSome = true) → exec (.hoist p) s = .next s) ∧
  (∀ (s u : State) (p : Fin 16), reachSeg s p (updCount s p + 1) = u → (job u p).upd = none → exec (.hankUpdate p) s = .next u) ∧
  (∀ (s u : State) (p : Fin 16) (x : Upd), reachSeg s p (updCount s p + 1) = u → (job u p).upd = some x → ckptHolds (job u p) x.step ((segRead u p x.seg).first + x.hank) = true →
    exec (.hankUpdate p) s = .next (ckptWait u p true)) ∧
  (∀ (s u v : State) (p : Fin 16) (x : Upd) (b : Bool), reachSeg s p (updCount s p + 1) = u → (job u p).upd = some x → ckptHolds (job u p) x.step ((segRead u p x.seg).first + x.hank) = false →
    gatherReady (hubTouch (ckptWait u p false) (segAddr u p x.seg) 64) p = (v, b) →
    (b = false → exec (.hankUpdate p) s = .next v) ∧
    (b = true → ∀ w, 
      (∀ ps, optReach v p (hankSpans (segRead u p x.seg) x.hank) [] = (w, .ok ps) →
        exec (.hankUpdate p) s = .next (reachSeg (hankDo w p x (segRead u p x.seg) (.ok ps)) p (updCount w p + 1))) ∧
      (optReach v p (hankSpans (segRead u p x.seg) x.hank) [] = (w, .later) → exec (.hankUpdate p) s = .next w) ∧
      (optReach v p (hankSpans (segRead u p x.seg) x.hank) [] = (w, .fault) →
        ∃ y, exec (.hankUpdate p) s = .next (reachSeg y p (updCount y p + 1)) ∧ (job y p).lost = true ∧ (job y p).upd = some { x with seg := x.seg + 1, hank := 0 } ∧ y.regs = w.regs ∧ y.mem = w.mem))) ∧
  (∀ (s : State) (p : Fin 16), (job s p).gather = [] → exec (.hanksDone p) s = .next s) ∧
  (∀ (s : State) (p : Fin 16) (id : Nat) (l : List (Nat × Bool)), (job s p).gather = (id, true) :: l →
    (owes s id = true → exec (.hanksDone p) s = .next s) ∧
    (owes s id = false → exec (.hanksDone p) s =
      .next (hubPut (hubTouch (setJob s p { job s p with gather := l }) (blockAddr s p 8) 8) (blockAddr s p 8) (natLE 8 (leNat (hubView s (blockAddr s p 8) 8) + 1))))) ∧
  (∀ (s : State) (p : Fin 16), ((job s p).ckptDue = [] ∨ (job s p).ckpt.isSome = true ∨ flashRuns s = false) → exec (.checkpointStart p) s = .next s) ∧
  (∀ (s : State) (p : Fin 16) (st n : Nat) (l : List (Nat × Nat)), (job s p).ckptDue = (st, n) :: l → (job s p).ckpt = none → flashRuns s = true →
    (let b := !(job s p).lastSlotB
     let k := updCount s p
     let pages := 1 + tablePages k + gchkPages + hankPages * (allHanks s p k).length
     ((getF s (rCkptCfg p) fCkptCfgSlotPages < pages ∨ Config.flashLogicalBytes < (slotLpn s p b + pages) * pageBytes) →
       ∃ t, exec (.checkpointStart p) s = .next t ∧ (job t p).ckptDue = l ∧ (job t p).ckpt = none ∧ getF t (rCkptStatus p) fCkptStatusFailed = 1 ∧ SameMemory s t) ∧
     (pages ≤ getF s (rCkptCfg p) fCkptCfgSlotPages → (slotLpn s p b + pages) * pageBytes ≤ Config.flashLogicalBytes →
       ∃ t, exec (.checkpointStart p) s = .next t ∧ (job t p).ckptDue = l ∧ (job t p).ckpt = some { step := st, optT := n, slotB := b, todo := allHanks s p k, done := 0 } ∧
         getF t (rCkptStatus p) fCkptStatusState = 1 ∧ getB t (rCkptStatus p) fCkptStatusSlot = b ∧
         (∀ x, pageAddr (slotLpn s p b) ≤ x → x < pageAddr (slotLpn s p b) + pageBytes → byteAt t x = 0) ∧
         (∀ x, Outside x (pageAddr (slotLpn s p b)) ((1 + tablePages k + gchkPages) * pageBytes) → byteAt t x = byteAt s x)))) ∧
  (∀ (s : State) (p : Fin 16), ((job s p).ckpt = none ∨ flashRuns s = false) → exec (.checkpointHank p) s = .next s ∧ exec (.checkpointHeader p) s = .next s) ∧
  (∀ (s u : State) (p : Fin 16) (c : Ckpt) (i k id : Nat) (l : List (Nat × Nat × Nat)), (job s p).ckpt = some c → c.todo = (i, k, id) :: l → flashRuns s = true →
    (let e := hubView s (ledgerAddr s p id) 16
     ((bitOf (u8At e 12) 0 = false ∨ u64At e 0 ≠ c.step ∨ u32At e 8 ≠ c.optT) → exec (.checkpointHank p) s = .next s) ∧
     (bitOf (u8At e 12) 0 = true → u64At e 0 = c.step → u32At e 8 = c.optT →
       (optReach s p (ckptSpans (segRead s p i) k false) [] = (u, .fault) → exec (.checkpointHank p) s = .next (ckptFail u p)) ∧
       (optReach s p (ckptSpans (segRead s p i) k false) [] = (u, .later) → exec (.checkpointHank p) s = .next u) ∧
       (∀ ps, optReach s p (ckptSpans (segRead s p i) k false) [] = (u, .ok ps) →
         exec (.checkpointHank p) s = .next (setJob (ckptHankPut u p c id ps) p { job (ckptHankPut u p c id ps) p with ckpt := some { c with todo := l, done := c.done + 1 } }))))) ∧
  (∀ (s : State) (p : Fin 16) (c : Ckpt), (job s p).ckpt = some c → c.todo = [] → flashRuns s = true →
    ∃ t, exec (.checkpointHeader p) s = .next t ∧ (job t p).ckpt = none ∧ (job t p).lastSlotB = c.slotB ∧ getF t (rCkptStatus p) fCkptStatusState = 0 ∧
      getF t (rCkptStatus p) fCkptStatusLastStep = c.step % 2 ^ fCkptStatusLastStep.width ∧
      mpaRead t (pageAddr (slotLpn s p c.slotB)) 24 = headerBytes c.step c.optT (updCount s p) c.done (crc32 (mpaRead s (pageAddr (slotLpn s p c.slotB + 1)) (64 * updCount s p))) ∧
      (∀ x, Outside x (pageAddr (slotLpn s p c.slotB)) pageBytes → byteAt t x = byteAt s x)) ∧
  (∀ (s : State) (ag : Agent) (p : Fin 16), regRight s ag (rCkptCtl p).key = true →
    (∃ t, exec (.ckptNext ag p) s = .next t ∧ getB t (rCkptCtl p) fCkptCtlNext = true ∧ SameRegsBut [(rCkptCtl p).key] s t ∧ SameUnits s t) ∧
    (∀ b : Bool, ((slotHeader s p b = none ∨ (job s p).upd.isSome = true ∨ (job s p).hoists ≠ [] ∨ (job s p).restore.isSome = true) →
        exec (.ckptRestore ag p b) s = .next (setF s (rCkptStatus p) fCkptStatusFailed 1)) ∧
      ((slotHeader s p b).isSome = true → (job s p).upd = none → (job s p).hoists = [] → (job s p).restore = none →
        ∃ t, exec (.ckptRestore ag p b) s = .next t ∧ (job t p).restore = some b ∧ getF t (rCkptStatus p) fCkptStatusState = 2 ∧ SameMemory s t))) ∧
  (∀ (s : State) (p : Fin 16), (job s p).restore = none → exec (.restoreDone p) s = .next s) ∧
  (∀ (s : State) (p : Fin 16) (b : Bool), (job s p).restore = some b → slotHeader s p b = none →
    ∃ t, exec (.restoreDone p) s = .next t ∧ (job t p).restore = none ∧ getF t (rCkptStatus p) fCkptStatusFailed = 1 ∧ (job t p).awaited = (job s p).awaited ∧ SameMemory s t) ∧
  (∀ (s s1 s2 u : State) (p : Fin 16) (b : Bool) (h : Bytes) (ls : List (List Piece)), (job s p).restore = some b → slotHeader s p b = some h →
    bulkSpan s (segAddr s p 0) (max 1 (64 * min 65536 (u32At h 12))) = true → bulkSpan s (gchkAddr s p 0) (65536 * 32) = true →
    hubWaits s (segAddr s p 0) (64 * min 65536 (u32At h 12)) = false → hubWaits s (gchkAddr s p 0) (65536 * 32) = false → gatherReady s p = (s1, true) →
    (let n := min 65536 (u32At h 12)
     let lpn := slotLpn s p b
     let a := pageCopy s1 (segAddr s1 p 0) (lpn + 1) (64 * n)
     let c := pageCopy a (gchkAddr a p 0) (lpn + 1 + tablePages n) (65536 * 32)
     restoreReach c p (allHanks c p n) = (s2, .ok ls) ∧ restoreHanks s2 p b n (u64At h 0) (u32At h 8) (allHanks s2 p n) 0 = (u, true)) →
    ∃ t, exec (.restoreDone p) s = .next t ∧ getF t (rStepCur p) fStepCurCurStep = (u64At h 0 + 1) % 2 ^ fStepCurCurStep.width ∧ getF t (rOptT p) fOptTT = u32At h 8 % 2 ^ fOptTT.width ∧
      (job t p).awaited = (u64At h 0 + 1) % 2 ^ 48 ∧ (job t p).restore = none ∧ (job t p).lost = false ∧ (job t p).votedLost = false ∧ (∀ x ∈ t.fab.halySeen, x.1 ≠ p.val) ∧ t.mem = u.mem)

/-! ### Power, clocks and resets -/

/-- Input power (R410 to R413): a sample below 41 V is a dip, shown and counted once until it recovers, and resets nothing; 100 µs at or above 42 V end it; below 38 V the power-fail sequence runs from a running module, and one that a thermal shutdown turned off has its input cycled; an over-voltage of up to 1 ms does nothing more than be timed. The hold-up bank is ready only with PWR_GOOD. Start-up (R410, R431, R432): a module off starts when its input has been at or above 42 V for 100 ms; a step that may run ends in order and START_STATE shows it; step 3 samples the straps once after a power-on and leaves them afterwards (R362); one that may not, changes nothing; the fabric is ready only when its step may run, and every port has settled; a start that has not ended after 90 s shows the step it stopped at. When a dip is counted is the model's reading (log 92). Rows completed: INPUT_WARNING, WARNING_RECOVERY, POWER_FAIL, OVER_VOLTAGE, HOLDUP_READY, START_UP, FABRIC_READY, START_TIMEOUT. -/
def Obligations.PowerAndStartUp : Prop :=
  (
  (∀ (s : State) (mv : Nat), mv < 41000 →
    ∃ t, exec (.inputWarning mv) s = .next t ∧ getF t rPwrStatus fPwrStatusDip = 1 ∧ getF t rPwrStatus fPwrStatusInputMv = mv % 2 ^ fPwrStatusInputMv.width ∧
      t.pow.dips = s.pow.dips + (if getB s rPwrStatus fPwrStatusDip = false ∨ 41000 ≤ getF s rPwrStatus fPwrStatusInputMv then 1 else 0) ∧
      t.pow.lowAt = s.time ∧ SameRegsBut [rPwrStatus.key] s t ∧ SameMemory s t) ∧
  (∀ (s : State) (mv : Nat), 41000 ≤ mv →
    ∃ t, exec (.inputWarning mv) s = .next t ∧ getF t rPwrStatus fPwrStatusDip = getF s rPwrStatus fPwrStatusDip ∧ t.pow.dips = s.pow.dips ∧ SameMemory s t) ∧
  (∀ (s : State) (mv : Nat), 42000 ≤ mv → getB s rPwrStatus fPwrStatusDip = true →
    (s.pow.lowAt + 100000 ≤ s.time →
      ∃ t, exec (.warningRecovery mv) s = .next t ∧ getF t rPwrStatus fPwrStatusDip = 0 ∧ t.pow.dips = 0 ∧ SameMemory s t) ∧
    (s.time < s.pow.lowAt + 100000 → ∃ t, exec (.warningRecovery mv) s = .next t ∧ getF t rPwrStatus fPwrStatusDip = 1 ∧ t.pow.dips = s.pow.dips ∧ SameMemory s t)) ∧
  (∀ (s : State) (mv : Nat), mv < 38000 →
    (s.pow.mode = 1 →
      ∃ t, exec (.powerFail mv) s = .next t ∧ t.pow.mode = 0 ∧ t.pow.pwrGood = false ∧ t.time = 0 ∧ t.eng.spools = [] ∧ t.fab.conns = [] ∧
        (∀ a, inFlash a = false → byteAt t a = 0)) ∧
    (s.pow.mode = 2 → ∃ t, exec (.powerFail mv) s = .next t ∧ t.pow.mode = 0 ∧ t.pow.pwrGood = false ∧ t.time = 0 ∧
      (∀ k d, objDesc k = some d → d.acc = .rw → k ≠ oSpareCoresLeft → objBytes t k = objDefault k)) ∧
    (s.pow.mode = 0 → ∃ t, exec (.powerFail mv) s = .next t ∧ t.pow.mode = 0 ∧ t.pow.above42 = none ∧ SameMemory s t)) ∧
  (∀ (s : State) (mv : Nat), 38000 ≤ mv → ∃ t, exec (.powerFail mv) s = .next t ∧ t.pow.mode = s.pow.mode ∧ t.pow.pwrGood = s.pow.pwrGood ∧ t.eng = s.eng ∧ SameMemory s t) ∧
  (∀ (s : State) (mv : Nat), 59500 < mv → (s.pow.overSince = none ∨ ∃ t0, s.pow.overSince = some t0 ∧ s.time ≤ t0 + oneMs) →
    ∃ t, exec (.overVoltage mv) s = .next t ∧ t.pow.overSince.isSome = true ∧ t.pow.mode = s.pow.mode ∧ SameMemory s t) ∧
  (∀ (s : State) (mv : Nat), mv ≤ 59500 → ∃ t, exec (.overVoltage mv) s = .next t ∧ t.pow.overSince = none ∧ t.pow.mode = s.pow.mode ∧ SameMemory s t) ∧
  (∀ (s : State) (mv t0 : Nat), 59500 < mv → s.pow.overSince = some t0 → t0 + oneMs < s.time → s.pow.mode = 1 →
    ∃ t, exec (.overVoltage mv) s = .next t ∧ t.pow.mode = 0 ∧ t.pow.pwrGood = false) ∧
  (∀ s : State, (s.pow.pwrGood = true → exec .holdupReady s = .next (setF s rPwrStatus fPwrStatusHoldupReady 1)) ∧ (s.pow.pwrGood = false → exec .holdupReady s = .next s))) ∧
  (
  (∀ (s : State) (mv : Nat), s.pow.mode = 0 → 42000 ≤ mv →
    (s.pow.above42 = none → ∃ t, exec (.startUp (.condition mv)) s = .next t ∧ t.pow.above42 = some s.time ∧ t.pow.mode = 0 ∧ SameMemory s t) ∧
    (∀ t0, s.pow.above42 = some t0 → s.time < t0 + 100 * oneMs → ∃ t, exec (.startUp (.condition mv)) s = .next t ∧ t.pow.above42 = some t0 ∧ t.pow.mode = 0 ∧ SameMemory s t) ∧
    (∀ t0, s.pow.above42 = some t0 → t0 + 100 * oneMs ≤ s.time → s.sec.bootFail = false → 8 ∉ s.pow.ended →
      ∃ t, exec (.startUp (.condition mv)) s = .next t ∧ t.pow.mode = 1 ∧ t.pow.ended = s.pow.ended ++ [1] ∧ t.pow.startAt = t0 ∧ objNat t oStartState = 1)) ∧
  (∀ (s : State) (mv : Nat), s.pow.mode = 0 → mv < 42000 → ∃ t, exec (.startUp (.condition mv)) s = .next t ∧ t.pow.above42 = none ∧ t.pow.mode = 0 ∧ SameMemory s t) ∧
  (∀ (s : State) (mv : Nat), s.pow.mode ≠ 0 → ∃ t, exec (.startUp (.condition mv)) s = .next t ∧ getF t rPwrStatus fPwrStatusInputMv = mv % 2 ^ fPwrStatusInputMv.width ∧ t.pow.mode = s.pow.mode ∧
    t.pow.ended = s.pow.ended ∧ SameMemory s t) ∧
  (∀ (s : State) (x : BitVec 2) (i : BitVec 3), stepRuns s 2 = true → s.sec.bootFail = false → 8 ∉ s.pow.ended →
    ∃ t, exec (.startUp (.ends 2 x i)) s = .next t ∧ t.pow.pwrGood = true ∧ t.pow.ended = s.pow.ended ++ [2] ∧ objNat t oStartState = 2 ∧ t.regs = s.regs ∧ SameMemory s t) ∧
  (∀ (s : State) (k : Fin 13) (x : BitVec 2) (i : BitVec 3),
    (2 ≤ k.val → k.val ≠ 12 → stepRuns s k = true → exec (.startUp (.ends k x i)) s = .next (endStep s k x i)) ∧
    (k.val = 3 → stepRuns s k = true → s.sec.bootFail = false → ∃ t, exec (.startUp (.ends k x i)) s = .next t ∧ t.pow.strapped = true ∧ t.pow.ended = s.pow.ended ++ [3] ∧ t.regs = s.regs ∧ SameMemory s t ∧
      (s.pow.strapped = false → t.pow.testSel = x.toNat ∧ t.pow.idStrap = i.toNat) ∧ (s.pow.strapped = true → t.pow.testSel = s.pow.testSel ∧ t.pow.idStrap = s.pow.idStrap)) ∧
    (k.val < 2 → exec (.startUp (.ends k x i)) s = .next s) ∧
    (k.val = 12 → exec (.startUp (.ends k x i)) s = exec .fabricReady s) ∧
    (stepRuns s k = true → ∃ t, exec (.startUp (.fails k)) s = .next t ∧ t.pow.failedStep = some k.val ∧ t.pow.ended = s.pow.ended ∧ t.regs = s.regs ∧ t.dict = s.dict ∧ SameMemory s t) ∧
    (k.val ≠ 12 → stepRuns s k = false → exec (.startUp (.ends k x i)) s = .next s ∧ exec (.startUp (.fails k)) s = .next s)) ∧
  (∀ s : State, (stepRuns s 12 = true → fabricStarts s = true → portsSettled s = true → s.pow.stopped = false →
      ∃ t, exec .fabricReady s = .next t ∧ t.fab.ready = true ∧ t.pow.ended = s.pow.ended ++ [12] ∧ objNat t oStartState = 12 ∧
        objNat t oStartTimeMs = (s.time - s.pow.startAt) / 1000000 % 2 ^ 32 ∧ t.regs = s.regs ∧ SameMemory s t) ∧
    ((stepRuns s 12 = false ∨ fabricStarts s = false ∨ portsSettled s = false) → exec .fabricReady s = .next s)) ∧
  (∀ s : State, s.pow.mode = 1 → s.pow.startAt + 90 * oneSecond ≤ s.time → s.pow.ended.elem 12 = false → objNat s oStartState ≠ 13 →
    (∀ k, s.pow.failedStep = some k → exec .startTimeout s = .next (setObjNat s oStartState 1 (128 + k))) ∧
    (s.pow.failedStep = none → ∃ k, 1 ≤ k ∧ k < 13 ∧ k ∉ s.pow.ended ∧ (∀ j, 1 ≤ j → j < k → j ∈ s.pow.ended) ∧ exec .startTimeout s = .next (setObjNat s oStartState 1 (128 + k)))) ∧
  (∀ s : State, (s.pow.mode ≠ 1 ∨ s.time < s.pow.startAt + 90 * oneSecond ∨ s.pow.ended.elem 12 = true ∨ objNat s oStartState = 13) → exec .startTimeout s = .next s))

/-- Heat and clocks (R414 to R419): the power limit moves by 50 MHz between 800 and 1,800 MHz, downward from the clock in force, and a single sample beyond 3,300 W is a peak; a compute die or stack at its limit is throttled one step and the alert asserted, and steps back once it is 3 °C below and nothing else holds the die; a server die gives up its boost, then 100 MHz a step; the hub die at its limit pauses migration and halves the Carder; a sensor at its shutdown limit turns a running module off, one below it does not, and a module that is off stays as it is. ARRAY_CLK_MHZ and SC_CLK_MHZ set the clock of one array or core; how far a boosting core runs above its clock is free. One step of the limit for each event is the model's (log 92). Rows completed: POWER_CAP_SAMPLE, THERMAL_THROTTLE, THERMAL_SHUTDOWN, COOLANT_ALERT, ARRAY_CLK_MHZ, SC_CLK_MHZ. -/
def Obligations.HeatAndClocks : Prop :=
  (∀ (s : State) (avg w : Nat),
    ∃ t, exec (.powerCapSample avg w) s = .next t ∧ getF t rPwrStatus fPwrStatusPowerW = avg % 2 ^ fPwrStatusPowerW.width ∧
      (objNat s oPowerCap < avg → t.pow.capMhz = max 800 (min s.pow.capMhz (objNat s oArrayClkMhz) - 50)) ∧
      (avg ≤ objNat s oPowerCap → 100 * avg < 95 * objNat s oPowerCap → t.pow.capMhz = min 1800 (s.pow.capMhz + 50)) ∧
      (avg ≤ objNat s oPowerCap → 95 * objNat s oPowerCap ≤ 100 * avg → t.pow.capMhz = s.pow.capMhz) ∧
      (3300 < w → getF t rPwrStatus fPwrStatusPeak = 1) ∧ (w ≤ 3300 → avg < objNat s oPowerCap → getF t rPwrStatus fPwrStatusPeak = 0) ∧
      SameRegsBut [rPwrStatus.key] s t ∧ SameMemory s t) ∧
  (∀ (s : State) (d : Fin 8) (x : Sensor) (lim c : Int), (x = .computeDie d ∨ x = .stack d) → throttleLimit s x = some lim →
    ∃ t, exec (.thermalThrottle x c) s = .next t ∧ SameRegsBut [rPwrStatus.key] s t ∧ SameMemory s t ∧
      (lim ≤ c → t.pow.throttled.elem x = true ∧ getF t rPwrStatus fPwrStatusThermal = 1 ∧ t.pow.thermAlertN = false ∧ dieMhz t d = max 800 (min (dieMhz s d) (min s.pow.capMhz (objNat s oArrayClkMhz)) - 50)) ∧
      (c < lim - 3 → t.pow.throttled.elem x = false ∧ (dieHot t d = true → dieMhz t d = dieMhz s d) ∧ (dieHot t d = false → dieMhz t d = min 1800 (dieMhz s d + 50))) ∧
      (lim - 3 ≤ c → c < lim → t.pow.throttled = s.pow.throttled ∧ dieMhz t d = dieMhz s d) ∧
      (x = .stack d → (t.pow.stackHot.elem d.val = true ↔ 85 < c))) ∧
  (∀ (s : State) (n : Fin 2) (c : Int),
    ∃ t, exec (.thermalThrottle (.serverDie n) c) s = .next t ∧ (t.pow.throttled.elem (.serverDie n) = true ↔ 100 ≤ c) ∧ SameRegsBut [rPwrStatus.key] s t ∧ SameMemory s t ∧
      (100 ≤ c → t.pow.boostOff.elem n.val = true ∧
        scLimit t n = (if s.pow.boostOff.elem n.val then max 1200 (min (scLimit s n) (objNat s oScClkMhz) - 100) else scLimit s n)) ∧
      (c < 100 → (scLimit s n < objNat s oScClkMhz → scLimit t n = scLimit s n + 100 ∧ t.pow.boostOff = s.pow.boostOff) ∧
        (objNat s oScClkMhz ≤ scLimit s n → scLimit t n = 3600 ∧ t.pow.boostOff.elem n.val = false))) ∧
  (∀ (s : State) (c : Int),
    ∃ t, exec (.thermalThrottle .hubDie c) s = .next t ∧ (t.pow.migPaused = true ↔ 100 ≤ c) ∧ (t.pow.carderHalf = true ↔ 100 ≤ c) ∧ SameRegsBut [rPwrStatus.key] s t ∧ SameMemory s t) ∧
  (∀ (s : State) (c : Int), ∃ t, exec (.thermalThrottle .coolantOutlet c) s = .next t ∧ t.pow = s.pow ∧ t.regs = s.regs ∧ SameMemory s t) ∧
  (∀ (s : State) (x : Sensor) (c : Int), (shutdownLimit x ≤ c → s.pow.mode = 1 → ∃ t, exec (.thermalShutdown x c) s = .next t ∧ t.pow.mode = 2 ∧ t.pow.pwrGood = false ∧ t.time = s.time) ∧
    ((c < shutdownLimit x ∨ s.pow.mode ≠ 1) → ∃ t, exec (.thermalShutdown x c) s = .next t ∧ t.pow = s.pow ∧ t.regs = s.regs ∧ SameMemory s t)) ∧
  (∀ (s : State) (c : Int),
    ∃ t, exec (.coolantAlert c) s = .next t ∧ (t.pow.coolantHot = true ↔ objInt s oCoolantAlertC < c) ∧ (objInt s oCoolantAlertC < c → t.pow.thermAlertN = false) ∧ SameMemory s t) ∧
  (∀ (s : State) (e : Fin 32) (pa qa : Fin 13), qa ≠ pa →
    ∃ t, exec (.arrayClkMhz e pa) s = .next t ∧ (arrAux t e pa).mhz = objNat s oArrayClkMhz ∧ arrAux t e qa = arrAux s e qa ∧ t.regs = s.regs ∧ SameMemory s t) ∧
  (∀ (s : State) (c k : Fin 128) (w : Nat) (x : Int), k ≠ c →
    ∃ t f, exec (.scClkMhz c w x) s = .next t ∧ mapGet t.pow.coreMhz c.val 0 = min (objNat s oScClkMhz + 100 * f) (scLimit s (c.val / 64)) ∧
      (mayBoost s c w x = false → f = 0) ∧ f ≤ (3600 - objNat s oScClkMhz) / 100 ∧
      mapGet t.pow.coreMhz k.val 0 = mapGet s.pow.coreMhz k.val 0 ∧ t.regs = s.regs ∧ SameMemory s t)

/-- Engine power (R420 to R425): a request is recorded, and wakes an engine that is not ACTIVE; an engine that is not idle enters no lower state, an idle one enters IDLE at once and a deeper one when it has drained; one that must wake is ACTIVE again, its generation one higher after DOZE and OFF, and performs the accesses held for it in their order; another stays. Resets of units (R425 to R430): a forced ENG_RESET loses the engine's contexts and raises its generation, other engines staying; an unforced one waits for what it owes; a die number that does not exist, and the hub's, reset nothing, a die's reset raises the generations of its units; a departure without a reset under way changes nothing; CORE_HOLD is the partition's own cores' alone; a faulty core is replaced by a spare, or removed once none is left. Accesses held for a sleeping engine land at its wake (log 40), the scope of an engine reset is the model's (log 91). Rows completed: ENG_PWR_REQ, POWER_STATE_ENTRY, ENGINE_WAKE, ENG_RESET, DIE_RESET, DEPARTURE_TIMEOUT, CORE_HOLD, SERVER_CORE_FAULT, SPINDLE_CORE_FAULT. -/
def Obligations.EnginesAndUnitsSleepAndReset : Prop :=
  (
  (∀ (s : State) (ag : Agent) (e : Fin 32) (x : BitVec 2), regRight s ag (rEngPwr e).key = true →
    ∃ t, exec (.engPwrReq ag e x) s = .next t ∧ getF t (rEngPwr e) fEngPwrReq = x.toNat ∧ getF t (rEngPwr e) fEngPwrState = getF s (rEngPwr e) fEngPwrState ∧
      (engActive s e = false → (engAux t e).wake = true) ∧ SameRegsBut [(rEngPwr e).key] s t ∧ SameMemory s t) ∧
  (∀ (s : State) (e : Fin 32), (engIdle s e = false ∨ (engAux s e).wake = true ∨ deepest s e (s.time - (engAux s e).idleSince.getD 0) ≤ getF s (rEngPwr e) fEngPwrState) →
    exec (.powerStateEntry e) s = .next s) ∧
  (∀ (s : State) (e : Fin 32), engIdle s e = true → (engAux s e).wake = false → getF s (rEngPwr e) fEngPwrState = psActive → deepest s e (s.time - (engAux s e).idleSince.getD 0) = psIdle →
    ∃ t, exec (.powerStateEntry e) s = .next t ∧ getF t (rEngPwr e) fEngPwrState = psIdle ∧ SameRegsBut [(rEngPwr e).key] s t ∧ SameUnits s t) ∧
  (∀ (s : State) (e : Fin 32) (st : Nat), engIdle s e = true → (engAux s e).wake = false → deepest s e (s.time - (engAux s e).idleSince.getD 0) = st → psIdle < st →
    getF s (rEngPwr e) fEngPwrState < st →
    (engDrained (drainEngine s e) e = true → exec (.powerStateEntry e) s = .next (enterState (drainEngine s e) e st) ∧ getF (enterState (drainEngine s e) e st) (rEngPwr e) fEngPwrState = st) ∧
    (engDrained (drainEngine s e) e = false → exec (.powerStateEntry e) s = .next (drainEngine s e))) ∧
  (∀ (s : State) (e : Fin 32), mustWake s e = false → exec (.engineWake e) s = .next s) ∧
  (∀ (s : State) (e : Fin 32), mustWake s e = true → exec (.engineWake e) s = .next ((engAux s e).heldWake.foldl performHeld (wakeEngine s e)) ∧
    getF (wakeEngine s e) (rEngPwr e) fEngPwrState = psActive ∧ (engAux (wakeEngine s e) e).wake = false ∧ (engAux (wakeEngine s e) e).heldWake = [] ∧
    (engAux (wakeEngine s e) e).idleSince = some s.time ∧ SameMemory s (wakeEngine s e) ∧
    unitGen (wakeEngine s e) (.engine e) =
      (if getF s (rEngPwr e) fEngPwrState = psDoze ∨ getF s (rEngPwr e) fEngPwrState = psOff then (unitGen s (.engine e) + 1) % 2 ^ 32 else unitGen s (.engine e)))) ∧
  (
  (∀ (s : State) (ag : Agent) (e : Fin 32), regRight s ag (rEngReset e).key = true →
    (∃ t, exec (.engReset ag e true) s = .next t ∧ unitGen t (.engine e) = (unitGen s (.engine e) + 1) % 2 ^ 32 ∧ getF t (rEngPwr e) fEngPwrState = 0 ∧
      (∀ n : Fin 16, getB t (rCtxCfg e n) fCtxCfgValid = false) ∧ (∀ x, Outside x (sramAddr e 0) sramBytes → s.hub.dir = [] → byteAt t x = byteAt s x)) ∧
    (engDrained (drainEngine (clearContexts s e) e) e = true → exec (.engReset ag e false) s = .next (finishEngReset (drainEngine (clearContexts s e) e) e false)) ∧
    (engDrained (drainEngine (clearContexts s e) e) e = false →
      ∃ t, exec (.engReset ag e false) s = .next t ∧ (engAux t e).depart = some (drainEngine (clearContexts s e) e).time ∧ t.regs = (drainEngine (clearContexts s e) e).regs)) ∧
  (∀ (s : State) (ag : Agent) (d : BitVec 4) (f : Bool), regRight s ag rDieReset.key = true → (12 ≤ d.toNat ∨ d.toNat = 10) → exec (.dieReset ag d f) s = .next s) ∧
  (∀ (s : State) (ag : Agent) (f : Bool), regRight s ag rDieReset.key = true →
    ∃ t, exec (.dieReset ag 11 f) s = .next t ∧ mapGet t.pow.gens (.die 11) 0 = (mapGet s.pow.gens (.die 11) 0 + 1) % 2 ^ 32 ∧ SameMemory s t) ∧
  (∀ (s : State) (ag : Agent) (d : BitVec 4) (f : Bool), regRight s ag rDieReset.key = true → (8 ≤ d.toNat ∧ d.toNat < 10) ∨ (d.toNat < 8 ∧ f = true) →
    ∃ t, exec (.dieReset ag d f) s = .next t ∧ unitGen t (.die (Fin.ofNat 12 d.toNat)) = (unitGen s (.die (Fin.ofNat 12 d.toNat)) + 1) % 2 ^ 32 ∧
      (d.toNat < 8 → ∀ k < 4, unitGen t (.engine (Fin.ofNat 32 (4 * d.toNat + k))) = (unitGen s (.engine (Fin.ofNat 32 (4 * d.toNat + k))) + 1) % 2 ^ 32) ∧
      (8 ≤ d.toNat → ∀ k < 64, unitGen t (.core (Fin.ofNat 128 (64 * (d.toNat - 8) + k))) = (unitGen s (.core (Fin.ofNat 128 (64 * (d.toNat - 8) + k))) + 1) % 2 ^ 32)) ∧
  (∀ (s : State) (e : Fin 32), (engAux s e).depart = none → exec (.departureTimeout (.engine e)) s = .next s) ∧
  (∀ (s : State) (e : Fin 32) (t0 : Nat), (engAux s e).depart = some t0 →
    (engDrained s e = true → exec (.departureTimeout (.engine e)) s = .next (finishEngReset s e false)) ∧
    (engDrained s e = false → s.time < t0 + 100000 → exec (.departureTimeout (.engine e)) s = .next s) ∧
    (engDrained s e = false → t0 + 100000 ≤ s.time → exec (.departureTimeout (.engine e)) s = .next (finishEngReset s e true))) ∧
  (∀ (s : State) (d : Fin 12), (mapFind s.pow.departs (.die d) = none → exec (.departureTimeout (.die d)) s = .next s) ∧
    (∀ t0, mapFind s.pow.departs (.die d) = some t0 →
      ((dieEngines d).all (engDrained s) = true → exec (.departureTimeout (.die d)) s = .next (finishDie s d false)) ∧
      ((dieEngines d).all (engDrained s) = false → t0 + 100000 ≤ s.time → exec (.departureTimeout (.die d)) s = .next (finishDie s d true)))) ∧
  (∀ (s : State) (ag : Agent) (p : Fin 16) (w : Fin 2) (v : BitVec 64), regRight s ag (rCoreHold p w).key = true → (∀ i < 64, coreOwner s (64 * w.val + i) ≠ some p.val) →
    exec (.coreHold ag p w v) s = .next s) ∧
  (∀ (s : State) (ag : Agent) (p : Fin 16) (w : Fin 2) (v : BitVec 64) (i : Nat), regRight s ag (rCoreHold p w).key = true → i < 64 → coreOwner s (64 * w.val + i) = some p.val →
    (∀ j < 64, j ≠ i → v.getLsbD j = (getR s (rCoreHold p w)).getLsbD j) →
    ((getR s (rCoreHold p w)).getLsbD i = true → v.getLsbD i = false →
      ∃ t, exec (.coreHold ag p w v) s = .next t ∧ (getR t (rCoreHold p w)).getLsbD i = false ∧ mapFind t.pow.corePc (64 * w.val + i) = some (BitVec.ofNat 64 (4 * getF s (rCoreBoot p) fCoreBootAddr)) ∧
        SameMemory s t) ∧
    ((getR s (rCoreHold p w)).getLsbD i = false → v.getLsbD i = true →
      ∃ t, exec (.coreHold ag p w v) s = .next t ∧ (getR t (rCoreHold p w)).getLsbD i = true ∧ mapFind t.pow.corePc (64 * w.val + i) = none ∧
        unitGen t (.core (Fin.ofNat 128 (64 * w.val + i))) = (unitGen s (.core (Fin.ofNat 128 (64 * w.val + i))) + 1) % 2 ^ 32)) ∧
  (∀ (s : State) (c : Fin 128), s.rel.removedCores.elem c.val = true → exec (.serverCoreFault c) s = .next s) ∧
  (∀ (s : State) (c : Fin 128), s.rel.removedCores.elem c.val = false →
    (2 ≤ mapGet s.rel.spareCores (c.val / 64) 0 →
      ∃ t, exec (.serverCoreFault c) s = .next t ∧ t.rel.removedCores.elem c.val = true ∧ t.rel.spareCores = s.rel.spareCores ∧ mapFind t.pow.corePc c.val = none) ∧
    (mapGet s.rel.spareCores (c.val / 64) 0 < 2 →
      ∃ t, exec (.serverCoreFault c) s = .next t ∧ t.rel.removedCores = s.rel.removedCores ∧ mapGet t.rel.spareCores (c.val / 64) 0 = mapGet s.rel.spareCores (c.val / 64) 0 + 1 ∧
        unitGen t (.core c) = (unitGen s (.core c) + 1) % 2 ^ 32 ∧ mapFind t.pow.corePc c.val = none ∧
        (s.rel.repairMap.length < repairCap → t.rel.repairMap.length = s.rel.repairMap.length + 1))) ∧
  (∀ (s : State) (c : CoreId), (engAux s c.e).deadCores.elem c.k.val = true → exec (.spindleCoreFault c) s = .next s) ∧
  (∀ (s : State) (c : CoreId), (engAux s c.e).deadCores.elem c.k.val = false → coreState s c.e c.k ≠ cRunning →
    ∃ t, exec (.spindleCoreFault c) s = .next t ∧ (engAux t c.e).deadCores.elem c.k.val = true ∧ coreState t c.e c.k = cReset ∧
      (s.rel.repairMap.length < repairCap → t.rel.repairMap.length = s.rel.repairMap.length + 1)))

/-- Module reset (R15, R236, R425, R431, R432, R467): it keeps the flash but for the programs it cuts short, the time, the fused version, the repair map and the dictionary's RW and RWP values, and loses every other memory, every command and every connection; MOD_RST_N resets the module at its twentieth low sample and holds it until its rising edge. What memory reads after the reset (logs 2, 93) and that RWS values outlast it (log 136) are the model's choices. Rows completed: MODULE_RESET, MOD_RST_N, MOD_RST_N_RISING_EDGE. -/
def Obligations.ModuleResetsKeepWhatOutlastsThem : Prop :=
  (∀ s : State, ∃ t, exec .moduleReset s = .next t ∧ t.time = s.time ∧ t.pow.mode = 1 ∧ t.sec.fuseSvn = s.sec.fuseSvn ∧ t.rel.repairMap = s.rel.repairMap ∧
    ((s.dev.flQ = [] ∨ flashRuns s = false) → ∀ a, inFlash a = true → byteAt t a = byteAt s a) ∧ (∀ a, inFlash a = false → byteAt t a = 0) ∧
    (∀ k, objOutlasts false k = true → k ≠ oStartState → objBytes t k = objBytes s k) ∧
    t.eng.spools = [] ∧ t.fab.conns = [] ∧ t.hub.dir = [] ∧ t.jobs = [] ∧ (s.pow.mode ≠ 2 → t.pow.ended = [1, 2] ∧ objNat t oStartState = 2)) ∧
  (∀ s : State, (s.pow.pwrGood = true ∨ s.pow.mode = 2) →
    (∃ t, exec (.modRstN false) s = .next t ∧ t.pow.modRstLow = 0 ∧ t.regs = s.regs ∧ SameMemory s t) ∧
    (s.pow.modRstLow ≠ 19 → ∃ t, exec (.modRstN true) s = .next t ∧ t.pow.modRstLow = s.pow.modRstLow + 1 ∧ t.pow.mode = s.pow.mode ∧ t.regs = s.regs ∧ SameMemory s t) ∧
    (s.pow.modRstLow = 19 → ∃ t, exec (.modRstN true) s = .next t ∧ t.pow.heldInReset = true ∧ t.pow.mode = 1 ∧ t.eng.spools = [] ∧ t.jobs = [])) ∧
  (∀ s : State, s.pow.pwrGood = false → s.pow.mode ≠ 2 → exec (.modRstN true) s = .next s ∧ exec (.modRstN false) s = .next s) ∧
  (∀ s : State, ∃ t, exec .modRstNRisingEdge s = .next t ∧ t.pow.heldInReset = false ∧ t.pow.modRstLow = 0 ∧ t.regs = s.regs ∧ SameMemory s t)

/-- R402: for SEVERITY UNIT_REMOVED and SERVICE the module also raises an I3C in-band interrupt, and ERR_LAST holds the record; for the others it raises none. -/
def Obligations.RemovalAndServiceRaiseTheInBandInterrupt : Prop :=
  ∀ (s : State) (i : ErrInfo) (owner : Option Nat),
    ((i.sev = 2 ∨ i.sev = 3) → (logError s i owner).rel.ibi = s.rel.ibi + 1 ∧
      ∀ w < 4, getR (logError s i owner) (rErrLast w) = BitVec.ofNat 64 (u64At (errBytes s i (errRing.phase s) 0) (8 * w))) ∧
    ((i.sev = 0 ∨ i.sev = 1) → (logError s i owner).rel.ibi = s.rel.ibi)

/-- The event recorder (R400 to R406): an epoch closes after EVR_EPOCH_S and starts the next, its record appended where the region has room; the record that does not fit sets FULL, and each epoch that closes while FULL is counted as DISCARDED; a read of the window's whole word takes eight bytes at the cursor, a half reads 0, at the end it reads 0 and moves nothing; EVR_CLEAR empties the region. Numbers of discarded epochs are the model's (log 95). Rows completed: EPOCH_CLOSE, EVR_WINDOW, EVR_CLEAR. -/
def Obligations.TheEventRecorder : Prop :=
  (∀ s : State, (s.time < s.rel.epochStart + objNat s oEvrEpochS * oneSecond ∨ flashRuns s = false) → exec .epochClose s = .next s) ∧
  (∀ s : State, s.rel.epochStart + objNat s oEvrEpochS * oneSecond ≤ s.time → flashRuns s = true →
    ∃ t, exec .epochClose s = .next t ∧ t.rel.epochStart = s.time ∧ t.rel.epoch = [] ∧ t.rel.events = [] ∧ t.rel.evrSeq = s.rel.evrSeq + 1 ∧
      (getB s rEvrStatus fEvrStatusFull = true → t.rel.region = s.rel.region ∧
        getF t rEvrStatus fEvrStatusDiscarded = min (getF s rEvrStatus fEvrStatusDiscarded + 1) (2 ^ fEvrStatusDiscarded.width - 1)) ∧
      (getB s rEvrStatus fEvrStatusFull = false → s.rel.region.length + (evrRecord s false s.freeCtr).length ≤ evrRegionBytes → t.rel.region = s.rel.region ++ evrRecord s false s.freeCtr) ∧
      (getB s rEvrStatus fEvrStatusFull = false → evrRegionBytes < s.rel.region.length + (evrRecord s false s.freeCtr).length → t.rel.region = s.rel.region ∧
        getB t rEvrStatus fEvrStatusFull = true ∧ getF t rEvrStatus fEvrStatusDiscarded = getF s rEvrStatus fEvrStatusDiscarded) ∧
      (∃ r, t.rel.region = s.rel.region ++ r) ∧ t.dict = s.dict ∧ SameMemory s t) ∧
  (∀ (s : State) (ag : Agent), regRight s ag (rEvrWindow 0).key = true → s.rel.region.length ≤ getF s rEvrCursor fEvrCursorOffset / 8 * 8 →
    exec (.evrWindow ag .w64) s = .next (putOut s 0)) ∧
  (∀ (s : State) (ag : Agent) (c : Nat), regRight s ag (rEvrWindow 0).key = true → getF s rEvrCursor fEvrCursorOffset = 8 * c → 8 * c < s.rel.region.length →
    ∃ t, exec (.evrWindow ag .w64) s = .next t ∧ t.mgmt.regOut = s.mgmt.regOut ++ [BitVec.ofNat 64 (u64At s.rel.region (8 * c))] ∧
      getF t rEvrCursor fEvrCursorOffset = (8 * c + 8) % 2 ^ fEvrCursorOffset.width ∧ t.rel = s.rel ∧ SameMemory s t) ∧
  (∀ (s : State) (ag : Agent), regRight s ag (rEvrWindow 0).key = true → exec (.evrWindow ag .lo32) s = .next (putOut s 0) ∧ exec (.evrWindow ag .hi32) s = .next (putOut s 0)) ∧
  (∀ (s : State) (ag : Agent) (a : RegAccess), regRight s ag (rEvrWindow 0).key = false → exec (.evrWindow ag a) s = .next (putOut (violation s) 0)) ∧
  (∀ (s : State) (t : Triple), s.sec.actions = [t] → t.names oEvrClear = true → leNat t.value ≠ 0 →
    ∃ u, exec .evrClear s = .next u ∧ u.rel.region = [] ∧ getR u rEvrCursor = 0 ∧ getR u rEvrEnd = 0 ∧ getR u rEvrStatus = 0 ∧ u.sec.actions = [] ∧ SameMemory s u) ∧
  (∀ s : State, s.sec.actions = [] → exec .evrClear s = .next s)

/-! ### Security and management -/

/-! ### Security and management -/

/-- Staged sets (R383, R384): OPEN takes a set that is free, applied or refused for its session's credential; SEAL by that credential shows the digest of its items; CONFIRM of a set that is not sealed, or by its own credential, is refused; ABORT by its credential, and an hour without confirmation, discard it; without a session none of them changes anything. What a confirmed set starts (R375, R379 to R385): with nothing confirmed the rows change nothing. FW_IMAGE fills the slot that does not run; SVN_COMMIT raises the fused version to the running image's and never lowers it; FW_ACTIVATE of an image that may not boot ends FAILED, and one that names the engine firmware waits while a recompute is queued; LINK_KEY replaces a key and keeps the one before for 10 s; DEBUG_UNLOCK lasts as long as its lease. Details of staging are the model's (logs 41 to 43, 98, 99). Rows completed: STAGE_OPEN, STAGE_SEAL, STAGE_CONFIRM, STAGE_ABORT, STAGE_WINDOW_EXPIRY, LAYOUT_APPLY, FW_IMAGE, SVN_COMMIT, FW_ACTIVATE, LINK_KEY, REPLACED_KEY_EXPIRY, DEBUG_UNLOCK, DEBUG_LEASE_EXPIRY. -/
def Obligations.StagedSetsAndTheirActions : Prop :=
  (
  (∀ (s : State) (k : Nat) (set : Fin 4), sesCred s (some k) = none →
    exec (.stageOpen k set) s = .next s ∧ exec (.stageSeal k set) s = .next s ∧ exec (.stageConfirm k set) s = .next s ∧ exec (.stageAbort k set) s = .next s) ∧
  (∀ (s : State) (k c : Nat) (r : Role) (set : Fin 4), sesCred s (some k) = some (c, r) →
    ((stageState s set = stFree ∨ stageState s set = stApplied ∨ stageState s set = stRefused) → ∃ t, exec (.stageOpen k set) s = .next t ∧ stageState t set = stOpen ∧ (stageSet t set).cred = c ∧ (stageSet t set).items = [] ∧ t.regs = s.regs ∧ SameMemory s t) ∧
    ((stageState s set = stOpen ∨ stageState s set = stSealed ∨ stageState s set = stApplying) → exec (.stageOpen k set) s = .next s) ∧
    (stageState s set = stOpen → (stageSet s set).cred = c → sealedNames s set (stageSet s set).items = false →
      ∃ t, exec (.stageSeal k set) s = .next t ∧ stageState t set = stSealed ∧ (stageSet t set).digest = sha384 ((stageSet s set).items.flatMap Triple.bytes) ∧
        objBytes t (oStageDigest set) = sha384 ((stageSet s set).items.flatMap Triple.bytes) ∧ (stageSet t set).sealedAt = s.time ∧ t.regs = s.regs ∧ SameMemory s t) ∧
    ((stageState s set ≠ stOpen ∨ (stageSet s set).cred ≠ c ∨ sealedNames s set (stageSet s set).items = true) → exec (.stageSeal k set) s = .next s) ∧
    (stageState s set ≠ stSealed → exec (.stageConfirm k set) s = .next s) ∧
    (stageState s set = stSealed → (stageSet s set).sealedAt + windowNs < s.time → exec (.stageConfirm k set) s = .next (discardSet s set stFree)) ∧
    (stageState s set = stSealed → s.time ≤ (stageSet s set).sealedAt + windowNs →
      ((stageSet s set).cred = c ∨ (stageSet s set).role = some r ∨ mayConfirm r (stageSet s set).items = false ∨ mapGet s.sec.confirm k [] ≠ (stageSet s set).digest) → exec (.stageConfirm k set) s = .next s) ∧
    (stageState s set = stSealed → s.time ≤ (stageSet s set).sealedAt + windowNs → (stageSet s set).cred ≠ c → (stageSet s set).role ≠ some r → mayConfirm r (stageSet s set).items = true →
      mapGet s.sec.confirm k [] = (stageSet s set).digest → s.sec.layout = none →
      (setSound s (stageSet s set).items = true → exec (.stageConfirm k set) s = .next (startSet s set (stageSet s set).items (stageSet s set).digest)) ∧
      (setSound s (stageSet s set).items = false → exec (.stageConfirm k set) s = .next (setStage s set stRefused))) ∧
    ((stageState s set = stOpen ∨ stageState s set = stSealed) → (stageSet s set).cred = c →
      ∃ t, exec (.stageAbort k set) s = .next t ∧ stageState t set = stFree ∧ stageSet t set = {} ∧ t.regs = s.regs ∧ SameMemory s t) ∧
    (((stageSet s set).cred ≠ c ∨ (stageState s set ≠ stOpen ∧ stageState s set ≠ stSealed)) → exec (.stageAbort k set) s = .next s)) ∧
  (∀ (s : State) (set : Fin 4), (stageState s set = stSealed → (stageSet s set).sealedAt + windowNs < s.time →
      ∃ t, exec (.stageWindowExpiry set) s = .next t ∧ stageState t set = stFree ∧ stageSet t set = {} ∧ SameMemory s t) ∧
    ((stageState s set ≠ stSealed ∨ s.time ≤ (stageSet s set).sealedAt + windowNs) → exec (.stageWindowExpiry set) s = .next s))) ∧
  (
  (∀ s : State, s.sec.actions = [] → exec .fwImage s = .next s ∧ exec .svnCommit s = .next s ∧ exec (.fwActivate none) s = .next s ∧ exec .debugUnlock s = .next s ∧
    ∀ p q : Fin 16, exec (.nandKeyErase p) s = .next s ∧ exec (.linkKey p q) s = .next s) ∧
  (∀ s : State, s.sec.layout = none → exec .layoutApply s = .next s) ∧
  (∀ (s : State) (l : List Triple) (k : Nat), s.sec.layout = some (l, k) →
    ((∀ f ∈ s.hub.flushQ ++ s.hub.flushWait, ¬(f.all = true ∧ f.drain = true ∧ f.software = false ∧ f.bias = false)) → exec .layoutApply s = .next (switchLayout s l k)) ∧
    ((∃ f ∈ s.hub.flushQ ++ s.hub.flushWait, f.all = true ∧ f.drain = true ∧ f.software = false ∧ f.bias = false) → exec .layoutApply s = .next s)) ∧
  (∀ (s : State) (x : Triple), s.sec.actions = [x] →
    (x.names oFwImage = true → ∃ t, exec .fwImage s = .next t ∧ mapGet t.sec.slots (1 - s.sec.runSlot) (parseImage []) = parseImage x.value ∧ t.sec.runSlot = s.sec.runSlot ∧ t.regs = s.regs ∧ SameMemory s t) ∧
    (x.names oSvnCommit = true → leNat x.value ≠ 0 → ∃ t, exec .svnCommit s = .next t ∧ t.sec.fuseSvn = max s.sec.fuseSvn (image s s.sec.runSlot).svn ∧ t.regs = s.regs ∧ SameMemory s t) ∧
    (x.names oFwActivate = true → (bootable s (1 - s.sec.runSlot) = false ∨ (image s (1 - s.sec.runSlot)).bodyOk = false) →
      ∀ f : Option (Fin 5), ∃ t, exec (.fwActivate f) s = .next t ∧ objNat t oFwActState = 3 ∧ t.sec.runSlot = s.sec.runSlot ∧ t.regs = s.regs ∧ SameMemory s t) ∧
    (x.names oFwActivate = true → bootable s (1 - s.sec.runSlot) = true → (image s (1 - s.sec.runSlot)).bodyOk = true →
      (bitOf (leNat x.value) 3 = true → recomputeQueued s = true → ∀ f : Option (Fin 5), exec (.fwActivate f) s = .next s)) ∧
    (x.names oFwActivate = true → bootable s (1 - s.sec.runSlot) = true → (image s (1 - s.sec.runSlot)).bodyOk = true → (bitOf (leNat x.value) 3 = false ∨ recomputeQueued s = false) →
      (∃ t, exec (.fwActivate none) s = .next t ∧ objNat t oFwActState = 2) ∧
      (∀ f : Fin 5, bitOf (leNat x.value) f.val = true → ∃ t, exec (.fwActivate (some f)) s = .next t ∧ objNat t oFwActState = 3 ∧ t.sec.runSlot = s.sec.runSlot) ∧
      (∀ f : Fin 5, bitOf (leNat x.value) f.val = false → ∃ t, exec (.fwActivate (some f)) s = .next t ∧ objNat t oFwActState = 2)) ∧
    (∀ p q : Fin 16, x.names (oLinkKey p q) = true →
      ∃ t k, exec (.linkKey p q) s = .next t ∧ mapFind t.sec.keys (p.val, q.val) = some k ∧ k.key = x.value.take 32 ∧ k.gen = u16At x.value 32 ∧ k.replacedAt = s.time ∧
        k.prev = (mapFind s.sec.keys (p.val, q.val)).map (fun y => (y.key, y.gen)) ∧ SameMemory s t) ∧
    (x.names oDebugUnlock = true → ∃ t, exec .debugUnlock s = .next t ∧ debugLevel t = natField (leNat x.value) 1 0 ∧
      t.sec.debugUntil = s.time + natField (leNat x.value) 23 8 * 3600 * oneSecond)) ∧
  (∀ (s : State) (p q : Fin 16), mapFind s.sec.keys (p.val, q.val) = none → exec (.replacedKeyExpiry p q) s = .next s) ∧
  (∀ (s : State) (p q : Fin 16) (k : LinkKey), mapFind s.sec.keys (p.val, q.val) = some k →
    (k.replacedAt + 10 * oneSecond ≤ s.time → ∃ t, exec (.replacedKeyExpiry p q) s = .next t ∧ mapFind t.sec.keys (p.val, q.val) = some { k with prev := none } ∧ t.regs = s.regs ∧ SameMemory s t) ∧
    (s.time < k.replacedAt + 10 * oneSecond → exec (.replacedKeyExpiry p q) s = .next s)) ∧
  (∀ s : State, (debugLevel s ≠ 0 → s.sec.debugUntil ≤ s.time → ∃ t, exec .debugLeaseExpiry s = .next t ∧ debugLevel t = 0) ∧
    ((debugLevel s = 0 ∨ s.time < s.sec.debugUntil) → exec .debugLeaseExpiry s = .next s)))

/-- R381: a confirmed NAND_KEY_ERASE for a partition destroys its flash key and generates a new one; every page of its flash share then reads as undefined data, a free value for each byte, and every byte outside the share stays. Row completed: NAND_KEY_ERASE. -/
def Obligations.NandKeyEraseDestroysTheShare : Prop :=
  ∀ (s : State) (x : Triple) (p : Fin 16), s.sec.actions = [x] → x.names (oNandKeyErase p) = true → leNat x.value ≠ 0 →
    ∃ t, exec (.nandKeyErase p) s = .next t ∧ mapGet t.sec.flashKeys p.val 0 = mapGet s.sec.flashKeys p.val 0 + 1 ∧ t.regs = s.regs ∧
      (∀ a, flashBase + objNat s (oPartFlash p) % 2 ^ 32 * pageBytes ≤ a → a < flashBase + objNat s (oPartFlash p) % 2 ^ 32 * pageBytes + objNat s (oPartFlash p) / 2 ^ 32 * pageBytes →
        byteAt t a = Config.freeByte s.freeCtr a) ∧
      (∀ a, Outside a (flashBase + objNat s (oPartFlash p) % 2 ^ 32 * pageBytes) (objNat s (oPartFlash p) / 2 ^ 32 * pageBytes) → byteAt t a = byteAt s a)

/-- The SPDM responder (R377, R378): over a transport that is not in service nothing is answered; GET_VERSION names versions 1.2 and 1.3 and forgets what was agreed; a request before the version, with another version or before the algorithms is answered with an error; every other request is answered with its own response; a session ends with END_SESSION or when it idles. The message codes and layouts are presumed from DSP0274 (log 44, the model's). Rows completed: GET_VERSION, GET_CAPABILITIES, NEGOTIATE_ALGORITHMS, GET_DIGESTS, GET_CERTIFICATE, CHALLENGE, GET_MEASUREMENTS, KEY_EXCHANGE, FINISH, END_SESSION, HEARTBEAT, KEY_UPDATE, SESSION_IDLE. -/
def Obligations.TheSpdmResponder : Prop :=
  (∀ (s : State) (r : SpdmReq), transportUp s r.tr = false →
    ∀ c ∈ [Instr.getVersion r, .getCapabilities r, .negotiateAlgorithms r, .getDigests r, .getCertificate r, .challenge r, .getMeasurements r, .keyExchange r, .finish r, .endSession r, .heartbeat r, .keyUpdate r],
      exec c s = .next s) ∧
  (∀ (s : State) (r : SpdmReq), transportUp s r.tr = true → r.ses = none →
    (∃ t, exec (.getVersion r) s = .next t ∧ (spdmConn t r.tr).version = 0 ∧ t.sec.spdmOut = s.sec.spdmOut ++ [[0x10, 0x04, 0, 0, 0, 2, 0x00, 0x12, 0x00, 0x13]] ∧ SameMemory s t) ∧
    ((r.version = 0x12 ∨ r.version = 0x13) → ∃ t b, exec (.getCapabilities r) s = .next t ∧ (spdmConn t r.tr).version = r.version.toNat ∧ (spdmConn t r.tr).caps = true ∧
      t.sec.spdmOut = s.sec.spdmOut ++ [b] ∧ u8At b 1 = 0x61 ∧ SameMemory s t) ∧
    (r.version ≠ 0x12 → r.version ≠ 0x13 → exec (.getCapabilities r) s = .next (spdmError s r seMismatch)) ∧
    ((spdmConn s r.tr).version = 0 →
      ∀ c ∈ [Instr.negotiateAlgorithms r, .getDigests r, .getCertificate r, .challenge r, .getMeasurements r, .keyExchange r, .finish r, .endSession r, .heartbeat r, .keyUpdate r],
        exec c s = .next (spdmError s r seUnexpected))) ∧
  (∀ (s : State) (r : SpdmReq), transportUp s r.tr = true → r.ses = none → (spdmConn s r.tr).version ≠ 0 → (spdmConn s r.tr).version = r.version.toNat →
    ((spdmConn s r.tr).caps = true → bitOf (u32At r.body 4) 7 = true → bitOf (u32At r.body 8) 1 = true →
      ∃ t b, exec (.negotiateAlgorithms r) s = .next t ∧ (spdmConn t r.tr).algs = true ∧ t.sec.spdmOut = s.sec.spdmOut ++ [b] ∧ u8At b 1 = 0x63 ∧ SameMemory s t) ∧
    ((spdmConn s r.tr).algs = true →
      exec (.getDigests r) s = .next (spdmPut s r.version.toNat spDigests 0 3 (sha384 (Config.certChain 0) ++ sha384 (Config.certChain 1))) ∧
      (∀ part : Bytes, r.param1.toNat < 2 → u16At r.body 0 ≤ (Config.certChain r.param1.toNat).length →
        ((Config.certChain r.param1.toNat).drop (u16At r.body 0)).take (u16At r.body 2) = part →
        exec (.getCertificate r) s = .next (spdmPut s r.version.toNat spCertificate r.param1.toNat 0
          (natLE 2 part.length ++ natLE 2 ((Config.certChain r.param1.toNat).length - u16At r.body 0 - part.length) ++ part))) ∧
      (r.param1.toNat < 2 → ∃ t b, exec (.challenge r) s = .next t ∧ t.sec.spdmOut = s.sec.spdmOut ++ [b] ∧ u8At b 1 = 0x03 ∧ (b.drop 4).take (sha384 (Config.certChain r.param1.toNat)).length = sha384 (Config.certChain r.param1.toNat) ∧ SameMemory s t) ∧
      (2 ≤ r.param1.toNat → exec (.challenge r) s = .next (spdmError s r seInvalid) ∧ exec (.getCertificate r) s = .next (spdmError s r seInvalid)) ∧
      (r.param2.toNat ≤ 8 ∨ r.param2.toNat = 0xFF → ∃ t b, exec (.getMeasurements r) s = .next t ∧ t.sec.spdmOut = s.sec.spdmOut ++ [b] ∧ u8At b 1 = 0x60 ∧ SameMemory s t) ∧
      (r.param2.toNat < 2 → ∃ t b x, exec (.keyExchange r) s = .next t ∧ t.sec.spdmOut = s.sec.spdmOut ++ [b] ∧ u8At b 1 = 0x64 ∧ mapFind t.sec.sessions s.sec.nextSes = some x ∧
        x.established = false ∧ x.tr = r.tr ∧ t.sec.nextSes = s.sec.nextSes + 1 ∧ SameMemory s t))) ∧
  (∀ (s : State) (r : SpdmReq) (n : Nat) (x : Session), transportUp s r.tr = true → r.ses = some n → mapFind s.sec.sessions n = some x → x.tr = r.tr →
    (spdmConn s r.tr).version ≠ 0 → (spdmConn s r.tr).version = r.version.toNat → (spdmConn s r.tr).algs = true →
    (x.established = false → ∀ (c : Nat) (role : Role), Config.spdmSigner r.body = some c → mapFind s.sec.creds c = some role →
      ∃ t, exec (.finish r) s = .next t ∧ sesCred t (some n) = some (c, role) ∧ SameMemory s t) ∧
    (x.established = false → (∀ c : Nat, Config.spdmSigner r.body = some c → mapFind s.sec.creds c = none) →
      ∃ t, exec (.finish r) s = .next t ∧ mapFind t.sec.sessions n = none ∧ SameMemory s t) ∧
    (x.established = true →
      (∃ t b, exec (.endSession r) s = .next t ∧ mapFind t.sec.sessions n = none ∧ t.sec.spdmOut = s.sec.spdmOut ++ [b] ∧ u8At b 1 = 0x6C ∧ SameMemory s t) ∧
      (∃ t b y, exec (.heartbeat r) s = .next t ∧ mapFind t.sec.sessions n = some y ∧ y.heartbeat = s.time ∧ y.last = s.time ∧ t.sec.spdmOut = s.sec.spdmOut ++ [b] ∧ u8At b 1 = 0x68 ∧ SameMemory s t) ∧
      ((r.param1 = 1 ∨ r.param1 = 2) → ∃ t y, exec (.keyUpdate r) s = .next t ∧ mapFind t.sec.sessions n = some y ∧ y.keyGen = x.keyGen + 1 ∧ SameMemory s t))) ∧
  (∀ (s : State) (n : Nat) (x : Session), mapFind s.sec.sessions n = some x →
    (x.last + objNat s oSessionIdle * oneSecond ≤ s.time → ∃ t, exec (.sessionIdle n) s = .next t ∧ mapFind t.sec.sessions n = none ∧ SameMemory s t) ∧
    (s.time < x.last + objNat s oSessionIdle * oneSecond → exec (.sessionIdle n) s = .next s))

/-- Auquin (R434 to R444): a command over a transport out of service is not answered; every other is answered once. A READ of an object that may be read answers its bytes; one that does not exist, or while a transfer is under way, is refused; a WRITE's answer is its object's; a SEGMENT without a transfer is out of sequence; ABORT, and a second without a segment, end the transfer. The order of the checks and the codes of bad segments are the model's (logs 45, 100). Rows completed: AUQUIN_READ, AUQUIN_WRITE, AUQUIN_SEGMENT, AUQUIN_ABORT, SEG_TIMEOUT. -/
def Obligations.AuquinCommandsAreAnswered : Prop :=
  (∀ (s : State) (r : AuqReq), auqLive s r = false → exec (.auquinRead r) s = .next s ∧ exec (.auquinWrite r) s = .next s ∧ exec (.auquinSegment r) s = .next s ∧ exec (.auquinAbort r) s = .next s) ∧
  (∀ (s : State) (r : AuqReq), auqLive s r = true → r.ses = none →
    (xferOf s r.tr = none → readBarred s r (r.index.toNat, r.sub.toNat) = 0 → expeditedObj (r.index.toNat, r.sub.toNat) = true → r.sub = 0 →
      ∃ t a, exec (.auquinRead r) s = .next t ∧ t.mgmt.rsps = s.mgmt.rsps ++ [a] ∧ a.status = aqOk ∧ a.token = r.token ∧ a.expedited = true ∧ a.data = natLE 1 (objHighest r.index.toNat) ∧
        t.regs = s.regs ∧ t.dict = s.dict ∧ SameMemory s t) ∧
    ((xferOf s r.tr).isSome = true → ∃ t a, exec (.auquinRead r) s = .next t ∧ t.mgmt.rsps = s.mgmt.rsps ++ [a] ∧ a.status = aqBusy ∧ t.dict = s.dict ∧ SameMemory s t) ∧
    (xferOf s r.tr = none → readBarred s r (r.index.toNat, r.sub.toNat) ≠ 0 →
      ∃ t a, exec (.auquinRead r) s = .next t ∧ t.mgmt.rsps = s.mgmt.rsps ++ [a] ∧ a.status = readBarred s r (r.index.toNat, r.sub.toNat) ∧ a.data = [] ∧ t.dict = s.dict ∧ SameMemory s t) ∧
    (∀ (t : State) (st : Nat), xferOf s r.tr = none → writeBarred s r (r.index.toNat, r.sub.toNat) = 0 → r.expedited = true → expeditedObj (r.index.toNat, r.sub.toNat) = true → r.data.length ≤ 4 →
      objWrite s r (r.index.toNat, r.sub.toNat) r.data = (t, st) →
      exec (.auquinWrite r) s = .next { t with mgmt := { t.mgmt with rsps := t.mgmt.rsps ++ [auqPlain r opWrite st] } }) ∧
    (xferOf s r.tr = none → writeBarred s r (r.index.toNat, r.sub.toNat) ≠ 0 →
      ∃ t a, exec (.auquinWrite r) s = .next t ∧ t.mgmt.rsps = s.mgmt.rsps ++ [a] ∧ a.status = writeBarred s r (r.index.toNat, r.sub.toNat) ∧ t.dict = s.dict ∧ t.regs = s.regs ∧ SameMemory s t) ∧
    (xferOf s r.tr = none → ∃ t a, exec (.auquinSegment r) s = .next t ∧ t.mgmt.rsps = s.mgmt.rsps ++ [a] ∧ a.status = aqSegmentSeq ∧ SameMemory s t) ∧
    (∀ x : Xfer, xferOf s r.tr = some x → x.write = false → x.ses = none → s.time < x.last + oneSecond → x.toggle = r.toggle →
      ∃ t a, exec (.auquinSegment r) s = .next t ∧ t.mgmt.rsps = s.mgmt.rsps ++ [a] ∧ a.status = aqOk ∧ a.data = (x.data.drop x.done).take (segBytes r.tr) ∧ t.dict = s.dict ∧ SameMemory s t) ∧
    (∃ t a, exec (.auquinAbort r) s = .next t ∧ t.mgmt.rsps = s.mgmt.rsps ++ [a] ∧ a.status = aqOk ∧ xferOf t r.tr = none ∧ t.dict = s.dict ∧ SameMemory s t)) ∧
  (∀ (s : State) (tr : Transport), xferOf s tr = none → exec (.segTimeout tr) s = .next s) ∧
  (∀ (s : State) (tr : Transport) (x : Xfer), xferOf s tr = some x →
    (x.last + oneSecond ≤ s.time → ∃ t a, exec (.segTimeout tr) s = .next t ∧ xferOf t tr = none ∧ t.mgmt.rsps = s.mgmt.rsps ++ [a] ∧ a.status = aqTimeout ∧ a.token = x.token ∧ SameMemory s t) ∧
    (s.time < x.last + oneSecond → exec (.segTimeout tr) s = .next s))

/-- The management port and the debug objects (R438 to R441, R450 to R456): a mailbox that is off takes its base and size and, enabled, clears its indices where its base may be written; a mailbox out of service is not polled; addresses are taken once the port's step has ended; a link that goes down drops the port's transfer; DBG_DMI, DBG_PEEK and TAP_SEQ leave their answers in their objects, and answer an error where they are not allowed. The layouts of the debug module are presumed (log 89, the model's), what a dropped link does too (log 101). Rows completed: AUQ_MBX_ENABLE, MAILBOX_POLL, DYNAMIC_ADDRESS, SET_ENDPOINT_ID, MGT_LINK_CHANGE, DBG_DMI_REQ, DBG_PEEK, TAP_SEQ. -/
def Obligations.ManagementPortsAndDebugObjects : Prop :=
  (∀ (s : State) (ag : Agent) (p : Fin 16) (v : BitVec 64), regRight s ag (rAuqMbx p).key = true → getB s (rAuqMbx p) fAuqMbxEnable = true →
    exec (.auqMbxEnable ag p v) s = .next (setF s (rAuqMbx p) fAuqMbxEnable (fget v fAuqMbxEnable))) ∧
  (∀ (s : State) (ag : Agent) (p : Fin 16) (v : BitVec 64), regRight s ag (rAuqMbx p).key = true → getB s (rAuqMbx p) fAuqMbxEnable = false → fget v fAuqMbxEnable = 0 →
    ∃ t, exec (.auqMbxEnable ag p v) s = .next t ∧ getF t (rAuqMbx p) fAuqMbxBase = fget v fAuqMbxBase ∧
      getF t (rAuqMbx p) fAuqMbxLog2 = (if 4 ≤ fget v fAuqMbxLog2 ∧ fget v fAuqMbxLog2 ≤ 10 then fget v fAuqMbxLog2 else getF s (rAuqMbx p) fAuqMbxLog2) ∧
      SameRegsBut [(rAuqMbx p).key] s t ∧ SameUnits s t) ∧
  (∀ (s : State) (ag : Agent) (p : Fin 16) (v : BitVec 64), regRight s ag (rAuqMbx p).key = true → getB s (rAuqMbx p) fAuqMbxEnable = false → fget v fAuqMbxEnable ≠ 0 →
    ∃ t, exec (.auqMbxEnable ag p v) s = .next (hubPut t (fget v fAuqMbxBase * 4096) (List.replicate 16 0)) ∧ getF t (rAuqMbx p) fAuqMbxBase = fget v fAuqMbxBase ∧
      getB t (rAuqMbx p) fAuqMbxEnable = true ∧ SameRegsBut [(rAuqMbx p).key] s t ∧ SameUnits s t) ∧
  (∀ (s : State) (p : Fin 16), transportUp s (.inband p) = false → exec (.mailboxPoll p) s = .next s) ∧
  (∀ (s : State) (p : Fin 16), transportUp s (.inband p) = true →
    mpaAdmits s (.hubUnit p) (getF s (rAuqMbx p) fAuqMbxBase * 4096) (64 + 2 ^ getF s (rAuqMbx p) fAuqMbxLog2 * 128) true = true →
    exec (.mailboxPoll p) s = .next (mailboxServe p (getF s (rAuqMbx p) fAuqMbxBase * 4096) (getF s (rAuqMbx p) fAuqMbxLog2) (2 ^ getF s (rAuqMbx p) fAuqMbxLog2) s)) ∧
  (∀ (s : State) (a : BitVec 8), (s.pow.ended.elem 5 = true → exec (.dynamicAddress a) s = .next (setObj s oI3cDynAddr [a]) ∧ exec (.setEndpointId a) s = .next (setObj s oMctpEid [a])) ∧
    (s.pow.ended.elem 5 = false → exec (.dynamicAddress a) s = .next s ∧ exec (.setEndpointId a) s = .next s)) ∧
  (∀ (s : State) (x : BitVec 2), s.pow.mode ≠ 1 → exec (.mgtLinkChange x) s = .next s) ∧
  (∀ s : State, s.pow.mode = 1 → ∃ t, exec (.mgtLinkChange 0) s = .next t ∧ t.mgmt.mgtUp = false ∧ xferOf t .mgtPort = none ∧ objNat t oMgtLink = 0 ∧ t.regs = s.regs ∧ SameMemory s t) ∧
  (∀ (s : State) (x : BitVec 2), s.pow.mode = 1 → x ≠ 0 → ∃ t, exec (.mgtLinkChange x) s = .next t ∧ t.mgmt.mgtUp = true ∧ objNat t oMgtLink = x.toNat ∧ t.regs = s.regs ∧ SameMemory s t) ∧
  (∀ (s : State) (q : BitVec 64), dmOpen s (objNat s oDbgDmSel) = false → exec (.dbgDmiReq q) s = .next (setObjNat s oDbgDmiRsp 8 (2 * 2 ^ 32))) ∧
  (∀ (s t : State) (q : BitVec 64) (d r : Nat), dmOpen s (objNat s oDbgDmSel) = true →
    dmiAccess s (objNat s oDbgDmSel) (natField q.toNat 38 32) (natField q.toNat 41 40) (q.toNat % 2 ^ 32) = (t, d, r) → exec (.dbgDmiReq q) s = .next (setObjNat t oDbgDmiRsp 8 (d + r * 2 ^ 32))) ∧
  (∀ s : State, (∀ (b : Bytes) (p : Bool), peekWord s = some (b, p) → ∃ t, exec .dbgPeek s = .next t ∧ objBytes t oDbgPeekData = b ∧ objNat t oDbgPeekStatus = p.toNat ∧ t.regs = s.regs ∧ SameMemory s t) ∧
    (peekWord s = none → ∃ t, exec .dbgPeek s = .next t ∧ objNat t oDbgPeekData = 0 ∧ objNat t oDbgPeekStatus = 2 ∧ t.regs = s.regs ∧ SameMemory s t)) ∧
  (∀ (s : State) (x : List Bool), ((tapAllowed s = false ∨ tapSteps (objBytes s oTapSeq).length (objBytes s oTapSeq) = none) → exec (.tapSeq x) s = .next (setObjNat s oTapState 1 3)) ∧
    (∀ l : List (Nat × Nat), tapAllowed s = true → tapSteps (objBytes s oTapSeq).length (objBytes s oTapSeq) = some l →
      ∃ t, exec (.tapSeq x) s = .next t ∧ objNat t oTapState = 2 ∧ t.mgmt.tapResult = tapCapture l x ∧ t.regs = s.regs ∧ SameMemory s t))
end

