-- ==== Sys2Proof/Laws/Hub.lean ====
section
/-! SUPPORT. What the hub's shared operations can do: its writes and reads of memory, register rows and the accesses that wait. -/

namespace Sys2Proof.Machine

open Sys2Proof

/-- A register row from a requester with the right to it does its work. -/
theorem guarded_right (s : State) (ag : Agent) (k : RegKey) (f : State → State) (h : regRight s ag k = true) : guarded s ag k f = f s := by
  simp [guarded, h]

/-- A register row from a requester without the right to it only counts. -/
theorem guarded_denied (s : State) (ag : Agent) (k : RegKey) (f : State → State) (h : regRight s ag k = false) : guarded s ag k f = violation s := by
  simp [guarded, h]

/-- A write of a hub unit changes nothing, waits, or lands. -/
theorem hubPut_cases (s : State) (a : Nat) (bs : Bytes) :
    (hubPlaced s a bs.length = false ∧ hubPut s a bs = s) ∨
    (hubPlaced s a bs.length = true ∧ hubWaits s a bs.length = true ∧
      hubPut s a bs = { s with hub := { s.hub with writes := s.hub.writes ++ [{ addr := a, data := bs, ring := none }] } }) ∨
    (hubPlaced s a bs.length = true ∧ hubWaits s a bs.length = false ∧ hubPut s a bs = hubLand s a bs) := by
  unfold hubPut
  cases hp : hubPlaced s a bs.length <;> cases hw : hubWaits s a bs.length <;> simp

/-- The next record of a ring waits behind what holds it, or lands. -/
theorem ringPut_cases (r : RingRegs) (s : State) (bs : Bytes) :
    r.put s bs = { s with hub := { s.hub with writes := s.hub.writes ++ [{ addr := r.slot s bs.length, data := bs, ring := some r.id }] } } ∨
    (r.queued s = 0 ∧ hubWaits s (r.slot s bs.length) bs.length = false ∧ r.put s bs = r.land s (r.slot s bs.length) bs) := by
  cases hc : (decide (r.queued s ≠ 0) || hubWaits s (r.slot s bs.length) bs.length)
  · refine .inr ?_
    simp only [Bool.or_eq_false_iff, decide_eq_false_iff_not, not_not] at hc
    exact ⟨hc.1, hc.2, by simp [RingRegs.put, hc.1, hc.2]⟩
  · refine .inl ?_
    simp only [RingRegs.put, hc, if_true]

/-- With no write of the hub waiting, its units see what a current read sees. -/
theorem hubView_idle (s : State) (a n : Nat) (h : s.hub.writes = []) : hubView s a n = cohRead s a n := by
  simp [hubView, h]

/-- With no write waiting, a span waits only for a migration or a held line. -/
theorem hubWaits_idle (s : State) (a n : Nat) (h : s.hub.writes = []) : hubWaits s a n = (migrationStalls s a n || spanHeld s a n) := by
  simp [hubWaits, h]

/-- Waiting writes tried again leave a hub without any as it is. -/
theorem releaseWrites_idle (s : State) (h : s.hub.writes = []) : releaseWrites s = s := by
  rw [releaseWrites, h, landWrites, ← h]

/-- A command without a waiting access has none to be rid of. -/
theorem tierDone_idle (s : State) (u : SpoolId) (k : Nat) (h : ∀ w ∈ s.hub.tierWaits, ¬(w.u = u ∧ w.slot = k)) : tierDone s u k = s := by
  have h1 : s.hub.tierWaits.filter (fun w => decide (w.u = u ∧ w.slot = k) && w.late) = [] :=
    List.filter_eq_nil_iff.2 (fun w hw => by simp [h w hw])
  have h2 : s.hub.tierWaits.filter (fun w => !decide (w.u = u ∧ w.slot = k)) = s.hub.tierWaits :=
    List.filter_eq_self.2 (fun w hw => by simp only [Bool.not_eq_true', decide_eq_false_iff_not]; exact h w hw)
  simp only [tierDone, h1, List.foldl_nil, tierDrop, h2]

/-- A command that meets a wait for the first time is put down once, under a new number. -/
theorem tierHold_fresh (s : State) (u : SpoolId) (k : Nat) (l : List (Nat × Nat)) (h : ∀ w ∈ s.hub.tierWaits, ¬(w.u = u ∧ w.slot = k)) :
    (tierHold s u k l).hub.tierWaits = s.hub.tierWaits ++ [{ id := s.hub.nextId, u := u, slot := k, since := s.time, spans := l, late := false }] := by
  have h1 : s.hub.tierWaits.any (fun w => decide (w.u = u ∧ w.slot = k)) = false :=
    List.any_eq_false.2 (fun w hw => by simpa using h w hw)
  simp only [tierHold, h1, Bool.false_eq_true, if_false]

end Sys2Proof.Machine
end

