-- ==== Sys2Proof/Laws/Jobs.lean ====
section
/-! SUPPORT. Laws of the step records. -/

namespace Sys2Proof.Machine

open Sys2Proof

/-- Placing each record by a test keeps the records. -/
theorem foldl_place_perm {α : Type} (f : α → α → Bool) (l acc : List α) :
    (l.foldl (fun acc x => acc.takeWhile (f x) ++ x :: acc.dropWhile (f x)) acc).Perm (acc ++ l) := by
  induction l generalizing acc with
  | nil => simp
  | cons x l ih =>
    refine (ih _).trans ?_
    have h : (acc.takeWhile (f x) ++ x :: acc.dropWhile (f x)).Perm (x :: acc) := by
      refine List.perm_middle.trans ?_
      rw [List.takeWhile_append_dropWhile]
    exact (h.append_right l).trans (List.perm_middle.symm)

/-- A free order is an order of the same records. -/
theorem freeOrder_perm (c : Nat) (l : List StatEntry) : (freeOrder c l).Perm l := by
  have h := (foldl_place_perm (fun (x y : Nat × StatEntry) => decide ((Config.freeWord (c + y.1)).toNat ≤ (Config.freeWord (c + x.1)).toNat))
    ((List.range l.length).zip l) []).map (fun x => x.2)
  have hz : ((List.range l.length).zip l).map (fun x => x.2) = l := List.map_snd_zip (by simp)
  simpa [freeOrder, hz] using h

end Sys2Proof.Machine
end

