-- ==== Sys2Proof/Laws/Map.lean ====
section
/-! SUPPORT. Laws of the sparse tables: what a read gives after an update. -/

namespace Sys2Proof.Machine

theorem mapGet_mapSet {κ α : Type} [DecidableEq κ] (m : FMap κ α) (k k' : κ) (v d : α) :
    mapGet (mapSet m k v) k' d = if k = k' then v else mapGet m k' d := by
  induction m with
  | nil => simp [mapSet, mapGet]
  | cons x m ih =>
    obtain ⟨a, b⟩ := x
    by_cases h : a = k
    · subst h
      by_cases h' : a = k' <;> simp [mapSet, mapGet, h']
    · by_cases h' : a = k'
      · subst h'
        simp [mapSet, mapGet, h, Ne.symm h]
      · simp [mapSet, mapGet, h, h', ih]

@[simp] theorem mapGet_mapSet_same {κ α : Type} [DecidableEq κ] (m : FMap κ α) (k : κ) (v d : α) :
    mapGet (mapSet m k v) k d = v := by simp [mapGet_mapSet]

theorem mapGet_mapSet_ne {κ α : Type} [DecidableEq κ] (m : FMap κ α) {k k' : κ} (v d : α) (h : k ≠ k') :
    mapGet (mapSet m k v) k' d = mapGet m k' d := by simp [mapGet_mapSet, h]

@[simp] theorem mapGet_nil {κ α : Type} [DecidableEq κ] (k : κ) (d : α) : mapGet ([] : FMap κ α) k d = d := rfl

theorem mapGet_mapDel {κ α : Type} [DecidableEq κ] (m : FMap κ α) (k k' : κ) (d : α) :
    mapGet (mapDel m k) k' d = if k = k' then d else mapGet m k' d := by
  induction m with
  | nil => simp [mapDel]
  | cons x m ih =>
    obtain ⟨a, b⟩ := x
    unfold mapDel at ih
    by_cases h : a = k
    · subst h
      by_cases h' : a = k' <;> simp_all [mapDel, mapGet]
    · by_cases h' : a = k'
      · subst h'
        simp [mapDel, mapGet, h, Ne.symm h]
      · simp [mapDel, mapGet, h, h', ih]

end Sys2Proof.Machine
end

