-- ==== Sys2Proof/Laws/Memory.lean ====
section
/-! SUPPORT. Laws of memory: a read after a write, and the canonical form that every operation over cells keeps. -/

namespace Sys2Proof.Machine

open Sys2Proof

/-! ### The canonical form -/

theorem wfFrom_mono (m : List Host.Cell) (lo lo' : Nat) (hle : lo' ≤ lo) (h : Memory.wfFrom lo m = true) : Memory.wfFrom lo' m = true := by
  cases m with
  | nil => rfl
  | cons x m =>
    simp only [Memory.wfFrom, Bool.and_eq_true, decide_eq_true_eq] at h ⊢
    exact ⟨⟨by omega, h.1.2⟩, h.2⟩

theorem cellSet_wfFrom (m : List Host.Cell) (lo a : Nat) (b : Byte) (ha : lo ≤ a) (h : Memory.wfFrom lo m = true) :
    Memory.wfFrom lo (cellSet m a b) = true := by
  induction m generalizing lo with
  | nil => by_cases hb : b = 0#8 <;> simp [cellSet, hb, Memory.wfFrom, ha]
  | cons x m ih =>
    obtain ⟨y, c⟩ := x
    simp only [Memory.wfFrom, Bool.and_eq_true, decide_eq_true_eq] at h
    simp only [cellSet]
    split_ifs with h1 h2 h3 h4
    · simp only [Memory.wfFrom, Bool.and_eq_true, decide_eq_true_eq]
      exact ⟨h.1, ih (y + 1) (by omega) h.2⟩
    · exact wfFrom_mono m (y + 1) lo (by omega) h.2
    · simp only [Memory.wfFrom, Bool.and_eq_true, decide_eq_true_eq]
      exact ⟨⟨ha, h3⟩, by rw [← h2]; exact h.2⟩
    · simp only [Memory.wfFrom, Bool.and_eq_true, decide_eq_true_eq]; exact h
    · simp only [Memory.wfFrom, Bool.and_eq_true, decide_eq_true_eq]
      exact ⟨⟨ha, h4⟩, ⟨by omega, h.1.2⟩, h.2⟩

/-- A byte written keeps the canonical form. -/
theorem cellSet_wf (m : List Host.Cell) (a : Nat) (b : Byte) (h : Memory.wf m = true) : Memory.wf (cellSet m a b) = true :=
  cellSet_wfFrom m 0 a b (Nat.zero_le _) h

/-- A byte string written keeps the canonical form. -/
theorem cellsPut_wf (m : List Host.Cell) (a : Nat) (bs : Bytes) (h : Memory.wf m = true) : Memory.wf (cellsPut m a bs) = true := by
  induction bs generalizing m a with
  | nil => exact h
  | cons b bs ih => exact ih _ _ (cellSet_wf m a b h)

theorem filter_wfFrom (p : Host.Cell → Bool) (m : List Host.Cell) (lo : Nat) (h : Memory.wfFrom lo m = true) :
    Memory.wfFrom lo (m.filter p) = true := by
  induction m generalizing lo with
  | nil => rfl
  | cons x m ih =>
    simp only [Memory.wfFrom, Bool.and_eq_true, decide_eq_true_eq] at h
    by_cases hp : p x
    · rw [List.filter_cons_of_pos hp]
      simp only [Memory.wfFrom, Bool.and_eq_true, decide_eq_true_eq]
      exact ⟨h.1, ih _ h.2⟩
    · rw [List.filter_cons_of_neg hp]
      exact wfFrom_mono _ (x.1 + 1) lo (by omega) (ih _ h.2)

/-- Cells dropped keep the canonical form. -/
theorem filter_wf (p : Host.Cell → Bool) (m : List Host.Cell) (h : Memory.wf m = true) : Memory.wf (m.filter p) = true := filter_wfFrom p m 0 h

theorem cellsZero_wf (m : List Host.Cell) (a n : Nat) (h : Memory.wf m = true) : Memory.wf (cellsZero m a n) = true := filter_wf _ m h

theorem foldl_cellSet_wf (l : List Host.Cell) (f : Host.Cell → Nat) (m : List Host.Cell) (h : Memory.wf m = true) :
    Memory.wf (l.foldl (fun m' c => cellSet m' (f c) c.2) m) = true := by
  induction l generalizing m with
  | nil => exact h
  | cons x l ih => exact ih _ (cellSet_wf m _ _ h)

/-- A copied span keeps the canonical form. -/
theorem cellsCopy_wf (m : List Host.Cell) (src dst n : Nat) (h : Memory.wf m = true) : Memory.wf (cellsCopy m src dst n) = true :=
  foldl_cellSet_wf _ (fun c => dst + (c.1 - src)) _ (cellsZero_wf m dst n h)

theorem append_wfFrom (l r : List Host.Cell) (lo mid : Nat) (hl : Memory.wfFrom lo l = true) (hb : ∀ c ∈ l, c.1 < mid)
    (hr : Memory.wfFrom mid r = true) (hlo : lo ≤ mid) : Memory.wfFrom lo (l ++ r) = true := by
  induction l generalizing lo with
  | nil => exact wfFrom_mono r mid lo hlo hr
  | cons x l ih =>
    simp only [Memory.wfFrom, Bool.and_eq_true, decide_eq_true_eq, List.cons_append] at hl ⊢
    have hx := hb x (by simp)
    exact ⟨hl.1, ih _ hl.2 (fun c hc => hb c (by simp [hc])) (by omega)⟩

theorem rangeMap_wfFrom (a k n : Nat) (f : Nat → Byte) :
    Memory.wfFrom (a + k) (((List.range' k n).map (fun i => (a + i, f (a + i)))).filter (fun (c : Nat × Byte) => decide (c.2 ≠ 0))) = true := by
  induction n generalizing k with
  | zero => rfl
  | succ n ih =>
    rw [List.range'_succ, List.map_cons]
    by_cases h : f (a + k) = 0
    · rw [List.filter_cons_of_neg (by simp [h])]
      exact wfFrom_mono _ (a + (k + 1)) _ (by omega) (ih (k + 1))
    · rw [List.filter_cons, if_pos (decide_eq_true h)]
      simp only [Memory.wfFrom, Bool.and_eq_true, decide_eq_true_eq]
      exact ⟨⟨Nat.le_refl _, h⟩, ih (k + 1)⟩

theorem high_wfFrom (m : List Host.Cell) (lo b : Nat) (h : Memory.wfFrom lo m = true) :
    Memory.wfFrom b (m.filter (fun c => decide (b ≤ c.1))) = true := by
  induction m generalizing lo with
  | nil => rfl
  | cons x m ih =>
    simp only [Memory.wfFrom, Bool.and_eq_true, decide_eq_true_eq] at h
    by_cases hp : b ≤ x.1
    · rw [List.filter_cons_of_pos (by simpa using hp)]
      simp only [Memory.wfFrom, Bool.and_eq_true, decide_eq_true_eq]
      exact ⟨⟨hp, h.1.2⟩, filter_wfFrom _ m _ h.2⟩
    · rw [List.filter_cons_of_neg (by simpa using hp)]
      exact ih _ h.2

/-- A span given anew keeps the canonical form. -/
theorem cellsSplice_wf (m : List Host.Cell) (a n : Nat) (f : Nat → Byte) (h : Memory.wf m = true) : Memory.wf (cellsSplice m a n f) = true := by
  have mid : Memory.wfFrom a (((List.range n).map (fun i => (a + i, f (a + i)))).filter (fun (c : Nat × Byte) => decide (c.2 ≠ 0))) = true := by
    have := rangeMap_wfFrom a 0 n f
    rwa [← List.range_eq_range'] at this
  refine append_wfFrom _ _ 0 a (filter_wfFrom _ m 0 h) (fun c hc => by simpa using (List.mem_filter.1 hc).2) ?_ (Nat.zero_le _)
  refine append_wfFrom _ _ a (a + n) mid (fun c hc => ?_) (high_wfFrom m 0 (a + n) h) (by omega)
  obtain ⟨i, hi, rfl⟩ := List.mem_map.1 (List.mem_filter.1 hc).1
  simp only [List.mem_range] at hi
  simp only
  omega

/-! ### A read after a write -/

theorem cellGet_above (m : List Host.Cell) (lo a : Nat) (h : Memory.wfFrom lo m = true) (ha : a < lo) : cellGet m a = 0 := by
  induction m generalizing lo with
  | nil => rfl
  | cons x m ih =>
    obtain ⟨y, c⟩ := x
    simp only [Memory.wfFrom, Bool.and_eq_true, decide_eq_true_eq] at h
    rw [cellGet, if_neg (by omega)]
    exact ih (y + 1) h.2 (by omega)

theorem cellGet_cellSet_from (m : List Host.Cell) (lo a a' : Nat) (b : Byte) (h : Memory.wfFrom lo m = true) :
    cellGet (cellSet m a b) a' = if a = a' then b else cellGet m a' := by
  induction m generalizing lo with
  | nil =>
    by_cases hb : b = 0#8 <;> by_cases he : a = a' <;> simp [cellSet, cellGet, hb, he]
  | cons x m ih =>
    obtain ⟨y, c⟩ := x
    simp only [Memory.wfFrom, Bool.and_eq_true, decide_eq_true_eq] at h
    have ih := ih (y + 1) h.2
    have low : ∀ z, z ≤ y → cellGet m z = 0 := fun z hz => cellGet_above m (y + 1) z h.2 (by omega)
    rcases Nat.lt_trichotomy y a with h1 | h1 | h1
    · by_cases h2 : y = a'
      · subst h2
        have n : ¬a = y := by omega
        simp [cellSet, h1, cellGet, n]
      · simp [cellSet, h1, cellGet, h2, ih]
    · subst h1
      by_cases hb : b = 0#8 <;> by_cases h2 : y = a'
      · subst h2; simp [cellSet, hb, low y (Nat.le_refl _)]
      · simp [cellSet, hb, cellGet, h2]
      · simp [cellSet, hb, cellGet, h2]
      · simp [cellSet, hb, cellGet, h2]
    · have n1 : ¬y < a := by omega
      have n2 : ¬y = a := by omega
      by_cases hb : b = 0#8 <;> by_cases h2 : a = a'
      · subst h2; simp [cellSet, n1, n2, hb, cellGet, low a (by omega)]
      · simp [cellSet, n1, n2, hb, h2]
      · subst h2; simp [cellSet, n1, n2, hb, cellGet]
      · simp [cellSet, n1, n2, hb, cellGet, h2]

/-- A read of the byte just written gives it; every other byte is as it was. -/
theorem cellGet_cellSet (m : List Host.Cell) (a a' : Nat) (b : Byte) (h : Memory.wf m = true) :
    cellGet (cellSet m a b) a' = if a = a' then b else cellGet m a' := cellGet_cellSet_from m 0 a a' b h

/-- What lies outside a byte string written is as it was. -/
theorem cellGet_cellsPut_out (m : List Host.Cell) (a a' : Nat) (bs : Bytes) (h : Memory.wf m = true) (ho : a' < a ∨ a + bs.length ≤ a') :
    cellGet (cellsPut m a bs) a' = cellGet m a' := by
  induction bs generalizing m a with
  | nil => rfl
  | cons b bs ih =>
    simp only [List.length_cons] at ho
    rw [cellsPut, ih (cellSet m a b) (a + 1) (cellSet_wf m a b h) (by omega), cellGet_cellSet m a a' b h, if_neg (by omega)]

/-- A byte of a byte string written reads back. -/
theorem cellGet_cellsPut_in (m : List Host.Cell) (a : Nat) (bs : Bytes) (i : Nat) (h : Memory.wf m = true) (hi : i < bs.length) :
    cellGet (cellsPut m a bs) (a + i) = bs.getD i 0 := by
  induction bs generalizing m a i with
  | nil => simp at hi
  | cons b bs ih =>
    rw [cellsPut]
    cases i with
    | zero =>
      rw [cellGet_cellsPut_out _ _ _ _ (cellSet_wf m a b h) (by omega), cellGet_cellSet m a _ b h, if_pos (by omega)]; rfl
    | succ i =>
      have := ih (cellSet m a b) (a + 1) i (cellSet_wf m a b h) (by simpa using hi)
      rw [show a + (i + 1) = a + 1 + i by omega, this]; rfl

end Sys2Proof.Machine
end

