-- ==== Sys2Proof/Laws/Regs.lean ====
section
/-! SUPPORT. Laws of registers, fields and objects: what a read gives after a write. -/

namespace Sys2Proof.Machine

open Sys2Proof

/-- A field that lies in a 64-bit register. -/
def Fd.ok (f : Fd) : Bool := decide (f.lo ≤ f.hi) && decide (f.hi < 64)

/-- Two fields of a register that share no bit. -/
def Fd.apart (f g : Fd) : Bool := decide (f.hi < g.lo) || decide (g.hi < f.lo)

theorem Fd.mask_bit (f : Fd) (h : f.ok) (i : Nat) : f.mask.getLsbD i = (decide (f.lo ≤ i) && decide (i ≤ f.hi)) := by
  simp only [Fd.ok, Bool.and_eq_true, decide_eq_true_eq] at h
  simp only [Fd.mask, Fd.width, BitVec.getLsbD_shiftLeft, BitVec.getLsbD_ofNat, Nat.testBit_two_pow_sub_one]
  by_cases h1 : f.lo ≤ i <;> by_cases h2 : i ≤ f.hi <;> simp [h1, h2] <;> omega

theorem fset_bit (v : Word) (f : Fd) (x : Nat) (h : f.ok) (i : Nat) (hi : i < 64) :
    (fset v f x).getLsbD i = if f.lo ≤ i ∧ i ≤ f.hi then x.testBit (i - f.lo) else v.getLsbD i := by
  simp only [fset, BitVec.getLsbD_or, BitVec.getLsbD_and, BitVec.getLsbD_not, Fd.mask_bit f h, BitVec.getLsbD_shiftLeft, BitVec.getLsbD_ofNat]
  by_cases h1 : f.lo ≤ i <;> by_cases h2 : i ≤ f.hi <;> simp [h1, h2, hi]
  have a : ¬i < f.lo := by omega
  have b : i - f.lo < 64 := by omega
  simp [a, b]

/-- A field reads what was written to it, cut to its width. -/
theorem fget_fset (v : Word) (f : Fd) (x : Nat) (h : f.ok) : fget (fset v f x) f = x % 2 ^ f.width := by
  have hf := h
  simp only [Fd.ok, Bool.and_eq_true, decide_eq_true_eq] at hf
  have e : (fset v f x).extractLsb' f.lo f.width = BitVec.ofNat f.width x := by
    ext i hi
    rw [BitVec.getElem_extractLsb', fset_bit v f x h _ (by unfold Fd.width at hi; omega), if_pos (by unfold Fd.width at hi; omega),
      ← BitVec.getLsbD_eq_getElem, BitVec.getLsbD_ofNat, show f.lo + i - f.lo = i by omega]
    simp [hi]
  simp [fget, e]

/-- A write of one field leaves the others. -/
theorem fget_fset_apart (v : Word) (f g : Fd) (x : Nat) (hf : f.ok) (hg : g.ok) (h : f.apart g) : fget (fset v f x) g = fget v g := by
  have hg' := hg
  simp only [Fd.ok, Fd.apart, Bool.and_eq_true, Bool.or_eq_true, decide_eq_true_eq] at hg' h
  have e : (fset v f x).extractLsb' g.lo g.width = v.extractLsb' g.lo g.width := by
    ext i hi
    simp only [BitVec.getElem_extractLsb']
    rw [fset_bit v f x hf _ (by unfold Fd.width at hi; omega), if_neg (by unfold Fd.width at hi; omega)]
  simp [fget, e]

theorem getR_setR (s : State) (r q : Reg) (v : Word) : getR (setR s r v) q = if r.key = q.key then v else getR s q := by
  simp [getR, setR, mapGet_mapSet]

@[simp] theorem getR_setR_same (s : State) (r : Reg) (v : Word) : getR (setR s r v) r = v := by simp [getR_setR]

theorem getR_setR_ne (s : State) (r q : Reg) (v : Word) (h : r.key ≠ q.key) : getR (setR s r v) q = getR s q := by simp [getR_setR, h]

theorem getF_setF_same (s : State) (r : Reg) (f : Fd) (x : Nat) (h : f.ok) : getF (setF s r f x) r f = x % 2 ^ f.width := by
  simp [getF, setF, fget_fset _ _ _ h]

theorem getF_setF_apart (s : State) (r : Reg) (f g : Fd) (x : Nat) (hf : f.ok) (hg : g.ok) (h : f.apart g) :
    getF (setF s r f x) r g = getF s r g := by simp [getF, setF, fget_fset_apart _ _ _ _ hf hg h]

theorem getF_setF_ne (s : State) (r q : Reg) (f g : Fd) (x : Nat) (h : r.key ≠ q.key) : getF (setF s r f x) q g = getF s q g := by
  simp [getF, setF, getR_setR_ne _ _ _ _ h]

theorem objBytes_setObj (s : State) (k k' : ObjKey) (v : Bytes) : objBytes (setObj s k v) k' = if k = k' then v else objBytes s k' := by
  simp [objBytes, setObj, mapGet_mapSet]

@[simp] theorem objBytes_setObj_same (s : State) (k : ObjKey) (v : Bytes) : objBytes (setObj s k v) k = v := by simp [objBytes_setObj]

theorem leNat_natLE (n v : Nat) : leNat (natLE n v) = v % 256 ^ n := by
  induction n generalizing v with
  | zero => simp [natLE, leNat, Nat.mod_one]
  | succ n ih =>
    simp only [natLE, leNat, ih, BitVec.toNat_ofNat]
    rw [show (2 : Nat) ^ 8 = 256 from rfl, Nat.pow_succ, Nat.mul_comm (256 ^ n), Nat.mod_mul]

theorem objNat_setObjNat_same (s : State) (k : ObjKey) (n v : Nat) : objNat (setObjNat s k n v) k = v % 256 ^ n := by
  simp [objNat, setObjNat, leNat_natLE]

/-- A written counter that saturates. -/
theorem getF_bump_same (s : State) (r : Reg) (f : Fd) (n : Nat) (h : f.ok) : getF (bump s r f n) r f = min (getF s r f + n) (2 ^ f.width - 1) := by
  rw [bump, getF_setF_same _ _ _ _ h, Nat.mod_eq_of_lt]
  have : 0 < 2 ^ f.width := Nat.two_pow_pos _
  omega

/-- A written count that wraps. -/
theorem getF_advance_same (s : State) (r : Reg) (f : Fd) (n : Nat) (h : f.ok) : getF (advance s r f n) r f = (getF s r f + n) % 2 ^ f.width := by
  rw [advance, getF_setF_same _ _ _ _ h, Nat.mod_mod]

end Sys2Proof.Machine
end

