-- ==== Sys2Proof/Laws/State.lean ====
section
/-! SUPPORT. What each named update of the state leaves as it was: one lemma for each field and each update. -/

namespace Sys2Proof.Machine

open Sys2Proof

variable (s : State)

/-! `setR` -/
@[simp] theorem setR_pending (r : Reg) (v : Word) : (setR s r v).pending = s.pending := rfl
@[simp] theorem setR_time (r : Reg) (v : Word) : (setR s r v).time = s.time := rfl
@[simp] theorem setR_freeCtr (r : Reg) (v : Word) : (setR s r v).freeCtr = s.freeCtr := rfl
@[simp] theorem setR_pend (r : Reg) (v : Word) : (setR s r v).pend = s.pend := rfl
@[simp] theorem setR_dict (r : Reg) (v : Word) : (setR s r v).dict = s.dict := rfl
@[simp] theorem setR_mem (r : Reg) (v : Word) : (setR s r v).mem = s.mem := rfl
@[simp] theorem setR_poison (r : Reg) (v : Word) : (setR s r v).poison = s.poison := rfl
@[simp] theorem setR_eng (r : Reg) (v : Word) : (setR s r v).eng = s.eng := rfl
@[simp] theorem setR_hub (r : Reg) (v : Word) : (setR s r v).hub = s.hub := rfl
@[simp] theorem setR_dev (r : Reg) (v : Word) : (setR s r v).dev = s.dev := rfl
@[simp] theorem setR_jobs (r : Reg) (v : Word) : (setR s r v).jobs = s.jobs := rfl
@[simp] theorem setR_fab (r : Reg) (v : Word) : (setR s r v).fab = s.fab := rfl
@[simp] theorem setR_d2d (r : Reg) (v : Word) : (setR s r v).d2d = s.d2d := rfl
@[simp] theorem setR_sec (r : Reg) (v : Word) : (setR s r v).sec = s.sec := rfl
@[simp] theorem setR_rel (r : Reg) (v : Word) : (setR s r v).rel = s.rel := rfl
@[simp] theorem setR_pow (r : Reg) (v : Word) : (setR s r v).pow = s.pow := rfl
@[simp] theorem setR_mgmt (r : Reg) (v : Word) : (setR s r v).mgmt = s.mgmt := rfl

/-! `setF` -/
@[simp] theorem setF_pending (r : Reg) (f : Fd) (x : Nat) : (setF s r f x).pending = s.pending := rfl
@[simp] theorem setF_time (r : Reg) (f : Fd) (x : Nat) : (setF s r f x).time = s.time := rfl
@[simp] theorem setF_freeCtr (r : Reg) (f : Fd) (x : Nat) : (setF s r f x).freeCtr = s.freeCtr := rfl
@[simp] theorem setF_pend (r : Reg) (f : Fd) (x : Nat) : (setF s r f x).pend = s.pend := rfl
@[simp] theorem setF_dict (r : Reg) (f : Fd) (x : Nat) : (setF s r f x).dict = s.dict := rfl
@[simp] theorem setF_mem (r : Reg) (f : Fd) (x : Nat) : (setF s r f x).mem = s.mem := rfl
@[simp] theorem setF_poison (r : Reg) (f : Fd) (x : Nat) : (setF s r f x).poison = s.poison := rfl
@[simp] theorem setF_eng (r : Reg) (f : Fd) (x : Nat) : (setF s r f x).eng = s.eng := rfl
@[simp] theorem setF_hub (r : Reg) (f : Fd) (x : Nat) : (setF s r f x).hub = s.hub := rfl
@[simp] theorem setF_dev (r : Reg) (f : Fd) (x : Nat) : (setF s r f x).dev = s.dev := rfl
@[simp] theorem setF_jobs (r : Reg) (f : Fd) (x : Nat) : (setF s r f x).jobs = s.jobs := rfl
@[simp] theorem setF_fab (r : Reg) (f : Fd) (x : Nat) : (setF s r f x).fab = s.fab := rfl
@[simp] theorem setF_d2d (r : Reg) (f : Fd) (x : Nat) : (setF s r f x).d2d = s.d2d := rfl
@[simp] theorem setF_sec (r : Reg) (f : Fd) (x : Nat) : (setF s r f x).sec = s.sec := rfl
@[simp] theorem setF_rel (r : Reg) (f : Fd) (x : Nat) : (setF s r f x).rel = s.rel := rfl
@[simp] theorem setF_pow (r : Reg) (f : Fd) (x : Nat) : (setF s r f x).pow = s.pow := rfl
@[simp] theorem setF_mgmt (r : Reg) (f : Fd) (x : Nat) : (setF s r f x).mgmt = s.mgmt := rfl

/-! `setB` -/
@[simp] theorem setB_pending (r : Reg) (f : Fd) (b : Bool) : (setB s r f b).pending = s.pending := rfl
@[simp] theorem setB_time (r : Reg) (f : Fd) (b : Bool) : (setB s r f b).time = s.time := rfl
@[simp] theorem setB_freeCtr (r : Reg) (f : Fd) (b : Bool) : (setB s r f b).freeCtr = s.freeCtr := rfl
@[simp] theorem setB_pend (r : Reg) (f : Fd) (b : Bool) : (setB s r f b).pend = s.pend := rfl
@[simp] theorem setB_dict (r : Reg) (f : Fd) (b : Bool) : (setB s r f b).dict = s.dict := rfl
@[simp] theorem setB_mem (r : Reg) (f : Fd) (b : Bool) : (setB s r f b).mem = s.mem := rfl
@[simp] theorem setB_poison (r : Reg) (f : Fd) (b : Bool) : (setB s r f b).poison = s.poison := rfl
@[simp] theorem setB_eng (r : Reg) (f : Fd) (b : Bool) : (setB s r f b).eng = s.eng := rfl
@[simp] theorem setB_hub (r : Reg) (f : Fd) (b : Bool) : (setB s r f b).hub = s.hub := rfl
@[simp] theorem setB_dev (r : Reg) (f : Fd) (b : Bool) : (setB s r f b).dev = s.dev := rfl
@[simp] theorem setB_jobs (r : Reg) (f : Fd) (b : Bool) : (setB s r f b).jobs = s.jobs := rfl
@[simp] theorem setB_fab (r : Reg) (f : Fd) (b : Bool) : (setB s r f b).fab = s.fab := rfl
@[simp] theorem setB_d2d (r : Reg) (f : Fd) (b : Bool) : (setB s r f b).d2d = s.d2d := rfl
@[simp] theorem setB_sec (r : Reg) (f : Fd) (b : Bool) : (setB s r f b).sec = s.sec := rfl
@[simp] theorem setB_rel (r : Reg) (f : Fd) (b : Bool) : (setB s r f b).rel = s.rel := rfl
@[simp] theorem setB_pow (r : Reg) (f : Fd) (b : Bool) : (setB s r f b).pow = s.pow := rfl
@[simp] theorem setB_mgmt (r : Reg) (f : Fd) (b : Bool) : (setB s r f b).mgmt = s.mgmt := rfl

/-! `bump` -/
@[simp] theorem bump_pending (r : Reg) (f : Fd) (n : Nat) : (bump s r f n).pending = s.pending := rfl
@[simp] theorem bump_time (r : Reg) (f : Fd) (n : Nat) : (bump s r f n).time = s.time := rfl
@[simp] theorem bump_freeCtr (r : Reg) (f : Fd) (n : Nat) : (bump s r f n).freeCtr = s.freeCtr := rfl
@[simp] theorem bump_pend (r : Reg) (f : Fd) (n : Nat) : (bump s r f n).pend = s.pend := rfl
@[simp] theorem bump_dict (r : Reg) (f : Fd) (n : Nat) : (bump s r f n).dict = s.dict := rfl
@[simp] theorem bump_mem (r : Reg) (f : Fd) (n : Nat) : (bump s r f n).mem = s.mem := rfl
@[simp] theorem bump_poison (r : Reg) (f : Fd) (n : Nat) : (bump s r f n).poison = s.poison := rfl
@[simp] theorem bump_eng (r : Reg) (f : Fd) (n : Nat) : (bump s r f n).eng = s.eng := rfl
@[simp] theorem bump_hub (r : Reg) (f : Fd) (n : Nat) : (bump s r f n).hub = s.hub := rfl
@[simp] theorem bump_dev (r : Reg) (f : Fd) (n : Nat) : (bump s r f n).dev = s.dev := rfl
@[simp] theorem bump_jobs (r : Reg) (f : Fd) (n : Nat) : (bump s r f n).jobs = s.jobs := rfl
@[simp] theorem bump_fab (r : Reg) (f : Fd) (n : Nat) : (bump s r f n).fab = s.fab := rfl
@[simp] theorem bump_d2d (r : Reg) (f : Fd) (n : Nat) : (bump s r f n).d2d = s.d2d := rfl
@[simp] theorem bump_sec (r : Reg) (f : Fd) (n : Nat) : (bump s r f n).sec = s.sec := rfl
@[simp] theorem bump_rel (r : Reg) (f : Fd) (n : Nat) : (bump s r f n).rel = s.rel := rfl
@[simp] theorem bump_pow (r : Reg) (f : Fd) (n : Nat) : (bump s r f n).pow = s.pow := rfl
@[simp] theorem bump_mgmt (r : Reg) (f : Fd) (n : Nat) : (bump s r f n).mgmt = s.mgmt := rfl

/-! `advance` -/
@[simp] theorem advance_pending (r : Reg) (f : Fd) (n : Nat) : (advance s r f n).pending = s.pending := rfl
@[simp] theorem advance_time (r : Reg) (f : Fd) (n : Nat) : (advance s r f n).time = s.time := rfl
@[simp] theorem advance_freeCtr (r : Reg) (f : Fd) (n : Nat) : (advance s r f n).freeCtr = s.freeCtr := rfl
@[simp] theorem advance_pend (r : Reg) (f : Fd) (n : Nat) : (advance s r f n).pend = s.pend := rfl
@[simp] theorem advance_dict (r : Reg) (f : Fd) (n : Nat) : (advance s r f n).dict = s.dict := rfl
@[simp] theorem advance_mem (r : Reg) (f : Fd) (n : Nat) : (advance s r f n).mem = s.mem := rfl
@[simp] theorem advance_poison (r : Reg) (f : Fd) (n : Nat) : (advance s r f n).poison = s.poison := rfl
@[simp] theorem advance_eng (r : Reg) (f : Fd) (n : Nat) : (advance s r f n).eng = s.eng := rfl
@[simp] theorem advance_hub (r : Reg) (f : Fd) (n : Nat) : (advance s r f n).hub = s.hub := rfl
@[simp] theorem advance_dev (r : Reg) (f : Fd) (n : Nat) : (advance s r f n).dev = s.dev := rfl
@[simp] theorem advance_jobs (r : Reg) (f : Fd) (n : Nat) : (advance s r f n).jobs = s.jobs := rfl
@[simp] theorem advance_fab (r : Reg) (f : Fd) (n : Nat) : (advance s r f n).fab = s.fab := rfl
@[simp] theorem advance_d2d (r : Reg) (f : Fd) (n : Nat) : (advance s r f n).d2d = s.d2d := rfl
@[simp] theorem advance_sec (r : Reg) (f : Fd) (n : Nat) : (advance s r f n).sec = s.sec := rfl
@[simp] theorem advance_rel (r : Reg) (f : Fd) (n : Nat) : (advance s r f n).rel = s.rel := rfl
@[simp] theorem advance_pow (r : Reg) (f : Fd) (n : Nat) : (advance s r f n).pow = s.pow := rfl
@[simp] theorem advance_mgmt (r : Reg) (f : Fd) (n : Nat) : (advance s r f n).mgmt = s.mgmt := rfl

/-! `setPend` -/
@[simp] theorem setPend_pending (r : Reg) (v : Word) : (setPend s r v).pending = s.pending := rfl
@[simp] theorem setPend_time (r : Reg) (v : Word) : (setPend s r v).time = s.time := rfl
@[simp] theorem setPend_freeCtr (r : Reg) (v : Word) : (setPend s r v).freeCtr = s.freeCtr := rfl
@[simp] theorem setPend_regs (r : Reg) (v : Word) : (setPend s r v).regs = s.regs := rfl
@[simp] theorem setPend_dict (r : Reg) (v : Word) : (setPend s r v).dict = s.dict := rfl
@[simp] theorem setPend_mem (r : Reg) (v : Word) : (setPend s r v).mem = s.mem := rfl
@[simp] theorem setPend_poison (r : Reg) (v : Word) : (setPend s r v).poison = s.poison := rfl
@[simp] theorem setPend_eng (r : Reg) (v : Word) : (setPend s r v).eng = s.eng := rfl
@[simp] theorem setPend_hub (r : Reg) (v : Word) : (setPend s r v).hub = s.hub := rfl
@[simp] theorem setPend_dev (r : Reg) (v : Word) : (setPend s r v).dev = s.dev := rfl
@[simp] theorem setPend_jobs (r : Reg) (v : Word) : (setPend s r v).jobs = s.jobs := rfl
@[simp] theorem setPend_fab (r : Reg) (v : Word) : (setPend s r v).fab = s.fab := rfl
@[simp] theorem setPend_d2d (r : Reg) (v : Word) : (setPend s r v).d2d = s.d2d := rfl
@[simp] theorem setPend_sec (r : Reg) (v : Word) : (setPend s r v).sec = s.sec := rfl
@[simp] theorem setPend_rel (r : Reg) (v : Word) : (setPend s r v).rel = s.rel := rfl
@[simp] theorem setPend_pow (r : Reg) (v : Word) : (setPend s r v).pow = s.pow := rfl
@[simp] theorem setPend_mgmt (r : Reg) (v : Word) : (setPend s r v).mgmt = s.mgmt := rfl

/-! `setObj` -/
@[simp] theorem setObj_pending (k : ObjKey) (v : Bytes) : (setObj s k v).pending = s.pending := rfl
@[simp] theorem setObj_time (k : ObjKey) (v : Bytes) : (setObj s k v).time = s.time := rfl
@[simp] theorem setObj_freeCtr (k : ObjKey) (v : Bytes) : (setObj s k v).freeCtr = s.freeCtr := rfl
@[simp] theorem setObj_regs (k : ObjKey) (v : Bytes) : (setObj s k v).regs = s.regs := rfl
@[simp] theorem setObj_pend (k : ObjKey) (v : Bytes) : (setObj s k v).pend = s.pend := rfl
@[simp] theorem setObj_mem (k : ObjKey) (v : Bytes) : (setObj s k v).mem = s.mem := rfl
@[simp] theorem setObj_poison (k : ObjKey) (v : Bytes) : (setObj s k v).poison = s.poison := rfl
@[simp] theorem setObj_eng (k : ObjKey) (v : Bytes) : (setObj s k v).eng = s.eng := rfl
@[simp] theorem setObj_hub (k : ObjKey) (v : Bytes) : (setObj s k v).hub = s.hub := rfl
@[simp] theorem setObj_dev (k : ObjKey) (v : Bytes) : (setObj s k v).dev = s.dev := rfl
@[simp] theorem setObj_jobs (k : ObjKey) (v : Bytes) : (setObj s k v).jobs = s.jobs := rfl
@[simp] theorem setObj_fab (k : ObjKey) (v : Bytes) : (setObj s k v).fab = s.fab := rfl
@[simp] theorem setObj_d2d (k : ObjKey) (v : Bytes) : (setObj s k v).d2d = s.d2d := rfl
@[simp] theorem setObj_sec (k : ObjKey) (v : Bytes) : (setObj s k v).sec = s.sec := rfl
@[simp] theorem setObj_rel (k : ObjKey) (v : Bytes) : (setObj s k v).rel = s.rel := rfl
@[simp] theorem setObj_pow (k : ObjKey) (v : Bytes) : (setObj s k v).pow = s.pow := rfl
@[simp] theorem setObj_mgmt (k : ObjKey) (v : Bytes) : (setObj s k v).mgmt = s.mgmt := rfl

/-! `setObjNat` -/
@[simp] theorem setObjNat_pending (k : ObjKey) (n v : Nat) : (setObjNat s k n v).pending = s.pending := rfl
@[simp] theorem setObjNat_time (k : ObjKey) (n v : Nat) : (setObjNat s k n v).time = s.time := rfl
@[simp] theorem setObjNat_freeCtr (k : ObjKey) (n v : Nat) : (setObjNat s k n v).freeCtr = s.freeCtr := rfl
@[simp] theorem setObjNat_regs (k : ObjKey) (n v : Nat) : (setObjNat s k n v).regs = s.regs := rfl
@[simp] theorem setObjNat_pend (k : ObjKey) (n v : Nat) : (setObjNat s k n v).pend = s.pend := rfl
@[simp] theorem setObjNat_mem (k : ObjKey) (n v : Nat) : (setObjNat s k n v).mem = s.mem := rfl
@[simp] theorem setObjNat_poison (k : ObjKey) (n v : Nat) : (setObjNat s k n v).poison = s.poison := rfl
@[simp] theorem setObjNat_eng (k : ObjKey) (n v : Nat) : (setObjNat s k n v).eng = s.eng := rfl
@[simp] theorem setObjNat_hub (k : ObjKey) (n v : Nat) : (setObjNat s k n v).hub = s.hub := rfl
@[simp] theorem setObjNat_dev (k : ObjKey) (n v : Nat) : (setObjNat s k n v).dev = s.dev := rfl
@[simp] theorem setObjNat_jobs (k : ObjKey) (n v : Nat) : (setObjNat s k n v).jobs = s.jobs := rfl
@[simp] theorem setObjNat_fab (k : ObjKey) (n v : Nat) : (setObjNat s k n v).fab = s.fab := rfl
@[simp] theorem setObjNat_d2d (k : ObjKey) (n v : Nat) : (setObjNat s k n v).d2d = s.d2d := rfl
@[simp] theorem setObjNat_sec (k : ObjKey) (n v : Nat) : (setObjNat s k n v).sec = s.sec := rfl
@[simp] theorem setObjNat_rel (k : ObjKey) (n v : Nat) : (setObjNat s k n v).rel = s.rel := rfl
@[simp] theorem setObjNat_pow (k : ObjKey) (n v : Nat) : (setObjNat s k n v).pow = s.pow := rfl
@[simp] theorem setObjNat_mgmt (k : ObjKey) (n v : Nat) : (setObjNat s k n v).mgmt = s.mgmt := rfl

/-! `poisonLine` -/
@[simp] theorem poisonLine_pending (l : Nat) : (poisonLine s l).pending = s.pending := rfl
@[simp] theorem poisonLine_time (l : Nat) : (poisonLine s l).time = s.time := rfl
@[simp] theorem poisonLine_freeCtr (l : Nat) : (poisonLine s l).freeCtr = s.freeCtr := rfl
@[simp] theorem poisonLine_regs (l : Nat) : (poisonLine s l).regs = s.regs := rfl
@[simp] theorem poisonLine_pend (l : Nat) : (poisonLine s l).pend = s.pend := rfl
@[simp] theorem poisonLine_dict (l : Nat) : (poisonLine s l).dict = s.dict := rfl
@[simp] theorem poisonLine_mem (l : Nat) : (poisonLine s l).mem = s.mem := rfl
@[simp] theorem poisonLine_eng (l : Nat) : (poisonLine s l).eng = s.eng := rfl
@[simp] theorem poisonLine_hub (l : Nat) : (poisonLine s l).hub = s.hub := rfl
@[simp] theorem poisonLine_dev (l : Nat) : (poisonLine s l).dev = s.dev := rfl
@[simp] theorem poisonLine_jobs (l : Nat) : (poisonLine s l).jobs = s.jobs := rfl
@[simp] theorem poisonLine_fab (l : Nat) : (poisonLine s l).fab = s.fab := rfl
@[simp] theorem poisonLine_d2d (l : Nat) : (poisonLine s l).d2d = s.d2d := rfl
@[simp] theorem poisonLine_sec (l : Nat) : (poisonLine s l).sec = s.sec := rfl
@[simp] theorem poisonLine_rel (l : Nat) : (poisonLine s l).rel = s.rel := rfl
@[simp] theorem poisonLine_pow (l : Nat) : (poisonLine s l).pow = s.pow := rfl
@[simp] theorem poisonLine_mgmt (l : Nat) : (poisonLine s l).mgmt = s.mgmt := rfl

/-! `unpoison` -/
@[simp] theorem unpoison_pending (a n : Nat) : (unpoison s a n).pending = s.pending := rfl
@[simp] theorem unpoison_time (a n : Nat) : (unpoison s a n).time = s.time := rfl
@[simp] theorem unpoison_freeCtr (a n : Nat) : (unpoison s a n).freeCtr = s.freeCtr := rfl
@[simp] theorem unpoison_regs (a n : Nat) : (unpoison s a n).regs = s.regs := rfl
@[simp] theorem unpoison_pend (a n : Nat) : (unpoison s a n).pend = s.pend := rfl
@[simp] theorem unpoison_dict (a n : Nat) : (unpoison s a n).dict = s.dict := rfl
@[simp] theorem unpoison_mem (a n : Nat) : (unpoison s a n).mem = s.mem := rfl
@[simp] theorem unpoison_eng (a n : Nat) : (unpoison s a n).eng = s.eng := rfl
@[simp] theorem unpoison_hub (a n : Nat) : (unpoison s a n).hub = s.hub := rfl
@[simp] theorem unpoison_dev (a n : Nat) : (unpoison s a n).dev = s.dev := rfl
@[simp] theorem unpoison_jobs (a n : Nat) : (unpoison s a n).jobs = s.jobs := rfl
@[simp] theorem unpoison_fab (a n : Nat) : (unpoison s a n).fab = s.fab := rfl
@[simp] theorem unpoison_d2d (a n : Nat) : (unpoison s a n).d2d = s.d2d := rfl
@[simp] theorem unpoison_sec (a n : Nat) : (unpoison s a n).sec = s.sec := rfl
@[simp] theorem unpoison_rel (a n : Nat) : (unpoison s a n).rel = s.rel := rfl
@[simp] theorem unpoison_pow (a n : Nat) : (unpoison s a n).pow = s.pow := rfl
@[simp] theorem unpoison_mgmt (a n : Nat) : (unpoison s a n).mgmt = s.mgmt := rfl

/-! `rawWrite` -/
@[simp] theorem rawWrite_pending (a : Nat) (bs : Bytes) : (rawWrite s a bs).pending = s.pending := rfl
@[simp] theorem rawWrite_time (a : Nat) (bs : Bytes) : (rawWrite s a bs).time = s.time := rfl
@[simp] theorem rawWrite_freeCtr (a : Nat) (bs : Bytes) : (rawWrite s a bs).freeCtr = s.freeCtr := rfl
@[simp] theorem rawWrite_regs (a : Nat) (bs : Bytes) : (rawWrite s a bs).regs = s.regs := rfl
@[simp] theorem rawWrite_pend (a : Nat) (bs : Bytes) : (rawWrite s a bs).pend = s.pend := rfl
@[simp] theorem rawWrite_dict (a : Nat) (bs : Bytes) : (rawWrite s a bs).dict = s.dict := rfl
@[simp] theorem rawWrite_eng (a : Nat) (bs : Bytes) : (rawWrite s a bs).eng = s.eng := rfl
@[simp] theorem rawWrite_hub (a : Nat) (bs : Bytes) : (rawWrite s a bs).hub = s.hub := rfl
@[simp] theorem rawWrite_dev (a : Nat) (bs : Bytes) : (rawWrite s a bs).dev = s.dev := rfl
@[simp] theorem rawWrite_jobs (a : Nat) (bs : Bytes) : (rawWrite s a bs).jobs = s.jobs := rfl
@[simp] theorem rawWrite_fab (a : Nat) (bs : Bytes) : (rawWrite s a bs).fab = s.fab := rfl
@[simp] theorem rawWrite_d2d (a : Nat) (bs : Bytes) : (rawWrite s a bs).d2d = s.d2d := rfl
@[simp] theorem rawWrite_sec (a : Nat) (bs : Bytes) : (rawWrite s a bs).sec = s.sec := rfl
@[simp] theorem rawWrite_rel (a : Nat) (bs : Bytes) : (rawWrite s a bs).rel = s.rel := rfl
@[simp] theorem rawWrite_pow (a : Nat) (bs : Bytes) : (rawWrite s a bs).pow = s.pow := rfl
@[simp] theorem rawWrite_mgmt (a : Nat) (bs : Bytes) : (rawWrite s a bs).mgmt = s.mgmt := rfl

/-! `rawZero` -/
@[simp] theorem rawZero_pending (a n : Nat) : (rawZero s a n).pending = s.pending := rfl
@[simp] theorem rawZero_time (a n : Nat) : (rawZero s a n).time = s.time := rfl
@[simp] theorem rawZero_freeCtr (a n : Nat) : (rawZero s a n).freeCtr = s.freeCtr := rfl
@[simp] theorem rawZero_regs (a n : Nat) : (rawZero s a n).regs = s.regs := rfl
@[simp] theorem rawZero_pend (a n : Nat) : (rawZero s a n).pend = s.pend := rfl
@[simp] theorem rawZero_dict (a n : Nat) : (rawZero s a n).dict = s.dict := rfl
@[simp] theorem rawZero_eng (a n : Nat) : (rawZero s a n).eng = s.eng := rfl
@[simp] theorem rawZero_hub (a n : Nat) : (rawZero s a n).hub = s.hub := rfl
@[simp] theorem rawZero_dev (a n : Nat) : (rawZero s a n).dev = s.dev := rfl
@[simp] theorem rawZero_jobs (a n : Nat) : (rawZero s a n).jobs = s.jobs := rfl
@[simp] theorem rawZero_fab (a n : Nat) : (rawZero s a n).fab = s.fab := rfl
@[simp] theorem rawZero_d2d (a n : Nat) : (rawZero s a n).d2d = s.d2d := rfl
@[simp] theorem rawZero_sec (a n : Nat) : (rawZero s a n).sec = s.sec := rfl
@[simp] theorem rawZero_rel (a n : Nat) : (rawZero s a n).rel = s.rel := rfl
@[simp] theorem rawZero_pow (a n : Nat) : (rawZero s a n).pow = s.pow := rfl
@[simp] theorem rawZero_mgmt (a n : Nat) : (rawZero s a n).mgmt = s.mgmt := rfl

/-! `scramble` -/
@[simp] theorem scramble_pending (a n : Nat) : (scramble s a n).pending = s.pending := rfl
@[simp] theorem scramble_time (a n : Nat) : (scramble s a n).time = s.time := rfl
@[simp] theorem scramble_regs (a n : Nat) : (scramble s a n).regs = s.regs := rfl
@[simp] theorem scramble_pend (a n : Nat) : (scramble s a n).pend = s.pend := rfl
@[simp] theorem scramble_dict (a n : Nat) : (scramble s a n).dict = s.dict := rfl
@[simp] theorem scramble_eng (a n : Nat) : (scramble s a n).eng = s.eng := rfl
@[simp] theorem scramble_hub (a n : Nat) : (scramble s a n).hub = s.hub := rfl
@[simp] theorem scramble_dev (a n : Nat) : (scramble s a n).dev = s.dev := rfl
@[simp] theorem scramble_jobs (a n : Nat) : (scramble s a n).jobs = s.jobs := rfl
@[simp] theorem scramble_fab (a n : Nat) : (scramble s a n).fab = s.fab := rfl
@[simp] theorem scramble_d2d (a n : Nat) : (scramble s a n).d2d = s.d2d := rfl
@[simp] theorem scramble_sec (a n : Nat) : (scramble s a n).sec = s.sec := rfl
@[simp] theorem scramble_rel (a n : Nat) : (scramble s a n).rel = s.rel := rfl
@[simp] theorem scramble_pow (a n : Nat) : (scramble s a n).pow = s.pow := rfl
@[simp] theorem scramble_mgmt (a n : Nat) : (scramble s a n).mgmt = s.mgmt := rfl

/-! `setGran` -/
@[simp] theorem setGran_pending (g : Nat) (x : Gran) : (setGran s g x).pending = s.pending := rfl
@[simp] theorem setGran_time (g : Nat) (x : Gran) : (setGran s g x).time = s.time := rfl
@[simp] theorem setGran_freeCtr (g : Nat) (x : Gran) : (setGran s g x).freeCtr = s.freeCtr := rfl
@[simp] theorem setGran_regs (g : Nat) (x : Gran) : (setGran s g x).regs = s.regs := rfl
@[simp] theorem setGran_pend (g : Nat) (x : Gran) : (setGran s g x).pend = s.pend := rfl
@[simp] theorem setGran_dict (g : Nat) (x : Gran) : (setGran s g x).dict = s.dict := rfl
@[simp] theorem setGran_mem (g : Nat) (x : Gran) : (setGran s g x).mem = s.mem := rfl
@[simp] theorem setGran_poison (g : Nat) (x : Gran) : (setGran s g x).poison = s.poison := rfl
@[simp] theorem setGran_eng (g : Nat) (x : Gran) : (setGran s g x).eng = s.eng := rfl
@[simp] theorem setGran_dev (g : Nat) (x : Gran) : (setGran s g x).dev = s.dev := rfl
@[simp] theorem setGran_jobs (g : Nat) (x : Gran) : (setGran s g x).jobs = s.jobs := rfl
@[simp] theorem setGran_fab (g : Nat) (x : Gran) : (setGran s g x).fab = s.fab := rfl
@[simp] theorem setGran_d2d (g : Nat) (x : Gran) : (setGran s g x).d2d = s.d2d := rfl
@[simp] theorem setGran_sec (g : Nat) (x : Gran) : (setGran s g x).sec = s.sec := rfl
@[simp] theorem setGran_rel (g : Nat) (x : Gran) : (setGran s g x).rel = s.rel := rfl
@[simp] theorem setGran_pow (g : Nat) (x : Gran) : (setGran s g x).pow = s.pow := rfl
@[simp] theorem setGran_mgmt (g : Nat) (x : Gran) : (setGran s g x).mgmt = s.mgmt := rfl

/-! `drawFree_snd` -/
@[simp] theorem drawFree_snd_pending : ((drawFree s).2).pending = s.pending := rfl
@[simp] theorem drawFree_snd_time : ((drawFree s).2).time = s.time := rfl
@[simp] theorem drawFree_snd_regs : ((drawFree s).2).regs = s.regs := rfl
@[simp] theorem drawFree_snd_pend : ((drawFree s).2).pend = s.pend := rfl
@[simp] theorem drawFree_snd_dict : ((drawFree s).2).dict = s.dict := rfl
@[simp] theorem drawFree_snd_mem : ((drawFree s).2).mem = s.mem := rfl
@[simp] theorem drawFree_snd_poison : ((drawFree s).2).poison = s.poison := rfl
@[simp] theorem drawFree_snd_eng : ((drawFree s).2).eng = s.eng := rfl
@[simp] theorem drawFree_snd_hub : ((drawFree s).2).hub = s.hub := rfl
@[simp] theorem drawFree_snd_dev : ((drawFree s).2).dev = s.dev := rfl
@[simp] theorem drawFree_snd_jobs : ((drawFree s).2).jobs = s.jobs := rfl
@[simp] theorem drawFree_snd_fab : ((drawFree s).2).fab = s.fab := rfl
@[simp] theorem drawFree_snd_d2d : ((drawFree s).2).d2d = s.d2d := rfl
@[simp] theorem drawFree_snd_sec : ((drawFree s).2).sec = s.sec := rfl
@[simp] theorem drawFree_snd_rel : ((drawFree s).2).rel = s.rel := rfl
@[simp] theorem drawFree_snd_pow : ((drawFree s).2).pow = s.pow := rfl
@[simp] theorem drawFree_snd_mgmt : ((drawFree s).2).mgmt = s.mgmt := rfl

/-! `violation` -/
@[simp] theorem violation_pending : (violation s).pending = s.pending := rfl
@[simp] theorem violation_time : (violation s).time = s.time := rfl
@[simp] theorem violation_freeCtr : (violation s).freeCtr = s.freeCtr := rfl
@[simp] theorem violation_pend : (violation s).pend = s.pend := rfl
@[simp] theorem violation_dict : (violation s).dict = s.dict := rfl
@[simp] theorem violation_mem : (violation s).mem = s.mem := rfl
@[simp] theorem violation_poison : (violation s).poison = s.poison := rfl
@[simp] theorem violation_eng : (violation s).eng = s.eng := rfl
@[simp] theorem violation_hub : (violation s).hub = s.hub := rfl
@[simp] theorem violation_dev : (violation s).dev = s.dev := rfl
@[simp] theorem violation_jobs : (violation s).jobs = s.jobs := rfl
@[simp] theorem violation_fab : (violation s).fab = s.fab := rfl
@[simp] theorem violation_d2d : (violation s).d2d = s.d2d := rfl
@[simp] theorem violation_sec : (violation s).sec = s.sec := rfl
@[simp] theorem violation_rel : (violation s).rel = s.rel := rfl
@[simp] theorem violation_pow : (violation s).pow = s.pow := rfl
@[simp] theorem violation_mgmt : (violation s).mgmt = s.mgmt := rfl

/-! `setEngAux` -/
@[simp] theorem setEngAux_pending (e : Nat) (x : EngAux) : (setEngAux s e x).pending = s.pending := rfl
@[simp] theorem setEngAux_time (e : Nat) (x : EngAux) : (setEngAux s e x).time = s.time := rfl
@[simp] theorem setEngAux_freeCtr (e : Nat) (x : EngAux) : (setEngAux s e x).freeCtr = s.freeCtr := rfl
@[simp] theorem setEngAux_regs (e : Nat) (x : EngAux) : (setEngAux s e x).regs = s.regs := rfl
@[simp] theorem setEngAux_pend (e : Nat) (x : EngAux) : (setEngAux s e x).pend = s.pend := rfl
@[simp] theorem setEngAux_dict (e : Nat) (x : EngAux) : (setEngAux s e x).dict = s.dict := rfl
@[simp] theorem setEngAux_mem (e : Nat) (x : EngAux) : (setEngAux s e x).mem = s.mem := rfl
@[simp] theorem setEngAux_poison (e : Nat) (x : EngAux) : (setEngAux s e x).poison = s.poison := rfl
@[simp] theorem setEngAux_hub (e : Nat) (x : EngAux) : (setEngAux s e x).hub = s.hub := rfl
@[simp] theorem setEngAux_dev (e : Nat) (x : EngAux) : (setEngAux s e x).dev = s.dev := rfl
@[simp] theorem setEngAux_jobs (e : Nat) (x : EngAux) : (setEngAux s e x).jobs = s.jobs := rfl
@[simp] theorem setEngAux_fab (e : Nat) (x : EngAux) : (setEngAux s e x).fab = s.fab := rfl
@[simp] theorem setEngAux_d2d (e : Nat) (x : EngAux) : (setEngAux s e x).d2d = s.d2d := rfl
@[simp] theorem setEngAux_sec (e : Nat) (x : EngAux) : (setEngAux s e x).sec = s.sec := rfl
@[simp] theorem setEngAux_rel (e : Nat) (x : EngAux) : (setEngAux s e x).rel = s.rel := rfl
@[simp] theorem setEngAux_pow (e : Nat) (x : EngAux) : (setEngAux s e x).pow = s.pow := rfl
@[simp] theorem setEngAux_mgmt (e : Nat) (x : EngAux) : (setEngAux s e x).mgmt = s.mgmt := rfl

/-! `dirDrop` -/
@[simp] theorem dirDrop_pending (l : Nat) : (dirDrop s l).pending = s.pending := rfl
@[simp] theorem dirDrop_time (l : Nat) : (dirDrop s l).time = s.time := rfl
@[simp] theorem dirDrop_freeCtr (l : Nat) : (dirDrop s l).freeCtr = s.freeCtr := rfl
@[simp] theorem dirDrop_regs (l : Nat) : (dirDrop s l).regs = s.regs := rfl
@[simp] theorem dirDrop_pend (l : Nat) : (dirDrop s l).pend = s.pend := rfl
@[simp] theorem dirDrop_dict (l : Nat) : (dirDrop s l).dict = s.dict := rfl
@[simp] theorem dirDrop_mem (l : Nat) : (dirDrop s l).mem = s.mem := rfl
@[simp] theorem dirDrop_poison (l : Nat) : (dirDrop s l).poison = s.poison := rfl
@[simp] theorem dirDrop_eng (l : Nat) : (dirDrop s l).eng = s.eng := rfl
@[simp] theorem dirDrop_dev (l : Nat) : (dirDrop s l).dev = s.dev := rfl
@[simp] theorem dirDrop_jobs (l : Nat) : (dirDrop s l).jobs = s.jobs := rfl
@[simp] theorem dirDrop_fab (l : Nat) : (dirDrop s l).fab = s.fab := rfl
@[simp] theorem dirDrop_d2d (l : Nat) : (dirDrop s l).d2d = s.d2d := rfl
@[simp] theorem dirDrop_sec (l : Nat) : (dirDrop s l).sec = s.sec := rfl
@[simp] theorem dirDrop_rel (l : Nat) : (dirDrop s l).rel = s.rel := rfl
@[simp] theorem dirDrop_pow (l : Nat) : (dirDrop s l).pow = s.pow := rfl
@[simp] theorem dirDrop_mgmt (l : Nat) : (dirDrop s l).mgmt = s.mgmt := rfl

/-! `dropResv` -/
@[simp] theorem dropResv_pending (l : Nat) : (dropResv s l).pending = s.pending := rfl
@[simp] theorem dropResv_time (l : Nat) : (dropResv s l).time = s.time := rfl
@[simp] theorem dropResv_freeCtr (l : Nat) : (dropResv s l).freeCtr = s.freeCtr := rfl
@[simp] theorem dropResv_regs (l : Nat) : (dropResv s l).regs = s.regs := rfl
@[simp] theorem dropResv_pend (l : Nat) : (dropResv s l).pend = s.pend := rfl
@[simp] theorem dropResv_dict (l : Nat) : (dropResv s l).dict = s.dict := rfl
@[simp] theorem dropResv_mem (l : Nat) : (dropResv s l).mem = s.mem := rfl
@[simp] theorem dropResv_poison (l : Nat) : (dropResv s l).poison = s.poison := rfl
@[simp] theorem dropResv_eng (l : Nat) : (dropResv s l).eng = s.eng := rfl
@[simp] theorem dropResv_dev (l : Nat) : (dropResv s l).dev = s.dev := rfl
@[simp] theorem dropResv_jobs (l : Nat) : (dropResv s l).jobs = s.jobs := rfl
@[simp] theorem dropResv_fab (l : Nat) : (dropResv s l).fab = s.fab := rfl
@[simp] theorem dropResv_d2d (l : Nat) : (dropResv s l).d2d = s.d2d := rfl
@[simp] theorem dropResv_sec (l : Nat) : (dropResv s l).sec = s.sec := rfl
@[simp] theorem dropResv_rel (l : Nat) : (dropResv s l).rel = s.rel := rfl
@[simp] theorem dropResv_pow (l : Nat) : (dropResv s l).pow = s.pow := rfl
@[simp] theorem dropResv_mgmt (l : Nat) : (dropResv s l).mgmt = s.mgmt := rfl

/-! `writeBack` -/
@[simp] theorem writeBack_pending (l : Nat) (bs : Bytes) : (writeBack s l bs).pending = s.pending := rfl
@[simp] theorem writeBack_time (l : Nat) (bs : Bytes) : (writeBack s l bs).time = s.time := rfl
@[simp] theorem writeBack_freeCtr (l : Nat) (bs : Bytes) : (writeBack s l bs).freeCtr = s.freeCtr := rfl
@[simp] theorem writeBack_regs (l : Nat) (bs : Bytes) : (writeBack s l bs).regs = s.regs := rfl
@[simp] theorem writeBack_pend (l : Nat) (bs : Bytes) : (writeBack s l bs).pend = s.pend := rfl
@[simp] theorem writeBack_dict (l : Nat) (bs : Bytes) : (writeBack s l bs).dict = s.dict := rfl
@[simp] theorem writeBack_poison (l : Nat) (bs : Bytes) : (writeBack s l bs).poison = s.poison := rfl
@[simp] theorem writeBack_eng (l : Nat) (bs : Bytes) : (writeBack s l bs).eng = s.eng := rfl
@[simp] theorem writeBack_hub (l : Nat) (bs : Bytes) : (writeBack s l bs).hub = s.hub := rfl
@[simp] theorem writeBack_dev (l : Nat) (bs : Bytes) : (writeBack s l bs).dev = s.dev := rfl
@[simp] theorem writeBack_jobs (l : Nat) (bs : Bytes) : (writeBack s l bs).jobs = s.jobs := rfl
@[simp] theorem writeBack_fab (l : Nat) (bs : Bytes) : (writeBack s l bs).fab = s.fab := rfl
@[simp] theorem writeBack_d2d (l : Nat) (bs : Bytes) : (writeBack s l bs).d2d = s.d2d := rfl
@[simp] theorem writeBack_sec (l : Nat) (bs : Bytes) : (writeBack s l bs).sec = s.sec := rfl
@[simp] theorem writeBack_rel (l : Nat) (bs : Bytes) : (writeBack s l bs).rel = s.rel := rfl
@[simp] theorem writeBack_pow (l : Nat) (bs : Bytes) : (writeBack s l bs).pow = s.pow := rfl
@[simp] theorem writeBack_mgmt (l : Nat) (bs : Bytes) : (writeBack s l bs).mgmt = s.mgmt := rfl

/-! `evrCount` -/
@[simp] theorem evrCount_pending (a b c n : Nat) : (evrCount s a b c n).pending = s.pending := rfl
@[simp] theorem evrCount_time (a b c n : Nat) : (evrCount s a b c n).time = s.time := rfl
@[simp] theorem evrCount_freeCtr (a b c n : Nat) : (evrCount s a b c n).freeCtr = s.freeCtr := rfl
@[simp] theorem evrCount_regs (a b c n : Nat) : (evrCount s a b c n).regs = s.regs := rfl
@[simp] theorem evrCount_pend (a b c n : Nat) : (evrCount s a b c n).pend = s.pend := rfl
@[simp] theorem evrCount_dict (a b c n : Nat) : (evrCount s a b c n).dict = s.dict := rfl
@[simp] theorem evrCount_mem (a b c n : Nat) : (evrCount s a b c n).mem = s.mem := rfl
@[simp] theorem evrCount_poison (a b c n : Nat) : (evrCount s a b c n).poison = s.poison := rfl
@[simp] theorem evrCount_eng (a b c n : Nat) : (evrCount s a b c n).eng = s.eng := rfl
@[simp] theorem evrCount_hub (a b c n : Nat) : (evrCount s a b c n).hub = s.hub := rfl
@[simp] theorem evrCount_dev (a b c n : Nat) : (evrCount s a b c n).dev = s.dev := rfl
@[simp] theorem evrCount_jobs (a b c n : Nat) : (evrCount s a b c n).jobs = s.jobs := rfl
@[simp] theorem evrCount_fab (a b c n : Nat) : (evrCount s a b c n).fab = s.fab := rfl
@[simp] theorem evrCount_d2d (a b c n : Nat) : (evrCount s a b c n).d2d = s.d2d := rfl
@[simp] theorem evrCount_sec (a b c n : Nat) : (evrCount s a b c n).sec = s.sec := rfl
@[simp] theorem evrCount_pow (a b c n : Nat) : (evrCount s a b c n).pow = s.pow := rfl
@[simp] theorem evrCount_mgmt (a b c n : Nat) : (evrCount s a b c n).mgmt = s.mgmt := rfl

/-! `evrEvent` -/
@[simp] theorem evrEvent_pending (a b : Nat) (p : Bytes) : (evrEvent s a b p).pending = s.pending := rfl
@[simp] theorem evrEvent_time (a b : Nat) (p : Bytes) : (evrEvent s a b p).time = s.time := rfl
@[simp] theorem evrEvent_freeCtr (a b : Nat) (p : Bytes) : (evrEvent s a b p).freeCtr = s.freeCtr := rfl
@[simp] theorem evrEvent_regs (a b : Nat) (p : Bytes) : (evrEvent s a b p).regs = s.regs := rfl
@[simp] theorem evrEvent_pend (a b : Nat) (p : Bytes) : (evrEvent s a b p).pend = s.pend := rfl
@[simp] theorem evrEvent_dict (a b : Nat) (p : Bytes) : (evrEvent s a b p).dict = s.dict := rfl
@[simp] theorem evrEvent_mem (a b : Nat) (p : Bytes) : (evrEvent s a b p).mem = s.mem := rfl
@[simp] theorem evrEvent_poison (a b : Nat) (p : Bytes) : (evrEvent s a b p).poison = s.poison := rfl
@[simp] theorem evrEvent_eng (a b : Nat) (p : Bytes) : (evrEvent s a b p).eng = s.eng := rfl
@[simp] theorem evrEvent_hub (a b : Nat) (p : Bytes) : (evrEvent s a b p).hub = s.hub := rfl
@[simp] theorem evrEvent_dev (a b : Nat) (p : Bytes) : (evrEvent s a b p).dev = s.dev := rfl
@[simp] theorem evrEvent_jobs (a b : Nat) (p : Bytes) : (evrEvent s a b p).jobs = s.jobs := rfl
@[simp] theorem evrEvent_fab (a b : Nat) (p : Bytes) : (evrEvent s a b p).fab = s.fab := rfl
@[simp] theorem evrEvent_d2d (a b : Nat) (p : Bytes) : (evrEvent s a b p).d2d = s.d2d := rfl
@[simp] theorem evrEvent_sec (a b : Nat) (p : Bytes) : (evrEvent s a b p).sec = s.sec := rfl
@[simp] theorem evrEvent_pow (a b : Nat) (p : Bytes) : (evrEvent s a b p).pow = s.pow := rfl
@[simp] theorem evrEvent_mgmt (a b : Nat) (p : Bytes) : (evrEvent s a b p).mgmt = s.mgmt := rfl

/-! `evrPut` -/
@[simp] theorem evrPut_pending (a b c n : Nat) : (evrPut s a b c n).pending = s.pending := rfl
@[simp] theorem evrPut_time (a b c n : Nat) : (evrPut s a b c n).time = s.time := rfl
@[simp] theorem evrPut_freeCtr (a b c n : Nat) : (evrPut s a b c n).freeCtr = s.freeCtr := rfl
@[simp] theorem evrPut_regs (a b c n : Nat) : (evrPut s a b c n).regs = s.regs := rfl
@[simp] theorem evrPut_pend (a b c n : Nat) : (evrPut s a b c n).pend = s.pend := rfl
@[simp] theorem evrPut_dict (a b c n : Nat) : (evrPut s a b c n).dict = s.dict := rfl
@[simp] theorem evrPut_mem (a b c n : Nat) : (evrPut s a b c n).mem = s.mem := rfl
@[simp] theorem evrPut_poison (a b c n : Nat) : (evrPut s a b c n).poison = s.poison := rfl
@[simp] theorem evrPut_eng (a b c n : Nat) : (evrPut s a b c n).eng = s.eng := rfl
@[simp] theorem evrPut_hub (a b c n : Nat) : (evrPut s a b c n).hub = s.hub := rfl
@[simp] theorem evrPut_dev (a b c n : Nat) : (evrPut s a b c n).dev = s.dev := rfl
@[simp] theorem evrPut_jobs (a b c n : Nat) : (evrPut s a b c n).jobs = s.jobs := rfl
@[simp] theorem evrPut_fab (a b c n : Nat) : (evrPut s a b c n).fab = s.fab := rfl
@[simp] theorem evrPut_d2d (a b c n : Nat) : (evrPut s a b c n).d2d = s.d2d := rfl
@[simp] theorem evrPut_sec (a b c n : Nat) : (evrPut s a b c n).sec = s.sec := rfl
@[simp] theorem evrPut_pow (a b c n : Nat) : (evrPut s a b c n).pow = s.pow := rfl
@[simp] theorem evrPut_mgmt (a b c n : Nat) : (evrPut s a b c n).mgmt = s.mgmt := rfl

/-! `setJob` -/
@[simp] theorem setJob_pending (p : Nat) (j : Job) : (setJob s p j).pending = s.pending := rfl
@[simp] theorem setJob_time (p : Nat) (j : Job) : (setJob s p j).time = s.time := rfl
@[simp] theorem setJob_freeCtr (p : Nat) (j : Job) : (setJob s p j).freeCtr = s.freeCtr := rfl
@[simp] theorem setJob_regs (p : Nat) (j : Job) : (setJob s p j).regs = s.regs := rfl
@[simp] theorem setJob_pend (p : Nat) (j : Job) : (setJob s p j).pend = s.pend := rfl
@[simp] theorem setJob_dict (p : Nat) (j : Job) : (setJob s p j).dict = s.dict := rfl
@[simp] theorem setJob_mem (p : Nat) (j : Job) : (setJob s p j).mem = s.mem := rfl
@[simp] theorem setJob_poison (p : Nat) (j : Job) : (setJob s p j).poison = s.poison := rfl
@[simp] theorem setJob_eng (p : Nat) (j : Job) : (setJob s p j).eng = s.eng := rfl
@[simp] theorem setJob_hub (p : Nat) (j : Job) : (setJob s p j).hub = s.hub := rfl
@[simp] theorem setJob_dev (p : Nat) (j : Job) : (setJob s p j).dev = s.dev := rfl
@[simp] theorem setJob_fab (p : Nat) (j : Job) : (setJob s p j).fab = s.fab := rfl
@[simp] theorem setJob_d2d (p : Nat) (j : Job) : (setJob s p j).d2d = s.d2d := rfl
@[simp] theorem setJob_sec (p : Nat) (j : Job) : (setJob s p j).sec = s.sec := rfl
@[simp] theorem setJob_rel (p : Nat) (j : Job) : (setJob s p j).rel = s.rel := rfl
@[simp] theorem setJob_pow (p : Nat) (j : Job) : (setJob s p j).pow = s.pow := rfl
@[simp] theorem setJob_mgmt (p : Nat) (j : Job) : (setJob s p j).mgmt = s.mgmt := rfl

/-! `setCtxAux` -/
@[simp] theorem setCtxAux_pending (e n : Nat) (x : CtxAux) : (setCtxAux s e n x).pending = s.pending := rfl
@[simp] theorem setCtxAux_time (e n : Nat) (x : CtxAux) : (setCtxAux s e n x).time = s.time := rfl
@[simp] theorem setCtxAux_freeCtr (e n : Nat) (x : CtxAux) : (setCtxAux s e n x).freeCtr = s.freeCtr := rfl
@[simp] theorem setCtxAux_regs (e n : Nat) (x : CtxAux) : (setCtxAux s e n x).regs = s.regs := rfl
@[simp] theorem setCtxAux_pend (e n : Nat) (x : CtxAux) : (setCtxAux s e n x).pend = s.pend := rfl
@[simp] theorem setCtxAux_dict (e n : Nat) (x : CtxAux) : (setCtxAux s e n x).dict = s.dict := rfl
@[simp] theorem setCtxAux_mem (e n : Nat) (x : CtxAux) : (setCtxAux s e n x).mem = s.mem := rfl
@[simp] theorem setCtxAux_poison (e n : Nat) (x : CtxAux) : (setCtxAux s e n x).poison = s.poison := rfl
@[simp] theorem setCtxAux_hub (e n : Nat) (x : CtxAux) : (setCtxAux s e n x).hub = s.hub := rfl
@[simp] theorem setCtxAux_dev (e n : Nat) (x : CtxAux) : (setCtxAux s e n x).dev = s.dev := rfl
@[simp] theorem setCtxAux_jobs (e n : Nat) (x : CtxAux) : (setCtxAux s e n x).jobs = s.jobs := rfl
@[simp] theorem setCtxAux_fab (e n : Nat) (x : CtxAux) : (setCtxAux s e n x).fab = s.fab := rfl
@[simp] theorem setCtxAux_d2d (e n : Nat) (x : CtxAux) : (setCtxAux s e n x).d2d = s.d2d := rfl
@[simp] theorem setCtxAux_sec (e n : Nat) (x : CtxAux) : (setCtxAux s e n x).sec = s.sec := rfl
@[simp] theorem setCtxAux_rel (e n : Nat) (x : CtxAux) : (setCtxAux s e n x).rel = s.rel := rfl
@[simp] theorem setCtxAux_pow (e n : Nat) (x : CtxAux) : (setCtxAux s e n x).pow = s.pow := rfl
@[simp] theorem setCtxAux_mgmt (e n : Nat) (x : CtxAux) : (setCtxAux s e n x).mgmt = s.mgmt := rfl

/-! `setBobAux` -/
@[simp] theorem setBobAux_pending (e b : Nat) (x : BobAux) : (setBobAux s e b x).pending = s.pending := rfl
@[simp] theorem setBobAux_time (e b : Nat) (x : BobAux) : (setBobAux s e b x).time = s.time := rfl
@[simp] theorem setBobAux_freeCtr (e b : Nat) (x : BobAux) : (setBobAux s e b x).freeCtr = s.freeCtr := rfl
@[simp] theorem setBobAux_regs (e b : Nat) (x : BobAux) : (setBobAux s e b x).regs = s.regs := rfl
@[simp] theorem setBobAux_pend (e b : Nat) (x : BobAux) : (setBobAux s e b x).pend = s.pend := rfl
@[simp] theorem setBobAux_dict (e b : Nat) (x : BobAux) : (setBobAux s e b x).dict = s.dict := rfl
@[simp] theorem setBobAux_mem (e b : Nat) (x : BobAux) : (setBobAux s e b x).mem = s.mem := rfl
@[simp] theorem setBobAux_poison (e b : Nat) (x : BobAux) : (setBobAux s e b x).poison = s.poison := rfl
@[simp] theorem setBobAux_hub (e b : Nat) (x : BobAux) : (setBobAux s e b x).hub = s.hub := rfl
@[simp] theorem setBobAux_dev (e b : Nat) (x : BobAux) : (setBobAux s e b x).dev = s.dev := rfl
@[simp] theorem setBobAux_jobs (e b : Nat) (x : BobAux) : (setBobAux s e b x).jobs = s.jobs := rfl
@[simp] theorem setBobAux_fab (e b : Nat) (x : BobAux) : (setBobAux s e b x).fab = s.fab := rfl
@[simp] theorem setBobAux_d2d (e b : Nat) (x : BobAux) : (setBobAux s e b x).d2d = s.d2d := rfl
@[simp] theorem setBobAux_sec (e b : Nat) (x : BobAux) : (setBobAux s e b x).sec = s.sec := rfl
@[simp] theorem setBobAux_rel (e b : Nat) (x : BobAux) : (setBobAux s e b x).rel = s.rel := rfl
@[simp] theorem setBobAux_pow (e b : Nat) (x : BobAux) : (setBobAux s e b x).pow = s.pow := rfl
@[simp] theorem setBobAux_mgmt (e b : Nat) (x : BobAux) : (setBobAux s e b x).mgmt = s.mgmt := rfl

/-! `setTask` -/
@[simp] theorem setTask_pending (e i : Nat) (t : Task) : (setTask s e i t).pending = s.pending := rfl
@[simp] theorem setTask_time (e i : Nat) (t : Task) : (setTask s e i t).time = s.time := rfl
@[simp] theorem setTask_freeCtr (e i : Nat) (t : Task) : (setTask s e i t).freeCtr = s.freeCtr := rfl
@[simp] theorem setTask_regs (e i : Nat) (t : Task) : (setTask s e i t).regs = s.regs := rfl
@[simp] theorem setTask_pend (e i : Nat) (t : Task) : (setTask s e i t).pend = s.pend := rfl
@[simp] theorem setTask_dict (e i : Nat) (t : Task) : (setTask s e i t).dict = s.dict := rfl
@[simp] theorem setTask_mem (e i : Nat) (t : Task) : (setTask s e i t).mem = s.mem := rfl
@[simp] theorem setTask_poison (e i : Nat) (t : Task) : (setTask s e i t).poison = s.poison := rfl
@[simp] theorem setTask_hub (e i : Nat) (t : Task) : (setTask s e i t).hub = s.hub := rfl
@[simp] theorem setTask_dev (e i : Nat) (t : Task) : (setTask s e i t).dev = s.dev := rfl
@[simp] theorem setTask_jobs (e i : Nat) (t : Task) : (setTask s e i t).jobs = s.jobs := rfl
@[simp] theorem setTask_fab (e i : Nat) (t : Task) : (setTask s e i t).fab = s.fab := rfl
@[simp] theorem setTask_d2d (e i : Nat) (t : Task) : (setTask s e i t).d2d = s.d2d := rfl
@[simp] theorem setTask_sec (e i : Nat) (t : Task) : (setTask s e i t).sec = s.sec := rfl
@[simp] theorem setTask_rel (e i : Nat) (t : Task) : (setTask s e i t).rel = s.rel := rfl
@[simp] theorem setTask_pow (e i : Nat) (t : Task) : (setTask s e i t).pow = s.pow := rfl
@[simp] theorem setTask_mgmt (e i : Nat) (t : Task) : (setTask s e i t).mgmt = s.mgmt := rfl

/-! `putOut` -/
@[simp] theorem putOut_pending (v : Word) : (putOut s v).pending = s.pending := rfl
@[simp] theorem putOut_time (v : Word) : (putOut s v).time = s.time := rfl
@[simp] theorem putOut_freeCtr (v : Word) : (putOut s v).freeCtr = s.freeCtr := rfl
@[simp] theorem putOut_regs (v : Word) : (putOut s v).regs = s.regs := rfl
@[simp] theorem putOut_pend (v : Word) : (putOut s v).pend = s.pend := rfl
@[simp] theorem putOut_dict (v : Word) : (putOut s v).dict = s.dict := rfl
@[simp] theorem putOut_mem (v : Word) : (putOut s v).mem = s.mem := rfl
@[simp] theorem putOut_poison (v : Word) : (putOut s v).poison = s.poison := rfl
@[simp] theorem putOut_eng (v : Word) : (putOut s v).eng = s.eng := rfl
@[simp] theorem putOut_hub (v : Word) : (putOut s v).hub = s.hub := rfl
@[simp] theorem putOut_dev (v : Word) : (putOut s v).dev = s.dev := rfl
@[simp] theorem putOut_jobs (v : Word) : (putOut s v).jobs = s.jobs := rfl
@[simp] theorem putOut_fab (v : Word) : (putOut s v).fab = s.fab := rfl
@[simp] theorem putOut_d2d (v : Word) : (putOut s v).d2d = s.d2d := rfl
@[simp] theorem putOut_sec (v : Word) : (putOut s v).sec = s.sec := rfl
@[simp] theorem putOut_rel (v : Word) : (putOut s v).rel = s.rel := rfl
@[simp] theorem putOut_pow (v : Word) : (putOut s v).pow = s.pow := rfl

/-! `putAccess` -/
@[simp] theorem putAccess_pending (o : AccessOut) : (putAccess s o).pending = s.pending := rfl
@[simp] theorem putAccess_time (o : AccessOut) : (putAccess s o).time = s.time := rfl
@[simp] theorem putAccess_freeCtr (o : AccessOut) : (putAccess s o).freeCtr = s.freeCtr := rfl
@[simp] theorem putAccess_regs (o : AccessOut) : (putAccess s o).regs = s.regs := rfl
@[simp] theorem putAccess_pend (o : AccessOut) : (putAccess s o).pend = s.pend := rfl
@[simp] theorem putAccess_dict (o : AccessOut) : (putAccess s o).dict = s.dict := rfl
@[simp] theorem putAccess_mem (o : AccessOut) : (putAccess s o).mem = s.mem := rfl
@[simp] theorem putAccess_poison (o : AccessOut) : (putAccess s o).poison = s.poison := rfl
@[simp] theorem putAccess_eng (o : AccessOut) : (putAccess s o).eng = s.eng := rfl
@[simp] theorem putAccess_dev (o : AccessOut) : (putAccess s o).dev = s.dev := rfl
@[simp] theorem putAccess_jobs (o : AccessOut) : (putAccess s o).jobs = s.jobs := rfl
@[simp] theorem putAccess_fab (o : AccessOut) : (putAccess s o).fab = s.fab := rfl
@[simp] theorem putAccess_d2d (o : AccessOut) : (putAccess s o).d2d = s.d2d := rfl
@[simp] theorem putAccess_sec (o : AccessOut) : (putAccess s o).sec = s.sec := rfl
@[simp] theorem putAccess_rel (o : AccessOut) : (putAccess s o).rel = s.rel := rfl
@[simp] theorem putAccess_pow (o : AccessOut) : (putAccess s o).pow = s.pow := rfl
@[simp] theorem putAccess_mgmt (o : AccessOut) : (putAccess s o).mgmt = s.mgmt := rfl

/-! `setConn` -/
@[simp] theorem setConn_pending (c : Nat) (x : Conn) : (setConn s c x).pending = s.pending := rfl
@[simp] theorem setConn_time (c : Nat) (x : Conn) : (setConn s c x).time = s.time := rfl
@[simp] theorem setConn_freeCtr (c : Nat) (x : Conn) : (setConn s c x).freeCtr = s.freeCtr := rfl
@[simp] theorem setConn_regs (c : Nat) (x : Conn) : (setConn s c x).regs = s.regs := rfl
@[simp] theorem setConn_pend (c : Nat) (x : Conn) : (setConn s c x).pend = s.pend := rfl
@[simp] theorem setConn_dict (c : Nat) (x : Conn) : (setConn s c x).dict = s.dict := rfl
@[simp] theorem setConn_mem (c : Nat) (x : Conn) : (setConn s c x).mem = s.mem := rfl
@[simp] theorem setConn_poison (c : Nat) (x : Conn) : (setConn s c x).poison = s.poison := rfl
@[simp] theorem setConn_eng (c : Nat) (x : Conn) : (setConn s c x).eng = s.eng := rfl
@[simp] theorem setConn_hub (c : Nat) (x : Conn) : (setConn s c x).hub = s.hub := rfl
@[simp] theorem setConn_dev (c : Nat) (x : Conn) : (setConn s c x).dev = s.dev := rfl
@[simp] theorem setConn_jobs (c : Nat) (x : Conn) : (setConn s c x).jobs = s.jobs := rfl
@[simp] theorem setConn_d2d (c : Nat) (x : Conn) : (setConn s c x).d2d = s.d2d := rfl
@[simp] theorem setConn_sec (c : Nat) (x : Conn) : (setConn s c x).sec = s.sec := rfl
@[simp] theorem setConn_rel (c : Nat) (x : Conn) : (setConn s c x).rel = s.rel := rfl
@[simp] theorem setConn_pow (c : Nat) (x : Conn) : (setConn s c x).pow = s.pow := rfl
@[simp] theorem setConn_mgmt (c : Nat) (x : Conn) : (setConn s c x).mgmt = s.mgmt := rfl

/-! `setPeer` -/
@[simp] theorem setPeer_pending (q : Nat) (x : Peer) : (setPeer s q x).pending = s.pending := rfl
@[simp] theorem setPeer_time (q : Nat) (x : Peer) : (setPeer s q x).time = s.time := rfl
@[simp] theorem setPeer_freeCtr (q : Nat) (x : Peer) : (setPeer s q x).freeCtr = s.freeCtr := rfl
@[simp] theorem setPeer_regs (q : Nat) (x : Peer) : (setPeer s q x).regs = s.regs := rfl
@[simp] theorem setPeer_pend (q : Nat) (x : Peer) : (setPeer s q x).pend = s.pend := rfl
@[simp] theorem setPeer_dict (q : Nat) (x : Peer) : (setPeer s q x).dict = s.dict := rfl
@[simp] theorem setPeer_mem (q : Nat) (x : Peer) : (setPeer s q x).mem = s.mem := rfl
@[simp] theorem setPeer_poison (q : Nat) (x : Peer) : (setPeer s q x).poison = s.poison := rfl
@[simp] theorem setPeer_eng (q : Nat) (x : Peer) : (setPeer s q x).eng = s.eng := rfl
@[simp] theorem setPeer_hub (q : Nat) (x : Peer) : (setPeer s q x).hub = s.hub := rfl
@[simp] theorem setPeer_dev (q : Nat) (x : Peer) : (setPeer s q x).dev = s.dev := rfl
@[simp] theorem setPeer_jobs (q : Nat) (x : Peer) : (setPeer s q x).jobs = s.jobs := rfl
@[simp] theorem setPeer_d2d (q : Nat) (x : Peer) : (setPeer s q x).d2d = s.d2d := rfl
@[simp] theorem setPeer_sec (q : Nat) (x : Peer) : (setPeer s q x).sec = s.sec := rfl
@[simp] theorem setPeer_rel (q : Nat) (x : Peer) : (setPeer s q x).rel = s.rel := rfl
@[simp] theorem setPeer_pow (q : Nat) (x : Peer) : (setPeer s q x).pow = s.pow := rfl
@[simp] theorem setPeer_mgmt (q : Nat) (x : Peer) : (setPeer s q x).mgmt = s.mgmt := rfl

/-! `setStat` -/
@[simp] theorem setStat_pending (e i : Nat) (x : StatEntry) : (setStat s e i x).pending = s.pending := rfl
@[simp] theorem setStat_time (e i : Nat) (x : StatEntry) : (setStat s e i x).time = s.time := rfl
@[simp] theorem setStat_freeCtr (e i : Nat) (x : StatEntry) : (setStat s e i x).freeCtr = s.freeCtr := rfl
@[simp] theorem setStat_regs (e i : Nat) (x : StatEntry) : (setStat s e i x).regs = s.regs := rfl
@[simp] theorem setStat_pend (e i : Nat) (x : StatEntry) : (setStat s e i x).pend = s.pend := rfl
@[simp] theorem setStat_dict (e i : Nat) (x : StatEntry) : (setStat s e i x).dict = s.dict := rfl
@[simp] theorem setStat_mem (e i : Nat) (x : StatEntry) : (setStat s e i x).mem = s.mem := rfl
@[simp] theorem setStat_poison (e i : Nat) (x : StatEntry) : (setStat s e i x).poison = s.poison := rfl
@[simp] theorem setStat_hub (e i : Nat) (x : StatEntry) : (setStat s e i x).hub = s.hub := rfl
@[simp] theorem setStat_dev (e i : Nat) (x : StatEntry) : (setStat s e i x).dev = s.dev := rfl
@[simp] theorem setStat_jobs (e i : Nat) (x : StatEntry) : (setStat s e i x).jobs = s.jobs := rfl
@[simp] theorem setStat_fab (e i : Nat) (x : StatEntry) : (setStat s e i x).fab = s.fab := rfl
@[simp] theorem setStat_d2d (e i : Nat) (x : StatEntry) : (setStat s e i x).d2d = s.d2d := rfl
@[simp] theorem setStat_sec (e i : Nat) (x : StatEntry) : (setStat s e i x).sec = s.sec := rfl
@[simp] theorem setStat_rel (e i : Nat) (x : StatEntry) : (setStat s e i x).rel = s.rel := rfl
@[simp] theorem setStat_pow (e i : Nat) (x : StatEntry) : (setStat s e i x).pow = s.pow := rfl
@[simp] theorem setStat_mgmt (e i : Nat) (x : StatEntry) : (setStat s e i x).mgmt = s.mgmt := rfl

/-! `setArrAux` -/
@[simp] theorem setArrAux_pending (e pa : Nat) (x : ArrAux) : (setArrAux s e pa x).pending = s.pending := rfl
@[simp] theorem setArrAux_time (e pa : Nat) (x : ArrAux) : (setArrAux s e pa x).time = s.time := rfl
@[simp] theorem setArrAux_freeCtr (e pa : Nat) (x : ArrAux) : (setArrAux s e pa x).freeCtr = s.freeCtr := rfl
@[simp] theorem setArrAux_regs (e pa : Nat) (x : ArrAux) : (setArrAux s e pa x).regs = s.regs := rfl
@[simp] theorem setArrAux_pend (e pa : Nat) (x : ArrAux) : (setArrAux s e pa x).pend = s.pend := rfl
@[simp] theorem setArrAux_dict (e pa : Nat) (x : ArrAux) : (setArrAux s e pa x).dict = s.dict := rfl
@[simp] theorem setArrAux_mem (e pa : Nat) (x : ArrAux) : (setArrAux s e pa x).mem = s.mem := rfl
@[simp] theorem setArrAux_poison (e pa : Nat) (x : ArrAux) : (setArrAux s e pa x).poison = s.poison := rfl
@[simp] theorem setArrAux_hub (e pa : Nat) (x : ArrAux) : (setArrAux s e pa x).hub = s.hub := rfl
@[simp] theorem setArrAux_dev (e pa : Nat) (x : ArrAux) : (setArrAux s e pa x).dev = s.dev := rfl
@[simp] theorem setArrAux_jobs (e pa : Nat) (x : ArrAux) : (setArrAux s e pa x).jobs = s.jobs := rfl
@[simp] theorem setArrAux_fab (e pa : Nat) (x : ArrAux) : (setArrAux s e pa x).fab = s.fab := rfl
@[simp] theorem setArrAux_d2d (e pa : Nat) (x : ArrAux) : (setArrAux s e pa x).d2d = s.d2d := rfl
@[simp] theorem setArrAux_sec (e pa : Nat) (x : ArrAux) : (setArrAux s e pa x).sec = s.sec := rfl
@[simp] theorem setArrAux_rel (e pa : Nat) (x : ArrAux) : (setArrAux s e pa x).rel = s.rel := rfl
@[simp] theorem setArrAux_pow (e pa : Nat) (x : ArrAux) : (setArrAux s e pa x).pow = s.pow := rfl
@[simp] theorem setArrAux_mgmt (e pa : Nat) (x : ArrAux) : (setArrAux s e pa x).mgmt = s.mgmt := rfl

/-! `setLink` -/
@[simp] theorem setLink_pending (l : Nat) (x : Link) : (setLink s l x).pending = s.pending := rfl
@[simp] theorem setLink_time (l : Nat) (x : Link) : (setLink s l x).time = s.time := rfl
@[simp] theorem setLink_freeCtr (l : Nat) (x : Link) : (setLink s l x).freeCtr = s.freeCtr := rfl
@[simp] theorem setLink_regs (l : Nat) (x : Link) : (setLink s l x).regs = s.regs := rfl
@[simp] theorem setLink_pend (l : Nat) (x : Link) : (setLink s l x).pend = s.pend := rfl
@[simp] theorem setLink_dict (l : Nat) (x : Link) : (setLink s l x).dict = s.dict := rfl
@[simp] theorem setLink_mem (l : Nat) (x : Link) : (setLink s l x).mem = s.mem := rfl
@[simp] theorem setLink_poison (l : Nat) (x : Link) : (setLink s l x).poison = s.poison := rfl
@[simp] theorem setLink_eng (l : Nat) (x : Link) : (setLink s l x).eng = s.eng := rfl
@[simp] theorem setLink_hub (l : Nat) (x : Link) : (setLink s l x).hub = s.hub := rfl
@[simp] theorem setLink_dev (l : Nat) (x : Link) : (setLink s l x).dev = s.dev := rfl
@[simp] theorem setLink_jobs (l : Nat) (x : Link) : (setLink s l x).jobs = s.jobs := rfl
@[simp] theorem setLink_fab (l : Nat) (x : Link) : (setLink s l x).fab = s.fab := rfl
@[simp] theorem setLink_sec (l : Nat) (x : Link) : (setLink s l x).sec = s.sec := rfl
@[simp] theorem setLink_rel (l : Nat) (x : Link) : (setLink s l x).rel = s.rel := rfl
@[simp] theorem setLink_pow (l : Nat) (x : Link) : (setLink s l x).pow = s.pow := rfl
@[simp] theorem setLink_mgmt (l : Nat) (x : Link) : (setLink s l x).mgmt = s.mgmt := rfl

/-! `setDieMhz` -/
@[simp] theorem setDieMhz_pending (d v : Nat) : (setDieMhz s d v).pending = s.pending := rfl
@[simp] theorem setDieMhz_time (d v : Nat) : (setDieMhz s d v).time = s.time := rfl
@[simp] theorem setDieMhz_freeCtr (d v : Nat) : (setDieMhz s d v).freeCtr = s.freeCtr := rfl
@[simp] theorem setDieMhz_regs (d v : Nat) : (setDieMhz s d v).regs = s.regs := rfl
@[simp] theorem setDieMhz_pend (d v : Nat) : (setDieMhz s d v).pend = s.pend := rfl
@[simp] theorem setDieMhz_dict (d v : Nat) : (setDieMhz s d v).dict = s.dict := rfl
@[simp] theorem setDieMhz_mem (d v : Nat) : (setDieMhz s d v).mem = s.mem := rfl
@[simp] theorem setDieMhz_poison (d v : Nat) : (setDieMhz s d v).poison = s.poison := rfl
@[simp] theorem setDieMhz_eng (d v : Nat) : (setDieMhz s d v).eng = s.eng := rfl
@[simp] theorem setDieMhz_hub (d v : Nat) : (setDieMhz s d v).hub = s.hub := rfl
@[simp] theorem setDieMhz_dev (d v : Nat) : (setDieMhz s d v).dev = s.dev := rfl
@[simp] theorem setDieMhz_jobs (d v : Nat) : (setDieMhz s d v).jobs = s.jobs := rfl
@[simp] theorem setDieMhz_fab (d v : Nat) : (setDieMhz s d v).fab = s.fab := rfl
@[simp] theorem setDieMhz_d2d (d v : Nat) : (setDieMhz s d v).d2d = s.d2d := rfl
@[simp] theorem setDieMhz_sec (d v : Nat) : (setDieMhz s d v).sec = s.sec := rfl
@[simp] theorem setDieMhz_rel (d v : Nat) : (setDieMhz s d v).rel = s.rel := rfl
@[simp] theorem setDieMhz_mgmt (d v : Nat) : (setDieMhz s d v).mgmt = s.mgmt := rfl

/-! `setScLimit` -/
@[simp] theorem setScLimit_pending (n v : Nat) : (setScLimit s n v).pending = s.pending := rfl
@[simp] theorem setScLimit_time (n v : Nat) : (setScLimit s n v).time = s.time := rfl
@[simp] theorem setScLimit_freeCtr (n v : Nat) : (setScLimit s n v).freeCtr = s.freeCtr := rfl
@[simp] theorem setScLimit_regs (n v : Nat) : (setScLimit s n v).regs = s.regs := rfl
@[simp] theorem setScLimit_pend (n v : Nat) : (setScLimit s n v).pend = s.pend := rfl
@[simp] theorem setScLimit_dict (n v : Nat) : (setScLimit s n v).dict = s.dict := rfl
@[simp] theorem setScLimit_mem (n v : Nat) : (setScLimit s n v).mem = s.mem := rfl
@[simp] theorem setScLimit_poison (n v : Nat) : (setScLimit s n v).poison = s.poison := rfl
@[simp] theorem setScLimit_eng (n v : Nat) : (setScLimit s n v).eng = s.eng := rfl
@[simp] theorem setScLimit_hub (n v : Nat) : (setScLimit s n v).hub = s.hub := rfl
@[simp] theorem setScLimit_dev (n v : Nat) : (setScLimit s n v).dev = s.dev := rfl
@[simp] theorem setScLimit_jobs (n v : Nat) : (setScLimit s n v).jobs = s.jobs := rfl
@[simp] theorem setScLimit_fab (n v : Nat) : (setScLimit s n v).fab = s.fab := rfl
@[simp] theorem setScLimit_d2d (n v : Nat) : (setScLimit s n v).d2d = s.d2d := rfl
@[simp] theorem setScLimit_sec (n v : Nat) : (setScLimit s n v).sec = s.sec := rfl
@[simp] theorem setScLimit_rel (n v : Nat) : (setScLimit s n v).rel = s.rel := rfl
@[simp] theorem setScLimit_mgmt (n v : Nat) : (setScLimit s n v).mgmt = s.mgmt := rfl

/-! `remeasure` -/
@[simp] theorem remeasure_pending (i : Nat) : (remeasure s i).pending = s.pending := rfl
@[simp] theorem remeasure_time (i : Nat) : (remeasure s i).time = s.time := rfl
@[simp] theorem remeasure_freeCtr (i : Nat) : (remeasure s i).freeCtr = s.freeCtr := rfl
@[simp] theorem remeasure_regs (i : Nat) : (remeasure s i).regs = s.regs := rfl
@[simp] theorem remeasure_pend (i : Nat) : (remeasure s i).pend = s.pend := rfl
@[simp] theorem remeasure_dict (i : Nat) : (remeasure s i).dict = s.dict := rfl
@[simp] theorem remeasure_mem (i : Nat) : (remeasure s i).mem = s.mem := rfl
@[simp] theorem remeasure_poison (i : Nat) : (remeasure s i).poison = s.poison := rfl
@[simp] theorem remeasure_eng (i : Nat) : (remeasure s i).eng = s.eng := rfl
@[simp] theorem remeasure_hub (i : Nat) : (remeasure s i).hub = s.hub := rfl
@[simp] theorem remeasure_dev (i : Nat) : (remeasure s i).dev = s.dev := rfl
@[simp] theorem remeasure_jobs (i : Nat) : (remeasure s i).jobs = s.jobs := rfl
@[simp] theorem remeasure_fab (i : Nat) : (remeasure s i).fab = s.fab := rfl
@[simp] theorem remeasure_d2d (i : Nat) : (remeasure s i).d2d = s.d2d := rfl
@[simp] theorem remeasure_rel (i : Nat) : (remeasure s i).rel = s.rel := rfl
@[simp] theorem remeasure_pow (i : Nat) : (remeasure s i).pow = s.pow := rfl
@[simp] theorem remeasure_mgmt (i : Nat) : (remeasure s i).mgmt = s.mgmt := rfl

/-! `setDmReg` -/
@[simp] theorem setDmReg_pending (dm a v : Nat) : (setDmReg s dm a v).pending = s.pending := rfl
@[simp] theorem setDmReg_time (dm a v : Nat) : (setDmReg s dm a v).time = s.time := rfl
@[simp] theorem setDmReg_freeCtr (dm a v : Nat) : (setDmReg s dm a v).freeCtr = s.freeCtr := rfl
@[simp] theorem setDmReg_regs (dm a v : Nat) : (setDmReg s dm a v).regs = s.regs := rfl
@[simp] theorem setDmReg_pend (dm a v : Nat) : (setDmReg s dm a v).pend = s.pend := rfl
@[simp] theorem setDmReg_dict (dm a v : Nat) : (setDmReg s dm a v).dict = s.dict := rfl
@[simp] theorem setDmReg_mem (dm a v : Nat) : (setDmReg s dm a v).mem = s.mem := rfl
@[simp] theorem setDmReg_poison (dm a v : Nat) : (setDmReg s dm a v).poison = s.poison := rfl
@[simp] theorem setDmReg_eng (dm a v : Nat) : (setDmReg s dm a v).eng = s.eng := rfl
@[simp] theorem setDmReg_hub (dm a v : Nat) : (setDmReg s dm a v).hub = s.hub := rfl
@[simp] theorem setDmReg_dev (dm a v : Nat) : (setDmReg s dm a v).dev = s.dev := rfl
@[simp] theorem setDmReg_jobs (dm a v : Nat) : (setDmReg s dm a v).jobs = s.jobs := rfl
@[simp] theorem setDmReg_fab (dm a v : Nat) : (setDmReg s dm a v).fab = s.fab := rfl
@[simp] theorem setDmReg_d2d (dm a v : Nat) : (setDmReg s dm a v).d2d = s.d2d := rfl
@[simp] theorem setDmReg_sec (dm a v : Nat) : (setDmReg s dm a v).sec = s.sec := rfl
@[simp] theorem setDmReg_rel (dm a v : Nat) : (setDmReg s dm a v).rel = s.rel := rfl
@[simp] theorem setDmReg_pow (dm a v : Nat) : (setDmReg s dm a v).pow = s.pow := rfl

/-! `setStage` -/
@[simp] theorem setStage_pending (k v : Nat) : (setStage s k v).pending = s.pending := rfl
@[simp] theorem setStage_time (k v : Nat) : (setStage s k v).time = s.time := rfl
@[simp] theorem setStage_freeCtr (k v : Nat) : (setStage s k v).freeCtr = s.freeCtr := rfl
@[simp] theorem setStage_regs (k v : Nat) : (setStage s k v).regs = s.regs := rfl
@[simp] theorem setStage_pend (k v : Nat) : (setStage s k v).pend = s.pend := rfl
@[simp] theorem setStage_mem (k v : Nat) : (setStage s k v).mem = s.mem := rfl
@[simp] theorem setStage_poison (k v : Nat) : (setStage s k v).poison = s.poison := rfl
@[simp] theorem setStage_eng (k v : Nat) : (setStage s k v).eng = s.eng := rfl
@[simp] theorem setStage_hub (k v : Nat) : (setStage s k v).hub = s.hub := rfl
@[simp] theorem setStage_dev (k v : Nat) : (setStage s k v).dev = s.dev := rfl
@[simp] theorem setStage_jobs (k v : Nat) : (setStage s k v).jobs = s.jobs := rfl
@[simp] theorem setStage_fab (k v : Nat) : (setStage s k v).fab = s.fab := rfl
@[simp] theorem setStage_d2d (k v : Nat) : (setStage s k v).d2d = s.d2d := rfl
@[simp] theorem setStage_sec (k v : Nat) : (setStage s k v).sec = s.sec := rfl
@[simp] theorem setStage_rel (k v : Nat) : (setStage s k v).rel = s.rel := rfl
@[simp] theorem setStage_pow (k v : Nat) : (setStage s k v).pow = s.pow := rfl
@[simp] theorem setStage_mgmt (k v : Nat) : (setStage s k v).mgmt = s.mgmt := rfl

/-! `setStageSet` -/
@[simp] theorem setStageSet_pending (k : Nat) (x : StageSet) : (setStageSet s k x).pending = s.pending := rfl
@[simp] theorem setStageSet_time (k : Nat) (x : StageSet) : (setStageSet s k x).time = s.time := rfl
@[simp] theorem setStageSet_freeCtr (k : Nat) (x : StageSet) : (setStageSet s k x).freeCtr = s.freeCtr := rfl
@[simp] theorem setStageSet_regs (k : Nat) (x : StageSet) : (setStageSet s k x).regs = s.regs := rfl
@[simp] theorem setStageSet_pend (k : Nat) (x : StageSet) : (setStageSet s k x).pend = s.pend := rfl
@[simp] theorem setStageSet_dict (k : Nat) (x : StageSet) : (setStageSet s k x).dict = s.dict := rfl
@[simp] theorem setStageSet_mem (k : Nat) (x : StageSet) : (setStageSet s k x).mem = s.mem := rfl
@[simp] theorem setStageSet_poison (k : Nat) (x : StageSet) : (setStageSet s k x).poison = s.poison := rfl
@[simp] theorem setStageSet_eng (k : Nat) (x : StageSet) : (setStageSet s k x).eng = s.eng := rfl
@[simp] theorem setStageSet_hub (k : Nat) (x : StageSet) : (setStageSet s k x).hub = s.hub := rfl
@[simp] theorem setStageSet_dev (k : Nat) (x : StageSet) : (setStageSet s k x).dev = s.dev := rfl
@[simp] theorem setStageSet_jobs (k : Nat) (x : StageSet) : (setStageSet s k x).jobs = s.jobs := rfl
@[simp] theorem setStageSet_fab (k : Nat) (x : StageSet) : (setStageSet s k x).fab = s.fab := rfl
@[simp] theorem setStageSet_d2d (k : Nat) (x : StageSet) : (setStageSet s k x).d2d = s.d2d := rfl
@[simp] theorem setStageSet_rel (k : Nat) (x : StageSet) : (setStageSet s k x).rel = s.rel := rfl
@[simp] theorem setStageSet_pow (k : Nat) (x : StageSet) : (setStageSet s k x).pow = s.pow := rfl
@[simp] theorem setStageSet_mgmt (k : Nat) (x : StageSet) : (setStageSet s k x).mgmt = s.mgmt := rfl

/-! `setSpdmConn` -/
@[simp] theorem setSpdmConn_pending (tr : Transport) (c : SpdmConn) : (setSpdmConn s tr c).pending = s.pending := rfl
@[simp] theorem setSpdmConn_time (tr : Transport) (c : SpdmConn) : (setSpdmConn s tr c).time = s.time := rfl
@[simp] theorem setSpdmConn_freeCtr (tr : Transport) (c : SpdmConn) : (setSpdmConn s tr c).freeCtr = s.freeCtr := rfl
@[simp] theorem setSpdmConn_regs (tr : Transport) (c : SpdmConn) : (setSpdmConn s tr c).regs = s.regs := rfl
@[simp] theorem setSpdmConn_pend (tr : Transport) (c : SpdmConn) : (setSpdmConn s tr c).pend = s.pend := rfl
@[simp] theorem setSpdmConn_dict (tr : Transport) (c : SpdmConn) : (setSpdmConn s tr c).dict = s.dict := rfl
@[simp] theorem setSpdmConn_mem (tr : Transport) (c : SpdmConn) : (setSpdmConn s tr c).mem = s.mem := rfl
@[simp] theorem setSpdmConn_poison (tr : Transport) (c : SpdmConn) : (setSpdmConn s tr c).poison = s.poison := rfl
@[simp] theorem setSpdmConn_eng (tr : Transport) (c : SpdmConn) : (setSpdmConn s tr c).eng = s.eng := rfl
@[simp] theorem setSpdmConn_hub (tr : Transport) (c : SpdmConn) : (setSpdmConn s tr c).hub = s.hub := rfl
@[simp] theorem setSpdmConn_dev (tr : Transport) (c : SpdmConn) : (setSpdmConn s tr c).dev = s.dev := rfl
@[simp] theorem setSpdmConn_jobs (tr : Transport) (c : SpdmConn) : (setSpdmConn s tr c).jobs = s.jobs := rfl
@[simp] theorem setSpdmConn_fab (tr : Transport) (c : SpdmConn) : (setSpdmConn s tr c).fab = s.fab := rfl
@[simp] theorem setSpdmConn_d2d (tr : Transport) (c : SpdmConn) : (setSpdmConn s tr c).d2d = s.d2d := rfl
@[simp] theorem setSpdmConn_rel (tr : Transport) (c : SpdmConn) : (setSpdmConn s tr c).rel = s.rel := rfl
@[simp] theorem setSpdmConn_pow (tr : Transport) (c : SpdmConn) : (setSpdmConn s tr c).pow = s.pow := rfl
@[simp] theorem setSpdmConn_mgmt (tr : Transport) (c : SpdmConn) : (setSpdmConn s tr c).mgmt = s.mgmt := rfl

/-! `spdmPut` -/
@[simp] theorem spdmPut_pending (a b c d : Nat) (x : Bytes) : (spdmPut s a b c d x).pending = s.pending := rfl
@[simp] theorem spdmPut_time (a b c d : Nat) (x : Bytes) : (spdmPut s a b c d x).time = s.time := rfl
@[simp] theorem spdmPut_freeCtr (a b c d : Nat) (x : Bytes) : (spdmPut s a b c d x).freeCtr = s.freeCtr := rfl
@[simp] theorem spdmPut_regs (a b c d : Nat) (x : Bytes) : (spdmPut s a b c d x).regs = s.regs := rfl
@[simp] theorem spdmPut_pend (a b c d : Nat) (x : Bytes) : (spdmPut s a b c d x).pend = s.pend := rfl
@[simp] theorem spdmPut_dict (a b c d : Nat) (x : Bytes) : (spdmPut s a b c d x).dict = s.dict := rfl
@[simp] theorem spdmPut_mem (a b c d : Nat) (x : Bytes) : (spdmPut s a b c d x).mem = s.mem := rfl
@[simp] theorem spdmPut_poison (a b c d : Nat) (x : Bytes) : (spdmPut s a b c d x).poison = s.poison := rfl
@[simp] theorem spdmPut_eng (a b c d : Nat) (x : Bytes) : (spdmPut s a b c d x).eng = s.eng := rfl
@[simp] theorem spdmPut_hub (a b c d : Nat) (x : Bytes) : (spdmPut s a b c d x).hub = s.hub := rfl
@[simp] theorem spdmPut_dev (a b c d : Nat) (x : Bytes) : (spdmPut s a b c d x).dev = s.dev := rfl
@[simp] theorem spdmPut_jobs (a b c d : Nat) (x : Bytes) : (spdmPut s a b c d x).jobs = s.jobs := rfl
@[simp] theorem spdmPut_fab (a b c d : Nat) (x : Bytes) : (spdmPut s a b c d x).fab = s.fab := rfl
@[simp] theorem spdmPut_d2d (a b c d : Nat) (x : Bytes) : (spdmPut s a b c d x).d2d = s.d2d := rfl
@[simp] theorem spdmPut_rel (a b c d : Nat) (x : Bytes) : (spdmPut s a b c d x).rel = s.rel := rfl
@[simp] theorem spdmPut_pow (a b c d : Nat) (x : Bytes) : (spdmPut s a b c d x).pow = s.pow := rfl
@[simp] theorem spdmPut_mgmt (a b c d : Nat) (x : Bytes) : (spdmPut s a b c d x).mgmt = s.mgmt := rfl

/-! `setXfer` -/
@[simp] theorem setXfer_pending (tr : Transport) (x : Xfer) : (setXfer s tr x).pending = s.pending := rfl
@[simp] theorem setXfer_time (tr : Transport) (x : Xfer) : (setXfer s tr x).time = s.time := rfl
@[simp] theorem setXfer_freeCtr (tr : Transport) (x : Xfer) : (setXfer s tr x).freeCtr = s.freeCtr := rfl
@[simp] theorem setXfer_regs (tr : Transport) (x : Xfer) : (setXfer s tr x).regs = s.regs := rfl
@[simp] theorem setXfer_pend (tr : Transport) (x : Xfer) : (setXfer s tr x).pend = s.pend := rfl
@[simp] theorem setXfer_dict (tr : Transport) (x : Xfer) : (setXfer s tr x).dict = s.dict := rfl
@[simp] theorem setXfer_mem (tr : Transport) (x : Xfer) : (setXfer s tr x).mem = s.mem := rfl
@[simp] theorem setXfer_poison (tr : Transport) (x : Xfer) : (setXfer s tr x).poison = s.poison := rfl
@[simp] theorem setXfer_eng (tr : Transport) (x : Xfer) : (setXfer s tr x).eng = s.eng := rfl
@[simp] theorem setXfer_hub (tr : Transport) (x : Xfer) : (setXfer s tr x).hub = s.hub := rfl
@[simp] theorem setXfer_dev (tr : Transport) (x : Xfer) : (setXfer s tr x).dev = s.dev := rfl
@[simp] theorem setXfer_jobs (tr : Transport) (x : Xfer) : (setXfer s tr x).jobs = s.jobs := rfl
@[simp] theorem setXfer_fab (tr : Transport) (x : Xfer) : (setXfer s tr x).fab = s.fab := rfl
@[simp] theorem setXfer_d2d (tr : Transport) (x : Xfer) : (setXfer s tr x).d2d = s.d2d := rfl
@[simp] theorem setXfer_sec (tr : Transport) (x : Xfer) : (setXfer s tr x).sec = s.sec := rfl
@[simp] theorem setXfer_rel (tr : Transport) (x : Xfer) : (setXfer s tr x).rel = s.rel := rfl
@[simp] theorem setXfer_pow (tr : Transport) (x : Xfer) : (setXfer s tr x).pow = s.pow := rfl

/-! `dropXfer` -/
@[simp] theorem dropXfer_pending (tr : Transport) : (dropXfer s tr).pending = s.pending := rfl
@[simp] theorem dropXfer_time (tr : Transport) : (dropXfer s tr).time = s.time := rfl
@[simp] theorem dropXfer_freeCtr (tr : Transport) : (dropXfer s tr).freeCtr = s.freeCtr := rfl
@[simp] theorem dropXfer_regs (tr : Transport) : (dropXfer s tr).regs = s.regs := rfl
@[simp] theorem dropXfer_pend (tr : Transport) : (dropXfer s tr).pend = s.pend := rfl
@[simp] theorem dropXfer_dict (tr : Transport) : (dropXfer s tr).dict = s.dict := rfl
@[simp] theorem dropXfer_mem (tr : Transport) : (dropXfer s tr).mem = s.mem := rfl
@[simp] theorem dropXfer_poison (tr : Transport) : (dropXfer s tr).poison = s.poison := rfl
@[simp] theorem dropXfer_eng (tr : Transport) : (dropXfer s tr).eng = s.eng := rfl
@[simp] theorem dropXfer_hub (tr : Transport) : (dropXfer s tr).hub = s.hub := rfl
@[simp] theorem dropXfer_dev (tr : Transport) : (dropXfer s tr).dev = s.dev := rfl
@[simp] theorem dropXfer_jobs (tr : Transport) : (dropXfer s tr).jobs = s.jobs := rfl
@[simp] theorem dropXfer_fab (tr : Transport) : (dropXfer s tr).fab = s.fab := rfl
@[simp] theorem dropXfer_d2d (tr : Transport) : (dropXfer s tr).d2d = s.d2d := rfl
@[simp] theorem dropXfer_sec (tr : Transport) : (dropXfer s tr).sec = s.sec := rfl
@[simp] theorem dropXfer_rel (tr : Transport) : (dropXfer s tr).rel = s.rel := rfl
@[simp] theorem dropXfer_pow (tr : Transport) : (dropXfer s tr).pow = s.pow := rfl

/-! `endSessions` -/
@[simp] theorem endSessions_pending (f : Nat → Bool) : (endSessions s f).pending = s.pending := rfl
@[simp] theorem endSessions_time (f : Nat → Bool) : (endSessions s f).time = s.time := rfl
@[simp] theorem endSessions_freeCtr (f : Nat → Bool) : (endSessions s f).freeCtr = s.freeCtr := rfl
@[simp] theorem endSessions_regs (f : Nat → Bool) : (endSessions s f).regs = s.regs := rfl
@[simp] theorem endSessions_pend (f : Nat → Bool) : (endSessions s f).pend = s.pend := rfl
@[simp] theorem endSessions_dict (f : Nat → Bool) : (endSessions s f).dict = s.dict := rfl
@[simp] theorem endSessions_mem (f : Nat → Bool) : (endSessions s f).mem = s.mem := rfl
@[simp] theorem endSessions_poison (f : Nat → Bool) : (endSessions s f).poison = s.poison := rfl
@[simp] theorem endSessions_eng (f : Nat → Bool) : (endSessions s f).eng = s.eng := rfl
@[simp] theorem endSessions_hub (f : Nat → Bool) : (endSessions s f).hub = s.hub := rfl
@[simp] theorem endSessions_dev (f : Nat → Bool) : (endSessions s f).dev = s.dev := rfl
@[simp] theorem endSessions_jobs (f : Nat → Bool) : (endSessions s f).jobs = s.jobs := rfl
@[simp] theorem endSessions_fab (f : Nat → Bool) : (endSessions s f).fab = s.fab := rfl
@[simp] theorem endSessions_d2d (f : Nat → Bool) : (endSessions s f).d2d = s.d2d := rfl
@[simp] theorem endSessions_rel (f : Nat → Bool) : (endSessions s f).rel = s.rel := rfl
@[simp] theorem endSessions_pow (f : Nat → Bool) : (endSessions s f).pow = s.pow := rfl

/-! `slcPages` -/
@[simp] theorem slcPages_pending (n : Nat) : (slcPages s n).pending = s.pending := rfl
@[simp] theorem slcPages_time (n : Nat) : (slcPages s n).time = s.time := rfl
@[simp] theorem slcPages_freeCtr (n : Nat) : (slcPages s n).freeCtr = s.freeCtr := rfl
@[simp] theorem slcPages_regs (n : Nat) : (slcPages s n).regs = s.regs := rfl
@[simp] theorem slcPages_pend (n : Nat) : (slcPages s n).pend = s.pend := rfl
@[simp] theorem slcPages_dict (n : Nat) : (slcPages s n).dict = s.dict := rfl
@[simp] theorem slcPages_mem (n : Nat) : (slcPages s n).mem = s.mem := rfl
@[simp] theorem slcPages_poison (n : Nat) : (slcPages s n).poison = s.poison := rfl
@[simp] theorem slcPages_eng (n : Nat) : (slcPages s n).eng = s.eng := rfl
@[simp] theorem slcPages_hub (n : Nat) : (slcPages s n).hub = s.hub := rfl
@[simp] theorem slcPages_jobs (n : Nat) : (slcPages s n).jobs = s.jobs := rfl
@[simp] theorem slcPages_fab (n : Nat) : (slcPages s n).fab = s.fab := rfl
@[simp] theorem slcPages_d2d (n : Nat) : (slcPages s n).d2d = s.d2d := rfl
@[simp] theorem slcPages_sec (n : Nat) : (slcPages s n).sec = s.sec := rfl
@[simp] theorem slcPages_rel (n : Nat) : (slcPages s n).rel = s.rel := rfl
@[simp] theorem slcPages_pow (n : Nat) : (slcPages s n).pow = s.pow := rfl
@[simp] theorem slcPages_mgmt (n : Nat) : (slcPages s n).mgmt = s.mgmt := rfl

/-! `unmapPage` -/
@[simp] theorem unmapPage_pending (lpn : Nat) : (unmapPage s lpn).pending = s.pending := rfl
@[simp] theorem unmapPage_time (lpn : Nat) : (unmapPage s lpn).time = s.time := rfl
@[simp] theorem unmapPage_freeCtr (lpn : Nat) : (unmapPage s lpn).freeCtr = s.freeCtr := rfl
@[simp] theorem unmapPage_regs (lpn : Nat) : (unmapPage s lpn).regs = s.regs := rfl
@[simp] theorem unmapPage_pend (lpn : Nat) : (unmapPage s lpn).pend = s.pend := rfl
@[simp] theorem unmapPage_dict (lpn : Nat) : (unmapPage s lpn).dict = s.dict := rfl
@[simp] theorem unmapPage_mem (lpn : Nat) : (unmapPage s lpn).mem = s.mem := rfl
@[simp] theorem unmapPage_poison (lpn : Nat) : (unmapPage s lpn).poison = s.poison := rfl
@[simp] theorem unmapPage_eng (lpn : Nat) : (unmapPage s lpn).eng = s.eng := rfl
@[simp] theorem unmapPage_hub (lpn : Nat) : (unmapPage s lpn).hub = s.hub := rfl
@[simp] theorem unmapPage_jobs (lpn : Nat) : (unmapPage s lpn).jobs = s.jobs := rfl
@[simp] theorem unmapPage_fab (lpn : Nat) : (unmapPage s lpn).fab = s.fab := rfl
@[simp] theorem unmapPage_d2d (lpn : Nat) : (unmapPage s lpn).d2d = s.d2d := rfl
@[simp] theorem unmapPage_sec (lpn : Nat) : (unmapPage s lpn).sec = s.sec := rfl
@[simp] theorem unmapPage_rel (lpn : Nat) : (unmapPage s lpn).rel = s.rel := rfl
@[simp] theorem unmapPage_pow (lpn : Nat) : (unmapPage s lpn).pow = s.pow := rfl
@[simp] theorem unmapPage_mgmt (lpn : Nat) : (unmapPage s lpn).mgmt = s.mgmt := rfl

/-! `foldJournal` -/
@[simp] theorem foldJournal_pending : (foldJournal s).pending = s.pending := rfl
@[simp] theorem foldJournal_time : (foldJournal s).time = s.time := rfl
@[simp] theorem foldJournal_freeCtr : (foldJournal s).freeCtr = s.freeCtr := rfl
@[simp] theorem foldJournal_regs : (foldJournal s).regs = s.regs := rfl
@[simp] theorem foldJournal_pend : (foldJournal s).pend = s.pend := rfl
@[simp] theorem foldJournal_dict : (foldJournal s).dict = s.dict := rfl
@[simp] theorem foldJournal_mem : (foldJournal s).mem = s.mem := rfl
@[simp] theorem foldJournal_poison : (foldJournal s).poison = s.poison := rfl
@[simp] theorem foldJournal_eng : (foldJournal s).eng = s.eng := rfl
@[simp] theorem foldJournal_hub : (foldJournal s).hub = s.hub := rfl
@[simp] theorem foldJournal_jobs : (foldJournal s).jobs = s.jobs := rfl
@[simp] theorem foldJournal_fab : (foldJournal s).fab = s.fab := rfl
@[simp] theorem foldJournal_d2d : (foldJournal s).d2d = s.d2d := rfl
@[simp] theorem foldJournal_sec : (foldJournal s).sec = s.sec := rfl
@[simp] theorem foldJournal_rel : (foldJournal s).rel = s.rel := rfl
@[simp] theorem foldJournal_pow : (foldJournal s).pow = s.pow := rfl
@[simp] theorem foldJournal_mgmt : (foldJournal s).mgmt = s.mgmt := rfl

/-! `tierDrop` -/
@[simp] theorem tierDrop_pending (u : SpoolId) (k : Nat) : (tierDrop s u k).pending = s.pending := rfl
@[simp] theorem tierDrop_time (u : SpoolId) (k : Nat) : (tierDrop s u k).time = s.time := rfl
@[simp] theorem tierDrop_freeCtr (u : SpoolId) (k : Nat) : (tierDrop s u k).freeCtr = s.freeCtr := rfl
@[simp] theorem tierDrop_regs (u : SpoolId) (k : Nat) : (tierDrop s u k).regs = s.regs := rfl
@[simp] theorem tierDrop_pend (u : SpoolId) (k : Nat) : (tierDrop s u k).pend = s.pend := rfl
@[simp] theorem tierDrop_dict (u : SpoolId) (k : Nat) : (tierDrop s u k).dict = s.dict := rfl
@[simp] theorem tierDrop_mem (u : SpoolId) (k : Nat) : (tierDrop s u k).mem = s.mem := rfl
@[simp] theorem tierDrop_poison (u : SpoolId) (k : Nat) : (tierDrop s u k).poison = s.poison := rfl
@[simp] theorem tierDrop_eng (u : SpoolId) (k : Nat) : (tierDrop s u k).eng = s.eng := rfl
@[simp] theorem tierDrop_dev (u : SpoolId) (k : Nat) : (tierDrop s u k).dev = s.dev := rfl
@[simp] theorem tierDrop_jobs (u : SpoolId) (k : Nat) : (tierDrop s u k).jobs = s.jobs := rfl
@[simp] theorem tierDrop_fab (u : SpoolId) (k : Nat) : (tierDrop s u k).fab = s.fab := rfl
@[simp] theorem tierDrop_d2d (u : SpoolId) (k : Nat) : (tierDrop s u k).d2d = s.d2d := rfl
@[simp] theorem tierDrop_sec (u : SpoolId) (k : Nat) : (tierDrop s u k).sec = s.sec := rfl
@[simp] theorem tierDrop_rel (u : SpoolId) (k : Nat) : (tierDrop s u k).rel = s.rel := rfl
@[simp] theorem tierDrop_pow (u : SpoolId) (k : Nat) : (tierDrop s u k).pow = s.pow := rfl
@[simp] theorem tierDrop_mgmt (u : SpoolId) (k : Nat) : (tierDrop s u k).mgmt = s.mgmt := rfl

/-! `dropConsults` -/
@[simp] theorem dropConsults_pending (f : XlateReq → Bool) : (dropConsults s f).pending = s.pending := rfl
@[simp] theorem dropConsults_time (f : XlateReq → Bool) : (dropConsults s f).time = s.time := rfl
@[simp] theorem dropConsults_freeCtr (f : XlateReq → Bool) : (dropConsults s f).freeCtr = s.freeCtr := rfl
@[simp] theorem dropConsults_regs (f : XlateReq → Bool) : (dropConsults s f).regs = s.regs := rfl
@[simp] theorem dropConsults_pend (f : XlateReq → Bool) : (dropConsults s f).pend = s.pend := rfl
@[simp] theorem dropConsults_dict (f : XlateReq → Bool) : (dropConsults s f).dict = s.dict := rfl
@[simp] theorem dropConsults_mem (f : XlateReq → Bool) : (dropConsults s f).mem = s.mem := rfl
@[simp] theorem dropConsults_poison (f : XlateReq → Bool) : (dropConsults s f).poison = s.poison := rfl
@[simp] theorem dropConsults_eng (f : XlateReq → Bool) : (dropConsults s f).eng = s.eng := rfl
@[simp] theorem dropConsults_dev (f : XlateReq → Bool) : (dropConsults s f).dev = s.dev := rfl
@[simp] theorem dropConsults_jobs (f : XlateReq → Bool) : (dropConsults s f).jobs = s.jobs := rfl
@[simp] theorem dropConsults_fab (f : XlateReq → Bool) : (dropConsults s f).fab = s.fab := rfl
@[simp] theorem dropConsults_d2d (f : XlateReq → Bool) : (dropConsults s f).d2d = s.d2d := rfl
@[simp] theorem dropConsults_sec (f : XlateReq → Bool) : (dropConsults s f).sec = s.sec := rfl
@[simp] theorem dropConsults_rel (f : XlateReq → Bool) : (dropConsults s f).rel = s.rel := rfl
@[simp] theorem dropConsults_pow (f : XlateReq → Bool) : (dropConsults s f).pow = s.pow := rfl
@[simp] theorem dropConsults_mgmt (f : XlateReq → Bool) : (dropConsults s f).mgmt = s.mgmt := rfl

/-! `tick` -/
@[simp] theorem tick_pending : (tick s).pending = s.pending := rfl
@[simp] theorem tick_freeCtr : (tick s).freeCtr = s.freeCtr := rfl
@[simp] theorem tick_regs : (tick s).regs = s.regs := rfl
@[simp] theorem tick_pend : (tick s).pend = s.pend := rfl
@[simp] theorem tick_dict : (tick s).dict = s.dict := rfl
@[simp] theorem tick_mem : (tick s).mem = s.mem := rfl
@[simp] theorem tick_poison : (tick s).poison = s.poison := rfl
@[simp] theorem tick_eng : (tick s).eng = s.eng := rfl
@[simp] theorem tick_hub : (tick s).hub = s.hub := rfl
@[simp] theorem tick_dev : (tick s).dev = s.dev := rfl
@[simp] theorem tick_jobs : (tick s).jobs = s.jobs := rfl
@[simp] theorem tick_fab : (tick s).fab = s.fab := rfl
@[simp] theorem tick_d2d : (tick s).d2d = s.d2d := rfl
@[simp] theorem tick_sec : (tick s).sec = s.sec := rfl
@[simp] theorem tick_rel : (tick s).rel = s.rel := rfl
@[simp] theorem tick_pow : (tick s).pow = s.pow := rfl
@[simp] theorem tick_mgmt : (tick s).mgmt = s.mgmt := rfl

end Sys2Proof.Machine
end

