-- ==== Sys2Proof/Machine/MxWord.lean ====
section
/-! DEFINITION. What a Spindle core does on a custom-0 word (R121). -/

namespace Sys2Proof.Machine

open Sys2Proof

/-- A custom-0 word on a core: its matrix-issue instruction, or for funct3 7 an illegal instruction (R121). A core in reset or halted
fetches none. -/
def execMxWord (c : CoreId) (w : BitVec 32) (s : State) : Host.Outcome State Fault Refusal :=
  match mxDecode c w.toNat with
  | some i => exec i s
  | none => .next (match hartOf s c with
    | none => s
    | some h => illegal s c h)

end Sys2Proof.Machine
end

