-- ==== Sys2Proof/Tests/Slice0.lean ====
section
/-! SUPPORT. Small states, and for every statement of Obligations.lean with hypotheses a theorem that shows states and operands which meet them, clause
by clause; ill-formed commands that `Instr.wf` refuses; and steps of single commands. -/

open Sys2Proof Sys2Proof.Machine

section

set_option Elab.async false
set_option linter.unusedVariables false

/-! ### Small states for the witnesses -/

def wBytes (n : Nat) (l : List (Nat × Nat × Nat)) : Bytes :=
  l.foldl (fun b x => b.take x.1 ++ natLE x.2.1 x.2.2 ++ b.drop (x.1 + x.2.1)) (List.replicate n 0)

def wReg (s : State) (r : Reg) (l : List (Fd × Nat)) : State := l.foldl (fun s x => setF s r x.1 x.2) s

/-- Partition 0 owns engines 0 to 15, cores 0 to 63 and 1 TiB of bulk; partition 1 the rest. -/
def wOwn : State :=
  [(oPartEngines 0, 4, 0xFFFF), (oPartEngines 1, 4, 0xFFFF0000), (oPartCores 0, 16, 2 ^ 64 - 1), (oPartCores 1, 16, 2 ^ 128 - 2 ^ 64),
   (oPartBulk 0, 4, 65536 * 1024), (oPartBulk 1, 4, 65536 * 512 + 1024), (oPartSpread 0, 4, 65536 * 8), (oPartFlash 0, 8, 2 ^ 32 * 1024),
   (oPartFlash 1, 8, 2 ^ 32 * 1024 + 1024)].foldl (fun s x => setObjNat s x.1 x.2.1 x.2.2) State.reset

/-- Context slot 0 of engine 0 is partition 0's, under ASTAG 1, whose whole address space lies on the bulk tier; bobbins 0 and 1 are
READY, 2 is EMPTY, 3 is FILLING under a mark, 4 is staging, 5 belongs to slot 1, 6 is empty. -/
def wEng : State :=
  let s := wReg wOwn (rCtxCfg 0 0) [(fCtxCfgAstag, 1), (fCtxCfgPartition, 0), (fCtxCfgValid, 1), (fCtxCfgEpoch, 1)]
  let s := (List.range 7).foldl (fun s b => wReg s (rBobCfg 0 b)
    [(fBobCfgBase, b), (fBobCfgSize, 0), (fBobCfgOwner, if b = 5 then 1 else 0), (fBobCfgValid, 1), (fBobCfgStaging, if b = 4 then 1 else 0)]) s
  let s := setBob s 0 0 bReady 0 false 2
  let s := setBob s 0 1 bReady 0 false 1
  let s := setBob s 0 2 bEmpty 0 false 0
  let s := setBob s 0 3 bFilling 0 true 0
  let s := setBob s 0 5 bEmpty 0 false 0
  let s := setBob s 0 6 bEmpty 0 false 0
  setEngAux s 0 { engAux s 0 with rc := [
    { astag := 1, start := 0, len := 2 ^ 40, mpa := 0, r := true, w := true, x := true, remote := true, shared := false, hint := 0, replay := false, rootReplay := false,
      part := 0, consulted := false }] }

def u0 : SpoolId := ⟨0, 0, 0⟩

def wCmd (bs : Bytes) : Cmd :=
  { slot := 0, nslots := 1, bytes := bs, poisonFirst := false, poisonLater := false, phase := .fetched, order := 0, step := 0, status := 0, detail := 0,
    stall := .none, first := none, fills := [], reads := [], readers := 0, cont := false, since := 0, outBase := 0, outLen := 0, deps := [] }

def wLate (bs : Bytes) : Cmd := { wCmd bs with poisonLater := true }
def wRun (bs : Bytes) : Cmd := { wCmd bs with phase := .started }
def wEnd (bs : Bytes) (st : Nat) : Cmd := { wCmd bs with phase := .ended, status := st }

/-- An ACTIVE spool with commands in its fetch buffer. -/
def wSp (s : State) (cs : List Cmd) : State :=
  let s := wReg s (rSqTail 0 0 0) [(fSqTailTail, 16)]
  setSpool (setSpState s u0 spActive) u0 { spool s u0 with fetched := cs.length, cmds := cs }

def bZero : Bytes := wBytes 64 [(0, 1, 0x01), (8, 1, 18), (11, 1, 2), (16, 4, 100), (32, 4, 8)]
def bCopy : Bytes := wBytes 64 [(0, 1, 0x01), (8, 1, 1), (10, 1, 2), (16, 4, 100), (32, 4, 0x8000)]
def bInline : Bytes := wBytes 256 [(0, 1, 0x02), (8, 1, 1), (9, 1, 5), (10, 1, 2), (16, 4, 3), (64, 5, 0x0504030201)]
def bMat (op : Nat) (load : Bool) : Bytes :=
  wBytes 64 [(0, 1, op), (8, 4, 3 + 3 * 2 ^ 5 + 2 ^ 17 + (if load then 2 ^ 18 else 0)), (16, 2, 1), (18, 2, 1), (20, 2, 4), (22, 2, 9), (28, 1, 0), (29, 1, 1),
    (35, 1, 4), (36, 2, 256), (38, 2, 1), (44, 2, 256), (48, 4, 0x9000), (56, 4, 4)]
def bEw (a : Nat) : Bytes := wBytes 64 [(0, 1, 0x18), (8, 4, 3 + 3 * 2 ^ 5), (16, 4, 3), (28, 1, a), (29, 1, 1), (48, 4, 0x9000)]
def bVec (x : Nat) : Bytes :=
  wBytes 64 [(0, 1, 0x20), (8, 4, 0), (16, 4, 4), (20, 4, 1), (32, 1, x), (33, 1, 1), (34, 1, 2), (35, 1, 0), (52, 2, 16), (54, 2, 16), (56, 2, 16)]
def bTask (i budget : Nat) : Bytes := wBytes 64 [(0, 1, 0x60), (8, 1, i), (9, 1, 5), (12, 4, budget), (40, 4, 0xFFFFFFFF)]
def bWait (v : Nat) (tmo : Nat) : Bytes := wBytes 64 [(0, 1, 0x51), (8, 1, 1), (12, 4, tmo), (16, 4, 0x7000), (24, 8, v)]
def bSignal : Bytes := wBytes 64 [(0, 1, 0x50), (16, 4, 0x7000), (24, 8, 77)]
def bFence : Bytes := wBytes 64 [(0, 1, 0x52)]
def bPrefetch : Bytes := wBytes 64 [(0, 1, 0x70), (24, 4, 65536)]
def bCard (mode : Nat) : Bytes :=
  wBytes 64 [(0, 1, 0x30), (8, 1, mode), (9, 1, if mode = 0 then 2 else 0), (16, 4, 0x8000), (24, 4, 1), (28, 2, 1), (30, 2, 1 - mode), (32, 4, 0xA000), (40, 4, 16)]
def bColl (op : Nat) : Bytes :=
  wBytes 64 [(0, 1, 0x40), (8, 1, op), (10, 2, if op < 8 then 0 else 9), (16, 4, if op = 10 then 4 else 256), (24, 4, 0x8000), (32, 4, 0xA000)]
def bDisp (op : Nat) : Bytes :=
  wBytes 64 [(0, 1, op), (8, 1, 1), (9, 1, if op = 0x41 then 3 else 0), (10, 2, if op = 0x41 then 1 else 0), (12, 4, 1), (16, 2, 4), (18, 2, 0), (20, 4, 16), (24, 4, 0x8000), (32, 4, 0x8100),
    (40, 4, 0x8200), (48, 4, 0x8300)]

/-- Group 0 of peers 7 (this module) and 9, a connection to peer 9, and ASTAG 1 for the hub's work. -/
def wFab : State :=
  let s := wReg (wReg (wReg wEng rGrpTable [(fGrpTableBase, 0x1000)]) (rJobCfg 0) [(fJobCfgAstag, 1)]) (rFabPort 0) [(fFabPortState, 2)]
  let s := { s with mgmt := { s.mgmt with applied := [(oPeerId, natLE 2 7), (oPeerIdValid, [1])] }, hub := { s.hub with rc := (engAux s 0).rc } }
  let s := rawWrite (rawWrite s 0x40000 (wBytes 64 [(0, 2, 2), (4, 1, 1), (8, 4, 0x50000)])) 0x50000 [7, 0, 9, 0]
  let s := setConn s 3 { open_ := true, peer := 9, part := 0, remote := 5, astag := 1, planes := 1, winLog2 := 6 }
  { s with fab := { s.fab with cached := [3], ready := true } }


/-- A set held under ACC_ID 0, a task slot of each kind and a Carder share. -/
def wHeld : State :=
  let s := setEngAux wEng 0 { engAux wEng 0 with accs := [{ n := 0, id := 0, m := 1, cols := 1, aRows := 1, u := u0, slot := 3, tiles := [] }] }
  let s := wReg (wReg s (rSchedSlot 0 0) [(fSchedSlotOwner, 0), (fSchedSlotEnable, 1)]) (rSchedSlot 0 1) [(fSchedSlotOwner, 2), (fSchedSlotEnable, 1)]
  setObjNat s (oCarderShareP 0) 1 8

/-- A SIGNAL behind a product that goes on; a WAIT past its time. -/
def wTwo : State := wSp wEng [wRun (bMat 0x10 false), { wCmd bSignal with slot := 1 }]
def wLateWait : State := { wSp wEng [wRun (bWait 5 3)] with time := 3000 }

def wNoShare : State := setObjNat wEng (oCarderShareP 0) 1 0

def wLostPeer : State := setPeer wFab 9 { state := 2 }

/-- A DISPATCH and a COMBINE under way. -/
def wExpert : State :=
  { wFab with fab := { wFab.fab with
    disps := [{ id := 1, u := u0, slot := 0, group := 0, opid := 0, members := [7, 9], copies := [], grants := [], granted := [], rows := false, accepted := 0, dropped := 0, nack := 0, since := 0 }]
    combs := [{ id := 2, u := u0, slot := 0, group := 0, opid := 0, need := [(9, 0, 0)], rows := [], nack := 0, since := 0 }] } }

/-- Granule 0 in RESIDENT_HIGH at frame 3, granule 1 PROMOTING to frame 4, granule 2 DEMOTING from frame 5, granule 4 in RESIDENT_LOW. -/
def wGran : State :=
  let s := setGran wFab 0 { state := 2, frame := 3, astag := 1, part := 0 }
  let s := setGran s 1 { state := 1, frame := 4, astag := 1, part := 0 }
  setGran s 2 { state := 3, frame := 5, astag := 1, part := 0, copying := true }

/-- An enabled spool, ACTIVE, STOPPED or KILLED; with its lock held, or let expire, by core 1. -/
def wOn (st : Nat) : State :=
  let s := wReg (wReg (wSp wEng []) (rSpCfg 0 0 0) [(fSpCfgEnable, 1)]) (rSqBase 0 0 0) [(fSqBaseVa, 16)]
  setSpState (wReg s (rCqBase 0 0 0) [(fCqBaseVa, 32)]) u0 st
def wLocked : State := setSpool (wOn spActive) u0 { spool (wOn spActive) u0 with lease := some (.core 1 .m, 5) }
def wLeaseUp : State := { wLocked with time := 1000005 }
/-- Thirty-two commands in the buffer; a CANCEL in the next slot. -/
def wFull : State := setSpool (wOn spActive) u0 { spool (wOn spActive) u0 with cmds := (List.range 32).map (fun k => { wRun bFence with slot := k }), fetched := 8 }
def wCancel : State := rawWrite (wOn spActive) 0x10000 (wBytes 64 [(0, 1, 0x7F), (8, 1, 1)])
def wEnded : State := wSp wEng [wEnd bFence 0]
def wPoolSet : State := { wEng with pend := [((rBobCfg 0 9).key, 0x40000 + 3)] }

/-- Core 0 of engine 0 runs the task in slot 0; slot 1 holds a READY task; core 1 is idle. -/
def wTask : State :=
  let s := wSp (wReg wHeld (rSpCfg 0 0 0) [(fSpCfgEnable, 1)]) [wRun (bTask 0 100)]
  let s := wReg (wReg s (rSpnState 0 0) [(fSpnStateState, 2), (fSpnStateSlot, 0)]) (rSpnState 0 1) [(fSpnStateState, 1)]
  let s := wReg s (rSchedSlot 0 1) [(fSchedSlotOwner, 0)]
  let s := setTaskState (setTask s 0 0 { hart := { x := [(1, 2), (2, 1), (3, 255)], v := [(2, bFence), (5, bInline.take 64), (8, bInline.take 64)] }, budget := 5, u := some (u0, 0) }) 0 0 tRunning
  setTaskState (setTask s 0 1 { prio := 1 }) 0 1 tReady
def wTaskLong : State := wReg { wTask with time := 50000 } (rSchedCfg 0) [(fSchedCfgQuantum, 3)]
def wTaskFull : State := wReg wTask (rSqTail 0 0 0) [(fSqTailTail, 64)]
def wTaskLocked : State := setSpool wTask u0 { spool wTask u0 with lease := some (.core 1 .m, 0) }

/-- A product under way on array 0, alone or with a recompute of its pass. -/
def wTile (wait : Bool) : State :=
  let s := wSp wEng [wRun (bMat 0x10 false)]
  let s := wReg s (rAbftInject 0) []
  setEngAux s 0 { engAux s 0 with
    runs := [{ u := u0, slot := 0, todo := [], tiles := [{ q := 0, arr := 0, pass := 0, acc := [[0]], wait := wait }], done := [], init := none, fixed := false, unres := false, pois := false }]
    recomp := if wait then [{ u := u0, slot := 0, q := 0, pass := 0, arr := 0, rows := [0], injected := false }] else [] }
def wRetire : State := setArrAux wEng 0 0 { retiring := true, marks := [0, 5, 9] }
def wInject : State := setObjNat wEng oDiagInjectEn 1 1

def wFault : FaultInfo := { va := 0x7000, astag := 1, cause := 1, write := false, unit := 0, since := 0 }
/-- A command stalled for replay under record 7. -/
def wStall : State := wSp wEng [{ wRun bPrefetch with stall := .replay 7, first := some wFault }]
def wStallOld : State := { wStall with time := 10 ^ 12 }
/-- A kill record is owed; the slot's fault ring lies in the bulk tier, with room or full. -/
def wKill : State := setCtxAux wEng 0 0 { kill := some { va := 1, astag := 1, cause := 1, write := false, unit := 0, spool := 0, tag := 0, slot := 0 } }
def wRing (n : Nat) : State := wReg (wReg wEng (rFrBase 0 0) [(fFrBaseLog2, 6), (fFrBaseBase, 1)]) (rFrPtr 0 0) [(fFrPtrProducer, n)]

def wReq (va : Nat) : XlateReq :=
  { engine := some 0, e := 0, ctx := 0, spool := 0, slot := 0, part := 0, astag := 1, va := BitVec.ofNat 64 va, write := false, read := true, exec := false, remote := false, unit := 0 }
def wRcE : RcEntry :=
  { astag := 1, start := 0, len := 2 ^ 40, mpa := 0, r := true, w := true, x := true, remote := true, shared := false, hint := 0, replay := false, rootReplay := false, part := 0, consulted := false }
def wRoot : State := wReg wEng rRhRoot [(fRhRootEnable, 1)]
/-- A walk of the hub, and one that a flush restarted. -/
def wWalk (r : Bool) : State := { wRoot with hub := { wRoot.hub with walks := [{ id := 4, req := { wReq 0 with engine := none }, joined := [], restart := r }], nextId := 5 } }
def wCons (t : Nat) : State := { wRoot with time := t, hub := { wRoot.hub with consults := [{ id := 4, req := wReq 0, entry := wRcE, since := 0, written := true, restart := false }] } }
def wLoad (a : Nat) : MemReq :=
  { agent := .engine 0 0, kind := .read, mpa := BitVec.ofNat 50 a, len := 8, data := [], strobe := none, operand := 0, compare := 0, shared := false
    cached := false, astag := 1, hint := 0, direct := false, gen := 0, ecc := .ok }
def wFlushes (n : Nat) (wait : Bool) : State :=
  { wFab with hub := { wFab.hub with
    flushQ := List.replicate n { astag := 1, all := false, drain := true, software := true }
    stalled := if wait then [{ id := 1, req := wLoad 0, since := 0 }] else [] } }
def wRingNowhere : State := wReg wEng (rFrBase 0 0) [(fFrBaseBase, (stackBase + 50 * gib) / 4096)]

def wStore (a : Nat) (d : Bytes) : MemReq := { wLoad a with kind := .write, data := d, len := d.length }
/-- Lines 16 and 17 in the directory: one copy of agent 3, and OWNED by agent 3 with its data. -/
def wDir : State :=
  { wGran with hub := { wGran.hub with dir := [{ line := 0x40000 + 16, owned := false, pv := [3], data := none, hold := none, waiters := [] },
      { line := 0x40000 + 17, owned := true, pv := [3], data := some (List.replicate 64 9), hold := none, waiters := [] }] } }
def wMigQ (n : Nat) (m : MigReq) : State := { wReg wGran rMigCfg [(fMigCfgEnable, 1)] with hub := { wGran.hub with migQ := List.replicate n m } }
def wPromote : MigReq := { gran := 4, promote := true, astag := 1, part := 0, victim := none, bounced := false }
def wDemote : MigReq := { wPromote with gran := 0, promote := false }
/-- An access that has waited. -/
def wWaited (t : Nat) : State := { wGran with time := t, hub := { wGran.hub with stalled := [{ id := 9, req := wStore 0x10000 [1], since := 0 }] } }
def wAcctBad : State := { wEng with pend := [((rPoolAcct 2).key, 0xFFFFFFFFFFFFFFFF)] }

/-- A row repair queued, the hold-up bank ready; a sweep of die 0's channel 5; a refresh postponed. -/
def wStk : State :=
  let s := wReg wEng rPwrStatus [(fPwrStatusHoldupReady, 1)]
  { s with dev := { s.dev with stkQ := [(0, [{ kind := 2, chan := 1, bank := 3, target := 77 }])], refDebt := [((0, 2, 0), 1)], flOpen := true } }
def wFlash (n : Nat) (w : Bool) : State :=
  let s := wReg wEng rPwrStatus [(fPwrStatusHoldupReady, 1)]
  { s with dev := { s.dev with flQ := List.replicate n { write := w, part := 0, pages := 1, lpn := 3, src := 0 }, flOpen := true, flRetired := [5] } }
def wMargin : State := { setObjNat wEng oMarginUnit 2 0xFFFF with dev := { wEng.dev with margin := [(0, 5, 1)] } }
def wPool : State := setObjNat (wMigQ 1 wPromote) (oPoolFramesP 0) 4 64
def wMigOff : State := wReg wGran rMigCfg [(fMigCfgEnable, 0)]

/-- A connection in a state, its channels all open. -/
def wLk (s : State) (l : Nat) (st : Nat) : State :=
  setLink (wReg s (rPlaLinkState l) [(fPlaLinkStateState, st), (fPlaLinkStateChannels, 31), (fPlaLinkStateModulesUp, 15)]) l { agreed := true }
/-- Connections 0, 16 and the guest's UP; the guest may use 8 MiB at MPA 0. -/
def wPla : State :=
  setObjNat (wLk (wLk (wLk wGran 0 lkUp) 16 lkUp) 18 lkUp) (oGuestWin 0) 16 (2 ^ 23 * 2 ^ 64)
def wMsg (chan : Nat) (rsp : Bool) (op addr lines : Nat) (data : Bytes) : PlaMsg :=
  { chan := BitVec.ofNat 3 chan, rsp := rsp, op := BitVec.ofNat 4 op, poison := 0, tag := 7, agent := 0, status := 0, nc := false, aop := 0, size64 := false, signed := false,
    addr := BitVec.ofNat 50 addr, lines := BitVec.ofNat 2 lines, data := data, mask := 0xF0 }
def w64 (x : Nat) : Bytes := wBytes 64 [(0, 1, x)]
/-- Requests of this end under tag 7. -/
def wAsked (k : Nat) : State := setLink wPla 16 { agreed := true, outReq := [(7, k), (8, 1)] }
/-- The directory of `wDir`, with the agents of connection 16 and its own copies. -/
def wCoh : State := { wPla with hub := { wPla.hub with dir := [
    { line := 16, owned := false, pv := [3], data := none, hold := none, waiters := [] },
    { line := 17, owned := true, pv := [0], data := some (List.replicate 64 9), hold := some 1000, waiters := [] },
    { line := 18, owned := true, pv := [0], data := some (List.replicate 64 8), hold := none, waiters := [] }] } }
def wCohLate : State := { wCoh with time := 2000 }
/-- A write of connection 16 that waits. -/
def wMsiWait : State := { wPla with d2d := { wPla.d2d with waits := [(3, (16, wMsg 0 false 1 0 0 (w64 1)))] } }
/-- Changes of bias queued over a span of the bulk tier. -/
def wBias (n : Nat) (sh : Bool) (a : Nat) : State :=
  let s := wReg wCoh rDirBiasSpan [(fDirBiasSpanStart, 0)]
  let s := wReg s rDirBiasLen [(fDirBiasLenLength, 1)]
  { s with time := 10 ^ 9, hub := { s.hub with biasQ := List.replicate n { start := a, len := 65536, astag := 1, all := false, toShared := sh } } }
def wTrain (heard : Bool) : State :=
  let s := wLk (wLk (wLk wGran 0 lkTraining) 16 lkTraining) 18 lkTraining
  [0, 16, 18].foldl (fun s l => setLink s l { activeAt := some 0, heard := if heard then some (wBytes 64 [(0, 1, 1), (4, 1, 31)]) else none }) s
def wLate' (s : State) : State := { s with time := 10 ^ 11 }
def wLkFailed : State :=
  let s := [0, 8, 15, 16, 18].foldl (fun s l => wReg (wLk s l lkFailed) (rPlaLinkState l) [(fPlaLinkStateModulesUp, 0)]) wGran
  [0, 8, 15, 16, 18].foldl (fun s l => setLink s l { failedAt := some 5 }) s
def wNoModule : State := wReg (wLk (wLk wGran 0 lkUp) 16 lkTraining) (rPlaLinkState 0) [(fPlaLinkStateModulesUp, 0)]
def wGuestBad : State := { wPla with time := 10 ^ 9, d2d := { wPla.d2d with guestCredit := some 0 } }
def wRemoved : State := { wLk wPla 18 lkDown with d2d := { wPla.d2d with removed := [11] } }
def wHello (x : Nat) : PlaMsg := wMsg 4 false x 0 0 (wBytes 64 [(0, 1, 1), (1, 1, 0x90), (4, 1, 31), (24, 8, 4096), (40, 8, 4096)])

/-- A frame of peer 9 over connection 3 and plane 0. -/
def wFr (cls op psn addr : Nat) (payload : Bytes) : Frame :=
  { cls := BitVec.ofNat 4 cls, first := true, last := true, fence := false, enc := false, unit := false, retx := false, ece := false, srcPeer := 9, dstPeer := 7
    conn := 3, plane := 0, psn := BitVec.ofNat 24 psn, group := 0, opid := 0, opcode := BitVec.ofNat 8 op, reason := 0, addr := BitVec.ofNat 64 addr
    payload := payload, bad := [], lseq := 0, ackLseq := 0, credits := 3, icrcOk := true, gcmOk := true, ce := false }
/-- SEND of epoch `ep` to bobbin `b`. -/
def wSend (ep b psn : Nat) : Frame := wFr 0 6 psn (2 ^ 9 * ep + 2 ^ 25 * b) [1, 2, 3, 4]
def wWr (psn a : Nat) : Frame := wFr 0 1 psn a [1, 2, 3]
def wRd (a : Nat) : Frame := wFr 0 2 0 a (natLE 8 16)
def wAt (a : Nat) : Frame := wFr 0 4 0 a (natLE 8 8 ++ natLE 8 5 ++ natLE 8 0)
/-- Direct mode. -/
def wDm (s : State) : State := setObjNat s oLinkMode 1 0
/-- The connection's context is not cached: not fetched yet, or being fetched. -/
def wFetch (b : Bool) : State := setConn { wFab with fab := { wFab.fab with cached := [] } } 3 { conn wFab 3 with fetching := b }
def wConn (c : Conn) : State := setConn wFab 3 c
def wPkt (psn owner : Nat) : Pkt := { frame := wWr psn 0x9000, sent := 0, owner := owner }
def wFlight : State := wConn { conn wFab 3 with inflight := [wPkt 5 0, wPkt 6 0], sendPsn := 7, ackDue := 1 }
def wFenced : State := wConn { conn wFab 3 with fenced := [{ wWr 1 0x9100 with fence := true }], arrived := [3] }
def wRetries (t : Nat) : State := { wFlight with time := t, fab := { wFlight.fab with retries := [{ id := 2, conn := 3, psn := 5, since := 0 }] } }
def wOld (s : State) : State := { s with time := 10 ^ 12 }
def wCounts : State := { wFab with fab := { wFab.fab with counts := [{ group := 0, opid := 0, part := 0, peer := 9, fmt := 0, counts := [(0, 1)] }] } }
def wCountsBad : State := rawWrite wCounts 0x40000 (List.replicate 64 0)
def wCombQ : State := { wFab with fab := { wFab.fab with combQ := [{ id := 8, conn := some 3, part := 0, group := 0, opid := 0, idx := 5000, first := 0, count := 1, need := 0, n := 16 }] } }
def wPort (s : State) (x : Port) : State := setPort s 0 x
def wAckF (psn bits : Nat) : Frame := wFr 3 0x33 psn 0 (natLE 32 bits)
def wNackF (reason : Nat) : Frame := { wFr 4 1 5 0 [] with reason := BitVec.ofNat 8 reason }
def wPortBusy : Port := { lseq := 4, unacked := 2, replay := [wFr 0 1 0 0 [], { wFr 0 1 3 0 [] with lseq := 3 }, { wFr 0 1 0 0 [] with lseq := 5 }] }
def wPortNak : Port := { nakSent := true }
def wPlaneFailed : State := setPeer wFab 9 { state := 1, failed := [0] }
def wPeerDown : State := setPeer State.reset 9 { state := 1, downSince := some 0 }
/-- A group operation under way for the command in spool 0's buffer. -/
def wCollOp : State :=
  let s := wSp wFab [wRun (bColl 4)]
  { s with fab := { s.fab with ops := [{ id := 3, u := u0, slot := 0, op := 4, group := 0, opid := 0, peer := 0, rank := 0, members := [7, 9], halving := false, len := 0, data := [], bad := []
                                         dst := 0, max := false, bs16 := false, tensor := 0, root := 0, step := 0, got := [], done := [], sent := 0, wrote := false, pois := false, since := 0 }] } }
/-- A connection table with a good entry 4 and nothing in the others. -/
def wTable : State := rawWrite (wReg wFab rConnTable [(fConnTableBase, 0x100)]) (0x100 * 4096 + 512) (wBytes 32 [(0, 2, 9), (2, 1, 1), (12, 2, 1), (14, 1, 6)])

/-- wTable with a poisoned entry 4. -/
def wTableBad : State := poisonLine wTable ((0x100 * 4096 + 512) / 64)

/-- Job 0 enabled with group 0 as its vote group, its tables in the bulk tier: step 5 is current, step 3 awaited. -/
def wJob : State :=
  let s := wReg (wReg wFab (rJobCfg 0) [(fJobCfgEnable, 1), (fJobCfgAstag, 1), (fJobCfgMembers, 2)]) (rStepCur 0) [(fStepCurCurStep, 5)]
  let s := wReg (wReg s (rUpdTable 0) [(fUpdTable, 0x10000)]) (rUpdCount 0) [(fUpdCount, 1)]
  let s := wReg (wReg s (rLedgerBase 0) [(fLedgerBase, 0x500)]) (rPwrStatus) [(fPwrStatusHoldupReady, 1)]
  let s := rawWrite s 0x400000 (wBytes 64 [(4, 4, 2 ^ 20 + 16), (8, 8, 0x1000000), (16, 8, 0x2000000), (24, 8, 0x3000000), (32, 8, 0x4000000), (40, 8, 0x5000000)])
  setJob s 0 { closed := [{ step := 3, snap := [], merged := [], done := true }], awaited := 3 }
def wJobWith (j : Job) : State := setJob wJob 0 j
def wMerge : State := wJobWith { closed := [{ step := 3, snap := [], merged := [], done := false }], awaited := 3 }
def wVoted (t : Nat) : State :=
  { wJobWith { closed := [{ step := 3, snap := [], merged := [], done := true }], awaited := 3, voted := some (3, 0), ownVote := some false, firstAt := some 0 } with time := t }
def wDiverged : State := setJob (wReg wJob (rStepStatus 0) [(fStepStatusLastStep, 4)]) 0 { diverged := true, awaited := 5 }
def wHoist : State := wJobWith { hoists := [3, 4], awaited := 5 }
def wUpd (hank : Nat) : State := wJobWith { upd := some { step := 3, seg := 0, hank := hank, amax := [] }, awaited := 5 }
def wUpdWaits : State := wJobWith { upd := some { step := 3, seg := 0, hank := 1, amax := [] }, ckptDue := [(2, 1)], awaited := 5 }
def wGather (b : Bool) : State :=
  setConn (wJobWith { gather := [(77, true)], awaited := 5 }) 3 { conn wFab 3 with inflight := [wPkt 5 (if b then 77 else 0)] }
def wCkptDue : State := wJobWith { ckptDue := [(4, 2)], awaited := 5 }
/-- A checkpoint whose next hank is beyond the mapped space, and one with nothing left to write. -/
def wCkpt (l : List (Nat × Nat × Nat)) : State :=
  let s := rawWrite wJob 0x400000 (wBytes 64 [(4, 4, 16), (16, 8, 2 ^ 41)])
  let s := rawWrite s 0x500000 (wBytes 16 [(0, 1, 4), (8, 1, 2), (12, 1, 1)])
  setJob s 0 { ckpt := some { step := 4, optT := 2, slotB := true, todo := l, done := 0 }, awaited := 5 }
/-- A checkpoint of no segment in slot B, and the module restoring from it or not. -/
def wRestore (r : Option Bool) : State :=
  { setJob (wReg wJob (rCkptBase 0) [(fCkptBaseLpnB, 64)]) 0 { restore := r, awaited := 5 } with
    mem := (pageAddr 64, 7) :: (pageAddr 64 + 8, 2) :: (List.range 4).map (fun i => (pageAddr 64 + (20 + i), (natLE 4 (crc32 [])).getD i 0)) }
def wOptBad : State := { wJob with pend := [((rOptLr 0).key, 0x7F800000), ((rOptBeta 0).key, 0x3F8000003F000000)] }
def wHaly (op step code : Nat) : Frame := wFr 2 op 0 0 (natBE 6 step ++ natBE 1 code ++ [0] ++ natBE 4 1 ++ natBE 1 0)

/-- A module that runs, its input sampled low or high, with its clock at `t`. -/
def wPow (t : Nat) : State := { wEng with time := t, pow := { wEng.pow with mode := 1, pwrGood := true, ended := [1, 2, 3, 4, 5], lowAt := 0, overSince := some 0 } }
def wDip (t : Nat) : State := wReg (wPow t) rPwrStatus [(fPwrStatusDip, 1), (fPwrStatusInputMv, 40000)]
def wOff (t : Nat) : State := { State.reset with time := t, pow := { State.reset.pow with above42 := some 0 } }
def wStep (l : List Nat) : State := { wPow 0 with pow := { (wPow 0).pow with ended := l, pwrGood := false } }
def wPorts : State :=
  let s := wStep [1, 2, 3, 4, 5, 6, 7, 8, 9, 10, 11]
  let s := { s with mgmt := { s.mgmt with applied := [(oPeerId, natLE 2 7), (oPeerIdValid, [1])] } }
  (List.range 16).foldl (fun s p => wReg s (rFabPort p) [(fFabPortState, if p = 3 then 2 else 3)]) s
def wStopped (t : Nat) : State := { wPow t with pow := { (wPow t).pow with failedStep := some 4 } }
/-- Engine 0 awake and long idle, asleep in DOZE and asked to wake, and one whose reset waits for its drain. -/
def wIdle (t : Nat) : State := setEngAux (wPow t) 0 { engAux wEng 0 with idleSince := some 0 }
def wDoze : State := setEngAux (wReg (wPow 9) (rEngPwr 0) [(fEngPwrState, 3)]) 0 { engAux wEng 0 with wake := true }
def wDepart (t : Nat) : State := setEngAux { wSp wEng [wRun (bMat 0x10 false)] with time := t } 0 { engAux wEng 0 with depart := some 0 }
def wCoreHeld : State := wReg wOwn (rCoreHold 0 0) [(⟨63, 0⟩, 3)]
def wCoreGone : State := { wEng with rel := { wEng.rel with removedCores := [5], spareCores := [(0, 2)] } }
def wSpinGone : State := setEngAux wEng 0 { engAux wEng 0 with deadCores := [2] }
def wLow (n : Nat) (g : Bool) : State := { wPow 0 with pow := { (wPow 0).pow with modRstLow := n, pwrGood := g } }
/-- The recorder's region of 64 bytes, its cursor at `c`. -/
def wEvr (t c : Nat) (full : Bool) : State :=
  let s := wReg (wReg (wPow t) rEvrCursor [(fEvrCursorOffset, c)]) rPwrStatus [(fPwrStatusHoldupReady, 1)]
  let s := wReg s rEvrStatus [(fEvrStatusFull, if full then 1 else 0)]
  { s with rel := { s.rel with region := (List.range 64).map (fun i => BitVec.ofNat 8 i) } }
def wActs (k : ObjKey) (v : Bytes) : State := { wPow 7 with sec := { wEng.sec with actions := [{ index := k.1, sub := k.2, value := v }], keys := [((0, 1), { key := [9], gen := 1 })] } }
def wFwWaits : State := setEngAux (wActs oFwActivate [8]) 0 { engAux wEng 0 with recomp := [{ u := u0, slot := 0, q := 0, pass := 0, arr := 0, rows := [0], injected := false }] }
def wLayout : State := { wPow 7 with sec := { wEng.sec with layout := some ([], 1) } }
def wKeyOld (t : Nat) : State := { wPow t with sec := { wEng.sec with keys := [((0, 1), { key := [9], gen := 1, prev := some ([8], 0) })] } }
def wDebugOn (t : Nat) : State := { wReg (wPow t) rSecStatus [(fSecStatusDebugLevel, 2)] with sec := { wEng.sec with debugUntil := 100 } }
/-- Sessions 1 (credential 5, operator) and 2 (credential 6, security) over I3C, and 3 not established. -/
def wSes (t : Nat) : State :=
  { wPow t with sec := { wEng.sec with creds := [(5, .operator), (6, .security)], nextSes := 4, spdm := [(0, { version := 0x12, caps := true, algs := true })], sessions := [
    (1, { tr := .i3c, cred := some (5, .operator), last := 0, established := true, keyGen := 0, heartbeat := 0 }),
    (2, { tr := .i3c, cred := some (6, .security), last := 0, established := true, keyGen := 0, heartbeat := 0 }),
    (3, { tr := .i3c, cred := none, last := 0, established := false, keyGen := 0, heartbeat := 0 })] } }
def wStage (t st : Nat) : State := setStage { wSes t with sec := { (wSes t).sec with sets := [(0, { cred := 5, role := some .operator, items := [], digest := [1], sealedAt := 0 })], confirm := [(2, [1])] } } 0 st
def wNoVersion : State := { wSes 0 with sec := { (wSes 0).sec with spdm := [] } }
def wReqS (ses : Option Nat) (v p1 p2 : Nat) (body : Bytes) : SpdmReq := { tr := .i3c, ses := ses, version := BitVec.ofNat 8 v, param1 := BitVec.ofNat 8 p1, param2 := BitVec.ofNat 8 p2, body := body }
def wAuq (k : ObjKey) (tog : Bool) (data : Bytes) : AuqReq :=
  { tr := .i3c, ses := none, token := 7, index := BitVec.ofNat 16 k.1, sub := BitVec.ofNat 8 k.2, expedited := true, last := true, toggle := tog, total := data.length, data := data }
def wXfer (t : Nat) : State := { wSes t with mgmt := { wEng.mgmt with xfers := [(.i3c, { write := false, index := 0, sub := 0, total := 9, data := [1, 2, 3], done := 1, toggle := false, last := 0, ses := none, token := 3 })] } }
def wMbx (on : Bool) : State :=
  let s := wReg { wPow 0 with pow := { (wPow 0).pow with ended := [12] } } (rAuqMbx 0) [(fAuqMbxEnable, if on then 1 else 0), (fAuqMbxLog2, 4)]
  setObjNat s oInbandEnable 1 1
def wPeek : State := setObjNat (wDebugOn 0) oDbgPeekAddr 8 8
def wDmOpen : State := wLk (wDebugOn 0) 16 lkUp
def wFwBad : State := { wActs oFwActivate [1] with sec := { (wActs oFwActivate [1]).sec with fuseSvn := 1 } }
def wNoCreds : State := { wSes 0 with sec := { (wSes 0).sec with creds := [] } }

/-! ### States for single clauses -/

def bTo (a : Nat) : Bytes := wBytes 256 [(0, 1, 0x02), (9, 1, 5), (16, 8, a), (64, 5, 0x0504030201)]
/-- A copy from memory to memory, through a staging bobbin. -/
def bStaged : Bytes := wBytes 64 [(0, 1, 0x01), (16, 4, 100), (24, 4, 0x9000), (32, 4, 0xB000)]
def bCardTo (a : Nat) : Bytes := wBytes 64 [(0, 1, 0x30), (8, 1, 0), (9, 1, 2), (16, 4, 0x8000), (24, 4, 1), (28, 2, 1), (30, 2, 1), (32, 4, a), (40, 4, 16)]
def wNoStage : State := wReg wEng (rBobCfg 0 4) [(fBobCfgStaging, 0)]
/-- The set under ACC_ID 0 has another shape. -/
def wHeldOther : State := setEngAux wEng 0 { engAux wEng 0 with accs := [{ n := 0, id := 0, m := 2, cols := 1, aRows := 1, u := u0, slot := 3, tiles := [] }] }
def wBadWord : State := poisonLine (wSp wEng [wCmd (bWait 0 0)]) (0x7000 / 64)
def bAdd : Bytes := bSignal.set 8 1
/-- The range table of ASTAG 1 holds one range, marked CONSULT, over the whole address space. -/
def wConsult (s : State) : State :=
  let s := wReg s rRhRoot [(fRhRootEnable, 1), (fRhRootBase, 8)]
  let s := rawWrite (rawWrite s (0x800000 + 16) (wBytes 16 [(0, 4, 0x60000), (8, 1, 1), (12, 1, 16)])) 0x60000 (wBytes 32 [(0, 2, 0x21F), (2, 1, 1), (16, 6, 2 ^ 40)])
  let s := { s with hub := { s.hub with rc := [] } }
  setEngAux s 0 { engAux s 0 with rc := [] }
/-- Group 0 of this module alone. -/
def wAlone : State := rawWrite wFab 0x40000 [1]
def wOpOf (k : Nat) (l : List Nat) : FabOp :=
  { id := 3, u := u0, slot := 0, op := k, group := 0, opid := 0, peer := 9, rank := 0, members := l, halving := false, len := 256, data := [], bad := [], dst := 0xA000
    max := false, bs16 := false, tensor := 0, root := 0, step := 0, got := [], done := [], sent := 0, wrote := false, pois := false, since := 0 }
def wRetry (bs : Bytes) : Cmd := { wCmd bs with phase := .retry }
def wOpAgain (k : Nat) (l : List Nat) (b : Bool) : State :=
  let s := wSp wFab [wRetry (bColl k)]
  { s with fab := { s.fab with ops := [{ wOpOf k l with wrote := b, sent := 256 }] } }
/-- A connection of the module to itself. -/
def wSelf : State := setConn wFab 4 { open_ := true, peer := 7, part := 0, remote := 4, astag := 1, planes := 1, winLog2 := 6 }
def bSelf (op : Nat) : Bytes := wBytes 64 [(0, 1, 0x40), (8, 1, op), (10, 2, 7), (16, 4, 256), (24, 4, 0x8000), (32, 4, 0xA000)]
/-- Expert 0 lives on peer 9; the token of the DISPATCH goes nowhere. -/
def wRoute : State := rawWrite (rawWrite wFab 0x8100 [0xFF, 0xFF]) 0x8200 [9]
def wMap : State := rawWrite wFab 0x8304 [0xFF, 0xFF, 0xFF, 0xFF]
def wExpertEnds : State :=
  let s := wSp wRoute [wRetry (bDisp 0x41)]
  { s with fab := { s.fab with
    disps := [{ id := 1, u := u0, slot := 0, group := 0, opid := 0, members := [7, 9], copies := [], grants := [], granted := [7, 9], rows := true, accepted := 0, dropped := 0, nack := 0, since := 0 }]
    combs := [] } }
def wCombEnds : State :=
  let s := wSp wMap [wRetry (bDisp 0x42)]
  { s with fab := { s.fab with combs := [{ id := 2, u := u0, slot := 0, group := 0, opid := 0, need := [], rows := [], nack := 0, since := 0 }] } }
def wMine : State := setSpool (wOn spActive) u0 { spool (wOn spActive) u0 with lease := some (.core 0 .m, 0) }
/-- A TRANSFER_INLINE in the next slots; a CANCEL with a reserved bit; an unknown opcode. -/
def wInlineNext : State := rawWrite (wOn spActive) 0x10000 bInline
def wCancelBad : State := rawWrite (wOn spActive) 0x10000 (wBytes 64 [(0, 1, 0x7F), (8, 1, 0x81)])
def wUnknown : State := wSp wEng [wCmd (wBytes 64 [(0, 1, 0x3F)])]
def wReadyNone : State := setBob wEng 0 1 bReady 0 false 0
/-- An access of core 0 of engine 0 that waits. -/
def wTaskWaits : State := { wTask with hub := { wTask.hub with stalled := [{ id := 9, req := { wLoad 0x1000 with agent := .spindle 0 0 .u }, since := 0 }] } }
def wTaskFits : State := wReg wTask (rSqBase 0 0 0) [(fSqBaseVa, 16)]
def wTodo : State :=
  let s := wSp wEng [wRun (bMat 0x10 false)]
  setEngAux s 0 { engAux s 0 with runs := [{ u := u0, slot := 0, todo := [0], tiles := [], done := [], init := none, fixed := false, unres := false, pois := false }] }
def wRecompGone : State := setEngAux wEng 0 { engAux wEng 0 with recomp := [{ u := u0, slot := 0, q := 0, pass := 0, arr := 0, rows := [0], injected := false }] }
def wFetchHeld : State := setSpool (wSp wEng []) u0 { spool (wSp wEng []) u0 with fetchHold := some (7, wFault) }
def wRecHeld : State := setSpool (wSp wEng []) u0 { spool (wSp wEng []) u0 with cqHold := some (7, wFault) }
def wWalkOne : State :=
  setEngAux wRoot 0 { engAux wRoot 0 with rc := [], walks := [{ id := 4, req := wReq 0x10, joined := [], restart := false }] }
def wConsAgain (t : Nat) : State :=
  { wRoot with time := t, hub := { wRoot.hub with consults := [{ id := 4, req := wReq 0, entry := wRcE, since := 0, written := true, restart := true }] } }
/-- A DRAIN flush has dropped its entries; a request of its ASTAG is outstanding or not. -/
def wFlushing (wait : Bool) : State :=
  { wFab with hub := { wFab.hub with
    nextId := 3
    flushQ := [{ astag := 1, all := false, drain := true, software := true, started := some 3 }]
    stalled := if wait then [{ id := 1, req := { wLoad 0 with astag := 1 }, since := 0 }] else [] } }
def wAsleep : State := wReg wEng (rEngPwr 0) [(fEngPwrState, 3)]
def wCore (k : MemKind) (a : Nat) : MemReq := { wLoad a with agent := .core 0 .m, kind := k, len := 64, shared := true, cached := true }
def wResv : State := { wGran with hub := { wGran.hub with
  dir := [{ line := 0x40010, owned := true, pv := [0], data := none, hold := none, waiters := [] }], resv := [(0, 0x40010)] } }
def wVictim : State :=
  let s := setObjNat (wMigQ 1 wPromote) (oPoolFramesP 0) 4 64
  let s := wReg s (rPoolAcct 0) [(fPoolAcctValid, 1), (fPoolAcctAstag, 1), (fPoolAcctPartition, 0)]
  s
def wConnErr : State := { wEng with rel := { wEng.rel with connErr := [((0, 0, 152), (List.range 15).map (fun i => (i, 0)))] } }
def wRefreshed : State := { wStk with dev := { wStk.dev with refAt := [((0, 1, 3), 0)] } }
def wDieLeaves : State := { wSp wEng [wRun (bMat 0x10 false)] with time := 100000, pow := { wEng.pow with departs := [(.die 0, 0)] } }
def wSeen (op : Nat) : State :=
  { wJob with fab := { wJob.fab with halySeen := [(0, 3, op, 9)] } }

/-- Granule 2 leaves the stack while its flush waits for an access of its ASTAG. -/
def wGranFlush : State := { wGran with hub := { wGran.hub with
  nextId := 3, flushQ := [{ astag := 1, all := false, drain := true, software := false, gran := some 2, started := some 3 }]
  stalled := [{ id := 1, req := { wLoad 0x1000 with astag := 1 }, since := 0 }] } }
def wBiasFlush : State := { wBias 1 false 0 with hub := { (wBias 1 false 0).hub with
  nextId := 3, stalled := [{ id := 1, req := { wLoad 0x1000 with astag := 1 }, since := 0 }] } }
def wTierWait (t : Nat) : State :=
  { wGran with time := t, hub := { wGran.hub with tierWaits := [{ id := 1, u := u0, slot := 0, since := 0, spans := [(0x10000, 64)], late := false }] } }
def wReadWaits : State := { wGran with time := 10 ^ 12, hub := { wGran.hub with stalled := [{ id := 9, req := wLoad 0x10000, since := 0 }] } }
def wMargined : State := { wStk with dev := { wStk.dev with margin := [(0, 1, 1)] } }
def wSparesGone : State := { wStk with dev := { wStk.dev with stkUsed := [((0, 1, 2, 0), 32)] } }
def wRecal : State := { wStk with dev := { wStk.dev with recalAt := [((0, 1), 0)] } }
def wStep8 : State := wStep [1, 2, 3, 4, 5, 6, 7]
def wCutProg : State := { wStep8 with dev := { wStep8.dev with flInflight := [{ lpn := 3, page := none, old := [(0, 1)], bad := [], was := none }] } }
/-- Landing entry 5, of rows of 16 E4M3 codes at addresses of ASTAG 1, and the landing of peer 9's DISPATCH at it. -/
def wLand : State :=
  let s := rawWrite (wReg wFab rLandTable [(fLandTableBase, 0x4000)]) (0x100000 + 512 * 5)
    (wBytes 512 [(0, 4, 1), (4, 4, 1), (8, 1, 96 + 2), (9, 1, 1), (10, 2, 16), (12, 2, 1), (14, 2, 1024), (16, 2, 1), (18, 2, 1), (20, 1, 0), (24, 4, 0xC100), (32, 4, 0xC200), (40, 4, 64), (48, 4, 0xC300), (64, 4, 0xD000)])
  { s with fab := { s.fab with lands := [{ part := 0, group := 0, opid := 0, idx := 5, target := 0, rows := 1, left := 1, refused := false }] } }
def wCombOf (need : Nat) : State :=
  { wLand with fab := { wLand.fab with combQ := [{ id := 8, conn := some 3, part := 0, group := 0, opid := 0, idx := 5, first := 0, count := 1, need := need, n := 16 }] } }
/-- Both members' counts of a DISPATCH that sends no row. -/
def wCountsAll : State := { wFab with fab := { wFab.fab with
  counts := [{ group := 0, opid := 0, part := 0, peer := 7, fmt := 0, counts := [] }, { group := 0, opid := 0, part := 0, peer := 9, fmt := 0, counts := [] }] } }
def wUpdFar : State := rawWrite (wUpd 1) (0x400000 + 16) (wBytes 8 [(0, 8, 2 ^ 41)])
def wCkptNear : State := rawWrite (wCkpt [(0, 0, 0)]) (0x400000 + 16) (wBytes 8 [(0, 8, 0x2000000)])
/-- A record of an idle spool that waits for room. -/
def wRecordWaits : State := setSpool (wIdle 500000) u0 { spool (wIdle 500000) u0 with held := [{ bytes := [1], irq := false }] }
def wDrained : State := setEngAux wEng 0 { engAux wEng 0 with depart := some 0 }
def wLayoutFlush : State := { wLayout with hub := { wLayout.hub with flushQ := [{ astag := 0, all := true, drain := true, software := false }] } }
def wUnsound : State := { setObjNat (wStage 0 stSealed) oLifecycle 1 3 with sec := { (wStage 0 stSealed).sec with
  sets := [(0, { cred := 5, role := some .operator, items := [{ index := oLifecycle.1, sub := oLifecycle.2, value := [1] }], digest := [1], sealedAt := 0 })] } }
/-- A command under way whose record finds its ring full. -/
def wRingFull : State := setR (wSp wEng [wRun bFence]) (rCqPtr 0 0 0) 64

/-! ### Premises as Booleans -/

def wSound (s : State) : Bool := decide (Memory.wf s.mem = true) && (s.poison.zip (s.poison.drop 1)).all (fun x => decide (x.1 < x.2))
def wOutside (a base n : Nat) : Bool := decide (a < base ∨ base + n ≤ a)
def wMet (flags v x : Nat) : Bool := if flags % 4 = 0 then decide (x ≤ v) else if flags % 4 = 1 then decide (v = x) else decide (v ≠ x)
def wNoWait (s : State) (u : SpoolId) (slot : Nat) : Bool := s.hub.tierWaits.all (fun w => !(decide (w.u = u) && decide (w.slot = slot)))
def wNoneAwaits (s : State) : Bool := s.hub.grans.all (fun x => !decide (x.2.state = 1) || !x.2.copying)
def wHubIdle (s : State) : Bool :=
  s.hub.stalled.isEmpty && s.hub.writes.isEmpty && s.hub.flushQ.isEmpty && s.hub.flushWait.isEmpty && s.eng.spools.all (fun x => x.2.held.isEmpty) &&
    decide (hotWaiting s = 0) && wNoneAwaits s
def wAdmitted (s : State) (r : MemReq) : Bool :=
  decide (r.va = none) && decide (r.mpa.toNat < mmioBase) && decide (sleepingStore s r = none) && decide (staleUnit s r = none) && decide (reqBytes r ≠ 0) &&
    decide (r.ecc ≠ .pathParityAddr) && decide (refusal s r = none)
def wKeeps (s : State) (r : MemReq) : Bool :=
  !r.cached || (match r.agent with
    | .core .. => false
    | _ => true) || (r.shared && s.hub.biasQ.isEmpty)
def wDueB (sel : Bytes → Bool) (bad : State → Cmd → Bool) (bobs : Bytes → List Nat) (s : State) (u : SpoolId) (c : Cmd) (s0 : State) (c0 : Cmd) : Bool :=
  sel c.bytes && !c.poisonLater && headerOk c.bytes && !bad s0 c0 && !(bobs c.bytes).any (badBobbin s u)
def wQuiet (r : SpoolRow) (s : State) (u : SpoolId) : Bool :=
  (match oldestCmd s u with
    | some c => !(r.bobs c.bytes).any (badBobbin s u)
    | none => true) && s.hub.tierWaits.all (fun w => decide (w.u ≠ u))
def wLinkOpen (s : State) (l : Fin 19) : Bool := decide (linkState s l ≠ lkDown) && decide (linkState s l ≠ lkFailed) && !(link s l).inReset
def wArrives (r : PlaRow) (s : State) (l : Fin 19) (m : PlaMsg) : Bool :=
  !(link s l).inReset && chanOpen s l r.chan && plaSpells m r.chan r.rsp r.op r.data && decide (m.parity = .ok)
def wReach (s : State) (f : Frame) (k : Nat) : Option State :=
  if f.opcode.toNat = k ∧ f.cls.toNat ≤ 2 ∧ f.hurt = [] then
    match takeIn s f with
    | (s1, true) =>
      match admitConn (retryHeld s1) f with
      | (s2, true) =>
        match useCtx s2 f.conn.toNat with
        | (t, true) => some t
        | (_, false) => none
      | (_, false) => none
    | (_, false) => none
  else none
def wApplies (t : State) (f : Frame) : Bool :=
  let c := conn t f.conn.toNat
  decide (psnAhead c f < 2 ^ 23) && decide (psnAhead c f < 2 ^ c.winLog2) && !(arrivedPsns t f.conn.toNat).elem f.psn.toNat && (!f.fence || decide (psnAhead c f = 0)) &&
    (decide (f.opcode = 0x06) || inDomain t f.srcPeer.toNat)

theorem wMet_iff (flags v x : Nat) : wMet flags v x = true ↔ waitMet flags v x := by
  unfold wMet waitMet
  split
  · simp
  · split <;> simp

theorem wOutside_iff (a base n : Nat) : wOutside a base n = true ↔ Outside a base n := by simp [wOutside, Outside]

theorem wNoWait_holds {s : State} {u : SpoolId} {slot : Nat} (h : wNoWait s u slot = true) : NoWait s u slot := by
  intro w hw hc
  have h2 := List.all_eq_true.mp h w hw
  simp [hc.1, hc.2] at h2

theorem wNoneAwaits_holds {s : State} (h : wNoneAwaits s = true) : NoneAwaitsFlush s := by
  intro x hx h1
  have h2 := List.all_eq_true.mp h x hx
  simpa [h1] using h2

theorem wHubIdle_holds {s : State} (h : wHubIdle s = true) : HubIdle s := by
  simp only [wHubIdle, Bool.and_eq_true, List.isEmpty_iff, decide_eq_true_eq, List.all_eq_true] at h
  obtain ⟨⟨⟨⟨⟨⟨h1, h2⟩, h3⟩, h4⟩, h5⟩, h6⟩, h7⟩ := h
  exact ⟨h1, h2, h3, h4, h5, h6, wNoneAwaits_holds h7⟩

theorem wAdmitted_holds {s : State} {r : MemReq} (h : wAdmitted s r = true) : Admitted s r := by
  simpa [wAdmitted, Admitted, and_assoc] using h

theorem wKeeps_holds {s : State} {r : MemReq} (h : wKeeps s r = true) : KeepsR248 s r := by
  simp only [wKeeps, Bool.or_eq_true, Bool.and_eq_true, Bool.not_eq_true', List.isEmpty_iff] at h
  rcases h with (h | h) | h
  · exact .inl (.inl h)
  · refine .inl (.inr fun c p hc => ?_)
    rw [hc] at h
    cases h
  · exact .inr h

theorem wDueB_due {sel : Bytes → Bool} {bad : State → Cmd → Bool} {bobs : Bytes → List Nat} {s s0 : State} {u : SpoolId} {c c0 : Cmd}
    (hp : pick s u = some c) (hm : markStart s u c = (s0, c0)) (h : wDueB sel bad bobs s u c s0 c0 = true) : CmdDue sel bad bobs s u c s0 c0 := by
  simp only [wDueB, Bool.and_eq_true, Bool.not_eq_true'] at h
  obtain ⟨⟨⟨⟨h1, h2⟩, h3⟩, h4⟩, h5⟩ := h
  exact ⟨hp, hm, h1, h2, h3, h4, h5⟩

theorem wQuiet_holds {r : SpoolRow} {s : State} {u : SpoolId} (h : wQuiet r s u = true) : r.Quiet s u := by
  simp only [wQuiet, Bool.and_eq_true, List.all_eq_true, decide_eq_true_eq] at h
  refine ⟨fun c hc => ?_, h.2⟩
  rw [hc] at h
  simpa using h.1

theorem wLinkOpen_holds {s : State} {l : Fin 19} (h : wLinkOpen s l = true) : LinkOpen s l := by
  simpa [wLinkOpen, LinkOpen, and_assoc] using h

theorem wArrives_arrives {r : PlaRow} {s : State} {l : Fin 19} {m : PlaMsg} (h : wArrives r s l m = true) : r.Arrives s l m := by
  simpa [wArrives, PlaRow.Arrives, and_assoc] using h

theorem wApplies_applies {t : State} {f : Frame} (h : wApplies t f = true) : Applies t f := by
  simp only [wApplies, Bool.and_eq_true, Bool.or_eq_true, decide_eq_true_eq, Bool.not_eq_true'] at h
  obtain ⟨⟨⟨⟨h1, h2⟩, h3⟩, h4⟩, h5⟩ := h
  exact ⟨h1, h2, h3, fun hf => h4.resolve_left (by simp [hf]), h5⟩

theorem wReach_reaches {s t : State} {f : Frame} {k : Nat} (h : wReach s f k = some t) : Reaches s t f k := by
  unfold wReach at h
  split at h
  · rename_i hk
    split at h
    · rename_i s1 h1
      split at h
      · rename_i s2 h2
        split at h
        · rename_i t' h3
          exact ⟨hk.1, hk.2.1, hk.2.2, s1, s2, h1, h2, by rw [h3, Option.some.inj h]⟩
        · cases h
      · cases h
    · cases h
  · cases h

/-! ### Witnesses: states and operands that meet the hypotheses of each clause of each statement -/

theorem witness_StepRunsFrontCommand : (
  ((let s : State := { State.reset with pending := [.moduleReset] }; (match s.pending with | c :: rest => true | _ => false)))) = true := by decide +kernel

theorem witness_ResetIsSoundAndTheIdleBlockPassesTime : (
  ((let s : State := State.reset; decide (s.pending = [])))) = true := by decide +kernel

theorem witness_StepKeepsSound : (
  ((let s : State := State.reset; (wSound s) && (match step s with | .next t => true | _ => false)))) = true := by decide +kernel

theorem witness_OnlySvnCommitRaisesFuseSvn : (
  ((let c : Instr := .svnCommit; (let s : State := State.reset; (match exec c s with | .next t => true | _ => false)))) &&
  ((let c : Instr := .holdupReady; (let s : State := State.reset; (match exec c s with | .next t => decide (c ≠ .svnCommit) | _ => false))))) = true := by decide +kernel

theorem witness_MemoryReadAfterWrite : (
  ((let s : State := State.reset; (let a : Nat := 0; (let bs : Bytes := [1,2]; decide (Memory.wf s.mem = true) && decide (bs ≠ []) && (let i := 0; decide (i < bs.length)))))) &&
  ((let s : State := State.reset; (let a : Nat := 4; (let bs : Bytes := [1, 2]; decide (Memory.wf s.mem = true) && decide (bs ≠ []) && (let x := 9; (wOutside x a bs.length)))))) &&
  ((let s : State := State.reset; (let a : Nat := 4; (let bs : Bytes := [1, 2]; decide (Memory.wf s.mem = true) && decide (bs ≠ []) && (let l := 0; true))))) &&
  ((let s : State := (poisonLine wGran 1024); (let g : Nat := 0; (let o : Nat := 0; decide (g < granCount) && decide (o < granBytes) && decide ((gran s g).state = 2 ∨ (gran s g).state = 3))))) &&
  ((let s : State := State.reset; (let g : Nat := 0; (let o : Nat := 0; decide (g < granCount) && decide (o < granBytes) && decide ((gran s g).state ≠ 2) && decide ((gran s g).state ≠ 3))))) &&
  ((let s : State := State.reset; (let d : Nat := 2; (let o : Nat := 48 * gib - 1; decide (d < 8) && decide (spreadGib s ≤ 48) && decide ((48 - spreadGib s) * gib ≤ o) && decide (o < 48 * gib))))) &&
  ((let s : State := State.reset; (let d : Nat := 2; (let o : Nat := 5; decide (d < 8) && decide (o < (48 - spreadGib s) * gib))))) &&
  ((let s : State := State.reset; (let a : Nat := 1649267441664; decide (bulkBytes ≤ a) && decide (a < stackBase ∨ sramBase ≤ a))))) = true := by decide +kernel

theorem witness_RefusedRegisterRowsOnlyCount : (
  ((let c : Instr := (.sqTail (.core 64 .m) u0 5); (let s : State := State.reset; (match rowWrite c with | some (ag, k) => decide (regRight s ag k = false) | _ => false))))) = true := by decide +kernel

theorem witness_WindowsAcceptOnlyTheirPartition : (
  ((let s : State := wOwn; (let ag : Agent := (.core 64 .m); (let o : Nat := 0x10040000; (match mmioTarget o with | .reg k => decide (o % 8 = 0) && decide (o < 2 ^ 40) && decide (k.blk = .engC ∨ k.blk = .hubWin ∨ k.blk = .carderWin) && decide (∀ d, ag = .debugger d → debugLevel s ≠ 2) && (let owner := if k.blk = .engC then engOwner s k.i else some k.i; true) | _ => false))))) &&
  ((let s : State := wOwn; (let ag : Agent := (.core 64 .m); (let o : Nat := 0x1FFF8; (match mmioTarget o with | .reg k => decide (o % 8 = 0) && decide (o < 2 ^ 40) && decide (k.blk = .engC ∨ k.blk = .hubWin ∨ k.blk = .carderWin) && decide (∀ d, ag = .debugger d → debugLevel s ≠ 2) && decide (regRight s ag k = false) | _ => false))))) &&
  ((let s : State := wOwn; (let ag : Agent := (.core 64 .m); (let o : Nat := 0x10040000; (match mmioTarget o with | .reg k => decide (o % 8 = 0) && decide (o < 2 ^ 40) && decide (k.blk = .engC ∨ k.blk = .hubWin ∨ k.blk = .carderWin) && decide (∀ d, ag = .debugger d → debugLevel s ≠ 2) && decide (regRight s ag k = false) && (let val : BitVec 64 := 5; true) | _ => false)))))) = true := by decide +kernel

theorem witness_SpoolCommandsAreCheckedBeforeTheyStart : (
  ((spoolRows).any (fun r => (let s : State := State.reset; (let u : SpoolId := u0; decide (pick s u = none) && (wQuiet r s u))))) &&
  ((spoolRows).any (fun r => (let s : State := (wSp wEng [wCmd bInline]); (let u : SpoolId := u0; (match pick s u with | some c => decide (r.sel c.bytes = false) && (wQuiet r s u) | _ => false))))) &&
  ((let s : State := State.reset; (let u : SpoolId := u0; decide (s.pow.stopped = true ∨ spState s u ≠ spActive ∨ (spool s u).held ≠ [] ∨ (spool s u).cqHold ≠ none)))) &&
  ((spoolRows).any (fun r => (let s : State := (wSp wEng [wLate bZero]); (let u : SpoolId := u0; (match pick s u with | some c => (match markStart s u c with | (s0, c0) => decide (r.sel c.bytes = true) && decide (c.poisonLater = true)) | _ => false))))) &&
  ((spoolRows).any (fun r => (let s : State := (wSp wEng [wCmd (bTask 0 1000001)]); (let u : SpoolId := u0; (match pick s u with | some c => (match markStart s u c with | (s0, c0) => decide (r.sel c.bytes = true) && decide (c.poisonLater = false) && decide (headerOk c.bytes = false ∨ r.bad u s0 c0 = true)) | _ => false))))) &&
  ((spoolRows).any (fun r => (let s : State := (wSp wEng [wCmd (bEw 4)]); (let u : SpoolId := u0; (match pick s u with | some c => (match markStart s u c with | (s0, c0) => decide (r.sel c.bytes = true) && decide (c.poisonLater = false) && decide (headerOk c.bytes = true) && decide (r.bad u s0 c0 = false) && decide ((r.bobs c.bytes).any (badBobbin s u) = true)) | _ => false))))) &&
  ((spoolRows).any (fun r => (let s : State := (wSp wEng [wRun bFence, { wCmd (bEw 4) with slot := 1 }]); (let u : SpoolId := u0; (match oldestCmd s u with | some c => (match markStart s u c with | (s0, c0) => ((match pick s u with | some d => !r.sel d.bytes | none => true)) && decide (r.sel c.bytes = true) && decide (c.poisonLater = false) && decide (headerOk c.bytes = true) && decide (r.bad u s c = false) && decide ((r.bobs c.bytes).any (badBobbin s u) = true)) | _ => false)))))) = true := by decide +kernel

theorem witness_DueCommandsDoTheirWork : (
  ((spoolRows).any (fun r => (let s : State := (wSp wEng [wCmd bZero]); (let u : SpoolId := u0; (match pick s u with | some c => (match markStart s u c with | (s0, c0) => (wDueB r.sel (r.bad u) r.bobs s u c s0 c0) && (match r.body u s0 c0 with | (s2, c2, .ends st d) => true | _ => false)) | _ => false))))) &&
  ((spoolRows).any (fun r => (let s : State := (wSp wEng [wCmd (bMat 0x10 false)]); (let u : SpoolId := u0; (match pick s u with | some c => (match markStart s u c with | (s0, c0) => (wDueB r.sel (r.bad u) r.bobs s u c s0 c0) && (match r.body u s0 c0 with | (s2, c2, .runs) => true | _ => false)) | _ => false))))) &&
  ((spoolRows).any (fun r => (let s : State := (wSp wEng [wCmd (bCopy)]); (let u : SpoolId := u0; (match pick s u with | some c => (match markStart s u c with | (s0, c0) => (wDueB r.sel (r.bad u) r.bobs s u c s0 c0) && (match r.body u s0 c0 with | (s2, c2, .waits) => true | _ => false)) | _ => false))))) &&
  ((spoolRows).any (fun r => (let s : State := (wSp wGran [wCmd (bTo 0x200000)]); (let u : SpoolId := u0; (match pick s u with | some c => (match markStart s u c with | (s0, c0) => (wDueB r.sel (r.bad u) r.bobs s u c s0 c0) && (match r.body u s0 c0 with | (s2, c2, .held ps) => true | _ => false)) | _ => false))))) &&
  ((spoolRows).any (fun r => (let s : State := (wSp wGran [wCmd (bCardTo 0x200000)]); (let u : SpoolId := u0; (match pick s u with | some c => (match markStart s u c with | (s0, c0) => (wDueB r.sel (r.bad u) r.bobs s u c s0 c0) && (match r.body u s0 c0 with | (s2, c2, .holds ps) => true | _ => false)) | _ => false))))) &&
  ((spoolRows).any (fun r => (let s : State := (wSp wEng [wCmd (bCard 0)]); (let u : SpoolId := u0; (match pick s u with | some c => (match markStart s u c with | (s0, c0) => (wDueB r.sel (r.bad u) r.bobs s u c s0 c0) && (match r.body u s0 c0 with | (s2, c2, .faults i b) => true | _ => false)) | _ => false))))) &&
  ((spoolRows).any (fun r => (let s : State := (wSp (wConsult wEng) [wCmd (bTo 0x8000)]); (let u : SpoolId := u0; (match pick s u with | some c => (match markStart s u c with | (s0, c0) => (wDueB r.sel (r.bad u) r.bobs s u c s0 c0) && (match r.body u s0 c0 with | (s2, c2, .asks q va e) => true | _ => false)) | _ => false)))))) = true := by decide +kernel

theorem witness_CommandsStartAndEnd : (
  ((let s : State := wEng; (let u : SpoolId := u0; (let c : Cmd := (wCmd bFence); decide (c.phase = .fetched))))) &&
  ((let s : State := wEng; (let u : SpoolId := u0; (let c : Cmd := { wCmd bFence with phase := .retry }; decide (c.phase = .retry))))) &&
  ((let s : State := (wSp wEng [wCmd bZero]); (let u : SpoolId := u0; (let slot : Nat := 0; (let st : Nat := 0; (let d : Nat := 0; decide (spState s u = spActive))))))) &&
  ((let s : State := State.reset; (let u : SpoolId := u0; (let slot : Nat := 0; (let st : Nat := 0; (let d : Nat := 0; decide (spState s u ≠ spActive)))))))) = true := by decide +kernel

theorem witness_MatrixAndVectorCommands : (
  ((let s : State := (wSp wEng [wCmd (bMat 0x10 false)]); (let u : SpoolId := u0; (match pick s u with | some c => (match markStart s u c with | (s0, c0) => (wDueB (isOp 0x10) (mmBad u) mmBobs s u c s0 c0) && (wNoWait s u c.slot) && decide (runOf s u c.slot = none) && decide (accSet s u.e u.n (mmOf c.bytes).id = none) && decide (insReady s u (mmBobs c.bytes) = true) && decide (noRoom s u.e (mmOf c.bytes) (!(mmOf c.bytes).drain) = false)) | _ => false)))) &&
  ((let s : State := (wSp wHeld [wCmd (bMat 0x10 false)]); (let u : SpoolId := u0; (match pick s u with | some c => (match markStart s u c with | (s0, c0) => (wDueB (isOp 0x10) (mmBad u) mmBobs s u c s0 c0) && decide (runOf s u c.slot = none) && decide (insReady s u (mmBobs c.bytes) = true) && decide ((accSet s u.e u.n (mmOf c.bytes).id).isSome = true ∨ noRoom s u.e (mmOf c.bytes) (!(mmOf c.bytes).drain) = true)) | _ => false)))) &&
  ((let s : State := (wSp wEng [wCmd ((bMat 0x10 false).set 28 2)]); (let u : SpoolId := u0; (match pick s u with | some c => (match markStart s u c with | (s0, c0) => (wDueB (isOp 0x10) (mmBad u) mmBobs s u c s0 c0) && decide (runOf s u c.slot = none) && decide (insReady s u (mmBobs c.bytes) = false)) | _ => false)))) &&
  ((let s : State := (wSp wHeld [wCmd (bMat 0x11 false)]); (let u : SpoolId := u0; (match pick s u with | some c => (match markStart s u c with | (s0, c0) => (wDueB (isOp 0x11) (mmBad u) mmBobs s u c s0 c0) && (wNoWait s u c.slot) && decide (runOf s u c.slot = none) && decide ((mmOf c.bytes).load = false) && (match accSet s u.e u.n (mmOf c.bytes).id with | some a => decide (a.m = (mmOf c.bytes).m) && decide (a.cols = (mmOf c.bytes).n) && decide (a.aRows = (mmOf c.bytes).t) && decide (insReady s u (mmBobs c.bytes) = true) && decide ((setRuns s u.e u.n (mmOf c.bytes).id).any (fun y => (mmOf y.2.bytes).drain) = false) | _ => false)) | _ => false)))) &&
  ((let s : State := (wSp wEng [wCmd (bMat 0x11 true)]); (let u : SpoolId := u0; (match pick s u with | some c => (match markStart s u c with | (s0, c0) => (wDueB (isOp 0x11) (mmBad u) mmBobs s u c s0 c0) && decide (runOf s u c.slot = none) && (let x := mmOf c.bytes; decide (x.load = true) && decide (x.drain = true ∨ accSet s u.e u.n x.id = none) && decide (insReady s u (mmBobs c.bytes) = true) && decide (noRoom s u.e x (!x.drain) = false) && (match reach s0 (engReq s0 u 4 false true) x.out ((x.m - 1) * x.pitch + 4 * x.n) with | (s2, .ok ps) => (let pois := (List.range x.m).any (fun r => (vaSrc (piecesTouch s2 ps) ps).poisoned (r * x.pitch) (4 * x.n)); (let s3 := (if pois then cmdPoison (piecesTouch s2 ps) u c0.step (firstPoison (piecesTouch s2 ps) ps) else piecesTouch s2 ps); true)) | _ => false))) | _ => false)))) &&
  ((let s : State := (wSp wHeldOther [wCmd (bMat 0x11 false)]); (let u : SpoolId := u0; (match pick s u with | some c => (match markStart s u c with | (s0, c0) => (wDueB (isOp 0x11) (mmBad u) mmBobs s u c s0 c0) && decide (runOf s u c.slot = none) && decide ((mmOf c.bytes).load = false) && (match accSet s u.e u.n (mmOf c.bytes).id with | some a => decide (a.m ≠ (mmOf c.bytes).m ∨ a.cols ≠ (mmOf c.bytes).n ∨ a.aRows ≠ (mmOf c.bytes).t) && decide (insReady s u (mmBobs c.bytes) = true) && decide ((setRuns s u.e u.n (mmOf c.bytes).id).any (fun y => (mmOf y.2.bytes).drain) = false) | _ => false)) | _ => false)))) &&
  ((let s : State := (wSp wEng [wCmd (bMat 0x11 false)]); (let u : SpoolId := u0; (match pick s u with | some c => (match markStart s u c with | (s0, c0) => (wDueB (isOp 0x11) (mmBad u) mmBobs s u c s0 c0) && decide (runOf s u c.slot = none) && decide (insReady s u (mmBobs c.bytes) = true) && decide (((mmOf c.bytes).load = false ∧ accSet s u.e u.n (mmOf c.bytes).id = none ∧ (setRuns s u.e u.n (mmOf c.bytes).id).any (fun y => (mmOf y.2.bytes).drain) = false) ∨ ((mmOf c.bytes).load = true ∧ (((mmOf c.bytes).drain = false ∧ (accSet s u.e u.n (mmOf c.bytes).id).isSome = true) ∨ noRoom s u.e (mmOf c.bytes) (!(mmOf c.bytes).drain) = true)))) | _ => false)))) &&
  ((let s : State := (wSp wEng [wCmd ((bMat 0x11 false).set 28 2)]); (let u : SpoolId := u0; (match pick s u with | some c => (match markStart s u c with | (s0, c0) => (wDueB (isOp 0x11) (mmBad u) mmBobs s u c s0 c0) && decide (runOf s u c.slot = none) && decide (insReady s u (mmBobs c.bytes) = false ∨ ((mmOf c.bytes).load = false ∧ (setRuns s u.e u.n (mmOf c.bytes).id).any (fun y => (mmOf y.2.bytes).drain) = true))) | _ => false)))) &&
  ((let s : State := (wSp wEng [wCmd (bEw 0)]); (let u : SpoolId := u0; (match pick s u with | some c => (match markStart s u c with | (s0, c0) => (wDueB (isOp 0x18) (ewBad u) (fun b => ewBobs (ewOf b)) s u c s0 c0) && (wNoWait s u c.slot) && decide (runOf s u c.slot = none) && decide (insReady s u (ewBobs (ewOf c.bytes)) = true)) | _ => false)))) &&
  ((let s : State := (wSp wEng [wCmd (bEw 2)]); (let u : SpoolId := u0; (match pick s u with | some c => (match markStart s u c with | (s0, c0) => (wDueB (isOp 0x18) (ewBad u) (fun b => ewBobs (ewOf b)) s u c s0 c0) && decide (runOf s u c.slot = none) && decide (insReady s u (ewBobs (ewOf c.bytes)) = false)) | _ => false)))) &&
  ((let s : State := (wSp wEng [wCmd (bVec 0)]); (let u : SpoolId := u0; (match pick s u with | some c => (match markStart s u c with | (s0, c0) => (wDueB (isOp 0x20) (voBad u) (fun b => (voOf b).bobs) s u c s0 c0) && (let v := voOf c.bytes; (match drainFmt v.fx with | some fx => (match drainFmt v.fy with | some fy => (match drainFmt v.fo with | some fo => decide (insReady s0 u v.ins = true) && decide (v.fillsOf.all (fun b => outReady s0 u c.slot b) = true) && (let q := voSources v fx fy s0 u; (let p := voConsumes v fx fy fo s0 u q; true)) | _ => false) | _ => false) | _ => false))) | _ => false)))) &&
  ((let s : State := (wSp wEng [wCmd (bVec 2)]); (let u : SpoolId := u0; (match pick s u with | some c => (match markStart s u c with | (s0, c0) => (wDueB (isOp 0x20) (voBad u) (fun b => (voOf b).bobs) s u c s0 c0) && decide (insReady s u (voOf c.bytes).ins = false ∨ (voOf c.bytes).fillsOf.all (fun b => outReady s0 u c.slot b) = false)) | _ => false))))) = true := by decide +kernel

theorem witness_TransfersFillTheirSpans : (
  ((let s : State := (wSp wEng [wCmd bInline]); (let u : SpoolId := u0; (match pick s u with | some c => (match markStart s u c with | (s0, c0) => (wDueB (isOp 0x02) (inlineBad u) inlineBobs s u c s0 c0) && decide (bitOf (u8At c.bytes 8) 0 = true) && decide (outReady s0 u c0.slot (u8At c.bytes 10) = true) && decide (s.hub.breach = []) && decide (c.bytes.length = 256) && decide (Memory.wf s.mem = true)) | _ => false)))) &&
  ((let s : State := (wSp wEng [wCmd bInline]); (let u : SpoolId := u0; (match pick s u with | some c => (match markStart s u c with | (s0, c0) => (wDueB (isOp 0x02) (inlineBad u) inlineBobs s u c s0 c0) && decide (bitOf (u8At c.bytes 8) 0 = true) && decide (outReady s0 u c0.slot (u8At c.bytes 10) = true)) | _ => false)))) &&
  ((let s : State := (wSp wEng [wCmd (bTo 0x9000)]); (let u : SpoolId := u0; (match pick s u with | some c => (match markStart s u c with | (s0, c0) => (wDueB (isOp 0x02) (inlineBad u) inlineBobs s u c s0 c0) && decide (bitOf (u8At c.bytes 8) 0 = false) && (match reach s0 (engReq s0 u 0 true false) (u64At c.bytes 16) (u8At c.bytes 9) with | (s2, .ok ps) => true | _ => false)) | _ => false)))) &&
  ((let s : State := (wSp wEng [wCmd (bInline.set 10 0)]); (let u : SpoolId := u0; (match pick s u with | some c => (match markStart s u c with | (s0, c0) => (wDueB (isOp 0x02) (inlineBad u) inlineBobs s u c s0 c0) && decide (bitOf (u8At c.bytes 8) 0 = true) && decide (outReady s0 u c0.slot (u8At c.bytes 10) = false)) | _ => false)))) &&
  ((let s : State := (wSp wEng [wCmd (bZero)]); (let u : SpoolId := u0; (match pick s u with | some c => (match markStart s u c with | (s0, c0) => (wDueB (isOp 0x01) (trBad u) trBobs s u c s0 c0) && (match (trOf c.bytes).format with | some f => ((!(trOf c.bytes).staged || (decide (stagings s0 u.e u.n ≠ []) && decide (trStage s0 u c0 f ≠ [])))) && ((!(trOf c.bytes).srcBob || insReady s0 u [(trOf c.bytes).sb])) && ((!(trOf c.bytes).dstBob || (trOf c.bytes).inPlace || outReady s0 u c0.slot (trOf c.bytes).db)) && (match trMover s0 u c0 with | some m => (match trSource (trTake s0 u c0.slot (trOf c.bytes) (trStage s0 u c0 f)) u (trOf c.bytes) f with | (s1, .ok src) => (match trTarget s1 u (trOf c.bytes) f with | (s2, .ok t) => true | _ => false) | _ => false) | _ => false) | _ => false)) | _ => false)))) &&
  ((let s : State := (wSp wEng [wCmd bZero]); (let u : SpoolId := u0; (match pick s u with | some c => (match markStart s u c with | (s0, c0) => (wDueB (isOp 0x01) (trBad u) trBobs s u c s0 c0) && decide (c.mover = none) && decide ((trOf c.bytes).array = false) && decide ((trOf c.bytes).dstBob = true) && decide ((trOf c.bytes).zero = true ∨ (trOf c.bytes).srcBob = true) && decide ((trOf c.bytes).srcBob = true → insReady s u [(trOf c.bytes).sb] = true) && decide ((trOf c.bytes).inPlace = true ∨ outReady s u c.slot (trOf c.bytes).db = true) && decide ((freeMover s u.e).isSome = true) && decide (s.hub.breach = []) && decide (Memory.wf s.mem = true)) | _ => false)))) &&
  ((let s : State := (wSp wNoStage [wCmd (bStaged)]); (let u : SpoolId := u0; (match pick s u with | some c => (match markStart s u c with | (s0, c0) => (wDueB (isOp 0x01) (trBad u) trBobs s u c s0 c0) && (match (trOf c.bytes).format with | some f => decide ((trOf c.bytes).staged = true) && decide (stagings s0 u.e u.n = []) | _ => false)) | _ => false)))) &&
  ((let s : State := (wSp wEng [wCmd bCopy]); (let u : SpoolId := u0; (match pick s u with | some c => (match markStart s u c with | (s0, c0) => (wDueB (isOp 0x01) (trBad u) trBobs s u c s0 c0) && (match (trOf c.bytes).format with | some f => decide ((trOf c.bytes).staged = false ∨ stagings s0 u.e u.n ≠ []) && decide (((trOf c.bytes).srcBob = true ∧ insReady s0 u [(trOf c.bytes).sb] = false) ∨ ((trOf c.bytes).staged = true ∧ trStage s0 u c0 f = []) ∨ ((trOf c.bytes).dstBob = true ∧ (trOf c.bytes).inPlace = false ∧ outReady s0 u c0.slot (trOf c.bytes).db = false) ∨ trMover s0 u c0 = none) | _ => false)) | _ => false))))) = true := by decide +kernel

theorem witness_TaskQueuesItsSlotOrEndsWithResource : (
  ((let s : State := (wSp wHeld [wCmd (bTask 0 100)]); (let u : SpoolId := u0; (match pick s u with | some c => (match markStart s u c with | (s0, c0) => (wDueB (isOp 0x60) taskBad taskBobs s u c s0 c0) && (wNoWait s u c.slot) && decide (taskOwner s u.e (taskSlotIdx c.bytes) = u.n.val) && decide (getB s (rSchedSlot u.e (taskSlotIdx c.bytes)) fSchedSlotEnable = true) && decide (taskState s u.e (taskSlotIdx c.bytes) = tFree) && decide ((bitOf (u8At c.bytes 9) 2 && (engAux s u.e).deadCores.elem (u8At c.bytes 9 / 8 % 4)) = false)) | _ => false)))) &&
  ((let s : State := (wSp wEng [wCmd (bTask 0 100)]); (let u : SpoolId := u0; (match pick s u with | some c => (match markStart s u c with | (s0, c0) => (wDueB (isOp 0x60) taskBad taskBobs s u c s0 c0) && decide (taskOwner s u.e (taskSlotIdx c.bytes) ≠ u.n.val ∨ taskState s u.e (taskSlotIdx c.bytes) ≠ tFree ∨ getB s (rSchedSlot u.e (taskSlotIdx c.bytes)) fSchedSlotEnable = false ∨ (bitOf (u8At c.bytes 9) 2 && (engAux s u.e).deadCores.elem (u8At c.bytes 9 / 8 % 4)) = true)) | _ => false)))) &&
  ((let s : State := (wSp wEng [wCmd (bTask 0 1000001)]); (let u : SpoolId := u0; (match pick s u with | some c => (match markStart s u c with | (s0, c0) => decide (isOp 0x60 c.bytes = true) && decide (c.poisonLater = false) && decide (zeroSpan c.bytes 44 20 = false ∨ 1000000 < u32At c.bytes 12)) | _ => false))))) = true := by decide +kernel

theorem witness_SynchronisationCommands_1 : (
  ((let s : State := (wSp wEng [wCmd bFence]); (let u : SpoolId := u0; (match pick s u with | some c => (match markStart s u c with | (s0, c0) => (wDueB (isOp 0x52) fenceBad noBobs s u c s0 c0) && decide (fenceDeps s0 u c0 = [])) | _ => false)))) &&
  ((let s : State := (wSp wEng [wRun (bMat 0x10 false), { wCmd (bFence.set 8 4) with slot := 1 }]); (let u : SpoolId := u0; (match pick s u with | some c => (match markStart s u c with | (s0, c0) => (wDueB (isOp 0x52) fenceBad noBobs s u c s0 c0) && decide (fenceDeps s0 u c0 ≠ [])) | _ => false)))) &&
  ((let s : State := (wSp wEng [wCmd (bWait 0 0)]); (let u : SpoolId := u0; (match pick s u with | some c => (match markStart s u c with | (s0, c0) => (wDueB (isOp 0x51) waitBad noBobs s u c s0 c0) && (match reach s0 (engReq s0 u 9 false true) (u64At c.bytes 16) 8 with | (s2, .ok ps) => decide (piecesPoisoned (piecesTouch s2 ps) ps = false) && (wMet (u8At c.bytes 8) (leNat (piecesRead (piecesTouch s2 ps) ps)) (u64At c.bytes 24)) | _ => false)) | _ => false)))) &&
  ((let s : State := (wSp wEng [wCmd (bWait 5 3)]); (let u : SpoolId := u0; (match pick s u with | some c => (match markStart s u c with | (s0, c0) => (wDueB (isOp 0x51) waitBad noBobs s u c s0 c0) && (match reach s0 (engReq s0 u 9 false true) (u64At c.bytes 16) 8 with | (s2, .ok ps) => decide (piecesPoisoned (piecesTouch s2 ps) ps = false) && !(wMet (u8At c.bytes 8) (leNat (piecesRead (piecesTouch s2 ps) ps)) (u64At c.bytes 24)) | _ => false)) | _ => false)))) &&
  ((let s : State := wBadWord; (let u : SpoolId := u0; (match pick s u with | some c => (match markStart s u c with | (s0, c0) => (wDueB (isOp 0x51) waitBad noBobs s u c s0 c0) && (match reach s0 (engReq s0 u 9 false true) (u64At c.bytes 16) 8 with | (s2, .ok ps) => decide (piecesPoisoned (piecesTouch s2 ps) ps = true) | _ => false)) | _ => false)))) &&
  ((let s : State := wTwo; (let u : SpoolId := u0; (match (spool s u).cmds with | d :: l => decide (¬(d.opcode = 0x50 ∧ d.phase = .started ∧ d.stall = .none)) && (match pick s u with | some c => (match markStart s u c with | (s0, c0) => (wDueB (isOp 0x50) signalBad noBobs s u c s0 c0) && decide (d.slot ≠ c.slot)) | _ => false) | _ => false)))) &&
  ((let s : State := (wSp wEng [wRun bSignal]); (let s0 : State := s; (let u : SpoolId := u0; (match (spool s u).cmds with | c :: l => (let c0 : Cmd := c; decide (c.opcode = 0x50) && decide (c.phase = .started) && decide (c.stall = .none) && (match reach s0 (engReq s0 u 9 true (decide (u8At c.bytes 8 = 1))) (u64At c.bytes 16) 8 with | (s2, .ok ps) => decide (u8At c.bytes 8 ≠ 1) | _ => false)) | _ => false))))) &&
  ((let s : State := (wSp wEng [wRun bAdd]); (let s0 : State := s; (let u : SpoolId := u0; (match (spool s u).cmds with | c :: l => (let c0 : Cmd := c; decide (c.opcode = 0x50) && decide (c.phase = .started) && decide (c.stall = .none) && (match reach s0 (engReq s0 u 9 true (decide (u8At c.bytes 8 = 1))) (u64At c.bytes 16) 8 with | (s2, .ok ps) => decide (u8At c.bytes 8 = 1) && decide (piecesPoisoned (recallPieces (countAtomic s2 ps) ps) ps = false) | _ => false)) | _ => false))))) &&
  ((let s : State := (poisonLine (wSp wEng [wRun bAdd]) (0x7000 / 64)); (let s0 : State := s; (let u : SpoolId := u0; (match (spool s u).cmds with | c :: l => (let c0 : Cmd := c; decide (c.opcode = 0x50) && decide (c.phase = .started) && decide (c.stall = .none) && (match reach s0 (engReq s0 u 9 true (decide (u8At c.bytes 8 = 1))) (u64At c.bytes 16) 8 with | (s2, .ok ps) => decide (u8At c.bytes 8 = 1) && decide (piecesPoisoned (recallPieces (countAtomic s2 ps) ps) ps = true) | _ => false)) | _ => false))))) &&
  ((let s : State := (wSp wEng [wCmd (bPrefetch)]); (let u : SpoolId := u0; (match pick s u with | some c => (match markStart s u c with | (s0, c0) => (wDueB (isOp 0x70) prefetchBad noBobs s u c s0 c0) && (match prefetchFrom s0 { engReq s0 u 0 false false with noPerm := true } (u8At c.bytes 8) (u64At c.bytes 24 / 65536) (u64At c.bytes 16) (u64At c.bytes 24) 0 with | (s2, k) => true)) | _ => false)))) &&
  ((let s : State := (wSp wEng [wRun (bWait 0 0)]); (let u : SpoolId := u0; (match (spool s u).cmds with | [c] => decide (c.opcode = 0x51) && decide (c.phase = .started) && decide (c.stall = .none) && (match reach s (engReq s u 9 false true) (u64At c.bytes 16) 8 with | (s2, .ok ps) => decide (piecesPoisoned (piecesTouch s2 ps) ps = false) && (wMet (u8At c.bytes 8) (leNat (piecesRead (piecesTouch s2 ps) ps)) (u64At c.bytes 24)) | _ => false) | _ => false)))) &&
  ((let s : State := (wSp wEng [wRun (bWait 5 3)]); (let u : SpoolId := u0; (match (spool s u).cmds with | [c] => decide (c.opcode = 0x51) && decide (c.phase = .started) && decide (c.stall = .none) && (match reach s (engReq s u 9 false true) (u64At c.bytes 16) 8 with | (s2, .ok ps) => decide (piecesPoisoned (piecesTouch s2 ps) ps = false) && !(wMet (u8At c.bytes 8) (leNat (piecesRead (piecesTouch s2 ps) ps)) (u64At c.bytes 24)) | _ => false) | _ => false))))) = true := by decide +kernel

theorem witness_SynchronisationCommands_2 : (
  ((let s : State := wLateWait; (let u : SpoolId := u0; (match (spool s u).cmds with | [c] => decide (c.opcode = 0x51) && decide (c.phase = .started) && decide (u32At c.bytes 12 ≠ 0) && decide (c.since + u32At c.bytes 12 * 1000 ≤ s.time) && decide (spState s u = spActive) | _ => false)))) &&
  ((let s : State := (wSp wEng [wRun (bWait 0 0)]); (let u : SpoolId := u0; (match (spool s u).cmds with | [c] => decide (c.opcode = 0x51) && decide (c.phase = .started) && decide (u32At c.bytes 12 = 0 ∨ s.time < c.since + u32At c.bytes 12 * 1000) | _ => false))))) = true := by decide +kernel

theorem witness_CardCommands : (
  ((cardRows).any (fun x => (let s : State := (wSp wNoShare [wCmd (bCard 0)]); (let u : SpoolId := u0; (match pick s u with | some c => (match markStart s u c with | (s0, c0) => (wDueB x.2.1 (x.2.2 u) cardBobs s u c s0 c0) && decide ((objNat s0 (oCarderShareP (ctxPart s0 u.e u.n)) = 0 ∧ c0.log = []) ∨ cardUnits s0 (cdOf c.bytes) = [])) | _ => false))))) &&
  ((cardRows).any (fun x => (let s : State := (wSp wFab [wCmd ((((bCard 0).set 8 0x40).set 11 1).set 33 0)]); (let u : SpoolId := u0; (match pick s u with | some c => (match markStart s u c with | (s0, c0) => (wDueB x.2.1 (x.2.2 u) cardBobs s u c s0 c0) && decide (objNat s (oCarderShareP (ctxPart s u.e u.n)) ≠ 0 ∨ c.log ≠ []) && decide (cardUnits s (cdOf c.bytes) ≠ []) && decide ((cdOf c.bytes).dstBob = true) && decide (outReady s0 u c.slot (cdOf c.bytes).db = false)) | _ => false))))) &&
  ((let s : State := (wSp wFab [wCmd (bCard 0)]); (let u : SpoolId := u0; (match pick s u with | some c => (match markStart s u c with | (s0, c0) => (wDueB (isCard 0) (imageBad u) cardBobs s u c s0 c0) && (let x := cdOf c.bytes; (match x.format with | some f => decide (objNat s0 (oCarderShareP (ctxPart s0 u.e u.n)) ≠ 0 ∨ c0.log ≠ []) && decide (cardUnits s0 x ≠ []) && decide (x.dstBob = true → outReady s0 u c.slot x.db = true) && (let c2 := (if x.dstBob then cdCmd c0 x else { cdCmd c0 x with outBase := x.dst, outLen := x.outLen f }); (match doSamples ⟨if x.dstBob then bobFill s0 u c.slot x.db x.cont else s0, c2, 0⟩ u x (cardUnits s0 x) (fun i => f16At c.bytes (52 + 2 * i)) (fun i => f16At c.bytes (58 + 2 * i)) (List.range x.count) [] with | (r, .ok os) => (match cardDst r.s u x (x.outLen f) with | (s2, .ok t) => true | _ => false) | _ => false)) | _ => false))) | _ => false)))) &&
  ((let s : State := (wSp wFab [wCmd (bCard 1)]); (let u : SpoolId := u0; (match pick s u with | some c => (match markStart s u c with | (s0, c0) => (wDueB (isCard 1) (tokensBad u) cardBobs s u c s0 c0) && (let x := cdOf c.bytes; decide (objNat s0 (oCarderShareP (ctxPart s0 u.e u.n)) ≠ 0 ∨ c0.log ≠ []) && decide (cardUnits s0 x ≠ []) && decide (x.dstBob = true → outReady s0 u c.slot x.db = true) && (match doToks ⟨if x.dstBob then bobFill s0 u c.slot x.db x.cont else s0, cdCmd c0 x, 0⟩ u x (cardUnits s0 x) x.count 0 [] [] with | (r, .ok (ts, sk)) => (let c2 := (if x.dstBob then r.c else { r.c with outBase := x.dst, outLen := 4 * x.len * sk.length }); (match cardDst r.s u x (4 * x.len * sk.length) with | (s2, .ok t) => (match reach s2 (hubReq s2 u 5 true false) (u64At c.bytes 52) (4 * x.len * sk.length) with | (s3, .ok ms) => (match reach s3 (hubReq s3 u 5 true false) ((u64At c.bytes 52 + 4 * x.len * x.pitch) % 2 ^ 64) (16 * sk.length) with | (s4, .ok rs) => true | _ => false) | _ => false) | _ => false)) | _ => false))) | _ => false))))) = true := by decide +kernel

theorem witness_FabricCommandsIssueOperations_1 : (
  ((groupRows).any (fun x => (let s : State := (wSp wEng [wCmd (bColl 0)]); (let u : SpoolId := u0; (match pick s u with | some c => (match markStart s u c with | (s0, c0) => (wDueB (isColl (x.2)) collBad noBobs s u c s0 c0) && decide (s0.fab.ops.find? (fun o => decide (o.u = u) && decide (o.slot = c0.slot)) = none) && (match readGroup s0 (ctxPart s0 u.e u.n) (u16At c.bytes 10) with | (s2, .bad) => true | _ => false)) | _ => false))))) &&
  ((groupRows).any (fun x => (let s : State := (wSp wFab [wCmd ((bColl 0).set 16 3)]); (let u : SpoolId := u0; (match pick s u with | some c => (match markStart s u c with | (s0, c0) => (wDueB (isColl (x.2)) collBad noBobs s u c s0 c0) && decide (s0.fab.ops.find? (fun o => decide (o.u = u) && decide (o.slot = c0.slot)) = none) && (match readGroup s0 (ctxPart s0 u.e u.n) (u16At c.bytes 10) with | (s2, .ok g) => decide (groupBad (newOp s2 u c0 g) = true) | _ => false)) | _ => false))))) &&
  ((groupRows).any (fun x => (let s : State := (wSp wFab [wCmd (bColl 4)]); (let u : SpoolId := u0; (match pick s u with | some c => (match markStart s u c with | (s0, c0) => (wDueB (isColl (x.2)) collBad noBobs s u c s0 c0) && decide (s0.fab.ops.find? (fun o => decide (o.u = u) && decide (o.slot = c0.slot)) = none) && (match readGroup s0 (ctxPart s0 u.e u.n) (u16At c.bytes 10) with | (s2, .ok g) => decide (groupBad (newOp s2 u c0 g) = false) && decide (∀ q ∈ (newOp s2 u c0 g).partnerPeers, (connTo s2 (ctxPart s0 u.e u.n) q).isSome = true ∧ unreachable s2 q = false) && (match reach s2 (hubReq s2 u 7 false true) (u64At c.bytes 24) (newOp s2 u c0 g).readLen with | (s3, .ok ps) => (match issueOp s3 u c0 (newOp s2 u c0 g) ps with | (s4, o) => true) | _ => false) | _ => false)) | _ => false))))) &&
  ((groupRows).any (fun x => (let s : State := (wSp wFab [wCmd (bColl 4)]); (let u : SpoolId := u0; (match pick s u with | some c => (match markStart s u c with | (s0, c0) => (wDueB (isColl (x.2)) collBad noBobs s u c s0 c0) && decide (s0.fab.ops.find? (fun o => decide (o.u = u) && decide (o.slot = c0.slot)) = none) && (match readGroup s0 (ctxPart s0 u.e u.n) (u16At c.bytes 10) with | (s2, .ok g) => decide (groupBad (newOp s2 u c0 g) = false) && decide (∀ q ∈ (newOp s2 u c0 g).partnerPeers, (connTo s2 (ctxPart s0 u.e u.n) q).isSome = true ∧ unreachable s2 q = false) && (match reach s2 (hubReq s2 u 7 false true) (u64At c.bytes 24) (newOp s2 u c0 g).readLen with | (s3, .ok ps) => (match issueOp s3 u c0 (newOp s2 u c0 g) ps with | (s4, o) => (match opAdvance s4 o with | (s5, .runs) => true | _ => false)) | _ => false) | _ => false)) | _ => false))))) &&
  ((groupRows).any (fun x => (let s : State := (wSp wAlone [wCmd (bColl 4)]); (let u : SpoolId := u0; (match pick s u with | some c => (match markStart s u c with | (s0, c0) => (wDueB (isColl (x.2)) collBad noBobs s u c s0 c0) && decide (s0.fab.ops.find? (fun o => decide (o.u = u) && decide (o.slot = c0.slot)) = none) && (match readGroup s0 (ctxPart s0 u.e u.n) (u16At c.bytes 10) with | (s2, .ok g) => decide (groupBad (newOp s2 u c0 g) = false) && decide (∀ q ∈ (newOp s2 u c0 g).partnerPeers, (connTo s2 (ctxPart s0 u.e u.n) q).isSome = true ∧ unreachable s2 q = false) && (match reach s2 (hubReq s2 u 7 false true) (u64At c.bytes 24) (newOp s2 u c0 g).readLen with | (s3, .ok ps) => (match issueOp s3 u c0 (newOp s2 u c0 g) ps with | (s4, o) => (match opAdvance s4 o with | (s5, .ends st d) => true | _ => false)) | _ => false) | _ => false)) | _ => false))))) &&
  ((groupRows).any (fun x => (let s : State := (wOpAgain 4 [7, 9] false); (let u : SpoolId := u0; (match pick s u with | some c => (match markStart s u c with | (s0, c0) => (wDueB (isColl (x.2)) collBad noBobs s u c s0 c0) && (match s0.fab.ops.find? (fun o => decide (o.u = u) && decide (o.slot = c0.slot)) with | some o => (match opAdvance s0 o with | (s5, .runs) => true | _ => false) | _ => false)) | _ => false))))) &&
  ((groupRows).any (fun x => (let s : State := (wOpAgain 4 [7] true); (let u : SpoolId := u0; (match pick s u with | some c => (match markStart s u c with | (s0, c0) => (wDueB (isColl (x.2)) collBad noBobs s u c s0 c0) && (match s0.fab.ops.find? (fun o => decide (o.u = u) && decide (o.slot = c0.slot)) with | some o => (match opAdvance s0 o with | (s5, .ends st d) => true | _ => false) | _ => false)) | _ => false))))) &&
  ((let s : State := wEng; (let u : SpoolId := u0; (let c : Cmd := (wCmd bFence); (let o : FabOp := (wOpOf 4 []); (let ps : List Piece := []; decide (piecesPoisoned (piecesTouch s ps) ps = false) && decide ((piecesTouch s ps).fab.early = []))))))) &&
  ((pointRows).any (fun x => (let s : State := (wSp wEng [wCmd (bColl 8)]); (let u : SpoolId := u0; (match pick s u with | some c => (match markStart s u c with | (s0, c0) => (wDueB (isColl (x.2)) collBad noBobs s u c s0 c0) && decide (s0.fab.ops.find? (fun o => decide (o.u = u) && decide (o.slot = c0.slot)) = none) && decide (connTo s0 (ctxPart s0 u.e u.n) (u16At c.bytes 10) = none)) | _ => false))))) &&
  ((pointRows).any (fun x => (let s : State := (wSp wLostPeer [wCmd (bColl 8)]); (let u : SpoolId := u0; (match pick s u with | some c => (match markStart s u c with | (s0, c0) => (wDueB (isColl (x.2)) collBad noBobs s u c s0 c0) && decide (s0.fab.ops.find? (fun o => decide (o.u = u) && decide (o.slot = c0.slot)) = none) && (match connTo s0 (ctxPart s0 u.e u.n) (u16At c.bytes 10) with | some id => decide (unreachable s0 (u16At c.bytes 10) = true) | _ => false)) | _ => false))))) &&
  ((pointRows).any (fun x => (let s : State := (wSp wFab [wCmd (bColl 8)]); (let u : SpoolId := u0; (match pick s u with | some c => (match markStart s u c with | (s0, c0) => (wDueB (isColl (x.2)) collBad noBobs s u c s0 c0) && decide (s0.fab.ops.find? (fun o => decide (o.u = u) && decide (o.slot = c0.slot)) = none) && (match connTo s0 (ctxPart s0 u.e u.n) (u16At c.bytes 10) with | some id => decide (unreachable s0 (u16At c.bytes 10) = false) && (match reach s0 (hubReq s0 u 7 false true) (u64At c.bytes 24) (if x.2 = 8 ∨ x.2 = 11 then u40At c.bytes 16 else 0) with | (s3, .ok ps) => (let o := pointRead (piecesTouch s3 ps) (pointOp s0 u c0) ps; true) | _ => false) | _ => false)) | _ => false))))) &&
  ((pointRows).any (fun x => (let s : State := (wSp wFab [wCmd (bColl 8)]); (let u : SpoolId := u0; (match pick s u with | some c => (match markStart s u c with | (s0, c0) => (wDueB (isColl (x.2)) collBad noBobs s u c s0 c0) && decide (s0.fab.ops.find? (fun o => decide (o.u = u) && decide (o.slot = c0.slot)) = none) && (match connTo s0 (ctxPart s0 u.e u.n) (u16At c.bytes 10) with | some id => decide (unreachable s0 (u16At c.bytes 10) = false) && (match reach s0 (hubReq s0 u 7 false true) (u64At c.bytes 24) (if x.2 = 8 ∨ x.2 = 11 then u40At c.bytes 16 else 0) with | (s3, .ok ps) => (let o := pointRead (piecesTouch s3 ps) (pointOp s0 u c0) ps; decide (u16At c.bytes 10 ≠ peerId (piecesTouch s3 ps))) | _ => false) | _ => false)) | _ => false)))))) = true := by decide +kernel

theorem witness_FabricCommandsIssueOperations_2 : (
  ((pointRows).any (fun x => (let s : State := (wSp wSelf [wCmd (bSelf 8)]); (let u : SpoolId := u0; (match pick s u with | some c => (match markStart s u c with | (s0, c0) => (wDueB (isColl (x.2)) collBad noBobs s u c s0 c0) && decide (s0.fab.ops.find? (fun o => decide (o.u = u) && decide (o.slot = c0.slot)) = none) && (match connTo s0 (ctxPart s0 u.e u.n) (u16At c.bytes 10) with | some id => decide (unreachable s0 (u16At c.bytes 10) = false) && (match reach s0 (hubReq s0 u 7 false true) (u64At c.bytes 24) (if x.2 = 8 ∨ x.2 = 11 then u40At c.bytes 16 else 0) with | (s3, .ok ps) => (let o := pointRead (piecesTouch s3 ps) (pointOp s0 u c0) ps; decide (u16At c.bytes 10 = peerId (piecesTouch s3 ps)) && (match pointLocal (piecesTouch s3 ps) o id c.bytes with | (s4, .ends st d) => true | _ => false)) | _ => false) | _ => false)) | _ => false))))) &&
  ((pointRows).any (fun x => (let s : State := (wOpAgain 9 [7, 9] false); (let u : SpoolId := u0; (match pick s u with | some c => (match markStart s u c with | (s0, c0) => (wDueB (isColl (x.2)) collBad noBobs s u c s0 c0) && (match s0.fab.ops.find? (fun o => decide (o.u = u) && decide (o.slot = c0.slot)) with | some o => (match opAdvance s0 o with | (s5, .runs) => true | _ => false) | _ => false)) | _ => false))))) &&
  ((pointRows).any (fun x => (let s : State := (wOpAgain 8 [7, 9] true); (let u : SpoolId := u0; (match pick s u with | some c => (match markStart s u c with | (s0, c0) => (wDueB (isColl (x.2)) collBad noBobs s u c s0 c0) && (match s0.fab.ops.find? (fun o => decide (o.u = u) && decide (o.slot = c0.slot)) with | some o => (match opAdvance s0 o with | (s5, .ends st d) => true | _ => false) | _ => false)) | _ => false))))) &&
  ((let s : State := (wSp wEng [wCmd (bDisp 0x41)]); (let u : SpoolId := u0; (match pick s u with | some c => (match markStart s u c with | (s0, c0) => (wDueB (isOp 0x41) dpBad noBobs s u c s0 c0) && decide (s0.fab.disps.find? (fun d => decide (d.u = u) && decide (d.slot = c0.slot)) = none) && (match readGroup s0 (ctxPart s0 u.e u.n) (u16At c.bytes 18) with | (s2, .bad) => true | _ => false)) | _ => false)))) &&
  ((let s : State := (wSp wRoute [wCmd (bDisp 0x41)]); (let u : SpoolId := u0; (match pick s u with | some c => (match markStart s u c with | (s0, c0) => (wDueB (isOp 0x41) dpBad noBobs s u c s0 c0) && decide (s0.fab.disps.find? (fun d => decide (d.u = u) && decide (d.slot = c0.slot)) = none) && (let x := dpOf c.bytes; (match readGroup s0 (ctxPart s0 u.e u.n) x.group with | (s2, .ok g) => decide (∀ q ∈ g.others s2, (connTo s2 (ctxPart s0 u.e u.n) q).isSome = true ∧ unreachable s2 q = false) && (match reach s2 (hubReq s2 u 6 false true) x.route (8 * x.tokens * x.topk) with | (s3, .ok rs) => (match reach s3 (hubReq s3 u 6 false true) x.expert (8 * x.experts) with | (s4, .ok es) => (let s5 := piecesTouch (piecesTouch s4 rs) es; decide (piecesPoisoned s5 (rs ++ es) = false) && (let copies := copiesOf x (piecesRead s5 rs) (piecesRead s5 es); decide (dispRefused s5 x g (piecesRead s5 rs) copies = false))) | _ => false) | _ => false) | _ => false))) | _ => false)))) &&
  ((let s : State := (wSp wExpert [wCmd (bDisp 0x41)]); (let u : SpoolId := u0; (match pick s u with | some c => (match markStart s u c with | (s0, c0) => (wDueB (isOp 0x41) dpBad noBobs s u c s0 c0) && (match s0.fab.disps.find? (fun d => decide (d.u = u) && decide (d.slot = c0.slot)) with | some d => (match dispAdvance s0 d c0 with | (s5, .runs) => true | _ => false) | _ => false)) | _ => false)))) &&
  ((let s : State := wExpertEnds; (let u : SpoolId := u0; (match pick s u with | some c => (match markStart s u c with | (s0, c0) => (wDueB (isOp 0x41) dpBad noBobs s u c s0 c0) && (match s0.fab.disps.find? (fun d => decide (d.u = u) && decide (d.slot = c0.slot)) with | some d => (match dispAdvance s0 d c0 with | (s5, .ends st k) => true | _ => false) | _ => false)) | _ => false)))) &&
  ((let s : State := (wSp wEng [wCmd (bDisp 0x42)]); (let u : SpoolId := u0; (match pick s u with | some c => (match markStart s u c with | (s0, c0) => (wDueB (isOp 0x42) cbBad noBobs s u c s0 c0) && decide (s0.fab.combs.find? (fun d => decide (d.u = u) && decide (d.slot = c0.slot)) = none) && (match readGroup s0 (ctxPart s0 u.e u.n) (u16At c.bytes 18) with | (s2, .bad) => true | _ => false)) | _ => false)))) &&
  ((let s : State := (wSp wRoute [wCmd (bDisp 0x42)]); (let u : SpoolId := u0; (match pick s u with | some c => (match markStart s u c with | (s0, c0) => (wDueB (isOp 0x42) cbBad noBobs s u c s0 c0) && decide (s0.fab.combs.find? (fun d => decide (d.u = u) && decide (d.slot = c0.slot)) = none) && (let x := cbOf c.bytes; (match readGroup s0 (ctxPart s0 u.e u.n) x.group with | (s2, .ok g) => (match combTables s2 u x with | (s3, .ok (rs, es, ms)) => (let s4 := piecesTouch (piecesTouch (piecesTouch s3 rs) es) ms; decide (piecesPoisoned s4 (rs ++ es ++ ms) = false) && (let need := combNeed x (piecesRead s4 es) (piecesRead s4 ms); (let runs := combRuns s4 u x need; decide (∀ q ∈ runPeers s4 runs, (connTo s4 (ctxPart s0 u.e u.n) q).isSome = true ∧ unreachable s4 q = false) && (match combStart s4 u c0 need runs with | (s5, d) => (match combAdvance s5 d (cbCmd c0) with | (s6, .runs) => true | _ => false))))) | _ => false) | _ => false))) | _ => false)))) &&
  ((let s : State := (wSp wMap [wCmd (bDisp 0x42)]); (let u : SpoolId := u0; (match pick s u with | some c => (match markStart s u c with | (s0, c0) => (wDueB (isOp 0x42) cbBad noBobs s u c s0 c0) && decide (s0.fab.combs.find? (fun d => decide (d.u = u) && decide (d.slot = c0.slot)) = none) && (let x := cbOf c.bytes; (match readGroup s0 (ctxPart s0 u.e u.n) x.group with | (s2, .ok g) => (match combTables s2 u x with | (s3, .ok (rs, es, ms)) => (let s4 := piecesTouch (piecesTouch (piecesTouch s3 rs) es) ms; decide (piecesPoisoned s4 (rs ++ es ++ ms) = false) && (let need := combNeed x (piecesRead s4 es) (piecesRead s4 ms); (let runs := combRuns s4 u x need; decide (∀ q ∈ runPeers s4 runs, (connTo s4 (ctxPart s0 u.e u.n) q).isSome = true ∧ unreachable s4 q = false) && (match combStart s4 u c0 need runs with | (s5, d) => (match combAdvance s5 d (cbCmd c0) with | (s6, .ends st k) => true | _ => false))))) | _ => false) | _ => false))) | _ => false)))) &&
  ((let s : State := (wSp wExpert [wCmd (bDisp 0x42)]); (let u : SpoolId := u0; (match pick s u with | some c => (match markStart s u c with | (s0, c0) => (wDueB (isOp 0x42) cbBad noBobs s u c s0 c0) && (match s0.fab.combs.find? (fun d => decide (d.u = u) && decide (d.slot = c0.slot)) with | some d => (match combAdvance s0 d c0 with | (s5, .runs) => true | _ => false) | _ => false)) | _ => false)))) &&
  ((let s : State := wCombEnds; (let u : SpoolId := u0; (match pick s u with | some c => (match markStart s u c with | (s0, c0) => (wDueB (isOp 0x42) cbBad noBobs s u c s0 c0) && (match s0.fab.combs.find? (fun d => decide (d.u = u) && decide (d.slot = c0.slot)) with | some d => (match combAdvance s0 d c0 with | (s5, .ends st k) => true | _ => false) | _ => false)) | _ => false))))) = true := by decide +kernel

theorem witness_DoorbellsMoveTailOrSetDbErr : (
  ((let s : State := wCancel; (let ag : Agent := (.core 0 .m); (let u : SpoolId := u0; (let val : BitVec 32 := 17; decide (regRight s ag (rSqTail u.e u.n u.s).key = true) && decide (engActive s u.e = true) && decide (spState s u = spActive) && decide ((spool s u).lease = none) && decide ((spool s u).expired ≠ some ag) && decide ((val.toNat + 2 ^ 32 - sqTail s u) % 2 ^ 32 < 2 ^ 31) && decide ((val.toNat + 2 ^ 32 - (spool s u).done % 2 ^ 32) % 2 ^ 32 ≤ 2 ^ sqLog2 s u)))))) &&
  ((let s : State := wMine; (let ag : Agent := (.core 0 .m); (let t0 : Nat := 0; (let u : SpoolId := u0; (let val : BitVec 32 := 17; decide (regRight s ag (rSqTail u.e u.n u.s).key = true) && decide (engActive s u.e = true) && decide (spState s u = spActive) && decide ((spool s u).lease = some (ag, t0)) && decide ((spool s u).expired ≠ some ag) && decide ((val.toNat + 2 ^ 32 - sqTail s u) % 2 ^ 32 < 2 ^ 31) && decide ((val.toNat + 2 ^ 32 - (spool s u).done % 2 ^ 32) % 2 ^ 32 ≤ 2 ^ sqLog2 s u))))))) &&
  ((let s : State := wEng; (let ag : Agent := (.core 0 .m); (let u : SpoolId := u0; (let val : BitVec 32 := 0x90000000; decide (regRight s ag (rSqTail u.e u.n u.s).key = true) && decide (engActive s u.e = true) && decide (2 ^ 31 ≤ (val.toNat + 2 ^ 32 - sqTail s u) % 2 ^ 32)))))) &&
  ((let s : State := wAsleep; (let ag : Agent := (.core 0 .m); (let u : SpoolId := u0; (let val : BitVec 32 := 0; decide (regRight s ag (rSqTail u.e u.n u.s).key = true) && decide (engActive s u.e = false))))))) = true := by decide +kernel

theorem witness_SubmissionLockIsALease : (
  ((let s : State := wEng; (let ag : Agent := (.core 0 .m); (let u : SpoolId := u0; decide (regRight s ag (rSpLock u.e u.n u.s).key = true) && decide ((spool s u).lease = none) && decide ((spool s u).expired = none))))) &&
  ((let s : State := wEng; (let ag : Agent := (.core 0 .m); (let u : SpoolId := u0; decide (regRight s ag (rSpLock u.e u.n u.s).key = true) && (match lockRead s ag u with | (t, v) => true))))) &&
  ((let s : State := wMine; (let ag : Agent := (.core 0 .m); (let t0 : Nat := 0; (let u : SpoolId := u0; decide ((spool s u).lease = some (ag, t0)) && decide ((spool s u).expired ≠ some ag)))))) &&
  ((let s : State := wLocked; (let ag : Agent := (.core 0 .m); (let u : SpoolId := u0; decide (regRight s ag (rSpLock u.e u.n u.s).key = true) && (match (spool s u).lease with | some (h, t0) => decide (h ≠ ag) | _ => false))))) &&
  ((let s : State := wEng; (let ag : Agent := (.core 0 .m); (let u : SpoolId := u0; decide (regRight s ag (rSpLock u.e u.n u.s).key = true))))) &&
  ((let s : State := wLeaseUp; (let u : SpoolId := u0; (match (spool s u).lease with | some (h, t0) => decide (t0 + leaseNs ≤ s.time) | _ => false)))) &&
  ((let s : State := wLocked; (let u : SpoolId := u0; (match (spool s u).lease with | some (h, t0) => decide (s.time < t0 + leaseNs) | _ => false))))) = true := by decide +kernel

theorem witness_SpoolsAndContextSlotsAreConfigured : (
  ((let s : State := wEng; (let ag : Agent := (.core 0 .m); (let u : SpoolId := u0; (let val : Word := 67078; decide (regRight s ag (rSpCfg u.e u.n u.s).key = true) && decide (getB s (rSpCfg u.e u.n u.s) fSpCfgEnable = false) && decide (6 ≤ fget val fSpCfgSqLog2) && decide (fget val fSpCfgSqLog2 ≤ 16) && decide (6 ≤ fget val fSpCfgCqLog2) && decide (fget val fSpCfgCqLog2 ≤ 16) && decide (fget val fSpCfgEnable = 1)))))) &&
  ((let s : State := wEng; (let ag : Agent := (.core 0 .m); (let u : SpoolId := u0; (let val : Word := 1542; decide (regRight s ag (rSpCfg u.e u.n u.s).key = true) && decide (getB s (rSpCfg u.e u.n u.s) fSpCfgEnable = false) && decide (6 ≤ fget val fSpCfgSqLog2) && decide (fget val fSpCfgSqLog2 ≤ 16) && decide (6 ≤ fget val fSpCfgCqLog2) && decide (fget val fSpCfgCqLog2 ≤ 16) && decide (fget val fSpCfgEnable = 0)))))) &&
  ((let s : State := (wOn 2); (let ag : Agent := (.core 0 .m); (let u : SpoolId := u0; (let val : Word := 198150; decide (regRight s ag (rSpCfg u.e u.n u.s).key = true) && decide (getB s (rSpCfg u.e u.n u.s) fSpCfgEnable = true) && decide (6 ≤ fget val fSpCfgSqLog2) && decide (fget val fSpCfgSqLog2 ≤ 16) && decide (6 ≤ fget val fSpCfgCqLog2) && decide (fget val fSpCfgCqLog2 ≤ 16) && decide (fget val fSpCfgEnable = 1) && decide (fget val fSpCfgResume = 1) && decide (spState s u = spStopped)))))) &&
  ((let s : State := wCancel; (let ag : Agent := (.core 0 .m); (let u : SpoolId := u0; (let val : Word := 1542; decide (regRight s ag (rSpCfg u.e u.n u.s).key = true) && decide (getB s (rSpCfg u.e u.n u.s) fSpCfgEnable = true) && decide (6 ≤ fget val fSpCfgSqLog2) && decide (fget val fSpCfgSqLog2 ≤ 16) && decide (6 ≤ fget val fSpCfgCqLog2) && decide (fget val fSpCfgCqLog2 ≤ 16) && decide (fget val fSpCfgEnable = 0)))))) &&
  ((let s : State := wEng; (let ag : Agent := (.core 0 .m); (let u : SpoolId := u0; (let val : Word := 5; decide (regRight s ag (rSpCfg u.e u.n u.s).key = true) && decide (fget val fSpCfgSqLog2 < 6 ∨ 16 < fget val fSpCfgSqLog2 ∨ fget val fSpCfgCqLog2 < 6 ∨ 16 < fget val fSpCfgCqLog2)))))) &&
  ((let s : State := wEng; (let ag : Agent := (.core 0 .m); (let e : Fin 32 := 0; (let n : Fin 16 := 1; (let val : Word := 1048583; decide (regRight s ag (rCtxCfg e n).key = true) && decide (engActive s e = true) && decide (getB s (rCtxCfg e n) fCtxCfgValid = false) && decide (fget val fCtxCfgValid = 1) && decide (engOwner s e = some (fget val fCtxCfgPartition)))))))) &&
  ((let s : State := wAsleep; (let ag : Agent := (.core 0 .m); (let e : Fin 32 := 0; (let n : Fin 16 := 0; (let val : Word := 0; decide (regRight s ag (rCtxCfg e n).key = true) && decide (engActive s e = false))))))) &&
  ((let s : State := wEng; (let ag : Agent := (.core 0 .m); (let e : Fin 32 := 0; (let n : Fin 16 := 0; (let val : Word := 67078; decide (regRight s ag (rCtxCfg e n).key = true) && decide (getB s (rCtxCfg e n) fCtxCfgValid = true) && decide (fget val fCtxCfgValid = 0))))))) &&
  ((let s : State := wEng; (let ag : Agent := (.core 0 .m); (let e : Fin 32 := 0; (let n : Fin 16 := 0; (let m : BitVec 4 := 0; (let all : Bool := false; decide (regRight s ag (rCtxCancel e n).key = true))))))))) = true := by decide +kernel

theorem witness_ValidNeedsTheOwnersPartition : (
  ((let s : State := wEng; (let ag : Agent := (.core 0 .m); (let e : Fin 32 := 0; (let n : Fin 16 := 1; (let val : Word := 1114119; decide (regRight s ag (rCtxCfg e n).key = true) && decide (engActive s e = true) && decide (getB s (rCtxCfg e n) fCtxCfgValid = false) && decide (fget val fCtxCfgValid = 1) && decide (engOwner s e ≠ some (fget val fCtxCfgPartition))))))))) = true := by decide +kernel

theorem witness_CommandsAreFetchedAndCompleted_1 : (
  ((let s : State := State.reset; (let u : SpoolId := u0; decide ((spool s u).fetched % 2 ^ 32 = sqTail s u ∨ (spool s u).fetchHold.isSome = true ∨ 32 ≤ (spool s u).cmds.length)))) &&
  ((let s : State := (wOn spActive); (let u : SpoolId := u0; (match fetchOne s u with | (t, true) => true | _ => false)))) &&
  ((let s : State := wEnded; (let u : SpoolId := u0; decide (mayFetch s u = true) && (match nextSlot s u with | (s2, .bytes b none) => decide (u8At b 0 ≠ 0x7F) && decide (u8At b 0 ≠ 2) | _ => false)))) &&
  ((let s : State := wInlineNext; (let u : SpoolId := u0; decide (mayFetch s u = true) && (match nextSlot s u with | (s2, .bytes b none) => decide (u8At b 0 = 2) && decide (b.length ≠ 256) && decide (4 ≤ (sqTail s2 u + 2 ^ 32 - (spool s u).fetched % 2 ^ 32) % 2 ^ 32) && (match readMore s2 u ((spool s u).fetched + 1) 3 b none with | (s3, .bytes b4 none) => true | _ => false) | _ => false)))) &&
  ((let s : State := wCancel; (let u : SpoolId := u0; decide (mayFetch s u = true) && (match nextSlot s u with | (s2, .bytes b none) => decide (u8At b 0 = 0x7F) && decide (cancelOk b = true) | _ => false)))) &&
  ((let s : State := wCancelBad; (let u : SpoolId := u0; decide (mayFetch s u = true) && (match nextSlot s u with | (s2, .bytes b none) => decide (u8At b 0 = 0x7F) && decide (cancelOk b = false) | _ => false)))) &&
  ((let s : State := wCancel; (let u : SpoolId := u0; decide (mayFetch s u = true) && (match nextSlot s u with | (s2, .bytes b none) => decide (u8At b 0 = 0x7F) | _ => false)))) &&
  ((let s : State := wEnded; (let u : SpoolId := u0; (let slot : BitVec 32 := 0; decide (∀ d, startable s u = some d → d.slot ≠ slot.toNat ∨ cmdKnown d.bytes = true) && (match spoolCmd s u slot.toNat with | some c => decide (c.phase = .ended) | _ => false))))) &&
  ((let s : State := wFull; (let u : SpoolId := u0; (let slot : BitVec 32 := 0; decide (∀ d, startable s u = some d → d.slot ≠ slot.toNat ∨ cmdKnown d.bytes = true) && (match spoolCmd s u slot.toNat with | some c => decide (c.phase ≠ .ended) | _ => false))))) &&
  ((let s : State := wUnknown; (let u : SpoolId := u0; (let slot : BitVec 32 := 0; (match startable s u with | some d => decide (d.slot = slot.toNat) && decide (cmdKnown d.bytes = false) && (match markStart s u d with | (s0, c0) => (match spoolCmd (endsWith s0 u c0 stFormat 0) u slot.toNat with | some c => decide (c.phase = .ended) | _ => false)) | _ => false))))) &&
  ((let s : State := wEng; (let ag : Agent := (.core 0 .m); (let u : SpoolId := u0; (let val : BitVec 32 := 0; decide (regRight s ag (rCqPtr u.e u.n u.s).key = true)))))) &&
  ((let s : State := wEng; (let ag : Agent := (.core 0 .m); (let u : SpoolId := u0; (let val : BitVec 32 := 0; decide (regRight s ag (rCqPtr u.e u.n u.s).key = true) && decide ((spool s u).held = []) && decide (spState s u ≠ spCancelling) && decide ((ctxAux s u.e u.n).clearing = false))))))) = true := by decide +kernel

theorem witness_CommandsAreFetchedAndCompleted_2 : (
  ((let s : State := wEng; (let u : SpoolId := u0; (let h : HeldRec := { bytes := wBytes 32 [], irq := false }; (let ps : List Piece := []; decide ((spool s u).cqHold = none)))))) &&
  ((let s : State := wEng; (let u : SpoolId := u0; (let h : HeldRec := { bytes := wBytes 32 [], irq := false }; (let ps : List Piece := []; decide ((spool s u).cqHold = none) && decide (h.irq = false))))))) = true := by decide +kernel

theorem witness_BobbinsFollowTheStateTable_1 : (
  ((let s : State := wEng; (let ag : Agent := (.core 0 .m); (let e : Fin 32 := 0; (let n : Fin 16 := 0; (let b : Fin 256 := 2; decide (regRight s ag (rBobMark e n).key = true) && decide (engActive s e = true) && decide (badBobbin s ⟨e, n, 0⟩ b = false) && decide (bobState s e b = bEmpty))))))) &&
  ((let s : State := wEng; (let ag : Agent := (.core 0 .m); (let e : Fin 32 := 0; (let n : Fin 16 := 0; (let b : Fin 256 := 3; decide (regRight s ag (rBobMark e n).key = true) && decide (engActive s e = true) && decide (badBobbin s ⟨e, n, 0⟩ b = false) && (let k : BitVec 16 := 0; decide (bobState s e b = bFilling) && decide (bobMarked s e b = true)))))))) &&
  ((let s : State := wEng; (let ag : Agent := (.core 0 .m); (let e : Fin 32 := 0; (let n : Fin 16 := 0; (let b : Fin 256 := 0; decide (regRight s ag (rBobMark e n).key = true) && decide (engActive s e = true) && decide (badBobbin s ⟨e, n, 0⟩ b = false) && decide (bobState s e b = bReady ∨ (bobState s e b = bFilling ∧ bobMarked s e b = true)))))))) &&
  ((let s : State := wReadyNone; (let ag : Agent := (.core 0 .m); (let e : Fin 32 := 0; (let n : Fin 16 := 0; (let b : Fin 256 := 1; decide (regRight s ag (rBobMark e n).key = true) && decide (engActive s e = true) && decide (badBobbin s ⟨e, n, 0⟩ b = false) && decide (bobState s e b = bReady) && decide (bobRemaining s e b = 0))))))) &&
  ((let s : State := wEng; (let ag : Agent := (.core 0 .m); (let e : Fin 32 := 0; (let n : Fin 16 := 0; (let b : Fin 256 := 1; decide (regRight s ag (rBobMark e n).key = true) && decide (engActive s e = true) && decide (badBobbin s ⟨e, n, 0⟩ b = false) && decide (bobState s e b = bReady) && decide (bobRemaining s e b = 1))))))) &&
  ((let s : State := wEng; (let ag : Agent := (.core 0 .m); (let e : Fin 32 := 0; (let n : Fin 16 := 0; (let b : Fin 256 := 0; decide (regRight s ag (rBobMark e n).key = true) && decide (engActive s e = true) && decide (badBobbin s ⟨e, n, 0⟩ b = false) && (let k : Nat := 0; decide (bobState s e b = bReady) && decide (bobRemaining s e b = k + 2)))))))) &&
  ((let s : State := wEng; (let ag : Agent := (.core 0 .m); (let e : Fin 32 := 0; (let n : Fin 16 := 0; (let b : Fin 256 := 0; decide (regRight s ag (rBobMark e n).key = true) && decide (engActive s e = true) && decide (badBobbin s ⟨e, n, 0⟩ b = false) && decide (bobState s e b ≠ bEmpty))))))) &&
  ((let s : State := wEng; (let ag : Agent := (.core 0 .m); (let e : Fin 32 := 0; (let n : Fin 16 := 0; (let b : Fin 256 := 0; decide (regRight s ag (rBobMark e n).key = true) && decide (engActive s e = true) && decide (badBobbin s ⟨e, n, 0⟩ b = false) && (let k : BitVec 16 := 0; decide (¬(bobState s e b = bFilling ∧ bobMarked s e b = true))))))))) &&
  ((let s : State := wEng; (let ag : Agent := (.core 0 .m); (let e : Fin 32 := 0; (let n : Fin 16 := 0; (let b : Fin 256 := 2; decide (regRight s ag (rBobMark e n).key = true) && decide (engActive s e = true) && decide (badBobbin s ⟨e, n, 0⟩ b = false) && decide (¬(bobState s e b = bReady ∨ (bobState s e b = bFilling ∧ bobMarked s e b = true))))))))) &&
  ((let s : State := wEng; (let ag : Agent := (.core 0 .m); (let e : Fin 32 := 0; (let n : Fin 16 := 0; (let b : Fin 256 := 2; decide (regRight s ag (rBobMark e n).key = true) && decide (engActive s e = true) && decide (badBobbin s ⟨e, n, 0⟩ b = false) && decide (bobState s e b ≠ bReady))))))) &&
  ((let s : State := wEng; (let ag : Agent := (.core 0 .m); (let e : Fin 32 := 0; (let n : Fin 16 := 0; (let b : Fin 256 := 4; decide (regRight s ag (rBobMark e n).key = true) && decide (engActive s e = true) && decide (badBobbin s ⟨e, n, 0⟩ b = true))))))) &&
  ((let s : State := wEng; (let ag : Agent := (.core 0 .m); (let e : Fin 32 := 0; (let n : Fin 16 := 0; (let b : Fin 256 := 4; decide (regRight s ag (rBobMark e n).key = true) && decide (engActive s e = true) && decide (badBobbin s ⟨e, n, 0⟩ b = true) && (let k : BitVec 16 := 0; true)))))))) = true := by decide +kernel

theorem witness_BobbinsFollowTheStateTable_2 : (
  ((let s : State := wAsleep; (let ag : Agent := (.core 0 .m); (let e : Fin 32 := 0; (let n : Fin 16 := 0; (let b : Fin 256 := 4; decide (regRight s ag (rBobMark e n).key = true) && decide (engActive s e = false))))))) &&
  ((let s : State := wAsleep; (let ag : Agent := (.core 0 .m); (let e : Fin 32 := 0; (let n : Fin 16 := 0; (let b : Fin 256 := 4; decide (regRight s ag (rBobMark e n).key = true) && decide (engActive s e = false) && (let k : BitVec 16 := 0; true))))))) &&
  ((let s : State := wPoolSet; (let ag : Agent := (.core 0 .m); (let e : Fin 32 := 0; (let view : Bool := false; decide (regRight s ag (rBobArm e).key = true) && (match (List.range 256).find? (bobBad (setB s (rBobArm e) fBobArmView view) e) with | some b => true | _ => false)))))) &&
  ((let s : State := wEng; (let ag : Agent := (.core 0 .m); (let e : Fin 32 := 0; (let view : Bool := false; decide (regRight s ag (rBobArm e).key = true) && decide ((List.range 256).find? (bobBad (setB s (rBobArm e) fBobArmView view) e) = none))))))) = true := by decide +kernel

theorem witness_SpindleInstructions_1 : (
  ((let s : State := wTask; (let c : CoreId := ⟨0, 0⟩; (match hartOf s c with | some h => (let rd : Fin 32 := 0; (let rs1 : Fin 32 := 0; (match mxSpool s c h rs1 with | some u => true | _ => false))) | _ => false)))) &&
  ((let s : State := wTask; (let c : CoreId := ⟨0, 0⟩; (match hartOf s c with | some h => (let rd : Fin 32 := 0; (let rs1 : Fin 32 := 0; (match mxBob s c h rs1 with | some b => true | _ => false))) | _ => false)))) &&
  ((let s : State := wTask; (let c : CoreId := ⟨0, 0⟩; (match hartOf s c with | some h => (let rs1 : Fin 32 := 0; (match mxBob s c h rs1 with | some b => decide (bobState s c.e b = bReady) | _ => false)) | _ => false)))) &&
  ((let s : State := (setBob wTask 0 0 bEmpty 0 false 0); (let c : CoreId := ⟨0, 1⟩; (match hartOf s c with | some h => (let rs1 : Fin 32 := 1; (match mxBob s c h rs1 with | some b => decide (bobState s c.e b ≠ bReady) && decide (h.slot = none) | _ => false)) | _ => false)))) &&
  ((let s : State := wTask; (let c : CoreId := ⟨0, 0⟩; (match hartOf s c with | some h => (let rs1 : Fin 32 := 0; (match mxBob s c h rs1 with | some b => true | _ => false)) | _ => false)))) &&
  ((let s : State := wTask; (let c : CoreId := ⟨0, 1⟩; (match hartOf s c with | some h => decide (h.slot = none) | _ => false)))) &&
  ((let s : State := wTask; (let c : CoreId := ⟨0, 0⟩; (match hartOf s c with | some h => (let rs1 : Fin 32 := 3; decide (mxSpool s c h rs1 = none) && (let rd : Fin 32 := 0; true)) | _ => false)))) &&
  ((let s : State := wTask; (let c : CoreId := ⟨0, 0⟩; (match hartOf s c with | some h => (let rs1 : Fin 32 := 3; decide (mxBob s c h rs1 = none)) | _ => false)))) &&
  ((let s : State := wTask; (let c : CoreId := ⟨0, 0⟩; (match hartOf s c with | some h => (let rs1 : Fin 32 := 3; decide (mxBob s c h rs1 = none) && (let rd : Fin 32 := 0; true)) | _ => false)))) &&
  ((let s : State := wTask; (let c : CoreId := ⟨0, 0⟩; (match hartOf s c with | some h => (match h.slot with | some i => true | _ => false) | _ => false)))) &&
  ((let s : State := wTask; (let c : CoreId := ⟨0, 0⟩; (match hartOf s c with | some h => (match h.slot with | some i => (let rs1 : Fin 32 := 1; (match mxBob s c h rs1 with | some b => decide (bobState s c.e b ≠ bReady) && decide (taskState s c.e i = tRunning) && decide (∀ k : Fin 4, k ≠ c.k → ¬(coreState s c.e k = cRunning ∧ coreSlot s c.e k = i)) | _ => false)) | _ => false) | _ => false)))) &&
  ((let s : State := wTaskWaits; (let c : CoreId := ⟨0, 0⟩; (let rd : Fin 32 := 0; (let rs1 : Fin 32 := 0; (let vs2 : Fin 32 := 0; (match hartOf s c with | some h => (match mxSpool s c h rs1 with | some u => decide (u8At (h.hart.readV vs2) 0 = 2 → vs2.val % 4 = 0) && (let b := (if u8At (h.hart.readV vs2) 0 = 2 then (List.range 4).flatMap (fun i => h.hart.readV (vs2.val + i)) else h.hart.readV vs2); decide (hartPending s c = true)) | _ => false) | _ => false)))))))) = true := by decide +kernel

theorem witness_SpindleInstructions_2 : (
  ((let s : State := wTaskFits; (let c : CoreId := ⟨0, 0⟩; (let rd : Fin 32 := 0; (let rs1 : Fin 32 := 0; (let vs2 : Fin 32 := 0; (match hartOf s c with | some h => (match mxSpool s c h rs1 with | some u => decide (u8At (h.hart.readV vs2) 0 = 2 → vs2.val % 4 = 0) && (let b := (if u8At (h.hart.readV vs2) 0 = 2 then (List.range 4).flatMap (fun i => h.hart.readV (vs2.val + i)) else h.hart.readV vs2); decide (hartPending s c = false) && ((match (spool s u).lease with | some (x, _) => decide (x = spindleAgent c h) | none => true)) && decide (b.length / 64 ≤ freeSlots s u) && decide (spState s u = spActive) && decide ((spool s u).expired ≠ some (spindleAgent c h)) && (match reachSlots s c h u (sqTail s u) (b.length / 64) with | (s2, some slots) => true | _ => false)) | _ => false) | _ => false))))))) &&
  ((let s : State := wTaskFull; (let c : CoreId := ⟨0, 0⟩; (let rd : Fin 32 := 0; (let rs1 : Fin 32 := 0; (let vs2 : Fin 32 := 0; (match hartOf s c with | some h => (match mxSpool s c h rs1 with | some u => decide (u8At (h.hart.readV vs2) 0 = 2 → vs2.val % 4 = 0) && (let b := (if u8At (h.hart.readV vs2) 0 = 2 then (List.range 4).flatMap (fun i => h.hart.readV (vs2.val + i)) else h.hart.readV vs2); decide (hartPending s c = false) && ((match (spool s u).lease with | some (x, _) => decide (x = spindleAgent c h) | none => true)) && decide (freeSlots s u < b.length / 64)) | _ => false) | _ => false))))))) &&
  ((let s : State := wTaskLocked; (let c : CoreId := ⟨0, 0⟩; (let rd : Fin 32 := 0; (let rs1 : Fin 32 := 0; (let vs2 : Fin 32 := 0; (match hartOf s c with | some h => (match mxSpool s c h rs1 with | some u => decide (u8At (h.hart.readV vs2) 0 = 2 → vs2.val % 4 = 0) && (let b := (if u8At (h.hart.readV vs2) 0 = 2 then (List.range 4).flatMap (fun i => h.hart.readV (vs2.val + i)) else h.hart.readV vs2); decide (hartPending s c = false) && (match (spool s u).lease with | some (a, t) => decide (a ≠ spindleAgent c h) | _ => false)) | _ => false) | _ => false))))))) &&
  ((let s : State := wTask; (let c : CoreId := ⟨0, 0⟩; (let rd : Fin 32 := 0; (let rs1 : Fin 32 := 0; (let vs2 : Fin 32 := 5; (match hartOf s c with | some h => (match mxSpool s c h rs1 with | some u => decide (u8At (h.hart.readV vs2) 0 = 2) && decide (vs2.val % 4 ≠ 0) | _ => false) | _ => false)))))))) = true := by decide +kernel

theorem witness_TasksAreScheduledAndEnd_1 : (
  ((let s : State := wTask; (let c : CoreId := ⟨0, 0⟩; (let i : Fin 16 := 0; (let u : SpoolId := u0; (match hartOf s c with | some h => decide (h.slot = some i.val) && decide (taskState s c.e i = tRunning) && (decide ((spool s u).cmds.map (·.slot) = ((task s c.e i).u.map (·.2)).toList)) && (match (spool s u).cmds with | [cmd] => decide ((task s c.e i).u = some (u, cmd.slot)) && decide (cmd.opcode = 0x60) && decide (∀ k : Fin 4, k ≠ c.k → ¬(coreState s c.e k = cRunning ∧ coreSlot s c.e k = i.val)) && (let rs1 : Fin 32 := 0; true) | _ => false) | _ => false)))))) &&
  ((let s : State := wTask; (let c : CoreId := ⟨0, 0⟩; (let i : Fin 16 := 0; (let u : SpoolId := u0; (match hartOf s c with | some h => decide (h.slot = some i.val) && decide (taskState s c.e i = tRunning) && (decide ((spool s u).cmds.map (·.slot) = ((task s c.e i).u.map (·.2)).toList)) && (match (spool s u).cmds with | [cmd] => decide ((task s c.e i).u = some (u, cmd.slot)) && decide (cmd.opcode = 0x60) && decide (∀ k : Fin 4, k ≠ c.k → ¬(coreState s c.e k = cRunning ∧ coreSlot s c.e k = i.val)) && (let cause : BitVec 6 := 0; (let tval : BitVec 64 := 0; true)) | _ => false) | _ => false)))))) &&
  ((let s : State := wTaskLong; (let c : CoreId := ⟨0, 0⟩; (let i : Fin 16 := 0; (let u : SpoolId := u0; (match hartOf s c with | some h => decide (h.slot = some i.val) && decide (taskState s c.e i = tRunning) && (decide ((spool s u).cmds.map (·.slot) = ((task s c.e i).u.map (·.2)).toList)) && (match (spool s u).cmds with | [cmd] => decide ((task s c.e i).u = some (u, cmd.slot)) && decide (cmd.opcode = 0x60) && decide (∀ k : Fin 4, k ≠ c.k → ¬(coreState s c.e k = cRunning ∧ coreSlot s c.e k = i.val)) && decide ((task s c.e i).budget ≠ 0) && decide ((task s c.e i).budget * 1000 < taskUsed s c.e i) | _ => false) | _ => false)))))) &&
  ((let s : State := wTask; (let c : CoreId := ⟨0, 0⟩; (let i : Fin 16 := 0; (let u : SpoolId := u0; (match hartOf s c with | some h => decide (h.slot = some i.val) && decide (taskState s c.e i = tRunning) && (decide ((spool s u).cmds.map (·.slot) = ((task s c.e i).u.map (·.2)).toList)) && (match (spool s u).cmds with | [cmd] => decide ((task s c.e i).u = some (u, cmd.slot)) && decide (cmd.opcode = 0x60) && decide (∀ k : Fin 4, k ≠ c.k → ¬(coreState s c.e k = cRunning ∧ coreSlot s c.e k = i.val)) && decide ((task s c.e i).budget = 0 ∨ taskUsed s c.e i ≤ (task s c.e i).budget * 1000) | _ => false) | _ => false)))))) &&
  ((let s : State := wTask; (let c : CoreId := ⟨0, 0⟩; (match hartOf s c with | some h => (match h.slot with | some i => true | _ => false) | _ => false)))) &&
  ((let s : State := wTask; (let c : CoreId := ⟨0, 1⟩; (let rs1 : Fin 32 := 0; (match hartOf s c with | some h => decide (h.slot = none) | _ => false))))) &&
  ((let s : State := wTask; (let c : CoreId := ⟨0, 0⟩; (match hartOf s c with | some h => true | _ => false)))) &&
  ((let s : State := wTask; (let c : CoreId := ⟨0, 1⟩; (let cause : BitVec 6 := 0; (let tval : BitVec 64 := 0; (match hartOf s c with | some h => decide (h.slot = none) | _ => false)))))) &&
  ((let s : State := wTaskLong; (let e : Fin 32 := 0; (let i : Fin 16 := 0; decide (taskState s e i ≠ tFree) && decide ((task s e i).budget ≠ 0) && decide ((task s e i).budget * 1000 < taskUsed s e i))))) &&
  ((let s : State := wTask; (let c : CoreId := ⟨0, 1⟩; (let i : Fin 16 := 1; decide (coreState s c.e c.k = cIdle) && decide (bestTask s c.e c.k = some i.val))))) &&
  ((let s : State := State.reset; (let c : CoreId := ⟨0, 0⟩; decide (coreState s c.e c.k ≠ cIdle ∨ bestTask s c.e c.k = none)))) &&
  ((let s : State := wTaskLong; (let c : CoreId := ⟨0, 0⟩; (let j : Fin 16 := 1; decide (getF s (rSchedCfg c.e) fSchedCfgQuantum ≠ 0) && decide (coreState s c.e c.k = cRunning) && decide ((task s c.e (coreSlot s c.e c.k)).ranAt + getF s (rSchedCfg c.e) fSchedCfgQuantum * 1000 ≤ s.time) && decide (j.val ≠ coreSlot s c.e c.k) && decide (mayRun s c.e c.k j = true) && decide ((task s c.e (coreSlot s c.e c.k)).prio ≤ (task s c.e j).prio) && decide (coreSlot s c.e c.k < 16)))))) = true := by decide +kernel

theorem witness_TasksAreScheduledAndEnd_2 : (
  ((let s : State := wTask; (let c : CoreId := ⟨0, 1⟩; decide (getF s (rSchedCfg c.e) fSchedCfgQuantum = 0))))) = true := by decide +kernel

theorem witness_ArraysAndTheStatTable_1 : (
  ((let s : State := (wTile false); (let e : Fin 32 := 0; (let pa : Fin 13 := 0; (let bad : List Nat := []; decide (arrActive s e pa = true) && decide ((engAux s e).recomp = []) && (match tileOn s e pa with | some (r, t) => decide (t.wait = false) && (match spoolCmd s r.u r.slot with | some c => true | _ => false) | _ => false)))))) &&
  ((let s : State := wTodo; (let e : Fin 32 := 0; (let pa : Fin 13 := 0; (let bad : List Nat := []; decide (arrActive s e pa = true) && decide ((engAux s e).recomp = []) && decide (tileOn s e pa = none) && (match nextRun s e pa with | some (r, c, q) => (let s2 := assignTile s pa r c q; (match tileOn s2 e pa with | some (r2, t) => true | _ => false)) | _ => false)))))) &&
  ((let s : State := State.reset; (let e : Fin 32 := 0; (let pa : Fin 13 := 0; (let bad : List Nat := []; decide ((engAux s e).runs = []) && decide ((engAux s e).recomp = [])))))) &&
  ((let s : State := State.reset; (let e : Fin 32 := 0; (let bad : List Nat := []; decide ((engAux s e).recomp = []))))) &&
  ((let s : State := wRecompGone; (let e : Fin 32 := 0; (let bad : List Nat := []; (match (engAux s e).recomp with | x :: xs => (let s2 := setEngAux s e { engAux s e with recomp := xs }; decide (runOf s2 x.u x.slot = none)) | _ => false))))) &&
  ((let s : State := (wTile true); (let e : Fin 32 := 0; (let bad : List Nat := []; (match (engAux s e).recomp with | x :: xs => (let s2 := setEngAux s e { engAux s e with recomp := xs }; (match runOf s2 x.u x.slot with | some r => (match spoolCmd s2 x.u x.slot with | some c => (match recompArray s2 e x with | some pa => (match r.tiles.find? (fun t => decide (t.q = x.q)) with | some t => true | _ => false) | _ => false) | _ => false) | _ => false)) | _ => false))))) &&
  ((let s : State := wRetire; (let e : Fin 32 := 0; (let pa : Fin 13 := 0; decide ((arrAux s e pa).retiring = true) && decide (arrActive s e pa = true) && decide (tileOn s e pa = none) && decide ((engAux s e).recomp = []) && decide ((arrState s e 12 = 1 ∧ pa.val ≠ 12) ∨ (arrState s e 12 ≠ 1 ∧ heldRows s e pa = 0)) && decide (s.rel.repairMap.length < repairCap))))) &&
  ((let s : State := wTask; (let ag : Agent := (.core 0 .m); (let e : Fin 32 := 0; (let n : Fin 16 := 0; (let i : Fin 256 := 0; decide (regRight s ag (rCtxStatSel e n).key = true))))))) &&
  ((let s : State := wTask; (let ag : Agent := (.core 0 .m); (let e : Fin 32 := 0; (let i : Fin 256 := 0; decide (regRight s ag (rStatSel e).key = true)))))) &&
  ((let s : State := wTask; (let ag : Agent := (.core 0 .m); (let e : Fin 32 := 0; (let i : Fin 256 := 0; (let j : Fin 256 := 1; decide (regRight s ag (rStatSel e).key = true) && decide (j ≠ i))))))) &&
  ((let s : State := wTask; (let ag : Agent := (.core 0 .m); (let e : Fin 32 := 0; (let n : Fin 16 := 0; (let i : Fin 256 := 0; (let j : Fin 256 := 1; decide (regRight s ag (rCtxStatSel e n).key = true) && decide (j ≠ i)))))))) &&
  ((let s : State := wTask; (let ag : Agent := (.core 0 .m); (let e : Fin 32 := 0; (let f : Fin 32 := 1; (let i : Nat := 0; decide (regRight s ag (rStatClearAll e).key = true) && decide (i < 255) && decide (f ≠ e)))))))) = true := by decide +kernel

theorem witness_ArraysAndTheStatTable_2 : (
  ((let s : State := wInject; (let ag : Agent := (.core 0 .m); (let e : Fin 32 := 0; (let pa : BitVec 4 := 0; decide (regRight s ag (rAbftInject e).key = true) && decide (pa.toNat < 13) && decide (objNat s oDiagInjectEn = 1)))))) &&
  ((let s : State := wTask; (let ag : Agent := (.core 0 .m); (let e : Fin 32 := 0; (let pa : BitVec 4 := 0; decide (regRight s ag (rAbftInject e).key = true) && decide (pa.toNat < 13) && decide (objNat s oDiagInjectEn ≠ 1))))))) = true := by decide +kernel

theorem witness_FaultsAreRecordedAndReplayed_1 : (
  ((let s : State := wTask; (let ag : Agent := (.core 0 .m); (let e : Fin 32 := 0; (let n : Fin 16 := 0; (let seq : BitVec 48 := 0; decide (regRight s ag (rFrResume e).key = true) && decide (killing s e n = false) && decide (∀ x ∈ stallsOf s e n, x.1 % 2 ^ 48 ≠ seq.toNat))))))) &&
  ((let s : State := wStall; (let ag : Agent := (.core 0 .m); (let e : Fin 32 := 0; (let n : Fin 16 := 0; (let seq : BitVec 48 := 7; decide (regRight s ag (rFrResume e).key = true) && decide (killing s e n = false) && (match stallNamed s e n seq.toNat with | some (.cmd u c) => true | _ => false))))))) &&
  ((let s : State := wFetchHeld; (let ag : Agent := (.core 0 .m); (let e : Fin 32 := 0; (let n : Fin 16 := 0; (let seq : BitVec 48 := 7; decide (regRight s ag (rFrResume e).key = true) && decide (killing s e n = false) && (match stallNamed s e n seq.toNat with | some (.fetch u i) => true | _ => false))))))) &&
  ((let s : State := wRecHeld; (let ag : Agent := (.core 0 .m); (let e : Fin 32 := 0; (let n : Fin 16 := 0; (let seq : BitVec 48 := 7; decide (regRight s ag (rFrResume e).key = true) && decide (killing s e n = false) && (match stallNamed s e n seq.toNat with | some (.record u i) => true | _ => false))))))) &&
  ((let s : State := wStall; (let ag : Agent := (.core 0 .m); (let e : Fin 32 := 0; (let n : Fin 16 := 0; (let seq : BitVec 48 := 7; decide (regRight s ag (rFrResume e).key = true) && decide (killing s e n = false) && (match (stallsOf s e n).find? (fun x => decide (x.1 % 2 ^ 48 = seq.toNat)) with | some x => true | _ => false))))))) &&
  ((let s : State := wStallOld; (let e : Fin 32 := 0; (let n : Fin 16 := 0; decide (killing s e n = false) && (match (stallsOf s e n).find? (fun x => decide (stallSince x.2 + replayLimitNs s ≤ s.time)) with | some x => true | _ => false))))) &&
  ((let s : State := State.reset; (let e : Fin 32 := 0; (let n : Fin 16 := 0; decide (∀ x ∈ stallsOf s e n, s.time < stallSince x.2 + replayLimitNs s))))) &&
  ((let s : State := wStallOld; (let e : Fin 32 := 0; (let n : Fin 16 := 0; decide ((ctxAux s e n).kill = none ∨ slotQuiet s e n = false))))) &&
  ((let s : State := wKill; (let e : Fin 32 := 0; (let n : Fin 16 := 0; (match (ctxAux s e n).kill with | some k => decide (slotQuiet s e n = true) | _ => false))))) &&
  ((let s : State := wRingNowhere; (let e : Nat := 0; (let n : Nat := 0; (let b : Bytes := (List.replicate 32 1); decide ((frRing e n).placed s 32 = false)))))) &&
  ((let s : State := (wRing 64); (let e : Nat := 0; (let n : Nat := 0; (let b : Bytes := (List.replicate 32 1); decide ((frRing e n).placed s 32 = true) && decide ((frRing e n).full s = true)))))) &&
  ((let s : State := wTask; (let ag : Agent := (.core 0 .m); (let e : Fin 32 := 0; (let n : Fin 16 := 0; (let val : BitVec 32 := 0; decide (regRight s ag (rFrPtr e n).key = true)))))))) = true := by decide +kernel

theorem witness_FaultsAreRecordedAndReplayed_2 : (
  ((let s : State := wTask; (let ag : Agent := (.core 0 .m); (let e : Fin 32 := 0; (let n : Fin 16 := 0; (let val : BitVec 32 := 0; decide (regRight s ag (rFrPtr e n).key = true) && decide ((ctxAux s e n).held = []))))))) &&
  ((let s : State := wTask; (let ag : Agent := (.core 0 .m); (let p : Fin 16 := 0; (let val : BitVec 32 := 0; decide (regRight s ag (rRhPfrPtr p).key = true)))))) &&
  ((let s : State := wTask; (let ag : Agent := (.core 0 .m); (let p : Fin 16 := 0; (let val : BitVec 32 := 0; decide (regRight s ag (rRhPfrPtr p).key = true) && decide (mapGet s.hub.pfHeld p.val [] = []))))))) = true := by decide +kernel

theorem witness_RangeTranslation_1 : (
  ((let s : State := wTask; (let r : XlateReq := (wReq 0); (match rcLookup s (reqCache r) r.astag.toNat r.va.toNat with | (s2, some e) => true | _ => false)))) &&
  ((let s : State := State.reset; (let r : XlateReq := (wReq 0); (match rcLookup s (reqCache r) r.astag.toNat r.va.toNat with | (s2, none) => decide (getB s2 rRhRoot fRhRootEnable = false) | _ => false)))) &&
  ((let s : State := wRoot; (let r : XlateReq := (wReq (2 ^ 41)); (match rcLookup s (reqCache r) r.astag.toNat r.va.toNat with | (s2, none) => decide (getB s2 rRhRoot fRhRootEnable = true) && decide (∀ w ∈ walksOf s2 (reqCache r), sameRange s2 w.req r = false) | _ => false)))) &&
  ((let s : State := wWalkOne; (let r : XlateReq := (wReq 0x10); (match rcLookup s (reqCache r) r.astag.toNat r.va.toNat with | (s2, none) => decide (getB s2 rRhRoot fRhRootEnable = true) && (match walksOf s2 (reqCache r) with | [w] => decide (sameRange s2 w.req r = true) | _ => false) | _ => false)))) &&
  ((let s : State := State.reset; (let id : Nat := 0; decide (walkNamed s id = none ∨ walkRuns s id = false)))) &&
  ((let s : State := (wWalk false); (let id : Nat := 4; (match walkNamed s id with | some (c, w) => decide (walkRuns s id = true) && decide (w.restart = false) && (match resolveReq (setWalks s c ((walksOf s c).filter (fun x => decide (x.id ≠ id)))) w.req with | (s2, res) => true) | _ => false)))) &&
  ((let s : State := (wWalk true); (let id : Nat := 4; (match walkNamed s id with | some (c, w) => decide (walkRuns s id = true) && decide (w.restart = true) | _ => false)))) &&
  ((let s : State := (wCons 0); (let ag : Agent := (.core 0 .m); (let id : BitVec 32 := 4; decide (regRight s ag rRhReplyCtl.key = true) && (match consultNamed s id.toNat with | some c => decide (c.restart = false) | _ => false))))) &&
  ((let s : State := (wCons (10 ^ 12)); (let id : BitVec 32 := 4; (match consultNamed s id.toNat with | some c => decide (c.restart = false) && decide (c.since + objNat s oConsultTimeout * 1000000 ≤ s.time) | _ => false)))) &&
  ((let s : State := (wConsAgain (10 ^ 12)); (let id : BitVec 32 := 4; (match consultNamed s id.toNat with | some c => decide (c.restart = true) && decide (c.since + objNat s oConsultTimeout * 1000000 ≤ s.time) | _ => false)))) &&
  ((let s : State := (wCons 0); (let id : BitVec 32 := 4; (match consultNamed s id.toNat with | some c => decide (s.time < c.since + objNat s oConsultTimeout * 1000000) | _ => false)))) &&
  ((let s : State := (wConsAgain 0); (let ag : Agent := (.core 0 .m); (let id : BitVec 32 := 4; decide (regRight s ag rRhReplyCtl.key = true) && (match consultNamed s id.toNat with | some c => decide (c.restart = true) | _ => false)))))) = true := by decide +kernel

theorem witness_RangeTranslation_2 : (
  ((let s : State := wTask; (let ag : Agent := (.core 0 .m); (let id : BitVec 32 := 0; decide (regRight s ag rRhReplyCtl.key = true) && decide (consultNamed s id.toNat = none))))) &&
  ((let s : State := wTask; (let ag : Agent := (.core 0 .m); (let val : BitVec 32 := 0; decide (regRight s ag rRhConsultPtr.key = true))))) &&
  ((let s : State := wTask; (let ag : Agent := (.core 0 .m); (let val : BitVec 32 := 0; decide (regRight s ag rRhConsultPtr.key = true) && decide (s.hub.consults = []))))) &&
  ((let s : State := (wFlushes 16 false); (let ag : Agent := (.core 0 .m); (let a : BitVec 16 := 0; (let all : Bool := false; (let drain : Bool := false; decide (regRight s ag rRhFlush.key = true) && decide (16 ≤ s.hub.flushQ.length))))))) &&
  ((let s : State := (wFlushing false); (let ag : Agent := (.core 0 .m); (let a : BitVec 16 := 0; (let all : Bool := false; (let drain : Bool := false; decide (regRight s ag rRhFlush.key = true) && (match s.hub.flushQ with | f :: l => decide (l.length < 15) && decide (f.started.isSome = true) && decide (f.drain = true) && decide (f.software = true) && decide (s.hub.flushWait = []) && (wNoneAwaits s) | _ => false))))))) &&
  ((let s : State := wTask; (let ag : Agent := (.core 0 .m); (let a : BitVec 16 := 0; (let all : Bool := false; (let e : Fin 32 := 0; decide (regRight s ag rRhFlush.key = true) && decide (s.hub.flushQ = []) && decide (s.hub.flushWait = []) && (wNoneAwaits s))))))) &&
  ((let s : State := (wFlushes 1 true); (match s.hub.flushQ with | f :: l => decide (f.started = none ∨ flushPending s f = true) | _ => false))) &&
  ((let s : State := (wFlushing false); (match s.hub.flushQ with | f :: l => decide (f.started.isSome = true) && decide (flushPending s f = false) | _ => false))) &&
  ((let s : State := (wFlushing false); (match s.hub.flushQ with | [f] => decide (f.started.isSome = true) && decide (flushPending s f = false) && decide (s.hub.flushWait = []) && (wNoneAwaits s) | _ => false))) &&
  ((let s : State := State.reset; decide (s.hub.flushQ = [])))) = true := by decide +kernel

theorem witness_AccessesLieWhereTheGranuleLies_1 : (
  ((let s : State := wTask; (let r : MemReq := { wLoad 0 with va := some 0x8000, agent := .spindle 0 0 .u }; (let va : Word := 0x8000; (let e : Fin 32 := 0; (let k : Fin 4 := 0; decide (r.va = some va) && decide (r.agent = .spindle e k .u) && (match hartOf s ⟨e, k⟩ with | some h => decide (h.slot.isSome = true) && (let q : XReq := { hartReq s ⟨e, k⟩ h (reqWrites r) (decide (r.kind ≠ .fetch) && (!reqWrites r || (match r.kind with | .atomic .. => true | _ => false))) (decide (r.kind = .fetch)) with noWait := true }; (match xlate s q va.toNat (reqBytes r) with | (s2, .ok ps) => true | _ => false)) | _ => false))))))) &&
  ((let s : State := wTask; (let r : MemReq := { wLoad 0 with va := some 0x20000000000, agent := .spindle 0 0 .u }; (let va : Word := 0x20000000000; (let e : Fin 32 := 0; (let k : Fin 4 := 0; decide (r.va = some va) && decide (r.agent = .spindle e k .u) && (match hartOf s ⟨e, k⟩ with | some h => decide (h.slot.isSome = true) && (let q : XReq := { hartReq s ⟨e, k⟩ h (reqWrites r) (decide (r.kind ≠ .fetch) && (!reqWrites r || (match r.kind with | .atomic .. => true | _ => false))) (decide (r.kind = .fetch)) with noWait := true }; (match xlate s q va.toNat (reqBytes r) with | (s2, .fault a c p) => true | _ => false)) | _ => false))))))) &&
  ((let s : State := State.reset; (let r : MemReq := { wStore 0x1000 [1] with gen := 0xFFFFFFFF }; decide (r.va = none) && decide (r.mpa.toNat < mmioBase) && decide (sleepingStore s r = none) && (match staleUnit s r with | some u => decide (s.hub.stalled = []) | _ => false)))) &&
  ((let s : State := wAsleep; (let r : MemReq := (wStore (sramAddr 0 0) [1]); decide (r.va = none) && decide (r.mpa.toNat < mmioBase) && (match sleepingStore s r with | some e => true | _ => false)))) &&
  ((let s : State := State.reset; (let r : MemReq := (wLoad 0x1000); decide (r.va = none) && decide (r.mpa.toNat < mmioBase) && decide (sleepingStore s r = none) && decide (staleUnit s r = none) && decide (reqBytes r ≠ 0) && decide (r.ecc ≠ .pathParityAddr) && (match refusal s r with | some o => decide (s.hub.stalled = []) | _ => false)))) &&
  ((let s : State := State.reset; (let r : MemReq := { wLoad 0x1000 with ecc := .pathParityAddr }; decide (r.va = none) && decide (r.mpa.toNat < mmioBase) && decide (sleepingStore s r = none) && decide (staleUnit s r = none) && decide (reqBytes r ≠ 0) && decide (r.ecc = .pathParityAddr)))) &&
  ((let s : State := wGran; (let r : MemReq := (wStore 0x200000 [1]); (wAdmitted s r) && decide (reqWaits s r s.hub.nextId = true) && decide (s.hub.stalled = [])))) &&
  ((let s : State := wGran; (let r : MemReq := (wStore 0x20007 [1, 2, 3]); (wAdmitted s r) && (wKeeps s r) && decide (reqWaits s r s.hub.nextId = false) && decide (r.kind = .write) && decide (r.ecc ≠ .pathParity)))) &&
  ((let s : State := wGran; (let r : MemReq := (wStore 0x20007 [1, 2, 3]); (wAdmitted s r) && (wKeeps s r) && decide (reqWaits s r s.hub.nextId = false) && decide (s.hub.stalled = []) && decide (r.data ≠ []) && decide (r.ecc = .ok) && decide (r.kind = .write) && decide (r.strobe = none) && decide (effShared s r.shared r.mpa.toNat = false) && decide (r.hint ≠ 1) && decide (r.hint ≠ 2) && decide (s.hub.breach = []) && decide (Memory.wf s.mem = true) && ((List.range r.data.length).all (fun i => (List.range r.data.length).all (fun j => decide (i = j) || !decide (locate s (r.mpa.toNat + i) = locate s (r.mpa.toNat + j))))) && true))) &&
  ((let s : State := wGran; (let r : MemReq := (wLoad 0x1000); (wAdmitted s r) && (wKeeps s r) && decide (s.hub.stalled = []) && decide (r.ecc = .ok) && decide (r.kind = .read ∨ r.kind = .fetch) && decide (effShared s r.shared r.mpa.toNat = false) && decide (r.hint ≠ 1) && decide (r.hint ≠ 2) && decide (mpaPoisoned s r.mpa.toNat r.len = false ∨ presenceBit r.agent = none)))) &&
  ((let s : State := wGran; (let r : MemReq := (wCore .read 0x1000400); (let l : Nat := (0x1000400 / 64); (wAdmitted s r) && (wKeeps s r) && decide (reqWaits s r s.hub.nextId = false) && decide (s.hub.stalled = []) && decide (r.ecc = .ok) && (match caches r with | some b => decide (effShared s r.shared r.mpa.toNat = true) && decide (r.hint ≠ 1) && decide (r.hint ≠ 2) && decide (mpaPoisoned s r.mpa.toNat r.len = false) && decide (linesOf r.mpa.toNat (reqBytes r) = [l]) && decide (Memory.wf s.mem = true) && ((match dirFind s l with | some d => (match d.data with | some x => decide (x.length = 64) | none => true) | none => true)) && decide ((dirFind s l).isSome = true ∨ (s.hub.dir.filter (fun d => decide (dirHome d.line = dirHome l))).length < 16) && decide (r.kind = .read) | _ => false))))) &&
  ((let s : State := wGran; (let r : MemReq := (wCore .own 0x1000400); (let l : Nat := (0x1000400 / 64); (wAdmitted s r) && (wKeeps s r) && decide (reqWaits s r s.hub.nextId = false) && decide (s.hub.stalled = []) && decide (r.ecc = .ok) && (match caches r with | some b => decide (effShared s r.shared r.mpa.toNat = true) && decide (r.hint ≠ 1) && decide (r.hint ≠ 2) && decide (mpaPoisoned s r.mpa.toNat r.len = false) && decide (linesOf r.mpa.toNat (reqBytes r) = [l]) && decide (Memory.wf s.mem = true) && ((match dirFind s l with | some d => (match d.data with | some x => decide (x.length = 64) | none => true) | none => true)) && decide ((dirFind s l).isSome = true ∨ (s.hub.dir.filter (fun d => decide (dirHome d.line = dirHome l))).length < 16) && decide (r.kind = .own) | _ => false)))))) = true := by decide +kernel

theorem witness_AccessesLieWhereTheGranuleLies_2 : (
  ((let s : State := wGran; (let r : MemReq := (wCore .peek 0x1000400); (wAdmitted s r) && decide (r.kind = .peek) && decide (s.hub.stalled = []) && (wKeeps s r)))) &&
  ((let s : State := wResv; (let r : MemReq := { wCore .sc 0x1000400 with data := [1, 2, 3, 4], len := 4 }; (wAdmitted s r) && (wKeeps s r) && decide (reqWaits s r s.hub.nextId = false) && decide (r.kind = .sc) && decide (resvHeld (touched s r) (presenceBit r.agent) r.mpa.toNat = true)))) &&
  ((let s : State := wGran; (let r : MemReq := { wCore .sc 0x1000400 with data := [1, 2, 3, 4], len := 4 }; (wAdmitted s r) && (wKeeps s r) && decide (reqWaits s r s.hub.nextId = false) && decide (r.kind = .sc) && decide (resvHeld (touched s r) (presenceBit r.agent) r.mpa.toNat = false)))) &&
  ((let s : State := wGran; (let r : MemReq := { wCore (.atomic .add false false) 0x1000400 with cached := false, shared := false }; (let op : AtomicOp := .add; (let sz : Bool := false; (let sg : Bool := false; (wAdmitted s r) && (wKeeps s r) && decide (reqWaits s r s.hub.nextId = false) && decide (s.hub.stalled = []) && decide (r.kind = .atomic op sz sg) && decide (effShared s r.shared r.mpa.toNat = false) && decide (r.ecc = .ok) && decide (r.hint ≠ 1) && decide (r.hint ≠ 2) && decide (s.hub.breach = []) && decide (Memory.wf s.mem = true) && decide (mpaPoisoned s r.mpa.toNat (atomicBytes op sz) = false) && (match atomicNew op sg (atomicBytes op sz) (mpaNat s r.mpa.toNat (atomicBytes op sz)) r.operand.toNat r.compare.toNat with | some v => true | _ => false))))))) &&
  ((let s : State := wGran; (let r : MemReq := { wCore (.atomic .add false false) 0x1000400 with cached := false, shared := false }; (let op : AtomicOp := .add; (let sz : Bool := false; (let sg : Bool := false; (wAdmitted s r) && (wKeeps s r) && decide (reqWaits s r s.hub.nextId = false) && decide (r.kind = .atomic op sz sg) && (match serveAtomic (touched s r) r (effShared s r.shared r.mpa.toNat) op sz sg with | (s2, o) => true))))))) &&
  ((let s : State := wGran; (let r : MemReq := { wLoad (mmioBase + 67108864) with agent := .core 0 .m }; decide (r.va = none) && decide (mmioBase ≤ r.mpa.toNat) && decide (staleUnit s r = none) && (match mmioTarget (r.mpa.toNat - mmioBase) with | .reg k => decide (mmioTarget ((r.mpa.toNat - mmioBase) / 8 * 8) = .reg k) && decide (accessOf (r.mpa.toNat - mmioBase) (reqBytes r) ≠ .bad) && decide (regRight s r.agent k = true) && decide (r.kind = .read) | _ => false)))) &&
  ((let s : State := wGran; (let r : MemReq := { wStore (mmioBase + 67108864) [1, 2, 3, 4, 5, 6, 7, 8] with agent := .core 0 .m }; decide (r.va = none) && decide (mmioBase ≤ r.mpa.toNat) && decide (staleUnit s r = none) && (match mmioTarget (r.mpa.toNat - mmioBase) with | .reg k => decide (mmioTarget ((r.mpa.toNat - mmioBase) / 8 * 8) = .reg k) && decide (accessOf (r.mpa.toNat - mmioBase) (reqBytes r) ≠ .bad) && decide (regRight s r.agent k = true) && decide (r.kind = .write) && (match regDesc k with | some d => true | _ => false) | _ => false))))) = true := by decide +kernel

theorem witness_NonCachingReadsAreCurrentReads : (
  ((let s : State := wGran; (let r : MemReq := { wLoad 0x1000400 with shared := true, len := 128 }; (wAdmitted s r) && (wKeeps s r) && decide (reqWaits s r s.hub.nextId = false) && decide (s.hub.stalled = []) && decide (r.ecc = .ok) && decide (r.kind = .read) && decide (effShared s r.shared r.mpa.toNat = true) && decide (caches r = none) && decide (r.hint ≠ 1) && decide (r.hint ≠ 2) && decide (mpaPoisoned s r.mpa.toNat r.len = false)))) &&
  ((let s : State := wGran; (let r : MemReq := { wCore .read 0x1000400 with shared := false }; (let c : Fin 128 := 0; (let p : Priv := .m; (wAdmitted s r) && decide (r.agent = .core c p) && decide (r.cached = true) && decide (r.shared = false) && decide (s.hub.stalled = []) && decide (r.ecc = .ok) && decide (r.kind = .read) && decide (r.hint ≠ 1) && decide (r.hint ≠ 2) && decide (mpaPoisoned s r.mpa.toNat r.len = false) && decide (Memory.wf s.mem = true))))))) = true := by decide +kernel

theorem witness_PlainRegistersTakeTheirWritableBits : (
  ((let s : State := State.reset; (let ag : Agent := (.core 0 .m); (let off : BitVec 40 := 1; (let acc : RegAccess := .w64; (let val : Word := 0; decide (off.toNat % 8 ≠ 0))))))) &&
  ((let s : State := State.reset; (let ag : Agent := (.core 0 .m); (let off : BitVec 40 := 1099511627768; (let acc : RegAccess := .w64; (let val : Word := 0; decide (off.toNat % 8 = 0) && decide (mmioTarget off.toNat = .outside))))))) &&
  ((let s : State := State.reset; (let ag : Agent := (.core 0 .m); (let off : BitVec 40 := 0; (let val : Word := 0; decide (off.toNat % 8 = 0) && (match mmioTarget off.toNat with | .reg k => true | _ => false)))))) &&
  ((let s : State := wGran; (let ag : Agent := (.core 0 .m); (let off : BitVec 40 := 131072; (let val : Word := 0; decide (off.toNat % 8 = 0) && (match mmioTarget off.toNat with | .reg k => decide (regRight s ag k = true) && decide (regDesc k = none) | _ => false)))))) &&
  ((let s : State := wGran; (let ag : Agent := (.core 0 .m); (let off : BitVec 40 := 67108864; (let acc : RegAccess := .w64; (let val : Word := 0; decide (off.toNat % 8 = 0) && (match mmioTarget off.toNat with | .reg k => decide (acc ≠ .bad) && decide (regRight s ag k = true) && (match regDesc k with | some d => true | _ => false) | _ => false))))))) &&
  ((let s : State := wGran; (let ag : Agent := (.core 0 .m); (let off : BitVec 40 := 67108864; (let val : Word := 0; decide (off.toNat % 8 = 0) && (match mmioTarget off.toNat with | .reg k => decide (regRight s ag k = true) && (match regDesc k with | some d => decide (k.blk = .coll ∨ k.blk = .plalia) | _ => false) | _ => false)))))) &&
  ((let s : State := State.reset; (let ag : Agent := (.core 0 .m); (let off : BitVec 40 := 0x30000000; (let acc : RegAccess := .w64; (let val : Word := 0; decide (off.toNat % 8 = 0) && (match mmioTarget off.toNat with | .imsic c f o => decide (acc ≠ .bad) | _ => false))))))) &&
  ((let s : State := State.reset; (let ag : Agent := (.core 0 .m); (let off : BitVec 40 := 0x50000000; (let val : Word := 0; decide (off.toNat % 8 = 0) && (match mmioTarget off.toNat with | .guest o => true | _ => false))))))) = true := by decide +kernel

theorem witness_GranulesMigrateAndAge_1 : (
  ((let s : State := wGran; (let ag : Agent := (.core 0 .m); (let g : BitVec 20 := 0; (let a : BitVec 16 := 0; decide (regRight s ag rMigReq.key = true) && decide (g.toNat < granCount) && decide (s.hub.migQ.length < 64)))))) &&
  ((let s : State := wGran; (let ag : Agent := (.core 0 .m); (let g : BitVec 20 := 0; decide (regRight s ag rMigReq.key = true) && decide (g.toNat < granCount) && decide (s.hub.migQ.length < 64))))) &&
  ((let s : State := (wMigQ 64 wPromote); (let ag : Agent := (.core 0 .m); (let g : BitVec 20 := 0; (let a : BitVec 16 := 0; decide (regRight s ag rMigReq.key = true) && decide (g.toNat < granCount) && decide (64 ≤ s.hub.migQ.length)))))) &&
  ((let s : State := wMigOff; decide (getB s rMigCfg fMigCfgEnable = false ∨ migRoom s = false ∨ s.pow.migPaused = true))) &&
  ((let s : State := wPool; decide (getB s rMigCfg fMigCfgEnable = true) && decide (migRoom s = true) && decide (s.pow.migPaused = false) && (match s.hub.migQ with | [m] => decide (m.promote = true) && decide (m.victim = none) && decide ((gran s m.gran).state = 0) && (match chooseFrame { s with hub := { s.hub with migQ := [] } } m.astag m.part with | .free f => true | _ => false) | _ => false))) &&
  ((let s : State := wVictim; decide (getB s rMigCfg fMigCfgEnable = true) && decide (migRoom s = true) && decide (s.pow.migPaused = false) && (match s.hub.migQ with | [m] => decide (m.promote = true) && decide (m.victim = none) && decide ((gran s m.gran).state = 0) && (match chooseFrame { s with hub := { s.hub with migQ := [] } } m.astag m.part with | .victim v => true | _ => false) | _ => false))) &&
  ((let s : State := wGran; (let g : BitVec 20 := 1; decide ((gran s g.toNat).state = 1) && decide ((gran s g.toNat).copying = false) && (wHubIdle s)))) &&
  ((let s : State := (wMigQ 1 wDemote); (let g : BitVec 20 := 0; decide ((gran s g.toNat).state = 2) && decide (migRoom s = true) && (wNoneAwaits s) && decide (demoteQueued s g.toNat = true ∨ s.hub.migQ.any (fun m => decide (m.victim = some g.toNat)) = true ∨ overCeiling s g.toNat = true)))) &&
  ((let s : State := wGranFlush; (let g : BitVec 20 := 2; decide ((gran s g.toNat).state = 3) && (wNoneAwaits s) && decide (granFlushing (pumpFlushes s) g.toNat = true)))) &&
  ((let s : State := wGran; (let g : BitVec 20 := 2; decide ((gran s g.toNat).state = 3) && (wNoneAwaits s) && decide (granFlushing (pumpFlushes s) g.toNat = false)))) &&
  ((let s : State := wGran; (let g : BitVec 20 := 2; decide ((gran s g.toNat).state = 3) && decide ((gran s g.toNat).copying = true) && (wHubIdle s) && decide (∀ m ∈ s.hub.migQ, m.victim ≠ some g.toNat)))) &&
  ((let s : State := (wMigQ 1 { wPromote with victim := some 2 }); (let g : BitVec 20 := 2; decide ((gran s g.toNat).state = 3) && decide ((gran s g.toNat).copying = true) && (wHubIdle s) && (match s.hub.migQ.find? (fun x => decide (x.victim = some g.toNat)) with | some m => decide (m.gran ≠ g.toNat) && decide ((gran s m.gran).state = 0) && decide (getB s rMigCfg fMigCfgEnable = true) && decide (s.hub.badFrames.elem (gran s g.toNat).frame = false) | _ => false))))) = true := by decide +kernel

theorem witness_GranulesMigrateAndAge_2 : (
  ((let s : State := State.reset; (let g : BitVec 20 := 0; decide ((gran s g.toNat).state ≠ 1)))) &&
  ((let s : State := wGran; (let g : BitVec 20 := 1; decide ((gran s g.toNat).state ≠ 3 ∨ (gran s g.toNat).copying = false)))) &&
  ((let s : State := wReadWaits; (match s.hub.stalled with | [x] => decide (s.d2d.waits = []) && decide (x.since + objNat s oTierTimeout * 1000000 ≤ s.time) && decide (reqWrites x.req = false) && decide (presenceBit x.req.agent = none) | _ => false))) &&
  ((let s : State := (wWaited (10 ^ 12)); (match s.hub.stalled with | [x] => decide (s.d2d.waits = []) && decide (x.since + objNat s oTierTimeout * 1000000 ≤ s.time) && decide (x.req.kind = .write) | _ => false))) &&
  ((let s : State := (wTierWait (10 ^ 12)); decide (s.hub.stalled = []) && (match s.hub.tierWaits with | [x] => decide (x.late = false) && decide (x.since + objNat s oTierTimeout * 1000000 ≤ s.time) | _ => false))) &&
  ((let s : State := (wWaited 0); (match s.hub.stalled with | [x] => decide (s.time < x.since + objNat s oTierTimeout * 1000000) | _ => false))) &&
  ((let s : State := (wTierWait 0); decide (s.hub.stalled = []) && (match s.hub.tierWaits with | [x] => decide (s.time < x.since + objNat s oTierTimeout * 1000000) | _ => false))) &&
  ((let s : State := wAcctBad; (let ag : Agent := (.core 0 .m); (let view : Bool := false; decide (regRight s ag rPoolArm.key = true) && (match (List.range 256).find? (acctBad (setB s rPoolArm fPoolArmView view)) with | some i => true | _ => false))))) &&
  ((let s : State := wGran; (let ag : Agent := (.core 0 .m); (let view : Bool := false; decide (regRight s ag rPoolArm.key = true) && decide ((List.range 256).find? (acctBad (setB s rPoolArm fPoolArmView view)) = none)))))) = true := by decide +kernel

theorem witness_StackedMemoryIsRepairedAndRefreshed_1 : (
  ((let s : State := wGran; (let ag : Agent := (.core 0 .m); (let d : Fin 8 := 0; (let ch : Fin 128 := 1; (let b : Fin 16 := 0; (let x : BitVec 14 := 0; decide (regRight s ag (rStkRepair d).key = true) && decide (margined s d ch = false) && decide (x.toNat ≤ 151) && decide (sparesUsed s d ⟨1, ch, 0, x.toNat⟩ < 1)))))))) &&
  ((let s : State := wGran; (let ag : Agent := (.core 0 .m); (let d : Fin 8 := 0; (let ch : Fin 128 := 1; (let b : Fin 16 := 0; (let x : BitVec 14 := 0; decide (regRight s ag (rStkRepair d).key = true) && decide (margined s d ch = false) && decide (x.toNat < 12288) && decide (sparesUsed s d ⟨2, ch, b, x.toNat⟩ < 32)))))))) &&
  ((let s : State := wGran; (let ag : Agent := (.core 0 .m); (let d : Fin 8 := 0; (let ch : Fin 128 := 1; (let b : Fin 16 := 0; (let x : BitVec 14 := 0; decide (regRight s ag (rStkRepair d).key = true) && decide (margined s d ch = false) && decide (x.toNat < 32) && decide (sparesUsed s d ⟨3, ch, b, x.toNat⟩ < 8)))))))) &&
  ((let s : State := wGran; (let ag : Agent := (.core 0 .m); (let d : Fin 8 := 0; (let ch : Fin 128 := 1; (let b : Fin 16 := 0; (let x : BitVec 14 := 152; decide (regRight s ag (rStkRepair d).key = true) && decide (151 < x.toNat)))))))) &&
  ((let s : State := wGran; (let ag : Agent := (.core 0 .m); (let d : Fin 8 := 0; (let ch : Fin 128 := 1; (let b : Fin 16 := 0; (let x : BitVec 14 := 12288; decide (regRight s ag (rStkRepair d).key = true) && decide (12288 ≤ x.toNat)))))))) &&
  ((let s : State := wGran; (let ag : Agent := (.core 0 .m); (let d : Fin 8 := 0; (let ch : Fin 128 := 1; (let b : Fin 16 := 0; (let x : BitVec 14 := 32; decide (regRight s ag (rStkRepair d).key = true) && decide (32 ≤ x.toNat)))))))) &&
  ((let s : State := wMargined; (let ag : Agent := (.core 0 .m); (let d : Fin 8 := 0; (let ch : Fin 128 := 1; (let b : Fin 16 := 0; (let x : BitVec 14 := 0; decide (regRight s ag (rStkRepair d).key = true) && decide (margined s d ch = true) && decide (x.toNat < 32)))))))) &&
  ((let s : State := wSparesGone; (let ag : Agent := (.core 0 .m); (let d : Fin 8 := 0; (let ch : Fin 128 := 1; (let b : Fin 16 := 0; (let x : BitVec 14 := 0; decide (regRight s ag (rStkRepair d).key = true) && decide (margined s d ch = false) && decide (x.toNat < 12288) && decide (32 ≤ sparesUsed s d ⟨2, ch, b, x.toNat⟩)))))))) &&
  ((let s : State := wStk; (let d : Fin 8 := 0; (match stkQueue s d with | r :: l => decide (s.dev.flStop = false) && decide (getB s rPwrStatus fPwrStatusHoldupReady = true) && decide (s.rel.repairMap.length < repairCap) | _ => false)))) &&
  ((let s : State := wStk; (let d : Fin 8 := 0; (let reads : List (Nat × EccResult) := []; (match stkQueue s d with | r :: l => decide (flashRuns s = true) && (let u := repaired (reads.foldl (fun s x => repairRead s d r x) s) d r; true) | _ => false))))) &&
  ((let s : State := State.reset; (let d : Fin 8 := 0; decide (stkQueue s d = [] ∨ s.dev.flStop = true ∨ getB s rPwrStatus fPwrStatusHoldupReady = false)))) &&
  ((let s : State := wConnErr; (let p : Place := ⟨false, 0, 0, 0, 0, 0⟩; (let line : Nat := 20; (let c : Fin 168 := 152; decide (p.bulk = false) && decide (152 ≤ c.val) && decide (sparesUsed s p.die ⟨4, p.chan, 0, c.val - 152⟩ = 0) && decide (15 ≤ ((mapGet s.rel.connErr (p.die, p.chan, c.val) []).filter (fun x => decide (s.time < x.2 + oneSecond) && decide (x.1 ≠ line))).length))))))) = true := by decide +kernel

theorem witness_StackedMemoryIsRepairedAndRefreshed_2 : (
  ((let s : State := wStk; (let d : Fin 9 := 0; (let ch : Fin 128 := 1; (let b : Fin 16 := 3; (let a : RefAct := .issue; decide (chanThere d ch = true) && decide (refreshDue s d ch b = true) && decide (a ≠ .pullIn))))))) &&
  ((let s : State := wStk; (let d : Fin 9 := 0; (let ch : Fin 128 := 1; (let b : Fin 16 := 3; decide (chanThere d ch = true)))))) &&
  ((let s : State := wRefreshed; (let d : Fin 9 := 0; (let ch : Fin 128 := 1; (let b : Fin 16 := 3; (let a : RefAct := .issue; decide (refreshDue s d ch b = false ∧ a ≠ .pullIn))))))) &&
  ((let s : State := wStk; (let d : Fin 9 := 0; (let ch : Fin 128 := 1; (let ch' : Fin 128 := 2; (let b : Fin 16 := 0; decide (ch' ≠ ch) && decide (chanThere d ch = true) && decide (recalMay s d ch = true))))))) &&
  ((let s : State := wRecal; (let d : Fin 9 := 0; (let ch : Fin 128 := 1; decide (recalMay s d ch = false)))))) = true := by decide +kernel

theorem witness_FlashMarginingAndScrub_1 : (
  ((let s : State := wGran; (let ag : Agent := (.core 0 .m); (let p : Fin 16 := 0; (let n : BitVec 24 := 0; (let lpn : BitVec 32 := 0; decide (regRight s ag rFlReqCtl.key = true) && decide (s.dev.flQ.length < 64) && decide ((lpn.toNat + n.toNat) * pageBytes ≤ Config.flashLogicalBytes))))))) &&
  ((let s : State := wGran; (let ag : Agent := (.core 0 .m); (let p : Fin 16 := 0; (let n : BitVec 24 := 0; (let lpn : BitVec 32 := 0; decide (regRight s ag rFlReqCtl.key = true) && decide (s.dev.flQ.length < 64) && decide ((lpn.toNat + n.toNat) * pageBytes ≤ Config.flashLogicalBytes) && decide (flSourceOk s (getF s rFlReqSrc fFlReqSrcMpa * pageBytes) (n.toNat * pageBytes) = true))))))) &&
  ((let s : State := (wFlash 64 false); (let ag : Agent := (.core 0 .m); (let p : Fin 16 := 0; (let n : BitVec 24 := 0; (let lpn : BitVec 32 := 0; decide (regRight s ag rFlReqCtl.key = true) && decide (64 ≤ s.dev.flQ.length))))))) &&
  ((let s : State := (wFlash 64 false); (match s.dev.flQ with | r :: l => decide (flashRuns s = true) | _ => false))) &&
  ((let s : State := (wFlash 64 false); (match s.dev.flQ with | r :: l => decide (flashRuns s = true) && decide (r.pages = 1) && decide (Memory.wf s.mem = true) && decide (r.write = false) | _ => false))) &&
  ((let s : State := (wFlash 1 true); (match s.dev.flQ with | r :: l => decide (flashRuns s = true) && decide (r.pages = 1) && decide (Memory.wf s.mem = true) && decide (r.write = true) | _ => false))) &&
  ((let s : State := State.reset; decide (s.dev.flQ = [] ∨ flashRuns s = false))) &&
  ((let s : State := wStep8; (let cut : List Nat := []; (let held : List Nat := []; decide (stepStarted s 8 = true))))) &&
  ((let s : State := { State.reset with pending := [.moduleReset] }; decide (stepStarted s 8 = false))) &&
  ((let s : State := wCutProg; (let cut : List Nat := []; (let held : List Nat := []; decide (stepStarted s 8 = true) && (match s.dev.flInflight with | [p] => decide (Memory.wf s.mem = true) && decide ((p.old.map (fun x => x.1)).Nodup) && decide (∀ x ∈ p.old, x.1 < pageBytes) | _ => false))))) &&
  ((let s : State := State.reset; (let b : Nat := 0; decide (s.dev.flRetired.elem b = false) && decide (s.rel.repairMap.length < repairCap)))) &&
  ((let s : State := (wFlash 64 false); (let b : Nat := 5; decide (s.dev.flRetired.elem b = true))))) = true := by decide +kernel

theorem witness_FlashMarginingAndScrub_2 : (
  ((let s : State := State.reset; decide (objNat s oMarginUnit < marginUnits (objNat s oMarginIf)) && decide (objNat s oMarginAxis ≤ 3) && decide (∀ m ∈ s.dev.margin, m.1 ≠ objNat s oMarginIf) && decide (¬(objNat s oMarginIf = 0 ∧ spareInUse s (objNat s oMarginUnit) = true)))) &&
  ((let s : State := wMargin; decide (marginUnits (objNat s oMarginIf) ≤ objNat s oMarginUnit ∨ 3 < objNat s oMarginAxis))) &&
  ((let s : State := wMargin; (let lo : BitVec 16 := 0; (let hi : BitVec 16 := 0; (let st : BitVec 32 := 0; (match s.dev.margin with | m :: l => true | _ => false)))))) &&
  ((let s : State := State.reset; (let line : BitVec 44 := 77309411328; (match regionOf s (64 * line.toNat) with | some (.sram e) => (let r := EccResult.ok; true) | _ => false)))) &&
  ((let s : State := wEng; (let line : BitVec 44 := 0; decide (regionOf s (64 * line.toNat) = some .bulk) && decide (s.dev.scrubbed + 1 < dramLines)))) &&
  ((let s : State := wEng; (let line : BitVec 44 := 0; decide (regionOf s (64 * line.toNat) = some .bulk) && decide (s.dev.scrubbed + 1 < dramLines) && (let r := (EccResult.ok); true)))) &&
  ((let s : State := State.reset; (let line : BitVec 44 := 0; decide (regionOf s (64 * line.toNat) = some .bulk) && decide (s.hub.breach = []))))) = true := by decide +kernel

theorem witness_ReservedCodesAreAnsweredUnsupported : (
  ((plaRows).any (fun r => (let s : State := wPla; (let l : Fin 19 := 0; (let m : PlaMsg := (wHello 0); (wLinkOpen s l) && decide (m.parity = .ok) && decide (plaSpells m r.chan r.rsp r.op r.data = false ∨ chanOpen s l r.chan = false)))))) &&
  ((let s : State := wPla; (let l : Fin 19 := 0; (let m : PlaMsg := (wHello 1); (wLinkOpen s l) && decide (m.parity = .ok) && decide (plaSpells m 4 false 0 true = false))))) &&
  ((let s : State := wPla; (let l : Fin 19 := 0; (let m : PlaMsg := (wHello 0); (wLinkOpen s l) && decide (m.parity = .ok) && decide (plaSpells m 4 false 1 true = false))))) &&
  ((plaRows).any (fun r => (let s : State := wPla; (let l : Fin 19 := 0; (let m : PlaMsg := ({ wHello 0 with parity := .field }); (wLinkOpen s l) && decide (m.parity = .field)))))) &&
  ((let s : State := wPla; (let l : Fin 19 := 0; (let m : PlaMsg := ({ wMsg 0 false 1 0x40 0 (w64 5) with parity := .data 3 }); decide ((link s l).inReset = false) && decide (chanOpen s l 0 = true) && decide (plaSpells m 0 false 1 true = true) && (match m.parity with | .data ls => true | _ => false)))))) = true := by decide +kernel

theorem witness_PlaliaMemoryRequests : (
  ((let s : State := wPla; (let l : Fin 19 := 18; (let m : PlaMsg := ({ wMsg 0 false 0 0x40 1 [] with nc := true }); (wArrives ⟨.rd, 0, false, 0, false⟩ s l m) && (let r := plaReq s l m .read false none; decide (l.val = 18 → guestMay s r = true) && decide (ringMay s l m r = true) && decide (s.hub.stalled = []) && decide (refusal s r = none) && decide (effShared s r.shared r.mpa.toNat = false) && decide (mpaPoisoned s r.mpa.toNat r.len = false)))))) &&
  ((let s : State := wPla; (let l : Fin 19 := 18; (let m : PlaMsg := ({ wMsg 0 false 1 0x40000 0 (w64 5) with nc := true }); (wArrives ⟨.wr, 0, false, 1, true⟩ s l m) && (let r := plaReq s l m .write false none; decide (l.val = 18 → guestMay s r = true) && decide (ringMay s l m r = true) && decide (s.hub.stalled = []) && decide (staleUnit s r = none) && decide (refusal s r = none) && decide (sleepingStore s r = none) && decide (effShared s r.shared r.mpa.toNat = false) && decide (m.poison = 0) && decide (migrationStalls s r.mpa.toNat m.data.length = false) && decide (s.hub.breach = []) && decide (Memory.wf s.mem = true) && ((List.range m.data.length).all (fun i => (List.range m.data.length).all (fun j => decide (i = j) || !decide (locate s (r.mpa.toNat + i) = locate s (r.mpa.toNat + j))))) && true))))) &&
  ((let s : State := (wReg wPla (rEngPwr 0) [(fEngPwrState, 3)]); (let l : Fin 19 := 0; (let m : PlaMsg := ({ wMsg 0 false 1 (sramAddr 0 0) 0 (w64 5) with nc := true }); (let c : Instr := (.wr l m); (let r : MemReq := (plaReq s l m .write false none); (wArrives ⟨.wr, 0, false, 1, true⟩ s l m) && decide (l.val = 18 → guestMay s r = true) && decide (ringMay s l m r = true) && (match sleepingStore s r with | some e => true | _ => false))))))) &&
  ((let s : State := wPla; (let l : Fin 19 := 18; (let m : PlaMsg := ({ wMsg 0 false 1 0x40000 0 (w64 5) with nc := true }); (let c : Instr := (.wr l m); (let r : MemReq := (plaReq s l m .write false none); (wArrives ⟨.wr, 0, false, 1, true⟩ s l m) && decide (l.val = 18 → guestMay s r = true) && decide (ringMay s l m r = true) && decide (sleepingStore s r = none) && (match serve (takeCredits s l m) r with | (s2, o) => ((match o with | .stalled _ => false | _ => true)) && true))))))) &&
  ((let s : State := wPla; (let l : Fin 19 := 18; (let m : PlaMsg := ({ wMsg 0 false 1 0x200000 0 (w64 5) with nc := true }); (let c : Instr := (.wr l m); (let r : MemReq := (plaReq s l m .write false none); (wArrives ⟨.wr, 0, false, 1, true⟩ s l m) && decide (l.val = 18 → guestMay s r = true) && decide (ringMay s l m r = true) && decide (sleepingStore s r = none) && (match serve (takeCredits s l m) r with | (s2, o) => (match o with | .stalled id => true | _ => false)))))))) &&
  ((let s : State := wPla; (let m : PlaMsg := (wMsg 0 false 1 0x10000000 0 (w64 5)); (wArrives ⟨.wr, 0, false, 1, true⟩ s 18 m) && decide (guestMay s (plaReq s 18 m .write false none) = false)))) &&
  ((plaRows).any (fun r => (let s : State := State.reset; (let l : Fin 19 := 0; (let m : PlaMsg := (wHello 0); decide (linkState s l = lkDown ∨ linkState s l = lkFailed ∨ (link s l).inReset = true) && decide (l.val ≠ 18 ∨ s.d2d.removed.elem 11 = false ∨ m.rsp = true)))))) &&
  ((plaRows).any (fun r => (let s : State := wRemoved; (let l : Fin 19 := 18; (let m : PlaMsg := (wHello 0); decide (linkState s l = lkDown ∨ linkState s l = lkFailed ∨ (link s l).inReset = true) && decide (l.val = 18) && decide (s.d2d.removed.elem 11 = true) && decide (m.rsp = false))))))) = true := by decide +kernel

theorem witness_DieResponsesInterruptsAndRequests : (
  ((plaResponses).any (fun r => (let s : State := wPla; (let l : Fin 19 := 0; (let m : PlaMsg := (wMsg 0 true 0 0 0 (w64 5)); (wArrives r s l m) && decide (∀ x ∈ (link s l).outReq, x.1 ≠ m.tag.toNat)))))) &&
  ((plaResponses).any (fun r => (let s : State := (wAsked 0); (let l : Fin 19 := 16; (let m : PlaMsg := (wMsg 0 true 0 0 0 (w64 5)); (wArrives r s l m) && (let k := 0; decide ((link s l).outReq.find? (fun x => decide (x.1 = m.tag.toNat)) = some (m.tag.toNat, k)))))))) &&
  ((let s : State := wPla; (let l : Fin 19 := 0; (let m : PlaMsg := (wMsg 2 false 0 imsicBase 0 []); (wArrives ⟨.msi, 2, false, 0, false⟩ s l m) && decide (l.val = 18 → guestFile s m = true) && decide ((link s l).msiHeld = []) && decide (waitingWrites s l = []) && (match imsicFile m.addr.toNat with | some (c, f) => true | _ => false))))) &&
  ((let s : State := wMsiWait; (let l : Fin 19 := 16; (let m : PlaMsg := (wMsg 2 false 0 imsicBase 0 []); (wArrives ⟨.msi, 2, false, 0, false⟩ s l m) && decide (l.val = 18 → guestFile s m = true) && decide ((link s l).msiHeld = []) && decide (waitingWrites s l ≠ []))))) &&
  ((let s : State := wPla; (let m : PlaMsg := (wMsg 2 false 0 (imsicBase + 2 ^ 24) 0 []); (wArrives ⟨.msi, 2, false, 0, false⟩ s 18 m) && decide (guestFile s m = false)))) &&
  ((let s : State := wPla; (let l : Fin 19 := 18; (let m : PlaMsg := (wMsg 3 false 0 0x11 0 []); decide (linkDm s l = none) && decide (debugLevel s ≠ 2) && (wArrives ⟨.dmiRd, 3, false, 0, false⟩ s l m))))) &&
  ((let s : State := wPla; (let l : Fin 19 := 18; (let m : PlaMsg := (wMsg 3 false 1 0x11 0 (w64 5)); decide (linkDm s l = none) && decide (debugLevel s ≠ 2) && (wArrives ⟨.dmiWr, 3, false, 1, true⟩ s l m))))) &&
  ((let s : State := (wLk (wDebugOn 0) 18 lkUp); (let l : Fin 19 := 18; (let m : PlaMsg := (wMsg 3 false 0 0x11 0 []); decide (linkDm s l = none) && decide (debugLevel s = 2) && (wArrives ⟨.dmiRd, 3, false, 0, false⟩ s l m))))) &&
  ((let s : State := (wLk (wDebugOn 0) 18 lkUp); (let l : Fin 19 := 18; (let m : PlaMsg := (wMsg 3 false 1 0x11 0 (w64 5)); decide (linkDm s l = none) && decide (debugLevel s = 2) && (wArrives ⟨.dmiWr, 3, false, 1, true⟩ s l m))))) &&
  ((let s : State := wPla; (let l : Fin 19 := 16; (let m : PlaMsg := (wMsg 3 false 0 0x11 0 []); (match linkDm s l with | some dm => (wArrives ⟨.dmiRd, 3, false, 0, false⟩ s l m) && (match dmiAccess (takeCredits s l m) dm (m.addr.toNat % 128) 1 (u32At m.data 0) with | (s2, v, r) => true) | _ => false))))) &&
  ((let s : State := wPla; (let l : Fin 19 := 16; (let m : PlaMsg := (wMsg 3 false 1 0x11 0 (w64 5)); (match linkDm s l with | some dm => (wArrives ⟨.dmiWr, 3, false, 1, true⟩ s l m) && (match dmiAccess (takeCredits s l m) dm (m.addr.toNat % 128) 2 (u32At m.data 0) with | (s2, v, r) => true) | _ => false))))) &&
  ((plaRows).any (fun r => decide (r.chan = 4) && decide (r.rsp = false) && (let s : State := wPla; (let l : Fin 19 := 0; (let m : PlaMsg := (wMsg 4 false 2 0 0 []); (wArrives r s l m))))))) = true := by decide +kernel

theorem witness_CoherenceCommandsAndHolds : (
  ((let s : State := wPla; (let l : Fin 19 := 18; (let m : PlaMsg := (wMsg 1 false 0 0x800 0 []); decide (presenceBit (plaSource l m) = none) && (wArrives ⟨.rdShared, 1, false, 0, false⟩ s l m))))) &&
  ((let s : State := wPla; (let l : Fin 19 := 18; (let m : PlaMsg := (wMsg 1 false 1 0x800 0 []); decide (presenceBit (plaSource l m) = none) && (wArrives ⟨.rdOwn, 1, false, 1, false⟩ s l m))))) &&
  ((let s : State := wCoh; (let l : Fin 19 := 16; (let m : PlaMsg := (wMsg 1 false 2 0x480 0 []); (wArrives ⟨.snpInv, 1, false, 2, false⟩ s l m) && (match dirFind s (m.addr.toNat / 64) with | some d => decide (d.pv ≠ []) && decide (∀ b ∈ d.pv, reaches s l (bitLink b) = true) && decide (d.owned = true) && (match d.data with | some bs => decide (heldLine s none (m.addr.toNat / 64) = false) | _ => false) | _ => false))))) &&
  ((let s : State := wCoh; (let l : Fin 19 := 16; (let m : PlaMsg := (wMsg 1 false 3 0x480 0 []); (wArrives ⟨.snpFwd, 1, false, 3, false⟩ s l m) && (match dirFind s (m.addr.toNat / 64) with | some d => decide (∃ b ∈ d.pv, reaches s l (bitLink b) = true) && decide (d.owned = true) && (match d.data with | some bs => decide (heldLine s none (m.addr.toNat / 64) = false) | _ => false) | _ => false))))) &&
  ((let s : State := wPla; (let l : Fin 19 := 0; (let m : PlaMsg := (wMsg 1 false 2 0x440 0 []); decide (dirFind s (m.addr.toNat / 64) = none) && (wArrives ⟨.snpInv, 1, false, 2, false⟩ s l m))))) &&
  ((let s : State := wPla; (let l : Fin 19 := 0; (let m : PlaMsg := (wMsg 1 false 3 0x440 0 []); decide (dirFind s (m.addr.toNat / 64) = none) && (wArrives ⟨.snpFwd, 1, false, 3, false⟩ s l m))))) &&
  ((let s : State := wCoh; (let l : Fin 19 := 16; (let m : PlaMsg := (wMsg 1 false 4 (16 * 64) 0 (w64 1)); (wArrives ⟨.wb, 1, false, 4, true⟩ s l m) && (match presenceBit (plaSource l m) with | some b => (match dirFind s (m.addr.toNat / 64) with | some d => decide (s.hub.breach = []) && decide (s.hub.stalled = []) && decide (d.owned = false) | _ => false) | _ => false))))) &&
  ((let s : State := State.reset; (let line : BitVec 44 := 0; decide (s.hub.stalled = []) && decide (dirFind s line.toNat = none ∨ ∃ d, dirFind s line.toNat = some d ∧ (d.hold = none ∨ ∃ h, d.hold = some h ∧ s.time < h))))) &&
  ((let s : State := wCohLate; (let line : BitVec 44 := 17; (match dirFind s line.toNat with | some d => (match d.hold with | some h => decide (h ≤ s.time) | _ => false) | _ => false)))) &&
  ((let s : State := wCohLate; (let line : BitVec 44 := 17; (match dirFind s line.toNat with | some d => (match d.hold with | some h => decide (h ≤ s.time) && decide (d.waiters = []) && (wHubIdle s) | _ => false) | _ => false))))) = true := by decide +kernel

theorem witness_BiasChangesRunInOrder : (
  ((let s : State := (wBias 1 true 0); (let ag : Agent := (.core 0 .m); (let a : BitVec 16 := 0; (let all : Bool := false; (let sh : Bool := false; decide (regRight s ag rDirBiasReq.key = true) && decide (s.hub.biasQ.length < 4) && (let base := getF s rDirBiasSpan fDirBiasSpanStart * 65536; (let n := getF s rDirBiasLen fDirBiasLenLength * 65536; decide (spanRegion s base n = some .bulk))))))))) &&
  ((let s : State := (wBias 4 true 0); (let ag : Agent := (.core 0 .m); (let a : BitVec 16 := 0; (let all : Bool := false; (let sh : Bool := false; decide (regRight s ag rDirBiasReq.key = true) && decide (4 ≤ s.hub.biasQ.length ∨ spanRegion s (getF s rDirBiasSpan fDirBiasSpanStart * 65536) (getF s rDirBiasLen fDirBiasLenLength * 65536) = some .flash))))))) &&
  ((let s : State := State.reset; decide (s.hub.biasQ = []))) &&
  ((let s : State := (wBias 2 true 0x200000); (match s.hub.biasQ with | b :: l => decide (migrationStalls s b.start b.len = true) | _ => false))) &&
  ((let s : State := wBiasFlush; (match s.hub.biasQ with | b :: l => decide (migrationStalls s b.start b.len = false) && (wNoneAwaits s) && decide (biasFlushing (pumpFlushes (biasFlush s b l)) = true) | _ => false))) &&
  ((let s : State := (wBias 1 false 0); (match s.hub.biasQ with | b :: l => decide (migrationStalls s b.start b.len = false) && (wNoneAwaits s) && decide (biasFlushing (pumpFlushes (biasFlush s b l)) = false) && decide (b.toShared = true ∨ ∀ d ∈ s.hub.dir, inBias b d.line = true → heldLine s none d.line = false) | _ => false)))) = true := by decide +kernel

theorem witness_ConnectionsBetweenDies_1 : (
  ((let s : State := State.reset; (let l : Fin 19 := 0; decide (linkState s l = lkDown) && decide ((link s l).inReset = false) && decide (s.pow.testSel ≠ 2) && decide (siteFitted l = true)))) &&
  ((let s : State := wPla; (let l : Fin 19 := 0; decide (linkState s l ≠ lkDown)))) &&
  ((let s : State := (wLate' wLkFailed); (let l : Fin 19 := 0; (match (link s l).failedAt with | some t0 => decide (linkState s l = lkFailed) && decide ((link s l).inReset = false) && decide (t0 + oneSecond ≤ s.time) | _ => false)))) &&
  ((let s : State := wLkFailed; (let l : Fin 19 := 0; (match (link s l).failedAt with | some t0 => decide (linkState s l = lkFailed) && decide ((link s l).inReset = false) && decide (s.time < t0 + oneSecond) | _ => false)))) &&
  ((let s : State := (wTrain false); (let l : Fin 19 := 0; (let m : PlaMsg := (wHello 0); decide (linkState s l = lkTraining) && decide ((link s l).inReset = false) && decide (plaSpells m 4 false 0 true = true) && decide (m.parity = .ok) && decide ((link s l).heard = none) && decide (l.val ≠ 18) && decide (agreedChannels s l m.data ≠ 0))))) &&
  ((let s : State := (wTrain false); (let l : Fin 19 := 0; (let m : PlaMsg := (wMsg 4 false 0 0 0 (w64 0)); decide (linkState s l = lkTraining) && decide ((link s l).inReset = false) && decide (plaSpells m 4 false 0 true = true) && decide (m.parity = .ok) && decide ((link s l).heard = none) && decide (agreedChannels s l m.data = 0))))) &&
  ((let s : State := (wTrain true); (let l : Fin 19 := 0; (let m : PlaMsg := (wHello 1); decide (linkState s l = lkTraining) && decide ((link s l).inReset = false) && decide (plaSpells m 4 false 1 true = true) && decide (m.parity = .ok) && decide ((link s l).heard.isSome = true) && decide (l.val ≠ 18) && decide (s.d2d.removed = []) && decide (u8At m.data 4 % 32 ≠ 0))))) &&
  ((let s : State := (wTrain false); (let l : Fin 19 := 0; (let m : PlaMsg := (wHello 1); decide (linkState s l = lkTraining) && decide ((link s l).inReset = false) && decide (plaSpells m 4 false 1 true = true) && decide (m.parity = .ok) && decide ((link s l).heard = none ∨ l.val = 18))))) &&
  ((let s : State := (wLate' (wTrain true)); (let l : Fin 19 := 0; (match (link s l).activeAt with | some t0 => decide (linkState s l = lkTraining) && decide (t0 + objNat s oDiscoveryTimeout * oneMs ≤ s.time) | _ => false)))) &&
  ((let s : State := (wTrain false); (let l : Fin 19 := 0; (match (link s l).activeAt with | some t0 => decide (linkState s l = lkTraining) && decide (s.time < t0 + objNat s oDiscoveryTimeout * oneMs) | _ => false)))) &&
  ((let s : State := wPla; (let l : Fin 19 := 0; (let mod : Fin 4 := 0; decide (bitOf (getF s (rPlaLinkState l) fPlaLinkStateModulesUp) mod = true) && decide (s.rel.repairMap.length < repairCap))))) &&
  ((let s : State := State.reset; (let l : Fin 19 := 0; (let mod : Fin 4 := 0; decide (bitOf (getF s (rPlaLinkState l) fPlaLinkStateModulesUp) mod = false)))))) = true := by decide +kernel

theorem witness_ConnectionsBetweenDies_2 : (
  ((let s : State := State.reset; (let l : Fin 19 := 0; (let mod : Fin 4 := 0; (let n : Nat := 0; decide (bitOf (getF s (rPlaLinkState l) fPlaLinkStateModulesUp) mod = false)))))) &&
  ((let s : State := wPla; (let l : Fin 19 := 0; (let mod : Fin 4 := 0; (let n : Nat := 2; decide (bitOf (getF s (rPlaLinkState l) fPlaLinkStateModulesUp) mod = true) && decide (s.rel.repairMap.length + n ≤ repairCap)))))) &&
  ((let s : State := wNoModule; (let l : Fin 19 := 0; decide (linkState s l = lkUp ∨ linkState s l = lkTraining) && decide (getF s (rPlaLinkState l) fPlaLinkStateModulesUp = 0)))) &&
  ((let s : State := wPla; (let l : Fin 19 := 0; decide (linkState s l = lkUp ∨ linkState s l = lkTraining) && decide (getF s (rPlaLinkState l) fPlaLinkStateModulesUp ≠ 0)))) &&
  ((let s : State := wLkFailed; (let d : Fin 12 := 0; decide (dieLost s d = true)))) &&
  ((let s : State := State.reset; (let d : Fin 12 := 0; decide (dieLost s d = false)))) &&
  ((let s : State := wGuestBad; decide (linkState s 18 = lkUp) && decide (guestLost s = true))) &&
  ((let s : State := State.reset; decide (linkState s 18 ≠ lkUp ∨ guestLost s = false)))) = true := by decide +kernel

theorem witness_FramesAreAdmittedAndDeliveredOnce : (
  ((frameRows).any (fun x => (let s : State := State.reset; (let f : Frame := (wWr 0 0x9000); decide (f.opcode.toNat = x.2) && decide (f.cls.toNat ≤ 2) && decide (s.fab.ready = false ∨ portState s f.plane ≠ 2))))) &&
  ((frameRows).any (fun x => (let s : State := wFab; (let f : Frame := ({ wWr 0 0x9000 with icrcOk := false }); decide (f.opcode.toNat = x.2) && decide (f.cls.toNat ≤ 2) && decide (s.fab.ready = true) && decide (portState s f.plane = 2) && decide (direct s = false) && decide (f.icrcOk = false))))) &&
  ((frameRows).any (fun x => (let s : State := wFab; (let f : Frame := ({ wWr 0 0x9000 with hurtField := true }); decide (f.opcode.toNat = x.2) && decide (f.cls.toNat ≤ 2) && decide (s.fab.ready = true) && decide (portState s f.plane = 2) && decide (direct s = false) && decide (f.icrcOk = true) && decide (f.hurtField = true))))) &&
  ((frameRows).any (fun x => (let s : State := wFab; (let f : Frame := ({ wWr 0 0x9000 with conn := 4 }); decide (f.opcode.toNat = x.2) && decide (f.cls.toNat ≤ 2) && decide (s.fab.ready = true) && decide (portState s f.plane = 2) && decide (direct s = false) && decide (f.icrcOk = true) && decide (f.hurtField = false) && decide (f.hurt = []) && decide (s.fab.held = []) && decide ((conn s f.conn.toNat).open_ = false))))) &&
  ((frameRows).any (fun x => (let s : State := wFab; (let f : Frame := ({ wWr 0 0x9000 with enc := true }); decide (f.opcode.toNat = x.2) && decide (f.cls.toNat ≤ 2) && decide (s.fab.ready = true) && decide (portState s f.plane = 2) && decide (direct s = false) && decide (f.icrcOk = true) && decide (f.hurtField = false) && decide (f.hurt = []) && decide (s.fab.held = []) && decide ((conn s f.conn.toNat).open_ = true) && decide ((conn s f.conn.toNat).enc ≠ f.enc ∨ (f.enc = true ∧ f.gcmOk = false)))))) &&
  ((frameRows).any (fun x => (let s : State := wFenced; (let f : Frame := (wWr 3 0x9000); (match wReach s f (x.2) with | some t => decide ((arrivedPsns t f.conn.toNat).elem f.psn.toNat = true) | _ => false))))) &&
  ((frameRows).any (fun x => (let s : State := wFab; (let f : Frame := (wWr 100 0x9000); (match wReach s f (x.2) with | some t => decide (psnAhead (conn t f.conn.toNat) f < 2 ^ 23) && decide ((arrivedPsns t f.conn.toNat).elem f.psn.toNat = false) && decide (2 ^ (conn t f.conn.toNat).winLog2 ≤ psnAhead (conn t f.conn.toNat) f) | _ => false))))) &&
  ((frameRows).any (fun x => (let s : State := wFab; (let f : Frame := ({ wWr 2 0x9000 with fence := true }); (match wReach s f (x.2) with | some t => decide (f.fence = true) && decide (0 < psnAhead (conn t f.conn.toNat) f) && decide (psnAhead (conn t f.conn.toNat) f < 2 ^ 23) && decide (psnAhead (conn t f.conn.toNat) f < 2 ^ (conn t f.conn.toNat).winLog2) && decide ((arrivedPsns t f.conn.toNat).elem f.psn.toNat = false) | _ => false))))) &&
  ((frameRows).any (fun x => (let s : State := wFab; (let f : Frame := ({ wWr 0 0x9000 with srcPeer := 0x4009 }); (match wReach s f (x.2) with | some t => decide (psnAhead (conn t f.conn.toNat) f < 2 ^ 23) && decide (psnAhead (conn t f.conn.toNat) f < 2 ^ (conn t f.conn.toNat).winLog2) && decide ((arrivedPsns t f.conn.toNat).elem f.psn.toNat = false) && decide (f.fence = true → psnAhead (conn t f.conn.toNat) f = 0) && decide (f.opcode ≠ 0x06) && decide (inDomain t f.srcPeer.toNat = false) | _ => false))))) &&
  ((frameRows).any (fun x => (let s : State := (wFetch true); (let f : Frame := (wWr 0 0x9000); decide (f.opcode.toNat = x.2) && decide (f.cls.toNat ≤ 2) && decide (f.hurt = []) && (match takeIn s f with | (s1, true) => (match admitConn (retryHeld s1) f with | (s2, true) => (match useCtx s2 f.conn.toNat with | (t, false) => true | _ => false) | _ => false) | _ => false)))))) = true := by decide +kernel

theorem witness_PeerMemoryRequests : (
  ((let s : State := wFab; (let f : Frame := (wWr 0 (2 ^ 41)); (let c : Instr := (.write f); (match wReach s f (0x01) with | some t => (wApplies t f) && (match memOpOf f with | some (op, n) => (match serveMem t (connReq t f.conn.toNat op.writes op.reads) (f.addr.toNat % 2 ^ 48) n op with | (u, .nack va cause p) => true | _ => false) | _ => false) | _ => false))))) &&
  ((let s : State := wGran; (let f : Frame := (wWr 0 0x200000); (let c : Instr := (.write f); (match wReach s f (0x01) with | some t => (wApplies t f) && (match memOpOf f with | some (op, n) => (match serveMem t (connReq t f.conn.toNat op.writes op.reads) (f.addr.toNat % 2 ^ 48) n op with | (u, .wait ps) => true | _ => false) | _ => false) | _ => false))))) &&
  ((let s : State := wFab; (let f : Frame := { wAt 0x9000 with payload := [7] }; (let c : Instr := (.atomicReq f); (match wReach s f (0x04) with | some t => (wApplies t f) && decide (memOpOf f = none) | _ => false))))) &&
  ((let s : State := wFab; (let f : Frame := (wWr 0 0x9000); (let c : Instr := (.write f); (match wReach s f (0x01) with | some t => (wApplies t f) && decide (c = .write f) && (match xlate t (connReq t f.conn.toNat true false) (f.addr.toNat % 2 ^ 48) f.payload.length with | (u, .ok ps) => decide (f.bad = []) | _ => false) | _ => false))))) &&
  ((let s : State := wFab; (let f : Frame := (wRd 0x9000); (let c : Instr := (.readReq f); (match wReach s f (0x02) with | some t => (wApplies t f) && decide (c = .readReq f) && (match xlate t (connReq t f.conn.toNat false true) (f.addr.toNat % 2 ^ 48) (u64At f.payload 0) with | (u, .ok ps) => true | _ => false) | _ => false))))) &&
  ((let s : State := wFab; (let f : Frame := (wAt 0x9000); (let c : Instr := (.atomicReq f); (match wReach s f (0x04) with | some t => (wApplies t f) && decide (c = .atomicReq f) && (match memOpOf f with | some (op, n) => (match serveMem t (connReq t f.conn.toNat op.writes op.reads) (f.addr.toNat % 2 ^ 48) n op with | (u, .done data bad) => true | _ => false) | _ => false) | _ => false)))))) = true := by decide +kernel

theorem witness_OperationPacketsAreTaken_1 : (
  ((let s : State := wFab; (let f : Frame := (wFr 0 3 0 0 [1]); (match wReach s f (0x03) with | some t => (wApplies t f) | _ => false)))) &&
  ((let s : State := wFab; (let f : Frame := (wFr 0 5 0 0 [1]); (match wReach s f (0x05) with | some t => (wApplies t f) | _ => false)))) &&
  ((let s : State := wFab; (let f : Frame := (wFr 0 16 0 0 [1]); (match wReach s f (0x10) with | some t => (wApplies t f) | _ => false)))) &&
  ((let s : State := wFab; (let f : Frame := (wSend 1 6 0); (match wReach s f (0x06) with | some t => (wApplies t f) && decide (sendVerdict t f.conn.toNat f = 0) | _ => false)))) &&
  ((let s : State := wFab; (let f : Frame := (wSend 5 6 0); (match wReach s f (0x06) with | some t => (wApplies t f) && decide (sendVerdict t f.conn.toNat f = 0x20) && decide (t.eng.bobs = []) | _ => false)))) &&
  ((let s : State := wFab; (let f : Frame := (wSend 1 0 0); (match wReach s f (0x06) with | some t => (wApplies t f) && decide (sendVerdict t f.conn.toNat f = 0x23) | _ => false)))) &&
  ((let s : State := wFab; (let f : Frame := (wSend 1 200 0); (match wReach s f (0x06) with | some t => (wApplies t f) && decide (sendVerdict t f.conn.toNat f = fRefused) | _ => false)))) &&
  ((let s : State := wFab; (let f : Frame := (wFr 0 0x11 0 0 [1]); (match wReach s f (0x11) with | some t => (wApplies t f) | _ => false)))) &&
  ((let s : State := wFab; (let f : Frame := (wFr 0 18 0 0 [1]); (match wReach s f (0x12) with | some t => (wApplies t f) | _ => false)))) &&
  ((let s : State := wFab; (let f : Frame := (wFr 0 20 0 0 [1]); (match wReach s f (0x14) with | some t => (wApplies t f) | _ => false)))) &&
  ((let s : State := wFab; (let f : Frame := (wFr 0 21 0 0 [1]); (match wReach s f (0x15) with | some t => (wApplies t f) | _ => false)))) &&
  ((let s : State := wLand; (let f : Frame := (wFr 0 0x13 0 5 (List.replicate 32 1)); (match wReach s f (0x13) with | some t => (wApplies t f) && (match wholeMsg ((conn t f.conn.toNat).parts ++ [f]) f with | some fs => (match landRow t (conn t f.conn.toNat).part f.group.toNat f.opid.toNat (fs.headD f).addr.toNat { bytes := msgPayload fs, bad := msgBad fs } false with | (u, .landed) => true | _ => false) | _ => false) | _ => false))))) = true := by decide +kernel

theorem witness_OperationPacketsAreTaken_2 : (
  ((let s : State := wFab; (let f : Frame := (wFr 0 0x13 0 0 [1]); (match wReach s f (0x13) with | some t => (wApplies t f) && (match wholeMsg ((conn t f.conn.toNat).parts ++ [f]) f with | some fs => (match landRow t (conn t f.conn.toNat).part f.group.toNat f.opid.toNat (fs.headD f).addr.toNat { bytes := msgPayload fs, bad := msgBad fs } false with | (u, .nack r) => true | _ => false) | _ => false) | _ => false)))) &&
  ((let s : State := wFab; (let f : Frame := ({ wFr 0 0x13 0 0 [1] with last := false }); (match wReach s f (0x13) with | some t => (wApplies t f) && decide (wholeMsg ((conn t f.conn.toNat).parts ++ [f]) f = none) && (match partsBack ((conn t f.conn.toNat).parts ++ [f]) ((conn t f.conn.toNat).parts.length + 2) f.psn.toNat [] with | some front => true | _ => false) | _ => false)))) &&
  ((let s : State := wFab; (let t : State := wFab; (let f : Frame := (wFr 0 0x11 0 0 [1]); (wApplies t f) && (match wholeMsg ((conn t f.conn.toNat).parts ++ [f]) f with | some fs => true | _ => false))))) &&
  ((let s : State := State.reset; (let g : BitVec 16 := 0; (let o : BitVec 16 := 0; decide (∀ c ∈ s.fab.counts, ¬(c.group = g.toNat ∧ c.opid = o.toNat)))))) &&
  ((let s : State := wCountsBad; (let g : BitVec 16 := 0; (let o : BitVec 16 := 0; (match s.fab.counts.find? (fun c => decide (c.group = g.toNat) && decide (c.opid = o.toNat)) with | some c => (match readGroup s c.part g.toNat with | (s2, .bad) => true | _ => false) | _ => false))))) &&
  ((let s : State := wCounts; (let g : BitVec 16 := 0; (let o : BitVec 16 := 0; (let q : Nat := 7; (match s.fab.counts.find? (fun c => decide (c.group = g.toNat) && decide (c.opid = o.toNat)) with | some c => (match readGroup s c.part g.toNat with | (s2, .ok grp) => decide (q ∈ grp.members) && decide (∀ y ∈ countsOf s c.part g.toNat o.toNat, y.peer ≠ q) | _ => false) | _ => false)))))) &&
  ((let s : State := wCountsAll; (let g : BitVec 16 := 0; (let o : BitVec 16 := 0; (match s.fab.counts.find? (fun c => decide (c.group = g.toNat) && decide (c.opid = o.toNat)) with | some c => (match readGroup s c.part g.toNat with | (s1, .ok grp) => (grp.members.all (fun q => (countsOf s c.part g.toNat o.toNat).any (fun y => decide (y.peer = q)))) && (let cs := countsOf s c.part g.toNat o.toNat; (let plans := (countIdxs cs).map (landPlan s1 cs grp.members); decide (plans.all (fun p => p.ready s1) = true) && (match plansReach s1 c.part plans with | (s2, none) => true | _ => false))) | _ => false) | _ => false))))) &&
  ((let s : State := State.reset; (let id : Nat := 0; decide (∀ q ∈ s.fab.combQ, q.id ≠ id)))) &&
  ((let s : State := wCombQ; (let id : Nat := 8; (match s.fab.combQ.find? (fun y => decide (y.id = id)) with | some q => decide (landEntry s q.idx = none) | _ => false)))) &&
  ((let s : State := (wCombOf 4); (let id : Nat := 8; (match s.fab.combQ.find? (fun y => decide (y.id = id)) with | some q => (match landEntry s q.idx with | some x => ((match ownComb s q with | some y => decide (y.2.phase = .started ∧ y.2.stall = .none) | none => true)) && (match xlate (landTouch s q.idx) (landReq s q.part x.astag false) x.doneVa 8 with | (s1, .ok ds) => decide (leNat (piecesRead s1 ds) < q.need) | _ => false) | _ => false) | _ => false)))) &&
  ((let s : State := (wCombOf 0); (let id : Nat := 8; (match s.fab.combQ.find? (fun y => decide (y.id = id)) with | some q => (match landEntry s q.idx with | some x => ((match ownComb s q with | some y => decide (y.2.phase = .started ∧ y.2.stall = .none) | none => true)) && (match xlate (landTouch s q.idx) (landReq s q.part x.astag false) x.doneVa 8 with | (s1, .ok ds) => decide (q.need ≤ leNat (piecesRead s1 ds)) && (match xlate s1 (landReq s q.part x.astag false) (x.outVa + q.first * x.outPitch) (combSpan q x) with | (s2, .ok ps) => true | _ => false) | _ => false) | _ => false) | _ => false))))) = true := by decide +kernel

theorem witness_AcknowledgementsAndRetries_1 : (
  ((let s : State := (wDm wFlight); (let f : Frame := (wAckF 5 0); decide (f.cls = 3) && decide (f.opcode ≠ 0x31) && (match takeIn s f with | (t, true) => decide ((conn t f.conn.toNat).open_ = true) && decide ((conn t f.conn.toNat).closing = false) && decide ((conn t f.conn.toNat).outQ = []) && decide (direct t = true) && decide (∀ x ∈ (conn t f.conn.toNat).inflight, x.owner = 0 ∧ x.again = false) | _ => false)))) &&
  ((let s : State := (wDm wFlight); (let f : Frame := (wAckF 5 0); decide (f.cls = 3) && decide (f.opcode ≠ 0x31) && (match takeIn s f with | (t, true) => decide ((conn t f.conn.toNat).open_ = true) | _ => false)))) &&
  ((let s : State := State.reset; (let f : Frame := (wSend 1 6 0); decide (f.cls ≠ 3 ∨ f.opcode = 0x31)))) &&
  ((let s : State := wFlight; (let f : Frame := (wNackF 0x23); decide (f.cls = 4) && (match takeIn s f with | (t, true) => (match nackConn t f with | some id => (match (conn t id).inflight.find? (fun x => decide (x.frame.psn = f.psn) && decide (x.frame.opcode = f.opcode)) with | some x => decide (f.reason = 0x23) && decide (∀ r ∈ t.fab.retries, ¬(r.conn = id ∧ r.psn = f.psn.toNat)) | _ => false) | _ => false) | _ => false)))) &&
  ((let s : State := wFlight; (let f : Frame := ({ wNackF 0x20 with opcode := 1 }); decide (f.cls = 4) && (match takeIn s f with | (t, true) => (match nackConn t f with | some id => (match (conn t id).inflight.find? (fun x => decide (x.frame.psn = f.psn) && decide (x.frame.opcode = f.opcode)) with | some x => decide (f.reason ≠ 0x23) | _ => false) | _ => false) | _ => false)))) &&
  ((let s : State := wFlight; (let f : Frame := ({ wNackF 0x20 with opcode := 1, psn := 77 }); decide (f.cls = 4) && (match takeIn s f with | (t, true) => (match nackConn t f with | some id => decide ((conn t id).inflight.find? (fun x => decide (x.frame.psn = f.psn) && decide (x.frame.opcode = f.opcode)) = none) | _ => false) | _ => false)))) &&
  ((let s : State := State.reset; (let f : Frame := (wSend 1 6 0); decide (f.cls ≠ 4)))) &&
  ((let s : State := (wRetries 10000); (let id : Nat := 2; (match s.fab.retries.find? (fun r => decide (r.id = id)) with | some r => decide (r.since + 10000 ≤ s.time) | _ => false)))) &&
  ((let s : State := (wRetries 0); (let id : Nat := 2; (match s.fab.retries.find? (fun r => decide (r.id = id)) with | some r => decide (s.time < r.since + 10000) | _ => false)))) &&
  ((let s : State := wFlight; (let c : BitVec 16 := 3; decide ((conn (retryHeld s) c.toNat).open_ = true) && decide (0 < (conn (retryHeld s) c.toNat).ackDue)))) &&
  ((let s : State := State.reset; (let c : BitVec 16 := 3; decide (s.fab.held = []) && decide ((conn s c.toNat).open_ = false)))) &&
  ((let s : State := wFlight; (let c : BitVec 16 := 3; (let p : Fin 16 := 0; (match (conn s c.toNat).inflight.find? (fun y => decide (y.frame.plane = p)) with | some y => decide (direct s = true ∨ s.time < y.sent + rtoOf s (conn s c.toNat) p.val * 1000) | _ => false)))))) = true := by decide +kernel

theorem witness_AcknowledgementsAndRetries_2 : (
  ((let s : State := (wOld wFlight); (let c : BitVec 16 := 3; (let p : Fin 16 := 0; (match (conn s c.toNat).inflight.find? (fun y => decide (y.frame.plane = p)) with | some y => decide (direct s = false) && decide (y.sent + rtoOf s (conn s c.toNat) p.val * 1000 ≤ s.time) && decide (y.frame.psn.toNat < 2 ^ 24) | _ => false)))))) = true := by decide +kernel

theorem witness_PortsAndTheirLinkLayer_1 : (
  ((let s : State := State.reset; (let p : Fin 16 := 0; decide (direct s = false)))) &&
  ((let s : State := (wDm wFab); (let p : Fin 16 := 0; decide (direct s = true) && decide (portState s p = 2) && decide ((port s p).nakSent = false)))) &&
  ((let s : State := (wDm (wPort wFab wPortNak)); (let p : Fin 16 := 0; decide (direct s = true) && decide ((port s p).nakSent = true)))) &&
  ((let s : State := (wDm (wPort wFab wPortBusy)); (let p : Fin 16 := 0; decide (direct s = true) && decide (portState s p = 2) && decide (0 < (port s p).unacked)))) &&
  ((let s : State := State.reset; (let p : Fin 16 := 0; decide (direct s = false ∨ ((port s p).unacked = 0 ∧ (port s p).owed = 0))))) &&
  ((let s : State := State.reset; (let p : Fin 16 := 0; (let f : Frame := (wFr 3 0x30 0 0 []); decide (direct s = false ∨ portState s p ≠ 2))))) &&
  ((let s : State := (wDm wFab); (let p : Fin 16 := 0; (let f : Frame := (wFr 3 0x30 0 0 []); decide (direct s = true) && decide (portState s p = 2))))) &&
  ((let s : State := State.reset; (let p : Fin 16 := 0; (let r : BitVec 2 := 0; decide (portState s p ≠ 2))))) &&
  ((let s : State := State.reset; (let p : Fin 16 := 0; (let r : BitVec 2 := 1; decide (portState s p ≠ 2) && decide (r = 1 ∨ r = 2) && decide (objNat s oLaneRate = 0 ∨ objNat s oLaneRate = r.toNat))))) &&
  ((let s : State := State.reset; (let p : Fin 16 := 0; (let r : BitVec 2 := 0; decide (r = 0 ∨ r = 3 ∨ (objNat s oLaneRate ≠ 0 ∧ objNat s oLaneRate ≠ r.toNat)))))) &&
  ((let s : State := wFab; (let p : Fin 16 := 0; (let r : BitVec 2 := 0; decide (portState s p = 2))))) &&
  ((let s : State := State.reset; (let f : Frame := (wFr 3 0x30 0 0 []); decide (portState s f.plane ≠ 2))))) = true := by decide +kernel

theorem witness_PortsAndTheirLinkLayer_2 : (
  ((let s : State := (wDm wFab); (let f : Frame := (wFr 3 0x30 0 0 []); decide (f.opcode = 0x30) && decide (portState s f.plane = 2) && decide (direct s = true) && (match linkReceive s f with | (t, true) => true | _ => false)))) &&
  ((let s : State := wFab; (let f : Frame := (wFr 0 0x31 0 0 []); decide (f.opcode = 0x31) && decide (portState s f.plane = 2) && decide (direct s = false) && decide (f.cls ≠ 3)))) &&
  ((let s : State := (wDm wFab); (let f : Frame := (wFr 3 0x31 0 0 []); decide (f.opcode = 0x31) && decide (portState s f.plane = 2) && decide (f.cls = 3) && (match linkReceive s f with | (t, true) => true | _ => false)))) &&
  ((let s : State := (wOld wPlaneFailed); (let q : BitVec 16 := 9; (let p : Fin 16 := 0; decide ((peerOf s q.toNat).failed.elem p.val = true) && decide (portState s p = 2) && decide (direct s = false) && decide (mapGet (peerOf s q.toNat).probeAt p.val 0 + 1000000 ≤ s.time))))) &&
  ((let s : State := wPlaneFailed; (let q : BitVec 16 := 9; (let p : Fin 16 := 0; decide ((peerOf s q.toNat).failed.elem p.val = true) && decide (portState s p = 2) && decide (direct s = false) && decide (s.time < mapGet (peerOf s q.toNat).probeAt p.val 0 + 1000000)))))) = true := by decide +kernel

theorem witness_ConnectionsOpenCloseAndTimeOut : (
  ((let s : State := (wOld wPeerDown); (let q : BitVec 16 := 9; (match (peerOf s q.toNat).downSince with | some t0 => decide ((peerPlanes s q.toNat).isEmpty = true) && decide ((peerOf s q.toNat).state ≠ 2) && decide (t0 + objNat s oUnreachableMs * 1000000 ≤ s.time) && decide (s.fab.ops = []) && decide (s.fab.disps = []) && decide (s.fab.combs = []) && decide (s.fab.conns = []) | _ => false)))) &&
  ((let s : State := wPeerDown; (let q : BitVec 16 := 9; (match (peerOf s q.toNat).downSince with | some t0 => decide ((peerPlanes s q.toNat).isEmpty = true) && decide ((peerOf s q.toNat).state ≠ 2) && decide (s.time < t0 + objNat s oUnreachableMs * 1000000) | _ => false)))) &&
  ((let s : State := (wOld wCollOp); (let id : Nat := 3; (match fabOp s id with | some o => decide (o.op ≤ 4) && (match spoolCmd s o.u o.slot with | some c => decide (c.phase ≠ .ended) && decide (o.since + objNat s oCollTimeout * 1000000 ≤ s.time) | _ => false) | _ => false)))) &&
  ((let s : State := wCollOp; (let id : Nat := 3; (match fabOp s id with | some o => decide (o.op ≤ 4) && (match spoolCmd s o.u o.slot with | some c => decide (c.phase ≠ .ended) && decide (s.time < o.since + objNat s oCollTimeout * 1000000) | _ => false) | _ => false)))) &&
  ((let s : State := State.reset; (let c : BitVec 16 := 0; decide ((conn s c.toNat).fetching = false)))) &&
  ((let s : State := (wFetch true); (let c : BitVec 16 := 3; decide ((conn s c.toNat).fetching = true) && decide (s.fab.cached.length < 8192) && decide ((conn s c.toNat).waiting = []) && decide ((conn s c.toNat).outQ = [])))) &&
  ((let s : State := (wReg wFlight rConnTable [(fConnTableBase, (stackBase + 50 * gib) / 4096)]); (let ag : Agent := (.core 0 .m); (let c : BitVec 16 := 3; decide (regRight s ag rConnCtl.key = true) && (let a := getF s rConnTable fConnTableBase * 4096 + 128 * c.toNat; (let b := hubView s a 32; decide (spanRegion s a 128 ≠ some .bulk))))))) &&
  ((let s : State := wTableBad; (let ag : Agent := (.core 0 .m); (let c : BitVec 16 := 4; decide (regRight s ag rConnCtl.key = true) && (let a := getF s rConnTable fConnTableBase * 4096 + 128 * c.toNat; (let b := hubView s a 32; decide (spanRegion s a 128 = some .bulk) && decide (mpaPoisoned s a 32 = true))))))) &&
  ((let s : State := wTable; (let ag : Agent := (.core 0 .m); (let c : BitVec 16 := 4; decide (regRight s ag rConnCtl.key = true) && (let a := getF s rConnTable fConnTableBase * 4096 + 128 * c.toNat; (let b := hubView s a 32; decide (spanRegion s a 128 = some .bulk) && decide (mpaPoisoned s a 32 = false) && decide ((connOf b).open_ = true) && decide ((connOf b).pin = false))))))) &&
  ((let s : State := wFab; (let ag : Agent := (.core 0 .m); (let c : BitVec 16 := 0; decide (regRight s ag rConnCtl.key = true) && decide ((conn s c.toNat).inflight = []) && decide ((conn s c.toNat).outQ = []))))) &&
  ((let s : State := wFlight; (let ag : Agent := (.core 0 .m); (let c : BitVec 16 := 3; decide (regRight s ag rConnCtl.key = true) && decide ((conn s c.toNat).inflight ≠ [])))))) = true := by decide +kernel

theorem witness_StepsAreClosedRaisedAndRejoined : (
  ((let s : State := wJob; (let ag : Agent := (.core 0 .m); (let p : Fin 16 := 0; (let n : BitVec 48 := 5; decide (regRight s ag (rStepCtl p).key = true) && decide (jobEnabled s p = true) && decide (n.toNat = curStep s p) && decide ((job s p).diverged = false) && decide ((job s p).lost = false)))))) &&
  ((let s : State := wJob; (let ag : Agent := (.core 0 .m); (let p : Fin 16 := 0; (let n : BitVec 48 := 0; decide (regRight s ag (rStepCtl p).key = true) && decide (jobEnabled s p = false ∨ n.toNat ≠ curStep s p ∨ (job s p).diverged = true ∨ (job s p).lost = true)))))) &&
  ((let s : State := wJob; (let ag : Agent := (.core 0 .m); (let p : Fin 16 := 0; (let n : BitVec 48 := 0; decide (regRight s ag (rStepCtl p).key = true) && decide (n.toNat < (job s p).awaited)))))) &&
  ((let s : State := wJob; (let ag : Agent := (.core 0 .m); (let p : Fin 16 := 0; (let n : BitVec 48 := 3; decide (regRight s ag (rStepCtl p).key = true) && decide (jobEnabled s p = true) && decide ((job s p).awaited ≤ n.toNat) && decide (n.toNat ≤ curStep s p) && decide ((job s p).voted = none)))))) &&
  ((let s : State := wDiverged; (let ag : Agent := (.core 0 .m); (let p : Fin 16 := 0; (let n : BitVec 48 := 4; decide (regRight s ag (rStepCtl p).key = true) && decide ((job s p).diverged = true) && decide (n.toNat = getF s (rStepStatus p) fStepStatusLastStep)))))) &&
  ((let s : State := wJob; (let ag : Agent := (.core 0 .m); (let p : Fin 16 := 0; (let n : BitVec 48 := 0; decide (regRight s ag (rStepCtl p).key = true) && decide ((job s p).diverged = false ∨ n.toNat ≠ getF s (rStepStatus p) fStepStatusLastStep))))))) = true := by decide +kernel

theorem witness_TheHalyardDecidesSteps_1 : (
  ((let s : State := State.reset; (let p : Fin 16 := 0; decide (∀ c ∈ (job s p).closed, c.done = true)))) &&
  ((let s : State := wMerge; (let p : Fin 16 := 0; (match (job s p).closed with | [c] => decide (c.done = false) && decide ((job s p).awaited ≤ c.step) | _ => false)))) &&
  ((let s : State := State.reset; (let p : Fin 16 := 0; decide ((∀ c ∈ (job s p).closed, c.step ≠ (job s p).awaited) ∨ (job s p).ownVote.isSome = true ∨ jobEnabled s p = false ∨ (∃ c, (job s p).closed.find? (fun c => decide (c.step = (job s p).awaited)) = some c ∧ (c.done = false ∨ stepPending s p c.step ≠ 0)))))) &&
  ((let s : State := wJob; (let p : Fin 16 := 0; (match (job s p).closed.find? (fun c => decide (c.step = (job s p).awaited)) with | some c => decide (jobEnabled s p = true) && decide ((job s p).diverged = false) && decide ((job s p).restore = none) && decide ((job s p).ownVote = none) && decide (c.done = true) && decide (stepPending s p c.step = 0) | _ => false)))) &&
  ((let s : State := (setConn wJob 3 { conn wJob 3 with peer := 0x4009 }); (let f : Frame := { wHaly 32 3 0 with srcPeer := 0x4009 }; (let k : Nat := 32; decide (f.opcode = 32) && decide (f.cls = 2) && (match takeIn s f with | (t, true) => (match admitConn t f with | (u, true) => decide (inDomain u f.srcPeer.toNat = false) && decide (f.opcode = 0x20) | _ => false) | _ => false))))) &&
  ((let s : State := (setConn wJob 3 { conn wJob 3 with peer := 0x4009 }); (let f : Frame := { wHaly 33 3 0 with srcPeer := 0x4009 }; (let k : Nat := 33; decide (f.opcode = 33) && decide (f.cls = 2) && (match takeIn s f with | (t, true) => (match admitConn t f with | (u, true) => decide (inDomain u f.srcPeer.toNat = false) && decide (f.opcode = 0x21) | _ => false) | _ => false))))) &&
  ((let s : State := (wSeen 32); (let f : Frame := (wHaly 32 3 0); (let k : Nat := 32; decide (f.opcode = 32) && decide (f.cls = 2) && (match takeIn s f with | (t, true) => (match admitConn t f with | (u, true) => decide (inDomain u f.srcPeer.toNat = true) && decide ((u8At f.payload 12 % 16, beAt f.payload 0 6, k, f.srcPeer.toNat) ∈ u.fab.halySeen) && decide (f.opcode = 0x20) | _ => false) | _ => false))))) &&
  ((let s : State := (wSeen 33); (let f : Frame := (wHaly 33 3 0); (let k : Nat := 33; decide (f.opcode = 33) && decide (f.cls = 2) && (match takeIn s f with | (t, true) => (match admitConn t f with | (u, true) => decide (inDomain u f.srcPeer.toNat = true) && decide ((u8At f.payload 12 % 16, beAt f.payload 0 6, k, f.srcPeer.toNat) ∈ u.fab.halySeen) && decide (f.opcode = 0x21) | _ => false) | _ => false))))) &&
  ((let s : State := wJob; (let f : Frame := (wHaly 32 3 0); (let k : Nat := 32; decide (f.opcode = 32) && decide (f.cls = 2) && (match takeIn s f with | (t, true) => (match admitConn t f with | (u, true) => decide (inDomain u f.srcPeer.toNat = true) && decide ((u8At f.payload 12 % 16, beAt f.payload 0 6, k, f.srcPeer.toNat) ∉ u.fab.halySeen) | _ => false) | _ => false))))) &&
  ((let s : State := wJob; (let f : Frame := (wHaly 0x20 4 0); (match halyFrame s f 0x20 with | (t, some (p, n)) => decide (jobEnabled t p = false ∨ n ≠ (job t p).awaited) | _ => false)))) &&
  ((let s : State := wJob; (let f : Frame := (wHaly 0x20 3 0); (match halyFrame s f 0x20 with | (t, some (p, n)) => decide (jobEnabled t p = true) && decide (n = (job t p).awaited) && (match voteGroup t p with | (u, some g) => (match (treeKids g.size g.rank).find? (fun r => decide (g.members.getD r 0 = f.srcPeer.toNat)) with | some r => true | _ => false) | _ => false) | _ => false)))) &&
  ((let s : State := wJob; (let f : Frame := (wHaly 0x21 9 6); (match halyFrame s f 0x21 with | (t, some (p, n)) => decide (jobEnabled t p = false ∨ n ≠ (job t p).awaited) | _ => false))))) = true := by decide +kernel

theorem witness_TheHalyardDecidesSteps_2 : (
  ((let s : State := wJob; (let f : Frame := (wHaly 0x21 3 2); (match halyFrame s f 0x21 with | (t, some (p, n)) => decide (jobEnabled t p = true) && decide (n = (job t p).awaited) && decide (1 ≤ u8At f.payload 6 / 2 % 8) && decide (u8At f.payload 6 / 2 % 8 ≤ 3) | _ => false)))) &&
  ((let s : State := (wVoted (10 ^ 13)); (let p : Fin 16 := 0; (match (job s p).firstAt with | some t0 => (match voteGroup s p with | (u, some g) => decide (jobEnabled u p = true) && decide (g.rank = 0) && decide (t0 + objNat u oHalyardTimeout * 1000000 ≤ u.time) | _ => false) | _ => false)))) &&
  ((let s : State := (wVoted 0); (let p : Fin 16 := 0; (match (job s p).firstAt with | some t0 => (match voteGroup s p with | (u, some g) => decide (jobEnabled u p = false ∨ g.rank ≠ 0 ∨ u.time < t0 + objNat u oHalyardTimeout * 1000000) | _ => false) | _ => false)))) &&
  ((let s : State := State.reset; (let p : Fin 16 := 0; decide ((job s p).firstAt = none)))) &&
  ((let s : State := (wVoted (10 ^ 13)); (let p : Fin 16 := 0; (let t0 : Nat := 0; decide ((job s p).voted = some ((job s p).awaited, t0)) && decide ((job s p).ownVote.isSome = true) && decide (jobEnabled s p = true) && decide (t0 + 2 * (objNat s oHalyardTimeout * 1000000) ≤ s.time))))) &&
  ((let s : State := (wVoted 0); (let p : Fin 16 := 0; (let t0 : Nat := 0; decide ((job s p).voted = some (3, 0)) && decide ((job s p).awaited = 3) && decide ((job s p).ownVote.isSome = true) && decide (jobEnabled s p = false ∨ s.time < t0 + 2 * (objNat s oHalyardTimeout * 1000000)))))) &&
  ((let s : State := State.reset; (let p : Fin 16 := 0; (let code : Nat := 1; decide (code = 1 ∨ code = 2) && decide ((job s p).ownVote = none ∨ (job s p).votedLost = false)))))) = true := by decide +kernel

theorem witness_OptimiserAndCheckpoints_1 : (
  ((let s : State := wJob; (let ag : Agent := (.core 0 .m); (let p : Fin 16 := 0; (let view : Bool := false; decide (regRight s ag (rOptArm p).key = true) && decide (optOk (setB s (rOptArm p) fOptArmView view) p = true)))))) &&
  ((let s : State := wOptBad; (let ag : Agent := (.core 0 .m); (let p : Fin 16 := 0; (let view : Bool := false; decide (regRight s ag (rOptArm p).key = true) && decide (optOk (setB s (rOptArm p) fOptArmView view) p = false)))))) &&
  ((let s : State := wHoist; (let p : Fin 16 := 0; (match (job s p).hoists with | st :: l => decide ((job s p).upd = none) && decide ((job s p).restore = none) && decide (updCount s p ≠ 0) | _ => false)))) &&
  ((let s : State := State.reset; (let p : Fin 16 := 0; decide ((job s p).hoists = [] ∨ (job s p).upd.isSome = true ∨ (job s p).restore.isSome = true)))) &&
  ((let s : State := (wJobWith { upd := some { step := 3, seg := 1, hank := 0, amax := [] }, awaited := 5 }); (let p : Fin 16 := 0; (let u := reachSeg s p (updCount s p + 1); decide ((job u p).upd = none))))) &&
  ((let s : State := wUpdWaits; (let p : Fin 16 := 0; (let u := reachSeg s p (updCount s p + 1); (match (job u p).upd with | some x => decide (ckptHolds (job u p) x.step ((segRead u p x.seg).first + x.hank) = true) | _ => false))))) &&
  ((let s : State := (wConsult (wUpd 1)); (let p : Fin 16 := 0; (let u := reachSeg s p (updCount s p + 1); (match (job u p).upd with | some x => decide (ckptHolds (job u p) x.step ((segRead u p x.seg).first + x.hank) = false) && (match gatherReady (hubTouch (ckptWait u p false) (segAddr u p x.seg) 64) p with | (v, b) => decide (b = false)) | _ => false))))) &&
  ((let s : State := (wUpd 1); (let p : Fin 16 := 0; (let u := reachSeg s p (updCount s p + 1); (match (job u p).upd with | some x => decide (ckptHolds (job u p) x.step ((segRead u p x.seg).first + x.hank) = false) && (match gatherReady (hubTouch (ckptWait u p false) (segAddr u p x.seg) 64) p with | (v, b) => decide (b = true) && (match optReach v p (hankSpans (segRead u p x.seg) x.hank) [] with | (w, .ok ps) => true | _ => false)) | _ => false))))) &&
  ((let s : State := (setGran (wUpd 1) 18 { state := 1, frame := 4, astag := 1, part := 0 }); (let p : Fin 16 := 0; (let u := reachSeg s p (updCount s p + 1); (match (job u p).upd with | some x => decide (ckptHolds (job u p) x.step ((segRead u p x.seg).first + x.hank) = false) && (match gatherReady (hubTouch (ckptWait u p false) (segAddr u p x.seg) 64) p with | (v, b) => decide (b = true) && (match optReach v p (hankSpans (segRead u p x.seg) x.hank) [] with | (w, .later) => true | _ => false)) | _ => false))))) &&
  ((let s : State := wUpdFar; (let p : Fin 16 := 0; (let u := reachSeg s p (updCount s p + 1); (match (job u p).upd with | some x => decide (ckptHolds (job u p) x.step ((segRead u p x.seg).first + x.hank) = false) && (match gatherReady (hubTouch (ckptWait u p false) (segAddr u p x.seg) 64) p with | (v, b) => decide (b = true) && (match optReach v p (hankSpans (segRead u p x.seg) x.hank) [] with | (w, .fault) => true | _ => false)) | _ => false))))) &&
  ((let s : State := State.reset; (let p : Fin 16 := 0; decide ((job s p).gather = [])))) &&
  ((let s : State := (wGather true); (let p : Fin 16 := 0; (match (job s p).gather with | (id, true) :: l => decide (owes s id = true) | _ => false))))) = true := by decide +kernel

theorem witness_OptimiserAndCheckpoints_2 : (
  ((let s : State := (wGather false); (let p : Fin 16 := 0; (match (job s p).gather with | (id, true) :: l => decide (owes s id = false) | _ => false)))) &&
  ((let s : State := State.reset; (let p : Fin 16 := 0; decide ((job s p).ckptDue = [] ∨ (job s p).ckpt.isSome = true ∨ flashRuns s = false)))) &&
  ((let s : State := wUpdWaits; (let p : Fin 16 := 0; (match (job s p).ckptDue with | (st, n) :: l => decide ((job s p).ckpt = none) && decide (flashRuns s = true) && (let b := !(job s p).lastSlotB; (let k := updCount s p; (let pages := 1 + tablePages k + gchkPages + hankPages * (allHanks s p k).length; decide (getF s (rCkptCfg p) fCkptCfgSlotPages < pages ∨ Config.flashLogicalBytes < (slotLpn s p b + pages) * pageBytes)))) | _ => false)))) &&
  ((let s : State := (wReg wCkptDue (rCkptCfg 0) [(fCkptCfgSlotPages, 1000000)]); (let p : Fin 16 := 0; (match (job s p).ckptDue with | (st, n) :: l => decide ((job s p).ckpt = none) && decide (flashRuns s = true) && (let b := !(job s p).lastSlotB; (let k := updCount s p; (let pages := 1 + tablePages k + gchkPages + hankPages * (allHanks s p k).length; decide (pages ≤ getF s (rCkptCfg p) fCkptCfgSlotPages) && decide ((slotLpn s p b + pages) * pageBytes ≤ 12 * 2 ^ 40)))) | _ => false)))) &&
  ((let s : State := State.reset; (let p : Fin 16 := 0; decide ((job s p).ckpt = none ∨ flashRuns s = false)))) &&
  ((let s : State := (wCkpt [(0, 0, 1)]); (let p : Fin 16 := 0; (match (job s p).ckpt with | some c => (match c.todo with | (i, k, id) :: l => decide (flashRuns s = true) && (let e := hubView s (ledgerAddr s p id) 16; decide (bitOf (u8At e 12) 0 = false ∨ u64At e 0 ≠ c.step ∨ u32At e 8 ≠ c.optT)) | _ => false) | _ => false)))) &&
  ((let s : State := (wCkpt [(0, 0, 0)]); (let p : Fin 16 := 0; (match (job s p).ckpt with | some c => (match c.todo with | (i, k, id) :: l => decide (flashRuns s = true) && (let e := hubView s (ledgerAddr s p id) 16; decide (bitOf (u8At e 12) 0 = true) && decide (u64At e 0 = c.step) && decide (u32At e 8 = c.optT) && (match optReach s p (ckptSpans (segRead s p i) k false) [] with | (u, .fault) => true | _ => false)) | _ => false) | _ => false)))) &&
  ((let s : State := (wConsult wCkptNear); (let p : Fin 16 := 0; (match (job s p).ckpt with | some c => (match c.todo with | (i, k, id) :: l => decide (flashRuns s = true) && (let e := hubView s (ledgerAddr s p id) 16; decide (bitOf (u8At e 12) 0 = true) && decide (u64At e 0 = c.step) && decide (u32At e 8 = c.optT) && (match optReach s p (ckptSpans (segRead s p i) k false) [] with | (u, .later) => true | _ => false)) | _ => false) | _ => false)))) &&
  ((let s : State := wCkptNear; (let p : Fin 16 := 0; (match (job s p).ckpt with | some c => (match c.todo with | (i, k, id) :: l => decide (flashRuns s = true) && (let e := hubView s (ledgerAddr s p id) 16; decide (bitOf (u8At e 12) 0 = true) && decide (u64At e 0 = c.step) && decide (u32At e 8 = c.optT) && (match optReach s p (ckptSpans (segRead s p i) k false) [] with | (u, .ok ps) => true | _ => false)) | _ => false) | _ => false)))) &&
  ((let s : State := (wCkpt []); (let p : Fin 16 := 0; (match (job s p).ckpt with | some c => decide (c.todo = []) && decide (flashRuns s = true) | _ => false)))) &&
  ((let s : State := wJob; (let ag : Agent := (.core 0 .m); (let p : Fin 16 := 0; decide (regRight s ag (rCkptCtl p).key = true))))) &&
  ((let s : State := wHoist; (let ag : Agent := (.core 0 .m); (let p : Fin 16 := 0; decide (regRight s ag (rCkptCtl p).key = true) && (let b : Bool := false; decide ((job s p).hoists ≠ []))))))) = true := by decide +kernel

theorem witness_OptimiserAndCheckpoints_3 : (
  ((let s : State := wJob; (let p : Fin 16 := 0; decide ((job s p).restore = none))))) = true := by decide +kernel

theorem witness_PowerAndStartUp_1 : (
  ((let s : State := State.reset; (let mv : Nat := 0; decide (mv < 41000)))) &&
  ((let s : State := State.reset; (let mv : Nat := 41000; decide (41000 ≤ mv)))) &&
  ((let s : State := (wDip 100000); (let mv : Nat := 42000; decide (42000 ≤ mv) && decide (getB s rPwrStatus fPwrStatusDip = true) && decide (s.pow.lowAt + 100000 ≤ s.time)))) &&
  ((let s : State := (wDip 99999); (let mv : Nat := 42000; decide (42000 ≤ mv) && decide (getB s rPwrStatus fPwrStatusDip = true) && decide (s.time < s.pow.lowAt + 100000)))) &&
  ((let s : State := (wPow 0); (let mv : Nat := 0; decide (mv < 38000) && decide (s.pow.mode = 1)))) &&
  ((let s : State := { wPow 0 with pow := { (wPow 0).pow with mode := 2 } }; (let mv : Nat := 0; decide (mv < 38000) && decide (s.pow.mode = 2)))) &&
  ((let s : State := (wOff 0); (let mv : Nat := 0; decide (mv < 38000) && decide (s.pow.mode = 0)))) &&
  ((let s : State := State.reset; (let mv : Nat := 38000; decide (38000 ≤ mv)))) &&
  ((let s : State := State.reset; (let mv : Nat := 59501; decide (59500 < mv) && decide (s.pow.overSince = none ∨ ∃ t0, s.pow.overSince = some t0 ∧ s.time ≤ t0 + oneMs)))) &&
  ((let s : State := State.reset; (let mv : Nat := 0; decide (mv ≤ 59500)))) &&
  ((let s : State := (wPow (2 * 10 ^ 6)); (let mv : Nat := 59501; decide (59500 < mv) && (match s.pow.overSince with | some t0 => decide (t0 + oneMs < s.time) && decide (s.pow.mode = 1) | _ => false)))) &&
  ((let s : State := (wPow 0); decide (s.pow.pwrGood = true)))) = true := by decide +kernel

theorem witness_PowerAndStartUp_2 : (
  ((let s : State := State.reset; decide (s.pow.pwrGood = false))) &&
  ((let s : State := State.reset; (let mv : Nat := 42000; decide (s.pow.mode = 0) && decide (42000 ≤ mv) && decide (s.pow.above42 = none)))) &&
  ((let s : State := (wOff 0); (let mv : Nat := 42000; decide (s.pow.mode = 0) && decide (42000 ≤ mv) && (match s.pow.above42 with | some t0 => decide (s.time < t0 + 100 * oneMs) | _ => false)))) &&
  ((let s : State := (wOff (10 ^ 8)); (let mv : Nat := 42000; decide (s.pow.mode = 0) && decide (42000 ≤ mv) && (match s.pow.above42 with | some t0 => decide (t0 + 100 * oneMs ≤ s.time) && decide (s.sec.bootFail = false) && decide (8 ∉ s.pow.ended) | _ => false)))) &&
  ((let s : State := State.reset; (let mv : Nat := 0; decide (s.pow.mode = 0) && decide (mv < 42000)))) &&
  ((let s : State := (wPow 0); (let mv : Nat := 0; decide (s.pow.mode ≠ 0)))) &&
  ((let s : State := (wStep [1]); (let x : BitVec 2 := 0; (let i : BitVec 3 := 0; decide (stepRuns s 2 = true) && decide (s.sec.bootFail = false) && decide (8 ∉ s.pow.ended))))) &&
  ((let s : State := (wStep [1, 2]); (let k : Fin 13 := 3; (let x : BitVec 2 := 0; (let i : BitVec 3 := 0; decide (2 ≤ k.val) && decide (k.val ≠ 12) && decide (stepRuns s k = true)))))) &&
  ((let s : State := (wStep [1, 2]); (let k : Fin 13 := 3; (let x : BitVec 2 := 0; (let i : BitVec 3 := 0; decide (k.val = 3) && decide (stepRuns s k = true) && decide (s.sec.bootFail = false)))))) &&
  ((let s : State := State.reset; (let k : Fin 13 := 0; (let x : BitVec 2 := 0; (let i : BitVec 3 := 0; decide (k.val < 2)))))) &&
  ((let s : State := State.reset; (let k : Fin 13 := 12; (let x : BitVec 2 := 0; (let i : BitVec 3 := 0; decide (k.val = 12)))))) &&
  ((let s : State := (wStep [1, 2]); (let k : Fin 13 := 3; (let x : BitVec 2 := 0; (let i : BitVec 3 := 0; decide (stepRuns s k = true))))))) = true := by decide +kernel

theorem witness_PowerAndStartUp_3 : (
  ((let s : State := State.reset; (let k : Fin 13 := 0; (let x : BitVec 2 := 0; (let i : BitVec 3 := 0; decide (k.val ≠ 12) && decide (stepRuns s k = false)))))) &&
  ((let s : State := wPorts; decide (stepRuns s 12 = true) && decide (fabricStarts s = true) && decide (portsSettled s = true) && decide (s.pow.stopped = false))) &&
  ((let s : State := State.reset; decide (stepRuns s 12 = false ∨ fabricStarts s = false ∨ portsSettled s = false))) &&
  ((let s : State := (wStopped (90 * oneSecond)); decide (s.pow.mode = 1) && decide (s.pow.startAt + 90 * oneSecond ≤ s.time) && decide (s.pow.ended.elem 12 = false) && decide (objNat s oStartState ≠ 13) && (match s.pow.failedStep with | some k => true | _ => false))) &&
  ((let s : State := (wPow (90 * oneSecond)); decide (s.pow.mode = 1) && decide (s.pow.startAt + 90 * oneSecond ≤ s.time) && decide (s.pow.ended.elem 12 = false) && decide (objNat s oStartState ≠ 13) && decide (s.pow.failedStep = none))) &&
  ((let s : State := State.reset; decide (s.pow.mode ≠ 1 ∨ s.time < s.pow.startAt + 90 * oneSecond ∨ s.pow.ended.elem 12 = true ∨ objNat s oStartState = 13)))) = true := by decide +kernel

theorem witness_HeatAndClocks : (
  ((let s : State := State.reset; (let d : Fin 8 := 0; (let x : Sensor := .computeDie 0; (let c : Int := 100; decide (x = .computeDie d) && (match throttleLimit s x with | some lim => true | _ => false)))))) &&
  ((let s : State := (wPow 0); (let x : Sensor := (.stack 0); (let c : Int := (105); decide (shutdownLimit x ≤ c) && decide (s.pow.mode = 1))))) &&
  ((let s : State := (wPow 0); (let x : Sensor := (.stack 0); (let c : Int := (104); decide (c < shutdownLimit x ∨ s.pow.mode ≠ 1))))) &&
  ((let s : State := State.reset; (let e : Fin 32 := 0; (let pa : Fin 13 := 0; (let qa : Fin 13 := 3; decide (qa ≠ pa)))))) &&
  ((let s : State := State.reset; (let c : Fin 128 := 0; (let k : Fin 128 := 3; (let w : Nat := 0; (let x : Int := (95); decide (k ≠ c)))))))) = true := by decide +kernel

theorem witness_EnginesAndUnitsSleepAndReset_1 : (
  ((let s : State := wDoze; (let ag : Agent := (.core 0 .m); (let e : Fin 32 := 0; (let x : BitVec 2 := 0; decide (regRight s ag (rEngPwr e).key = true)))))) &&
  ((let s : State := wDoze; (let e : Fin 32 := 0; decide (engIdle s e = false ∨ (engAux s e).wake = true ∨ deepest s e (s.time - (engAux s e).idleSince.getD 0) ≤ getF s (rEngPwr e) fEngPwrState)))) &&
  ((let s : State := (wIdle 20000); (let e : Fin 32 := 0; decide (engIdle s e = true) && decide ((engAux s e).wake = false) && decide (getF s (rEngPwr e) fEngPwrState = psActive) && decide (deepest s e (s.time - (engAux s e).idleSince.getD 0) = psIdle)))) &&
  ((let s : State := (wIdle 500000); (let e : Fin 32 := 0; decide (engIdle s e = true) && decide ((engAux s e).wake = false) && (let st := deepest s e (s.time - (engAux s e).idleSince.getD 0); decide (psIdle < st) && decide (getF s (rEngPwr e) fEngPwrState < st) && decide (engDrained (drainEngine s e) e = true))))) &&
  ((let s : State := wRecordWaits; (let e : Fin 32 := 0; decide (engIdle s e = true) && decide ((engAux s e).wake = false) && (let st := deepest s e (s.time - (engAux s e).idleSince.getD 0); decide (psIdle < st) && decide (getF s (rEngPwr e) fEngPwrState < st) && decide (engDrained (drainEngine s e) e = false))))) &&
  ((let s : State := wDoze; (let e : Fin 32 := 3; decide (mustWake s e = false)))) &&
  ((let s : State := wDoze; (let e : Fin 32 := 0; decide (mustWake s e = true)))) &&
  ((let s : State := wEng; (let ag : Agent := (.core 0 .m); (let e : Fin 32 := 0; decide (regRight s ag (rEngReset e).key = true))))) &&
  ((let s : State := wEng; (let ag : Agent := (.core 0 .m); (let e : Fin 32 := 0; decide (regRight s ag (rEngReset e).key = true) && decide (engDrained (drainEngine (clearContexts s e) e) e = true))))) &&
  ((let s : State := wRingFull; (let ag : Agent := (.core 0 .m); (let e : Fin 32 := 0; decide (regRight s ag (rEngReset e).key = true) && decide (engDrained (drainEngine (clearContexts s e) e) e = false))))) &&
  ((let s : State := wDoze; (let ag : Agent := (.core 0 .m); (let d : BitVec 4 := 10; (let f : Bool := false; decide (regRight s ag rDieReset.key = true) && decide (12 ≤ d.toNat ∨ d.toNat = 10)))))) &&
  ((let s : State := wDoze; (let ag : Agent := (.core 0 .m); (let f : Bool := false; decide (regRight s ag rDieReset.key = true)))))) = true := by decide +kernel

theorem witness_EnginesAndUnitsSleepAndReset_2 : (
  ((let s : State := wDoze; (let ag : Agent := (.core 0 .m); (let d : BitVec 4 := 8; (let f : Bool := false; decide (regRight s ag rDieReset.key = true) && decide ((8 ≤ d.toNat ∧ d.toNat < 10) ∨ (d.toNat < 8 ∧ f = true))))))) &&
  ((let s : State := wDoze; (let e : Fin 32 := 0; decide ((engAux s e).depart = none)))) &&
  ((let s : State := wDrained; (let e : Fin 32 := 0; (match (engAux s e).depart with | some t0 => decide (engDrained s e = true) | _ => false)))) &&
  ((let s : State := (wDepart 0); (let e : Fin 32 := 0; (match (engAux s e).depart with | some t0 => decide (engDrained s e = false) && decide (s.time < t0 + 100000) | _ => false)))) &&
  ((let s : State := (wDepart 100000); (let e : Fin 32 := 0; (match (engAux s e).depart with | some t0 => decide (engDrained s e = false) && decide (t0 + 100000 ≤ s.time) | _ => false)))) &&
  ((let s : State := wStk; (let d : Fin 12 := 0; decide (mapFind s.pow.departs (.die d) = none)))) &&
  ((let s : State := { wEng with pow := { wEng.pow with departs := [(.die 0, 0)] } }; (let d : Fin 12 := 0; (match mapFind s.pow.departs (.die d) with | some t0 => decide ((dieEngines d).all (engDrained s) = true) | _ => false)))) &&
  ((let s : State := wDieLeaves; (let d : Fin 12 := 0; (match mapFind s.pow.departs (.die d) with | some t0 => decide ((dieEngines d).all (engDrained s) = false) && decide (t0 + 100000 ≤ s.time) | _ => false)))) &&
  ((let s : State := wOwn; (let ag : Agent := (.core 0 .m); (let p : Fin 16 := 0; (let w : Fin 2 := 1; (let v : BitVec 64 := 0; decide (regRight s ag (rCoreHold p w).key = true) && ((List.range 64).all (fun j => decide (coreOwner s (64 * w.val + j) ≠ some p.val))) && true)))))) &&
  ((let s : State := wCoreHeld; (let ag : Agent := (.core 0 .m); (let p : Fin 16 := 0; (let w : Fin 2 := 0; (let v : BitVec 64 := 1; (let i : Nat := 1; decide (regRight s ag (rCoreHold p w).key = true) && decide (i < 64) && decide (coreOwner s (64 * w.val + i) = some p.val) && ((List.range 64).all (fun j => decide (j ≠ i → v.getLsbD j = (getR s (rCoreHold p w)).getLsbD j))) && decide ((getR s (rCoreHold p w)).getLsbD i = true) && decide (v.getLsbD i = false)))))))) &&
  ((let s : State := wCoreHeld; (let ag : Agent := (.core 0 .m); (let p : Fin 16 := 0; (let w : Fin 2 := 0; (let v : BitVec 64 := 7; (let i : Nat := 2; decide (regRight s ag (rCoreHold p w).key = true) && decide (i < 64) && decide (coreOwner s (64 * w.val + i) = some p.val) && ((List.range 64).all (fun j => decide (j ≠ i → v.getLsbD j = (getR s (rCoreHold p w)).getLsbD j))) && decide ((getR s (rCoreHold p w)).getLsbD i = false) && decide (v.getLsbD i = true)))))))) &&
  ((let s : State := wCoreGone; (let c : Fin 128 := 5; decide (s.rel.removedCores.elem c.val = true))))) = true := by decide +kernel

theorem witness_EnginesAndUnitsSleepAndReset_3 : (
  ((let s : State := wCoreGone; (let c : Fin 128 := 0; decide (s.rel.removedCores.elem c.val = false) && decide (2 ≤ mapGet s.rel.spareCores (c.val / 64) 0)))) &&
  ((let s : State := State.reset; (let c : Fin 128 := 0; decide (s.rel.removedCores.elem c.val = false) && decide (mapGet s.rel.spareCores (c.val / 64) 0 < 2)))) &&
  ((let s : State := wSpinGone; (let c : CoreId := ⟨0, 2⟩; decide ((engAux s c.e).deadCores.elem c.k.val = true)))) &&
  ((let s : State := wDoze; (let c : CoreId := ⟨0, 2⟩; decide ((engAux s c.e).deadCores.elem c.k.val = false) && decide (coreState s c.e c.k ≠ cRunning))))) = true := by decide +kernel

theorem witness_ModuleResetsKeepWhatOutlastsThem : (
  ((let s : State := (wLow 19 true); decide (s.pow.pwrGood = true ∨ s.pow.mode = 2))) &&
  ((let s : State := (wLow 3 true); decide (s.pow.pwrGood = true ∨ s.pow.mode = 2) && decide (s.pow.modRstLow ≠ 19))) &&
  ((let s : State := (wLow 19 true); decide (s.pow.pwrGood = true ∨ s.pow.mode = 2) && decide (s.pow.modRstLow = 19))) &&
  ((let s : State := (wLow 3 false); decide (s.pow.pwrGood = false) && decide (s.pow.mode ≠ 2)))) = true := by decide +kernel

theorem witness_RemovalAndServiceRaiseTheInBandInterrupt : (
  ((let s : State := wEng; (let i : ErrInfo := { src := 1, sev := 2, typ := 3 }; (let owner : Option Nat := none; decide (i.sev = 2 ∨ i.sev = 3))))) &&
  ((let s : State := wEng; (let i : ErrInfo := { src := 1, sev := 2, typ := 3 }; (let owner : Option Nat := none; decide (i.sev = 2 ∨ i.sev = 3) && (let w := 0; decide (w < 4)))))) &&
  ((let s : State := wEng; (let i : ErrInfo := { src := 1, sev := 0, typ := 3 }; (let owner : Option Nat := none; decide (i.sev = 0 ∨ i.sev = 1)))))) = true := by decide +kernel

theorem witness_TheEventRecorder : (
  ((let s : State := (wEvr 0 64 false); decide (s.time < s.rel.epochStart + objNat s oEvrEpochS * oneSecond ∨ flashRuns s = false))) &&
  ((let s : State := (wEvr (10 ^ 15) 0 false); decide (s.rel.epochStart + objNat s oEvrEpochS * oneSecond ≤ s.time) && decide (flashRuns s = true))) &&
  ((let s : State := (wEvr 0 64 false); (let ag : Agent := (.core 0 .m); decide (regRight s ag (rEvrWindow 0).key = true) && decide (s.rel.region.length ≤ getF s rEvrCursor fEvrCursorOffset / 8 * 8)))) &&
  ((let s : State := (wEvr (10 ^ 15) 0 false); (let ag : Agent := (.core 0 .m); (let c : Nat := 0; decide (regRight s ag (rEvrWindow 0).key = true) && decide (getF s rEvrCursor fEvrCursorOffset = 8 * c) && decide (8 * c < s.rel.region.length))))) &&
  ((let s : State := (wEvr (10 ^ 15) 0 false); (let ag : Agent := (.core 0 .m); decide (regRight s ag (rEvrWindow 0).key = true)))) &&
  ((let s : State := (wEvr 0 64 false); (let ag : Agent := (.engine 0 0); (let a : RegAccess := .w64; decide (regRight s ag (rEvrWindow 0).key = false))))) &&
  ((let s : State := (wActs oEvrClear [1]); (match s.sec.actions with | [t] => decide (t.names oEvrClear = true) && decide (leNat t.value ≠ 0) | _ => false))) &&
  ((let s : State := (wEvr (10 ^ 15) 0 false); decide (s.sec.actions = [])))) = true := by decide +kernel

theorem witness_StagedSetsAndTheirActions_1 : (
  ((let s : State := State.reset; (let k : Nat := 0; (let set : Fin 4 := 0; decide (sesCred s (some k) = none))))) &&
  ((let s : State := (wStage 0 stFree); (let k : Nat := 1; (let set : Fin 4 := 0; (match sesCred s (some k) with | some (c, r) => decide (stageState s set = stFree ∨ stageState s set = stApplied ∨ stageState s set = stRefused) | _ => false))))) &&
  ((let s : State := (wStage 0 stSealed); (let k : Nat := 1; (let set : Fin 4 := 0; (match sesCred s (some k) with | some (c, r) => decide (stageState s set = stOpen ∨ stageState s set = stSealed ∨ stageState s set = stApplying) | _ => false))))) &&
  ((let s : State := (wStage 0 stOpen); (let k : Nat := 1; (let set : Fin 4 := 0; (match sesCred s (some k) with | some (c, r) => decide (stageState s set = stOpen) && decide ((stageSet s set).cred = c) && decide (sealedNames s set (stageSet s set).items = false) | _ => false))))) &&
  ((let s : State := (wStage 0 stFree); (let k : Nat := 1; (let set : Fin 4 := 0; (match sesCred s (some k) with | some (c, r) => decide (stageState s set ≠ stOpen ∨ (stageSet s set).cred ≠ c ∨ sealedNames s set (stageSet s set).items = true) | _ => false))))) &&
  ((let s : State := (wStage 0 stFree); (let k : Nat := 1; (let set : Fin 4 := 0; (match sesCred s (some k) with | some (c, r) => decide (stageState s set ≠ stSealed) | _ => false))))) &&
  ((let s : State := (wStage (10 ^ 13) stSealed); (let k : Nat := 1; (let set : Fin 4 := 0; (match sesCred s (some k) with | some (c, r) => decide (stageState s set = stSealed) && decide ((stageSet s set).sealedAt + windowNs < s.time) | _ => false))))) &&
  ((let s : State := (wStage 0 stSealed); (let k : Nat := 1; (let set : Fin 4 := 0; (match sesCred s (some k) with | some (c, r) => decide (stageState s set = stSealed) && decide (s.time ≤ (stageSet s set).sealedAt + windowNs) && decide ((stageSet s set).cred = c ∨ (stageSet s set).role = some r ∨ mayConfirm r (stageSet s set).items = false ∨ mapGet s.sec.confirm k [] ≠ (stageSet s set).digest) | _ => false))))) &&
  ((let s : State := (wStage 0 stSealed); (let k : Nat := 2; (let set : Fin 4 := 0; (match sesCred s (some k) with | some (c, r) => decide (stageState s set = stSealed) && decide (s.time ≤ (stageSet s set).sealedAt + windowNs) && decide ((stageSet s set).cred ≠ c) && decide ((stageSet s set).role ≠ some r) && decide (mayConfirm r (stageSet s set).items = true) && decide (mapGet s.sec.confirm k [] = (stageSet s set).digest) && decide (s.sec.layout = none) && decide (setSound s (stageSet s set).items = true) | _ => false))))) &&
  ((let s : State := wUnsound; (let k : Nat := 2; (let set : Fin 4 := 0; (match sesCred s (some k) with | some (c, r) => decide (stageState s set = stSealed) && decide (s.time ≤ (stageSet s set).sealedAt + windowNs) && decide ((stageSet s set).cred ≠ c) && decide ((stageSet s set).role ≠ some r) && decide (mayConfirm r (stageSet s set).items = true) && decide (mapGet s.sec.confirm k [] = (stageSet s set).digest) && decide (s.sec.layout = none) && decide (setSound s (stageSet s set).items = false) | _ => false))))) &&
  ((let s : State := (wStage 0 stOpen); (let k : Nat := 1; (let set : Fin 4 := 0; (match sesCred s (some k) with | some (c, r) => decide (stageState s set = stOpen ∨ stageState s set = stSealed) && decide ((stageSet s set).cred = c) | _ => false))))) &&
  ((let s : State := (wStage 0 stFree); (let k : Nat := 1; (let set : Fin 4 := 0; (match sesCred s (some k) with | some (c, r) => decide ((stageSet s set).cred ≠ c ∨ (stageState s set ≠ stOpen ∧ stageState s set ≠ stSealed)) | _ => false)))))) = true := by decide +kernel

theorem witness_StagedSetsAndTheirActions_2 : (
  ((let s : State := (wStage (10 ^ 13) stSealed); (let set : Fin 4 := 0; decide (stageState s set = stSealed) && decide ((stageSet s set).sealedAt + windowNs < s.time)))) &&
  ((let s : State := State.reset; (let set : Fin 4 := 0; decide (stageState s set ≠ stSealed ∨ s.time ≤ (stageSet s set).sealedAt + windowNs)))) &&
  ((let s : State := (wEvr (10 ^ 15) 0 false); decide (s.sec.actions = []))) &&
  ((let s : State := State.reset; decide (s.sec.actions = []) && (let p : Fin 16 := 0; (let q : Fin 16 := 0; true)))) &&
  ((let s : State := State.reset; decide (s.sec.layout = none))) &&
  ((let s : State := wLayout; (match s.sec.layout with | some (l, k) => decide (∀ f ∈ s.hub.flushQ ++ s.hub.flushWait, ¬(f.all = true ∧ f.drain = true ∧ f.software = false ∧ f.bias = false)) | _ => false))) &&
  ((let s : State := wLayoutFlush; (match s.sec.layout with | some (l, k) => decide (∃ f ∈ s.hub.flushQ ++ s.hub.flushWait, f.all = true ∧ f.drain = true ∧ f.software = false ∧ f.bias = false) | _ => false))) &&
  ((let s : State := (wActs oFwImage (wBytes 200 [])); (match s.sec.actions with | [x] => decide (x.names oFwImage = true) | _ => false))) &&
  ((let s : State := (wActs oSvnCommit [1]); (match s.sec.actions with | [x] => decide (x.names oSvnCommit = true) && decide (leNat x.value ≠ 0) | _ => false))) &&
  ((let s : State := wFwBad; (match s.sec.actions with | [x] => decide (x.names oFwActivate = true) && decide (bootable s (1 - s.sec.runSlot) = false ∨ (image s (1 - s.sec.runSlot)).bodyOk = false) && (let f : Option (Fin 5) := none; true) | _ => false))) &&
  ((let s : State := wFwWaits; (match s.sec.actions with | [x] => decide (x.names oFwActivate = true) && decide (bootable s (1 - s.sec.runSlot) = true) && decide ((image s (1 - s.sec.runSlot)).bodyOk = true) && decide (bitOf (leNat x.value) 3 = true) && decide (recomputeQueued s = true) && (let f : Option (Fin 5) := none; true) | _ => false))) &&
  ((let s : State := (wActs oFwActivate [1]); (match s.sec.actions with | [x] => decide (x.names oFwActivate = true) && decide (bootable s (1 - s.sec.runSlot) = true) && decide ((image s (1 - s.sec.runSlot)).bodyOk = true) && decide (bitOf (leNat x.value) 3 = false ∨ recomputeQueued s = false) | _ => false)))) = true := by decide +kernel

theorem witness_StagedSetsAndTheirActions_3 : (
  ((let s : State := (wActs oFwActivate [1]); (match s.sec.actions with | [x] => decide (x.names oFwActivate = true) && decide (bootable s (1 - s.sec.runSlot) = true) && decide ((image s (1 - s.sec.runSlot)).bodyOk = true) && decide (bitOf (leNat x.value) 3 = false ∨ recomputeQueued s = false) && (let f : Fin 5 := 0; decide (bitOf (leNat x.value) f.val = true)) | _ => false))) &&
  ((let s : State := (wActs oFwActivate [2]); (match s.sec.actions with | [x] => decide (x.names oFwActivate = true) && decide (bootable s (1 - s.sec.runSlot) = true) && decide ((image s (1 - s.sec.runSlot)).bodyOk = true) && decide (bitOf (leNat x.value) 3 = false ∨ recomputeQueued s = false) && (let f : Fin 5 := 0; decide (bitOf (leNat x.value) f.val = false)) | _ => false))) &&
  ((let s : State := (wActs (oLinkKey 0 1) (wBytes 34 [(0, 1, 4), (32, 1, 2)])); (match s.sec.actions with | [x] => (let p : Fin 16 := 0; (let q : Fin 16 := 1; decide (x.names (oLinkKey p q) = true))) | _ => false))) &&
  ((let s : State := (wActs oDebugUnlock [1, 2, 0]); (match s.sec.actions with | [x] => decide (x.names oDebugUnlock = true) | _ => false))) &&
  ((let s : State := (wOld wPlaneFailed); (let p : Fin 16 := 0; (let q : Fin 16 := 9; decide (mapFind s.sec.keys (p.val, q.val) = none))))) &&
  ((let s : State := (wKeyOld (10 ^ 10)); (let p : Fin 16 := 0; (let q : Fin 16 := 1; (match mapFind s.sec.keys (p.val, q.val) with | some k => decide (k.replacedAt + 10 * oneSecond ≤ s.time) | _ => false))))) &&
  ((let s : State := wFwBad; (let p : Fin 16 := 0; (let q : Fin 16 := 1; (match mapFind s.sec.keys (p.val, q.val) with | some k => decide (s.time < k.replacedAt + 10 * oneSecond) | _ => false))))) &&
  ((let s : State := (wDebugOn 100); decide (debugLevel s ≠ 0) && decide (s.sec.debugUntil ≤ s.time))) &&
  ((let s : State := State.reset; decide (debugLevel s = 0 ∨ s.time < s.sec.debugUntil)))) = true := by decide +kernel

theorem witness_NandKeyEraseDestroysTheShare : (
  ((let s : State := (wActs (oNandKeyErase 0) [1]); (let p : Fin 16 := 0; (match s.sec.actions with | [x] => decide (x.names (oNandKeyErase p) = true) && decide (leNat x.value ≠ 0) | _ => false))))) = true := by decide +kernel

theorem witness_TheSpdmResponder_1 : (
  ((let s : State := State.reset; (let r : SpdmReq := (wReqS none 0x12 0 0 []); decide (transportUp s r.tr = false) && ([Instr.getVersion r, .getCapabilities r, .negotiateAlgorithms r, .getDigests r, .getCertificate r, .challenge r, .getMeasurements r, .keyExchange r, .finish r, .endSession r, .heartbeat r, .keyUpdate r]).any (fun c => true)))) &&
  ((let s : State := (wSes 0); (let r : SpdmReq := (wReqS none 0x12 0 0 []); decide (transportUp s r.tr = true) && decide (r.ses = none)))) &&
  ((let s : State := (wSes 0); (let r : SpdmReq := (wReqS none 0x12 0 0 []); decide (transportUp s r.tr = true) && decide (r.ses = none) && decide (r.version = 0x12 ∨ r.version = 0x13)))) &&
  ((let s : State := (wSes 0); (let r : SpdmReq := (wReqS none 0x11 0 0 []); decide (transportUp s r.tr = true) && decide (r.ses = none) && decide (r.version ≠ 0x12) && decide (r.version ≠ 0x13)))) &&
  ((let s : State := wNoVersion; (let r : SpdmReq := (wReqS none 0x12 0 0 []); decide (transportUp s r.tr = true) && decide (r.ses = none) && decide ((spdmConn s r.tr).version = 0) && ([Instr.negotiateAlgorithms r, .getDigests r, .getCertificate r, .challenge r, .getMeasurements r, .keyExchange r, .finish r, .endSession r, .heartbeat r, .keyUpdate r]).any (fun c => true)))) &&
  ((let s : State := (wSes 0); (let r : SpdmReq := (wReqS none 0x12 0 0xFF (wBytes 16 [(4, 1, 0xFF), (8, 1, 0xFF)])); decide (transportUp s r.tr = true) && decide (r.ses = none) && decide ((spdmConn s r.tr).version ≠ 0) && decide ((spdmConn s r.tr).version = r.version.toNat) && decide ((spdmConn s r.tr).caps = true) && decide (bitOf (u32At r.body 4) 7 = true) && decide (bitOf (u32At r.body 8) 1 = true)))) &&
  ((let s : State := (wSes 0); (let r : SpdmReq := (wReqS none 0x12 0 0 []); decide (transportUp s r.tr = true) && decide (r.ses = none) && decide ((spdmConn s r.tr).version ≠ 0) && decide ((spdmConn s r.tr).version = r.version.toNat) && decide ((spdmConn s r.tr).algs = true)))) &&
  ((let s : State := (wSes 0); (let r : SpdmReq := (wReqS none 0x12 0 0 []); decide (transportUp s r.tr = true) && decide (r.ses = none) && decide ((spdmConn s r.tr).version ≠ 0) && decide ((spdmConn s r.tr).version = r.version.toNat) && decide ((spdmConn s r.tr).algs = true) && decide (r.param1.toNat < 2) && decide (u16At r.body 0 ≤ (Config.certChain r.param1.toNat).length) && (let part := ((Config.certChain r.param1.toNat).drop (u16At r.body 0)).take (u16At r.body 2); true)))) &&
  ((let s : State := (wSes 0); (let r : SpdmReq := (wReqS none 0x12 0 0 []); decide (transportUp s r.tr = true) && decide (r.ses = none) && decide ((spdmConn s r.tr).version ≠ 0) && decide ((spdmConn s r.tr).version = r.version.toNat) && decide ((spdmConn s r.tr).algs = true) && decide (r.param1.toNat < 2)))) &&
  ((let s : State := (wSes 0); (let r : SpdmReq := (wReqS none 0x12 2 0xFE []); decide (transportUp s r.tr = true) && decide (r.ses = none) && decide ((spdmConn s r.tr).version ≠ 0) && decide ((spdmConn s r.tr).version = r.version.toNat) && decide ((spdmConn s r.tr).algs = true) && decide (2 ≤ r.param1.toNat)))) &&
  ((let s : State := (wSes 0); (let r : SpdmReq := (wReqS none 0x12 0 0 []); decide (transportUp s r.tr = true) && decide (r.ses = none) && decide ((spdmConn s r.tr).version ≠ 0) && decide ((spdmConn s r.tr).version = r.version.toNat) && decide ((spdmConn s r.tr).algs = true) && decide (r.param2.toNat ≤ 8 ∨ r.param2.toNat = 0xFF)))) &&
  ((let s : State := (wSes 0); (let r : SpdmReq := (wReqS none 0x12 0 0 []); decide (transportUp s r.tr = true) && decide (r.ses = none) && decide ((spdmConn s r.tr).version ≠ 0) && decide ((spdmConn s r.tr).version = r.version.toNat) && decide ((spdmConn s r.tr).algs = true) && decide (r.param2.toNat < 2))))) = true := by decide +kernel

theorem witness_TheSpdmResponder_2 : (
  ((let s : State := wNoCreds; (let r : SpdmReq := (wReqS (some 3) 0x12 1 0 []); decide (transportUp s r.tr = true) && (match r.ses with | some n => (match mapFind s.sec.sessions n with | some x => decide (x.tr = r.tr) && decide ((spdmConn s r.tr).version ≠ 0) && decide ((spdmConn s r.tr).version = r.version.toNat) && decide ((spdmConn s r.tr).algs = true) && decide (x.established = false) && decide (s.sec.creds = []) | _ => false) | _ => false)))) &&
  ((let s : State := (wSes 0); (let r : SpdmReq := (wReqS (some 1) 0x12 1 0 []); decide (transportUp s r.tr = true) && (match r.ses with | some n => (match mapFind s.sec.sessions n with | some x => decide (x.tr = r.tr) && decide ((spdmConn s r.tr).version ≠ 0) && decide ((spdmConn s r.tr).version = r.version.toNat) && decide ((spdmConn s r.tr).algs = true) && decide (x.established = true) | _ => false) | _ => false)))) &&
  ((let s : State := (wSes 0); (let r : SpdmReq := (wReqS (some 1) 0x12 1 0 []); decide (transportUp s r.tr = true) && (match r.ses with | some n => (match mapFind s.sec.sessions n with | some x => decide (x.tr = r.tr) && decide ((spdmConn s r.tr).version ≠ 0) && decide ((spdmConn s r.tr).version = r.version.toNat) && decide ((spdmConn s r.tr).algs = true) && decide (x.established = true) && decide (r.param1 = 1 ∨ r.param1 = 2) | _ => false) | _ => false)))) &&
  ((let s : State := (wSes (10 ^ 13)); (let n : Nat := 1; (match mapFind s.sec.sessions n with | some x => decide (x.last + objNat s oSessionIdle * oneSecond ≤ s.time) | _ => false)))) &&
  ((let s : State := (wSes 0); (let n : Nat := 1; (match mapFind s.sec.sessions n with | some x => decide (s.time < x.last + objNat s oSessionIdle * oneSecond) | _ => false))))) = true := by decide +kernel

theorem witness_AuquinCommandsAreAnswered : (
  ((let s : State := State.reset; (let r : AuqReq := (wAuq oMgtLink false []); decide (auqLive s r = false)))) &&
  ((let s : State := (wSes 0); (let r : AuqReq := (wAuq oMgtLink false []); decide (auqLive s r = true) && decide (r.ses = none)))) &&
  ((let s : State := (wSes 0); (let r : AuqReq := (wAuq (oMgtLink.1, 0) true []); decide (auqLive s r = true) && decide (r.ses = none) && decide (xferOf s r.tr = none) && decide (readBarred s r (r.index.toNat, r.sub.toNat) = 0) && decide (expeditedObj (r.index.toNat, r.sub.toNat) = true) && decide (r.sub = 0)))) &&
  ((let s : State := (wXfer 0); (let r : AuqReq := (wAuq oMgtLink false []); decide (auqLive s r = true) && decide (r.ses = none) && decide ((xferOf s r.tr).isSome = true)))) &&
  ((let s : State := (wSes 0); (let r : AuqReq := (wAuq (0, 1) false []); decide (auqLive s r = true) && decide (r.ses = none) && decide (xferOf s r.tr = none) && decide (readBarred s r (r.index.toNat, r.sub.toNat) ≠ 0)))) &&
  ((let s : State := (wSes 0); (let r : AuqReq := (wAuq oPowerCap false [0, 1]); decide (auqLive s r = true) && decide (r.ses = none) && decide (xferOf s r.tr = none) && decide (writeBarred s r (r.index.toNat, r.sub.toNat) = 0) && decide (r.expedited = true) && decide (expeditedObj (r.index.toNat, r.sub.toNat) = true) && decide (r.data.length ≤ 4) && (match objWrite s r (r.index.toNat, r.sub.toNat) r.data with | (t, st) => true)))) &&
  ((let s : State := (wSes 0); (let r : AuqReq := (wAuq oMgtLink false []); decide (auqLive s r = true) && decide (r.ses = none) && decide (xferOf s r.tr = none) && decide (writeBarred s r (r.index.toNat, r.sub.toNat) ≠ 0)))) &&
  ((let s : State := (wSes 0); (let r : AuqReq := (wAuq oMgtLink false []); decide (auqLive s r = true) && decide (r.ses = none) && decide (xferOf s r.tr = none)))) &&
  ((let s : State := (wXfer 0); (let r : AuqReq := (wAuq oMgtLink false []); decide (auqLive s r = true) && decide (r.ses = none) && (match xferOf s r.tr with | some x => decide (x.write = false) && decide (x.ses = none) && decide (s.time < x.last + oneSecond) && decide (x.toggle = r.toggle) | _ => false)))) &&
  ((let s : State := State.reset; (let tr : Transport := .i3c; decide (xferOf s tr = none)))) &&
  ((let s : State := (wXfer (10 ^ 9)); (let tr : Transport := .i3c; (match xferOf s tr with | some x => decide (x.last + oneSecond ≤ s.time) | _ => false)))) &&
  ((let s : State := (wXfer 0); (let tr : Transport := .i3c; (match xferOf s tr with | some x => decide (s.time < x.last + oneSecond) | _ => false))))) = true := by decide +kernel

theorem witness_ManagementPortsAndDebugObjects_1 : (
  ((let s : State := (wMbx true); (let ag : Agent := (.core 0 .m); (let p : Fin 16 := 0; (let v : BitVec 64 := 0; decide (regRight s ag (rAuqMbx p).key = true) && decide (getB s (rAuqMbx p) fAuqMbxEnable = true)))))) &&
  ((let s : State := (wSes 0); (let ag : Agent := (.core 0 .m); (let p : Fin 16 := 0; (let v : BitVec 64 := 0; decide (regRight s ag (rAuqMbx p).key = true) && decide (getB s (rAuqMbx p) fAuqMbxEnable = false) && decide (fget v fAuqMbxEnable = 0)))))) &&
  ((let s : State := (wMbx false); (let ag : Agent := (.core 0 .m); (let p : Fin 16 := 0; (let v : BitVec 64 := 1; decide (regRight s ag (rAuqMbx p).key = true) && decide (getB s (rAuqMbx p) fAuqMbxEnable = false) && decide (fget v fAuqMbxEnable ≠ 0)))))) &&
  ((let s : State := State.reset; (let p : Fin 16 := 0; decide (transportUp s (.inband p) = false)))) &&
  ((let s : State := (wMbx true); (let p : Fin 16 := 0; decide (transportUp s (.inband p) = true) && decide (mpaAdmits s (.hubUnit p) (getF s (rAuqMbx p) fAuqMbxBase * 4096) (64 + 2 ^ getF s (rAuqMbx p) fAuqMbxLog2 * 128) true = true)))) &&
  ((let s : State := (wSes 0); (let a : BitVec 8 := 0; decide (s.pow.ended.elem 5 = true)))) &&
  ((let s : State := State.reset; (let a : BitVec 8 := 0; decide (s.pow.ended.elem 5 = false)))) &&
  ((let s : State := State.reset; (let x : BitVec 2 := 1; decide (s.pow.mode ≠ 1)))) &&
  ((let s : State := (wSes 0); decide (s.pow.mode = 1))) &&
  ((let s : State := (wSes 0); (let x : BitVec 2 := 1; decide (s.pow.mode = 1) && decide (x ≠ 0)))) &&
  ((let s : State := State.reset; (let q : BitVec 64 := 0; decide (dmOpen s (objNat s oDbgDmSel) = false)))) &&
  ((let s : State := wDmOpen; (let q : BitVec 64 := 0; decide (dmOpen s (objNat s oDbgDmSel) = true) && (match dmiAccess s (objNat s oDbgDmSel) (natField q.toNat 38 32) (natField q.toNat 41 40) (q.toNat % 2 ^ 32) with | (t, d, r) => true))))) = true := by decide +kernel

theorem witness_ManagementPortsAndDebugObjects_2 : (
  ((let s : State := wPeek; (match peekWord s with | some (b, p) => true | _ => false))) &&
  ((let s : State := State.reset; decide (peekWord s = none))) &&
  ((let s : State := (wSes 0); (let x : List Bool := [true]; decide (tapAllowed s = false)))) &&
  ((let s : State := wPeek; (let x : List Bool := []; decide (tapAllowed s = true) && (match tapSteps (objBytes s oTapSeq).length (objBytes s oTapSeq) with | some l => true | _ => false))))) = true := by decide +kernel

/-! ### Witnesses over what the configuration leaves open: the agents of a server die, the flash of the order code, the signer -/

def wReqOf (s : State) (m : PlaMsg) (kind : MemKind) (ag : Agent) : MemReq :=
  { agent := ag, kind := kind, mpa := BitVec.ofNat 50 (m.addr.toNat / 64 * 64), len := 64 * (m.lines.toNat + 1), data := m.data, strobe := none
    operand := BitVec.ofNat 64 (u64At m.data 0), compare := BitVec.ofNat 64 (u64At m.data 8), shared := !m.nc, cached := true, astag := 0, hint := 0, direct := false
    gen := match agentUnit ag with
      | some u => BitVec.ofNat 32 (unitGen s u)
      | none => 0
    ecc := .ok }

/-- RD_SHARED and RD_OWN of connection 16, of the agent that sends them. -/
def wCohOf (ag : Agent) (op : Nat) (kind : MemKind) : Bool :=
  let s := wPla
  let m := wMsg 1 false op 0x800 0 []
  wArrives ⟨.rdShared, 1, false, op, false⟩ s 16 m && decide (m.lines = 0) && (presenceBit ag).isSome && decide (refusal s (wReqOf s m kind ag) = none) &&
    ringMay s 16 m (wReqOf s m kind ag) && decide (regionOf s (m.addr.toNat / 64 * 64) = some .bulk) && decide (dirFind s (m.addr.toNat / 64) = none) &&
    !mpaPoisoned s (m.addr.toNat / 64 * 64) 64 && s.hub.stalled.isEmpty && s.hub.writes.isEmpty && !dirBlocked s (m.addr.toNat / 64)

/-- WB of a line that agent `b` owns, at home or while its granule moves to the stack. -/
def wWbOf (line : Nat) (moves : Bool) (b : Nat) : Bool :=
  let s := { wCoh with hub := { wCoh.hub with dir := [{ line := line, owned := true, pv := [b], data := none, hold := none, waiters := [] }] } }
  wArrives ⟨.wb, 1, false, 4, true⟩ s 16 (wMsg 1 false 4 (64 * line) 0 (w64 5)) && s.hub.breach.isEmpty && s.hub.stalled.isEmpty &&
    decide (migrationStalls s (64 * line) 64 = moves) &&
    (match dirFind s line with
      | some d => d.owned && decide (d.pv = [b])
      | none => false)

theorem wSource (m : PlaMsg) : ∃ (i : Fin 64) (p : Priv), plaSource 16 m = .core (Fin.ofNat 128 i) p := by
  unfold plaSource
  rw [if_neg (by decide), if_pos (by decide)]
  refine ⟨Fin.ofNat 64 (Config.agentIndex m.agent), _, congrArg (fun z => Agent.core (Fin.ofNat 128 z) _) ?_⟩
  simp

theorem witness_CoherenceCommandsAndHolds_cores :
    (List.finRange 64).all (fun i => [Priv.u, .s, .m].all (fun p =>
      wCohOf (.core (Fin.ofNat 128 i) p) 0 .read && wCohOf (.core (Fin.ofNat 128 i) p) 1 .own && wWbOf 18 false i && wWbOf 0x8000 true i)) = true := by
  decide +kernel

theorem wReqOf_plaReq (s : State) (l : Fin 19) (op : Nat) (bs : Bytes) :
    plaReq s l (wMsg 1 false op 0x800 0 bs) .read true none = wReqOf s (wMsg 1 false op 0x800 0 bs) .read (plaSource l (wMsg 1 false op 0x800 0 bs)) ∧
      plaReq s l (wMsg 1 false op 0x800 0 bs) .own true none = wReqOf s (wMsg 1 false op 0x800 0 bs) .own (plaSource l (wMsg 1 false op 0x800 0 bs)) :=
  ⟨rfl, rfl⟩

/-- On a module with a guest site, the guest's DISCOVER agrees on channels (R351). -/
theorem witness_ConnectionsBetweenDies_guest (h : Config.guestFitted = true) :
    linkState (wTrain false) 18 = lkTraining ∧ (link (wTrain false) 18).inReset = false ∧ plaSpells (wHello 0) 4 false 0 true = true ∧ (wHello 0).parity = .ok ∧
      (link (wTrain false) 18).heard = none ∧ agreedChannels (wTrain false) 18 (wHello 0).data ≠ 0 := by
  refine ⟨by decide +kernel, by decide +kernel, by decide +kernel, by decide +kernel, by decide +kernel, ?_⟩
  have hb : (bitOf (u8At (wHello 0).data 4 % 32) 0 && bitOf (u8At (wHello 0).data 4 % 32) 2 && bitOf (u8At (wHello 0).data 4 % 32) 4) = true := by decide +kernel
  have hv : ¬u8At (wHello 0).data 0 < 1 := by decide +kernel
  have hd : ¬u8At (wHello 0).data 1 < 0x80 := by decide +kernel
  simp only [agreedChannels, hb, hv, hd, h, not_true_eq_false, or_self, if_false, if_true]
  omega

/-- A session whose FINISH is signed by a credential that the module knows. -/
theorem witness_TheSpdmResponder_signed (c : Nat) (h : Config.spdmSigner [] = some c) :
    let s := { wSes 0 with sec := { (wSes 0).sec with creds := [(c, Role.operator)] } }
    transportUp s .i3c = true ∧ (∃ x, mapFind s.sec.sessions 3 = some x ∧ x.tr = .i3c ∧ x.established = false) ∧ (spdmConn s .i3c).version = 0x12 ∧
      (spdmConn s .i3c).algs = true ∧ Config.spdmSigner (wReqS (some 3) 0x12 1 0 []).body = some c ∧ mapFind s.sec.creds c = some .operator := by
  intro s
  have h1 : transportUp s .i3c = (wSes 0).pow.ended.elem 5 := by simp only [transportUp, s]
  have h2 : mapFind s.sec.sessions 3 = mapFind (wSes 0).sec.sessions 3 := by simp only [s]
  have h3 : spdmConn s .i3c = spdmConn (wSes 0) .i3c := by simp only [spdmConn, s]
  have h4 : mapFind (wSes 0).sec.sessions 3 = some { tr := .i3c, cred := none, last := 0, established := false, keyGen := 0, heartbeat := 0 } := by decide +kernel
  refine ⟨h1.trans (by decide +kernel), ⟨_, h2.trans h4, rfl, rfl⟩, ?_, ?_, h, by simp [s, mapFind]⟩
  · rw [h3]
    decide +kernel
  · rw [h3]
    decide +kernel

/-- The least flash of the order codes. -/
theorem flash_at_least : 12 * 2 ^ 40 ≤ Config.flashLogicalBytes := by
  unfold Config.flashLogicalBytes
  split <;> decide

/-- Page 3 is of partition 0, which asks for it. -/
theorem witness_FlashMarginingAndScrub_own_page : foreignKey (wFlash 1 true) 0 3 = false := by
  have hp : regionOf (wFlash 1 true) (pageAddr 3) = some .flash := by
    have h1 : ¬pageAddr 3 < bulkBytes := by decide +kernel
    have h2 : ¬(stackBase ≤ pageAddr 3 ∧ pageAddr 3 < sramBase) := by decide +kernel
    have h3 : ¬(sramBase ≤ pageAddr 3 ∧ pageAddr 3 < sramBase + 2 ^ 31) := by decide +kernel
    have h4 : ¬(spreadBase ≤ pageAddr 3 ∧ pageAddr 3 < spreadBase + 8 * spreadGib (wFlash 1 true) * gib) := by decide +kernel
    have h5 : flashBase ≤ pageAddr 3 ∧ pageAddr 3 < flashBase + Config.flashLogicalBytes :=
      ⟨by decide +kernel, Nat.lt_of_lt_of_le (by decide +kernel : pageAddr 3 < flashBase + 12 * 2 ^ 40) (Nat.add_le_add_left flash_at_least _)⟩
    simp only [regionOf, h1, h2, h3, h4, h5, if_false, if_true, and_self]
  have h0 : inShare (wFlash 1 true) 0 (pageAddr 3) 1 = true := by
    simp only [inShare, spanRegion, Nat.sub_self, Nat.add_zero, hp, if_true]
    decide +kernel
  have hl : List.range 16 = 0 :: (List.range 15).map (· + 1) := by decide
  simp only [foreignKey, addrOwner, hl, List.find?_cons_of_pos, h0]
  decide

theorem wHeader (r : Option Bool) :
    mpaRead (wRestore r) (pageAddr 64) 24 = [7, 0, 0, 0, 0, 0, 0, 0, 2, 0, 0, 0, 0, 0, 0, 0, 0, 0, 0, 0, 0, 0, 0, 0] := by
  have hl : ∀ i, locate (wRestore r) (pageAddr 64 + i) = pageAddr 64 + i := fun i => by
    have : ¬pageAddr 64 + i < bulkBytes := by
      have : bulkBytes ≤ pageAddr 64 := by decide +kernel
      omega
    have hs : ¬(stackBase ≤ pageAddr 64 + i ∧ pageAddr 64 + i < sramBase) := by
      have : sramBase ≤ pageAddr 64 := by decide +kernel
      omega
    simp only [locate, this, hs, if_false]
  simp only [mpaRead, hl]
  cases r with
  | none => decide +kernel
  | some b => cases b <;> decide +kernel

theorem wSlotLpn (r : Option Bool) : slotLpn (wRestore r) 0 true = 64 := by
  cases r with
  | none => decide +kernel
  | some b => cases b <;> decide +kernel

/-- A slot with a header whose CRC holds: CKPT_RESTORE begins, and the restore of no segment ends. -/
theorem witness_OptimiserAndCheckpoints_header (r : Option Bool) :
    slotHeader (wRestore r) 0 true = some [7, 0, 0, 0, 0, 0, 0, 0, 2, 0, 0, 0, 0, 0, 0, 0, 0, 0, 0, 0, 0, 0, 0, 0] := by
  have hf : ¬Config.flashLogicalBytes < (64 + 1) * pageBytes := by
    unfold Config.flashLogicalBytes
    split <;> decide
  have hz : (List.all [7, 0, 0, 0, 0, 0, 0, 0, 2, 0, 0, 0, 0, 0, 0, 0, 0, 0, 0, 0, 0, 0, 0, (0 : Byte)] (· == 0)) = false := by decide
  have hc : crc32 (mpaRead (wRestore r) (pageAddr (64 + 1)) (64 * u32At [7, 0, 0, 0, 0, 0, 0, 0, 2, 0, 0, 0, 0, 0, 0, 0, 0, 0, 0, 0, 0, 0, 0, 0] 12)) =
      u32At [7, 0, 0, 0, 0, 0, 0, 0, 2, 0, 0, 0, 0, 0, 0, 0, 0, 0, 0, 0, 0, 0, 0, 0] 20 := by
    have h0 : u32At [7, 0, 0, 0, 0, 0, 0, 0, 2, 0, 0, 0, 0, 0, 0, 0, 0, 0, 0, 0, 0, 0, 0, 0] 12 = 0 := by decide +kernel
    rw [h0]
    cases r with
    | none => decide +kernel
    | some b => cases b <;> decide +kernel
  simp only [slotHeader, wSlotLpn, wHeader, hf, hz, hc, ne_eq, not_true_eq_false, or_self, if_false, Bool.false_eq_true]
theorem witness_OptimiserAndCheckpoints_restores :
    (job (wRestore none) 0).upd = none ∧ (job (wRestore none) 0).hoists = [] ∧ (job (wRestore none) 0).restore = none := by decide +kernel

/-- An empty slot. -/
theorem witness_OptimiserAndCheckpoints_empty : slotHeader (wRestore (some false)) 0 false = none ∧ (job (wRestore (some false)) 0).restore = some false := by
  refine ⟨?_, by decide +kernel⟩
  have h : (mpaRead (wRestore (some false)) (pageAddr (slotLpn (wRestore (some false)) 0 false)) 24).all (· == 0) = true := by decide +kernel
  simp only [slotHeader, h, or_true, true_or, if_true]
/-- The restore of that slot, whose table names no segment, runs to its end. -/
theorem witness_OptimiserAndCheckpoints_restore (c : State) :
    (job (wRestore (some true)) 0).restore = some true ∧ bulkSpan (wRestore (some true)) (segAddr (wRestore (some true)) 0 0) 1 = true ∧
      bulkSpan (wRestore (some true)) (gchkAddr (wRestore (some true)) 0 0) (65536 * 32) = true ∧
      hubWaits (wRestore (some true)) (segAddr (wRestore (some true)) 0 0) 0 = false ∧
      hubWaits (wRestore (some true)) (gchkAddr (wRestore (some true)) 0 0) (65536 * 32) = false ∧ (gatherReady (wRestore (some true)) 0).2 = true ∧
      restoreReach c 0 (allHanks c 0 0) = (c, .ok []) ∧ restoreHanks c 0 true 0 7 2 (allHanks c 0 0) 0 = (c, true) :=
  ⟨by decide +kernel, by decide +kernel, by decide +kernel, by decide +kernel, by decide +kernel, by decide +kernel, rfl, rfl⟩

/-! ### Ill-formed commands are refused -/

/-- R83, R84: rows rise and lie below 512. -/
theorem test_wf_rows : Instr.wf (.tilePass 0 0 [3, 2]) = false ∧ Instr.wf (.recompute 0 [512]) = false ∧ Instr.wf (.tilePass 0 0 [0, 511]) = true := by decide +kernel

/-- R206, R280: a store has data and a load a length. -/
theorem test_wf_access : Instr.wf (.memoryAccess (wStore 0 [])) = false ∧ Instr.wf (.memoryAccess { wLoad 0 with len := 0 }) = false ∧
    Instr.wf (.memoryAccess (wLoad 0)) = true := by decide +kernel

/-- R347: LINES says how many lines follow. -/
theorem test_wf_plalia : Instr.wf (.wr 0 (wMsg 0 false 1 0 1 (w64 5))) = false ∧ Instr.wf (.wr 0 (wMsg 0 false 1 0 0 (w64 5))) = true := by decide +kernel

/-- R312: a payload of at most 8,192 bytes; R215: poison inside it. -/
theorem test_wf_frame : Instr.wf (.write (wFr 0 1 0 0 (List.replicate 8193 0))) = false ∧ Instr.wf (.write { wWr 0 0 with bad := [(2, 2)] }) = false ∧
    Instr.wf (.write { wWr 0 0 with bad := [(2, 1)] }) = true := by decide +kernel

/-- R440: an expedited message holds four bytes. -/
theorem test_wf_auquin : Instr.wf (.auquinWrite (wAuq oPowerCap false [1, 2, 3, 4, 5])) = false ∧ Instr.wf (.auquinWrite (wAuq oPowerCap false [1, 2])) = true := by
  decide +kernel

/-- R431: the steps are numbered from 1. -/
theorem test_wf_start : Instr.wf (.startUp (.ends 0 3 7)) = false ∧ Instr.wf (.startUp (.fails 0)) = false ∧ Instr.wf (.startUp (.ends 1 3 7)) = true := by decide +kernel

/-- R347, R393: at least one lane, and a margin whose low end is not above its high end. -/
theorem test_wf_repairs : Instr.wf (.laneRepair 0 0 0) = false ∧ Instr.wf (.marginDone 1 0 0) = false ∧ Instr.wf (.marginDone 0 0 0) = true := by decide +kernel

/-- R350: parity errors lie in the frame's payload; R346: a credit count is a byte. -/
theorem test_wf_parity_and_credits : Instr.wf (.write { wWr 0 0 with hurt := [(2, 2)] }) = false ∧ Instr.wf (.write { wWr 0 0 with hurt := [(1, 2)] }) = true ∧
    Instr.wf (.wr 0 { wMsg 0 false 1 0 0 (w64 5) with creds := [256] }) = false ∧ Instr.wf (.wr 0 { wMsg 0 false 1 0 0 (w64 5) with creds := [255] }) = true := by decide +kernel

/-! ### Steps -/

/-- The table spells no command in bits, so a word spells none. -/
theorem test_table_words : decodeTableWord 8 0x11 = none := by decide

/-- A step runs the command at the front and leaves the others waiting. -/
theorem test_front_first :
    (nextOf (step { wPow 0 with pending := [.inputWarning 40000, .moduleReset] }) (wPow 0)).pending = [.moduleReset] := by decide +kernel

/-- R36: the largest finite E4M3 code 0x7E is 448, its smallest magnitude 2⁻⁹; E2M1 0x7 is 6. -/
theorem test_formats :
    f32Of (ffE4m3.dec 0x01) = 0x3B000000 ∧ f32Of (ffE2m1.dec 0x7) = 0x40C00000 ∧ f32Of (ffE4m3.dec 0x7E) = 0x43E00000 := by
  decide +kernel

/-- IEEE 754 sums of binary32: 1 + 2 = 3; 2²⁴ + 1 is a tie and keeps the even 2²⁴. -/
theorem test_f32_add : f32Add 0x3F800000 0x40000000 = 0x40400000 ∧ f32Add 0x4B800000 0x3F800000 = 0x4B800000 := by decide +kernel

/-- R152: SIGNAL writes its value at its address. -/
theorem test_signal : cellGet (nextOf (exec (.signal u0) (wSp wEng [wRun bSignal])) wEng).mem 0x7000 = 77 := by decide +kernel

/-- R165: TRANSFER_INLINE carries its bytes in the command. -/
theorem test_transfer_inline :
    (spool (nextOf (exec (.transferInline u0) (wSp wEng [wCmd bInline])) wEng) u0).cmds.map (fun c => decide (c.phase = .ended)) = [true] := by decide +kernel

/-- R156: FILL takes an EMPTY bobbin to FILLING, and counts in BOB_ERR on a READY one. -/
theorem test_bob_fill :
    bobState (nextOf (exec (.bobMarkFill (.core 0 .m) 0 0 2) wEng) wEng) 0 2 = bFilling ∧
      getF (nextOf (exec (.bobMarkFill (.core 0 .m) 0 0 0) wEng) wEng) (rBobErr 0 0) fBobErrCount = 1 := by decide +kernel

/-- R206: a store to a granule in RESIDENT_HIGH lands in its frame, the granule's bulk place keeps what it holds. -/
theorem test_store_goes_home :
    let t := nextOf (exec (.memoryAccess (wStore 7 [1, 2])) wGran) wGran
    cellGet t.mem (frameAddr 3 + 7) = 1 ∧ cellGet t.mem (frameAddr 3 + 8) = 2 ∧ cellGet t.mem 7 = 0 := by decide +kernel

/-- R206, R11: a load of eight bytes where 0x0102 was stored. -/
theorem test_load_little_endian :
    (nextOf (exec (.memoryAccess (wLoad 0x1000)) (rawWrite wGran 0x800000 [2, 1])) wGran).hub.accOut = [.data [0, 0, 0, 0, 0, 0, 0, 0] false] := by decide +kernel

/-- R448: a write of another partition's window changes nothing and is counted. -/
theorem test_violation :
    (nextOf (exec (.registerWrite (.core 64 .m) 0x10040000 .w64 5) wOwn) wOwn) = violation wOwn := by decide +kernel

/-- R411: below 41 V is a dip. -/
theorem test_input_warning :
    getF (nextOf (exec (.inputWarning 40999) (wPow 5)) (wPow 5)) rPwrStatus fPwrStatusDip = 1 ∧
      getF (nextOf (exec (.inputWarning 41000) (wPow 5)) (wPow 5)) rPwrStatus fPwrStatusDip = 0 := by decide +kernel

/-- R467: the twentieth low sample of MOD_RST_N resets the module. -/
theorem test_mod_rst_n :
    (nextOf (exec (.modRstN true) (wLow 19 true)) wEng).pow.heldInReset = true ∧ (nextOf (exec (.modRstN true) (wLow 3 true)) wEng).pow.modRstLow = 4 := by decide +kernel

/-- R375: SVN_COMMIT takes the running image's version. -/
theorem test_svn_commit :
    let s := wActs oSvnCommit [1]
    (nextOf (exec .svnCommit { s with sec := { s.sec with slots := [(0, { svn := 6 })], fuseSvn := 4 } }) s).sec.fuseSvn = 6 := by decide +kernel

/-- R356: the guest's write outside its windows is refused and counted. -/
theorem test_guest_refused :
    getF (nextOf (exec (.wr 18 (wMsg 0 false 1 0x10000000 0 (w64 5))) wPla) wPla) (rPlaGuestRefused 18) fPlaGuestRefused = 1 := by decide +kernel

/-- R328: a peer's WRITE lands at its translated address. -/
theorem test_peer_write : cellGet (nextOf (exec (.write (wWr 0 0x9000)) wFab) wFab).mem 0x9001 = 2 := by decide +kernel

/-- R320: a packet that has arrived before is not applied again. -/
theorem test_peer_duplicate : cellGet (nextOf (exec (.write (wWr (2 ^ 24 - 1) 0x9000)) wFab) wFab).mem 0x9001 = 0 := by decide +kernel

/-- R287: CLOSE of the current step moves CUR_STEP on; of another sets CTL_ERR. -/
theorem test_step_close :
    getF (nextOf (exec (.stepClose (.core 0 .m) 0 5) wJob) wJob) (rStepCur 0) fStepCurCurStep = 6 ∧
      getF (nextOf (exec (.stepClose (.core 0 .m) 0 4) wJob) wJob) (rStepStatus 0) fStepStatusCtlErr = 1 := by decide +kernel

/-- R384: the credential that opened a set does not confirm it. -/
theorem test_two_credentials : nextOf (exec (.stageConfirm 1 0) (wStage 0 stSealed)) State.reset = wStage 0 stSealed := by decide +kernel

/-- R434: a READ of subindex 0 answers the highest subindex; R440: its answer carries the request's token. -/
theorem test_auquin_read :
    (nextOf (exec (.auquinRead (wAuq (oMgtLink.1, 0) true [])) (wSes 0)) (wSes 0)).mgmt.rsps.map (fun a => (a.status, a.token)) = [(aqOk, 7)] := by decide +kernel

/-- R377: GET_VERSION names 1.2 and 1.3. -/
theorem test_spdm_version :
    (nextOf (exec (.getVersion (wReqS none 0x12 0 0 [])) (wSes 0)) (wSes 0)).sec.spdmOut = [[0x10, 0x04, 0, 0, 0, 2, 0x00, 0x12, 0x00, 0x13]] := by decide +kernel

/-- R121: custom-0 words, each field at its place of the R-type form: mx.room x5, x6 has funct3 1, and funct3 7 is no instruction. -/
theorem test_mx_words :
    mxDecode ⟨0, 0⟩ 0b00000000000000110001001010001011 = some (.mxRoom ⟨0, 0⟩ 5 6) ∧ mxDecode ⟨0, 0⟩ 0b00000000100000110000001010001011 = some (.mxIssue ⟨0, 0⟩ 5 6 8) ∧
      mxDecode ⟨0, 0⟩ 0b00000000000000110111001010001011 = none := by decide +kernel

/-- The check values of CRC-32 and CRC-32C over the digits 1 to 9. -/
theorem test_crc_check_values :
    crc32 [0x31, 0x32, 0x33, 0x34, 0x35, 0x36, 0x37, 0x38, 0x39] = 0xCBF43926 ∧ crc32c [0x31, 0x32, 0x33, 0x34, 0x35, 0x36, 0x37, 0x38, 0x39] = 0xE3069283 := by decide +kernel

/-- Test case 13 of the GCM specification: a key and a nonce of zeros, and nothing to encrypt. -/
theorem test_aes_gcm :
    aesGcm (List.replicate 32 0) (List.replicate 12 0) [] [] =
      ([], [0x53, 0x0F, 0x8A, 0xFB, 0xC7, 0x45, 0x36, 0xB9, 0xA9, 0x63, 0xB4, 0xF1, 0xC4, 0xCB, 0x73, 0x8B]) := by decide +kernel

end
end

section
namespace Sys2Proof.Machine
open Sys2Proof

/-! PROOFS. Every step keeps memory canonical and the poisoned lines rising.

One law per function of the model that answers a state: `f_sound` says that `f` keeps `Sound`, and each law is put together from the laws
of the functions that `f` calls, in the order of the model. Only the writers of memory and poison (`rawWrite`, `rawZero`, `scramble`,
`writeBack`, `copyGranule`, `revertPage`, `bootState`, `poisonLine`, `unpoison`) have something to show, and they take it from the laws of
`Laws/Memory` and of `lineInsert`; every other function changes other parts of the state, or hands the state on. `exec_sound` and
`step_sound` end the chain.

Where a proof generalizes a function or closes an auxiliary lemma, it is to keep the kernel from computing with the model's literals. -/

variable {s t : State}

/-! ### The canonical form of the poisoned lines -/

theorem rising_cons {x : Nat} {l : List Nat} : Rising (x :: l) ↔ (∀ y ∈ l.head?, x < y) ∧ Rising l := by
  cases l with
  | nil => simp [Rising]
  | cons y l => simp [Rising]

theorem rising_iff_pairwise {l : List Nat} : Rising l ↔ l.Pairwise (· < ·) := by
  induction l with
  | nil => simp [Rising]
  | cons x l ih =>
    rw [rising_cons, ih, List.pairwise_cons]
    refine and_congr_left fun hl => ⟨fun hx y hy => ?_, fun hx y hy => hx y (List.mem_of_head? hy)⟩
    cases l with
    | nil => cases hy
    | cons z l =>
      have hz : x < z := hx z rfl
      rcases List.mem_cons.1 hy with rfl | hy
      · exact hz
      · exact hz.trans (List.rel_of_pairwise_cons hl hy)

theorem filter_rising {l : List Nat} {p : Nat → Bool} (h : Rising l) : Rising (l.filter p) :=
  rising_iff_pairwise.2 ((rising_iff_pairwise.1 h).filter p)

theorem mem_lineInsert {x y : Nat} {l : List Nat} : y ∈ lineInsert l x ↔ y = x ∨ y ∈ l := by
  induction l with
  | nil => simp [lineInsert]
  | cons z l ih => grind [lineInsert]

/-- A line put in its place keeps the list rising. -/
theorem lineInsert_rising {x : Nat} {l : List Nat} (h : Rising l) : Rising (lineInsert l x) := by
  rw [rising_iff_pairwise] at h ⊢
  induction l with
  | nil => simp [lineInsert]
  | cons y l ih =>
    obtain ⟨hy, hl⟩ := List.pairwise_cons.1 h
    unfold lineInsert
    split_ifs with h1 h2
    · exact List.pairwise_cons.2 ⟨fun z hz => (mem_lineInsert.1 hz).elim (fun e => e ▸ h1) (hy z), ih hl⟩
    · exact h
    · have hxy : x < y := by omega
      exact List.pairwise_cons.2 ⟨fun z hz => (List.mem_cons.1 hz).elim (fun e => e ▸ hxy) (fun m => hxy.trans (hy z m)), h⟩

theorem foldl_lineInsert_rising {l ls : List Nat} (h : Rising l) : Rising (ls.foldl lineInsert l) := by
  induction ls generalizing l with
  | nil => exact h
  | cons x ls ih => exact ih (lineInsert_rising h)

/-! ### Sound states -/

/-- Soundness speaks of memory and poison alone. -/
theorem Sound.congr (h : Sound s) (hm : t.mem = s.mem) (hp : t.poison = s.poison) : Sound t := by
  unfold Sound
  rwa [hm, hp]

/-! Each part of the state but memory and poison may change. -/

theorem Sound.withPending {x} (h : Sound s) : Sound { s with pending := x } := h
theorem Sound.withTime {x} (h : Sound s) : Sound { s with time := x } := h
theorem Sound.withFreeCtr {x} (h : Sound s) : Sound { s with freeCtr := x } := h
theorem Sound.withRegs {x} (h : Sound s) : Sound { s with regs := x } := h
theorem Sound.withPend {x} (h : Sound s) : Sound { s with pend := x } := h
theorem Sound.withDict {x} (h : Sound s) : Sound { s with dict := x } := h
theorem Sound.withEng {x} (h : Sound s) : Sound { s with eng := x } := h
theorem Sound.withHub {x} (h : Sound s) : Sound { s with hub := x } := h
theorem Sound.withDev {x} (h : Sound s) : Sound { s with dev := x } := h
theorem Sound.withJobs {x} (h : Sound s) : Sound { s with jobs := x } := h
theorem Sound.withFab {x} (h : Sound s) : Sound { s with fab := x } := h
theorem Sound.withD2d {x} (h : Sound s) : Sound { s with d2d := x } := h
theorem Sound.withSec {x} (h : Sound s) : Sound { s with sec := x } := h
theorem Sound.withRel {x} (h : Sound s) : Sound { s with rel := x } := h
theorem Sound.withPow {x} (h : Sound s) : Sound { s with pow := x } := h
theorem Sound.withMgmt {x} (h : Sound s) : Sound { s with mgmt := x } := h

theorem ite_sound {c : Prop} [Decidable c] (hs : Sound s) (ht : Sound t) : Sound (if c then s else t) := by
  split
  · exact hs
  · exact ht

theorem foldl_sound {α : Type} {f : State → α → State} {l : List α}
    (hf : ∀ t x, Sound t → Sound (f t x)) (h : Sound s) :
    Sound (l.foldl f s) := by
  induction l generalizing s with
  | nil => exact h
  | cons x l ih => exact ih (hf s x h)

theorem foldl_fst_sound {α β : Type} {f : State × β → α → State × β} {l : List α} {p : State × β}
    (hf : ∀ q x, Sound q.1 → Sound (f q x).1) (h : Sound p.1) : Sound (l.foldl f p).1 := by
  induction l generalizing p with
  | nil => exact h
  | cons x l ih => exact ih (hf p x h)

/-- What a meaning answers is sound. -/
def OutcomeSound (o : Host.Outcome State Fault Refusal) : Prop := ∀ t, o = .next t → Sound t

theorem outcomeSound_next : OutcomeSound (.next s) ↔ Sound s := by simp [OutcomeSound]

theorem Sound.of_fst {α : Type} {p : State × α} {x : α} (h : Sound p.1) (e : p = (t, x)) : Sound t := by
  subst e
  exact h

theorem ite_fst_sound {α : Type} {c : Prop} [Decidable c] {p q : State × α} (hp : Sound p.1) (hq : Sound q.1) :
    Sound (if c then p else q).1 := by
  split
  · exact hp
  · exact hq

theorem foldr_sound {α : Type} {f : α → State → State} {l : List α}
    (hf : ∀ t x, Sound t → Sound (f x t)) (h : Sound s) :
    Sound (l.foldr f s) := by
  induction l with
  | nil => exact h
  | cons x l ih => exact hf _ x ih

theorem Sound.of_snd {α : Type} {p : α × State} {x : α} (h : Sound p.2) (e : p = (x, t)) : Sound t := by
  subst e
  exact h

theorem ite_snd_sound {α : Type} {c : Prop} [Decidable c] {p q : α × State} (hp : Sound p.2) (hq : Sound q.2) :
    Sound (if c then p else q).2 := by
  split
  · exact hp
  · exact hq

/-! The same for what the Carder threads through its reads. -/

theorem Sound.rd_of_fst {α : Type} {p : Rd × α} {r : Rd} {x : α} (h : Sound p.1.s) (e : p = (r, x)) :
    Sound r.s := by
  subst e
  exact h

theorem ite_fst_rd_sound {α : Type} {c : Prop} [Decidable c] {p q : Rd × α} (hp : Sound p.1.s) (hq : Sound q.1.s) :
    Sound (if c then p else q).1.s := by
  split
  · exact hp
  · exact hq

/-! ### Registers, objects and memory -/

theorem setR_sound {r v} (h : Sound s) : Sound (setR s r v) := h

theorem setF_sound {r f x} (h : Sound s) : Sound (setF s r f x) := h

theorem setB_sound {r f b} (h : Sound s) : Sound (setB s r f b) := h

theorem bump_sound {r f n} (h : Sound s) : Sound (bump s r f n) := h

theorem advance_sound {r f n} (h : Sound s) : Sound (advance s r f n) := h

theorem setPend_sound {r v} (h : Sound s) : Sound (setPend s r v) := h

theorem setObj_sound {k v} (h : Sound s) : Sound (setObj s k v) := h

theorem setObjNat_sound {k n v} (h : Sound s) : Sound (setObjNat s k n v) := h

theorem drawFree_sound (h : Sound s) : Sound (drawFree s).2 := h.withFreeCtr

theorem poisonLine_sound {l} (h : Sound s) : Sound (poisonLine s l) := ⟨h.1, lineInsert_rising h.2⟩

theorem unpoison_sound {a n} (h : Sound s) : Sound (unpoison s a n) := ⟨h.1, filter_rising h.2⟩

theorem rawWrite_sound {a bs} (h : Sound s) : Sound (rawWrite s a bs) := unpoison_sound ⟨cellsPut_wf _ _ _ h.1, h.2⟩

theorem rawZero_sound {a n} (h : Sound s) : Sound (rawZero s a n) := unpoison_sound ⟨cellsZero_wf _ _ _ h.1, h.2⟩

theorem scramble_sound {a n} (h : Sound s) : Sound (scramble s a n) :=
  unpoison_sound ⟨cellsSplice_wf _ _ _ _ h.1, h.2⟩

theorem setGran_sound {g x} (h : Sound s) : Sound (setGran s g x) := h

theorem breachWrite_sound {l whole} (h : Sound s) : Sound (breachWrite s l whole) := by
  unfold breachWrite
  dsimp only
  split
  · exact h
  · exact ite_sound h.withHub (scramble_sound h)

theorem mpaWrite_sound {a bs} (h : Sound s) : Sound (mpaWrite s a bs) :=
  foldl_sound (fun _ _ ht => breachWrite_sound (rawWrite_sound ht)) h

theorem mpaPoison_sound {a n} (h : Sound s) : Sound (mpaPoison s a n) :=
  foldl_sound (fun _ _ ht => poisonLine_sound ht) h

theorem mpaPutNat_sound {a n v} (h : Sound s) : Sound (mpaPutNat s a n v) := mpaWrite_sound h

theorem imsicSet_sound {c f id} (h : Sound s) : Sound (imsicSet s c f id) := ite_sound h.withMgmt h

theorem sendMsi_sound {addr data} (h : Sound s) : Sound (sendMsi s addr data) := by
  unfold sendMsi
  dsimp only
  refine ite_sound h ?_
  split
  · exact imsicSet_sound h.withMgmt
  · exact h.withMgmt

/-! ### Rights and shares -/

theorem setEngAux_sound {e x} (h : Sound s) : Sound (setEngAux s e x) := h

theorem wakeFor_sound {e} (h : Sound s) : Sound (wakeFor s e) := ite_sound h (setEngAux_sound h)

theorem wakeAt_sound {a} (h : Sound s) : Sound (wakeAt s a) := by
  unfold wakeAt
  split
  · exact wakeFor_sound h
  · exact h

theorem withLayout_sound {l} (h : Sound s) : Sound (withLayout s l) := foldl_sound (fun _ _ ht => setObj_sound ht) h

theorem violation_sound (h : Sound s) : Sound (violation s) := h

theorem guarded_sound {ag k f} (hf : ∀ t, Sound t → Sound (f t)) (h : Sound s) : Sound (guarded s ag k f) :=
  ite_sound (hf _ h) (violation_sound h)

/-! ### Counters, errors and faults -/

theorem dirDrop_sound {line} (h : Sound s) : Sound (dirDrop s line) := h

theorem dropResv_sound {line} (h : Sound s) : Sound (dropResv s line) := h

theorem writeBack_sound {l bs} (h : Sound s) : Sound (writeBack s l bs) := ⟨cellsPut_wf _ _ _ h.1, h.2⟩

theorem recallLine_sound {line discard} (h : Sound s) : Sound (recallLine s line discard) := by
  unfold recallLine
  dsimp only
  split
  · exact dropResv_sound h
  refine dropResv_sound ?_
  refine dirDrop_sound ?_
  refine bump_sound ?_
  split
  · exact ite_sound h (writeBack_sound h)
  · exact h

theorem cohWrite_sound {a bs} (h : Sound s) : Sound (cohWrite s a bs) :=
  mpaWrite_sound (foldl_sound (fun _ _ ht => recallLine_sound ht) h)

theorem touchFrame_sound {f} (h : Sound s) : Sound (touchFrame s f) := by
  unfold touchFrame
  dsimp only
  split
  · exact setGran_sound h
  · exact h

theorem restartAges_sound {a n} (h : Sound s) : Sound (restartAges s a n) :=
  foldl_sound (fun _ _ ht => ite_sound (setGran_sound ht) ht) (foldl_sound (fun _ _ ht => touchFrame_sound ht) h)

theorem hubTouch_sound {a n} (h : Sound s) : Sound (hubTouch s a n) := restartAges_sound (bump_sound h)

theorem hubLand_sound {a bs} (h : Sound s) : Sound (hubLand s a bs) := restartAges_sound (cohWrite_sound h)

theorem hubPut_sound {a bs} (h : Sound s) : Sound (hubPut s a bs) :=
  ite_sound h (ite_sound h.withHub (hubLand_sound h))

theorem RingRegs.land_sound {r a bs} (h : Sound s) : Sound (RingRegs.land r s a bs) := by
  unfold RingRegs.land
  dsimp only
  split
  · exact sendMsi_sound (advance_sound (hubLand_sound h))
  · exact advance_sound (hubLand_sound h)

theorem RingRegs.put_sound {r bs} (h : Sound s) : Sound (RingRegs.put r s bs) :=
  ite_sound h.withHub (RingRegs.land_sound h)

theorem landWrites_sound {kept l} (h : Sound s) : Sound (landWrites s kept l) := by
  induction l generalizing s kept with
  | nil =>
    unfold landWrites
    dsimp only
    exact h.withHub
  | cons x l ih =>
    unfold landWrites
    dsimp only
    refine ite_sound (ih h) ?_
    refine ih ?_
    split
    · exact RingRegs.land_sound h.withHub
    · exact hubLand_sound h.withHub

theorem releaseWrites_sound (h : Sound s) : Sound (releaseWrites s) := landWrites_sound h

theorem evrCount_sound {sec inst word n} (h : Sound s) : Sound (evrCount s sec inst word n) := h

theorem evrEvent_sound {sec inst payload} (h : Sound s) : Sound (evrEvent s sec inst payload) := h

theorem evrLatency_sound {inst ns} (h : Sound s) : Sound (evrLatency s inst ns) := h

theorem errPut_sound {r i supp countDrop} (h : Sound s) : Sound (errPut s r i supp countDrop) :=
  ite_sound (ite_sound (bump_sound h) h) (RingRegs.put_sound h)

theorem errLast_sound {bs} (h : Sound s) : Sound (errLast s bs) := h

theorem errWrite_sound {i owner supp} (h : Sound s) : Sound (errWrite s i owner supp) := by
  unfold errWrite
  dsimp only
  refine ite_sound ?_ ?_
  · refine ite_sound ?_ ?_
    · refine setF_sound ?_
      refine Sound.withRel ?_
      refine errLast_sound ?_
      split
      · exact ite_sound (errPut_sound (errPut_sound h)) (errPut_sound h)
      · exact errPut_sound h
    · refine Sound.withRel ?_
      refine errLast_sound ?_
      split
      · exact ite_sound (errPut_sound (errPut_sound h)) (errPut_sound h)
      · exact errPut_sound h
  · split
    · exact ite_sound (errPut_sound (errPut_sound h)) (errPut_sound h)
    · exact errPut_sound h

theorem logError_sound {i owner} (h : Sound s) : Sound (logError s i owner) :=
  ite_sound (ite_sound ((ite_sound (evrEvent_sound (evrCount_sound h)) (evrCount_sound h)).withRel)
      (errWrite_sound ((ite_sound (evrEvent_sound (evrCount_sound h)) (evrCount_sound h)).withRel)))
      (errWrite_sound (ite_sound (evrEvent_sound (evrCount_sound h)) (evrCount_sound h)))

theorem slcPages_sound {n} (h : Sound s) : Sound (slcPages s n) := h

theorem addRepair_sound {kind die unit bank target spare} (h : Sound s) : Sound
    (addRepair s kind die unit bank target spare) :=
  ite_sound h (evrEvent_sound ((slcPages_sound h).withRel))

theorem setJob_sound {p j} (h : Sound s) : Sound (setJob s p j) := h

theorem raisePennant_sound {p step cause} (h : Sound s) : Sound (raisePennant s p step cause) :=
  ite_sound h (setJob_sound h)

theorem consumePoison_sound {p step a unit die} (h : Sound s) : Sound (consumePoison s p step a unit die) := by
  unfold consumePoison
  dsimp only
  split
  · exact raisePennant_sound (logError_sound h)
  · exact logError_sound h

/-! ### The flash tier and its granules -/

theorem queueMig_sound {m} (h : Sound s) : Sound (queueMig s m) := ite_sound (setF_sound h) h.withHub

theorem queuePromotion_sound {g astag part} (h : Sound s) : Sound (queuePromotion s g astag part) := queueMig_sound h

theorem takeHot_sound {k} (h : Sound s) : Sound (takeHot k s) := by
  induction k generalizing s with
  | zero =>
    unfold takeHot
    exact h
  | succ k ih =>
    unfold takeHot
    dsimp only
    exact ih (ite_sound (queuePromotion_sound (advance_sound h)) (advance_sound h))

theorem promoteHot_sound (h : Sound s) : Sound (promoteHot s) := ite_sound (takeHot_sound h) h

theorem hotReport_sound {g astag first} (h : Sound s) : Sound (hotReport s g astag first) :=
  ite_sound (setGran_sound (bump_sound h)) (promoteHot_sound (RingRegs.put_sound (setGran_sound h)))

theorem touchGranule_sound {g astag hint lines} (h : Sound s) : Sound (touchGranule s g astag hint lines) :=
  ite_sound (setGran_sound h) (ite_sound h
      (ite_sound (ite_sound (hotReport_sound (ite_sound h.withHub (setGran_sound h.withHub)))
      (ite_sound (hotReport_sound (ite_sound h.withHub (setGran_sound h.withHub)))
      (ite_sound h.withHub (setGran_sound h.withHub)))) h))

theorem touchSpan_sound {a n astag hint} (h : Sound s) : Sound (touchSpan s a n astag hint) :=
  foldl_sound (fun _ _ ht => touchGranule_sound ht) (foldl_sound (fun _ _ ht => touchFrame_sound ht) h)

/-! ### Address translation -/

theorem walk_sound {astag part va} (h : Sound s) : Sound (walk s astag part va).1 := by
  have hwalk : Sound (bump s rRhWalks fRhWalksCount 1) := bump_sound h
  have hroot := fun a => hubTouch_sound (a := a) (n := 16) hwalk
  unfold walk
  dsimp only
  refine ite_fst_sound h (ite_fst_sound hwalk (ite_fst_sound hwalk (ite_fst_sound (hroot _) (ite_fst_sound (hroot _) ?_))))
  have hread := fun (l : List Nat) a t => foldl_sound (l := l) (fun t j (ht : Sound t) => hubTouch_sound (a := a + 32 * j) (n := 32) ht) (s := t)
  refine ite_fst_sound (bump_sound (hread _ _ _ ?_)) (ite_fst_sound (hread _ _ _ ?_) (ite_fst_sound (bump_sound (hread _ _ _ ?_))
    (ite_fst_sound (ite_sound (bump_sound (hread _ _ _ ?_)) (hread _ _ _ ?_)) (ite_sound (bump_sound (hread _ _ _ ?_)) (hread _ _ _ ?_)))))
  all_goals exact ite_sound (hroot _) (drawFree_sound (hroot _))

theorem setRc_sound {c l} (h : Sound s) : Sound (setRc s c l) := by
  unfold setRc
  dsimp only
  split
  · exact setEngAux_sound h
  · exact h.withHub

theorem rcInstall_sound {c e} (h : Sound s) : Sound (rcInstall s c e) := setRc_sound h

theorem rcLookup_sound {c astag va} (h : Sound s) : Sound (rcLookup s c astag va).1 := by
  unfold rcLookup
  dsimp only
  split
  · split
    · exact bump_sound (setRc_sound h)
    · exact setRc_sound h
  split
  · exact bump_sound h
  · exact h

theorem flushCaches_sound {astag all} (h : Sound s) : Sound (flushCaches s astag all) := h

theorem flushDone_sound {f} (h : Sound s) : Sound (flushDone s f) := ite_sound (advance_sound h) h

theorem runFlushes_sound {l} (h : Sound s) : Sound (runFlushes s l) := by
  induction l generalizing s with
  | nil => exact h.withHub
  | cons f l ih =>
    unfold runFlushes
    split
    next s₁ f₁ hs =>
    have hs₁ : Sound s₁ := by
      split at hs
      · exact h.of_fst hs
      · exact (flushCaches_sound h).of_fst hs
    exact ite_sound hs₁.withHub (ih (flushDone_sound hs₁))

theorem pumpFlushes_sound (h : Sound s) : Sound (pumpFlushes s) := (runFlushes_sound h).withHub

theorem flushGranule_sound {g drain} (h : Sound s) : Sound (flushGranule s g drain) := pumpFlushes_sound h.withHub

theorem lookupEntry_sound {q va} (h : Sound s) : Sound (lookupEntry s q va).1 := by
  unfold lookupEntry
  split
  · next hr => exact (rcLookup_sound h).of_fst hr
  next hr =>
  have hr := (rcLookup_sound h).of_fst hr
  split
  · next hr₁ => exact rcInstall_sound ((walk_sound hr).of_fst hr₁)
  · next hr₁ => exact (walk_sound hr).of_fst hr₁

theorem xlatePiece_sound {q va n} (h : Sound s) : Sound (xlatePiece s q va n).1 := by
  unfold xlatePiece
  dsimp only
  split
  · next hr => exact (lookupEntry_sound h).of_fst hr
  · next hr => exact (lookupEntry_sound h).of_fst hr
  next hr =>
  have hr := (lookupEntry_sound h).of_fst hr
  split
  · exact hr
  · exact ite_fst_sound hr hr

theorem xlateFrom_sound {q k va n acc} (h : Sound s) : Sound (xlateFrom s q k va n acc).1 := by
  induction k generalizing s va n acc with
  | zero =>
    unfold xlateFrom
    dsimp only
    exact h
  | succ k ih =>
    unfold xlateFrom
    dsimp only
    refine ite_fst_sound h ?_
    split
    · next hr => exact ih ((xlatePiece_sound h).of_fst hr)
    · next hr => exact (xlatePiece_sound h).of_fst hr

theorem xlate_sound {q va n} (h : Sound s) : Sound (xlate s q va n).1 := by
  unfold xlate
  split
  · next hr =>
      have hr := (xlateFrom_sound h).of_fst hr
      exact ite_fst_sound hr hr
  · next hr => exact (xlateFrom_sound h).of_fst hr

theorem piecesTouch_sound {ps} (h : Sound s) : Sound (piecesTouch s ps) :=
  foldl_sound (fun _ _ ht => touchSpan_sound (ite_sound (bump_sound ht) ht)) h

theorem piecesWrite_sound {ps bs} (h : Sound s) : Sound (piecesWrite s ps bs) :=
  foldl_fst_sound (fun _ _ ht => wakeAt_sound (touchSpan_sound (ite_sound (cohWrite_sound ht) (mpaWrite_sound ht)))) h

theorem piecesDeliver_sound {ps o n} (h : Sound s) : Sound (piecesDeliver s ps o n) :=
  foldl_fst_sound (fun _ _ ht => ite_sound (mpaPoison_sound ht) ht) h

theorem piecesScramble_sound {ps} (h : Sound s) : Sound (piecesScramble s ps) :=
  foldl_sound (fun _ _ ht => mpaWrite_sound ht) h.withFreeCtr

/-! ### Bobbins and context slots -/

theorem setCtxAux_sound {e n x} (h : Sound s) : Sound (setCtxAux s e n x) := h

theorem setBobAux_sound {e b x} (h : Sound s) : Sound (setBobAux s e b x) := h

theorem bobErr_sound {e n} (h : Sound s) : Sound (bobErr s e n) := h

theorem setBob_sound {e b st holder marked rem} (h : Sound s) : Sound (setBob s e b st holder marked rem) := h

theorem bobToEmpty_sound {e b} (h : Sound s) : Sound (bobToEmpty s e b) := h

theorem bobFill_sound {u slot b cont} (h : Sound s) : Sound (bobFill s u slot b cont) := h

theorem setTask_sound {e i t} (h : Sound s) : Sound (setTask s e i t) := h

theorem setTaskState_sound {e i st} (h : Sound s) : Sound (setTaskState s e i st) := h

theorem freeCore_sound {e i} (h : Sound s) : Sound (freeCore s e i) := by
  unfold freeCore
  dsimp only
  split
  · exact setF_sound (setF_sound h)
  · exact ite_sound (setF_sound (setTask_sound h)) h

theorem taskToReady_sound {e i} (h : Sound s) : Sound (taskToReady s e i) :=
  setTaskState_sound (setTask_sound (ite_sound (freeCore_sound h) h))

theorem wakeTasks_sound {e} (h : Sound s) : Sound (wakeTasks s e) := by
  unfold wakeTasks
  dsimp only
  refine foldl_sound (fun _ _ ht => ?_) h
  refine ite_sound ?_ (ite_sound (ite_sound (taskToReady_sound ht) ht) ht)
  split
  · exact ite_sound (taskToReady_sound ht) ht
  · exact ht

theorem bobToReady_sound {e b readers} (h : Sound s) : Sound (bobToReady s e b readers) :=
  wakeTasks_sound (setBobAux_sound (setBob_sound h))

theorem bobRead_sound {e n b} (h : Sound s) : Sound (bobRead s e n b) := by
  unfold bobRead
  refine ite_sound (bobErr_sound h) ?_
  split
  · exact h
  · exact bobToEmpty_sound h
  · exact setF_sound h

theorem releaseAll_sound {e n} (h : Sound s) : Sound (releaseAll s e n) :=
  foldl_sound (fun _ _ ht => ite_sound (bobToEmpty_sound ht) ht) h

/-! ### Spool records and completion -/

theorem setSpool_sound {u sp} (h : Sound s) : Sound (setSpool s u sp) := h

theorem setSpState_sound {u st} (h : Sound s) : Sound (setSpState s u st) := h

theorem updCmd_sound {u slot f} (h : Sound s) : Sound (updCmd s u slot f) := h

theorem endCmd_sound {u slot status detail} (h : Sound s) : Sound (endCmd s u slot status detail) :=
  ite_sound (setSpState_sound (updCmd_sound h)) (updCmd_sound h)

theorem tierHold_sound {u slot spans} (h : Sound s) : Sound (tierHold s u slot spans) := ite_sound h h.withHub

theorem tierDrop_sound {u slot} (h : Sound s) : Sound (tierDrop s u slot) := h

theorem tierDone_sound {u slot} (h : Sound s) : Sound (tierDone s u slot) :=
  foldl_sound (fun _ _ ht => foldl_sound (fun _ _ hu => mpaPoison_sound hu) ht) (tierDrop_sound h)

theorem xlateRing_sound {u write va n} (h : Sound s) : Sound (xlateRing s u write va n).1 := by
  unfold xlateRing
  dsimp only
  split
  · next hr =>
      have hr := (xlate_sound h).of_fst hr
      exact ite_fst_sound hr hr
  · exact (xlate_sound h)

theorem putFault_sound {e n bs} (h : Sound s) : Sound (putFault s e n bs) :=
  ite_sound (bump_sound h) (ite_sound (bump_sound (setCtxAux_sound h)) (RingRegs.put_sound h))

theorem flushFaults_sound {e n k} (h : Sound s) : Sound (flushFaults s e n k) := by
  induction k generalizing s with
  | zero =>
    unfold flushFaults
    exact h
  | succ k ih =>
    unfold flushFaults
    dsimp only
    split
    · exact h
    · exact ite_sound h (ih (RingRegs.put_sound (setCtxAux_sound h)))

theorem takeSeq_sound {e n} (h : Sound s) : Sound (takeSeq s e n).2 := setCtxAux_sound h

theorem flushConsults_sound (h : Sound s) : Sound (flushConsults s) :=
  foldl_sound (fun _ _ ht => ite_sound ht ((RingRegs.put_sound ht).withHub)) h

theorem addConsult_sound {req e} (h : Sound s) : Sound (addConsult s req e).1 := flushConsults_sound h.withHub

theorem scrambleBob_sound {e b} (h : Sound s) : Sound (scrambleBob s e b) := scramble_sound h

theorem dropHub_sound {u slot} (h : Sound s) : Sound (dropHub s u slot) := h

theorem dropRun_sound {u slot} (h : Sound s) : Sound (dropRun s u slot) :=
  ite_sound (setEngAux_sound h) (bump_sound (evrCount_sound (setEngAux_sound h)))

theorem releaseSets_sound {e n f} (h : Sound s) : Sound (releaseSets s e n f) :=
  foldl_sound (fun _ _ ht => setF_sound ht) (setEngAux_sound h)

theorem endTask_sound {e i status detail} (h : Sound s) : Sound (endTask s e i status detail) := by
  unfold endTask
  dsimp only
  split
  · exact endCmd_sound ((setTaskState_sound (ite_sound (freeCore_sound h) h)).withEng)
  · exact (setTaskState_sound (ite_sound (freeCore_sound h) h)).withEng

theorem xlatePrefix_sound {q k va n acc} (h : Sound s) : Sound (xlatePrefix s q k va n acc).1 := by
  induction k generalizing s va n acc with
  | zero =>
    unfold xlatePrefix
    dsimp only
    exact h
  | succ k ih =>
    unfold xlatePrefix
    dsimp only
    refine ite_fst_sound h ?_
    split
    · next hr => exact ih ((xlatePiece_sound h).of_fst hr)
    · next hr => exact (xlatePiece_sound h).of_fst hr

theorem scrambleOut_sound {u c} (h : Sound s) : Sound (scrambleOut s u c) :=
  ite_sound h (piecesScramble_sound h.withFreeCtr)

theorem dropConsults_sound {f} (h : Sound s) : Sound (dropConsults s f) := h

theorem dropAccesses_sound {f} (h : Sound s) : Sound (dropAccesses s f) := h

theorem cancelCmd_sound {u c} (h : Sound s) : Sound (cancelCmd s u c) := by
  unfold cancelCmd
  dsimp only
  refine ite_sound h ?_
  refine endCmd_sound ?_
  split
  · exact endTask_sound (dropHub_sound (dropRun_sound
        (tierDrop_sound (dropConsults_sound (foldl_sound (fun _ _ ht => scrambleBob_sound ht)
        (ite_sound (scrambleOut_sound h) h))))))
  · exact dropHub_sound (dropRun_sound (tierDrop_sound
        (dropConsults_sound (foldl_sound (fun _ _ ht => scrambleBob_sound ht) (ite_sound (scrambleOut_sound h) h)))))

theorem cancelCmds_sound {u f} (h : Sound s) : Sound (cancelCmds s u f) :=
  foldl_sound (fun _ _ ht => cancelCmd_sound ht) h

theorem skipUnfetched_sound {u} (h : Sound s) : Sound (skipUnfetched s u).1 :=
  (dropConsults_sound (setSpool_sound h)).withEng

theorem cancelSpool_sound {u} (h : Sound s) : Sound (cancelSpool s u).1 := skipUnfetched_sound (cancelCmds_sound h)

theorem unaccountPromotions_sound {astag part} (h : Sound s) : Sound (unaccountPromotions s astag part) := h

theorem killCtx_sound {e n k} (h : Sound s) : Sound (killCtx s e n k) :=
  unaccountPromotions_sound (releaseSets_sound
      (dropAccesses_sound (foldl_sound (fun _ _ ht => setSpool_sound (cancelSpool_sound (setSpState_sound ht)))
      (setF_sound (setCtxAux_sound (foldl_sound (fun _ _ ht => raisePennant_sound ht) h))))))

theorem endFaulted_sound {u c status detail} (h : Sound s) : Sound (endFaulted s u c status detail) := by
  unfold endFaulted
  dsimp only
  split
  · exact endTask_sound (dropHub_sound (dropRun_sound
        (tierDrop_sound (dropConsults_sound (foldl_sound (fun _ _ ht => scrambleBob_sound ht)
        (scrambleOut_sound h))))))
  · exact endCmd_sound (dropHub_sound (dropRun_sound
        (tierDrop_sound (dropConsults_sound (foldl_sound (fun _ _ ht => scrambleBob_sound ht)
        (scrambleOut_sound h))))))

theorem faultCmd_sound {u slot i replay} (h : Sound s) : Sound (faultCmd s u slot i replay) := by
  unfold faultCmd
  dsimp only
  split
  · exact h
  refine ite_sound h ?_
  refine ite_sound (endFaulted_sound h) ?_
  refine ite_sound h ?_
  refine ite_sound ?_ (ite_sound (killCtx_sound (endFaulted_sound h))
      (killCtx_sound (endFaulted_sound (putFault_sound (takeSeq_sound h)))))
  refine putFault_sound ?_
  split
  · exact setTask_sound (ite_sound (freeCore_sound (updCmd_sound (takeSeq_sound h))) (updCmd_sound (takeSeq_sound h)))
  · exact updCmd_sound (takeSeq_sound h)

theorem stallRecord_sound {u tag slot first limit} (h : Sound s) : Sound (stallRecord s u tag slot first limit).2 :=
  ite_snd_sound h (putFault_sound (takeSeq_sound h))

theorem killStalled_sound {u c limit} (h : Sound s) : Sound (killStalled s u c limit) := by
  unfold killStalled
  dsimp only
  split
  · exact h
  · exact killCtx_sound (endFaulted_sound (stallRecord_sound h))

theorem writeRec_sound {u x ps} (h : Sound s) : Sound (writeRec s u x ps) :=
  ite_sound (sendMsi_sound (setR_sound (piecesWrite_sound h))) (setR_sound (piecesWrite_sound h))

theorem recFault_sound {u i replay} (h : Sound s) : Sound (recFault s u i replay) := by
  unfold recFault
  dsimp only
  split
  · exact h
  · exact ite_sound (setSpool_sound h) (ite_sound (putFault_sound (setSpool_sound (takeSeq_sound h)))
        (ite_sound (killCtx_sound (setSpool_sound h))
        (killCtx_sound (putFault_sound (takeSeq_sound (setSpool_sound h))))))

theorem flushRecs_sound {u k} (h : Sound s) : Sound (flushRecs s u k) := by
  induction k generalizing s with
  | zero =>
    unfold flushRecs
    exact h
  | succ k ih =>
    unfold flushRecs
    dsimp only
    split
    · refine ite_sound h ?_
      split
      · next hr => exact ih (writeRec_sound (setSpool_sound ((xlateRing_sound h).of_fst hr)))
      · next hr => exact (xlateRing_sound h).of_fst hr
      · next hr =>
          have hr := (xlateRing_sound h).of_fst hr
          exact ite_sound hr (addConsult_sound hr)
      · next hr => exact ih (recFault_sound ((xlateRing_sound h).of_fst hr))
    · exact h

theorem settle_sound {u} (h : Sound s) : Sound (settle s u) :=
  ite_sound (setCtxAux_sound (setB_sound (ite_sound (setSpState_sound h) h))) (ite_sound (setSpState_sound h) h)

theorem flushSpool_sound {u} (h : Sound s) : Sound (flushSpool s u) :=
  settle_sound (setSpool_sound (flushRecs_sound h))

theorem flushWaitingRecs_sound (h : Sound s) : Sound (flushWaitingRecs s) :=
  foldl_sound (fun _ _ ht => ite_sound ht (flushSpool_sound ht)) h

theorem settleBobs_sound {u c} (h : Sound s) : Sound (settleBobs s u c) :=
  ite_sound (foldl_sound (fun _ _ ht => bobToEmpty_sound (scrambleBob_sound ht))
      (foldl_sound (fun _ _ ht => ite_sound (ite_sound ht (bobToReady_sound ht)) (ite_sound (bobToEmpty_sound ht) ht))
      h)) (foldl_sound (fun _ _ ht => bobRead_sound ht)
      (foldl_sound (fun _ _ ht => bobToEmpty_sound (scrambleBob_sound ht))
      (foldl_sound (fun _ _ ht => ite_sound (ite_sound ht (bobToReady_sound ht)) (ite_sound (bobToEmpty_sound ht) ht))
      h)))

theorem completeCmd_sound {u c} (h : Sound s) : Sound (completeCmd s u c) := by
  unfold completeCmd
  exact flushSpool_sound (setEngAux_sound
      (foldl_sound (fun _ _ ht => foldl_sound (fun _ _ hu => ite_sound (endCmd_sound (updCmd_sound hu))
      (updCmd_sound hu)) ht) (ite_sound (setSpool_sound
      (ite_sound (setSpool_sound (settleBobs_sound h)) (setF_sound (setSpool_sound (settleBobs_sound h)))))
      (ite_sound (setSpool_sound (settleBobs_sound h)) (setF_sound (setSpool_sound (settleBobs_sound h)))))))

/-! ### Which command starts -/

theorem markStart_sound {u c} (h : Sound s) : Sound (markStart s u c).1 := ite_fst_sound (setEngAux_sound h) h

theorem putCmd_sound {u c} (h : Sound s) : Sound (putCmd s u c) := h

theorem cmdPoison_sound {u step a} (h : Sound s) : Sound (cmdPoison s u step a) := consumePoison_sound h

theorem applyAct_sound {before : State} {u c a1} (h : Sound before) (h' : Sound s) : Sound (applyAct before s u c a1)
    := by
  unfold applyAct
  dsimp only
  split
  · exact h
  · exact tierHold_sound h
  · exact tierHold_sound (putCmd_sound h')
  · exact endCmd_sound (putCmd_sound (tierDone_sound h'))
  · exact putCmd_sound (tierDone_sound h')
  · exact faultCmd_sound (putCmd_sound (tierDone_sound h'))
  · exact updCmd_sound (addConsult_sound (putCmd_sound (tierDone_sound h')))

theorem refuseBobs_sound {u sel bad bobs} (h : Sound s) : Sound (refuseBobs s u sel bad bobs) := by
  unfold refuseBobs
  dsimp only
  split
  · exact h
  · exact ite_sound (endCmd_sound (putCmd_sound (markStart_sound h))) h

theorem runCmd_sound {u sel bad bobs body} (hbody : ∀ t c, Sound t → Sound (body t c).1) (h : Sound s) : Sound
    (runCmd s u sel bad bobs body) := by
  unfold runCmd
  dsimp only
  split
  · exact refuseBobs_sound h
  · exact ite_sound (refuseBobs_sound h)
        (ite_sound (endCmd_sound (putCmd_sound (raisePennant_sound (markStart_sound h))))
        (ite_sound (endCmd_sound (putCmd_sound (markStart_sound h)))
        (ite_sound (endCmd_sound (putCmd_sound (markStart_sound h)))
        (applyAct_sound h (hbody _ _ (markStart_sound h))))))

theorem reach_sound {q va n} (h : Sound s) : Sound (reach s q va n).1 := by
  unfold reach
  split
  · next hr => exact (xlate_sound h).of_fst hr
  · next hr => exact (xlate_sound h).of_fst hr
  · next hr => exact (xlate_sound h).of_fst hr
  · next hr => exact (xlate_sound h).of_fst hr

theorem bobWrite_sound {e b off bs} (h : Sound s) : Sound (bobWrite s e b off bs) := mpaWrite_sound h

/-! ### Pieces of an operand -/

theorem Tgt.put_sound {t off bs} (h : Sound s) : Sound (Tgt.put t s off bs) := by
  unfold Tgt.put
  split
  · exact mpaWrite_sound h
  · exact piecesWrite_sound h

theorem Tgt.zero_sound {t off n} (h : Sound s) : Sound (Tgt.zero t s off n) := Tgt.put_sound h

theorem Tgt.poison_sound {t off n} (h : Sound s) : Sound (Tgt.poison t s off n) := by
  unfold Tgt.poison
  split
  · exact mpaPoison_sound h
  · exact piecesDeliver_sound h

theorem putAll_sound {t ws} (h : Sound s) : Sound (putAll s t ws) := foldl_sound (fun _ _ ht => Tgt.put_sound ht) h

/-! ### Results of an array -/

theorem setStat_sound {e i x} (h : Sound s) : Sound (setStat s e i x) := h

theorem statUpdate_sound {e tensor t} (h : Sound s) : Sound (statUpdate s e tensor t) := h

/-! ### The spools under control of their registers -/

theorem whenAwake_sound {e c f} (hf : ∀ t, Sound t → Sound (f t)) (h : Sound s) : Sound (whenAwake s e c f) :=
  ite_sound (hf _ h) (setEngAux_sound h)

theorem doorbell_sound {ag u tail} (h : Sound s) : Sound (doorbell s ag u tail) := by
  unfold doorbell
  extract_lets sp old held s₁
  have htail : Sound s₁ := setR_sound h
  refine ite_sound (setF_sound h) ?_
  split
  · exact ite_sound (setF_sound (setSpool_sound htail)) htail
  · exact htail

theorem execSqTail_sound {ag u val} (h : Sound s) : OutcomeSound (execSqTail ag u val s) :=
  outcomeSound_next.2 (guarded_sound (fun _ ht => whenAwake_sound (fun _ hu => doorbell_sound hu) ht) h)

theorem putOut_sound {v} (h : Sound s) : Sound (putOut s v) := h

theorem lockRead_sound {ag u} (h : Sound s) : Sound (lockRead s ag u).1 := by
  unfold lockRead
  dsimp only
  split
  · exact ite_fst_sound (ite_sound (setF_sound (setSpool_sound h)) h) h
  · exact ite_sound (setF_sound (setSpool_sound (setF_sound (setSpool_sound h)))) (setF_sound (setSpool_sound h))

theorem execSpLock_sound {ag u acc} (h : Sound s) : OutcomeSound (execSpLock ag u acc s) := by
  unfold execSpLock
  refine outcomeSound_next.2 (ite_sound (putOut_sound (violation_sound h)) ?_)
  split
  · exact putOut_sound (lockRead_sound h)
  · exact putOut_sound (lockRead_sound h)
  · exact putOut_sound h
  · exact h.withHub

theorem execLeaseExpiry_sound {u} (h : Sound s) : OutcomeSound (execLeaseExpiry u s) := by
  unfold execLeaseExpiry
  refine outcomeSound_next.2 ?_
  extract_lets sp
  split
  · exact h
  · exact ite_sound h (setF_sound (setF_sound (setF_sound (setSpool_sound h))))

theorem zeroSpool_sound {u} (h : Sound s) : Sound (zeroSpool s u) := h

theorem spCfgWrite_sound {u val} (h : Sound s) : Sound (spCfgWrite s u val) :=
  ite_sound h (ite_sound (ite_sound (setSpState_sound (zeroSpool_sound (setF_sound (setF_sound (setF_sound h)))))
      (setF_sound (setF_sound h))) (ite_sound (ite_sound (setSpState_sound h) h)
      (flushSpool_sound (releaseSets_sound (cancelSpool_sound (setSpState_sound (setF_sound h)))))))

theorem execSpCfgEnable_sound {ag u val} (h : Sound s) : OutcomeSound (execSpCfgEnable ag u val s) :=
  outcomeSound_next.2 (guarded_sound (fun _ ht => spCfgWrite_sound ht) h)

theorem execSpCfgDisable_sound {ag u val} (h : Sound s) : OutcomeSound (execSpCfgDisable ag u val s) :=
  outcomeSound_next.2 (guarded_sound (fun _ ht => spCfgWrite_sound ht) h)

theorem execResume_sound {ag u val} (h : Sound s) : OutcomeSound (execResume ag u val s) :=
  outcomeSound_next.2 (guarded_sound (fun _ ht => spCfgWrite_sound ht) h)

theorem cancelMask_sound {e n mask all} (h : Sound s) : Sound (cancelMask s e n mask all).1 := by
  unfold cancelMask
  exact ite_sound (releaseAll_sound (releaseSets_sound
      (foldl_fst_sound (fun _ _ ht => ite_fst_sound (cancelSpool_sound ht) ht) h)))
      (releaseSets_sound (foldl_fst_sound (fun _ _ ht => ite_fst_sound (cancelSpool_sound ht) ht) h))

theorem flushCtx_sound {e n} (h : Sound s) : Sound (flushCtx s e n) :=
  foldl_sound (fun _ _ ht => flushSpool_sound ht) h

theorem assignSlot_sound {e n} (h : Sound s) : Sound (assignSlot s e n) :=
  foldl_sound (fun _ _ ht => setSpState_sound (zeroSpool_sound (setF_sound ht)))
      (setR_sound (setF_sound (setCtxAux_sound (advance_sound (setF_sound h)))))

theorem ctxCfgWrite_sound {e n val} (h : Sound s) : Sound (ctxCfgWrite s e n val) :=
  ite_sound (ite_sound (ite_sound (assignSlot_sound (setF_sound (setF_sound h)))
      (violation_sound (setF_sound (setF_sound h)))) (setF_sound (setF_sound h)))
      (ite_sound h (flushCtx_sound (setCtxAux_sound (cancelMask_sound h))))

theorem execCtxCfgValidSet_sound {ag e n val} (h : Sound s) : OutcomeSound (execCtxCfgValidSet ag e n val s) :=
  outcomeSound_next.2 (guarded_sound (fun _ ht => whenAwake_sound (fun _ hu => ctxCfgWrite_sound hu) ht) h)

theorem execCtxCfgValidClear_sound {ag e n val} (h : Sound s) : OutcomeSound (execCtxCfgValidClear ag e n val s) :=
  outcomeSound_next.2 (guarded_sound (fun _ ht => ctxCfgWrite_sound ht) h)

theorem execCtxCancel_sound {ag e n mask all} (h : Sound s) : OutcomeSound (execCtxCancel ag e n mask all s) :=
  outcomeSound_next.2 (guarded_sound (fun _ ht => flushCtx_sound (cancelMask_sound ht)) h)

theorem readSlot_sound {u x} (h : Sound s) : Sound (readSlot s u x).1 := by
  unfold readSlot
  dsimp only
  split
  · next hr => exact piecesTouch_sound ((xlateRing_sound h).of_fst hr)
  · next hr => exact (xlateRing_sound h).of_fst hr
  · next hr => exact (xlateRing_sound h).of_fst hr
  · next hr => exact (xlateRing_sound h).of_fst hr

theorem pushCmd_sound {u c} (h : Sound s) : Sound (pushCmd s u c) := h

theorem fetchKill_sound {u i cause detail} (h : Sound s) : Sound (fetchKill s u i cause detail) :=
  killCtx_sound (pushCmd_sound h)

theorem fetchFault_sound {u i replay} (h : Sound s) : Sound (fetchFault s u i replay) :=
  ite_sound h (ite_sound (putFault_sound (setSpool_sound (takeSeq_sound h)))
      (ite_sound (fetchKill_sound h) (fetchKill_sound (putFault_sound (takeSeq_sound h)))))

theorem pushPoisoned_sound {u a} (h : Sound s) : Sound (pushPoisoned s u a) := pushCmd_sound (cmdPoison_sound h)

theorem nextSlot_sound {u} (h : Sound s) : Sound (nextSlot s u).1 := by
  unfold nextSlot
  dsimp only
  split
  · exact h
  · exact readSlot_sound h

theorem readMore_sound {u x k acc p} (h : Sound s) : Sound (readMore s u x k acc p).1 := by
  induction k generalizing s acc p x with
  | zero =>
    unfold readMore
    dsimp only
    exact h
  | succ k ih =>
    unfold readMore
    split
    · next hr => exact ih ((readSlot_sound h).of_fst hr)
    · exact (readSlot_sound h)

theorem fetchOne_sound {u} (h : Sound s) : Sound (fetchOne s u).1 := by
  have hslot : ∀ t i q va e, Sound t → Sound (if fetchAsked t u then t else (addConsult t (cmdXreq q u i va) e).1) :=
    fun _ _ _ _ _ ht => ite_sound ht (addConsult_sound ht)
  unfold fetchOne
  refine ite_fst_sound h ?_
  extract_lets x
  split
  · next hn => exact (nextSlot_sound h).of_fst hn
  · next hn => exact hslot _ _ _ _ _ ((nextSlot_sound h).of_fst hn)
  · next hn => exact fetchFault_sound ((nextSlot_sound h).of_fst hn)
  · next hn => exact pushPoisoned_sound ((nextSlot_sound h).of_fst hn)
  next r b hn =>
  have hn : Sound r := (nextSlot_sound h).of_fst hn
  have hpush : ∀ c, Sound (pushCmd { r with eng := { r.eng with issued := mapDel r.eng.issued (u, x) } } u c) :=
    fun _ => pushCmd_sound hn.withEng
  refine ite_fst_sound hn (ite_fst_sound (ite_fst_sound hn (ite_fst_sound (hpush _) ?_)) (hpush _))
  split
  · next r' b' p hm =>
    have hread : Sound r' := (readMore_sound hn).of_fst hm
    cases p with
    | none => exact pushCmd_sound hread
    | some a => exact pushCmd_sound (consumePoison_sound hread)
  · next hm => exact (readMore_sound hn).of_fst hm
  · next hm => exact hslot _ _ _ _ _ ((readMore_sound hn).of_fst hm)
  · next hm => exact fetchFault_sound ((readMore_sound hn).of_fst hm)

theorem fetchMany_sound {u k} (h : Sound s) : Sound (fetchMany s u k) := by
  induction k generalizing s with
  | zero =>
    unfold fetchMany
    exact h
  | succ k ih =>
    unfold fetchMany
    split
    · next hr => exact ih ((fetchOne_sound h).of_fst hr)
    · next hr => exact (fetchOne_sound h).of_fst hr

theorem execCommandFetch_sound {u} (h : Sound s) : OutcomeSound (execCommandFetch u s) :=
  outcomeSound_next.2 (fetchMany_sound h)

theorem refuseUnknown_sound {u slot} (h : Sound s) : Sound (refuseUnknown s u slot) := by
  unfold refuseUnknown
  dsimp only
  split
  · exact ite_sound (endCmd_sound (putCmd_sound (markStart_sound h))) h
  · exact h

theorem execCommandComplete_sound {u slot} (h : Sound s) : OutcomeSound (execCommandComplete u slot s) := by
  unfold execCommandComplete
  refine outcomeSound_next.2 ?_
  dsimp only
  split
  · exact ite_sound (completeCmd_sound (refuseUnknown_sound h)) (refuseUnknown_sound h)
  · exact refuseUnknown_sound h

theorem execCqHead_sound {ag u val} (h : Sound s) : OutcomeSound (execCqHead ag u val s) :=
  outcomeSound_next.2 (guarded_sound (fun _ ht => flushSpool_sound (setR_sound ht)) h)

theorem waitBody_sound {u c} (h : Sound s) : Sound (waitBody u s c).1 := by
  unfold waitBody
  dsimp only
  split
  · next hr => exact (reach_sound h).of_fst hr
  next hr =>
  have hr := (reach_sound h).of_fst hr
  exact ite_fst_sound (drawFree_sound (cmdPoison_sound (piecesTouch_sound hr)))
      (ite_fst_sound (piecesTouch_sound hr) (piecesTouch_sound hr))

theorem pollWait_sound {u} (h : Sound s) : Sound (pollWait s u) := by
  unfold pollWait
  dsimp only
  split
  · exact h
  · exact applyAct_sound h (waitBody_sound h)

theorem execWait_sound {u} (h : Sound s) : OutcomeSound (execWait u s) :=
  outcomeSound_next.2 (runCmd_sound (fun _ _ ht => waitBody_sound ht) h)

theorem execWaitPoll_sound {u} (h : Sound s) : OutcomeSound (execWaitPoll u s) :=
  outcomeSound_next.2 (pollWait_sound h)

theorem execWaitTimeout_sound {u} (h : Sound s) : OutcomeSound (execWaitTimeout u s) := by
  unfold execWaitTimeout
  refine outcomeSound_next.2 ?_
  dsimp only
  split
  · exact h
  · exact ite_sound h (endCmd_sound h)

theorem pollWaits_sound {e va} (h : Sound s) : Sound (pollWaits s e va) :=
  foldl_sound (fun _ _ ht => foldl_sound (fun _ _ hu => ite_sound (pollWait_sound hu) hu) ht) h

theorem countAtomic_sound {ps} (h : Sound s) : Sound (countAtomic s ps) := ite_sound (bump_sound h) (bump_sound h)

theorem recallPieces_sound {ps} (h : Sound s) : Sound (recallPieces s ps) :=
  foldl_sound (fun _ _ ht => ite_sound (foldl_sound (fun _ _ hu => recallLine_sound hu) ht) ht) h

theorem signalBody_sound {u c} (h : Sound s) : Sound (signalBody u s c).1 := by
  unfold signalBody
  refine ite_fst_sound h ?_
  dsimp only
  split
  · next hr => exact (reach_sound h).of_fst hr
  · next hr => exact (reach_sound h).of_fst hr
  next hr =>
  have hr := (reach_sound h).of_fst hr
  have hrec := fun ps => recallPieces_sound (ps := ps) (countAtomic_sound (ps := ps) hr)
  refine ite_fst_sound (ite_fst_sound ?_ ?_) ?_
  · dsimp only
    exact cmdPoison_sound (hrec _)
  · dsimp only
    exact pollWaits_sound (piecesWrite_sound (hrec _))
  · dsimp only
    exact pollWaits_sound (piecesWrite_sound hr)

theorem execSignal_sound {u} (h : Sound s) : OutcomeSound (execSignal u s) := by
  unfold execSignal
  refine outcomeSound_next.2 ?_
  dsimp only
  split
  · exact ite_sound (applyAct_sound h (signalBody_sound h)) (runCmd_sound (fun _ _ ht => signalBody_sound ht) h)
  · exact h

theorem fenceBody_sound {u c} (h : Sound s) : Sound (fenceBody u s c).1 := ite_fst_sound h h

theorem execFence_sound {u} (h : Sound s) : OutcomeSound (execFence u s) :=
  outcomeSound_next.2 (runCmd_sound (fun _ _ ht => fenceBody_sound ht) h)

theorem cancelAt_sound {u mask all} (h : Sound s) : Sound (cancelAt s u mask all).1 := by
  unfold cancelAt
  exact ite_sound (releaseAll_sound (releaseSets_sound
      (foldl_fst_sound (fun _ _ ht => ite_fst_sound (ite_fst_sound (cancelCmds_sound ht) (cancelSpool_sound ht)) ht)
      h))) (releaseSets_sound (foldl_fst_sound
      (fun _ _ ht => ite_fst_sound (ite_fst_sound (cancelCmds_sound ht) (cancelSpool_sound ht)) ht) h))

theorem execCancel_sound {u} (h : Sound s) : OutcomeSound (execCancel u s) := by
  unfold execCancel
  refine outcomeSound_next.2 ?_
  dsimp only
  refine ite_sound h ?_
  split
  · next hr =>
      have hr := (nextSlot_sound h).of_fst hr
      exact ite_sound h (ite_sound (endCmd_sound (pushCmd_sound hr.withEng))
          (pushCmd_sound (cancelAt_sound hr.withEng)))
  · exact h

theorem prefetchFrom_sound {q target k va n done} (h : Sound s) : Sound (prefetchFrom s q target k va n done).1 := by
  induction k generalizing s va n done with
  | zero =>
    unfold prefetchFrom
    dsimp only
    exact h
  | succ k ih =>
    unfold prefetchFrom
    dsimp only
    refine ite_fst_sound h ?_
    split
    · next hr =>
        have hr := (lookupEntry_sound h).of_fst hr
        exact ih (ite_sound (touchSpan_sound hr)
            (ite_sound (foldl_sound (fun _ _ ht => queuePromotion_sound ht) hr) hr))
    · next hr => exact (lookupEntry_sound h).of_fst hr

theorem prefetchBody_sound {u c} (h : Sound s) : Sound (prefetchBody u s c).1 := prefetchFrom_sound h

theorem execPrefetch_sound {u} (h : Sound s) : OutcomeSound (execPrefetch u s) :=
  outcomeSound_next.2 (runCmd_sound (fun _ _ ht => prefetchBody_sound ht) h)

/-! ### Bobbins under control of their registers -/

theorem markBob_sound {ag e n b c f} (hf : ∀ t, Sound t → Sound (f t)) (h : Sound s) : Sound (markBob s ag e n b c f)
    :=
  guarded_sound (fun _ ht => whenAwake_sound (fun _ hu => ite_sound (bobErr_sound hu) (hf _ hu)) ht) h

theorem markFill_sound {e n b} (h : Sound s) : Sound (markFill s e n b) :=
  ite_sound (setBobAux_sound (setBob_sound h)) (bobErr_sound h)

theorem markReady_sound {e n b readers} (h : Sound s) : Sound (markReady s e n b readers) :=
  ite_sound (bobToReady_sound h) (bobErr_sound h)

theorem markRelease_sound {e n b} (h : Sound s) : Sound (markRelease s e n b) :=
  ite_sound (bobToEmpty_sound h) (bobErr_sound h)

theorem execBobMarkFill_sound {ag e n b} (h : Sound s) : OutcomeSound (execBobMarkFill ag e n b s) :=
  outcomeSound_next.2 (markBob_sound (fun _ ht => markFill_sound ht) h)

theorem execBobMarkReady_sound {ag e n b readers} (h : Sound s) : OutcomeSound (execBobMarkReady ag e n b readers s)
    :=
  outcomeSound_next.2 (markBob_sound (fun _ ht => markReady_sound ht) h)

theorem execBobMarkConsumed_sound {ag e n b} (h : Sound s) : OutcomeSound (execBobMarkConsumed ag e n b s) :=
  outcomeSound_next.2 (markBob_sound (fun _ ht => bobRead_sound ht) h)

theorem execBobMarkRelease_sound {ag e n b} (h : Sound s) : OutcomeSound (execBobMarkRelease ag e n b s) :=
  outcomeSound_next.2 (markBob_sound (fun _ ht => markRelease_sound ht) h)

theorem commitBob_sound {e b} (h : Sound s) : Sound (commitBob s e b) :=
  ite_sound h (setBobAux_sound (setBob_sound ((setR_sound h).withPend)))

theorem bobCommit_sound {e} (h : Sound s) : Sound (bobCommit s e) := by
  unfold bobCommit
  split
  · exact setF_sound (setF_sound h)
  · exact setF_sound (setF_sound (foldl_sound (fun _ _ ht => commitBob_sound ht) h))

theorem execBobArm_sound {ag e view} (h : Sound s) : OutcomeSound (execBobArm ag e view s) :=
  outcomeSound_next.2 (guarded_sound (fun _ ht => bobCommit_sound (setB_sound ht)) h)

theorem releaseCmd_sound {u c} (h : Sound s) : Sound (releaseCmd s u c) := by
  unfold releaseCmd
  dsimp only
  split
  · exact updCmd_sound (taskToReady_sound h)
  · exact updCmd_sound h

theorem resumeIgnored_sound {e} (h : Sound s) : Sound (resumeIgnored s e) := h

theorem retryStall_sound {e n seq} (h : Sound s) : Sound (retryStall s e n seq) := by
  unfold retryStall
  dsimp only
  refine ite_sound (resumeIgnored_sound h) ?_
  split
  · exact resumeIgnored_sound h
  · exact releaseCmd_sound h
  · exact setSpool_sound h
  · exact flushSpool_sound (setSpool_sound h)

theorem killStall_sound {x limit} (h : Sound s) : Sound (killStall s x limit) := by
  unfold killStall
  dsimp only
  split
  · exact killStalled_sound h
  · exact fetchKill_sound (setSpool_sound (stallRecord_sound h))
  split
  · exact h
  · exact killCtx_sound (setSpool_sound (stallRecord_sound h))

theorem resumeKill_sound {e n seq} (h : Sound s) : Sound (resumeKill s e n seq) := by
  unfold resumeKill
  refine ite_sound (resumeIgnored_sound h) ?_
  split
  · exact resumeIgnored_sound h
  · exact flushCtx_sound (killStall_sound h)

theorem execFrResumeRetry_sound {ag e n seq} (h : Sound s) : OutcomeSound (execFrResumeRetry ag e n seq s) :=
  outcomeSound_next.2 (guarded_sound (fun _ ht => retryStall_sound ht) h)

theorem execFrResumeKill_sound {ag e n seq} (h : Sound s) : OutcomeSound (execFrResumeKill ag e n seq s) :=
  outcomeSound_next.2 (guarded_sound (fun _ ht => resumeKill_sound ht) h)

theorem execReplayLimit_sound {e n} (h : Sound s) : OutcomeSound (execReplayLimit e n s) := by
  unfold execReplayLimit
  rw [outcomeSound_next]
  refine ite_sound h ?_
  split
  · exact h
  · exact flushCtx_sound (killStall_sound h)

theorem execKillRecord_sound {e n} (h : Sound s) : OutcomeSound (execKillRecord e n s) := by
  unfold execKillRecord
  refine outcomeSound_next.2 ?_
  dsimp only
  split
  · exact h
  · exact ite_sound h (flushCtx_sound (putFault_sound (setCtxAux_sound (takeSeq_sound h))))

theorem putPeerFault_sound {p i} (h : Sound s) : Sound (putPeerFault s p i) :=
  ite_sound h.withHub (ite_sound h.withHub.withHub (RingRegs.put_sound h.withHub))

theorem flushPeerFaults_sound {p k} (h : Sound s) : Sound (flushPeerFaults s p k) := by
  induction k generalizing s with
  | zero =>
    unfold flushPeerFaults
    exact h
  | succ k ih =>
    unfold flushPeerFaults
    dsimp only
    split
    · exact h
    · exact ite_sound h (ih (RingRegs.put_sound h.withHub))

theorem execFrPtrConsumer_sound {ag ring val} (h : Sound s) : OutcomeSound (execFrPtrConsumer ag ring val s) := by
  unfold execFrPtrConsumer
  refine outcomeSound_next.2 ?_
  dsimp only
  split
  · exact guarded_sound (fun _ ht => flushFaults_sound (setF_sound ht)) h
  · exact guarded_sound (fun _ ht => flushPeerFaults_sound (setF_sound ht)) h

/-! ### Tasks and the harts -/

theorem taskBody_sound {u c} (h : Sound s) : Sound (taskBody u s c).1 :=
  ite_fst_sound h (wakeTasks_sound (setR_sound (setF_sound (setTaskState_sound (setTask_sound h)))))

theorem execTask_sound {u} (h : Sound s) : OutcomeSound (execTask u s) :=
  outcomeSound_next.2 (runCmd_sound (fun _ _ ht => taskBody_sound ht) h)

theorem execTaskDispatch_sound {c} (h : Sound s) : OutcomeSound (execTaskDispatch c s) := by
  unfold execTaskDispatch
  refine outcomeSound_next.2 ?_
  dsimp only
  refine ite_sound h ?_
  split
  · exact h
  · exact bump_sound (setF_sound (setF_sound (setF_sound (setTaskState_sound (setTask_sound h)))))

theorem execQuantumExpiry_sound {c} (h : Sound s) : OutcomeSound (execQuantumExpiry c s) :=
  outcomeSound_next.2 (ite_sound h (ite_sound h (ite_sound (taskToReady_sound h) h)))

theorem execBudgetExpiry_sound {e slot} (h : Sound s) : OutcomeSound (execBudgetExpiry e slot s) :=
  outcomeSound_next.2 (ite_sound h (endTask_sound h))

theorem putHart_sound {c x x'} (h : Sound s) : Sound (putHart s c x x') := by
  unfold putHart
  dsimp only
  split
  · exact setTask_sound h
  · exact h.withEng

theorem hartException_sound {c x cause tval} (h : Sound s) : Sound (hartException s c x cause tval) := by
  unfold hartException
  dsimp only
  split
  · exact endTask_sound (setR_sound h)
  · exact putHart_sound h

theorem illegal_sound {c x} (h : Sound s) : Sound (illegal s c x) := hartException_sound (drawFree_sound h)

theorem execSpindleException_sound {c cause tval} (h : Sound s) : OutcomeSound (execSpindleException c cause tval s)
    := by
  unfold execSpindleException
  refine outcomeSound_next.2 ?_
  split
  · exact h
  · exact hartException_sound h

theorem hartFault_sound {c x q va cause replay} (h : Sound s) : Sound (hartFault s c x q va cause replay) := by
  unfold hartFault
  split
  · exact faultCmd_sound h
  · exact hartException_sound h

theorem hartConsult_sound {c x q va e} (h : Sound s) : Sound (hartConsult s c x q va e) := by
  unfold hartConsult
  dsimp only
  split
  · exact updCmd_sound (setTask_sound (freeCore_sound (addConsult_sound h)))
  · exact hartFault_sound h

theorem hartReach_sound {c x q va n} (h : Sound s) : Sound (hartReach s c x q va n).1 := by
  unfold hartReach
  split
  · next hr => exact (xlate_sound h).of_fst hr
  · next hr => exact hartFault_sound ((xlate_sound h).of_fst hr)
  · next hr => exact hartConsult_sound ((xlate_sound h).of_fst hr)
  · exact h

theorem reachSlots_sound {c h' u x k} (h : Sound s) : Sound (reachSlots s c h' u x k).1 := by
  induction k generalizing s x with
  | zero => exact h
  | succ k ih =>
    unfold reachSlots
    extract_lets q
    split
    · next hr => exact (hartReach_sound h).of_fst hr
    next hr =>
    have ht := (hartReach_sound h).of_fst hr
    refine ite_fst_sound (hartFault_sound ht) ?_
    split
    · next hn => exact (ih ht).of_fst hn
    · next hn => exact (ih ht).of_fst hn

theorem writeSlots_sound {l b} (h : Sound s) : Sound (writeSlots s l b) := by
  induction l generalizing s b with
  | nil =>
    unfold writeSlots
    exact h
  | cons x l ih =>
    unfold writeSlots
    exact ih (piecesWrite_sound h)

theorem appendCmd_sound {ag u slots b} (h : Sound s) : Sound (appendCmd s ag u slots b) :=
  doorbell_sound ((writeSlots_sound h).withEng)

theorem execMxIssue_sound {c rd rs1 vs2} (h : Sound s) : OutcomeSound (execMxIssue c rd rs1 vs2 s) := by
  unfold execMxIssue
  rw [outcomeSound_next]
  split
  · exact h
  split
  · exact illegal_sound h
  extract_lets long b ag done busy
  have hdone : ∀ t v, Sound t → Sound (done t v) := fun _ _ ht => putHart_sound ht
  refine ite_sound (illegal_sound h) (ite_sound h (ite_sound (hdone _ _ h) (ite_sound (hdone _ _ h) (ite_sound ?_ ?_))))
  · exact hdone _ _ (drawFree_sound (setF_sound h))
  · split
    · next hr => exact hdone _ _ (appendCmd_sound ((reachSlots_sound h).of_fst hr))
    · next hr => exact (reachSlots_sound h).of_fst hr

theorem execMxRoom_sound {c rd rs1} (h : Sound s) : OutcomeSound (execMxRoom c rd rs1 s) := by
  unfold execMxRoom
  refine outcomeSound_next.2 ?_
  split
  · exact h
  split
  · exact illegal_sound h
  · exact putHart_sound h

theorem execMxAwait_sound {c rs1} (h : Sound s) : OutcomeSound (execMxAwait c rs1 s) := by
  unfold execMxAwait
  refine outcomeSound_next.2 ?_
  dsimp only
  split
  · exact h
  split
  · exact illegal_sound h
  refine ite_sound (putHart_sound h) ?_
  split
  · exact h
  · exact setTaskState_sound (setTask_sound (freeCore_sound (putHart_sound h)))

theorem execMxBstate_sound {c rd rs1} (h : Sound s) : OutcomeSound (execMxBstate c rd rs1 s) := by
  unfold execMxBstate
  refine outcomeSound_next.2 ?_
  split
  · exact h
  split
  · exact illegal_sound h
  · exact putHart_sound h

theorem execMxBdone_sound {c rs1} (h : Sound s) : OutcomeSound (execMxBdone c rs1 s) := by
  unfold execMxBdone
  refine outcomeSound_next.2 ?_
  split
  · exact h
  split
  · exact illegal_sound h
  · exact bobRead_sound (putHart_sound h)

theorem execMxYield_sound {c} (h : Sound s) : OutcomeSound (execMxYield c s) := by
  unfold execMxYield
  refine outcomeSound_next.2 ?_
  dsimp only
  split
  · exact h
  split
  · exact taskToReady_sound (putHart_sound h)
  · exact putHart_sound h

theorem execMxExit_sound {c rs1} (h : Sound s) : OutcomeSound (execMxExit c rs1 s) := by
  unfold execMxExit
  refine outcomeSound_next.2 ?_
  dsimp only
  split
  · exact h
  split
  · exact endTask_sound (setF_sound h)
  · exact putHart_sound h

/-! ### Runs of the matrix arrays -/

theorem setArrAux_sound {e pa x} (h : Sound s) : Sound (setArrAux s e pa x) := h

theorem putSet_sound {e a} (h : Sound s) : Sound (putSet s e a) := h

theorem dropSet_sound {e n id} (h : Sound s) : Sound (dropSet s e n id) := h

theorem mmStart_sound {acc u c} (h : Sound s) : Sound (mmStart acc u s c).1 := by
  unfold mmStart
  extract_lets x held cont fixed run start
  refine ite_fst_sound h (ite_fst_sound h (ite_fst_sound h ?_))
  have hstart : ∀ t init pois, Sound t → Sound (start t init pois).1 := by
    intro t init pois ht
    cases hheld : held with
    | none =>
      simp only [start, hheld]
      exact ite_sound (putSet_sound (setEngAux_sound ht)) (setEngAux_sound ht)
    | some a =>
      simp only [start, hheld]
      exact ite_sound (putSet_sound (setEngAux_sound ht)) (setEngAux_sound ht)
  refine ite_fst_sound ?_ (hstart _ _ _ h)
  split
  · next hr => exact (reach_sound h).of_fst hr
  · next hr =>
    have hr := (reach_sound h).of_fst hr
    exact hstart _ _ _ (ite_sound (cmdPoison_sound (piecesTouch_sound hr)) (piecesTouch_sound hr))

theorem putRun_sound {e r} (h : Sound s) : Sound (putRun s e r) := h

theorem endRun_sound {r c} (h : Sound s) : Sound (endRun s r c).1 :=
  ite_sound (advance_sound (setEngAux_sound h)) (setEngAux_sound h)

theorem countReads_sound {u c} (h : Sound s) : Sound (countReads s u c).1 :=
  foldl_sound (fun _ _ ht => bobRead_sound ht) h

theorem drainOut_sound {u f skew rows k t pitch out tensor rnd tc row bits} (h : Sound s) : Sound
    (drainOut s u f skew rows k t pitch out tensor rnd tc row bits).1 := by
  unfold drainOut
  dsimp only
  split
  · next hr => exact (reach_sound h).of_fst hr
  · next hr => exact statUpdate_sound (putAll_sound ((reach_sound h).of_fst hr))

theorem mmFinish_sound {u c r} (h : Sound s) : Sound (mmFinish s u c r).1 := by
  unfold mmFinish
  dsimp only
  refine ite_fst_sound ?_ ?_
  · split
    · exact endRun_sound (putSet_sound (countReads_sound h))
    · exact endRun_sound (countReads_sound h)
  · split
    · exact endRun_sound (countReads_sound h)
    split
    · next hr => exact (drainOut_sound (countReads_sound h)).of_fst hr
    next hr =>
    have hr := (drainOut_sound (countReads_sound h)).of_fst hr
    exact endRun_sound (ite_sound (dropSet_sound hr) hr)

theorem ewStart_sound {u c} (h : Sound s) : Sound (ewStart u s c).1 := ite_fst_sound h (setEngAux_sound h)

theorem ewFinish_sound {u c r} (h : Sound s) : Sound (ewFinish s u c r).1 := by
  unfold ewFinish
  dsimp only
  split
  · exact endRun_sound h
  split
  · next hr => exact (drainOut_sound h).of_fst hr
  · next hr => exact endRun_sound ((drainOut_sound h).of_fst hr)

theorem runFinish_sound {u c r} (h : Sound s) : Sound (runFinish s u c r).1 :=
  ite_fst_sound (ewFinish_sound h) (mmFinish_sound h)

theorem startOr_sound {f u c} (hf : ∀ u t c, Sound t → Sound (f u t c).1) (h : Sound s) : Sound (startOr f u s c).1 :=
    by
  unfold startOr
  split
  · exact runFinish_sound h
  · exact hf _ _ _ h

theorem execMatmul_sound {u} (h : Sound s) : OutcomeSound (execMatmul u s) :=
  outcomeSound_next.2 (runCmd_sound (fun _ _ ht => startOr_sound (fun _ _ _ hu => mmStart_sound hu) ht) h)

theorem execMatmulAcc_sound {u} (h : Sound s) : OutcomeSound (execMatmulAcc u s) :=
  outcomeSound_next.2 (runCmd_sound (fun _ _ ht => startOr_sound (fun _ _ _ hu => mmStart_sound hu) ht) h)

theorem execElemwise_sound {u} (h : Sound s) : OutcomeSound (execElemwise u s) :=
  outcomeSound_next.2 (runCmd_sound (fun _ _ ht => startOr_sound (fun _ _ _ hu => ewStart_sound hu) ht) h)

theorem passPoison_sound {r c p} (h : Sound s) : Sound (passPoison s r c p) := by
  unfold passPoison
  split
  · exact ite_sound h (cmdPoison_sound h)
  · exact h

theorem assignTile_sound {pa r c q} (h : Sound s) : Sound (assignTile s pa r c q) := by
  unfold assignTile
  dsimp only
  split
  · exact h
  · exact setEngAux_sound (putRun_sound h)

theorem baseFault_sound {u c} (h : Sound s) : Sound (baseFault s u c) :=
  endCmd_sound ((setEngAux_sound (dropRun_sound (scrambleOut_sound (bump_sound h)))).withFreeCtr)

theorem countPass_sound {u p} (h : Sound s) : Sound (countPass s u p) := h

theorem passOver_sound {r c t} (h : Sound s) : Sound (passOver s r c t) :=
  ite_sound (putRun_sound h) (ite_sound (applyAct_sound (putRun_sound h) (runFinish_sound (putRun_sound h)))
      (putRun_sound h))

theorem takeTol_sound {e} (h : Sound s) : Sound (takeTol s e) := h

theorem takeInject_sound {e pa} (h : Sound s) : Sound (takeInject s e pa).1 := setArrAux_sound h

theorem passOn_sound {e pa r c t hw} (h : Sound s) : Sound (passOn s e pa r c t hw) :=
  ite_sound (baseFault_sound (countPass_sound (takeTol_sound h)))
      (ite_sound (passOver_sound (takeInject_sound (passPoison_sound (countPass_sound (takeTol_sound h)))))
      (setEngAux_sound (putRun_sound (bump_sound
      (bump_sound (evrCount_sound (takeInject_sound (passPoison_sound (countPass_sound (takeTol_sound h))))))))))

theorem execTilePass_sound {e pa bad} (h : Sound s) : OutcomeSound (execTilePass e pa bad s) := by
  unfold execTilePass
  refine outcomeSound_next.2 ?_
  dsimp only
  refine ite_sound h ?_
  split
  · refine ite_sound h ?_
    split
    · exact passOn_sound h
    · exact h
  split
  · exact h
  split
  · exact passOn_sound (assignTile_sound h)
  · exact assignTile_sound h

theorem addMark_sound {e pa} (h : Sound s) : Sound (addMark s e pa) := h

theorem recompOn_sound {e x r c t pa bad} (h : Sound s) : Sound (recompOn s e x r c t pa bad) :=
  ite_sound (passOver_sound (ite_sound (bump_sound
      (evrCount_sound (ite_sound (takeInject_sound (countPass_sound (takeTol_sound h)))
      ((takeInject_sound (countPass_sound (takeTol_sound h))).withFreeCtr))))
      (addMark_sound (bump_sound (evrCount_sound
      (ite_sound (takeInject_sound (countPass_sound (takeTol_sound h)))
      ((takeInject_sound (countPass_sound (takeTol_sound h))).withFreeCtr)))))))
      (passOver_sound (raisePennant_sound (bump_sound
      (evrCount_sound (ite_sound (takeInject_sound (countPass_sound (takeTol_sound h)))
      ((takeInject_sound (countPass_sound (takeTol_sound h))).withFreeCtr))))))

theorem execRecompute_sound {e bad} (h : Sound s) : OutcomeSound (execRecompute e bad s) := by
  unfold execRecompute
  refine outcomeSound_next.2 ?_
  dsimp only
  split
  · exact h
  split
  · split
    · exact setEngAux_sound h
    · exact recompOn_sound (setEngAux_sound h)
  · exact setEngAux_sound h

theorem showActive_sound {e} (h : Sound s) : Sound (showActive s e) := h

theorem execArrayRetirement_sound {e pa} (h : Sound s) : OutcomeSound (execArrayRetirement e pa s) :=
  outcomeSound_next.2 (ite_sound h (showActive_sound
      (logError_sound (addRepair_sound (ite_sound
      (setF_sound (setF_sound (setF_sound (setF_sound (setArrAux_sound h)))))
      (setF_sound (setF_sound (setArrAux_sound h))))))))

theorem execSuspectWindowExpiry_sound {e pa} (h : Sound s) : OutcomeSound (execSuspectWindowExpiry e pa s) :=
  outcomeSound_next.2 (setF_sound (setArrAux_sound h))

theorem execAbftInject_sound {ag e pa arm} (h : Sound s) : OutcomeSound (execAbftInject ag e pa arm s) :=
  outcomeSound_next.2 (guarded_sound (fun _ ht => ite_sound (setArrAux_sound ht) ht) h)

theorem statSnap_sound {e win i clear} (h : Sound s) : Sound (statSnap s e win i clear) := by
  unfold statSnap
  dsimp only
  refine ite_sound ?_ ?_
  · refine setStat_sound ?_
    split
    · refine setF_sound ?_
      refine foldl_sound (fun _ _ ht => ?_) h
      split
      · exact setR_sound ht
      · exact setR_sound ht
    refine setF_sound ?_
    refine foldl_sound (fun _ _ ht => ?_) h
    split
    · exact setR_sound ht
    · exact setR_sound ht
  · split
    · refine setF_sound ?_
      refine foldl_sound (fun _ _ ht => ?_) h
      split
      · exact setR_sound ht
      · exact setR_sound ht
    refine setF_sound ?_
    refine foldl_sound (fun _ _ ht => ?_) h
    split
    · exact setR_sound ht
    · exact setR_sound ht

theorem execStatSelSnap_sound {ag e win entry} (h : Sound s) : OutcomeSound (execStatSelSnap ag e win entry s) :=
  outcomeSound_next.2 (guarded_sound (fun _ ht => statSnap_sound ht) h)

theorem execStatSelClear_sound {ag e win entry} (h : Sound s) : OutcomeSound (execStatSelClear ag e win entry s) :=
  outcomeSound_next.2 (guarded_sound (fun _ ht => statSnap_sound ht) h)

theorem execStatClearAll_sound {ag e} (h : Sound s) : OutcomeSound (execStatClearAll ag e s) :=
  outcomeSound_next.2 (guarded_sound (fun _ ht => setStat_sound ht.withEng) h)

/-! ### Stacked memory and flash -/

theorem stkStatus_sound {d st reason} (h : Sound s) : Sound (stkStatus s d st reason) := h

theorem unrepaired_sound {d r} (h : Sound s) : Sound (unrepaired s d r) := by
  unfold unrepaired
  dsimp only
  refine ite_sound ?_ (logError_sound (addRepair_sound h))
  split
  · exact queueMig_sound ((addRepair_sound h).withHub)
  · exact (addRepair_sound h).withHub

theorem stkRequest_sound {d r} (h : Sound s) : Sound (stkRequest s d r) :=
  ite_sound (stkStatus_sound h) (ite_sound (stkStatus_sound h)
      (ite_sound (unrepaired_sound (stkStatus_sound h)) (stkStatus_sound h.withDev)))

theorem execStkRepairConnection_sound {ag d chan target} (h : Sound s) : OutcomeSound
    (execStkRepairConnection ag d chan target s) :=
  outcomeSound_next.2 (guarded_sound (fun _ ht => stkRequest_sound ht) h)

theorem execStkRepairRow_sound {ag d chan bank target} (h : Sound s) : OutcomeSound
    (execStkRepairRow ag d chan bank target s) :=
  outcomeSound_next.2 (guarded_sound (fun _ ht => stkRequest_sound ht) h)

theorem execStkRepairColumn_sound {ag d chan bank target} (h : Sound s) : OutcomeSound
    (execStkRepairColumn ag d chan bank target s) :=
  outcomeSound_next.2 (guarded_sound (fun _ ht => stkRequest_sound ht) h)

theorem repaired_sound {d r} (h : Sound s) : Sound (repaired s d r) := advance_sound ((addRepair_sound h).withDev)

theorem execRefresh_sound {d chan bank} (h : Sound s) : OutcomeSound (execRefresh d chan bank s) := by
  unfold execRefresh
  refine outcomeSound_next.2 ?_
  dsimp only
  refine ite_sound h ?_
  split
  · exact ite_sound h.withDev h
  · exact ite_sound h h.withDev

theorem execRecalWindow_sound {d chan} (h : Sound s) : OutcomeSound (execRecalWindow d chan s) :=
  outcomeSound_next.2 (ite_sound h ((ite_sound (advance_sound h) h).withDev))

theorem foldJournal_sound (h : Sound s) : Sound (foldJournal s) := h

theorem unmapPage_sound {lpn} (h : Sound s) : Sound (unmapPage s lpn) := h

theorem takeBlock_sound (h : Sound s) : Sound (takeBlock s) := h

theorem nextPage_sound (h : Sound s) : Sound (nextPage s).2.2 := by
  unfold nextPage
  dsimp only
  refine Sound.withDev ?_
  split
  · exact ite_sound h (takeBlock_sound h)
  · exact takeBlock_sound h

theorem programPage_sound {key lpn} (h : Sound s) : Sound (programPage s key lpn) :=
  ite_sound (slcPages_sound (((nextPage_sound h).withDev).withDev))
      (ite_sound (((nextPage_sound h).withDev).withDev) ((nextPage_sound h).withDev))

theorem movePages_sound {b} (h : Sound s) : Sound (movePages s b) :=
  foldl_sound (fun _ _ ht => programPage_sound ht) (ite_sound h.withDev h)

theorem flRequest_sound {write part pages lpn} (h : Sound s) : Sound (flRequest s write part pages lpn) :=
  ite_sound (setF_sound h) h.withDev

theorem execFlReqWrite_sound {ag part pages lpn} (h : Sound s) : OutcomeSound (execFlReqWrite ag part pages lpn s) :=
  outcomeSound_next.2 (guarded_sound (fun _ ht => flRequest_sound ht) h)

theorem execFlReqTrim_sound {ag part pages lpn} (h : Sound s) : OutcomeSound (execFlReqTrim ag part pages lpn s) :=
  outcomeSound_next.2 (guarded_sound (fun _ ht => flRequest_sound ht) h)

theorem carryPoison_sound {src dst n} (h : Sound s) : Sound (carryPoison s src dst n) :=
  foldl_sound (fun _ _ ht => ite_sound (mpaPoison_sound ht) ht) h

theorem flPageDo_sound {r i} (h : Sound s) : Sound (flPageDo s r i) :=
  ite_sound (ite_sound (scramble_sound (programPage_sound (carryPoison_sound (rawWrite_sound (hubTouch_sound h)))))
      (programPage_sound (carryPoison_sound (rawWrite_sound (hubTouch_sound h))))) (unmapPage_sound (rawZero_sound h))

theorem execFlashRequestDone_sound (h : Sound s) : OutcomeSound (execFlashRequestDone s) := by
  unfold execFlashRequestDone
  refine outcomeSound_next.2 ?_
  dsimp only
  split
  · exact h
  · exact ite_sound h (advance_sound (foldJournal_sound (foldl_sound (fun _ _ ht => flPageDo_sound ht) h.withDev)))

theorem cutPage_sound {r i} (h : Sound s) : Sound (cutPage s r i) := (flPageDo_sound h).withDev

theorem flashCut_sound (h : Sound s) : Sound (flashCut s) := by
  unfold flashCut
  dsimp only
  refine Sound.withDev ?_
  split
  · exact h
  · exact ite_sound h (foldl_sound (fun _ _ ht => cutPage_sound ht) h)

theorem revertPage_sound {p} (h : Sound s) : Sound (revertPage s p) := by
  have hcells : Sound (p.old.foldl (fun s x => { s with mem := cellSet s.mem (pageAddr p.lpn + x.1) x.2 }) (rawZero s (pageAddr p.lpn) pageBytes)) :=
    foldl_sound (fun t x ht => ⟨cellSet_wf _ _ _ ht.1, ht.2⟩) (rawZero_sound h)
  have hpage := unmapPage_sound (lpn := p.lpn) (foldl_sound (f := poisonLine) (l := p.bad) (fun t x ht => poisonLine_sound ht) hcells)
  unfold revertPage
  split
  · exact hpage.congr rfl rfl
  · exact hpage

theorem rebuildMap_sound {cut held} (h : Sound s) : Sound (rebuildMap s cut held) :=
  (foldJournal_sound (foldr_sound (fun _ _ ht => ite_sound (revertPage_sound ht) ht) h)).congr rfl rfl

theorem execFlashScrub_sound {block heavy} (h : Sound s) : OutcomeSound (execFlashScrub block heavy s) :=
  outcomeSound_next.2 (ite_sound h.withDev ((movePages_sound h.withDev).withDev))

theorem execFlashProgramFailure_sound {block} (h : Sound s) : OutcomeSound (execFlashProgramFailure block s) :=
  outcomeSound_next.2 (ite_sound h (addRepair_sound (movePages_sound h.withDev)))

theorem marginStart_sound (h : Sound s) : Sound (marginStart s) :=
  ite_sound (setObjNat_sound h) (setObjNat_sound h.withDev)

theorem execMarginStart_sound (h : Sound s) : OutcomeSound (execMarginStart s) :=
  outcomeSound_next.2 (marginStart_sound h)

theorem execMarginDone_sound {lo hi step} (h : Sound s) : OutcomeSound (execMarginDone lo hi step s) := by
  unfold execMarginDone
  refine outcomeSound_next.2 ?_
  dsimp only
  split
  · exact h
  · exact setObjNat_sound (setObj_sound h.withDev)

theorem rowTrigger_sound {p} (h : Sound s) : Sound (rowTrigger s p) :=
  ite_sound (addRepair_sound h.withDev) (ite_sound h (stkRequest_sound h))

theorem connTrigger_sound {p c} (h : Sound s) : Sound (connTrigger s p c) :=
  ite_sound (ite_sound h (stkRequest_sound h)) (ite_sound (unrepaired_sound h) (repaired_sound h))

theorem countConn_sound {p line conn} (h : Sound s) : Sound (countConn s p line conn) := by
  unfold countConn
  dsimp only
  split
  · exact h
  · exact ite_sound h (ite_sound (connTrigger_sound h.withRel) h.withRel)

theorem countCorrected_sound {p} (h : Sound s) : Sound (countCorrected s p) :=
  ite_sound (ite_sound (rowTrigger_sound h.withRel.withRel) h.withRel)
      (ite_sound (stkRequest_sound ((ite_sound (rowTrigger_sound h.withRel.withRel) h.withRel).withRel))
      ((ite_sound (rowTrigger_sound h.withRel.withRel) h.withRel).withRel))

theorem eccRead_sound {a r} (h : Sound s) : Sound (eccRead s a r) := by
  unfold eccRead
  dsimp only
  refine ite_sound h ?_
  split
  · exact h
  · split
    · exact countConn_sound (countCorrected_sound (logError_sound h))
    · exact logError_sound h
  · split
    · exact rowTrigger_sound (logError_sound (poisonLine_sound h))
    · exact logError_sound (poisonLine_sound h)
  · exact logError_sound (poisonLine_sound h)
  · exact logError_sound h

theorem repairRead_sound {d r x} (h : Sound s) : Sound (repairRead s d r x) := by
  unfold repairRead
  split
  · exact eccRead_sound h
  · exact h

theorem execRepairDone_sound {d} (h : Sound s) : OutcomeSound (execRepairDone d s) := by
  unfold execRepairDone
  refine outcomeSound_next.2 ?_
  dsimp only
  split
  · exact h
  · exact ite_sound h (stkStatus_sound ((repaired_sound (foldl_sound (fun _ _ ht => repairRead_sound ht) h)).withDev))

theorem execPatrolScrub_sound {line r} (h : Sound s) : OutcomeSound (execPatrolScrub line r s) := by
  unfold execPatrolScrub
  refine outcomeSound_next.2 ?_
  dsimp only
  split
  · exact setF_sound (ite_sound (advance_sound ((eccRead_sound h).withDev)) ((eccRead_sound h).withDev))
  · exact setF_sound (ite_sound (advance_sound ((eccRead_sound h).withDev)) ((eccRead_sound h).withDev))
  · exact setF_sound (ite_sound (advance_sound ((eccRead_sound h).withDev)) ((eccRead_sound h).withDev))
  · exact h

/-! ### Flits -/

theorem setLink_sound {l x} (h : Sound s) : Sound (setLink s l x) := h

theorem sendFlits_sound {l k slots} (h : Sound s) : Sound (sendFlits s l k slots) := by
  induction k generalizing s slots with
  | zero =>
    unfold sendFlits
    exact h
  | succ k ih =>
    unfold sendFlits
    dsimp only
    split
    · exact h
    · exact ih (setLink_sound h.withD2d)

theorem pumpFlits_sound {l} (h : Sound s) : Sound (pumpFlits s l) := ite_sound h (sendFlits_sound (setLink_sound h))

theorem plaSend_sound {l m} (h : Sound s) : Sound (plaSend s l m) :=
  (pumpFlits_sound (setLink_sound h.withD2d)).withD2d

theorem takeCredits_sound {l m} (h : Sound s) : Sound (takeCredits s l m) :=
  ite_sound (((setLink_sound h).withD2d).withD2d) (setLink_sound h)

/-! ### Accesses of the hub -/

theorem countStale_sound {u} (h : Sound s) : Sound (countStale s u) := by
  unfold countStale
  dsimp only
  split
  · exact bump_sound h
  · exact h.withPow

theorem dirPut_sound {d} (h : Sound s) : Sound (dirPut s d) := h

theorem dirRoom_sound {line} (h : Sound s) : Sound (dirRoom s line) := by
  unfold dirRoom
  dsimp only
  split
  · exact h
  refine ite_sound h ?_
  split
  · exact bump_sound (recallLine_sound h)
  · exact h

theorem coreReadLine_sound {bit line} (h : Sound s) : Sound (coreReadLine s bit line) := by
  unfold coreReadLine
  dsimp only
  split
  · exact dirPut_sound (dirRoom_sound h)
  refine ite_sound (dirPut_sound h) ?_
  refine ite_sound ?_ (dirPut_sound h)
  refine dirPut_sound ?_
  refine bump_sound ?_
  split
  · exact writeBack_sound h
  · exact h

theorem coreOwnLine_sound {bit line} (h : Sound s) : Sound (coreOwnLine s bit line) := by
  unfold coreOwnLine
  dsimp only
  split
  · exact dirPut_sound (dirRoom_sound h)
  · exact ite_sound (dirPut_sound h) (dirPut_sound
        (ite_sound (bump_sound (bump_sound (dropResv_sound h))) (bump_sound (dropResv_sound h))))

theorem coreStore_sound {bit a bs} (h : Sound s) : Sound (coreStore s bit a bs) := by
  unfold coreStore
  dsimp only
  refine foldl_sound (fun _ _ ht => ?_) h
  split
  · exact coreOwnLine_sound ht
  · exact ite_sound (unpoison_sound (dirPut_sound (coreOwnLine_sound ht))) (dirPut_sound (coreOwnLine_sound ht))

theorem breachLine_sound {l} (h : Sound s) : Sound (breachLine s l) := (scramble_sound h).withHub

theorem breachLines_sound {a n} (h : Sound s) : Sound (breachLines s a n) :=
  foldl_sound (fun _ _ ht => breachLine_sound ht) h

theorem breachEvict_sound {l} (h : Sound s) : Sound (breachEvict s l) := ite_sound ((scramble_sound h).withHub) h

theorem noteStale_sound {r a n} (h : Sound s) : Sound (noteStale s r a n) := by
  unfold noteStale
  dsimp only
  split
  · exact ite_sound h.withHub h
  · exact h

theorem corePoison_sound {ag a} (h : Sound s) : Sound (corePoison s ag a) := by
  unfold corePoison
  dsimp only
  split
  · exact consumePoison_sound h
  · split
    · split
      · exact endTask_sound (consumePoison_sound h)
      · exact hartException_sound (consumePoison_sound h)
    · exact consumePoison_sound h
  · exact h

theorem answerRead_sound {r bs} (h : Sound s) : Sound (answerRead s r bs).1 := by
  unfold answerRead
  dsimp only
  refine ite_fst_sound ?_ h
  split
  · exact corePoison_sound h
  · exact corePoison_sound h
  · exact h

theorem stallReq_sound {r} (h : Sound s) : Sound (stallReq s r).1 := h.withHub

theorem reqEcc_sound {r} (h : Sound s) : Sound (reqEcc s r) := by
  unfold reqEcc
  dsimp only
  split
  · exact ite_sound h (eccRead_sound h)
  · exact ite_sound h (eccRead_sound h)
  · exact h
  · exact eccRead_sound h

theorem serveAtomic_sound {r shared op sz signed} (h : Sound s) : Sound (serveAtomic s r shared op sz signed).1 := by
  unfold serveAtomic
  dsimp only
  refine ite_fst_sound ?_ ?_
  · split
    · exact corePoison_sound (ite_sound (bump_sound (recallLine_sound h)) (bump_sound (dropResv_sound h)))
    · exact corePoison_sound (ite_sound (bump_sound (recallLine_sound h)) (bump_sound (dropResv_sound h)))
    · exact ite_sound (bump_sound (recallLine_sound h)) (bump_sound (dropResv_sound h))
  · split
    · exact mpaPutNat_sound (ite_sound (bump_sound (recallLine_sound h)) (bump_sound (dropResv_sound h)))
    · exact ite_sound (bump_sound (recallLine_sound h)) (bump_sound (dropResv_sound h))

theorem setResv_sound {bit a} (h : Sound s) : Sound (setResv s bit a) := by
  unfold setResv
  dsimp only
  split
  · exact h.withHub
  · exact h

theorem clearResv_sound {bit} (h : Sound s) : Sound (clearResv s bit) := by
  unfold clearResv
  dsimp only
  split
  · exact h.withHub
  · exact h

theorem storeRun_sound {r shared a bs} (h : Sound s) : Sound (storeRun s r shared a bs) := by
  unfold storeRun
  split
  · exact coreStore_sound h
  · exact cohWrite_sound h
  · exact mpaWrite_sound (foldl_sound (fun _ _ ht => dropResv_sound ht) h)

theorem storeBytes_sound {r shared} (h : Sound s) : Sound (storeBytes s r shared) := by
  unfold storeBytes
  dsimp only
  split
  · exact storeRun_sound h
  · exact foldl_sound (fun _ _ ht => storeRun_sound ht) h

theorem loadBytes_sound {r shared own} (h : Sound s) : Sound (loadBytes s r shared own).1 := by
  unfold loadBytes
  dsimp only
  split
  · exact foldl_sound (fun _ _ ht => ite_sound (coreOwnLine_sound ht) (coreReadLine_sound ht)) h
  · exact bump_sound h
  · exact h

theorem serveNow_sound {r shared hit} (h : Sound s) : Sound (serveNow s r shared hit).1 := by
  unfold serveNow
  dsimp only
  split
  · exact ite_sound h (reqEcc_sound h)
  · exact answerRead_sound (loadBytes_sound (ite_sound h (reqEcc_sound h)))
  · exact answerRead_sound (loadBytes_sound (ite_sound h (reqEcc_sound h)))
  · exact answerRead_sound (setResv_sound (loadBytes_sound (ite_sound h (reqEcc_sound h))))
  · exact answerRead_sound (loadBytes_sound (ite_sound h (reqEcc_sound h)))
  · exact ite_sound (eccRead_sound (storeBytes_sound (ite_sound h (reqEcc_sound h))))
        (storeBytes_sound (ite_sound h (reqEcc_sound h)))
  · exact ite_fst_sound (storeBytes_sound (clearResv_sound (ite_sound h (reqEcc_sound h))))
        (clearResv_sound (ite_sound h (reqEcc_sound h)))
  · exact serveAtomic_sound (ite_sound h (reqEcc_sound h))

theorem serveAs_sound {r id} (h : Sound s) : Sound (serveAs s r id).1 := by
  unfold serveAs
  dsimp only
  split
  · exact countStale_sound h
  refine ite_fst_sound h ?_
  refine ite_fst_sound (eccRead_sound h) ?_
  split
  · exact h
  refine ite_fst_sound (stallReq_sound h) ?_
  refine serveNow_sound ?_
  refine ite_sound ?_ ?_
  · split
    · exact ite_sound (breachLines_sound (noteStale_sound h)) (noteStale_sound h)
    · exact noteStale_sound h
  · refine touchSpan_sound ?_
    split
    · exact ite_sound (breachLines_sound (noteStale_sound h)) (noteStale_sound h)
    · exact noteStale_sound h

theorem serve_sound {r} (h : Sound s) : Sound (serve s r).1 := serveAs_sound h

theorem putAccess_sound {o} (h : Sound s) : Sound (putAccess s o) := h

theorem plaReply_sound {link m status data poison} (h : Sound s) : Sound (plaReply s link m status data poison) :=
  plaSend_sound h

theorem plaAnswer_sound {link m r o} (h : Sound s) : Sound (plaAnswer s link m r o) := by
  unfold plaAnswer
  dsimp only
  split
  · exact plaReply_sound h
  · exact plaReply_sound h
  · exact plaReply_sound (foldl_sound (fun _ _ ht => ite_sound (mpaPoison_sound ht) ht) h)
  · exact ite_sound (plaReply_sound h) (ite_sound (plaReply_sound h) (plaReply_sound h))
  · exact plaReply_sound h
  · exact plaReply_sound h
  · exact plaReply_sound h
  · exact h

theorem releaseMsis_sound {link} (h : Sound s) : Sound (releaseMsis s link) := by
  unfold releaseMsis
  dsimp only
  refine foldl_sound (fun _ _ ht => ?_) h.withD2d
  split
  · exact imsicSet_sound ht
  · exact ht

theorem answerId_sound {x o} (h : Sound s) : Sound (answerId s x o) := by
  unfold answerId
  dsimp only
  split
  · exact releaseMsis_sound (plaAnswer_sound h.withD2d)
  · exact putAccess_sound h

theorem retryStalled_sound {f} (h : Sound s) : Sound (retryStalled s f) := by
  unfold retryStalled
  dsimp only
  refine foldl_sound (fun _ _ ht => ?_) h
  refine ite_sound ht ?_
  split
  · exact ht
  · next hr => exact answerId_sound ((serveAs_sound ht.withHub).of_fst hr)

theorem settleWaits_sound (h : Sound s) : Sound (settleWaits s) := ite_sound (retryStalled_sound h) h

theorem accessMem_sound {r} (h : Sound s) : Sound (accessMem s r) := by
  unfold accessMem
  dsimp only
  split
  · exact setEngAux_sound h
  · exact settleWaits_sound (putAccess_sound (serve_sound h))

theorem retryAll_sound (h : Sound s) : Sound (retryAll s) :=
  promoteHot_sound (flushWaitingRecs_sound (retryStalled_sound (releaseWrites_sound h)))

theorem retryGranule_sound {a1} (h : Sound s) : Sound (retryGranule s a1) := retryAll_sound h

/-! ### The fabric: frames, packets and acknowledgements -/

theorem setConn_sound {c x} (h : Sound s) : Sound (setConn s c x) := h

theorem setPort_sound {p x} (h : Sound s) : Sound (setPort s p x) := h

theorem setPeer_sound {q x} (h : Sound s) : Sound (setPeer s q x) := h

theorem noteDown_sound {q} (h : Sound s) : Sound (noteDown s q) := ite_sound (setPeer_sound h) (setPeer_sound h)

theorem noteAllDown_sound (h : Sound s) : Sound (noteAllDown s) := foldl_sound (fun _ _ ht => noteDown_sound ht) h

theorem putSealed_sound {p f body} (h : Sound s) : Sound (putSealed s p f body) := by
  grind [putSealed, !. bump_sound, !. setPort_sound, Sound]

theorem putFrame_sound {p f} (h : Sound s) : Sound (putFrame s p f) := putSealed_sound h

theorem sendLinkAck_sound {p nak} (h : Sound s) : Sound (sendLinkAck s p nak) := ite_sound (putFrame_sound h) h

theorem cacheCtx_sound {c} (hc : cacheCtx s c = some t) (h : Sound s) : Sound t := by
  unfold cacheCtx at hc
  dsimp only at hc
  split at hc
  · cases hc
    exact h.withFab
  split at hc
  · cases hc
    exact h.withFab
  · cases hc

theorem useCtx_sound {c} (h : Sound s) : Sound (useCtx s c).1 :=
  ite_fst_sound h.withFab (ite_fst_sound h (setConn_sound (bump_sound h)))

theorem transmit_sound {id x ps} (h : Sound s) : Sound (transmit s id x ps) :=
  ite_sound (putSealed_sound (ite_sound (setF_sound (setConn_sound h)) (setConn_sound h)))
      (foldl_sound (fun _ _ ht => putSealed_sound ht) h)

theorem retransmit_sound {id psn} (h : Sound s) : Sound (retransmit s id psn) := by
  unfold retransmit
  dsimp only
  split
  · exact h
  split
  · exact putSealed_sound (bump_sound (setConn_sound h))
  · exact putSealed_sound (bump_sound (setConn_sound h))
  · exact setConn_sound h

theorem sendAgain_sound {id} (h : Sound s) : Sound (sendAgain s id) :=
  foldl_sound (fun _ _ ht => retransmit_sound ht) h

theorem pumpQ_sound {id q one l blocked rest} (h : Sound s) : Sound (pumpQ s id q one l blocked rest) := by
  induction l generalizing s blocked rest with
  | nil =>
    unfold pumpQ
    dsimp only
    exact setConn_sound h
  | cons x l ih =>
    unfold pumpQ
    dsimp only
    refine ite_sound (ih h) ?_
    split
    · exact ih h
    · exact ite_sound (setConn_sound (transmit_sound h)) (ih (transmit_sound h))

theorem pumpQueue_sound {q one id} (h : Sound s) : Sound (pumpQueue s q one id) := by
  unfold pumpQueue
  refine ite_sound ?_ h
  split
  · next hr => exact pumpQ_sound ((useCtx_sound h).of_fst hr)
  · next hr => exact (useCtx_sound h).of_fst hr

theorem pump_sound {id} (h : Sound s) : Sound (pump s id) :=
  pumpQueue_sound (pumpQueue_sound (pumpQueue_sound (sendAgain_sound h)))

theorem dataTurn_sound {ids} (h : Sound s) : Sound (dataTurn s ids) :=
  foldl_sound (fun _ _ ht => ite_sound ((pumpQueue_sound ht).withFab) (pumpQueue_sound ht)) h

theorem dataTurns_sound {k ids} (h : Sound s) : Sound (dataTurns k s ids) := by
  induction k generalizing s ids with
  | zero =>
    unfold dataTurns
    exact h
  | succ k ih =>
    unfold dataTurns
    dsimp only
    exact ite_sound (ih (dataTurn_sound h)) (dataTurn_sound h)

theorem pumpAll_sound (h : Sound s) : Sound (pumpAll s) :=
  dataTurns_sound (foldl_sound (fun _ _ ht => pumpQueue_sound ht)
      (foldl_sound (fun _ _ ht => pumpQueue_sound ht) (foldl_sound (fun _ _ ht => sendAgain_sound ht) h)))

theorem sendFrame_sound {id f owner} (h : Sound s) : Sound (sendFrame s id f owner) := pump_sound (setConn_sound h)

theorem sendMsg_sound {id fs owner} (h : Sound s) : Sound (sendMsg s id fs owner) :=
  foldl_sound (fun _ _ ht => sendFrame_sound ht) h

theorem dropQueued_sound {owner} (h : Sound s) : Sound (dropQueued s owner) := h

theorem sendAck_sound {id} (h : Sound s) : Sound (sendAck s id) := sendFrame_sound (setConn_sound h)

theorem noteArrival_sound {id ce} (h : Sound s) : Sound (noteArrival s id ce) :=
  ite_sound (sendAck_sound (setConn_sound h)) (setConn_sound h)

theorem sendNack_sound {id f reason} (h : Sound s) : Sound (sendNack s id f reason) := sendFrame_sound (bump_sound h)

theorem nackNoConn_sound {f} (h : Sound s) : Sound (nackNoConn s f) :=
  ite_sound (putFrame_sound (bump_sound h)) (bump_sound h)

theorem settlePkt_sound {id ece x} (h : Sound s) : Sound (settlePkt s id ece x) := h

theorem finishClose_sound {id} (h : Sound s) : Sound (finishClose s id) :=
  ite_sound (advance_sound (setB_sound ((setConn_sound h).withFab))) h

theorem transportAck_sound {id f} (h : Sound s) : Sound (transportAck s id f) := by
  unfold transportAck
  exact finishClose_sound (pump_sound (foldl_sound (fun _ _ ht => retransmit_sound (setConn_sound ht))
      (foldl_sound (fun _ _ ht => settlePkt_sound ht) (setConn_sound h))))

theorem resendPlane_sound {q p} (h : Sound s) : Sound (resendPlane s q p) :=
  ite_sound h (foldl_sound (fun _ _ ht => foldl_sound (fun _ _ hu => retransmit_sound hu) ht) h)

theorem failPlane_sound {q p} (h : Sound s) : Sound (failPlane s q p) :=
  ite_sound h (resendPlane_sound (noteDown_sound (setPeer_sound h)))

theorem execRtoExpiry_sound {c plane} (h : Sound s) : OutcomeSound (execRtoExpiry c plane s) := by
  unfold execRtoExpiry
  refine outcomeSound_next.2 ?_
  dsimp only
  split
  · exact h
  · exact ite_sound h (ite_sound (failPlane_sound (setConn_sound h)) (retransmit_sound (setConn_sound h)))

theorem freeReplay_sound {p f} (h : Sound s) : Sound (freeReplay s p f) := h

theorem handBack_sound {f} (h : Sound s) : Sound (handBack s f) := by
  unfold handBack
  split
  · exact h
  · exact ite_sound (retransmit_sound h) (ite_sound h (sendFrame_sound h))

theorem freshPort_sound {p} (h : Sound s) : Sound (freshPort s p) := h

theorem dropLink_sound {p st} (h : Sound s) : Sound (dropLink s p st) :=
  foldl_sound (fun _ _ ht => handBack_sound ht)
      (ite_sound (setF_sound (setB_sound (freshPort_sound h)))
      (foldl_sound (fun _ _ ht => failPlane_sound ht) (setF_sound (setB_sound (freshPort_sound h)))))

theorem sendHello_sound {p} (h : Sound s) : Sound (sendHello s p) := putFrame_sound h

theorem replayPort_sound {p} (h : Sound s) : Sound (replayPort s p) :=
  ite_sound h (ite_sound (dropLink_sound h) ((bump_sound (bump_sound (setPort_sound h))).withFab))

theorem nakLink_sound {p} (h : Sound s) : Sound (nakLink s p) := ite_sound h (sendLinkAck_sound (setPort_sound h))

theorem linkReceive_sound {f} (h : Sound s) : Sound (linkReceive s f).1 :=
  ite_fst_sound (bump_sound h) (ite_fst_sound
      (ite_sound (sendLinkAck_sound (setPort_sound (freeReplay_sound (bump_sound h))))
      (setPort_sound (freeReplay_sound (bump_sound h))))
      (ite_fst_sound (nakLink_sound (bump_sound h)) (bump_sound h)))

theorem execLinkAck_sound {p f} (h : Sound s) : OutcomeSound (execLinkAck p f s) :=
  outcomeSound_next.2 (ite_sound h (pumpAll_sound
      (ite_sound (replayPort_sound (freeReplay_sound (bump_sound h))) (freeReplay_sound (bump_sound h)))))

theorem execFcsError_sound {p badFcs} (h : Sound s) : OutcomeSound (execFcsError p badFcs s) :=
  outcomeSound_next.2 (ite_sound (nakLink_sound (ite_sound (bump_sound h) h)) (ite_sound (bump_sound h) h))

theorem execLinkAckTimer_sound {p} (h : Sound s) : OutcomeSound (execLinkAckTimer p s) :=
  outcomeSound_next.2 (ite_sound (sendLinkAck_sound h) h)

theorem execPortStateChange_sound {p st rate} (h : Sound s) : OutcomeSound (execPortStateChange p st rate s) :=
  outcomeSound_next.2 (ite_sound h (ite_sound
      (ite_sound (setF_sound h) (pumpAll_sound
      (noteAllDown_sound (ite_sound (sendHello_sound (setF_sound (freshPort_sound (setF_sound h))))
      (setF_sound (freshPort_sound (setF_sound h)))))))
      (ite_sound (noteAllDown_sound (dropLink_sound (setF_sound h)))
      (noteAllDown_sound (setF_sound (setF_sound h))))))

theorem sawPeer_sound {q} (h : Sound s) : Sound (sawPeer s q) := ite_sound (noteDown_sound (setPeer_sound h)) h

theorem execHello_sound {f} (h : Sound s) : OutcomeSound (execHello f s) := by
  unfold execHello
  refine outcomeSound_next.2 ?_
  dsimp only
  refine ite_sound h ?_
  split
  · next hr => exact (linkReceive_sound h).of_fst hr
  · next hr =>
      exact pumpAll_sound (noteDown_sound (sawPeer_sound (setF_sound (setB_sound ((linkReceive_sound h).of_fst hr)))))

theorem execProbe_sound {f} (h : Sound s) : OutcomeSound (execProbe f s) := by
  unfold execProbe
  refine outcomeSound_next.2 ?_
  dsimp only
  refine ite_sound h ?_
  split
  · next hr => exact (linkReceive_sound h).of_fst hr
  next hr =>
  have hr := (linkReceive_sound h).of_fst hr
  exact ite_sound (pumpAll_sound (noteDown_sound (setPeer_sound hr))) (ite_sound (putFrame_sound hr) hr)

theorem execProbeTimer_sound {peer plane} (h : Sound s) : OutcomeSound (execProbeTimer peer plane s) :=
  outcomeSound_next.2 (ite_sound (putFrame_sound (setPeer_sound h)) h)

theorem setMiss_sound {p l} (h : Sound s) : Sound (setMiss s p l) := h

theorem windowOf_sound {b} (h : Sound s) : Sound (windowOf s b).1 := ite_fst_sound h (drawFree_sound h)

theorem connInit_sound {id} (h : Sound s) : Sound (connInit s id) := by
  have htouch := hubTouch_sound (a := getF s rConnTable fConnTableBase * 4096 + 128 * id) (n := 32) h
  have hget : ∀ t c, Sound t → Sound ((cacheCtx t c).getD t) := by
    intro t c ht
    cases hc : cacheCtx t c with
    | none => exact ht
    | some r => exact cacheCtx_sound hc ht
  unfold connInit
  extract_lets a b c
  refine ite_sound (setB_sound h) (ite_sound (setB_sound htouch) ?_)
  split
  next hw =>
  have hset : ∀ x, Sound { setConn _ id x with fab := { (setConn _ id x).fab with cached := _ } } :=
    fun x => (setConn_sound ((windowOf_sound htouch).of_fst hw)).congr rfl rfl
  exact advance_sound (ite_sound (noteDown_sound (ite_sound (hget _ _ (hset _)) (hset _))) (ite_sound (hget _ _ (hset _)) (hset _)))

theorem execConnInit_sound {ag c} (h : Sound s) : OutcomeSound (execConnInit ag c s) :=
  outcomeSound_next.2 (guarded_sound (fun _ ht => connInit_sound ht) h)

theorem execConnClose_sound {ag c} (h : Sound s) : OutcomeSound (execConnClose ag c s) :=
  outcomeSound_next.2 (guarded_sound (fun _ ht => finishClose_sound (setB_sound (setConn_sound ht))) h)

/-! ### Remote requests -/

theorem serveMem_sound {q off n o} (h : Sound s) : Sound (serveMem s q off n o).1 := by
  unfold serveMem
  grind [!. xlate_sound, !. piecesDeliver_sound, !. piecesWrite_sound, !. piecesTouch_sound, !. serveAtomic_sound,
      !. touchSpan_sound, !. foldl_sound]

theorem respond_sound {id f opcode data bad} (h : Sound s) : Sound (respond s id f opcode data bad) := sendMsg_sound h

theorem applyMem_sound {id f} (h : Sound s) : Sound (applyMem s id f).1 := by
  unfold applyMem
  split
  · dsimp only
    exact sendNack_sound h
  dsimp only
  split
  · next hr =>
    dsimp only
    exact sendNack_sound (putPeerFault_sound ((serveMem_sound h).of_fst hr))
  · next hr => exact ((serveMem_sound h).of_fst hr).withFab
  · next hr => exact (addConsult_sound ((serveMem_sound h).of_fst hr)).withFab
  next hr =>
  have hr := (serveMem_sound h).of_fst hr
  split
  · dsimp only
    exact respond_sound hr
  · dsimp only
    exact respond_sound hr
  · exact hr

theorem staleRx_sound {id f} (h : Sound s) : Sound (staleRx s id f) := sendNack_sound (bump_sound h)

theorem putUnit_sound {id f} (h : Sound s) : Sound (putUnit s id f) :=
  foldl_sound (fun _ _ ht => mpaPoison_sound ht) (bobWrite_sound (ite_sound (setBobAux_sound (setBob_sound h)) h))

theorem applySend_sound {id f} (h : Sound s) : Sound (applySend s id f).1 := by
  unfold applySend
  split <;> dsimp only
  · exact wakeFor_sound (putUnit_sound h)
  · exact staleRx_sound (ite_sound (bobToEmpty_sound h) h)
  · exact sendNack_sound h
  · exact sendNack_sound h

theorem wholeSend_sound {id f} (h : Sound s) : Sound (wholeSend s id f) := ite_sound (bobToReady_sound h) h

/-! ### Collective operations -/

theorem readGroup_sound {p gid} (h : Sound s) : Sound (readGroup s p gid).1 := by
  unfold readGroup
  dsimp only
  refine ite_fst_sound h ?_
  refine ite_fst_sound (hubTouch_sound h) ?_
  split
  · next hr =>
      have hr := (xlate_sound (hubTouch_sound h)).of_fst hr
      exact ite_fst_sound hr (piecesTouch_sound hr)
  · next hr => exact (xlate_sound (hubTouch_sound h)).of_fst hr
  · next hr => exact (xlate_sound (hubTouch_sound h)).of_fst hr
  · next hr => exact (xlate_sound (hubTouch_sound h)).of_fst hr

theorem askHub_sound {q va e w} (h : Sound s) : Sound (askHub s q va e w) :=
  ite_sound h ((addConsult_sound h).withFab)

theorem gchkLand_sound {p tid step x} (h : Sound s) : Sound (gchkLand s p tid step x) :=
  ite_sound h (hubPut_sound (hubTouch_sound h))

theorem setOp_sound {o} (h : Sound s) : Sound (setOp s o) := h

theorem dropOp_sound {id} (h : Sound s) : Sound (dropOp s id) := h

theorem pushSends_sound {o} (h : Sound s) : Sound (pushSends s o).1 := by
  unfold pushSends
  dsimp only
  refine foldl_fst_sound (fun _ _ ht => ?_) h
  refine ite_fst_sound ht ?_
  split
  · exact sendMsg_sound ht
  · exact ht

theorem reachOut_sound {u unit va n} (h : Sound s) : Sound (reachOut s u unit va n).1 := by
  unfold reachOut
  dsimp only
  split
  · next hr => exact (xlate_sound h).of_fst hr
  · next hr => exact (xlate_sound h).of_fst hr
  · next hr => exact (xlate_sound h).of_fst hr
  · next hr => exact (xlate_sound h).of_fst hr

theorem landSrc_sound {ps x} (h : Sound s) : Sound (landSrc s ps x) :=
  foldl_sound (fun _ _ ht => piecesDeliver_sound ht) (piecesWrite_sound h)

theorem opDone_sound {o detail} (h : Sound s) : Sound (opDone s o detail).1 :=
  ite_sound (bump_sound (dropOp_sound h)) (dropOp_sound h)

theorem groupAdvance_sound {o} (h : Sound s) : Sound (groupAdvance s o).1 := by
  unfold groupAdvance
  dsimp only
  refine ite_fst_sound ?_ (ite_fst_sound (setOp_sound (pushSends_sound h))
      (opDone_sound (setOp_sound (pushSends_sound h))))
  split
  · exact setOp_sound (pushSends_sound h)
  split
  · next hr => exact (reachOut_sound (setOp_sound (pushSends_sound h))).of_fst hr
  next hr =>
  have hr := (reachOut_sound (setOp_sound (pushSends_sound h))).of_fst hr
  exact ite_fst_sound (setOp_sound (ite_sound
      (raisePennant_sound (ite_sound (gchkLand_sound (landSrc_sound hr)) (landSrc_sound hr)))
      (ite_sound (gchkLand_sound (landSrc_sound hr)) (landSrc_sound hr))))
      (opDone_sound (setOp_sound (ite_sound (raisePennant_sound
      (ite_sound (gchkLand_sound (landSrc_sound hr)) (landSrc_sound hr)))
      (ite_sound (gchkLand_sound (landSrc_sound hr)) (landSrc_sound hr)))))

theorem pointAdvance_sound {o} (h : Sound s) : Sound (pointAdvance s o).1 := by
  unfold pointAdvance
  dsimp only
  refine ite_fst_sound (ite_fst_sound h (opDone_sound h)) ?_
  refine ite_fst_sound h ?_
  split
  · next hr => exact (reachOut_sound h).of_fst hr
  next hr =>
  have hr := (reachOut_sound h).of_fst hr
  exact opDone_sound (ite_sound (raisePennant_sound (landSrc_sound hr)) (landSrc_sound hr))

theorem opAdvance_sound {o} (h : Sound s) : Sound (opAdvance s o).1 :=
  ite_fst_sound (groupAdvance_sound h) (pointAdvance_sound h)

theorem opEvent_sound {id} (h : Sound s) : Sound (opEvent s id) := by
  unfold opEvent
  split
  · exact h
  split
  · exact h
  refine ite_sound h ?_
  split
  · next hr => exact (opAdvance_sound h).of_fst hr
  · next hr => exact (opAdvance_sound h).of_fst hr
  next hr =>
  have hr := (opAdvance_sound h).of_fst hr
  exact applyAct_sound hr hr

theorem takeOpid_sound {gid} (h : Sound s) : Sound (takeOpid s gid).2 := h.withFab

theorem issueOp_sound {u c o ps} (h : Sound s) : Sound (issueOp s u c o ps).1 :=
  (takeOpid_sound (ite_sound (cmdPoison_sound (piecesTouch_sound h)) (piecesTouch_sound h))).withFab

theorem groupBody_sound {u c} (h : Sound s) : Sound (groupBody u s c).1 := by
  unfold groupBody
  dsimp only
  split
  · exact opAdvance_sound h
  split
  · next hr => exact (readGroup_sound h).of_fst hr
  · next hr => exact (readGroup_sound h).of_fst hr
  next hr =>
  have hr := (readGroup_sound h).of_fst hr
  refine ite_fst_sound hr ?_
  refine ite_fst_sound hr ?_
  refine ite_fst_sound hr ?_
  split
  · next hr₁ => exact (reach_sound hr).of_fst hr₁
  · next hr₁ => exact opAdvance_sound (issueOp_sound ((reach_sound hr).of_fst hr₁))

theorem resumeOps_sound {u} (h : Sound s) : Sound (resumeOps s u) := by
  unfold resumeOps
  refine foldl_sound (fun _ _ ht => ?_) h
  split
  · exact opEvent_sound ht
  · exact ht

theorem runGroup_sound {u op} (h : Sound s) : Sound (runGroup s u op) :=
  ite_sound (runCmd_sound (fun _ _ ht => groupBody_sound ht) h) (resumeOps_sound h)

theorem execAllReduce_sound {u} (h : Sound s) : OutcomeSound (execAllReduce u s) :=
  outcomeSound_next.2 (runGroup_sound h)

theorem execReduceScatter_sound {u} (h : Sound s) : OutcomeSound (execReduceScatter u s) :=
  outcomeSound_next.2 (runGroup_sound h)

theorem execAllGather_sound {u} (h : Sound s) : OutcomeSound (execAllGather u s) :=
  outcomeSound_next.2 (runGroup_sound h)

theorem execBroadcast_sound {u} (h : Sound s) : OutcomeSound (execBroadcast u s) :=
  outcomeSound_next.2 (runGroup_sound h)

theorem execBarrier_sound {u} (h : Sound s) : OutcomeSound (execBarrier u s) := outcomeSound_next.2 (runGroup_sound h)

theorem pointLocal_sound {o id b} (h : Sound s) : Sound (pointLocal s o id b).1 := by
  unfold pointLocal
  dsimp only
  refine ite_fst_sound ?_ ?_
  · split
    · exact h
    · exact h
    · exact wholeSend_sound (foldl_sound (fun _ _ ht => putUnit_sound ht) h)
  · split
    · exact h
    split
    · next hr => exact (serveMem_sound h).of_fst hr
    · next hr => exact (serveMem_sound h).of_fst hr
    · next hr => exact (serveMem_sound h).of_fst hr
    next hr =>
    have hr := (serveMem_sound h).of_fst hr
    exact ite_fst_sound hr (pointAdvance_sound hr)

theorem pointSend_sound {o id b} (h : Sound s) : Sound (pointSend s o id b) := sendMsg_sound h.withFab

theorem pointBody_sound {u c} (h : Sound s) : Sound (pointBody u s c).1 := by
  unfold pointBody
  dsimp only
  split
  · exact opAdvance_sound h
  split
  · exact h
  refine ite_fst_sound h ?_
  split
  · next hr => exact (reach_sound h).of_fst hr
  next hr =>
  have hr := (reach_sound h).of_fst hr
  exact ite_fst_sound (pointLocal_sound (piecesTouch_sound hr)) (pointSend_sound (piecesTouch_sound hr))

theorem runPoint_sound {u op} (h : Sound s) : Sound (runPoint s u op) :=
  ite_sound (runCmd_sound (fun _ _ ht => pointBody_sound ht) h) (resumeOps_sound h)

theorem execPut_sound {u} (h : Sound s) : OutcomeSound (execPut u s) := outcomeSound_next.2 (runPoint_sound h)

theorem execGet_sound {u} (h : Sound s) : OutcomeSound (execGet u s) := outcomeSound_next.2 (runPoint_sound h)

theorem execAtomic_sound {u} (h : Sound s) : OutcomeSound (execAtomic u s) := outcomeSound_next.2 (runPoint_sound h)

theorem execCollectiveSend_sound {u} (h : Sound s) : OutcomeSound (execCollectiveSend u s) :=
  outcomeSound_next.2 (runPoint_sound h)

theorem applyColl_sound {id f} (h : Sound s) : Sound (applyColl s id f) := by
  unfold applyColl
  dsimp only
  split
  · exact opEvent_sound (setOp_sound h)
  · exact ite_sound h h.withFab

theorem applyResp_sound {id f} (h : Sound s) : Sound (applyResp s id f) := by
  unfold applyResp
  dsimp only
  split
  · exact h
  · exact opEvent_sound (setOp_sound h)

/-! ### Rows and grants of the experts -/

theorem landTouch_sound {i} (h : Sound s) : Sound (landTouch s i) := ite_sound h (hubTouch_sound h)

theorem grantEntry_sound {part group opid p} (h : Sound s) : Sound (grantEntry s part group opid p).1 := by
  unfold grantEntry
  dsimp only
  split
  · exact h
  split
  · next hr =>
      exact foldl_sound (fun _ _ ht => ite_sound ht.withFab (setBobAux_sound (setBob_sound ht.withFab)))
          (bump_sound (piecesWrite_sound ((xlate_sound h).of_fst hr)))
  · next hr => exact (xlate_sound h).of_fst hr

theorem LandPlan.reach_sound {p part} (h : Sound s) : Sound (LandPlan.reach p s part).1 := by
  unfold LandPlan.reach
  split
  · exact h
  · exact xlate_sound h

theorem plansReach_sound {part l} (h : Sound s) : Sound (plansReach s part l).1 := by
  induction l generalizing s with
  | nil =>
    unfold plansReach
    dsimp only
    exact h
  | cons x l ih =>
    unfold plansReach
    split
    · next hr => exact ih ((LandPlan.reach_sound h).of_fst hr)
    · next hr => exact (LandPlan.reach_sound h).of_fst hr

theorem landDone_sound {x d refused} (h : Sound s) : Sound (landDone s x d refused) :=
  ite_sound h.withFab (ite_sound h.withFab (ite_sound (bobToEmpty_sound h.withFab) (bobToReady_sound h.withFab)))

theorem rowPut_sound {t x rows r row} (h : Sound s) : Sound (rowPut s t x rows r row) :=
  ite_sound (putAll_sound h) (foldl_sound (fun _ _ ht => Tgt.poison_sound ht) (putAll_sound h))

theorem landRefuse_sound {part group opid addr} (h : Sound s) : Sound (landRefuse s part group opid addr) := by
  unfold landRefuse
  split
  · exact landDone_sound h
  · exact h

theorem landPlace_sound {part addr x d noWait} (h : Sound s) : Sound (landPlace s part addr x d noWait).1 := by
  unfold landPlace
  dsimp only
  refine ite_fst_sound h ?_
  refine ite_fst_sound ?_ (ite_fst_sound h (ite_fst_sound h h))
  split
  · next hr => exact (xlate_sound h).of_fst hr
  · next hr => exact (xlate_sound h).of_fst hr
  · next hr => exact (xlate_sound h).of_fst hr
  · next hr => exact (xlate_sound h).of_fst hr

theorem landRow_sound {part group opid addr row noWait} (h : Sound s) : Sound
    (landRow s part group opid addr row noWait).1 := by
  unfold landRow
  dsimp only
  split
  · exact h
  refine ite_fst_sound (landDone_sound h) ?_
  split
  · next hr =>
      have hr := (landPlace_sound (landTouch_sound h)).of_fst hr
      exact landDone_sound (ite_sound (bump_sound (rowPut_sound hr)) (wakeFor_sound (bump_sound (rowPut_sound hr))))
  · next hr =>
      have hr := (landPlace_sound (landTouch_sound h)).of_fst hr
      exact landDone_sound (ite_sound (bump_sound hr) hr)
  · next hr => exact (landPlace_sound (landTouch_sound h)).of_fst hr

theorem askFrame_sound {q va e id f} (h : Sound s) : Sound (askFrame s q va e id f) := (addConsult_sound h).withFab

theorem rowAnswer_sound {id f addr a1} (h : Sound s) : Sound (rowAnswer s id f addr a1).1 := by
  unfold rowAnswer
  split <;> dsimp only
  · exact h
  · exact sendNack_sound h
  · exact sendNack_sound (putPeerFault_sound (landRefuse_sound h))
  · exact askFrame_sound h
  · exact h.withFab

theorem rowBegin_sound {id f front} (h : Sound s) : Sound (rowBegin s id f front) := by
  unfold rowBegin
  dsimp only
  split
  · exact h
  split
  · next hr => exact putAll_sound ((landPlace_sound h).of_fst hr)
  · next hr => exact (landPlace_sound h).of_fst hr

theorem applyRow_sound {id f} (h : Sound s) : Sound (applyRow s id f).1 := by
  unfold applyRow
  dsimp only
  split
  · exact rowAnswer_sound (landRow_sound h)
  split
  · exact rowBegin_sound h
  · exact h

theorem setDisp_sound {d} (h : Sound s) : Sound (setDisp s d) := h

theorem dropDisp_sound {id} (h : Sound s) : Sound (dropDisp s id) := h

theorem noteMap_sound {u va d} (h : Sound s) : Sound (noteMap s u va d) := h

theorem sendRow_sound {d part row c slot} (h : Sound s) : Sound (sendRow s d part row c slot).1 := by
  unfold sendRow
  dsimp only
  split
  · exact h
  refine ite_fst_sound (landRow_sound h) ?_
  split
  · exact h
  · exact sendMsg_sound h

theorem sendCopies_sound {part f x src l d} (h : Sound s) : Sound (sendCopies part f x src l s d).1 := by
  induction l generalizing s d with
  | nil =>
    unfold sendCopies
    dsimp only
    exact h
  | cons x l ih =>
    unfold sendCopies
    split
    · exact ih h
    split
    · next hr => exact ih ((sendRow_sound h).of_fst hr)
    · next hr => exact ih ((sendRow_sound h).of_fst hr)
    · next hr =>
        have hr := (sendRow_sound h).of_fst hr
        exact ite_sound hr (landRefuse_sound hr)
    · next hr => exact (sendRow_sound h).of_fst hr
    · next hr => exact (sendRow_sound h).of_fst hr

theorem sendRows_sound {d c} (h : Sound s) : Sound (sendRows s d c).1 := by
  unfold sendRows
  extract_lets x part q
  split
  · exact h
  split
  · next hs => exact (reach_sound h).of_fst hs
  next hs =>
  have hs := (reach_sound h).of_fst hs
  refine ite_fst_sound (sendCopies_sound hs) ?_
  split
  · next hr => exact (reach_sound hs).of_fst hr
  next hr =>
  have hr := (reach_sound hs).of_fst hr
  split
  · next hm => exact (reachOut_sound hr).of_fst hm
  next hm =>
  exact sendCopies_sound (noteMap_sound (piecesWrite_sound (piecesTouch_sound ((reachOut_sound hr).of_fst hm))))

theorem dispEnd_sound {d x} (h : Sound s) : Sound (dispEnd s d x).1 := dropDisp_sound h

theorem dispAdvance_sound {d c} (h : Sound s) : Sound (dispAdvance s d c).1 := by
  unfold dispAdvance
  dsimp only
  refine ite_fst_sound (dispEnd_sound h) ?_
  refine ite_fst_sound h ?_
  refine ite_fst_sound (dropDisp_sound h) ?_
  refine ite_fst_sound ?_ (ite_fst_sound h (dispEnd_sound h))
  split
  · next hr =>
      have hr := (sendRows_sound h).of_fst hr
      exact ite_fst_sound (setDisp_sound hr) (dispEnd_sound (setDisp_sound hr))
  · next hr => exact setDisp_sound ((sendRows_sound h).of_fst hr)

theorem dispEvent_sound {id} (h : Sound s) : Sound (dispEvent s id) := by
  unfold dispEvent
  split
  · exact h
  split
  · exact h
  refine ite_sound h ?_
  split
  · next hr => exact (dispAdvance_sound h).of_fst hr
  · next hr => exact (dispAdvance_sound h).of_fst hr
  next hr =>
  have hr := (dispAdvance_sound h).of_fst hr
  exact applyAct_sound hr hr

theorem addCount_sound {x} (h : Sound s) : Sound (addCount s x) := h

theorem dispStart_sound {u c g copies} (h : Sound s) : Sound (dispStart s u c g copies) := by
  unfold dispStart
  dsimp only
  refine foldl_sound (fun _ _ ht => ?_) (ite_sound (addCount_sound ((takeOpid_sound h).withFab))
      ((takeOpid_sound h).withFab))
  split
  · exact ht
  · exact sendMsg_sound ht

theorem dispBody_sound {u c} (h : Sound s) : Sound (dispBody u s c).1 := by
  unfold dispBody
  dsimp only
  split
  · exact dispAdvance_sound h
  split
  · next hr => exact (readGroup_sound h).of_fst hr
  · next hr => exact (readGroup_sound h).of_fst hr
  next hr =>
  have hr := (readGroup_sound h).of_fst hr
  refine ite_fst_sound hr ?_
  refine ite_fst_sound hr ?_
  split
  · next hr₁ => exact (reach_sound hr).of_fst hr₁
  next hr₁ =>
  have hr₁ := (reach_sound hr).of_fst hr₁
  split
  · next hr₂ => exact (reach_sound hr₁).of_fst hr₂
  next hr₂ =>
  have hr₂ := (reach_sound hr₁).of_fst hr₂
  exact ite_fst_sound (cmdPoison_sound (piecesTouch_sound (piecesTouch_sound hr₂)))
      (ite_fst_sound (piecesTouch_sound (piecesTouch_sound hr₂))
      (dispStart_sound (piecesTouch_sound (piecesTouch_sound hr₂))))

theorem resumeDisps_sound {u} (h : Sound s) : Sound (resumeDisps s u) := by
  unfold resumeDisps
  refine foldl_sound (fun _ _ ht => ?_) h
  split
  · exact dispEvent_sound ht
  · exact ht

theorem execDispatch_sound {u} (h : Sound s) : OutcomeSound (execDispatch u s) :=
  outcomeSound_next.2 (ite_sound (runCmd_sound (fun _ _ ht => dispBody_sound ht) h) (resumeDisps_sound h))

theorem applyCount_sound {id f fs} (h : Sound s) : Sound (applyCount s id f fs) := h

theorem takeGrant_sound {part peer group opid g last} (h : Sound s) : Sound (takeGrant s part peer group opid g last)
    := by
  unfold takeGrant
  dsimp only
  split
  · exact h
  · exact dispEvent_sound (setDisp_sound h)

theorem applyGrant_sound {id f fs} (h : Sound s) : Sound (applyGrant s id f fs) :=
  ite_sound (takeGrant_sound h) (takeGrant_sound h)

theorem giveGrant_sound {part group opid q g} (h : Sound s) : Sound (giveGrant s part group opid q g) := by
  unfold giveGrant
  dsimp only
  refine ite_sound (takeGrant_sound h) ?_
  split
  · exact h
  · exact sendMsg_sound h

theorem refuseGrant_sound {part group opid q va cause replay} (h : Sound s) : Sound
    (refuseGrant s part group opid q va cause replay) := by
  grind [refuseGrant, !. applyAct_sound, !. putPeerFault_sound, !. sendNack_sound, !. foldl_sound, Sound]

theorem grantAll_sound {part group opid cs g plans} (h : Sound s) : Sound (grantAll s part group opid cs g plans) :=
  foldl_sound (fun _ _ ht => giveGrant_sound ht)
      (foldl_sound (fun _ _ ht => foldl_sound (fun _ _ hu => giveGrant_sound hu) ht)
      (foldl_fst_sound (fun _ _ ht => grantEntry_sound ht)
      ((foldl_sound (fun _ _ ht => landTouch_sound ht) h).withFab)))

theorem landingGrant_sound {part group opid} (h : Sound s) : Sound (landingGrant s part group opid) := by
  unfold landingGrant
  dsimp only
  split
  · exact h
  · next hr => exact askHub_sound ((readGroup_sound h).of_fst hr)
  · next hr => exact (readGroup_sound h).of_fst hr
  next hr =>
  have hr := (readGroup_sound h).of_fst hr
  refine ite_sound h ?_
  refine ite_sound h ?_
  split
  · next hr₁ => exact refuseGrant_sound ((plansReach_sound hr).of_fst hr₁)
  · next hr₁ => exact askHub_sound ((plansReach_sound hr).of_fst hr₁)
  · next hr₁ => exact (plansReach_sound hr).of_fst hr₁
  · next hr₁ => exact grantAll_sound ((plansReach_sound hr).of_fst hr₁)

theorem execLandingGrant_sound {group opid} (h : Sound s) : OutcomeSound (execLandingGrant group opid s) := by
  unfold execLandingGrant
  refine outcomeSound_next.2 ?_
  split
  · exact h
  · exact landingGrant_sound h

theorem setComb_sound {d} (h : Sound s) : Sound (setComb s d) := h

theorem dropComb_sound {id} (h : Sound s) : Sound (dropComb s id) := h

theorem combTables_sound {u x} (h : Sound s) : Sound (combTables s u x).1 := by
  unfold combTables
  dsimp only
  split
  · next hr => exact (reach_sound h).of_fst hr
  next hr =>
  have hr := (reach_sound h).of_fst hr
  split
  · next hr₁ => exact (reach_sound hr).of_fst hr₁
  next hr₁ =>
  have hr₁ := (reach_sound hr).of_fst hr₁
  split
  · next hr₂ => exact (reach_sound hr₁).of_fst hr₂
  · next hr₂ => exact (reach_sound hr₁).of_fst hr₂

theorem combAdvance_sound {d c} (h : Sound s) : Sound (combAdvance s d c).1 := by
  unfold combAdvance
  refine ite_fst_sound (dropComb_sound h) (ite_fst_sound h ?_)
  split
  · next ht =>
    have ht := (combTables_sound h).of_fst ht
    split
    · next hr => exact (reachOut_sound ht).of_fst hr
    · next hr =>
      have hput := fun ps ws =>
        dropComb_sound (id := d.id) (putAll_sound (t := .pieces ps) (ws := ws) ((reachOut_sound ht).of_fst hr))
      exact ite_fst_sound (raisePennant_sound (hput _ _)) (hput _ _)
  · next ht => exact dropComb_sound ((combTables_sound h).of_fst ht)
  · next ht _ => exact (combTables_sound h).of_fst ht
  · next ht _ => exact (combTables_sound h).of_fst ht

theorem combEvent_sound {id} (h : Sound s) : Sound (combEvent s id) := by
  unfold combEvent
  split
  · exact h
  split
  · exact h
  refine ite_sound h ?_
  split
  · next hr => exact (combAdvance_sound h).of_fst hr
  · next hr => exact (combAdvance_sound h).of_fst hr
  next hr =>
  have hr := (combAdvance_sound h).of_fst hr
  exact applyAct_sound hr hr

theorem combStart_sound {u c need runs} (h : Sound s) : Sound (combStart s u c need runs).1 := by
  unfold combStart
  dsimp only
  refine foldl_sound (fun _ _ ht => ?_) ((takeOpid_sound h).withFab)
  refine ite_sound ht.withFab ?_
  split
  · exact ht
  · exact sendMsg_sound ht

theorem combBody_sound {u c} (h : Sound s) : Sound (combBody u s c).1 := by
  unfold combBody
  dsimp only
  split
  · exact combAdvance_sound h
  split
  · next hr => exact (readGroup_sound h).of_fst hr
  · next hr => exact (readGroup_sound h).of_fst hr
  next hr =>
  have hr := (readGroup_sound h).of_fst hr
  split
  · next hr₁ => exact (combTables_sound hr).of_fst hr₁
  next hr₁ =>
  have hr₁ := (combTables_sound hr).of_fst hr₁
  exact ite_fst_sound (cmdPoison_sound (piecesTouch_sound (piecesTouch_sound (piecesTouch_sound hr₁))))
      (ite_fst_sound (piecesTouch_sound (piecesTouch_sound (piecesTouch_sound hr₁)))
      (ite_fst_sound (piecesTouch_sound (piecesTouch_sound (piecesTouch_sound hr₁)))
      (combAdvance_sound (combStart_sound (piecesTouch_sound (piecesTouch_sound (piecesTouch_sound hr₁)))))))

theorem resumeCombs_sound {u} (h : Sound s) : Sound (resumeCombs s u) := by
  unfold resumeCombs
  refine foldl_sound (fun _ _ ht => ?_) h
  split
  · exact combEvent_sound ht
  · exact ht

theorem execCombine_sound {u} (h : Sound s) : OutcomeSound (execCombine u s) :=
  outcomeSound_next.2 (ite_sound (runCmd_sound (fun _ _ ht => combBody_sound ht) h) (resumeCombs_sound h))

theorem applyCombReq_sound {id f} (h : Sound s) : Sound (applyCombReq s id f) := h

theorem takeRow_sound {part group opid r} (h : Sound s) : Sound (takeRow s part group opid r) := by
  unfold takeRow
  split
  · exact h
  · exact combEvent_sound (setComb_sound h)

theorem applyCombResp_sound {id f fs} (h : Sound s) : Sound (applyCombResp s id f fs) := by
  unfold applyCombResp
  dsimp only
  split
  · exact h
  · exact takeRow_sound h

theorem combNack_sound {q reason} (h : Sound s) : Sound (combNack s q reason) := by
  unfold combNack
  dsimp only
  split
  · exact sendNack_sound h
  split
  · exact h
  · exact combEvent_sound (setComb_sound h)

theorem returnRow_sound {q x slot row} (h : Sound s) : Sound (returnRow s q x slot row) := by
  unfold returnRow
  dsimp only
  split
  · exact takeRow_sound h
  · exact sendMsg_sound h

theorem dropReq_sound {q} (h : Sound s) : Sound (dropReq s q) := h

theorem combFault_sound {q astag va cause replay} (h : Sound s) : Sound (combFault s q astag va cause replay) := by
  unfold combFault
  dsimp only
  split
  · exact combNack_sound (dropReq_sound (putPeerFault_sound h))
  · exact applyAct_sound h (ite_sound h (dropReq_sound h))
  · exact dropReq_sound h

theorem combReturn_sound {q x ps} (h : Sound s) : Sound (combReturn s q x ps) :=
  foldl_sound (fun _ _ ht => returnRow_sound ht) (bump_sound (dropReq_sound (piecesTouch_sound h)))

theorem combServe_sound {q} (h : Sound s) : Sound (combServe s q) := by
  unfold combServe
  dsimp only
  split
  · exact combNack_sound (dropReq_sound h)
  refine ite_sound h ?_
  split
  · next hr => exact combFault_sound ((xlate_sound (landTouch_sound h)).of_fst hr)
  · next hr => exact askHub_sound ((xlate_sound (landTouch_sound h)).of_fst hr)
  · next hr => exact (xlate_sound (landTouch_sound h)).of_fst hr
  next hr =>
  have hr := (xlate_sound (landTouch_sound h)).of_fst hr
  refine ite_sound hr ?_
  split
  · next hr₁ => exact combFault_sound ((xlate_sound hr).of_fst hr₁)
  · next hr₁ => exact askHub_sound ((xlate_sound hr).of_fst hr₁)
  · next hr₁ => exact (xlate_sound hr).of_fst hr₁
  · next hr₁ => exact combReturn_sound ((xlate_sound hr).of_fst hr₁)

theorem execCombineServe_sound {id} (h : Sound s) : OutcomeSound (execCombineServe id s) := by
  unfold execCombineServe
  refine outcomeSound_next.2 ?_
  split
  · exact h
  · exact combServe_sound h

/-! ### What arrives from the fabric -/

theorem frameParity_sound {f} (h : Sound s) : Sound (frameParity s f) := ite_sound h (logError_sound h)

theorem takeIn_sound {f} (h : Sound s) : Sound (takeIn s f).1 := by
  unfold takeIn
  refine ite_fst_sound h ?_
  split
  · next hr => exact (linkReceive_sound h).of_fst hr
  next hr =>
  have hr := (linkReceive_sound h).of_fst hr
  exact ite_fst_sound (bump_sound hr) (ite_fst_sound (bump_sound hr)
      (ite_fst_sound (frameParity_sound hr) (sawPeer_sound (frameParity_sound hr))))

theorem admitConn_sound {f} (h : Sound s) : Sound (admitConn s f).1 :=
  ite_fst_sound (nackNoConn_sound h) (ite_fst_sound (bump_sound h) h)

theorem applyFrame_sound {id f} (h : Sound s) : Sound (applyFrame s id f).1 := by
  unfold applyFrame
  split
  · exact applyMem_sound h
  · exact applyMem_sound h
  · exact applyMem_sound h
  · exact applyResp_sound h
  · exact applyResp_sound h
  · exact applySend_sound h
  · exact applyColl_sound h
  · exact applyRow_sound h
  · exact h

theorem applyWhole_sound {id f fs} (h : Sound s) : Sound (applyWhole s id f fs) := by
  unfold applyWhole
  split
  · exact wholeSend_sound h
  · exact applyCount_sound h
  · exact applyGrant_sound h
  · exact applyCombReq_sound h
  · exact applyCombResp_sound h
  · exact h

theorem markPsn_sound {id f} (h : Sound s) : Sound (markPsn s id f) := h

theorem settleMsg_sound {id f} (h : Sound s) : Sound (settleMsg s id f) := by
  unfold settleMsg
  dsimp only
  split
  · exact h
  · exact applyWhole_sound (setConn_sound h)

theorem noteApplied_sound {id f late} (h : Sound s) : Sound (noteApplied s id f late) :=
  settleMsg_sound (ite_sound (markPsn_sound h) (noteArrival_sound (markPsn_sound h)))

theorem applyNow_sound {id f late} (h : Sound s) : Sound (applyNow s id f late) := by
  unfold applyNow
  dsimp only
  refine ite_sound (noteApplied_sound (sendNack_sound h)) ?_
  refine ite_sound h.withFab ?_
  split
  · next hr => exact noteApplied_sound ((applyFrame_sound h).of_fst hr)
  · next hr => exact noteApplied_sound ((applyFrame_sound h).of_fst hr)
  · next hr => exact (applyFrame_sound h).of_fst hr
  · next hr =>
      have hr := (applyFrame_sound h).of_fst hr
      exact ite_sound hr (noteArrival_sound hr)
  next hr =>
  have hr := (applyFrame_sound h).of_fst hr
  exact ite_sound hr (noteArrival_sound hr)

theorem deliver_sound {id f} (h : Sound s) : Sound (deliver s id f) := by
  unfold deliver
  exact ite_sound (noteArrival_sound h) (ite_sound h (ite_sound (noteArrival_sound (setConn_sound h)) (applyNow_sound h)))

theorem deliverFenced_sound {id k} (h : Sound s) : Sound (deliverFenced s id k) := by
  induction k generalizing s with
  | zero =>
    unfold deliverFenced
    exact h
  | succ k ih =>
    unfold deliverFenced
    dsimp only
    split
    · exact h
    · exact ih (applyNow_sound (setConn_sound h))

theorem applyLate_sound {id f} (h : Sound s) : Sound (applyLate s id f) := deliverFenced_sound (applyNow_sound h)

theorem retryHeld_sound (h : Sound s) : Sound (retryHeld s) :=
  foldl_sound (fun _ _ ht => applyLate_sound ht) h.withFab

theorem deliverAll_sound {id f} (h : Sound s) : Sound (deliverAll s id f) := deliverFenced_sound (deliver_sound h)

theorem arrive_sound {f} (h : Sound s) : Sound (arrive s f) := by
  unfold arrive
  dsimp only
  split
  · next hr => exact (admitConn_sound h).of_fst hr
  next hr =>
  have hr := (admitConn_sound h).of_fst hr
  split
  · next hr₁ => exact deliverAll_sound ((useCtx_sound hr).of_fst hr₁)
  · next hr₁ => exact setConn_sound ((useCtx_sound hr).of_fst hr₁)

theorem receive_sound {f opcode} (h : Sound s) : Sound (receive s f opcode) := by
  unfold receive
  refine ite_sound h ?_
  split
  · next hr => exact (takeIn_sound h).of_fst hr
  · next hr => exact arrive_sound (retryHeld_sound ((takeIn_sound h).of_fst hr))

theorem execAckTimer_sound {c} (h : Sound s) : OutcomeSound (execAckTimer c s) :=
  outcomeSound_next.2 (ite_sound (sendAck_sound (retryHeld_sound h)) (retryHeld_sound h))

theorem execWrite_sound {f} (h : Sound s) : OutcomeSound (execWrite f s) := outcomeSound_next.2 (receive_sound h)

theorem execReadReq_sound {f} (h : Sound s) : OutcomeSound (execReadReq f s) := outcomeSound_next.2 (receive_sound h)

theorem execReadResp_sound {f} (h : Sound s) : OutcomeSound (execReadResp f s) :=
  outcomeSound_next.2 (receive_sound h)

theorem execAtomicReq_sound {f} (h : Sound s) : OutcomeSound (execAtomicReq f s) :=
  outcomeSound_next.2 (receive_sound h)

theorem execAtomicResp_sound {f} (h : Sound s) : OutcomeSound (execAtomicResp f s) :=
  outcomeSound_next.2 (receive_sound h)

theorem execSend_sound {f} (h : Sound s) : OutcomeSound (execSend f s) := outcomeSound_next.2 (receive_sound h)

theorem execCollData_sound {f} (h : Sound s) : OutcomeSound (execCollData f s) :=
  outcomeSound_next.2 (receive_sound h)

theorem execDispatchCount_sound {f} (h : Sound s) : OutcomeSound (execDispatchCount f s) :=
  outcomeSound_next.2 (receive_sound h)

theorem execDispatchGrant_sound {f} (h : Sound s) : OutcomeSound (execDispatchGrant f s) :=
  outcomeSound_next.2 (receive_sound h)

theorem execDispatchRow_sound {f} (h : Sound s) : OutcomeSound (execDispatchRow f s) :=
  outcomeSound_next.2 (receive_sound h)

theorem execCombineReq_sound {f} (h : Sound s) : OutcomeSound (execCombineReq f s) :=
  outcomeSound_next.2 (receive_sound h)

theorem execCombineResp_sound {f} (h : Sound s) : OutcomeSound (execCombineResp f s) :=
  outcomeSound_next.2 (receive_sound h)

theorem ownerEvent_sound {id} (h : Sound s) : Sound (ownerEvent s id) :=
  ite_sound h (combEvent_sound (dispEvent_sound (opEvent_sound h)))

theorem touchOwner_sound {id} (h : Sound s) : Sound (touchOwner s id) := h

theorem execAck_sound {f} (h : Sound s) : OutcomeSound (execAck f s) := by
  unfold execAck
  refine outcomeSound_next.2 ?_
  dsimp only
  refine ite_sound h ?_
  split
  · next hr => exact (takeIn_sound h).of_fst hr
  next hr =>
  have hr := (takeIn_sound h).of_fst hr
  exact ite_sound hr (foldl_sound (fun _ _ ht => ownerEvent_sound (touchOwner_sound ht)) (transportAck_sound hr))

theorem failOp_sound {o a} (h : Sound s) : Sound (failOp s o a) := by
  unfold failOp
  split
  · exact dropOp_sound h
  · exact ite_sound (dropOp_sound h) (applyAct_sound h (dropOp_sound h))

theorem failDisp_sound {d a} (h : Sound s) : Sound (failDisp s d a) := by
  unfold failDisp
  split
  · exact dropDisp_sound h
  · exact ite_sound (dropDisp_sound h) (applyAct_sound h (dropDisp_sound h))

theorem failComb_sound {d a} (h : Sound s) : Sound (failComb s d a) := by
  unfold failComb
  split
  · exact dropComb_sound h
  · exact ite_sound (dropComb_sound h) (applyAct_sound h (dropComb_sound h))

theorem failGather_sound {id} (h : Sound s) : Sound (failGather s id) := h

theorem nackOwner_sound {id va reason} (h : Sound s) : Sound (nackOwner s id va reason) := by
  unfold nackOwner
  split
  · exact failOp_sound h
  · exact dispEvent_sound (setDisp_sound h)
  · exact combEvent_sound (setComb_sound h)
  · exact failGather_sound h

theorem nackNamed_sound {id f} (h : Sound s) : Sound (nackNamed s id f) := by
  unfold nackNamed
  dsimp only
  split
  · split
    · exact nackOwner_sound h
    · exact h
  · split
    · exact nackOwner_sound h
    · exact h
  · split
    · exact nackOwner_sound h
    · exact h
  · split
    · exact nackOwner_sound h
    · exact h
  · split
    · exact nackOwner_sound h
    · exact h
  · split
    · exact nackOwner_sound h
    · exact h
  · split
    · exact nackOwner_sound h
    · exact h
  · exact h

theorem execNack_sound {f} (h : Sound s) : OutcomeSound (execNack f s) := by
  unfold execNack
  refine outcomeSound_next.2 ?_
  dsimp only
  refine ite_sound h ?_
  split
  · next hr => exact (takeIn_sound h).of_fst hr
  next hr =>
  have hr := (takeIn_sound h).of_fst hr
  split
  · exact hr
  split
  · exact ite_sound (ite_sound hr hr.withFab)
        (finishClose_sound (pump_sound (nackOwner_sound (settlePkt_sound (setConn_sound hr)))))
  · exact ite_sound hr (nackNamed_sound hr)

theorem execSendRetry_sound {id} (h : Sound s) : OutcomeSound (execSendRetry id s) := by
  unfold execSendRetry
  refine outcomeSound_next.2 ?_
  dsimp only
  split
  · exact h
  · exact ite_sound h (retransmit_sound h.withFab)

theorem execContextFetch_sound {c} (h : Sound s) : OutcomeSound (execContextFetch c s) := by
  unfold execContextFetch
  refine outcomeSound_next.2 ?_
  dsimp only
  refine ite_sound h ?_
  split
  · exact h
  · next hr =>
      exact pump_sound (foldl_sound (fun _ _ ht => deliverAll_sound ht) (setConn_sound ((cacheCtx_sound hr h))))

theorem unasked_sound {k} (h : Sound s) : Sound (unasked s k) := h

theorem askAgain_sound {a1} (h : Sound s) : Sound (askAgain s a1) := by
  unfold askAgain
  split
  · split
    · exact combServe_sound h
    · exact h
  · exact landingGrant_sound h
  · exact foldl_sound (fun _ _ ht => landingGrant_sound ht) h

theorem answerAsked_sound {k} (h : Sound s) : Sound (answerAsked s k) :=
  foldl_sound (fun _ _ ht => askAgain_sound ht) (foldl_sound (fun _ _ ht => applyLate_sound ht) (unasked_sound h))

theorem nackFrame_sound {id f cause} (h : Sound s) : Sound (nackFrame s id f cause) := by
  unfold nackFrame
  exact noteApplied_sound (sendNack_sound (ite_sound (landRefuse_sound h) h))

theorem askFault_sound {r cause replay a1} (h : Sound s) : Sound (askFault s r cause replay a1) := by
  unfold askFault
  split
  · split
    · exact combFault_sound h
    · exact h
  · exact refuseGrant_sound h
  · exact h

theorem nackAsked_sound {k r cause replay} (h : Sound s) : Sound (nackAsked s k r cause replay) :=
  foldl_sound (fun _ _ ht => askFault_sound ht)
      (foldl_sound (fun _ _ ht => nackFrame_sound ht)
      (ite_sound (unasked_sound h) (putPeerFault_sound (unasked_sound h))))

theorem moveAsked_sound {k k'} (h : Sound s) : Sound (moveAsked s k k') := h

theorem execPeerUnreachable_sound {peer} (h : Sound s) : OutcomeSound (execPeerUnreachable peer s) := by
  unfold execPeerUnreachable
  refine outcomeSound_next.2 ?_
  dsimp only
  split
  · exact h
  · exact ite_sound h (foldl_sound (fun _ _ ht => failGather_sound ht)
        (foldl_sound (fun _ _ ht => failComb_sound ht)
        (foldl_sound (fun _ _ ht => failDisp_sound ht)
        (foldl_sound (fun _ _ ht => failOp_sound ht) (setPeer_sound h)))))

theorem execCollTimeout_sound {id} (h : Sound s) : OutcomeSound (execCollTimeout id s) := by
  unfold execCollTimeout
  refine outcomeSound_next.2 ?_
  dsimp only
  split
  · exact ite_sound (failOp_sound h) h
  · exact ite_sound (failDisp_sound h) h
  · exact ite_sound (failComb_sound h) h
  · exact h

/-! ### Jobs and their steps -/

theorem ctlErr_sound {p} (h : Sound s) : Sound (ctlErr s p) := h

theorem jobStart_sound {p} (h : Sound s) : Sound (jobStart s p) := h

theorem takeSnapshot_sound {p} (h : Sound s) : Sound (takeSnapshot s p).1 := h.withEng

theorem stepClose_sound {p step} (h : Sound s) : Sound (stepClose s p step) :=
  ite_sound (ctlErr_sound h) (setJob_sound (setF_sound (takeSnapshot_sound h)))

theorem execStepClose_sound {ag p step} (h : Sound s) : OutcomeSound (execStepClose ag p step s) :=
  outcomeSound_next.2 (guarded_sound (fun _ ht => stepClose_sound ht) h)

theorem stepRaise_sound {p step} (h : Sound s) : Sound (stepRaise s p step) :=
  ite_sound (ctlErr_sound h) (raisePennant_sound h)

theorem execStepRaise_sound {ag p step} (h : Sound s) : OutcomeSound (execStepRaise ag p step s) :=
  outcomeSound_next.2 (guarded_sound (fun _ ht => stepRaise_sound ht) h)

theorem stepRejoin_sound {p step} (h : Sound s) : Sound (stepRejoin s p step) :=
  ite_sound (setJob_sound h) (ctlErr_sound h)

theorem execStepRejoin_sound {ag p step} (h : Sound s) : OutcomeSound (execStepRejoin ag p step s) :=
  outcomeSound_next.2 (guarded_sound (fun _ ht => stepRejoin_sound ht) h)

theorem execSnapshotMerge_sound {p} (h : Sound s) : OutcomeSound (execSnapshotMerge p s) := by
  unfold execSnapshotMerge
  refine outcomeSound_next.2 ?_
  dsimp only
  split
  · exact h
  · exact setJob_sound (ite_sound h.withFreeCtr (hubPut_sound h.withFreeCtr))

theorem jobGroup_sound {p gid} (h : Sound s) : Sound (jobGroup s p gid).1 := by
  unfold jobGroup
  split
  · next hr => exact askHub_sound ((readGroup_sound h).of_fst hr)
  · exact (readGroup_sound h)

theorem voteGroup_sound {p} (h : Sound s) : Sound (voteGroup s p).1 := by
  unfold voteGroup
  split
  · next hr => exact (jobGroup_sound h).of_fst hr
  · next hr => exact (jobGroup_sound h).of_fst hr

theorem halySend_sound {p q opcode data} (h : Sound s) : Sound (halySend s p q opcode data) := by
  unfold halySend
  dsimp only
  split
  · exact h
  · exact sendFrame_sound h

theorem voidStep_sound {p step} (h : Sound s) : Sound (voidStep s p step) := by
  unfold voidStep
  dsimp only
  refine foldl_sound (fun _ _ ht => ?_) h
  refine foldl_sound (fun _ _ ht₁ => ?_) ht
  split
  · exact endTask_sound (dropHub_sound (dropRun_sound
        (foldl_sound (fun _ _ hv => scrambleBob_sound hv) (scrambleOut_sound ht₁))))
  · exact endCmd_sound (dropHub_sound (dropRun_sound
        (foldl_sound (fun _ _ hv => scrambleBob_sound hv) (scrambleOut_sound ht₁))))

theorem countOutcome_sound {p code} (h : Sound s) : Sound (countOutcome s p code) := by
  unfold countOutcome
  split
  · exact bump_sound (evrCount_sound h)
  · exact bump_sound (evrCount_sound h)
  · exact bump_sound (evrCount_sound h)
  · exact bump_sound (evrCount_sound h)
  · exact h

theorem applyOutcome_sound {p code} (h : Sound s) : Sound (applyOutcome s p code) := by
  unfold applyOutcome
  extract_lets j st loc
  split
  next s₀ g hg =>
  have hs₀ : Sound s₀ := (voteGroup_sound h).of_fst hg
  extract_lets kids miss s₁ s₂ s₃ s₄ s₅ s₆ s₇ j' s₈ s₉
  have hs₄ : Sound s₄ := countOutcome_sound (setF_sound (setF_sound (hubPut_sound (setMiss_sound hs₀))))
  have hs₅ : Sound s₅ := ite_sound (evrEvent_sound hs₄) hs₄
  have hs₆ : Sound s₆ := by
    unfold s₆
    split
    · exact ite_sound (evrLatency_sound hs₅) hs₅
    · exact hs₅
  have hs₈ : Sound s₈ := setJob_sound (ite_sound (voidStep_sound hs₆) hs₆)
  exact ite_sound hs₈.withFab (foldl_sound (fun _ _ ht => halySend_sound ht) hs₈.withFab)

theorem halyProgress_sound {p} (h : Sound s) : Sound (halyProgress s p) := by
  unfold halyProgress
  dsimp only
  split
  · next hr => exact (voteGroup_sound h).of_fst hr
  next hr =>
  have hr := (voteGroup_sound h).of_fst hr
  exact ite_sound (ite_sound (applyOutcome_sound (ite_sound (setJob_sound hr) hr)) (ite_sound (setJob_sound hr) hr))
      (ite_sound (halySend_sound (setJob_sound hr)) hr)

theorem halyVote_sound {p} (h : Sound s) : Sound (halyVote s p) := by
  unfold halyVote
  dsimp only
  split
  · exact h
  · exact ite_sound h (halyProgress_sound
        (setJob_sound (foldl_sound (fun _ _ ht => ite_sound (evrCount_sound ht) ht)
        (setF_sound (ite_sound (hubTouch_sound h) h)))))

theorem execHalyardVote_sound {p} (h : Sound s) : OutcomeSound (execHalyardVote p s) :=
  outcomeSound_next.2 (halyVote_sound h)

theorem halyFrame_sound {f opcode} (h : Sound s) : Sound (halyFrame s f opcode).1 := by
  unfold halyFrame
  refine ite_fst_sound h ?_
  split
  · next hr => exact (takeIn_sound h).of_fst hr
  next hr =>
  have hr := (takeIn_sound h).of_fst hr
  split
  · next hr₁ => exact (admitConn_sound hr).of_fst hr₁
  next hr₁ =>
  have hr₁ := (admitConn_sound hr).of_fst hr₁
  refine ite_fst_sound ?_ (ite_fst_sound hr₁ hr₁.withFab)
  dsimp only
  exact sendNack_sound hr₁

theorem staleVote_sound {p} (h : Sound s) : Sound (staleVote s p) := h

theorem execHalyardUp_sound {f} (h : Sound s) : OutcomeSound (execHalyardUp f s) := by
  unfold execHalyardUp
  refine outcomeSound_next.2 ?_
  dsimp only
  split
  · next hr => exact (halyFrame_sound h).of_fst hr
  next hr =>
  have hr := (halyFrame_sound h).of_fst hr
  refine ite_sound (staleVote_sound hr) ?_
  split
  · next hr₁ => exact (voteGroup_sound hr).of_fst hr₁
  next hr₁ =>
  have hr₁ := (voteGroup_sound hr).of_fst hr₁
  split
  · exact hr₁
  · exact halyProgress_sound (setJob_sound hr₁)

theorem execHalyardDown_sound {f} (h : Sound s) : OutcomeSound (execHalyardDown f s) := by
  unfold execHalyardDown
  refine outcomeSound_next.2 ?_
  dsimp only
  split
  · next hr => exact (halyFrame_sound h).of_fst hr
  next hr =>
  have hr := (halyFrame_sound h).of_fst hr
  exact ite_sound (staleVote_sound hr) (ite_sound hr (applyOutcome_sound hr))

theorem execHalyardTimeout_sound {p} (h : Sound s) : OutcomeSound (execHalyardTimeout p s) := by
  unfold execHalyardTimeout
  refine outcomeSound_next.2 ?_
  dsimp only
  split
  · exact h
  · next hv => exact (voteGroup_sound h).of_fst hv
  · next hv =>
    have hv := (voteGroup_sound h).of_fst hv
    exact ite_sound (applyOutcome_sound hv) hv

theorem execDivergedTimeout_sound {p} (h : Sound s) : OutcomeSound (execDivergedTimeout p s) := by
  unfold execDivergedTimeout
  refine outcomeSound_next.2 ?_
  dsimp only
  split
  · exact ite_sound (applyOutcome_sound h) h
  · exact h

theorem execOptArm_sound {ag p view} (h : Sound s) : OutcomeSound (execOptArm ag p view s) :=
  outcomeSound_next.2 (guarded_sound (fun _ ht => ite_sound
      (setF_sound (foldl_sound (fun _ _ hu => (setR_sound hu).withPend) (setB_sound ht)))
      (setF_sound (setB_sound ht))) h)

/-! ### The optimiser -/

theorem optReach_sound {p l acc} (h : Sound s) : Sound (optReach s p l acc).1 := by
  induction l generalizing s acc with
  | nil =>
    unfold optReach
    dsimp only
    exact h
  | cons x l ih =>
    unfold optReach
    dsimp only
    split
    · next hr => exact ih ((xlate_sound h).of_fst hr)
    · next hr => exact putPeerFault_sound ((xlate_sound h).of_fst hr)
    · next hr =>
        have hr := (xlate_sound h).of_fst hr
        exact ite_fst_sound hr (addConsult_sound hr)
    · next hr => exact (xlate_sound h).of_fst hr

theorem gatherHank_sound {p parts} (h : Sound s) : Sound (gatherHank s p parts) := by
  unfold gatherHank
  dsimp only
  split
  · next hr => exact setJob_sound (((readGroup_sound h).of_fst hr).withFab)
  · next hr => exact setJob_sound (((readGroup_sound h).of_fst hr).withFab)
  next hr =>
  have hr := (readGroup_sound h).of_fst hr
  refine setJob_sound ?_
  refine foldl_sound (fun _ _ ht => ?_) hr.withFab
  split
  · exact ht
  · exact foldl_sound (fun _ _ hu => sendMsg_sound hu) ht

theorem gatherReady_sound {p} (h : Sound s) : Sound (gatherReady s p).1 := by
  unfold gatherReady
  split
  · next hr => exact (jobGroup_sound h).of_fst hr
  · next hr => exact (jobGroup_sound h).of_fst hr

theorem liveWrite_sound {ps bs} (h : Sound s) : Sound (liveWrite s ps bs) :=
  foldl_fst_sound (fun _ _ ht => foldl_sound (fun _ _ hu => ite_sound hu (piecesWrite_sound hu)) ht) h

theorem emitHank_sound {p d k masters codes scales} (h : Sound s) : Sound (emitHank s p d k masters codes scales) :=
  gatherHank_sound (bump_sound (liveWrite_sound (liveWrite_sound (ite_sound h h.withFreeCtr))))

theorem momWrite_sound {p sqrt rnd tensor step hankId n keep val codes scales} (h : Sound s) : Sound
    (momWrite s p sqrt rnd tensor step hankId n keep val codes scales) :=
  foldl_sound (fun _ _ ht => ite_sound ht (bump_sound (bump_sound (Tgt.put_sound (Tgt.put_sound ht))))) h

theorem ledgerPut_sound {p id step t flags} (h : Sound s) : Sound (ledgerPut s p id step t flags) :=
  ite_sound (hubPut_sound h) h

theorem loseState_sound {p} (h : Sound s) : Sound (loseState s p) := h

theorem hankCompute_sound {p d k step ps} (h : Sound s) : Sound (hankCompute s p d k step ps).1 :=
  bump_sound (momWrite_sound (momWrite_sound (foldl_sound (fun _ _ ht => ite_sound ht (Tgt.put_sound ht)) h)))

theorem hankDo_sound {p u d ps} (h : Sound s) : Sound (hankDo s p u d ps) := by
  unfold hankDo
  extract_lets k s₁
  have hread : Sound s₁ := foldl_sound (fun _ _ ht => piecesTouch_sound ht) h
  split
  next r gradBad stateBad hc =>
  have hc : Sound r := Sound.of_fst (ite_fst_sound hread (hankCompute_sound hread)) hc
  exact setJob_sound (emitHank_sound (ledgerPut_sound (ite_sound (loseState_sound hc) hc)))

theorem settleSeg_sound {s0 : State} {p x} (h : Sound s) : Sound (settleSeg s0 p s x) :=
  ite_sound (hubPut_sound (hubPut_sound h)) (hubPut_sound h)

theorem finishUpdate_sound {p u} (h : Sound s) : Sound (finishUpdate s p u) :=
  setJob_sound (hubPut_sound (advance_sound (foldl_sound (fun _ _ ht => settleSeg_sound ht) h)))

theorem reachSeg_sound {p k} (h : Sound s) : Sound (reachSeg s p k) := by
  induction k generalizing s with
  | zero =>
    unfold reachSeg
    exact h
  | succ k ih =>
    unfold reachSeg
    dsimp only
    split
    · exact h
    · exact ite_sound (finishUpdate_sound h) (ite_sound h (ite_sound (ih (setJob_sound (loseState_sound h))) h))

theorem ckptWait_sound {p wait} (h : Sound s) : Sound (ckptWait s p wait) := by
  unfold ckptWait
  dsimp only
  split
  · exact setJob_sound h
  · exact h
  · exact bump_sound (setJob_sound h)
  · exact h

theorem execHankUpdate_sound {p} (h : Sound s) : OutcomeSound (execHankUpdate p s) := by
  have hreach : ∀ t p spans acc, Sound t → Sound (optReach t p spans acc).1 := fun _ _ _ _ ht => optReach_sound ht
  unfold execHankUpdate
  generalize optReach = reach at hreach ⊢
  as_aux_lemma =>
  rw [outcomeSound_next]
  extract_lets s₁
  have hseg : Sound s₁ := reachSeg_sound h
  split
  · exact hseg
  extract_lets d s₂
  have hwait : Sound s₂ := hubTouch_sound (ckptWait_sound hseg)
  refine ite_sound (ckptWait_sound hseg) ?_
  split
  · next hg => exact (gatherReady_sound hwait).of_fst hg
  next hg =>
  have hg := (gatherReady_sound hwait).of_fst hg
  split
  · next hr => exact (hreach _ _ _ _ hg).of_fst hr
  · next hr => exact reachSeg_sound (setJob_sound (loseState_sound ((hreach _ _ _ _ hg).of_fst hr)))
  · next hr => exact reachSeg_sound (hankDo_sound ((hreach _ _ _ _ hg).of_fst hr))

theorem execHoist_sound {p} (h : Sound s) : OutcomeSound (execHoist p s) := by
  unfold execHoist
  refine outcomeSound_next.2 ?_
  dsimp only
  split
  · exact ite_sound h (ite_sound (reachSeg_sound (setJob_sound (setB_sound h))) (setJob_sound (setB_sound h)))
  · exact h

theorem execHanksDone_sound {p} (h : Sound s) : OutcomeSound (execHanksDone p s) := by
  unfold execHanksDone
  refine outcomeSound_next.2 ?_
  dsimp only
  split
  · exact ite_sound h (hubPut_sound (hubTouch_sound (setJob_sound h)))
  · exact h

/-! ### Checkpoints -/

theorem flashPut_sound {p lpn x} (h : Sound s) : Sound (flashPut s p lpn x) :=
  foldl_sound (fun _ _ ht => programPage_sound ht) (foldl_sound (fun _ _ ht => mpaPoison_sound ht) (rawWrite_sound h))

theorem ckptFail_sound {p} (h : Sound s) : Sound (ckptFail s p) := h

theorem execCheckpointStart_sound {p} (h : Sound s) : OutcomeSound (execCheckpointStart p s) := by
  unfold execCheckpointStart
  refine outcomeSound_next.2 ?_
  dsimp only
  split
  · exact ite_sound h (ite_sound (setF_sound (setJob_sound h))
        (setJob_sound (setF_sound (setB_sound (flashPut_sound
        (flashPut_sound (hubTouch_sound (hubTouch_sound (unmapPage_sound (rawZero_sound h))))))))))
  · exact h

theorem ckptHankPut_sound {p c id ls} (h : Sound s) : Sound (ckptHankPut s p c id ls) :=
  ite_sound (hubPut_sound (foldl_sound (fun _ _ ht => programPage_sound ht)
      (foldl_sound (fun _ _ ht => foldl_sound (fun _ _ hu => mpaPoison_sound hu) (rawWrite_sound ht))
      (rawZero_sound (foldl_sound (fun _ _ ht => piecesTouch_sound ht) (hubTouch_sound h))))))
      (foldl_sound (fun _ _ ht => programPage_sound ht)
      (foldl_sound (fun _ _ ht => foldl_sound (fun _ _ hu => mpaPoison_sound hu) (rawWrite_sound ht))
      (rawZero_sound (foldl_sound (fun _ _ ht => piecesTouch_sound ht) (hubTouch_sound h)))))

theorem execCheckpointHank_sound {p} (h : Sound s) : OutcomeSound (execCheckpointHank p s) := by
  have hreach : ∀ t p spans acc, Sound t → Sound (optReach t p spans acc).1 := fun _ _ _ _ ht => optReach_sound ht
  unfold execCheckpointHank
  generalize optReach = reach at hreach ⊢
  as_aux_lemma =>
  rw [outcomeSound_next]
  extract_lets j
  split
  · exact h
  split
  · exact h
  extract_lets e d
  refine ite_sound h ?_
  split
  · next hr => exact (hreach _ _ _ _ h).of_fst hr
  · next hr => exact ckptFail_sound ((hreach _ _ _ _ h).of_fst hr)
  · next hr => exact setJob_sound (ckptHankPut_sound ((hreach _ _ _ _ h).of_fst hr))

theorem execCheckpointHeader_sound {p} (h : Sound s) : OutcomeSound (execCheckpointHeader p s) := by
  unfold execCheckpointHeader
  refine outcomeSound_next.2 ?_
  dsimp only
  split
  · exact h
  · exact ite_sound h (setJob_sound (setF_sound (setF_sound (flashPut_sound h))))

theorem execCkptNext_sound {ag p} (h : Sound s) : OutcomeSound (execCkptNext ag p s) :=
  outcomeSound_next.2 (guarded_sound (fun _ ht => setB_sound ht) h)

theorem ckptRestore_sound {p b} (h : Sound s) : Sound (ckptRestore s p b) :=
  ite_sound (setF_sound h) (setF_sound (setJob_sound h))

theorem execCkptRestore_sound {ag p b} (h : Sound s) : OutcomeSound (execCkptRestore ag p b s) :=
  outcomeSound_next.2 (guarded_sound (fun _ ht => ckptRestore_sound ht) h)

theorem restoreReach_sound {p l} (h : Sound s) : Sound (restoreReach s p l).1 := by
  have hreach : ∀ t p spans acc, Sound t → Sound (optReach t p spans acc).1 := fun _ _ _ _ ht => optReach_sound ht
  delta restoreReach restoreReach._f
  generalize optReach = reach at hreach ⊢
  as_aux_lemma =>
  induction l generalizing s with
  | nil => exact h
  | cons x l ih =>
    have hx := hreach s p (restoreSpans (segRead s p x.1) x.2.1) [] h
    change Sound (Prod.fst (match reach s p (restoreSpans (segRead s p x.1) x.2.1) [] with
    | (s, .ok _) => _
    | r => r))
    split
    · next hr => exact ih (hx.of_fst hr)
    · exact hx

theorem restoreHanks_sound {p b segs st t' l n} (h : Sound s) : Sound (restoreHanks s p b segs st t' l n).1 := by
  have hreach : ∀ t p spans acc, Sound t → Sound (optReach t p spans acc).1 := fun _ _ _ _ ht => optReach_sound ht
  delta restoreHanks restoreHanks._f
  generalize optReach = reach at hreach ⊢
  as_aux_lemma =>
  induction l generalizing s n with
  | nil => exact h
  | cons x l ih =>
    change Sound (Prod.fst (match reach s p (restoreSpans (segRead s p x.1) x.2.1) [] with
    | (s, .ok ls) => _
    | (s, _) => _))
    have hx := hreach s p (restoreSpans (segRead s p x.1) x.2.1) [] h
    split
    · next r ls hr =>
      have hr : Sound r := hx.of_fst hr
      refine ih (emitHank_sound (ite_sound (hubPut_sound ?_) ?_))
      all_goals
        exact ledgerPut_sound (foldl_sound (fun t y ht => foldl_sound (fun _ _ hs => piecesDeliver_sound hs) (piecesWrite_sound ht)) hr)
    · next hr => exact hx.of_fst hr

theorem pageCopy_sound {a lpn n} (h : Sound s) : Sound (pageCopy s a lpn n) :=
  foldl_sound (fun _ _ ht => mpaPoison_sound ht) (hubLand_sound h)

theorem execRestoreDone_sound {p} (h : Sound s) : OutcomeSound (execRestoreDone p s) := by
  have hfail : ∀ t j, Sound t → Sound (setF (setF (setJob t p j) (rCkptStatus p) fCkptStatusState 0) (rCkptStatus p) fCkptStatusFailed 1) :=
    fun t j ht => setF_sound (setF_sound (setJob_sound ht))
  unfold execRestoreDone
  rw [outcomeSound_next]
  extract_lets j
  split
  · exact h
  extract_lets fail
  split
  · exact hfail _ _ h
  extract_lets st t segs
  refine ite_sound (hfail _ _ h) (ite_sound h ?_)
  split
  · next hg => exact (gatherReady_sound h).of_fst hg
  next hg =>
  extract_lets s₁ s₂
  have hcopy : Sound s₂ := pageCopy_sound (pageCopy_sound ((gatherReady_sound h).of_fst hg))
  split
  · next hr => exact (restoreReach_sound hcopy).of_fst hr
  · next hr => exact hfail _ _ ((restoreReach_sound hcopy).of_fst hr)
  next hr =>
  have hr := (restoreReach_sound hcopy).of_fst hr
  split
  · next hk => exact hfail _ _ ((restoreHanks_sound hr).of_fst hk)
  · next hk =>
    extract_lets s₃ s₄ s₅
    have hs₄ : Sound s₄ := setF_sound (setF_sound (setF_sound ((restoreHanks_sound hr).of_fst hk)))
    exact setJob_sound (hs₄.congr rfl rfl)

/-! ### Migration -/

theorem execMigReqPromote_sound {ag g astag} (h : Sound s) : OutcomeSound (execMigReqPromote ag g astag s) :=
  outcomeSound_next.2 (guarded_sound (fun _ ht => ite_sound ht (queuePromotion_sound ht)) h)

theorem execMigReqDemote_sound {ag g} (h : Sound s) : OutcomeSound (execMigReqDemote ag g s) :=
  outcomeSound_next.2 (guarded_sound (fun _ ht => ite_sound ht (queueMig_sound ht)) h)

theorem passCharges_sound {before : State} (h : Sound s) : Sound (passCharges before s) := h

theorem commitAcct_sound {i} (h : Sound s) : Sound (commitAcct s i) := h

theorem execPoolArm_sound {ag view} (h : Sound s) : OutcomeSound (execPoolArm ag view s) := by
  unfold execPoolArm
  refine outcomeSound_next.2 ?_
  dsimp only
  refine guarded_sound (fun _ ht => ?_) h
  split
  · exact setF_sound (setF_sound (setB_sound ht))
  · exact setF_sound (setF_sound (passCharges_sound
        (foldl_sound (fun _ _ ht => commitAcct_sound ht) (setB_sound ht))))

theorem copyGranule_sound {src dst} (h : Sound s) : Sound (copyGranule s src dst) :=
  bump_sound ⟨cellsCopy_wf _ _ _ _ h.1, foldl_lineInsert_rising (filter_rising h.2)⟩

theorem startPromotion_sound {m f} (h : Sound s) : Sound (startPromotion s m f) := h

theorem promoteFrom_sound {kept l} (h : Sound s) : Sound (promoteFrom s kept l) := by
  induction l generalizing s kept with
  | nil =>
    unfold promoteFrom
    dsimp only
    exact h.withHub
  | cons x l ih =>
    unfold promoteFrom
    dsimp only
    refine ite_sound (ih h) ?_
    refine ite_sound (ih h) ?_
    refine ite_sound (ih (ite_sound h (bump_sound h))) ?_
    refine ite_sound (ih h) ?_
    split
    · exact startPromotion_sound h.withHub
    · exact ih h
    · exact ih (bump_sound h)

theorem execPromotionStart_sound (h : Sound s) : OutcomeSound (execPromotionStart s) :=
  outcomeSound_next.2 (ite_sound h (promoteFrom_sound h))

theorem finishPromotion_sound {g} (h : Sound s) : Sound (finishPromotion s g) :=
  ite_sound (retryGranule_sound (bump_sound (evrLatency_sound (setGran_sound h)))) h

theorem afterFlushes_sound (h : Sound s) : Sound (afterFlushes s) :=
  foldl_sound (fun _ _ ht => finishPromotion_sound ht) h

theorem execPromotionDone_sound {g} (h : Sound s) : OutcomeSound (execPromotionDone g s) :=
  outcomeSound_next.2 (ite_sound h (afterFlushes_sound (flushGranule_sound (setGran_sound (copyGranule_sound h)))))

theorem dropDemote_sound {g} (h : Sound s) : Sound (dropDemote s g) := by
  unfold dropDemote
  dsimp only
  split
  · exact h.withHub
  · exact h

theorem execDemotionStart_sound {g} (h : Sound s) : OutcomeSound (execDemotionStart g s) :=
  outcomeSound_next.2 (ite_sound (bump_sound (ite_sound (dropDemote_sound h) h))
      (ite_sound (ite_sound (dropDemote_sound h) h)
      (ite_sound h (ite_sound (afterFlushes_sound
      (flushGranule_sound (setGran_sound (ite_sound (dropDemote_sound h) h)))) h))))

theorem execDemotionCopy_sound {g} (h : Sound s) : OutcomeSound (execDemotionCopy g s) :=
  outcomeSound_next.2 (ite_sound (setGran_sound (afterFlushes_sound (pumpFlushes_sound h)))
      (afterFlushes_sound (pumpFlushes_sound h)))

theorem passFrame_sound {g f} (h : Sound s) : Sound (passFrame s g f) := by
  unfold passFrame
  dsimp only
  split
  · exact h
  · exact ite_sound h.withHub (startPromotion_sound h.withHub)

theorem execDemotionDone_sound {g} (h : Sound s) : OutcomeSound (execDemotionDone g s) :=
  outcomeSound_next.2 (ite_sound h (retryGranule_sound
      (passFrame_sound (bump_sound (evrLatency_sound (setGran_sound (copyGranule_sound h)))))))

theorem execAgeTick_sound (h : Sound s) : OutcomeSound (execAgeTick s) := outcomeSound_next.2 h.withHub

theorem timedOut_sound {r} (h : Sound s) : Sound (timedOut s r).1 := by
  unfold timedOut
  dsimp only
  refine ite_fst_sound (mpaPoison_sound h) ?_
  split
  · exact corePoison_sound h
  · exact corePoison_sound h
  · exact h
  · exact h

theorem execTierTimeout_sound {id} (h : Sound s) : OutcomeSound (execTierTimeout id s) := by
  unfold execTierTimeout
  refine outcomeSound_next.2 ?_
  dsimp only
  split
  · split
    · exact h
    · exact ite_sound h (logError_sound h.withHub)
  · exact ite_sound h (answerId_sound (timedOut_sound (logError_sound h.withHub)))

/-! ### The units that work on bobbins -/

theorem bumpGen_sound {u} (h : Sound s) : Sound (bumpGen s u) := by
  unfold bumpGen
  dsimp only
  split
  · exact advance_sound h
  · exact h.withPow

theorem dirUpdate_sound {d} (h : Sound s) : Sound (dirUpdate s d) := h

theorem dropAgent_sound {bit how} (h : Sound s) : Sound (dropAgent s bit how) := by
  unfold dropAgent
  dsimp only
  refine Sound.withHub ?_
  refine foldl_sound (fun _ _ ht => ?_) h
  refine ite_sound ht ?_
  refine ite_sound ?_ ?_
  · refine dirDrop_sound ?_
    refine ite_sound ht ?_
    split
    · split
      · exact writeBack_sound ht
      · exact ht
    · exact poisonLine_sound ht
    · exact scramble_sound ht
  · refine dirUpdate_sound ?_
    refine ite_sound ht ?_
    split
    · split
      · exact writeBack_sound ht
      · exact ht
    · exact poisonLine_sound ht
    · exact scramble_sound ht

theorem holdCore_sound {c} (h : Sound s) : Sound (holdCore s c) := foldl_sound (fun _ _ ht => setR_sound ht) h

theorem stopCore_sound {c how} (h : Sound s) : Sound (stopCore s c how) :=
  (holdCore_sound (dropAgent_sound h)).withPow

theorem dropHubEngine_sound {e} (h : Sound s) : Sound (dropHubEngine s e) := h

theorem dropEngRecords_sound {e} (h : Sound s) : Sound (dropEngRecords s e) := h

theorem resetWindows_sound {e} (h : Sound s) : Sound (resetWindows s e) := h

theorem emptyBob_sound {e b} (h : Sound s) : Sound (emptyBob s e b) := h

theorem idleCore_sound {e k} (h : Sound s) : Sound (idleCore s e k) := ite_sound h (setF_sound (setF_sound h))

theorem dropEngine_sound {e force} (h : Sound s) : Sound (dropEngine s e force) :=
  scramble_sound (foldl_sound (fun _ _ ht => idleCore_sound ht)
      (foldl_sound (fun _ _ ht => setF_sound (setTaskState_sound ht))
      (foldl_sound (fun _ _ ht => emptyBob_sound ht)
      (foldl_sound (fun _ _ ht => setF_sound ht)
      ((resetWindows_sound (dropEngRecords_sound
      (dropHubEngine_sound (foldl_sound (fun _ _ ht => dropAgent_sound ht) h)))).withPend)))))

theorem completeEnded_sound {u} (h : Sound s) : Sound (completeEnded s u) :=
  foldl_sound (fun _ _ ht => completeCmd_sound ht) h

theorem drainEngine_sound {e} (h : Sound s) : Sound (drainEngine s e) :=
  foldl_sound (fun _ _ ht => completeEnded_sound ht) h

theorem clearContexts_sound {e} (h : Sound s) : Sound (clearContexts s e) :=
  foldl_sound (fun _ _ ht => ite_sound (ctxCfgWrite_sound ht) ht) h

theorem finishEngReset_sound {e force} (h : Sound s) : Sound (finishEngReset s e force) :=
  bumpGen_sound (setF_sound (dropEngine_sound h))

theorem engineReset_sound {e force} (h : Sound s) : Sound (engineReset s e force) :=
  ite_sound (finishEngReset_sound h) (ite_sound (finishEngReset_sound (drainEngine_sound (clearContexts_sound h)))
      (setEngAux_sound (drainEngine_sound (clearContexts_sound h))))

theorem raiseLost_sound {e} (h : Sound s) : Sound (raiseLost s e) :=
  foldl_sound (fun _ _ ht => raisePennant_sound ht) h

theorem logRemoved_sound {i owners} (h : Sound s) : Sound (logRemoved s i owners) :=
  foldl_sound (fun _ _ ht => errPut_sound ht) (logError_sound h)

theorem removeDie_sound {d} (h : Sound s) : Sound (removeDie s d) := by
  unfold removeDie
  refine ite_sound h ?_
  extract_lets owners s₁ _ s₂ _ _ s₃
  have hs₁ : Sound s₁ := ite_sound (foldl_sound (fun _ _ ht => dropEngine_sound (raiseLost_sound ht)) h)
    (ite_sound (foldl_sound (fun _ _ ht => stopCore_sound ht) h) h)
  have hs₂ : Sound s₂ := hs₁.withD2d
  have hs₃ : Sound s₃ := ite_sound (hs₂.congr rfl rfl) hs₂
  exact logRemoved_sound hs₃

theorem rejoinDie_sound {d} (h : Sound s) : Sound (rejoinDie s d) := by
  unfold rejoinDie
  refine ite_sound h ?_
  extract_lets _ s₁ out _ _ s₂ s₃
  have hs₂ : Sound s₂ := h.congr rfl rfl
  have hs₃ : Sound s₃ := ite_sound (foldl_sound (fun _ _ ht => finishEngReset_sound ht) hs₂)
    (ite_sound (foldl_sound (fun _ _ ht => bumpGen_sound ht) hs₂) hs₂)
  exact bumpGen_sound hs₃

/-! ### The Plalia links -/

theorem plaBad_sound {l m} (h : Sound s) : Sound (plaBad s l m) :=
  ite_sound (bump_sound h) (plaReply_sound (bump_sound h))

theorem parityRecord_sound {l m} (h : Sound s) : Sound (parityRecord s l m) := ite_sound h (logError_sound h)

theorem plaMessage_sound {l m chan rsp op data f} (hf : ∀ t m, Sound t → Sound (f t m)) (h : Sound s) : Sound
    (plaMessage s l m chan rsp op data f) :=
  ite_sound (ite_sound (plaReply_sound h) h)
      (pumpFlits_sound (ite_sound (ite_sound (parityRecord_sound (takeCredits_sound h))
      (plaReply_sound (parityRecord_sound (takeCredits_sound h))))
      (ite_sound (hf _ _ (parityRecord_sound (takeCredits_sound h)))
      (plaBad_sound (parityRecord_sound (takeCredits_sound h))))))

theorem guestRefuse_sound {m} (h : Sound s) : Sound (guestRefuse s m) := plaReply_sound ((bump_sound h).withD2d)

theorem plaServe_sound {l m c r} (h : Sound s) : Sound (plaServe s l m c r) := by
  unfold plaServe
  dsimp only
  refine ite_sound (guestRefuse_sound h) ?_
  refine ite_sound (plaReply_sound h) ?_
  split
  · exact setEngAux_sound h
  split
  · next hr => exact ((serve_sound h).of_fst hr).withD2d
  · next hr => exact settleWaits_sound (plaAnswer_sound ((serve_sound h).of_fst hr))

theorem execRd_sound {l m} (h : Sound s) : OutcomeSound (execRd l m s) :=
  outcomeSound_next.2 (plaMessage_sound (fun _ _ ht => plaServe_sound ht) h)

theorem wrServe_sound {l m} (h : Sound s) : Sound (wrServe s l m) := plaServe_sound h

theorem execWr_sound {l m} (h : Sound s) : OutcomeSound (execWr l m s) :=
  outcomeSound_next.2 (plaMessage_sound (fun _ _ ht => wrServe_sound ht) h)

theorem wrpServe_sound {l m} (h : Sound s) : Sound (wrpServe s l m) := plaServe_sound h

theorem execWrp_sound {l m} (h : Sound s) : OutcomeSound (execWrp l m s) :=
  outcomeSound_next.2 (ite_sound (plaMessage_sound (fun _ _ ht => ht) h)
      (plaMessage_sound (fun _ _ ht => wrpServe_sound ht) h))

theorem atomServe_sound {l m op} (h : Sound s) : Sound (atomServe s l m op) := plaServe_sound h

theorem execAtom_sound {l m} (h : Sound s) : OutcomeSound (execAtom l m s) := by
  unfold execAtom
  refine outcomeSound_next.2 ?_
  split
  · exact plaMessage_sound (fun _ _ ht => ht) h
  · exact plaMessage_sound (fun _ _ ht => atomServe_sound ht) h

theorem plaResponse_sound {l m} (h : Sound s) : Sound (plaResponse s l m) := by
  unfold plaResponse
  dsimp only
  split
  · exact h
  · exact ite_sound (putAccess_sound (setLink_sound h)) ((setLink_sound h).withD2d)

theorem execMemData_sound {l m} (h : Sound s) : OutcomeSound (execMemData l m s) :=
  outcomeSound_next.2 (plaMessage_sound (fun _ _ ht => plaResponse_sound ht) h)

theorem execMemAck_sound {l m} (h : Sound s) : OutcomeSound (execMemAck l m s) :=
  outcomeSound_next.2 (plaMessage_sound (fun _ _ ht => plaResponse_sound ht) h)

theorem execCohData_sound {l m} (h : Sound s) : OutcomeSound (execCohData l m s) :=
  outcomeSound_next.2 (plaMessage_sound (fun _ _ ht => plaResponse_sound ht) h)

theorem execCohAck_sound {l m} (h : Sound s) : OutcomeSound (execCohAck l m s) :=
  outcomeSound_next.2 (plaMessage_sound (fun _ _ ht => plaResponse_sound ht) h)

theorem execDbgData_sound {l m} (h : Sound s) : OutcomeSound (execDbgData l m s) :=
  outcomeSound_next.2 (plaMessage_sound (fun _ _ ht => plaResponse_sound ht) h)

theorem execMgtData_sound {l m} (h : Sound s) : OutcomeSound (execMgtData l m s) :=
  outcomeSound_next.2 (plaMessage_sound (fun _ _ ht => plaResponse_sound ht) h)

theorem execMgtAck_sound {l m} (h : Sound s) : OutcomeSound (execMgtAck l m s) :=
  outcomeSound_next.2 (plaMessage_sound (fun _ _ ht => plaResponse_sound ht) h)

theorem sendSnoop_sound {l line op} (h : Sound s) : Sound (sendSnoop s l line op) :=
  plaSend_sound (setLink_sound h.withHub)

theorem snoopsFor_sound {bit own line} (h : Sound s) : Sound (snoopsFor s bit own line) := by
  unfold snoopsFor
  dsimp only
  split
  · exact h
  · exact ite_sound (foldl_sound (fun _ _ ht => sendSnoop_sound ht) h)
        (ite_sound (foldl_sound (fun _ _ ht => sendSnoop_sound ht) h) h)

theorem cohRequest_sound {l m own c} (h : Sound s) : Sound (cohRequest s l m own c) := by
  unfold cohRequest
  dsimp only
  split
  · exact plaReply_sound h
  · exact ite_sound (plaReply_sound h) (plaServe_sound (foldl_sound (fun _ _ ht => snoopsFor_sound ht) h))

theorem execRdShared_sound {l m} (h : Sound s) : OutcomeSound (execRdShared l m s) :=
  outcomeSound_next.2 (plaMessage_sound (fun _ _ ht => cohRequest_sound ht) h)

theorem execRdOwn_sound {l m} (h : Sound s) : OutcomeSound (execRdOwn l m s) :=
  outcomeSound_next.2 (plaMessage_sound (fun _ _ ht => cohRequest_sound ht) h)

theorem applySnoop_sound {l m} (h : Sound s) : Sound (applySnoop s l m) := by
  unfold applySnoop
  dsimp only
  split
  · exact plaReply_sound h
  refine ite_sound (plaReply_sound h) ?_
  refine ite_sound ?_ ?_
  · refine plaReply_sound ?_
    refine ite_sound ?_ ?_
    · refine dirDrop_sound ?_
      refine Sound.withHub ?_
      refine bump_sound ?_
      split
      · exact writeBack_sound h
      · exact h
    · refine dirUpdate_sound ?_
      refine Sound.withHub ?_
      refine bump_sound ?_
      split
      · exact writeBack_sound h
      · exact h
  · refine ite_sound ?_ (plaReply_sound h)
    refine plaReply_sound ?_
    refine dirUpdate_sound ?_
    refine bump_sound ?_
    split
    · exact writeBack_sound h
    · exact h

theorem snoop_sound {l m} (h : Sound s) : Sound (snoop s l m) := by
  unfold snoop
  dsimp only
  split
  · exact ite_sound (dirUpdate_sound h) (applySnoop_sound h)
  · exact applySnoop_sound h

theorem execSnpInv_sound {l m} (h : Sound s) : OutcomeSound (execSnpInv l m s) :=
  outcomeSound_next.2 (plaMessage_sound (fun _ _ ht => snoop_sound ht) h)

theorem execSnpFwd_sound {l m} (h : Sound s) : OutcomeSound (execSnpFwd l m s) :=
  outcomeSound_next.2 (plaMessage_sound (fun _ _ ht => snoop_sound ht) h)

theorem holdWriteback_sound {l m d b} (h : Sound s) : Sound (holdWriteback s l m d b) := h

theorem writebackLine_sound {l m} (h : Sound s) : Sound (writebackLine s l m) := by
  unfold writebackLine
  dsimp only
  split
  · exact ite_sound (ite_sound (holdWriteback_sound (ite_sound (breachEvict_sound h) h))
        (plaReply_sound (ite_sound (dirDrop_sound
        (ite_sound (poisonLine_sound (rawWrite_sound (ite_sound (breachEvict_sound h) h)))
        (rawWrite_sound (ite_sound (breachEvict_sound h) h))))
        (dirUpdate_sound (ite_sound (poisonLine_sound (rawWrite_sound (ite_sound (breachEvict_sound h) h)))
        (rawWrite_sound (ite_sound (breachEvict_sound h) h))))))) (plaReply_sound (ite_sound (breachEvict_sound h) h))
  · exact plaReply_sound (ite_sound (breachEvict_sound h) h)

theorem execWb_sound {l m} (h : Sound s) : OutcomeSound (execWb l m s) :=
  outcomeSound_next.2 (plaMessage_sound (fun _ _ ht => settleWaits_sound (writebackLine_sound ht)) h)

theorem endHold_sound {d} (h : Sound s) : Sound (endHold s d) :=
  retryAll_sound (foldl_sound (fun _ _ ht => snoop_sound ht) (bump_sound (dirUpdate_sound h)))

theorem execOwnershipHoldExpiry_sound {line} (h : Sound s) : OutcomeSound (execOwnershipHoldExpiry line s) := by
  unfold execOwnershipHoldExpiry
  refine outcomeSound_next.2 ?_
  split
  · exact settleWaits_sound h
  split
  · exact settleWaits_sound h
  · exact ite_sound h (endHold_sound h)

theorem execMsi_sound {l m} (h : Sound s) : OutcomeSound (execMsi l m s) :=
  outcomeSound_next.2 (plaMessage_sound (fun _ _ ht => ite_sound ht (releaseMsis_sound (setLink_sound ht))) h)

theorem mgtRequest_sound {l m} (h : Sound s) : Sound (mgtRequest s l m) := plaReply_sound h.withD2d

theorem execDict_sound {l m} (h : Sound s) : OutcomeSound (execDict l m s) :=
  outcomeSound_next.2 (plaMessage_sound (fun _ _ ht => mgtRequest_sound ht) h)

theorem execResetReq_sound {l m} (h : Sound s) : OutcomeSound (execResetReq l m s) :=
  outcomeSound_next.2 (plaMessage_sound (fun _ _ ht => mgtRequest_sound ht) h)

theorem execTelemetry_sound {l m} (h : Sound s) : OutcomeSound (execTelemetry l m s) :=
  outcomeSound_next.2 (plaMessage_sound (fun _ _ ht => mgtRequest_sound ht) h)

theorem execDirBiasReq_sound {ag astag all toShared} (h : Sound s) : OutcomeSound
    (execDirBiasReq ag astag all toShared s) :=
  outcomeSound_next.2 (guarded_sound (fun _ ht => ite_sound (setF_sound ht) (setF_sound ht.withHub)) h)

theorem biasFlush_sound {b l} (h : Sound s) : Sound (biasFlush s b l) := ite_sound h h.withHub

theorem scanLine_sound {b line} (h : Sound s) : Sound (scanLine s b line) :=
  ite_sound (ite_sound (breachLine_sound (recallLine_sound (drawFree_sound h))) (recallLine_sound (drawFree_sound h)))
      (recallLine_sound h)

theorem execBiasChangeDone_sound (h : Sound s) : OutcomeSound (execBiasChangeDone s) := by
  unfold execBiasChangeDone
  refine outcomeSound_next.2 ?_
  dsimp only
  split
  · exact h
  · exact ite_sound h (ite_sound (afterFlushes_sound (pumpFlushes_sound (biasFlush_sound h)))
        (sendMsi_sound (advance_sound (setF_sound
        ((ite_sound (afterFlushes_sound (pumpFlushes_sound (biasFlush_sound h)))
        (foldl_sound (fun _ _ ht => scanLine_sound ht)
        (afterFlushes_sound (pumpFlushes_sound (biasFlush_sound h))))).withHub)))))

/-! ### Die-to-die links -/

theorem linkUp_sound {l} (h : Sound s) : Sound (linkUp s l) :=
  plaSend_sound (setLink_sound (setF_sound (setF_sound (setF_sound h))))

theorem execLinkActive_sound {l} (h : Sound s) : OutcomeSound (execLinkActive l s) :=
  outcomeSound_next.2 (ite_sound (linkUp_sound h) h)

theorem discovered_sound {l m} (h : Sound s) : Sound (discovered s l m) :=
  ite_sound (setLink_sound (setF_sound (plaSend_sound (setF_sound (setF_sound (setF_sound (setF_sound h)))))))
      (ite_sound (setObjNat_sound (setF_sound (setF_sound
      (setLink_sound (plaSend_sound (setF_sound (setF_sound (setF_sound (setF_sound h)))))))))
      (setLink_sound (plaSend_sound (setF_sound (setF_sound (setF_sound (setF_sound h)))))))

theorem execDiscover_sound {l m} (h : Sound s) : OutcomeSound (execDiscover l m s) :=
  outcomeSound_next.2 (plaMessage_sound (fun _ _ ht => ite_sound (discovered_sound ht) ht) h)

theorem linkRecord_sound {l} (h : Sound s) : Sound (linkRecord s l) := logError_sound h

theorem moveQueue_sound {d} (h : Sound s) : Sound (moveQueue s d) := pumpFlits_sound (setLink_sound (setLink_sound h))

theorem reroute_sound (h : Sound s) : Sound (reroute s) :=
  foldl_sound (fun _ _ ht => ite_sound ht
      (ite_sound (moveQueue_sound (linkRecord_sound (setF_sound ht))) (setF_sound ht))) h

theorem agreed_sound {l m} (h : Sound s) : Sound (agreed s l m) :=
  ite_sound (setLink_sound (setF_sound h))
      (reroute_sound (foldl_sound (fun _ _ ht => rejoinDie_sound ht) (setLink_sound (setF_sound (setF_sound h)))))

theorem execAgree_sound {l m} (h : Sound s) : OutcomeSound (execAgree l m s) :=
  outcomeSound_next.2 (plaMessage_sound (fun _ _ ht => ite_sound (agreed_sound ht) ht) h)

theorem failLink_sound {l} (h : Sound s) : Sound (failLink s l) :=
  reroute_sound (linkRecord_sound (setLink_sound (setF_sound (setF_sound h))))

theorem execDiscoveryTimeout_sound {l} (h : Sound s) : OutcomeSound (execDiscoveryTimeout l s) := by
  unfold execDiscoveryTimeout
  rw [outcomeSound_next]
  split
  · exact h
  · exact ite_sound h (ite_sound (reroute_sound h) (failLink_sound h))

theorem execModuleDown_sound {l mod} (h : Sound s) : OutcomeSound (execModuleDown l mod s) :=
  outcomeSound_next.2 (ite_sound h (addRepair_sound (setF_sound h)))

theorem repairLane_sound {l} (h : Sound s) : Sound (repairLane s l) :=
  addRepair_sound (drawFree_sound (drawFree_sound h))

theorem execLaneRepair_sound {l mod lanes} (h : Sound s) : OutcomeSound (execLaneRepair l mod lanes s) :=
  outcomeSound_next.2 (ite_sound h (foldl_sound (fun _ _ ht => repairLane_sound ht) (bump_sound h)))

theorem execLinkFailed_sound {l} (h : Sound s) : OutcomeSound (execLinkFailed l s) :=
  outcomeSound_next.2 (ite_sound (failLink_sound h) h)

theorem execLinkRetry_sound {l} (h : Sound s) : OutcomeSound (execLinkRetry l s) := by
  unfold execLinkRetry
  refine outcomeSound_next.2 ?_
  split
  · exact h
  · exact ite_sound h (linkUp_sound h)

theorem answerDead_sound (h : Sound s) : Sound (answerDead s) := retryStalled_sound h

theorem execDieRemoval_sound {d} (h : Sound s) : OutcomeSound (execDieRemoval d s) :=
  outcomeSound_next.2 (ite_sound (reroute_sound (answerDead_sound (removeDie_sound h))) h)

theorem execGuestRemoval_sound (h : Sound s) : OutcomeSound (execGuestRemoval s) :=
  outcomeSound_next.2 (ite_sound h (setObjNat_sound (setLink_sound (setF_sound (setF_sound (removeDie_sound h))))))

/-! ### The event recorder -/

theorem evrPut_sound {sec inst word v} (h : Sound s) : Sound (evrPut s sec inst word v) := h

theorem evrVolt_sound {mv} (h : Sound s) : Sound (evrVolt s mv) := by
  unfold evrVolt
  dsimp only
  split
  · refine ite_sound ?_ ?_
    · refine evrPut_sound ?_
      split
      · exact ite_sound (evrPut_sound (evrPut_sound h)) h
      · exact evrPut_sound (evrPut_sound h)
    · split
      · exact ite_sound (evrPut_sound (evrPut_sound h)) h
      · exact evrPut_sound (evrPut_sound h)
  refine evrPut_sound ?_
  split
  · exact ite_sound (evrPut_sound (evrPut_sound h)) h
  · exact evrPut_sound (evrPut_sound h)

theorem evrTemp_sound {inst c} (h : Sound s) : Sound (evrTemp s inst c) := by
  unfold evrTemp
  dsimp only
  split
  · refine ite_sound ?_ ?_
    · refine evrPut_sound ?_
      split
      · exact ite_sound (evrPut_sound (evrPut_sound h)) h
      · exact evrPut_sound (evrPut_sound h)
    · split
      · exact ite_sound (evrPut_sound (evrPut_sound h)) h
      · exact evrPut_sound (evrPut_sound h)
  refine evrPut_sound ?_
  split
  · exact ite_sound (evrPut_sound (evrPut_sound h)) h
  · exact evrPut_sound (evrPut_sound h)

theorem closeEpoch_sound {early} (h : Sound s) : Sound (closeEpoch s early) :=
  (ite_sound (bump_sound h.withFreeCtr) (ite_sound (setF_sound h.withFreeCtr)
      (setF_sound ((slcPages_sound h.withFreeCtr).withRel)))).withRel

theorem execEpochClose_sound (h : Sound s) : OutcomeSound (execEpochClose s) :=
  outcomeSound_next.2 (ite_sound h (closeEpoch_sound h))

theorem evrTake_sound (h : Sound s) : Sound (evrTake s).1 := ite_fst_sound h (setF_sound h)

theorem execEvrWindow_sound {ag acc} (h : Sound s) : OutcomeSound (execEvrWindow ag acc s) := by
  unfold execEvrWindow
  refine outcomeSound_next.2 ?_
  dsimp only
  refine ite_sound (putOut_sound (violation_sound h)) ?_
  split
  · exact putOut_sound (evrTake_sound h)
  · exact putOut_sound h
  · exact putOut_sound h
  · exact putAccess_sound h

theorem takeAction_sound {f x} (hx : takeAction s f = some (x, t)) (h : Sound s) : Sound t := by
  unfold takeAction at hx
  split at hx
  · cases hx
  · cases hx
    exact h.withSec

theorem execEvrClear_sound (h : Sound s) : OutcomeSound (execEvrClear s) := by
  unfold execEvrClear
  rw [outcomeSound_next]
  split
  · exact h
  · next t hx =>
    have ht := takeAction_sound hx h
    exact ite_sound ht (setR_sound (setR_sound (setR_sound (ht.congr rfl rfl))))

/-! ### Power -/

theorem inputSample_sound {mv} (h : Sound s) : Sound (inputSample s mv) := (evrVolt_sound (setF_sound h)).withPow

theorem execInputWarning_sound {mv} (h : Sound s) : OutcomeSound (execInputWarning mv s) :=
  outcomeSound_next.2 (ite_sound (inputSample_sound h)
      (setF_sound (ite_sound ((inputSample_sound h).withPow) (inputSample_sound h))))

theorem execWarningRecovery_sound {mv} (h : Sound s) : OutcomeSound (execWarningRecovery mv s) :=
  outcomeSound_next.2 (ite_sound (inputSample_sound h) (setF_sound ((evrCount_sound (inputSample_sound h)).withPow)))

theorem execPowerCapSample_sound {avgW sampleW} (h : Sound s) : OutcomeSound (execPowerCapSample avgW sampleW s) :=
  outcomeSound_next.2 (ite_sound (setF_sound ((setF_sound h).withPow))
      (ite_sound (setF_sound ((setF_sound h).withPow)) ((setF_sound h).withPow)))

theorem showThermal_sound (h : Sound s) : Sound (showThermal s) := h

theorem setDieMhz_sound {d v} (h : Sound s) : Sound (setDieMhz s d v) := h

theorem setScLimit_sound {n v} (h : Sound s) : Sound (setScLimit s n v) := h

theorem stepDie_sound {d x lim c} (h : Sound s) : Sound (stepDie s d x lim c) :=
  ite_sound (setDieMhz_sound h.withPow) (ite_sound (ite_sound h.withPow (setDieMhz_sound h.withPow)) h)

theorem throttleAt_sound {x hot} (h : Sound s) : Sound (throttleAt s x hot) := h

theorem stepServer_sound {n c} (h : Sound s) : Sound (stepServer s n c) :=
  ite_sound (ite_sound (setScLimit_sound (throttleAt_sound h)) ((throttleAt_sound h).withPow))
      (ite_sound (setScLimit_sound (throttleAt_sound h)) ((setScLimit_sound (throttleAt_sound h)).withPow))

theorem execThermalThrottle_sound {sensor tempC} (h : Sound s) : OutcomeSound (execThermalThrottle sensor tempC s) :=
    by
  unfold execThermalThrottle
  refine outcomeSound_next.2 ?_
  dsimp only
  split
  · exact showThermal_sound (stepDie_sound (evrTemp_sound h))
  · exact showThermal_sound (stepDie_sound ((evrTemp_sound h).withPow))
  · exact showThermal_sound (stepServer_sound (evrTemp_sound h))
  · exact showThermal_sound (throttleAt_sound ((evrTemp_sound h).withPow))
  · exact evrTemp_sound h

theorem execCoolantAlert_sound {inletC} (h : Sound s) : OutcomeSound (execCoolantAlert inletC s) :=
  outcomeSound_next.2 (showThermal_sound ((evrTemp_sound h).withPow))

theorem execArrayClkMhz_sound {e pa} (h : Sound s) : OutcomeSound (execArrayClkMhz e pa s) :=
  outcomeSound_next.2 (setArrAux_sound h)

theorem execScClkMhz_sound {core dieW dieC} (h : Sound s) : OutcomeSound (execScClkMhz core dieW dieC s) :=
  outcomeSound_next.2 (ite_sound ((drawFree_sound h).withPow) h.withPow)

theorem enterState_sound {e st} (h : Sound s) : Sound (enterState s e st) :=
  setF_sound (ite_sound (setEngAux_sound h)
      (ite_sound (dropEngine_sound h) (ite_sound ((dropEngine_sound h).withRegs) h)))

theorem execPowerStateEntry_sound {e} (h : Sound s) : OutcomeSound (execPowerStateEntry e s) :=
  outcomeSound_next.2 (ite_sound h (ite_sound (enterState_sound h)
      (ite_sound (enterState_sound (drainEngine_sound h)) (drainEngine_sound h))))

theorem execEngPwrReq_sound {ag e req} (h : Sound s) : OutcomeSound (execEngPwrReq ag e req s) :=
  outcomeSound_next.2 (guarded_sound (fun _ ht => ite_sound (setF_sound ht) (setEngAux_sound (setF_sound ht))) h)

theorem wakeEngine_sound {e} (h : Sound s) : Sound (wakeEngine s e) :=
  setEngAux_sound (ite_sound (bumpGen_sound (setF_sound h)) (setF_sound h))

/-! ### Measurement -/

theorem remeasure_sound {i} (h : Sound s) : Sound (remeasure s i) := h

/-! ### Resets and start-up -/

theorem resetGens_sound {before : State} {powerOn} (h : Sound s) : Sound (resetGens before s powerOn) :=
  ite_sound h ((foldl_sound (fun _ _ ht => setF_sound ht) h).withPow)

theorem loadDict_sound (h : Sound s) : Sound (loadDict s) :=
  ite_sound (foldl_sound (fun _ _ ht => setF_sound ht)
      (setF_sound (setF_sound (setF_sound (setF_sound (setF_sound h))))))
      (foldl_sound (fun _ _ ht => foldl_sound (fun _ _ hu => setArrAux_sound hu) ht)
      (foldl_sound (fun _ _ ht => setF_sound ht) (setF_sound (setF_sound (setF_sound (setF_sound (setF_sound h)))))))

theorem bootState_sound {b} (h : Sound s) : Sound (bootState s b) := by
  have hkept : Sound { ({} : State) with
      mem := s.mem.filter (fun c => inFlash c.1), poison := s.poison.filter (fun l => inFlash (64 * l)) } :=
    ⟨filter_wf _ _ h.1, filter_rising h.2⟩
  unfold bootState
  refine loadDict_sound (resetGens_sound (setF_sound (setF_sound (ite_sound (hkept.congr ?_ ?_) (foldl_sound (fun t p ht => setMiss_sound ht) (hkept.congr ?_ ?_))))))
  all_goals rfl

theorem loseRecent_sound (h : Sound s) : Sound (loseRecent s) :=
  foldl_sound (fun _ _ ht => ite_sound ht (ite_sound (drawFree_sound ht) (setObj_sound (drawFree_sound ht)))) h

theorem powerFail_sound {mode} (h : Sound s) : Sound (powerFail s mode) :=
  (bootState_sound ((flashCut_sound (loseRecent_sound h)).withRel)).withPow

theorem inputOff_sound {mv} (h : Sound s) : Sound (inputOff s mv) := setF_sound ((bootState_sound h).withPow)

theorem execPowerFail_sound {mv} (h : Sound s) : OutcomeSound (execPowerFail mv s) :=
  outcomeSound_next.2 (ite_sound (inputSample_sound h)
      (ite_sound (powerFail_sound (inputSample_sound h))
      (ite_sound (inputOff_sound (inputSample_sound h)) ((inputSample_sound h).withPow))))

theorem execOverVoltage_sound {mv} (h : Sound s) : OutcomeSound (execOverVoltage mv s) := by
  unfold execOverVoltage
  refine outcomeSound_next.2 ?_
  dsimp only
  refine ite_sound (inputSample_sound h) ?_
  split
  · exact (inputSample_sound h).withPow
  · exact ite_sound (inputSample_sound h) (powerFail_sound (inputSample_sound h))

theorem execThermalShutdown_sound {sensor tempC} (h : Sound s) : OutcomeSound (execThermalShutdown sensor tempC s) :=
  outcomeSound_next.2 (ite_sound (evrTemp_sound h) (powerFail_sound (evrTemp_sound h)))

theorem moduleReset_sound (h : Sound s) : Sound (moduleReset s) :=
  setObjNat_sound ((setF_sound (setB_sound
      (bootState_sound (flashCut_sound (ite_sound (closeEpoch_sound h) h.withRel))))).withPow)

theorem execModuleReset_sound (h : Sound s) : OutcomeSound (execModuleReset s) :=
  outcomeSound_next.2 (moduleReset_sound h)

theorem execModRstN_sound {low} (h : Sound s) : OutcomeSound (execModRstN low s) :=
  outcomeSound_next.2 (ite_sound h (ite_sound h.withPow (ite_sound (moduleReset_sound h.withPow.withPow) h.withPow)))

theorem execModRstNRisingEdge_sound (h : Sound s) : OutcomeSound (execModRstNRisingEdge s) :=
  outcomeSound_next.2 h.withPow

theorem execMappingRebuild_sound {cutLpns} (h : Sound s) : OutcomeSound (execMappingRebuild cutLpns s) :=
  outcomeSound_next.2 (ite_sound (rebuildMap_sound h) h)

theorem bootStep_sound (h : Sound s) : Sound (bootStep s) := by
  unfold bootStep
  dsimp only
  split
  · exact setObjNat_sound (h.congr rfl rfl)
  · exact foldl_sound (fun _ _ ht => remeasure_sound ht) (setF_sound (setF_sound (setB_sound h.withSec)))

theorem firmwareStep_sound (h : Sound s) : Sound (firmwareStep s) :=
  foldl_sound (fun _ _ ht => ite_sound ((drawFree_sound (setR_sound ht)).withPow) ht)
      (foldl_sound (fun _ _ ht => setEngAux_sound (foldl_sound (fun _ _ hu => ite_sound hu (setF_sound hu)) ht)) h)

theorem sampleStraps_sound {testSel idStrap} (h : Sound s) : Sound (sampleStraps s testSel idStrap) :=
  ite_sound h h.withPow

theorem stepEffect_sound {k testSel idStrap} (h : Sound s) : Sound (stepEffect s k testSel idStrap) := by
  unfold stepEffect
  dsimp only
  split
  · exact h.withPow
  · exact setObjNat_sound (setObjNat_sound (sampleStraps_sound h))
  · exact bootStep_sound h
  · exact ite_sound h (h.congr rfl rfl)
  · exact foldl_sound (fun _ _ ht => setF_sound ht) h
  · exact h.withDev
  · exact firmwareStep_sound h
  · exact h

theorem endStep_sound {k testSel idStrap} (h : Sound s) : Sound (endStep s k testSel idStrap) :=
  ite_sound (stepEffect_sound h) (setObjNat_sound ((stepEffect_sound h).withPow))

theorem fabricReady_sound (h : Sound s) : Sound (fabricReady s) :=
  ite_sound (setObjNat_sound (setObjNat_sound (h.congr rfl rfl))) h

theorem execFabricReady_sound (h : Sound s) : OutcomeSound (execFabricReady s) :=
  outcomeSound_next.2 (fabricReady_sound h)

theorem execStartUp_sound {ev} (h : Sound s) : OutcomeSound (execStartUp ev s) := by
  unfold execStartUp
  rw [outcomeSound_next]
  split
  · extract_lets s₁
    have hin : Sound s₁ := inputSample_sound h
    refine ite_sound hin (ite_sound hin.withPow ?_)
    split
    · exact hin.withPow
    · exact ite_sound hin (endStep_sound hin.withPow)
  · exact ite_sound (fabricReady_sound h) (ite_sound (endStep_sound h) h)
  · exact ite_sound h.withPow h

theorem execStartTimeout_sound (h : Sound s) : OutcomeSound (execStartTimeout s) :=
  outcomeSound_next.2 (ite_sound h (setObjNat_sound h))

theorem execHoldupReady_sound (h : Sound s) : OutcomeSound (execHoldupReady s) :=
  outcomeSound_next.2 (ite_sound (setF_sound h) h)

theorem execEngReset_sound {ag e force} (h : Sound s) : OutcomeSound (execEngReset ag e force s) :=
  outcomeSound_next.2 (guarded_sound (fun _ ht => engineReset_sound ht) h)

theorem finishDie_sound {d force} (h : Sound s) : Sound (finishDie s d force) := by
  refine bumpGen_sound (foldl_sound (fun t l ht => ite_sound (linkUp_sound ht) ht) (ite_sound ?_ (ite_sound ?_ ?_)))
  · exact foldl_sound (fun t e ht => finishEngReset_sound ht) (h.congr rfl rfl)
  · exact foldl_sound (fun t k ht => bumpGen_sound (stopCore_sound ht)) (h.congr rfl rfl)
  · exact h.congr rfl rfl

theorem dieReset_sound {d force} (h : Sound s) : Sound (dieReset s d force) :=
  ite_sound h (ite_sound (finishDie_sound h)
      (ite_sound (finishDie_sound (foldl_sound (fun _ _ ht => drainEngine_sound (clearContexts_sound ht)) h))
      ((foldl_sound (fun _ _ ht => drainEngine_sound (clearContexts_sound ht)) h).withPow)))

theorem execDieReset_sound {ag die force} (h : Sound s) : OutcomeSound (execDieReset ag die force s) :=
  outcomeSound_next.2 (guarded_sound (fun _ ht => ite_sound (dieReset_sound ht) ht) h)

theorem execDepartureTimeout_sound {unit} (h : Sound s) : OutcomeSound (execDepartureTimeout unit s) := by
  unfold execDepartureTimeout
  refine outcomeSound_next.2 ?_
  split
  · split
    · exact h
    · exact ite_sound (finishEngReset_sound h) (ite_sound h (finishEngReset_sound h))
  · split
    · exact h
    · exact ite_sound (finishDie_sound h) (ite_sound h (finishDie_sound h))
  · exact h

theorem holdBit_sound {p c hold} (h : Sound s) : Sound (holdBit s p c hold) :=
  ite_sound h (ite_sound (bumpGen_sound (stopCore_sound h)) ((setR_sound h).withPow))

theorem execCoreHold_sound {ag p w val} (h : Sound s) : OutcomeSound (execCoreHold ag p w val s) :=
  outcomeSound_next.2 (guarded_sound (fun _ ht => foldl_sound (fun _ _ hu => holdBit_sound hu) ht) h)

theorem spareRecord_sound {c spare owner} (h : Sound s) : Sound (spareRecord s c spare owner) := by
  unfold spareRecord
  dsimp only
  split
  · exact ite_sound (errPut_sound h) (errPut_sound (errPut_sound h))
  · exact errPut_sound h

theorem execServerCoreFault_sound {core} (h : Sound s) : OutcomeSound (execServerCoreFault core s) :=
  outcomeSound_next.2 (ite_sound h (ite_sound ((stopCore_sound (logRemoved_sound h)).withRel)
      (spareRecord_sound (addRepair_sound (bumpGen_sound
      (setObjNat_sound ((stopCore_sound (logRemoved_sound h)).withRel)))))))

theorem execSpindleCoreFault_sound {c} (h : Sound s) : OutcomeSound (execSpindleCoreFault c s) :=
  outcomeSound_next.2 (ite_sound h (logRemoved_sound
      (addRepair_sound (setEngAux_sound (setF_sound
      (setF_sound (dropAgent_sound (ite_sound (endTask_sound (setR_sound h)) h))))))))

/-! ### Translation rows -/

theorem setWalks_sound {c l} (h : Sound s) : Sound (setWalks s c l) := by
  unfold setWalks
  dsimp only
  split
  · exact setEngAux_sound h
  · exact h.withHub

theorem giveFault_sound {r cause replay} (h : Sound s) : Sound (giveFault s r cause replay) :=
  ite_sound (putPeerFault_sound h) (ite_sound (ite_sound (flushSpool_sound (recFault_sound h)) (fetchFault_sound h))
      (faultCmd_sound h))

theorem giveEntry_sound {r e} (h : Sound s) : Sound (giveEntry s r e) := by
  unfold giveEntry
  dsimp only
  split
  · exact giveFault_sound h
  · exact h

theorem resolveReq_sound {r} (h : Sound s) : Sound (resolveReq s r).1 := by
  unfold resolveReq
  split
  · next hr => exact giveEntry_sound (rcInstall_sound ((walk_sound h).of_fst hr))
  · next hr => exact giveFault_sound ((walk_sound h).of_fst hr)
  · next hr => exact addConsult_sound ((walk_sound h).of_fst hr)

theorem beginWalk_sound {r} (h : Sound s) : Sound (beginWalk s r) :=
  ite_sound (giveFault_sound h) (ite_sound (setWalks_sound h) (setWalks_sound h.withHub))

theorem execRangeCacheMiss_sound {r} (h : Sound s) : OutcomeSound (execRangeCacheMiss r s) := by
  unfold execRangeCacheMiss
  refine outcomeSound_next.2 ?_
  split
  · next hr => exact giveEntry_sound ((rcLookup_sound h).of_fst hr)
  · next hr => exact beginWalk_sound ((rcLookup_sound h).of_fst hr)

theorem joinResult_sound {r a1} (h : Sound s) : Sound (joinResult s r a1) := by
  unfold joinResult
  split
  · exact ite_sound (giveEntry_sound h) (beginWalk_sound h)
  · exact giveFault_sound h
  · exact addConsult_sound h

theorem execWalkComplete_sound {id} (h : Sound s) : OutcomeSound (execWalkComplete id s) := by
  unfold execWalkComplete
  refine outcomeSound_next.2 ?_
  dsimp only
  split
  · exact h
  · exact ite_sound h (ite_sound (setWalks_sound h)
        (foldl_sound (fun _ _ ht => joinResult_sound ht) (resolveReq_sound (setWalks_sound h))))

theorem dropConsult_sound {id} (h : Sound s) : Sound (dropConsult s id) := flushConsults_sound h.withHub

theorem releaseConsult_sound {c} (h : Sound s) : Sound (releaseConsult s c) := by
  unfold releaseConsult
  dsimp only
  refine ite_sound (answerAsked_sound h) ?_
  split
  · exact releaseCmd_sound h
  · exact ite_sound (flushSpool_sound h) h

theorem consultFault_sound {c cause replay} (h : Sound s) : Sound (consultFault s c cause replay) :=
  ite_sound (nackAsked_sound h) (giveFault_sound h)

theorem restartConsult_sound {c} (h : Sound s) : Sound (restartConsult s c) := by
  unfold restartConsult
  dsimp only
  split
  · next hr => exact releaseConsult_sound (rcInstall_sound ((walk_sound (dropConsult_sound h)).of_fst hr))
  · next hr => exact consultFault_sound ((walk_sound (dropConsult_sound h)).of_fst hr)
  next hr =>
  have hr := (walk_sound (dropConsult_sound h)).of_fst hr
  split
  · exact updCmd_sound (moveAsked_sound (addConsult_sound hr))
  · exact moveAsked_sound (addConsult_sound hr)

theorem installReply_sound {c} (h : Sound s) : Sound (installReply s c) :=
  ite_sound (releaseConsult_sound (rcInstall_sound
      (ite_sound (bump_sound (dropConsult_sound h)) (dropConsult_sound h))))
      (consultFault_sound (bump_sound (dropConsult_sound h)))

theorem execRhReplyInstall_sound {ag id} (h : Sound s) : OutcomeSound (execRhReplyInstall ag id s) := by
  unfold execRhReplyInstall
  refine outcomeSound_next.2 ?_
  refine guarded_sound (fun _ ht => ?_) h
  split
  · exact ht
  · exact ite_sound (restartConsult_sound ht) (installReply_sound ht)

theorem execRhReplyRefuse_sound {ag id} (h : Sound s) : OutcomeSound (execRhReplyRefuse ag id s) := by
  unfold execRhReplyRefuse
  refine outcomeSound_next.2 ?_
  refine guarded_sound (fun _ ht => ?_) h
  split
  · exact ht
  · exact ite_sound (restartConsult_sound ht) (consultFault_sound (dropConsult_sound ht))

theorem execConsultTimeout_sound {id} (h : Sound s) : OutcomeSound (execConsultTimeout id s) := by
  unfold execConsultTimeout
  refine outcomeSound_next.2 ?_
  split
  · exact h
  · exact ite_sound h (ite_sound (restartConsult_sound h) (consultFault_sound (dropConsult_sound h)))

theorem execRhConsultPtrConsumer_sound {ag val} (h : Sound s) : OutcomeSound (execRhConsultPtrConsumer ag val s) :=
  outcomeSound_next.2 (guarded_sound (fun _ ht => flushConsults_sound (setF_sound ht)) h)

theorem execFlushTag_sound {ag astag all drain} (h : Sound s) : OutcomeSound (execFlushTag ag astag all drain s) :=
  outcomeSound_next.2 (guarded_sound (fun _ ht => ite_sound (setF_sound ht)
      (afterFlushes_sound (pumpFlushes_sound ht.withHub))) h)

theorem execFlushTagDone_sound (h : Sound s) : OutcomeSound (execFlushTagDone s) := by
  unfold execFlushTagDone
  refine outcomeSound_next.2 ?_
  dsimp only
  split
  · exact h
  · exact ite_sound h (afterFlushes_sound (pumpFlushes_sound (flushDone_sound h.withHub)))

/-! ### Register reads and writes -/

theorem nextOf_sound {o} (ho : OutcomeSound o) (h : Sound s) : Sound (nextOf o s) := by
  unfold nextOf
  split
  · exact ho _ rfl
  · exact h

theorem timeRead_sound {ag acc} (h : Sound s) : Sound (timeRead s ag acc).1 := by
  unfold timeRead
  dsimp only
  split
  · exact h.withMgmt
  · split
    · exact h.withMgmt
    · exact h
  · exact h

theorem readFree_sound {k} (h : Sound s) : Sound (readFree s k) := ite_sound h.withFreeCtr h

theorem readReg_sound {ag k acc} (h : Sound s) : Sound (readReg s ag k acc).1 := by
  unfold readReg
  dsimp only
  refine ite_fst_sound (timeRead_sound h) ?_
  refine ite_fst_sound ?_ ?_
  · split
    · exact lockRead_sound h
    · exact lockRead_sound h
    · exact h
  · refine ite_fst_sound (ite_fst_sound (evrTake_sound h) h) ?_
    split
    · exact h
    · exact readFree_sound (ite_sound h (setR_sound h))

theorem writePlain_sound {k d acc val} (h : Sound s) : Sound (writePlain s k d acc val) := h

theorem writeMember_sound {k d acc val} (h : Sound s) : Sound (writeMember s k d acc val) := h

theorem writeStatSel_sound {ag e win k d v} (h : Sound s) : Sound (writeStatSel s ag e win k d v) :=
  ite_sound (writePlain_sound h) (ite_sound (nextOf_sound (execStatSelClear_sound h) h)
      (nextOf_sound (execStatSelSnap_sound h) h))

theorem writeCtxCfg_sound {ag e n v} (h : Sound s) : Sound (writeCtxCfg s ag e n v) :=
  ite_sound (nextOf_sound (execCtxCfgValidClear_sound h) h) (nextOf_sound (execCtxCfgValidSet_sound h) h)

theorem writeEngP_sound {ag k d acc val} (h : Sound s) : Sound (writeEngP s ag k d acc val) := by
  unfold writeEngP
  extract_lets e v w n seq
  refine ite_sound (nextOf_sound (execAbftInject_sound h) h) (ite_sound (writeStatSel_sound h)
    (ite_sound (ite_sound (nextOf_sound (execStatClearAll_sound h) h) h) (ite_sound (ite_sound (setR_sound h) (setF_sound h))
    (ite_sound (writeCtxCfg_sound h) (ite_sound (ite_sound (nextOf_sound (execBobArm_sound h) h) (writePlain_sound h))
    (ite_sound (writeMember_sound h) (ite_sound (ite_sound h (nextOf_sound (execFrPtrConsumer_sound h) h)) (ite_sound ?_
    (ite_sound (ite_sound h (nextOf_sound (execEngPwrReq_sound h) h)) (ite_sound (ite_sound (nextOf_sound (execEngReset_sound h) h) h)
    (writePlain_sound h)))))))))))
  split
  · exact nextOf_sound (execFrResumeRetry_sound h) h
  · exact nextOf_sound (execFrResumeKill_sound h) h
  · exact h

theorem writeBobMark_sound {ag e n v} (h : Sound s) : Sound (writeBobMark s ag e n v) := by
  unfold writeBobMark
  dsimp only
  split
  · exact nextOf_sound (execBobMarkFill_sound h) h
  · exact nextOf_sound (execBobMarkReady_sound h) h
  · exact nextOf_sound (execBobMarkConsumed_sound h) h
  · exact nextOf_sound (execBobMarkRelease_sound h) h
  · exact h

theorem writeSpCfg_sound {ag u v} (h : Sound s) : Sound (writeSpCfg s ag u v) :=
  ite_sound (nextOf_sound (execSpCfgDisable_sound h) h)
      (ite_sound (nextOf_sound (execResume_sound h) h) (nextOf_sound (execSpCfgEnable_sound h) h))

theorem writeEngC_sound {ag k d acc val} (h : Sound s) : Sound (writeEngC s ag k d acc val) := by
  unfold writeEngC
  dsimp only
  refine ite_sound ?_ (ite_sound (writeBobMark_sound h)
      (ite_sound (nextOf_sound (execCtxCancel_sound h) h) (ite_sound (writeStatSel_sound h) (writePlain_sound h))))
  split
  · exact ite_sound h (writePlain_sound h)
  · exact ite_sound h (writePlain_sound h)
  · exact writeSpCfg_sound h
  · exact ite_sound h (nextOf_sound (execSqTail_sound h) h)
  · exact ite_sound h (nextOf_sound (execCqHead_sound h) h)
  · exact writePlain_sound h

theorem writeRh_sound {ag k d acc val} (h : Sound s) : Sound (writeRh s ag k d acc val) := by
  grind [writeRh, !. nextOf_sound, !. execMigReqPromote_sound, !. execMigReqDemote_sound, !. execPoolArm_sound,
      !. writePlain_sound, !. writeMember_sound, !. execFlushTag_sound, !. execRhConsultPtrConsumer_sound,
      !. setR_sound, !. execRhReplyInstall_sound, !. execRhReplyRefuse_sound, !. execFrPtrConsumer_sound,
      !. promoteHot_sound]

theorem writeJob_sound {ag k d acc val} (h : Sound s) : Sound (writeJob s ag k d acc val) := by
  unfold writeJob
  dsimp only
  refine ite_sound ?_ (ite_sound (ite_sound (nextOf_sound (execOptArm_sound h) h) (writePlain_sound h))
      (ite_sound (writeMember_sound h) (ite_sound
      (ite_sound (setF_sound h) (ite_sound (jobStart_sound (writePlain_sound h)) (writePlain_sound h)))
      (ite_sound (ite_sound h (writePlain_sound h))
      (ite_sound (ite_sound (nextOf_sound (execCkptRestore_sound
      (ite_sound (nextOf_sound (execCkptNext_sound h) h) h)) (ite_sound (nextOf_sound (execCkptNext_sound h) h) h))
      (ite_sound (nextOf_sound (execCkptNext_sound h) h) h)) (writePlain_sound h))))))
  split
  · exact h
  · exact nextOf_sound (execStepClose_sound h) h
  · exact nextOf_sound (execStepRaise_sound h) h
  · exact nextOf_sound (execStepRejoin_sound h) h
  · exact ctlErr_sound h

theorem writeStkRepair_sound {ag die v} (h : Sound s) : Sound (writeStkRepair s ag die v) := by
  unfold writeStkRepair
  dsimp only
  split
  · exact nextOf_sound (execStkRepairConnection_sound h) h
  · exact nextOf_sound (execStkRepairRow_sound h) h
  · exact nextOf_sound (execStkRepairColumn_sound h) h
  · exact h

theorem writeFlReq_sound {ag v} (h : Sound s) : Sound (writeFlReq s ag v) := by
  unfold writeFlReq
  dsimp only
  split
  · exact nextOf_sound (execFlReqWrite_sound h) h
  · exact nextOf_sound (execFlReqTrim_sound h) h
  · exact h

theorem writeConnCtl_sound {ag v} (h : Sound s) : Sound (writeConnCtl s ag v) := by
  unfold writeConnCtl
  dsimp only
  split
  · exact nextOf_sound (execConnInit_sound h) h
  · exact nextOf_sound (execConnClose_sound h) h
  · exact h

theorem mbxWrite_sound {p v} (h : Sound s) : Sound (mbxWrite s p v) :=
  ite_sound (setF_sound h) (ite_sound (setF_sound (setF_sound (ite_sound (setF_sound h) h)))
      (hubPut_sound (setF_sound (setF_sound (ite_sound (setF_sound h) h)))))

theorem execAuqMbxEnable_sound {ag p val} (h : Sound s) : OutcomeSound (execAuqMbxEnable ag p val s) :=
  outcomeSound_next.2 (guarded_sound (fun _ ht => mbxWrite_sound ht) h)

theorem writeReg_sound {ag k d acc val} (h : Sound s) : Sound (writeReg s ag k d acc val) := by
  unfold writeReg
  dsimp only
  refine ite_sound (bump_sound h) ?_
  split
  · exact writeEngP_sound h
  · exact writeEngC_sound h
  · exact writeRh_sound h
  · exact writeJob_sound h
  · exact ite_sound (writeStkRepair_sound h) (writePlain_sound h)
  · exact ite_sound (writeFlReq_sound h) (writePlain_sound h)
  · exact ite_sound (ite_sound (nextOf_sound (execDirBiasReq_sound h) h) h) (writePlain_sound h)
  · exact ite_sound (writeConnCtl_sound h) (writePlain_sound h)
  · exact ite_sound (ite_sound (nextOf_sound (execDieReset_sound h) h) h) (writePlain_sound h)
  · exact ite_sound (nextOf_sound (execCoreHold_sound h) h) (ite_sound (mbxWrite_sound h) (writePlain_sound h))
  · exact writePlain_sound h

theorem imsicWrite_sound {c f off acc val} (h : Sound s) : Sound (imsicWrite s c f off acc val) := by
  unfold imsicWrite
  refine ite_sound h ?_
  split
  · exact imsicSet_sound h
  · exact imsicSet_sound h
  · exact h

theorem mmioWrite_sound {ag off acc val} (h : Sound s) : Sound (mmioWrite s ag off acc val).1 := by
  unfold mmioWrite
  split
  · exact h
  · exact h
  · exact ite_fst_sound h (imsicWrite_sound h)
  refine ite_fst_sound h ?_
  refine ite_fst_sound (violation_sound h) ?_
  split
  · exact h
  · exact writeReg_sound h

theorem mmioRead_sound {ag off acc peek} (h : Sound s) : Sound (mmioRead s ag off acc peek).1 := by
  unfold mmioRead
  dsimp only
  split
  · exact h
  · exact h
  · exact ite_fst_sound h h
  · exact ite_fst_sound h (ite_fst_sound (violation_sound h) (ite_fst_sound h (readReg_sound h)))

theorem guestAccess_sound {ag off data len} (h : Sound s) : Sound (guestAccess s ag off data len) := by
  unfold guestAccess
  dsimp only
  split
  · exact plaSend_sound (setLink_sound h.withHub)
  · exact putAccess_sound h

theorem accessMmio_sound {r} (h : Sound s) : Sound (accessMmio s r) := by
  unfold accessMmio
  extract_lets off n acc ok
  clear_value off acc n
  as_aux_lemma =>
  split
  · exact putAccess_sound (countStale_sound h)
  split
  · exact ite_sound (putAccess_sound h) (guestAccess_sound h)
  · exact ite_sound (putAccess_sound h) (guestAccess_sound h)
  · exact ite_sound (putAccess_sound h) (guestAccess_sound h)
  · split
    next hw => exact putAccess_sound ((mmioWrite_sound h).of_fst hw)
  · split
    next hr => exact putAccess_sound ((mmioRead_sound h).of_fst hr)
  · split
    next hr => exact putAccess_sound ((mmioRead_sound h).of_fst hr)
  · split
    next hr => exact putAccess_sound ((mmioRead_sound h).of_fst hr)
  · exact putAccess_sound h

theorem accessAt_sound {r} (h : Sound s) : Sound (accessAt s r) := ite_sound (accessMmio_sound h) (accessMem_sound h)

theorem accessPieces_sound {r l o} (h : Sound s) : Sound (accessPieces s r l o) := by
  induction l generalizing s o with
  | nil =>
    unfold accessPieces
    exact h
  | cons x l ih =>
    unfold accessPieces
    dsimp only
    exact ih (accessAt_sound h)

theorem execMemoryAccess_sound {r} (h : Sound s) : OutcomeSound (execMemoryAccess r s) := by
  unfold execMemoryAccess
  refine outcomeSound_next.2 ?_
  dsimp only
  split
  · split
    · refine ite_sound (accessAt_sound h) ?_
      split
      · next hr => exact accessPieces_sound ((hartReach_sound h).of_fst hr)
      · next hr => exact (hartReach_sound h).of_fst hr
    · exact h
  · exact accessAt_sound h

theorem execRegisterWrite_sound {ag off acc val} (h : Sound s) : OutcomeSound (execRegisterWrite ag off acc val s) :=
    by
  unfold execRegisterWrite
  refine outcomeSound_next.2 ?_
  dsimp only
  refine ite_sound (putAccess_sound h) ?_
  split
  · split
    · exact guestAccess_sound h
    · exact guestAccess_sound h
    · exact guestAccess_sound h
    · exact putAccess_sound h
  · exact ite_sound (mmioWrite_sound h) (putAccess_sound (mmioWrite_sound h))

/-! ### Debug -/

theorem haltEffects_sound {bit} (h : Sound s) : Sound (haltEffects s bit) :=
  foldl_sound (fun _ _ ht => endHold_sound ht) h.withHub

theorem haltOne_sound {dm x} (h : Sound s) : Sound (haltOne s dm x) := by
  unfold haltOne
  dsimp only
  split
  · exact h
  refine ite_sound h ?_
  split
  · exact haltEffects_sound h.withMgmt
  · exact setF_sound (ite_sound (setTask_sound (haltEffects_sound h.withMgmt)) (haltEffects_sound h.withMgmt))

theorem haltHart_sound {dm x} (h : Sound s) : Sound (haltHart s dm x) :=
  foldl_sound (fun _ _ ht => haltOne_sound ht) h

theorem resumeHart_sound {dm x} (h : Sound s) : Sound (resumeHart s dm x) := by
  unfold resumeHart
  dsimp only
  split
  · exact h
  refine ite_sound h ?_
  split
  · split
    · exact h.congr rfl rfl
    · exact h.withMgmt
  split
  · exact setF_sound (setF_sound (setTask_sound h.withMgmt))
  · exact setF_sound h.withMgmt

theorem resetHart_sound {dm x} (h : Sound s) : Sound (resetHart s dm x) := by
  unfold resetHart
  dsimp only
  split
  · exact ite_sound h ((bumpGen_sound (dropAgent_sound h)).congr rfl rfl)
  · exact h

theorem hartRead_sound {dm x x' r} (h : Sound s) : Sound (hartRead s dm x x' r).1 := by
  unfold hartRead
  dsimp only
  split
  · refine ite_fst_sound h ?_
    refine ite_fst_sound h ?_
    split
    · exact h
    · exact (drawFree_sound h).withMgmt
  split
  · exact h
  split
  · exact h
  · exact (drawFree_sound h).withMgmt

theorem hartWrite_sound {dm x x' r v} (h : Sound s) : Sound (hartWrite s dm x x' r v) := by
  unfold hartWrite
  dsimp only
  split
  · exact ite_sound h h.withMgmt
  split
  · exact putHart_sound h
  · exact h.withMgmt

theorem runProgbuf_sound {dm x x'} (h : Sound s) : Sound (runProgbuf s dm x x') := by
  unfold runProgbuf
  dsimp only
  split
  · exact h.withMgmt
  · exact putHart_sound (h.congr rfl rfl)

theorem setDmReg_sound {dm a v} (h : Sound s) : Sound (setDmReg s dm a v) := h

theorem setCmdErr_sound {dm e} (h : Sound s) : Sound (setCmdErr s dm e) := h

theorem busRead_sound {dm a len peek} (h : Sound s) : Sound (busRead s dm a len peek).1 := by
  unfold busRead
  refine ite_fst_sound ?_ ?_
  · split
    next hm => exact (mmioRead_sound h).of_fst hm
  · split
    · next hs => exact (serve_sound h).of_fst hs
    · exact h
    · next hs => exact (serve_sound h).of_fst hs

theorem busWrite_sound {dm a b} (h : Sound s) : Sound (busWrite s dm a b).1 := by
  unfold busWrite
  refine ite_fst_sound (mmioWrite_sound h) ?_
  split
  · next hr => exact (serve_sound h).of_fst hr
  · exact h
  · next hr => exact (serve_sound h).of_fst hr

theorem sbError_sound {dm e} (h : Sound s) : Sound (sbError s dm e) := h

theorem sbAdvance_sound {dm} (h : Sound s) : Sound (sbAdvance s dm) := ite_sound (setDmReg_sound (setDmReg_sound h)) h

theorem sbRead_sound {dm} (h : Sound s) : Sound (sbRead s dm) := by
  unfold sbRead
  refine ite_sound h ?_
  split
  · exact sbError_sound h
  split
  · next hr => exact sbAdvance_sound (setDmReg_sound (setDmReg_sound ((busRead_sound h).of_fst hr)))
  · next hr => exact sbError_sound ((busRead_sound h).of_fst hr)

theorem sbWrite_sound {dm} (h : Sound s) : Sound (sbWrite s dm) := by
  unfold sbWrite
  dsimp only
  refine ite_sound h ?_
  split
  · exact sbError_sound h
  split
  · next hr => exact sbAdvance_sound ((busWrite_sound h).of_fst hr)
  · next hr => exact sbError_sound ((busWrite_sound h).of_fst hr)

theorem setArg_sound {dm v wide} (h : Sound s) : Sound (setArg s dm v wide) :=
  ite_sound (setDmReg_sound (setDmReg_sound h)) (setDmReg_sound h)

theorem abstractCommand_sound {dm v} (h : Sound s) : Sound (abstractCommand s dm v) := by
  unfold abstractCommand
  dsimp only
  refine ite_sound h ?_
  refine ite_sound (setCmdErr_sound h) ?_
  split
  · exact setCmdErr_sound h
  · exact ite_sound (setCmdErr_sound h) (ite_sound
        (runProgbuf_sound (ite_sound h (ite_sound (hartWrite_sound (hartRead_sound h))
        (setArg_sound (hartRead_sound h))))) (ite_sound h
        (ite_sound (hartWrite_sound (hartRead_sound h)) (setArg_sound (hartRead_sound h)))))

theorem writeControl_sound {dm v} (h : Sound s) : Sound (writeControl s dm v) :=
  ite_sound h.withMgmt (ite_sound (haltHart_sound
      (ite_sound (resetHart_sound (ite_sound ((setDmReg_sound h).withMgmt) (setDmReg_sound h)))
      (ite_sound ((setDmReg_sound h).withMgmt) (setDmReg_sound h))))
      (ite_sound (resumeHart_sound ((ite_sound
      (resetHart_sound (ite_sound ((setDmReg_sound h).withMgmt) (setDmReg_sound h)))
      (ite_sound ((setDmReg_sound h).withMgmt) (setDmReg_sound h))).withMgmt))
      (ite_sound (resetHart_sound (ite_sound ((setDmReg_sound h).withMgmt) (setDmReg_sound h)))
      (ite_sound ((setDmReg_sound h).withMgmt) (setDmReg_sound h)))))

theorem dmWrite_sound {dm a v} (h : Sound s) : Sound (dmWrite s dm a v) :=
  ite_sound (writeControl_sound h) (ite_sound h
      (ite_sound (setCmdErr_sound h) (ite_sound (abstractCommand_sound h)
      (ite_sound (ite_sound h.withMgmt h) (ite_sound (setDmReg_sound h)
      (ite_sound (ite_sound (sbRead_sound (setDmReg_sound h)) (setDmReg_sound h))
      (ite_sound (sbWrite_sound (setDmReg_sound h)) (ite_sound (setDmReg_sound h) h))))))))

theorem dmRead_sound {dm a} (h : Sound s) : Sound (dmRead s dm a).1 := ite_sound (sbRead_sound h) h

theorem dmiAccess_sound {dm a op data} (h : Sound s) : Sound (dmiAccess s dm a op data).1 :=
  ite_fst_sound h (ite_fst_sound (dmRead_sound h) (ite_fst_sound (dmWrite_sound h) h))

theorem dmiMessage_sound {l m op} (h : Sound s) : Sound (dmiMessage s l m op) := by
  unfold dmiMessage
  dsimp only
  split
  · exact ite_sound (setLink_sound (plaSend_sound h)) (plaReply_sound h)
  · exact plaReply_sound (dmiAccess_sound h)

theorem execDmiRd_sound {l m} (h : Sound s) : OutcomeSound (execDmiRd l m s) :=
  outcomeSound_next.2 (plaMessage_sound (fun _ _ ht => dmiMessage_sound ht) h)

theorem execDmiWr_sound {l m} (h : Sound s) : OutcomeSound (execDmiWr l m s) :=
  outcomeSound_next.2 (plaMessage_sound (fun _ _ ht => dmiMessage_sound ht) h)

theorem dmiObject_sound {v} (h : Sound s) : Sound (dmiObject s v) :=
  setObjNat_sound (ite_fst_sound (dmiAccess_sound h) h)

theorem execDbgDmiReq_sound {req} (h : Sound s) : OutcomeSound (execDbgDmiReq req s) :=
  outcomeSound_next.2 (dmiObject_sound h)

theorem dbgPeek_sound (h : Sound s) : Sound (dbgPeek s) := by
  unfold dbgPeek
  split
  · exact setObjNat_sound (setObj_sound h)
  · exact setObjNat_sound (setObjNat_sound h)

theorem execDbgPeek_sound (h : Sound s) : OutcomeSound (execDbgPeek s) := outcomeSound_next.2 (dbgPeek_sound h)

theorem tapRun_sound {tdo} (h : Sound s) : Sound (tapRun s tdo) := by
  unfold tapRun
  dsimp only
  split
  · exact setObjNat_sound h.withMgmt
  · exact setObjNat_sound h

theorem execTapSeq_sound {tdo} (h : Sound s) : OutcomeSound (execTapSeq tdo s) := outcomeSound_next.2 (tapRun_sound h)

/-! ### Security -/

theorem setStage_sound {k v} (h : Sound s) : Sound (setStage s k v) := h

theorem setStageSet_sound {k x} (h : Sound s) : Sound (setStageSet s k x) := h

theorem discardSet_sound {k v} (h : Sound s) : Sound (discardSet s k v) := h

theorem stageOpen_sound {ses k} (h : Sound s) : Sound (stageOpen s ses k).1 := by
  unfold stageOpen
  split
  · exact h
  · exact ite_fst_sound (setStage_sound (setObj_sound (setStageSet_sound h))) h

theorem stageSeal_sound {ses k} (h : Sound s) : Sound (stageSeal s ses k).1 := by
  unfold stageSeal
  dsimp only
  split
  · exact h
  · exact ite_fst_sound h (setStage_sound (setObj_sound (setStageSet_sound h)))

theorem stageAbort_sound {ses k} (h : Sound s) : Sound (stageAbort s ses k).1 := by
  unfold stageAbort
  split
  · exact h
  · exact ite_fst_sound h (discardSet_sound h)

theorem stageWrite_sound {ses t} (h : Sound s) : Sound (stageWrite s ses t).1 := by
  unfold stageWrite
  dsimp only
  split
  · exact h
  split
  · exact h
  · exact ite_fst_sound h (setStageSet_sound h)

theorem applyItem_sound {x} (h : Sound s) : Sound (applyItem s x) := by
  unfold applyItem
  dsimp only
  refine ite_sound (ite_sound (setObjNat_sound h.withSec) h.withSec) ?_
  refine ite_sound ?_ (setObj_sound h)
  split
  · exact (setObj_sound h).withSec
  · exact (setObj_sound h).withSec

theorem applyItems_sound {l} (h : Sound s) : Sound (applyItems s l) :=
  remeasure_sound (remeasure_sound (foldl_sound (fun _ _ ht => applyItem_sound ht) h))

theorem startSet_sound {k l digest} (h : Sound s) : Sound (startSet s k l digest) :=
  ite_sound (afterFlushes_sound (pumpFlushes_sound
      ((ite_sound (setStage_sound h.withSec.withSec) h.withSec.withSec).withHub)))
      (ite_sound (setStage_sound (applyItems_sound h.withSec)) (applyItems_sound h.withSec))

theorem stageConfirm_sound {ses k} (h : Sound s) : Sound (stageConfirm s ses k).1 := by
  unfold stageConfirm
  dsimp only
  split
  · exact h
  · exact ite_fst_sound h (ite_fst_sound (discardSet_sound h)
        (ite_fst_sound h (ite_fst_sound h (ite_fst_sound (setStage_sound h) (startSet_sound h)))))

theorem execStageOpen_sound {ses set} (h : Sound s) : OutcomeSound (execStageOpen ses set s) :=
  outcomeSound_next.2 (stageOpen_sound h)

theorem execStageSeal_sound {ses set} (h : Sound s) : OutcomeSound (execStageSeal ses set s) :=
  outcomeSound_next.2 (stageSeal_sound h)

theorem execStageConfirm_sound {ses set} (h : Sound s) : OutcomeSound (execStageConfirm ses set s) :=
  outcomeSound_next.2 (stageConfirm_sound h)

theorem execStageAbort_sound {ses set} (h : Sound s) : OutcomeSound (execStageAbort ses set s) :=
  outcomeSound_next.2 (stageAbort_sound h)

theorem execStageWindowExpiry_sound {set} (h : Sound s) : OutcomeSound (execStageWindowExpiry set s) :=
  outcomeSound_next.2 (ite_sound (discardSet_sound h) h)

theorem evictGranule_sound {g} (h : Sound s) : Sound (evictGranule s g) :=
  ite_sound h (retryGranule_sound (setGran_sound (flushGranule_sound (ite_sound h (copyGranule_sound h)))))

theorem shrinkPools_sound (h : Sound s) : Sound (shrinkPools s t) := by
  unfold shrinkPools
  dsimp only
  refine foldl_sound (fun _ _ ht => ?_) (foldl_sound (fun _ _ ht => evictGranule_sound ht) h)
  refine foldl_sound (fun _ _ ht₁ => ?_) ht
  split
  · exact evictGranule_sound ht₁
  · exact ht₁

theorem trimSpan_sound {x} (h : Sound s) : Sound (trimSpan s x) := foldl_sound (fun _ _ ht => unmapPage_sound ht) h

theorem scrubSpan_sound {x} (h : Sound s) : Sound (scrubSpan s x) :=
  (trimSpan_sound (rawZero_sound (foldl_sound (fun _ _ ht => setGran_sound (rawZero_sound ht)) h))).withHub

theorem switchLayout_sound {l k} (h : Sound s) : Sound (switchLayout s l k) := by
  unfold switchLayout
  extract_lets t s₁ sec s₂ s₃
  have hspans : Sound s₁ := foldl_sound (fun _ _ hr => scrubSpan_sound hr) (shrinkPools_sound h)
  have hitems : Sound s₂ := applyItems_sound hspans.withSec
  have hgen : ∀ r p, Sound r → Sound (if shareChanged s t p then advance r (rSecPart p) fSecPartPartGen 1 else r) :=
    fun _ _ hr => ite_sound (advance_sound hr) hr
  have hparts : Sound s₃ := foldl_sound (fun r p hr => ite_sound (hgen r p hr).withSec (hgen r p hr)) hitems
  exact ite_sound (setStage_sound hparts) hparts

theorem execLayoutApply_sound (h : Sound s) : OutcomeSound (execLayoutApply s) := by
  unfold execLayoutApply
  refine outcomeSound_next.2 ?_
  split
  · exact h
  · exact ite_sound h (switchLayout_sound h)

theorem execFwImage_sound (h : Sound s) : OutcomeSound (execFwImage s) := by
  unfold execFwImage
  rw [outcomeSound_next]
  split
  · exact h
  · next t hx => exact (takeAction_sound hx h).congr rfl rfl

theorem execSvnCommit_sound (h : Sound s) : OutcomeSound (execSvnCommit s) := by
  unfold execSvnCommit
  rw [outcomeSound_next]
  split
  · exact h
  · next t hx =>
    have ht := takeAction_sound hx h
    exact ite_sound ht (ht.congr rfl rfl)

theorem endSessions_sound {f} (h : Sound s) : Sound (endSessions s f) := h

theorem measureClass_sound {c} (h : Sound s) : Sound (measureClass s c) := by
  unfold measureClass
  split
  · exact remeasure_sound h
  · exact h

theorem activateClass_sound {c k} (h : Sound s) : Sound (activateClass s c k) :=
  closeEpoch_sound (measureClass_sound ((ite_sound (endSessions_sound h) h).withSec))

theorem revertClasses_sound {before l} (h : Sound s) : Sound (revertClasses s before l) :=
  foldl_sound (fun _ _ ht => measureClass_sound ht.withSec) h

theorem settleSlot_sound {k} (h : Sound s) : Sound (settleSlot s k) := ite_sound (setF_sound h.withSec) h

theorem execFwActivate_sound {failClass} (h : Sound s) : OutcomeSound (execFwActivate failClass s) := by
  unfold execFwActivate
  refine outcomeSound_next.2 ?_
  dsimp only
  split
  · exact h
  next hr =>
  have hr := takeAction_sound hr h
  refine ite_sound (setObjNat_sound hr) ?_
  refine ite_sound h ?_
  split
  · exact ite_sound (setObjNat_sound (revertClasses_sound (foldl_sound (fun _ _ ht => activateClass_sound ht) hr)))
        (setObjNat_sound (settleSlot_sound (foldl_sound (fun _ _ ht => activateClass_sound ht) hr)))
  · exact setObjNat_sound (settleSlot_sound (foldl_sound (fun _ _ ht => activateClass_sound ht) hr))

theorem execNandKeyErase_sound {p} (h : Sound s) : OutcomeSound (execNandKeyErase p s) := by
  unfold execNandKeyErase
  rw [outcomeSound_next]
  split
  · exact h
  · next t hx =>
    have ht := takeAction_sound hx h
    exact ite_sound ht (scramble_sound (ht.congr rfl rfl))

theorem execLinkKey_sound {p slot} (h : Sound s) : OutcomeSound (execLinkKey p slot s) := by
  unfold execLinkKey
  rw [outcomeSound_next]
  split
  · exact h
  · next t hx => exact (takeAction_sound hx h).congr rfl rfl

theorem execReplacedKeyExpiry_sound {p slot} (h : Sound s) : OutcomeSound (execReplacedKeyExpiry p slot s) := by
  unfold execReplacedKeyExpiry
  refine outcomeSound_next.2 ?_
  dsimp only
  split
  · exact h
  · exact ite_sound h.withSec h

theorem guestDebug_sound (h : Sound s) : Sound (guestDebug s) := by
  unfold guestDebug
  split
  · exact ite_sound (setF_sound h) h
  · exact h

theorem setDebug_sound {level part} (h : Sound s) : Sound (setDebug s level part) :=
  remeasure_sound (guestDebug_sound (setF_sound (setF_sound h)))

theorem execDebugUnlock_sound (h : Sound s) : OutcomeSound (execDebugUnlock s) := by
  unfold execDebugUnlock
  rw [outcomeSound_next]
  split
  · exact h
  · next t hx => exact setDebug_sound (setObj_sound ((takeAction_sound hx h).congr rfl rfl))

theorem execDebugLeaseExpiry_sound (h : Sound s) : OutcomeSound (execDebugLeaseExpiry s) :=
  outcomeSound_next.2 (ite_sound (setDebug_sound (setObjNat_sound h)) h)

/-! ### SPDM -/

theorem setSpdmConn_sound {tr c} (h : Sound s) : Sound (setSpdmConn s tr c) := h

theorem spdmPut_sound {version code p1 p2 body} (h : Sound s) : Sound (spdmPut s version code p1 p2 body) := h

theorem spdmError_sound {r code} (h : Sound s) : Sound (spdmError s r code) := h

theorem freeBytes_sound {n} (h : Sound s) : Sound (freeBytes s n).1 := h.withFreeCtr

theorem touchSession_sound {ses} (h : Sound s) : Sound (touchSession s ses) := by
  unfold touchSession
  dsimp only
  split
  · exact h
  split
  · exact h.withSec
  · exact h

theorem spdmServe_sound {r f} (hf : ∀ t, Sound t → Sound (f t)) (h : Sound s) : Sound (spdmServe s r f) :=
  ite_sound (hf _ (touchSession_sound h)) h

theorem spdmVersioned_sound {r f} (hf : ∀ t, Sound t → Sound (f t)) (h : Sound s) : Sound (spdmVersioned s r f) :=
  spdmServe_sound (fun _ ht => ite_sound (spdmError_sound ht) (ite_sound (spdmError_sound ht) (hf _ ht))) h

theorem spdmReady_sound {r f} (hf : ∀ t, Sound t → Sound (f t)) (h : Sound s) : Sound (spdmReady s r f) :=
  spdmVersioned_sound (fun _ ht => ite_sound (hf _ ht) (spdmError_sound ht)) h

theorem execGetVersion_sound {r} (h : Sound s) : OutcomeSound (execGetVersion r s) :=
  outcomeSound_next.2 (spdmServe_sound (fun _ ht => spdmPut_sound (setSpdmConn_sound ht)) h)

theorem execGetCapabilities_sound {r} (h : Sound s) : OutcomeSound (execGetCapabilities r s) := by
  unfold execGetCapabilities
  refine outcomeSound_next.2 (spdmServe_sound (fun t ht => ite_sound (spdmError_sound ht) ?_) h)
  exact spdmPut_sound (freeBytes_sound (n := 12) (setSpdmConn_sound ht))

theorem execNegotiateAlgorithms_sound {r} (h : Sound s) : OutcomeSound (execNegotiateAlgorithms r s) :=
  outcomeSound_next.2 (spdmVersioned_sound
      (fun _ ht => ite_sound (spdmError_sound ht)
      (ite_sound (spdmError_sound ht) (spdmPut_sound (setSpdmConn_sound ht)))) h)

theorem execGetDigests_sound {r} (h : Sound s) : OutcomeSound (execGetDigests r s) :=
  outcomeSound_next.2 (spdmReady_sound (fun _ ht => spdmPut_sound ht) h)

theorem execGetCertificate_sound {r} (h : Sound s) : OutcomeSound (execGetCertificate r s) :=
  outcomeSound_next.2 (spdmReady_sound (fun _ ht => ite_sound (spdmError_sound ht) (spdmPut_sound ht)) h)

theorem execChallenge_sound {r} (h : Sound s) : OutcomeSound (execChallenge r s) := by
  unfold execChallenge
  refine outcomeSound_next.2 (spdmReady_sound (fun t ht => ite_sound (spdmError_sound ht) ?_) h)
  exact spdmPut_sound (freeBytes_sound (n := 96) (freeBytes_sound (n := 32) ht))

theorem execGetMeasurements_sound {r} (h : Sound s) : OutcomeSound (execGetMeasurements r s) := by
  grind [execGetMeasurements, !. spdmReady_sound, !. spdmError_sound, !. freeBytes_sound, !. spdmPut_sound,
      OutcomeSound]

theorem execKeyExchange_sound {r} (h : Sound s) : OutcomeSound (execKeyExchange r s) := by
  unfold execKeyExchange
  refine outcomeSound_next.2 (spdmReady_sound (fun t ht => ite_sound (spdmError_sound ht) ?_) h)
  exact spdmPut_sound (freeBytes_sound (n := 144) (freeBytes_sound (n := 96) (freeBytes_sound (n := 32) ht.withSec)))

theorem execFinish_sound {r} (h : Sound s) : OutcomeSound (execFinish r s) := by
  unfold execFinish
  refine outcomeSound_next.2 ?_
  dsimp only
  refine spdmReady_sound (fun _ ht => ?_) h
  split
  · exact spdmError_sound ht
  split
  · exact spdmError_sound ht
  refine ite_sound (spdmError_sound ht) ?_
  split
  · exact spdmPut_sound (freeBytes_sound ht.withSec)
  · exact spdmError_sound (endSessions_sound ht)

theorem inSession_sound {r f} (hf : ∀ t n x, Sound t → Sound (f t n x)) (h : Sound s) : Sound (inSession s r f) := by
  unfold inSession
  refine spdmReady_sound (fun _ ht => ?_) h
  split
  · exact spdmError_sound ht
  split
  · exact ite_sound (hf _ _ _ ht) (spdmError_sound ht)
  · exact spdmError_sound ht

theorem execEndSession_sound {r} (h : Sound s) : OutcomeSound (execEndSession r s) :=
  outcomeSound_next.2 (inSession_sound (fun _ _ _ ht => spdmPut_sound (endSessions_sound ht)) h)

theorem execHeartbeat_sound {r} (h : Sound s) : OutcomeSound (execHeartbeat r s) :=
  outcomeSound_next.2 (inSession_sound (fun _ _ _ ht => spdmPut_sound ht.withSec) h)

theorem execKeyUpdate_sound {r} (h : Sound s) : OutcomeSound (execKeyUpdate r s) :=
  outcomeSound_next.2 (inSession_sound (fun _ _ _ ht => ite_sound (spdmError_sound ht) (spdmPut_sound ht.withSec)) h)

theorem execSessionIdle_sound {ses} (h : Sound s) : OutcomeSound (execSessionIdle ses s) := by
  unfold execSessionIdle
  rw [outcomeSound_next]
  split
  · exact h
  · exact ite_sound (endSessions_sound h) h

/-! ### The Auquin object interface -/

theorem objRead_sound {k} (h : Sound s) : Sound (objRead s k).1 := by
  have hpeek := dbgPeek_sound h
  unfold objRead
  repeat' refine ite_fst_sound ?_ ?_
  all_goals assumption

theorem stageCtl_sound {ses v} (h : Sound s) : Sound (stageCtl s ses v).1 := by
  unfold stageCtl
  dsimp only
  split
  · exact stageOpen_sound h
  · exact stageSeal_sound h
  · exact stageConfirm_sound h
  · exact stageAbort_sound h

theorem showObject_sound {k} (h : Sound s) : Sound (showObject s k) :=
  ite_sound (setF_sound h) (ite_sound (promoteHot_sound (setF_sound h))
      (ite_sound (setF_sound h) (ite_sound (setF_sound h)
      (ite_sound (setF_sound h) (ite_sound (foldl_sound (fun _ _ ht => setF_sound ht) h) h)))))

theorem storeObject_sound {d k v} (h : Sound s) : Sound (storeObject s d k v) :=
  showObject_sound (setObj_sound (ite_sound ((ite_sound (closeEpoch_sound h) h).withMgmt)
      (ite_sound (closeEpoch_sound h) h)))

theorem writeEffect_sound {ses d k v} (h : Sound s) : Sound (writeEffect s ses d k v).1 := by
  unfold writeEffect
  dsimp only
  refine ite_fst_sound (stageCtl_sound h) ?_
  refine ite_fst_sound ?_ (ite_fst_sound (ite_fst_sound h (marginStart_sound h))
      (ite_fst_sound (ite_sound h (moduleReset_sound h))
      (ite_fst_sound (ite_fst_sound (setObjNat_sound (setObj_sound h)) (setObjNat_sound h))
      (ite_fst_sound (dmiObject_sound h) (storeObject_sound h)))))
  split
  · exact h.withSec
  · exact h

theorem writeNow_sound {r t} (h : Sound s) : Sound (writeNow s r t).1 := ite_fst_sound h (startSet_sound h)

theorem objWrite_sound {r k v} (h : Sound s) : Sound (objWrite s r k v).1 := by
  unfold objWrite
  split
  · exact ite_fst_sound h (ite_fst_sound h
        (ite_fst_sound (ite_fst_sound (writeNow_sound h) (stageWrite_sound h)) (writeEffect_sound h)))
  · exact h

theorem setXfer_sound {tr x} (h : Sound s) : Sound (setXfer s tr x) := h

theorem dropXfer_sound {tr} (h : Sound s) : Sound (dropXfer s tr) := h

theorem auqRead_sound {r} (h : Sound s) : Sound (auqRead s r).1 := by
  unfold auqRead
  dsimp only
  refine ite_fst_sound h ?_
  split
  · exact ite_fst_sound (objRead_sound h) (ite_sound (objRead_sound h) (setXfer_sound (objRead_sound h)))
  · exact h

theorem auqWrite_sound {r} (h : Sound s) : Sound (auqWrite s r).1 := by
  unfold auqWrite
  dsimp only
  refine ite_fst_sound h ?_
  split
  · exact ite_fst_sound (ite_fst_sound (objWrite_sound h) h)
        (ite_fst_sound h (ite_fst_sound (objWrite_sound h) (setXfer_sound h)))
  · exact h

theorem auqSegment_sound {r} (h : Sound s) : Sound (auqSegment s r).1 := by
  unfold auqSegment
  dsimp only
  split
  · exact h
  · exact ite_fst_sound h (ite_fst_sound (dropXfer_sound h)
        (ite_fst_sound (dropXfer_sound h) (ite_fst_sound
        (ite_fst_sound (dropXfer_sound h) (ite_fst_sound (objWrite_sound (dropXfer_sound h)) (setXfer_sound h)))
        (ite_sound (dropXfer_sound h) (setXfer_sound h)))))

theorem auqAbort_sound {r} (h : Sound s) : Sound (auqAbort s r).1 := dropXfer_sound h

theorem auqCommand_sound {r f} (hf : ∀ t r, Sound t → Sound (f t r).1) (h : Sound s) : Sound (auqCommand s r f) :=
  ite_sound ((hf _ _ (touchSession_sound h)).withMgmt) h

theorem execAuquinRead_sound {r} (h : Sound s) : OutcomeSound (execAuquinRead r s) :=
  outcomeSound_next.2 (auqCommand_sound (fun _ _ ht => auqRead_sound ht) h)

theorem execAuquinWrite_sound {r} (h : Sound s) : OutcomeSound (execAuquinWrite r s) :=
  outcomeSound_next.2 (auqCommand_sound (fun _ _ ht => auqWrite_sound ht) h)

theorem execAuquinSegment_sound {r} (h : Sound s) : OutcomeSound (execAuquinSegment r s) :=
  outcomeSound_next.2 (auqCommand_sound (fun _ _ ht => auqSegment_sound ht) h)

theorem execAuquinAbort_sound {r} (h : Sound s) : OutcomeSound (execAuquinAbort r s) :=
  outcomeSound_next.2 (auqCommand_sound (fun _ _ ht => auqAbort_sound ht) h)

theorem execSegTimeout_sound {tr} (h : Sound s) : OutcomeSound (execSegTimeout tr s) := by
  unfold execSegTimeout
  refine outcomeSound_next.2 ?_
  dsimp only
  split
  · exact h
  · exact ite_sound h ((dropXfer_sound h).withMgmt)

theorem mailboxReq_sound {p b r f r'} (hf : mailboxReq s p b = some (r, f)) (h : Sound t) : Sound (f t r').1 := by
  have hserve : f = auqRead ∨ f = auqWrite ∨ f = auqSegment ∨ f = auqAbort := by
    unfold mailboxReq at hf
    grind
  rcases hserve with rfl | rfl | rfl | rfl
  · exact auqRead_sound h
  · exact auqWrite_sound h
  · exact auqSegment_sound h
  · exact auqAbort_sound h

theorem mailboxServe_sound {p base n k} (h : Sound s) : Sound (mailboxServe p base n k s) := by
  induction k generalizing s with
  | zero => exact h
  | succ k ih =>
    have ht := hubTouch_sound (a := base + 64 + leNat (hubView s (base + 4) 4) % 2 ^ n * 64) (n := 64) h
    unfold mailboxServe
    refine ite_sound h ?_
    dsimp only
    split
    · exact ih (hubPut_sound ht)
    · next r f hreq => exact ih (hubPut_sound (hubPut_sound (hubPut_sound (mailboxReq_sound hreq ht))))

theorem execMailboxPoll_sound {p} (h : Sound s) : OutcomeSound (execMailboxPoll p s) :=
  outcomeSound_next.2 (ite_sound (mailboxServe_sound h) h)

theorem execDynamicAddress_sound {addr} (h : Sound s) : OutcomeSound (execDynamicAddress addr s) :=
  outcomeSound_next.2 (ite_sound (setObj_sound h) h)

theorem execSetEndpointId_sound {eid} (h : Sound s) : OutcomeSound (execSetEndpointId eid s) :=
  outcomeSound_next.2 (ite_sound (setObj_sound h) h)

theorem execMgtLinkChange_sound {link} (h : Sound s) : OutcomeSound (execMgtLinkChange link s) :=
  outcomeSound_next.2 (ite_sound h (ite_sound ((setObjNat_sound h.withMgmt).withMgmt)
      (ite_sound (setObjNat_sound h.withMgmt) (dropXfer_sound (setObjNat_sound h.withMgmt)))))

/-! ### Transfers -/

theorem arrayPut_sound {t x f src} (h : Sound s) : Sound (arrayPut s t x f src) :=
  ite_sound (foldl_sound (fun _ _ ht => ite_sound (putAll_sound ht) (putAll_sound ht)) (Tgt.zero_sound h))
      (foldl_sound (fun _ _ ht => foldl_sound (fun _ _ hu => Tgt.poison_sound hu) ht)
      (foldl_sound (fun _ _ ht => ite_sound (putAll_sound ht) (putAll_sound ht)) (Tgt.zero_sound h)))

theorem linearPut_sound {t x src} (h : Sound s) : Sound (linearPut s t x src) :=
  ite_sound (Tgt.zero_sound h) (foldl_sound (fun _ _ ht => Tgt.poison_sound ht) (Tgt.put_sound h))

theorem freeStaging_sound {u l} (h : Sound s) : Sound (freeStaging s u l) :=
  foldl_sound (fun _ _ ht => bobToEmpty_sound (scrambleBob_sound ht)) h

theorem trTake_sound {u slot x stage} (h : Sound s) : Sound (trTake s u slot x stage) :=
  foldl_sound (fun _ _ ht => bobFill_sound ht) (foldl_sound (fun _ _ ht => bobFill_sound ht) h)

theorem trSource_sound {u x f} (h : Sound s) : Sound (trSource s u x f).1 := by
  unfold trSource
  refine ite_fst_sound h ?_
  refine ite_fst_sound h ?_
  split
  · next hr => exact piecesTouch_sound ((reach_sound h).of_fst hr)
  · next hr => exact (reach_sound h).of_fst hr

theorem trTarget_sound {u x f} (h : Sound s) : Sound (trTarget s u x f).1 := by
  unfold trTarget
  refine ite_fst_sound h ?_
  split
  · next hr => exact (reach_sound h).of_fst hr
  · next hr => exact (reach_sound h).of_fst hr

theorem trPut_sound {t x f src} (h : Sound s) : Sound (trPut s t x f src) :=
  ite_sound (arrayPut_sound h) (linearPut_sound h)

theorem trBody_sound {u c} (h : Sound s) : Sound (trBody u s c).1 := by
  unfold trBody
  extract_lets x
  split
  · exact h
  extract_lets stage
  refine ite_fst_sound h (ite_fst_sound h (ite_fst_sound h (ite_fst_sound h ?_)))
  split
  · exact h
  extract_lets c
  split
  · next hs => exact (trSource_sound (trTake_sound h)).of_fst hs
  next hs =>
  have hs := (trSource_sound (trTake_sound h)).of_fst hs
  split
  · next ht => exact (trTarget_sound hs).of_fst ht
  · next ht => exact advance_sound (freeStaging_sound (trPut_sound ((trTarget_sound hs).of_fst ht)))

theorem execTransfer_sound {u} (h : Sound s) : OutcomeSound (execTransfer u s) :=
  outcomeSound_next.2 (runCmd_sound (fun _ _ ht => trBody_sound ht) h)

theorem inlineBody_sound {u c} (h : Sound s) : Sound (inlineBody u s c).1 := by
  unfold inlineBody
  dsimp only
  refine ite_fst_sound (ite_fst_sound h (bobWrite_sound (bobFill_sound h))) ?_
  split
  · next hr => exact piecesWrite_sound ((reach_sound h).of_fst hr)
  · next hr => exact (reach_sound h).of_fst hr

theorem execTransferInline_sound {u} (h : Sound s) : OutcomeSound (execTransferInline u s) :=
  outcomeSound_next.2 (runCmd_sound (fun _ _ ht => inlineBody_sound ht) h)

/-! ### The Carder -/

theorem cardRead_sound {r : Rd} {u va n} (h : Sound r.s) : Sound (cardRead r u va n).1.s := by
  unfold cardRead
  dsimp only
  split
  · exact h
  split
  · next hr => exact piecesTouch_sound ((reach_sound h).of_fst hr)
  · next hr => exact (reach_sound h).of_fst hr

theorem cardReads_sound {s : Rd} {u l acc} (h : Sound s.s) : Sound (cardReads s u l acc).1.s := by
  induction l generalizing s acc with
  | nil =>
    unfold cardReads
    dsimp only
    exact h
  | cons x l ih =>
    unfold cardReads
    split
    · next hr => exact ih ((cardRead_sound h).rd_of_fst hr)
    · next hr => exact (cardRead_sound h).rd_of_fst hr

theorem doRegions_sound {s : Rd} {u x m mean scale l o} (h : Sound s.s) : Sound (doRegions s u x m mean scale l o).1.s
    := by
  induction l generalizing s o with
  | nil =>
    unfold doRegions
    dsimp only
    exact h
  | cons x l ih =>
    unfold doRegions
    dsimp only
    split
    · next hr => exact (cardReads_sound h).rd_of_fst hr
    next hr =>
    have hr := (cardReads_sound h).rd_of_fst hr
    split
    · next hr₁ => exact (cardReads_sound hr).rd_of_fst hr₁
    · next hr₁ => exact ih ((cardReads_sound hr).rd_of_fst hr₁)

theorem restOfList_sound {s : Rd} {u va n hd} (h : Sound s.s) : Sound (restOfList s u va n hd).1.s := by
  unfold restOfList
  dsimp only
  refine ite_fst_rd_sound h ?_
  split
  · next hr => exact (cardRead_sound h).rd_of_fst hr
  · next hr => exact (cardRead_sound h).rd_of_fst hr

theorem doSample_sound {s : Rd} {u x mean scale i} (h : Sound s.s) : Sound (doSample s u x mean scale i).1.s := by
  unfold doSample
  dsimp only
  split
  · next hr => exact (cardRead_sound h).rd_of_fst hr
  next hr =>
  have hr := (cardRead_sound h).rd_of_fst hr
  refine ite_fst_rd_sound hr ?_
  refine ite_fst_rd_sound hr ?_
  refine ite_fst_rd_sound (doRegions_sound hr) ?_
  split
  · next hr₁ => exact (cardRead_sound hr).rd_of_fst hr₁
  next hr₁ =>
  have hr₁ := (cardRead_sound hr).rd_of_fst hr₁
  refine ite_fst_rd_sound hr₁ ?_
  refine ite_fst_rd_sound hr₁ ?_
  split
  · next hr₂ => exact (restOfList_sound hr₁).rd_of_fst hr₂
  next hr₂ =>
  have hr₂ := (restOfList_sound hr₁).rd_of_fst hr₂
  exact ite_fst_rd_sound hr₂ (ite_fst_rd_sound hr₂ (doRegions_sound hr₂))

theorem drawUnit_sound {units} (h : Sound s) : Sound (drawUnit s units).2 := drawFree_sound h

theorem countSample_sound {part i o} (h : Sound s) : Sound (countSample s part i o) :=
  ite_sound (bump_sound (bump_sound (advance_sound (advance_sound (advance_sound (advance_sound h))))))
      (advance_sound (advance_sound (advance_sound (advance_sound h))))

theorem sampleDone_sound {r : Rd} {u units i poison count} (hcount : ∀ t k, Sound t → Sound (count t k))
    (h : Sound r.s) :
    Sound (sampleDone r u units i poison count).s := by
  unfold sampleDone
  split
  · exact h
  dsimp only
  split
  · exact cmdPoison_sound (hcount _ _ (drawUnit_sound h))
  · exact hcount _ _ (drawUnit_sound h)

theorem doSamples_sound {r : Rd} {u x units mean scale l acc} (h : Sound r.s) : Sound
    (doSamples r u x units mean scale l acc).1.s := by
  induction l generalizing r acc with
  | nil =>
    unfold doSamples
    dsimp only
    exact h
  | cons x l ih =>
    unfold doSamples
    dsimp only
    split
    · next hr => exact (doSample_sound h).rd_of_fst hr
    · next hr => exact ih (sampleDone_sound (fun _ _ ht => countSample_sound ht) ((doSample_sound h).rd_of_fst hr))

theorem cardDst_sound {u x n} (h : Sound s) : Sound (cardDst s u x n).1 := by
  unfold cardDst
  refine ite_fst_sound h ?_
  split
  · next hr => exact (reach_sound h).of_fst hr
  · next hr => exact (reach_sound h).of_fst hr

theorem cardBody_sound {work u c} (hwork : ∀ u t c x l, Sound t → Sound (work u t c x l).1) (h : Sound s) : Sound
    (cardBody work u s c).1 :=
  ite_fst_sound h (ite_fst_sound h (hwork _ _ _ _ _ (ite_sound (bobFill_sound h) h)))

theorem countMarks_sound {i q} (h : Sound s) : Sound (countMarks s i q) := h

theorem imagePut_sound {c x f t os} (h : Sound s) : Sound (imagePut s c x f t os) :=
  foldl_sound (fun _ _ ht => countMarks_sound ht) (putAll_sound h)

theorem imageWork_sound {u c x units} (h : Sound s) : Sound (imageWork u s c x units).1 := by
  unfold imageWork
  dsimp only
  split
  · exact h
  split
  · next hr => exact (doSamples_sound h).rd_of_fst hr
  next hr =>
  have hr := (doSamples_sound h).rd_of_fst hr
  split
  · next hr₁ => exact (cardDst_sound hr).of_fst hr₁
  · next hr₁ => exact imagePut_sound ((cardDst_sound hr).of_fst hr₁)

theorem execCardImage_sound {u} (h : Sound s) : OutcomeSound (execCardImage u s) :=
  outcomeSound_next.2 (runCmd_sound (fun _ _ ht => cardBody_sound (fun _ _ _ _ _ hu => imageWork_sound hu) ht) h)

theorem doTok_sound {s : Rd} {u x i} (h : Sound s.s) : Sound (doTok s u x i).1.s := by
  unfold doTok
  dsimp only
  split
  · next hr => exact (cardRead_sound h).rd_of_fst hr
  next hr =>
  have hr := (cardRead_sound h).rd_of_fst hr
  refine ite_fst_rd_sound hr ?_
  split
  · next hr₁ => exact (cardRead_sound hr).rd_of_fst hr₁
  next hr₁ =>
  have hr₁ := (cardRead_sound hr).rd_of_fst hr₁
  exact ite_fst_rd_sound hr₁ hr₁

theorem countTok_sound {t i} (h : Sound s) : Sound (countTok t s i) :=
  ite_sound (bump_sound (advance_sound h)) (advance_sound h)

theorem doToks_sound {s : Rd} {u x units k i ts sk} (h : Sound s.s) : Sound (doToks s u x units k i ts sk).1.s := by
  induction k generalizing s i ts sk with
  | zero =>
    unfold doToks
    dsimp only
    exact h
  | succ k ih =>
    unfold doToks
    split
    · next hr => exact (doTok_sound h).rd_of_fst hr
    next hr =>
    have hr := (doTok_sound h).rd_of_fst hr
    split
    · exact ih (sampleDone_sound (fun _ _ ht => countTok_sound ht) hr)
    · exact hr

theorem skeinsPut_sound {x pad sk t ms rs} (h : Sound s) : Sound (skeinsPut s x pad sk t ms rs) :=
  piecesWrite_sound (piecesWrite_sound (Tgt.put_sound h))

theorem tokensWork_sound {u c x units} (h : Sound s) : Sound (tokensWork u s c x units).1 := by
  unfold tokensWork
  dsimp only
  split
  · next hr => exact (doToks_sound h).rd_of_fst hr
  next hr =>
  have hr := (doToks_sound h).rd_of_fst hr
  split
  · next hr₁ => exact (cardDst_sound hr).of_fst hr₁
  next hr₁ =>
  have hr₁ := (cardDst_sound hr).of_fst hr₁
  split
  · next hr₂ => exact (reach_sound hr₁).of_fst hr₂
  next hr₂ =>
  have hr₂ := (reach_sound hr₁).of_fst hr₂
  split
  · next hr₃ => exact (reach_sound hr₂).of_fst hr₃
  · next hr₃ => exact skeinsPut_sound ((reach_sound hr₂).of_fst hr₃)

theorem execCardTokens_sound {u} (h : Sound s) : OutcomeSound (execCardTokens u s) :=
  outcomeSound_next.2 (runCmd_sound (fun _ _ ht => cardBody_sound (fun _ _ _ _ _ hu => tokensWork_sound hu) ht) h)

/-! ### Vector operations -/

theorem voRows_sound {v fx fy fo u c q} (h : Sound s) : Sound (voRows v fx fy fo s u c q) :=
  ite_sound (bump_sound (putAll_sound (ite_sound (bump_sound (putAll_sound h)) h)))
      (ite_sound (bump_sound (putAll_sound h)) h)

theorem voGather_sound {v fx fo u c q} (h : Sound s) : Sound (voGather v fx fo s u c q) :=
  bump_sound (bump_sound (putAll_sound h))

theorem putCode_sound {a bitOff w code} (h : Sound s) : Sound (putCode s a bitOff w code) := mpaWrite_sound h

theorem scatterLane_sound {v fx fo u c q} {a : Scat} {r j} (h : Sound a.s) : Sound (scatterLane v fx fo u c q a r j).s
    := by
  grind [scatterLane, !. bump_sound, !. drawFree_sound, !. putCode_sound, !. mpaPutNat_sound]

theorem rebase_sound {l base x} (h : Sound s) : Sound (rebase l base s x) := mpaWrite_sound h

theorem foldl_scatterLane_sound {v fx fo u c q} {l : List (Nat × Nat)} {a : Scat} (h : Sound a.s) :
    Sound (l.foldl (fun a p => scatterLane v fx fo u c q a p.1 p.2) a).s := by
  induction l generalizing a with
  | nil => exact h
  | cons x l ih => exact ih (scatterLane_sound h)

theorem voScatter_sound {v fx fo u c q} (h : Sound s) : Sound (voScatter v fx fo s u c q) :=
  foldl_sound (fun _ _ ht => rebase_sound ht) (foldl_scatterLane_sound h)

theorem voTake_sound {v u c pois} (h : Sound s) : Sound (voTake v s u c pois) := by
  unfold voTake
  dsimp only
  refine foldl_sound (fun _ _ ht => bobFill_sound ht) ?_
  split
  · exact cmdPoison_sound h
  · exact h

theorem voWork_sound {v fx fy fo u c q} (h : Sound s) : Sound (voWork v fx fy fo s u c q) :=
  bump_sound (ite_sound (voGather_sound h) (ite_sound (voScatter_sound h) (voRows_sound h)))

theorem voBody_sound {u c} (h : Sound s) : Sound (voBody u s c).1 := by
  unfold voBody
  dsimp only
  refine ite_fst_sound h ?_
  split
  · exact voWork_sound (voTake_sound h)
  · exact h

theorem execVecop_sound {u} (h : Sound s) : OutcomeSound (execVecop u s) :=
  outcomeSound_next.2 (runCmd_sound (fun _ _ ht => voBody_sound ht) h)

/-! ### Engines that wake -/

theorem performHeld_sound {c} (h : Sound s) : Sound (performHeld s c) := by
  unfold performHeld
  split
  · exact nextOf_sound (execSqTail_sound h) h
  · exact nextOf_sound (execBobMarkFill_sound h) h
  · exact nextOf_sound (execBobMarkReady_sound h) h
  · exact nextOf_sound (execBobMarkConsumed_sound h) h
  · exact nextOf_sound (execBobMarkRelease_sound h) h
  · exact nextOf_sound (execCtxCfgValidSet_sound h) h
  · exact nextOf_sound (execMemoryAccess_sound h) h
  · exact wrServe_sound h
  · exact wrpServe_sound h
  · split
    · exact atomServe_sound h
    · exact h
  · exact cohRequest_sound h
  · exact h

theorem execEngineWake_sound {e} (h : Sound s) : OutcomeSound (execEngineWake e s) :=
  outcomeSound_next.2 (ite_sound (foldl_sound (fun _ _ ht => performHeld_sound ht) (wakeEngine_sound h)) h)

/-! ### An idle step -/

theorem tick_sound (h : Sound s) : Sound (tick s) := h

/-! ### The commands and a step -/

theorem exec_sound {i} (h : Sound s) : OutcomeSound (exec i s) := by
  cases i with
  | transfer u => exact execTransfer_sound h
  | transferInline u => exact execTransferInline_sound h
  | matmul u => exact execMatmul_sound h
  | matmulAcc u => exact execMatmulAcc_sound h
  | elemwise u => exact execElemwise_sound h
  | vecop u => exact execVecop_sound h
  | cardImage u => exact execCardImage_sound h
  | cardTokens u => exact execCardTokens_sound h
  | allReduce u => exact execAllReduce_sound h
  | reduceScatter u => exact execReduceScatter_sound h
  | allGather u => exact execAllGather_sound h
  | broadcast u => exact execBroadcast_sound h
  | barrier u => exact execBarrier_sound h
  | put u => exact execPut_sound h
  | get u => exact execGet_sound h
  | atomic u => exact execAtomic_sound h
  | collectiveSend u => exact execCollectiveSend_sound h
  | dispatch u => exact execDispatch_sound h
  | combine u => exact execCombine_sound h
  | signal u => exact execSignal_sound h
  | wait u => exact execWait_sound h
  | fence u => exact execFence_sound h
  | task u => exact execTask_sound h
  | prefetch u => exact execPrefetch_sound h
  | cancel u => exact execCancel_sound h
  | commandFetch u => exact execCommandFetch_sound h
  | commandComplete u slot => exact execCommandComplete_sound h
  | cqHead ag u val => exact execCqHead_sound h
  | mxIssue c rd rs1 vs2 => exact execMxIssue_sound h
  | mxRoom c rd rs1 => exact execMxRoom_sound h
  | mxAwait c rs1 => exact execMxAwait_sound h
  | mxBstate c rd rs1 => exact execMxBstate_sound h
  | mxBdone c rs1 => exact execMxBdone_sound h
  | mxYield c => exact execMxYield_sound h
  | mxExit c rs1 => exact execMxExit_sound h
  | spindleException c cause tval => exact execSpindleException_sound h
  | taskDispatch c => exact execTaskDispatch_sound h
  | quantumExpiry c => exact execQuantumExpiry_sound h
  | budgetExpiry e slot => exact execBudgetExpiry_sound h
  | tilePass e pa bad => exact execTilePass_sound h
  | recompute e bad => exact execRecompute_sound h
  | arrayRetirement e pa => exact execArrayRetirement_sound h
  | sqTail ag u val => exact execSqTail_sound h
  | spLock ag u acc => exact execSpLock_sound h
  | leaseExpiry u => exact execLeaseExpiry_sound h
  | spCfgEnable ag u val => exact execSpCfgEnable_sound h
  | spCfgDisable ag u val => exact execSpCfgDisable_sound h
  | resume ag u val => exact execResume_sound h
  | ctxCfgValidSet ag e n val => exact execCtxCfgValidSet_sound h
  | ctxCfgValidClear ag e n val => exact execCtxCfgValidClear_sound h
  | ctxCancel ag e n mask releaseAll => exact execCtxCancel_sound h
  | bobMarkFill ag e n b => exact execBobMarkFill_sound h
  | bobMarkReady ag e n b readers => exact execBobMarkReady_sound h
  | bobMarkConsumed ag e n b => exact execBobMarkConsumed_sound h
  | bobMarkRelease ag e n b => exact execBobMarkRelease_sound h
  | bobArm ag e view => exact execBobArm_sound h
  | statSelSnap ag e win entry => exact execStatSelSnap_sound h
  | statSelClear ag e win entry => exact execStatSelClear_sound h
  | statClearAll ag e => exact execStatClearAll_sound h
  | abftInject ag e pa arm => exact execAbftInject_sound h
  | frResumeRetry ag e n seq => exact execFrResumeRetry_sound h
  | frResumeKill ag e n seq => exact execFrResumeKill_sound h
  | engPwrReq ag e req => exact execEngPwrReq_sound h
  | engReset ag e force => exact execEngReset_sound h
  | dieReset ag die force => exact execDieReset_sound h
  | coreHold ag p w val => exact execCoreHold_sound h
  | migReqPromote ag gran astag => exact execMigReqPromote_sound h
  | migReqDemote ag gran => exact execMigReqDemote_sound h
  | poolArm ag view => exact execPoolArm_sound h
  | flushTag ag astag all drain => exact execFlushTag_sound h
  | flushTagDone => exact execFlushTagDone_sound h
  | rhReplyInstall ag id => exact execRhReplyInstall_sound h
  | rhReplyRefuse ag id => exact execRhReplyRefuse_sound h
  | dirBiasReq ag astag all toShared => exact execDirBiasReq_sound h
  | biasChangeDone => exact execBiasChangeDone_sound h
  | stepClose ag p step => exact execStepClose_sound h
  | stepRaise ag p step => exact execStepRaise_sound h
  | stepRejoin ag p step => exact execStepRejoin_sound h
  | optArm ag p view => exact execOptArm_sound h
  | ckptNext ag p => exact execCkptNext_sound h
  | ckptRestore ag p slotB => exact execCkptRestore_sound h
  | restoreDone p => exact execRestoreDone_sound h
  | connInit ag conn => exact execConnInit_sound h
  | connClose ag conn => exact execConnClose_sound h
  | stkRepairConnection ag d chan target => exact execStkRepairConnection_sound h
  | stkRepairRow ag d chan bank target => exact execStkRepairRow_sound h
  | stkRepairColumn ag d chan bank target => exact execStkRepairColumn_sound h
  | repairDone d => exact execRepairDone_sound h
  | flReqWrite ag part pages lpn => exact execFlReqWrite_sound h
  | flReqTrim ag part pages lpn => exact execFlReqTrim_sound h
  | flashRequestDone => exact execFlashRequestDone_sound h
  | auqMbxEnable ag p val => exact execAuqMbxEnable_sound h
  | mailboxPoll p => exact execMailboxPoll_sound h
  | evrWindow ag acc => exact execEvrWindow_sound h
  | registerWrite ag off acc val => exact execRegisterWrite_sound h
  | memoryAccess req => exact execMemoryAccess_sound h
  | promotionStart => exact execPromotionStart_sound h
  | promotionDone gran => exact execPromotionDone_sound h
  | demotionStart gran => exact execDemotionStart_sound h
  | demotionCopy gran => exact execDemotionCopy_sound h
  | demotionDone gran => exact execDemotionDone_sound h
  | ageTick => exact execAgeTick_sound h
  | tierTimeout id => exact execTierTimeout_sound h
  | rangeCacheMiss req => exact execRangeCacheMiss_sound h
  | walkComplete id => exact execWalkComplete_sound h
  | consultTimeout id => exact execConsultTimeout_sound h
  | killRecord e n => exact execKillRecord_sound h
  | replayLimit e n => exact execReplayLimit_sound h
  | rd link m => exact execRd_sound h
  | wr link m => exact execWr_sound h
  | wrp link m => exact execWrp_sound h
  | atom link m => exact execAtom_sound h
  | memData link m => exact execMemData_sound h
  | memAck link m => exact execMemAck_sound h
  | rdShared link m => exact execRdShared_sound h
  | rdOwn link m => exact execRdOwn_sound h
  | snpInv link m => exact execSnpInv_sound h
  | snpFwd link m => exact execSnpFwd_sound h
  | wb link m => exact execWb_sound h
  | cohData link m => exact execCohData_sound h
  | cohAck link m => exact execCohAck_sound h
  | ownershipHoldExpiry line => exact execOwnershipHoldExpiry_sound h
  | msi link m => exact execMsi_sound h
  | dmiRd link m => exact execDmiRd_sound h
  | dmiWr link m => exact execDmiWr_sound h
  | dbgData link m => exact execDbgData_sound h
  | discover link m => exact execDiscover_sound h
  | agree link m => exact execAgree_sound h
  | dict link m => exact execDict_sound h
  | resetReq link m => exact execResetReq_sound h
  | telemetry link m => exact execTelemetry_sound h
  | mgtData link m => exact execMgtData_sound h
  | mgtAck link m => exact execMgtAck_sound h
  | linkActive link => exact execLinkActive_sound h
  | discoveryTimeout link => exact execDiscoveryTimeout_sound h
  | moduleDown link mod => exact execModuleDown_sound h
  | linkFailed link => exact execLinkFailed_sound h
  | linkRetry link => exact execLinkRetry_sound h
  | guestRemoval => exact execGuestRemoval_sound h
  | dieRemoval die => exact execDieRemoval_sound h
  | write f => exact execWrite_sound h
  | readReq f => exact execReadReq_sound h
  | readResp f => exact execReadResp_sound h
  | atomicReq f => exact execAtomicReq_sound h
  | atomicResp f => exact execAtomicResp_sound h
  | send f => exact execSend_sound h
  | collData f => exact execCollData_sound h
  | dispatchCount f => exact execDispatchCount_sound h
  | landingGrant group opid => exact execLandingGrant_sound h
  | dispatchGrant f => exact execDispatchGrant_sound h
  | dispatchRow f => exact execDispatchRow_sound h
  | combineReq f => exact execCombineReq_sound h
  | combineServe id => exact execCombineServe_sound h
  | combineResp f => exact execCombineResp_sound h
  | halyardVote p => exact execHalyardVote_sound h
  | halyardUp f => exact execHalyardUp_sound h
  | halyardDown f => exact execHalyardDown_sound h
  | halyardTimeout p => exact execHalyardTimeout_sound h
  | divergedTimeout p => exact execDivergedTimeout_sound h
  | hello f => exact execHello_sound h
  | probe f => exact execProbe_sound h
  | linkAck port f => exact execLinkAck_sound h
  | fcsError port badFcs => exact execFcsError_sound h
  | ack f => exact execAck_sound h
  | nack f => exact execNack_sound h
  | linkAckTimer port => exact execLinkAckTimer_sound h
  | ackTimer conn => exact execAckTimer_sound h
  | rtoExpiry conn plane => exact execRtoExpiry_sound h
  | portStateChange port st rate => exact execPortStateChange_sound h
  | probeTimer peer plane => exact execProbeTimer_sound h
  | peerUnreachable peer => exact execPeerUnreachable_sound h
  | collTimeout id => exact execCollTimeout_sound h
  | sendRetry id => exact execSendRetry_sound h
  | contextFetch conn => exact execContextFetch_sound h
  | waitPoll u => exact execWaitPoll_sound h
  | waitTimeout u => exact execWaitTimeout_sound h
  | snapshotMerge p => exact execSnapshotMerge_sound h
  | hoist p => exact execHoist_sound h
  | hankUpdate p => exact execHankUpdate_sound h
  | hanksDone p => exact execHanksDone_sound h
  | checkpointStart p => exact execCheckpointStart_sound h
  | checkpointHank p => exact execCheckpointHank_sound h
  | checkpointHeader p => exact execCheckpointHeader_sound h
  | mappingRebuild cutLpns => exact execMappingRebuild_sound h
  | refresh d chan bank => exact execRefresh_sound h
  | recalWindow d chan => exact execRecalWindow_sound h
  | patrolScrub line r => exact execPatrolScrub_sound h
  | flashScrub block heavy => exact execFlashScrub_sound h
  | marginStart => exact execMarginStart_sound h
  | marginDone lo hi step => exact execMarginDone_sound h
  | serverCoreFault core => exact execServerCoreFault_sound h
  | spindleCoreFault c => exact execSpindleCoreFault_sound h
  | epochClose => exact execEpochClose_sound h
  | evrClear => exact execEvrClear_sound h
  | inputWarning mv => exact execInputWarning_sound h
  | warningRecovery mv => exact execWarningRecovery_sound h
  | powerFail mv => exact execPowerFail_sound h
  | overVoltage mv => exact execOverVoltage_sound h
  | startUp ev => exact execStartUp_sound h
  | fabricReady => exact execFabricReady_sound h
  | startTimeout => exact execStartTimeout_sound h
  | holdupReady => exact execHoldupReady_sound h
  | powerCapSample avgW sampleW => exact execPowerCapSample_sound h
  | thermalThrottle sensor tempC => exact execThermalThrottle_sound h
  | thermalShutdown sensor tempC => exact execThermalShutdown_sound h
  | arrayClkMhz e pa => exact execArrayClkMhz_sound h
  | scClkMhz core dieW dieC => exact execScClkMhz_sound h
  | powerStateEntry e => exact execPowerStateEntry_sound h
  | engineWake e => exact execEngineWake_sound h
  | departureTimeout unit => exact execDepartureTimeout_sound h
  | modRstN low => exact execModRstN_sound h
  | moduleReset => exact execModuleReset_sound h
  | stageOpen ses set => exact execStageOpen_sound h
  | stageSeal ses set => exact execStageSeal_sound h
  | stageConfirm ses set => exact execStageConfirm_sound h
  | stageAbort ses set => exact execStageAbort_sound h
  | stageWindowExpiry set => exact execStageWindowExpiry_sound h
  | layoutApply => exact execLayoutApply_sound h
  | fwImage => exact execFwImage_sound h
  | svnCommit => exact execSvnCommit_sound h
  | fwActivate failClass => exact execFwActivate_sound h
  | nandKeyErase p => exact execNandKeyErase_sound h
  | linkKey p slot => exact execLinkKey_sound h
  | debugUnlock => exact execDebugUnlock_sound h
  | debugLeaseExpiry => exact execDebugLeaseExpiry_sound h
  | getVersion r => exact execGetVersion_sound h
  | getCapabilities r => exact execGetCapabilities_sound h
  | negotiateAlgorithms r => exact execNegotiateAlgorithms_sound h
  | getDigests r => exact execGetDigests_sound h
  | getCertificate r => exact execGetCertificate_sound h
  | challenge r => exact execChallenge_sound h
  | getMeasurements r => exact execGetMeasurements_sound h
  | keyExchange r => exact execKeyExchange_sound h
  | finish r => exact execFinish_sound h
  | endSession r => exact execEndSession_sound h
  | heartbeat r => exact execHeartbeat_sound h
  | keyUpdate r => exact execKeyUpdate_sound h
  | auquinRead r => exact execAuquinRead_sound h
  | auquinWrite r => exact execAuquinWrite_sound h
  | auquinSegment r => exact execAuquinSegment_sound h
  | auquinAbort r => exact execAuquinAbort_sound h
  | segTimeout tr => exact execSegTimeout_sound h
  | sessionIdle ses => exact execSessionIdle_sound h
  | dbgDmiReq req => exact execDbgDmiReq_sound h
  | dbgPeek => exact execDbgPeek_sound h
  | tapSeq tdo => exact execTapSeq_sound h
  | laneRepair link mod lanes => exact execLaneRepair_sound h
  | replacedKeyExpiry p slot => exact execReplacedKeyExpiry_sound h
  | suspectWindowExpiry e pa => exact execSuspectWindowExpiry_sound h
  | frPtrConsumer ag ring val => exact execFrPtrConsumer_sound h
  | rhConsultPtrConsumer ag val => exact execRhConsultPtrConsumer_sound h
  | dynamicAddress addr => exact execDynamicAddress_sound h
  | setEndpointId eid => exact execSetEndpointId_sound h
  | mgtLinkChange link => exact execMgtLinkChange_sound h
  | modRstNRisingEdge => exact execModRstNRisingEdge_sound h
  | coolantAlert inletC => exact execCoolantAlert_sound h
  | flashProgramFailure block => exact execFlashProgramFailure_sound h

theorem step_sound (h : Sound s) : OutcomeSound (step s) := by
  unfold step
  split
  · exact outcomeSound_next.2 (tick_sound h)
  · exact exec_sound (h.congr rfl rfl)

/-- Settles O4: a next state comes from `tick` or from `exec`, and both keep `Sound`. -/
theorem stepKeepsSound : Obligations.StepKeepsSound :=
  fun _ t h ht => step_sound h t ht

/-! ### REGISTER_WRITE -/

/-- An aligned offset outside the guest's windows is written as `mmioWrite` writes it. -/
theorem registerWrite_of_not_guest {s : State} {ag : Agent} {off : BitVec 40} {acc : RegAccess} {val : Word} (h8 : off.toNat % 8 = 0)
    (hg : ∀ o, mmioTarget off.toNat ≠ .guest o) :
    exec (.registerWrite ag off acc val) s = .next (if (mmioWrite s ag off.toNat acc val).2 then (mmioWrite s ag off.toNat acc val).1
      else putAccess (mmioWrite s ag off.toNat acc val).1 (denied ag)) := by
  change execRegisterWrite ag off acc val s = _
  unfold execRegisterWrite
  rw [if_neg (not_not.2 h8)]
  split
  · exact absurd ‹_› (hg _)
  · rfl

theorem registerWrite_misaligned {s : State} {ag : Agent} {off : BitVec 40} {acc : RegAccess} {val : Word} (h8 : off.toNat % 8 ≠ 0) :
    exec (.registerWrite ag off acc val) s = .next (putAccess s (denied ag)) :=
  congrArg Host.Outcome.next (if_pos h8)

/-- An aligned offset in the guest's windows is an access there, of 8 bytes or of either half. -/
theorem registerWrite_guest {s : State} {ag : Agent} {off : BitVec 40} {o : Nat} {acc : RegAccess} {val : Word} (h8 : off.toNat % 8 = 0)
    (ht : mmioTarget off.toNat = .guest o) :
    exec (.registerWrite ag off acc val) s = .next (match acc with
      | .w64 => guestAccess s ag o (some (natLE 8 val.toNat)) 8
      | .lo32 => guestAccess s ag o (some (natLE 4 val.toNat)) 4
      | .hi32 => guestAccess s ag (o + 4) (some (natLE 4 val.toNat)) 4
      | .bad => putAccess s (denied ag)) := by
  change execRegisterWrite ag off acc val s = _
  simp only [execRegisterWrite, h8, ht]
  rfl

section
variable {s : State} {ag : Agent} {o c f x : Nat} {k : RegKey} {d : RegDesc} {acc : RegAccess} {val : Word}

theorem mmioWrite_outside (ht : mmioTarget o = .outside) : mmioWrite s ag o acc val = (s, false) := by
  simp [mmioWrite, ht]

theorem mmioWrite_reg_bad (ht : mmioTarget o = .reg k) : mmioWrite s ag o .bad val = (s, false) := by
  simp [mmioWrite, ht]

theorem mmioWrite_reg_none (ht : mmioTarget o = .reg k) (ha : acc ≠ .bad) (hr : regRight s ag k = true) (hd : regDesc k = none) :
    mmioWrite s ag o acc val = (s, true) := by
  simp [mmioWrite, ht, ha, hr, hd]

theorem mmioWrite_reg_some (ht : mmioTarget o = .reg k) (ha : acc ≠ .bad) (hr : regRight s ag k = true) (hd : regDesc k = some d) :
    mmioWrite s ag o acc val = (writeReg s ag k d acc val, true) := by
  simp [mmioWrite, ht, ha, hr, hd]

theorem mmioWrite_imsic (ht : mmioTarget o = .imsic c f x) (ha : acc ≠ .bad) :
    mmioWrite s ag o acc val = (imsicWrite s c f x acc val, true) := by
  simp [mmioWrite, ht, ha]

/-! ### Places without a register -/

/-- A place that a description of its block covers has a register. -/
theorem regDesc_ne_none (hd : d ∈ blockRegs k.blk) (hlo : d.off ≤ k.off) (hst : (k.off - d.off) % d.stride = 0)
    (hn : (k.off - d.off) / d.stride < d.count) : regDesc k ≠ none := by
  intro h
  have := List.find?_eq_none.1 h d hd
  simp [hlo, hst, hn] at this

/-- Every SP_LOCK is described. -/
theorem regDesc_spLock_ne_none {e n i : Nat} (hi : i < 4) : regDesc (rSpLock e n i).key ≠ none := by
  refine regDesc_ne_none (d := ⟨.engC, 0x38, 4, 0x80, [⟨⟨0, 0⟩, .rc⟩, ⟨⟨31, 16⟩, .ro⟩, ⟨⟨47, 32⟩, .ro⟩]⟩) ?_ ?_ ?_ ?_
  · change _ ∈ regs_engC0
    decide
  all_goals
    dsimp only [rSpLock]
    omega

/-- Every aligned place of EVR_WINDOW is described. -/
theorem regDesc_evrWindow_ne_none (hb : k.blk = .rel) (hlo : 0x1000 ≤ k.off) (hhi : k.off < 0x2000) (h8 : k.off % 8 = 0) :
    regDesc k ≠ none := by
  refine regDesc_ne_none (d := ⟨.rel, 0x1000, 512, 0x8, [⟨⟨63, 0⟩, .ro⟩]⟩) ?_ hlo ?_ ?_
  · rw [hb]
    decide
  all_goals
    dsimp only
    omega

theorem regDesc_moduleTime_ne_none : regDesc rModuleTime.key ≠ none := by decide

/-- A place without a register reads 0: it is neither MODULE_TIME, nor an SP_LOCK, nor in EVR_WINDOW, whose reads show no register. -/
theorem readReg_of_regDesc_none (hd : regDesc k = none) (h8 : k.off % 8 = 0) : readReg s ag k .w64 = (s, 0) := by
  have htime : k ≠ rModuleTime.key := fun hk => regDesc_moduleTime_ne_none (hk ▸ hd)
  have hlock : ¬(k.blk = .engC ∧ k.off < 0x200 ∧ k = (rSpLock k.i k.n (k.off / 0x80)).key) := by
    rintro ⟨-, hlt, hk⟩
    have hne := regDesc_spLock_ne_none (e := k.i) (n := k.n) (i := k.off / 0x80) (by omega)
    rw [← hk] at hne
    exact hne hd
  have hevr : ¬(k.blk = .rel ∧ 0x1000 ≤ k.off ∧ k.off < 0x2000) := fun ⟨hb, hlo, hhi⟩ =>
    regDesc_evrWindow_ne_none hb hlo hhi h8 hd
  simp only [readReg, htime, hlock, hevr, hd, if_false]

/-! ### Places of the MMIO window -/

/-- A register that a place of the window names lies at a multiple of 8 bytes in its block. -/
def AlignedTarget (t : MmioTarget) : Prop := ∀ k, t = .reg k → k.off % 8 = 0

theorem alignedTarget_reg {k : RegKey} (h : k.off % 8 = 0) : AlignedTarget (.reg k) := by
  rintro _ ⟨⟩
  exact h

theorem alignedTarget_ite {c : Prop} [Decidable c] {x y : MmioTarget} (hx : c → AlignedTarget x) (hy : ¬c → AlignedTarget y) :
    AlignedTarget (if c then x else y) := by
  split
  · exact hx ‹c›
  · exact hy ‹¬c›

theorem mmioTarget_aligned {o : Nat} (h8 : o % 8 = 0) : AlignedTarget (mmioTarget o) := by
  unfold mmioTarget
  dsimp only
  repeat' refine alignedTarget_ite (fun _ => ?_) (fun _ => ?_)
  any_goals
    refine alignedTarget_reg ?_
    dsimp only
    omega
  · split <;> rintro _ ⟨⟩
  all_goals rintro _ ⟨⟩

/-! ### Registers without behaviour of their own -/

@[simp] theorem regAt_key : (regAt k).key = k := by
  unfold regAt
  split
  · next hr => simpa using List.find?_some hr
  · rfl

theorem writeReg_eq_writePlain (hb : k.blk = .coll ∨ k.blk = .plalia) : writeReg s ag k d .w64 val = writePlain s k d .w64 val := by
  rcases hb with hb | hb <;> simp [writeReg, hb]

theorem writePlain_sameRegsBut : SameRegsBut [k] s (writePlain s k d acc val) := by
  intro r hr
  refine getR_setR_ne _ _ _ _ ?_
  rw [regAt_key]
  exact fun e => hr (e ▸ List.mem_singleton_self _)

theorem writePlain_sameUnits : SameUnits s (writePlain s k d acc val) :=
  ⟨rfl, rfl, rfl, rfl, rfl, rfl, rfl, rfl, rfl, rfl, rfl⟩

theorem getR_writePlain_w64 : getR (writePlain s k d .w64 val) (regAt k) =
    (((getR s (regAt k) &&& ~~~accMask d (fun a => decide (a = .rw))) ||| (val &&& accMask d (fun a => decide (a = .rw)))) &&&
      ~~~(val &&& accMask d (fun a => decide (a = .w1c)))) ||| (val &&& accMask d (fun a => decide (a = .w1s))) := by
  have hall : ∀ m : Word, m &&& accessBits .w64 = m := fun _ => BitVec.and_allOnes
  simp only [writePlain, getR_setR_same, writeCodes, hall]

end

/-! ### The statement -/

/-- Settles O31: the target that an aligned offset names decides what the write does. -/
theorem plainRegistersTakeTheirWritableBits : Obligations.PlainRegistersTakeTheirWritableBits := by
  refine ⟨?_, ?_, ?_, ?_, ?_, ?_, ?_, ?_⟩
  · exact fun s ag off acc val => registerWrite_misaligned
  · intro s ag off acc val h8 ht
    rw [registerWrite_of_not_guest h8 (by simp [ht]), mmioWrite_outside ht]
    rfl
  · intro s ag off k val h8 ht
    rw [registerWrite_of_not_guest h8 (by simp [ht]), mmioWrite_reg_bad ht]
    rfl
  · intro s ag off k val h8 ht hr hd
    rw [registerWrite_of_not_guest h8 (by simp [ht]), mmioWrite_reg_none ht (by simp) hr hd,
      readReg_of_regDesc_none hd (mmioTarget_aligned h8 k ht)]
    exact ⟨rfl, rfl⟩
  · intro s ag off k d acc val h8 ht ha hr hd
    rw [registerWrite_of_not_guest h8 (by simp [ht]), mmioWrite_reg_some ht ha hr hd]
    rfl
  · intro s ag off k d val h8 ht hr hd hb
    refine ⟨writePlain s k d .w64 val, ?_, writePlain_sameRegsBut, writePlain_sameUnits, getR_writePlain_w64⟩
    rw [registerWrite_of_not_guest h8 (by simp [ht]), mmioWrite_reg_some ht (by simp) hr hd, writeReg_eq_writePlain hb]
    rfl
  · intro s ag off c f o acc val h8 ht ha
    rw [registerWrite_of_not_guest h8 (by simp [ht]), mmioWrite_imsic ht ha]
    rfl
  · intro s ag off o val h8 ht
    exact ⟨registerWrite_guest h8 ht, registerWrite_guest h8 ht, registerWrite_guest h8 ht⟩

/-! ### Reset and the idle step -/

theorem reset_sound : Sound State.reset := ⟨rfl, trivial⟩

/-- An empty queue lets one nanosecond pass. -/
theorem step_of_pending_nil {s : State} (h : s.pending = []) : step s = .next (tick s) := by
  simp [step, h]

/-- Settles O3: reset's values are the tables' own, and `tick` changes the time alone. -/
theorem resetIsSoundAndTheIdleBlockPassesTime : Obligations.ResetIsSoundAndTheIdleBlockPassesTime := by
  refine ⟨⟨reset_sound, rfl, rfl, rfl⟩, ?_, ?_⟩
  · decide
  · intro s h
    exact ⟨tick s, step_of_pending_nil h, rfl, h, rfl, rfl, rfl, rfl⟩

end Sys2Proof.Machine
end

section
namespace Sys2Proof.Machine
open Sys2Proof

/-! PROOFS. MATMUL, MATMUL_ACC, ELEMWISE and VECOP start, continue and end (O12).

A due command has passed the checks that its row makes, so `runCmd` is `applyAct` of its body (`CmdDue.runCmd_eq`). The mark of its start
changes nothing that the body asks about (`StartMarked`), and the body itself is a chain of checks before one beginning of a run
(`mmStart_eq`, `mmBegun`). -/

variable {s s0 s2 : State} {u : SpoolId} {c c0 c2 : Cmd}

/-! ### A command that is due -/

/-- What the mark of a start leaves as it was. -/
structure StartMarked (s s0 : State) (c c0 : Cmd) : Prop where
  regs : s0.regs = s.regs
  hub : s0.hub = s.hub
  mem : s0.mem = s.mem
  poison : s0.poison = s.poison
  spools : s0.eng.spools = s.eng.spools
  runs : ∀ e, (engAux s0 e).runs = (engAux s e).runs
  accs : ∀ e, (engAux s0 e).accs = (engAux s e).accs
  slot : c0.slot = c.slot
  bytes : c0.bytes = c.bytes
  poisonLater : c0.poisonLater = c.poisonLater

theorem engAux_setEngAux {e f : Nat} {x : EngAux} : engAux (setEngAux s e x) f = if e = f then x else engAux s f :=
  mapGet_mapSet _ _ _ _ _

theorem markStart_marked (h : markStart s u c = (s0, c0)) : StartMarked s s0 c c0 := by
  unfold markStart at h
  split at h
  · obtain ⟨rfl, rfl⟩ := Prod.mk.inj h
    refine ⟨rfl, rfl, rfl, rfl, rfl, fun e => ?_, fun e => ?_, rfl, rfl, rfl⟩
    all_goals
      rw [engAux_setEngAux]
      split
      · next he => rw [← he]
      · rfl
  · obtain ⟨rfl, rfl⟩ := Prod.mk.inj h
    exact ⟨rfl, rfl, rfl, rfl, rfl, fun _ => rfl, fun _ => rfl, rfl, rfl, rfl⟩

variable {sel : Bytes → Bool} {bad : State → Cmd → Bool} {bobs : Bytes → List Nat} {body : State → Cmd → State × Cmd × Act}

theorem CmdDue.marked (h : CmdDue sel bad bobs s u c s0 c0) : StartMarked s s0 c c0 := markStart_marked h.2.1

/-- A command that is due passes every check of its start: its body decides. -/
theorem CmdDue.runCmd_eq (h : CmdDue sel bad bobs s u c s0 c0) :
    runCmd s u sel bad bobs body = applyAct s (body s0 c0).1 u (body s0 c0).2.1 (body s0 c0).2.2 := by
  have hm := h.marked
  obtain ⟨hp, hmark, hsel, hlater, hhead, hbad, hbobs⟩ := h
  simp [runCmd, hp, hmark, hsel, hm.bytes, hm.poisonLater, hlater, hhead, hbad, hbobs]

theorem CmdDue.waits (h : CmdDue sel bad bobs s u c s0 c0) (hb : body s0 c0 = (s2, c2, .waits)) : runCmd s u sel bad bobs body = s := by
  rw [h.runCmd_eq, hb]
  rfl

theorem CmdDue.ends {st d : Nat} (h : CmdDue sel bad bobs s u c s0 c0) (hb : body s0 c0 = (s2, c2, .ends st d)) :
    runCmd s u sel bad bobs body = finishes s2 u c2 st d := by
  rw [h.runCmd_eq, hb]
  rfl

theorem CmdDue.runs (h : CmdDue sel bad bobs s u c s0 c0) (hb : body s0 c0 = (s2, c2, .runs)) :
    runCmd s u sel bad bobs body = goesOn s2 u c2 := by
  rw [h.runCmd_eq, hb]
  rfl

/-! ### The sets of a start -/

/-- A running command of the context is about to release the set that the command would continue (log 126). -/
def setReleasing (s : State) (u : SpoolId) (x : Mm) : Bool := (setRuns s u.e u.n x.id).any (fun y => (mmOf y.2.bytes).drain)

/-- The command continues a held set: a MATMUL_ACC with LOAD = 0 (R98). -/
def continues (acc : Bool) (x : Mm) : Bool := acc && !x.load

/-- The held set, or the room for a new one, is not what the command needs (R98). -/
def setRefused (acc : Bool) (s : State) (u : SpoolId) (x : Mm) : Bool :=
  let held := accSet s u.e u.n x.id
  (!acc && held.isSome) || (acc && x.load && !x.drain && held.isSome) || (continues acc x && held.isNone) ||
    (!continues acc x && noRoom s u.e x (continues acc x || !x.drain))

/-! ### What the mark of a start does not decide -/

namespace StartMarked
variable (h : StartMarked s s0 c c0)
include h

theorem getF_eq {r : Reg} {f : Fd} : getF s0 r f = getF s r f := by
  simp only [getF, getR, h.regs]

theorem bobState_eq {e b : Nat} : bobState s0 e b = bobState s e b := h.getF_eq

theorem insReady_eq {bs : List Nat} : insReady s0 u bs = insReady s u bs := by
  simp only [insReady, h.bobState_eq]

theorem runOf_eq {k : Nat} : runOf s0 u k = runOf s u k := by
  simp only [runOf, h.runs]

theorem accSet_eq {e n id : Nat} : accSet s0 e n id = accSet s e n id := by
  simp only [accSet, h.accs]

theorem setRuns_eq {e n id : Nat} : setRuns s0 e n id = setRuns s e n id := by
  simp only [setRuns, h.runs, spoolCmd, spool, h.spools]

theorem arrState_eq {e pa : Nat} : arrState s0 e pa = arrState s e pa := h.getF_eq

theorem arrPos_eq {e pa : Nat} : arrPos s0 e pa = arrPos s e pa := h.getF_eq

theorem arrActive_eq {e pa : Nat} : arrActive s0 e pa = arrActive s e pa := by
  simp only [arrActive, h.arrState_eq]

theorem serves_eq {e pos : Nat} : serves s0 e pos = serves s e pos := by
  have harr : arrayAt s0 e = arrayAt s e := by
    funext p
    simp only [arrayAt, h.arrActive_eq, h.arrPos_eq]
  simp only [serves, harr]

theorem placedRows_eq {e pa : Nat} {x : Mm} : placedRows s0 e x pa = placedRows s e x pa := by
  simp only [placedRows, h.serves_eq]

theorem heldRows_eq {e pa : Nat} : heldRows s0 e pa = heldRows s e pa := by
  simp only [heldRows, h.serves_eq, h.accs]

theorem noRoom_eq {e : Nat} {x : Mm} {fixed : Bool} : noRoom s0 e x fixed = noRoom s e x fixed := by
  simp only [noRoom, h.placedRows_eq, h.heldRows_eq, h.arrActive_eq]

theorem setReleasing_eq {x : Mm} : setReleasing s0 u x = setReleasing s u x := by
  simp only [setReleasing, h.setRuns_eq]

theorem setRefused_eq {acc : Bool} {x : Mm} : setRefused acc s0 u x = setRefused acc s u x := by
  simp only [setRefused, h.accSet_eq, h.noRoom_eq]

end StartMarked

theorem startOr_of_runOf_none {f} (h : runOf s u c.slot = none) : startOr f u s c = f u s c := by
  simp [startOr, h]

/-! ### A command's run begins -/

/-- A run none of whose tiles has been on an array. -/
def newRun (u : SpoolId) (slot tiles : Nat) (init : Option (List (List (BitVec 32)))) (fixed pois : Bool) : MatRun :=
  { u := u, slot := slot, todo := List.range tiles, tiles := [], done := [], init := init, fixed := fixed, unres := false, pois := pois }

def addRun (s : State) (r : MatRun) : State := setEngAux s r.u.e { engAux s r.u.e with runs := (engAux s r.u.e).runs ++ [r] }

/-- The set under its new holder: the one held, or one without tiles. -/
def setUnder (held : Option AccSet) (u : SpoolId) (slot : Nat) (x : Mm) : AccSet := match held with
  | some a => { a with u := u, slot := slot }
  | none => newSet u slot x

/-- A MATMUL or MATMUL_ACC with its run begun: with `fixed` its accumulators are a set it holds. -/
def mmBegun (s : State) (u : SpoolId) (c : Cmd) (fixed : Bool) (init : Option (List (List (BitVec 32)))) (pois : Bool) (held : Option AccSet) :
    State :=
  let s := addRun s (newRun u c.slot (tileCount (mmOf c.bytes)) init fixed pois)
  if fixed then putSet s u.e (setUnder held u c.slot (mmOf c.bytes)) else s

/-- The command while its run goes on. -/
def mmCmd (c : Cmd) : Cmd :=
  let x := mmOf c.bytes
  { c with reads := (mmBobs c.bytes).dedup
           outBase := x.out
           outLen := if x.drain then ((drainFmt x.fo).map (fun f => outBytes f x.skew x.m x.n x.t x.pitch)).getD 0 else 0 }

/-- The set has another shape than the command. -/
def otherShape (a : AccSet) (x : Mm) : Bool := decide (a.m ≠ x.m) || decide (a.cols ≠ x.n) || decide (a.aRows ≠ x.t)

/-- LOAD's range is touched and its poison consumed (R98, R215). -/
def loadRead (s : State) (u : SpoolId) (c : Cmd) (ps : List Piece) (pois : Bool) : State :=
  if pois then cmdPoison (piecesTouch s ps) u c.step (firstPoison (piecesTouch s ps) ps) else piecesTouch s ps

/-- A row of LOAD's range is poisoned. -/
def loadPoisoned (s : State) (ps : List Piece) (x : Mm) : Bool :=
  (List.range x.m).any (fun r => (vaSrc (piecesTouch s ps) ps).poisoned (r * x.pitch) (4 * x.n))

/-- The start of a command that nothing refuses. -/
def mmGo (acc : Bool) (u : SpoolId) (s : State) (c : Cmd) : State × Cmd × Act :=
  let x := mmOf c.bytes
  let held := accSet s u.e u.n x.id
  let fixed := continues acc x || !x.drain
  if acc && x.load then
    match reach s (engReq s u 4 false true) x.out ((x.m - 1) * x.pitch + 4 * x.n) with
    | (s, .error a) => (s, c, a)
    | (s, .ok ps) =>
      (mmBegun (loadRead s u c ps (loadPoisoned s ps x)) u c fixed (some (readInit (vaSrc (piecesTouch s ps) ps) x.m x.n x.pitch))
        (loadPoisoned s ps x) held, mmCmd c, .runs)
  else (mmBegun s u c fixed none false held, mmCmd c, .runs)

/-- The checks of a start in their order. -/
theorem mmStart_eq {acc : Bool} : mmStart acc u s c =
    if ¬insReady s u (mmBobs c.bytes) ∨ (continues acc (mmOf c.bytes) = true ∧ setReleasing s u (mmOf c.bytes) = true) then (s, c, .waits)
    else if setRefused acc s u (mmOf c.bytes) then (s, c, .ends stResource 0)
    else if continues acc (mmOf c.bytes) && (accSet s u.e u.n (mmOf c.bytes).id).any (fun a => otherShape a (mmOf c.bytes)) then
      (s, c, .ends stFormat 0)
    else mmGo acc u s c := by
  unfold mmStart mmGo setRefused continues
  dsimp only
  generalize accSet s u.e u.n (mmOf c.bytes).id = held
  generalize (acc && !(mmOf c.bytes).load || !(mmOf c.bytes).drain) = fixed
  cases held <;> cases fixed <;> rfl

section
variable {acc : Bool}

theorem mmStart_waits (h : insReady s u (mmBobs c.bytes) = false ∨ (continues acc (mmOf c.bytes) = true ∧ setReleasing s u (mmOf c.bytes) = true)) :
    mmStart acc u s c = (s, c, .waits) := by
  rw [mmStart_eq, if_pos (by simpa using h)]

variable (hins : insReady s u (mmBobs c.bytes) = true) (hrel : continues acc (mmOf c.bytes) = true → setReleasing s u (mmOf c.bytes) = false)
include hins hrel

theorem mmStart_refused (h : setRefused acc s u (mmOf c.bytes) = true) : mmStart acc u s c = (s, c, .ends stResource 0) := by
  rw [mmStart_eq, if_neg (by simpa [hins] using hrel), if_pos h]

variable (hset : setRefused acc s u (mmOf c.bytes) = false)
include hset

theorem mmStart_other_shape {a : AccSet} (hcont : continues acc (mmOf c.bytes) = true) (ha : accSet s u.e u.n (mmOf c.bytes).id = some a)
    (h : otherShape a (mmOf c.bytes) = true) : mmStart acc u s c = (s, c, .ends stFormat 0) := by
  rw [mmStart_eq, if_neg (by simpa [hins] using hrel), if_neg (by simp [hset]), if_pos (by simp [hcont, ha, h])]

theorem mmStart_goes
    (h : continues acc (mmOf c.bytes) = true → ∀ a, accSet s u.e u.n (mmOf c.bytes).id = some a → otherShape a (mmOf c.bytes) = false) :
    mmStart acc u s c = mmGo acc u s c := by
  rw [mmStart_eq, if_neg (by simpa [hins] using hrel), if_neg (by simp [hset]), if_neg]
  simpa [Option.any_eq_true] using h

end

/-! ### What the beginning of a run changes -/

section
variable {fixed pois : Bool} {init : Option (List (List (BitVec 32)))} {held : Option AccSet} {e : Nat} {a : AccSet} {r : MatRun}

theorem addRun_runs : (engAux (addRun s r) r.u.e).runs = (engAux s r.u.e).runs ++ [r] := by
  rw [addRun, engAux_setEngAux, if_pos rfl]

theorem addRun_accs : (engAux (addRun s r) r.u.e).accs = (engAux s r.u.e).accs := by
  rw [addRun, engAux_setEngAux, if_pos rfl]

theorem engAux_putSet : engAux (putSet s e a) e =
    { engAux s e with accs := (engAux s e).accs.filter (fun x => !(decide (x.n = a.n) && decide (x.id = a.id))) ++ [a] } := by
  change engAux (setEngAux s e _) e = _
  rw [engAux_setEngAux, if_pos rfl]

/-- A command's ACC_ID is one of 16. -/
theorem mmOf_id_lt {b : Bytes} : (mmOf b).id < 16 := by
  change natField _ 23 20 < 16
  exact Nat.mod_lt _ (by decide)

/-- A set registered shows in CTX_ACC_HELD (R98). -/
theorem getF_putSet_held (h : a.id < 16) : getF (putSet s e a) (rCtxAccHeld e a.n) ⟨a.id, a.id⟩ = 1 := by
  refine (getF_setF_same _ _ _ _ ?_).trans ?_
  · simp only [Fd.ok, le_refl, decide_true, Bool.true_and, decide_eq_true_eq]
    omega
  · simp [Fd.width]

theorem mmBegun_runs : (engAux (mmBegun s u c fixed init pois held) u.e).runs =
    (engAux s u.e).runs ++ [newRun u c.slot (tileCount (mmOf c.bytes)) init fixed pois] := by
  cases fixed
  · exact addRun_runs
  · change (engAux (putSet _ _ _) u.e).runs = _
    rw [engAux_putSet]
    exact addRun_runs

theorem mmBegun_accs_free : (engAux (mmBegun s u c false init pois held) u.e).accs = (engAux s u.e).accs := addRun_accs

theorem mmBegun_accs_held : (engAux (mmBegun s u c true init pois held) u.e).accs =
    (engAux s u.e).accs.filter
        (fun x => !(decide (x.n = (setUnder held u c.slot (mmOf c.bytes)).n) && decide (x.id = (setUnder held u c.slot (mmOf c.bytes)).id))) ++
      [setUnder held u c.slot (mmOf c.bytes)] := by
  have hadd : (engAux (addRun s (newRun u c.slot (tileCount (mmOf c.bytes)) init true pois)) u.e).accs = (engAux s u.e).accs := addRun_accs
  rw [← hadd]
  exact congrArg EngAux.accs engAux_putSet

theorem mmBegun_accs_new (hnone : accSet s u.e u.n (mmOf c.bytes).id = none) :
    (engAux (mmBegun s u c true init pois none) u.e).accs = (engAux s u.e).accs ++ [newSet u c.slot (mmOf c.bytes)] := by
  have hfilter : (engAux s u.e).accs.filter (fun x => !(decide (x.n = u.n.val) && decide (x.id = (mmOf c.bytes).id))) = (engAux s u.e).accs := by
    rw [List.filter_eq_self]
    intro x hx
    simpa [or_iff_not_imp_left] using List.find?_eq_none.1 hnone x hx
  rw [mmBegun_accs_held]
  exact congrArg (· ++ _) hfilter

theorem setOf_mem_mmBegun : setUnder held u c.slot (mmOf c.bytes) ∈ (engAux (mmBegun s u c true init pois held) u.e).accs := by
  rw [mmBegun_accs_held]
  exact List.mem_append_right _ (List.mem_singleton_self _)

/-- A MATMUL's new set shows in CTX_ACC_HELD. -/
theorem getF_mmBegun_held {x : Mm} (hx : mmOf c.bytes = x) :
    getF (mmBegun s u c true init pois none) (rCtxAccHeld u.e u.n) ⟨x.id, x.id⟩ = 1 := by
  subst hx
  exact getF_putSet_held (a := setUnder none u c.slot (mmOf c.bytes)) mmOf_id_lt

theorem mmBegun_hub : (mmBegun s u c fixed init pois held).hub = s.hub := by cases fixed <;> rfl
theorem mmBegun_mem : (mmBegun s u c fixed init pois held).mem = s.mem := by cases fixed <;> rfl
theorem mmBegun_poison : (mmBegun s u c fixed init pois held).poison = s.poison := by cases fixed <;> rfl

end

theorem sameMemory_of_eq {t : State} (hm : t.mem = s.mem) (hp : t.poison = s.poison) : SameMemory s t :=
  ⟨fun a => by rw [byteAt, byteAt, hm], hp⟩

/-- A command that waits for no access leaves the hub as it is when it goes on. -/
theorem goesOn_of_noWait (h : NoWait s u c.slot) : goesOn s u c = putCmd s u { c with first := none } := by
  rw [goesOn, tierDone_idle s u c.slot h]

/-- A spool's record shows in SQ_HEAD and SP_STATUS alone: the registers above them stay. -/
theorem getF_putCmd_above {r : Reg} {f : Fd} (h : 0x200 ≤ r.key.off) : getF (putCmd s u c) r f = getF s r f := by
  have hstatus : (rSpStatus u.e u.n u.s).key ≠ r.key := by
    intro hk
    have hoff := congrArg RegKey.off hk
    dsimp only [rSpStatus] at hoff
    omega
  have hhead : (rSqHead u.e u.n u.s).key ≠ r.key := by
    intro hk
    have hoff := congrArg RegKey.off hk
    dsimp only [rSqHead] at hoff
    omega
  refine (getF_setF_ne _ _ _ _ _ _ hstatus).trans ?_
  rw [getF, getR_setR_ne _ _ _ _ hhead]
  rfl

/-- A command that begins a run goes on without a change of the hub. -/
theorem goesOn_mmBegun {fixed pois : Bool} {init : Option (List (List (BitVec 32)))} {held : Option AccSet} (hm : StartMarked s s0 c c0)
    (hw : NoWait s u c.slot) : goesOn (mmBegun s0 u c0 fixed init pois held) u (mmCmd c0) =
      putCmd (mmBegun s0 u c0 fixed init pois held) u { mmCmd c0 with first := none } := by
  refine goesOn_of_noWait ?_
  change NoWait _ u c0.slot
  rw [NoWait, mmBegun_hub, hm.hub, hm.slot]
  exact hw

/-- Only its run, its set and its own record change where a command begins its run. -/
theorem putCmd_mmBegun_sameMemory {fixed pois : Bool} {init : Option (List (List (BitVec 32)))} {held : Option AccSet} (hm : StartMarked s s0 c c0) :
    SameMemory s (putCmd (mmBegun s0 u c0 fixed init pois held) u c2) :=
  sameMemory_of_eq (mmBegun_mem.trans hm.mem) (mmBegun_poison.trans hm.poison)

theorem mmBegun_lists_run {fixed pois : Bool} {init : Option (List (List (BitVec 32)))} {held : Option AccSet} (hm : StartMarked s s0 c c0) :
    (engAux (putCmd (mmBegun s0 u c0 fixed init pois held) u c2) u.e).runs =
      (engAux s u.e).runs ++ [newRun u c.slot (tileCount (mmOf c.bytes)) init fixed pois] := by
  change (engAux (mmBegun s0 u c0 fixed init pois held) u.e).runs = _
  rw [mmBegun_runs, hm.runs, hm.slot, hm.bytes]

/-! ### The rows of MATMUL and MATMUL_ACC -/

theorem CmdDue.startOr_eq {f : SpoolId → State → Cmd → State × Cmd × Act} (h : CmdDue sel bad bobs s u c s0 c0) (hrun : runOf s u c.slot = none) :
    startOr f u s0 c0 = f u s0 c0 := by
  refine startOr_of_runOf_none ?_
  rw [h.marked.slot, h.marked.runOf_eq, hrun]

theorem setRefused_matmul {x : Mm} : setRefused false s u x = ((accSet s u.e u.n x.id).isSome || noRoom s u.e x (!x.drain)) := by
  simp [setRefused, continues]

theorem setRefused_continue {x : Mm} (hload : x.load = false) : setRefused true s u x = (accSet s u.e u.n x.id).isNone := by
  simp [setRefused, continues, hload]

theorem setRefused_load {x : Mm} (hload : x.load = true) :
    setRefused true s u x = ((!x.drain && (accSet s u.e u.n x.id).isSome) || noRoom s u.e x (!x.drain)) := by
  simp [setRefused, continues, hload]

section
variable {acc : Bool} (h : CmdDue sel bad mmBobs s u c s0 c0) (hrun : runOf s u c.slot = none)
include h hrun

theorem mm_waits (hw : insReady s u (mmBobs c.bytes) = false ∨ (continues acc (mmOf c.bytes) = true ∧ setReleasing s u (mmOf c.bytes) = true)) :
    runCmd s u sel bad mmBobs (startOr (mmStart acc) u) = s := by
  refine h.waits (s2 := s0) (c2 := c0) ?_
  rw [h.startOr_eq hrun, mmStart_waits]
  rwa [h.marked.bytes, h.marked.insReady_eq, h.marked.setReleasing_eq]

variable (hins : insReady s u (mmBobs c.bytes) = true) (hrel : continues acc (mmOf c.bytes) = true → setReleasing s u (mmOf c.bytes) = false)
include hins hrel

theorem mm_refused (hset : setRefused acc s u (mmOf c.bytes) = true) :
    runCmd s u sel bad mmBobs (startOr (mmStart acc) u) = finishes s0 u c0 stResource 0 := by
  have hm := h.marked
  refine h.ends ?_
  rw [h.startOr_eq hrun, mmStart_refused]
  · rwa [hm.bytes, hm.insReady_eq]
  · rwa [hm.bytes, hm.setReleasing_eq]
  · rwa [hm.bytes, hm.setRefused_eq]

variable (hset : setRefused acc s u (mmOf c.bytes) = false)
include hset

theorem mm_other_shape {a : AccSet} (hcont : continues acc (mmOf c.bytes) = true) (ha : accSet s u.e u.n (mmOf c.bytes).id = some a)
    (hshape : otherShape a (mmOf c.bytes) = true) :
    runCmd s u sel bad mmBobs (startOr (mmStart acc) u) = finishes s0 u c0 stFormat 0 := by
  have hm := h.marked
  refine h.ends ?_
  rw [h.startOr_eq hrun, mmStart_other_shape (a := a)]
  · rwa [hm.bytes, hm.insReady_eq]
  · rwa [hm.bytes, hm.setReleasing_eq]
  · rwa [hm.bytes, hm.setRefused_eq]
  · rwa [hm.bytes]
  · rwa [hm.bytes, hm.accSet_eq]
  · rwa [hm.bytes]

/-- A command that nothing refuses goes on as `mmGo` says. -/
theorem mm_goesOn
    (hshape : continues acc (mmOf c.bytes) = true → ∀ a, accSet s u.e u.n (mmOf c.bytes).id = some a → otherShape a (mmOf c.bytes) = false)
    (hgo : mmGo acc u s0 c0 = (s2, c2, .runs)) : runCmd s u sel bad mmBobs (startOr (mmStart acc) u) = goesOn s2 u c2 := by
  have hm := h.marked
  refine h.runs ?_
  rw [h.startOr_eq hrun, mmStart_goes, hgo]
  · rwa [hm.bytes, hm.insReady_eq]
  · rwa [hm.bytes, hm.setReleasing_eq]
  · rwa [hm.bytes, hm.setRefused_eq]
  · rwa [hm.bytes, hm.accSet_eq]

end

/-! ### What goes on -/

theorem mmGo_matmul (hm : StartMarked s s0 c c0) :
    mmGo false u s0 c0 = (mmBegun s0 u c0 (!(mmOf c.bytes).drain) none false (accSet s u.e u.n (mmOf c.bytes).id), mmCmd c0, .runs) := by
  simp [mmGo, continues, hm.accSet_eq, hm.bytes]

theorem mmGo_continue (hm : StartMarked s s0 c c0) (hload : (mmOf c.bytes).load = false) :
    mmGo true u s0 c0 = (mmBegun s0 u c0 true none false (accSet s u.e u.n (mmOf c.bytes).id), mmCmd c0, .runs) := by
  simp [mmGo, continues, hm.accSet_eq, hm.bytes, hload]

theorem mmGo_load {ps : List Piece} {x : Mm} (hm : StartMarked s s0 c c0) (hx : x = mmOf c.bytes) (hload : x.load = true)
    (hreach : reach s0 (engReq s0 u 4 false true) x.out ((x.m - 1) * x.pitch + 4 * x.n) = (s2, .ok ps)) :
    mmGo true u s0 c0 = (mmBegun (loadRead s2 u c0 ps (loadPoisoned s2 ps x)) u c0 (!x.drain)
      (some (readInit (vaSrc (piecesTouch s2 ps) ps) x.m x.n x.pitch)) (loadPoisoned s2 ps x) (accSet s u.e u.n x.id), mmCmd c0, .runs) := by
  simp [mmGo, continues, hm.accSet_eq, hm.bytes, ← hx, hload, hreach]

theorem mmCmd_reads : (mmCmd c).reads = (mmBobs c.bytes).dedup := rfl

theorem otherShape_eq_true {a : AccSet} {x : Mm} : otherShape a x = true ↔ a.m ≠ x.m ∨ a.cols ≠ x.n ∨ a.aRows ≠ x.t := by
  simp [otherShape, or_assoc]

theorem otherShape_eq_false {a : AccSet} {x : Mm} (hm : a.m = x.m) (hn : a.cols = x.n) (ht : a.aRows = x.t) : otherShape a x = false := by
  simp [otherShape, hm, hn, ht]

theorem continues_matmulAcc {x : Mm} : continues true x = !x.load := rfl

/-! ### ELEMWISE and VECOP -/

/-- The command of an ELEMWISE while its run goes on. -/
def ewCmd (c : Cmd) : Cmd :=
  let x := ewOf c.bytes
  { c with reads := (ewBobs x).dedup
           outBase := x.out
           outLen := ((drainFmt x.fo).map (fun f => f.planes 1 x.count (f.rowBytes x.count))).getD 0 }

theorem ewStart_waits (hins : insReady s u (ewBobs (ewOf c.bytes)) = false) : ewStart u s c = (s, c, .waits) := by
  simp [ewStart, hins]

theorem ewStart_begins (hins : insReady s u (ewBobs (ewOf c.bytes)) = true) :
    ewStart u s c = (addRun s (newRun u c.slot (cdiv (ewOf c.bytes).count 16384) none false false), ewCmd c, .runs) := by
  simp only [ewStart, hins, not_true, if_false]
  rfl

theorem voBody_waits (h : insReady s u (voOf c.bytes).ins = false ∨ (voOf c.bytes).fillsOf.all (fun b => outReady s u c.slot b) = false) :
    voBody u s c = (s, c, .waits) := by
  rw [voBody, if_pos]
  simpa only [Bool.not_eq_true] using h

theorem voBody_works {v : Vo} {fx fy fo : Fmt} {q : VoSrc} {p : Option Nat} (hv : v = voOf c.bytes) (hx : drainFmt v.fx = some fx)
    (hy : drainFmt v.fy = some fy) (ho : drainFmt v.fo = some fo) (hins : insReady s u v.ins = true)
    (houts : v.fillsOf.all (fun b => outReady s u c.slot b) = true) (hq : q = voSources v fx fy s u) (hp : p = voConsumes v fx fy fo s u q) :
    voBody u s c = (voWork v fx fy fo (voTake v s u c p) u c q, voCmd v c, .ends (if p.isSome then stPoison else stOk) 0) := by
  subst hv hq hp
  simp only [voBody, hins, houts, hx, hy, ho, not_true, or_self, if_false]

/-! ### The outcomes of each row -/

/-- MATMUL starts (R97, R98): with DRAIN = 0 its set is registered and held. -/
theorem matmul_starts (h : CmdDue (isOp 0x10) (mmBad u) mmBobs s u c s0 c0) (hw : NoWait s u c.slot) (hrun : runOf s u c.slot = none)
    (hnone : accSet s u.e u.n (mmOf c.bytes).id = none) (hins : insReady s u (mmBobs c.bytes) = true)
    (hroom : noRoom s u.e (mmOf c.bytes) (!(mmOf c.bytes).drain) = false) :
    ∃ t s2 c2, exec (.matmul u) s = .next t ∧ t = goesOn s2 u c2 ∧ c2.slot = c.slot ∧ c2.reads = (mmBobs c.bytes).dedup ∧
      (∃ r, (engAux t u.e).runs = (engAux s u.e).runs ++ [r] ∧ r.u = u ∧ r.slot = c.slot ∧ r.todo = List.range (tileCount (mmOf c.bytes)) ∧
        r.init = none ∧ r.done = [] ∧ r.fixed = !(mmOf c.bytes).drain) ∧
      ((mmOf c.bytes).drain = true → (engAux t u.e).accs = (engAux s u.e).accs) ∧
      ((mmOf c.bytes).drain = false → (engAux t u.e).accs = (engAux s u.e).accs ++ [newSet u c.slot (mmOf c.bytes)] ∧
        getF t (rCtxAccHeld u.e u.n) ⟨(mmOf c.bytes).id, (mmOf c.bytes).id⟩ = 1) ∧ SameMemory s t := by
  have hm := h.marked
  have hgo := mm_goesOn (acc := false) h hrun hins nofun (by simp [setRefused_matmul, hnone, hroom]) nofun (mmGo_matmul hm)
  rw [hnone, goesOn_mmBegun hm hw] at hgo
  refine ⟨_, mmBegun s0 u c0 (!(mmOf c.bytes).drain) none false none, mmCmd c0, congrArg Host.Outcome.next hgo, (goesOn_mmBegun hm hw).symm,
    hm.slot, by rw [mmCmd_reads, hm.bytes], ⟨_, mmBegun_lists_run hm, rfl, rfl, rfl, rfl, rfl, rfl⟩, ?_, ?_, putCmd_mmBegun_sameMemory hm⟩
  · intro hdrain
    rw [hdrain]
    exact (mmBegun_accs_free (held := none)).trans (hm.accs _)
  · intro hdrain
    rw [hdrain]
    refine ⟨(mmBegun_accs_new (by rwa [hm.accSet_eq, hm.bytes])).trans ?_, ?_⟩
    · rw [hm.accs, hm.slot, hm.bytes]
    · exact (getF_putCmd_above (by simp [rCtxAccHeld])).trans (getF_mmBegun_held (congrArg mmOf hm.bytes))

/-- MATMUL_ACC with LOAD = 0 takes up the held set of its shape (R98). -/
theorem matmulAcc_takes_up {a : AccSet} (h : CmdDue (isOp 0x11) (mmBad u) mmBobs s u c s0 c0) (hw : NoWait s u c.slot)
    (hrun : runOf s u c.slot = none) (hload : (mmOf c.bytes).load = false) (hheld : accSet s u.e u.n (mmOf c.bytes).id = some a)
    (ham : a.m = (mmOf c.bytes).m) (han : a.cols = (mmOf c.bytes).n) (hat : a.aRows = (mmOf c.bytes).t)
    (hins : insReady s u (mmBobs c.bytes) = true) (hrel : setReleasing s u (mmOf c.bytes) = false) :
    ∃ t s2 c2, exec (.matmulAcc u) s = .next t ∧ t = goesOn s2 u c2 ∧ c2.slot = c.slot ∧ c2.reads = (mmBobs c.bytes).dedup ∧
      (∃ r, (engAux t u.e).runs = (engAux s u.e).runs ++ [r] ∧ r.u = u ∧ r.slot = c.slot ∧ r.todo = List.range (tileCount (mmOf c.bytes)) ∧
        r.init = none ∧ r.done = [] ∧ r.fixed = true) ∧
      { a with u := u, slot := c.slot } ∈ (engAux t u.e).accs ∧ SameMemory s t := by
  have hm := h.marked
  have hgo := mm_goesOn h hrun hins (fun _ => hrel) (by simp [setRefused_continue hload, hheld])
    (fun _ b hb => Option.some.inj (hheld.symm.trans hb) ▸ otherShape_eq_false ham han hat) (mmGo_continue hm hload)
  rw [hheld, goesOn_mmBegun hm hw] at hgo
  refine ⟨_, mmBegun s0 u c0 true none false (some a), mmCmd c0, congrArg Host.Outcome.next hgo, (goesOn_mmBegun hm hw).symm, hm.slot,
    by rw [mmCmd_reads, hm.bytes], ⟨_, mmBegun_lists_run hm, rfl, rfl, rfl, rfl, rfl, rfl⟩, ?_, putCmd_mmBegun_sameMemory hm⟩
  rw [← hm.slot]
  exact setOf_mem_mmBegun (held := some a)

/-- MATMUL_ACC with LOAD = 1 starts from the FP32 values of its output range (R98). -/
theorem matmulAcc_loads {s3 : State} {x : Mm} {ps : List Piece} {pois : Bool} (h : CmdDue (isOp 0x11) (mmBad u) mmBobs s u c s0 c0)
    (hrun : runOf s u c.slot = none) (hx : x = mmOf c.bytes) (hload : x.load = true)
    (hset : x.drain = true ∨ accSet s u.e u.n x.id = none) (hins : insReady s u (mmBobs c.bytes) = true)
    (hroom : noRoom s u.e x (!x.drain) = false)
    (hreach : reach s0 (engReq s0 u 4 false true) x.out ((x.m - 1) * x.pitch + 4 * x.n) = (s2, .ok ps))
    (hpois : pois = loadPoisoned s2 ps x) (hs3 : s3 = loadRead s2 u c0 ps pois) :
    ∃ s4 c2, exec (.matmulAcc u) s = .next (goesOn s4 u c2) ∧ c2.slot = c.slot ∧ c2.reads = (mmBobs c.bytes).dedup ∧
      (∃ r, (engAux s4 u.e).runs = (engAux s3 u.e).runs ++ [r] ∧ r.u = u ∧ r.slot = c.slot ∧ r.todo = List.range (tileCount x) ∧
        r.init = some (readInit (vaSrc (piecesTouch s2 ps) ps) x.m x.n x.pitch) ∧ r.done = [] ∧ r.fixed = !x.drain ∧ r.pois = pois) ∧
      (x.drain = false → ∃ a ∈ (engAux s4 u.e).accs, a.n = u.n.val ∧ a.id = x.id ∧ a.m = x.m ∧
        a.cols = x.n ∧ a.aRows = x.t ∧ a.u = u ∧ a.slot = c.slot) := by
  have hm := h.marked
  have hnone : x.drain = false → accSet s u.e u.n x.id = none := fun hdrain => hset.resolve_left (by simp [hdrain])
  have hok : setRefused true s u x = false := by
    rw [setRefused_load hload, hroom]
    cases hdrain : x.drain <;> simp [hnone, hdrain]
  have hcont : continues true (mmOf c.bytes) = false := by simp [continues_matmulAcc, ← hx, hload]
  have hgo := mm_goesOn h hrun hins (by simp [hcont]) (hx ▸ hok) (by simp [hcont]) (mmGo_load hm hx hload hreach)
  subst hpois hs3
  refine ⟨_, _, congrArg Host.Outcome.next hgo, hm.slot, by rw [mmCmd_reads, hm.bytes],
    ⟨_, mmBegun_runs, rfl, hm.slot, by rw [hm.bytes, hx]; rfl, rfl, rfl, rfl, rfl⟩, fun hdrain => ?_⟩
  rw [hnone hdrain, hdrain]
  refine ⟨_, setOf_mem_mmBegun, rfl, ?_⟩
  simp [setUnder, newSet, hm.bytes, hm.slot, hx]

/-- MATMUL_ACC ends with RESOURCE where no set is held, one is that may not be, or the accumulators find no room (R98). -/
theorem matmulAcc_refused (h : CmdDue (isOp 0x11) (mmBad u) mmBobs s u c s0 c0) (hrun : runOf s u c.slot = none)
    (hins : insReady s u (mmBobs c.bytes) = true)
    (hset : ((mmOf c.bytes).load = false ∧ accSet s u.e u.n (mmOf c.bytes).id = none ∧ setReleasing s u (mmOf c.bytes) = false) ∨
      ((mmOf c.bytes).load = true ∧ (((mmOf c.bytes).drain = false ∧ (accSet s u.e u.n (mmOf c.bytes).id).isSome = true) ∨
        noRoom s u.e (mmOf c.bytes) (!(mmOf c.bytes).drain) = true))) :
    exec (.matmulAcc u) s = .next (finishes s0 u c0 stResource 0) := by
  refine congrArg Host.Outcome.next (mm_refused h hrun hins ?_ ?_)
  · rcases hset with ⟨-, -, hrel⟩ | ⟨hload, -⟩
    · exact fun _ => hrel
    · simp [continues_matmulAcc, hload]
  · rcases hset with ⟨hload, hnone, -⟩ | ⟨hload, hset⟩
    · simp [setRefused_continue hload, hnone]
    · simpa [setRefused_load hload] using hset

/-- ELEMWISE starts over its tiles (R103). -/
theorem elemwise_starts (h : CmdDue (isOp 0x18) (ewBad u) (fun b => ewBobs (ewOf b)) s u c s0 c0) (hw : NoWait s u c.slot)
    (hrun : runOf s u c.slot = none) (hins : insReady s u (ewBobs (ewOf c.bytes)) = true) :
    ∃ t s2 c2, exec (.elemwise u) s = .next t ∧ t = goesOn s2 u c2 ∧ c2.slot = c.slot ∧ c2.reads = (ewBobs (ewOf c.bytes)).dedup ∧
      (∃ r, (engAux t u.e).runs = (engAux s u.e).runs ++ [r] ∧ r.u = u ∧ r.slot = c.slot ∧
        r.todo = List.range (cdiv (ewOf c.bytes).count 16384) ∧ r.done = []) ∧
      SameMemory s t := by
  have hm := h.marked
  have hbegin := ewStart_begins (s := s0) (u := u) (c := c0) (by rwa [hm.insReady_eq, hm.bytes])
  have hgo := goesOn_of_noWait (s := addRun s0 (newRun u c0.slot (cdiv (ewOf c0.bytes).count 16384) none false false)) (u := u) (c := ewCmd c0)
    (by rw [NoWait, show (ewCmd c0).slot = c.slot from hm.slot]; exact hm.hub ▸ hw)
  refine ⟨_, _, ewCmd c0, congrArg Host.Outcome.next ((h.runs ((h.startOr_eq hrun).trans hbegin)).trans hgo), hgo.symm, hm.slot, ?_, ?_,
    sameMemory_of_eq hm.mem hm.poison⟩
  · exact congrArg (fun b => (ewBobs (ewOf b)).dedup) hm.bytes
  · refine ⟨_, addRun_runs.trans (congrArg (· ++ _) (hm.runs _)), rfl, hm.slot, ?_, rfl⟩
    exact congrArg (fun b => List.range (cdiv (ewOf b).count 16384)) hm.bytes

theorem elemwise_not_ready (h : CmdDue (isOp 0x18) (ewBad u) (fun b => ewBobs (ewOf b)) s u c s0 c0) (hrun : runOf s u c.slot = none)
    (hins : insReady s u (ewBobs (ewOf c.bytes)) = false) : exec (.elemwise u) s = .next s := by
  have hm := h.marked
  refine congrArg Host.Outcome.next (h.waits ((h.startOr_eq hrun).trans (ewStart_waits ?_)))
  rwa [hm.insReady_eq, hm.bytes]

theorem vecop_works {v : Vo} {fx fy fo : Fmt} {q : VoSrc} {p : Option Nat} (h : CmdDue (isOp 0x20) (voBad u) (fun b => (voOf b).bobs) s u c s0 c0)
    (hv : v = voOf c.bytes) (hx : drainFmt v.fx = some fx) (hy : drainFmt v.fy = some fy) (ho : drainFmt v.fo = some fo)
    (hins : insReady s0 u v.ins = true) (houts : v.fillsOf.all (fun b => outReady s0 u c.slot b) = true) (hq : q = voSources v fx fy s0 u)
    (hp : p = voConsumes v fx fy fo s0 u q) :
    exec (.vecop u) s =
      .next (finishes (voWork v fx fy fo (voTake v s0 u c0 p) u c0 q) u (voCmd v c0) (if p.isSome then stPoison else stOk) 0) := by
  have hm := h.marked
  refine congrArg Host.Outcome.next (h.ends (voBody_works ?_ hx hy ho hins ?_ hq hp))
  · rw [hm.bytes, hv]
  · rwa [hm.slot]

theorem vecop_waits (h : CmdDue (isOp 0x20) (voBad u) (fun b => (voOf b).bobs) s u c s0 c0)
    (hw : insReady s u (voOf c.bytes).ins = false ∨ (voOf c.bytes).fillsOf.all (fun b => outReady s0 u c.slot b) = false) :
    exec (.vecop u) s = .next s := by
  have hm := h.marked
  refine congrArg Host.Outcome.next (h.waits (voBody_waits ?_))
  rwa [hm.insReady_eq, hm.bytes, hm.slot]

/-! ### The statement -/

/-- Settles O12: each clause is one outcome of the row's body, under the checks that a due command has passed. -/
theorem matrixAndVectorCommands : Obligations.MatrixAndVectorCommands := by
  refine ⟨⟨?_, ?_, ?_⟩, ⟨?_, ?_, ?_, ?_, ?_⟩, ⟨?_, ?_⟩, ?_, ?_⟩
  · exact fun _ _ _ _ _ => matmul_starts
  · intro s s0 u c c0 h hrun hins hset
    exact congrArg Host.Outcome.next (mm_refused h hrun hins nofun (by simpa [setRefused_matmul] using hset))
  · exact fun _ _ _ _ _ h hrun hins => congrArg Host.Outcome.next (mm_waits h hrun (.inl hins))
  · exact fun _ _ _ _ _ _ => matmulAcc_takes_up
  · exact fun _ _ _ _ _ _ _ _ _ _ => matmulAcc_loads
  · intro s s0 u c c0 a h hrun hload hheld hshape hins hrel
    exact congrArg Host.Outcome.next (mm_other_shape h hrun hins (fun _ => hrel) (by simp [setRefused_continue hload, hheld])
      (by simp [continues_matmulAcc, hload]) hheld (otherShape_eq_true.2 hshape))
  · exact fun _ _ _ _ _ => matmulAcc_refused
  · intro s s0 u c c0 h hrun hw
    exact congrArg Host.Outcome.next (mm_waits h hrun (hw.imp_right (by simp [continues_matmulAcc, setReleasing])))
  · exact fun _ _ _ _ _ => elemwise_starts
  · exact fun _ _ _ _ _ => elemwise_not_ready
  · exact fun _ _ _ _ _ _ _ _ _ _ _ => vecop_works
  · exact fun _ _ _ _ _ => vecop_waits

end Sys2Proof.Machine
end

section
namespace Sys2Proof.Machine
open Sys2Proof

/-! PROOFS. The arrays' passes, recompute, retirement and marks, the stat table and ABFT_INJECT (O26).

The rows of the passes take one branch for each clause. Retirement writes the array's registers (`retireRegs`), then reports: the entry of the
repair map, the error record and ENG_ID, of which the records keep the engines and their pages (`KeepsArrays`). Of the stat table both windows
show an entry in the same way (`statShown`), and the table itself is a sparse one. -/

variable {s t : State} {e pa : Nat}

/-! ### What reports leave to the arrays -/

/-- The engines, the repair map and the registers of the engines' pages are as they were. -/
structure KeepsArrays (s t : State) : Prop where
  eng : t.eng = s.eng
  repairMap : t.rel.repairMap = s.rel.repairMap
  regs : ∀ r : Reg, r.key.blk = .engP → getR t r = getR s r

namespace KeepsArrays

theorem refl : KeepsArrays s s := ⟨.refl _, .refl _, fun _ _ => .refl _⟩

theorem trans {s2 : State} (h : KeepsArrays s t) (h2 : KeepsArrays t s2) : KeepsArrays s s2 :=
  ⟨h2.eng.trans h.eng, h2.repairMap.trans h.repairMap, fun r hr => (h2.regs r hr).trans (h.regs r hr)⟩

theorem ite {c : Prop} [Decidable c] {t2 : State} (h : KeepsArrays s t) (h2 : KeepsArrays s t2) : KeepsArrays s (if c then t else t2) := by
  split
  · exact h
  · exact h2

theorem foldl {α : Type} {f : State → α → State} {l : List α} (hf : ∀ t x, KeepsArrays t (f t x)) : KeepsArrays s (l.foldl f s) := by
  induction l generalizing s with
  | nil => exact .refl
  | cons x l ih => exact (hf s x).trans ih

/-- A register outside the engines' pages. -/
theorem setR {r : Reg} {v : Word} (hr : r.key.blk ≠ .engP) : KeepsArrays s (setR s r v) :=
  ⟨.refl _, .refl _, fun _ hq => getR_setR_ne _ _ _ _ (fun hk => hr (hk ▸ hq))⟩

theorem setF {r : Reg} {f : Fd} {x : Nat} (hr : r.key.blk ≠ .engP) : KeepsArrays s (setF s r f x) := setR hr

/-- Memory, the hub and what is free may change. -/
theorem of_eq (heng : t.eng = s.eng) (hmap : t.rel.repairMap = s.rel.repairMap) (hregs : t.regs = s.regs) : KeepsArrays s t :=
  ⟨heng, hmap, fun r _ => by rw [getR, getR, hregs]⟩

end KeepsArrays

theorem breachWrite_keeps {l : Nat} {whole : Bool} : KeepsArrays s (breachWrite s l whole) := by
  unfold breachWrite
  dsimp only
  split
  · exact .refl
  · exact .ite (.of_eq rfl rfl rfl) (.of_eq rfl rfl rfl)

theorem mpaWrite_keeps {a : Nat} {bs : Bytes} : KeepsArrays s (mpaWrite s a bs) :=
  .foldl fun t _ => KeepsArrays.trans (t := rawWrite t _ _) (.of_eq rfl rfl rfl) breachWrite_keeps

theorem recallLine_keeps {l : Nat} {discard : Bool} : KeepsArrays s (recallLine s l discard) := by
  have hdrop : ∀ t : State, KeepsArrays t (dropResv (dirDrop t l) l) := fun _ => .of_eq rfl rfl rfl
  unfold recallLine
  dsimp only
  split
  · exact .of_eq rfl rfl rfl
  refine .trans (.trans ?_ (KeepsArrays.setF (by decide))) (hdrop _)
  split
  · exact .ite .refl (.of_eq rfl rfl rfl)
  · exact .refl

theorem cohWrite_keeps {a : Nat} {bs : Bytes} : KeepsArrays s (cohWrite s a bs) :=
  .trans (.foldl fun _ _ => recallLine_keeps) mpaWrite_keeps

theorem touchFrame_keeps {f : Nat} : KeepsArrays s (touchFrame s f) := by
  unfold touchFrame
  split
  · exact .of_eq rfl rfl rfl
  · exact .refl

theorem restartAges_keeps {a n : Nat} : KeepsArrays s (restartAges s a n) :=
  .trans (.foldl fun _ _ => touchFrame_keeps) (.foldl fun _ _ => .ite (.of_eq rfl rfl rfl) .refl)

theorem hubLand_keeps {a : Nat} {bs : Bytes} : KeepsArrays s (hubLand s a bs) := .trans cohWrite_keeps restartAges_keeps

theorem sendMsi_keeps {a d : Nat} : KeepsArrays s (sendMsi s a d) := by
  unfold sendMsi
  dsimp only
  refine .ite .refl ?_
  split
  · exact .ite (.of_eq rfl rfl rfl) (.of_eq rfl rfl rfl)
  · exact .of_eq rfl rfl rfl

theorem ringPut_keeps {r : RingRegs} {bs : Bytes} (hr : r.ptr.key.blk ≠ .engP) : KeepsArrays s (r.put s bs) := by
  rcases ringPut_cases r s bs with h | ⟨-, -, h⟩
  · rw [h]
    exact .of_eq rfl rfl rfl
  · rw [h]
    unfold RingRegs.land
    dsimp only
    split
    · exact .trans (.trans hubLand_keeps (.setF hr)) sendMsi_keeps
    · exact .trans hubLand_keeps (.setF hr)

theorem errPut_keeps {r : RingRegs} {i : ErrInfo} {supp : Nat} {count : Bool} (hr : r.ptr.key.blk ≠ .engP) :
    KeepsArrays s (errPut s r i supp count) :=
  .ite (.ite (.setF (by decide)) .refl) (ringPut_keeps hr)

theorem errLast_keeps {bs : Bytes} : KeepsArrays s (errLast s bs) := .foldl fun _ _ => .setR (by simp [rErrLast])

theorem errWrite_keeps {i : ErrInfo} {owner : Option Nat} {supp : Nat} : KeepsArrays s (errWrite s i owner supp) := by
  have hmain : KeepsArrays s (errPut s errRing i supp true) := errPut_keeps (by decide)
  have hrings : KeepsArrays s (match owner with
      | some p => if (i.sev = 1 ∨ i.sev = 2) ∧ p ≠ 0 then errPut (errPut s errRing i supp true) (errPring p) i supp false
        else errPut s errRing i supp true
      | none => errPut s errRing i supp true) := by
    cases owner
    · exact hmain
    · exact .ite (hmain.trans (errPut_keeps (by simp [errPring, rErrPringPtr]))) hmain
  have hlast : ∀ t bs, KeepsArrays t { errLast t bs with rel := { (errLast t bs).rel with ibi := (errLast t bs).rel.ibi + 1 } } :=
    fun _ _ => errLast_keeps.trans (.of_eq rfl rfl rfl)
  exact .ite (.ite ((hrings.trans (hlast _ _)).trans (.setF (by decide))) (hrings.trans (hlast _ _))) hrings

theorem logError_keeps {i : ErrInfo} {owner : Option Nat} : KeepsArrays s (logError s i owner) := by
  unfold logError
  dsimp only
  generalize hs1 : (if i.sev = 2 ∨ i.typ = 3 then evrEvent _ 10 0 _ else evrCount s _ _ _ 1) = s1
  have hseen : KeepsArrays s s1 := hs1 ▸ .ite (.of_eq rfl rfl rfl) (.of_eq rfl rfl rfl)
  refine hseen.trans (.ite (.ite (.of_eq rfl rfl rfl) (.trans (t := { s1 with rel := _ }) ?_ errWrite_keeps)) errWrite_keeps)
  exact .of_eq rfl rfl rfl

/-! ### The rows of the passes -/

section
variable {e : Fin 32} {pa : Fin 13} {bad : List Nat} {r r2 : MatRun} {t : TileRun} {c : Cmd} {q : Nat}

theorem tilePass_goes_on (hact : arrActive s e pa = true) (hrec : (engAux s e).recomp = []) (htile : tileOn s e pa = some (r, t))
    (hwait : t.wait = false) (hc : spoolCmd s r.u r.slot = some c) : exec (.tilePass e pa bad) s = .next (passOn s e pa r c t bad) := by
  change execTilePass e pa bad s = _
  simp [execTilePass, hact, hrec, htile, hwait, hc]

theorem tilePass_takes_next {s2 : State} (hact : arrActive s e pa = true) (hrec : (engAux s e).recomp = []) (htile : tileOn s e pa = none)
    (hnext : nextRun s e pa = some (r, c, q)) (hs2 : s2 = assignTile s pa r c q) (htile2 : tileOn s2 e pa = some (r2, t)) :
    exec (.tilePass e pa bad) s = .next (passOn s2 e pa r2 c t bad) := by
  subst hs2
  change execTilePass e pa bad s = _
  simp [execTilePass, hact, hrec, htile, hnext, htile2]

theorem tileOn_of_no_runs (h : (engAux s e).runs = []) : tileOn s e pa = none := by
  rw [tileOn, h]
  rfl

theorem nextRun_of_no_runs (h : (engAux s e).runs = []) : nextRun s e pa = none := by
  unfold nextRun
  rw [h]
  exact List.findSome?_eq_none_iff.2 fun _ _ => rfl

theorem tilePass_without_runs (hruns : (engAux s e).runs = []) (hrec : (engAux s e).recomp = []) : exec (.tilePass e pa bad) s = .next s := by
  change execTilePass e pa bad s = _
  simp [execTilePass, hrec, tileOn_of_no_runs hruns, nextRun_of_no_runs hruns]

theorem recompute_of_empty (hrec : (engAux s e).recomp = []) : exec (.recompute e bad) s = .next s := by
  change execRecompute e bad s = _
  simp [execRecompute, hrec]

section
variable {s2 : State} {x : Recomp} {xs : List Recomp} (hrec : (engAux s e).recomp = x :: xs)
  (hs2 : s2 = setEngAux s e { engAux s e with recomp := xs })
include hrec hs2

/-- A queued recompute whose tile is gone only leaves the queue. -/
theorem recompute_without_run (hrun : runOf s2 x.u x.slot = none) : exec (.recompute e bad) s = .next s2 := by
  subst hs2
  change execRecompute e bad s = _
  simp [execRecompute, hrec, hrun]

theorem recompute_runs {pa : Nat} (hrun : runOf s2 x.u x.slot = some r) (hc : spoolCmd s2 x.u x.slot = some c)
    (harr : recompArray s2 e x = some pa) (ht : r.tiles.find? (fun t => decide (t.q = x.q)) = some t) :
    exec (.recompute e bad) s = .next (recompOn s2 e x r c t pa bad) := by
  subst hs2
  change execRecompute e bad s = _
  simp [execRecompute, hrec, hrun, hc, harr, ht]

end
end

/-! ### An array's registers -/

theorem arrayState_key_ne {e a b : Nat} (h : a ≠ b) : (rArrayState e a).key ≠ (rArrayState e b).key := by
  intro hk
  have hoff := congrArg RegKey.off hk
  dsimp only [rArrayState] at hoff
  omega

theorem getF_lt {r : Reg} {f : Fd} : getF s r f < 2 ^ f.width := BitVec.isLt _

theorem arrAux_setArrAux {x : ArrAux} : arrAux (setArrAux s e pa x) e pa = x := mapGet_mapSet_same _ _ _ _

/-- A retiring array's registers: RETIRED without a position, and the spare active in its place (R112, R113). -/
def retireRegs (s : State) (e pa : Nat) : State :=
  let t := setArrAux s e pa { arrAux s e pa with retiring := false }
  let t := setF (setF t (rArrayState e pa) fArrayStateState 2) (rArrayState e pa) fArrayStatePosition 0xF
  if arrState s e 12 = 1 then setF (setF t (rArrayState e 12) fArrayStateState 0) (rArrayState e 12) fArrayStatePosition (arrPos s e pa) else t

/-- The report of an array's retirement. -/
def retireError (s : State) (e : Fin 32) : ErrInfo :=
  { src := 12, sev := 2, typ := 6, part := (engOwner s e).getD 0, unit := e, die := e.val / 4 }

theorem arrayRetirement_retires {e : Fin 32} {pa : Fin 13} (hret : (arrAux s e pa).retiring = true) (hact : arrActive s e pa = true)
    (htile : tileOn s e pa = none) (hrec : (engAux s e).recomp = [])
    (hspare : (arrState s e 12 = 1 ∧ pa.val ≠ 12) ∨ (arrState s e 12 ≠ 1 ∧ heldRows s e pa = 0)) :
    ∃ t, t = addRepair (retireRegs s e pa) 1 (e.val / 4) e 0 pa 12 ∧
      exec (.arrayRetirement e pa) s = .next (showActive (logError t (retireError t e) (engOwner t e)) e) := by
  refine ⟨_, rfl, ?_⟩
  change execArrayRetirement e pa s = _
  rcases hspare with ⟨h1, -⟩ | ⟨h1, h2⟩
  · simp [execArrayRetirement, hret, hact, htile, hrec, h1, retireRegs, retireError]
  · simp [execArrayRetirement, hret, hact, htile, hrec, h1, h2, retireRegs, retireError]

theorem retireRegs_retired (h : arrState s e 12 = 1 → pa ≠ 12) : getF (retireRegs s e pa) (rArrayState e pa) fArrayStateState = 2 := by
  have hset : ∀ t : State, getF (setF (setF t (rArrayState e pa) fArrayStateState 2) (rArrayState e pa) fArrayStatePosition 0xF)
      (rArrayState e pa) fArrayStateState = 2 := fun t => by
    rw [getF_setF_apart _ _ _ _ _ (by decide) (by decide) (by decide), getF_setF_same _ _ _ _ (by decide)]
    rfl
  unfold retireRegs
  dsimp only
  split
  · next h1 =>
    have hne : (rArrayState e 12).key ≠ (rArrayState e pa).key := arrayState_key_ne (h h1).symm
    rw [getF_setF_ne _ _ _ _ _ _ hne, getF_setF_ne _ _ _ _ _ _ hne, hset]
  · exact hset _

/-- The spare is active in the retired array's position. -/
theorem retireRegs_spare (h : arrState s e 12 = 1) : getF (retireRegs s e pa) (rArrayState e 12) fArrayStateState = 0 ∧
    getF (retireRegs s e pa) (rArrayState e 12) fArrayStatePosition = arrPos s e pa := by
  unfold retireRegs
  dsimp only
  rw [if_pos h]
  constructor
  · rw [getF_setF_apart _ _ _ _ _ (by decide) (by decide) (by decide), getF_setF_same _ _ _ _ (by decide)]
    rfl
  · rw [getF_setF_same _ _ _ _ (by decide)]
    exact Nat.mod_eq_of_lt getF_lt

theorem arrAux_retireRegs : (arrAux (retireRegs s e pa) e pa).retiring = false := by
  have haux : (arrAux (setArrAux s e pa { arrAux s e pa with retiring := false }) e pa).retiring = false := by rw [arrAux_setArrAux]
  unfold retireRegs
  dsimp only
  split <;> exact haux

theorem retireRegs_rel : (retireRegs s e pa).rel = s.rel := by
  unfold retireRegs
  dsimp only
  split <;> rfl

/-- An entry more in the map, and its event (R394, R403). -/
def withRepair (s : State) (x : Bytes) : State :=
  evrEvent { s with rel := { s.rel with repairMap := s.rel.repairMap ++ [x], repairSeq := s.rel.repairSeq + 1 } } 9 0 x

theorem withRepair_eng {x : Bytes} : (withRepair s x).eng = s.eng := rfl
theorem withRepair_regs {x : Bytes} : (withRepair s x).regs = s.regs := rfl
theorem withRepair_repairMap {x : Bytes} : (withRepair s x).rel.repairMap = s.rel.repairMap ++ [x] := rfl

section
variable {kind die unit bank target spare : Nat} (h : s.rel.repairMap.length < repairCap)
include h

/-- A map with room takes the entry, and pages of the SLC region are programmed. -/
theorem addRepair_of_room : ∃ n x, addRepair s kind die unit bank target spare = withRepair (slcPages s n) x :=
  ⟨_, _, if_neg (Nat.not_le.2 h)⟩

theorem addRepair_eng : (addRepair s kind die unit bank target spare).eng = s.eng := by
  obtain ⟨n, x, hx⟩ := addRepair_of_room h
  rw [hx, withRepair_eng, slcPages_eng]

theorem addRepair_regs : (addRepair s kind die unit bank target spare).regs = s.regs := by
  obtain ⟨n, x, hx⟩ := addRepair_of_room h
  rw [hx, withRepair_regs, slcPages_regs]

theorem addRepair_length : (addRepair s kind die unit bank target spare).rel.repairMap.length = s.rel.repairMap.length + 1 := by
  obtain ⟨n, x, hx⟩ := addRepair_of_room h
  rw [hx, withRepair_repairMap, slcPages_rel, List.length_append, List.length_singleton]

end

theorem showActive_arrayState {k : Nat} {f : Fd} : getF (showActive s e) (rArrayState e k) f = getF s (rArrayState e k) f := by
  refine getF_setF_ne _ _ _ _ _ _ fun hk => ?_
  have hoff := congrArg RegKey.off hk
  dsimp only [rEngId, rArrayState] at hoff
  omega

/-- What the retirement's records and ENG_ID leave as the array's registers were written. -/
theorem retirement_reports {i : ErrInfo} {owner : Option Nat} {k : Nat} {f : Fd} (heng : t.eng = s.eng) (hregs : t.regs = s.regs) :
    getF (showActive (logError t i owner) e) (rArrayState e k) f = getF s (rArrayState e k) f ∧
      arrAux (showActive (logError t i owner) e) e pa = arrAux s e pa ∧
      (showActive (logError t i owner) e).rel.repairMap = t.rel.repairMap := by
  have hkeep : KeepsArrays t (logError t i owner) := logError_keeps
  refine ⟨?_, ?_, hkeep.repairMap⟩
  · rw [showActive_arrayState, getF, hkeep.regs _ rfl, getR, hregs]
    rfl
  · change mapGet (logError t i owner).eng.arrays _ _ = _
    rw [hkeep.eng, heng]
    rfl

theorem arrayRetirement_hands_over {e : Fin 32} {pa : Fin 13} (hret : (arrAux s e pa).retiring = true) (hact : arrActive s e pa = true)
    (htile : tileOn s e pa = none) (hrec : (engAux s e).recomp = [])
    (hspare : (arrState s e 12 = 1 ∧ pa.val ≠ 12) ∨ (arrState s e 12 ≠ 1 ∧ heldRows s e pa = 0)) (hroom : s.rel.repairMap.length < repairCap) :
    ∃ t, exec (.arrayRetirement e pa) s = .next t ∧ getF t (rArrayState e pa) fArrayStateState = 2 ∧
      (arrState s e 12 = 1 → getF t (rArrayState e 12) fArrayStateState = 0 ∧ getF t (rArrayState e 12) fArrayStatePosition = arrPos s e pa) ∧
      (arrAux t e pa).retiring = false ∧ t.rel.repairMap.length = s.rel.repairMap.length + 1 := by
  obtain ⟨t, ht, hexec⟩ := arrayRetirement_retires hret hact htile hrec hspare
  have hroom' : (retireRegs s e pa).rel.repairMap.length < repairCap := by rwa [retireRegs_rel]
  have heng : t.eng = (retireRegs s e pa).eng := ht ▸ addRepair_eng hroom'
  have hregs : t.regs = (retireRegs s e pa).regs := ht ▸ addRepair_regs hroom'
  have hmap : t.rel.repairMap.length = (retireRegs s e pa).rel.repairMap.length + 1 := ht ▸ addRepair_length hroom'
  have hrep := fun k f => retirement_reports (e := e) (pa := pa) (i := retireError t e) (owner := engOwner t e) (k := k) (f := f) heng hregs
  refine ⟨_, hexec, ?_, fun h1 => ?_, ?_, ?_⟩
  · rw [(hrep pa fArrayStateState).1]
    exact retireRegs_retired fun h1 => (hspare.resolve_right fun h2 => h2.1 h1).2
  · rw [(hrep 12 fArrayStateState).1, (hrep 12 fArrayStatePosition).1]
    exact retireRegs_spare h1
  · rw [(hrep 0 fArrayStateState).2.1]
    exact arrAux_retireRegs
  · rw [(hrep 0 fArrayStateState).2.2, hmap, retireRegs_rel]

theorem suspectWindow_drops {e : Fin 32} {pa : Fin 13} :
    ∃ t, exec (.suspectWindowExpiry e pa) s = .next t ∧ (arrAux t e pa).marks = (arrAux s e pa).marks.filter (fun x => decide (s.time < x + dayNs)) ∧
      getF t (rArrayState e pa) fArrayStateMarks = min (arrAux t e pa).marks.length 3 ∧ SameRegsBut [(rArrayState e pa).key] s t ∧ SameMemory s t := by
  let ms := (arrAux s e pa).marks.filter (fun x => decide (s.time < x + dayNs))
  let s1 := setArrAux s e pa { arrAux s e pa with marks := ms }
  have hmarks : (arrAux s1 e pa).marks = ms := congrArg ArrAux.marks arrAux_setArrAux
  refine ⟨setF s1 (rArrayState e pa) fArrayStateMarks (min ms.length 3), rfl, hmarks, ?_, fun r hr => ?_, fun _ => rfl, rfl⟩
  · change _ = min (arrAux s1 e pa).marks.length 3
    rw [hmarks, getF_setF_same _ _ _ _ (by decide)]
    exact Nat.mod_eq_of_lt (Nat.lt_of_le_of_lt (Nat.min_le_right _ _) (by decide))
  · exact getR_setR_ne _ _ _ _ fun hk => hr (hk ▸ List.mem_singleton_self _)

/-! ### The stat table -/

/-- The data and select registers of the engine's page or of a context's window. -/
def statDataReg (e : Nat) (win : Option (Fin 16)) (w : Nat) : Reg := match win with
  | some n => rCtxStatData e n w
  | none => rStatData e w
def statSelReg (e : Nat) (win : Option (Fin 16)) : Reg := match win with
  | some n => rCtxStatSel e n
  | none => rStatSel e

/-- An entry's word w as a data register shows it. -/
def statWord (s : State) (e i w : Nat) : Word := BitVec.ofNat 64 (u64At (statBytes i (statEntry s e i)) (8 * w))

/-- The data and select registers show the entry. -/
def statShown (s : State) (e : Nat) (win : Option (Fin 16)) (i : Nat) : State :=
  setF ((List.range 4).foldl (fun t w => setR t (statDataReg e win w) (statWord s e i w)) s) (statSelReg e win) fStatSelEntry i

section
variable {win : Option (Fin 16)} {i j : Nat}

theorem statSnap_eq {clear : Bool} : statSnap s e win i clear =
    if clear then setStat (statShown s e win i) e i (statEntry s e i).cleared else statShown s e win i := by
  cases win <;> rfl

theorem statDataReg_key_inj {v w : Nat} (h : (statDataReg e win v).key = (statDataReg e win w).key) : v = w := by
  have hoff := congrArg RegKey.off h
  cases win
  all_goals
    dsimp only [statDataReg, rStatData, rCtxStatData] at hoff
    omega

theorem statSelReg_key_ne {w : Nat} : (statSelReg e win).key ≠ (statDataReg e win w).key := by
  intro hk
  have hoff := congrArg RegKey.off hk
  cases win
  all_goals
    dsimp only [statDataReg, statSelReg, rStatData, rCtxStatData, rStatSel, rCtxStatSel] at hoff
    omega

/-- Registers written in turn, each once: each reads what it was given. -/
theorem getR_foldl_setR {k : Nat → Reg} {v : Nat → Word} {l : List Nat} {w : Nat} (hinj : ∀ a b, (k a).key = (k b).key → a = b) (hw : w ∈ l) :
    getR (l.foldl (fun t w => setR t (k w) (v w)) s) (k w) = v w := by
  induction l using List.reverseRecOn with
  | nil => cases hw
  | append_singleton l x ih =>
    rw [List.foldl_append, List.foldl_cons, List.foldl_nil, getR_setR]
    split
    · next hk => rw [hinj _ _ hk]
    · next hk =>
      refine ih ((List.mem_append.1 hw).resolve_right fun hx => hk ?_)
      rw [List.mem_singleton.1 hx]

theorem getR_statShown {w : Nat} (hw : w < 4) : getR (statShown s e win i) (statDataReg e win w) = statWord s e i w :=
  (getR_setR_ne _ _ _ _ statSelReg_key_ne).trans (getR_foldl_setR (fun _ _ => statDataReg_key_inj) (List.mem_range.2 hw))

theorem getF_statShown (hi : i < 256) : getF (statShown s e win i) (statSelReg e win) fStatSelEntry = i :=
  (getF_setF_same _ _ _ _ (by decide)).trans (Nat.mod_eq_of_lt hi)

theorem statShown_eng : (statShown s e win i).eng = s.eng := rfl

theorem statShown_sameMemory : SameMemory s (statShown s e win i) := ⟨fun _ => rfl, rfl⟩

theorem getR_setStat {x : StatEntry} {r : Reg} : getR (setStat s e i x) r = getR s r := rfl

theorem statEntry_setStat {f : Nat} {x : StatEntry} : statEntry (setStat s e i x) f j = if (e, i) = (f, j) then x else statEntry s f j :=
  mapGet_mapSet _ _ _ _ _

variable {ag : Agent}

/-- SNAP shows the entry in the data registers of its window and keeps it (R76). -/
theorem statSelSnap_shows {e : Fin 32} {i : Fin 256} (h : regRight s ag (statKey e win) = true) :
    ∃ t, exec (.statSelSnap ag e win i) s = .next t ∧ (∀ w < 4, getR t (statDataReg e win w) = statWord s e i w) ∧
      getF t (statSelReg e win) fStatSelEntry = i.val ∧ t.eng = s.eng ∧ SameMemory s t :=
  ⟨statShown s e win i, congrArg Host.Outcome.next ((guarded_right s ag _ _ h).trans statSnap_eq), fun _ => getR_statShown, getF_statShown i.isLt,
    statShown_eng, statShown_sameMemory⟩

/-- CLEAR shows the entry and clears its counts; every other entry stays (R78). -/
theorem statSelClear_clears {e : Fin 32} {i j : Fin 256} (h : regRight s ag (statKey e win) = true) (hj : j ≠ i) :
    ∃ t, exec (.statSelClear ag e win i) s = .next t ∧ (∀ w < 4, getR t (statDataReg e win w) = statWord s e i w) ∧
      statEntry t e i = (statEntry s e i).cleared ∧ statEntry t e j = statEntry s e j ∧ SameMemory s t := by
  refine ⟨setStat (statShown s e win i) e i (statEntry s e i).cleared, congrArg Host.Outcome.next ((guarded_right s ag _ _ h).trans statSnap_eq),
    fun _ hw => ?_, ?_, ?_, fun _ => rfl, rfl⟩
  · rw [getR_setStat, getR_statShown hw]
  · rw [statEntry_setStat, if_pos rfl]
  · rw [statEntry_setStat, if_neg (by simpa [Fin.val_inj] using hj.symm)]
    rfl

end

/-- A table whose keys pass a test keeps their values and loses the others. -/
theorem mapGet_filter {κ α : Type} [DecidableEq κ] {m : FMap κ α} {p : κ → Bool} {k : κ} {d : α} :
    mapGet (m.filter (fun y => p y.1)) k d = if p k then mapGet m k d else d := by
  induction m with
  | nil => simp
  | cons y m ih =>
    obtain ⟨a, v⟩ := y
    by_cases ha : a = k
    · subst ha
      cases hp : p a <;> simp [hp, ih, mapGet]
    · cases hp : p a <;> simp [hp, ih, mapGet, ha]

/-- The engine's table without an entry. -/
def withoutStats (s : State) (e : Nat) : State := { s with eng := { s.eng with stats := s.eng.stats.filter (fun y => !decide (y.1.1 = e)) } }

theorem statEntry_withoutStats {f i : Nat} : statEntry (withoutStats s e) f i = if f = e then {} else statEntry s f i := by
  refine (mapGet_filter (p := fun k : Nat × Nat => !decide (k.1 = e))).trans ?_
  by_cases h : f = e <;> simp [h, statEntry]

theorem statClearAll_frees {ag : Agent} {e f : Fin 32} {i : Nat} (h : regRight s ag (rStatClearAll e).key = true) (hi : i < 255) (hf : f ≠ e) :
    ∃ t, exec (.statClearAll ag e) s = .next t ∧ statEntry t e i = {} ∧ statEntry t e 255 = (statEntry s e 255).cleared ∧
      statEntry t f i = statEntry s f i ∧ t.regs = s.regs ∧ SameMemory s t := by
  refine ⟨setStat (withoutStats s e) e 255 (statEntry s e 255).cleared, congrArg Host.Outcome.next (guarded_right s ag _ _ h), ?_, ?_, ?_, rfl,
    fun _ => rfl, rfl⟩
  · rw [statEntry_setStat, if_neg (by simp; omega), statEntry_withoutStats, if_pos rfl]
  · rw [statEntry_setStat, if_pos rfl]
  · have hfe : f.val ≠ e.val := fun hv => hf (Fin.ext hv)
    rw [statEntry_setStat, if_neg (by simp [hfe.symm]), statEntry_withoutStats, if_neg hfe]

/-! ### ABFT_INJECT -/

section
variable {ag : Agent} {e : Fin 32} {pa : BitVec 4} (h : regRight s ag (rAbftInject e).key = true)
include h

theorem abftInject_arms (hpa : pa.toNat < 13) (hen : objNat s oDiagInjectEn = 1) :
    ∃ t, exec (.abftInject ag e pa true) s = .next t ∧ (arrAux t e pa.toNat).inject = true ∧ t.regs = s.regs ∧ SameMemory s t := by
  refine ⟨setArrAux s e pa.toNat { arrAux s e pa.toNat with inject := true },
    congrArg Host.Outcome.next ((guarded_right s ag _ _ h).trans (if_pos ⟨rfl, hpa, hen⟩)), ?_, rfl, fun _ => rfl, rfl⟩
  rw [arrAux_setArrAux]

theorem abftInject_disabled (hen : objNat s oDiagInjectEn ≠ 1) : exec (.abftInject ag e pa true) s = .next s :=
  congrArg Host.Outcome.next ((guarded_right s ag _ _ h).trans (if_neg fun hc => hen hc.2.2))

end

/-! ### The statement -/

/-- Settles O26: the branches of the arrays' rows by what they find, and the stat table as a sparse table with its shown registers. -/
theorem arraysAndTheStatTable : Obligations.ArraysAndTheStatTable := by
  refine ⟨⟨?_, ?_, ?_, ?_, ?_, ?_, ?_⟩, ?_, ?_, ?_, ?_, ?_, ?_⟩
  · exact fun _ _ _ _ _ _ _ => tilePass_goes_on
  · exact fun _ _ _ _ _ _ _ _ _ _ => tilePass_takes_next
  · exact fun _ _ _ _ => tilePass_without_runs
  · exact fun _ _ _ => recompute_of_empty
  · exact fun _ _ _ _ _ _ hrec hs2 => ⟨recompute_without_run hrec hs2, fun _ _ _ _ => recompute_runs hrec hs2⟩
  · exact fun _ _ _ => arrayRetirement_hands_over
  · exact fun _ _ _ => suspectWindow_drops
  · exact fun _ _ _ n _ => statSelSnap_shows (win := some n)
  · exact fun _ _ _ _ => statSelSnap_shows (win := none)
  · exact fun _ _ _ _ _ => statSelClear_clears (win := none)
  · exact fun _ _ _ n _ _ => statSelClear_clears (win := some n)
  · exact fun _ _ _ _ _ => statClearAll_frees
  · exact fun _ _ _ _ h hpa => ⟨abftInject_arms h hpa, abftInject_disabled h⟩

end Sys2Proof.Machine
end

section
namespace Sys2Proof.Machine
open Sys2Proof

/-! PROOFS. Task slots and Spindle cores: what each operation of the scheduler changes (R127 to R131).

A task slot is a register and an entry of the task table, a core a register. The operations on them leave every other part of the state, and
every register outside the engines' own pages, as they are (`TaskWork`); what they write of a slot or a core is said by one law each. A task
that runs does so on one core (`RunsOn`), which is the core that `freeCore` finds. -/

variable {s t : State} {e i j k : Nat} {u : SpoolId} {slot st d : Nat}

/-! ### What work on tasks leaves as it was -/

/-- Only tasks and registers of the engines' pages differ. -/
structure TaskWork (s t : State) : Prop where
  mem : t.mem = s.mem
  poison : t.poison = s.poison
  hub : t.hub = s.hub
  time : t.time = s.time
  spools : t.eng.spools = s.eng.spools
  regs : ∀ r : Reg, r.key.blk ≠ .engP → getR t r = getR s r

namespace TaskWork

theorem refl : TaskWork s s := ⟨.refl _, .refl _, .refl _, .refl _, .refl _, fun _ _ => .refl _⟩

theorem trans {s2 : State} (h : TaskWork s t) (h2 : TaskWork t s2) : TaskWork s s2 :=
  ⟨h2.mem.trans h.mem, h2.poison.trans h.poison, h2.hub.trans h.hub, h2.time.trans h.time, h2.spools.trans h.spools,
    fun r hr => (h2.regs r hr).trans (h.regs r hr)⟩

theorem foldl {α : Type} {f : State → α → State} {l : List α} (hf : ∀ t x, TaskWork t (f t x)) : TaskWork s (l.foldl f s) := by
  induction l generalizing s with
  | nil => exact .refl
  | cons x l ih => exact (hf s x).trans ih

theorem setF {r : Reg} {f : Fd} {x : Nat} (hr : r.key.blk = .engP) : TaskWork s (setF s r f x) :=
  ⟨.refl _, .refl _, .refl _, .refl _, .refl _, fun _ hq => getR_setR_ne _ _ _ _ fun hk => hq (hk ▸ hr)⟩

theorem setTask {x : Task} : TaskWork s (setTask s e i x) := ⟨.refl _, .refl _, .refl _, .refl _, .refl _, fun _ _ => .refl _⟩

theorem sameMemory (h : TaskWork s t) : SameMemory s t := sameMemory_of_eq h.mem h.poison

theorem spool_eq (h : TaskWork s t) : spool t u = spool s u := congrArg (mapGet · u ({} : Spool)) h.spools

end TaskWork

/-! ### Registers of slots and cores -/

theorem key_ne_of_off {r q : Reg} (h : r.key.off ≠ q.key.off) : r.key ≠ q.key := fun hk => h (congrArg RegKey.off hk)

theorem key_ne_of_blk {r q : Reg} (h : r.key.blk ≠ q.key.blk) : r.key ≠ q.key := fun hk => h (congrArg RegKey.blk hk)

theorem schedSlot_key_ne (h : j ≠ i) : (rSchedSlot e j).key ≠ (rSchedSlot e i).key := key_ne_of_off (by simp [rSchedSlot, h])

theorem spnState_key_ne_schedSlot (hk : k < 4) : (rSpnState e k).key ≠ (rSchedSlot e i).key :=
  key_ne_of_off (by dsimp only [rSpnState, rSchedSlot]; omega)

theorem task_setTask {x : Task} : task (setTask s e i x) e j = if i = j then x else task s e j := by
  refine (mapGet_mapSet _ _ _ _ _).trans ?_
  simp [task]

@[simp] theorem task_setTask_same {x : Task} : task (setTask s e i x) e i = x := by rw [task_setTask, if_pos rfl]

theorem taskState_setTaskState (h : st < 8) : taskState (setTaskState s e i st) e i = st :=
  (getF_setF_same _ _ _ _ (by decide)).trans (Nat.mod_eq_of_lt h)

theorem taskState_setTaskState_ne (h : j ≠ i) : taskState (setTaskState s e j st) e i = taskState s e i :=
  getF_setF_ne _ _ _ _ _ _ (schedSlot_key_ne h)

/-! ### A core given up -/

theorem freeCore_taskWork : TaskWork s (freeCore s e i) := by
  unfold freeCore
  split
  · exact (TaskWork.setF rfl).trans (.setF rfl)
  · dsimp only
    split
    · exact TaskWork.setTask.trans (.setF rfl)
    · exact .refl

/-- A task runs on a core of its engine, and on no other. -/
structure RunsOn (s : State) (e k i : Nat) : Prop where
  lt : k < 4
  task : taskState s e i = tRunning
  core : coreState s e k = cRunning
  slot : coreSlot s e k = i
  alone : ∀ j < 4, j ≠ k → ¬(coreState s e j = cRunning ∧ coreSlot s e j = i)

theorem RunsOn.of_regs (h : RunsOn s e k i) (hr : ∀ r : Reg, r.key.blk = .engP → getR t r = getR s r) : RunsOn t e k i := by
  have hf : ∀ (r : Reg) (f : Fd), r.key.blk = .engP → getF t r f = getF s r f := fun r f hb => congrArg (fget · f) (hr r hb)
  have hc : ∀ j, coreState t e j = coreState s e j ∧ coreSlot t e j = coreSlot s e j := fun j => ⟨hf _ _ rfl, hf _ _ rfl⟩
  exact ⟨h.lt, (hf _ _ rfl).trans h.task, (hc k).1.trans h.core, (hc k).2.trans h.slot, fun j hj hne => by
    rw [(hc j).1, (hc j).2]
    exact h.alone j hj hne⟩

/-- A register of a context's page is none of a slot or a core. -/
theorem RunsOn.setR {r : Reg} {v : Word} (h : RunsOn s e k i) (hr : r.key.blk = .engC) : RunsOn (setR s r v) e k i :=
  h.of_regs fun _ hq => getR_setR_ne _ _ _ _ (key_ne_of_blk (by simp [hr, hq]))

/-- The search of `freeCore` finds the core of the task. -/
theorem RunsOn.find (h : RunsOn s e k i) :
    (List.range 4).find? (fun k => decide (coreState s e k = cRunning) && decide (coreSlot s e k = i)) = some k := by
  generalize hx : (List.range 4).find? _ = x
  cases x with
  | none =>
    have hno := List.find?_eq_none.1 hx k (List.mem_range.2 h.lt)
    simp [h.core, h.slot] at hno
  | some j =>
    have hj := List.find?_some hx
    have hlt : j < 4 := List.mem_range.1 (List.mem_of_find?_eq_some hx)
    simp only [Bool.and_eq_true, decide_eq_true_eq] at hj
    by_cases hjk : j = k
    · rw [hjk]
    · exact absurd hj (h.alone j hlt hjk)

theorem RunsOn.core_idles (h : RunsOn s e k i) : coreState (freeCore s e i) e k = cIdle := by
  unfold freeCore
  rw [h.find]
  exact (getF_setF_apart _ _ _ _ _ (by decide) (by decide) (by decide)).trans
    ((getF_setF_same _ _ _ _ (by decide)).trans (Nat.mod_eq_of_lt (by decide)))

/-- A RUNNING task's core given up; a task in another state has none. -/
def offCore (s : State) (e i : Nat) : State := if taskState s e i = tRunning then freeCore s e i else s

theorem offCore_taskWork : TaskWork s (offCore s e i) := by
  unfold offCore
  split
  · exact freeCore_taskWork
  · exact .refl

theorem offCore_of_running (h : taskState s e i = tRunning) : offCore s e i = freeCore s e i := if_pos h

theorem offCore_of_not_running (h : taskState s e i ≠ tRunning) : offCore s e i = s := if_neg h

/-! ### A task becomes READY (R128, R129) -/

/-- The task as it becomes READY now. -/
def readied (s : State) (e i : Nat) : Task :=
  { task s e i with used := taskUsed s e i, readyAt := s.time, await := none, stalled := false }

theorem taskToReady_eq : taskToReady s e i = setTaskState (setTask (offCore s e i) e i (readied s e i)) e i tReady := rfl

theorem taskToReady_taskWork : TaskWork s (taskToReady s e i) := (offCore_taskWork.trans .setTask).trans (.setF rfl)

theorem taskState_taskToReady : taskState (taskToReady s e i) e i = tReady := taskState_setTaskState (by decide)

theorem task_taskToReady : task (taskToReady s e i) e i = readied s e i := task_setTask_same (s := offCore s e i)

/-! ### The task of a core's hart -/

section
variable {c : CoreId} {h : HartCtx} (hh : hartOf s c = some h)
include hh

/-- A hart with a slot is that of the task its core runs. -/
theorem hartOf_task (hs : h.slot = some i) : coreState s c.e c.k = cRunning ∧ coreSlot s c.e c.k = i := by
  unfold hartOf at hh
  split_ifs at hh with hrun hidle
  · obtain rfl := Option.some.inj hh
    obtain rfl := Option.some.inj hs
    exact ⟨hrun, rfl⟩
  · obtain rfl := Option.some.inj hh
    cases hs

theorem hartOf_runsOn (hs : h.slot = some i) (hrun : taskState s c.e i = tRunning)
    (halone : ∀ k : Fin 4, k ≠ c.k → ¬(coreState s c.e k = cRunning ∧ coreSlot s c.e k = i)) : RunsOn s c.e c.k i := by
  obtain ⟨hcore, hslot⟩ := hartOf_task hh hs
  exact ⟨c.k.isLt, hrun, hcore, hslot, fun j hj hne => halone ⟨j, hj⟩ fun he => hne (congrArg Fin.val he)⟩

end

theorem putHart_of_task {c : CoreId} {h : HartCtx} {x : Hart} (hs : h.slot = some i) :
    putHart s c h x = setTask s c.e i { task s c.e i with hart := x } := by
  simp only [putHart, hs]

/-! ### A command's end -/

/-- A command as its end leaves it. -/
def endedCmd (c : Cmd) (status detail : Nat) : Cmd := { c with phase := .ended, status := status, detail := detail, stall := .none }

/-- The command is marked ended, and its spool stopped if the status says so (R149). -/
theorem endCmd_cases : endCmd s u slot st d = setSpState (updCmd s u slot (endedCmd · st d)) u spStopped ∨
    endCmd s u slot st d = updCmd s u slot (endedCmd · st d) := ite_eq_or_eq _ _ _

theorem endCmd_cmds : (spool (endCmd s u slot st d) u).cmds = (spool s u).cmds.map (fun c => if c.slot = slot then endedCmd c st d else c) := by
  have hupd : (spool (updCmd s u slot (endedCmd · st d)) u).cmds = (spool s u).cmds.map (fun c => if c.slot = slot then endedCmd c st d else c) :=
    congrArg Spool.cmds (mapGet_mapSet_same _ _ _ _)
  rcases endCmd_cases (s := s) (u := u) (slot := slot) (st := st) (d := d) with h | h
  all_goals
    rw [h]
    exact hupd

theorem endCmd_sameMemory : SameMemory s (endCmd s u slot st d) := by
  rcases endCmd_cases (s := s) (u := u) (slot := slot) (st := st) (d := d) with h | h
  all_goals
    rw [h]
    exact sameMemory_of_eq rfl rfl

theorem endCmd_tasks : (endCmd s u slot st d).eng.tasks = s.eng.tasks := by
  rcases endCmd_cases (s := s) (u := u) (slot := slot) (st := st) (d := d) with h | h
  all_goals
    rw [h]
    rfl

/-- A spool's record shows in SQ_HEAD and SP_STATUS alone. -/
theorem getR_updCmd {f : Cmd → Cmd} {r : Reg} (h : 0x200 ≤ r.key.off) : getR (updCmd s u slot f) r = getR s r := by
  have hstatus : (rSpStatus u.e u.n u.s).key ≠ r.key := key_ne_of_off (by dsimp only [rSpStatus]; omega)
  have hhead : (rSqHead u.e u.n u.s).key ≠ r.key := key_ne_of_off (by dsimp only [rSqHead]; omega)
  exact (getR_setR_ne _ _ _ _ hstatus).trans (getR_setR_ne _ _ _ _ hhead)

theorem getR_endCmd {r : Reg} (h : 0x200 ≤ r.key.off) : getR (endCmd s u slot st d) r = getR s r := by
  have hstatus : (rSpStatus u.e u.n u.s).key ≠ r.key := key_ne_of_off (by dsimp only [rSpStatus]; omega)
  rcases endCmd_cases (s := s) (u := u) (slot := slot) (st := st) (d := d) with he | he
  · rw [he]
    exact (getR_setR_ne _ _ _ _ hstatus).trans (getR_updCmd h)
  · rw [he, getR_updCmd h]

/-! ### The end of a task (R131) -/

/-- The slot of a task that has ended. -/
def vacated (s : State) (e i : Nat) : State :=
  let s := setTaskState (offCore s e i) e i tFree
  { s with eng := { s.eng with tasks := mapDel s.eng.tasks (e, i) } }

theorem endTask_of_cmd (hu : (task s e i).u = some (u, slot)) : endTask s e i st d = endCmd (vacated s e i) u slot st d := by
  simp only [endTask, hu]
  rfl

theorem vacated_taskWork : TaskWork s (vacated s e i) := by
  have h : TaskWork s (setTaskState (offCore s e i) e i tFree) := offCore_taskWork.trans (.setF rfl)
  exact ⟨h.mem, h.poison, h.hub, h.time, h.spools, h.regs⟩

theorem RunsOn.vacated_idles (h : RunsOn s e k i) : coreState (vacated s e i) e k = cIdle := by
  refine (getF_setF_ne _ _ _ _ _ _ (spnState_key_ne_schedSlot h.lt).symm).trans ?_
  rw [offCore_of_running h.task]
  exact h.core_idles

/-- What the end of a task that runs leaves: a FREE slot, an idle core and its command ended (R131). -/
theorem endTask_ends {cmd : Cmd} (h : RunsOn s e k i) (hu : (task s e i).u = some (u, cmd.slot)) (hcmds : (spool s u).cmds = [cmd]) :
    taskState (endTask s e i st d) e i = tFree ∧ coreState (endTask s e i st d) e k = cIdle ∧
      (spool (endTask s e i st d) u).cmds = [endedCmd cmd st d] ∧ SameMemory s (endTask s e i st d) ∧
      ∀ r : Reg, r.key.blk ≠ .engP → 0x200 ≤ r.key.off → getR (endTask s e i st d) r = getR s r := by
  have hw : TaskWork s (vacated s e i) := vacated_taskWork
  rw [endTask_of_cmd hu]
  refine ⟨?_, ?_, ?_, ?_, fun r hr hoff => (getR_endCmd hoff).trans (hw.regs r hr)⟩
  · refine (congrArg (fget · _) (getR_endCmd ?_)).trans (taskState_setTaskState (by decide))
    simp only [rSchedSlot]
    omega
  · refine (congrArg (fget · _) (getR_endCmd ?_)).trans h.vacated_idles
    simp only [rSpnState]
    omega
  · rw [endCmd_cmds, hw.spool_eq, hcmds]
    simp
  · exact ⟨fun a => (endCmd_sameMemory.1 a).trans (hw.sameMemory.1 a), endCmd_sameMemory.2.trans hw.sameMemory.2⟩

end Sys2Proof.Machine
end

section
namespace Sys2Proof.Machine
open Sys2Proof

/-! PROOFS. Tasks are dispatched, preempted and ended (O25).

MX_EXIT and an exception write a register of the task's context and then end the task; BUDGET_EXPIRY ends it at once: `endTask_ends` says what
each end leaves, from `RunsOn`, which a write of a context's register keeps. -/

variable {s : State} {c : CoreId} {h : HartCtx} {i : Nat} {rs1 : Fin 32} {cause : BitVec 6} {tval : BitVec 64}

/-! ### The rows that end a task (R131) -/

section
variable (hh : hartOf s c = some h)
include hh

theorem mxExit_ends (hs : h.slot = some i) : exec (.mxExit c rs1) s =
    .next (endTask (setF s (rCtxTask c.e h.n i) fCtxTaskExit (h.hart.readX rs1 % 2 ^ 32)) c.e i stOk (h.hart.readX rs1 % 2 ^ 32)) := by
  change execMxExit c rs1 s = _
  simp only [execMxExit, hh, hs]

theorem mxExit_returns (hs : h.slot = none) : exec (.mxExit c rs1) s = .next (putHart s c h h.hart.adv) := by
  change execMxExit c rs1 s = _
  simp only [execMxExit, hh, hs]

theorem spindleException_eq : exec (.spindleException c cause tval) s = .next (hartException s c h cause.toNat tval.toNat) := by
  change execSpindleException c cause tval s = _
  simp only [execSpindleException, hh]

end

/-- What CTX_TASK_CAUSE shows of an exception (R131). -/
def causeWord (cause tval : Nat) : Word := fset (fset (fset 0 fCtxTaskCauseCause cause) fCtxTaskCauseTval tval) fCtxTaskCauseValid 1

theorem causeWord_valid {cause tval : Nat} : fget (causeWord cause tval) fCtxTaskCauseValid = 1 := fget_fset _ _ _ (by decide)

theorem causeWord_cause {cause tval : Nat} : fget (causeWord cause tval) fCtxTaskCauseCause = cause % 2 ^ fCtxTaskCauseCause.width := by
  rw [causeWord, fget_fset_apart _ _ _ _ (by decide) (by decide) (by decide), fget_fset_apart _ _ _ _ (by decide) (by decide) (by decide),
    fget_fset _ _ _ (by decide)]

theorem hartException_of_task {cause tval : Nat} (hs : h.slot = some i) : hartException s c h cause tval =
    endTask (setR s (rCtxTaskCause c.e h.n i) (causeWord cause tval)) c.e i stFaultPermission 0 := by
  simp only [hartException, hs]
  rfl

/-- In M-mode an exception is taken at mtvec. -/
theorem hartException_of_mMode (hs : h.slot = none) : ∃ x : Hart, hartException s c h cause.toNat tval.toNat = putHart s c h x ∧
    x.mepc = h.hart.pc ∧ x.mcause = BitVec.ofNat 64 cause.toNat ∧ x.mtval = tval ∧ x.pc = h.hart.mtvec &&& ~~~3 ∧ x.x = h.hart.x := by
  simp only [hartException, hs]
  exact ⟨_, rfl, rfl, rfl, BitVec.ofNat_toNat _ _, rfl, rfl⟩

section
variable {e : Fin 32} {i : Fin 16}

theorem budgetExpiry_ends (hfree : taskState s e i ≠ tFree) (hbudget : (task s e i).budget ≠ 0)
    (hused : (task s e i).budget * 1000 < taskUsed s e i) : exec (.budgetExpiry e i) s = .next (endTask s e i stTimeout 0) :=
  congrArg Host.Outcome.next (if_neg fun hc => hc.elim hfree fun hc => hc.elim hbudget (Nat.not_le.2 hused))

theorem budgetExpiry_within (hwithin : (task s e i).budget = 0 ∨ taskUsed s e i ≤ (task s e i).budget * 1000) :
    exec (.budgetExpiry e i) s = .next s :=
  congrArg Host.Outcome.next (if_pos (.inr hwithin))

end

/-! ### The ends of a task that runs -/

section
variable {u : SpoolId} {cmd : Cmd} (hh : hartOf s c = some h) (hs : h.slot = some i) (hrun : RunsOn s c.e c.k i)
  (hu : (task s c.e i).u = some (u, cmd.slot)) (hcmds : (spool s u).cmds = [cmd])
include hrun hu hcmds

section
include hh hs

theorem mxExit_ends_task : ∃ t, exec (.mxExit c rs1) s = .next t ∧ taskState t c.e i = tFree ∧
    getF t (rCtxTask c.e h.n i) fCtxTaskExit = h.hart.readX rs1 % 2 ^ 32 ∧ coreState t c.e c.k = cIdle ∧
    (spool t u).cmds = [endedCmd cmd stOk (h.hart.readX rs1 % 2 ^ 32)] ∧ SameMemory s t := by
  obtain ⟨hfree, hidle, hended, hmem, hregs⟩ := endTask_ends (st := stOk) (d := h.hart.readX rs1 % 2 ^ 32)
    (hrun.setR (r := rCtxTask c.e h.n i) (v := fset _ fCtxTaskExit (h.hart.readX rs1 % 2 ^ 32)) rfl) hu hcmds
  refine ⟨_, mxExit_ends hh hs, hfree, ?_, hidle, hended, hmem⟩
  refine (congrArg (fget · _) (hregs _ (by simp [rCtxTask]) (by dsimp only [rCtxTask]; omega))).trans ?_
  exact (getF_setF_same _ _ _ _ (by decide)).trans (Nat.mod_mod _ _)

theorem spindleException_ends_task : ∃ t, exec (.spindleException c cause tval) s = .next t ∧ taskState t c.e i = tFree ∧
    getF t (rCtxTaskCause c.e h.n i) fCtxTaskCauseValid = 1 ∧
    getF t (rCtxTaskCause c.e h.n i) fCtxTaskCauseCause = cause.toNat % 2 ^ fCtxTaskCauseCause.width ∧
    (spool t u).cmds = [endedCmd cmd stFaultPermission 0] ∧ SameMemory s t := by
  obtain ⟨hfree, -, hended, hmem, hregs⟩ := endTask_ends (st := stFaultPermission) (d := 0)
    (hrun.setR (r := rCtxTaskCause c.e h.n i) (v := causeWord cause.toNat tval.toNat) rfl) hu hcmds
  have hcause := (hregs (rCtxTaskCause c.e h.n i) (by simp [rCtxTaskCause]) (by dsimp only [rCtxTaskCause]; omega)).trans
    (getR_setR_same _ _ _)
  refine ⟨_, (spindleException_eq hh).trans (congrArg Host.Outcome.next (hartException_of_task hs)), hfree, ?_, ?_, hended, hmem⟩
  · exact (congrArg (fget · _) hcause).trans causeWord_valid
  · exact (congrArg (fget · _) hcause).trans causeWord_cause

end

theorem budgetExpiry_ends_task {slot : Fin 16} (hslot : slot.val = i) (hbudget : (task s c.e i).budget ≠ 0)
    (hused : (task s c.e i).budget * 1000 < taskUsed s c.e i) : ∃ t, exec (.budgetExpiry c.e slot) s = .next t ∧ taskState t c.e i = tFree ∧
      (spool t u).cmds = [endedCmd cmd stTimeout 0] ∧ SameMemory s t := by
  subst hslot
  obtain ⟨hfree, -, hended, hmem, -⟩ := endTask_ends (st := stTimeout) (d := 0) hrun hu hcmds
  exact ⟨_, budgetExpiry_ends (by rw [hrun.task]; decide) hbudget hused, hfree, hended, hmem⟩

end

/-! ### TASK_DISPATCH (R128) -/

/-- Task i goes to core k, from now. -/
def dispatched (s : State) (e k i : Nat) : State :=
  let s := setTask s e i { task s e i with ranAt := s.time }
  let s := setF (setTaskState s e i tRunning) (rSchedSlot e i) fSchedSlotCore k
  let s := setF (setF s (rSpnState e k) fSpnStateState cRunning) (rSpnState e k) fSpnStateSlot i
  bump s (rSwitches e) fSwitches 1

theorem taskDispatch_takes (hidle : coreState s c.e c.k = cIdle) (hbest : bestTask s c.e c.k = some i) :
    exec (.taskDispatch c) s = .next (dispatched s c.e c.k i) := by
  change execTaskDispatch c s = _
  simp only [execTaskDispatch, hidle, hbest, ne_eq, not_true_eq_false, if_false]
  rfl

theorem taskDispatch_takes_none (hnone : coreState s c.e c.k ≠ cIdle ∨ bestTask s c.e c.k = none) : exec (.taskDispatch c) s = .next s := by
  change execTaskDispatch c s = _
  unfold execTaskDispatch
  split_ifs with hidle
  · rfl
  · rw [hnone.resolve_left hidle]

section
variable {e k : Nat}

theorem getR_bump_switches {t : State} {r : Reg} (hr : 0x1100 ≤ r.key.off ∨ r.key.off < 0x1048) :
    getR (bump t (rSwitches e) fSwitches 1) r = getR t r :=
  getR_setR_ne _ _ _ _ (key_ne_of_off (by dsimp only [rSwitches]; omega))

theorem taskState_dispatched (hk : k < 4) : taskState (dispatched s e k i) e i = tRunning := by
  have hne : (rSpnState e k).key ≠ (rSchedSlot e i).key := spnState_key_ne_schedSlot hk
  refine (congrArg (fget · _) (getR_bump_switches (.inl (by simp [rSchedSlot])))).trans ?_
  refine (getF_setF_ne _ _ _ _ _ _ hne).trans ((getF_setF_ne _ _ _ _ _ _ hne).trans ?_)
  exact (getF_setF_apart _ _ _ _ _ (by decide) (by decide) (by decide)).trans (taskState_setTaskState (by decide))

theorem getF_spnState_dispatched (hk : k < 4) (hi : i < 16) :
    coreState (dispatched s e k i) e k = cRunning ∧ coreSlot (dispatched s e k i) e k = i := by
  have hswitch : ∀ t, getR (bump t (rSwitches e) fSwitches 1) (rSpnState e k) = getR t (rSpnState e k) := fun _ =>
    getR_bump_switches (.inr (by dsimp only [rSpnState]; omega))
  constructor
  · refine (congrArg (fget · _) (hswitch _)).trans ((getF_setF_apart _ _ _ _ _ (by decide) (by decide) (by decide)).trans ?_)
    exact getF_setF_same _ _ _ _ (by decide)
  · exact (congrArg (fget · _) (hswitch _)).trans ((getF_setF_same _ _ _ _ (by decide)).trans (Nat.mod_eq_of_lt hi))

theorem task_dispatched : task (dispatched s e k i) e i = { task s e i with ranAt := s.time } := task_setTask_same

end

/-! ### QUANTUM_EXPIRY (R130) -/

/-- Another READY task that may use core k has at least the priority of task i. -/
def preempted (s : State) (e k i : Nat) : Bool :=
  (List.range 16).any (fun j => decide (j ≠ i) && mayRun s e k j && decide ((task s e i).prio ≤ (task s e j).prio))

theorem quantumExpiry_eq : exec (.quantumExpiry c) s = .next (
    if getF s (rSchedCfg c.e) fSchedCfgQuantum = 0 ∨ coreState s c.e c.k ≠ cRunning then s
    else if s.time < (task s c.e (coreSlot s c.e c.k)).ranAt + getF s (rSchedCfg c.e) fSchedCfgQuantum * 1000 then s
    else if preempted s c.e c.k (coreSlot s c.e c.k) then taskToReady s c.e (coreSlot s c.e c.k)
    else s) := rfl

theorem preempted_of {e k : Nat} {j : Fin 16} (hj : j.val ≠ i) (hmay : mayRun s e k j = true) (hprio : (task s e i).prio ≤ (task s e j).prio) :
    preempted s e k i = true :=
  List.any_eq_true.2 ⟨j, List.mem_range.2 j.isLt, by simp [hj, hmay, hprio]⟩

theorem not_preempted {e k : Nat} (hno : ∀ j : Fin 16, j.val ≠ i → mayRun s e k j = false ∨ (task s e j).prio < (task s e i).prio) :
    preempted s e k i = false := by
  refine List.any_eq_false.2 fun j hj => ?_
  by_cases hji : j = i
  · simp [hji]
  · rcases hno ⟨j, List.mem_range.1 hj⟩ hji with hmay | hprio
    · simp [hmay]
    · simp [hprio]

theorem quantumExpiry_preempts (hq : getF s (rSchedCfg c.e) fSchedCfgQuantum ≠ 0) (hcore : coreState s c.e c.k = cRunning)
    (htime : (task s c.e (coreSlot s c.e c.k)).ranAt + getF s (rSchedCfg c.e) fSchedCfgQuantum * 1000 ≤ s.time)
    (hp : preempted s c.e c.k (coreSlot s c.e c.k) = true) :
    exec (.quantumExpiry c) s = .next (taskToReady s c.e (coreSlot s c.e c.k)) := by
  rw [quantumExpiry_eq, if_neg (by simp [hq, hcore]), if_neg (Nat.not_lt.2 htime), if_pos hp]

theorem quantumExpiry_keeps (hno : getF s (rSchedCfg c.e) fSchedCfgQuantum = 0 ∨ coreState s c.e c.k ≠ cRunning ∨
    s.time < (task s c.e (coreSlot s c.e c.k)).ranAt + getF s (rSchedCfg c.e) fSchedCfgQuantum * 1000 ∨
    preempted s c.e c.k (coreSlot s c.e c.k) = false) : exec (.quantumExpiry c) s = .next s := by
  rw [quantumExpiry_eq]
  split_ifs with h1 h2 h3
  · rfl
  · rfl
  · obtain ⟨hq, hcore⟩ := not_or.1 h1
    simp [hq, hcore, h2, h3] at hno
  · rfl

/-! ### The statement -/

/-- Settles O25: each end is `endTask` of a task that runs, and the scheduler's rows take one branch for each clause. -/
theorem tasksAreScheduledAndEnd : Obligations.TasksAreScheduledAndEnd := by
  refine ⟨?_, ⟨?_, ?_, ?_, ?_, ?_⟩, ?_, ?_, ?_, ?_⟩
  · intro s c h i u cmd hh hs htask hu hcmds _ halone
    have hrun := hartOf_runsOn hh hs htask halone
    exact ⟨fun _ => mxExit_ends_task hh hs hrun hu hcmds, fun _ _ => spindleException_ends_task hh hs hrun hu hcmds,
      budgetExpiry_ends_task hrun hu hcmds rfl, budgetExpiry_within⟩
  · exact fun _ _ _ _ _ => mxExit_ends
  · exact fun _ _ _ _ => mxExit_returns
  · exact fun _ _ _ _ _ => spindleException_eq
  · intro s c h cause tval hh hs
    obtain ⟨x, hx, hsaved⟩ := hartException_of_mMode (s := s) (c := c) (cause := cause) (tval := tval) hs
    exact ⟨x, (spindleException_eq hh).trans (congrArg Host.Outcome.next hx), hsaved⟩
  · exact fun _ _ _ => budgetExpiry_ends
  · intro s c i hidle hbest
    obtain ⟨hcore, hslot⟩ := getF_spnState_dispatched (s := s) (e := c.e) c.k.isLt i.isLt
    exact ⟨_, taskDispatch_takes hidle hbest, taskState_dispatched c.k.isLt, hcore, hslot, congrArg Task.ranAt task_dispatched,
      sameMemory_of_eq rfl rfl⟩
  · exact fun _ _ => taskDispatch_takes_none
  · intro s c j hq hcore htime hj hmay hprio _
    exact ⟨_, quantumExpiry_preempts hq hcore htime (preempted_of hj hmay hprio), taskState_taskToReady, taskToReady_taskWork.sameMemory⟩
  · exact fun _ _ hno => quantumExpiry_keeps (hno.imp_right (.imp_right (.imp_right not_preempted)))

end Sys2Proof.Machine
end

section
namespace Sys2Proof.Machine
open Sys2Proof

/-! PROOFS. The mx instructions of a Spindle core (O24).

Each row first asks which hart runs and what its register names; under those two answers it takes one branch for each clause. MX_AWAIT and
MX_YIELD give up the core of a task, as `RunsOn` and `taskToReady` say. The words of custom-0 are sums of shifted fields, which division by
powers of two takes apart again. -/

variable {s s2 : State} {c : CoreId} {h : HartCtx} {rd rs1 vs2 : Fin 32} {u : SpoolId} {b i : Nat}

/-! ### MX_ROOM, MX_BSTATE, MX_AWAIT, MX_BDONE and MX_YIELD (R121, R158) -/

section
variable (hh : hartOf s c = some h)
include hh

section
variable (hu : mxSpool s c h rs1 = some u)
include hu

theorem mxRoom_answers : exec (.mxRoom c rd rs1) s = .next (putHart s c h (h.hart.writeX rd (freeSlots s u)).adv) := by
  change execMxRoom c rd rs1 s = _
  simp only [execMxRoom, hh, hu]

end

section
variable (hb : mxBob s c h rs1 = some b)
include hb

theorem mxBstate_answers :
    exec (.mxBstate c rd rs1) s = .next (putHart s c h (h.hart.writeX rd ((getR s (rBobState c.e b)).toNat % 2 ^ 32)).adv) := by
  change execMxBstate c rd rs1 s = _
  simp only [execMxBstate, hh, hb]

theorem mxBdone_counts : exec (.mxBdone c rs1) s = .next (bobRead (putHart s c h h.hart.adv) c.e h.n b) := by
  change execMxBdone c rs1 s = _
  simp only [execMxBdone, hh, hb]

theorem mxAwait_ready (hready : bobState s c.e b = bReady) : exec (.mxAwait c rs1) s = .next (putHart s c h h.hart.adv) := by
  change execMxAwait c rs1 s = _
  simp only [execMxAwait, hh, hb, hready, if_true]

theorem mxAwait_mMode (hready : bobState s c.e b ≠ bReady) (hs : h.slot = none) : exec (.mxAwait c rs1) s = .next s := by
  change execMxAwait c rs1 s = _
  simp only [execMxAwait, hh, hb, hready, hs, if_false]

end

theorem mxYield_mMode (hs : h.slot = none) : exec (.mxYield c) s = .next (putHart s c h h.hart.adv) := by
  change execMxYield c s = _
  simp only [execMxYield, hh, hs]

/-! ### An index of no spool or bobbin (R125) -/

theorem mxSpool_none_illegal (hu : mxSpool s c h rs1 = none) :
    exec (.mxRoom c rd rs1) s = .next (illegal s c h) ∧ exec (.mxIssue c rd rs1 vs2) s = .next (illegal s c h) := by
  constructor
  · change execMxRoom c rd rs1 s = _
    simp only [execMxRoom, hh, hu]
  · change execMxIssue c rd rs1 vs2 s = _
    simp only [execMxIssue, hh, hu]

theorem mxBob_none_illegal (hb : mxBob s c h rs1 = none) :
    exec (.mxAwait c rs1) s = .next (illegal s c h) ∧ exec (.mxBdone c rs1) s = .next (illegal s c h) ∧
      ∀ rd : Fin 32, exec (.mxBstate c rd rs1) s = .next (illegal s c h) := by
  refine ⟨?_, ?_, fun rd => ?_⟩
  · change execMxAwait c rs1 s = _
    simp only [execMxAwait, hh, hb]
  · change execMxBdone c rs1 s = _
    simp only [execMxBdone, hh, hb]
  · change execMxBstate c rd rs1 s = _
    simp only [execMxBstate, hh, hb]

end

/-! ### A task that gives up its core (R121, R129) -/

/-- The task behind its instruction. -/
def stepped (s : State) (c : CoreId) (h : HartCtx) (i : Nat) : State := setTask s c.e i { task s c.e i with hart := h.hart.adv }

theorem stepped_taskWork : TaskWork s (stepped s c h i) := .setTask

theorem stepped_hart : (task (stepped s c h i) c.e i).hart = h.hart.adv := congrArg Task.hart task_setTask_same

theorem RunsOn.stepped (hr : RunsOn s c.e c.k i) : RunsOn (stepped s c h i) c.e c.k i := hr.of_regs fun _ _ => rfl

/-- The task WAITING for a bobbin, without a core. -/
def waitsFor (s : State) (e i b : Nat) : State := setTaskState (setTask (freeCore s e i) e i { task s e i with await := some b }) e i tWaiting

theorem waitsFor_taskWork {e : Nat} : TaskWork s (waitsFor s e i b) := (freeCore_taskWork.trans .setTask).trans (.setF rfl)

theorem task_waitsFor {e : Nat} : task (waitsFor s e i b) e i = { task s e i with await := some b } := task_setTask_same (s := freeCore s e i)

theorem RunsOn.waitsFor_idles {e k : Nat} (hr : RunsOn s e k i) : coreState (waitsFor s e i b) e k = cIdle :=
  (getF_setF_ne _ _ _ _ _ _ (spnState_key_ne_schedSlot hr.lt).symm).trans hr.core_idles

section
variable (hh : hartOf s c = some h) (hs : h.slot = some i)
include hh hs

theorem mxAwait_waits (hb : mxBob s c h rs1 = some b) (hready : bobState s c.e b ≠ bReady) :
    exec (.mxAwait c rs1) s = .next (waitsFor (stepped s c h i) c.e i b) := by
  change execMxAwait c rs1 s = _
  simp only [execMxAwait, hh, hb, hready, hs, if_false, putHart_of_task hs]
  rfl

theorem mxAwait_frees_core (hb : mxBob s c h rs1 = some b) (hready : bobState s c.e b ≠ bReady) (hr : RunsOn s c.e c.k i) :
    ∃ t, exec (.mxAwait c rs1) s = .next t ∧ taskState t c.e i = tWaiting ∧ (task t c.e i).await = some b ∧
      (task t c.e i).hart = h.hart.adv ∧ coreState t c.e c.k = cIdle ∧ SameMemory s t := by
  refine ⟨_, mxAwait_waits hh hs hb hready, taskState_setTaskState (by decide), congrArg Task.await task_waitsFor, ?_,
    hr.stepped.waitsFor_idles, (stepped_taskWork.trans waitsFor_taskWork).sameMemory⟩
  rw [task_waitsFor, stepped_hart]

theorem mxYield_readies : ∃ t, exec (.mxYield c) s = .next t ∧ taskState t c.e i = tReady ∧ (task t c.e i).hart = h.hart.adv ∧
    (task t c.e i).readyAt = s.time ∧ SameMemory s t := by
  have hexec : exec (.mxYield c) s = .next (taskToReady (stepped s c h i) c.e i) := by
    change execMxYield c s = _
    simp only [execMxYield, hh, hs, putHart_of_task hs]
    rfl
  refine ⟨_, hexec, taskState_taskToReady, ?_, congrArg Task.readyAt task_taskToReady, (stepped_taskWork.trans taskToReady_taskWork).sameMemory⟩
  rw [task_taskToReady]
  exact stepped_hart

end

/-! ### MX_ISSUE (R122, R123) -/

/-- The bytes of the command in the registers from vs2: four registers where it is a TRANSFER_INLINE. -/
def issueBytes (x : Hart) (r : Nat) : Bytes := if u8At (x.readV r) 0 = 2 then (List.range 4).flatMap (fun i => x.readV (r + i)) else x.readV r

/-- Another agent holds the spool's lock. -/
def lockBusy (s : State) (u : SpoolId) (ag : Agent) : Bool := match (spool s u).lease with
  | some (a, _) => decide (a ≠ ag)
  | none => false

theorem lockBusy_of_other {ag a : Agent} {t : Nat} (hl : (spool s u).lease = some (a, t)) (ha : a ≠ ag) : lockBusy s u ag = true := by
  simp only [lockBusy, hl, decide_eq_true_eq]
  exact ha

theorem not_lockBusy {ag : Agent} (hl : ∀ a t, (spool s u).lease = some (a, t) → a = ag) : lockBusy s u ag = false := by
  unfold lockBusy
  split
  · next a t ha => simp [hl a t ha]
  · rfl

/-- The command issued where the lock, the room and the doorbell allow it. -/
def issueAppended (s : State) (c : CoreId) (h : HartCtx) (rd : Nat) (u : SpoolId) (b : Bytes) : State :=
  match reachSlots s c h u (sqTail s u) (b.length / 64) with
  | (s, some slots) => putHart (appendCmd s (spindleAgent c h) u slots b) c h (h.hart.writeX rd 0).adv
  | (s, none) => s

/-- The answer where a doorbell of the agent would be refused (R143): DB_ERR is set and rd is free (log 13). -/
def issueRefused (s : State) (c : CoreId) (h : HartCtx) (rd : Nat) (u : SpoolId) : State :=
  let (v, s) := drawFree (setF s (rSpStatus u.e u.n u.s) fSpStatusDbErr 1)
  putHart s c h (h.hart.writeX rd v.toNat).adv

section
variable (hh : hartOf s c = some h) (hu : mxSpool s c h rs1 = some u)
include hh hu

theorem mxIssue_misaligned (hlong : u8At (h.hart.readV vs2) 0 = 2) (hreg : vs2.val % 4 ≠ 0) :
    exec (.mxIssue c rd rs1 vs2) s = .next (illegal s c h) := by
  change execMxIssue c rd rs1 vs2 s = _
  simp [execMxIssue, hh, hu, hlong, hreg]

variable {b : Bytes} (hreg : u8At (h.hart.readV vs2) 0 = 2 → vs2.val % 4 = 0) (hbytes : issueBytes h.hart vs2 = b)
include hreg hbytes

/-- The checks of MX_ISSUE in their order, for a command whose registers are aligned. -/
theorem mxIssue_eq : exec (.mxIssue c rd rs1 vs2) s = .next (
    if hartPending s c = true then s
    else if lockBusy s u (spindleAgent c h) = true then putHart s c h (h.hart.writeX rd 2).adv
    else if freeSlots s u < b.length / 64 then putHart s c h (h.hart.writeX rd 1).adv
    else if spState s u ≠ spActive ∨ (spool s u).expired = some (spindleAgent c h) then issueRefused s c h rd u
    else issueAppended s c h rd u b) := by
  subst hbytes
  change execMxIssue c rd rs1 vs2 s = _
  simp only [execMxIssue, hh, hu, decide_eq_true_eq]
  rw [if_neg fun hc => hc.2 (hreg hc.1)]
  rfl

theorem mxIssue_pending (hp : hartPending s c = true) : exec (.mxIssue c rd rs1 vs2) s = .next s := by
  rw [mxIssue_eq hh hu hreg hbytes, if_pos hp]

variable (hp : hartPending s c = false)
include hp

theorem mxIssue_busy {a : Agent} {t : Nat} (hl : (spool s u).lease = some (a, t)) (ha : a ≠ spindleAgent c h) :
    exec (.mxIssue c rd rs1 vs2) s = .next (putHart s c h (h.hart.writeX rd 2).adv) := by
  rw [mxIssue_eq hh hu hreg hbytes, if_neg (by simp [hp]), if_pos (lockBusy_of_other hl ha)]

variable (hl : ∀ a t, (spool s u).lease = some (a, t) → a = spindleAgent c h)
include hl

theorem mxIssue_full (hfull : freeSlots s u < b.length / 64) :
    exec (.mxIssue c rd rs1 vs2) s = .next (putHart s c h (h.hart.writeX rd 1).adv) := by
  rw [mxIssue_eq hh hu hreg hbytes, if_neg (by simp [hp]), if_neg (by simp [not_lockBusy hl]), if_pos hfull]

theorem mxIssue_appends {slots : List (List Piece)} (hroom : b.length / 64 ≤ freeSlots s u) (hactive : spState s u = spActive)
    (hexp : (spool s u).expired ≠ some (spindleAgent c h)) (hreach : reachSlots s c h u (sqTail s u) (b.length / 64) = (s2, some slots)) :
    exec (.mxIssue c rd rs1 vs2) s = .next (putHart (appendCmd s2 (spindleAgent c h) u slots b) c h (h.hart.writeX rd 0).adv) := by
  rw [mxIssue_eq hh hu hreg hbytes, if_neg (by simp [hp]), if_neg (by simp [not_lockBusy hl]), if_neg (Nat.not_lt.2 hroom),
    if_neg (by simp [hactive, hexp]), issueAppended, hreach]

end

/-! ### The words of custom-0 (R121) -/

section
variable {f : Nat} {rs2 : Fin 32}

theorem mxWord_opcode : mxWord f rd rs1 rs2 % 2 ^ 7 = 0b0001011 := by
  unfold mxWord
  omega

theorem mxWord_funct3 (hf : f < 8) : mxWord f rd rs1 rs2 / 2 ^ 12 % 8 = f := by
  unfold mxWord
  omega

theorem mxWord_rd : Fin.ofNat 32 (mxWord f rd rs1 rs2 / 2 ^ 7) = rd := Fin.ext (by simp only [Fin.val_ofNat, mxWord]; omega)

theorem mxWord_rs1 (hf : f < 8) : Fin.ofNat 32 (mxWord f rd rs1 rs2 / 2 ^ 15) = rs1 := Fin.ext (by simp only [Fin.val_ofNat, mxWord]; omega)

theorem mxWord_rs2 (hf : f < 8) : Fin.ofNat 32 (mxWord f rd rs1 rs2 / 2 ^ 20) = rs2 := Fin.ext (by simp only [Fin.val_ofNat, mxWord]; omega)

/-- The instruction that funct3 names, with its registers. -/
def mxInstr (c : CoreId) (rd rs1 vs2 : Fin 32) : Nat → Option Instr
  | 0 => some (.mxIssue c rd rs1 vs2)
  | 1 => some (.mxRoom c rd rs1)
  | 2 => some (.mxAwait c rs1)
  | 3 => some (.mxBstate c rd rs1)
  | 4 => some (.mxBdone c rs1)
  | 5 => some (.mxYield c)
  | 6 => some (.mxExit c rs1)
  | _ => none

theorem mxDecode_mxWord (hf : f < 8) : mxDecode c (mxWord f rd rs1 rs2) = mxInstr c rd rs1 rs2 f := by
  have hdec : ∀ w, w % 2 ^ 7 = 0b0001011 →
      mxDecode c w = mxInstr c (Fin.ofNat 32 (w / 2 ^ 7)) (Fin.ofNat 32 (w / 2 ^ 15)) (Fin.ofNat 32 (w / 2 ^ 20)) (w / 2 ^ 12 % 8) :=
    fun w hw => if_neg (not_not.2 hw)
  rw [hdec _ mxWord_opcode, mxWord_funct3 hf, mxWord_rd, mxWord_rs1 hf, mxWord_rs2 hf]

end

/-! ### The statement -/

/-- Settles O24: each clause is one branch of its row, and a word of custom-0 gives back the fields it was put together from. -/
theorem spindleInstructions : Obligations.SpindleInstructions := by
  refine ⟨?_, ?_, ⟨?_, ?_⟩, ?_⟩
  · intro s c h hh
    exact ⟨fun _ _ _ => mxRoom_answers hh, fun _ _ _ => mxBstate_answers hh, fun _ _ => mxAwait_ready hh, fun _ _ => mxAwait_mMode hh,
      fun _ _ => mxBdone_counts hh, mxYield_mMode hh, fun _ hu _ _ => mxSpool_none_illegal hh hu, fun _ => mxBob_none_illegal hh⟩
  · intro s c h i hh hs
    exact ⟨fun _ _ hb hready htask halone => mxAwait_frees_core hh hs hb hready (hartOf_runsOn hh hs htask halone), mxYield_readies hh hs⟩
  · intro s c h u rd rs1 vs2 b hh hu hreg hbytes
    exact ⟨mxIssue_pending hh hu hreg hbytes, fun _ _ hp hl => mxIssue_appends hh hu hreg hbytes hp hl,
      fun hp hl => mxIssue_full hh hu hreg hbytes hp hl, fun _ _ hp => mxIssue_busy hh hu hreg hbytes hp⟩
  · exact fun _ _ _ _ _ _ _ => mxIssue_misaligned
  · intro c rd rs1 rs2
    exact ⟨mxDecode_mxWord (by decide), mxDecode_mxWord (by decide), mxDecode_mxWord (by decide), mxDecode_mxWord (by decide),
      mxDecode_mxWord (by decide), mxDecode_mxWord (by decide), mxDecode_mxWord (by decide), mxDecode_mxWord (by decide)⟩

end Sys2Proof.Machine
end

section
namespace Sys2Proof.Machine
open Sys2Proof

/-! PROOFS. TASK queues its slot, or ends with RESOURCE or FORMAT (O14).

A TASK that nothing refuses writes its slot and wakes the engine's tasks. Waking goes through the slots one by one (`wakeTask`), and what it
does to one slot neither looks at nor changes another (`wakeTasks_slot`), so the new task is READY exactly where its input bobbins are. -/

variable {s s0 t : State} {u : SpoolId} {c c0 : Cmd} {e i j : Nat}
variable {sel : Bytes → Bool} {bad : State → Cmd → Bool} {bobs : Bytes → List Nat}

/-! ### The tasks that bobbins wake (R127) -/

/-- The bobbins that the task of a slot waits for are ready. -/
def wakes (s : State) (e i : Nat) : Bool :=
  (decide (taskState s e i = tWaiting) && (task s e i).await.any (fun b => decide (bobState s e b = bReady))) ||
    (decide (taskState s e i = tQueued) && (task s e i).inputs.all (fun b => decide (bobState s e b = bReady)))

def wakeTask (e : Nat) (s : State) (i : Nat) : State := if wakes s e i then taskToReady s e i else s

theorem wakeTasks_eq : wakeTasks s e = (List.range 16).foldl (wakeTask e) s := by
  unfold wakeTasks
  congr 1
  funext s i
  by_cases hw : taskState s e i = tWaiting
  · have hne : tWaiting ≠ tQueued := by decide
    cases ha : (task s e i).await <;> simp [wakeTask, wakes, hw, ha, hne]
  · simp [wakeTask, wakes, hw, ← ite_and]

theorem wakes_not_running (h : wakes s e i = true) : taskState s e i ≠ tRunning := by
  intro hrun
  have h1 : tRunning ≠ tWaiting := by decide
  have h2 : tRunning ≠ tQueued := by decide
  simp [wakes, hrun, h1, h2] at h

/-- A slot, every bobbin of its engine and the time are as they were. -/
structure SameSlot (e i : Nat) (s t : State) : Prop where
  state : taskState t e i = taskState s e i
  task : task t e i = task s e i
  bobs : ∀ b, bobState t e b = bobState s e b
  time : t.time = s.time

namespace SameSlot

theorem refl : SameSlot e i s s := ⟨.refl _, .refl _, fun _ => .refl _, .refl _⟩

theorem trans {s2 : State} (h : SameSlot e i s t) (h2 : SameSlot e i t s2) : SameSlot e i s s2 :=
  ⟨h2.state.trans h.state, h2.task.trans h.task, fun b => (h2.bobs b).trans (h.bobs b), h2.time.trans h.time⟩

theorem wakes_eq (h : SameSlot e i s t) : wakes t e i = wakes s e i := by
  simp only [wakes, h.state, h.task, h.bobs]

theorem readied_eq (h : SameSlot e i s t) : readied t e i = readied s e i := by
  simp only [readied, taskUsed, h.state, h.task, h.time]

end SameSlot

theorem wakeTask_of_wakes (h : wakes s e i = true) : wakeTask e s i = setTaskState (setTask s e i (readied s e i)) e i tReady := by
  rw [wakeTask, if_pos h, taskToReady_eq, offCore_of_not_running (wakes_not_running h)]

theorem wakeTask_of_not_wakes (h : wakes s e i = false) : wakeTask e s i = s := if_neg (by simp [h])

/-- Waking another slot. -/
theorem wakeTask_other (hj : j < 16) (hji : j ≠ i) : SameSlot e i s (wakeTask e s j) := by
  cases hw : wakes s e j with
  | false =>
    rw [wakeTask_of_not_wakes hw]
    exact .refl
  | true =>
    rw [wakeTask_of_wakes hw]
    refine ⟨taskState_setTaskState_ne hji, task_setTask.trans (if_neg hji), fun b => getF_setF_ne _ _ _ _ _ _ (key_ne_of_off ?_), rfl⟩
    dsimp only [rSchedSlot, rBobState]
    omega

theorem foldl_wakeTask_other {l : List Nat} (hl : ∀ j ∈ l, j < 16) (hi : i ∉ l) : SameSlot e i s (l.foldl (wakeTask e) s) := by
  induction l generalizing s with
  | nil => exact .refl
  | cons j l ih =>
    obtain ⟨hij, hi⟩ := List.ne_and_not_mem_of_not_mem_cons hi
    exact (wakeTask_other (hl j List.mem_cons_self) (Ne.symm hij)).trans (ih (fun k hk => hl k (List.mem_cons_of_mem _ hk)) hi)

/-- Of one slot, waking all tasks wakes its own. -/
theorem wakeTasks_slot (hi : i < 16) : ∃ s1, SameSlot e i s s1 ∧ SameSlot e i (wakeTask e s1 i) (wakeTasks s e) := by
  obtain ⟨l, r, hlr⟩ := List.append_of_mem (List.mem_range.2 hi)
  have hnodup : (l ++ i :: r).Nodup := hlr ▸ List.nodup_range
  obtain ⟨hni, -⟩ := List.nodup_cons.1 (List.nodup_middle.1 hnodup)
  have hlt : ∀ j ∈ l ++ i :: r, j < 16 := fun j hj => List.mem_range.1 (hlr ▸ hj)
  rw [wakeTasks_eq, hlr, List.foldl_append, List.foldl_cons]
  exact ⟨_, foldl_wakeTask_other (fun j hj => hlt j (List.mem_append_left _ hj)) (fun hm => hni (List.mem_append_left _ hm)),
    foldl_wakeTask_other (fun j hj => hlt j (List.mem_append_right _ (List.mem_cons_of_mem _ hj))) (fun hm => hni (List.mem_append_right _ hm))⟩

/-- Waking makes a task READY where the bobbins it waits for are ready, and leaves every other as it is. -/
theorem slot_wakeTasks (hi : i < 16) : taskState (wakeTasks s e) e i = (if wakes s e i then tReady else taskState s e i) ∧
    task (wakeTasks s e) e i = (if wakes s e i then readied s e i else task s e i) := by
  obtain ⟨s1, h1, h2⟩ := wakeTasks_slot (s := s) (e := e) hi
  rw [h2.state, h2.task, ← h1.wakes_eq, ← h1.state, ← h1.task, ← h1.readied_eq]
  cases hw : wakes s1 e i with
  | false => simp [wakeTask_of_not_wakes hw]
  | true =>
    rw [wakeTask_of_wakes hw]
    exact ⟨taskState_setTaskState (by decide), task_setTask_same⟩

theorem wakeTasks_taskWork : TaskWork s (wakeTasks s e) := by
  rw [wakeTasks_eq]
  refine .foldl fun t i => ?_
  unfold wakeTask
  split
  · exact taskToReady_taskWork
  · exact .refl

/-! ### A TASK that is refused, and one that queues (R126, R127) -/

/-- The slot is not the context's, not enabled or not FREE, or a retired core is named. -/
def taskRefused (s : State) (u : SpoolId) (b : Bytes) : Prop :=
  taskOwner s u.e (taskSlotIdx b) ≠ u.n.val ∨ ¬getB s (rSchedSlot u.e (taskSlotIdx b)) fSchedSlotEnable ∨
    taskState s u.e (taskSlotIdx b) ≠ tFree ∨ (bitOf (u8At b 9) 2 && (engAux s u.e).deadCores.elem (u8At b 9 / 8 % 4)) = true

/-- The task that a TASK command puts into its slot. -/
def newTask (u : SpoolId) (c : Cmd) : Task :=
  { hart := startHart c.bytes, prio := u8At c.bytes 9 % 4, pin := if bitOf (u8At c.bytes 9) 2 then some (u8At c.bytes 9 / 8 % 4) else none
    inputs := taskBobs c.bytes, budget := u32At c.bytes 12, u := some (u, c.slot) }

/-- The slot holds the task, QUEUED; EXIT and the cause are cleared. -/
def taskQueued (s : State) (u : SpoolId) (c : Cmd) : State :=
  let s := setTaskState (setTask s u.e (taskSlotIdx c.bytes) (newTask u c)) u.e (taskSlotIdx c.bytes) tQueued
  setR (setF s (rCtxTask u.e u.n (taskSlotIdx c.bytes)) fCtxTaskExit 0) (rCtxTaskCause u.e u.n (taskSlotIdx c.bytes)) 0

theorem taskBody_refused (h : taskRefused s u c.bytes) : taskBody u s c = (s, c, .ends stResource 0) := if_pos h

theorem taskBody_queues (h : ¬taskRefused s u c.bytes) : taskBody u s c = (wakeTasks (taskQueued s u c) u.e, c, .runs) := if_neg h

theorem markStart_deadCores (h : markStart s u c = (s0, c0)) : (engAux s0 e).deadCores = (engAux s e).deadCores := by
  unfold markStart at h
  split at h
  · obtain ⟨rfl, -⟩ := Prod.mk.inj h
    rw [engAux_setEngAux]
    split
    · next he => rw [← he]
    · rfl
  · obtain ⟨rfl, -⟩ := Prod.mk.inj h
    rfl

theorem markStart_tasks (h : markStart s u c = (s0, c0)) : s0.eng.tasks = s.eng.tasks := by
  unfold markStart at h
  split at h
  all_goals
    obtain ⟨rfl, -⟩ := Prod.mk.inj h
    rfl

/-- The mark of the start does not decide whether the TASK is refused. -/
theorem taskRefused_marked (h : markStart s u c = (s0, c0)) : taskRefused s0 u c0.bytes ↔ taskRefused s u c.bytes := by
  have hm := markStart_marked h
  simp only [taskRefused, taskOwner, taskState, getB, hm.bytes, hm.getF_eq, markStart_deadCores h]

/-! ### The slot of a TASK that queues -/

theorem ctxPage_key_ne {q r : Reg} (hq : q.key.blk = .engC) (hr : r.key.blk = .engP) : q.key ≠ r.key := key_ne_of_blk (by simp [hq, hr])

/-- Of the engines' own pages a TASK writes its slot alone. -/
theorem getR_taskQueued {r : Reg} (hr : r.key.blk = .engP) : getR (taskQueued s u c) r =
    getR (setTaskState (setTask s u.e (taskSlotIdx c.bytes) (newTask u c)) u.e (taskSlotIdx c.bytes) tQueued) r :=
  (getR_setR_ne _ _ _ _ (ctxPage_key_ne rfl hr)).trans (getR_setR_ne _ _ _ _ (ctxPage_key_ne rfl hr))

theorem taskState_taskQueued : taskState (taskQueued s u c) u.e (taskSlotIdx c.bytes) = tQueued :=
  (congrArg (fget · _) (getR_taskQueued rfl)).trans (taskState_setTaskState (by decide))

theorem task_taskQueued : task (taskQueued s u c) u.e (taskSlotIdx c.bytes) = newTask u c := task_setTask_same

theorem bobState_taskQueued {b : Nat} (hi : taskSlotIdx c.bytes < 16) : bobState (taskQueued s u c) u.e b = bobState s u.e b := by
  refine (congrArg (fget · _) (getR_taskQueued rfl)).trans (getF_setF_ne _ _ _ _ _ _ (key_ne_of_off ?_))
  dsimp only [rSchedSlot, rBobState]
  omega

theorem getF_taskQueued_exit :
    getF (taskQueued s u c) (rCtxTask u.e u.n (taskSlotIdx c.bytes)) fCtxTaskExit = 0 := by
  have hne : (rCtxTaskCause u.e u.n (taskSlotIdx c.bytes)).key ≠ (rCtxTask u.e u.n (taskSlotIdx c.bytes)).key :=
    key_ne_of_off (by dsimp only [rCtxTask, rCtxTaskCause]; omega)
  exact (congrArg (fget · _) (getR_setR_ne _ _ _ _ hne)).trans (getF_setF_same _ _ _ _ (by decide))

theorem getR_taskQueued_cause : getR (taskQueued s u c) (rCtxTaskCause u.e u.n (taskSlotIdx c.bytes)) = 0 := getR_setR_same _ _ _

/-- The new task is woken where its input bobbins are ready. -/
theorem wakes_taskQueued (hi : taskSlotIdx c.bytes < 16) :
    wakes (taskQueued s u c) u.e (taskSlotIdx c.bytes) = (taskBobs c.bytes).all (fun b => decide (bobState s u.e b = bReady)) := by
  have hne : tQueued ≠ tWaiting := by decide
  simp only [wakes, taskState_taskQueued, task_taskQueued, bobState_taskQueued hi, newTask, hne, decide_false, decide_true, Bool.false_and,
    Bool.true_and, Bool.false_or]

/-- The slot after the tasks are woken: READY where the input bobbins are ready, its task new but for the times. -/
theorem slot_queued (hi : taskSlotIdx c.bytes < 16) (ht : t = wakeTasks (taskQueued s u c) u.e) :
    taskState t u.e (taskSlotIdx c.bytes) = (if (taskBobs c.bytes).all (fun b => decide (bobState s u.e b = bReady)) then tReady else tQueued) ∧
      (task t u.e (taskSlotIdx c.bytes)).hart = startHart c.bytes ∧ (task t u.e (taskSlotIdx c.bytes)).budget = u32At c.bytes 12 ∧
      (task t u.e (taskSlotIdx c.bytes)).prio = u8At c.bytes 9 % 4 ∧ (task t u.e (taskSlotIdx c.bytes)).u = some (u, c.slot) := by
  subst ht
  obtain ⟨hstate, htask⟩ := slot_wakeTasks (s := taskQueued s u c) (e := u.e) hi
  rw [hstate, htask, wakes_taskQueued hi, taskState_taskQueued]
  refine ⟨rfl, ?_⟩
  split
  · rw [readied, task_taskQueued]
    exact ⟨rfl, rfl, rfl, rfl⟩
  · rw [task_taskQueued]
    exact ⟨rfl, rfl, rfl, rfl⟩

/-! ### The checks and the ends of a command -/

theorem taskSlotIdx_lt (h : taskBad s c = false) : taskSlotIdx c.bytes < 16 := by
  by_contra hi
  have hbad : decide (u8At c.bytes 8 < 16) = false := decide_eq_false hi
  simp [taskBad, hbad] at h

theorem taskBad_of (h : zeroSpan c.bytes 44 20 = false ∨ 1000000 < u32At c.bytes 12) : taskBad s c = true := by
  rcases h with hzero | hbudget
  · simp [taskBad, hzero]
  · simp [taskBad, Nat.not_le.2 hbudget]

/-- A command with an invalid field ends with FORMAT (R149). -/
theorem runCmd_of_bad {body : State → Cmd → State × Cmd × Act} (hp : pick s u = some c) (hmark : markStart s u c = (s0, c0))
    (hsel : sel c.bytes = true) (hlater : c.poisonLater = false) (hbad : bad s0 c0 = true) : runCmd s u sel bad bobs body = endsWith s0 u c0 stFormat 0 := by
  have hm := markStart_marked hmark
  simp [runCmd, hp, hmark, hsel, hm.poisonLater, hlater, hbad, endsWith]

/-- What a command was waiting for is dropped without a change of registers or engines. -/
theorem tierDone_regs_eng {slot : Nat} : (tierDone s u slot).regs = s.regs ∧ (tierDone s u slot).eng = s.eng := by
  have hpoison : ∀ (t : State) (a n : Nat), (mpaPoison t a n).regs = t.regs ∧ (mpaPoison t a n).eng = t.eng := fun t a n =>
    List.foldlRecOn (motive := fun t2 : State => t2.regs = t.regs ∧ t2.eng = t.eng) _ _ ⟨rfl, rfl⟩ fun _ h _ _ => h
  refine List.foldlRecOn (motive := fun t : State => t.regs = s.regs ∧ t.eng = s.eng) _ _ ⟨rfl, rfl⟩ fun t ht w _ => ?_
  exact List.foldlRecOn (motive := fun t : State => t.regs = s.regs ∧ t.eng = s.eng) _ _ ht fun t2 ht2 x _ =>
    ⟨(hpoison _ _ _).1.trans ht2.1, (hpoison _ _ _).2.trans ht2.2⟩

theorem getR_finishes {r : Reg} {st d : Nat} (hr : 0x200 ≤ r.key.off) : getR (finishes s u c st d) r = getR s r := by
  refine (getR_endCmd hr).trans ((getR_updCmd hr).trans ?_)
  rw [getR, tierDone_regs_eng.1]
  rfl

theorem finishes_tasks {st d : Nat} : (finishes s u c st d).eng.tasks = s.eng.tasks := by
  refine endCmd_tasks.trans ?_
  change (tierDone s u c.slot).eng.tasks = _
  rw [tierDone_regs_eng.2]

theorem CmdDue.markStart_eq (h : CmdDue sel bad bobs s u c s0 c0) : markStart s u c = (s0, c0) := by
  obtain ⟨-, hmark, -⟩ := h
  exact hmark

theorem CmdDue.bad_eq_false (h : CmdDue sel bad bobs s u c s0 c0) : bad s0 c0 = false := by
  obtain ⟨-, -, -, -, -, hbad, -⟩ := h
  exact hbad

/-! ### The row -/

section
variable (h : CmdDue (isOp 0x60) taskBad taskBobs s u c s0 c0)
include h

/-- TASK ends with RESOURCE and leaves the slot as it is (R126). -/
theorem task_ends_resource (href : taskRefused s u c.bytes) :
    ∃ t, exec (.task u) s = .next t ∧ t = finishes s0 u c0 stResource 0 ∧
      taskState t u.e (taskSlotIdx c.bytes) = taskState s u.e (taskSlotIdx c.bytes) ∧
      task t u.e (taskSlotIdx c.bytes) = task s u.e (taskSlotIdx c.bytes) := by
  have hmark := h.markStart_eq
  refine ⟨_, congrArg Host.Outcome.next (h.ends (taskBody_refused ((taskRefused_marked hmark).2 href))), rfl, ?_, ?_⟩
  · exact (congrArg (fget · _) (getR_finishes (by dsimp only [rSchedSlot]; omega))).trans h.marked.getF_eq
  · rw [task, finishes_tasks, markStart_tasks hmark]
    rfl

/-- TASK queues its slot (R126, R127). -/
theorem task_queues (hw : NoWait s u c.slot) (hok : ¬taskRefused s u c.bytes) :
    ∃ t s2, exec (.task u) s = .next t ∧ t = goesOn s2 u c0 ∧
      taskState t u.e (taskSlotIdx c.bytes) = (if (taskBobs c.bytes).all (fun b => decide (bobState s u.e b = bReady)) then tReady else tQueued) ∧
      (task t u.e (taskSlotIdx c.bytes)).hart = startHart c.bytes ∧ (task t u.e (taskSlotIdx c.bytes)).budget = u32At c.bytes 12 ∧
      (task t u.e (taskSlotIdx c.bytes)).prio = u8At c.bytes 9 % 4 ∧ (task t u.e (taskSlotIdx c.bytes)).u = some (u, c.slot) ∧
      getF t (rCtxTask u.e u.n (taskSlotIdx c.bytes)) fCtxTaskExit = 0 ∧ getR t (rCtxTaskCause u.e u.n (taskSlotIdx c.bytes)) = 0 ∧
      SameMemory s t := by
  have hmark := h.markStart_eq
  have hm := h.marked
  obtain ⟨hstate, hhart, hbudget, hprio, hu⟩ := slot_queued (s := s0) (u := u) (taskSlotIdx_lt h.bad_eq_false) rfl
  have hwork : TaskWork (taskQueued s0 u c0) (wakeTasks (taskQueued s0 u c0) u.e) := wakeTasks_taskWork
  have hgo : goesOn (wakeTasks (taskQueued s0 u c0) u.e) u c0 = putCmd (wakeTasks (taskQueued s0 u c0) u.e) u { c0 with first := none } := by
    refine goesOn_of_noWait ?_
    rw [NoWait, hwork.hub, hm.slot]
    exact hm.hub ▸ hw
  refine ⟨_, _, congrArg Host.Outcome.next (h.runs (taskBody_queues (mt (taskRefused_marked hmark).1 hok))), rfl, ?_⟩
  simp only [← hm.bytes, ← hm.slot, ← hm.bobState_eq, hgo]
  refine ⟨?_, hhart, hbudget, hprio, hu, ?_, ?_, ?_⟩
  · exact (getF_putCmd_above (by dsimp only [rSchedSlot]; omega)).trans hstate
  · refine (getF_putCmd_above (by dsimp only [rCtxTask]; omega)).trans ?_
    exact (congrArg (fget · _) (hwork.regs _ (by simp [rCtxTask]))).trans getF_taskQueued_exit
  · refine (getR_updCmd (by dsimp only [rCtxTaskCause]; omega)).trans ?_
    exact (hwork.regs _ (by simp [rCtxTaskCause])).trans getR_taskQueued_cause
  · exact sameMemory_of_eq (hwork.mem.trans hm.mem) (hwork.poison.trans hm.poison)

end

/-! ### The statement -/

/-- Settles O14: the refusals of the body are the statement's, and a TASK without one is a queued slot woken. -/
theorem taskQueuesItsSlotOrEndsWithResource : Obligations.TaskQueuesItsSlotOrEndsWithResource := by
  refine ⟨?_, ?_, ?_⟩
  · intro s s0 u c c0 h hw howner henable hfree hcore
    refine task_queues h hw fun href => ?_
    rcases href with hno | hno | hno | hno
    · exact hno howner
    · exact hno henable
    · exact hno hfree
    · exact Bool.false_ne_true (hcore.symm.trans hno)
  · intro s s0 u c c0 h href
    refine task_ends_resource h ?_
    rcases href with howner | hstate | henable | hcore
    · exact .inl howner
    · exact .inr (.inr (.inl hstate))
    · exact .inr (.inl (by simp [henable]))
    · exact .inr (.inr (.inr hcore))
  · intro s s0 u c c0 hp hmark hsel hlater hbad
    exact congrArg Host.Outcome.next (runCmd_of_bad hp hmark hsel hlater (taskBad_of (by rwa [(markStart_marked hmark).bytes])))

end Sys2Proof.Machine
end

section
namespace Sys2Proof.Machine
open Sys2Proof

/-! PROOFS. The rows of a spool's commands: the checks of a start (O9) and what a due command's body decides (O10).

Every row is `runCmd` with its own selection, conditions, bobbins and body (`spoolRows_run`), so both statements are about `runCmd`: one
law for each of its branches. -/

variable {s s0 s2 : State} {u : SpoolId} {c c0 c2 d : Cmd} {r : SpoolRow}
variable {sel : Bytes → Bool} {bad : State → Cmd → Bool} {bobs : Bytes → List Nat} {body : State → Cmd → State × Cmd × Act}

/-! ### The rows (R147) -/

/-- Accesses of a spool tried again, where none of its commands has an access that waits. -/
theorem resume_idle {f : State → TierWait → State} (h : ∀ w ∈ s.hub.tierWaits, w.u ≠ u) :
    (s.hub.tierWaits.filter (fun w => decide (w.u = u))).foldl f s = s := by
  rw [List.filter_eq_nil_iff.2 fun w hw => by simpa using h w hw, List.foldl_nil]

/-- The row runs its command under its own checks. -/
def SpoolRow.Runs (r : SpoolRow) : Prop := ∀ s u, exec (r.row u) s = .next (runCmd s u r.sel (r.bad u) r.bobs (r.body u))

/-- The row does so where the command in front is its own, and else tries its waiting accesses again; its commands name no bobbin. -/
def SpoolRow.RunsOrResumes (r : SpoolRow) (again : State → SpoolId → State) : Prop :=
  r.bobs = noBobs ∧ (∀ s u, (∀ w ∈ s.hub.tierWaits, w.u ≠ u) → again s u = s) ∧
    ∀ s u, exec (r.row u) s = .next (if nextIs s u r.sel then runCmd s u r.sel (r.bad u) r.bobs (r.body u) else again s u)

/-- The rows of the fabric resume their operations. -/
theorem spoolRows_run : ∀ r ∈ spoolRows, r.Runs ∨ ∃ again, r.RunsOrResumes again := by
  simp only [spoolRows, List.forall_mem_cons]
  refine ⟨.inl ?_, .inl ?_, .inl ?_, .inl ?_, .inl ?_, .inl ?_, .inl ?_, .inl ?_,
    .inr ⟨resumeOps, rfl, fun _ _ => resume_idle, ?_⟩, .inr ⟨resumeOps, rfl, fun _ _ => resume_idle, ?_⟩,
    .inr ⟨resumeOps, rfl, fun _ _ => resume_idle, ?_⟩, .inr ⟨resumeOps, rfl, fun _ _ => resume_idle, ?_⟩,
    .inr ⟨resumeOps, rfl, fun _ _ => resume_idle, ?_⟩, .inr ⟨resumeOps, rfl, fun _ _ => resume_idle, ?_⟩,
    .inr ⟨resumeOps, rfl, fun _ _ => resume_idle, ?_⟩, .inr ⟨resumeOps, rfl, fun _ _ => resume_idle, ?_⟩,
    .inr ⟨resumeOps, rfl, fun _ _ => resume_idle, ?_⟩, .inr ⟨resumeDisps, rfl, fun _ _ => resume_idle, ?_⟩,
    .inr ⟨resumeCombs, rfl, fun _ _ => resume_idle, ?_⟩, .inl ?_, .inl ?_, .inl ?_, .inl ?_, nofun⟩
  all_goals exact fun _ _ => rfl

/-! ### Where no command starts (R148 to R150, R470) -/

/-- The oldest unstarted command names no bobbin that is to be refused. -/
theorem refuseBobs_of_good (h : ∀ c, oldestCmd s u = some c → (bobs c.bytes).any (badBobbin s u) = false) : refuseBobs s u sel bad bobs = s := by
  unfold refuseBobs
  cases ho : oldestCmd s u with
  | none => rfl
  | some c => simp [h c ho]

/-- The oldest unstarted command names a bobbin that is to be refused (R470). -/
theorem refuseBobs_refuses (ho : oldestCmd s u = some c) (hmark : markStart s u c = (s0, c0)) (hsel : sel c.bytes = true)
    (hlater : c.poisonLater = false) (hhead : headerOk c.bytes = true) (hbad : bad s c = false) (hbobs : (bobs c.bytes).any (badBobbin s u) = true) :
    refuseBobs s u sel bad bobs = endsWith s0 u c0 stResource 0 := by
  simp [refuseBobs, ho, hmark, hsel, hlater, hhead, hbad, hbobs, endsWith]

/-- With no command of its kind in front, a row looks at the oldest unstarted command's bobbins alone. -/
theorem runCmd_of_none (h : ∀ d, pick s u = some d → sel d.bytes = false) : runCmd s u sel bad bobs body = refuseBobs s u sel bad bobs := by
  unfold runCmd
  cases hp : pick s u with
  | none => rfl
  | some d => simp [h d hp]

theorem startable_none (h : s.pow.stopped = true ∨ spState s u ≠ spActive ∨ (spool s u).held ≠ [] ∨ (spool s u).cqHold ≠ none) :
    startable s u = none := by
  unfold startable
  dsimp only
  split
  · rfl
  · refine if_neg fun hc => ?_
    obtain ⟨hstop, hactive, hheld, hhold, -⟩ := hc
    rcases h with h | h | h | h
    · exact hstop h
    · exact h hactive
    · exact h hheld
    · exact h hhold

/-! ### The checks of a start in their order -/

section
variable (hp : pick s u = some c) (hmark : markStart s u c = (s0, c0)) (hsel : sel c.bytes = true)
include hp hmark hsel

/-- A later slot of the command is poisoned (R471, R286). -/
theorem runCmd_of_poisonLater (hlater : c.poisonLater = true) :
    runCmd s u sel bad bobs body = endsWith (raisePennant s0 (ctxPart s0 u.e u.n) c0.step 6) u c0 stPoison 0 := by
  simp [runCmd, hp, hmark, hsel, (markStart_marked hmark).poisonLater, hlater, endsWith]

variable (hlater : c.poisonLater = false)
include hlater

/-- A reserved header bit or an invalid field (R147, R149). -/
theorem runCmd_of_format (h : headerOk c.bytes = false ∨ bad s0 c0 = true) : runCmd s u sel bad bobs body = endsWith s0 u c0 stFormat 0 := by
  have hm := markStart_marked hmark
  rcases h with h | h
  · simp [runCmd, hp, hmark, hsel, hm.bytes, hm.poisonLater, hlater, h, endsWith]
  · exact runCmd_of_bad hp hmark hsel hlater h

/-- A bobbin that the command may not name (R470). -/
theorem runCmd_of_badBobbin (hhead : headerOk c.bytes = true) (hbad : bad s0 c0 = false) (hbobs : (bobs c.bytes).any (badBobbin s u) = true) :
    runCmd s u sel bad bobs body = endsWith s0 u c0 stResource 0 := by
  have hm := markStart_marked hmark
  simp [runCmd, hp, hmark, hsel, hm.bytes, hm.poisonLater, hlater, hhead, hbad, hbobs, endsWith]

end

/-! ### The rows in each case -/

section
variable (hr : r ∈ spoolRows)
include hr

/-- With a command of its kind in front, a row runs it. -/
theorem exec_of_sel (hp : pick s u = some c) (hsel : r.sel c.bytes = true) :
    exec (r.row u) s = .next (runCmd s u r.sel (r.bad u) r.bobs (r.body u)) := by
  rcases spoolRows_run r hr with hexec | ⟨again, -, -, hexec⟩
  · exact hexec s u
  · rw [hexec, if_pos (by simp [nextIs, hp, hsel])]

variable (hfront : ∀ d, pick s u = some d → r.sel d.bytes = false)
include hfront

/-- With none of its kind in front, a row of a quiet spool changes nothing. -/
theorem exec_of_quiet (hq : r.Quiet s u) : exec (r.row u) s = .next s := by
  obtain ⟨hgood, hidle⟩ := hq
  rcases spoolRows_run r hr with hexec | ⟨again, -, hagain, hexec⟩
  · rw [hexec, runCmd_of_none hfront, refuseBobs_of_good hgood]
  · have hnext : nextIs s u r.sel = false := by
      unfold nextIs
      cases hp : pick s u with
      | none => rfl
      | some d => exact hfront d hp
    rw [hexec, if_neg (by simp [hnext]), hagain s u hidle]

/-- With none of its kind in front, a row refuses the oldest unstarted command for its bobbins. -/
theorem exec_refuses (ho : oldestCmd s u = some c) (hmark : markStart s u c = (s0, c0)) (hsel : r.sel c.bytes = true) (hlater : c.poisonLater = false)
    (hhead : headerOk c.bytes = true) (hbad : r.bad u s c = false) (hbobs : (r.bobs c.bytes).any (badBobbin s u) = true) :
    exec (r.row u) s = .next (endsWith s0 u c0 stResource 0) := by
  rcases spoolRows_run r hr with hexec | ⟨again, hno, -⟩
  · rw [hexec, runCmd_of_none hfront, refuseBobs_refuses ho hmark hsel hlater hhead hbad hbobs]
  · simp [hno, noBobs] at hbobs

end

/-- Settles O9: each clause is one branch of `runCmd`, or of the refusal it falls back to. -/
theorem spoolCommandsAreCheckedBeforeTheyStart : Obligations.SpoolCommandsAreCheckedBeforeTheyStart := by
  refine ⟨⟨?_, ?_, fun _ _ => startable_none⟩, ?_, ?_, ?_, ?_⟩
  · exact fun r hr s u hp hq => exec_of_quiet hr (by simp [hp]) hq
  · exact fun r hr s u c hp hsel hq => exec_of_quiet hr (fun d hd => Option.some.inj (hp.symm.trans hd) ▸ hsel) hq
  · intro r hr s s0 u c c0 hp hmark hsel hlater
    rw [exec_of_sel hr hp hsel, runCmd_of_poisonLater hp hmark hsel hlater]
  · intro r hr s s0 u c c0 hp hmark hsel hlater hformat
    rw [exec_of_sel hr hp hsel, runCmd_of_format hp hmark hsel hlater hformat]
  · intro r hr s s0 u c c0 hp hmark hsel hlater hhead hbad hbobs
    rw [exec_of_sel hr hp hsel, runCmd_of_badBobbin hp hmark hsel hlater hhead hbad hbobs]
  · exact fun r hr s s0 u c c0 ho hmark hfront => exec_refuses hr hfront ho hmark

/-! ### What the body of a due command decides -/

/-- Of a due command the row applies what its body answers. -/
theorem SpoolRow.Due.exec_eq {act : Act} (h : r.Due s u c s0 c0) (hr : r ∈ spoolRows) (hb : r.body u s0 c0 = (s2, c2, act)) :
    exec (r.row u) s = .next (applyAct s s2 u c2 act) := by
  have hdue : CmdDue r.sel (r.bad u) r.bobs s u c s0 c0 := h
  obtain ⟨hp, -, hsel, -⟩ := h
  rw [exec_of_sel hr hp hsel, hdue.runCmd_eq, hb]

/-- Settles O10: `applyAct` of the body's answer, act by act. -/
theorem dueCommandsDoTheirWork : Obligations.DueCommandsDoTheirWork := by
  intro r hr s s0 u c c0 h
  refine ⟨?_, ?_, ?_, ?_, ?_, ?_, ?_⟩
  · exact fun _ _ _ _ hb => h.exec_eq hr hb
  · exact fun _ _ hb => h.exec_eq hr hb
  · exact fun _ _ hb => h.exec_eq hr hb
  · exact fun _ _ _ hb => h.exec_eq hr hb
  · exact fun _ _ _ hb => h.exec_eq hr hb
  · exact fun _ _ _ _ hb => h.exec_eq hr hb
  · exact fun _ _ _ _ _ hb => ⟨_, _, rfl, h.exec_eq hr hb⟩

end Sys2Proof.Machine
end

section
namespace Sys2Proof.Machine
open Sys2Proof

/-! PROOFS. A spool's record and the registers of its page, doorbells (O18) and the submission lock (O19).

The record shows in SQ_HEAD and SP_STATUS.CQ_FULL (`setSpool`), so every other register and field of the page keeps its value. -/

variable {s t : State} {u v : SpoolId} {ag h : Agent} {r q : Reg} {f g : Fd} {sp : Spool} {st e n x t0 tail : Nat}

/-! ### A spool's record and what shows it -/

theorem spool_setSpool : spool (setSpool s u sp) v = if u = v then sp else spool s v := mapGet_mapSet _ _ _ _ _

@[simp] theorem spool_setSpool_same : spool (setSpool s u sp) u = sp := by rw [spool_setSpool, if_pos rfl]

theorem getR_setSpool (hhead : (rSqHead u.e u.n u.s).key ≠ r.key) (hstatus : (rSpStatus u.e u.n u.s).key ≠ r.key) :
    getR (setSpool s u sp) r = getR s r :=
  (getR_setR_ne _ _ _ _ hstatus).trans (getR_setR_ne _ _ _ _ hhead)

/-- A field written leaves the fields apart from it, in its own register as in the others of its kind. -/
theorem getF_setF_of_apart (hreset : r.reset = q.reset) (hf : f.ok) (hg : g.ok) (hfg : f.apart g) : getF (setF s r f x) q g = getF s q g := by
  by_cases hk : r.key = q.key
  · obtain rfl : r = q := by
      cases r
      cases q
      exact congr (congrArg Reg.mk hk) hreset
    exact getF_setF_apart _ _ _ _ _ hf hg hfg
  · exact getF_setF_ne _ _ _ _ _ _ hk

/-- CQ_FULL is one field of SP_STATUS. -/
theorem spState_setSpool : spState (setSpool s u sp) v = spState s v := by
  refine (getF_setF_of_apart (r := rSpStatus u.e u.n u.s) (q := rSpStatus v.e v.n v.s) (f := fSpStatusCqFull) (g := fSpStatusState)
    rfl (by decide) (by decide) (by decide)).trans ?_
  exact congrArg (fget · _) (getR_setR_ne _ _ _ _ (key_ne_of_off (by dsimp only [rSqHead, rSpStatus]; omega)))

theorem spState_setSpState (h : st < 8) : spState (setSpState s u st) u = st := (getF_setF_same _ _ _ _ (by decide)).trans (Nat.mod_eq_of_lt h)

theorem spool_setF : spool (setF s r f x) u = spool s u := rfl

theorem sameUnits_setR {w : Word} : SameUnits s (setR s r w) := ⟨rfl, rfl, rfl, rfl, rfl, rfl, rfl, rfl, rfl, rfl, rfl⟩

theorem sameRegsBut_setR {w : Word} : SameRegsBut [r.key] s (setR s r w) := fun _ hq =>
  getR_setR_ne _ _ _ _ fun hk => hq (hk ▸ List.mem_singleton_self _)

/-! ### Engines that sleep (R424) -/

theorem whenAwake_active {c : Instr} {w : State → State} (h : engActive s e = true) : whenAwake s e c w = w s := if_pos h

theorem whenAwake_asleep {c : Instr} {w : State → State} (h : engActive s e = false) : whenAwake s e c w = heldForWake s e c := if_neg (by simp [h])

/-! ### Doorbells (R143, R145) -/

/-- The doorbell goes back, passes the ring, finds the lock another agent's or expired, or a spool that is not ACTIVE. -/
def doorbellRefused (s : State) (ag : Agent) (u : SpoolId) (tail : Nat) : Prop :=
  2 ^ 31 ≤ (tail + 2 ^ 32 - sqTail s u) % 2 ^ 32 ∨ 2 ^ sqLog2 s u < (tail + 2 ^ 32 - (spool s u).done % 2 ^ 32) % 2 ^ 32 ∨
    lockBusy s u ag = true ∨ (spool s u).expired = some ag ∨ spState s u ≠ spActive

theorem doorbell_refused (h : doorbellRefused s ag u tail) : doorbell s ag u tail = setF s (rSpStatus u.e u.n u.s) fSpStatusDbErr 1 := if_pos h

/-- A doorbell accepted with the lock free moves TAIL. -/
theorem doorbell_unlocked (h : ¬doorbellRefused s ag u tail) (hl : (spool s u).lease = none) :
    doorbell s ag u tail = setR s (rSqTail u.e u.n u.s) (BitVec.ofNat 64 tail) := by
  refine (if_neg h).trans ?_
  simp only [hl]

/-- A doorbell accepted of the lock's holder frees the lock. -/
theorem doorbell_of_holder (h : ¬doorbellRefused s ag u tail) (hl : (spool s u).lease = some (ag, t0)) :
    doorbell s ag u tail = setF (setSpool (setR s (rSqTail u.e u.n u.s) (BitVec.ofNat 64 tail)) u { spool s u with lease := none })
      (rSpLock u.e u.n u.s) fSpLockHolder 0 := by
  refine (if_neg h).trans ?_
  simp only [hl, if_true]

theorem sqTail_setR {w : BitVec 32} : sqTail (setR s (rSqTail u.e u.n u.s) (BitVec.ofNat 64 w.toNat)) u = w.toNat := by
  have hw := w.isLt
  rw [sqTail, getR_setR_same, BitVec.toNat_ofNat, Nat.mod_eq_of_lt (a := w.toNat) (by omega), Nat.mod_eq_of_lt hw]

section
variable {val : BitVec 32} (hr : regRight s ag (rSqTail u.e u.n u.s).key = true)
include hr

theorem exec_sqTail_active (ha : engActive s u.e = true) : exec (.sqTail ag u val) s = .next (doorbell s ag u val.toNat) :=
  congrArg Host.Outcome.next ((guarded_right _ _ _ _ hr).trans (whenAwake_active ha))

theorem exec_sqTail_asleep (ha : engActive s u.e = false) : exec (.sqTail ag u val) s = .next (heldForWake s u.e (.sqTail ag u val)) :=
  congrArg Host.Outcome.next ((guarded_right _ _ _ _ hr).trans (whenAwake_asleep ha))

end

/-- A doorbell that moves TAIL forward within the ring of an ACTIVE spool, from an agent whose lease did not expire and who holds the lock
where it is held. -/
theorem doorbell_admissible (hactive : spState s u = spActive) (hlock : ∀ a t0, (spool s u).lease = some (a, t0) → a = ag)
    (hexp : (spool s u).expired ≠ some ag) (hforward : (tail + 2 ^ 32 - sqTail s u) % 2 ^ 32 < 2 ^ 31)
    (hroom : (tail + 2 ^ 32 - (spool s u).done % 2 ^ 32) % 2 ^ 32 ≤ 2 ^ sqLog2 s u) : ¬doorbellRefused s ag u tail := by
  rintro (hback | hpast | hbusy | hexpired | hstate)
  · exact Nat.not_le.2 hforward hback
  · exact Nat.not_lt.2 hroom hpast
  · exact Bool.false_ne_true ((not_lockBusy hlock).symm.trans hbusy)
  · exact hexp hexpired
  · exact hstate hactive

/-- Settles O18: the five refusals are the doorbell's own, and TAIL and the lock are all that an admitted one changes. -/
theorem doorbellsMoveTailOrSetDbErr : Obligations.DoorbellsMoveTailOrSetDbErr := by
  refine ⟨?_, ?_, ?_, fun _ _ _ _ => exec_sqTail_asleep⟩
  · intro s ag u val hr ha hactive hl hexp hforward hroom
    have hok := doorbell_admissible hactive (by simp [hl]) hexp hforward hroom
    exact ⟨_, (exec_sqTail_active hr ha).trans (congrArg _ (doorbell_unlocked hok hl)), sqTail_setR, sameRegsBut_setR, sameUnits_setR⟩
  · intro s ag t0 u val hr ha hactive hl hexp hforward hroom
    have hok := doorbell_admissible hactive (by simp [hl]) hexp hforward hroom
    refine ⟨_, (exec_sqTail_active hr ha).trans (congrArg _ (doorbell_of_holder hok hl)), ?_, ?_, getF_setF_same _ _ _ _ (by decide), ?_, ?_⟩
    · have htail : ∀ w, getR (setF (setSpool w u { spool s u with lease := none }) (rSpLock u.e u.n u.s) fSpLockHolder 0) (rSqTail u.e u.n u.s) =
          getR w (rSqTail u.e u.n u.s) := fun w =>
        (getR_setR_ne _ _ _ _ (key_ne_of_off (by simp [rSpLock, rSqTail]))).trans
          (getR_setSpool (key_ne_of_off (by simp [rSqHead, rSqTail])) (key_ne_of_off (by simp [rSpStatus, rSqTail])))
      exact (congrArg (fun w : Word => w.toNat % 2 ^ 32) (htail _)).trans sqTail_setR
    · rw [spool_setF, spool_setSpool_same]
    · rw [spool_setF, spool_setSpool_same]
    · exact sameMemory_of_eq rfl rfl
  · intro s ag u val hr ha hrefused
    have href : doorbellRefused s ag u val.toNat := by
      rcases hrefused with h | h | h | h | ⟨a, t0, hl, hne⟩
      · exact .inl h
      · exact .inr (.inl h)
      · exact .inr (.inr (.inr (.inr h)))
      · exact .inr (.inr (.inr (.inl h)))
      · exact .inr (.inr (.inl (lockBusy_of_other hl hne)))
    refine ⟨_, (exec_sqTail_active hr ha).trans (congrArg _ (doorbell_refused href)), getF_setF_same _ _ _ _ (by decide), ?_, sameRegsBut_setR,
      sameUnits_setR⟩
    exact congrArg (fun w : Word => w.toNat % 2 ^ 32) (getR_setR_ne _ _ _ _ (key_ne_of_off (by simp [rSpStatus, rSqTail])))

/-! ### The submission lock (R145, R454) -/

/-- The lock taken by an agent, from now. -/
def lockTaken (s : State) (ag : Agent) (u : SpoolId) : State :=
  setF (setSpool s u { spool s u with lease := some (ag, s.time) }) (rSpLock u.e u.n u.s) fSpLockHolder (Config.requesterId ag).toNat

/-- What a read of the lock returns to its holder. -/
def grantedWord (s : State) (u : SpoolId) : Word := fset (getR s (rSpLock u.e u.n u.s)) fSpLockGranted 1

theorem lockRead_free (hl : (spool s u).lease = none) (hexp : (spool s u).expired = none) :
    lockRead s ag u = (lockTaken s ag u, grantedWord (lockTaken s ag u) u) := by
  have hrec : spool (lockTaken s ag u) u = { spool s u with lease := some (ag, s.time) } := spool_setSpool_same (s := s)
  have hno : (spool (lockTaken s ag u) u).expired ≠ some ag := by simp [hrec, hexp]
  simp only [lockRead, hl]
  exact congrArg (fun w => (w, grantedWord w u)) (if_neg hno)

theorem lockRead_of_holder (hl : (spool s u).lease = some (ag, t0)) (hexp : (spool s u).expired ≠ some ag) :
    lockRead s ag u = (s, grantedWord s u) := by
  simp [lockRead, hl, hexp, grantedWord]

theorem lockRead_held (hl : (spool s u).lease = some (h, t0)) (hne : h ≠ ag) : lockRead s ag u = (s, getR s (rSpLock u.e u.n u.s)) := by
  simp [lockRead, hl, hne]

theorem grantedWord_granted : fget (grantedWord s u) fSpLockGranted = 1 := fget_fset _ _ _ (by decide)

theorem grantedWord_holder : fget (grantedWord (lockTaken s ag u) u) fSpLockHolder = (Config.requesterId ag).toNat % 2 ^ fSpLockHolder.width :=
  (fget_fset_apart _ _ _ _ (by decide) (by decide) (by decide)).trans (getF_setF_same _ _ _ _ (by decide))

theorem lockTaken_lease : (spool (lockTaken s ag u) u).lease = some (ag, s.time) := by rw [lockTaken, spool_setF, spool_setSpool_same]

/-- A read that takes the lock gives its word out and leaves memory as it is. -/
theorem putOut_lockTaken {w : Word} : (spool (putOut (lockTaken s ag u) w) u).lease = some (ag, s.time) ∧
    (putOut (lockTaken s ag u) w).mgmt.regOut = s.mgmt.regOut ++ [w] ∧ SameMemory s (putOut (lockTaken s ag u) w) :=
  ⟨lockTaken_lease (s := s), rfl, sameMemory_of_eq rfl rfl⟩

section
variable (hr : regRight s ag (rSpLock u.e u.n u.s).key = true)
include hr

theorem exec_spLock_w64 {w : Word} (hread : lockRead s ag u = (t, w)) : exec (.spLock ag u .w64) s = .next (putOut t w) := by
  change execSpLock ag u .w64 s = _
  simp [execSpLock, hr, hread]

theorem exec_spLock_lo32 {w : Word} (hread : lockRead s ag u = (t, w)) : exec (.spLock ag u .lo32) s = .next (putOut t (w &&& 0xFFFFFFFF)) := by
  change execSpLock ag u .lo32 s = _
  simp [execSpLock, hr, hread]

theorem exec_spLock_hi32 : exec (.spLock ag u .hi32) s = .next (putOut s (getR s (rSpLock u.e u.n u.s) >>> 32)) := by
  change execSpLock ag u .hi32 s = _
  simp [execSpLock, hr]

theorem exec_spLock_bad : exec (.spLock ag u .bad) s = .next { s with hub := { s.hub with accOut := s.hub.accOut ++ [denied ag] } } := by
  change execSpLock ag u .bad s = _
  simp [execSpLock, hr]

end

/-- The lease over: the lock free, its holder recorded as expired. -/
def leaseExpired (s : State) (u : SpoolId) (h : Agent) : State :=
  let s := setSpool s u { spool s u with lease := none, expired := some h }
  let s := setF (setF s (rSpLock u.e u.n u.s) fSpLockHolder 0) (rSpLock u.e u.n u.s) fSpLockExpired (Config.requesterId h).toNat
  setF s (rSpStatus u.e u.n u.s) fSpStatusLeaseErr 1

theorem leaseExpiry_expires (hl : (spool s u).lease = some (h, t0)) (htime : t0 + leaseNs ≤ s.time) :
    exec (.leaseExpiry u) s = .next (leaseExpired s u h) := by
  change execLeaseExpiry u s = _
  simp [execLeaseExpiry, hl, Nat.not_lt.2 htime, leaseExpired]

theorem leaseExpiry_within (hl : (spool s u).lease = some (h, t0)) (htime : s.time < t0 + leaseNs) : exec (.leaseExpiry u) s = .next s := by
  change execLeaseExpiry u s = _
  simp [execLeaseExpiry, hl, htime]

theorem spool_leaseExpired : spool (leaseExpired s u h) u = { spool s u with lease := none, expired := some h } := spool_setSpool_same (s := s)

theorem leaseErr_leaseExpired : getF (leaseExpired s u h) (rSpStatus u.e u.n u.s) fSpStatusLeaseErr = 1 := by
  rw [leaseExpired, getF_setF_same _ _ _ _ (by decide)]
  rfl

theorem getF_spLock_leaseExpired : getF (leaseExpired s u h) (rSpLock u.e u.n u.s) fSpLockHolder = 0 ∧
    getF (leaseExpired s u h) (rSpLock u.e u.n u.s) fSpLockExpired = (Config.requesterId h).toNat % 2 ^ fSpLockExpired.width := by
  have hne : (rSpStatus u.e u.n u.s).key ≠ (rSpLock u.e u.n u.s).key := key_ne_of_off (by simp [rSpStatus, rSpLock])
  constructor
  · refine (getF_setF_ne _ _ _ _ _ _ hne).trans ((getF_setF_apart _ _ _ _ _ (by decide) (by decide) (by decide)).trans ?_)
    exact getF_setF_same _ _ _ _ (by decide)
  · exact (getF_setF_ne _ _ _ _ _ _ hne).trans (getF_setF_same _ _ _ _ (by decide))

/-- Settles O19: `lockRead` answers by who holds the lock, and the lease ends 1 ms after it was taken. -/
theorem submissionLockIsALease : Obligations.SubmissionLockIsALease := by
  refine ⟨?_, ?_, ?_, ?_, ?_, ?_, ?_⟩
  · intro s ag u hr hl hexp
    have hread := lockRead_free (ag := ag) hl hexp
    obtain ⟨hlease, hout, hmem⟩ := putOut_lockTaken (s := s) (ag := ag) (u := u) (w := grantedWord (lockTaken s ag u) u)
    obtain ⟨hlease', hout', hmem'⟩ := putOut_lockTaken (s := s) (ag := ag) (u := u) (w := grantedWord (lockTaken s ag u) u &&& 0xFFFFFFFF)
    exact ⟨⟨_, _, exec_spLock_w64 hr hread, hlease, hout, grantedWord_granted, grantedWord_holder, hmem⟩,
      ⟨_, _, exec_spLock_lo32 hr hread, hlease', hout', grantedWord_granted, hmem'⟩⟩
  · exact fun _ _ _ _ _ hr hread => ⟨exec_spLock_w64 hr hread, exec_spLock_lo32 hr hread⟩
  · exact fun _ _ _ _ => lockRead_of_holder
  · exact fun _ _ _ _ _ hr hl hne => exec_spLock_w64 hr (lockRead_held hl hne)
  · exact fun _ _ _ hr => ⟨exec_spLock_hi32 hr, exec_spLock_bad hr⟩
  · intro s u h t0 hl htime
    obtain ⟨hholder, hexpired⟩ := getF_spLock_leaseExpired (s := s) (u := u) (h := h)
    refine ⟨_, leaseExpiry_expires hl htime, ?_, ?_, hholder, hexpired, leaseErr_leaseExpired, ?_, sameMemory_of_eq rfl rfl⟩
    all_goals rw [spool_leaseExpired]
  · exact fun _ _ _ _ => leaseExpiry_within

end Sys2Proof.Machine
end

section
namespace Sys2Proof.Machine
open Sys2Proof

/-! PROOFS. FENCE, WAIT, SIGNAL and PREFETCH (O15).

Each clause is one answer of the command's body: `fenceBody`, `waitBody` and `signalBody` get one law per answer, and the row applies it to a
command that is due, or to one that has started. -/

variable {s s0 s2 : State} {u : SpoolId} {c c0 c2 d : Cmd} {l : List Cmd} {ps : List Piece}
variable {sel : Bytes → Bool} {bad : State → Cmd → Bool} {bobs : Bytes → List Nat} {st k : Nat}

/-! ### FENCE (R154) -/

theorem fenceBody_eq : fenceBody u s c =
    if fenceDeps s u c = [] then (s, c, .ends stOk 0) else (s, { c with deps := fenceDeps s u c }, .runs) := by
  have hdeps : ((List.finRange 4).flatMap fun i =>
      if bitOf (u8At c.bytes 8 / 4 % 16) i.val then
        (if sibling u i = u then (spool s (sibling u i)).cmds.takeWhile (fun d => decide (d.slot ≠ c.slot)) else (spool s (sibling u i)).cmds).map
          (fun d => (sibling u i, d.slot))
      else []) = fenceDeps s u c := by
    unfold fenceDeps
    congr 1
    funext i
    by_cases hi : sibling u i = u
    · rw [hi]
    · simp only [hi, if_false]
  rw [← hdeps]
  rfl

/-! ### WAIT (R153) -/

theorem waitMet_iff {flags w x : Nat} :
    (if flags % 4 = 0 then decide (x ≤ w) else if flags % 4 = 1 then decide (w = x) else decide (w ≠ x)) = true ↔ waitMet flags w x := by
  unfold waitMet
  split_ifs
  all_goals exact decide_eq_true_iff

section
variable (hreach : reach s (engReq s u 9 false true) (u64At c.bytes 16) 8 = (s2, .ok ps))
include hreach

theorem waitBody_poisoned (hp : piecesPoisoned (piecesTouch s2 ps) ps = true) : ∃ s3 k, waitBody u s c = (s3, c, .ends stPoison k) := by
  simp [waitBody, hreach, hp]

variable (hp : piecesPoisoned (piecesTouch s2 ps) ps = false)
include hp

/-- The value read meets the condition. -/
theorem waitBody_met (hmet : waitMet (u8At c.bytes 8) (leNat (piecesRead (piecesTouch s2 ps) ps)) (u64At c.bytes 24)) :
    waitBody u s c = (piecesTouch s2 ps, c, .ends stOk (leNat (piecesRead (piecesTouch s2 ps) ps))) := by
  simp only [waitBody, hreach, hp, Bool.false_eq_true, if_false, if_pos (waitMet_iff.2 hmet)]

/-- The value read does not meet it, and is noted. -/
theorem waitBody_unmet (hmet : ¬waitMet (u8At c.bytes 8) (leNat (piecesRead (piecesTouch s2 ps) ps)) (u64At c.bytes 24)) :
    waitBody u s c = (piecesTouch s2 ps, { c with detail := leNat (piecesRead (piecesTouch s2 ps) ps) }, .runs) := by
  simp only [waitBody, hreach, hp, Bool.false_eq_true, if_false, if_neg (mt waitMet_iff.1 hmet)]

end

/-- WAIT_POLL on a started WAIT that no stall holds reads the word again. -/
theorem waitPoll_reads {act : Act} (hcmds : (spool s u).cmds = [c]) (hop : c.opcode = 0x51) (hphase : c.phase = .started) (hstall : c.stall = .none)
    (hb : waitBody u s c = (s2, c2, act)) : exec (.waitPoll u) s = .next (applyAct s s2 u c2 act) := by
  change Host.Outcome.next (pollWait s u) = _
  simp [pollWait, hcmds, hop, hphase, hstall, hb]

section
variable (hcmds : (spool s u).cmds = [c]) (hop : c.opcode = 0x51) (hphase : c.phase = .started)
include hcmds hop hphase

/-- TIMEOUT µs after its start an unmet WAIT ends with the value last read. -/
theorem waitTimeout_ends (ht : u32At c.bytes 12 ≠ 0) (htime : c.since + u32At c.bytes 12 * 1000 ≤ s.time) :
    exec (.waitTimeout u) s = .next (endCmd s u c.slot stTimeout c.detail) := by
  change execWaitTimeout u s = _
  simp [execWaitTimeout, hcmds, hop, hphase, Cmd.live, ht, Nat.not_lt.2 htime]

theorem waitTimeout_within (ht : u32At c.bytes 12 = 0 ∨ s.time < c.since + u32At c.bytes 12 * 1000) : exec (.waitTimeout u) s = .next s := by
  change execWaitTimeout u s = _
  simp [execWaitTimeout, hcmds, hop, hphase, Cmd.live, ht]

end

/-- A status marked "Stops" takes an ACTIVE spool to STOPPED (R149). -/
theorem endCmd_stops (hst : stopping st = true) (hactive : spState s u = spActive) : spState (endCmd s u d.slot st k) u = spStopped := by
  have hupd : spState (updCmd s u d.slot (endedCmd · st k)) u = spActive := spState_setSpool.trans hactive
  rw [endCmd, if_pos ⟨by simp [hst], hupd⟩]
  exact spState_setSpState (by decide)

/-! ### SIGNAL (R152) -/

/-- An uncompleted command of the spool stands before the SIGNAL. -/
theorem signalBody_behind (hcmds : (spool s u).cmds = d :: l) (hne : d.slot ≠ c.slot) : signalBody u s c = (s, c, .runs) := by
  simp [signalBody, hcmds, hne]

section
variable (hcmds : (spool s u).cmds = d :: l) (hslot : d.slot = c.slot)
variable (hreach : reach s (engReq s u 9 true (decide (u8At c.bytes 8 = 1))) (u64At c.bytes 16) 8 = (s2, .ok ps))
include hcmds hslot hreach

theorem signalBody_stores (hop : u8At c.bytes 8 ≠ 1) :
    signalBody u s c = (pollWaits (piecesWrite s2 ps (natLE 8 (u64At c.bytes 24))) u.e (u64At c.bytes 16), c, .ends stOk 0) := by
  simp only [hop, decide_false] at hreach
  simp [signalBody, hcmds, hslot, hop, hreach]

variable (hop : u8At c.bytes 8 = 1)
include hop

theorem signalBody_adds (hp : piecesPoisoned (recallPieces (countAtomic s2 ps) ps) ps = false) : signalBody u s c =
    (pollWaits (piecesWrite (recallPieces (countAtomic s2 ps) ps) ps
      (natLE 8 (leNat (piecesRead (recallPieces (countAtomic s2 ps) ps) ps) + u64At c.bytes 24))) u.e (u64At c.bytes 16), c, .ends stOk 0) := by
  simp only [hop, decide_true] at hreach
  simp [signalBody, hcmds, hslot, hop, hreach, hp]

theorem signalBody_poisoned (hp : piecesPoisoned (recallPieces (countAtomic s2 ps) ps) ps = true) : signalBody u s c =
    (cmdPoison (recallPieces (countAtomic s2 ps) ps) u c.step (firstPoison (recallPieces (countAtomic s2 ps) ps) ps), c, .ends stPoison 0) := by
  simp only [hop, decide_true] at hreach
  simp [signalBody, hcmds, hslot, hop, hreach, hp]

end

/-- The command at the front of the spool is a SIGNAL that has started and that no stall holds. -/
def signalGoing (c : Cmd) : Prop := c.opcode = 0x50 ∧ c.phase = .started ∧ c.stall = .none

theorem signal_goes_on {act : Act} (hcmds : (spool s u).cmds = c :: l) (hgoing : signalGoing c) (hb : signalBody u s c = (s2, c2, act)) :
    exec (.signal u) s = .next (applyAct s s2 u c2 act) := by
  change execSignal u s = _
  simp only [execSignal, hcmds, hb]
  exact congrArg _ (if_pos hgoing)

theorem signal_starts (hcmds : (spool s u).cmds = d :: l) (hgoing : ¬signalGoing d) :
    exec (.signal u) s = .next (runCmd s u (isOp 0x50) signalBad noBobs (signalBody u)) := by
  change execSignal u s = _
  simp only [execSignal, hcmds]
  exact congrArg _ (if_neg hgoing)

/-- A SIGNAL at the front of its spool, started or due, ends as its body says. -/
theorem signal_ends (hcmds : (spool s u).cmds = c :: l)
    (h : (c.opcode = 0x50 ∧ c.phase = .started ∧ c.stall = .none ∧ s0 = s ∧ c0 = c) ∨
      (c.phase ≠ .started ∧ CmdDue (isOp 0x50) signalBad noBobs s u c s0 c0))
    (hb : signalBody u s0 c0 = (s2, c0, .ends st k)) : exec (.signal u) s = .next (finishes s2 u c0 st k) := by
  rcases h with ⟨hop, hphase, hstall, rfl, rfl⟩ | ⟨hphase, hdue⟩
  · exact signal_goes_on hcmds ⟨hop, hphase, hstall⟩ hb
  · rw [signal_starts hcmds fun ⟨_, hstarted, _⟩ => hphase hstarted, hdue.ends hb]

/-- The start of a SIGNAL leaves it at the front of its spool. -/
theorem signal_front (hcmds : (spool s u).cmds = c :: l)
    (h : (c.opcode = 0x50 ∧ c.phase = .started ∧ c.stall = .none ∧ s0 = s ∧ c0 = c) ∨
      (c.phase ≠ .started ∧ CmdDue (isOp 0x50) signalBad noBobs s u c s0 c0)) :
    (spool s0 u).cmds = c :: l ∧ c.slot = c0.slot ∧ c0.bytes = c.bytes := by
  rcases h with ⟨-, -, -, rfl, rfl⟩ | ⟨-, hdue⟩
  · exact ⟨hcmds, rfl, rfl⟩
  · have hm := hdue.marked
    exact ⟨by rw [spool, hm.spools]; exact hcmds, hm.slot.symm, hm.bytes⟩

/-! ### The statement -/

/-- Settles O15: each clause is an answer of its command's body. -/
theorem synchronisationCommands : Obligations.SynchronisationCommands := by
  refine ⟨⟨?_, ?_, ?_, ?_, ?_, ?_, ?_, ?_⟩, ?_, ?_, ?_⟩
  · exact fun s s0 u c c0 h hdeps => congrArg Host.Outcome.next (h.ends (fenceBody_eq.trans (if_pos hdeps)))
  · exact fun s s0 u c c0 h hdeps => congrArg Host.Outcome.next (h.runs (fenceBody_eq.trans (if_neg hdeps)))
  · intro s s0 s2 u c c0 ps h hreach hp hmet
    rw [← h.marked.bytes] at hreach hmet
    exact congrArg Host.Outcome.next (h.ends (waitBody_met hreach hp hmet))
  · intro s s0 s2 u c c0 ps h hreach hp hmet
    rw [← h.marked.bytes] at hreach hmet
    exact congrArg Host.Outcome.next (h.runs (waitBody_unmet hreach hp hmet))
  · intro s s0 s2 u c c0 ps h hreach hp
    rw [← h.marked.bytes] at hreach
    obtain ⟨s3, k, hb⟩ := waitBody_poisoned hreach hp
    exact ⟨s3, k, congrArg Host.Outcome.next (h.ends hb)⟩
  · intro s s0 u c c0 d l hcmds hne hgoing h
    have hm := h.marked
    have hcmds0 : (spool s0 u).cmds = d :: l := by rw [spool, hm.spools]; exact hcmds
    rw [signal_starts hcmds hgoing, h.runs (signalBody_behind hcmds0 (hm.slot ▸ hne))]
  · intro s s0 s2 u c c0 l ps hcmds h hreach
    obtain ⟨hcmds0, hslot, hbytes⟩ := signal_front hcmds h
    rw [← hbytes] at hreach
    simp only [← hbytes]
    exact ⟨fun hop => signal_ends hcmds h (signalBody_stores hcmds0 hslot hreach hop),
      fun hop hp => signal_ends hcmds h (signalBody_adds hcmds0 hslot hreach hop hp),
      fun hop hp => signal_ends hcmds h (signalBody_poisoned hcmds0 hslot hreach hop hp)⟩
  · intro s s0 s2 u c c0 k h hfrom
    rw [← h.marked.bytes] at hfrom
    exact congrArg Host.Outcome.next (h.ends (by simp only [prefetchBody, hfrom]))
  · intro s s2 u c ps hcmds hop hphase hstall hreach hp
    exact ⟨fun hmet => waitPoll_reads hcmds hop hphase hstall (waitBody_met hreach hp hmet),
      fun hmet => waitPoll_reads hcmds hop hphase hstall (waitBody_unmet hreach hp hmet)⟩
  · intro s u c hcmds hop hphase ht htime hactive
    refine ⟨_, waitTimeout_ends hcmds hop hphase ht htime, endCmd_stops (by decide) hactive, ?_, endCmd_sameMemory⟩
    rw [endCmd_cmds, hcmds]
    simp [endedCmd]
  · exact fun _ _ _ => waitTimeout_within

end Sys2Proof.Machine
end

section
namespace Sys2Proof.Machine
open Sys2Proof

/-! PROOFS. The marks of bobbins and the commit of their configuration (O23).

A mark writes one BOB_STATE register (`setBob`) and may wake tasks, which leaves every bobbin's registers as they are (`getR_wakeTasks`). BOB_ARM
commits one entry for each bobbin; what it does to one neither looks at nor changes another's (`foldl_own`). -/

variable {s t : State} {ag : Agent} {e n b : Nat} {r : Reg} {st holder rem k : Nat} {marked : Bool}

/-! ### Steps over a list -/

/-- Where only its own step changes what is asked of `i`, the steps over a list give what that step gives. -/
theorem foldl_own {α β : Type} {f : State → α → State} {l : List α} {i : α} (P : State → β) (hi : i ∈ l) (hnodup : l.Nodup)
    (hother : ∀ s, ∀ j ∈ l, j ≠ i → P (f s j) = P s) : ∃ s1, P s1 = P s ∧ P (l.foldl f s) = P (f s1 i) := by
  have hrest : ∀ (m : List α) (s : State), m ⊆ l → i ∉ m → P (m.foldl f s) = P s := by
    intro m
    induction m with
    | nil => exact fun _ _ _ => rfl
    | cons j m ih =>
      intro s hm hni
      obtain ⟨hij, hni⟩ := List.ne_and_not_mem_of_not_mem_cons hni
      obtain ⟨hj, hm⟩ := List.cons_subset.1 hm
      exact (ih _ hm hni).trans (hother s j hj (Ne.symm hij))
  obtain ⟨l1, l2, rfl⟩ := List.append_of_mem hi
  obtain ⟨hni, -⟩ := List.nodup_cons.1 (List.nodup_middle.1 hnodup)
  refine ⟨l1.foldl f s, hrest l1 s (List.subset_append_left _ _) fun hm => hni (List.mem_append_left _ hm), ?_⟩
  rw [List.foldl_append, List.foldl_cons]
  exact hrest l2 _ (List.subset_append_of_subset_right _ (List.subset_cons_self _ _)) fun hm => hni (List.mem_append_right _ hm)

theorem SameMemory.trans {s2 : State} (h : SameMemory s t) (h2 : SameMemory t s2) : SameMemory s s2 :=
  ⟨fun a => (h2.1 a).trans (h.1 a), h2.2.trans h.2⟩

theorem SameMemory.setF {f : Fd} {x : Nat} (h : SameMemory s t) : SameMemory s (setF t r f x) := h

theorem sameMemory_foldl {α : Type} {f : State → α → State} {l : List α} (hf : ∀ t x, (f t x).mem = t.mem ∧ (f t x).poison = t.poison) :
    SameMemory s (l.foldl f s) := by
  have h : (l.foldl f s).mem = s.mem ∧ (l.foldl f s).poison = s.poison :=
    List.foldlRecOn (motive := fun t : State => t.mem = s.mem ∧ t.poison = s.poison) _ _ ⟨rfl, rfl⟩ fun t ht x _ =>
      ⟨(hf t x).1.trans ht.1, (hf t x).2.trans ht.2⟩
  exact sameMemory_of_eq h.1 h.2

/-! ### BOB_STATE (R156) -/

theorem getR_setBob (h : (rBobState e b).key ≠ r.key) : getR (setBob s e b st holder marked rem) r = getR s r :=
  (getR_setR_ne _ _ _ _ h).trans ((getR_setR_ne _ _ _ _ h).trans ((getR_setR_ne _ _ _ _ h).trans (getR_setR_ne _ _ _ _ h)))

theorem bobState_setBob (h : st < 4) : bobState (setBob s e b st holder marked rem) e b = st := by
  refine (getF_setF_apart _ _ _ _ _ (by decide) (by decide) (by decide)).trans ?_
  refine (getF_setF_apart _ _ _ _ _ (by decide) (by decide) (by decide)).trans ?_
  refine (getF_setF_apart _ _ _ _ _ (by decide) (by decide) (by decide)).trans ?_
  exact (getF_setF_same _ _ _ _ (by decide)).trans (Nat.mod_eq_of_lt h)

theorem getB_setB {f : Fd} {w : Bool} (h : f.ok) : getB (setB s r f w) r f = w := by
  have hpos : 0 < f.width := by
    simp only [Fd.ok, Bool.and_eq_true, decide_eq_true_eq] at h
    unfold Fd.width
    omega
  have hone : 1 % 2 ^ f.width = 1 := Nat.mod_eq_of_lt (Nat.one_lt_two_pow (by omega))
  cases w
  · simp [getB, setB, getF_setF_same _ _ _ _ h]
  · simp [getB, setB, getF_setF_same _ _ _ _ h, hone]

theorem bobMarked_setBob : bobMarked (setBob s e b st holder marked rem) e b = marked := by
  have hrem : ∀ t, getF (setF t (rBobState e b) fBobStateRemaining rem) (rBobState e b) fBobStateMarked = getF t (rBobState e b) fBobStateMarked :=
    fun t => getF_setF_apart _ _ _ _ _ (by decide) (by decide) (by decide)
  exact (congrArg (fun x => decide (x = 1)) (hrem _)).trans (getB_setB (by decide))

theorem bobRemaining_setBob : bobRemaining (setBob s e b st holder marked rem) e b = rem % 2 ^ fBobStateRemaining.width :=
  getF_setF_same _ _ _ _ (by decide)

theorem setBob_memory : (setBob s e b st holder marked rem).mem = s.mem ∧ (setBob s e b st holder marked rem).poison = s.poison := ⟨rfl, rfl⟩

theorem getR_setBobAux {x : BobAux} : getR (setBobAux s e b x) r = getR s r := rfl

theorem setBobAux_memory {x : BobAux} : (setBobAux s e b x).mem = s.mem ∧ (setBobAux s e b x).poison = s.poison := ⟨rfl, rfl⟩

/-- A bobbin's register and its record written. -/
def bobSet (s : State) (e b st holder : Nat) (marked : Bool) (rem : Nat) (x : BobAux) : State := setBobAux (setBob s e b st holder marked rem) e b x

section
variable {x : BobAux}

theorem getR_bobSet (h : (rBobState e b).key ≠ r.key) : getR (bobSet s e b st holder marked rem x) r = getR s r := by
  rw [bobSet, getR_setBobAux, getR_setBob h]

theorem bobState_bobSet (h : st < 4) : bobState (bobSet s e b st holder marked rem x) e b = st := by
  rw [bobState, getF, bobSet, getR_setBobAux]
  exact bobState_setBob h

theorem bobMarked_bobSet : bobMarked (bobSet s e b st holder marked rem x) e b = marked := by
  rw [bobMarked, getB, getF, bobSet, getR_setBobAux]
  exact bobMarked_setBob

theorem bobRemaining_bobSet : bobRemaining (bobSet s e b st holder marked rem x) e b = rem % 2 ^ fBobStateRemaining.width := by
  rw [bobRemaining, getF, bobSet, getR_setBobAux]
  exact bobRemaining_setBob

theorem bobSet_memory : (bobSet s e b st holder marked rem x).mem = s.mem ∧ (bobSet s e b st holder marked rem x).poison = s.poison := by
  rw [bobSet, setBobAux_memory.1, setBobAux_memory.2]
  exact setBob_memory

theorem bobSet_sameMemory : SameMemory s (bobSet s e b st holder marked rem x) := sameMemory_of_eq bobSet_memory.1 bobSet_memory.2

end

theorem bobToEmpty_eq : bobToEmpty s e b = bobSet s e b bEmpty 0 false 0 {} := rfl

theorem bobState_bobToEmpty : bobState (bobToEmpty s e b) e b = bEmpty := by rw [bobToEmpty_eq, bobState_bobSet (by decide)]

theorem bobToEmpty_sameMemory : SameMemory s (bobToEmpty s e b) := by
  rw [bobToEmpty_eq]
  exact bobSet_sameMemory

/-- Waking tasks writes task slots alone. -/
theorem getR_wakeTasks (h : ∀ i < 16, (rSchedSlot e i).key ≠ r.key) : getR (wakeTasks s e) r = getR s r := by
  rw [wakeTasks_eq]
  refine List.foldlRecOn (motive := fun t : State => getR t r = getR s r) _ _ rfl fun t ht i hi => ?_
  cases hw : wakes t e i with
  | false => rwa [wakeTask_of_not_wakes hw]
  | true =>
    rw [wakeTask_of_wakes hw]
    exact (getR_setR_ne _ _ _ _ (h i (List.mem_range.1 hi))).trans ht

theorem schedSlot_key_ne_bobState {i : Nat} (hi : i < 16) : (rSchedSlot e i).key ≠ (rBobState e b).key :=
  key_ne_of_off (by dsimp only [rSchedSlot, rBobState]; omega)

/-- The reads a bobbin is READY for: a count of 0 means the configured one (R157). -/
def readersOf (s : State) (e b readers : Nat) : Nat := if readers = 0 then getF s (rBobCfg e b) fBobCfgReaders else readers

theorem bobToReady_eq {readers : Nat} :
    bobToReady s e b readers = wakeTasks (bobSet s e b bReady 0 false (readersOf s e b readers) {}) e := rfl

theorem getR_bobState_bobToReady {readers : Nat} : getR (bobToReady s e b readers) (rBobState e b) =
    getR (bobSet s e b bReady 0 false (readersOf s e b readers) {}) (rBobState e b) := by
  rw [bobToReady_eq, getR_wakeTasks fun _ => schedSlot_key_ne_bobState]

theorem bobState_bobToReady {readers : Nat} : bobState (bobToReady s e b readers) e b = bReady :=
  (congrArg (fget · _) getR_bobState_bobToReady).trans (bobState_bobSet (by decide))

theorem bobRemaining_bobToReady {readers : Nat} :
    bobRemaining (bobToReady s e b readers) e b = readersOf s e b readers % 2 ^ fBobStateRemaining.width :=
  (congrArg (fget · _) getR_bobState_bobToReady).trans bobRemaining_bobSet

theorem bobToReady_sameMemory {readers : Nat} : SameMemory s (bobToReady s e b readers) := by
  rw [bobToReady_eq]
  exact bobSet_sameMemory.trans wakeTasks_taskWork.sameMemory

/-! ### Reads counted (R158) -/

theorem bobRead_not_ready (h : bobState s e b ≠ bReady) : bobRead s e n b = bobErr s e n := if_pos h

section
variable (h : bobState s e b = bReady)
include h

theorem bobRead_unlimited (hk : bobRemaining s e b = 0) : bobRead s e n b = s := by simp [bobRead, h, hk]

theorem bobRead_last (hk : bobRemaining s e b = 1) : bobRead s e n b = bobToEmpty s e b := by simp [bobRead, h, hk]

theorem bobRead_counts (hk : bobRemaining s e b = k + 2) : bobRead s e n b = setF s (rBobState e b) fBobStateRemaining (k + 1) := by
  simp [bobRead, h, hk]

/-- One read less remains of a READY bobbin. -/
theorem bobRemaining_counted (hk : bobRemaining s e b = k + 2) : bobState (setF s (rBobState e b) fBobStateRemaining (k + 1)) e b = bReady ∧
    bobRemaining (setF s (rBobState e b) fBobStateRemaining (k + 1)) e b = k + 1 := by
  refine ⟨(getF_setF_apart _ _ _ _ _ (by decide) (by decide) (by decide)).trans h, (getF_setF_same _ _ _ _ (by decide)).trans (Nat.mod_eq_of_lt ?_)⟩
  have hlt : bobRemaining s e b < 2 ^ fBobStateRemaining.width := getF_lt
  omega

end

/-! ### The marks (R156, R158) -/

section
variable {e : Fin 32} {n : Fin 16} {c : Instr} {f : State → State} (hr : regRight s ag (rBobMark e n).key = true)
include hr

theorem markBob_asleep (ha : engActive s e = false) : markBob s ag e n b c f = heldForWake s e c :=
  (guarded_right _ _ _ _ hr).trans (whenAwake_asleep ha)

variable (ha : engActive s e = true)
include ha

/-- A bobbin that is not the slot's, or is a staging bobbin (log 49). -/
theorem markBob_bad (hbad : badBobbin s ⟨e, n, 0⟩ b = true) : markBob s ag e n b c f = bobErr s e n :=
  (guarded_right _ _ _ _ hr).trans ((whenAwake_active ha).trans (if_pos hbad))

theorem markBob_good (hbad : badBobbin s ⟨e, n, 0⟩ b = false) : markBob s ag e n b c f = f s :=
  (guarded_right _ _ _ _ hr).trans ((whenAwake_active ha).trans (if_neg (by simp [hbad])))

end

theorem markFill_empty (h : bobState s e b = bEmpty) : markFill s e n b = bobSet s e b bFilling 0 true 0 {} := if_pos h
theorem markFill_refused (h : bobState s e b ≠ bEmpty) : markFill s e n b = bobErr s e n := if_neg h
theorem markReady_filling (h : bobState s e b = bFilling) (hm : bobMarked s e b = true) : markReady s e n b k = bobToReady s e b k := if_pos ⟨h, hm⟩
theorem markReady_refused (h : ¬(bobState s e b = bFilling ∧ bobMarked s e b = true)) : markReady s e n b k = bobErr s e n := if_neg h
theorem markRelease_held (h : bobState s e b = bReady ∨ (bobState s e b = bFilling ∧ bobMarked s e b = true)) :
    markRelease s e n b = bobToEmpty s e b := if_pos h
theorem markRelease_refused (h : ¬(bobState s e b = bReady ∨ (bobState s e b = bFilling ∧ bobMarked s e b = true))) :
    markRelease s e n b = bobErr s e n := if_neg h

/-! ### BOB_ARM (R155) -/

theorem bobArm_key_ne : (rBobArm e).key ≠ (rBobCfg e b).key := key_ne_of_off (by dsimp only [rBobArm, rBobCfg]; omega)

theorem bobState_key_ne_bobCfg {c : Nat} (hb : b < 256) : (rBobState e c).key ≠ (rBobCfg e b).key :=
  key_ne_of_off (by dsimp only [rBobState, rBobCfg]; omega)

/-- A bobbin under its pending entry: EMPTY where it is allocated, else UNALLOC. -/
def bobReplaced (s : State) (e b : Nat) : State :=
  let w := pendBob s e b
  bobSet { setR s (rBobCfg e b) w with pend := mapDel s.pend (rBobCfg e b).key } e b (if fget w fBobCfgValid = 1 then bEmpty else bUnalloc) 0 false 0 {}

theorem commitBob_eq : commitBob s e b = if pendBob s e b = getR s (rBobCfg e b) then s else bobReplaced s e b := rfl

theorem getR_bobReplaced {c : Nat} (hb : b < 256) : getR (bobReplaced s e c) (rBobCfg e b) = getR (setR s (rBobCfg e c) (pendBob s e c)) (rBobCfg e b) :=
  getR_bobSet (bobState_key_ne_bobCfg hb)

theorem bobReplaced_pend : (bobReplaced s e b).pend = mapDel s.pend (rBobCfg e b).key := rfl

/-- A committed entry is the pending one. -/
theorem getR_commitBob_same (hb : b < 256) : getR (commitBob s e b) (rBobCfg e b) = getPend s (rBobCfg e b) := by
  rw [commitBob_eq]
  split
  · next h => exact h.symm
  · rw [getR_bobReplaced hb, getR_setR_same, pendBob]

/-- The active and the pending entry of a bobbin. -/
def bobEntries (e b : Nat) (s : State) : Word × Word := (getR s (rBobCfg e b), getPend s (rBobCfg e b))

theorem bobEntries_commitBob {c : Nat} (hb : b < 256) (hne : c ≠ b) : bobEntries e b (commitBob s e c) = bobEntries e b s := by
  have hkey : (rBobCfg e c).key ≠ (rBobCfg e b).key := key_ne_of_off (by dsimp only [rBobCfg]; omega)
  have hactive : getR (bobReplaced s e c) (rBobCfg e b) = getR s (rBobCfg e b) := by rw [getR_bobReplaced hb, getR_setR_ne _ _ _ _ hkey]
  have hpend : getPend (bobReplaced s e c) (rBobCfg e b) = getPend s (rBobCfg e b) := by
    rw [getPend, hactive, bobReplaced_pend, mapGet_mapDel, if_neg hkey, getPend]
  rw [commitBob_eq]
  split
  · rfl
  · exact congrArg₂ Prod.mk hactive hpend

theorem getR_commitBobs (hb : b < 256) : getR ((List.range 256).foldl (fun s b => commitBob s e b) s) (rBobCfg e b) = getPend s (rBobCfg e b) := by
  obtain ⟨s1, h1, h2⟩ := foldl_own (s := s) (bobEntries e b) (List.mem_range.2 hb) List.nodup_range
    (fun t c _ hne => bobEntries_commitBob (s := t) hb hne)
  obtain ⟨-, hpend⟩ := Prod.mk.inj h1
  obtain ⟨hactive, -⟩ := Prod.mk.inj h2
  rw [hactive, getR_commitBob_same hb, hpend]

theorem commitBob_memory : (commitBob s e b).mem = s.mem ∧ (commitBob s e b).poison = s.poison := by
  rw [commitBob_eq]
  split
  · exact ⟨rfl, rfl⟩
  · rw [bobReplaced, bobSet_memory.1, bobSet_memory.2]
    exact ⟨rfl, rfl⟩

/-- The write of VIEW leaves the pending entries. -/
theorem getPend_setB_bobArm {f : Fd} {w : Bool} : getPend (setB s (rBobArm e) f w) (rBobCfg e b) = getPend s (rBobCfg e b) :=
  congrArg (mapGet s.pend (rBobCfg e b).key) (getR_setR_ne _ _ _ _ bobArm_key_ne)

/-- A set with a bad entry refused, and one committed. -/
def bobSetRefused (s : State) (e b : Nat) : State := setF (setF s (rBobArm e) fBobArmRefused 1) (rBobArm e) fBobArmFirstBad b
def bobSetCommitted (s : State) (e : Nat) : State :=
  setF (setF ((List.range 256).foldl (fun s b => commitBob s e b) s) (rBobArm e) fBobArmRefused 0) (rBobArm e) fBobArmFirstBad 0

section
variable {e : Fin 32} {view : Bool} (hr : regRight s ag (rBobArm e).key = true)
include hr

theorem bobArm_refuses (h : (List.range 256).find? (bobBad (setB s (rBobArm e) fBobArmView view) e) = some b) :
    exec (.bobArm ag e view) s = .next (bobSetRefused (setB s (rBobArm e) fBobArmView view) e b) := by
  refine congrArg Host.Outcome.next ((guarded_right _ _ _ _ hr).trans ?_)
  simp only [bobCommit, h]
  rfl

theorem bobArm_commits (h : (List.range 256).find? (bobBad (setB s (rBobArm e) fBobArmView view) e) = none) :
    exec (.bobArm ag e view) s = .next (bobSetCommitted (setB s (rBobArm e) fBobArmView view) e) := by
  refine congrArg Host.Outcome.next ((guarded_right _ _ _ _ hr).trans ?_)
  simp only [bobCommit, h]
  rfl

end

theorem bobSetRefused_shows : getF (bobSetRefused s e b) (rBobArm e) fBobArmRefused = 1 ∧
    getF (bobSetRefused s e b) (rBobArm e) fBobArmFirstBad = b % 2 ^ fBobArmFirstBad.width :=
  ⟨(getF_setF_apart _ _ _ _ _ (by decide) (by decide) (by decide)).trans (getF_setF_same _ _ _ _ (by decide)), getF_setF_same _ _ _ _ (by decide)⟩

theorem bobSetCommitted_shows : getF (bobSetCommitted s e) (rBobArm e) fBobArmRefused = 0 :=
  (getF_setF_apart _ _ _ _ _ (by decide) (by decide) (by decide)).trans (getF_setF_same _ _ _ _ (by decide))

theorem getR_bobSetCommitted (hb : b < 256) : getR (bobSetCommitted s e) (rBobCfg e b) = getPend s (rBobCfg e b) :=
  (getR_setR_ne _ _ _ _ bobArm_key_ne).trans ((getR_setR_ne _ _ _ _ bobArm_key_ne).trans (getR_commitBobs hb))

theorem bobSetCommitted_sameMemory : SameMemory s (bobSetCommitted s e) :=
  (SameMemory.setF (sameMemory_foldl fun _ _ => commitBob_memory)).setF

/-- Registers written at one place. -/
theorem SameRegsBut.setR {k : RegKey} {w : Word} (h : SameRegsBut [k] s t) (hk : r.key = k) : SameRegsBut [k] s (setR t r w) := fun q hq =>
  (getR_setR_ne _ _ _ _ fun hkq => hq (by simp [← hkq, hk])).trans (h q hq)

/-! ### The statement -/

/-- Settles O23: each mark takes one branch of the state table, and BOB_ARM commits one entry after another. -/
theorem bobbinsFollowTheStateTable : Obligations.BobbinsFollowTheStateTable := by
  refine ⟨⟨?_, ?_, ?_⟩, ?_, ?_⟩
  · intro s ag e n b hr ha hbad
    have hmark : ∀ c f, Host.Outcome.next (markBob s ag e n b c f) = (.next (f s) : Host.Outcome State Fault Refusal) := fun c f =>
      congrArg _ (markBob_good hr ha hbad)
    refine ⟨?_, ?_, ?_, ?_, ?_, ?_, ?_, ?_, ?_, ?_⟩
    · exact fun h => ⟨_, (hmark _ _).trans (congrArg _ (markFill_empty h)), bobState_bobSet (by decide), bobMarked_bobSet, bobSet_sameMemory⟩
    · intro k h hm
      exact ⟨_, (hmark _ _).trans (congrArg _ (markReady_filling h hm)), bobState_bobToReady, bobRemaining_bobToReady, bobToReady_sameMemory⟩
    · exact fun h => ⟨_, (hmark _ _).trans (congrArg _ (markRelease_held h)), bobState_bobToEmpty, bobToEmpty_sameMemory⟩
    · exact fun h hk => (hmark _ _).trans (congrArg _ (bobRead_unlimited h hk))
    · exact fun h hk => ⟨_, (hmark _ _).trans (congrArg _ (bobRead_last h hk)), bobState_bobToEmpty, bobToEmpty_sameMemory⟩
    · intro k h hk
      obtain ⟨hready, hrem⟩ := bobRemaining_counted h hk
      exact ⟨_, (hmark _ _).trans (congrArg _ (bobRead_counts h hk)), hready, hrem, sameMemory_of_eq rfl rfl⟩
    · exact fun h => (hmark _ _).trans (congrArg _ (markFill_refused h))
    · exact fun k h => (hmark _ _).trans (congrArg _ (markReady_refused h))
    · exact fun h => (hmark _ _).trans (congrArg _ (markRelease_refused h))
    · exact fun h => (hmark _ _).trans (congrArg _ (bobRead_not_ready h))
  · intro s ag e n b hr ha hbad
    have hmark : ∀ c f, Host.Outcome.next (markBob s ag e n b c f) = (.next (bobErr s e n) : Host.Outcome State Fault Refusal) := fun c f =>
      congrArg _ (markBob_bad hr ha hbad)
    exact ⟨hmark _ _, hmark _ _, hmark _ _, fun _ => hmark _ _⟩
  · intro s ag e n b hr ha
    have hmark : ∀ c f, Host.Outcome.next (markBob s ag e n b c f) = (.next (heldForWake s e c) : Host.Outcome State Fault Refusal) := fun c f =>
      congrArg _ (markBob_asleep hr ha)
    exact ⟨hmark _ _, hmark _ _, hmark _ _, fun _ => hmark _ _⟩
  · intro s ag e view b hr h
    obtain ⟨hrefused, hfirst⟩ := bobSetRefused_shows (s := setB s (rBobArm e) fBobArmView view) (e := e) (b := b)
    exact ⟨_, bobArm_refuses hr h, hrefused, hfirst, rfl, (sameRegsBut_setR.setR rfl).setR rfl, sameUnits_setR⟩
  · intro s ag e view hr h
    have hview : SameMemory s (setB s (rBobArm e) fBobArmView view) := sameMemory_of_eq rfl rfl
    exact ⟨_, bobArm_commits hr h, bobSetCommitted_shows, fun b hb => (getR_bobSetCommitted hb).trans getPend_setB_bobArm,
      hview.trans bobSetCommitted_sameMemory⟩

end Sys2Proof.Machine
end

section
namespace Sys2Proof.Machine
open Sys2Proof

/-! PROOFS. Commands are fetched, cancelled and completed (O22).

Fetching and completing take one branch of `fetchOne`, `execCancel` or `refuseUnknown` for each clause. A completion record lands through the
hub, whose writes leave every spool's record and every register of the contexts' pages as they are (`KeepsSpools`). -/

variable {s s2 s3 t : State} {u : SpoolId} {c c0 d : Cmd} {b b4 bs : Bytes} {ps : List Piece}

/-! ### What the hub's writes leave of the spools -/

/-- The spools' records and the registers of the contexts' pages are as they were. -/
structure KeepsSpools (s t : State) : Prop where
  spools : t.eng.spools = s.eng.spools
  regs : ∀ r : Reg, r.key.blk = .engC → getR t r = getR s r

namespace KeepsSpools

theorem refl : KeepsSpools s s := ⟨.refl _, fun _ _ => .refl _⟩

theorem trans (h : KeepsSpools s t) (h2 : KeepsSpools t s2) : KeepsSpools s s2 :=
  ⟨h2.spools.trans h.spools, fun r hr => (h2.regs r hr).trans (h.regs r hr)⟩

theorem ite {p : Prop} [Decidable p] (h : KeepsSpools s t) (h2 : KeepsSpools s s2) : KeepsSpools s (if p then t else s2) := by
  split
  · exact h
  · exact h2

theorem foldl {α : Type} {f : State → α → State} {l : List α} (hf : ∀ t x, KeepsSpools t (f t x)) : KeepsSpools s (l.foldl f s) :=
  List.foldlRecOn (motive := KeepsSpools s) _ _ .refl fun _ ht x _ => ht.trans (hf _ x)

theorem of_eq (heng : t.eng = s.eng) (hregs : t.regs = s.regs) : KeepsSpools s t := ⟨congrArg (·.spools) heng, fun r _ => by rw [getR, getR, hregs]⟩

/-- A register outside the contexts' pages. -/
theorem setF {r : Reg} {f : Fd} {x : Nat} (hr : r.key.blk ≠ .engC) : KeepsSpools s (setF s r f x) :=
  ⟨.refl _, fun _ hq => getR_setR_ne _ _ _ _ fun hk => hr (hk ▸ hq)⟩

theorem spool_eq (h : KeepsSpools s t) : spool t u = spool s u := congrArg (mapGet · u ({} : Spool)) h.spools

end KeepsSpools

theorem breachWrite_keepsSpools {l : Nat} {whole : Bool} : KeepsSpools s (breachWrite s l whole) := by
  unfold breachWrite
  dsimp only
  split
  · exact .refl
  · exact .ite (.of_eq rfl rfl) (.of_eq rfl rfl)

theorem mpaWrite_keepsSpools {a : Nat} : KeepsSpools s (mpaWrite s a bs) :=
  .foldl fun t _ => KeepsSpools.trans (t := rawWrite t _ _) (.of_eq rfl rfl) breachWrite_keepsSpools

theorem recallLine_keepsSpools {l : Nat} {discard : Bool} : KeepsSpools s (recallLine s l discard) := by
  have hdrop : ∀ t : State, KeepsSpools t (dropResv (dirDrop t l) l) := fun _ => .of_eq rfl rfl
  unfold recallLine
  dsimp only
  split
  · exact .of_eq rfl rfl
  · refine .trans (.trans ?_ (KeepsSpools.setF (by decide))) (hdrop _)
    split
    · exact .ite .refl (.of_eq rfl rfl)
    · exact .refl

theorem cohWrite_keepsSpools {a : Nat} : KeepsSpools s (cohWrite s a bs) := .trans (.foldl fun _ _ => recallLine_keepsSpools) mpaWrite_keepsSpools

theorem touchFrame_keepsSpools {f : Nat} : KeepsSpools s (touchFrame s f) := by
  unfold touchFrame
  split
  · exact .of_eq rfl rfl
  · exact .refl

theorem restartAges_keepsSpools {a n : Nat} : KeepsSpools s (restartAges s a n) :=
  .trans (.foldl fun _ _ => touchFrame_keepsSpools) (.foldl fun _ _ => .ite (.of_eq rfl rfl) .refl)

theorem sendMsi_keepsSpools {a k : Nat} : KeepsSpools s (sendMsi s a k) := by
  unfold sendMsi
  dsimp only
  refine .ite .refl ?_
  split
  · exact .ite (.of_eq rfl rfl) (.of_eq rfl rfl)
  · exact .of_eq rfl rfl

/-- The hot list's entries land without an MSI. -/
theorem hotRing_put_keepsSpools : KeepsSpools s (hotRing.put s bs) := by
  rcases ringPut_cases hotRing s bs with h | ⟨-, -, h⟩
  · rw [h]
    exact .of_eq rfl rfl
  · rw [h]
    exact .trans (.trans cohWrite_keepsSpools restartAges_keepsSpools) (KeepsSpools.setF (by decide))

theorem queueMig_keepsSpools {m : MigReq} : KeepsSpools s (queueMig s m) := .ite (.setF (by decide)) (.of_eq rfl rfl)

theorem takeHot_keepsSpools {k : Nat} : KeepsSpools s (takeHot k s) := by
  induction k generalizing s with
  | zero => exact .refl
  | succ k ih => exact .trans (.trans (KeepsSpools.setF (by decide)) (.ite queueMig_keepsSpools .refl)) ih

theorem hotReport_keepsSpools {g astag : Nat} {first : Bool} : KeepsSpools s (hotReport s g astag first) := by
  have hgran : ∀ (t : State) (x : Gran), KeepsSpools t (setGran t g x) := fun _ _ => .of_eq rfl rfl
  have hpromote : ∀ t : State, KeepsSpools t (promoteHot t) := fun _ => .ite takeHot_keepsSpools .refl
  exact .ite (.trans (KeepsSpools.setF (by decide)) (hgran _ _)) (((hgran _ _).trans hotRing_put_keepsSpools).trans (hpromote _))

theorem touchGranule_keepsSpools {g astag hint lines : Nat} : KeepsSpools s (touchGranule s g astag hint lines) := by
  have hgran : ∀ (t : State) (x : Gran), KeepsSpools t (setGran t g x) := fun _ _ => .of_eq rfl rfl
  have hcount : ∀ m, KeepsSpools s { s with hub := { s.hub with sampleCtr := m } } := fun _ => .of_eq rfl rfl
  have hsampled : ∀ (n m : Nat) (x : Gran), KeepsSpools s (if n = 0 then { s with hub := { s.hub with sampleCtr := m } }
      else setGran { s with hub := { s.hub with sampleCtr := m } } g x) := fun _ _ _ => .ite (hcount _) ((hcount _).trans (hgran _ _))
  unfold touchGranule
  dsimp only
  refine .ite (hgran _ _) (.ite .refl (.ite ?_ .refl))
  exact .ite ((hsampled _ _ _).trans hotReport_keepsSpools) (.ite ((hsampled _ _ _).trans hotReport_keepsSpools) (hsampled _ _ _))

theorem touchSpan_keepsSpools {a n astag hint : Nat} : KeepsSpools s (touchSpan s a n astag hint) := by
  refine .trans ?_ (.foldl fun _ _ => touchGranule_keepsSpools)
  exact .foldl fun _ _ => touchFrame_keepsSpools

theorem wakeAt_keepsSpools {a : Nat} : KeepsSpools s (wakeAt s a) := by
  unfold wakeAt
  split
  · exact .ite .refl ⟨rfl, fun _ _ => rfl⟩
  · exact .refl

theorem piecesWrite_keepsSpools : KeepsSpools s (piecesWrite s ps bs) := by
  refine List.foldlRecOn (motive := fun acc : State × Bytes => KeepsSpools s acc.1) _ _ .refl fun acc hacc p _ => ?_
  exact hacc.trans (((KeepsSpools.ite cohWrite_keepsSpools mpaWrite_keepsSpools).trans touchSpan_keepsSpools).trans wakeAt_keepsSpools)

/-! ### Fetching (R146, R471) -/

theorem mayFetch_eq_false (h : (spool s u).fetched % 2 ^ 32 = sqTail s u ∨ (spool s u).fetchHold.isSome = true ∨ 32 ≤ (spool s u).cmds.length) :
    mayFetch s u = false := by
  rcases h with h | h | h
  · have hno : decide ((spool s u).fetched % 2 ^ 32 ≠ sqTail s u) = false := decide_eq_false (not_not.2 h)
    simp only [mayFetch, hno, Bool.and_false, Bool.false_and]
  · simp [mayFetch, Option.isSome_iff_ne_none.1 h]
  · simp [mayFetch, Nat.not_lt.2 h]

theorem fetchOne_idle (h : mayFetch s u = false) : fetchOne s u = (s, false) := by simp [fetchOne, h]

theorem commandFetch_stops (h : fetchOne s u = (t, false)) : exec (.commandFetch u) s = .next t := by
  change Host.Outcome.next (fetchMany s u 32) = _
  rw [fetchMany, h]

theorem commandFetch_goes_on (h : fetchOne s u = (t, true)) : exec (.commandFetch u) s = .next (fetchMany t u 31) := by
  change Host.Outcome.next (fetchMany s u 32) = _
  rw [fetchMany, h]

/-- The bytes of a slot's issued command are forgotten. -/
def withoutIssued (s : State) (u : SpoolId) (x : Nat) : State := { s with eng := { s.eng with issued := mapDel s.eng.issued (u, x) } }

theorem pushCmd_cmds : (spool (pushCmd s u c) u).cmds = (spool s u).cmds ++ [c] := by rw [pushCmd, spool_setSpool_same]

theorem pushCmd_fetched : (spool (pushCmd s u c) u).fetched = ((spool s u).fetched + c.nslots) % 2 ^ 32 := by rw [pushCmd, spool_setSpool_same]

section
variable (hmay : mayFetch s u = true) (hnext : nextSlot s u = (s2, .bytes b none))
include hmay hnext

/-- A command of one slot joins the buffer. -/
theorem fetchOne_pushes (hcancel : u8At b 0 ≠ 0x7F) (hlong : u8At b 0 ≠ 2) :
    fetchOne s u = (pushCmd (withoutIssued s2 u (spool s u).fetched) u (newCmd (spool s u).fetched 1 b), true) := by
  simp only [fetchOne, hmay, hnext, hcancel, hlong, not_true_eq_false, if_false]
  rfl

/-- A TRANSFER_INLINE whose four slots lie below TAIL joins it with their bytes. -/
theorem fetchOne_pushes_inline (hlong : u8At b 0 = 2) (hlen : b.length ≠ 256)
    (hroom : 4 ≤ (sqTail s2 u + 2 ^ 32 - (spool s u).fetched % 2 ^ 32) % 2 ^ 32)
    (hmore : readMore s2 u ((spool s u).fetched + 1) 3 b none = (s3, .bytes b4 none)) :
    fetchOne s u = (pushCmd s3 u (newCmd (spool s u).fetched 4 b4), true) := by
  simp only [fetchOne, hmay, hnext, hlong, hlen, Nat.not_lt.2 hroom, hmore, not_true_eq_false, if_false, if_true]
  rfl

variable (hcancel : u8At b 0 = 0x7F)
include hcancel

/-- A CANCEL is left for its own row. -/
theorem fetchOne_cancel : fetchOne s u = (s2, false) := by
  simp only [fetchOne, hmay, hnext, hcancel, not_true_eq_false, if_false, if_true]

/-! ### CANCEL (R168) -/

theorem cancel_refused (hok : cancelOk b = false) : exec (.cancel u) s = .next (endCmd (pushCmd (withoutIssued s2 u (spool s u).fetched) u
    { newCmd (spool s u).fetched 1 b with
      step := curStep (withoutIssued s2 u (spool s u).fetched) (ctxPart (withoutIssued s2 u (spool s u).fetched) u.e u.n) })
    u (spool s u).fetched stFormat 0) := by
  change execCancel u s = _
  simp only [execCancel, hmay, hnext, hcancel, hok, not_true_eq_false, Bool.false_eq_true, not_false_eq_true, ne_eq, if_false, if_true]
  rfl

theorem cancel_acts {k : Nat} (hok : cancelOk b = true)
    (hat : cancelAt (withoutIssued s2 u (spool s u).fetched) u (u8At b 8 % 16) (bitOf (u8At b 8) 4) = (s3, k)) :
    exec (.cancel u) s = .next (pushCmd s3 u { newCmd (spool s u).fetched 1 b with
      phase := .ended, status := stOk, detail := k, step := curStep s2 (ctxPart s2 u.e u.n) }) := by
  change execCancel u s = _
  unfold withoutIssued at hat
  simp only [execCancel, hmay, hnext, hcancel, hok, hat, not_true_eq_false, ne_eq, if_false]
  rfl

end

/-! ### Completing (R147, R148) -/

section
variable {slot : BitVec 32}

theorem refuseUnknown_known (h : ∀ d, startable s u = some d → d.slot ≠ slot.toNat ∨ cmdKnown d.bytes = true) :
    refuseUnknown s u slot.toNat = s := by
  unfold refuseUnknown
  cases hs : startable s u with
  | none => rfl
  | some d => exact if_neg fun hc => (h d hs).elim (fun hne => hne hc.1) fun hk => hc.2 hk

/-- A command of no kind ends with FORMAT once it is the oldest unstarted. -/
theorem refuseUnknown_ends {s0 : State} (hs : startable s u = some d) (hslot : d.slot = slot.toNat) (hk : cmdKnown d.bytes = false)
    (hmark : markStart s u d = (s0, c0)) : refuseUnknown s u slot.toNat = endsWith s0 u c0 stFormat 0 := by
  simp [refuseUnknown, hs, hslot, hk, hmark, endsWith]

theorem commandComplete_completes (ht : refuseUnknown s u slot.toNat = t) (hc : spoolCmd t u slot.toNat = some c) (hphase : c.phase = .ended) :
    exec (.commandComplete u slot) s = .next (completeCmd t u c) := by
  change execCommandComplete u slot s = _
  simp only [execCommandComplete, ht, hc, hphase, if_true]

theorem commandComplete_waits (ht : refuseUnknown s u slot.toNat = t) (hc : spoolCmd t u slot.toNat = some c) (hphase : c.phase ≠ .ended) :
    exec (.commandComplete u slot) s = .next t := by
  change execCommandComplete u slot s = _
  simp only [execCommandComplete, ht, hc, hphase, if_false]

end

/-! ### Completion records and CQ_HEAD (R148) -/

theorem flushRecs_without_held {k : Nat} (h : (spool s u).held = []) : flushRecs s u k = s := by
  cases k with
  | zero => rfl
  | succ k => simp [flushRecs, h]

theorem settle_settled (hstate : spState s u ≠ spCancelling) (hclear : (ctxAux s u.e u.n).clearing = false) : settle s u = s := by
  simp [settle, hstate, hclear]

/-- With no record held and no cancellation under way only the shown registers are brought up to date. -/
theorem flushSpool_idle (hheld : (spool s u).held = []) (hstate : spState s u ≠ spCancelling) (hclear : (ctxAux s u.e u.n).clearing = false) :
    flushSpool s u = setSpool s u (spool s u) := by
  rw [flushSpool, flushRecs_without_held hheld]
  exact settle_settled (by rwa [spState_setSpool]) hclear

/-- CQ_PTR with a consumer's count. -/
def cqConsumed (s : State) (u : SpoolId) (n : Nat) : State := setR s (rCqPtr u.e u.n u.s) (BitVec.ofNat 64 (cqTail s u + 2 ^ 32 * n))

theorem cqPtr_of_counts {s : State} {x y : Nat} (hx : x < 2 ^ 32) (hy : y < 2 ^ 32)
    (h : getR s (rCqPtr u.e u.n u.s) = BitVec.ofNat 64 (x + 2 ^ 32 * y)) : cqTail s u = x ∧ cqHeadOf s u = y := by
  have hn : (BitVec.ofNat 64 (x + 2 ^ 32 * y)).toNat = x + 2 ^ 32 * y := by
    rw [BitVec.toNat_ofNat]
    omega
  rw [cqTail, cqHeadOf, h, hn]
  omega

theorem cqTail_lt : cqTail s u < 2 ^ 32 := Nat.mod_lt _ (by decide)

theorem cqHeadOf_lt : cqHeadOf s u < 2 ^ 32 := by
  have h := (getR s (rCqPtr u.e u.n u.s)).isLt
  unfold cqHeadOf
  omega

section
variable {r : Reg} {sp : Spool}

theorem getR_cqPtr_setSpool : getR (setSpool s u sp) (rCqPtr u.e u.n u.s) = getR s (rCqPtr u.e u.n u.s) :=
  getR_setSpool (key_ne_of_off (by simp [rSqHead, rCqPtr])) (key_ne_of_off (by simp [rSpStatus, rCqPtr]))

theorem cqHead_moves {val : BitVec 32} (hheld : (spool s u).held = []) (hstate : spState s u ≠ spCancelling)
    (hclear : (ctxAux s u.e u.n).clearing = false) (ht : t = flushSpool (cqConsumed s u val.toNat) u) :
    cqHeadOf t u = val.toNat ∧ cqTail t u = cqTail s u ∧ spState t u = spState s u ∧ spool t u = spool s u ∧
      SameRegsBut [(rCqPtr u.e u.n u.s).key, (rSqHead u.e u.n u.s).key, (rSpStatus u.e u.n u.s).key] s t ∧ SameMemory s t := by
  have hkeep : spState (cqConsumed s u val.toNat) u = spState s u :=
    congrArg (fget · _) (getR_setR_ne _ _ _ _ (key_ne_of_off (by simp [rCqPtr, rSpStatus])))
  rw [flushSpool_idle (s := cqConsumed s u val.toNat) hheld (by rwa [hkeep]) hclear] at ht
  subst ht
  obtain ⟨htail, hhead⟩ := cqPtr_of_counts cqTail_lt val.isLt (getR_cqPtr_setSpool.trans (getR_setR_same s (rCqPtr u.e u.n u.s) _))
  refine ⟨hhead, htail, spState_setSpool.trans hkeep, spool_setSpool_same, fun q hq => ?_, sameMemory_of_eq rfl rfl⟩
  simp only [List.mem_cons, List.not_mem_nil, or_false, not_or] at hq
  obtain ⟨hptr, hsq, hst⟩ := hq
  exact (getR_setSpool (Ne.symm hsq) (Ne.symm hst)).trans (getR_setR_ne _ _ _ _ (Ne.symm hptr))

end

/-- A record's bytes written, and the count one higher. -/
def recLanded (s : State) (u : SpoolId) (ps : List Piece) (bs : Bytes) : State :=
  let s := piecesWrite s ps bs
  setR s (rCqPtr u.e u.n u.s) (BitVec.ofNat 64 ((cqTail s u + 1) % 2 ^ 32 + 2 ^ 32 * cqHeadOf s u))

/-- The bytes of the next record with its PHASE: the inverse of the count's bit. -/
def recPhased (s : State) (u : SpoolId) (h : HeldRec) : Bytes := withPhase h.bytes 4 2 (if bitOf (cqTail s u) (cqLog2 s u) then 0 else 1)

theorem writeRec_silent {h : HeldRec} (hirq : h.irq = false) : writeRec s u h ps = recLanded s u ps (recPhased s u h) := if_neg (by simp [hirq])

/-- The MSI leaves the spools as they are. -/
theorem writeRec_keepsSpools {h : HeldRec} : KeepsSpools (recLanded s u ps (recPhased s u h)) (writeRec s u h ps) := .ite sendMsi_keepsSpools .refl

theorem writeRec_counts {h : HeldRec} : cqTail (writeRec s u h ps) u = (cqTail s u + 1) % 2 ^ 32 ∧ cqHeadOf (writeRec s u h ps) u = cqHeadOf s u ∧
    spool (writeRec s u h ps) u = spool s u := by
  have hland : KeepsSpools s (piecesWrite s ps (recPhased s u h)) := piecesWrite_keepsSpools
  have hsend := writeRec_keepsSpools (s := s) (u := u) (ps := ps) (h := h)
  have htail : cqTail (piecesWrite s ps (recPhased s u h)) u = cqTail s u := congrArg (fun w : Word => w.toNat % 2 ^ 32) (hland.regs _ rfl)
  have hhead : cqHeadOf (piecesWrite s ps (recPhased s u h)) u = cqHeadOf s u := congrArg (fun w : Word => w.toNat / 2 ^ 32) (hland.regs _ rfl)
  have hptr : getR (writeRec s u h ps) (rCqPtr u.e u.n u.s) = BitVec.ofNat 64 ((cqTail s u + 1) % 2 ^ 32 + 2 ^ 32 * cqHeadOf s u) := by
    rw [hsend.regs _ rfl, recLanded, getR_setR_same, htail, hhead]
  obtain ⟨htail', hhead'⟩ := cqPtr_of_counts (Nat.mod_lt _ (by decide)) cqHeadOf_lt hptr
  exact ⟨htail', hhead', hsend.spool_eq.trans hland.spool_eq⟩

/-! ### The statement -/

/-- Settles O22: one branch of fetching, CANCEL or completing for each clause, and a record that lands through the hub. -/
theorem commandsAreFetchedAndCompleted : Obligations.CommandsAreFetchedAndCompleted := by
  refine ⟨⟨?_, ?_, ?_, ?_, ?_, ?_, ?_⟩, ⟨?_, ?_, ?_, ?_, ?_⟩, ?_⟩
  · exact fun s u h => commandFetch_stops (fetchOne_idle (mayFetch_eq_false h))
  · exact fun s t u => commandFetch_goes_on
  · intro s s2 u b hmay hnext hcancel hlong
    exact ⟨_, commandFetch_goes_on (fetchOne_pushes hmay hnext hcancel hlong), rfl, pushCmd_cmds, pushCmd_fetched⟩
  · intro s s2 s3 u b b4 hmay hnext hlong hlen hroom hmore
    exact ⟨_, commandFetch_goes_on (fetchOne_pushes_inline hmay hnext hlong hlen hroom hmore), rfl, pushCmd_cmds, pushCmd_fetched⟩
  · intro s s2 u b hmay hnext hcancel hok
    obtain ⟨s3, k, hat⟩ : ∃ s3 k, cancelAt (withoutIssued s2 u (spool s u).fetched) u (u8At b 8 % 16) (bitOf (u8At b 8) 4) = (s3, k) :=
      ⟨_, _, rfl⟩
    exact ⟨s3, k, cancel_acts hmay hnext hcancel hok hat, hat.symm⟩
  · exact fun s s2 u b hmay hnext hcancel hok => ⟨_, rfl, cancel_refused hmay hnext hcancel hok⟩
  · exact fun s s2 u b hmay hnext hcancel => commandFetch_stops (fetchOne_cancel hmay hnext hcancel)
  · exact fun s u slot c h hc hphase => commandComplete_completes (refuseUnknown_known h) hc hphase
  · exact fun s u slot c h hc hphase => commandComplete_waits (refuseUnknown_known h) hc hphase
  · exact fun s s0 u slot c0 d hs hslot hk hmark c hc hphase => commandComplete_completes (refuseUnknown_ends hs hslot hk hmark) hc hphase
  · exact fun s ag u val hr => congrArg Host.Outcome.next (guarded_right _ _ _ _ hr)
  · exact fun s ag u val hr hheld hstate hclear => ⟨_, congrArg Host.Outcome.next (guarded_right _ _ _ _ hr), cqHead_moves hheld hstate hclear rfl⟩
  · intro s u h ps _
    obtain ⟨htail, hhead, hspool⟩ := writeRec_counts (s := s) (u := u) (h := h) (ps := ps)
    refine ⟨htail, hhead, hspool, fun hirq => ?_⟩
    rw [writeRec_silent hirq]
    rfl

end Sys2Proof.Machine
end

section
namespace Sys2Proof.Machine
open Sys2Proof

/-! PROOFS. Spools and context slots are enabled, resumed, assigned and cleared (O20).

A write of SP_CFG or CTX_CFG takes one branch for each clause. A spool made new (`zeroSpool`) has its record and five registers of its page
written; a slot's assignment does so for its four spools, none of which looks at another (`foldl_own`). -/

variable {s t : State} {u v : SpoolId} {ag : Agent} {val : Word} {r : Reg} {st : Nat}

/-! ### A spool with nothing in it -/

theorem spool_zeroSpool :
    spool (zeroSpool s u) v = if u = v then { lease := (spool s u).lease, expired := (spool s u).expired } else spool s v := spool_setSpool (s := s)

/-- The spool's own registers that are written with its counts. -/
def countKeys (u : SpoolId) : List RegKey :=
  [(rSqHead u.e u.n u.s).key, (rSpStatus u.e u.n u.s).key, (rSqTail u.e u.n u.s).key, (rCqPtr u.e u.n u.s).key]

theorem getR_zeroSpool (h : r.key ∉ countKeys u) : getR (zeroSpool s u) r = getR s r := by
  simp only [countKeys, List.mem_cons, List.not_mem_nil, or_false, not_or] at h
  obtain ⟨hhead, hstatus, htail, hptr⟩ := h
  exact (getR_setR_ne _ _ _ _ (Ne.symm hptr)).trans ((getR_setR_ne _ _ _ _ (Ne.symm htail)).trans (getR_setSpool (Ne.symm hhead) (Ne.symm hstatus)))

theorem engP_not_mem_countKeys (h : r.key.blk = .engP) : r.key ∉ countKeys u := by
  intro hm
  simp only [countKeys, List.mem_cons, List.not_mem_nil, or_false] at hm
  rcases hm with hk | hk | hk | hk
  all_goals
    have hb : r.key.blk = .engC := congrArg RegKey.blk hk
    rw [h] at hb
    cases hb

/-- A spool with its counts at 0, nothing in it and a state. -/
def spoolReset (s : State) (u : SpoolId) (st : Nat) : State := setSpState (zeroSpool s u) u st

theorem getR_spoolReset (h : r.key ∉ countKeys u) : getR (spoolReset s u st) r = getR s r := by
  refine (getR_setR_ne _ _ _ _ fun hk => h ?_).trans (getR_zeroSpool h)
  rw [← hk]
  exact List.mem_cons_of_mem _ List.mem_cons_self

theorem spool_spoolReset : spool (spoolReset s u st) v = if u = v then { lease := (spool s u).lease, expired := (spool s u).expired } else spool s v := by
  rw [spoolReset, setSpState, spool_setF, spool_zeroSpool]

theorem spState_spoolReset (h : st < 8) : spState (spoolReset s u st) u = st := spState_setSpState h

theorem sqTail_spoolReset : sqTail (spoolReset s u st) u = 0 := by
  have hreg : getR (spoolReset s u st) (rSqTail u.e u.n u.s) = 0 :=
    (getR_setR_ne _ _ _ _ (key_ne_of_off (by simp [rSpStatus, rSqTail]))).trans
      ((getR_setR_ne _ _ _ _ (key_ne_of_off (by simp [rCqPtr, rSqTail]))).trans (getR_setR_same _ _ _))
  rw [sqTail, hreg]
  rfl

theorem cqPtr_spoolReset : cqTail (spoolReset s u st) u = 0 ∧ cqHeadOf (spoolReset s u st) u = 0 := by
  have hreg : getR (spoolReset s u st) (rCqPtr u.e u.n u.s) = 0 :=
    (getR_setR_ne _ _ _ _ (key_ne_of_off (by simp [rSpStatus, rCqPtr]))).trans (getR_setR_same _ _ _)
  rw [cqTail, cqHeadOf, hreg]
  exact ⟨rfl, rfl⟩

theorem spoolReset_memory : (spoolReset s u st).mem = s.mem ∧ (spoolReset s u st).poison = s.poison := by
  have hzero : (zeroSpool s u).mem = s.mem ∧ (zeroSpool s u).poison = s.poison := ⟨rfl, rfl⟩
  exact hzero

/-- Another spool of the context keeps its registers. -/
theorem sibling_not_mem_countKeys {i : Fin 4} (h : u.s ≠ i) :
    (rSqTail u.e u.n i).key ∉ countKeys u ∧ (rSpStatus u.e u.n i).key ∉ countKeys u := by
  have hi : u.s.val ≠ i.val := fun hv => h (Fin.ext hv)
  simp only [countKeys, rSqHead, rSpStatus, rSqTail, rCqPtr, List.mem_cons, List.not_mem_nil, or_false, RegKey.mk.injEq, true_and]
  omega

/-! ### SP_CFG (R149, R472) -/

/-- A ring size outside 2^6 to 2^16. -/
def cfgSizesBad (val : Word) : Prop :=
  fget val fSpCfgSqLog2 < 6 ∨ 16 < fget val fSpCfgSqLog2 ∨ fget val fSpCfgCqLog2 < 6 ∨ 16 < fget val fSpCfgCqLog2

/-- The ring sizes stored. -/
def cfgSized (s : State) (u : SpoolId) (val : Word) : State :=
  setF (setF s (rSpCfg u.e u.n u.s) fSpCfgSqLog2 (fget val fSpCfgSqLog2)) (rSpCfg u.e u.n u.s) fSpCfgCqLog2 (fget val fSpCfgCqLog2)

/-- The spool enabled, before its counts are at 0. -/
def cfgEnabled (s : State) (u : SpoolId) (val : Word) : State := setF (cfgSized s u val) (rSpCfg u.e u.n u.s) fSpCfgEnable 1

theorem spCfgWrite_ignored (h : cfgSizesBad val) : spCfgWrite s u val = s := if_pos h

section
variable (hok : ¬cfgSizesBad val)
include hok

section
variable (hoff : getB s (rSpCfg u.e u.n u.s) fSpCfgEnable = false)
include hoff

/-- An enabled spool is ACTIVE, or KILLED in a killed slot (log 72). -/
theorem spCfgWrite_enables (hen : fget val fSpCfgEnable = 1) :
    spCfgWrite s u val = spoolReset (cfgEnabled s u val) u (if slotKilled s u.e u.n then spKilled else spActive) := by
  have hkilled : slotKilled (zeroSpool (cfgEnabled s u val) u) u.e u.n = slotKilled s u.e u.n := by
    have hcfg : ∀ (t : State) (f : Fd) (x : Nat), getR (setF t (rSpCfg u.e u.n u.s) f x) (rFrStatus u.e u.n) = getR t (rFrStatus u.e u.n) :=
      fun _ _ _ => getR_setR_ne _ _ _ _ (key_ne_of_blk (by simp [rSpCfg, rFrStatus]))
    rw [slotKilled, slotKilled, getB, getB, getF, getF, getR_zeroSpool (engP_not_mem_countKeys rfl), cfgEnabled, cfgSized, hcfg, hcfg, hcfg]
  rw [← hkilled]
  refine (if_neg hok).trans ((if_pos (by simp [hoff])).trans ?_)
  exact if_pos (decide_eq_true hen)

theorem spCfgWrite_sizes (hen : fget val fSpCfgEnable = 0) : spCfgWrite s u val = cfgSized s u val := by
  refine (if_neg hok).trans ((if_pos (by simp [hoff])).trans ?_)
  exact if_neg (by simp [hen])

end

variable (hon : getB s (rSpCfg u.e u.n u.s) fSpCfgEnable = true)
include hon

theorem spCfgWrite_resumes (hen : fget val fSpCfgEnable = 1) (hres : fget val fSpCfgResume = 1) (hstop : spState s u = spStopped) :
    spCfgWrite s u val = setSpState s u spActive := by
  refine (if_neg hok).trans ((if_neg (by simp [hon])).trans ((if_pos (decide_eq_true hen)).trans ?_))
  exact if_pos ⟨hres, hstop⟩

theorem spCfgWrite_disables (hen : fget val fSpCfgEnable = 0) : spCfgWrite s u val = flushSpool (releaseSets
    (cancelSpool (setSpState (setF s (rSpCfg u.e u.n u.s) fSpCfgEnable 0) u spCancelling) u).1 u.e u.n (fun v => decide (v = u))) u :=
  (if_neg hok).trans ((if_neg (by simp [hon])).trans (if_neg (by simp [hen])))

end

theorem cfgSizes_ok (h1 : 6 ≤ fget val fSpCfgSqLog2) (h2 : fget val fSpCfgSqLog2 ≤ 16) (h3 : 6 ≤ fget val fSpCfgCqLog2)
    (h4 : fget val fSpCfgCqLog2 ≤ 16) : ¬cfgSizesBad val := by
  unfold cfgSizesBad
  omega

/-- The sizes and ENABLE are written without a change of memory, and ENABLE reads 1. -/
theorem cfgEnabled_enable : getF (cfgEnabled s u val) (rSpCfg u.e u.n u.s) fSpCfgEnable = 1 ∧ SameMemory s (cfgEnabled s u val) :=
  ⟨getF_setF_same _ _ _ _ (by decide), sameMemory_of_eq rfl rfl⟩

theorem spCfg_not_mem_countKeys : (rSpCfg u.e u.n u.s).key ∉ countKeys u := by
  simp [countKeys, rSqHead, rSpStatus, rSqTail, rCqPtr, rSpCfg]

/-! ### The assignment of a context slot (R426, R472) -/

/-- One spool of a slot that is assigned: DISABLED and empty. -/
def spoolDisabled (s : State) (u : SpoolId) : State := spoolReset (setF s (rSpCfg u.e u.n u.s) fSpCfgEnable 0) u spDisabled

theorem getR_spoolDisabled (h : r.key ∉ countKeys u) (hcfg : (rSpCfg u.e u.n u.s).key ≠ r.key) : getR (spoolDisabled s u) r = getR s r :=
  (getR_spoolReset h).trans (getR_setR_ne _ _ _ _ hcfg)

/-- What is asked of a spool of the slot. -/
def spoolView (u : SpoolId) (s : State) : Nat × List Cmd × Nat := (spState s u, (spool s u).cmds, sqTail s u)

theorem spoolView_spoolDisabled : spoolView u (spoolDisabled s u) = (spDisabled, [], 0) := by
  rw [spoolView, spoolDisabled, spState_spoolReset (by decide), spool_spoolReset, if_pos rfl, sqTail_spoolReset]

theorem spoolView_other {e : Fin 32} {n : Fin 16} {i j : Fin 4} (h : j ≠ i) :
    spoolView ⟨e, n, i⟩ (spoolDisabled s ⟨e, n, j⟩) = spoolView ⟨e, n, i⟩ s := by
  obtain ⟨htail, hstatus⟩ := sibling_not_mem_countKeys (u := ⟨e, n, j⟩) h
  have hst : getR (spoolDisabled s ⟨e, n, j⟩) (rSpStatus e n i) = getR s (rSpStatus e n i) :=
    getR_spoolDisabled hstatus (key_ne_of_off (by dsimp only [rSpCfg, rSpStatus]; omega))
  have htl : getR (spoolDisabled s ⟨e, n, j⟩) (rSqTail e n i) = getR s (rSqTail e n i) :=
    getR_spoolDisabled htail (key_ne_of_off (by dsimp only [rSpCfg, rSqTail]; omega))
  have hrec : spool (spoolDisabled s ⟨e, n, j⟩) ⟨e, n, i⟩ = spool s ⟨e, n, i⟩ := by
    rw [spoolDisabled, spool_spoolReset, if_neg (by simp [h]), spool_setF]
  rw [spoolView, spoolView, spState, spState, getF, getF, sqTail, sqTail, hst, htl, hrec]

theorem spoolDisabled_memory : (spoolDisabled s u).mem = s.mem ∧ (spoolDisabled s u).poison = s.poison := by
  rw [spoolDisabled, spoolReset_memory.1, spoolReset_memory.2]
  exact ⟨rfl, rfl⟩

/-- The four spools of a slot DISABLED. -/
def spoolsDisabled (s : State) (e : Fin 32) (n : Fin 16) : State := (List.finRange 4).foldl (fun s i => spoolDisabled s ⟨e, n, i⟩) s

section
variable {e : Fin 32} {n : Fin 16}

theorem spoolView_spoolsDisabled (i : Fin 4) : spoolView ⟨e, n, i⟩ (spoolsDisabled s e n) = (spDisabled, [], 0) := by
  obtain ⟨s1, -, h⟩ := foldl_own (s := s) (f := fun s i => spoolDisabled s ⟨e, n, i⟩) (spoolView ⟨e, n, i⟩) (List.mem_finRange i)
    (List.nodup_finRange 4) fun _ _ _ hne => spoolView_other hne
  exact h.trans spoolView_spoolDisabled

/-- The engine's own registers and the slot's record stay. -/
theorem spoolsDisabled_keeps : (∀ r : Reg, r.key.blk = .engP → getR (spoolsDisabled s e n) r = getR s r) ∧
    (spoolsDisabled s e n).eng.ctxs = s.eng.ctxs := by
  refine List.foldlRecOn (motive := fun t : State => (∀ r : Reg, r.key.blk = .engP → getR t r = getR s r) ∧ t.eng.ctxs = s.eng.ctxs) _ _
    ⟨fun _ _ => rfl, rfl⟩ fun t ht i _ => ?_
  obtain ⟨hregs, hctxs⟩ := ht
  exact ⟨fun r hr => (getR_spoolDisabled (engP_not_mem_countKeys hr) (key_ne_of_blk (by simp [rSpCfg, hr]))).trans (hregs r hr), hctxs⟩

/-- CTX_CFG of a slot that is assigned: VALID, and EPOCH one higher. -/
def ctxAssigned (s : State) (e n : Nat) : State := advance (setF s (rCtxCfg e n) fCtxCfgValid 1) (rCtxCfg e n) fCtxCfgEpoch 1

/-- The slot's own record new, KILLED and its counter at 0. -/
def slotAssigned (s : State) (e n : Nat) : State :=
  setR (setF (setCtxAux (ctxAssigned s e n) e n {}) (rFrStatus e n) fFrStatusKilled 0) (rCtxMatrixCnt e n) 0

theorem assignSlot_eq : assignSlot s e n = spoolsDisabled (slotAssigned s e n) e n := rfl

theorem getR_ctxCfg_assignSlot : getR (assignSlot s e n) (rCtxCfg e n) = getR (ctxAssigned s e n) (rCtxCfg e n) := by
  rw [assignSlot_eq, spoolsDisabled_keeps.1 _ rfl, slotAssigned, getR_setR_ne _ _ _ _ (key_ne_of_blk (by simp [rCtxMatrixCnt, rCtxCfg]))]
  exact getR_setR_ne _ _ _ _ (key_ne_of_off (by dsimp only [rFrStatus, rCtxCfg]; omega))

theorem ctxAux_assignSlot : ctxAux (assignSlot s e n) e n = {} := by
  rw [assignSlot_eq, ctxAux, spoolsDisabled_keeps.2]
  exact mapGet_mapSet_same _ _ _ _

theorem assignSlot_sameMemory : SameMemory s (assignSlot s e n) := by
  have hslot : SameMemory s (slotAssigned s e n) := sameMemory_of_eq rfl rfl
  have hspools : SameMemory (slotAssigned s e n) (spoolsDisabled (slotAssigned s e n) e n) := sameMemory_foldl fun _ _ => spoolDisabled_memory
  exact hslot.trans hspools

/-- ASTAG and PARTITION stored. -/
def ctxStored (s : State) (e n : Nat) (val : Word) : State :=
  setF (setF s (rCtxCfg e n) fCtxCfgAstag (fget val fCtxCfgAstag)) (rCtxCfg e n) fCtxCfgPartition (fget val fCtxCfgPartition)

theorem fget_lt {f : Fd} : fget val f < 2 ^ f.width := BitVec.isLt _

theorem ctxStored_fields : getF (ctxStored s e n val) (rCtxCfg e n) fCtxCfgAstag = fget val fCtxCfgAstag ∧
    getF (ctxStored s e n val) (rCtxCfg e n) fCtxCfgPartition = fget val fCtxCfgPartition ∧
    getF (ctxStored s e n val) (rCtxCfg e n) fCtxCfgEpoch = getF s (rCtxCfg e n) fCtxCfgEpoch := by
  unfold ctxStored
  refine ⟨?_, ?_, ?_⟩
  · rw [getF_setF_apart _ _ _ _ _ (by decide) (by decide) (by decide), getF_setF_same _ _ _ _ (by decide), Nat.mod_eq_of_lt fget_lt]
  · rw [getF_setF_same _ _ _ _ (by decide), Nat.mod_eq_of_lt fget_lt]
  · rw [getF_setF_apart _ _ _ _ _ (by decide) (by decide) (by decide), getF_setF_apart _ _ _ _ _ (by decide) (by decide) (by decide)]

theorem ctxAssigned_fields : getB (ctxAssigned s e n) (rCtxCfg e n) fCtxCfgValid = true ∧
    getF (ctxAssigned s e n) (rCtxCfg e n) fCtxCfgEpoch = (getF s (rCtxCfg e n) fCtxCfgEpoch + 1) % 2 ^ fCtxCfgEpoch.width ∧
    getF (ctxAssigned s e n) (rCtxCfg e n) fCtxCfgAstag = getF s (rCtxCfg e n) fCtxCfgAstag ∧
    getF (ctxAssigned s e n) (rCtxCfg e n) fCtxCfgPartition = getF s (rCtxCfg e n) fCtxCfgPartition := by
  unfold ctxAssigned
  refine ⟨?_, ?_, ?_, ?_⟩
  · rw [getB, advance, getF_setF_apart _ _ _ _ _ (by decide) (by decide) (by decide), getF_setF_same _ _ _ _ (by decide)]
    rfl
  · rw [getF_advance_same _ _ _ _ (by decide), getF_setF_apart _ _ _ _ _ (by decide) (by decide) (by decide)]
  · rw [advance, getF_setF_apart _ _ _ _ _ (by decide) (by decide) (by decide), getF_setF_apart _ _ _ _ _ (by decide) (by decide) (by decide)]
  · rw [advance, getF_setF_apart _ _ _ _ _ (by decide) (by decide) (by decide), getF_setF_apart _ _ _ _ _ (by decide) (by decide) (by decide)]

section
variable (hvalid : getB s (rCtxCfg e n) fCtxCfgValid = false) (hset : fget val fCtxCfgValid = 1)
  (howner : engOwner s e = some (fget val fCtxCfgPartition))
include hvalid hset howner

theorem ctxCfgWrite_assigns : ctxCfgWrite s e n val = assignSlot (ctxStored s e n val) e n := by
  obtain ⟨-, hstored, -⟩ := ctxStored_fields (s := s) (e := e) (n := n) (val := val)
  have hpart : engOwner (ctxStored s e n val) e = some (ctxPart (ctxStored s e n val) e n) :=
    howner.trans (congrArg some hstored.symm)
  refine (if_pos (by simp [hvalid])).trans ((if_pos (decide_eq_true hset)).trans ?_)
  exact if_pos hpart

/-- What the assignment leaves of the slot (R472). -/
theorem ctxCfgWrite_slot (ht : t = ctxCfgWrite s e n val) : getB t (rCtxCfg e n) fCtxCfgValid = true ∧
    getF t (rCtxCfg e n) fCtxCfgEpoch = (getF s (rCtxCfg e n) fCtxCfgEpoch + 1) % 2 ^ fCtxCfgEpoch.width ∧
    getF t (rCtxCfg e n) fCtxCfgAstag = fget val fCtxCfgAstag ∧ getF t (rCtxCfg e n) fCtxCfgPartition = fget val fCtxCfgPartition ∧
    (ctxAux t e n).seq = 0 ∧
    (∀ i : Fin 4, spState t ⟨e, n, i⟩ = spDisabled ∧ (spool t ⟨e, n, i⟩).cmds = [] ∧ sqTail t ⟨e, n, i⟩ = 0) ∧ SameMemory s t := by
  rw [ctxCfgWrite_assigns hvalid hset howner] at ht
  subst ht
  obtain ⟨hastag, hpart, hepoch⟩ := ctxStored_fields (s := s) (e := e) (n := n) (val := val)
  obtain ⟨hv, hep, has, hpa⟩ := ctxAssigned_fields (s := ctxStored s e n val) (e := e) (n := n)
  have hf : ∀ f, getF (assignSlot (ctxStored s e n val) e n) (rCtxCfg e n) f = getF (ctxAssigned (ctxStored s e n val) e n) (rCtxCfg e n) f :=
    fun f => congrArg (fget · f) getR_ctxCfg_assignSlot
  have hstored : SameMemory s (ctxStored s e n val) := sameMemory_of_eq rfl rfl
  refine ⟨?_, ?_, ?_, ?_, ?_, fun i => ?_, hstored.trans assignSlot_sameMemory⟩
  · rw [getB, hf]
    exact hv
  · rw [hf, hep, hepoch]
  · rw [hf, has, hastag]
  · rw [hf, hpa, hpart]
  · rw [ctxAux_assignSlot]
  · obtain ⟨hstate, hrest⟩ := Prod.mk.inj (spoolView_spoolsDisabled (s := slotAssigned (ctxStored s e n val) e n) (e := e) (n := n) i)
    obtain ⟨hcmds, htail⟩ := Prod.mk.inj hrest
    exact ⟨hstate, hcmds, htail⟩

end

theorem ctxCfgWrite_clears (hvalid : getB s (rCtxCfg e n) fCtxCfgValid = true) (hclear : fget val fCtxCfgValid = 0) : ctxCfgWrite s e n val =
    flushCtx (setCtxAux (cancelMask s e n 15 true).1 e n { ctxAux (cancelMask s e n 15 true).1 e n with clearing := true }) e n :=
  (if_neg (by simp [hvalid])).trans (if_neg (by simp [hclear]))

end

/-! ### The statement -/

/-- Settles O20: the branches of SP_CFG and CTX_CFG, and what a new spool and an assigned slot hold. -/
theorem spoolsAndContextSlotsAreConfigured : Obligations.SpoolsAndContextSlotsAreConfigured := by
  refine ⟨⟨?_, ?_, ?_, ?_⟩, ?_, ?_, ?_, ?_⟩
  · intro s ag u val hr hoff h1 h2 h3 h4
    have hok := cfgSizes_ok h1 h2 h3 h4
    refine ⟨fun hen => ?_, fun hen => ?_⟩
    · obtain ⟨henable, hmem⟩ := cfgEnabled_enable (s := s) (u := u) (val := val)
      obtain ⟨hctail, hchead⟩ := cqPtr_spoolReset (s := cfgEnabled s u val) (u := u) (st := if slotKilled s u.e u.n then spKilled else spActive)
      refine ⟨_, congrArg Host.Outcome.next ((guarded_right _ _ _ _ hr).trans (spCfgWrite_enables hok hoff hen)), spState_spoolReset ?_, ?_,
        sqTail_spoolReset, hctail, hchead, ?_, ?_, ?_, hmem.trans (sameMemory_of_eq spoolReset_memory.1 spoolReset_memory.2)⟩
      · split <;> decide
      · rw [getB, getF, getR_spoolReset spCfg_not_mem_countKeys]
        exact decide_eq_true henable
      all_goals rw [spool_spoolReset, if_pos rfl]
    · exact congrArg Host.Outcome.next ((guarded_right _ _ _ _ hr).trans (spCfgWrite_sizes hok hoff hen))
  · intro s ag u val hr hon h1 h2 h3 h4 hen hres hstop
    exact ⟨_, congrArg Host.Outcome.next ((guarded_right _ _ _ _ hr).trans (spCfgWrite_resumes (cfgSizes_ok h1 h2 h3 h4) hon hen hres hstop)),
      spState_setSpState (by decide), sameRegsBut_setR, sameUnits_setR⟩
  · intro s ag u val hr hon h1 h2 h3 h4 hen
    exact congrArg Host.Outcome.next ((guarded_right _ _ _ _ hr).trans (spCfgWrite_disables (cfgSizes_ok h1 h2 h3 h4) hon hen))
  · intro s ag u val hr hbad
    have hwrite := (guarded_right s ag _ (fun s => spCfgWrite s u val) hr).trans (spCfgWrite_ignored hbad)
    exact ⟨congrArg Host.Outcome.next hwrite, congrArg Host.Outcome.next hwrite, congrArg Host.Outcome.next hwrite⟩
  · intro s ag e n val hr ha hvalid hset howner
    exact ⟨_, congrArg Host.Outcome.next ((guarded_right _ _ _ _ hr).trans (whenAwake_active ha)), ctxCfgWrite_slot hvalid hset howner rfl⟩
  · exact fun s ag e n val hr ha => congrArg Host.Outcome.next ((guarded_right _ _ _ _ hr).trans (whenAwake_asleep ha))
  · intro s ag e n val hr hvalid hclear
    exact congrArg Host.Outcome.next ((guarded_right _ _ _ _ hr).trans (ctxCfgWrite_clears hvalid hclear))
  · exact fun s ag e n m all hr => congrArg Host.Outcome.next (guarded_right _ _ _ _ hr)

end Sys2Proof.Machine
end

section
namespace Sys2Proof.Machine
open Sys2Proof

/-! PROOFS. TRANSFER and TRANSFER_INLINE fill their spans (O13).

What they write to a bobbin is one `mpaWrite` at an address of engine SRAM. Such an address lies where it is named (`locate_sram`), so the write,
which goes line by line, is one byte string put into memory (`mpaWrite_sram_mem`). All that the commands do besides writes no memory. -/

variable {s s0 s1 s2 : State} {u : SpoolId} {c c0 c2 : Cmd} {a n e b : Nat} {bs : Bytes}

/-! ### A write to engine SRAM -/

theorem sramAddr_ge {o : Nat} : sramBase ≤ sramAddr e o := by
  unfold sramAddr
  omega

theorem locate_sram (h : sramBase ≤ a) : locate s a = a := by
  have hbulk : ¬a < bulkBytes := by
    have : bulkBytes ≤ sramBase := by decide
    omega
  rw [locate, if_neg hbulk, if_neg fun hstack => absurd hstack.2 (Nat.not_lt.2 h)]

theorem breachWrite_of_no_breach {l : Nat} {whole : Bool} (h : s.hub.breach = []) : breachWrite s l whole = s := by
  simp [breachWrite, h]

theorem cellsPut_append {m : List Host.Cell} {bs' : Bytes} : cellsPut m a (bs ++ bs') = cellsPut (cellsPut m a bs) (a + bs.length) bs' := by
  induction bs generalizing m a with
  | nil => rfl
  | cons x bs ih => rw [List.cons_append, cellsPut, ih, cellsPut, List.length_cons, Nat.add_right_comm, Nat.add_assoc]

/-- The part of a write that falls in line `l`. -/
def writeLine (a : Nat) (bs : Bytes) (s : State) (l : Nat) : State :=
  let lo := max a (64 * l)
  let hi := min (a + bs.length) (64 * l + 64)
  breachWrite (rawWrite s (locate s lo) ((bs.drop (lo - a)).take (hi - lo))) l (lineWhole a bs.length l)

theorem mpaWrite_eq_writeLines : mpaWrite s a bs = (linesOf a bs.length).foldl (writeLine a bs) s := rfl

/-- The part of a write below line `l` and its part in line `l` make its part below the next line. -/
theorem take_line_append {l : Nat} (h : 64 * l < a + bs.length) (h' : a < 64 * l + 64) :
    bs.take (64 * l - a) ++ (bs.drop (max a (64 * l) - a)).take (min (a + bs.length) (64 * l + 64) - max a (64 * l)) =
      bs.take (64 * (l + 1) - a) := by
  rw [show max a (64 * l) - a = 64 * l - a by omega, ← List.take_add]
  apply List.take_eq_take_iff.2
  omega

theorem writeLine_sram {l : Nat} (ha : sramBase ≤ a) (hb : s.hub.breach = []) (h : 64 * l < a + bs.length) (h' : a < 64 * l + 64)
    {m : List Host.Cell} (hm : s.mem = cellsPut m a (bs.take (64 * l - a))) :
    (writeLine a bs s l).hub = s.hub ∧ (writeLine a bs s l).mem = cellsPut m a (bs.take (64 * (l + 1) - a)) := by
  have hlen : a + (bs.take (64 * l - a)).length = max a (64 * l) := by
    rw [List.length_take]
    omega
  rw [writeLine, locate_sram (Nat.le_trans ha (Nat.le_max_left _ _)), breachWrite_of_no_breach (s := rawWrite _ _ _) hb, ← take_line_append h h',
    cellsPut_append, hlen, ← hm]
  exact ⟨rfl, rfl⟩

/-- The first `k` lines of a write. -/
theorem writeLines_sram (ha : sramBase ≤ a) (hb : s.hub.breach = []) {k : Nat} (hk : k = 0 ∨ 64 * (a / 64 + k) < a + bs.length + 64) :
    (((List.range k).map (fun i => a / 64 + i)).foldl (writeLine a bs) s).hub = s.hub ∧
      (((List.range k).map (fun i => a / 64 + i)).foldl (writeLine a bs) s).mem = cellsPut s.mem a (bs.take (64 * (a / 64 + k) - a)) := by
  induction k with
  | zero =>
    rw [show 64 * (a / 64 + 0) - a = 0 by omega]
    exact ⟨rfl, rfl⟩
  | succ k ih =>
    obtain ⟨hhub, hmem⟩ := ih (by omega)
    rw [List.range_succ, List.map_append, List.foldl_append]
    obtain ⟨hhub', hmem'⟩ := writeLine_sram ha (hhub ▸ hb) (by omega) (by omega) hmem
    exact ⟨hhub'.trans hhub, hmem'⟩

/-- A write to engine SRAM is one byte string put into memory. -/
theorem mpaWrite_sram_mem (ha : sramBase ≤ a) (hb : s.hub.breach = []) : (mpaWrite s a bs).mem = cellsPut s.mem a bs := by
  rw [mpaWrite_eq_writeLines, linesOf]
  split
  · next h => rw [List.length_eq_zero_iff.1 h]; rfl
  · rw [(writeLines_sram ha hb (by omega)).2, List.take_of_length_le (by omega)]

/-- The bytes of the span from `a` up are `bs`, and all others are those of `s`. -/
def Filled (s t : State) (a : Nat) (bs : Bytes) : Prop :=
  (∀ i, i < bs.length → byteAt t (a + i) = bs.getD i 0) ∧ ∀ a', Outside a' a bs.length → byteAt t a' = byteAt s a'

theorem filled_of_mem {t : State} (hwf : Memory.wf s.mem = true) (h : t.mem = cellsPut s.mem a bs) : Filled s t a bs :=
  ⟨fun _ hi => by rw [byteAt, h, cellGet_cellsPut_in _ _ _ _ hwf hi], fun _ ho => by rw [byteAt, h, cellGet_cellsPut_out _ _ _ _ hwf ho, byteAt]⟩

/-! ### What writes no memory -/

theorem mpaPoison_mem : (mpaPoison s a n).mem = s.mem :=
  List.foldlRecOn (motive := fun t : State => t.mem = s.mem) _ _ rfl fun _ ht _ _ => ht

theorem tierDone_mem {slot : Nat} : (tierDone s u slot).mem = s.mem :=
  List.foldlRecOn (motive := fun t : State => t.mem = s.mem) _ _ rfl fun _ ht w _ =>
    List.foldlRecOn (motive := fun t : State => t.mem = s.mem) w.spans _ ht fun _ ht _ _ => mpaPoison_mem.trans ht

theorem byteAt_finishes {st d : Nat} : byteAt (finishes s u c st d) a = byteAt s a := by
  rw [finishes, endsWith, endCmd_sameMemory.1]
  exact congrArg (cellGet · a) tierDone_mem

theorem Filled.finishes {t : State} {st d : Nat} (h : Filled s t a bs) : Filled s (finishes t u c st d) a bs :=
  ⟨fun i hi => byteAt_finishes.trans (h.1 i hi), fun a' ho => byteAt_finishes.trans (h.2 a' ho)⟩

/-! ### Bobbins under a command -/

theorem bobbin_sram {off : Nat} : sramBase ≤ bobBase s e b + off := Nat.le_add_right_of_le sramAddr_ge

theorem u8At_lt {o : Nat} : u8At bs o < 256 := (bs.getD o 0).isLt

/-- Memory, the hub and the places of engine e's bobbins are as they were. -/
structure SameBobbins (e : Nat) (s t : State) : Prop where
  mem : t.mem = s.mem
  hub : t.hub = s.hub
  base : ∀ b < 256, bobBase t e b = bobBase s e b

namespace SameBobbins

theorem refl : SameBobbins e s s := ⟨rfl, rfl, fun _ _ => rfl⟩

theorem trans {t : State} (h : SameBobbins e s t) (h2 : SameBobbins e t s2) : SameBobbins e s s2 :=
  ⟨h2.mem.trans h.mem, h2.hub.trans h.hub, fun b hb => (h2.base b hb).trans (h.base b hb)⟩

theorem of_marked (h : StartMarked s s0 c c0) : SameBobbins e s s0 :=
  ⟨h.mem, h.hub, fun b _ => by rw [bobBase, h.getF_eq, bobBase]⟩

theorem bobFill {slot : Nat} {cont : Bool} : SameBobbins u.e s (bobFill s u slot b cont) where
  mem := rfl
  hub := rfl
  base b' hb' := by
    have hset : Machine.bobFill s u slot b cont = bobSet s u.e b bFilling u.s.val false 0 { writer := some (u, slot), cont := cont } := rfl
    rw [bobBase, getF, hset, getR_bobSet (bobState_key_ne_bobCfg hb'), bobBase, getF]

theorem foldl {l : List Nat} {f : State → Nat → State} (hf : ∀ t b, SameBobbins e t (f t b)) : SameBobbins e s (l.foldl f s) :=
  List.foldlRecOn _ _ refl fun t ht b _ => ht.trans (hf t b)

variable {t : State} {off : Nat} (h : SameBobbins e s t) (hb : b < 256) (hbreach : s.hub.breach = [])
include h hb

/-- A bobbin reads as it did. -/
theorem mpaRead_bobbin : mpaRead t (bobBase t e b + off) n = (List.range n).map (fun i => byteAt s (bobBase s e b + off + i)) := by
  rw [h.base b hb]
  exact List.map_congr_left fun i _ => by rw [locate_sram (Nat.le_add_right_of_le bobbin_sram), h.mem, byteAt]

include hbreach

theorem bobWrite_mem : (bobWrite t e b off bs).mem = cellsPut s.mem (bobBase s e b + off) bs := by
  rw [bobWrite, mpaWrite_sram_mem bobbin_sram (h.hub ▸ hbreach), h.mem, h.base b hb]

end SameBobbins

/-! ### TRANSFER_INLINE (R165) -/

/-- The payload of a TRANSFER_INLINE. -/
def inlinePayload (bs : Bytes) : Bytes := (bs.drop 64).take (u8At bs 9)

section
variable (hbs : c.bytes = bs)
include hbs

theorem inlineBody_bobbin (hto : bitOf (u8At bs 8) 0 = true) (hout : outReady s u c.slot (u8At bs 10) = true) : inlineBody u s c =
    (bobWrite (bobFill s u c.slot (u8At bs 10) (bitOf (u8At bs 8) 1)) u.e (u8At bs 10) (u64At bs 16) (inlinePayload bs),
      { c with fills := [u8At bs 10], readers := u16At bs 12, cont := bitOf (u8At bs 8) 1 }, .ends stOk (u8At bs 9)) := by
  simp [inlineBody, hbs, hto, hout, inlinePayload]

theorem inlineBody_waits (hto : bitOf (u8At bs 8) 0 = true) (hout : outReady s u c.slot (u8At bs 10) = false) :
    inlineBody u s c = (s, c, .waits) := by
  simp [inlineBody, hbs, hto, hout]

theorem inlineBody_va {ps : List Piece} (hto : bitOf (u8At bs 8) 0 = false)
    (hreach : reach s (engReq s u 0 true false) (u64At bs 16) (u8At bs 9) = (s2, .ok ps)) :
    inlineBody u s c = (piecesWrite s2 ps (inlinePayload bs), c, .ends stOk (u8At bs 9)) := by
  simp [inlineBody, hbs, hto, hreach, inlinePayload]

end

/-- A TRANSFER_INLINE of valid fields carries 1 to 192 bytes. -/
theorem inlineBad_length (h : inlineBad u s c = false) : u8At c.bytes 9 ≤ 192 := by
  simp [inlineBad, inRange] at h
  omega

theorem inlinePayload_length (hlen : bs.length = 256) (h : u8At bs 9 ≤ 192) : (inlinePayload bs).length = u8At bs 9 := by
  rw [inlinePayload, List.length_take, List.length_drop]
  omega

theorem inlinePayload_getD {i : Nat} (h : i < u8At bs 9) : (inlinePayload bs).getD i 0 = bs.getD (64 + i) 0 := by
  simp [inlinePayload, List.getD_eq_getElem?_getD, h, List.getElem?_drop]

/-- A TRANSFER_INLINE to a bobbin fills its place there with the payload. -/
theorem inline_filled (h : CmdDue (isOp 0x02) (inlineBad u) inlineBobs s u c s0 c0) (hbreach : s.hub.breach = []) (hwf : Memory.wf s.mem = true)
    {slot : Nat} {cont : Bool} :
    Filled s (bobWrite (bobFill s0 u slot (u8At c.bytes 10) cont) u.e (u8At c.bytes 10) (u64At c.bytes 16) (inlinePayload c.bytes))
      (bobBase s u.e (u8At c.bytes 10) + u64At c.bytes 16) (inlinePayload c.bytes) :=
  filled_of_mem hwf (((SameBobbins.of_marked h.marked).trans .bobFill).bobWrite_mem u8At_lt hbreach)

/-! ### TRANSFER (R160 to R163) -/

theorem trCmd_slot {m : Nat} {f : Fmt} {x : Tr} {l : List Nat} : (trCmd c m x f l).slot = c.slot := rfl

section
variable {x : Tr} {f : Fmt} (hx : trOf c.bytes = x) (hf : x.format = some f)
include hx hf

/-- A staged copy in a context without a staging bobbin (R163). -/
theorem trBody_refused (hstaged : x.staged = true) (hnone : stagings s u.e u.n = []) : trBody u s c = (s, c, .ends stResource 0) := by
  simp [trBody, hx, hf, hstaged, hnone]

/-- An input, an output or a mover is not free. -/
theorem trBody_waits (hstaged : x.staged = false ∨ stagings s u.e u.n ≠ [])
    (h : (x.srcBob = true ∧ insReady s u [x.sb] = false) ∨ (x.staged = true ∧ trStage s u c f = []) ∨
      (x.dstBob = true ∧ x.inPlace = false ∧ outReady s u c.slot x.db = false) ∨ trMover s u c = none) :
    trBody u s c = (s, c, .waits) := by
  have hnot : ¬(x.staged = true ∧ stagings s u.e u.n = []) := by
    rintro ⟨hs, hnone⟩
    rcases hstaged with hs' | hs'
    · simp [hs] at hs'
    · exact hs' hnone
  simp only [trBody, hx, hf, if_neg hnot]
  split_ifs with hstage hin hout
  · rfl
  · rfl
  · rfl
  split
  · rfl
  next m hm =>
    rcases h with ⟨hs, hr⟩ | hs | ⟨hd, hp, ho⟩ | hn
    · exact absurd ⟨hs, by simp [hr]⟩ hin
    · exact absurd hs hstage
    · exact absurd ⟨hd, by simp [hp], by simp [ho]⟩ hout
    · simp [hn] at hm

variable {m : Nat} {src : Src} {t : Tgt}

theorem trBody_completes (hstaged : x.staged = true → stagings s u.e u.n ≠ [] ∧ trStage s u c f ≠ [])
    (hin : x.srcBob = true → insReady s u [x.sb] = true)
    (hout : x.dstBob = true → x.inPlace = true ∨ outReady s u c.slot x.db = true)
    (hm : trMover s u c = some m) (hsrc : trSource (trTake s u c.slot x (trStage s u c f)) u x f = (s1, .ok src))
    (htgt : trTarget s1 u x f = (s2, .ok t)) :
    trBody u s c = (advance (freeStaging (trPut s2 t x f src) u (trStage s u c f)) (rMoverBytes u.e m) fMoverBytesBytes
      (x.dstLen f), { trCmd c m x f (trStage s u c f) with stage := [] }, .ends stOk (x.dstLen f)) := by
  simp only [trBody, hx, hf]
  rw [if_neg fun h => (hstaged h.1).1 h.2, if_neg fun h => (hstaged h.1).2 h.2, if_neg fun h => h.2 (hin h.1),
    if_neg fun h => (hout h.1).elim h.2.1 h.2.2]
  simp only [hm, trCmd_slot, hsrc, htgt]

end

/-! ### A LINEAR transfer between bobbins -/

section
variable {x : Tr} {f : Fmt} (harr : x.array = false)
include harr

theorem Tr.format_linear : x.format = fmtOf 0 := by simp [Tr.format, harr]
theorem Tr.srcLen_linear : x.srcLen f = x.len := by simp [Tr.srcLen, harr]
theorem Tr.dstLen_linear : x.dstLen f = x.len := by simp [Tr.dstLen, harr]

end

/-- The bytes that a LINEAR transfer from a bobbin writes, or its zeros. -/
def trBytes (s : State) (u : SpoolId) (x : Tr) : Bytes :=
  if x.zero then List.replicate x.len 0 else (List.range x.len).map (fun i => byteAt s (bobBase s u.e x.sb + x.src + i))

theorem trBytes_length {x : Tr} : (trBytes s u x).length = x.len := by
  unfold trBytes
  split <;> simp

theorem trBytes_getD {x : Tr} {i : Nat} (hi : i < x.len) :
    (trBytes s u x).getD i 0 = if x.zero = true then 0 else byteAt s (bobBase s u.e x.sb + x.src + i) := by
  unfold trBytes
  split <;> simp [hi, List.getD_eq_getElem?_getD]

/-- A LINEAR transfer writes its bytes; what poison it delivers with them writes no memory. -/
theorem linearPut_mem {x : Tr} {src : Src} :
    (linearPut s (.mpa a) x src).mem = (mpaWrite s a (if x.zero then List.replicate x.len 0 else src.bytes)).mem := by
  unfold linearPut
  split
  · rfl
  · exact List.foldlRecOn (motive := fun t : State => t.mem = (mpaWrite s a src.bytes).mem) _ _ rfl fun _ ht _ _ => mpaPoison_mem.trans ht

theorem trTake_sameBobbins {slot : Nat} {x : Tr} {l : List Nat} : SameBobbins u.e s (trTake s u slot x l) :=
  .trans (.foldl fun _ _ => .bobFill) (.foldl fun _ _ => .bobFill)

/-- The mark of a start leaves what a TRANSFER waits for: its output, and a mover. -/
theorem markStart_outReady {slot : Nat} (h : markStart s u c = (s0, c0)) : outReady s0 u slot b = outReady s u slot b := by
  have hbobs : s0.eng.bobs = s.eng.bobs := by
    unfold markStart at h
    split at h
    all_goals
      obtain ⟨rfl, -⟩ := Prod.mk.inj h
      rfl
  simp only [outReady, bobAux, hbobs, (markStart_marked h).bobState_eq]

theorem markStart_trMover (h : markStart s u c = (s0, c0)) (hnone : c.mover = none) : trMover s0 u c0 = freeMover s u.e := by
  have hmover : c0.mover = none := by
    unfold markStart at h
    split at h
    all_goals
      obtain ⟨-, rfl⟩ := Prod.mk.inj h
      exact hnone
  simp only [trMover, hmover, freeMover, spool, (markStart_marked h).spools]

theorem trSource_linear {x : Tr} {f : Fmt} (harr : x.array = false) (hsb : x.sb < 256) (h : x.zero = true ∨ x.srcBob = true)
    (hs : SameBobbins u.e s s1) :
    ∃ src, trSource s1 u x f = (s1, .ok src) ∧ (if x.zero then List.replicate x.len 0 else src.bytes) = trBytes s u x := by
  by_cases hz : x.zero = true
  · exact ⟨_, if_pos hz, by simp [trBytes, hz]⟩
  · refine ⟨bobSrc s1 u.e x.sb x.src (x.srcLen f), by simp [trSource, hz, h.resolve_left hz], ?_⟩
    simp only [trBytes, if_neg hz, bobSrc, Tr.srcLen_linear harr, hs.mpaRead_bobbin hsb]

theorem trStage_linear {x : Tr} {f : Fmt} (hx : trOf c.bytes = x) (hdst : x.dstBob = true) : trStage s u c f = [] := by
  simp [trStage, Tr.staged, hx, hdst]

/-- What a LINEAR transfer writes to a bobbin fills its span there. -/
theorem trPut_linear {x : Tr} {f : Fmt} {src : Src} (harr : x.array = false) (hdb : x.db < 256) (hbreach : s.hub.breach = [])
    (hwf : Memory.wf s.mem = true) (hs : SameBobbins u.e s s1)
    (hbytes : (if x.zero then List.replicate x.len 0 else src.bytes) = trBytes s u x) :
    Filled s (trPut s1 (.mpa (bobBase s1 u.e x.db + x.dst)) x f src) (bobBase s u.e x.db + x.dst) (trBytes s u x) := by
  refine filled_of_mem hwf ?_
  rw [trPut, if_neg (by simp [harr]), linearPut_mem, hbytes]
  exact hs.bobWrite_mem hdb hbreach

/-- A LINEAR transfer between bobbins ends OK, its span of the destination filled. -/
theorem trBody_linear {x : Tr} (hx : trOf c.bytes = x) (hmark : markStart s u c = (s0, c0)) (hmover : c.mover = none) (harr : x.array = false)
    (hdst : x.dstBob = true) (hsrc : x.zero = true ∨ x.srcBob = true) (hin : x.srcBob = true → insReady s u [x.sb] = true)
    (hout : x.inPlace = true ∨ outReady s u c.slot x.db = true) (hfree : (freeMover s u.e).isSome = true) (hbreach : s.hub.breach = [])
    (hwf : Memory.wf s.mem = true) :
    ∃ s2 c2, trBody u s0 c0 = (s2, c2, .ends stOk x.len) ∧ c2.slot = c.slot ∧ Filled s s2 (bobBase s u.e x.db + x.dst) (trBytes s u x) := by
  have hm := markStart_marked hmark
  have hx0 : trOf c0.bytes = x := (congrArg trOf hm.bytes).trans hx
  have hbob : x.sb < 256 ∧ x.db < 256 := by
    subst hx
    exact ⟨u8At_lt, u8At_lt⟩
  obtain ⟨hsb, hdb⟩ := hbob
  obtain ⟨m, hfree⟩ := Option.isSome_iff_exists.1 hfree
  obtain ⟨f, hf⟩ : ∃ f, x.format = some f := ⟨_, Tr.format_linear harr⟩
  have hs : SameBobbins u.e s (trTake s0 u c.slot x []) := (SameBobbins.of_marked hm).trans trTake_sameBobbins
  have hstage : trStage s0 u c0 f = [] := trStage_linear hx0 hdst
  obtain ⟨src, hread, hbytes⟩ := trSource_linear (f := f) harr hsb hsrc hs
  rw [← hm.slot, ← hstage] at hread
  have hbody := trBody_completes hx0 hf (by simp [Tr.staged, hdst]) (by rwa [hm.insReady_eq])
    (fun _ => by rwa [markStart_outReady hmark, hm.slot]) ((markStart_trMover hmark hmover).trans hfree) hread (if_pos hdst)
  rw [hstage, hm.slot, Tr.dstLen_linear harr] at hbody
  exact ⟨_, _, hbody, hm.slot, trPut_linear harr hdb hbreach hwf hs hbytes⟩

/-! ### O13 -/

/-- Settles O13: each clause is what the body of a due command answers; what it writes to a bobbin is one byte string put into memory. -/
theorem transfersFillTheirSpans : Obligations.TransfersFillTheirSpans := by
  refine ⟨⟨?_, ?_, ?_, ?_⟩, ?_, ?_, ?_, ?_⟩
  · intro s s0 u c c0 h hto hout hbreach hlen hwf
    have hn : (inlinePayload c.bytes).length = u8At c.bytes 9 := inlinePayload_length hlen (h.marked.bytes ▸ inlineBad_length h.bad_eq_false)
    have hbody := inlineBody_bobbin h.marked.bytes hto hout
    obtain ⟨hin, hother⟩ := (inline_filled h hbreach hwf).finishes
    rw [hn] at hin hother
    exact ⟨_, _, _, congrArg Host.Outcome.next (h.ends hbody), rfl, h.marked.slot, rfl, fun i hi => (hin i hi).trans (inlinePayload_getD hi), hother⟩
  · intro s s0 u c c0 h hto hout
    exact congrArg Host.Outcome.next (h.ends (inlineBody_bobbin h.marked.bytes hto hout))
  · intro s s0 s2 u c c0 ps h hto hreach
    exact congrArg Host.Outcome.next (h.ends (inlineBody_va h.marked.bytes hto hreach))
  · intro s s0 u c c0 h hto hout
    exact congrArg Host.Outcome.next (h.waits (inlineBody_waits h.marked.bytes hto hout))
  · intro s s0 s1 s2 u c c0 f m src t h hf hstaged hin hout hm hsrc htgt
    exact congrArg Host.Outcome.next (h.ends (trBody_completes (congrArg trOf h.marked.bytes) hf hstaged hin hout hm hsrc htgt))
  · intro s s0 u c c0 h hmover harr hdst hsrc hin hout hfree hbreach hwf
    obtain ⟨s2, c2, hbody, hslot, hfilled⟩ := trBody_linear rfl h.markStart_eq hmover harr hdst hsrc hin hout hfree hbreach hwf
    obtain ⟨hspan, hother⟩ := hfilled.finishes (u := u) (c := c2) (st := stOk) (d := (trOf c.bytes).len)
    rw [trBytes_length] at hspan hother
    exact ⟨_, s2, c2, congrArg Host.Outcome.next (h.ends hbody), rfl, hslot, fun i hi => (hspan i hi).trans (trBytes_getD hi), hother⟩
  · intro s s0 u c c0 f h hf hstaged hnone
    exact congrArg Host.Outcome.next (h.ends (trBody_refused (congrArg trOf h.marked.bytes) hf hstaged hnone))
  · intro s s0 u c c0 f h hf hstaged hwait
    exact congrArg Host.Outcome.next (h.waits (trBody_waits (congrArg trOf h.marked.bytes) hf hstaged hwait))

end Sys2Proof.Machine
end

section
namespace Sys2Proof.Machine
open Sys2Proof

/-! PROOFS. The CARD commands (O16).

Both rows run `cardBody` with their own work (`cardRows_run`). The body refuses, waits or takes the destination bobbin and goes to work; the
work is a chain of reads and reached places, each of which the statement names. -/

variable {s s0 s2 s3 s4 : State} {u : SpoolId} {c c0 c2 : Cmd}

/-! ### What the mark of a start does not decide for a CARD -/

theorem markStart_dict (h : markStart s u c = (s0, c0)) : s0.dict = s.dict := by
  unfold markStart at h
  split at h
  all_goals
    obtain ⟨rfl, -⟩ := Prod.mk.inj h
    rfl

theorem markStart_log (h : markStart s u c = (s0, c0)) : c0.log = c.log := by
  unfold markStart at h
  split at h
  all_goals
    obtain ⟨-, rfl⟩ := Prod.mk.inj h
    rfl

theorem markStart_objNat {k : ObjKey} (h : markStart s u c = (s0, c0)) : objNat s0 k = objNat s k := by
  rw [objNat, objBytes, markStart_dict h, objNat, objBytes]

theorem markStart_cardUnits {x : Cd} (h : markStart s u c = (s0, c0)) : cardUnits s0 x = cardUnits s x := by
  simp only [cardUnits, markStart_objNat h]

theorem StartMarked.ctxPart_eq {e n : Nat} (h : StartMarked s s0 c c0) : ctxPart s0 e n = ctxPart s e n := h.getF_eq

/-! ### The rows -/

/-- A row of CARD runs `cardBody` with its own work. -/
theorem cardRows_run : ∀ x ∈ cardRows, ∃ work, ∀ s u, exec (x.1 u) s = .next (runCmd s u x.2.1 (x.2.2 u) cardBobs (cardBody work u)) := by
  simp only [cardRows, List.forall_mem_cons]
  exact ⟨⟨imageWork, fun _ _ => rfl⟩, ⟨tokensWork, fun _ _ => rfl⟩, nofun⟩

/-! ### The start of a CARD (R157, R172, R173) -/

/-- The partition has no share of the Carder, and no sample has begun (R173). -/
def cardShareless (s : State) (u : SpoolId) (c : Cmd) : Prop := objNat s (oCarderShareP (ctxPart s u.e u.n)) = 0 ∧ c.log = []

/-- The state in which the work begins: a destination bobbin is FILLING. -/
def cardTake (s : State) (u : SpoolId) (slot : Nat) (x : Cd) : State := if x.dstBob then bobFill s u slot x.db x.cont else s

theorem cardShareless_marked (h : markStart s u c = (s0, c0)) : cardShareless s0 u c0 ↔ cardShareless s u c := by
  rw [cardShareless, markStart_objNat h, markStart_log h, (markStart_marked h).ctxPart_eq, cardShareless]

theorem not_cardShareless_iff :
    ¬cardShareless s u c ↔ objNat s (oCarderShareP (ctxPart s u.e u.n)) ≠ 0 ∨ c.log ≠ [] := not_and_or

section
variable {work : SpoolId → State → Cmd → Cd → List Nat → State × Cmd × Act} {x : Cd} (hx : cdOf c.bytes = x)
include hx

theorem cardBody_refused (h : cardShareless s u c ∨ cardUnits s x = []) : cardBody work u s c = (s, c, .ends stResource 0) := by
  subst hx
  exact if_pos h

variable (hshare : ¬cardShareless s u c) (hunits : cardUnits s x ≠ [])
include hshare hunits

theorem cardBody_waits (hdst : x.dstBob = true) (hout : outReady s u c.slot x.db = false) : cardBody work u s c = (s, c, .waits) := by
  subst hx
  exact (if_neg (not_or_intro hshare hunits)).trans (if_pos ⟨hdst, by simp [hout]⟩)

theorem cardBody_works (hout : x.dstBob = true → outReady s u c.slot x.db = true) :
    cardBody work u s c = work u (cardTake s u c.slot x) (cdCmd c x) x (cardUnits s x) := by
  subst hx
  exact (if_neg (not_or_intro hshare hunits)).trans (if_neg fun h => h.2 (hout h.1))

end

/-! ### The work of each mode (R177 to R184) -/

/-- The command with its destination's span, where that is no bobbin. -/
def cardOut (c : Cmd) (x : Cd) (n : Nat) : Cmd := if x.dstBob then c else { c with outBase := x.dst, outLen := n }

theorem cardOut_bytes {x : Cd} {n : Nat} : (cardOut c x n).bytes = c.bytes := by
  unfold cardOut
  split <;> rfl

section
variable {x : Cd} {units : List Nat} {r : Rd} {t : Tgt}

/-- In image mode, with every sample read and the destination reached, the rows are written. -/
theorem imageWork_completes {f : Fmt} {os : List SmOut} {bs : Bytes} (hbs : c.bytes = bs) (hf : x.format = some f)
    (hread : doSamples ⟨s, cardOut c x (x.outLen f), 0⟩ u x units (fun i => f16At bs (52 + 2 * i)) (fun i => f16At bs (58 + 2 * i))
      (List.range x.count) [] = (r, .ok os))
    (hdst : cardDst r.s u x (x.outLen f) = (s2, .ok t)) :
    imageWork u s c x units = (imagePut s2 r.c x f t os, r.c, .ends (imageStatus os) (imageDetail x os)) := by
  rw [← hbs, ← cardOut_bytes (c := c) (x := x) (n := x.outLen f)] at hread
  unfold cardOut at hread
  simp only [imageWork, hf, hread, hdst]

/-- In token mode, with every sample packed and the three places reached, the skeins, their marks and their records are written. -/
theorem tokensWork_completes {ts : List Tok} {sk : List Skein} {ms rs : List Piece} {bs : Bytes} (hbs : c.bytes = bs)
    (hread : doToks ⟨s, c, 0⟩ u x units x.count 0 [] [] = (r, .ok (ts, sk)))
    (hdst : cardDst r.s u x (4 * x.len * sk.length) = (s2, .ok t))
    (hmarks : reach s2 (hubReq s2 u 5 true false) (u64At bs 52) (4 * x.len * sk.length) = (s3, .ok ms))
    (hrecords : reach s3 (hubReq s3 u 5 true false) ((u64At bs 52 + 4 * x.len * x.pitch) % 2 ^ 64) (16 * sk.length) = (s4, .ok rs)) :
    tokensWork u s c x units = (skeinsPut s4 x (u32At bs 60) sk t ms rs, cardOut r.c x (4 * x.len * sk.length),
      .ends (tokensStatus ts) (tokensDetail ts sk)) := by
  subst hbs
  simp only [tokensWork, hread, hdst, hmarks, hrecords, cardOut]

end

/-! ### The statement -/

/-- Settles O16: each clause is one answer of `cardBody`, or of the work of its mode, for a due command. -/
theorem cardCommands : Obligations.CardCommands := by
  refine ⟨⟨?_, ?_⟩, ?_, ?_⟩
  · intro x hx s s0 u c c0 h hrefused
    obtain ⟨work, hexec⟩ := cardRows_run x hx
    rw [hexec, h.ends (cardBody_refused (congrArg cdOf h.marked.bytes) hrefused)]
  · intro x hx s s0 u c c0 h hshare hunits hdst hout
    obtain ⟨work, hexec⟩ := cardRows_run x hx
    have hmark := h.markStart_eq
    rw [hexec, h.waits (cardBody_waits (congrArg cdOf h.marked.bytes) ((cardShareless_marked hmark).not.2 (not_cardShareless_iff.2 hshare))
      (by rwa [markStart_cardUnits hmark]) hdst (by rwa [h.marked.slot]))]
  · intro s s0 s2 u c c0 c2 x f r os t h hx hf hshare hunits hout hc2 hread hdst
    rw [← h.marked.slot] at hout hread
    have hbody := cardBody_works (work := imageWork) ((congrArg cdOf h.marked.bytes).trans hx.symm) (not_cardShareless_iff.2 hshare) hunits hout
    rw [hc2] at hread
    exact congrArg Host.Outcome.next (h.ends (hbody.trans (imageWork_completes h.marked.bytes hf hread hdst)))
  · intro s s0 s2 s3 s4 u c c0 c2 x r ts sk t ms rs h hx hshare hunits hout hread hc2 hdst hmarks hrecords
    rw [← h.marked.slot] at hout hread
    have hbody := cardBody_works (work := tokensWork) ((congrArg cdOf h.marked.bytes).trans hx.symm) (not_cardShareless_iff.2 hshare) hunits hout
    rw [hc2]
    exact congrArg Host.Outcome.next (h.ends (hbody.trans (tokensWork_completes h.marked.bytes hread hdst hmarks hrecords)))

end Sys2Proof.Machine
end

section
namespace Sys2Proof.Machine
open Sys2Proof

/-! PROOFS. Bytes written are read back, and an address lies where its granule or its die's spread region has it (O6). -/

variable {s : State} {a g d o : Nat} {bs : Bytes}

/-! ### A write where it lies (R214) -/

theorem filled_rawWrite (hwf : Memory.wf s.mem = true) : Filled s (rawWrite s a bs) a bs := filled_of_mem hwf rfl

theorem mem_poison_rawWrite {l : Nat} : l ∈ (rawWrite s a bs).poison ↔ l ∈ s.poison ∧ lineWhole a bs.length l = false := by
  simp only [rawWrite, unpoison, List.mem_filter, Bool.not_eq_true']

/-! ### Where a byte lies (R189, R190, R206) -/

theorem locate_of_inFrame (ha : a < bulkBytes) (h : (gran s (a / granBytes)).state = 2 ∨ (gran s (a / granBytes)).state = 3) :
    locate s a = frameAddr (gran s (a / granBytes)).frame + a % granBytes := (if_pos ha).trans (if_pos h)

theorem locate_of_home (ha : a < bulkBytes) (h : ¬((gran s (a / granBytes)).state = 2 ∨ (gran s (a / granBytes)).state = 3)) : locate s a = a :=
  (if_pos ha).trans (if_neg h)

theorem locate_outside_stacks (ha : bulkBytes ≤ a) (h : a < stackBase ∨ sramBase ≤ a) : locate s a = a := by
  rw [locate, if_neg (Nat.not_lt.2 ha), if_neg (by omega)]

/-- The place of element `o` of block `g`, in blocks of `n`. -/
theorem block_place {n : Nat} (ho : o < n) : (g * n + o) / n = g ∧ (g * n + o) % n = o := by
  rw [Nat.mul_comm]
  exact ⟨by rw [Nat.mul_add_div (by omega), Nat.div_eq_of_lt ho, Nat.add_zero], by rw [Nat.mul_add_mod, Nat.mod_eq_of_lt ho]⟩

/-- The direct view of a die takes 64 GiB. -/
theorem locate_direct (hd : d < 8) (ho : o < 64 * gib) : locate s (stackBase + d * (64 * gib) + o) =
    if (48 - spreadGib s) * gib ≤ o ∧ o < 48 * gib then spreadAt d (o - (48 - spreadGib s) * gib) else stackBase + d * (64 * gib) + o := by
  obtain ⟨hdiv, hmod⟩ := block_place (g := d) ho
  have hlow : bulkBytes ≤ stackBase := by decide
  have hsize : sramBase = stackBase + 8 * (64 * gib) := by decide
  have hend := Nat.mul_le_mul_right (64 * gib) (Nat.succ_le_of_lt hd)
  rw [Nat.succ_mul] at hend
  rw [locate, if_neg (by omega), if_pos (by omega), Nat.add_assoc, Nat.add_sub_cancel_left]
  dsimp only
  rw [hdiv, hmod]

theorem home_lt_bulkBytes (hg : g < granCount) (ho : o < granBytes) : g * granBytes + o < bulkBytes := by
  have hsize : granCount * granBytes = bulkBytes := by decide
  have hend := Nat.mul_le_mul_right granBytes (Nat.succ_le_of_lt hg)
  rw [Nat.succ_mul] at hend
  omega

/-- Settles O6: one byte string put into memory, and the branches of `locate`. -/
theorem memoryReadAfterWrite : Obligations.MemoryReadAfterWrite := by
  refine ⟨?_, ?_, ?_, ?_, ?_, ?_⟩
  · intro s a bs hwf _
    obtain ⟨hin, hout⟩ := filled_rawWrite (a := a) (bs := bs) hwf
    exact ⟨hin, hout, fun _ => mem_poison_rawWrite⟩
  · intro s g o hg ho h
    obtain ⟨hdiv, hmod⟩ := block_place (g := g) ho
    rw [locate_of_inFrame (home_lt_bulkBytes hg ho) (by rwa [hdiv]), hdiv, hmod]
  · intro s g o hg ho h2 h3
    rw [locate_of_home (home_lt_bulkBytes hg ho)]
    rw [(block_place (g := g) ho).1]
    exact not_or_intro h2 h3
  · intro s d o hd _ hlo hhi
    rw [locate_direct hd (Nat.lt_of_lt_of_le hhi (by decide)), if_pos ⟨hlo, hhi⟩]
  · intro s d o hd ho
    have h48 := Nat.mul_le_mul_right gib (Nat.sub_le 48 (spreadGib s))
    rw [locate_direct hd (Nat.lt_of_lt_of_le ho (h48.trans (by decide))), if_neg fun h => absurd h.1 (Nat.not_le.2 ho)]
  · exact fun s a => locate_outside_stacks

end Sys2Proof.Machine
end

section
namespace Sys2Proof.Machine
open Sys2Proof

/-! PROOFS. What an admitted access does: where a line lies, a write line by line, and the state in which an access is made.

A line lies in one piece (`locate_line`), so a write, which goes line by line, puts each of its bytes where `locate` has it (`Landed`). Before an
access is served its granules are touched and the codes report (`touched`); without a hint and an error that is the ages of granules and nothing
else (`touched_eq`), and no byte from the access's line up comes to lie elsewhere (`locate_touched`). -/

variable {s t : State} {r : MemReq} {a n x : Nat} {bs : Bytes}

/-! ### A line lies in one piece -/

theorem locate_line : locate s a = locate s (64 * (a / 64)) + a % 64 := by
  generalize hl : 64 * (a / 64) = l
  have hbulk : l < bulkBytes ↔ a < bulkBytes := by simp only [bulkBytes]; omega
  have hstack : stackBase ≤ l ∧ l < sramBase ↔ stackBase ≤ a ∧ a < sramBase := by simp only [stackBase, sramBase]; omega
  have hgran : l / granBytes = a / granBytes ∧ a % granBytes = l % granBytes + a % 64 := by simp only [granBytes]; omega
  simp only [locate, hbulk, hstack, hgran.1]
  split
  · split <;> omega
  · split
    · have hdie : (l - stackBase) / (64 * gib) = (a - stackBase) / (64 * gib) ∧
          (a - stackBase) % (64 * gib) = (l - stackBase) % (64 * gib) + a % 64 := by simp only [stackBase, gib] at *; omega
      have hmod : (l - stackBase) % (64 * gib) % 64 = 0 := by simp only [stackBase, gib] at *; omega
      rw [hdie.1, hdie.2]
      generalize (l - stackBase) % (64 * gib) = o at *
      have hspread : (48 - spreadGib s) * gib ≤ o + a % 64 ∧ o + a % 64 < 48 * gib ↔ (48 - spreadGib s) * gib ≤ o ∧ o < 48 * gib := by
        simp only [gib]; omega
      simp only [hspread]
      split
      · simp only [spreadAt, gib] at *
        omega
      · omega
    · omega

/-- Two bytes of a line lie as far apart as their addresses. -/
theorem locate_add {i : Nat} (h : (a + i) / 64 = a / 64) : locate s (a + i) = locate s a + i := by
  rw [locate_line (a := a + i), locate_line (a := a), h]
  omega

theorem locate_congr (hg : ∀ g, (gran t g).state = (gran s g).state ∧ (gran t g).frame = (gran s g).frame) (hm : t.mgmt.applied = s.mgmt.applied) :
    locate t a = locate s a := by
  have hgib : spreadGib t = spreadGib s := by rw [spreadGib, appliedNat, hm, spreadGib, appliedNat]
  simp only [locate, hgib, (hg _).1, (hg _).2]

theorem regionOf_congr (hm : t.mgmt.applied = s.mgmt.applied) : regionOf t a = regionOf s a := by
  have hgib : spreadGib t = spreadGib s := by rw [spreadGib, appliedNat, hm, spreadGib, appliedNat]
  simp only [regionOf, hgib]

theorem linePoisoned_congr {l : Nat} (hp : t.poison = s.poison) (hm : t.mgmt.applied = s.mgmt.applied) (hd : t.d2d.removed = s.d2d.removed) :
    linePoisoned t l = linePoisoned s l := by
  simp only [linePoisoned, deadAt, dieAt, regionOf_congr hm, hp, hd]

/-! ### The lines of a span -/

theorem mem_linesOf {l : Nat} : l ∈ linesOf a n ↔ a / 64 ≤ l ∧ 64 * l < a + n ∧ n ≠ 0 := by
  unfold linesOf
  split
  · simp [*]
  · simp only [List.mem_map, List.mem_range]
    constructor
    · rintro ⟨i, hi, rfl⟩
      omega
    · rintro ⟨h1, h2, -⟩
      exact ⟨l - a / 64, by omega, by omega⟩

/-! ### A write, line by line -/

/-- Every byte outside the places of the span is as it was; where no two bytes of the span share a place, each place holds its byte of `bs`. -/
def Landed (s t : State) (a : Nat) (bs : Bytes) : Prop :=
  ((∀ i j, i < bs.length → j < bs.length → locate s (a + i) = locate s (a + j) → i = j) →
    ∀ i, i < bs.length → byteAt t (locate s (a + i)) = bs.getD i 0) ∧
  ∀ x, (∀ i, i < bs.length → x ≠ locate s (a + i)) → byteAt t x = byteAt s x

/-- Of a write, the bytes below address `b` have been written. -/
structure LandedBelow (s t : State) (a : Nat) (bs : Bytes) (b : Nat) : Prop where
  rest : ∃ m p, t = { s with mem := m, poison := p }
  wf : Memory.wf t.mem = true
  landed : (∀ i j, i < bs.length → j < bs.length → locate s (a + i) = locate s (a + j) → i = j) →
    ∀ i, i < bs.length → a + i < b → byteAt t (locate s (a + i)) = bs.getD i 0
  outside : ∀ x, (∀ i, i < bs.length → x ≠ locate s (a + i)) → byteAt t x = byteAt s x

/-- Line `l` of a write lands. -/
theorem LandedBelow.writeLine {l : Nat} (h : LandedBelow s t a bs (64 * l)) (hbreach : s.hub.breach = []) (hlo : a < 64 * l + 64)
    (hhi : 64 * l < a + bs.length) : LandedBelow s (writeLine a bs t l) a bs (64 * (l + 1)) := by
  obtain ⟨⟨m, p, rfl⟩, hwf, hlanded, houtside⟩ := h
  generalize hlow : max a (64 * l) = lo
  generalize hhigh : min (a + bs.length) (64 * l + 64) = hi
  generalize hchunk : (bs.drop (lo - a)).take (hi - lo) = chunk
  have hline : Machine.writeLine a bs { s with mem := m, poison := p } l = rawWrite { s with mem := m, poison := p } (locate s lo) chunk := by
    simp only [Machine.writeLine, hlow, hhigh, hchunk]
    exact breachWrite_of_no_breach hbreach
  have hlen : chunk.length = hi - lo := by
    rw [← hchunk, List.length_take, List.length_drop]
    omega
  have hplace : ∀ i, lo ≤ a + i → a + i < hi → locate s (a + i) = locate s lo + (a + i - lo) := fun i h1 h2 => by
    rw [← locate_add (by omega)]
    exact congrArg _ (by omega)
  obtain ⟨hin, hout⟩ := filled_rawWrite (a := locate s lo) (bs := chunk) hwf
  rw [hline]
  refine ⟨⟨_, _, rfl⟩, cellsPut_wf _ _ _ hwf, fun hinj i hi' hbelow => ?_, fun x hx => ?_⟩
  · by_cases hsplit : a + i < lo
    · rw [hout, hlanded hinj i hi' (by omega)]
      by_contra hno
      simp only [Outside, not_or, Nat.not_lt, Nat.not_le, hlen] at hno
      have hj := hinj i (locate s (a + i) - locate s lo + lo - a) hi' (by omega)
      rw [hplace (locate s (a + i) - locate s lo + lo - a) (by omega) (by omega)] at hj
      have := hj (by omega)
      omega
    · rw [hplace i (by omega) (by omega), hin _ (by omega), ← hchunk, List.getD_eq_getElem?_getD, List.getD_eq_getElem?_getD, List.getElem?_take,
        if_pos (by omega), List.getElem?_drop]
      congr 2
      omega
  · rw [hout, houtside x hx]
    by_contra hno
    simp only [Outside, not_or, Nat.not_lt, Nat.not_le, hlen] at hno
    apply hx (x - locate s lo + lo - a) (by omega)
    rw [hplace _ (by omega) (by omega)]
    omega

/-- The first `k` lines of a write have landed. -/
theorem writeLines_landedBelow (hbreach : s.hub.breach = []) (hwf : Memory.wf s.mem = true) {k : Nat}
    (hk : k = 0 ∨ 64 * (a / 64 + k) < a + bs.length + 64) :
    LandedBelow s (((List.range k).map (fun i => a / 64 + i)).foldl (writeLine a bs) s) a bs (64 * (a / 64 + k)) := by
  induction k with
  | zero => exact ⟨⟨_, _, rfl⟩, hwf, fun _ i _ hbelow => absurd hbelow (by omega), fun _ _ => rfl⟩
  | succ k ih =>
    rw [List.range_succ, List.map_append, List.foldl_append]
    exact (ih (by omega)).writeLine hbreach (by omega) (by omega)

/-- A write to lines that nobody holds in breach of R248 puts its bytes where they lie, and changes memory alone. -/
theorem mpaWrite_landed (hbreach : s.hub.breach = []) (hwf : Memory.wf s.mem = true) :
    Landed s (mpaWrite s a bs) a bs ∧ ∃ m p, mpaWrite s a bs = { s with mem := m, poison := p } := by
  rw [mpaWrite_eq_writeLines, linesOf]
  split
  · next h => exact ⟨⟨fun _ i hi => absurd hi (by omega), fun _ _ => rfl⟩, s.mem, s.poison, rfl⟩
  · obtain ⟨hrest, -, hlanded, houtside⟩ := writeLines_landedBelow (a := a) (bs := bs) hbreach hwf (k := (a + bs.length - 1) / 64 + 1 - a / 64) (by omega)
    exact ⟨⟨fun hinj i hi => hlanded hinj i hi (by omega), houtside⟩, hrest⟩

/-! ### The granules of an access are touched (R200, R209) -/

/-- Granules may differ, and nothing else; every byte from the line of `a` up lies where it lay. -/
structure Touched (s t : State) (a : Nat) : Prop where
  rest : ∃ gs, t = { s with hub := { s.hub with grans := gs } }
  locate_eq : ∀ x, 64 * (a / 64) ≤ x → locate t x = locate s x

namespace Touched

theorem refl : Touched s s a := ⟨⟨_, rfl⟩, fun _ _ => rfl⟩

theorem trans {t2 : State} (h : Touched s t a) (h2 : Touched t t2 a) : Touched s t2 a := by
  obtain ⟨⟨gs, rfl⟩, hl⟩ := h
  obtain ⟨⟨gs2, rfl⟩, hl2⟩ := h2
  exact ⟨⟨gs2, rfl⟩, fun x hx => (hl2 x hx).trans (hl x hx)⟩

theorem foldl {α : Type} {f : State → α → State} {l : List α} (hf : ∀ t x, Touched t (f t x) a) : Touched s (l.foldl f s) a :=
  List.foldlRecOn (motive := fun t => Touched s t a) _ _ refl fun _ ht x _ => ht.trans (hf _ x)

/-- A granule keeps its state and its frame. -/
theorem setGran {g : Nat} {y : Gran} (hs : y.state = (gran s g).state) (hf : y.frame = (gran s g).frame) : Touched s (setGran s g y) a := by
  refine ⟨⟨_, rfl⟩, fun x _ => locate_congr (fun h => ?_) rfl⟩
  simp only [gran, Machine.setGran, mapGet_mapSet] at *
  split
  · next heq => exact heq ▸ ⟨hs, hf⟩
  · exact ⟨rfl, rfl⟩

/-- At or above the spread view a byte lies where its address says. -/
theorem of_spread {gs : FMap Nat Gran} (ha : spreadBase ≤ a) : Touched s { s with hub := { s.hub with grans := gs } } a := by
  have hline : spreadBase = 64 * (spreadBase / 64) := by decide
  have hlow : sramBase ≤ spreadBase := by decide
  exact ⟨⟨gs, rfl⟩, fun x hx => by rw [locate_sram (by omega), locate_sram (by omega)]⟩

end Touched

theorem touchFrame_touched {f : Nat} (ha : spreadBase ≤ a) : Touched s (touchFrame s f) a := by
  unfold touchFrame
  split
  · exact .of_spread ha
  · exact .refl

theorem touchGranule_touched {g astag hint lines : Nat} (h1 : hint ≠ 1) (h2 : hint ≠ 2) : Touched s (touchGranule s g astag hint lines) a := by
  have hhint : ¬(hint = 1 ∨ hint = 2) := not_or_intro h1 h2
  simp only [touchGranule, hhint, if_false]
  split
  · exact .setGran rfl rfl
  · split <;> exact .refl

theorem spreadBase_le_of_regionOf (h : regionOf s a = some .spread) : spreadBase ≤ a := by
  by_contra hlow
  have hspread : ¬(spreadBase ≤ a ∧ a < spreadBase + 8 * spreadGib s * gib) := fun hin => hlow hin.1
  simp only [regionOf, hspread, if_false] at h
  split_ifs at h <;> cases h

theorem framesOf_of_below (ha : a < spreadBase) : framesOf s a n = [] := by
  unfold framesOf
  split
  · next h => exact absurd (spreadBase_le_of_regionOf h) (Nat.not_le.2 ha)
  · rfl

/-- Touched without a hint, granules at most restart their ages. -/
theorem touchSpan_touched {astag hint : Nat} (h1 : hint ≠ 1) (h2 : hint ≠ 2) : Touched s (touchSpan s a n astag hint) a := by
  refine .trans ?_ (.foldl fun _ _ => touchGranule_touched h1 h2)
  rcases Nat.lt_or_ge a spreadBase with ha | ha
  · rw [framesOf_of_below ha, ite_self]
    exact .refl
  · exact .foldl fun _ _ => touchFrame_touched ha

theorem eccRead_ok : eccRead s a .ok = s := ite_self _

theorem reqEcc_ok (h : r.ecc = .ok) : reqEcc s r = s := by
  unfold reqEcc
  rw [h]
  dsimp only
  split
  · rw [eccRead_ok, ite_self]
  · rw [eccRead_ok, ite_self]
  · rfl
  · exact eccRead_ok

/-- An access without a hint whose read the codes find right. -/
theorem touched_touched (hecc : r.ecc = .ok) (h1 : r.hint ≠ 1) (h2 : r.hint ≠ 2) : Touched s (touched s r) r.mpa.toNat := by
  rw [touched, reqEcc_ok hecc]
  exact touchSpan_touched (fun h => h1 (BitVec.eq_of_toNat_eq h)) (fun h => h2 (BitVec.eq_of_toNat_eq h))

namespace Touched

variable (h : Touched s t a)
include h

theorem mem : t.mem = s.mem := by
  obtain ⟨⟨gs, rfl⟩, -⟩ := h
  rfl

theorem mpaRead_eq : mpaRead t a n = mpaRead s a n :=
  List.map_congr_left fun i _ => by rw [h.locate_eq _ (by omega), h.mem]

theorem mpaPoisoned_eq : mpaPoisoned t a n = mpaPoisoned s a n := by
  obtain ⟨⟨gs, rfl⟩, hl⟩ := h
  rw [Bool.eq_iff_iff, mpaPoisoned, mpaPoisoned, List.any_eq_true, List.any_eq_true]
  refine exists_congr fun l => and_congr_right fun hmem => ?_
  rw [hl _ (by have := mem_linesOf.1 hmem; omega)]
  exact iff_of_eq (congrArg (· = true) (linePoisoned_congr rfl rfl rfl))

theorem cohRead_eq : cohRead t a n = cohRead s a n := by
  obtain ⟨⟨gs, rfl⟩, hl⟩ := h
  refine List.map_congr_left fun i _ => ?_
  rw [hl _ (by omega)]
  rfl

end Touched

/-! ### What waits at the hub -/

theorem settleWaits_idle (h : s.hub.stalled = []) : settleWaits s = s := by simp [settleWaits, h]

/-! ### An admitted access (R206, R248) -/

/-- No reaction to a breach of R248: nothing is noted and no line becomes undefined. -/
theorem KeepsR248.noteStale_eq (h : KeepsR248 s r) : noteStale s r a n = s := by
  unfold noteStale
  split
  · next c p b l hag hq =>
    rcases h with (hc | hno) | ⟨-, hq'⟩
    · simp [hc]
    · exact absurd hag (hno _ _)
    · simp [hq'] at hq
  · rfl

/-- A server core's cacheable access of a DEVICE range makes its lines undefined (R276). -/
def breached (s : State) (r : MemReq) : State :=
  match r.agent with
  | .core .. => if r.cached && !r.shared then breachLines s r.mpa.toNat (reqBytes r) else s
  | _ => s

theorem KeepsR248.breached_eq (h : KeepsR248 s r) : breached s r = s := by
  unfold breached
  split
  · next c p hag =>
    rcases h with (hc | hno) | ⟨hsh, -⟩
    · simp [hc]
    · exact absurd hag (hno _ _)
    · simp [hsh]
  · rfl

/-- The state in which an access is served: a peek, and a load that the agent's own cache answers, reach no memory. -/
def atPlace (s : State) (r : MemReq) : State :=
  if r.kind = .peek ∨ cacheHit s (caches r) (effShared s r.shared r.mpa.toNat) r then s else touched s r

theorem serveNow_reqEcc {shared : Bool} : serveNow s r shared false = serveNow (reqEcc s r) r shared true := by
  simp only [serveNow, if_true, Bool.false_eq_true, if_false]

theorem reqEcc_peek (h : r.kind = .peek) : reqEcc s r = s := by simp [reqEcc, h]

/-- No rule refuses the access. -/
structure Unrefused (s : State) (r : MemReq) : Prop where
  fresh : staleUnit s r = none
  sized : reqBytes r ≠ 0
  addr : r.ecc ≠ .pathParityAddr
  allowed : refusal s r = none

theorem unrefused_of_admitted (h : Admitted s r) : Unrefused s r := by
  obtain ⟨-, -, -, hstale, hn, hecc, href⟩ := h
  exact ⟨hstale, hn, hecc, href⟩

/-- An access that nothing refuses or holds back is served where it is made, or as touched. -/
theorem serveAs_unrefused {id : Nat} (h : Unrefused s r) (hk : KeepsR248 s r) (hw : reqWaits s r id = false) :
    serveAs s r id = serveNow (atPlace s r) r (effShared s r.shared r.mpa.toNat) true := by
  obtain ⟨hstale, hn, hecc, href⟩ := h
  have hserve : serveAs s r id =
      let s1 := breached (noteStale s r r.mpa.toNat (reqBytes r)) r
      let hit := cacheHit s1 (caches r) (effShared s r.shared r.mpa.toNat) r
      serveNow (if r.kind = .peek ∨ hit then s1 else touchSpan s1 r.mpa.toNat (reqBytes r) r.astag.toNat r.hint.toNat) r
        (effShared s r.shared r.mpa.toNat) hit := by
    simp only [serveAs, hstale, hn, hecc, href, hw, if_false, Bool.false_eq_true]
    rfl
  rw [hserve, hk.noteStale_eq, hk.breached_eq, atPlace]
  dsimp only
  cases hhit : cacheHit s (caches r) (effShared s r.shared r.mpa.toNat) r
  · simp only [Bool.false_eq_true, or_false]
    rw [serveNow_reqEcc]
    split
    · next hpeek => rw [reqEcc_peek hpeek]
    · rfl
  · simp only [or_true, if_true]

end Sys2Proof.Machine
end

section
namespace Sys2Proof.Machine
open Sys2Proof

/-! PROOFS. MEMORY_ACCESS (O29).

An access that nothing refuses or holds back answers what `serveNow` gives in the state in which it is made (`serveAs_unrefused`), kind by kind. A
caching agent's load takes its line into the directory and leaves what a current read of the line sees as it was (`LineTaken`). -/

variable {s t s2 : State} {r : MemReq} {o : AccessOut} {a n l b : Nat} {bs : Bytes}

/-! ### Where an access goes -/

theorem memoryAccess_at_mpa (hva : r.va = none) : exec (.memoryAccess r) s = .next (accessAt s r) := by
  change execMemoryAccess r s = _
  simp only [execMemoryAccess, hva]

theorem memoryAccess_of_memory (hva : r.va = none) (hm : r.mpa.toNat < mmioBase) : exec (.memoryAccess r) s = .next (accessMem s r) := by
  rw [memoryAccess_at_mpa hva, accessAt, if_neg (Nat.not_le.2 hm)]

theorem memoryAccess_held {e : Nat} (hva : r.va = none) (hm : r.mpa.toNat < mmioBase) (hsleep : sleepingStore s r = some e) :
    exec (.memoryAccess r) s = .next (heldForWake s e (.memoryAccess r)) := by
  rw [memoryAccess_of_memory hva hm]
  simp only [accessMem, hsleep]
  rfl

theorem memoryAccess_served (hva : r.va = none) (hm : r.mpa.toNat < mmioBase) (hsleep : sleepingStore s r = none) (hs : serve s r = (t, o)) :
    exec (.memoryAccess r) s = .next (settleWaits (putAccess t o)) := by
  rw [memoryAccess_of_memory hva hm]
  simp only [accessMem, hsleep, hs]

theorem memoryAccess_answered (hva : r.va = none) (hm : r.mpa.toNat < mmioBase) (hsleep : sleepingStore s r = none) (hs : serve s r = (t, o))
    (hidle : t.hub.stalled = []) : exec (.memoryAccess r) s = .next (putAccess t o) := by
  rw [memoryAccess_served hva hm hsleep hs, settleWaits_idle (s := putAccess t o) hidle]

theorem countStale_hub {u : UnitId} : (countStale s u).hub = s.hub := by
  cases u <;> rfl

theorem serve_stale {u : UnitId} (hstale : staleUnit s r = some u) : serve s r = (countStale s u, denied r.agent) := by
  simp only [serve, serveAs, hstale]

section
variable (hstale : staleUnit s r = none) (hn : reqBytes r ≠ 0)
include hstale hn

theorem serve_refused (hecc : r.ecc ≠ .pathParityAddr) (href : refusal s r = some o) : serve s r = (s, o) := by
  simp only [serve, serveAs, hstale, hn, hecc, href, if_false]

theorem serve_address_parity (hecc : r.ecc = .pathParityAddr) :
    serve s r = (eccRead s (locate s r.mpa.toNat) .pathParityAddr, denied r.agent) := by
  simp only [serve, serveAs, hstale, hn, hecc, if_false, if_true]

end

/-- The hub with one more access that waits. -/
def withStalled (s : State) (r : MemReq) : State :=
  { s with hub := { s.hub with nextId := s.hub.nextId + 1, stalled := s.hub.stalled ++ [{ id := s.hub.nextId, req := r, since := s.time }] } }

theorem serve_waits (h : Admitted s r) (hw : reqWaits s r s.hub.nextId = true) : serve s r = (withStalled s r, .stalled s.hub.nextId) := by
  obtain ⟨-, -, -, hstale, hn, hecc, href⟩ := h
  simp only [serve, serveAs, hstale, hn, hecc, href, hw, if_false, if_true]
  rfl

/-- The only access that waits does not wait for itself. -/
theorem reqWaits_withStalled (h : s.hub.stalled = []) :
    reqWaits (putAccess (withStalled s r) o) r s.hub.nextId = reqWaits s r s.hub.nextId := by
  have hbefore : ∀ line, ((putAccess (withStalled s r) o).hub.stalled.any fun x => decide (x.id < s.hub.nextId) &&
      (linesOf x.req.mpa.toNat (max x.req.len x.req.data.length)).elem line) = false := by simp [putAccess, withStalled, h]
  have hline : ∀ bit line, lineWaits (putAccess (withStalled s r) o) bit s.hub.nextId line = lineWaits s bit s.hub.nextId line := by
    intro bit line
    rw [lineWaits, hbefore, lineWaits, h]
    rfl
  simp only [reqWaits, hline]
  rfl

theorem settleWaits_withStalled (h : s.hub.stalled = []) (hw : reqWaits s r s.hub.nextId = true) :
    settleWaits (putAccess (withStalled s r) o) = putAccess (withStalled s r) o := by
  have hstalled : (putAccess (withStalled s r) o).hub.stalled = [{ id := s.hub.nextId, req := r, since := s.time }] := by
    simp [putAccess, withStalled, h]
  rw [settleWaits, hstalled]
  simp [reqWaits_withStalled h, hw]

namespace Admitted

variable (h : Admitted s r)
include h

theorem served (hs : serve s r = (t, o)) : exec (.memoryAccess r) s = .next (settleWaits (putAccess t o)) := by
  obtain ⟨hva, hm, hsleep, -⟩ := h
  exact memoryAccess_served hva hm hsleep hs

theorem answered (hs : serve s r = (t, o)) (hidle : t.hub.stalled = []) : exec (.memoryAccess r) s = .next (putAccess t o) := by
  obtain ⟨hva, hm, hsleep, -⟩ := h
  exact memoryAccess_answered hva hm hsleep hs hidle

theorem reqBytes_ne_zero : reqBytes r ≠ 0 := by
  obtain ⟨-, -, -, -, hn, -⟩ := h
  exact hn

end Admitted

/-! ### What an access does -/

theorem serve_unrefused (h : Unrefused s r) (hk : KeepsR248 s r) (hw : reqWaits s r s.hub.nextId = false) :
    serve s r = serveNow (atPlace s r) r (effShared s r.shared r.mpa.toNat) true := serveAs_unrefused h hk hw

theorem memoryAccess_admitted (h : Admitted s r) (hk : KeepsR248 s r) (hw : reqWaits s r s.hub.nextId = false)
    (hnow : serveNow (atPlace s r) r (effShared s r.shared r.mpa.toNat) true = (t, o)) : exec (.memoryAccess r) s = .next (settleWaits (putAccess t o)) :=
  h.served ((serve_unrefused (unrefused_of_admitted h) hk hw).trans hnow)

theorem atPlace_of_writes (h : reqWrites r = true) : atPlace s r = touched s r := by
  have hkind : r.kind ≠ .peek := fun hp => by simp [reqWrites, hp] at h
  simp [atPlace, hkind, cacheHit, h]

theorem atPlace_of_device (hkind : r.kind ≠ .peek) (h : effShared s r.shared r.mpa.toNat = false) : atPlace s r = touched s r := by
  simp [atPlace, hkind, cacheHit, h]

theorem atPlace_of_peek (hkind : r.kind = .peek) : atPlace s r = s := by simp [atPlace, hkind]

theorem atPlace_touched (hecc : r.ecc = .ok) (h1 : r.hint ≠ 1) (h2 : r.hint ≠ 2) : Touched s (atPlace s r) r.mpa.toNat := by
  unfold atPlace
  split
  · exact .refl
  · exact touched_touched hecc h1 h2

section
variable {shared : Bool}

theorem serveNow_write (hkind : r.kind = .write) (hecc : r.ecc ≠ .pathParity) : serveNow t r shared true = (storeBytes t r shared, .done) := by
  simp [serveNow, hkind, hecc]

theorem serveNow_peek (hkind : r.kind = .peek) : serveNow t r shared true =
    (t, .data (if shared then cohRead t r.mpa.toNat r.len else mpaRead t r.mpa.toNat r.len) (mpaPoisoned t r.mpa.toNat r.len)) := by
  simp [serveNow, hkind]

theorem serveNow_sc_held (hkind : r.kind = .sc) (hresv : resvHeld t (presenceBit r.agent) r.mpa.toNat = true) :
    serveNow t r shared true = (storeBytes (clearResv t (presenceBit r.agent)) r shared, .done) := by
  simp [serveNow, hkind, hresv]

theorem serveNow_sc_lost (hkind : r.kind = .sc) (hresv : resvHeld t (presenceBit r.agent) r.mpa.toNat = false) :
    serveNow t r shared true = (clearResv t (presenceBit r.agent), .scFail) := by
  simp [serveNow, hkind, hresv]

theorem serveNow_atomic {op : AtomicOp} {sz sg : Bool} (hkind : r.kind = .atomic op sz sg) :
    serveNow t r shared true = serveAtomic t r shared op sz sg := by
  simp [serveNow, hkind]

theorem serveNow_read (hkind : r.kind = .read ∨ r.kind = .fetch) :
    serveNow t r shared true = answerRead (loadBytes t r shared false).1 r (loadBytes t r shared false).2 := by
  rcases hkind with hkind | hkind <;> simp [serveNow, hkind]

theorem serveNow_own (hkind : r.kind = .own) :
    serveNow t r shared true = answerRead (loadBytes t r shared true).1 r (loadBytes t r shared true).2 := by
  simp [serveNow, hkind]

theorem serveNow_lr (hkind : r.kind = .lr) : serveNow t r shared true =
    answerRead (setResv (loadBytes t r shared true).1 (presenceBit r.agent) r.mpa.toNat) r (loadBytes t r shared true).2 := by
  simp [serveNow, hkind]

end

theorem loadBytes_device {own : Bool} : loadBytes t r false own = (t, mpaRead t r.mpa.toNat (reqBytes r)) := by
  simp [loadBytes]

theorem answerRead_clean (h : mpaPoisoned t r.mpa.toNat bs.length = false) : answerRead t r bs = (t, .data bs false) := by
  simp [answerRead, h]

/-- A requester that is no core is given the bytes, poisoned or not. -/
theorem answerRead_of_no_core (h : presenceBit r.agent = none) : answerRead t r bs = (t, .data bs (mpaPoisoned t r.mpa.toNat bs.length)) := by
  unfold answerRead
  dsimp only
  split
  · next hp =>
    rw [hp]
    split
    · next hag => simp [hag, presenceBit] at h
    · next hag => simp [hag, presenceBit] at h
    · rfl
  · next hp => rw [Bool.not_eq_true] at hp; rw [hp]

/-! ### A line of the directory (R267, R270, R272) -/

/-- The byte of a current read (R272). -/
def currentByte (s : State) (a : Nat) : Byte :=
  match dirFind s (a / 64) with
  | some d => match d.owned, d.data with
    | true, some bs => bs.getD (a % 64) 0
    | _, _ => byteAt s (locate s a)
  | none => byteAt s (locate s a)

theorem cohRead_eq_currentBytes : cohRead s a n = (List.range n).map (fun i => currentByte s (a + i)) := rfl

theorem currentByte_of_owner {d : DirEnt} (hd : dirFind s (a / 64) = some d) (ho : d.owned = true) (hdata : d.data = some bs) :
    currentByte s a = bs.getD (a % 64) 0 := by
  simp [currentByte, hd, ho, hdata]

theorem currentByte_of_unlisted (hd : dirFind s (a / 64) = none) : currentByte s a = byteAt s (locate s a) := by
  simp [currentByte, hd]

theorem currentByte_of_no_data {d : DirEnt} (hd : dirFind s (a / 64) = some d) (h : d.owned = false ∨ d.data = none) :
    currentByte s a = byteAt s (locate s a) := by
  rcases h with h | h <;> simp [currentByte, hd, h]

theorem dirFind_dirPut {d : DirEnt} : dirFind (dirPut s d) d.line = some d := by
  simp [dirFind, dirPut]

theorem line_of_dirFind {d : DirEnt} (h : dirFind s l = some d) : d.line = l := by
  simpa using List.find?_some h

/-- Registers, memory, the directory and reservations may differ. -/
def LineRest (s t : State) : Prop := ∃ regs m dir resv, t = { s with regs := regs, mem := m, hub := { s.hub with dir := dir, resv := resv } }

/-- The line has the entry `d`; its bytes read as they did. -/
structure LineTaken (s t : State) (l : Nat) (d : DirEnt) : Prop where
  found : dirFind t l = some d
  current : ∀ a, a / 64 = l → currentByte t a = currentByte s a
  rest : LineRest s t

/-- The line's bytes as an owner takes them. -/
theorem cohRead_line (ha : a / 64 = l) : (cohRead s (64 * l) 64).getD (a % 64) 0 = currentByte s a := by
  rw [cohRead_eq_currentBytes, List.getD_eq_getElem?_getD, List.getElem?_map, List.getElem?_range (by omega)]
  simp only [Option.map_some, Option.getD_some]
  congr 1
  omega

section
variable {d : DirEnt} (hline : d.line = l) (hrest : LineRest s t)
include hline hrest

theorem lineTaken_dirPut (hcur : ∀ a, a / 64 = l → currentByte (dirPut t d) a = currentByte s a) : LineTaken s (dirPut t d) l d := by
  obtain ⟨regs, m, dir, resv, rfl⟩ := hrest
  exact ⟨hline ▸ dirFind_dirPut, hcur, regs, m, _, resv, rfl⟩

/-- An entry put whose data lie in memory. -/
theorem lineTaken_of_memory (hmem : d.owned = false ∨ d.data = none) (hcur : ∀ a, a / 64 = l → byteAt t (locate t a) = currentByte s a) :
    LineTaken s (dirPut t d) l d := by
  refine lineTaken_dirPut hline hrest fun a ha => ?_
  rw [← hcur a ha]
  exact currentByte_of_no_data (ha ▸ hline ▸ dirFind_dirPut) hmem

/-- An owner's entry put with the line's bytes. -/
theorem lineTaken_of_owner (ho : d.owned = true) (hdata : d.data = some (cohRead s (64 * l) 64)) : LineTaken s (dirPut t d) l d := by
  refine lineTaken_dirPut hline hrest fun a ha => ?_
  exact (currentByte_of_owner (ha ▸ hline ▸ dirFind_dirPut) ho hdata).trans (cohRead_line ha)

end

/-- A listed line whose entry is moved to the most recently used place. -/
theorem lineTaken_same {d : DirEnt} (hd : dirFind s l = some d) : LineTaken s (dirPut s d) l d := by
  have hline := line_of_dirFind hd
  refine lineTaken_dirPut hline ⟨_, _, _, _, rfl⟩ fun a ha => ?_
  have hput : dirFind (dirPut s d) (a / 64) = dirFind s (a / 64) := by
    rw [ha, hd, ← hline, dirFind_dirPut]
  simp only [currentByte, hput]
  rfl

/-- The byte of a line that its owner writes back. -/
theorem byteAt_writeBack (hwf : Memory.wf s.mem = true) (ha : a / 64 = l) (hlen : bs.length = 64) :
    byteAt (writeBack s l bs) (locate s a) = bs.getD (a % 64) 0 := by
  rw [locate_line, ha]
  exact cellGet_cellsPut_in _ _ _ _ hwf (by omega)

section
variable (hroom : (dirFind s l).isSome = true ∨ (s.hub.dir.filter (fun d => decide (dirHome d.line = dirHome l))).length < 16)
include hroom

theorem dirRoom_of_room : dirRoom s l = s := by
  unfold dirRoom
  split
  · rfl
  · next hnone =>
    rw [hnone] at hroom
    simp only [Option.isSome_none, Bool.false_eq_true, false_or] at hroom
    simp only [hroom, if_true]

/-- A caching agent's read adds its presence to the line. -/
theorem coreReadLine_taken (hwf : Memory.wf s.mem = true) (hdata : ∀ d bs, dirFind s l = some d → d.data = some bs → bs.length = 64) :
    ∃ d, LineTaken s (coreReadLine s b l) l d ∧ b ∈ d.pv := by
  have hadded : ∀ pv : List Nat, b ∈ pv ++ [b] := fun pv => List.mem_append_right pv (List.mem_singleton_self b)
  unfold coreReadLine
  split
  · next hnone =>
    rw [dirRoom_of_room hroom]
    exact ⟨_, lineTaken_of_memory rfl ⟨_, _, _, _, rfl⟩ (.inl rfl) fun a ha => (currentByte_of_unlisted (ha ▸ hnone)).symm, List.mem_singleton_self _⟩
  · next d hd =>
    have hline := line_of_dirFind hd
    by_cases hpv : d.pv.elem b = true
    · rw [if_pos hpv]
      exact ⟨d, lineTaken_same hd, List.elem_iff.1 hpv⟩
    rw [if_neg hpv]
    by_cases howned : d.owned = true
    · rw [if_pos howned]
      cases hbs : d.data with
      | none =>
        exact ⟨_, lineTaken_of_memory hline ⟨_, _, _, _, rfl⟩ (.inl rfl) fun a ha => (currentByte_of_no_data (ha ▸ hd) (.inr hbs)).symm, hadded _⟩
      | some bs =>
        refine ⟨_, lineTaken_of_memory hline ⟨_, _, _, _, rfl⟩ (.inl rfl) fun a ha => ?_, hadded _⟩
        rw [currentByte_of_owner (ha ▸ hd) howned hbs]
        exact byteAt_writeBack hwf ha (hdata d bs hd hbs)
    · rw [if_neg howned]
      rw [Bool.not_eq_true] at howned
      exact ⟨_, lineTaken_of_memory hline ⟨_, _, _, _, rfl⟩ (.inl howned) fun a ha => (currentByte_of_no_data (ha ▸ hd) (.inl howned)).symm, hadded _⟩

/-- A caching agent that gains a line is its owner. -/
theorem coreOwnLine_taken : ∃ d, LineTaken s (coreOwnLine s b l) l d ∧ d.owned = true ∧ d.pv = [b] := by
  unfold coreOwnLine
  split
  · rw [dirRoom_of_room hroom]
    exact ⟨_, lineTaken_of_owner rfl ⟨_, _, _, _, rfl⟩ rfl rfl, rfl, rfl⟩
  · next d hd =>
    have hline := line_of_dirFind hd
    by_cases hmine : d.owned = true ∧ d.pv = [b]
    · rw [if_pos hmine]
      exact ⟨d, lineTaken_same hd, hmine⟩
    rw [if_neg hmine]
    refine ⟨_, lineTaken_of_owner hline ?_ rfl rfl, rfl, rfl⟩
    split
    · exact ⟨_, _, _, _, rfl⟩
    · exact ⟨_, _, _, _, rfl⟩

end

theorem LineTaken.cohRead_eq {d : DirEnt} (h : LineTaken s t l d) (hl : linesOf a n = [l]) : cohRead t a n = cohRead s a n := by
  rw [cohRead_eq_currentBytes, cohRead_eq_currentBytes]
  refine List.map_congr_left fun i hi => h.current _ ?_
  have hmem : (a + i) / 64 ∈ linesOf a n := by
    rw [List.mem_range] at hi
    exact mem_linesOf.2 (by omega)
  rw [hl] at hmem
  exact List.mem_singleton.1 hmem

theorem LineRest.mpaPoisoned_eq (h : LineRest s t) : mpaPoisoned t a n = mpaPoisoned s a n := by
  obtain ⟨regs, m, dir, resv, rfl⟩ := h
  rfl

theorem length_cohRead : (cohRead s a n).length = n := by simp [cohRead]

theorem length_mpaRead : (mpaRead s a n).length = n := by simp [mpaRead]

/-- The line as a caching agent's load takes it. -/
def takeLine (own : Bool) (s : State) (b l : Nat) : State := if own then coreOwnLine s b l else coreReadLine s b l

theorem caches_eq_some (hc : caches r = some b) : r.cached = true ∧ presenceBit r.agent = some b := by
  unfold caches at hc
  split at hc
  · next h => exact ⟨h, hc⟩
  · cases hc

theorem loadBytes_cached {own : Bool} (hc : caches r = some b) (hl : linesOf r.mpa.toNat (reqBytes r) = [l]) :
    loadBytes t r true own = (takeLine own t b l, cohRead (takeLine own t b l) r.mpa.toNat (reqBytes r)) := by
  obtain ⟨hcached, hbit⟩ := caches_eq_some hc
  simp [loadBytes, hcached, hbit, hl, takeLine]

theorem mapFind_mapSet_same {α : Type} {m : FMap Nat α} {k : Nat} {v : α} : mapFind (mapSet m k v) k = some v := by
  induction m with
  | nil => simp [mapSet, mapFind]
  | cons x m ih =>
    obtain ⟨k', v'⟩ := x
    by_cases h : k' = k <;> simp [mapSet, mapFind, h, ih]

/-! ### Stores and atomic operations near memory -/

theorem foldl_dropResv {ls : List Nat} : ∃ resv, ls.foldl dropResv s = { s with hub := { s.hub with resv := resv } } :=
  List.foldlRecOn (motive := fun t => ∃ resv, t = { s with hub := { s.hub with resv := resv } }) _ _ ⟨_, rfl⟩
    fun _ ⟨_, ht⟩ _ _ => ht ▸ ⟨_, rfl⟩

/-- The accesses and commands that wait, the answers given and the connections between dies are as they were. -/
structure KeepsAnswers (s t : State) : Prop where
  stalled : t.hub.stalled = s.hub.stalled
  tierWaits : t.hub.tierWaits = s.hub.tierWaits
  accOut : t.hub.accOut = s.hub.accOut
  d2d : t.d2d = s.d2d

namespace KeepsAnswers

theorem refl : KeepsAnswers s s := ⟨rfl, rfl, rfl, rfl⟩

theorem trans (h : KeepsAnswers s t) (h2 : KeepsAnswers t s2) : KeepsAnswers s s2 :=
  ⟨h2.stalled.trans h.stalled, h2.tierWaits.trans h.tierWaits, h2.accOut.trans h.accOut, h2.d2d.trans h.d2d⟩

end KeepsAnswers

theorem Touched.keepsAnswers (h : Touched s t a) : KeepsAnswers s t := by
  obtain ⟨⟨gs, rfl⟩, -⟩ := h
  exact ⟨rfl, rfl, rfl, rfl⟩

theorem Touched.breach (h : Touched s t a) : t.hub.breach = s.hub.breach := by
  obtain ⟨⟨gs, rfl⟩, -⟩ := h
  rfl

theorem Touched.regs (h : Touched s t a) : t.regs = s.regs := by
  obtain ⟨⟨gs, rfl⟩, -⟩ := h
  rfl

/-- A write to a state in which the span lies as in `s`. -/
theorem mpaWrite_landed_from (hloc : ∀ i, locate t (a + i) = locate s (a + i)) (hmem : t.mem = s.mem) (hbreach : t.hub.breach = [])
    (hwf : Memory.wf s.mem = true) :
    Landed s (mpaWrite t a bs) a bs ∧ KeepsAnswers t (mpaWrite t a bs) ∧ (mpaWrite t a bs).regs = t.regs := by
  obtain ⟨hlanded, m, p, hrest⟩ := mpaWrite_landed (s := t) (a := a) (bs := bs) hbreach (hmem ▸ hwf)
  have hbyte : ∀ x, byteAt t x = byteAt s x := fun x => by rw [byteAt, hmem, byteAt]
  simp only [Landed, hloc, hbyte] at hlanded
  exact ⟨hlanded, by rw [hrest]; exact ⟨rfl, rfl, rfl, rfl⟩, by rw [hrest]⟩

theorem length_natLE {v : Nat} : (natLE n v).length = n := by
  induction n generalizing v with
  | zero => rfl
  | succ n ih => simp [natLE, ih]

section
variable (h : Touched s t r.mpa.toNat) (hbreach : s.hub.breach = []) (hwf : Memory.wf s.mem = true)
include h hbreach hwf

/-- A store to DEVICE memory lands. -/
theorem storeBytes_landed (hstrobe : r.strobe = none) :
    Landed s (storeBytes t r false) r.mpa.toNat r.data ∧ KeepsAnswers s (storeBytes t r false) := by
  obtain ⟨resv, hresv⟩ := foldl_dropResv (s := t) (ls := linesOf r.mpa.toNat r.data.length)
  have hstore : storeBytes t r false = mpaWrite { t with hub := { t.hub with resv := resv } } r.mpa.toNat r.data := by
    simp only [storeBytes, hstrobe, storeRun, hresv]
  rw [hstore]
  obtain ⟨hlanded, hkeeps, -⟩ := mpaWrite_landed_from (s := s) (t := { t with hub := { t.hub with resv := resv } }) (a := r.mpa.toNat) (bs := r.data)
    (fun i => h.locate_eq _ (by omega)) h.mem (h.breach.trans hbreach) hwf
  exact ⟨hlanded, h.keepsAnswers.trans ⟨hkeeps.stalled, hkeeps.tierWaits, hkeeps.accOut, hkeeps.d2d⟩⟩

/-- An atomic operation near memory that stores (R281). -/
theorem serveAtomic_near {op : AtomicOp} {sz sg : Bool} {v : Nat} (hclean : mpaPoisoned s r.mpa.toNat (atomicBytes op sz) = false)
    (hv : atomicNew op sg (atomicBytes op sz) (mpaNat s r.mpa.toNat (atomicBytes op sz)) r.operand.toNat r.compare.toNat = some v) :
    ∃ w, serveAtomic t r false op sz sg = (w, .old (BitVec.ofNat 64 (mpaNat s r.mpa.toNat (atomicBytes op sz))) false) ∧ KeepsAnswers s w ∧
      getF w rNearAtomics fNearAtomics = min (getF s rNearAtomics fNearAtomics + 1) (2 ^ fNearAtomics.width - 1) ∧
      ∀ x, (∀ i, i < atomicBytes op sz → x ≠ locate s (r.mpa.toNat + i)) → byteAt w x = byteAt s x := by
  generalize hn : atomicBytes op sz = n at *
  generalize hcounted : bump (dropResv t (r.mpa.toNat / 64)) rNearAtomics fNearAtomics 1 = t1
  have hread : mpaNat t1 r.mpa.toNat n = mpaNat s r.mpa.toNat n := by
    rw [mpaNat, ← hcounted]
    exact congrArg leNat h.mpaRead_eq
  have hpoison : mpaPoisoned t1 r.mpa.toNat n = false := by
    rw [← hcounted]
    exact h.mpaPoisoned_eq.trans hclean
  obtain ⟨⟨-, houtside⟩, hkeeps, hregs⟩ := mpaWrite_landed_from (s := s) (t := t1) (a := r.mpa.toNat) (bs := natLE n v)
    (fun i => hcounted ▸ h.locate_eq _ (by omega)) (hcounted ▸ h.mem) (hcounted ▸ h.breach.trans hbreach) hwf
  rw [length_natLE] at houtside
  refine ⟨mpaPutNat t1 r.mpa.toNat n v, ?_, h.keepsAnswers.trans (.trans (hcounted ▸ ⟨rfl, rfl, rfl, rfl⟩) hkeeps), ?_, houtside⟩
  · simp [serveAtomic, hn, hcounted, hread, hpoison, hv]
  · rw [getF, getR, mpaPutNat, hregs, ← hcounted]
    have hcount := getF_bump_same (dropResv t (r.mpa.toNat / 64)) rNearAtomics fNearAtomics 1 (by decide)
    have hbefore : getF (dropResv t (r.mpa.toNat / 64)) rNearAtomics fNearAtomics = getF s rNearAtomics fNearAtomics := by
      rw [getF, getR, getF, getR, ← h.regs]
      rfl
    rw [← hbefore]
    exact hcount

end

/-! ### A caching agent's load of one line -/

theorem LineRest.keepsAnswers (h : LineRest s t) : KeepsAnswers s t := by
  obtain ⟨regs, m, dir, resv, rfl⟩ := h
  exact ⟨rfl, rfl, rfl, rfl⟩

theorem takeLine_taken {own : Bool} (hwf : Memory.wf s.mem = true) (hdata : ∀ d bs, dirFind s l = some d → d.data = some bs → bs.length = 64)
    (hroom : (dirFind s l).isSome = true ∨ (s.hub.dir.filter (fun d => decide (dirHome d.line = dirHome l))).length < 16) :
    ∃ d, LineTaken s (takeLine own s b l) l d ∧ b ∈ d.pv ∧ (own = true → d.owned = true ∧ d.pv = [b]) := by
  cases own
  · obtain ⟨d, ht, hb⟩ := coreReadLine_taken (b := b) hroom hwf hdata
    exact ⟨d, ht, hb, nofun⟩
  · obtain ⟨d, ht, ho, hpv⟩ := coreOwnLine_taken (b := b) hroom
    exact ⟨d, ht, hpv ▸ List.mem_singleton_self b, fun _ => ⟨ho, hpv⟩⟩

theorem Touched.dirFind_eq (h : Touched s t a) : dirFind t l = dirFind s l := by
  obtain ⟨⟨gs, rfl⟩, -⟩ := h
  rfl

theorem Touched.dir_eq (h : Touched s t a) : t.hub.dir = s.hub.dir := by
  obtain ⟨⟨gs, rfl⟩, -⟩ := h
  rfl

theorem Touched.sameMemory (h : Touched s t a) : SameMemory s t := by
  obtain ⟨⟨gs, rfl⟩, -⟩ := h
  exact ⟨fun _ => rfl, rfl⟩

/-- A caching agent's load of one line: the bytes of a current read, and its line taken. -/
theorem loadBytes_takes {own : Bool} (h : Touched s t r.mpa.toNat) (hc : caches r = some b) (hl : linesOf r.mpa.toNat (reqBytes r) = [l])
    (hwf : Memory.wf s.mem = true) (hdata : ∀ d bs, dirFind s l = some d → d.data = some bs → bs.length = 64)
    (hroom : (dirFind s l).isSome = true ∨ (s.hub.dir.filter (fun d => decide (dirHome d.line = dirHome l))).length < 16) :
    ∃ w d, loadBytes t r true own = (w, cohRead s r.mpa.toNat (reqBytes r)) ∧ KeepsAnswers s w ∧
      (∀ n, mpaPoisoned w r.mpa.toNat n = mpaPoisoned s r.mpa.toNat n) ∧ dirFind w l = some d ∧ b ∈ d.pv ∧
      (own = true → d.owned = true ∧ d.pv = [b]) := by
  obtain ⟨d, ht, hb, ho⟩ := takeLine_taken (s := t) (l := l) (b := b) (own := own) (h.mem ▸ hwf) (by rwa [h.dirFind_eq])
    (by rwa [h.dirFind_eq, h.dir_eq])
  refine ⟨takeLine own t b l, d, ?_, h.keepsAnswers.trans ht.rest.keepsAnswers, fun n => ht.rest.mpaPoisoned_eq.trans h.mpaPoisoned_eq, ht.found, hb, ho⟩
  rw [loadBytes_cached hc hl, ht.cohRead_eq hl, h.cohRead_eq]

/-! ### Registers and translated accesses -/

section
variable {k : RegKey} {off : Nat} (hva : r.va = none) (hm : mmioBase ≤ r.mpa.toNat) (hstale : staleUnit s r = none) (hoff : r.mpa.toNat - mmioBase = off)
  (htarget : mmioTarget off = .reg k) (halign : mmioTarget (off / 8 * 8) = .reg k) (hacc : accessOf off (reqBytes r) ≠ .bad)
  (hright : regRight s r.agent k = true)
include hva hm hstale hoff htarget halign hacc hright

theorem memoryAccess_reads_register (hkind : r.kind = .read) : exec (.memoryAccess r) s =
    .next (putAccess (readReg s r.agent k (accessOf off (reqBytes r))).1
      (.data (natLE (reqBytes r) (readReg s r.agent k (accessOf off (reqBytes r))).2.toNat) false)) := by
  have hpeek : decide (MemKind.read = .peek) = false := rfl
  have hread : mmioRead s r.agent (off / 8 * 8) (accessOf off (reqBytes r)) false =
      ((readReg s r.agent k (accessOf off (reqBytes r))).1, some (readReg s r.agent k (accessOf off (reqBytes r))).2) := by
    simp only [mmioRead, halign, hacc, hright, if_false, not_true_eq_false, Bool.false_eq_true]
  rw [memoryAccess_at_mpa hva, accessAt, if_pos hm, accessMmio, hoff]
  simp only [hstale, htarget, hkind, hpeek, hread]

theorem memoryAccess_writes_register {d : RegDesc} (hkind : r.kind = .write) (hd : regDesc k = some d) : exec (.memoryAccess r) s =
    .next (putAccess (writeReg s r.agent k d (accessOf off (reqBytes r)) (BitVec.ofNat 64 (leNat r.data))) .done) := by
  rw [memoryAccess_at_mpa hva, accessAt, if_pos hm, accessMmio, hoff]
  simp only [hstale, htarget, hkind, mmioWrite_reg_some halign hacc hright hd, if_true]

end

/-- A task's access at a virtual address goes where its engine's range cache translates it (R118). -/
theorem memoryAccess_of_task {va : Word} {e : Fin 32} {k : Fin 4} {h : HartCtx} {q : XReq} (hva : r.va = some va) (hag : r.agent = .spindle e k .u)
    (hh : hartOf s ⟨e, k⟩ = some h) (hslot : h.slot.isSome = true)
    (hq : q = { hartReq s ⟨e, k⟩ h (reqWrites r) (decide (r.kind ≠ .fetch) && (!reqWrites r || (match r.kind with | .atomic .. => true | _ => false)))
      (decide (r.kind = .fetch)) with noWait := true }) :
    (∀ ps, xlate s q va.toNat (reqBytes r) = (s2, .ok ps) → exec (.memoryAccess r) s = .next (accessPieces s2 r ps 0)) ∧
    (∀ a c p, xlate s q va.toNat (reqBytes r) = (s2, .fault a c p) → exec (.memoryAccess r) s = .next (hartFault s2 ⟨e, k⟩ h q a c p)) := by
  have hnone : ¬h.slot.isNone = true := by simpa using Option.isSome_iff_ne_none.1 hslot
  have hreach : exec (.memoryAccess r) s = .next (match hartReach s ⟨e, k⟩ h q va.toNat (reqBytes r) with
      | (s, some ps) => accessPieces s r ps 0
      | (s, none) => s) := by
    change execMemoryAccess r s = _
    simp only [execMemoryAccess, hva, hag, hh, hnone, hq]
    rfl
  refine ⟨fun ps hx => ?_, fun a c p hx => ?_⟩
  · rw [hreach, hartReach, hx]
  · rw [hreach, hartReach, hx]

/-! ### Accesses of DEVICE memory -/

section
variable (h : Unrefused s r) (hk : KeepsR248 s r) (hecc : r.ecc = .ok) (h1 : r.hint ≠ 1) (h2 : r.hint ≠ 2) (hdev : effShared s r.shared r.mpa.toNat = false)
include h hk hecc h1 h2 hdev

/-- A load answers the bytes where they lie. -/
theorem serve_device_load (hkind : r.kind = .read ∨ r.kind = .fetch) (hclean : mpaPoisoned s r.mpa.toNat r.len = false ∨ presenceBit r.agent = none) :
    serve s r = (touched s r, .data (mpaRead s r.mpa.toNat r.len) (mpaPoisoned s r.mpa.toNat r.len)) := by
  have hkinds : reqWrites r = false ∧ reqBytes r = r.len ∧ r.kind ≠ .peek := by
    rcases hkind with hkind | hkind <;> simp [reqWrites, reqBytes, hkind]
  obtain ⟨hreads, hlen, hpeek⟩ := hkinds
  have ht := touched_touched (s := s) hecc h1 h2
  rw [serve_unrefused h hk (by simp [reqWaits, hreads, hdev]), atPlace_of_device hpeek hdev, hdev, serveNow_read hkind, loadBytes_device, hlen,
    ht.mpaRead_eq]
  have hpois : mpaPoisoned (touched s r) r.mpa.toNat (mpaRead s r.mpa.toNat r.len).length = mpaPoisoned s r.mpa.toNat r.len := by
    rw [length_mpaRead, ht.mpaPoisoned_eq]
  rcases hclean with hclean | hno
  · rw [answerRead_clean (hpois.trans hclean), hclean]
  · rw [answerRead_of_no_core hno, hpois]

variable (hw : reqWaits s r s.hub.nextId = false) (hbreach : s.hub.breach = []) (hwf : Memory.wf s.mem = true)
include hw hbreach hwf

/-- A write's bytes lie where they belong. -/
theorem serve_device_write (hkind : r.kind = .write) (hstrobe : r.strobe = none) :
    ∃ w, serve s r = (w, .done) ∧ Landed s w r.mpa.toNat r.data ∧ KeepsAnswers s w := by
  obtain ⟨hlanded, hkeeps⟩ := storeBytes_landed (touched_touched hecc h1 h2) hbreach hwf hstrobe
  refine ⟨_, ?_, hlanded, hkeeps⟩
  rw [serve_unrefused h hk hw, atPlace_of_writes (by simp [reqWrites, hkind]), hdev]
  exact serveNow_write hkind (by simp [hecc])

end

section
variable (h : Admitted s r) (hk : KeepsR248 s r)
include h hk

/-- A peek finds memory as it stands. -/
theorem serve_peek (hkind : r.kind = .peek) : serve s r = (s, .data (if effShared s r.shared r.mpa.toNat then cohRead s r.mpa.toNat r.len
    else mpaRead s r.mpa.toNat r.len) (mpaPoisoned s r.mpa.toNat r.len)) := by
  rw [serve_unrefused (unrefused_of_admitted h) hk (by simp [reqWaits, reqWrites, hkind]), serveNow_peek hkind, atPlace_of_peek hkind]

variable (hw : reqWaits s r s.hub.nextId = false)
include hw

/-- A caching agent's load of a SHARED line that is not poisoned. -/
theorem memoryAccess_takes_line (hidle : s.hub.stalled = []) (hecc : r.ecc = .ok) (hc : caches r = some b) (hsh : effShared s r.shared r.mpa.toNat = true)
    (h1 : r.hint ≠ 1) (h2 : r.hint ≠ 2) (hclean : mpaPoisoned s r.mpa.toNat r.len = false) (hl : linesOf r.mpa.toNat (reqBytes r) = [l])
    (hwf : Memory.wf s.mem = true) (hdata : ∀ d bs, dirFind s l = some d → d.data = some bs → bs.length = 64)
    (hroom : (dirFind s l).isSome = true ∨ (s.hub.dir.filter (fun d => decide (dirHome d.line = dirHome l))).length < 16) :
    ((r.kind = .read ∨ r.kind = .fetch) → ∃ t d, exec (.memoryAccess r) s = .next t ∧
      t.hub.accOut = s.hub.accOut ++ [.data (cohRead s r.mpa.toNat r.len) false] ∧ dirFind t l = some d ∧ b ∈ d.pv) ∧
    ((r.kind = .own ∨ r.kind = .lr) → ∃ t d, exec (.memoryAccess r) s = .next t ∧
      t.hub.accOut = s.hub.accOut ++ [.data (cohRead s r.mpa.toNat r.len) false] ∧
      dirFind t l = some d ∧ d.owned = true ∧ d.pv = [b] ∧ (r.kind = .lr → mapFind t.hub.resv b = some l)) := by
  have hserve := serve_unrefused (unrefused_of_admitted h) hk hw
  rw [hsh] at hserve
  have ht := atPlace_touched (s := s) hecc h1 h2
  have hlen : r.kind = .read ∨ r.kind = .fetch ∨ r.kind = .own ∨ r.kind = .lr → reqBytes r = r.len := by
    rintro (hk | hk | hk | hk) <;> simp [reqBytes, hk]
  refine ⟨fun hkind => ?_, fun hkind => ?_⟩
  · have hlen := hlen (hkind.imp_right .inl)
    obtain ⟨w, d, hload, hkeeps, hpois, hd, hb, -⟩ := loadBytes_takes (own := false) ht hc hl hwf hdata hroom
    rw [serveNow_read hkind, hload, hlen, answerRead_clean (by rw [length_cohRead, hpois, hclean])] at hserve
    exact ⟨_, d, h.answered hserve (hkeeps.stalled.trans hidle), congrArg (· ++ _) hkeeps.accOut, hd, hb⟩
  · have hlen := hlen (.inr (.inr hkind))
    obtain ⟨w, d, hload, hkeeps, hpois, hd, -, hown⟩ := loadBytes_takes (own := true) ht hc hl hwf hdata hroom
    obtain ⟨ho, hpv⟩ := hown rfl
    rcases hkind with hkind | hkind
    · rw [serveNow_own hkind, hload, hlen, answerRead_clean (by rw [length_cohRead, hpois, hclean])] at hserve
      exact ⟨_, d, h.answered hserve (hkeeps.stalled.trans hidle), congrArg (· ++ _) hkeeps.accOut, hd, ho, hpv,
        fun hlr => by simp [hkind] at hlr⟩
    · have hresv : setResv w (presenceBit r.agent) r.mpa.toNat = { w with hub := { w.hub with resv := mapSet w.hub.resv b (r.mpa.toNat / 64) } } := by
        simp only [setResv, (caches_eq_some hc).2]
      have hn := h.reqBytes_ne_zero
      have hline : r.mpa.toNat / 64 = l := by
        have hmem : r.mpa.toNat / 64 ∈ linesOf r.mpa.toNat (reqBytes r) := mem_linesOf.2 ⟨Nat.le_refl _, by omega, hn⟩
        exact List.mem_singleton.1 (hl ▸ hmem)
      rw [serveNow_lr hkind, hload, hlen, hresv, answerRead_clean (by rw [length_cohRead]; exact (hpois _).trans hclean)] at hserve
      exact ⟨_, d, h.answered hserve (hkeeps.stalled.trans hidle), congrArg (· ++ _) hkeeps.accOut, hd, ho, hpv,
        fun _ => hline ▸ mapFind_mapSet_same⟩

end

/-! ### The statement -/

/-- Settles O29: where the access goes decides which branch serves it; what it then does is `serveNow` of its kind, in a state in which the span
lies as it did. -/
theorem accessesLieWhereTheGranuleLies : Obligations.AccessesLieWhereTheGranuleLies := by
  refine ⟨⟨?_, ?_, ?_, ?_, ?_, ?_⟩, ?_, ?_, ?_, ?_, ?_, ?_, ?_, ?_, ?_⟩
  · intro s s2 r va e k h hva hag hh hslot
    exact memoryAccess_of_task hva hag hh hslot rfl
  · intro s r u hva hm hsleep hstale hidle
    exact memoryAccess_answered hva hm hsleep (serve_stale hstale) ((congrArg HubState.stalled countStale_hub).trans hidle)
  · exact fun s r e hva hm hsleep => memoryAccess_held hva hm hsleep
  · exact fun s r o hva hm hsleep hstale hn hecc href hidle => memoryAccess_answered hva hm hsleep (serve_refused hstale hn hecc href) hidle
  · exact fun s r hva hm hsleep hstale hn hecc => memoryAccess_served hva hm hsleep (serve_address_parity hstale hn hecc)
  · intro s r h hw hidle
    refine ⟨_, (h.served (serve_waits h hw)).trans (congrArg _ (settleWaits_withStalled hidle hw)), ?_, rfl, fun _ => rfl, rfl⟩
    exact congrArg (· ++ _) hidle
  · intro s r h hk hw hkind hecc
    rw [memoryAccess_admitted h hk hw (serveNow_write hkind hecc), atPlace_of_writes (by simp [reqWrites, hkind])]
  · intro s r h hk hw hidle _ hecc hkind hstrobe hdev h1 h2 hbreach hwf hinj
    obtain ⟨w, hserve, ⟨hin, hout⟩, hkeeps⟩ := serve_device_write (unrefused_of_admitted h) hk hecc h1 h2 hdev hw hbreach hwf hkind hstrobe
    exact ⟨_, h.answered hserve (hkeeps.stalled.trans hidle), congrArg (· ++ _) hkeeps.accOut, hin hinj, hout⟩
  · intro s r h hk hidle hecc hkind hdev h1 h2 hclean
    have ht := touched_touched (s := s) hecc h1 h2
    exact ⟨_, h.answered (serve_device_load (unrefused_of_admitted h) hk hecc h1 h2 hdev hkind hclean) (ht.keepsAnswers.stalled.trans hidle),
      congrArg (· ++ _) ht.keepsAnswers.accOut, ht.dir_eq, ht.sameMemory⟩
  · exact fun s r b l h hk hw hidle hecc hc hsh h1 h2 hclean hl hwf hdata hroom =>
      memoryAccess_takes_line h hk hw hidle hecc hc hsh h1 h2 hclean hl hwf hdata hroom
  · exact fun s r h hkind hidle hk => h.answered (serve_peek h hk hkind) hidle
  · intro s r h hk hw hkind
    have hplace : atPlace s r = touched s r := atPlace_of_writes (by simp [reqWrites, hkind])
    rw [← hplace]
    exact ⟨fun hresv => memoryAccess_admitted h hk hw (serveNow_sc_held hkind hresv), fun hresv => memoryAccess_admitted h hk hw (serveNow_sc_lost hkind hresv)⟩
  · intro s r op sz sg v h hk hw hidle hkind hdev hecc h1 h2 hbreach hwf hclean hv
    obtain ⟨w, hatomic, hkeeps, hcount, hout⟩ := serveAtomic_near (touched_touched hecc h1 h2) hbreach hwf hclean hv
    have hserve := serve_unrefused (unrefused_of_admitted h) hk hw
    rw [atPlace_of_writes (by simp [reqWrites, hkind]), hdev, serveNow_atomic hkind, hatomic] at hserve
    exact ⟨_, h.answered hserve (hkeeps.stalled.trans hidle), congrArg (· ++ _) hkeeps.accOut,
      hcount.trans (Nat.min_comm _ _), hout⟩
  · intro s s2 r op sz sg o h hk hw hkind hserve
    exact memoryAccess_admitted h hk hw ((serveNow_atomic hkind).trans (by rwa [atPlace_of_writes (by simp [reqWrites, hkind])]))
  · intro s r k hva hm hstale htarget halign hacc hright
    exact ⟨memoryAccess_reads_register hva hm hstale rfl htarget halign hacc hright,
      fun hkind d hd => memoryAccess_writes_register hva hm hstale rfl htarget halign hacc hright hkind hd⟩

end Sys2Proof.Machine
end

section
namespace Sys2Proof.Machine
open Sys2Proof

/-! PROOFS. Granules are promoted, demoted and aged; requests that waited too long are answered (O32).

A stage of a migration writes the granule's entry and starts its flushes, which leave memory, the granules and what waits as they are (`Flushed`).
At its end what waited at the hub is tried again, which does nothing where nothing waits (`NothingWaits.retryAll_eq`). The error record of a timeout
is a report of the hub, which leaves what waits and the answers (`logError_keepsAnswers`). -/

variable {s t s2 : State} {g f : Nat} {x : Gran} {m : MigReq}

/-! ### The granules' entries -/

@[simp] theorem gran_setGran_same : gran (setGran s g x) g = x := mapGet_mapSet_same _ _ _ _

@[simp] theorem gran_bump {q : Reg} {y : Fd} {n : Nat} : gran (bump s q y n) g = gran s g := rfl

@[simp] theorem gran_evrLatency {i n : Nat} : gran (evrLatency s i n) g = gran s g := rfl

theorem gran_setGran_ne {h : Nat} (hne : h ≠ g) : gran (setGran s g x) h = gran s h := mapGet_mapSet_ne _ _ _ hne.symm

theorem mem_mapSet {α : Type} {l : FMap Nat α} {k : Nat} {v : α} {e : Nat × α} (h : e ∈ mapSet l k v) : e = (k, v) ∨ e ∈ l := by
  induction l with
  | nil => simpa [mapSet] using h
  | cons y l ih =>
    obtain ⟨k', v'⟩ := y
    rw [mapSet] at h
    split at h
    · rcases List.mem_cons.1 h with h | h
      · exact .inl h
      · exact .inr (List.mem_cons_of_mem _ h)
    · rcases List.mem_cons.1 h with h | h
      · exact .inr (h ▸ List.mem_cons_self)
      · exact (ih h).imp_right (List.mem_cons_of_mem _)

/-- Of a table none of whose entries has a property, an entry with it is the only one. -/
theorem filter_mapSet {α : Type} {l : FMap Nat α} {p : Nat × α → Bool} {k : Nat} {v : α} (hl : ∀ e ∈ l, p e = false) (hv : p (k, v) = true) :
    (mapSet l k v).filter p = [(k, v)] := by
  induction l with
  | nil => simp [mapSet, hv]
  | cons y l ih =>
    obtain ⟨hy, hl⟩ := List.forall_mem_cons.1 hl
    rw [mapSet]
    split
    · rw [List.filter_cons_of_pos hv, List.filter_eq_nil_iff.2 fun e he => by simp [hl e he]]
    · rw [List.filter_cons_of_neg (by simpa using hy), ih hl]

/-! ### Flushes (R253, R254) -/

/-- Flushes touch the range caches, what is translated and their own status. -/
structure Flushed (s t : State) : Prop where
  mem : t.mem = s.mem
  poison : t.poison = s.poison
  grans : t.hub.grans = s.hub.grans
  migQ : t.hub.migQ = s.hub.migQ
  stalled : t.hub.stalled = s.hub.stalled
  writes : t.hub.writes = s.hub.writes
  spools : t.eng.spools = s.eng.spools
  regs : ∀ q : Reg, q.key ≠ rRhFlushStatus.key → getR t q = getR s q

namespace Flushed

theorem refl : Flushed s s := ⟨rfl, rfl, rfl, rfl, rfl, rfl, rfl, fun _ _ => rfl⟩

theorem trans (h : Flushed s t) (h2 : Flushed t s2) : Flushed s s2 where
  mem := h2.mem.trans h.mem
  poison := h2.poison.trans h.poison
  grans := h2.grans.trans h.grans
  migQ := h2.migQ.trans h.migQ
  stalled := h2.stalled.trans h.stalled
  writes := h2.writes.trans h.writes
  spools := h2.spools.trans h.spools
  regs q hq := (h2.regs q hq).trans (h.regs q hq)

theorem gran_eq (h : Flushed s t) {g : Nat} : gran t g = gran s g := by rw [gran, h.grans, gran]

theorem sameMemory (h : Flushed s t) : SameMemory s t := sameMemory_of_eq h.mem h.poison

end Flushed

theorem flushDone_flushed {y : Flush} : Flushed s (flushDone s y) := by
  unfold flushDone
  split
  · exact ⟨rfl, rfl, rfl, rfl, rfl, rfl, rfl, fun q hq => getR_setR_ne _ _ _ _ hq.symm⟩
  · exact .refl

theorem runFlushes_flushed {l : List Flush} : Flushed s (runFlushes s l) := by
  induction l generalizing s with
  | nil => exact ⟨rfl, rfl, rfl, rfl, rfl, rfl, rfl, fun _ _ => rfl⟩
  | cons y l ih =>
    rw [runFlushes]
    cases hy : y.started with
    | none =>
      have hcaches : Flushed s (flushCaches s y.astag y.all) := ⟨rfl, rfl, rfl, rfl, rfl, rfl, rfl, fun _ _ => rfl⟩
      dsimp only
      split
      · exact hcaches.trans ⟨rfl, rfl, rfl, rfl, rfl, rfl, rfl, fun _ _ => rfl⟩
      · exact (hcaches.trans flushDone_flushed).trans ih
    | some n =>
      dsimp only
      split
      · exact ⟨rfl, rfl, rfl, rfl, rfl, rfl, rfl, fun _ _ => rfl⟩
      · exact flushDone_flushed.trans ih

theorem pumpFlushes_flushed : Flushed s (pumpFlushes s) :=
  .trans runFlushes_flushed ⟨rfl, rfl, rfl, rfl, rfl, rfl, rfl, fun _ _ => rfl⟩

/-- The flushes of a granule's migration. -/
def granFlushes (s : State) (g : Nat) (drain : Bool) : List Flush :=
  (granTags s g).map (fun t => { astag := t, all := false, drain := drain, software := false, gran := some g })

/-- The state in which they wait for room. -/
def withFlushes (s : State) (g : Nat) (drain : Bool) : State :=
  { s with hub := { s.hub with flushWait := s.hub.flushWait ++ granFlushes s g drain } }

theorem flushGranule_eq {drain : Bool} : flushGranule s g drain = pumpFlushes (withFlushes s g drain) := rfl

theorem flushGranule_flushed {drain : Bool} : Flushed s (flushGranule s g drain) :=
  .trans (t := withFlushes s g drain) ⟨rfl, rfl, rfl, rfl, rfl, rfl, rfl, fun _ _ => rfl⟩ pumpFlushes_flushed

/-- Flushes that do not drain run through. -/
theorem runFlushes_flushQ {l : List Flush} (h : ∀ y ∈ l, y.drain = false) : (runFlushes s l).hub.flushQ = [] := by
  induction l generalizing s with
  | nil => rfl
  | cons y l ih =>
    obtain ⟨hy, hl⟩ := List.forall_mem_cons.1 h
    rw [runFlushes]
    cases hs : y.started <;> simp [hy, ih hl]

/-- With nothing queued before them, a promotion's flushes are done at once (R204). -/
theorem granFlushing_flushGranule (hq : s.hub.flushQ = []) (hw : s.hub.flushWait = []) {h : Nat} :
    granFlushing (flushGranule s g false) h = false := by
  have hrun : (runFlushes (withFlushes s g false) ((withFlushes s g false).hub.flushQ ++ (withFlushes s g false).hub.flushWait)).hub.flushQ = [] := by
    refine runFlushes_flushQ fun y hy => ?_
    simp only [withFlushes, granFlushes, hq, hw, List.nil_append, List.mem_map] at hy
    obtain ⟨tag, -, rfl⟩ := hy
    rfl
  rw [flushGranule_eq, granFlushing, pumpFlushes, hrun]
  rfl

/-- No promotion awaits its flush: its end changes nothing. -/
theorem NoneAwaitsFlush.afterFlushes_eq (h : NoneAwaitsFlush s) : afterFlushes s = s := by
  rw [afterFlushes, List.filter_eq_nil_iff.2 fun e he => ?_, List.foldl_nil]
  simpa using h e he

theorem NoneAwaitsFlush.of_grans (h : NoneAwaitsFlush s) (hg : t.hub.grans = s.hub.grans) : NoneAwaitsFlush t := by
  rwa [NoneAwaitsFlush, hg]

/-! ### What waited is tried again -/

/-- Nothing waits at the hub that a retry would move. -/
structure NothingWaits (s : State) : Prop where
  stalled : s.hub.stalled = []
  writes : s.hub.writes = []
  held : ∀ y ∈ s.eng.spools, y.2.held = []
  hot : hotWaiting s = 0

theorem HubIdle.nothingWaits (h : HubIdle s) : NothingWaits s := by
  obtain ⟨hstalled, hwrites, -, -, hheld, hhot, -⟩ := h
  exact ⟨hstalled, hwrites, hheld, hhot⟩

theorem NothingWaits.congr (h : NothingWaits s) (hstalled : t.hub.stalled = s.hub.stalled) (hwrites : t.hub.writes = s.hub.writes)
    (hspools : t.eng.spools = s.eng.spools) (hbase : getR t rHotBase = getR s rHotBase) (hptr : getR t rHotPtr = getR s rHotPtr) : NothingWaits t := by
  refine ⟨hstalled.trans h.stalled, hwrites.trans h.writes, hspools ▸ h.held, ?_⟩
  rw [← h.hot]
  simp only [hotWaiting, RingRegs.log2, RingRegs.prod, RingRegs.cons, getF]
  rw [show getR t hotRing.base = getR s hotRing.base from hbase, show getR t hotRing.ptr = getR s hotRing.ptr from hptr]

theorem flushWaitingRecs_idle (h : ∀ y ∈ s.eng.spools, y.2.held = []) : flushWaitingRecs s = s := by
  unfold flushWaitingRecs
  generalize s.eng.spools = l at h
  induction l with
  | nil => rfl
  | cons y l ih =>
    obtain ⟨hy, hl⟩ := List.forall_mem_cons.1 h
    rw [List.foldl_cons, if_pos (by simp [hy]), ih hl]

theorem NothingWaits.retryAll_eq (h : NothingWaits s) : retryAll s = s := by
  have hhot : promoteHot s = s := by rw [promoteHot, h.hot, takeHot, ite_self]
  rw [retryAll, releaseWrites_idle s h.writes, retryStalled, h.stalled, List.foldl_nil, flushWaitingRecs_idle h.held, hhot]

/-! ### Requests and the start of a promotion (R202, R207, R210) -/

theorem queueMig_room (h : s.hub.migQ.length < 64) : queueMig s m = { s with hub := { s.hub with migQ := s.hub.migQ ++ [m] } } :=
  if_neg (Nat.not_le.2 h)

theorem queueMig_full (h : 64 ≤ s.hub.migQ.length) : queueMig s m = setF s rMigStatus fMigStatusReqRefused 1 := if_pos h

theorem migReqPromote_eq {ag : Agent} {g : BitVec 20} {a : BitVec 16} (hright : regRight s ag rMigReq.key = true) (hg : g.toNat < granCount) :
    exec (.migReqPromote ag g a) s = .next (queuePromotion s g.toNat a.toNat (astagPart s a.toNat)) := by
  change execMigReqPromote ag g a s = _
  rw [execMigReqPromote, guarded_right _ _ _ _ hright, if_neg (Nat.not_le.2 hg)]

theorem migReqDemote_eq {ag : Agent} {g : BitVec 20} (hright : regRight s ag rMigReq.key = true) (hg : g.toNat < granCount) :
    exec (.migReqDemote ag g) s =
      .next (queueMig s { gran := g.toNat, promote := false, astag := 0, part := 0, victim := none, bounced := false }) := by
  change execMigReqDemote ag g s = _
  rw [execMigReqDemote, guarded_right _ _ _ _ hright, if_neg (Nat.not_le.2 hg)]

theorem promotionStart_idle (h : getB s rMigCfg fMigCfgEnable = false ∨ migRoom s = false ∨ s.pow.migPaused = true) : exec .promotionStart s = .next s := by
  change execPromotionStart s = _
  rw [execPromotionStart, if_pos (by simpa using h)]

/-- The hub with this migration queue. -/
def withMigQ (s : State) (l : List MigReq) : State := { s with hub := { s.hub with migQ := l } }

section
variable (hen : getB s rMigCfg fMigCfgEnable = true) (hroom : migRoom s = true) (hpaused : s.pow.migPaused = false) (hq : s.hub.migQ = [m])
  (hprom : m.promote = true) (hvictim : m.victim = none) (hlow : (gran s m.gran).state = 0)
include hen hroom hpaused hq hprom hvictim hlow

theorem promotionStart_eq : exec .promotionStart s = .next (match chooseFrame (withMigQ s []) m.astag m.part with
    | .free f => startPromotion (withMigQ s []) m f
    | .victim v => withMigQ s [{ m with victim := some v }]
    | .refused => withMigQ (bump s rPoolRefused fPoolRefused 1) []) := by
  change execPromotionStart s = _
  rw [execPromotionStart, if_neg (by simp [hen, hroom, hpaused]), hq]
  simp [promoteFrom, hprom, hvictim, hlow]
  rfl

end

theorem startPromotion_gran : gran (startPromotion s m f) m.gran =
    { gran s m.gran with state := 1, frame := f, astag := m.astag, part := m.part, age := 0, copying := false, unacct := false, since := s.time } :=
  gran_setGran_same

/-! ### A promotion's and a demotion's end (R204, R205, R211) -/

/-- A granule's bytes stand at the destination; the hub, the engines and every register but the count are as they were. -/
structure Copied (s c : State) (src dst : Nat) : Prop where
  mem : c.mem = cellsCopy s.mem src dst granBytes
  grans : c.hub.grans = s.hub.grans
  migQ : c.hub.migQ = s.hub.migQ
  badFrames : c.hub.badFrames = s.hub.badFrames
  flushQ : c.hub.flushQ = s.hub.flushQ
  flushWait : c.hub.flushWait = s.hub.flushWait
  stalled : c.hub.stalled = s.hub.stalled
  writes : c.hub.writes = s.hub.writes
  spools : c.eng.spools = s.eng.spools
  regs : ∀ q : Reg, q.key ≠ rMigBytes.key → getR c q = getR s q

theorem copyGranule_copied {src dst : Nat} : Copied s (copyGranule s src dst) src dst :=
  ⟨rfl, rfl, rfl, rfl, rfl, rfl, rfl, rfl, rfl, fun _ hq => getR_setR_ne _ _ _ _ hq.symm⟩

/-- The flush of a promotion is done and nothing waits for its granule. -/
theorem finishPromotion_done (hstate : (gran s g).state = 1) (hcopy : (gran s g).copying = true) (hflush : granFlushing s g = false) (hidle : NothingWaits s) :
    finishPromotion s g = bump (evrLatency (setGran s g { gran s g with state := 2, age := 0, copying := false }) 28 (s.time - (gran s g).since))
      rPromotions fPromotions 1 := by
  have hquiet : NothingWaits (bump (evrLatency (setGran s g { gran s g with state := 2, age := 0, copying := false }) 28 (s.time - (gran s g).since))
      rPromotions fPromotions 1) :=
    hidle.congr rfl rfl rfl (getR_setR_ne _ _ _ _ (by decide)) (getR_setR_ne _ _ _ _ (by decide))
  simp only [finishPromotion, hstate, hcopy, hflush, Bool.false_eq_true, not_false_eq_true, and_self, if_true]
  exact hquiet.retryAll_eq

/-- The copy of a promotion, `c`, has ended, and its flush is awaited. -/
def promotionCopied (s c : State) (g : Nat) : State := setGran c g { gran s g with copying := true }

section
variable {c : State} {src dst : Nat} (hc : Copied s c src dst) (hidle : HubIdle s)
include hc hidle

/-- What a promotion's flushes leave: nothing waits, and the granule's own flush is done. -/
theorem promotionFlushed_waits : NothingWaits (flushGranule (promotionCopied s c g) g false) ∧
    granFlushing (flushGranule (promotionCopied s c g) g false) g = false := by
  have hfl : Flushed (promotionCopied s c g) (flushGranule (promotionCopied s c g) g false) := flushGranule_flushed
  have hcopied : NothingWaits (promotionCopied s c g) := hidle.nothingWaits.congr hc.stalled hc.writes
    hc.spools (hc.regs _ (by decide)) (hc.regs _ (by decide))
  obtain ⟨-, -, hq, hw, -, -, -⟩ := hidle
  exact ⟨hcopied.congr hfl.stalled hfl.writes hfl.spools (hfl.regs _ (by decide)) (hfl.regs _ (by decide)),
    granFlushing_flushGranule (s := promotionCopied s c g) (hc.flushQ.trans hq) (hc.flushWait.trans hw)⟩

/-- Its own is the only promotion that awaits its flush. -/
theorem afterFlushes_promotionFlushed (hstate : (gran s g).state = 1) : afterFlushes (flushGranule (promotionCopied s c g) g false) =
    finishPromotion (flushGranule (promotionCopied s c g) g false) g := by
  obtain ⟨-, -, -, -, -, -, hnone⟩ := hidle
  have honly : (flushGranule (promotionCopied s c g) g false).hub.grans.filter (fun g => decide (g.2.state = 1) && g.2.copying) =
      [(g, { gran s g with copying := true })] := by
    rw [flushGranule_flushed.grans, promotionCopied, setGran, hc.grans]
    exact filter_mapSet (fun e he => by simpa using hnone e he) (by simp [hstate])
  rw [afterFlushes, honly]
  rfl

end

theorem promotionDone_flushes {g : BitVec 20} (hstate : (gran s g.toNat).state = 1) (hcopy : (gran s g.toNat).copying = false) :
    exec (.promotionDone g) s = .next (afterFlushes (flushGranule
      (promotionCopied s (copyGranule s (g.toNat * granBytes) (frameAddr (gran s g.toNat).frame)) g.toNat) g.toNat false)) := by
  change execPromotionDone g s = _
  rw [execPromotionDone, if_neg (by simp [hstate, hcopy])]
  rfl

theorem promotionDone_enters {g : BitVec 20} (hstate : (gran s g.toNat).state = 1) (hcopy : (gran s g.toNat).copying = false) (hidle : HubIdle s) :
    ∃ t, exec (.promotionDone g) s = .next t ∧ (gran t g.toNat).state = 2 ∧ (gran t g.toNat).age = 0 ∧ (gran t g.toNat).frame = (gran s g.toNat).frame ∧
      t.mem = cellsCopy s.mem (g.toNat * granBytes) (frameAddr (gran s g.toNat).frame) granBytes ∧ ∀ h ≠ g.toNat, gran t h = gran s h := by
  have hexec := promotionDone_flushes hstate hcopy
  have hc := copyGranule_copied (s := s) (src := g.toNat * granBytes) (dst := frameAddr (gran s g.toNat).frame)
  generalize copyGranule s (g.toNat * granBytes) (frameAddr (gran s g.toNat).frame) = c at hexec hc
  have hfl : Flushed (promotionCopied s c g.toNat) (flushGranule (promotionCopied s c g.toNat) g.toNat false) := flushGranule_flushed
  have hgran : gran (flushGranule (promotionCopied s c g.toNat) g.toNat false) g.toNat = { gran s g.toNat with copying := true } :=
    hfl.gran_eq.trans gran_setGran_same
  obtain ⟨hquiet, hflushed⟩ := promotionFlushed_waits (g := g.toNat) hc hidle
  rw [afterFlushes_promotionFlushed hc hidle hstate, finishPromotion_done (by rw [hgran]; exact hstate) (by rw [hgran]) hflushed hquiet, hgran] at hexec
  refine ⟨_, hexec, ?_⟩
  rw [gran_bump, gran_evrLatency, gran_setGran_same]
  refine ⟨rfl, rfl, rfl, hfl.mem.trans hc.mem, fun h hne => ?_⟩
  rw [gran_bump, gran_evrLatency, gran_setGran_ne hne, hfl.gran_eq, promotionCopied, gran_setGran_ne hne, gran, hc.grans, gran]

theorem demotionStart_begins {g : BitVec 20} (hstate : (gran s g.toNat).state = 2) (hroom : migRoom s = true) (hnone : NoneAwaitsFlush s)
    (hasked : demoteQueued s g.toNat = true ∨ s.hub.migQ.any (fun m => decide (m.victim = some g.toNat)) = true ∨ overCeiling s g.toNat = true) :
    ∃ t, exec (.demotionStart g) s = .next t ∧ (gran t g.toNat).state = 3 ∧ (gran t g.toNat).copying = false ∧
      (gran t g.toNat).frame = (gran s g.toNat).frame ∧ SameMemory s t := by
  generalize hs1 : (if demoteQueued s g.toNat then dropDemote s g.toNat else s) = s1
  have hrest : s1.mem = s.mem ∧ s1.poison = s.poison ∧ s1.hub.grans = s.hub.grans := by
    rw [← hs1]
    unfold dropDemote
    split
    · split <;> exact ⟨rfl, rfl, rfl⟩
    · exact ⟨rfl, rfl, rfl⟩
  obtain ⟨hmem, hpoison, hgrans⟩ := hrest
  generalize hs2 : setGran s1 g.toNat { gran s g.toNat with state := 3, copying := false, since := s.time } = s2
  have hfl : Flushed s2 (flushGranule s2 g.toNat true) := flushGranule_flushed
  have hnone2 : NoneAwaitsFlush (flushGranule s2 g.toNat true) := by
    refine NoneAwaitsFlush.of_grans (s := s2) (fun e he hstate => ?_) hfl.grans
    rw [← hs2] at he
    rcases mem_mapSet he with rfl | he
    · rfl
    · exact hnone e (hgrans ▸ he) hstate
  have hexec : exec (.demotionStart g) s = .next (flushGranule s2 g.toNat true) := by
    change execDemotionStart g s = _
    rw [← hnone2.afterFlushes_eq, ← hs2, ← hs1]
    simp only [execDemotionStart]
    rw [if_neg (by simp [hstate]), if_neg (by simp [hstate]), if_neg (by simp [hroom]), if_pos hasked]
  have hgran : gran (flushGranule s2 g.toNat true) g.toNat = { gran s g.toNat with state := 3, copying := false, since := s.time } :=
    hfl.gran_eq.trans (hs2 ▸ gran_setGran_same)
  refine ⟨_, hexec, ?_⟩
  rw [hgran]
  exact ⟨rfl, rfl, rfl, sameMemory_of_eq (hfl.mem.trans (hs2 ▸ hmem)) (hfl.poison.trans (hs2 ▸ hpoison))⟩

theorem demotionCopy_begins {g : BitVec 20} (hstate : (gran s g.toNat).state = 3) (hnone : NoneAwaitsFlush s) :
    (granFlushing (pumpFlushes s) g.toNat = true → exec (.demotionCopy g) s = .next (pumpFlushes s)) ∧
    (granFlushing (pumpFlushes s) g.toNat = false →
      ∃ t, exec (.demotionCopy g) s = .next t ∧ (gran t g.toNat).copying = true ∧ (gran t g.toNat).state = 3 ∧ SameMemory s t) := by
  have hfl : Flushed s (pumpFlushes s) := pumpFlushes_flushed
  have hstate' : (gran (pumpFlushes s) g.toNat).state = 3 := by rw [hfl.gran_eq, hstate]
  have hexec : exec (.demotionCopy g) s = .next (if (gran (pumpFlushes s) g.toNat).state = 3 ∧ ¬granFlushing (pumpFlushes s) g.toNat
      then setGran (pumpFlushes s) g.toNat { gran (pumpFlushes s) g.toNat with copying := true } else pumpFlushes s) := by
    change execDemotionCopy g s = _
    rw [execDemotionCopy, (hnone.of_grans hfl.grans).afterFlushes_eq]
  refine ⟨fun hfull => ?_, fun hdone => ?_⟩
  · rw [hexec, if_neg (by simp [hfull])]
  · rw [if_pos ⟨hstate', by simp [hdone]⟩] at hexec
    refine ⟨_, hexec, ?_⟩
    rw [gran_setGran_same]
    exact ⟨rfl, hstate', hfl.sameMemory⟩

/-- After its copy, `c`, the granule is low again; its frame has not passed on yet. -/
def demoted (s c : State) (g : Nat) : State :=
  bump (evrLatency (setGran c g
    { gran s g with state := 0, age := 0, frame := 0, astag := 0, part := 0, copying := false, unacct := false, first := false }) 28
    (s.time - (gran s g).since)) rDemotions fDemotions 1

theorem demotionDone_eq {g : BitVec 20} (hstate : (gran s g.toNat).state = 3) (hcopy : (gran s g.toNat).copying = true) :
    exec (.demotionDone g) s = .next (retryAll (passFrame
      (demoted s (copyGranule s (frameAddr (gran s g.toNat).frame) (g.toNat * granBytes)) g.toNat) g.toNat (gran s g.toNat).frame)) := by
  change execDemotionDone g s = _
  rw [execDemotionDone, if_neg (by simp [hstate, hcopy])]
  rfl

section
variable {c : State} {src dst : Nat} (hc : Copied s c src dst)
include hc

theorem Copied.getR_demoted {q : Reg} (h1 : q.key ≠ rMigBytes.key) (h2 : q.key ≠ rDemotions.key) : getR (demoted s c g) q = getR s q :=
  (getR_setR_ne _ _ _ _ h2.symm).trans (hc.regs q h1)

theorem Copied.mem_demoted : (demoted s c g).mem = cellsCopy s.mem src dst granBytes := by
  rw [demoted, bump_mem]
  exact hc.mem

theorem Copied.gran_demoted_ne {h : Nat} (hne : h ≠ g) : gran (demoted s c g) h = gran s h := by
  rw [demoted, gran_bump, gran_evrLatency, gran_setGran_ne hne, gran, hc.grans, gran]

omit hc in
theorem gran_demoted : gran (demoted s c g) g =
    { gran s g with state := 0, age := 0, frame := 0, astag := 0, part := 0, copying := false, unacct := false, first := false } := by
  rw [demoted, gran_bump, gran_evrLatency, gran_setGran_same]

theorem Copied.demoted_waits (hidle : HubIdle s) : NothingWaits (demoted s c g) :=
  hidle.nothingWaits.congr hc.stalled hc.writes hc.spools
    (hc.getR_demoted (by decide) (by decide)) (hc.getR_demoted (by decide) (by decide))

/-- No promotion waits for the frame. -/
theorem Copied.passFrame_none (hno : ∀ m ∈ s.hub.migQ, m.victim ≠ some g) : passFrame (demoted s c g) g f = demoted s c g := by
  have hfind : (demoted s c g).hub.migQ.find? (fun m => decide (m.victim = some g)) = none := by
    rw [show (demoted s c g).hub.migQ = s.hub.migQ from hc.migQ]
    exact List.find?_eq_none.2 fun m hm => by simpa using hno m hm
  simp only [passFrame, hfind]

/-- The promotion that waited for the frame gets it (R210). -/
theorem Copied.passFrame_waiting (hfind : s.hub.migQ.find? (fun x => decide (x.victim = some g)) = some m) (hne : m.gran ≠ g)
    (hlow : (gran s m.gran).state = 0) (hen : getB s rMigCfg fMigCfgEnable = true) (hgood : s.hub.badFrames.elem f = false) :
    passFrame (demoted s c g) g f = startPromotion (withMigQ (demoted s c g) (s.hub.migQ.filter (fun x => decide (x ≠ m)))) m f := by
  have hq : (demoted s c g).hub.migQ = s.hub.migQ := hc.migQ
  have hbad : (demoted s c g).hub.badFrames = s.hub.badFrames := hc.badFrames
  have hen' : getB (demoted s c g) rMigCfg fMigCfgEnable = true := by
    rw [getB, getF, hc.getR_demoted (by decide) (by decide)]
    exact hen
  simp only [passFrame, hq, hfind]
  exact if_neg (by simpa [hbad, hen', hc.gran_demoted_ne hne, hlow] using hgood)

end

section
variable {g : BitVec 20} (hstate : (gran s g.toNat).state = 3) (hcopy : (gran s g.toNat).copying = true) (hidle : HubIdle s)
include hstate hcopy hidle

theorem demotionDone_frees (hno : ∀ m ∈ s.hub.migQ, m.victim ≠ some g.toNat) :
    ∃ t, exec (.demotionDone g) s = .next t ∧ (gran t g.toNat).state = 0 ∧ (gran t g.toNat).copying = false ∧
      t.mem = cellsCopy s.mem (frameAddr (gran s g.toNat).frame) (g.toNat * granBytes) granBytes ∧ ∀ h ≠ g.toNat, gran t h = gran s h := by
  have hexec := demotionDone_eq hstate hcopy
  have hc := copyGranule_copied (s := s) (src := frameAddr (gran s g.toNat).frame) (dst := g.toNat * granBytes)
  generalize copyGranule s (frameAddr (gran s g.toNat).frame) (g.toNat * granBytes) = c at hexec hc
  rw [hc.passFrame_none hno, (hc.demoted_waits hidle).retryAll_eq] at hexec
  refine ⟨_, hexec, ?_⟩
  rw [gran_demoted]
  exact ⟨rfl, rfl, hc.mem_demoted, fun h hne => hc.gran_demoted_ne hne⟩

theorem demotionDone_passes_frame (hfind : s.hub.migQ.find? (fun x => decide (x.victim = some g.toNat)) = some m) (hne : m.gran ≠ g.toNat)
    (hlow : (gran s m.gran).state = 0) (hen : getB s rMigCfg fMigCfgEnable = true) (hgood : s.hub.badFrames.elem (gran s g.toNat).frame = false) :
    ∃ t, exec (.demotionDone g) s = .next t ∧ (gran t g.toNat).state = 0 ∧ (gran t m.gran).state = 1 ∧
      (gran t m.gran).frame = (gran s g.toNat).frame ∧ (gran t m.gran).astag = m.astag ∧ (gran t m.gran).part = m.part := by
  have hexec := demotionDone_eq hstate hcopy
  have hc := copyGranule_copied (s := s) (src := frameAddr (gran s g.toNat).frame) (dst := g.toNat * granBytes)
  generalize copyGranule s (frameAddr (gran s g.toNat).frame) (g.toNat * granBytes) = c at hexec hc
  have hquiet : NothingWaits (startPromotion (withMigQ (demoted s c g.toNat) (s.hub.migQ.filter (fun x => decide (x ≠ m)))) m (gran s g.toNat).frame) :=
    (hc.demoted_waits hidle).congr rfl rfl rfl rfl rfl
  rw [hc.passFrame_waiting hfind hne hlow hen hgood, hquiet.retryAll_eq] at hexec
  refine ⟨_, hexec, ?_⟩
  rw [startPromotion_gran, startPromotion, gran_setGran_ne hne.symm]
  refine ⟨?_, rfl, rfl, rfl, rfl⟩
  exact congrArg Gran.state gran_demoted

end

theorem promotionDone_stays {g : BitVec 20} (h : (gran s g.toNat).state ≠ 1) : exec (.promotionDone g) s = .next s := by
  change execPromotionDone g s = _
  rw [execPromotionDone, if_pos (.inl h)]

theorem demotionDone_stays {g : BitVec 20} (h : (gran s g.toNat).state ≠ 3 ∨ (gran s g.toNat).copying = false) : exec (.demotionDone g) s = .next s := by
  change execDemotionDone g s = _
  rw [execDemotionDone, if_pos (by simpa using h)]

end Sys2Proof.Machine
end

section
namespace Sys2Proof.Machine
open Sys2Proof

/-! PROOFS. Ages and heat (R200, R209), the tier timeout (R213) and the commit of the pool accounts (R216); O32. -/

variable {s t s2 : State} {a n g : Nat} {bs : Bytes} {ag : Agent}

/-! ### AGE_TICK -/

/-- A function that keeps the default value acts on what a table shows. -/
theorem mapGet_map {α : Type} {l : FMap Nat α} {f : α → α} {k : Nat} {d : α} (hd : f d = d) :
    mapGet (l.map (fun e => (e.1, f e.2))) k d = f (mapGet l k d) := by
  induction l with
  | nil => exact hd.symm
  | cons y l ih => simp only [List.map_cons, mapGet, ih, apply_ite f]

/-- A granule one tick older. -/
def aged (half : Nat) (x : Gran) : Gran :=
  { x with
    age := if x.state = 2 then min 255 (x.age + 1) else x.age
    heat := x.heat / 2
    reported := x.reported && !decide (x.heat / 2 < half) }

/-- Every granule one tick older. -/
def allAged (s : State) : State :=
  { s with hub := { s.hub with grans := s.hub.grans.map (fun e => (e.1, aged (getF s rMigCfg fMigCfgHotThresh / 2) e.2)) } }

theorem ageTick_eq : exec .ageTick s = .next (allAged s) := rfl

theorem gran_allAged : gran (allAged s) g = aged (getF s rMigCfg fMigCfgHotThresh / 2) (gran s g) := mapGet_map rfl

/-! ### What a report leaves of what waits -/

namespace KeepsAnswers

theorem ite {p : Prop} [Decidable p] (h : KeepsAnswers s t) (h2 : KeepsAnswers s s2) : KeepsAnswers s (if p then t else s2) := by
  split
  · exact h
  · exact h2

theorem foldl {α : Type} {f : State → α → State} {l : List α} (hf : ∀ t x, KeepsAnswers t (f t x)) : KeepsAnswers s (l.foldl f s) :=
  List.foldlRecOn (motive := KeepsAnswers s) _ _ .refl fun _ ht x _ => ht.trans (hf _ x)

/-- Another unit's state may change. -/
theorem of_eq (hhub : t.hub = s.hub) (hd2d : t.d2d = s.d2d) : KeepsAnswers s t := by
  refine ⟨?_, ?_, ?_, hd2d⟩ <;> rw [hhub]

theorem setF {r : Reg} {f : Fd} {x : Nat} : KeepsAnswers s (setF s r f x) := .of_eq rfl rfl

end KeepsAnswers

theorem breachWrite_keepsAnswers {l : Nat} {whole : Bool} : KeepsAnswers s (breachWrite s l whole) := by
  unfold breachWrite
  dsimp only
  split
  · exact .refl
  · exact .ite ⟨rfl, rfl, rfl, rfl⟩ (.of_eq rfl rfl)

theorem mpaWrite_keepsAnswers : KeepsAnswers s (mpaWrite s a bs) :=
  .foldl fun t _ => KeepsAnswers.trans (t := rawWrite t _ _) (.of_eq rfl rfl) breachWrite_keepsAnswers

theorem recallLine_keepsAnswers {l : Nat} {discard : Bool} : KeepsAnswers s (recallLine s l discard) := by
  have hdrop : ∀ t : State, KeepsAnswers t (dropResv (dirDrop t l) l) := fun _ => ⟨rfl, rfl, rfl, rfl⟩
  unfold recallLine
  dsimp only
  split
  · exact ⟨rfl, rfl, rfl, rfl⟩
  · refine .trans (.trans ?_ KeepsAnswers.setF) (hdrop _)
    split
    · exact .ite .refl (.of_eq rfl rfl)
    · exact .refl

theorem cohWrite_keepsAnswers : KeepsAnswers s (cohWrite s a bs) := .trans (.foldl fun _ _ => recallLine_keepsAnswers) mpaWrite_keepsAnswers

theorem touchFrame_keepsAnswers {f : Nat} : KeepsAnswers s (touchFrame s f) := by
  unfold touchFrame
  split
  · exact ⟨rfl, rfl, rfl, rfl⟩
  · exact .refl

theorem restartAges_keepsAnswers : KeepsAnswers s (restartAges s a n) :=
  .trans (.foldl fun _ _ => touchFrame_keepsAnswers) (.foldl fun _ _ => .ite ⟨rfl, rfl, rfl, rfl⟩ .refl)

theorem sendMsi_keepsAnswers : KeepsAnswers s (sendMsi s a n) := by
  unfold sendMsi
  dsimp only
  refine .ite .refl ?_
  split
  · exact .ite (.of_eq rfl rfl) (.of_eq rfl rfl)
  · exact .of_eq rfl rfl

theorem ringPut_keepsAnswers {r : RingRegs} : KeepsAnswers s (r.put s bs) := by
  rcases ringPut_cases r s bs with h | ⟨-, -, h⟩
  · rw [h]
    exact ⟨rfl, rfl, rfl, rfl⟩
  · have hland : ∀ a, KeepsAnswers s (hubLand s a bs) := fun _ => cohWrite_keepsAnswers.trans restartAges_keepsAnswers
    rw [h]
    unfold RingRegs.land
    dsimp only
    split
    · exact ((hland _).trans .setF).trans sendMsi_keepsAnswers
    · exact (hland _).trans .setF

theorem errPut_keepsAnswers {r : RingRegs} {i : ErrInfo} {supp : Nat} {count : Bool} : KeepsAnswers s (errPut s r i supp count) :=
  .ite (.ite (.of_eq rfl rfl) .refl) ringPut_keepsAnswers

theorem errWrite_keepsAnswers {i : ErrInfo} {owner : Option Nat} {supp : Nat} : KeepsAnswers s (errWrite s i owner supp) := by
  have hrings : KeepsAnswers s (match owner with
      | some p => if (i.sev = 1 ∨ i.sev = 2) ∧ p ≠ 0 then errPut (errPut s errRing i supp true) (errPring p) i supp false
        else errPut s errRing i supp true
      | none => errPut s errRing i supp true) := by
    cases owner with
    | none => exact errPut_keepsAnswers
    | some p => exact .ite (errPut_keepsAnswers.trans errPut_keepsAnswers) errPut_keepsAnswers
  have hlast : ∀ t bs, KeepsAnswers t { errLast t bs with rel := { (errLast t bs).rel with ibi := (errLast t bs).rel.ibi + 1 } } :=
    fun t bs => .trans (t := errLast t bs) (.foldl fun _ _ => .of_eq rfl rfl) (.of_eq rfl rfl)
  exact .ite (.ite ((hrings.trans (hlast _ _)).trans .setF) (hrings.trans (hlast _ _))) hrings

theorem logError_keepsAnswers {i : ErrInfo} {owner : Option Nat} : KeepsAnswers s (logError s i owner) := by
  unfold logError
  dsimp only
  generalize hs1 : (if i.sev = 2 ∨ i.typ = 3 then evrEvent _ 10 0 _ else evrCount s _ _ _ 1) = s1
  have hseen : KeepsAnswers s s1 := hs1 ▸ .ite (.of_eq rfl rfl) (.of_eq rfl rfl)
  refine hseen.trans (.ite (.ite (.of_eq rfl rfl) (.trans (t := { s1 with rel := _ }) ?_ errWrite_keepsAnswers)) errWrite_keepsAnswers)
  exact .of_eq rfl rfl

/-! ### TIER_TIMEOUT -/

theorem mem_foldl_lineInsert {y : Nat} {ls m : List Nat} : y ∈ ls.foldl lineInsert m ↔ y ∈ ls ∨ y ∈ m := by
  induction ls generalizing m with
  | nil => simp
  | cons x ls ih => rw [List.foldl_cons, ih, mem_lineInsert, List.mem_cons, or_left_comm, or_assoc]

/-- Poison put on a span changes the list of poisoned lines alone. -/
theorem mpaPoison_eq : mpaPoison s a n = { s with poison := ((linesOf a n).map (fun l => locate s (64 * l) / 64)).foldl lineInsert s.poison } := by
  have hrun : ∀ (ls : List Nat) (p : List Nat), ls.foldl (fun s l => poisonLine s (locate s (64 * l) / 64)) { s with poison := p } =
      { s with poison := (ls.map (fun l => locate s (64 * l) / 64)).foldl lineInsert p } := by
    intro ls
    induction ls with
    | nil => exact fun _ => rfl
    | cons x ls ih => exact fun p => ih _
  exact hrun _ s.poison

theorem mpaPoison_keepsAnswers : KeepsAnswers s (mpaPoison s a n) := by
  rw [mpaPoison_eq]
  exact .of_eq rfl rfl

theorem mpaPoisoned_mpaPoison : mpaPoisoned (mpaPoison s a n) a n = decide (n ≠ 0) := by
  cases n with
  | zero => rfl
  | succ n =>
    have hfirst : a / 64 ∈ linesOf a (n + 1) := mem_linesOf.2 ⟨Nat.le_refl _, by omega, by omega⟩
    rw [decide_eq_true (Nat.succ_ne_zero n), mpaPoisoned, List.any_eq_true]
    refine ⟨_, hfirst, ?_⟩
    rw [mpaPoison_eq, linePoisoned, Bool.or_eq_true, List.elem_iff]
    exact .inl (mem_foldl_lineInsert.2 (.inl (List.mem_map.2 ⟨_, hfirst, rfl⟩)))

/-- The error record of a request that waited too long. -/
def timeoutLogged (s : State) (a : Nat) : State := logError s (lineError s (locate s a) 1 2) (addrOwner s a)

section
variable {x : StalledReq}

/-- The hub without an access that waited. -/
def withoutStalled (s : State) (id : Nat) : State :=
  { s with hub := { s.hub with stalled := s.hub.stalled.filter (fun y => decide (y.id ≠ id)) } }

/-- The request answered is the hub's record of the one that waited. -/
theorem tierTimeout_answers (hstalled : s.hub.stalled = [x]) (htime : x.since + objNat s oTierTimeout * 1000000 ≤ s.time) :
    ∃ t, exec (.tierTimeout x.id) s = .next (answerId (timedOut t x.req).1 x (timedOut t x.req).2) ∧
      t.hub.stalled = [] ∧ t.hub.accOut = s.hub.accOut ∧ t.d2d = s.d2d := by
  have hfind : s.hub.stalled.find? (fun y => decide (y.id = x.id)) = some x := by simp [hstalled]
  have hlog : KeepsAnswers (withoutStalled s x.id) (timeoutLogged (withoutStalled s x.id) x.req.mpa.toNat) := logError_keepsAnswers
  refine ⟨timeoutLogged (withoutStalled s x.id) x.req.mpa.toNat, ?_, hlog.stalled.trans (by simp [withoutStalled, hstalled]), hlog.accOut, hlog.d2d⟩
  change execTierTimeout x.id s = _
  simp only [execTierTimeout, hfind]
  rw [if_neg (Nat.not_lt.2 htime), timeoutLogged, withoutStalled]

theorem timedOut_read {r : MemReq} (hread : reqWrites r = false) (hag : presenceBit r.agent = none) :
    timedOut s r = (s, .data (List.replicate (reqBytes r) 0) true) := by
  rw [reqWrites] at hread
  rw [timedOut]
  split
  · next hwrite => simp [hwrite] at hread
  · next hsc => simp [hsc] at hread
  · rw [if_neg (by simp)]
    split
    · next hcore => exact absurd hag (by simp [hcore, presenceBit])
    · next hspindle => exact absurd hag (by simp [hspindle, presenceBit])
    · next hatomic _ _ => simp [hatomic] at hread
    · rfl

theorem timedOut_write {r : MemReq} (hkind : r.kind = .write) : timedOut s r = (mpaPoison s r.mpa.toNat r.data.length, .done) := by
  simp [timedOut, hkind, reqBytes]

/-- With no die waiting for it, the observer gets the answer. -/
theorem answerId_observer {o : AccessOut} (h : s.d2d.waits = []) : answerId s x o = putAccess s o := by
  rw [answerId, h]
  rfl

end

/-- A command's wait, marked late. -/
def markedLate (s : State) (x : TierWait) : State :=
  { s with hub := { s.hub with tierWaits := s.hub.tierWaits.map (fun y => if y.id = x.id then { y with late := true } else y) } }

theorem tierTimeout_marks {x : TierWait} (hidle : s.hub.stalled = []) (hwaits : s.hub.tierWaits = [x]) (hlate : x.late = false)
    (htime : x.since + objNat s oTierTimeout * 1000000 ≤ s.time) :
    ∃ t, exec (.tierTimeout x.id) s = .next t ∧ t.hub.tierWaits = [{ x with late := true }] := by
  have hfind : s.hub.tierWaits.find? (fun y => decide (y.id = x.id) && !y.late) = some x := by simp [hwaits, hlate]
  have hnone : s.hub.stalled.find? (fun y => decide (y.id = x.id)) = none := by rw [hidle, List.find?_nil]
  refine ⟨timeoutLogged (markedLate s x) (x.spans.head?.getD (0, 0)).1, ?_, logError_keepsAnswers.tierWaits.trans (by simp [markedLate, hwaits])⟩
  change execTierTimeout x.id s = _
  simp only [execTierTimeout, hnone, hfind]
  rw [if_neg (Nat.not_lt.2 htime), timeoutLogged, markedLate]

end Sys2Proof.Machine
end
section
namespace Sys2Proof.Machine
open Sys2Proof

variable {s t : State} {ag : Agent}

/-! ### TIER_TIMEOUT before its time -/

theorem tierTimeout_early {x : StalledReq} (hstalled : s.hub.stalled = [x]) (htime : s.time < x.since + objNat s oTierTimeout * 1000000) :
    exec (.tierTimeout x.id) s = .next s := by
  have hfind : s.hub.stalled.find? (fun y => decide (y.id = x.id)) = some x := by simp [hstalled]
  change execTierTimeout x.id s = _
  simp only [execTierTimeout, hfind, if_pos htime]

theorem tierTimeout_command_early {x : TierWait} (hidle : s.hub.stalled = []) (hwaits : s.hub.tierWaits = [x])
    (htime : s.time < x.since + objNat s oTierTimeout * 1000000) : exec (.tierTimeout x.id) s = .next s := by
  have hnone : s.hub.stalled.find? (fun y => decide (y.id = x.id)) = none := by rw [hidle, List.find?_nil]
  change execTierTimeout x.id s = _
  simp only [execTierTimeout, hnone]
  cases hfind : s.hub.tierWaits.find? (fun y => decide (y.id = x.id) && !y.late) with
  | none => rfl
  | some y =>
    obtain rfl : y = x := by simpa [hwaits] using List.mem_of_find?_eq_some hfind
    simp only [if_pos htime]

/-! ### POOL_ARM -/

theorem poolAcct_key_ne {i j : Nat} (h : i ≠ j) : (rPoolAcct i).key ≠ (rPoolAcct j).key :=
  key_ne_of_off (by dsimp only [rPoolAcct]; omega)

theorem poolArm_key_ne_poolAcct {i : Nat} : rPoolArm.key ≠ (rPoolAcct i).key := key_ne_of_off (by dsimp only [rPoolArm, rPoolAcct]; omega)

/-- The accounts below `n` are committed; the others are still pending, and memory is as it was. -/
structure AcctsCommitted (s t : State) (n : Nat) : Prop where
  committed : ∀ i < n, getR t (rPoolAcct i) = getPend s (rPoolAcct i)
  pending : ∀ i, n ≤ i → getPend t (rPoolAcct i) = getPend s (rPoolAcct i)
  mem : t.mem = s.mem
  poison : t.poison = s.poison

theorem AcctsCommitted.commitAcct {n : Nat} (h : AcctsCommitted s t n) : AcctsCommitted s (commitAcct t n) (n + 1) where
  committed i hi := by
    by_cases hn : i = n
    · subst hn
      exact (getR_setR_same _ _ _).trans (h.pending i (Nat.le_refl _))
    · exact (getR_setR_ne _ _ _ _ (poolAcct_key_ne (Ne.symm hn))).trans (h.committed i (by omega))
  pending i hi := by
    have hkey := poolAcct_key_ne (i := n) (j := i) (by omega)
    rw [← h.pending i (by omega)]
    change mapGet (mapDel t.pend (rPoolAcct n).key) (rPoolAcct i).key (getR (setR t (rPoolAcct n) (pendAcct t n)) (rPoolAcct i)) = _
    rw [mapGet_mapDel, if_neg hkey, getR_setR_ne _ _ _ _ hkey, getPend]
  mem := h.mem
  poison := h.poison

theorem acctsCommitted (n : Nat) : AcctsCommitted s ((List.range n).foldl commitAcct s) n := by
  induction n with
  | zero => exact ⟨fun _ hi => absurd hi (Nat.not_lt_zero _), fun _ _ => rfl, rfl, rfl⟩
  | succ n ih =>
    rw [List.range_succ, List.foldl_append]
    exact ih.commitAcct

section
variable {view : Bool} (hright : regRight s ag rPoolArm.key = true)
include hright

theorem poolArm_refuses {i : Nat} (hbad : (List.range 256).find? (acctBad (setB s rPoolArm fPoolArmView view)) = some i) :
    exec (.poolArm ag view) s = .next (setF (setF (setB s rPoolArm fPoolArmView view) rPoolArm fPoolArmRefused 1) rPoolArm fPoolArmFirstBad i) := by
  change execPoolArm ag view s = _
  rw [execPoolArm, guarded_right _ _ _ _ hright]
  simp only [hbad]

theorem poolArm_commits (hgood : (List.range 256).find? (acctBad (setB s rPoolArm fPoolArmView view)) = none) :
    exec (.poolArm ag view) s = .next (setF (setF (passCharges (setB s rPoolArm fPoolArmView view)
      ((List.range 256).foldl commitAcct (setB s rPoolArm fPoolArmView view))) rPoolArm fPoolArmRefused 0) rPoolArm fPoolArmFirstBad 0) := by
  change execPoolArm ag view s = _
  rw [execPoolArm, guarded_right _ _ _ _ hright]
  simp only [hgood]

end

/-- POOL_ARM's answer: whether the set was refused, and its first bad entry. -/
theorem poolArm_answer {r b : Nat} (hr : r < 2) :
    getF (setF (setF s rPoolArm fPoolArmRefused r) rPoolArm fPoolArmFirstBad b) rPoolArm fPoolArmRefused = r ∧
    getF (setF (setF s rPoolArm fPoolArmRefused r) rPoolArm fPoolArmFirstBad b) rPoolArm fPoolArmFirstBad = b % 2 ^ fPoolArmFirstBad.width := by
  refine ⟨?_, getF_setF_same _ _ _ _ (by decide)⟩
  rw [getF_setF_apart _ _ _ _ _ (by decide) (by decide) (by decide), getF_setF_same _ _ _ _ (by decide)]
  exact Nat.mod_eq_of_lt hr

theorem getPend_setB_poolArm {view : Bool} {i : Nat} : getPend (setB s rPoolArm fPoolArmView view) (rPoolAcct i) = getPend s (rPoolAcct i) :=
  congrArg (mapGet s.pend _) (getR_setR_ne _ _ _ _ poolArm_key_ne_poolAcct)

/-! ### O32 -/

/-- Settles O32: a stage of a migration writes the granule's entry and its flushes leave it; at its end nothing that waited moves. -/
theorem granulesMigrateAndAge : Obligations.GranulesMigrateAndAge := by
  unfold Obligations.GranulesMigrateAndAge
  refine ⟨⟨?_, ?_, ?_, fun _ => promotionStart_idle, ?_⟩, ⟨?_, ?_, ?_, ?_, ?_, ?_⟩, ?_, ?_, ?_, ?_, ?_, ?_, ?_⟩
  · intro s ag g a hright hg hroom
    refine ⟨_, migReqPromote_eq hright hg, ?_⟩
    rw [queuePromotion, queueMig_room hroom]
    exact ⟨sameMemory_of_eq rfl rfl, rfl, rfl⟩
  · intro s ag g hright hg hroom
    refine ⟨_, migReqDemote_eq hright hg, ?_⟩
    rw [queueMig_room hroom]
    exact ⟨sameMemory_of_eq rfl rfl, rfl, rfl⟩
  · intro s ag g a hright hg hfull
    refine ⟨(migReqPromote_eq hright hg).trans ?_, (migReqDemote_eq hright hg).trans ?_⟩
    · rw [queuePromotion, queueMig_full hfull]
    · rw [queueMig_full hfull]
  · intro s m hen hroom hpaused hq hprom hvictim hlow
    have hexec := promotionStart_eq hen hroom hpaused hq hprom hvictim hlow
    refine ⟨fun f hf => ?_, fun v hv => ?_⟩
    · rw [show chooseFrame (withMigQ s []) m.astag m.part = .free f from hf] at hexec
      refine ⟨_, hexec, ?_⟩
      rw [startPromotion_gran]
      exact ⟨rfl, rfl, rfl, rfl, rfl, fun g hne => gran_setGran_ne hne, sameMemory_of_eq rfl rfl⟩
    · rw [show chooseFrame (withMigQ s []) m.astag m.part = .victim v from hv] at hexec
      exact hexec
  · exact fun _ _ => promotionDone_enters
  · exact fun _ _ => demotionStart_begins
  · exact fun _ _ => demotionCopy_begins
  · exact fun _ _ => demotionDone_frees
  · exact fun _ _ _ => demotionDone_passes_frame
  · exact fun _ _ => ⟨promotionDone_stays, demotionDone_stays⟩
  · refine fun s => ⟨_, ageTick_eq, sameMemory_of_eq rfl rfl, rfl, fun g => ?_⟩
    rw [gran_allAged]
    exact ⟨rfl, rfl, rfl, rfl, rfl⟩
  · intro s x hstalled hwaits htime
    obtain ⟨t, hexec, hidle, hout, hd2d⟩ := tierTimeout_answers hstalled htime
    refine ⟨fun hread hag => ?_, fun hkind => ?_⟩
    · rw [timedOut_read hread hag, answerId_observer (by rw [hd2d, hwaits])] at hexec
      exact ⟨_, hexec, hidle, congrArg (· ++ _) hout⟩
    · have hkeeps : KeepsAnswers t (mpaPoison t x.req.mpa.toNat x.req.data.length) := mpaPoison_keepsAnswers
      rw [timedOut_write hkind, answerId_observer (by rw [hkeeps.d2d, hd2d, hwaits])] at hexec
      refine ⟨_, hexec, hkeeps.stalled.trans hidle, congrArg (· ++ _) (hkeeps.accOut.trans hout), ?_⟩
      refine (mpaPoisoned_mpaPoison (s := t)).trans (decide_eq_decide.2 ?_)
      rw [Ne, List.length_eq_zero_iff]
  · exact fun _ _ => tierTimeout_marks
  · exact fun _ _ => tierTimeout_early
  · exact fun _ _ => tierTimeout_command_early
  · intro s ag view i hright hbad
    obtain ⟨hrefused, hfirst⟩ := poolArm_answer (s := setB s rPoolArm fPoolArmView view) (r := 1) (b := i) (by decide)
    exact ⟨_, poolArm_refuses hright hbad, hrefused, hfirst, rfl, (sameRegsBut_setR.setR rfl).setR rfl,
      ⟨rfl, rfl, rfl, rfl, rfl, rfl, rfl, rfl, rfl, rfl, rfl⟩⟩
  · intro s ag view hright hgood
    have hcommit := acctsCommitted (s := setB s rPoolArm fPoolArmView view) 256
    have hexec := poolArm_commits hright hgood
    generalize (List.range 256).foldl commitAcct (setB s rPoolArm fPoolArmView view) = c at hcommit hexec
    refine ⟨_, hexec, (poolArm_answer (by decide)).1, fun i hi => ?_, sameMemory_of_eq hcommit.mem hcommit.poison⟩
    rw [← getPend_setB_poolArm (view := view), ← hcommit.committed i hi]
    exact (getR_setR_ne _ _ _ _ poolArm_key_ne_poolAcct).trans (getR_setR_ne _ _ _ _ poolArm_key_ne_poolAcct)

end Sys2Proof.Machine
end

section
namespace Sys2Proof.Machine
open Sys2Proof

/-! PROOFS. Plalia memory requests are served where their data lies (O36).

Credits and flits are the connections' own: what the hub reads of memory, its registers and its rules stays as it was (`LinksMoved`). A row whose
message arrives serves its request in that state (`exec_serves`), by what its access gives (`serve_device_load`, `serve_device_write`), and the answer
is one message more (`Sent`). -/

variable {s t w : State} {l : Nat} {m : PlaMsg} {r : MemReq} {a n : Nat} {bs : Bytes}

/-! ### Credits and flits (R345, R346) -/

/-- The connections' credits, queues and flits may have changed. -/
def LinksMoved (s t : State) : Prop := ∃ ls fs gc, t = { s with d2d := { s.d2d with links := ls, flits := fs, guestCredit := gc } }

namespace LinksMoved

theorem refl : LinksMoved s s := ⟨_, _, _, rfl⟩

theorem trans (h : LinksMoved s t) (h2 : LinksMoved t w) : LinksMoved s w := by
  obtain ⟨_, _, _, rfl⟩ := h
  obtain ⟨ls, fs, gc, rfl⟩ := h2
  exact ⟨ls, fs, gc, rfl⟩

theorem setLink {x : Link} : LinksMoved s (setLink s l x) := ⟨_, _, _, rfl⟩

end LinksMoved

theorem sendFlits_moved {k : Nat} {slots : List (Nat × Bytes)} : LinksMoved s (sendFlits s l k slots) := by
  induction k generalizing s slots with
  | zero => exact .refl
  | succ k ih =>
    rw [sendFlits]
    dsimp only
    split
    · exact .refl
    · exact .trans (.trans (t := { s with d2d := { s.d2d with flits := _ } }) ⟨_, _, _, rfl⟩ .setLink) ih

theorem pumpFlits_moved : LinksMoved s (pumpFlits s l) := by
  unfold pumpFlits
  dsimp only
  split
  · exact .refl
  · exact .trans .setLink sendFlits_moved

theorem takeCredits_moved : LinksMoved s (takeCredits s l m) := by
  unfold takeCredits
  dsimp only
  split
  · exact .trans .setLink ⟨_, _, _, rfl⟩
  · exact .setLink

/-- Of a connection, a message moves the credits alone. -/
theorem link_takeCredits : ∃ cr owed, link (takeCredits s l m) l = { link s l with credits := cr, owed := owed } := by
  unfold takeCredits
  dsimp only
  split
  · exact ⟨_, _, mapGet_mapSet_same _ _ _ _⟩
  · exact ⟨_, _, mapGet_mapSet_same _ _ _ _⟩

section
variable (h : LinksMoved s t)
include h

theorem LinksMoved.regs : t.regs = s.regs := by
  obtain ⟨_, _, _, rfl⟩ := h
  rfl

theorem LinksMoved.hub : t.hub = s.hub := by
  obtain ⟨_, _, _, rfl⟩ := h
  rfl

theorem LinksMoved.mem : t.mem = s.mem := by
  obtain ⟨_, _, _, rfl⟩ := h
  rfl

theorem LinksMoved.sameMemory : SameMemory s t := by
  obtain ⟨_, _, _, rfl⟩ := h
  exact sameMemory_of_eq rfl rfl

theorem LinksMoved.out : t.d2d.out = s.d2d.out := by
  obtain ⟨_, _, _, rfl⟩ := h
  rfl

theorem LinksMoved.locate_eq : locate t a = locate s a := by
  obtain ⟨_, _, _, rfl⟩ := h
  rfl

theorem LinksMoved.mpaRead_eq : mpaRead t a n = mpaRead s a n := by
  obtain ⟨_, _, _, rfl⟩ := h
  rfl

theorem LinksMoved.mpaPoisoned_eq : mpaPoisoned t a n = mpaPoisoned s a n := by
  obtain ⟨_, _, _, rfl⟩ := h
  rfl

theorem LinksMoved.effShared_eq : effShared t r.shared a = effShared s r.shared a := by
  obtain ⟨_, _, _, rfl⟩ := h
  rfl

theorem LinksMoved.shareBounds_eq : shareBounds t = shareBounds s := by
  obtain ⟨_, _, _, rfl⟩ := h
  rfl

theorem LinksMoved.addrOwner_eq : addrOwner t a = addrOwner s a := by
  obtain ⟨_, _, _, rfl⟩ := h
  rfl

theorem LinksMoved.withLayout {ts : List Triple} : LinksMoved (withLayout s ts) (withLayout t ts) := by
  induction ts generalizing s t with
  | nil => exact h
  | cons x ts ih =>
    refine ih (s := setObj s (x.index, x.sub) x.value) (t := setObj t (x.index, x.sub) x.value) ?_
    obtain ⟨_, _, _, rfl⟩ := h
    exact ⟨_, _, _, rfl⟩

theorem LinksMoved.underScrub_eq : underScrub t a n = underScrub s a n := by
  have hsec : t.sec = s.sec := by
    obtain ⟨_, _, _, rfl⟩ := h
    rfl
  simp only [underScrub, hsec, h.withLayout.shareBounds_eq, h.withLayout.addrOwner_eq, h.shareBounds_eq, h.addrOwner_eq]

theorem LinksMoved.mpaAdmits_eq {ag : Agent} {w : Bool} : mpaAdmits t ag a n w = mpaAdmits s ag a n w := by
  have hscrub := h.underScrub_eq (a := a) (n := n)
  obtain ⟨_, _, _, rfl⟩ := h
  rw [mpaAdmits, hscrub, mpaAdmits]
  rfl

theorem LinksMoved.refusal_eq : refusal t r = refusal s r := by
  simp only [refusal, h.mpaAdmits_eq]

theorem LinksMoved.staleUnit_eq : staleUnit t r = staleUnit s r := by
  obtain ⟨_, _, _, rfl⟩ := h
  rfl

theorem LinksMoved.sleepingStore_eq : sleepingStore t r = sleepingStore s r := by
  obtain ⟨_, _, _, rfl⟩ := h
  rfl

theorem LinksMoved.migrationStalls_eq : migrationStalls t a n = migrationStalls s a n := by
  obtain ⟨_, _, _, rfl⟩ := h
  rfl

theorem LinksMoved.guestMay_eq : guestMay t r = guestMay s r := by
  obtain ⟨_, _, _, rfl⟩ := h
  rfl

theorem LinksMoved.ringMay_eq : ringMay t l m r = ringMay s l m r := by
  obtain ⟨_, _, _, rfl⟩ := h
  rfl

theorem LinksMoved.plaReq_eq {l : Fin 19} {kind : MemKind} {cached : Bool} {strobe : Option (BitVec 64)} :
    plaReq t l m kind cached strobe = plaReq s l m kind cached strobe := by
  obtain ⟨_, _, _, rfl⟩ := h
  rfl

end

end Sys2Proof.Machine
end
section
namespace Sys2Proof.Machine
open Sys2Proof

variable {s t w : State} {l : Fin 19} {m : PlaMsg} {r : MemReq} {a n : Nat} {bs : Bytes} {c : Instr} {o : AccessOut}

/-! ### An answer sent (R346) -/

/-- One message more is sent on a connection; the rest is the connections' own. -/
def Sent (s t : State) (l : Nat) (x : PlaMsg) : Prop := LinksMoved { s with d2d := { s.d2d with out := s.d2d.out ++ [(l, x)] } } t

theorem plaSend_sent {l : Nat} {x : PlaMsg} : Sent s (plaSend s l x) l x :=
  .trans (.trans .setLink pumpFlits_moved) ⟨_, _, _, rfl⟩

/-- The answer to `m`. -/
theorem plaReply_sent {status : Nat} {data : Bytes} {poison : Nat} : ∃ x, Sent s (plaReply s l m status data poison) l x ∧ x.rsp = true ∧ x.chan = m.chan ∧
    x.tag = m.tag ∧ x.status = BitVec.ofNat 8 status ∧ x.data = data :=
  ⟨_, plaSend_sent, rfl, rfl, rfl, rfl, rfl⟩

/-- The hub's answer, after the connection has taken its credits and before its flits leave. -/
theorem plaReply_replied {status : Nat} {data : Bytes} {poison : Nat} (h : w.d2d.out = s.d2d.out) :
    Replied s (pumpFlits (plaReply w l m status data poison) l) l m status data ∧ (pumpFlits (plaReply w l m status data poison) l).mem = w.mem ∧
      (pumpFlits (plaReply w l m status data poison) l).regs = w.regs ∧ SameMemory w (pumpFlits (plaReply w l m status data poison) l) := by
  obtain ⟨x, hsent, hx⟩ := plaReply_sent (s := w) (l := l) (m := m) (status := status) (data := data) (poison := poison)
  have hall : Sent w (pumpFlits (plaReply w l m status data poison) l) l x := hsent.trans pumpFlits_moved
  exact ⟨⟨x, hall.out.trans (congrArg (· ++ _) h), hx⟩, hall.mem, hall.regs, hall.sameMemory⟩

/-! ### A message arrives (R346, R357) -/

theorem plaMessage_arrives {row : PlaRow} {f : State → PlaMsg → State} (h : row.Arrives s l m) :
    plaMessage s l m row.chan row.rsp row.op row.data f = pumpFlits (f (takeCredits s l m) m) l := by
  obtain ⟨hreset, hopen, hspells, hparity⟩ := h
  have hup : linkState s l = lkUp := by
    simp only [chanOpen, Bool.and_eq_true, decide_eq_true_eq] at hopen
    exact hopen.1.1
  have hstate : linkState (takeCredits s l m) l = linkState s l := by rw [linkState, linkState, getF, getF, getR, getR, takeCredits_moved.regs]
  have hopen' : chanOpen (takeCredits s l m) l row.chan = true := by
    obtain ⟨cr, owed, hlink⟩ := link_takeCredits (s := s) (l := l) (m := m)
    rw [← hopen, chanOpen, chanOpen, hstate, hlink, linkChannels, linkChannels, getF, getF, getR, getR, takeCredits_moved.regs]
  have hrecord : parityRecord (takeCredits s l m) l m = takeCredits s l m := if_pos hparity
  have hmsg : parityMsg m = m := by rw [parityMsg, hparity]
  rw [plaMessage, if_neg (by simp [hup, hreset, lkUp, lkDown, lkFailed]), hrecord, hmsg]
  simp [hparity, hspells, hopen']

/-- Nothing arrives over a connection that is down, failed or in reset, but a request of the removed guest is refused. -/
theorem plaMessage_closed {chan op : Nat} {rsp data : Bool} {f : State → PlaMsg → State}
    (h : linkState s l = lkDown ∨ linkState s l = lkFailed ∨ (link s l).inReset = true) :
    plaMessage s l m chan rsp op data f = if l.val = 18 ∧ s.d2d.removed.elem 11 ∧ ¬m.rsp then plaReply s l m 8 [] 0 else s := if_pos h

/-- Every row of a message begins with its arrival. -/
theorem plaRows_message : ∀ r ∈ plaRows, ∀ (s : State) (l : Fin 19) (m : PlaMsg),
    ∃ chan rsp op data f, exec (r.row l m) s = .next (plaMessage s l m chan rsp op data f) := by
  have hwrp : ∀ (s : State) (l : Fin 19) (m : PlaMsg), ∃ chan rsp op data f, exec (.wrp l m) s = .next (plaMessage s l m chan rsp op data f) := by
    intro s l m
    change ∃ chan rsp op data f, execWrp l m s = _
    unfold execWrp
    split <;> exact ⟨_, _, _, _, _, rfl⟩
  have hatom : ∀ (s : State) (l : Fin 19) (m : PlaMsg), ∃ chan rsp op data f, exec (.atom l m) s = .next (plaMessage s l m chan rsp op data f) := by
    intro s l m
    change ∃ chan rsp op data f, execAtom l m s = _
    unfold execAtom
    split <;> exact ⟨_, _, _, _, _, rfl⟩
  simp only [plaRows, List.forall_mem_cons, List.not_mem_nil, false_implies, implies_true, and_true]
  refine ⟨?_, ?_, hwrp, hatom, ?_, ?_, ?_, ?_, ?_, ?_, ?_, ?_, ?_, ?_, ?_, ?_, ?_, ?_, ?_, ?_, ?_, ?_⟩ <;>
    exact fun _ _ _ => ⟨_, _, _, _, _, rfl⟩

theorem plaRow_closed {row : PlaRow} (hrow : row ∈ plaRows) (h : linkState s l = lkDown ∨ linkState s l = lkFailed ∨ (link s l).inReset = true) :
    exec (row.row l m) s = .next (if l.val = 18 ∧ s.d2d.removed.elem 11 ∧ ¬m.rsp then plaReply s l m 8 [] 0 else s) := by
  obtain ⟨chan, rsp, op, data, f, hexec⟩ := plaRows_message row hrow s l m
  rw [hexec, plaMessage_closed h]

/-! ### A MEM request is served (R24, R206, R347, R356) -/

/-- The MEM rows: a sound request `c` arrives that asks for the access `r`. -/
def AsksFor (s : State) (l : Fin 19) (m : PlaMsg) (c : Instr) (r : MemReq) : Prop :=
  (PlaRow.Arrives ⟨.rd, 0, false, 0, false⟩ s l m ∧ c = .rd l m ∧ r = plaReq s l m .read false none) ∨
  (PlaRow.Arrives ⟨.wr, 0, false, 1, true⟩ s l m ∧ c = .wr l m ∧ r = plaReq s l m .write false none) ∨
  (PlaRow.Arrives ⟨.wrp, 0, false, 2, true⟩ s l m ∧ m.lines = 0 ∧ c = .wrp l m ∧ r = plaReq s l m .write false (some m.mask)) ∨
  (PlaRow.Arrives ⟨.atom, 0, false, 3, true⟩ s l m ∧ c = .atom l m ∧ ∃ op, aopOf m = some op ∧ r = plaReq s l m (.atomic op m.size64 m.signed) false none)

theorem exec_serves (h : AsksFor s l m c r) : exec c s = .next (pumpFlits (plaServe (takeCredits s l m) l m c r) l) := by
  have hreq : ∀ {kind strobe}, plaReq (takeCredits s l m) l m kind false strobe = plaReq s l m kind false strobe := takeCredits_moved.plaReq_eq
  rcases h with ⟨harr, rfl, rfl⟩ | ⟨harr, rfl, rfl⟩ | ⟨harr, hlines, rfl, rfl⟩ | ⟨harr, rfl, op, hop, rfl⟩
  · change execRd l m s = _
    rw [execRd, plaMessage_arrives harr, hreq]
  · change execWr l m s = _
    rw [execWr, plaMessage_arrives harr, wrServe, hreq]
  · change execWrp l m s = _
    rw [execWrp, if_neg (not_not.2 hlines), plaMessage_arrives harr, wrpServe, hreq]
  · change execAtom l m s = _
    simp only [execAtom, hop]
    rw [plaMessage_arrives harr, atomServe, hreq]

section
variable (hguest : l.val = 18 → guestMay s r = true) (hring : ringMay s l m r = true)
include hguest hring

theorem plaServe_held {e : Nat} (h : sleepingStore s r = some e) : plaServe s l m c r = heldForWake s e c := by
  rw [plaServe, if_neg (by simpa using hguest), if_neg (by simp [hring]), h]
  rfl

theorem plaServe_waits {id : Nat} (h : sleepingStore s r = none) (hserve : serve s r = (w, .stalled id)) :
    plaServe s l m c r = { w with d2d := { w.d2d with waits := mapSet w.d2d.waits id (l.val, m) } } := by
  rw [plaServe, if_neg (by simpa using hguest), if_neg (by simp [hring]), h]
  simp only [hserve]

theorem plaServe_answered (h : sleepingStore s r = none) (hserve : serve s r = (w, o)) (ho : ∀ id, o ≠ .stalled id) :
    plaServe s l m c r = settleWaits (plaAnswer w l m r o) := by
  rw [plaServe, if_neg (by simpa using hguest), if_neg (by simp [hring]), h]
  cases o with
  | stalled id => exact absurd rfl (ho id)
  | _ => simp only [hserve]

end

/-- A request of the guest that is refused is counted, with its time (R356, R357). -/
def guestCounted (s : State) : State :=
  let s := bump s (rPlaGuestRefused 18) fPlaGuestRefused 1
  { s with d2d := { s.d2d with guestBad := s.d2d.guestBad.filter (fun t => decide (s.time < t + oneSecond)) ++ [s.time] } }

theorem guestRefuse_eq : guestRefuse s m = plaReply (guestCounted s) 18 m 8 [] 0 := rfl

theorem plaServe_guest_refused (hguest : guestMay s r = false) : plaServe s 18 m c r = guestRefuse s m := if_pos ⟨rfl, by simp [hguest]⟩

theorem plaAnswer_data (h : w.hub.stalled = []) : settleWaits (plaAnswer w l m r (.data bs false)) = plaReply w l m 0 bs (poisonBits w r.mpa.toNat (m.lines.toNat + 1)) := by
  obtain ⟨x, hsent, -⟩ := plaReply_sent (s := w) (l := l) (m := m) (status := 0) (data := bs) (poison := poisonBits w r.mpa.toNat (m.lines.toNat + 1))
  simp only [plaAnswer, Bool.false_eq_true, false_and, if_false]
  exact settleWaits_idle ((congrArg HubState.stalled hsent.hub).trans h)

theorem plaAnswer_done (h : w.hub.stalled = []) (hpoison : m.poison = 0) : settleWaits (plaAnswer w l m r .done) = plaReply w l m 0 [] 0 := by
  obtain ⟨x, hsent, -⟩ := plaReply_sent (s := w) (l := l) (m := m) (status := 0) (data := []) (poison := 0)
  have hclean : ∀ k : List Nat, k.foldl (fun s i => if m.poison.getLsbD i then mpaPoison s (r.mpa.toNat + 64 * i) 64 else s) w = w := by
    simp [hpoison]
  simp only [plaAnswer, hclean]
  exact settleWaits_idle ((congrArg HubState.stalled hsent.hub).trans h)

end Sys2Proof.Machine
end
section
namespace Sys2Proof.Machine
open Sys2Proof

variable {s t : State} {l : Fin 19} {m : PlaMsg} {r : MemReq}

theorem length_of_spells {chan op : Nat} {rsp : Bool} (h : plaSpells m chan rsp op true = true) : m.data.length = 64 * (m.lines.toNat + 1) := by
  simp only [plaSpells, Bool.not_true, Bool.false_or, Bool.and_eq_true, decide_eq_true_eq] at h
  exact h.2

/-- A MEM request: not from a cache, without a hint, and its codes found sound. -/
structure PlainRequest (r : MemReq) : Prop where
  uncached : r.cached = false
  sound : r.ecc = .ok
  notAuto : r.hint ≠ 1
  notHighFirst : r.hint ≠ 2

theorem plaReq_plain {kind : MemKind} {strobe : Option (BitVec 64)} : PlainRequest (plaReq s l m kind false strobe) :=
  ⟨rfl, rfl, (by decide : (0 : BitVec 2) ≠ 1), (by decide : (0 : BitVec 2) ≠ 2)⟩

namespace PlainRequest

variable (h : PlainRequest r)
include h

theorem keepsR248 : KeepsR248 s r := .inl (.inl h.uncached)

theorem touched_touched : Touched s (touched s r) r.mpa.toNat := Machine.touched_touched h.sound h.notAuto h.notHighFirst

theorem unrefused (hstale : staleUnit s r = none) (hsized : reqBytes r ≠ 0) (href : refusal s r = none) : Unrefused s r :=
  ⟨hstale, hsized, by simp [h.sound], href⟩

end PlainRequest

section
variable (hguest : l.val = 18 → guestMay s r = true) (hring : ringMay s l m r = true) (hidle : s.hub.stalled = []) (href : refusal s r = none)
  (hdev : effShared s r.shared r.mpa.toNat = false)
include hguest hring hidle href hdev

/-- RD of a DEVICE span answers its bytes and changes no memory. -/
theorem rd_replies (harr : PlaRow.Arrives ⟨.rd, 0, false, 0, false⟩ s l m) (hr : plaReq s l m .read false none = r)
    (hclean : mpaPoisoned s r.mpa.toNat r.len = false) :
    ∃ t, exec (.rd l m) s = .next t ∧ Replied s t l m 0 (mpaRead s r.mpa.toNat r.len) ∧ SameMemory s t := by
  have hplain : PlainRequest r := hr ▸ plaReq_plain
  have hkind : r.kind = .read := hr ▸ rfl
  have hreads : reqWrites r = false := by rw [reqWrites, hkind]
  have hsized : reqBytes r ≠ 0 := by
    subst hr
    exact Nat.mul_ne_zero (by decide) (Nat.succ_ne_zero _)
  have hcred : LinksMoved s (takeCredits s l m) := takeCredits_moved
  have hexec := exec_serves (.inl ⟨harr, rfl, hr.symm⟩)
  generalize takeCredits s l m = t at hcred hexec
  have hstale : staleUnit t r = none := by
    rw [staleUnit, hreads]
    split <;> rfl
  have hserve := serve_device_load (hplain.unrefused hstale hsized (hcred.refusal_eq.trans href)) hplain.keepsR248 hplain.sound hplain.notAuto
    hplain.notHighFirst (hcred.effShared_eq.trans hdev) (.inl hkind) (.inl (hcred.mpaPoisoned_eq.trans hclean))
  rw [hcred.mpaPoisoned_eq, hclean, hcred.mpaRead_eq] at hserve
  have htouch : Touched t (touched t r) r.mpa.toNat := hplain.touched_touched
  have hkeeps := htouch.keepsAnswers
  rw [plaServe_answered (fun h => hcred.guestMay_eq.trans (hguest h)) (hcred.ringMay_eq.trans hring) (by rw [sleepingStore, hreads]) hserve
    (fun _ h => nomatch h), plaAnswer_data (hkeeps.stalled.trans (by rw [hcred.hub, hidle]))] at hexec
  obtain ⟨hreplied, -, -, hmem⟩ := plaReply_replied (w := touched t r) (l := l) (m := m) (status := 0) (data := mpaRead s r.mpa.toNat r.len)
    (poison := poisonBits (touched t r) r.mpa.toNat (m.lines.toNat + 1)) ((congrArg D2dState.out hkeeps.d2d).trans hcred.out)
  exact ⟨_, hexec, hreplied, (hcred.sameMemory.trans htouch.sameMemory).trans hmem⟩

/-- WR of a DEVICE span lands where the granule lies and is acknowledged. -/
theorem wr_lands (harr : PlaRow.Arrives ⟨.wr, 0, false, 1, true⟩ s l m) (hr : plaReq s l m .write false none = r) (hstale : staleUnit s r = none)
    (hawake : sleepingStore s r = none) (hpoison : m.poison = 0) (hmig : migrationStalls s r.mpa.toNat m.data.length = false)
    (hbreach : s.hub.breach = []) (hwf : Memory.wf s.mem = true) :
    ∃ t, exec (.wr l m) s = .next t ∧ Replied s t l m 0 [] ∧ Landed s t r.mpa.toNat m.data := by
  have hplain : PlainRequest r := hr ▸ plaReq_plain
  have hkind : r.kind = .write := hr ▸ rfl
  have hdata : r.data = m.data := hr ▸ rfl
  have hbytes : reqBytes r = m.data.length := by rw [reqBytes, hkind, ← hdata]
  have hsized : reqBytes r ≠ 0 := by
    obtain ⟨-, -, hspells, -⟩ := harr
    rw [hbytes, length_of_spells hspells]
    exact Nat.mul_ne_zero (by decide) (Nat.succ_ne_zero _)
  have hcred : LinksMoved s (takeCredits s l m) := takeCredits_moved
  have hexec := exec_serves (.inr (.inl ⟨harr, rfl, hr.symm⟩))
  generalize takeCredits s l m = t at hcred hexec
  have hdev' : effShared t r.shared r.mpa.toNat = false := hcred.effShared_eq.trans hdev
  have hnow : reqWaits t r t.hub.nextId = false := by simp [reqWaits, hbytes, hcred.migrationStalls_eq, hmig, hdev']
  obtain ⟨w, hserve, hlanded, hkeeps⟩ := serve_device_write (hplain.unrefused (hcred.staleUnit_eq.trans hstale) hsized (hcred.refusal_eq.trans href))
    hplain.keepsR248 hplain.sound hplain.notAuto hplain.notHighFirst hdev' hnow (by rw [hcred.hub, hbreach]) (by rw [hcred.mem, hwf]) hkind (hr ▸ rfl)
  rw [plaServe_answered (fun h => hcred.guestMay_eq.trans (hguest h)) (hcred.ringMay_eq.trans hring) (hcred.sleepingStore_eq.trans hawake) hserve
    (fun _ h => nomatch h), plaAnswer_done (hkeeps.stalled.trans (by rw [hcred.hub, hidle])) hpoison] at hexec
  obtain ⟨hreplied, hmem, -, -⟩ := plaReply_replied (w := w) (l := l) (m := m) (status := 0) (data := []) (poison := 0)
    ((congrArg D2dState.out hkeeps.d2d).trans hcred.out)
  refine ⟨_, hexec, hreplied, ?_⟩
  simpa only [Landed, hcred.locate_eq, byteAt, hcred.mem, hmem, hdata] using hlanded

end

/-- A request of the guest that R356 does not allow. -/
theorem wr_guest_refused (harr : PlaRow.Arrives ⟨.wr, 0, false, 1, true⟩ s 18 m) (hguest : guestMay s (plaReq s 18 m .write false none) = false) :
    ∃ t, exec (.wr 18 m) s = .next t ∧ Replied s t 18 m 8 [] ∧
      getF t (rPlaGuestRefused 18) fPlaGuestRefused = min (getF s (rPlaGuestRefused 18) fPlaGuestRefused + 1) (2 ^ fPlaGuestRefused.width - 1) ∧
      SameMemory s t := by
  have hcred : LinksMoved s (takeCredits s (18 : Fin 19).val m) := takeCredits_moved
  have hexec := exec_serves (.inr (.inl ⟨harr, rfl, rfl⟩))
  generalize takeCredits s (18 : Fin 19).val m = t at hcred hexec
  rw [plaServe_guest_refused (hcred.guestMay_eq.trans hguest), guestRefuse_eq] at hexec
  obtain ⟨hreplied, -, hregs, hmem⟩ := plaReply_replied (s := s) (w := guestCounted t) (l := 18) (m := m) (status := 8) (data := []) (poison := 0) hcred.out
  refine ⟨_, hexec, hreplied, ?_, hcred.sameMemory.trans hmem⟩
  have hcount : getF (guestCounted t) (rPlaGuestRefused 18) fPlaGuestRefused =
      min (getF t (rPlaGuestRefused 18) fPlaGuestRefused + 1) (2 ^ fPlaGuestRefused.width - 1) := getF_bump_same t _ _ _ (by decide)
  have hsame : getF t (rPlaGuestRefused 18) fPlaGuestRefused = getF s (rPlaGuestRefused 18) fPlaGuestRefused := by
    rw [getF, getR, hcred.regs, getF, getR]
  exact (congrArg (fun x => fget (mapGet x _ _) _) hregs).trans (hsame ▸ hcount)

/-! ### O36 -/

/-- Settles O36: a message moves the connection's credits alone, and its row answers with what its access gives there. -/
theorem plaliaMemoryRequests : Obligations.PlaliaMemoryRequests := by
  unfold Obligations.PlaliaMemoryRequests
  refine ⟨⟨?_, ?_, ?_, fun _ _ => wr_guest_refused⟩, ?_⟩
  · exact fun s l m r harr hr hguest hring hidle href hdev hclean => rd_replies hguest hring hidle href hdev harr hr hclean
  · intro s l m r harr hr hguest hring hidle hstale href hawake hdev hpoison hmig hbreach hwf hinj
    obtain ⟨t, hexec, hreplied, hin, hout⟩ := wr_lands hguest hring hidle href hdev harr hr hstale hawake hpoison hmig hbreach hwf
    exact ⟨t, hexec, hreplied, hin hinj, hout⟩
  · intro s w l m c r o hasks hguest hring
    have hcred : LinksMoved s (takeCredits s l m) := takeCredits_moved
    have hexec := exec_serves hasks
    have hguest' : l.val = 18 → guestMay (takeCredits s l m) r = true := fun h => hcred.guestMay_eq.trans (hguest h)
    have hring' := hcred.ringMay_eq.trans hring
    refine ⟨fun e hsleep => ?_, fun hawake hserve => ⟨fun ho => ?_, fun id ho => ?_⟩⟩
    · rw [hexec, plaServe_held hguest' hring' (hcred.sleepingStore_eq.trans hsleep)]
    · rw [hexec, plaServe_answered hguest' hring' (hcred.sleepingStore_eq.trans hawake) hserve ho]
    · subst ho
      rw [hexec, plaServe_waits hguest' hring' (hcred.sleepingStore_eq.trans hawake) hserve]
  · intro row hrow s l m hclosed
    have hexec := plaRow_closed (m := m) hrow hclosed
    refine ⟨fun hno => ?_, fun hl hremoved hreq => ?_⟩
    · rw [hexec, if_neg]
      rintro ⟨hl, hremoved, hreq⟩
      rcases hno with hno | hno | hno
      · exact hno hl
      · exact Bool.false_ne_true (hno.symm.trans hremoved)
      · exact hreq hno
    · rw [if_pos ⟨hl, hremoved, by simp [hreq]⟩] at hexec
      obtain ⟨x, hsent, hx⟩ := plaReply_sent (s := s) (l := l) (m := m) (status := 8) (data := []) (poison := 0)
      exact ⟨_, hexec, ⟨x, hsent.out, hx⟩, hsent.regs, hsent.sameMemory⟩

end Sys2Proof.Machine
end
section
namespace Sys2Proof.Machine
open Sys2Proof

variable {s : State} {ag : Agent} {d st reason : Nat} {r : StkRepair} {q : List StkRepair}

/-! ### Requests of a stacked repair (R227, R228) -/

/-- The queue of a die's repairs replaced. -/
def withStkQueue (s : State) (d : Nat) (q : List StkRepair) : State := { s with dev := { s.dev with stkQ := mapSet s.dev.stkQ d q } }

theorem stkQueue_withStkQueue : stkQueue (withStkQueue s d q) d = q := mapGet_mapSet_same _ _ _ _

theorem stkQueue_stkStatus {d' : Nat} : stkQueue (stkStatus s d st reason) d' = stkQueue s d' := rfl

theorem stkStatus_state (h : st < 4) : getF (stkStatus s d st reason) (rStkRepairStatus d) fStkRepairStatusState = st := by
  rw [stkStatus, getF_setF_apart _ _ _ _ _ (by decide) (by decide) (by decide), getF_setF_same _ _ _ _ (by decide)]
  exact Nat.mod_eq_of_lt h

theorem getF_stkStatus_ne {k : Reg} {f : Fd} (h : (rStkRepairStatus d).key ≠ k.key) : getF (stkStatus s d st reason) k f = getF s k f :=
  (getF_setF_ne _ _ _ _ _ _ h).trans (getF_setF_ne _ _ _ _ _ _ h)

theorem stkStatus_sameMemory : SameMemory s (stkStatus s d st reason) := ⟨fun _ => rfl, rfl⟩

theorem stkRequest_wrong (hbad : targetOk r = false) : stkRequest s d r = stkStatus s d 3 3 := if_pos (by simp [hbad])

theorem stkRequest_swept (hok : targetOk r = true) (hswept : margined s d r.chan = true) : stkRequest s d r = stkStatus s d 3 2 := by
  rw [stkRequest, if_neg (not_not.2 hok), if_pos hswept]

section
variable (hok : targetOk r = true) (hfree : margined s d r.chan = false)
include hok hfree

theorem stkRequest_spareless (hnone : spareCount r ≤ sparesUsed s d r) : stkRequest s d r = unrepaired (stkStatus s d 3 1) d r := by
  rw [stkRequest, if_neg (not_not.2 hok), if_neg (by simp [hfree]), if_pos hnone]

theorem stkRequest_spared (hspare : sparesUsed s d r < spareCount r) :
    stkRequest s d r = stkStatus (withStkQueue s d (stkQueue s d ++ [r])) d 1 0 := by
  rw [stkRequest, if_neg (not_not.2 hok), if_neg (by simp [hfree]), if_neg (Nat.not_le.2 hspare), withStkQueue]

theorem stkRequest_joins (hspare : sparesUsed s d r < spareCount r) :
    stkQueue (stkRequest s d r) d = stkQueue s d ++ [r] ∧ getF (stkRequest s d r) (rStkRepairStatus d) fStkRepairStatusState = 1 ∧
      SameMemory s (stkRequest s d r) := by
  rw [stkRequest_spared hok hfree hspare, stkQueue_stkStatus, stkQueue_withStkQueue, stkStatus_state (by decide)]
  exact ⟨rfl, rfl, stkStatus_sameMemory⟩

end

section
variable {die : Fin 8} {ch : Fin 128} {b : Fin 16} {x : BitVec 14} (hright : regRight s ag (rStkRepair die).key = true)
include hright

theorem exec_stkRepairConnection : exec (.stkRepairConnection ag die ch x) s = .next (stkRequest s die ⟨1, ch, 0, x.toNat⟩) :=
  congrArg Host.Outcome.next (guarded_right _ _ _ _ hright)

theorem exec_stkRepairRow : exec (.stkRepairRow ag die ch b x) s = .next (stkRequest s die ⟨2, ch, b, x.toNat⟩) :=
  congrArg Host.Outcome.next (guarded_right _ _ _ _ hright)

theorem exec_stkRepairColumn : exec (.stkRepairColumn ag die ch b x) s = .next (stkRequest s die ⟨3, ch, b, x.toNat⟩) :=
  congrArg Host.Outcome.next (guarded_right _ _ _ _ hright)

end

/-! Which targets exist. -/

section
variable {ch b x : Nat}

theorem targetOk_connection : targetOk ⟨1, ch, b, x⟩ = decide (x ≤ 151) := rfl
theorem targetOk_row : targetOk ⟨2, ch, b, x⟩ = decide (x < 12288) := rfl
theorem targetOk_column : targetOk ⟨3, ch, b, x⟩ = decide (x < 32) := rfl

end

/-! ### A repair complete (R228, R389, R394) -/

/-- The group's spare n is taken, and the repair counted. -/
def spareTaken (s : State) (d : Nat) (r : StkRepair) (n : Nat) : State :=
  advance { s with dev := { s.dev with stkUsed := mapSet s.dev.stkUsed (d, r.chan, r.kind, spareGroup r) (n + 1) } } (rStkRepairs d)
    fStkRepairsRepairs 1

theorem repaired_of_room (hroom : s.rel.repairMap.length < repairCap) : ∃ m x, repaired s d r =
    spareTaken (withRepair (slcPages s m) x) d r (mapGet s.dev.stkUsed (d, r.chan, r.kind, spareGroup r) 0) := by
  obtain ⟨m, x, hx⟩ := addRepair_of_room (kind := repairKind r.kind) (die := d) (unit := r.chan) (bank := r.bank) (target := r.target)
    (spare := mapGet s.dev.stkUsed (d, r.chan, r.kind, spareGroup r) 0) hroom
  exact ⟨m, x, congrArg (spareTaken · d r _) hx⟩

/-- A repair takes its die's next spare and is counted, and the map holds an entry more; the queues and memory stay. -/
theorem repaired_effect (hroom : s.rel.repairMap.length < repairCap) :
    (∀ d', stkQueue (repaired s d r) d' = stkQueue s d') ∧ (repaired s d r).rel.repairMap.length = s.rel.repairMap.length + 1 ∧
      getF (repaired s d r) (rStkRepairs d) fStkRepairsRepairs = (getF s (rStkRepairs d) fStkRepairsRepairs + 1) % 2 ^ fStkRepairsRepairs.width ∧
      mapGet (repaired s d r).dev.stkUsed (d, r.chan, r.kind, spareGroup r) 0 = mapGet s.dev.stkUsed (d, r.chan, r.kind, spareGroup r) 0 + 1 ∧
      SameMemory s (repaired s d r) := by
  obtain ⟨m, x, hx⟩ := repaired_of_room (d := d) (r := r) hroom
  rw [hx]
  refine ⟨fun _ => rfl, ?_, getF_advance_same _ _ _ _ (by decide), mapGet_mapSet_same _ _ _ _, fun _ => rfl, rfl⟩
  exact (congrArg List.length withRepair_repairMap).trans List.length_append

/-- The target read through ECC and the repair then complete, the request still in its die's queue. -/
def repairEnded (s : State) (d : Nat) (reads : List (Nat × EccResult)) (r : StkRepair) : State :=
  repaired (reads.foldl (fun s x => repairRead s d r x) s) d r

theorem repairDone_oldest {die : Fin 8} {reads : List (Nat × EccResult)} (hq : stkQueue s die = r :: q) (hruns : flashRuns s = true) :
    exec (.repairDone ⟨die, reads⟩) s = .next (stkStatus
      (withStkQueue (repairEnded s die reads r) die ((stkQueue (repairEnded s die reads r) die).drop 1)) die
      (if ((stkQueue (repairEnded s die reads r) die).drop 1).isEmpty then 2 else 1) 0) := by
  change execRepairDone ⟨die, reads⟩ s = _
  simp only [execRepairDone, hq, hruns, not_true_eq_false, if_false]
  rfl

theorem repairDone_completes {die : Fin 8} (hq : stkQueue s die = r :: q) (hruns : flashRuns s = true) (hroom : s.rel.repairMap.length < repairCap) :
    ∃ t, exec (.repairDone ⟨die, []⟩) s = .next t ∧ stkQueue t die = q ∧ t.rel.repairMap.length = s.rel.repairMap.length + 1 ∧
      getF t (rStkRepairs die) fStkRepairsRepairs = (getF s (rStkRepairs die) fStkRepairsRepairs + 1) % 2 ^ fStkRepairsRepairs.width ∧
      mapGet t.dev.stkUsed (die.val, r.chan, r.kind, spareGroup r) 0 = mapGet s.dev.stkUsed (die.val, r.chan, r.kind, spareGroup r) 0 + 1 ∧
      SameMemory s t := by
  obtain ⟨hqueue, hmap, hcount, hused, hmem⟩ := repaired_effect (d := die) (r := r) hroom
  refine ⟨_, repairDone_oldest hq hruns, ?_, hmap, ?_, hused, hmem⟩
  · rw [stkQueue_stkStatus, stkQueue_withStkQueue, repairEnded, List.foldl_nil, hqueue, hq, List.drop_one, List.tail_cons]
  · exact (getF_stkStatus_ne (key_ne_of_off (by simp [rStkRepairStatus, rStkRepairs]))).trans hcount

theorem repairDone_idle {die : Fin 8} {reads : List (Nat × EccResult)} (h : stkQueue s die = [] ∨ flashRuns s = false) :
    exec (.repairDone ⟨die, reads⟩) s = .next s := by
  change execRepairDone ⟨die, reads⟩ s = _
  rw [execRepairDone]
  rcases h with hq | hstops
  · rw [hq]
  · cases stkQueue s die with
    | nil => rfl
    | cons r q => rw [hstops]; rfl

theorem flashRuns_false_iff : flashRuns s = false ↔ s.dev.flStop = true ∨ getB s rPwrStatus fPwrStatusHoldupReady = false := by
  rw [flashRuns, Bool.and_eq_false_iff, Bool.not_eq_false']

/-- A check connection with 16 errors within a second is steered to its spare (R389, R393). -/
theorem countConn_steers {p : Place} {line : Nat} {c : Fin 168} (hstack : p.bulk = false) (hcheck : 152 ≤ c.val)
    (hspare : sparesUsed s p.die ⟨4, p.chan, 0, c.val - 152⟩ = 0)
    (hmany : 15 ≤ ((mapGet s.rel.connErr (p.die, p.chan, c.val) []).filter (fun x => decide (s.time < x.2 + oneSecond) && decide (x.1 ≠ line))).length) :
    countConn s p line (some c) =
      repaired { s with rel := { s.rel with connErr := mapDel s.rel.connErr (p.die, p.chan, c.val) } } p.die ⟨4, p.chan, 0, c.val - 152⟩ := by
  have hfull : ∀ y : Nat × Nat, 16 ≤ ((mapGet s.rel.connErr (p.die, p.chan, c.val) []).filter
      (fun x => decide (s.time < x.2 + oneSecond) && decide (x.1 ≠ line)) ++ [y]).length := fun y => by
    rw [List.length_append]
    exact Nat.succ_le_succ hmany
  have hfree : ¬spareCount ⟨4, p.chan, 0, c.val - 152⟩ ≤ sparesUsed s p.die ⟨4, p.chan, 0, c.val - 152⟩ := by
    rw [hspare]
    exact Nat.not_succ_le_zero 0
  simp only [countConn, hstack, Bool.false_eq_true, if_false, if_pos (hfull _), connTrigger, if_neg (Nat.not_lt.2 hcheck),
    (by decide : ¬(4 : Nat) = 1)]
  exact if_neg hfree

end Sys2Proof.Machine
end
section
namespace Sys2Proof.Machine
open Sys2Proof

variable {s : State} {d : Fin 9} {ch : Fin 128} {b : Fin 16} {a : RefAct}

/-! ### REFRESH (R225, R230) -/

/-- `mapFind_mapSet_same` for keys of any type. -/
theorem mapFind_mapSet_key {κ α : Type} [DecidableEq κ] {m : FMap κ α} {k : κ} {v : α} : mapFind (mapSet m k v) k = some v := by
  induction m with
  | nil => exact if_pos rfl
  | cons x m ih =>
    obtain ⟨k', v'⟩ := x
    by_cases h : k' = k <;> simp [mapSet, mapFind, h, ih]

/-- A bank's debt of refreshes replaced. -/
def withDebt (s : State) (d c b : Nat) (y : Int) : State := { s with dev := { s.dev with refDebt := mapSet s.dev.refDebt (d, c, b) y } }

theorem refDebt_withDebt {d c b : Nat} {y : Int} : refDebt (withDebt s d c b y) d c b = y := mapGet_mapSet_same _ _ _ _

/-- The refresh that fell due is noted now. -/
def refreshNoted (s : State) (d c b : Nat) : State := { s with dev := { s.dev with refAt := mapSet s.dev.refAt (d, c, b) s.time } }

theorem refreshDue_noted {d c b : Nat} : refreshDue (refreshNoted s d c b) d c b = false := by
  have hat : mapFind (refreshNoted s d c b).dev.refAt (d, c, b) = some s.time := mapFind_mapSet_key
  have hlong : 0 < refInterval (refreshNoted s d c b) d := by
    unfold refInterval
    split <;> decide
  rw [refreshDue, hat]
  exact decide_eq_false (Nat.not_le.2 (Nat.lt_add_of_pos_right hlong))

theorem refresh_due (hthere : chanThere d ch = true) (hdue : refreshDue s d ch b = true) (ha : a ≠ .pullIn) :
    exec (.refresh d ch ⟨b, a⟩) s = .next (withDebt (refreshNoted s d ch b) d ch b
      (if refDebt s d ch b < 0 ∨ ((a = .postpone ∨ bankRepairing s d ch b = true) ∧ refDebt s d ch b < refPostpone s d)
        then refDebt s d ch b + 1 else refDebt s d ch b)) := by
  change execRefresh d ch ⟨b, a⟩ s = _
  have hrep : bankRepairing (refreshNoted s d ch b) d ch b = bankRepairing s d ch b := rfl
  have hpost : refPostpone (refreshNoted s d ch b) d = refPostpone s d := rfl
  rw [← hrep, ← hpost]
  cases a with
  | pullIn => exact absurd rfl ha
  | issue | postpone =>
    simp only [execRefresh, hthere, hdue, not_true_eq_false, if_false, Bool.or_eq_true, decide_eq_true_eq]
    rfl

theorem refresh_pulled (hthere : chanThere d ch = true) : exec (.refresh d ch ⟨b, .pullIn⟩) s = .next
    (if -(refPullin s d : Int) < refDebt s d ch b then withDebt s d ch b (refDebt s d ch b - 1) else s) := by
  change execRefresh d ch ⟨b, .pullIn⟩ s = _
  simp only [execRefresh, hthere, not_true_eq_false, if_false]
  rfl

theorem refresh_idle (h : chanThere d ch = false ∨ (refreshDue s d ch b = false ∧ a ≠ .pullIn)) : exec (.refresh d ch ⟨b, a⟩) s = .next s := by
  change execRefresh d ch ⟨b, a⟩ s = _
  rcases h with hno | ⟨hearly, ha⟩
  · simp [execRefresh, hno]
  · cases a with
    | pullIn => exact absurd rfl ha
    | issue | postpone => simp [execRefresh, hearly]

/-! ### RECAL_WINDOW (R226, R230) -/

/-- The window counted, in a stack. -/
def windowCounted (s : State) (d : Nat) : State := if d < 8 then advance s (rRecalWindows d) fRecalWindows 1 else s

/-- The channel's window noted, and its banks without debt. -/
def windowNoted (s : State) (d c : Nat) : State :=
  { s with dev := { s.dev with
      recalAt := mapSet s.dev.recalAt (d, c) s.time
      refDebt := s.dev.refDebt.filter (fun x => !(decide (x.1.1 = d) && decide (x.1.2.1 = c))) } }

theorem windowCounted_dev {d : Nat} : (windowCounted s d).dev = s.dev := by
  unfold windowCounted
  split <;> rfl

theorem windowCounted_time {d : Nat} : (windowCounted s d).time = s.time := by
  unfold windowCounted
  split <;> rfl

theorem windowCounted_sameMemory {d : Nat} : SameMemory s (windowCounted s d) := by
  unfold windowCounted
  split <;> exact ⟨fun _ => rfl, rfl⟩

theorem windowCounted_counts {d : Nat} (hd : d < 8) :
    getF (windowCounted s d) (rRecalWindows d) fRecalWindows = (getF s (rRecalWindows d) fRecalWindows + 1) % 2 ^ fRecalWindows.width := by
  rw [windowCounted, if_pos hd]
  exact getF_advance_same _ _ _ _ (by decide)

theorem refDebt_windowNoted {d c c' b : Nat} : refDebt (windowNoted s d c) d c' b = if c' = c then 0 else refDebt s d c' b := by
  refine (mapGet_filter (p := fun k : Nat × Nat × Nat => !(decide (k.1 = d) && decide (k.2.1 = c)))).trans ?_
  by_cases h : c' = c <;> simp [h, refDebt]

theorem recalWindow_opens (hthere : chanThere d ch = true) (hmay : recalMay s d ch = true) :
    exec (.recalWindow d ch) s = .next (windowNoted (windowCounted s d) d ch) := by
  change execRecalWindow d ch s = _
  rw [execRecalWindow, if_neg (by simp [hthere, hmay])]
  rfl

theorem recalWindow_idle (h : recalMay s d ch = false) : exec (.recalWindow d ch) s = .next s :=
  congrArg Host.Outcome.next (if_pos (.inr (by simp [h])))

theorem recalWindow_clears {ch' : Fin 128} (hne : ch' ≠ ch) (hthere : chanThere d ch = true) (hmay : recalMay s d ch = true) :
    ∃ t, exec (.recalWindow d ch) s = .next t ∧ refDebt t d ch b = 0 ∧ refDebt t d ch' b = refDebt s d ch' b ∧
      mapFind t.dev.recalAt (d.val, ch.val) = some s.time ∧
      (d.val < 8 → getF t (rRecalWindows d) fRecalWindows = (getF s (rRecalWindows d) fRecalWindows + 1) % 2 ^ fRecalWindows.width) ∧
      SameMemory s t := by
  refine ⟨_, recalWindow_opens hthere hmay, ?_, ?_, ?_, windowCounted_counts, windowCounted_sameMemory⟩
  · rw [refDebt_windowNoted, if_pos rfl]
  · rw [refDebt_windowNoted, if_neg (Fin.val_ne_of_ne hne), refDebt, windowCounted_dev, refDebt]
  · exact mapFind_mapSet_key.trans (congrArg some windowCounted_time)

/-! ### O33 -/

/-- Settles O33: a request falls under one of `stkRequest`'s four outcomes, and each timer row's effect follows from its equation. -/
theorem stackedMemoryIsRepairedAndRefreshed : Obligations.StackedMemoryIsRepairedAndRefreshed := by
  unfold Obligations.StackedMemoryIsRepairedAndRefreshed
  refine ⟨⟨?_, ?_, ?_, ?_, ?_, fun _ _ _ _ => countConn_steers⟩, ?_, ?_, fun _ _ _ _ _ => refresh_idle, fun _ _ _ _ _ => recalWindow_clears,
    fun _ _ _ => recalWindow_idle⟩
  · intro s ag d ch b x hright hfree
    refine ⟨fun hx hspare => ?_, fun hx hspare => ?_, fun hx hspare => ?_⟩
    · exact ⟨_, exec_stkRepairConnection hright, stkRequest_joins (targetOk_connection.trans (decide_eq_true hx)) hfree hspare⟩
    · exact ⟨_, exec_stkRepairRow hright, stkRequest_joins (targetOk_row.trans (decide_eq_true hx)) hfree hspare⟩
    · exact ⟨_, exec_stkRepairColumn hright, stkRequest_joins (targetOk_column.trans (decide_eq_true hx)) hfree hspare⟩
  · intro s ag d ch b x hright
    rw [exec_stkRepairConnection hright, exec_stkRepairRow hright, exec_stkRepairColumn hright]
    refine ⟨fun hx => ?_, fun hx => ?_, fun hx => ?_, fun hswept hx => ⟨?_, ?_, ?_⟩, fun hfree hx hnone => ?_⟩
    · rw [stkRequest_wrong (targetOk_connection.trans (decide_eq_false (by omega)))]
    · rw [stkRequest_wrong (targetOk_row.trans (decide_eq_false (by omega)))]
    · rw [stkRequest_wrong (targetOk_column.trans (decide_eq_false (by omega)))]
    · rw [stkRequest_swept (targetOk_connection.trans (decide_eq_true (by omega))) hswept]
    · rw [stkRequest_swept (targetOk_row.trans (decide_eq_true (by omega))) hswept]
    · rw [stkRequest_swept (targetOk_column.trans (decide_eq_true hx)) hswept]
    · rw [stkRequest_spareless (targetOk_row.trans (decide_eq_true hx)) hfree hnone]
  · intro s d r l hq hstop hready hroom
    exact repairDone_completes hq (by simp [flashRuns, hstop, hready]) hroom
  · exact fun s d reads r l hq hruns => repairDone_oldest hq hruns
  · exact fun s d reads h => repairDone_idle (h.imp_right flashRuns_false_iff.2)
  · intro s d ch b a hthere hdue ha
    exact ⟨_, refresh_due hthere hdue ha, refreshDue_noted, rfl, ⟨fun _ => rfl, rfl⟩, refDebt_withDebt⟩
  · intro s d ch b hthere
    refine ⟨_, refresh_pulled hthere, ?_⟩
    split
    · exact ⟨rfl, ⟨fun _ => rfl, rfl⟩, refDebt_withDebt⟩
    · exact ⟨rfl, ⟨fun _ => rfl, rfl⟩, rfl⟩

end Sys2Proof.Machine
end
section
namespace Sys2Proof.Machine
open Sys2Proof

/-! PROOFS. Replay stalls, kill records and the fault rings (O27). -/

variable {s : State} {ag : Agent} {e : Fin 32} {n : Fin 16} {seq : BitVec 48} {u : SpoolId} {i : FaultInfo}

/-! ### FR_RESUME (R258) -/

theorem exec_frResumeRetry (hright : regRight s ag (rFrResume e).key = true) :
    exec (.frResumeRetry ag e n seq) s = .next (retryStall s e n seq.toNat) :=
  congrArg Host.Outcome.next (guarded_right _ _ _ _ hright)

theorem exec_frResumeKill (hright : regRight s ag (rFrResume e).key = true) :
    exec (.frResumeKill ag e n seq) s = .next (resumeKill s e n seq.toNat) :=
  congrArg Host.Outcome.next (guarded_right _ _ _ _ hright)

theorem find_stall_none {q : Nat} (h : ∀ x ∈ stallsOf s e n, x.1 % 2 ^ 48 ≠ q) :
    (stallsOf s e n).find? (fun x => decide (x.1 % 2 ^ 48 = q)) = none :=
  List.find?_eq_none.2 fun x hx => by simpa using h x hx

section
variable {q : Nat} (hkill : killing s e n = false)
include hkill

theorem retryStall_unnamed (h : stallNamed s e n q = none) : retryStall s e n q = resumeIgnored s e := by
  simp [retryStall, hkill, h]

theorem retryStall_cmd {c : Cmd} (h : stallNamed s e n q = some (.cmd u c)) : retryStall s e n q = releaseCmd s u c := by
  simp [retryStall, hkill, h]

theorem retryStall_fetch (h : stallNamed s e n q = some (.fetch u i)) :
    retryStall s e n q = setSpool s u { spool s u with fetchHold := none, fetchFirst := some i } := by
  simp [retryStall, hkill, h]

theorem retryStall_record (h : stallNamed s e n q = some (.record u i)) :
    retryStall s e n q = flushSpool (setSpool s u { spool s u with cqHold := none, cqFirst := some i }) u := by
  simp [retryStall, hkill, h]

theorem resumeKill_unnamed (h : (stallsOf s e n).find? (fun x => decide (x.1 % 2 ^ 48 = q)) = none) :
    resumeKill s e n q = resumeIgnored s e := by
  rw [resumeKill, if_neg (by simp [hkill]), h]

theorem resumeKill_named {x : Nat × Stalled} (h : (stallsOf s e n).find? (fun x => decide (x.1 % 2 ^ 48 = q)) = some x) :
    resumeKill s e n q = flushCtx (killStall s x false) e n := by
  rw [resumeKill, if_neg (by simp [hkill]), h]

end

/-! ### REPLAY_LIMIT (R259) -/

theorem replayLimit_reached {x : Nat × Stalled} (hkill : killing s e n = false)
    (h : (stallsOf s e n).find? (fun x => decide (stallSince x.2 + replayLimitNs s ≤ s.time)) = some x) :
    exec (.replayLimit e n) s = .next (flushCtx (killStall s x true) e n) := by
  change execReplayLimit e n s = _
  simp [execReplayLimit, hkill, h]

theorem replayLimit_early (h : ∀ x ∈ stallsOf s e n, s.time < stallSince x.2 + replayLimitNs s) : exec (.replayLimit e n) s = .next s := by
  have hnone : (stallsOf s e n).find? (fun x => decide (stallSince x.2 + replayLimitNs s ≤ s.time)) = none :=
    List.find?_eq_none.2 fun x hx => by simpa using h x hx
  change execReplayLimit e n s = _
  simp [execReplayLimit, hnone]

/-! ### KILL_RECORD (R257) -/

theorem ctxAux_setCtxAux_same {e n : Nat} {x : CtxAux} : ctxAux (setCtxAux s e n x) e n = x := mapGet_mapSet_same _ _ _ _

/-- The next fault number of the slot is used. -/
def seqTaken (s : State) (e n : Nat) : State := setCtxAux s e n { ctxAux s e n with seq := (ctxAux s e n).seq + 1 }

/-- And no kill record is owed any more. -/
def killPaid (s : State) (e n : Nat) : State := setCtxAux (seqTaken s e n) e n { ctxAux (seqTaken s e n) e n with kill := none }

/-- The fault that a kill record tells of. -/
def killFault (s : State) (k : KillRec) : FaultInfo :=
  { va := k.va, astag := k.astag, cause := k.cause, write := k.write, unit := k.unit, since := s.time }

/-- The kill record (R257, R260). -/
def killBytes (s : State) (e : Fin 32) (n : Fin 16) (k : KillRec) : Bytes :=
  faultBytes (killPaid s e n) ⟨e, n, Fin.ofNat 4 k.spool⟩ k.tag k.slot (killFault s k) k.cause (ctxAux s e n).seq false true

theorem ctxAux_killPaid {e n : Nat} : ctxAux (killPaid s e n) e n = { ctxAux s e n with seq := (ctxAux s e n).seq + 1, kill := none } := by
  rw [killPaid, ctxAux_setCtxAux_same, seqTaken, ctxAux_setCtxAux_same]

/-- A fault record begins with the address of its fault (R260). -/
theorem faultBytes_va {tag slot cause seq : Nat} {replay killed : Bool} :
    (faultBytes s u tag slot i cause seq replay killed).take 8 = natLE 8 i.va := by
  simp only [faultBytes, List.append_assoc]
  exact List.take_left' length_natLE

theorem killRecord_idle (h : (ctxAux s e n).kill = none ∨ slotQuiet s e n = false) : exec (.killRecord e n) s = .next s := by
  change execKillRecord e n s = _
  rw [execKillRecord]
  cases hkill : (ctxAux s e n).kill with
  | none => rfl
  | some k =>
    have hbusy : slotQuiet s e n = false := h.resolve_left (by simp [hkill])
    simp [hbusy]

theorem killRecord_written {k : KillRec} (hkill : (ctxAux s e n).kill = some k) (hquiet : slotQuiet s e n = true) :
    exec (.killRecord e n) s = .next (flushCtx (putFault (killPaid s e n) e n (killBytes s e n k)) e n) := by
  change execKillRecord e n s = _
  rw [execKillRecord, hkill]
  dsimp only
  rw [if_neg (by simp [hquiet])]
  rfl

/-! ### The fault rings (R260, R261) -/

theorem putFault_nowhere {e n : Nat} {b : Bytes} (h : (frRing e n).placed s 32 = false) :
    putFault s e n b = bump s (rFrStatus e n) fFrStatusOverflow 1 := by
  simp [putFault, h]

theorem putFault_full {e n : Nat} {b : Bytes} (hplaced : (frRing e n).placed s 32 = true) (hfull : (frRing e n).full s = true) :
    putFault s e n b =
      bump (setCtxAux s e n { ctxAux s e n with held := (ctxAux s e n).held ++ [⟨b⟩] }) (rFrStatus e n) fFrStatusOverflow 1 := by
  simp [putFault, hplaced, hfull]

/-- A record for the full ring of a number `n` is held, and PRODUCER stays. -/
def FullRingHolds (e n : Nat) : Prop := ∀ (s : State) (b : Bytes), (frRing e n).placed s 32 = true → (frRing e n).full s = true →
  (putFault s e n b).mem = s.mem ∧ (ctxAux (putFault s e n b) e n).held = (ctxAux s e n).held ++ [⟨b⟩] ∧
    getF (putFault s e n b) (rFrPtr e n) fFrPtrProducer = getF s (rFrPtr e n) fFrPtrProducer

/-- FR_STATUS_n at 0x4300 + 8n and FR_PTR_n at 0x4108 + 0x20n: the offsets of a number that is no context slot can meet. -/
theorem frStatus_key_eq_frPtr_key_iff {e n : Nat} : (rFrStatus e n).key = (rFrPtr e n).key ↔ n = 21 := by
  simp only [rFrStatus, rFrPtr, RegKey.mk.injEq, true_and]
  omega

/-- The ring of each of the 16 context slots of an engine holds what finds it full (R260). -/
theorem fullRingHolds_slot {e : Nat} : FullRingHolds e n := by
  intro s b hplaced hfull
  have hkey : (rFrStatus e n).key ≠ (rFrPtr e n).key := fun h => absurd (frStatus_key_eq_frPtr_key_iff.1 h) (by omega)
  rw [putFault_full hplaced hfull]
  exact ⟨rfl, congrArg CtxAux.held ctxAux_setCtxAux_same, getF_setF_ne _ _ _ _ _ _ hkey⟩

theorem exec_frPtrConsumer_ctx {val : BitVec 32} (hright : regRight s ag (rFrPtr e n).key = true) : exec (.frPtrConsumer ag (.ctx e n) val) s =
    .next (flushFaults (setF s (rFrPtr e n) fFrPtrConsumer val.toNat) e n (ctxAux s e n).held.length) :=
  congrArg Host.Outcome.next (guarded_right _ _ _ _ hright)

theorem exec_frPtrConsumer_part {p : Fin 16} {val : BitVec 32} (hright : regRight s ag (rRhPfrPtr p).key = true) :
    exec (.frPtrConsumer ag (.part p) val) s =
      .next (flushPeerFaults (setF s (rRhPfrPtr p) fRhPfrPtrConsumer val.toNat) p (mapGet s.hub.pfHeld p.val []).length) :=
  congrArg Host.Outcome.next (guarded_right _ _ _ _ hright)

/-! ### The statement -/

/-- Every clause of the statement but that of the full ring holds: a record number names at most one stall, which RETRY releases by its kind and
KILL takes down the kill path; a kill record is owed once. -/
theorem faultsAreRecordedAndReplayed_iff : Obligations.FaultsAreRecordedAndReplayed ↔ ∀ e n : Nat, FullRingHolds e n := by
  unfold Obligations.FaultsAreRecordedAndReplayed
  refine ⟨fun ⟨_, _, _, _, hring, _, _⟩ e n s b => hring s e n b, fun hring => ⟨⟨?_, ?_, ?_, fun _ _ _ _ => replayLimit_reached,
    fun _ _ _ => replayLimit_early⟩, fun _ _ _ => killRecord_idle, ?_, fun _ _ _ _ => putFault_nowhere, fun s e n b => hring e n s b, ?_, ?_⟩⟩
  · intro s ag e n seq hright hkill hnone
    have hfind := find_stall_none hnone
    rw [exec_frResumeRetry hright, exec_frResumeKill hright, resumeKill_unnamed hkill hfind, retryStall_unnamed hkill (by rw [stallNamed, hfind]; rfl)]
    exact ⟨rfl, rfl⟩
  · intro s ag e n seq hright hkill
    rw [exec_frResumeRetry hright]
    exact ⟨fun u c h => congrArg _ (retryStall_cmd hkill h), fun u i h => congrArg _ (retryStall_fetch hkill h),
      fun u i h => congrArg _ (retryStall_record hkill h)⟩
  · intro s ag e n seq x hright hkill hfind
    rw [exec_frResumeKill hright, resumeKill_named hkill hfind]
  · intro s e n k hkill hquiet
    exact ⟨_, _, killRecord_written hkill hquiet, congrArg CtxAux.kill ctxAux_killPaid, congrArg CtxAux.seq ctxAux_killPaid, faultBytes_va, rfl⟩
  · intro s ag e n val hright
    refine ⟨exec_frPtrConsumer_ctx hright, fun hheld => ?_⟩
    rw [exec_frPtrConsumer_ctx hright, hheld]
    rfl
  · intro s ag p val hright
    refine ⟨exec_frPtrConsumer_part hright, fun hheld => ?_⟩
    rw [exec_frPtrConsumer_part hright, hheld]
    rfl

/-- Refutes O27: its clause of a full ring is over every number, where an engine has 16 context slots. At 21, which is no slot, FR_STATUS lies on
FR_PTR, so the count of a held record raises PRODUCER: from 64 to 65 in the ring of 64 records that this state has. For the slots that there are
the clause holds (`fullRingHolds_slot`), and so does every other clause (`faultsAreRecordedAndReplayed_iff`). -/
theorem not_faultsAreRecordedAndReplayed : ¬ Obligations.FaultsAreRecordedAndReplayed := by
  intro h
  obtain ⟨-, -, hproducer⟩ := faultsAreRecordedAndReplayed_iff.1 h 0 21 (setR State.reset (rFrPtr 0 21) 64) [] (by decide) (by decide)
  exact absurd hproducer (by decide)

end Sys2Proof.Machine
end
section
namespace Sys2Proof.Machine
open Sys2Proof

/-! PROOFS. Misses and walks, consult answers and FLUSH_TAG (O28). -/

variable {s s2 : State} {ag : Agent}

/-! ### RANGE_CACHE_MISS (R244, R249, R251) -/

section
variable {r : XlateReq} {w : Walk} {c : Option Nat} {l : List Walk}

theorem walksOf_setWalks : walksOf (setWalks s c l) c = l := by
  cases c with
  | none => rfl
  | some e => exact congrArg EngAux.walks (engAux_setEngAux.trans (if_pos rfl))

theorem setWalks_nextId : (setWalks s c l).hub.nextId = s.hub.nextId := by
  cases c <;> rfl

theorem setWalks_sameMemory : SameMemory s (setWalks s c l) := by
  cases c <;> exact ⟨fun _ => rfl, rfl⟩

theorem rangeCacheMiss_hit {e : RcEntry} (h : rcLookup s (reqCache r) r.astag.toNat r.va.toNat = (s2, some e)) :
    exec (.rangeCacheMiss r) s = .next (giveEntry s2 r e) := by
  change execRangeCacheMiss r s = _
  rw [execRangeCacheMiss, h]

theorem rangeCacheMiss_missed (h : rcLookup s (reqCache r) r.astag.toNat r.va.toNat = (s2, none)) :
    exec (.rangeCacheMiss r) s = .next (beginWalk s2 r) := by
  change execRangeCacheMiss r s = _
  rw [execRangeCacheMiss, h]

theorem beginWalk_rootOff (h : getB s rRhRoot fRhRootEnable = false) : beginWalk s r = giveFault s r fNoRoot false := if_pos (by simp [h])

section
variable (hroot : getB s rRhRoot fRhRootEnable = true)
include hroot

theorem beginWalk_starts (hfree : ∀ w ∈ walksOf s (reqCache r), sameRange s w.req r = false) :
    beginWalk s r = setWalks { s with hub := { s.hub with nextId := s.hub.nextId + 1 } } (reqCache r)
      (walksOf s (reqCache r) ++ [{ id := s.hub.nextId, req := r, joined := [], restart := false }]) := by
  have hnone : (walksOf s (reqCache r)).any (fun w => sameRange s w.req r) = false := List.any_eq_false.2 fun w hw => by simp [hfree w hw]
  rw [beginWalk, if_neg (by simp [hroot])]
  exact if_neg (Bool.eq_false_iff.1 hnone)

theorem beginWalk_joins (hwalk : walksOf s (reqCache r) = [w]) (hsame : sameRange s w.req r = true) :
    beginWalk s r = setWalks s (reqCache r) [{ w with joined := w.joined ++ [r] }] := by
  rw [beginWalk, if_neg (by simp [hroot]), hwalk]
  simp [hsame]

end

/-! ### WALK_COMPLETE (R251, R253) -/

theorem walkComplete_idle {id : Nat} (h : walkNamed s id = none ∨ walkRuns s id = false) : exec (.walkComplete id) s = .next s := by
  change execWalkComplete id s = _
  rw [execWalkComplete]
  cases hnamed : walkNamed s id with
  | none => rfl
  | some x =>
    have hwaits : walkRuns s id = false := h.resolve_left (by simp [hnamed])
    simp [hwaits]

section
variable {id : Nat} (hnamed : walkNamed s id = some (c, w)) (hruns : walkRuns s id = true)
include hnamed hruns

theorem walkComplete_answers (hclean : w.restart = false) {res : WalkRes}
    (hres : resolveReq (setWalks s c ((walksOf s c).filter (fun x => decide (x.id ≠ id)))) w.req = (s2, res)) :
    exec (.walkComplete id) s = .next (w.joined.foldl (fun t r => joinResult t r res) s2) := by
  change execWalkComplete id s = _
  simp only [execWalkComplete, hnamed, hruns, hclean, hres, not_true_eq_false, Bool.false_eq_true, if_false]

theorem walkComplete_restarts (hmet : w.restart = true) : exec (.walkComplete id) s =
    .next (setWalks s c ((walksOf s c).map (fun x => if x.id = id then { x with restart := false } else x))) := by
  change execWalkComplete id s = _
  simp only [execWalkComplete, hnamed, hruns, hmet, not_true_eq_false, if_false, if_true]

end

end

/-! ### Answers to a consult request (R252, R253) -/

section
variable {id : BitVec 32} {c : Consult}

theorem exec_rhReplyInstall (hright : regRight s ag rRhReplyCtl.key = true) (h : consultNamed s id.toNat = some c) :
    exec (.rhReplyInstall ag id) s = .next (if c.restart then restartConsult s c else installReply s c) := by
  change execRhReplyInstall ag id s = _
  rw [execRhReplyInstall, guarded_right _ _ _ _ hright, h]

theorem exec_rhReplyRefuse (hright : regRight s ag rRhReplyCtl.key = true) (h : consultNamed s id.toNat = some c) :
    exec (.rhReplyRefuse ag id) s = .next (if c.restart then restartConsult s c
      else consultFault (dropConsult s c.id) c fConsultRefused (c.entry.replay || c.entry.rootReplay)) := by
  change execRhReplyRefuse ag id s = _
  rw [execRhReplyRefuse, guarded_right _ _ _ _ hright, h]

theorem exec_consultTimeout (h : consultNamed s id.toNat = some c) :
    exec (.consultTimeout id) s = .next (if s.time < c.since + objNat s oConsultTimeout * 1000000 then s
      else if c.restart then restartConsult s c
      else consultFault (dropConsult s c.id) c fConsultTimeout (c.entry.replay || c.entry.rootReplay)) := by
  change execConsultTimeout id s = _
  rw [execConsultTimeout, h]

theorem rhReply_unnamed (hright : regRight s ag rRhReplyCtl.key = true) (h : consultNamed s id.toNat = none) :
    exec (.rhReplyInstall ag id) s = .next s ∧ exec (.rhReplyRefuse ag id) s = .next s := by
  change execRhReplyInstall ag id s = _ ∧ execRhReplyRefuse ag id s = _
  rw [execRhReplyInstall, execRhReplyRefuse, guarded_right _ _ _ _ hright, guarded_right _ _ _ _ hright, h]
  exact ⟨rfl, rfl⟩

theorem consultTimeout_unnamed (h : consultNamed s id.toNat = none) : exec (.consultTimeout id) s = .next s := by
  change execConsultTimeout id s = _
  rw [execConsultTimeout, h]

end

theorem exec_rhConsultPtrConsumer {val : BitVec 32} (hright : regRight s ag rRhConsultPtr.key = true) :
    exec (.rhConsultPtrConsumer ag val) s = .next (flushConsults (setF s rRhConsultPtr fRhConsultPtrConsumer val.toNat)) :=
  congrArg Host.Outcome.next (guarded_right _ _ _ _ hright)

theorem flushConsults_nil (h : s.hub.consults = []) : flushConsults s = s := by rw [flushConsults, h, List.foldl_nil]

/-! ### What a flush drops (R253) -/

section
variable {astag : Nat} {all : Bool} {x : RcEntry}

theorem mem_hubRc_flushCaches (h : x ∈ (flushCaches s astag all).hub.rc) : all = false ∧ x.astag ≠ astag := by
  simpa using (List.mem_filter.1 h).2

/-- What a flush leaves of an engine's caches and walks. -/
def engFlushed (astag : Nat) (all : Bool) (x : EngAux) : EngAux :=
  { x with
    rc := x.rc.filter (fun e => !all && decide (e.astag ≠ astag))
    walks := x.walks.map (fun w => if all || decide (w.req.astag.toNat = astag) then { w with restart := true } else w) }

theorem engAux_flushCaches {e : Nat} : engAux (flushCaches s astag all) e = engFlushed astag all (engAux s e) :=
  mapGet_map (f := engFlushed astag all) rfl

theorem mem_engRc_flushCaches {e : Nat} (h : x ∈ (engAux (flushCaches s astag all) e).rc) : all = false ∧ x.astag ≠ astag := by
  rw [engAux_flushCaches] at h
  simpa using (List.mem_filter.1 h).2

end

/-! ### The queue of flushes (R253, R254) -/

/-- The queue of flushes where none waits for room. -/
def withFlushQ (s : State) (q : List Flush) : State := { s with hub := { s.hub with flushQ := q, flushWait := [] } }

/-- A flush behind those in the queue. -/
def flushQueued (s : State) (f : Flush) : State := { s with hub := { s.hub with flushQ := s.hub.flushQ ++ [f] } }

section
variable {f g : Flush} {l : List Flush}

theorem flushDone_hub : (flushDone s f).hub = s.hub := by
  unfold flushDone
  split <;> rfl

theorem getF_flushDone : getF (flushDone s f) rRhFlushStatus fRhFlushStatusDone =
    (getF s rRhFlushStatus fRhFlushStatusDone + f.software.toNat) % 2 ^ fRhFlushStatusDone.width := by
  unfold flushDone
  cases f.software with
  | false => exact (Nat.mod_eq_of_lt getF_lt).symm
  | true => exact getF_advance_same _ _ _ _ (by decide)

theorem runFlushes_draining (hstarted : f.started.isSome = true) (hdrain : f.drain = true) (hsoft : f.software = true) :
    runFlushes s (f :: l) = { s with hub := { s.hub with flushQ := f :: l } } := by
  obtain ⟨k, hk⟩ := Option.isSome_iff_exists.1 hstarted
  simp [runFlushes, hk, hdrain, hsoft]

theorem pumpFlushes_nil (hq : s.hub.flushQ = []) (hw : s.hub.flushWait = []) : pumpFlushes s = withFlushQ s [] := by
  rw [pumpFlushes, hq, hw]
  rfl

/-- Behind a flush of software that drains, the queue waits. -/
theorem pumpFlushes_behind (hq : s.hub.flushQ = f :: l) (hw : s.hub.flushWait = []) (hroom : l.length < 15)
    (hstarted : f.started.isSome = true) (hdrain : f.drain = true) (hsoft : f.software = true) :
    pumpFlushes (flushQueued s g) = withFlushQ s (s.hub.flushQ ++ [g]) := by
  have hlen : (f :: (l ++ [g])).length ≤ 16 := by
    rw [List.length_cons, List.length_append, List.length_singleton]
    omega
  simp only [pumpFlushes, flushQueued, hq, hw, List.append_nil, List.cons_append, runFlushes_draining hstarted hdrain hsoft]
  rw [List.take_of_length_le hlen, List.drop_of_length_le hlen]
  rfl

end

/-! ### FLUSH_TAG and FLUSH_TAG_DONE (R253, R254) -/

section
variable {f : Flush} {l : List Flush} {a : BitVec 16} {all drain : Bool}

/-- What FLUSH_TAG queues. -/
def tagFlush (astag : BitVec 16) (all drain : Bool) : Flush := { astag := astag.toNat, all := all, drain := drain, software := true }

/-- Alone in the queue it starts: with DRAIN it stays there, without it is done. -/
theorem pumpFlushes_alone (hq : s.hub.flushQ = []) (hw : s.hub.flushWait = []) :
    pumpFlushes (flushQueued s (tagFlush a all drain)) =
      if drain then withFlushQ (flushCaches s a.toNat all) [{ tagFlush a all drain with started := some s.hub.nextId }]
      else withFlushQ (advance (flushCaches s a.toNat all) rRhFlushStatus fRhFlushStatusDone 1) [] := by
  simp only [pumpFlushes, flushQueued, hq, hw, List.append_nil, List.nil_append]
  cases drain with
  | true => rfl
  | false => rfl

theorem flushTag_refused (hright : regRight s ag rRhFlush.key = true) (hfull : 16 ≤ s.hub.flushQ.length) :
    exec (.flushTag ag a all drain) s = .next (setF s rRhFlushStatus fRhFlushStatusRefused 1) :=
  congrArg Host.Outcome.next ((guarded_right _ _ _ _ hright).trans (if_pos hfull))

theorem flushTag_runs (hright : regRight s ag rRhFlush.key = true) (hroom : s.hub.flushQ.length < 16) (hnone : NoneAwaitsFlush s) :
    exec (.flushTag ag a all drain) s = .next (pumpFlushes (flushQueued s (tagFlush a all drain))) := by
  have hgrans : (pumpFlushes (flushQueued s (tagFlush a all drain))).hub.grans = s.hub.grans := pumpFlushes_flushed.grans
  rw [← (hnone.of_grans hgrans).afterFlushes_eq]
  exact congrArg Host.Outcome.next ((guarded_right _ _ _ _ hright).trans (if_neg (Nat.not_le.2 hroom)))

theorem flushTagDone_waits (hq : s.hub.flushQ = f :: l) (h : f.started = none ∨ flushPending s f = true) :
    exec .flushTagDone s = .next s := by
  change execFlushTagDone s = _
  rw [execFlushTagDone, hq]
  exact congrArg Host.Outcome.next (if_pos (by simpa using h))

theorem flushTagDone_completes (hq : s.hub.flushQ = f :: l) (hstarted : f.started.isSome = true)
    (hpending : flushPending s f = false) :
    exec .flushTagDone s = .next (afterFlushes (pumpFlushes (flushDone { s with hub := { s.hub with flushQ := l } } f))) := by
  change execFlushTagDone s = _
  rw [execFlushTagDone, hq]
  exact congrArg Host.Outcome.next (if_neg (by simp [hpending, Option.isSome_iff_ne_none.1 hstarted]))

theorem flushTagDone_idle (hq : s.hub.flushQ = []) : exec .flushTagDone s = .next s := by
  change execFlushTagDone s = _
  rw [execFlushTagDone, hq]

theorem flushTag_waits (hright : regRight s ag rRhFlush.key = true) (hq : s.hub.flushQ = f :: l) (hroom : l.length < 15)
    (hstarted : f.started.isSome = true) (hdrain : f.drain = true) (hsoft : f.software = true) (hw : s.hub.flushWait = []) (hnone : NoneAwaitsFlush s) :
    exec (.flushTag ag a all drain) s = .next (withFlushQ s (s.hub.flushQ ++ [tagFlush a all drain])) := by
  rw [flushTag_runs hright (by rw [hq, List.length_cons]; omega) hnone, pumpFlushes_behind hq hw hroom hstarted hdrain hsoft]

theorem flushTag_starts {e : Nat} (hright : regRight s ag rRhFlush.key = true) (hq : s.hub.flushQ = []) (hw : s.hub.flushWait = [])
    (hnone : NoneAwaitsFlush s) :
    ∃ t, exec (.flushTag ag a all drain) s = .next t ∧ (∀ x ∈ t.hub.rc, all = false ∧ x.astag ≠ a.toNat) ∧
      (∀ x ∈ (engAux t e).rc, all = false ∧ x.astag ≠ a.toNat) ∧
      t.hub.flushQ = (if drain then [{ tagFlush a all drain with started := some s.hub.nextId }] else []) ∧
      getF t rRhFlushStatus fRhFlushStatusDone = (getF s rRhFlushStatus fRhFlushStatusDone + (!drain).toNat) % 2 ^ fRhFlushStatusDone.width ∧
      SameMemory s t := by
  refine ⟨_, flushTag_runs hright (by rw [hq]; decide) hnone, ?_⟩
  rw [pumpFlushes_alone hq hw]
  cases drain with
  | true => exact ⟨fun _ => mem_hubRc_flushCaches, fun _ => mem_engRc_flushCaches, rfl, (Nat.mod_eq_of_lt getF_lt).symm, fun _ => rfl, rfl⟩
  | false =>
    exact ⟨fun _ => mem_hubRc_flushCaches, fun _ => mem_engRc_flushCaches, rfl,
      getF_advance_same (flushCaches s a.toNat all) _ _ _ (by decide), fun _ => rfl, rfl⟩

theorem flushTagDone_empties (hq : s.hub.flushQ = [f]) (hstarted : f.started.isSome = true) (hpending : flushPending s f = false)
    (hw : s.hub.flushWait = []) (hnone : NoneAwaitsFlush s) :
    ∃ t, exec .flushTagDone s = .next t ∧ t.hub.flushQ = [] ∧
      getF t rRhFlushStatus fRhFlushStatusDone = (getF s rRhFlushStatus fRhFlushStatusDone + f.software.toNat) % 2 ^ fRhFlushStatusDone.width ∧
      SameMemory s t := by
  generalize hs2 : ({ s with hub := { s.hub with flushQ := [] } } : State) = s2
  have hhub : (flushDone s2 f).hub = { s.hub with flushQ := [] } := by rw [flushDone_hub, ← hs2]
  have hpump : pumpFlushes (flushDone s2 f) = withFlushQ (flushDone s2 f) [] := pumpFlushes_nil (by rw [hhub]) (by rw [hhub]; exact hw)
  have hdone : NoneAwaitsFlush (withFlushQ (flushDone s2 f) []) := hnone.of_grans (congrArg (·.grans) hhub)
  have hexec := flushTagDone_completes hq hstarted hpending
  rw [hs2, hpump, hdone.afterFlushes_eq] at hexec
  refine ⟨_, hexec, rfl, ?_, ?_⟩
  · subst hs2
    exact getF_flushDone
  · subst hs2
    exact flushDone_flushed.sameMemory

end

/-! ### The statement -/

/-- Settles O28: a lookup decides between an answer and a walk; an answer to a consult request is what its own row says unless a flush met it; and
the queue of flushes runs from its front. -/
theorem rangeTranslation : Obligations.RangeTranslation := by
  unfold Obligations.RangeTranslation
  refine ⟨⟨fun _ _ _ _ => rangeCacheMiss_hit, ?_, ?_, ?_, fun _ _ => walkComplete_idle, ?_⟩, ⟨?_, ?_, ?_, ?_, ?_⟩,
    fun _ _ _ _ _ => flushTag_refused, ?_, fun _ _ _ _ _ _ => flushTag_starts, ?_, fun _ _ => flushTagDone_empties, fun _ => flushTagDone_idle⟩
  · intro s s2 r hmiss hroot
    rw [rangeCacheMiss_missed hmiss, beginWalk_rootOff hroot]
  · intro s s2 r hmiss hroot hfree
    refine ⟨_, rangeCacheMiss_missed hmiss, ?_⟩
    rw [beginWalk_starts hroot hfree]
    exact ⟨walksOf_setWalks, setWalks_nextId, setWalks_sameMemory⟩
  · intro s s2 r w hmiss hroot hwalk hsame
    refine ⟨_, rangeCacheMiss_missed hmiss, ?_⟩
    rw [beginWalk_joins hroot hwalk hsame]
    exact ⟨walksOf_setWalks, setWalks_nextId, setWalks_sameMemory⟩
  · intro s id c w hnamed hruns
    exact ⟨fun hclean _ _ => walkComplete_answers hnamed hruns hclean, walkComplete_restarts hnamed hruns⟩
  · intro s ag id c hright hnamed hclean
    rw [exec_rhReplyInstall hright hnamed, exec_rhReplyRefuse hright hnamed, hclean]
    exact ⟨rfl, rfl⟩
  · intro s id c hnamed
    rw [exec_consultTimeout hnamed]
    refine ⟨fun hclean hlate => ?_, fun hmet hlate => ?_, fun hearly => by rw [if_pos hearly]⟩
    · rw [if_neg (Nat.not_lt.2 hlate), hclean]
      rfl
    · rw [if_neg (Nat.not_lt.2 hlate), hmet]
      rfl
  · intro s ag id c hright hnamed hmet
    rw [exec_rhReplyInstall hright hnamed, exec_rhReplyRefuse hright hnamed, hmet]
    exact ⟨rfl, rfl⟩
  · intro s ag id hright hnone
    obtain ⟨hinstall, hrefuse⟩ := rhReply_unnamed hright hnone
    exact ⟨hinstall, hrefuse, consultTimeout_unnamed hnone⟩
  · intro s ag val hright
    exact ⟨exec_rhConsultPtrConsumer hright, fun hidle => (exec_rhConsultPtrConsumer hright).trans (congrArg _ (flushConsults_nil hidle))⟩
  · intro s ag a all drain f l hright hq hroom hstarted hdrain hsoft hw hnone
    exact ⟨_, flushTag_waits hright hq hroom hstarted hdrain hsoft hw hnone, rfl, rfl, rfl, rfl, fun _ => rfl, rfl⟩
  · intro s f l hq
    exact ⟨flushTagDone_waits hq, flushTagDone_completes hq⟩

end Sys2Proof.Machine
end

section
namespace Sys2Proof.Machine
open Sys2Proof

/-! PROOFS. Reads of an agent that caches nothing, and a server core's cache over DEVICE memory (O30).

A non-caching read answers the bytes of a current read, and beyond the count of the lines that an owner supplies it leaves the hub as it was
(`loadBytes_uncached`). A server core that caches lines of a DEVICE range makes those lines free and puts each in breach (`Breached`); nothing outside
them changes. -/

variable {s t : State} {r : MemReq} {a n i l x : Nat} {bs : Bytes}

/-! ### A current read (R272) -/

theorem loadBytes_uncached {own : Bool} (hc : caches r = none) : loadBytes t r true own =
    (bump t rOwnerSupply fOwnerSupply (ownedLines t r.mpa.toNat (reqBytes r)), cohRead t r.mpa.toNat (reqBytes r)) := by
  unfold caches at hc
  unfold loadBytes
  split at hc
  · next hcached => simp [hcached, hc]
  · next hcached => simp [hcached]

theorem cohRead_getD (hi : i < n) : (cohRead s a n).getD i 0 = currentByte s (a + i) := by
  simp [cohRead_eq_currentBytes, List.getD_eq_getElem?_getD, hi]

/-- A read of an agent that caches nothing: the lines an owner supplies are counted, and nothing else becomes of them. -/
theorem serve_current_read (h : Unrefused s r) (hk : KeepsR248 s r) (hw : reqWaits s r s.hub.nextId = false) (hecc : r.ecc = .ok)
    (hkind : r.kind = .read) (hsh : effShared s r.shared r.mpa.toNat = true) (hc : caches r = none) (h1 : r.hint ≠ 1) (h2 : r.hint ≠ 2)
    (hclean : mpaPoisoned s r.mpa.toNat r.len = false) :
    ∃ w, Touched s w r.mpa.toNat ∧
      serve s r = (bump w rOwnerSupply fOwnerSupply (ownedLines w r.mpa.toNat r.len), .data (cohRead s r.mpa.toNat r.len) false) := by
  have ht := atPlace_touched (s := s) hecc h1 h2
  have hlen : reqBytes r = r.len := by rw [reqBytes, hkind]
  refine ⟨atPlace s r, ht, ?_⟩
  rw [serve_unrefused h hk hw, hsh, serveNow_read (.inl hkind), loadBytes_uncached hc, hlen, ht.cohRead_eq]
  refine answerRead_clean ?_
  rw [length_cohRead]
  exact ht.mpaPoisoned_eq.trans hclean

/-! ### A span of memory given anew -/

theorem cellGet_append_of_notMem {m m' : List Host.Cell} (h : ∀ c ∈ m, c.1 ≠ x) : cellGet (m ++ m') x = cellGet m' x := by
  induction m with
  | nil => rfl
  | cons c m ih =>
    obtain ⟨hc, hm⟩ := List.forall_mem_cons.1 h
    rw [List.cons_append, cellGet, if_neg hc, ih hm]

theorem cellGet_of_notMem {m : List Host.Cell} (h : ∀ c ∈ m, c.1 ≠ x) : cellGet m x = 0 := by
  simpa [cellGet] using cellGet_append_of_notMem (m' := []) h

theorem cellGet_append_of_notMem_right {m m' : List Host.Cell} (h : ∀ c ∈ m', c.1 ≠ x) : cellGet (m ++ m') x = cellGet m x := by
  induction m with
  | nil => exact cellGet_of_notMem h
  | cons c m ih => rw [List.cons_append, cellGet, cellGet, ih]

theorem cellGet_filter {m : List Host.Cell} {p : Host.Cell → Bool} (h : ∀ c ∈ m, c.1 = x → p c = true) : cellGet (m.filter p) x = cellGet m x := by
  induction m with
  | nil => rfl
  | cons c m ih =>
    obtain ⟨hc, hm⟩ := List.forall_mem_cons.1 h
    by_cases hx : c.1 = x
    · rw [List.filter_cons_of_pos (hc hx), cellGet, if_pos hx, cellGet, if_pos hx]
    · rw [cellGet, if_neg hx, ← ih hm]
      by_cases hp : p c = true
      · rw [List.filter_cons_of_pos hp, cellGet, if_neg hx]
      · rw [List.filter_cons_of_neg hp]

theorem cellGet_cellsSplice_out {m : List Host.Cell} {f : Nat → Byte} (h : Outside x a n) : cellGet (cellsSplice m a n f) x = cellGet m x := by
  have hmid : ∀ c ∈ ((List.range n).map (fun i => (a + i, f (a + i)))).filter (fun (c : Nat × Byte) => decide (c.2 ≠ 0)), c.1 ≠ x := by
    intro c hc hx
    obtain ⟨i, hi, rfl⟩ := List.mem_map.1 (List.mem_filter.1 hc).1
    simp only [List.mem_range, Outside] at *
    omega
  unfold cellsSplice
  rcases h with hlow | hhigh
  · rw [cellGet_append_of_notMem_right, cellGet_filter]
    · exact fun c _ hx => decide_eq_true (hx ▸ hlow)
    · intro c hc hx
      rcases List.mem_append.1 hc with hc | hc
      · exact hmid c hc hx
      · have := of_decide_eq_true (List.mem_filter.1 hc).2
        omega
  · rw [cellGet_append_of_notMem, cellGet_append_of_notMem hmid, cellGet_filter]
    · exact fun c _ hx => decide_eq_true (hx ▸ hhigh)
    · intro c hc hx
      have := of_decide_eq_true (List.mem_filter.1 hc).2
      omega

theorem byteAt_scramble (h : Outside x a n) : byteAt (scramble s a n) x = byteAt s x := cellGet_cellsSplice_out h

theorem mem_poison_scramble (h : l ∈ (scramble s a n).poison) : l ∈ s.poison := List.mem_of_mem_filter h

/-! ### Lines in breach of R248 (R276) -/

/-- The lines `ls` are in breach; outside them every byte is as it was, and no line has become poisoned. -/
structure Breached (s t : State) (ls : List Nat) : Prop where
  rest : ∃ m p k br, t = { s with mem := m, poison := p, freeCtr := k, hub := { s.hub with breach := br } }
  noted : ∀ l ∈ ls, (homeLine s l, false) ∈ t.hub.breach
  outside : ∀ x, (∀ l ∈ ls, Outside x (64 * (locate s (64 * l) / 64)) 64) → byteAt t x = byteAt s x
  poison : ∀ x ∈ t.poison, x ∈ s.poison

theorem Breached.breachLine {ls : List Nat} (h : Breached s t ls) : Breached s (breachLine t l) (ls ++ [l]) := by
  obtain ⟨⟨m, p, k, br, rfl⟩, hnoted, houtside, hpoison⟩ := h
  refine ⟨⟨_, _, _, _, rfl⟩, fun y hy => ?_, fun x hx => ?_, fun x hx => hpoison x (mem_poison_scramble hx)⟩
  · change _ ∈ (homeLine s l, false) :: br.filter (fun y => decide (y.1 ≠ homeLine s l))
    by_cases heq : homeLine s y = homeLine s l
    · rw [heq]
      exact List.mem_cons_self
    · rcases List.mem_append.1 hy with hy | hy
      · exact List.mem_cons_of_mem _ (List.mem_filter.2 ⟨hnoted y hy, decide_eq_true heq⟩)
      · exact absurd (congrArg _ (List.mem_singleton.1 hy)) heq
  · obtain ⟨hls, hl⟩ := List.forall_mem_append.1 hx
    exact (byteAt_scramble (hl l (List.mem_singleton_self l))).trans (houtside x hls)

theorem breachLines_breached : Breached s (breachLines s a n) (linesOf a n) := by
  unfold breachLines
  induction linesOf a n using List.reverseRecOn with
  | nil => exact ⟨⟨_, _, _, _, rfl⟩, fun _ hy => absurd hy List.not_mem_nil, fun _ _ => rfl, fun _ hx => hx⟩
  | append_singleton ls l ih =>
    rw [List.foldl_append]
    exact ih.breachLine

theorem Breached.mpaPoisoned_eq_false {ls : List Nat} (h : Breached s t ls) (hclean : mpaPoisoned s a n = false) : mpaPoisoned t a n = false := by
  obtain ⟨⟨m, p, k, br, rfl⟩, -, -, hpoison⟩ := h
  simp only [mpaPoisoned, List.any_eq_false, linePoisoned, Bool.or_eq_true, List.elem_eq_mem, decide_eq_true_eq, not_or] at hclean ⊢
  intro l hl
  obtain ⟨hsound, halive⟩ := hclean l hl
  exact ⟨fun hp => hsound (hpoison _ hp), halive⟩

theorem effShared_device : effShared s false a = false := by
  unfold effShared
  split <;> rfl

/-- The state after the reactions to what a server core's cache takes: lines noted for a scan (R279), lines in breach (R276). -/
def reacted (s : State) (r : MemReq) : State := breached (noteStale s r r.mpa.toNat (reqBytes r)) r

/-- An access that nothing refuses or holds back, and that its agent's cache does not answer. -/
theorem serve_missed (h : Unrefused s r) (hw : reqWaits s r s.hub.nextId = false) (hpeek : r.kind ≠ .peek)
    (hmiss : cacheHit (reacted s r) (caches r) (effShared s r.shared r.mpa.toNat) r = false) :
    serve s r = serveNow (touched (reacted s r) r) r (effShared s r.shared r.mpa.toNat) true := by
  obtain ⟨hstale, hn, hecc, href⟩ := h
  have hserve : serve s r =
      let hit := cacheHit (reacted s r) (caches r) (effShared s r.shared r.mpa.toNat) r
      serveNow (if r.kind = .peek ∨ hit then reacted s r
        else touchSpan (reacted s r) r.mpa.toNat (reqBytes r) r.astag.toNat r.hint.toNat) r (effShared s r.shared r.mpa.toNat) hit := by
    simp only [serve, serveAs, hstale, hn, hecc, href, hw, if_false, Bool.false_eq_true]
    rfl
  rw [hserve]
  simp only [hmiss, hpeek, Bool.false_eq_true, or_self, if_false]
  exact serveNow_reqEcc

theorem reacted_of_device {c : Fin 128} {p : Priv} (hag : r.agent = .core c p) (hcached : r.cached = true) (hsh : r.shared = false) :
    reacted s r = breachLines s r.mpa.toNat (reqBytes r) := by
  have hnote : noteStale s r r.mpa.toNat (reqBytes r) = s := by
    unfold noteStale
    split
    · simp [hsh]
    · rfl
  rw [reacted, hnote]
  simp [breached, hag, hcached, hsh]

/-- A server core's read that its cache takes although the range has DEVICE bias. -/
theorem serve_in_breach {c : Fin 128} {p : Priv} (h : Unrefused s r) (hag : r.agent = .core c p) (hcached : r.cached = true) (hsh : r.shared = false)
    (hecc : r.ecc = .ok) (hkind : r.kind = .read) (h1 : r.hint ≠ 1) (h2 : r.hint ≠ 2) (hclean : mpaPoisoned s r.mpa.toNat r.len = false) :
    ∃ w bs, Touched (breachLines s r.mpa.toNat r.len) w r.mpa.toNat ∧ serve s r = (w, .data bs false) := by
  have hlen : reqBytes r = r.len := by rw [reqBytes, hkind]
  have hdev : effShared s r.shared r.mpa.toNat = false := by rw [hsh, effShared_device]
  have hreacted : reacted s r = breachLines s r.mpa.toNat r.len := by rw [reacted_of_device hag hcached hsh, hlen]
  have hserve := serve_missed h (by simp [reqWaits, reqWrites, hkind, hdev]) (by simp [hkind]) (by simp [cacheHit, hdev])
  have ht : Touched (breachLines s r.mpa.toNat r.len) (touched (breachLines s r.mpa.toNat r.len) r) r.mpa.toNat := touched_touched hecc h1 h2
  rw [hreacted, hdev] at hserve
  generalize touched (breachLines s r.mpa.toNat r.len) r = w at ht hserve
  refine ⟨w, mpaRead w r.mpa.toNat r.len, ht, ?_⟩
  rw [hserve, serveNow_read (.inl hkind), loadBytes_device, hlen]
  refine answerRead_clean ?_
  rw [length_mpaRead, ht.mpaPoisoned_eq]
  exact breachLines_breached.mpaPoisoned_eq_false hclean

/-! ### The statement -/

/-- Settles O30: a non-caching read is a current read, and a server core's cache over a DEVICE range puts its lines in breach. -/
theorem nonCachingReadsAreCurrentReads : Obligations.NonCachingReadsAreCurrentReads := by
  unfold Obligations.NonCachingReadsAreCurrentReads
  refine ⟨?_, ?_⟩
  · intro s r h hk hw hidle hecc hkind hsh hc h1 h2 hclean
    obtain ⟨w, ht, hserve⟩ := serve_current_read (unrefused_of_admitted h) hk hw hecc hkind hsh hc h1 h2 hclean
    have hkeeps := ht.keepsAnswers
    refine ⟨_, _, h.answered hserve (hkeeps.stalled.trans hidle), congrArg (· ++ _) hkeeps.accOut, ht.dir_eq, ht.sameMemory, ?_, ?_⟩
    · intro i d b hi hd ho hb
      rw [cohRead_getD hi, currentByte_of_owner hd ho hb]
    · intro i hi hno
      rw [cohRead_getD hi]
      cases hd : dirFind s ((r.mpa.toNat + i) / 64) with
      | none => exact currentByte_of_unlisted hd
      | some d => exact currentByte_of_no_data hd (.inl (hno d hd))
  · intro s r c p h hag hcached hsh hidle hecc hkind h1 h2 hclean _
    obtain ⟨w, bs, ht, hserve⟩ := serve_in_breach (unrefused_of_admitted h) hag hcached hsh hecc hkind h1 h2 hclean
    obtain ⟨⟨m, p, k, br, hrest⟩, hnoted, houtside, -⟩ := breachLines_breached (s := s) (a := r.mpa.toNat) (n := r.len)
    have hstalled : w.hub.stalled = [] := by rw [ht.keepsAnswers.stalled, hrest, hidle]
    refine ⟨_, h.answered hserve hstalled, fun l hl => ?_, fun x hx => ?_⟩
    · exact (congrArg (_ ∈ ·) ht.breach).mpr (hnoted l hl)
    · exact (ht.sameMemory.1 x).trans (houtside x hx)

end Sys2Proof.Machine
end

section
namespace Sys2Proof.Machine
open Sys2Proof

/-! PROOFS. The queue of bias changes (O39).

The oldest request's flush is queued once and the queue of flushes runs (`biasFlush`, `pumpFlushes`), which leaves the directory and the time as they
were (`KeepsDir`). When nothing of the change is waited for, `biasMade` ends it: its scan takes every line of the span out of the directory
(`scanLines_scanned`), the queue moves on and DONE rises. -/

variable {s t s2 : State} {ag : Agent} {b : BiasReq} {l : List BiasReq} {line : Nat}

/-! ### Requests (R278) -/

/-- The span lies in the bulk or stacked tier, at home addresses. -/
def biasSpanOk (s : State) (a n : Nat) : Bool :=
  match spanRegion s a n with
  | some .bulk => true
  | some .spread => decide (a + n ≤ frameAddr (poolFirst s))
  | some (.direct _) => directOpen s a n
  | _ => false

/-- The request that DIR_BIAS_REQ names with the current span. -/
def biasRequest (s : State) (astag : BitVec 16) (all toShared : Bool) : BiasReq :=
  { start := getF s rDirBiasSpan fDirBiasSpanStart * 65536, len := getF s rDirBiasLen fDirBiasLenLength * 65536, astag := astag.toNat, all := all,
    toShared := toShared }

/-- One request more in the queue. -/
def biasQueued (s : State) (b : BiasReq) : State :=
  setF { s with hub := { s.hub with biasQ := s.hub.biasQ ++ [b] } } rDirBiasStatus fDirBiasStatusQueued (s.hub.biasQ ++ [b]).length

section
variable {a : BitVec 16} {all sh : Bool} (hright : regRight s ag rDirBiasReq.key = true)
include hright

theorem exec_dirBiasReq : exec (.dirBiasReq ag a all sh) s = .next
    (if 4 ≤ s.hub.biasQ.length ∨ ¬biasSpanOk s (biasRequest s a all sh).start (biasRequest s a all sh).len then setF s rDirBiasStatus fDirBiasStatusRefused 1
      else biasQueued s (biasRequest s a all sh)) := by
  change execDirBiasReq ag a all sh s = _
  rw [execDirBiasReq, guarded_right _ _ _ _ hright]
  rfl

theorem dirBiasReq_joins (hroom : s.hub.biasQ.length < 4) (hok : biasSpanOk s (biasRequest s a all sh).start (biasRequest s a all sh).len = true) :
    exec (.dirBiasReq ag a all sh) s = .next (biasQueued s (biasRequest s a all sh)) := by
  rw [exec_dirBiasReq hright, if_neg (not_or_intro (Nat.not_le.2 hroom) (not_not.2 hok))]

theorem dirBiasReq_refused (h : 4 ≤ s.hub.biasQ.length ∨ biasSpanOk s (biasRequest s a all sh).start (biasRequest s a all sh).len = false) :
    exec (.dirBiasReq ag a all sh) s = .next (setF s rDirBiasStatus fDirBiasStatusRefused 1) := by
  rw [exec_dirBiasReq hright, if_pos (h.imp_right (ne_true_of_eq_false ·))]

end

theorem biasQueued_status (hroom : s.hub.biasQ.length < 4) :
    getF (biasQueued s b) rDirBiasStatus fDirBiasStatusQueued = s.hub.biasQ.length + 1 := by
  have hwidth : 2 ^ fDirBiasStatusQueued.width = 8 := by decide
  rw [biasQueued, getF_setF_same _ _ _ _ (by decide), hwidth, List.length_append, List.length_singleton]
  omega

theorem biasQueued_sameRegsBut : SameRegsBut [rDirBiasStatus.key] s (biasQueued s b) := fun _ hq =>
  getR_setR_ne _ _ _ _ fun hk => hq (List.mem_singleton.2 hk.symm)

/-! ### The flush of a change (R278, step 2) -/

/-- The directory and the time are as they were. -/
structure KeepsDir (s t : State) : Prop where
  dir : t.hub.dir = s.hub.dir
  time : t.time = s.time

namespace KeepsDir

theorem refl : KeepsDir s s := ⟨rfl, rfl⟩

theorem trans (h : KeepsDir s t) (h2 : KeepsDir t s2) : KeepsDir s s2 := ⟨h2.dir.trans h.dir, h2.time.trans h.time⟩

theorem heldLine_eq (h : KeepsDir s t) {bit : Option Nat} : heldLine t bit line = heldLine s bit line := by
  simp only [heldLine, lineHeld, dirFind, h.dir, h.time]

end KeepsDir

theorem flushDone_keepsDir {f : Flush} : KeepsDir s (flushDone s f) := by
  unfold flushDone
  split
  · exact ⟨rfl, rfl⟩
  · exact .refl

theorem runFlushes_keepsDir {fs : List Flush} : KeepsDir s (runFlushes s fs) := by
  induction fs generalizing s with
  | nil => exact ⟨rfl, rfl⟩
  | cons f fs ih =>
    rw [runFlushes]
    cases f.started with
    | none =>
      have hcaches : KeepsDir s (flushCaches s f.astag f.all) := ⟨rfl, rfl⟩
      dsimp only
      split
      · exact hcaches.trans ⟨rfl, rfl⟩
      · exact (hcaches.trans flushDone_keepsDir).trans ih
    | some n =>
      dsimp only
      split
      · exact ⟨rfl, rfl⟩
      · exact flushDone_keepsDir.trans ih

theorem biasFlush_flushed : Flushed s (biasFlush s b l) := by
  unfold biasFlush
  split
  · exact .refl
  · exact ⟨rfl, rfl, rfl, rfl, rfl, rfl, rfl, fun _ _ => rfl⟩

theorem biasFlush_keepsDir : KeepsDir s (biasFlush s b l) := by
  unfold biasFlush
  split
  · exact .refl
  · exact ⟨rfl, rfl⟩

/-- The state in which the oldest change has its flush queued and the queue of flushes has run. -/
def biasPumped (s : State) (b : BiasReq) (l : List BiasReq) : State := pumpFlushes (biasFlush s b l)

theorem biasPumped_flushed : Flushed s (biasPumped s b l) := biasFlush_flushed.trans pumpFlushes_flushed

theorem biasPumped_keepsDir : KeepsDir s (biasPumped s b l) :=
  biasFlush_keepsDir.trans (runFlushes_keepsDir.trans ⟨rfl, rfl⟩)

/-! ### The scan (R278, step 3; R279) -/

theorem mem_dir_recallLine {discard : Bool} {d : DirEnt} (h : d ∈ (recallLine s line discard).hub.dir) : d ∈ s.hub.dir ∧ d.line ≠ line := by
  unfold recallLine at h
  split at h
  · next hnone => exact ⟨h, fun hd => by simpa [hd] using List.find?_eq_none.1 hnone d h⟩
  · have hdrop : ∀ u : State, u.hub = s.hub → d ∈ (dirDrop u line).hub.dir → d ∈ s.hub.dir ∧ d.line ≠ line := by
      intro u hu hd
      obtain ⟨hmem, hne⟩ := List.mem_filter.1 hd
      exact ⟨hu ▸ hmem, by simpa using hne⟩
    refine hdrop _ ?_ h
    rw [bump_hub]
    split
    · split <;> rfl
    · rfl

theorem getR_recallLine {discard : Bool} {q : Reg} (hq : rInvalidations.key ≠ q.key) : getR (recallLine s line discard) q = getR s q := by
  unfold recallLine
  split
  · rfl
  · refine (getR_setR_ne _ _ _ _ hq).trans ?_
    split
    · split <;> rfl
    · rfl

/-- A scanned line is recalled, and may be found in breach by a free choice. -/
theorem scanLine_cases : ∃ k, scanLine s b line = recallLine { s with freeCtr := k } line false ∨
    scanLine s b line = breachLine (recallLine { s with freeCtr := k } line false) line := by
  unfold scanLine
  split
  · refine ⟨s.freeCtr + 1, ?_⟩
    dsimp only [drawFree]
    split
    · exact .inr rfl
    · exact .inl rfl
  · exact ⟨s.freeCtr, .inl rfl⟩

/-- No entry is new or for one of the lines `ls`, and only the count of invalidations has changed. -/
structure Scanned (s t : State) (ls : List Nat) : Prop where
  dir : ∀ d ∈ t.hub.dir, d ∈ s.hub.dir ∧ d.line ∉ ls
  regs : ∀ q : Reg, rInvalidations.key ≠ q.key → getR t q = getR s q

theorem scanLine_scanned : Scanned s (scanLine s b line) [line] := by
  obtain ⟨k, h | h⟩ := scanLine_cases (s := s) (b := b) (line := line)
  all_goals
    rw [h]
    refine ⟨fun d hd => ?_, fun q hq => (getR_recallLine (s := { s with freeCtr := k }) hq :)⟩
    obtain ⟨hmem, hne⟩ := mem_dir_recallLine (s := { s with freeCtr := k }) hd
    exact ⟨hmem, fun hin => hne (List.mem_singleton.1 hin)⟩

theorem scanLines_scanned {ds : List DirEnt} :
    Scanned s (ds.foldl (fun s d => scanLine s b d.line) s) (ds.map (·.line)) := by
  induction ds generalizing s with
  | nil => exact ⟨fun _ hd => ⟨hd, List.not_mem_nil⟩, fun _ _ => rfl⟩
  | cons d ds ih =>
    obtain ⟨hdir, hregs⟩ := ih (s := scanLine s b d.line)
    obtain ⟨hdir1, hregs1⟩ := scanLine_scanned (s := s) (b := b) (line := d.line)
    refine ⟨fun x hx => ?_, fun q hq => (hregs q hq).trans (hregs1 q hq)⟩
    obtain ⟨hmem, hrest⟩ := hdir x hx
    obtain ⟨hmem1, hne⟩ := hdir1 x hmem
    exact ⟨hmem1, fun hin => (List.mem_cons.1 hin).elim (fun heq => hne (List.mem_singleton.2 heq)) hrest⟩

/-! ### The end of a change (R278) -/

/-- For DEVICE the lines of the span leave the directory. -/
def biasScanned (s : State) (b : BiasReq) : State :=
  if b.toShared then s else (s.hub.dir.filter (fun d => inBias b d.line)).foldl (fun s d => scanLine s b d.line) s

/-- The change is made: the queue moves on, DONE rises and the MSI is sent. -/
def biasMade (s : State) (b : BiasReq) (l : List BiasReq) : State :=
  let s := { biasScanned s b with hub := { (biasScanned s b).hub with biasQ := l } }
  let s := advance (setF s rDirBiasStatus fDirBiasStatusQueued l.length) rDirBiasStatus fDirBiasStatusDone 1
  sendMsi s (getR s rDirBiasMsiAddr).toNat (getR s rDirBiasMsiData).toNat

theorem biasScanned_shared (h : b.toShared = true) : biasScanned s b = s := if_pos h

theorem getR_biasScanned {q : Reg} (hq : rInvalidations.key ≠ q.key) : getR (biasScanned s b) q = getR s q := by
  unfold biasScanned
  split
  · rfl
  · exact scanLines_scanned.regs q hq

theorem inBias_of_mem_biasScanned (h : b.toShared = false) {d : DirEnt} (hd : d ∈ (biasScanned s b).hub.dir) : inBias b d.line = false := by
  rw [biasScanned, if_neg (by simp [h])] at hd
  obtain ⟨hmem, hno⟩ := scanLines_scanned.dir d hd
  by_contra hin
  exact hno (List.mem_map_of_mem (List.mem_filter.2 ⟨hmem, by simpa using hin⟩))

theorem sendMsi_rest {a n : Nat} : ∃ x, sendMsi s a n = { s with mgmt := x } := by
  unfold sendMsi
  split
  · exact ⟨_, rfl⟩
  · dsimp only
    split
    · unfold imsicSet
      split <;> exact ⟨_, rfl⟩
    · exact ⟨_, rfl⟩

/-- What the end of a change leaves of the scan's state. -/
theorem biasMade_rest : (biasMade s b l).hub = { (biasScanned s b).hub with biasQ := l } ∧ SameMemory (biasScanned s b) (biasMade s b l) := by
  unfold biasMade
  dsimp only
  generalize hs2 : advance (setF { biasScanned s b with hub := { (biasScanned s b).hub with biasQ := l } } rDirBiasStatus fDirBiasStatusQueued l.length)
    rDirBiasStatus fDirBiasStatusDone 1 = s2
  obtain ⟨x, hx⟩ := sendMsi_rest (s := s2) (a := (getR s2 rDirBiasMsiAddr).toNat) (n := (getR s2 rDirBiasMsiData).toNat)
  rw [hx, ← hs2]
  exact ⟨rfl, sameMemory_of_eq rfl rfl⟩

theorem biasMade_done : getF (biasMade s b l) rDirBiasStatus fDirBiasStatusDone =
    (getF s rDirBiasStatus fDirBiasStatusDone + 1) % 2 ^ fDirBiasStatusDone.width := by
  unfold biasMade
  dsimp only
  generalize hs1 : ({ biasScanned s b with hub := { (biasScanned s b).hub with biasQ := l } } : State) = s1
  have hmsi : ∀ (u : State) (a n : Nat), getF (sendMsi u a n) rDirBiasStatus fDirBiasStatusDone = getF u rDirBiasStatus fDirBiasStatusDone := by
    intro u a n
    obtain ⟨x, hx⟩ := sendMsi_rest (s := u) (a := a) (n := n)
    rw [hx]
    rfl
  have hscan : getF s1 rDirBiasStatus fDirBiasStatusDone = getF s rDirBiasStatus fDirBiasStatusDone := by
    subst hs1
    exact congrArg (fget · _) (getR_biasScanned (by decide))
  rw [hmsi, getF_advance_same _ _ _ _ (by decide), getF_setF_apart _ _ _ _ _ (by decide) (by decide) (by decide), hscan]

/-- A line of the span is within its owner's hold. -/
def biasHeld (s : State) (b : BiasReq) : Prop := ∃ d ∈ s.hub.dir, inBias b d.line = true ∧ heldLine s none d.line = true

theorem biasHeld_iff : s.hub.dir.any (fun d => inBias b d.line && heldLine s none d.line) = true ↔ biasHeld s b := by
  simp only [List.any_eq_true, Bool.and_eq_true, biasHeld]

theorem biasHeld_biasPumped : biasHeld (biasPumped s b l) b ↔ biasHeld s b := by
  simp only [biasHeld, biasPumped_keepsDir.dir, biasPumped_keepsDir.heldLine_eq]

/-! ### BIAS_CHANGE_DONE -/

theorem biasChangeDone_idle (hq : s.hub.biasQ = []) : exec .biasChangeDone s = .next s := by
  change execBiasChangeDone s = _
  rw [execBiasChangeDone, hq]

section
variable (hq : s.hub.biasQ = b :: l)
include hq

theorem biasChangeDone_migrates (hmig : migrationStalls s b.start b.len = true) : exec .biasChangeDone s = .next s := by
  change execBiasChangeDone s = _
  simp only [execBiasChangeDone, hq, hmig, if_true]

variable (hmig : migrationStalls s b.start b.len = false) (hnone : NoneAwaitsFlush s)
include hmig hnone

/-- What the oldest change waits for, once no granule of its span migrates, is decided where its flush has run. -/
theorem exec_biasChangeDone : exec .biasChangeDone s = .next
    (if biasFlushing (biasPumped s b l) = true ∨
        ((biasPumped s b l).hub.dir.any (fun d => inBias b d.line && heldLine (biasPumped s b l) none d.line) = true ∧ ¬b.toShared = true)
      then biasPumped s b l else biasMade (biasPumped s b l) b l) := by
  have hafter : afterFlushes (pumpFlushes (biasFlush s b l)) = biasPumped s b l := (hnone.of_grans biasPumped_flushed.grans).afterFlushes_eq
  change execBiasChangeDone s = _
  simp only [execBiasChangeDone, hq, hmig, hafter, if_false, Bool.false_eq_true]
  rfl

theorem biasChangeDone_waits (h : biasFlushing (biasPumped s b l) = true ∨ (b.toShared = false ∧ biasHeld s b)) :
    exec .biasChangeDone s = .next (biasPumped s b l) := by
  rw [exec_biasChangeDone hq hmig hnone, if_pos]
  refine h.imp_right fun ⟨hdev, hheld⟩ => ⟨?_, by simp [hdev]⟩
  exact biasHeld_iff.2 (biasHeld_biasPumped.2 hheld)

theorem biasChangeDone_makes (hdrained : biasFlushing (biasPumped s b l) = false) (h : b.toShared = true ∨ ¬biasHeld s b) :
    exec .biasChangeDone s = .next (biasMade (biasPumped s b l) b l) := by
  rw [exec_biasChangeDone hq hmig hnone, if_neg]
  rw [biasHeld_iff, biasHeld_biasPumped, hdrained]
  rintro (hflush | ⟨hheld, hdev⟩)
  · cases hflush
  · exact h.elim hdev (· hheld)

end

/-! ### The statement -/

/-- Settles O39: a request joins the queue or is refused, and the oldest change waits or is made. -/
theorem biasChangesRunInOrder : Obligations.BiasChangesRunInOrder := by
  unfold Obligations.BiasChangesRunInOrder
  refine ⟨?_, ?_, fun s => biasChangeDone_idle, fun s b l => biasChangeDone_migrates, fun s b l => biasChangeDone_waits, ?_⟩
  · intro s ag a all sh hright hroom base n hspan
    have hok : biasSpanOk s base n = true := by
      unfold biasSpanOk
      rcases hspan with hbulk | ⟨hspread, hhome⟩ | ⟨⟨d, hdirect⟩, hopen⟩
      · rw [hbulk]
      · rw [hspread]
        exact decide_eq_true hhome
      · rw [hdirect]
        exact hopen
    exact ⟨_, dirBiasReq_joins hright hroom hok, rfl, biasQueued_status hroom, biasQueued_sameRegsBut, sameMemory_of_eq rfl rfl⟩
  · intro s ag a all sh hright h
    refine dirBiasReq_refused hright (h.imp_right fun hflash => ?_)
    rw [biasSpanOk, biasRequest, hflash]
  · intro s b l hq hmig hnone hdrained h
    obtain ⟨hhub, hmem⟩ := biasMade_rest (s := biasPumped s b l) (b := b) (l := l)
    have hflushed := biasPumped_flushed (s := s) (b := b) (l := l)
    have hmakes : b.toShared = true ∨ ¬biasHeld s b := h.imp_right fun hfree ⟨d, hd, hin, hheld⟩ => by simp [hfree d hd hin] at hheld
    refine ⟨_, biasChangeDone_makes hq hmig hnone hdrained hmakes, by rw [hhub], ?_, fun hshared => ?_, fun hdev d hd => ?_⟩
    · rw [biasMade_done]
      exact congrArg (fun v => (fget v _ + 1) % _) (hflushed.regs _ (by decide))
    · rw [hhub, biasScanned_shared hshared, biasPumped_keepsDir.dir]
      rw [biasScanned_shared hshared] at hmem
      exact ⟨rfl, hflushed.sameMemory.trans hmem⟩
    · rw [hhub] at hd
      exact inBias_of_mem_biasScanned hdev hd

end Sys2Proof.Machine
end

section
namespace Sys2Proof.Machine
open Sys2Proof

/-! PROOFS. Coherent reads of a caching agent (O38).

RD_SHARED and RD_OWN send their snoops and are served (`cohRequest_serves`). For a line without an entry the directory makes room and takes a new entry of
the reader (`takeLine_unlisted`), and the bytes of the line are the answer (`serve_unlisted`). -/

variable {s t s2 : State} {l : Fin 19} {m : PlaMsg} {r : MemReq} {c : Instr} {own : Bool} {a n b line : Nat} {bs : Bytes}

/-! ### The rows -/

/-- The kind of access that a coherent read asks for. -/
def cohKind (own : Bool) : MemKind := if own then .own else .read

/-- The read's snoops are sent (R270). -/
def snooped (s : State) (r : MemReq) (b : Nat) (own : Bool) : State :=
  (linesOf r.mpa.toNat r.len).foldl (fun s line => snoopsFor s (some b) own line) s

theorem exec_rdShared (h : PlaRow.Arrives ⟨.rdShared, 1, false, 0, false⟩ s l m) :
    exec (.rdShared l m) s = .next (pumpFlits (cohRequest (takeCredits s l m) l m false (.rdShared l m)) l) := congrArg _ (plaMessage_arrives h)

theorem exec_rdOwn (h : PlaRow.Arrives ⟨.rdOwn, 1, false, 1, false⟩ s l m) :
    exec (.rdOwn l m) s = .next (pumpFlits (cohRequest (takeCredits s l m) l m true (.rdOwn l m)) l) := congrArg _ (plaMessage_arrives h)

theorem cohRequest_of_no_cache (h : presenceBit (plaSource l m) = none) : cohRequest s l m own c = plaReply s l m 8 [] 0 := by
  unfold cohRequest
  change (match presenceBit (plaSource l m) with | none => _ | some b => _) = _
  rw [h]

theorem cohRequest_serves (hb : presenceBit (plaSource l m) = some b) (hr : plaReq s l m (cohKind own) true none = r) (href : refusal s r = none) :
    cohRequest s l m own c = plaServe (snooped s r b own) l m c { r with shared := true } := by
  subst hr
  unfold cohRequest
  change (match presenceBit (plaSource l m) with | none => _ | some b => if (refusal s (plaReq s l m (cohKind own) true none)).isSome = true then _ else _) = _
  rw [hb, href]
  rfl

/-! ### A new entry of the directory (R267, R268) -/

theorem LineRest.trans (h : LineRest s t) (h2 : LineRest t s2) : LineRest s s2 := by
  obtain ⟨_, _, _, _, rfl⟩ := h
  obtain ⟨regs, m, dir, resv, rfl⟩ := h2
  exact ⟨regs, m, dir, resv, rfl⟩

theorem LineRest.time (h : LineRest s t) : t.time = s.time := by
  obtain ⟨_, _, _, _, rfl⟩ := h
  rfl

theorem recallLine_lineRest {discard : Bool} : LineRest s (recallLine s line discard) := by
  unfold recallLine
  split
  · exact ⟨_, _, _, _, rfl⟩
  · split
    · split <;> exact ⟨_, _, _, _, rfl⟩
    · exact ⟨_, _, _, _, rfl⟩

theorem dirRoom_lineRest : LineRest s (dirRoom s line) := by
  unfold dirRoom
  split
  · exact ⟨_, _, _, _, rfl⟩
  · dsimp only
    split
    · exact ⟨_, _, _, _, rfl⟩
    · split
      · exact recallLine_lineRest.trans ⟨_, _, _, _, rfl⟩
      · exact ⟨_, _, _, _, rfl⟩

/-- An agent that gains a line without an entry is its one holder. -/
theorem takeLine_unlisted (h : dirFind s line = none) : ∃ d, LineRest s (takeLine own s b line) ∧ dirFind (takeLine own s b line) line = some d ∧
    d.owned = own ∧ d.pv = [b] ∧ (own = true → d.hold = some (s.time + holdNs)) := by
  have hroom := dirRoom_lineRest (s := s) (line := line)
  have hput : ∀ d : DirEnt, LineRest s (dirPut (dirRoom s line) d) := fun d => hroom.trans ⟨_, _, _, _, rfl⟩
  cases own
  · have htake : takeLine false s b line =
        dirPut (dirRoom s line) { line := line, owned := false, pv := [b], data := none, hold := none, waiters := [] } := by
      simp only [takeLine, coreReadLine, h, if_false, Bool.false_eq_true]
    rw [htake]
    exact ⟨_, hput _, dirFind_dirPut, rfl, rfl, nofun⟩
  · have htake : takeLine true s b line = dirPut (dirRoom s line)
        { line := line, owned := true, pv := [b], data := some (cohRead (dirRoom s line) (64 * line) 64), hold := some ((dirRoom s line).time + holdNs),
          waiters := [] } := by
      simp only [takeLine, coreOwnLine, h, if_true]
    rw [htake, hroom.time]
    exact ⟨_, hput _, dirFind_dirPut, rfl, rfl, fun _ => rfl⟩

/-! ### The access of a coherent read -/

/-- One line's coherent read of the caching agent `b`. -/
structure CohRead (r : MemReq) (b line : Nat) (own : Bool) : Prop where
  kind : r.kind = cohKind own
  shared : r.shared = true
  caches : caches r = some b
  lines : linesOf r.mpa.toNat r.len = [line]
  sized : r.len ≠ 0
  sound : r.ecc = .ok
  notAuto : r.hint ≠ 1
  notHighFirst : r.hint ≠ 2

namespace CohRead

variable (h : CohRead r b line own)
include h

theorem reads : reqWrites r = false ∧ reqBytes r = r.len ∧ r.kind ≠ .peek := by
  have hkind := h.kind
  cases own <;> simp [reqWrites, reqBytes, hkind, cohKind]

theorem serveNow_eq : serveNow t r true true = answerRead (loadBytes t r true own).1 r (loadBytes t r true own).2 := by
  have hkind := h.kind
  cases own
  · exact serveNow_read (.inl hkind)
  · exact serveNow_own hkind

theorem fresh : staleUnit s r = none := by
  obtain ⟨hreads, -, -⟩ := h.reads
  rw [staleUnit, hreads]
  split <;> rfl

theorem awake : sleepingStore s r = none := by
  obtain ⟨hreads, -, -⟩ := h.reads
  rw [sleepingStore, hreads]

end CohRead

/-- A cacheable read of SHARED memory is at most noted for the scan of a bias change (R279). -/
theorem reacted_of_shared (h : r.shared = true) : ∃ q, reacted s r = { s with hub := { s.hub with biasQ := q } } := by
  have hbreached : ∀ u : State, breached u r = u := by
    intro u
    unfold breached
    split
    · simp [h]
    · rfl
  rw [reacted, hbreached]
  unfold noteStale
  split
  · split <;> exact ⟨_, rfl⟩
  · exact ⟨_, rfl⟩

theorem effShared_bulk (h : regionOf s a = some .bulk) : effShared s true a = true := by rw [effShared, h]

/-- Nothing at the hub holds back a read of a line without an entry. -/
theorem CohRead.reqWaits_eq_false (h : CohRead r b line own) (hnone : dirFind s line = none) (hstalled : s.hub.stalled = []) (hwrites : s.hub.writes = [])
    (hblocked : dirBlocked s line = false) : reqWaits s r n = false := by
  obtain ⟨hreads, hlen, -⟩ := h.reads
  have hline : ∀ bit, lineWaits s bit n line = false := by simp [lineWaits, ownsLine, heldLine, hnone, hwrites, hstalled]
  simp [reqWaits, hreads, hlen, h.lines, hline, hblocked]

/-- A coherent read of a line without an entry: the line is answered, and its reader is its one holder. -/
theorem CohRead.serve_unlisted (h : CohRead r b line own) (href : refusal s r = none) (hregion : regionOf s r.mpa.toNat = some .bulk)
    (hnone : dirFind s line = none) (hclean : mpaPoisoned s r.mpa.toNat r.len = false) (hstalled : s.hub.stalled = []) (hwrites : s.hub.writes = [])
    (hblocked : dirBlocked s line = false) :
    ∃ w bs d, serve s r = (w, .data bs false) ∧ KeepsAnswers s w ∧ dirFind w line = some d ∧ d.owned = own ∧ d.pv = [b] ∧
      (own = true → d.hold = some (s.time + holdNs)) := by
  obtain ⟨hreads, hlen, hpeek⟩ := h.reads
  have hsh : effShared s r.shared r.mpa.toNat = true := by rw [h.shared, effShared_bulk hregion]
  have hwait := h.reqWaits_eq_false (n := s.hub.nextId) hnone hstalled hwrites hblocked
  obtain ⟨q, hreacted⟩ := reacted_of_shared (s := s) h.shared
  have hserve := serve_missed ⟨h.fresh, by rw [hlen]; exact h.sized, by simp [h.sound], href⟩ hwait hpeek (by
    have hnone1 : dirFind (reacted s r) line = none := by rw [hreacted, ← hnone]; rfl
    simp [cacheHit, hlen, h.lines, h.caches, hnone1])
  rw [hsh, hreacted] at hserve
  generalize hs1 : ({ s with hub := { s.hub with biasQ := q } } : State) = s1 at hserve
  have ht : Touched s1 (touched s1 r) r.mpa.toNat := touched_touched h.sound h.notAuto h.notHighFirst
  generalize touched s1 r = w at ht hserve
  obtain ⟨d, hrest, hfound, hown, hpv, hhold⟩ := takeLine_unlisted (s := w) (line := line) (own := own) (b := b) (ht.dirFind_eq.trans (hs1 ▸ hnone))
  refine ⟨takeLine own w b line, cohRead (takeLine own w b line) r.mpa.toNat r.len, d, ?_, ?_, hfound, hown, hpv, fun ho => ?_⟩
  · rw [hserve, h.serveNow_eq, loadBytes_cached h.caches (by rw [hlen, h.lines]), hlen]
    refine answerRead_clean ?_
    rw [length_cohRead, hrest.mpaPoisoned_eq, ht.mpaPoisoned_eq]
    exact hs1 ▸ hclean
  · exact .trans (hs1 ▸ ⟨rfl, rfl, rfl, rfl⟩) (ht.keepsAnswers.trans hrest.keepsAnswers)
  · obtain ⟨⟨gs, hgs⟩, -⟩ := ht
    rw [hhold ho, hgs, ← hs1]

/-! ### RD_SHARED and RD_OWN of a line that no agent holds -/

theorem mpa_of_cohReq : (plaReq s l m (cohKind own) true none).mpa.toNat = 64 * (m.addr.toNat / 64) := by
  have hlt := m.addr.isLt
  have hmpa : (plaReq s l m (cohKind own) true none).mpa = BitVec.ofNat 50 (m.addr.toNat / 64 * 64) := by cases own <;> rfl
  rw [hmpa, BitVec.toNat_ofNat]
  omega

theorem linesOf_line : linesOf (64 * line) 64 = [line] := by
  have hfirst : 64 * line / 64 = line := Nat.mul_div_cancel_left _ (by decide)
  have hcount : (64 * line + 64 - 1) / 64 + 1 - 64 * line / 64 = 1 := by omega
  rw [linesOf, if_neg (by decide), hcount, hfirst]
  rfl

theorem len_of_cohReq (hlines : m.lines = 0) : (plaReq s l m (cohKind own) true none).len = 64 := by
  change 64 * (m.lines.toNat + 1) = 64
  rw [hlines]
  rfl

theorem cohReq_cohRead (hlines : m.lines = 0) (hb : presenceBit (plaSource l m) = some b) :
    CohRead { plaReq s l m (cohKind own) true none with shared := true } b (m.addr.toNat / 64) own where
  kind := rfl
  shared := rfl
  caches := hb
  lines := by
    change linesOf (plaReq s l m (cohKind own) true none).mpa.toNat (plaReq s l m (cohKind own) true none).len = _
    rw [mpa_of_cohReq, len_of_cohReq hlines, linesOf_line]
  sized := by
    change (plaReq s l m (cohKind own) true none).len ≠ 0
    rw [len_of_cohReq hlines]
    decide
  sound := rfl
  notAuto := (by decide : (0 : BitVec 2) ≠ 1)
  notHighFirst := (by decide : (0 : BitVec 2) ≠ 2)

theorem plaReply_hub {status poison : Nat} : (pumpFlits (plaReply s l m status bs poison) l).hub = s.hub := by
  obtain ⟨x, hsent, -⟩ := plaReply_sent (s := s) (l := l) (m := m) (status := status) (data := bs) (poison := poison)
  exact pumpFlits_moved.hub.trans hsent.hub

theorem snoopsFor_unlisted {bit : Option Nat} (h : dirFind s line = none) : snoopsFor s bit own line = s := by rw [snoopsFor, h]

/-- The answer to a coherent read of a line that no agent holds, and the line's new entry. -/
theorem cohRequest_unlisted (hl : l.val ≠ 18) (hlines : m.lines = 0) (hb : presenceBit (plaSource l m) = some b)
    (hr : plaReq s l m (cohKind own) true none = r) (href : refusal s r = none) (hring : ringMay s l m r = true)
    (hregion : regionOf s (m.addr.toNat / 64 * 64) = some .bulk) (hnone : dirFind s (m.addr.toNat / 64) = none)
    (hclean : mpaPoisoned s (m.addr.toNat / 64 * 64) 64 = false) (hstalled : s.hub.stalled = []) (hwrites : s.hub.writes = [])
    (hblocked : dirBlocked s (m.addr.toNat / 64) = false) :
    ∃ w bs d poison, cohRequest s l m own c = plaReply w l m 0 bs poison ∧ w.d2d = s.d2d ∧ dirFind w (m.addr.toNat / 64) = some d ∧ d.owned = own ∧
      d.pv = [b] ∧ (own = true → d.hold = some (s.time + holdNs)) := by
  have hread : CohRead { r with shared := true } b (m.addr.toNat / 64) own := hr ▸ cohReq_cohRead hlines hb
  have hmpa : r.mpa.toNat = m.addr.toNat / 64 * 64 := hr ▸ mpa_of_cohReq.trans (Nat.mul_comm _ _)
  have hlen : r.len = 64 := hr ▸ len_of_cohReq hlines
  have hsnooped : snooped s r b own = s := by
    rw [snooped, hread.lines, List.foldl_cons, List.foldl_nil, snoopsFor_unlisted hnone]
  obtain ⟨w, bs, d, hserve, hkeeps, hentry⟩ := hread.serve_unlisted (s := s) href (hmpa ▸ hregion) hnone (by rw [hmpa, hlen, hclean]) hstalled hwrites hblocked
  refine ⟨w, bs, d, poisonBits w r.mpa.toNat (m.lines.toNat + 1), ?_, hkeeps.d2d, hentry⟩
  rw [cohRequest_serves hb hr href, hsnooped, plaServe_answered (r := { r with shared := true }) (fun h => absurd h hl) hring hread.awake hserve nofun]
  exact plaAnswer_data (hkeeps.stalled.trans hstalled)

end Sys2Proof.Machine
end

section
namespace Sys2Proof.Machine
open Sys2Proof

/-! PROOFS. Snoops, writebacks and the end of a hold (O38).

A snoop and a writeback are each the state they leave, said once for each case of the directory's entry (`applySnoop_invalidates`,
`applySnoop_forwards`, `writebackLine_lands`, `writebackLine_waits`), and an answer sent there (`exec_replies`). -/

variable {s t w : State} {l : Fin 19} {m : PlaMsg} {d e : DirEnt} {a b n line : Nat} {bs : Bytes}

/-! ### Entries of the directory -/

theorem dirFind_dirDrop : dirFind (dirDrop s line) line = none :=
  List.find?_eq_none.2 fun x hx => by simpa using (List.mem_filter.1 hx).2

theorem dirFind_dirUpdate (hd : dirFind s line = some d) (he : e.line = line) : dirFind (dirUpdate s e) line = some e := by
  have hsame : ((fun x : DirEnt => decide (x.line = line)) ∘ fun x => if x.line = e.line then e else x) = fun x => decide (x.line = line) := by
    subst he
    funext x
    by_cases hx : x.line = e.line <;> simp [hx]
  have hfind : dirFind (dirUpdate s e) line = (dirFind s line).map fun x => if x.line = e.line then e else x := by
    rw [dirFind, dirUpdate, List.find?_map, hsame]
    rfl
  rw [hfind, hd, Option.map_some, if_pos ((line_of_dirFind hd).trans he.symm)]

/-! ### What the connections' own changes leave alone -/

section
variable (h : LinksMoved s t)
include h

theorem LinksMoved.dirFind_eq : dirFind t line = dirFind s line := by rw [dirFind, h.hub, dirFind]

theorem LinksMoved.heldLine_eq {bit : Option Nat} : heldLine t bit line = heldLine s bit line := by
  obtain ⟨_, _, _, rfl⟩ := h
  rfl

theorem LinksMoved.dirBlocked_eq : dirBlocked t line = dirBlocked s line := by
  obtain ⟨_, _, _, rfl⟩ := h
  rfl

theorem LinksMoved.reaches_eq {x y : Nat} : reaches t x y = reaches s x y := by
  obtain ⟨_, _, _, rfl⟩ := h
  rfl

theorem LinksMoved.hubView_eq : hubView t a n = hubView s a n := by
  obtain ⟨_, _, _, rfl⟩ := h
  rfl

theorem LinksMoved.writeBack_mem : (writeBack t line bs).mem = (writeBack s line bs).mem := by
  obtain ⟨_, _, _, rfl⟩ := h
  rfl

theorem LinksMoved.regionOf_eq : regionOf t a = regionOf s a := by
  obtain ⟨_, _, _, rfl⟩ := h
  rfl

theorem LinksMoved.time : t.time = s.time := by
  obtain ⟨_, _, _, rfl⟩ := h
  rfl

theorem LinksMoved.waits : t.d2d.waits = s.d2d.waits := by
  obtain ⟨_, _, _, rfl⟩ := h
  rfl

end

/-- A message whose row answers it with the state `w` and a reply. -/
theorem exec_replies {c : Instr} {status poison : Nat} (hexec : exec c s = .next (pumpFlits (plaReply w l m status bs poison) l))
    (hd2d : w.d2d = (takeCredits s l m).d2d) :
    ∃ t, exec c s = .next t ∧ Replied s t l m status bs ∧ t.hub = w.hub ∧ t.mem = w.mem := by
  obtain ⟨hreplied, hmem, -, -⟩ := plaReply_replied (s := s) (w := w) (l := l) (m := m) (status := status) (data := bs) (poison := poison)
    ((congrArg D2dState.out hd2d).trans takeCredits_moved.out)
  exact ⟨_, hexec, hreplied, plaReply_hub, hmem⟩

/-! ### Snoops (R270) -/

theorem exec_snpInv (h : PlaRow.Arrives ⟨.snpInv, 1, false, 2, false⟩ s l m) :
    exec (.snpInv l m) s = .next (pumpFlits (snoop (takeCredits s l m) l m) l) := congrArg _ (plaMessage_arrives h)

theorem exec_snpFwd (h : PlaRow.Arrives ⟨.snpFwd, 1, false, 3, false⟩ s l m) :
    exec (.snpFwd l m) s = .next (pumpFlits (snoop (takeCredits s l m) l m) l) := congrArg _ (plaMessage_arrives h)

theorem op_of_spells {chan op : Nat} {rsp data : Bool} (h : plaSpells m chan rsp op data = true) : m.op.toNat = op := by
  simp only [plaSpells, Bool.and_eq_true, decide_eq_true_eq] at h
  exact h.1.2

theorem snoop_unlisted (h : dirFind s (m.addr.toNat / 64) = none) : snoop s l m = plaReply s l m 0 [] 0 := by
  simp only [snoop, applySnoop, h]

section
variable (hd : dirFind s (m.addr.toNat / 64) = some d)
include hd

theorem snoop_unheld (hfree : heldLine s none (m.addr.toNat / 64) = false) : snoop s l m = applySnoop s l m := by
  simp only [snoop, hd, hfree, Bool.false_eq_true, and_false, if_false]

variable (ho : d.owned = true) (hdata : d.data = some bs)
include ho hdata

/-- SNP_INV at the only holders of an owned line: the owner's data go home, and the line leaves the directory. -/
theorem applySnoop_invalidates (hop : m.op.toNat = 2) (hpv : d.pv ≠ []) (hall : ∀ b ∈ d.pv, reaches s l (bitLink b) = true) :
    ∃ w, applySnoop s l m = plaReply w l m 0 [] 0 ∧ w.d2d = s.d2d ∧ dirFind w (m.addr.toNat / 64) = none ∧
      w.mem = (writeBack s (m.addr.toNat / 64) bs).mem := by
  have hmine : dieHolders s d l = d.pv := List.filter_eq_self.2 hall
  have hnone : d.pv.filter (fun b => !d.pv.elem b) = [] := List.filter_eq_nil_iff.2 fun b hb => by simp [hb]
  simp only [applySnoop, hd, hmine, hpv, hop, ho, hdata, hnone, if_false, if_true]
  exact ⟨_, rfl, rfl, dirFind_dirDrop, rfl⟩

/-- SNP_FWD at the owner: its data go home and to the requester, and it keeps a copy. -/
theorem applySnoop_forwards (hop : m.op.toNat = 3) (hany : ∃ b ∈ d.pv, reaches s l (bitLink b) = true) :
    ∃ w poison, applySnoop s l m = plaReply w l m 0 (hubView s (64 * (m.addr.toNat / 64)) 64) poison ∧ w.d2d = s.d2d ∧
      dirFind w (m.addr.toNat / 64) = some { d with owned := false, data := none, hold := none } ∧ w.mem = (writeBack s (m.addr.toNat / 64) bs).mem := by
  have hmine : dieHolders s d l ≠ [] := by
    obtain ⟨b, hb, hreach⟩ := hany
    exact List.ne_nil_of_mem (List.mem_filter.2 ⟨hb, hreach⟩)
  have hno : ¬m.op.toNat = 2 := by omega
  have hline := line_of_dirFind hd
  simp only [applySnoop, hd, hmine, hno, ho, hdata, if_false, if_true]
  exact ⟨_, _, rfl, rfl, dirFind_dirUpdate (s := bump (writeBack s _ bs) rOwnerSupply fOwnerSupply 1) hd hline, rfl⟩

end

/-! ### Writebacks (R267) -/

theorem exec_wb (h : PlaRow.Arrives ⟨.wb, 1, false, 4, true⟩ s l m) :
    exec (.wb l m) s = .next (pumpFlits (settleWaits (writebackLine (takeCredits s l m) l m)) l) := congrArg _ (plaMessage_arrives h)

theorem settleWaits_of_waits (h : ∀ x ∈ s.hub.stalled, reqWaits s x.req x.id = true) : settleWaits s = s := by
  rw [settleWaits, if_neg]
  simp only [List.any_eq_true, not_exists, not_and]
  exact fun x hx => by simp [h x hx]

theorem settleWaits_plaReply {status poison : Nat} (h : s.hub.stalled = []) :
    settleWaits (plaReply s l m status bs poison) = plaReply s l m status bs poison := by
  obtain ⟨x, hsent, -⟩ := plaReply_sent (s := s) (l := l) (m := m) (status := status) (data := bs) (poison := poison)
  exact settleWaits_idle ((congrArg HubState.stalled hsent.hub).trans h)

/-- The store that a writeback waits as. -/
def writebackReq (s : State) (l : Fin 19) (m : PlaMsg) : MemReq := { plaReq s l m .write false none with data := m.data.take 64, shared := true }

section
variable (hb : presenceBit (plaSource l m) = some b) (hd : dirFind s (m.addr.toNat / 64) = some d) (hbreach : s.hub.breach = [])
include hb hd hbreach

theorem writebackLine_eq : writebackLine s l m =
    if d.owned = true ∧ d.pv.elem b = true then
      if migrationStalls s (64 * (m.addr.toNat / 64)) 64 then holdWriteback s l m d b
      else
        let s := rawWrite s (locate s (64 * (m.addr.toNat / 64))) (m.data.take 64)
        let s := if m.poison.getLsbD 0 then poisonLine s (locate s (64 * (m.addr.toNat / 64)) / 64) else s
        let pv := d.pv.filter (fun x => decide (x ≠ b))
        plaReply (if pv = [] then dirDrop s (m.addr.toNat / 64) else dirUpdate s { d with owned := false, pv := pv, data := none, hold := none }) l m 0 [] 0
    else plaReply s l m 0 [] 0 := by
  have hevict : breachEvict s (m.addr.toNat / 64) = s := by simp [breachEvict, hbreach]
  simp only [writebackLine, hevict, ite_self, hb, hd]

/-- The agent does not own the line: nothing is written. -/
theorem writebackLine_ignored (h : d.owned = false ∨ b ∉ d.pv) : writebackLine s l m = plaReply s l m 0 [] 0 := by
  rw [writebackLine_eq hb hd hbreach, if_neg]
  rintro ⟨ho, hin⟩
  exact h.elim (fun hno => by simp [hno] at ho) (· (List.elem_iff.1 hin))

variable (ho : d.owned = true) (hpv : d.pv = [b])
include ho hpv

/-- The writeback of the one owner lands, and its line leaves the directory. -/
theorem writebackLine_lands (hmig : migrationStalls s (64 * (m.addr.toNat / 64)) 64 = false) :
    ∃ w, writebackLine s l m = plaReply w l m 0 [] 0 ∧ w.d2d = s.d2d ∧ w.hub.stalled = s.hub.stalled ∧ dirFind w (m.addr.toNat / 64) = none ∧
      w.mem = (rawWrite s (locate s (64 * (m.addr.toNat / 64))) (m.data.take 64)).mem := by
  have hin : d.pv.elem b = true := by simp [hpv]
  have hleft : d.pv.filter (fun x => decide (x ≠ b)) = [] := by simp [hpv]
  rw [writebackLine_eq hb hd hbreach, if_pos ⟨ho, hin⟩]
  simp only [hmig, hleft, Bool.false_eq_true, if_false, if_true]
  refine ⟨_, rfl, ?_⟩
  split <;> exact ⟨rfl, rfl, dirFind_dirDrop, rfl⟩

/-- One that meets a migrating granule waits as a store of its line. -/
theorem writebackLine_waits (hmig : migrationStalls s (64 * (m.addr.toNat / 64)) 64 = true) :
    ∃ dir, writebackLine s l m = { withStalled { s with hub := { s.hub with dir := dir } } (writebackReq s l m) with
      d2d := { s.d2d with waits := mapSet s.d2d.waits s.hub.nextId (l.val, m) } } := by
  have hin : d.pv.elem b = true := by simp [hpv]
  rw [writebackLine_eq hb hd hbreach, if_pos ⟨ho, hin⟩, if_pos hmig]
  exact ⟨_, rfl⟩

end

theorem writebackReq_stalls (hlen : 64 ≤ m.data.length) (hmig : migrationStalls t (64 * (m.addr.toNat / 64)) 64 = true) :
    reqWaits t (writebackReq s l m) n = true := by
  have hmpa : (writebackReq s l m).mpa.toNat = 64 * (m.addr.toNat / 64) := by
    have hlt := m.addr.isLt
    change (BitVec.ofNat 50 (m.addr.toNat / 64 * 64)).toNat = _
    rw [BitVec.toNat_ofNat]
    omega
  have hbytes : reqBytes (writebackReq s l m) = 64 := by
    change (m.data.take 64).length = 64
    rw [List.length_take]
    omega
  have hwrites : reqWrites (writebackReq s l m) = true := rfl
  simp only [reqWaits, hmpa, hbytes, hwrites, hmig, Bool.and_self, Bool.true_or]

/-! ### The end of a hold (R271) -/

theorem fset_fget {v : Word} {f : Fd} (h : f.ok) : fset v f (fget v f) = v := by
  refine BitVec.eq_of_getLsbD_eq fun i hi => ?_
  rw [fset_bit v f _ h i hi]
  split
  · next hin =>
    have hwidth : i - f.lo < f.width := by
      unfold Fd.width
      omega
    rw [fget, BitVec.testBit_toNat, BitVec.getLsbD_extractLsb']
    simp [hwidth, Nat.add_sub_cancel' hin.1]
  · rfl

theorem getR_bump_zero {r : Reg} {f : Fd} (h : f.ok) : getR (bump s r f 0) r = getR s r := by
  have hlt : getF s r f < 2 ^ f.width := ((getR s r).extractLsb' f.lo f.width).isLt
  rw [bump, setF, getR_setR_same, Nat.add_zero, Nat.min_eq_left (by omega)]
  exact fset_fget h

theorem ownershipHoldExpiry_stays (hidle : s.hub.stalled = []) {line : BitVec 44} (h : dirFind s line.toNat = none ∨
    ∃ d, dirFind s line.toNat = some d ∧ (d.hold = none ∨ ∃ h, d.hold = some h ∧ s.time < h)) : exec (.ownershipHoldExpiry line) s = .next s := by
  change execOwnershipHoldExpiry line s = _
  unfold execOwnershipHoldExpiry
  rcases h with hnone | ⟨d, hd, hnone | ⟨h, hhold, hlt⟩⟩
  · rw [hnone]
    exact congrArg _ (settleWaits_idle hidle)
  · simp only [hd, hnone]
    exact congrArg _ (settleWaits_idle hidle)
  · simp only [hd, hhold, if_pos hlt]

theorem ownershipHoldExpiry_ends {line : BitVec 44} {h : Nat} (hd : dirFind s line.toNat = some d) (hhold : d.hold = some h) (hle : h ≤ s.time) :
    exec (.ownershipHoldExpiry line) s = .next (endHold s d) := by
  change execOwnershipHoldExpiry line s = _
  simp only [execOwnershipHoldExpiry, hd, hhold, if_neg (Nat.not_lt.2 hle)]

/-- A hold that nothing waits for ends: the owner's entry loses it. -/
theorem endHold_idle (hw : d.waiters = []) (hidle : HubIdle s) : endHold s d = bump (dirUpdate s { d with hold := none }) rHoldWait fHoldWait 0 := by
  have hwaits := hidle.nothingWaits
  have hentry : ({ d with hold := none, waiters := [] } : DirEnt) = { d with hold := none } := by rw [← hw]
  simp only [endHold, hwaits.stalled, hw, List.filter_nil, List.map_nil, List.sum_nil, List.foldl_nil, Nat.add_zero, hentry]
  exact (hwaits.congr (t := bump (dirUpdate s { d with hold := none }) rHoldWait fHoldWait 0) rfl rfl rfl (getR_setR_ne _ _ _ _ (by decide))
    (getR_setR_ne _ _ _ _ (by decide))).retryAll_eq

theorem holdExpiry_idle {line : BitVec 44} {h : Nat} (hd : dirFind s line.toNat = some d) (hhold : d.hold = some h) (hle : h ≤ s.time)
    (hw : d.waiters = []) (hidle : HubIdle s) : ∃ t, exec (.ownershipHoldExpiry line) s = .next t ∧
      dirFind t line.toNat = some { d with hold := none } ∧ getR t rHoldWait = getR s rHoldWait ∧ SameMemory s t := by
  have hline := line_of_dirFind hd
  refine ⟨_, (ownershipHoldExpiry_ends hd hhold hle).trans (congrArg _ (endHold_idle hw hidle)), ?_, getR_bump_zero (by decide), sameMemory_of_eq rfl rfl⟩
  exact dirFind_dirUpdate hd hline

/-! ### The rows -/

/-- RD_SHARED and RD_OWN of a line that no agent holds. -/
theorem cohRead_unlisted {own : Bool} {c : Instr} {r : MemReq} (hexec : exec c s = .next (pumpFlits (cohRequest (takeCredits s l m) l m own c) l))
    (hr : plaReq s l m (cohKind own) true none = r) (hl : l.val ≠ 18) (hlines : m.lines = 0) (hb : presenceBit (plaSource l m) = some b)
    (href : refusal s r = none) (hring : ringMay s l m r = true) (hregion : regionOf s (m.addr.toNat / 64 * 64) = some .bulk)
    (hnone : dirFind s (m.addr.toNat / 64) = none) (hclean : mpaPoisoned s (m.addr.toNat / 64 * 64) 64 = false) (hstalled : s.hub.stalled = [])
    (hwrites : s.hub.writes = []) (hblocked : dirBlocked s (m.addr.toNat / 64) = false) :
    ∃ t bs d, exec c s = .next t ∧ Replied s t l m 0 bs ∧ dirFind t (m.addr.toNat / 64) = some d ∧ d.owned = own ∧ d.pv = [b] ∧
      (own = true → d.hold = some (s.time + holdNs)) := by
  have hcred : LinksMoved s (takeCredits s l m) := takeCredits_moved
  obtain ⟨w, bs, d, p, hreq, hd2d, hfound, hentry⟩ := cohRequest_unlisted (s := takeCredits s l m) (own := own) (c := c) hl hlines hb
    (hcred.plaReq_eq.trans hr) (hcred.refusal_eq.trans href) (hcred.ringMay_eq.trans hring) (hcred.regionOf_eq.trans hregion)
    (hcred.dirFind_eq.trans hnone) (hcred.mpaPoisoned_eq.trans hclean) (hcred.hub ▸ hstalled) (hcred.hub ▸ hwrites) (hcred.dirBlocked_eq.trans hblocked)
  obtain ⟨t, hexec, hreplied, hhub, -⟩ := exec_replies (hreq ▸ hexec) hd2d
  exact ⟨t, bs, d, hexec, hreplied, by rw [dirFind, hhub]; exact hfound, hcred.time ▸ hentry⟩

section
variable (hd : dirFind s (m.addr.toNat / 64) = some d) (ho : d.owned = true) (hdata : d.data = some bs)
  (hfree : heldLine s none (m.addr.toNat / 64) = false)
include hd ho hdata hfree

theorem snpInv_empties (harr : PlaRow.Arrives ⟨.snpInv, 1, false, 2, false⟩ s l m) (hpv : d.pv ≠ [])
    (hall : ∀ b ∈ d.pv, reaches s l (bitLink b) = true) : ∃ t, exec (.snpInv l m) s = .next t ∧ Replied s t l m 0 [] ∧
      dirFind t (m.addr.toNat / 64) = none ∧ t.mem = (writeBack s (m.addr.toNat / 64) bs).mem := by
  have hcred : LinksMoved s (takeCredits s l m) := takeCredits_moved
  have hd' := hcred.dirFind_eq.trans hd
  have hexec := exec_snpInv harr
  obtain ⟨-, -, hspells, -⟩ := harr
  obtain ⟨w, hsnoop, hd2d, hfound, hmem⟩ := applySnoop_invalidates hd' ho hdata (op_of_spells hspells) hpv fun b hb => hcred.reaches_eq.trans (hall b hb)
  rw [snoop_unheld hd' (hcred.heldLine_eq.trans hfree), hsnoop] at hexec
  obtain ⟨t, hexec, hreplied, hhub, htmem⟩ := exec_replies hexec hd2d
  exact ⟨t, hexec, hreplied, by rw [dirFind, hhub]; exact hfound, htmem.trans (hmem.trans hcred.writeBack_mem)⟩

theorem snpFwd_keeps_copy (harr : PlaRow.Arrives ⟨.snpFwd, 1, false, 3, false⟩ s l m) (hany : ∃ b ∈ d.pv, reaches s l (bitLink b) = true) :
    ∃ t, exec (.snpFwd l m) s = .next t ∧ Replied s t l m 0 (hubView s (64 * (m.addr.toNat / 64)) 64) ∧
      dirFind t (m.addr.toNat / 64) = some { d with owned := false, data := none, hold := none } ∧
      t.mem = (writeBack s (m.addr.toNat / 64) bs).mem := by
  have hcred : LinksMoved s (takeCredits s l m) := takeCredits_moved
  have hd' := hcred.dirFind_eq.trans hd
  have hexec := exec_snpFwd harr
  obtain ⟨-, -, hspells, -⟩ := harr
  obtain ⟨b, hb, hreach⟩ := hany
  obtain ⟨w, p, hsnoop, hd2d, hfound, hmem⟩ := applySnoop_forwards hd' ho hdata (op_of_spells hspells) ⟨b, hb, hcred.reaches_eq.trans hreach⟩
  rw [snoop_unheld hd' (hcred.heldLine_eq.trans hfree), hsnoop, hcred.hubView_eq] at hexec
  obtain ⟨t, hexec, hreplied, hhub, htmem⟩ := exec_replies hexec hd2d
  exact ⟨t, hexec, hreplied, by rw [dirFind, hhub]; exact hfound, htmem.trans (hmem.trans hcred.writeBack_mem)⟩

end

section
variable (harr : PlaRow.Arrives ⟨.wb, 1, false, 4, true⟩ s l m) (hb : presenceBit (plaSource l m) = some b)
  (hd : dirFind s (m.addr.toNat / 64) = some d) (hbreach : s.hub.breach = []) (hstalled : s.hub.stalled = [])
include harr hb hd hbreach hstalled

theorem wb_ignored (h : d.owned = false ∨ b ∉ d.pv) : exec (.wb l m) s = .next (pumpFlits (plaReply (takeCredits s l m) l m 0 [] 0) l) := by
  have hcred : LinksMoved s (takeCredits s l m) := takeCredits_moved
  rw [exec_wb harr, writebackLine_ignored hb (hcred.dirFind_eq.trans hd) (hcred.hub ▸ hbreach) h, settleWaits_plaReply (hcred.hub ▸ hstalled)]

variable (ho : d.owned = true) (hpv : d.pv = [b])
include ho hpv

theorem wb_lands (hmig : migrationStalls s (64 * (m.addr.toNat / 64)) 64 = false) : ∃ t, exec (.wb l m) s = .next t ∧ Replied s t l m 0 [] ∧
    dirFind t (m.addr.toNat / 64) = none ∧ t.mem = (rawWrite s (locate s (64 * (m.addr.toNat / 64))) (m.data.take 64)).mem := by
  have hcred : LinksMoved s (takeCredits s l m) := takeCredits_moved
  obtain ⟨w, hwb, hd2d, hwait, hfound, hmem⟩ := writebackLine_lands hb (hcred.dirFind_eq.trans hd) (hcred.hub ▸ hbreach) ho hpv
    (hcred.migrationStalls_eq.trans hmig)
  have hexec := exec_wb harr
  rw [hwb, settleWaits_plaReply (hwait.trans (hcred.hub ▸ hstalled))] at hexec
  obtain ⟨t, hexec, hreplied, hhub, htmem⟩ := exec_replies hexec hd2d
  refine ⟨t, hexec, hreplied, by rw [dirFind, hhub]; exact hfound, htmem.trans (hmem.trans ?_)⟩
  rw [hcred.locate_eq]
  exact congrArg (cellsPut · _ _) hcred.mem

theorem wb_waits (hmig : migrationStalls s (64 * (m.addr.toNat / 64)) 64 = true) : ∃ t, exec (.wb l m) s = .next t ∧ t.hub.stalled.length = 1 ∧
    mapFind t.d2d.waits s.hub.nextId = some (l.val, m) ∧ SameMemory s t := by
  have hcred : LinksMoved s (takeCredits s l m) := takeCredits_moved
  have hexec := exec_wb harr
  obtain ⟨-, -, hspells, -⟩ := harr
  have hlen : 64 ≤ m.data.length := by
    rw [length_of_spells hspells]
    omega
  generalize takeCredits s l m = u at hcred hexec
  have hmig' : migrationStalls u (64 * (m.addr.toNat / 64)) 64 = true := hcred.migrationStalls_eq.trans hmig
  have hidle : u.hub.stalled = [] := hcred.hub ▸ hstalled
  obtain ⟨dir, hwb⟩ := writebackLine_waits hb (hcred.dirFind_eq.trans hd) (hcred.hub ▸ hbreach) ho hpv hmig'
  rw [hwb, settleWaits_of_waits] at hexec
  · refine ⟨_, hexec, ?_, ?_, hcred.sameMemory.trans (.trans (sameMemory_of_eq rfl rfl) pumpFlits_moved.sameMemory)⟩
    · rw [pumpFlits_moved.hub]
      simp [withStalled, hidle]
    · rw [pumpFlits_moved.waits, ← hcred.hub]
      exact mapFind_mapSet_key
  · intro x hx
    simp only [withStalled, hidle, List.nil_append, List.mem_singleton] at hx
    subst hx
    exact writebackReq_stalls hlen hmig'

end

/-! ### The statement -/

/-- Settles O38: a coherent read, a snoop and a writeback each answer from the state that the case of the directory's entry leaves, and a hold ends at
its time. -/
theorem coherenceCommandsAndHolds : Obligations.CoherenceCommandsAndHolds := by
  unfold Obligations.CoherenceCommandsAndHolds
  refine ⟨⟨?_, ?_, ?_, ?_, ?_, ?_, ?_, ?_⟩, fun _ _ hidle => ownershipHoldExpiry_stays hidle, fun _ _ _ _ => ownershipHoldExpiry_ends,
    fun _ _ _ _ => holdExpiry_idle⟩
  · intro s l m b harr hl hlines hb href hring hregion hnone hclean hstalled hwrites hblocked
    obtain ⟨t, bs, d, hexec, hreplied, hfound, hown, hpv, -⟩ := cohRead_unlisted (exec_rdShared harr) rfl hl hlines hb href hring hregion hnone hclean
      hstalled hwrites hblocked
    exact ⟨t, bs, d, hexec, hreplied, hfound, hown, hpv⟩
  · intro s l m b harr hl hlines hb href hring hregion hnone hclean hstalled hwrites hblocked
    obtain ⟨t, bs, d, hexec, hreplied, hfound, hown, hpv, hhold⟩ := cohRead_unlisted (exec_rdOwn harr) rfl hl hlines hb href hring hregion hnone hclean
      hstalled hwrites hblocked
    exact ⟨t, bs, d, hexec, hreplied, hfound, hown, hpv, hhold rfl⟩
  · intro s l m b hb
    have hcred : LinksMoved s (takeCredits s l m) := takeCredits_moved
    refine ⟨fun harr href => ?_, fun harr href => ?_⟩
    · rw [exec_rdShared harr, cohRequest_serves (own := false) hb hcred.plaReq_eq (hcred.refusal_eq.trans href)]
      rfl
    · rw [exec_rdOwn harr, cohRequest_serves (own := true) hb hcred.plaReq_eq (hcred.refusal_eq.trans href)]
      rfl
  · intro s l m hno
    exact ⟨fun harr => by rw [exec_rdShared harr, cohRequest_of_no_cache hno], fun harr => by rw [exec_rdOwn harr, cohRequest_of_no_cache hno]⟩
  · exact fun s l m d bs harr hd hpv hall ho hdata hfree => snpInv_empties hd ho hdata hfree harr hpv hall
  · exact fun s l m d bs harr hd hany ho hdata hfree => snpFwd_keeps_copy hd ho hdata hfree harr hany
  · intro s l m hnone
    have hnone' : dirFind (takeCredits s l m) (m.addr.toNat / 64) = none := takeCredits_moved.dirFind_eq.trans hnone
    exact ⟨fun harr => by rw [exec_snpInv harr, snoop_unlisted hnone'], fun harr => by rw [exec_snpFwd harr, snoop_unlisted hnone']⟩
  · exact fun s l m b d harr hb hd hbreach hstalled =>
      ⟨wb_lands harr hb hd hbreach hstalled, wb_waits harr hb hd hbreach hstalled, wb_ignored harr hb hd hbreach hstalled⟩

end Sys2Proof.Machine
end

section
namespace Sys2Proof.Machine
open Sys2Proof

/-! PROOFS. A command starts and ends (O11). -/

variable {s : State} {u : SpoolId} {c : Cmd} {slot st d : Nat}

/-! ### The mark of a start (R286) -/

theorem markStart_of_fetched (h : c.phase = .fetched) : markStart s u c =
    (setEngAux s u.e { engAux s u.e with order := (engAux s u.e).order + 1 },
      { c with phase := .started, order := (engAux s u.e).order, step := curStep s (ctxPart s u.e u.n), since := s.time }) := if_pos h

theorem markStart_of_retry (h : c.phase = .retry) : markStart s u c = (s, { c with phase := .started }) := if_neg (by simp [h])

/-! ### The end of a command (R149) -/

theorem stopping_iff : stopping st = true ↔ st = stStale ∨ st = stTimeout ∨ st = stFormat ∨ st = stResource := by
  simp [stopping, or_assoc]

/-- The end of a command with this status stops its spool: a status marked "Stops", or the POISON of a WAIT. -/
def endStops (s : State) (u : SpoolId) (slot st : Nat) : Bool :=
  stopping st || ((spoolCmd s u slot).any (fun c => decide (c.opcode = 0x51)) && decide (st = stPoison))

theorem endStops_iff : endStops s u slot st = true ↔
    stopping st = true ∨ (st = stPoison ∧ (spoolCmd s u slot).any (fun c => decide (c.opcode = 0x51)) = true) := by
  simp [endStops, and_comm]

theorem endCmd_eq : endCmd s u slot st d =
    if endStops s u slot st = true ∧ spState s u = spActive then setSpState (updCmd s u slot (endedCmd · st d)) u spStopped
    else updCmd s u slot (endedCmd · st d) := by
  have hstate : ∀ f, spState (updCmd s u slot f) u = spState s u := fun _ => spState_setSpool
  unfold endCmd endStops
  dsimp only
  rw [hstate]
  cases spoolCmd s u slot with
  | none => rfl
  | some c => rfl

theorem spState_endCmd_active (hactive : spState s u = spActive) :
    spState (endCmd s u slot st d) u = if endStops s u slot st = true then spStopped else spActive := by
  rw [endCmd_eq]
  split
  · next h => rw [if_pos h.1, spState_setSpState (by decide)]
  · next h => rw [if_neg fun hs => h ⟨hs, hactive⟩, updCmd, spState_setSpool, hactive]

theorem spState_endCmd_inactive (h : spState s u ≠ spActive) : spState (endCmd s u slot st d) u = spState s u := by
  rw [endCmd_eq, if_neg fun hs => h hs.2, updCmd, spState_setSpool]

theorem endCmd_mem_poison : (endCmd s u slot st d).mem = s.mem ∧ (endCmd s u slot st d).poison = s.poison := by
  rcases endCmd_cases (s := s) (u := u) (slot := slot) (st := st) (d := d) with h | h
  all_goals
    rw [h]
    exact ⟨rfl, rfl⟩

/-! ### The statement -/

/-- Settles O11: a fetched command's mark takes the engine's order, a retried one's takes nothing; the end of a command marks it and stops its
spool in the cases of `endStops`. -/
theorem commandsStartAndEnd : Obligations.CommandsStartAndEnd := by
  unfold Obligations.CommandsStartAndEnd
  refine ⟨⟨fun s u c hphase => ?_, fun _ _ _ => markStart_of_retry⟩, fun s u slot st d => ⟨endCmd_cmds, fun hactive => ?_, spState_endCmd_inactive,
    endCmd_mem_poison.1, endCmd_mem_poison.2, fun _ => stopping_iff⟩⟩
  · rw [markStart_of_fetched hphase]
    exact ⟨rfl, congrArg EngAux.order (mapGet_mapSet_same _ _ _ _), rfl, rfl⟩
  · rw [spState_endCmd_active hactive]
    simp only [endStops_iff]

end Sys2Proof.Machine
end

section
namespace Sys2Proof.Machine
open Sys2Proof

/-! PROOFS. STEP_CTL closes, raises and rejoins (O47). -/

variable {s : State} {ag : Agent} {p : Fin 16} {n : BitVec 48} {q : Nat} {j : Job}

/-! ### A job's record -/

@[simp] theorem job_setJob_same : job (setJob s q j) q = j := mapGet_mapSet_same _ _ _ _

theorem job_of_jobs_eq {t : State} (h : t.jobs = s.jobs) : job t q = job s q := by rw [job, h, job]

/-- The job has voted for a step, or for a later one (R299). -/
def votedFrom (j : Job) (step : Nat) : Bool := match j.voted with
  | some (v, _) => decide (step ≤ v)
  | none => false

theorem votedFrom_iff {step : Nat} : votedFrom j step = true ↔ ∃ v t, j.voted = some (v, t) ∧ step ≤ v := by
  unfold votedFrom
  rcases h : j.voted with _ | ⟨v, t⟩
  · simp
  · exact decide_eq_true_iff.trans ⟨fun hle => ⟨v, t, rfl, hle⟩, fun ⟨_, _, hv, hle⟩ => (Prod.mk.inj (Option.some.inj hv)).1 ▸ hle⟩

/-! ### CLOSE (R287) -/

/-- The state after CLOSE: the snapshot is taken, CUR_STEP moves on and the step awaits its vote. -/
def stepClosed (s : State) (p step : Nat) : State :=
  setJob (setF (takeSnapshot s p).1 (rStepCur p) fStepCurCurStep (step + 1)) p
    { job s p with closed := (job s p).closed ++ [{ step := step, snap := (takeSnapshot s p).2, merged := [], done := false }] }

theorem exec_stepClose (hright : regRight s ag (rStepCtl p).key = true) : exec (.stepClose ag p n) s = .next (stepClose s p n.toNat) :=
  congrArg Host.Outcome.next (guarded_right _ _ _ _ hright)

theorem stepClose_refused {step : Nat}
    (h : jobEnabled s q = false ∨ step ≠ curStep s q ∨ (job s q).diverged = true ∨ (job s q).lost = true) : stepClose s q step = ctlErr s q :=
  if_pos (by simpa using h)

theorem stepClose_closes (hen : jobEnabled s q = true) (hdiv : (job s q).diverged = false) (hlost : (job s q).lost = false) :
    stepClose s q (curStep s q) = stepClosed s q (curStep s q) :=
  if_neg (by simp [hen, hdiv, hlost])

theorem stepClosed_sameRegsBut : SameRegsBut [(rStepCur q).key] s (stepClosed s q n.toNat) := fun r hr =>
  getR_setR_ne _ _ _ _ fun hk => hr (by simp [hk])

theorem stepClosed_sameMemory : SameMemory s (stepClosed s q n.toNat) := sameMemory_of_eq rfl rfl

/-! ### RAISE (R296, R297) -/

theorem exec_stepRaise (hright : regRight s ag (rStepCtl p).key = true) : exec (.stepRaise ag p n) s = .next (stepRaise s p n.toNat) :=
  congrArg Host.Outcome.next (guarded_right _ _ _ _ hright)

theorem stepRaise_eq {step : Nat} : stepRaise s q step =
    if ¬jobEnabled s q ∨ step < (job s q).awaited ∨ curStep s q < step ∨ votedFrom (job s q) step then ctlErr s q else raisePennant s q step 10 := rfl

theorem stepRaise_refused {step : Nat}
    (h : jobEnabled s q = false ∨ step < (job s q).awaited ∨ curStep s q < step ∨ ∃ v t0, (job s q).voted = some (v, t0) ∧ step ≤ v) :
    stepRaise s q step = ctlErr s q := by
  rw [← votedFrom_iff] at h
  rw [stepRaise_eq, if_pos (by simpa using h)]

theorem stepRaise_raises {step : Nat} (hen : jobEnabled s q = true) (hlo : (job s q).awaited ≤ step) (hhi : step ≤ curStep s q)
    (hvote : ∀ v t0, (job s q).voted = some (v, t0) → v < step) : stepRaise s q step = raisePennant s q step 10 := by
  have hnot : ¬votedFrom (job s q) step = true := fun h => by
    obtain ⟨v, t, hv, hle⟩ := votedFrom_iff.1 h
    exact absurd (hvote v t hv) (by omega)
  rw [stepRaise_eq, if_neg (by simp [hen, hnot]; omega)]

/-! ### REJOIN (R308) -/

theorem exec_stepRejoin (hright : regRight s ag (rStepCtl p).key = true) : exec (.stepRejoin ag p n) s = .next (stepRejoin s p n.toNat) :=
  congrArg Host.Outcome.next (guarded_right _ _ _ _ hright)

theorem stepRejoin_rejoins {step : Nat} (hdiv : (job s q).diverged = true) (hlast : step = getF s (rStepStatus q) fStepStatusLastStep) :
    stepRejoin s q step = setJob s q { job s q with diverged := false } := if_pos ⟨hdiv, hlast⟩

theorem stepRejoin_refused {step : Nat} (h : (job s q).diverged = false ∨ step ≠ getF s (rStepStatus q) fStepStatusLastStep) :
    stepRejoin s q step = ctlErr s q := if_neg fun ⟨hdiv, hlast⟩ => h.elim (by simp [hdiv]) (· hlast)

/-! ### The statement -/

/-- Settles O47: each write of STEP_CTL either passes the checks of its OP, or sets CTL_ERR alone. -/
theorem stepsAreClosedRaisedAndRejoined : Obligations.StepsAreClosedRaisedAndRejoined := by
  unfold Obligations.StepsAreClosedRaisedAndRejoined
  refine ⟨fun s ag p n hright hen hcur hdiv hlost => ?_, fun s ag p n hright h => ?_,
    fun s ag p n hright => ⟨fun h => ?_, fun hen hlo hhi hvote => ?_⟩, fun s ag p n hright => ⟨fun hdiv hlast => ?_, fun h => ?_⟩⟩
  · refine ⟨stepClosed s p n.toNat, _, ?_, getF_setF_same _ _ _ _ (by decide), congrArg Job.closed job_setJob_same, rfl, rfl,
      stepClosed_sameRegsBut, stepClosed_sameMemory⟩
    rw [exec_stepClose hright, hcur, stepClose_closes hen hdiv hlost]
  · rw [exec_stepClose hright, stepClose_refused h]
    rfl
  · rw [exec_stepRaise hright, stepRaise_refused h]
    rfl
  · rw [exec_stepRaise hright, stepRaise_raises hen hlo hhi hvote]
  · rw [exec_stepRejoin hright, stepRejoin_rejoins hdiv hlast]
    exact ⟨_, rfl, congrArg Job.diverged job_setJob_same, by rw [job_setJob_same], rfl, sameMemory_of_eq rfl rfl⟩
  · rw [exec_stepRejoin hright, stepRejoin_refused h]
    rfl

end Sys2Proof.Machine
end

section
namespace Sys2Proof.Machine
open Sys2Proof

/-! PROOFS. What the hub and the fabric leave of the jobs: their records and the registers of the jobs' pages. -/

variable {s t s2 : State} {a n p : Nat} {bs : Bytes}

/-- The jobs' records and the registers of their pages are as they were. -/
structure KeepsJobs (s t : State) : Prop where
  jobs : t.jobs = s.jobs
  regs : ∀ r : Reg, r.key.blk = .job → getR t r = getR s r

namespace KeepsJobs

theorem refl : KeepsJobs s s := ⟨.refl _, fun _ _ => .refl _⟩

theorem trans (h : KeepsJobs s t) (h2 : KeepsJobs t s2) : KeepsJobs s s2 :=
  ⟨h2.jobs.trans h.jobs, fun r hr => (h2.regs r hr).trans (h.regs r hr)⟩

theorem ite {c : Prop} [Decidable c] (h : KeepsJobs s t) (h2 : KeepsJobs s s2) : KeepsJobs s (if c then t else s2) := by
  split
  · exact h
  · exact h2

theorem ite_fst {α : Type} {c : Prop} [Decidable c] {x y : State × α} (h : KeepsJobs s x.1) (h2 : KeepsJobs s y.1) :
    KeepsJobs s (if c then x else y).1 := by
  split
  · exact h
  · exact h2

theorem foldl {α : Type} {f : State → α → State} {l : List α} (hf : ∀ t x, KeepsJobs t (f t x)) : KeepsJobs s (l.foldl f s) :=
  List.foldlRecOn (motive := KeepsJobs s) _ _ .refl fun _ ht x _ => ht.trans (hf _ x)

/-- Every unit but the jobs may change. -/
theorem of_eq (hjobs : t.jobs = s.jobs) (hregs : t.regs = s.regs) : KeepsJobs s t := ⟨hjobs, fun r _ => by rw [getR, getR, hregs]⟩

/-- A register outside the jobs' pages. -/
theorem setR {r : Reg} {w : Word} (hr : r.key.blk ≠ .job) : KeepsJobs s (setR s r w) :=
  ⟨.refl _, fun _ hq => getR_setR_ne _ _ _ _ fun hk => hr (hk ▸ hq)⟩

theorem setF {r : Reg} {f : Fd} {x : Nat} (hr : r.key.blk ≠ .job) : KeepsJobs s (setF s r f x) := .setR hr

theorem bump {r : Reg} {f : Fd} {x : Nat} (hr : r.key.blk ≠ .job) : KeepsJobs s (bump s r f x) := .setR hr

theorem advance {r : Reg} {f : Fd} {x : Nat} (hr : r.key.blk ≠ .job) : KeepsJobs s (advance s r f x) := .setR hr

theorem job_eq (h : KeepsJobs s t) : job t p = job s p := job_of_jobs_eq h.jobs

theorem getF_eq (h : KeepsJobs s t) {r : Reg} {f : Fd} (hr : r.key.blk = .job) : getF t r f = getF s r f := congrArg (fget · f) (h.regs r hr)

/-- What an operation with an answer leaves. -/
theorem of_fst {α : Type} {x : State × α} {y : α} (h : KeepsJobs s x.1) (hx : x = (t, y)) : KeepsJobs s t := by
  rw [hx] at h
  exact h

end KeepsJobs

/-! ### Reads and writes of the hub -/

theorem breachWrite_keepsJobs {l : Nat} {whole : Bool} : KeepsJobs s (breachWrite s l whole) := by
  unfold breachWrite
  dsimp only
  split
  · exact .refl
  · exact .ite (.of_eq rfl rfl) (.of_eq rfl rfl)

theorem mpaWrite_keepsJobs : KeepsJobs s (mpaWrite s a bs) :=
  .foldl fun t _ => KeepsJobs.trans (t := rawWrite t _ _) (.of_eq rfl rfl) breachWrite_keepsJobs

theorem recallLine_keepsJobs {l : Nat} {discard : Bool} : KeepsJobs s (recallLine s l discard) := by
  have hdrop : ∀ t : State, KeepsJobs t (dropResv (dirDrop t l) l) := fun _ => .of_eq rfl rfl
  unfold recallLine
  dsimp only
  split
  · exact .of_eq rfl rfl
  · refine .trans (.trans ?_ (KeepsJobs.bump (by decide))) (hdrop _)
    split
    · exact .ite .refl (.of_eq rfl rfl)
    · exact .refl

theorem touchFrame_keepsJobs {f : Nat} : KeepsJobs s (touchFrame s f) := by
  unfold touchFrame
  split
  · exact .of_eq rfl rfl
  · exact .refl

theorem restartAges_keepsJobs : KeepsJobs s (restartAges s a n) :=
  .trans (.foldl fun _ _ => touchFrame_keepsJobs) (.foldl fun _ _ => .ite (.of_eq rfl rfl) .refl)

theorem hubTouch_keepsJobs : KeepsJobs s (hubTouch s a n) := .trans (KeepsJobs.bump (by decide)) restartAges_keepsJobs

theorem hubLand_keepsJobs : KeepsJobs s (hubLand s a bs) :=
  .trans (.trans (.foldl fun _ _ => recallLine_keepsJobs) mpaWrite_keepsJobs) restartAges_keepsJobs

theorem hubPut_keepsJobs : KeepsJobs s (hubPut s a bs) := .ite .refl (.ite (.of_eq rfl rfl) hubLand_keepsJobs)

theorem sendMsi_keepsJobs : KeepsJobs s (sendMsi s a n) := by
  unfold sendMsi
  dsimp only
  refine .ite .refl ?_
  split
  · exact .ite (.of_eq rfl rfl) (.of_eq rfl rfl)
  · exact .of_eq rfl rfl

theorem ringPut_keepsJobs {r : RingRegs} (hr : r.ptr.key.blk ≠ .job) : KeepsJobs s (r.put s bs) := by
  rcases ringPut_cases r s bs with h | ⟨-, -, h⟩
  · rw [h]
    exact .of_eq rfl rfl
  · rw [h]
    unfold RingRegs.land
    dsimp only
    split
    · exact .trans (.trans hubLand_keepsJobs (.advance hr)) sendMsi_keepsJobs
    · exact .trans hubLand_keepsJobs (.advance hr)

/-! ### Accesses that count heat (R200) -/

theorem takeHot_keepsJobs {k : Nat} : KeepsJobs s (takeHot k s) := by
  induction k generalizing s with
  | zero => exact .refl
  | succ k ih =>
    have hqueue : ∀ t m, KeepsJobs t (queueMig t m) := fun _ _ => .ite (.setF (by decide)) (.of_eq rfl rfl)
    exact .trans (.trans (KeepsJobs.advance (by decide)) (.ite (hqueue _ _) .refl)) ih

theorem hotReport_keepsJobs {g astag : Nat} {first : Bool} : KeepsJobs s (hotReport s g astag first) := by
  have hgran : ∀ (t : State) (x : Gran), KeepsJobs t (setGran t g x) := fun _ _ => .of_eq rfl rfl
  have hpromote : ∀ t : State, KeepsJobs t (promoteHot t) := fun _ => .ite takeHot_keepsJobs .refl
  exact .ite (.trans (KeepsJobs.bump (by decide)) (hgran _ _)) (((hgran _ _).trans (ringPut_keepsJobs (by decide))).trans (hpromote _))

theorem touchGranule_keepsJobs {g astag hint lines : Nat} : KeepsJobs s (touchGranule s g astag hint lines) := by
  have hgran : ∀ (t : State) (x : Gran), KeepsJobs t (setGran t g x) := fun _ _ => .of_eq rfl rfl
  have hcount : ∀ m, KeepsJobs s { s with hub := { s.hub with sampleCtr := m } } := fun _ => .of_eq rfl rfl
  have hsampled : ∀ (n m : Nat) (x : Gran), KeepsJobs s (if n = 0 then { s with hub := { s.hub with sampleCtr := m } }
      else setGran { s with hub := { s.hub with sampleCtr := m } } g x) := fun _ _ _ => .ite (hcount _) ((hcount _).trans (hgran _ _))
  unfold touchGranule
  dsimp only
  refine .ite (hgran _ _) (.ite .refl (.ite ?_ .refl))
  exact .ite ((hsampled _ _ _).trans hotReport_keepsJobs) (.ite ((hsampled _ _ _).trans hotReport_keepsJobs) (hsampled _ _ _))

theorem touchSpan_keepsJobs {astag hint : Nat} : KeepsJobs s (touchSpan s a n astag hint) :=
  .trans (.foldl fun _ _ => touchFrame_keepsJobs) (.foldl fun _ _ => touchGranule_keepsJobs)

theorem piecesTouch_keepsJobs {ps : List Piece} : KeepsJobs s (piecesTouch s ps) :=
  .foldl fun _ _ => .trans (.ite (.bump (by decide)) .refl) touchSpan_keepsJobs

/-! ### Range translation (R244 to R252) -/

theorem setRc_keepsJobs {c : Option Nat} {l : List RcEntry} : KeepsJobs s (setRc s c l) := by
  cases c with
  | none => exact .of_eq rfl rfl
  | some e => exact .of_eq rfl rfl

theorem rcLookup_keepsJobs {c : Option Nat} {astag va : Nat} : KeepsJobs s (rcLookup s c astag va).1 := by
  have hcount : ∀ (t : State) (r : Nat → Reg) (f : Fd), (∀ e, (r e).key.blk = .engP) →
      KeepsJobs t (match c with | some i => bump t (r i) f 1 | none => t) := fun t r f hr => by
    cases c with
    | none => exact .refl
    | some e => exact .bump (by simp [hr])
  unfold rcLookup
  split
  · exact setRc_keepsJobs.trans (hcount _ rRcHits _ fun _ => rfl)
  · exact hcount _ rRcMisses _ fun _ => rfl

theorem walk_keepsJobs {astag part va : Nat} : KeepsJobs s (walk s astag part va).1 := by
  have hwalk : KeepsJobs s (bump s rRhWalks fRhWalksCount 1) := .bump (by decide)
  have hroot : ∀ x, KeepsJobs s (hubTouch (bump s rRhWalks fRhWalksCount 1) x 16) := fun _ => hwalk.trans hubTouch_keepsJobs
  have hread : ∀ (l : List Nat) (x : Nat) {t t2 : State} (c : Prop) [Decidable c], KeepsJobs s t → KeepsJobs s t2 →
      KeepsJobs s (l.foldl (fun t j => hubTouch t (x + 32 * j) 32) (if c then t else t2)) :=
    fun _ _ _ _ _ _ ht ht2 => (KeepsJobs.ite ht ht2).trans (.foldl fun _ _ => hubTouch_keepsJobs)
  have hseen : ∀ (l : List Nat) (x y : Nat) (c : Prop) [Decidable c], KeepsJobs s (l.foldl (fun t j => hubTouch t (x + 32 * j) 32)
      (if c then hubTouch (bump s rRhWalks fRhWalksCount 1) y 16 else (drawFree (hubTouch (bump s rRhWalks fRhWalksCount 1) y 16)).2)) :=
    fun l x y c _ => hread l x c (hroot y) ((hroot y).trans (.of_eq rfl rfl))
  unfold walk
  dsimp only
  refine .ite_fst .refl (.ite_fst hwalk (.ite_fst hwalk (.ite_fst (hroot _) (.ite_fst (hroot _) ?_))))
  refine .ite_fst ((hseen _ _ _ _).trans (.bump (by decide))) (.ite_fst (hseen _ _ _ _) (.ite_fst ((hseen _ _ _ _).trans (.bump (by decide))) ?_))
  exact .ite_fst (.ite ((hseen _ _ _ _).trans (.bump (by decide))) (hseen _ _ _ _)) (.ite ((hseen _ _ _ _).trans (.bump (by decide))) (hseen _ _ _ _))

theorem lookupEntry_keepsJobs {q : XReq} {va : Nat} : KeepsJobs s (lookupEntry s q va).1 := by
  unfold lookupEntry
  split
  · next h => exact rcLookup_keepsJobs.of_fst h
  · next h =>
    have hmiss := rcLookup_keepsJobs.of_fst h
    split
    · next hw => exact (hmiss.trans (walk_keepsJobs.of_fst hw)).trans setRc_keepsJobs
    · next hw => exact hmiss.trans (walk_keepsJobs.of_fst hw)

theorem xlatePiece_keepsJobs {q : XReq} {va : Nat} : KeepsJobs s (xlatePiece s q va n).1 := by
  unfold xlatePiece
  split
  · next h => exact lookupEntry_keepsJobs.of_fst h
  · next h => exact lookupEntry_keepsJobs.of_fst h
  · next h =>
    have hentry := lookupEntry_keepsJobs.of_fst h
    split
    · exact hentry
    · exact .ite_fst hentry hentry

theorem xlateFrom_keepsJobs {q : XReq} {k va : Nat} {acc : List Piece} : KeepsJobs s (xlateFrom s q k va n acc).1 := by
  induction k generalizing s va n acc with
  | zero => exact .refl
  | succ k ih =>
    unfold xlateFrom
    refine .ite_fst .refl ?_
    split
    · next h => exact (xlatePiece_keepsJobs.of_fst h).trans ih
    · next h => exact xlatePiece_keepsJobs.of_fst h

theorem xlate_keepsJobs {q : XReq} {va : Nat} : KeepsJobs s (xlate s q va n).1 := by
  unfold xlate
  split
  · next h => exact .ite_fst (xlateFrom_keepsJobs.of_fst h) (xlateFrom_keepsJobs.of_fst h)
  · next h => exact xlateFrom_keepsJobs.of_fst h

/-! ### The group of a job (R252, R331) -/

theorem flushConsults_keepsJobs : KeepsJobs s (flushConsults s) :=
  .foldl fun _ _ => .ite .refl (.trans (ringPut_keepsJobs (by decide)) (.of_eq rfl rfl))

theorem addConsult_keepsJobs {r : XlateReq} {e : RcEntry} : KeepsJobs s (addConsult s r e).1 := by
  refine .trans ?_ flushConsults_keepsJobs
  exact .of_eq rfl rfl

theorem askHub_keepsJobs {q : XReq} {va : Nat} {e : RcEntry} {w : HubAsk} : KeepsJobs s (askHub s q va e w) :=
  .ite .refl (.trans addConsult_keepsJobs (.of_eq rfl rfl))

theorem readGroup_keepsJobs {gid : Nat} : KeepsJobs s (readGroup s p gid).1 := by
  unfold readGroup
  refine .ite_fst .refl (.ite_fst hubTouch_keepsJobs ?_)
  have hx : ∀ x {q : XReq} {va m : Nat}, KeepsJobs s (xlate (hubTouch s x 64) q va m).1 := fun _ => hubTouch_keepsJobs.trans xlate_keepsJobs
  dsimp only
  split
  · next h => exact .ite_fst ((hx _).of_fst h) (((hx _).of_fst h).trans piecesTouch_keepsJobs)
  all_goals
    next h => exact (hx _).of_fst h

theorem jobGroup_keepsJobs {gid : Nat} : KeepsJobs s (jobGroup s p gid).1 := by
  unfold jobGroup
  split
  · next h => exact (readGroup_keepsJobs.of_fst h).trans askHub_keepsJobs
  · exact readGroup_keepsJobs

theorem voteGroup_keepsJobs : KeepsJobs s (voteGroup s p).1 := by
  unfold voteGroup
  split
  · next h => exact jobGroup_keepsJobs.of_fst h
  · next h => exact jobGroup_keepsJobs.of_fst h

/-! ### Frames that leave (R314 to R325) -/

theorem setConn_keepsJobs {id : Nat} {x : Conn} : KeepsJobs s (setConn s id x) := .of_eq rfl rfl

theorem setPort_keepsJobs {x : Port} : KeepsJobs s (setPort s p x) := by
  refine .trans ?_ (KeepsJobs.setF (by simp [rFabPort]))
  exact .of_eq rfl rfl

theorem putSealed_keepsJobs {f : Frame} {body : Bytes} : KeepsJobs s (putSealed s p f body) := by
  have hcount : KeepsJobs s (bump s (rPortTxFrames p) fPortTxFramesTxFrames 1) := .bump (by simp [rPortTxFrames])
  unfold putSealed
  dsimp only
  split
  · exact (hcount.trans setPort_keepsJobs).trans (.of_eq rfl rfl)
  · exact hcount.trans (.of_eq rfl rfl)

theorem transmit_keepsJobs {id : Nat} {x : Pkt} {ps : List Nat} : KeepsJobs s (transmit s id x ps) := by
  refine .ite ?_ (.foldl fun _ _ => putSealed_keepsJobs)
  exact .trans (.ite (setConn_keepsJobs.trans (.setF (by simp [rSecPart]))) setConn_keepsJobs) putSealed_keepsJobs

theorem retransmit_keepsJobs {id psn : Nat} : KeepsJobs s (retransmit s id psn) := by
  have hput : ∀ {x : Conn} {q : Nat} {f : Frame} {body : Bytes}, KeepsJobs s (putSealed (bump (setConn s id x) rRetx fRetx 1) q f body) :=
    (setConn_keepsJobs.trans (.bump (by decide))).trans putSealed_keepsJobs
  unfold retransmit
  dsimp only
  split
  · exact .refl
  · split
    · exact hput
    · exact hput
    · exact setConn_keepsJobs

theorem useCtx_keepsJobs {id : Nat} : KeepsJobs s (useCtx s id).1 := by
  refine .ite_fst (.of_eq rfl rfl) (.ite_fst .refl ?_)
  exact .trans (KeepsJobs.bump (by decide)) setConn_keepsJobs

theorem pumpQ_keepsJobs {id q : Nat} {one blocked : Bool} {l rest : List Pkt} : KeepsJobs s (pumpQ s id q one l blocked rest) := by
  induction l generalizing s blocked rest with
  | nil => exact setConn_keepsJobs
  | cons x l ih =>
    refine .ite ih ?_
    split
    · exact ih
    · exact .ite (transmit_keepsJobs.trans setConn_keepsJobs) (transmit_keepsJobs.trans ih)

theorem pumpQueue_keepsJobs {q id : Nat} {one : Bool} : KeepsJobs s (pumpQueue s q one id) := by
  refine .ite ?_ .refl
  split
  · next h => exact (useCtx_keepsJobs.of_fst h).trans pumpQ_keepsJobs
  · next h => exact useCtx_keepsJobs.of_fst h

theorem pump_keepsJobs {id : Nat} : KeepsJobs s (pump s id) := by
  have hagain : KeepsJobs s (sendAgain s id) := .foldl fun _ _ => retransmit_keepsJobs
  unfold pump
  exact ((hagain.trans pumpQueue_keepsJobs).trans pumpQueue_keepsJobs).trans pumpQueue_keepsJobs

theorem sendFrame_keepsJobs {id owner : Nat} {f : Frame} : KeepsJobs s (sendFrame s id f owner) := by
  unfold sendFrame
  exact setConn_keepsJobs.trans pump_keepsJobs

theorem halySend_keepsJobs {q opcode : Nat} {data : Bytes} : KeepsJobs s (halySend s p q opcode data) := by
  unfold halySend
  split
  · exact .refl
  · exact sendFrame_keepsJobs

end Sys2Proof.Machine
end

section
namespace Sys2Proof.Machine
open Sys2Proof

/-! PROOFS. The Halyard merges, votes and decides (O48).

The outcome of a step is recorded (`outcomeRecorded`), what a VOID ends is ended, and the job then awaits the next step (`outcomeTaken`); frames to the
children follow, and neither they nor what the record's write and the vote group's read touch is a job's own (`KeepsJobs`). -/

variable {s t u : State} {p : Fin 16} {q code : Nat} {c : ClosedStep} {f : Frame}

/-! ### What a read of the hub leaves -/

theorem restartAges_rest {a n : Nat} : ∃ h, restartAges s a n = { s with hub := h } := by
  have hframe : ∀ t : State, ∀ g, (∃ h, t = { s with hub := h }) → ∃ h, touchFrame t g = { s with hub := h } := by
    rintro _ g ⟨h, rfl⟩
    unfold touchFrame
    split
    · exact ⟨_, rfl⟩
    · exact ⟨_, rfl⟩
  refine List.foldlRecOn (motive := fun t => ∃ h, t = { s with hub := h }) _ _ ?_ ?_
  · exact List.foldlRecOn (motive := fun t => ∃ h, t = { s with hub := h }) _ _ ⟨s.hub, rfl⟩ fun t ht g _ => hframe t g ht
  · rintro _ ⟨h, rfl⟩ g -
    split
    · exact ⟨_, rfl⟩
    · exact ⟨_, rfl⟩

theorem hubTouch_rest {a n : Nat} : ∃ h r, hubTouch s a n = { s with hub := h, regs := r } := by
  obtain ⟨h, hrest⟩ := restartAges_rest (s := bump s rOwnerSupply fOwnerSupply (ownedLines s a n)) (a := a) (n := n)
  exact ⟨h, _, hrest⟩

/-! ### SNAPSHOT_MERGE (R297) -/

/-- The merged records of a closed step, in their free order. -/
def mergedOf (s : State) (c : ClosedStep) : List StatEntry := freeOrder s.freeCtr (c.snap.foldl mergeInto [])

/-- The bytes of records at STAT_OUT. -/
def statRecords (l : List StatEntry) : Bytes := l.flatMap (fun x => statBytes (if x.tensor = 0xFFFF then 255 else 0) x.fitted)

/-- The records written at STAT_OUT, as far as its capacity goes. -/
def statOutPut (s : State) (p : Nat) (l : List StatEntry) : State :=
  if (statRecords (statOutList l (getF s (rStatOut p) fStatOutStatOutCap))).isEmpty then s
  else hubPut s (getF s (rStatOut p) fStatOut * 4096) (statRecords (statOutList l (getF s (rStatOut p) fStatOutStatOutCap)))

/-- So many free values drawn. -/
def freeDrawn (s : State) (n : Nat) : State := { s with freeCtr := s.freeCtr + n }

theorem statRecords_isEmpty {l : List StatEntry} : (statRecords l).isEmpty = l.isEmpty := by
  cases l with
  | nil => rfl
  | cons x l => rfl

theorem statOutPut_no_capacity {l : List StatEntry} (h : getF s (rStatOut q) fStatOutStatOutCap = 0) : statOutPut s q l = s := by
  have hnil : statOutList l 0 = [] := by
    cases l with
    | nil => rfl
    | cons x l => rfl
  rw [statOutPut, h, hnil]
  rfl

theorem statOutPut_fits {l : List StatEntry} (hne : l ≠ []) (h : l.length ≤ getF s (rStatOut q) fStatOutStatOutCap) :
    statOutPut s q l = hubPut s (getF s (rStatOut q) fStatOut * 4096) (statRecords l) := by
  rw [statOutPut, statRecords_isEmpty, statOutList, if_pos h, if_neg (by simpa using hne)]

theorem snapshotMerge_idle (h : ∀ c ∈ (job s p).closed, c.done = true) : exec (.snapshotMerge p) s = .next s := by
  have hnone : (job s p).closed.find? (fun c => !c.done) = none := List.find?_eq_none.2 fun c hc => by simp [h c hc]
  change execSnapshotMerge p s = _
  simp only [execSnapshotMerge, hnone]

theorem snapshotMerge_merges (hclosed : (job s p).closed = [c]) (hdone : c.done = false) (hle : (job s p).awaited ≤ c.step) :
    exec (.snapshotMerge p) s = .next (setJob (statOutPut (freeDrawn s (mergedOf s c).length) p (mergedOf s c)) p
      { job s p with closed := [{ c with merged := mergedOf s c, done := true }] }) := by
  have hfind : (job s p).closed.find? (fun c => !c.done) = some c := by simp [hclosed, hdone]
  have hkeep : ([c].map (fun d => if d.step = c.step then { d with merged := mergedOf s c, done := true } else d)).filter
      (fun d => !(d.done && decide (d.step < (job s p).awaited))) = [{ c with merged := mergedOf s c, done := true }] := by simp [hle]
  change execSnapshotMerge p s = _
  rw [← hkeep, ← hclosed]
  simp only [execSnapshotMerge, hfind]
  rfl

/-! ### Cause masks -/

/-- The bits below `n` at which `f` holds, as a number. -/
def maskOf (f : Nat → Bool) (n : Nat) : Nat := (List.range n).foldl (fun t i => if f i then t + 2 ^ i else t) 0

theorem maskOf_succ {f : Nat → Bool} {n : Nat} : maskOf f (n + 1) = if f n then maskOf f n + 2 ^ n else maskOf f n := by
  simp [maskOf, List.range_succ]

theorem maskOf_lt {f : Nat → Bool} {n : Nat} : maskOf f n < 2 ^ n := by
  induction n with
  | zero => exact Nat.one_pos
  | succ n ih =>
    rw [maskOf_succ, Nat.pow_succ]
    split <;> omega

theorem maskOf_ne_zero {f : Nat → Bool} {i n : Nat} (hi : i < n) (h : f i = true) : maskOf f n ≠ 0 := by
  induction n with
  | zero => omega
  | succ n ih =>
    have hpos : 0 < 2 ^ n := Nat.two_pow_pos n
    rw [maskOf_succ]
    rcases Nat.lt_succ_iff_lt_or_eq.1 hi with hlt | rfl
    · have hrest := ih hlt
      split <;> omega
    · rw [if_pos h]
      omega

theorem orMask_lt {a b : Nat} : orMask a b < 2 ^ 11 := maskOf_lt (f := fun i => bitOf a i || bitOf b i)

theorem orMask_ne_zero {a b i : Nat} (hi : i < 11) (h : bitOf b i = true) : orMask a b ≠ 0 :=
  maskOf_ne_zero (f := fun i => bitOf a i || bitOf b i) hi (by simp [h])

/-! ### HALYARD_VOTE (R288, R296, R299) -/

/-- The causes of a member's vote: its tests', those raised, and that of a job that is STATE_LOST. -/
def voteCauses (s : State) (p : Nat) (c : ClosedStep) : Nat :=
  orMask (orMask (testCauses s p c) (causesOf (job s p) c.step)) (if (job s p).lost then 2 ^ 9 else 0)

/-- The causes of a vote shown and counted. -/
def causesShown (s : State) (p causes : Nat) : State :=
  (List.range 11).foldl (fun s i => if bitOf causes i then evrCount s 7 p (4 + i) 1 else s)
    (setF (if bulkSpan s (gchkAddr s p 0) (65536 * 32) then hubTouch s (gchkAddr s p 0) (65536 * 32) else s) (rPennantCause p) fPennantCauseCause causes)

/-- The member's vote on a closed step. -/
def voteMade (s : State) (p : Nat) (c : ClosedStep) : State :=
  setJob (causesShown s p (voteCauses s p c)) p
    { job s p with ownVote := some (decide (voteCauses s p c ≠ 0)), votedLost := (job s p).lost
                   voted := some (c.step, (causesShown s p (voteCauses s p c)).time)
                   closed := (job s p).closed.filter (fun d => decide (d.step ≠ c.step)) }

theorem halyVote_of_none (h : (job s q).closed.find? (fun c => decide (c.step = (job s q).awaited)) = none) : halyVote s q = s := by
  simp only [halyVote, h]

theorem halyVote_of_some (h : (job s q).closed.find? (fun c => decide (c.step = (job s q).awaited)) = some c) : halyVote s q =
    if ¬jobEnabled s q ∨ (job s q).diverged ∨ (job s q).restore.isSome ∨ (job s q).ownVote.isSome ∨ ¬c.done ∨ stepPending s q c.step ≠ 0 then s
    else halyProgress (voteMade s q c) q := by
  simp only [halyVote, h]
  rfl

theorem halyVote_idle (h : (∀ c ∈ (job s q).closed, c.step ≠ (job s q).awaited) ∨ (job s q).ownVote.isSome = true ∨ jobEnabled s q = false ∨
    ∃ c, (job s q).closed.find? (fun c => decide (c.step = (job s q).awaited)) = some c ∧ (c.done = false ∨ stepPending s q c.step ≠ 0)) :
    halyVote s q = s := by
  cases hfind : (job s q).closed.find? (fun c => decide (c.step = (job s q).awaited)) with
  | none => exact halyVote_of_none hfind
  | some c =>
    rw [halyVote_of_some hfind, if_pos]
    rcases h with hno | hown | hen | ⟨d, hd, hwait⟩
    · exact absurd (List.find?_some hfind) (by simpa using hno c (List.mem_of_find?_eq_some hfind))
    · exact .inr (.inr (.inr (.inl hown)))
    · exact .inl (by simp [hen])
    · obtain rfl : c = d := Option.some.inj (hfind.symm.trans hd)
      exact .inr (.inr (.inr (.inr (hwait.imp (by simp) id))))

theorem halyVote_votes (hfind : (job s q).closed.find? (fun c => decide (c.step = (job s q).awaited)) = some c) (hen : jobEnabled s q = true)
    (hdiv : (job s q).diverged = false) (hres : (job s q).restore = none) (hown : (job s q).ownVote = none) (hdone : c.done = true)
    (hpend : stepPending s q c.step = 0) : halyVote s q = halyProgress (voteMade s q c) q := by
  rw [halyVote_of_some hfind, if_neg (by simp [hen, hdiv, hres, hown, hdone, hpend])]

theorem foldl_evrCount_rest {g : Nat → Bool} {l : List Nat} :
    ∃ r, l.foldl (fun s i => if g i then evrCount s 7 q (4 + i) 1 else s) s = { s with rel := r } := by
  refine List.foldlRecOn (motive := fun t => ∃ r, t = { s with rel := r }) _ _ ⟨s.rel, rfl⟩ ?_
  rintro _ ⟨r, rfl⟩ i -
  split
  · exact ⟨_, rfl⟩
  · exact ⟨_, rfl⟩

theorem causesShown_shows {k : Nat} (hk : k < 2 ^ 11) : (causesShown s q k).mem = s.mem ∧ (causesShown s q k).time = s.time ∧
    getF (causesShown s q k) (rPennantCause q) fPennantCauseCause = k := by
  obtain ⟨h, r, htouch⟩ := hubTouch_rest (s := s) (a := gchkAddr s q 0) (n := 65536 * 32)
  have hread : ∀ t : State, t = (if bulkSpan s (gchkAddr s q 0) (65536 * 32) then hubTouch s (gchkAddr s q 0) (65536 * 32) else s) →
      t.mem = s.mem ∧ t.time = s.time := by
    rintro t rfl
    split
    · rw [htouch]
      exact ⟨rfl, rfl⟩
    · exact ⟨rfl, rfl⟩
  unfold causesShown
  generalize hu : (if bulkSpan s (gchkAddr s q 0) (65536 * 32) then _ else s) = u
  obtain ⟨hmem, htime⟩ := hread u hu.symm
  obtain ⟨r, hrest⟩ := foldl_evrCount_rest (s := setF u (rPennantCause q) fPennantCauseCause k) (q := q) (g := bitOf k) (l := List.range 11)
  rw [hrest]
  exact ⟨hmem, htime, (getF_setF_same u _ _ _ (by decide)).trans (Nat.mod_eq_of_lt hk)⟩

theorem voteCauses_lost (h : (job s q).lost = true) : voteCauses s q c ≠ 0 :=
  orMask_ne_zero (i := 9) (by decide) (by rw [h]; decide)

/-! ### Frames of the Halyard (R327, R336) -/

section
variable {k : Nat} (hop : f.opcode.toNat = k) (hcls : f.cls = 2) (htake : takeIn s f = (t, true)) (hadmit : admitConn t f = (u, true))
include hop hcls htake hadmit

theorem halyFrame_admitted : halyFrame s f k =
    if ¬inDomain u f.srcPeer.toNat then (sendNack u f.conn.toNat f 0x22, none)
    else if u.fab.halySeen.elem (u8At f.payload 12 % 16, beAt f.payload 0 6, k, f.srcPeer.toNat) then (u, none)
    else ({ u with fab := { u.fab with halySeen := (u8At f.payload 12 % 16, beAt f.payload 0 6, k, f.srcPeer.toNat) :: u.fab.halySeen } },
      some (u8At f.payload 12 % 16, beAt f.payload 0 6)) := by
  rw [halyFrame, if_neg (by simp [hop, hcls]), htake]
  dsimp only
  rw [hadmit]

theorem halyFrame_foreign (hdom : inDomain u f.srcPeer.toNat = false) : halyFrame s f k = (sendNack u f.conn.toNat f 0x22, none) := by
  rw [halyFrame_admitted hop hcls htake hadmit, if_pos (by simp [hdom])]

theorem halyFrame_seen (hdom : inDomain u f.srcPeer.toNat = true)
    (hseen : (u8At f.payload 12 % 16, beAt f.payload 0 6, k, f.srcPeer.toNat) ∈ u.fab.halySeen) : halyFrame s f k = (u, none) := by
  rw [halyFrame_admitted hop hcls htake hadmit, if_neg (by simp [hdom]), if_pos (List.elem_eq_true_of_mem hseen)]

theorem halyFrame_new (hdom : inDomain u f.srcPeer.toNat = true)
    (hseen : (u8At f.payload 12 % 16, beAt f.payload 0 6, k, f.srcPeer.toNat) ∉ u.fab.halySeen) : halyFrame s f k =
    ({ u with fab := { u.fab with halySeen := (u8At f.payload 12 % 16, beAt f.payload 0 6, k, f.srcPeer.toNat) :: u.fab.halySeen } },
      some (u8At f.payload 12 % 16, beAt f.payload 0 6)) := by
  rw [halyFrame_admitted hop hcls htake hadmit, if_neg (by simp [hdom]), if_neg (by simpa using hseen)]

end

section
variable {n : Nat}

theorem halyardUp_of_none (h : halyFrame s f 0x20 = (t, none)) : exec (.halyardUp f) s = .next t := by
  change execHalyardUp f s = _
  rw [execHalyardUp, h]

theorem halyardDown_of_none (h : halyFrame s f 0x21 = (t, none)) : exec (.halyardDown f) s = .next t := by
  change execHalyardDown f s = _
  rw [execHalyardDown, h]

theorem halyardUp_stale (h : halyFrame s f 0x20 = (t, some (q, n))) (hstale : jobEnabled t q = false ∨ n ≠ (job t q).awaited) :
    exec (.halyardUp f) s = .next (staleVote t q) := by
  change execHalyardUp f s = _
  rw [execHalyardUp, h]
  dsimp only
  rw [if_pos (by simpa using hstale)]

theorem halyardUp_contributes {g : Grp} {r : Nat} (h : halyFrame s f 0x20 = (t, some (q, (job t q).awaited))) (hen : jobEnabled t q = true)
    (hgroup : voteGroup t q = (u, some g)) (hchild : (treeKids g.size g.rank).find? (fun r => decide (g.members.getD r 0 = f.srcPeer.toNat)) = some r) :
    exec (.halyardUp f) s =
      .next (halyProgress (setJob u q { job t q with kids := (job t q).kids ++ [(r, bitOf (u8At f.payload 6) 0, beAt f.payload 8 4)] }) q) := by
  change execHalyardUp f s = _
  rw [execHalyardUp, h]
  dsimp only
  rw [if_neg (by simp [hen]), hgroup]
  dsimp only
  rw [hchild]

theorem halyardDown_stale (h : halyFrame s f 0x21 = (t, some (q, n))) (hstale : jobEnabled t q = false ∨ n ≠ (job t q).awaited) :
    exec (.halyardDown f) s = .next (staleVote t q) := by
  change execHalyardDown f s = _
  rw [execHalyardDown, h]
  dsimp only
  rw [if_pos (by simpa using hstale)]

theorem halyardDown_applies (h : halyFrame s f 0x21 = (t, some (q, (job t q).awaited))) (hen : jobEnabled t q = true)
    (hlo : 1 ≤ u8At f.payload 6 / 2 % 8) (hhi : u8At f.payload 6 / 2 % 8 ≤ 3) :
    exec (.halyardDown f) s = .next (applyOutcome t q (u8At f.payload 6 / 2 % 8)) := by
  change execHalyardDown f s = _
  rw [execHalyardDown, h]
  dsimp only
  rw [if_neg (by simp [hen]), if_neg (by omega)]

end

/-! ### The time limits (R299, R300) -/

theorem halyardTimeout_none (h : (job s p).firstAt = none) : exec (.halyardTimeout p) s = .next s := by
  change execHalyardTimeout p s = _
  simp only [execHalyardTimeout, h]

theorem halyardTimeout_eq {t0 : Nat} {g : Grp} (hfirst : (job s p).firstAt = some t0) (hgroup : voteGroup s p = (u, some g)) :
    exec (.halyardTimeout p) s =
      .next (if jobEnabled u p ∧ g.rank = 0 ∧ t0 + objNat u oHalyardTimeout * 1000000 ≤ u.time then applyOutcome u p 3 else u) := by
  change execHalyardTimeout p s = _
  simp only [execHalyardTimeout, hfirst, hgroup]

theorem divergedTimeout_eq {t0 : Nat} (hvoted : (job s p).voted = some ((job s p).awaited, t0)) (hown : (job s p).ownVote.isSome = true) :
    exec (.divergedTimeout p) s =
      .next (if jobEnabled s p ∧ t0 + 2 * (objNat s oHalyardTimeout * 1000000) ≤ s.time then applyOutcome s p 4 else s) := by
  change execDivergedTimeout p s = _
  simp only [execDivergedTimeout, hvoted, hown, true_and]

/-! ### Outcomes (R299 to R301) -/

/-- The outcome that this member takes: STATE_LOST stays its own (R300). -/
def outcomeHere (j : Job) (code : Nat) : Nat := if j.ownVote.isSome && j.votedLost then 5 else code

/-- The children of this member's tree node: rank and peer. -/
def outcomeKids (s : State) (p : Nat) : List (Nat × Nat) := match (voteGroup s p).2 with
  | some g => (treeKids g.size g.rank).map (fun r => (r, g.members.getD r 0))
  | none => []

/-- The peers of the children without a contribution. -/
def outcomeMiss (s : State) (p : Nat) : List Nat :=
  ((outcomeKids s p).filter (fun k => !(job s p).kids.any (fun y => decide (y.1 = k.1)))).map (fun k => k.2)

/-- HALY_MISS and the step block's record of the outcome. -/
def outcomeWritten (s : State) (p code : Nat) : State :=
  hubPut (setMiss (voteGroup s p).1 p (outcomeMiss s p)) (blockAddr (setMiss (voteGroup s p).1 p (outcomeMiss s p)) p 0)
    (natLE 8 ((job s p).awaited * 16 + outcomeHere (job s p) code))

/-- STEP_STATUS with the outcome. -/
def outcomeStatus (s : State) (p code : Nat) : State :=
  setF (setF (outcomeWritten s p code) (rStepStatus p) fStepStatusLastOutcome (outcomeHere (job s p) code)) (rStepStatus p) fStepStatusLastStep
    (job s p).awaited

/-- The outcome as the registers and the event recorder have it. -/
def outcomeRecorded (s : State) (p code : Nat) : State :=
  let st := (job s p).awaited
  let s' := countOutcome (outcomeStatus s p code) p (outcomeHere (job s p) code)
  let s' := if code = 3 then evrEvent s' 8 p (natLE 8 st ++ (List.range 16).flatMap (fun k => natLE 2 ((outcomeMiss s p).getD k (peerId s')))) else s'
  match (job s p).voted with
  | some (v, t) => if v = st then evrLatency s' 27 (s'.time - t) else s'
  | none => s'

/-- A job after an outcome of the step `st`, at this member `here`. -/
def jobAfter (j : Job) (st here : Nat) : Job :=
  { j with awaited := (st + 1) % 2 ^ 48, ownVote := none, votedLost := false, kids := [], upSent := false, firstAt := none
           causes := j.causes.filter (fun x => decide (st < x.1)), diverged := j.diverged || decide (here = 4)
           hoists := if here = 1 then j.hoists ++ [st] else j.hoists, closed := j.closed.filter (fun c => !(c.done && decide (c.step ≤ st))) }

/-- The job and the frames seen, once the outcome of the step `st` is recorded in `s`. -/
def stepLeft (s : State) (p st here : Nat) : State :=
  let s' := setJob s p (jobAfter (job s p) st here)
  { s' with fab := { s'.fab with halySeen := s'.fab.halySeen.filter (fun x => !(decide (x.1 = p) && decide (x.2.1 < st))) } }

/-- The outcome recorded, a VOID's commands ended, the next step awaited. -/
def outcomeTaken (s : State) (p code : Nat) : State :=
  stepLeft (if code = 3 then voidStep (outcomeRecorded s p code) p (job s p).awaited else outcomeRecorded s p code) p (job s p).awaited
    (outcomeHere (job s p) code)

theorem applyOutcome_eq : applyOutcome s q code =
    if code = 4 then outcomeTaken s q code
    else (outcomeKids s q).foldl (fun t k => halySend t q k.2 0x21 (halyBytes (job s q).awaited false code 0 q)) (outcomeTaken s q code) := rfl

theorem applyOutcome_keepsJobs : KeepsJobs (outcomeTaken s q code) (applyOutcome s q code) := by
  rw [applyOutcome_eq]
  exact .ite .refl (.foldl fun _ _ => halySend_keepsJobs)

theorem job_stepLeft {st here : Nat} : job (stepLeft s q st here) q = jobAfter (job s q) st here := job_setJob_same

theorem job_applyOutcome : job (applyOutcome s q code) q =
    jobAfter (job (if code = 3 then voidStep (outcomeRecorded s q code) q (job s q).awaited else outcomeRecorded s q code) q) (job s q).awaited
      (outcomeHere (job s q) code) := applyOutcome_keepsJobs.job_eq.trans job_stepLeft

/-! ### What the record of an outcome leaves -/

theorem setMiss_keeps {l : List Nat} : (setMiss s q l).jobs = s.jobs ∧ getR (setMiss s q l) (rStepStatus q) = getR s (rStepStatus q) := by
  refine List.foldlRecOn (motive := fun t : State => t.jobs = s.jobs ∧ getR t (rStepStatus q) = getR s (rStepStatus q)) _ _ ⟨rfl, rfl⟩ ?_
  rintro t ⟨hjobs, hstatus⟩ i -
  exact ⟨hjobs, (getR_setR_ne _ _ _ _ (key_ne_of_off (by simp only [rHalyMiss, rStepStatus]; omega))).trans hstatus⟩

theorem countOutcome_keeps : (countOutcome s q code).jobs = s.jobs ∧ getR (countOutcome s q code) (rStepStatus q) = getR s (rStepStatus q) := by
  have hcount : ∀ {t : State} (r : Reg) (f : Fd), t.jobs = s.jobs ∧ t.regs = s.regs → r.key.off ≠ 0x10 →
      (bump t r f 1).jobs = s.jobs ∧ getR (bump t r f 1) (rStepStatus q) = getR s (rStepStatus q) := by
    rintro t r f ⟨hjobs, hregs⟩ hoff
    exact ⟨hjobs, (getR_setR_ne _ _ _ _ (key_ne_of_off hoff)).trans (by rw [getR, hregs, getR])⟩
  unfold countOutcome
  split
  · exact hcount _ _ ⟨rfl, rfl⟩ (by simp [rHoists])
  · exact hcount _ _ ⟨rfl, rfl⟩ (by simp [rSkipRaised])
  · exact hcount _ _ ⟨rfl, rfl⟩ (by simp [rSkipVoid])
  · exact hcount _ _ ⟨rfl, rfl⟩ (by simp [rDivergedCount])
  · exact ⟨rfl, rfl⟩

theorem outcomeWritten_jobs : (outcomeWritten s q code).jobs = s.jobs :=
  (hubPut_keepsJobs.jobs.trans setMiss_keeps.1).trans voteGroup_keepsJobs.jobs

theorem outcomeRecorded_eq : ∃ r, outcomeRecorded s q code = { countOutcome (outcomeStatus s q code) q (outcomeHere (job s q) code) with rel := r } := by
  unfold outcomeRecorded
  dsimp only
  split
  · split
    all_goals
      split
      all_goals exact ⟨_, rfl⟩
  · split
    all_goals exact ⟨_, rfl⟩

theorem outcomeRecorded_keeps : (outcomeRecorded s q code).jobs = s.jobs ∧
    getR (outcomeRecorded s q code) (rStepStatus q) = getR (outcomeStatus s q code) (rStepStatus q) := by
  obtain ⟨r, hrest⟩ := outcomeRecorded_eq (s := s) (q := q) (code := code)
  obtain ⟨hjobs, hstatus⟩ := countOutcome_keeps (s := outcomeStatus s q code) (q := q) (code := outcomeHere (job s q) code)
  rw [hrest]
  exact ⟨hjobs.trans outcomeWritten_jobs, hstatus⟩

theorem outcomeStatus_shows : getF (outcomeStatus s q code) (rStepStatus q) fStepStatusLastOutcome = outcomeHere (job s q) code % 2 ^ 3 ∧
    getF (outcomeStatus s q code) (rStepStatus q) fStepStatusLastStep = (job s q).awaited % 2 ^ 48 :=
  ⟨(getF_setF_apart _ _ _ _ _ (by decide) (by decide) (by decide)).trans (getF_setF_same _ _ _ _ (by decide)), getF_setF_same _ _ _ _ (by decide)⟩

theorem outcomeHere_eq (hmember : (job s q).ownVote = none ∨ (job s q).votedLost = false) : outcomeHere (job s q) code = code := by
  rcases hmember with h | h
  all_goals simp [outcomeHere, h]

theorem getF_applyOutcome {x : Fd} (hcode : code ≠ 3) :
    getF (applyOutcome s q code) (rStepStatus q) x = getF (outcomeStatus s q code) (rStepStatus q) x := by
  refine (applyOutcome_keepsJobs.getF_eq rfl).trans ?_
  rw [outcomeTaken, if_neg hcode]
  exact congrArg (fget · x) outcomeRecorded_keeps.2

theorem hoists_applyOutcome (hcode : code ≠ 3) : (job (applyOutcome s q code) q).hoists =
    if outcomeHere (job s q) code = 1 then (job s q).hoists ++ [(job s q).awaited] else (job s q).hoists := by
  rw [job_applyOutcome, if_neg hcode, job_of_jobs_eq outcomeRecorded_keeps.1]
  rfl

/-! ### The statement -/

/-- Settles O48: merge, vote, frames and time limits each take one branch of their row; an outcome leaves the job awaiting the next step. -/
theorem theHalyardDecidesSteps : Obligations.TheHalyardDecidesSteps := by
  unfold Obligations.TheHalyardDecidesSteps
  refine ⟨fun _ _ => snapshotMerge_idle, ?_, ?_, ?_, ?_, fun _ _ _ _ _ => halyardUp_stale, ?_, ?_, ?_, fun _ _ => halyardTimeout_none, ?_, ?_, ?_⟩
  · intro s p c hclosed hdone hle
    refine ⟨_, mergedOf s c, snapshotMerge_merges hclosed hdone hle, congrArg Job.closed job_setJob_same, freeOrder_perm _ _, fun hcap => ?_,
      fun hne hfits => ?_⟩
    · rw [statOutPut_no_capacity (s := freeDrawn s _) hcap]
      exact ⟨rfl, sameMemory_of_eq rfl rfl⟩
    · rw [setJob_mem, statOutPut_fits (s := freeDrawn s _) hne hfits]
      rfl
  · exact fun s p h => congrArg Host.Outcome.next (halyVote_idle h)
  · intro s p c hfind hen hdiv hres hown hdone hpend
    have hlt : voteCauses s p c < 2 ^ 11 := orMask_lt
    obtain ⟨hmem, htime, hshown⟩ := causesShown_shows (s := s) (q := p) hlt
    refine ⟨voteMade s p c, decide (voteCauses s p c ≠ 0), congrArg Host.Outcome.next (halyVote_votes hfind hen hdiv hres hown hdone hpend),
      congrArg Job.ownVote job_setJob_same, ?_, fun hlost => decide_eq_true (voteCauses_lost hlost), congrArg Job.votedLost job_setJob_same, ?_, hmem⟩
    · have hcause : getF (voteMade s p c) (rPennantCause p) fPennantCauseCause = voteCauses s p c := hshown
      rw [hcause, decide_eq_true_iff]
    · rw [← htime]
      exact congrArg Job.voted job_setJob_same
  · intro s t u f k hk hcls htake hadmit
    have hop : f.opcode.toNat = k := by
      rcases hk with ⟨rfl, h⟩ | ⟨rfl, h⟩
      all_goals
        rw [h]
        rfl
    refine ⟨fun hdom => ⟨fun h20 => ?_, fun h21 => ?_⟩, fun hdom hseen => ⟨fun h20 => ?_, fun h21 => ?_⟩, halyFrame_new hop hcls htake hadmit⟩
    · exact halyardUp_of_none (halyFrame_foreign (by rw [h20]; rfl) hcls htake hadmit hdom)
    · exact halyardDown_of_none (halyFrame_foreign (by rw [h21]; rfl) hcls htake hadmit hdom)
    · obtain rfl : k = 0x20 := by rw [← hop, h20]; rfl
      exact halyardUp_of_none (halyFrame_seen hop hcls htake hadmit hdom hseen)
    · obtain rfl : k = 0x21 := by rw [← hop, h21]; rfl
      exact halyardDown_of_none (halyFrame_seen hop hcls htake hadmit hdom hseen)
  · rintro s t u f p n r g hframe hen rfl hgroup hchild
    exact halyardUp_contributes hframe hen hgroup hchild
  · intro s t f p n hframe
    refine ⟨halyardDown_stale hframe, ?_⟩
    rintro hen rfl hlo hhi
    exact halyardDown_applies hframe hen hlo hhi
  · intro s u p t0 g hfirst hgroup
    rw [halyardTimeout_eq hfirst hgroup]
    exact ⟨fun hen hrank hlate => by rw [if_pos ⟨hen, hrank, hlate⟩], fun h => by rw [if_neg (by simpa [imp_iff_not_or] using h)]⟩
  · intro s p t0 hvoted hown
    rw [divergedTimeout_eq hvoted hown]
    exact ⟨fun hen hlate => by rw [if_pos ⟨hen, hlate⟩], fun h => by rw [if_neg (by simpa [imp_iff_not_or] using h)]⟩
  · intro s p code
    rw [job_applyOutcome]
    exact ⟨rfl, rfl⟩
  · intro s p code hcode hmember
    have hnot : code ≠ 3 := by omega
    rw [getF_applyOutcome hnot, getF_applyOutcome hnot, outcomeStatus_shows.1, outcomeStatus_shows.2, hoists_applyOutcome hnot, outcomeHere_eq hmember]
    exact ⟨Nat.mod_eq_of_lt (by omega), rfl, rfl⟩

end Sys2Proof.Machine
end

section
namespace Sys2Proof.Machine
open Sys2Proof

/-! PROOFS. The optimiser's armed set, the Hoist and the update hank by hank (O49). -/

variable {s u v w : State} {ag : Agent} {p : Fin 16} {q : Nat} {r r' : Reg} {l : List Reg}

/-! ### A pending set committed (R302, R448) -/

/-- A member of an armed group committed. -/
def commitReg (s : State) (r : Reg) : State := { setR s r (getPend s r) with pend := mapDel s.pend r.key }

theorem getR_commitReg_same : getR (commitReg s r) r = getPend s r := getR_setR_same s r _

theorem getR_commitReg_ne (h : r'.key ≠ r.key) : getR (commitReg s r') r = getR s r := getR_setR_ne s _ _ _ h

theorem getPend_commitReg_ne (h : r'.key ≠ r.key) : getPend (commitReg s r') r = getPend s r := by
  rw [getPend, getR_commitReg_ne h]
  exact (mapGet_mapDel _ _ _ _).trans (if_neg h)

theorem getR_foldl_commitReg_of_notMem (h : ∀ r' ∈ l, r'.key ≠ r.key) : getR (l.foldl commitReg s) r = getR s r :=
  List.foldlRecOn (motive := fun t => getR t r = getR s r) _ _ rfl fun _ ht r' hr' => (getR_commitReg_ne (h r' hr')).trans ht

theorem getR_foldl_commitReg (hl : (l.map (fun r => r.key)).Nodup) (hr : r ∈ l) : getR (l.foldl commitReg s) r = getPend s r := by
  induction l generalizing s with
  | nil => simp at hr
  | cons x l ih =>
    obtain ⟨hx, hl⟩ := List.nodup_cons.1 hl
    have hne : ∀ y ∈ l, y.key ≠ x.key := fun y hy hk => hx (List.mem_map.2 ⟨y, hy, hk⟩)
    rcases List.mem_cons.1 hr with rfl | hr
    · exact (getR_foldl_commitReg_of_notMem hne).trans getR_commitReg_same
    · exact (ih hl hr).trans (getPend_commitReg_ne (hne r hr).symm)

theorem foldl_commitReg_rest : ∃ (x y : FMap RegKey Word), l.foldl commitReg s = { s with regs := x, pend := y } := by
  refine List.foldlRecOn (motive := fun t => ∃ (x y : FMap RegKey Word), t = { s with regs := x, pend := y }) _ _ ⟨s.regs, s.pend, rfl⟩ ?_
  rintro _ ⟨x, y, rfl⟩ r -
  exact ⟨_, _, rfl⟩

/-! ### OPT_ARM (R448) -/

theorem optRegs_keys_nodup : ((optRegs q).map (fun r => r.key)).Nodup := by simp [optRegs, rOptLr, rOptBeta, rOptEpsWd, rOptScale]

theorem optArm_key_ne (hr : r ∈ optRegs q) : (rOptArm q).key ≠ r.key := by
  simp only [optRegs, List.mem_cons, List.not_mem_nil, or_false] at hr
  rcases hr with rfl | rfl | rfl | rfl
  all_goals simp [rOptArm, rOptLr, rOptBeta, rOptEpsWd, rOptScale]

/-- VIEW written with ARM. -/
def optViewed (s : State) (p : Nat) (view : Bool) : State := setB s (rOptArm p) fOptArmView view

/-- The pending set committed whole. -/
def optCommitted (s : State) (p : Nat) (view : Bool) : State :=
  setF ((optRegs p).foldl commitReg (optViewed s p view)) (rOptArm p) fOptArmRefused 0

/-- The pending set refused whole. -/
def optRefused (s : State) (p : Nat) (view : Bool) : State := setF (optViewed s p view) (rOptArm p) fOptArmRefused 1

section
variable {view : Bool}

theorem exec_optArm (hright : regRight s ag (rOptArm p).key = true) : exec (.optArm ag p view) s =
    .next (if optOk (optViewed s p view) p then optCommitted s p view else optRefused s p view) :=
  congrArg Host.Outcome.next (guarded_right _ _ _ _ hright)

theorem getR_optCommitted (hr : r ∈ optRegs q) : getR (optCommitted s q view) r = getPend s r :=
  calc getR (optCommitted s q view) r
    _ = getR ((optRegs q).foldl commitReg (optViewed s q view)) r := getR_setR_ne _ _ _ _ (optArm_key_ne hr)
    _ = getPend (optViewed s q view) r := getR_foldl_commitReg optRegs_keys_nodup hr
    _ = getPend s r := congrArg (mapGet s.pend r.key) (getR_setR_ne _ _ _ _ (optArm_key_ne hr))

theorem optCommitted_sameUnits : SameUnits s (optCommitted s q view) := by
  obtain ⟨x, y, hrest⟩ := foldl_commitReg_rest (s := optViewed s q view) (l := optRegs q)
  rw [optCommitted, hrest]
  exact ⟨rfl, rfl, rfl, rfl, rfl, rfl, rfl, rfl, rfl, rfl, rfl⟩

end

/-! ### HOIST (R302, R305) -/

/-- The armed set that an update takes. -/
def optSet (s : State) (p : Nat) : List Nat :=
  [getF s (rOptLr p) fOptLrLr, getF s (rOptBeta p) fOptBetaBeta1, getF s (rOptBeta p) fOptBetaBeta2, getF s (rOptEpsWd p) fOptEpsWdEps,
    getF s (rOptEpsWd p) fOptEpsWdWeightDecay, getF s (rOptScale p) fOptScaleGradScale, getF s (rOptScale p) fOptScaleRnd]

/-- A checkpoint is due at the update of count `n` (R305). -/
def hoistDue (s : State) (p n : Nat) : Bool :=
  getB s (rCkptCtl p) fCkptCtlNext ||
    (decide (getF s (rCkptCfg p) fCkptCfgInterval ≠ 0) && decide (n % getF s (rCkptCfg p) fCkptCfgInterval = 0))

/-- The update of step `st` begun. -/
def hoisted (s : State) (p st : Nat) (l : List Nat) : State :=
  setJob (setB s (rCkptCtl p) fCkptCtlNext false) p
    { job s p with hoists := l, opt := optSet s p, upd := some { step := st, seg := 0, hank := 0, amax := [] }
                   ckptDue := if hoistDue s p (getF s (rOptT p) fOptTT + 1) then (job s p).ckptDue ++ [(st, getF s (rOptT p) fOptTT + 1)]
                     else (job s p).ckptDue }

theorem hoist_takes {st : Nat} {l : List Nat} (hh : (job s p).hoists = st :: l) (hu : (job s p).upd = none) (hr : (job s p).restore = none)
    (hcount : updCount s p ≠ 0) : exec (.hoist p) s = .next (hoisted s p st l) := by
  have hkeep : updCount (hoisted s p st l) p = updCount s p :=
    congrArg (min 65536) (getF_setF_ne s (rCkptCtl p) (rUpdCount p) _ _ _ (key_ne_of_off (by simp [rCkptCtl, rUpdCount])))
  have hexec : execHoist p s = .next (if updCount (hoisted s p st l) p = 0 then reachSeg (hoisted s p st l) p 1 else hoisted s p st l) := by
    simp only [execHoist, hh, hu]
    rw [if_neg (by simp [hr])]
    rfl
  change execHoist p s = _
  rw [hexec, if_neg (hkeep ▸ hcount)]

theorem hoist_idle (h : (job s p).hoists = [] ∨ (job s p).upd.isSome = true ∨ (job s p).restore.isSome = true) : exec (.hoist p) s = .next s := by
  change execHoist p s = _
  cases hh : (job s p).hoists with
  | nil => simp only [execHoist, hh]
  | cons st l =>
    cases hu : (job s p).upd with
    | some x => simp only [execHoist, hh, hu]
    | none =>
      have hr : (job s p).restore.isSome = true := by simpa [hh, hu] using h
      simp only [execHoist, hh, hu, hr, if_true]

/-! ### HANK_UPDATE (R303, R306) -/

/-- A hank that cannot be reached makes the job STATE_LOST, and the update goes on behind its segment. -/
def hankLost (w : State) (p : Nat) (x : Upd) : State :=
  setJob (loseState w p) p { job (loseState w p) p with upd := some { x with seg := x.seg + 1, hank := 0 } }

/-- What a hank's update does once its spans are asked for. -/
def hankReached (p : Nat) (x : Upd) (d : Seg) : State × OptReach → State
  | (w, .later) => w
  | (w, .fault) => reachSeg (hankLost w p x) p (updCount (loseState w p) p + 1)
  | (w, .ok ps) => reachSeg (hankDo w p x d (.ok ps)) p (updCount w p + 1)

/-- The next hank of the update `x`, at the descriptor reached. -/
def hankNext (u : State) (p : Nat) (x : Upd) : State :=
  if ckptHolds (job u p) x.step ((segRead u p x.seg).first + x.hank) then ckptWait u p true
  else match gatherReady (hubTouch (ckptWait u p false) (segAddr u p x.seg) 64) p with
    | (v, false) => v
    | (v, true) => hankReached p x (segRead u p x.seg) (optReach v p (hankSpans (segRead u p x.seg) x.hank) [])

section
variable (hreach : reachSeg s p (updCount s p + 1) = u)
include hreach

theorem hankUpdate_over (hupd : (job u p).upd = none) : exec (.hankUpdate p) s = .next u := by
  change execHankUpdate p s = _
  simp only [execHankUpdate, hreach, hupd]

theorem hankUpdate_next {x : Upd} (hupd : (job u p).upd = some x) : exec (.hankUpdate p) s = .next (hankNext u p x) := by
  change execHankUpdate p s = _
  unfold execHankUpdate hankNext
  -- The two operations are kept from being run when the two matches on their answers are compared.
  generalize gatherReady = ready
  generalize optReach = reach
  as_aux_lemma =>
  simp only [hreach, hupd]
  rfl

end

section
variable {x : Upd}

theorem hankNext_waits (hholds : ckptHolds (job u p) x.step ((segRead u p x.seg).first + x.hank) = true) : hankNext u p x = ckptWait u p true :=
  if_pos hholds

variable (hholds : ckptHolds (job u p) x.step ((segRead u p x.seg).first + x.hank) = false)
include hholds

theorem hankNext_group (hgroup : gatherReady (hubTouch (ckptWait u p false) (segAddr u p x.seg) 64) p = (v, false)) : hankNext u p x = v := by
  rw [hankNext, if_neg (Bool.eq_false_iff.1 hholds), hgroup]

theorem hankNext_reaches (hgroup : gatherReady (hubTouch (ckptWait u p false) (segAddr u p x.seg) 64) p = (v, true)) :
    hankNext u p x = hankReached p x (segRead u p x.seg) (optReach v p (hankSpans (segRead u p x.seg) x.hank) []) := by
  rw [hankNext, if_neg (Bool.eq_false_iff.1 hholds), hgroup]

end

/-! ### HANKS_DONE (R303) -/

section
variable {id : Nat} {l : List (Nat × Bool)}

theorem hanksDone_idle (h : (job s p).gather = []) : exec (.hanksDone p) s = .next s := by
  change execHanksDone p s = _
  simp only [execHanksDone, h]

theorem hanksDone_owed (h : (job s p).gather = (id, true) :: l) (howes : owes s id = true) : exec (.hanksDone p) s = .next s := by
  change execHanksDone p s = _
  simp only [execHanksDone, h, howes, if_true]

theorem hanksDone_counts (h : (job s p).gather = (id, true) :: l) (howes : owes s id = false) : exec (.hanksDone p) s =
    .next (hubPut (hubTouch (setJob s p { job s p with gather := l }) (blockAddr s p 8) 8) (blockAddr s p 8)
      (natLE 8 (leNat (hubView s (blockAddr s p 8) 8) + 1))) := by
  change execHanksDone p s = _
  simp only [execHanksDone, h, howes, Bool.false_eq_true, if_false]

end

end Sys2Proof.Machine
end

section
namespace Sys2Proof.Machine
open Sys2Proof

/-! PROOFS. Checkpoints and their restore (O49).

A checkpoint's pages are written where they lie in the flash tier, so a byte outside them stays in any memory (`cellGet_cellsPut_ne`); a byte 0 in them
reads back only where memory is in its canonical form. -/

variable {s t u v w : State} {ag : Agent} {p : Fin 16} {q a n x : Nat} {b : Bool} {bs : Bytes}

/-! ### Bytes outside a write, in any memory -/

theorem cellGet_cellSet_ne {m : List Host.Cell} {y : Byte} (h : a ≠ x) : cellGet (cellSet m a y) x = cellGet m x := by
  induction m with
  | nil => by_cases hy : y = 0#8 <;> simp [cellSet, cellGet, hy, h]
  | cons c m ih =>
    obtain ⟨z, c⟩ := c
    rw [cellSet]
    split_ifs with h1 h2 h3 h4
    · simp only [cellGet, ih]
    · rw [cellGet, if_neg (h2 ▸ h)]
    · rw [cellGet, if_neg h, cellGet, if_neg (h2 ▸ h)]
    · rfl
    · rw [cellGet, if_neg h]

theorem cellGet_cellsPut_ne {m : List Host.Cell} (h : Outside x a bs.length) : cellGet (cellsPut m a bs) x = cellGet m x := by
  induction bs generalizing m a with
  | nil => rfl
  | cons y bs ih =>
    simp only [Outside, List.length_cons] at h
    rw [cellsPut, ih (by unfold Outside; omega), cellGet_cellSet_ne (by omega)]

/-! ### Pages of the flash tier -/

theorem foldl_mpaPoison_mem {l : List (Nat × Nat)} : (l.foldl (fun s b => mpaPoison s (a + b.1) b.2) s).mem = s.mem :=
  List.foldlRecOn (motive := fun t : State => t.mem = s.mem) _ _ rfl fun _ ht _ _ => mpaPoison_mem.trans ht

theorem nextPage_mem : (nextPage s).2.2.mem = s.mem := by
  unfold nextPage
  dsimp only
  split
  · split
    all_goals rfl
  · rfl

theorem programPage_mem {key : Nat × Nat} {lpn : Nat} : (programPage s key lpn).mem = s.mem := by
  refine Eq.trans ?_ (nextPage_mem (s := s))
  unfold programPage
  dsimp only
  split
  · rfl
  · split
    all_goals rfl

/-- A string of bytes filled with zeros to whole pages. -/
def pagePadded (bs : Bytes) : Bytes := bs ++ List.replicate (cdiv bs.length pageBytes * pageBytes - bs.length) 0

theorem length_pagePadded : (pagePadded bs).length = cdiv bs.length pageBytes * pageBytes := by
  have hle : bs.length ≤ cdiv bs.length pageBytes * pageBytes := by
    have hdiv := Nat.div_add_mod (bs.length + pageBytes - 1) pageBytes
    have hmod := Nat.mod_lt (bs.length + pageBytes - 1) (show 0 < pageBytes by decide)
    rw [Nat.mul_comm] at hdiv
    unfold cdiv
    omega
  simp only [pagePadded, List.length_append, List.length_replicate]
  omega

theorem flashPut_mem {lpn : Nat} {src : Src} : (flashPut s q lpn src).mem = cellsPut s.mem (pageAddr lpn) (pagePadded src.bytes) := by
  unfold flashPut
  dsimp only
  refine (List.foldlRecOn (motive := fun t : State => t.mem = cellsPut s.mem (pageAddr lpn) (pagePadded src.bytes)) _ _ ?_
    fun _ ht _ _ => programPage_mem.trans ht)
  exact foldl_mpaPoison_mem

theorem byteAt_flashPut {lpn : Nat} {src : Src} (h : Outside x (pageAddr lpn) (cdiv src.bytes.length pageBytes * pageBytes)) :
    byteAt (flashPut s q lpn src) x = byteAt s x := by
  rw [byteAt, flashPut_mem, cellGet_cellsPut_ne (by rwa [length_pagePadded]), byteAt]

theorem pageAddr_add {lpn k : Nat} : pageAddr (lpn + k) = pageAddr lpn + k * pageBytes := by
  rw [pageAddr, pageAddr, Nat.add_mul, Nat.add_assoc]

theorem sramBase_le_pageAddr {lpn : Nat} : sramBase ≤ pageAddr lpn := Nat.le_add_right_of_le (by decide)

theorem mpaRead_page {lpn : Nat} : mpaRead s (pageAddr lpn) n = (List.range n).map (fun i => byteAt s (pageAddr lpn + i)) :=
  List.map_congr_left fun _ _ => by rw [locate_sram (Nat.le_add_right_of_le sramBase_le_pageAddr), byteAt]

/-! ### CHECKPOINT_START (R305) -/

/-- A table of the job as the hub reads it, its poison with it. -/
def tableSrc (s : State) (a k : Nat) : Src :=
  { bytes := hubView s a k, bad := ((linesOf a k).filter (fun x => linePoisoned s (locate s (64 * x) / 64))).map (fun x => (64 * x - a, 64)) }

theorem length_hubView : (hubView s a n).length = n :=
  List.foldlRecOn (motive := fun bs : Bytes => bs.length = n) _ _ length_cohRead fun _ _ _ _ => by simp

/-- A slot's header page trimmed. -/
def headerTrimmed (s : State) (lpn : Nat) : State := unmapPage (rawZero s (pageAddr lpn) pageBytes) lpn

/-- The reads of the job's tables counted. -/
def tablesRead (s : State) (p k : Nat) : State := hubTouch (hubTouch s (segAddr s p 0) (64 * k)) (gchkAddr s p 0) (65536 * 32)

/-- The job's tables programmed behind a slot's header page. -/
def tablesPut (s : State) (p lpn k : Nat) : State :=
  flashPut (flashPut (tablesRead s p k) p (lpn + 1) (tableSrc s (segAddr s p 0) (64 * k))) p (lpn + 1 + tablePages k) (tableSrc s (gchkAddr s p 0) (65536 * 32))

/-- The pages that a checkpoint of the job takes. -/
def ckptPages (s : State) (p : Nat) : Nat := 1 + tablePages (updCount s p) + gchkPages + hankPages * (allHanks s p (updCount s p)).length

/-- The checkpoint does not fit in its slot, or in the flash tier. -/
def ckptTooLong (s : State) (p : Nat) (b : Bool) : Prop :=
  getF s (rCkptCfg p) fCkptCfgSlotPages < ckptPages s p ∨ Config.flashLogicalBytes < (slotLpn s p b + ckptPages s p) * pageBytes

/-- A checkpoint that is not taken. -/
def ckptRefused (s : State) (p : Nat) (l : List (Nat × Nat)) : State := setF (setJob s p { job s p with ckptDue := l }) (rCkptStatus p) fCkptStatusFailed 1

/-- The slot's tables written and the status shown. -/
def ckptShown (s : State) (p : Nat) (b : Bool) : State :=
  setF (setB (tablesPut (headerTrimmed s (slotLpn s p b)) p (slotLpn s p b) (updCount s p)) (rCkptStatus p) fCkptStatusSlot b) (rCkptStatus p)
    fCkptStatusState 1

/-- A checkpoint begun in the slot `b`. -/
def ckptStarted (s : State) (p st n : Nat) (l : List (Nat × Nat)) (b : Bool) : State :=
  setJob (ckptShown s p b) p
    { job (ckptShown s p b) p with
      ckptDue := l, ckpt := some { step := st, optT := n, slotB := b, todo := allHanks s p (updCount s p), done := 0 } }

theorem checkpointStart_idle (h : (job s p).ckptDue = [] ∨ (job s p).ckpt.isSome = true ∨ flashRuns s = false) :
    exec (.checkpointStart p) s = .next s := by
  change execCheckpointStart p s = _
  cases hdue : (job s p).ckptDue with
  | nil => simp only [execCheckpointStart, hdue]
  | cons d l =>
    cases hckpt : (job s p).ckpt with
    | some c => simp only [execCheckpointStart, hdue, hckpt]
    | none =>
      have hruns : flashRuns s = false := by simpa [hdue, hckpt] using h
      simp only [execCheckpointStart, hdue, hckpt, hruns]
      rfl

section
variable {st m : Nat} {l : List (Nat × Nat)} (hdue : (job s p).ckptDue = (st, m) :: l) (hckpt : (job s p).ckpt = none) (hruns : flashRuns s = true)
include hdue hckpt hruns

theorem checkpointStart_refused (h : ckptTooLong s p (!(job s p).lastSlotB)) : exec (.checkpointStart p) s = .next (ckptRefused s p l) := by
  change execCheckpointStart p s = _
  unfold ckptTooLong ckptPages at h
  simp only [execCheckpointStart, hdue, hckpt]
  rw [if_neg (by simp [hruns]), if_pos h]
  simp only [ckptRefused, hckpt]

theorem checkpointStart_starts (h : ¬ckptTooLong s p (!(job s p).lastSlotB)) :
    exec (.checkpointStart p) s = .next (ckptStarted s p st m l (!(job s p).lastSlotB)) := by
  change execCheckpointStart p s = _
  unfold ckptTooLong ckptPages at h
  simp only [execCheckpointStart, hdue, hckpt]
  rw [if_neg (by simp [hruns]), if_neg h]
  rfl

end

theorem tablesRead_mem {k : Nat} : (tablesRead s q k).mem = s.mem := by
  obtain ⟨x, y, hseg⟩ := hubTouch_rest (s := s) (a := segAddr s q 0) (n := 64 * k)
  obtain ⟨x', y', hgchk⟩ := hubTouch_rest (s := hubTouch s (segAddr s q 0) (64 * k)) (a := gchkAddr s q 0) (n := 65536 * 32)
  rw [tablesRead, hgchk, hseg]

theorem byteAt_tablesPut {lpn k : Nat} (h : Outside x (pageAddr lpn + pageBytes) ((tablePages k + gchkPages) * pageBytes)) :
    byteAt (tablesPut s q lpn k) x = byteAt s x := by
  have hgchk : cdiv (65536 * 32) pageBytes = gchkPages := by decide
  have hsum : (tablePages k + gchkPages) * pageBytes = tablePages k * pageBytes + gchkPages * pageBytes := Nat.add_mul _ _ _
  have hfirst : pageAddr (lpn + 1) = pageAddr lpn + pageBytes := by rw [pageAddr_add, Nat.one_mul]
  unfold Outside at h
  rw [tablesPut, byteAt_flashPut, byteAt_flashPut, byteAt, tablesRead_mem, byteAt]
  · rw [tableSrc, length_hubView, hfirst, ← tablePages]
    unfold Outside
    omega
  · rw [tableSrc, length_hubView, pageAddr_add, hfirst, hgchk]
    unfold Outside
    omega

theorem byteAt_headerTrimmed_in {lpn : Nat} (hlo : pageAddr lpn ≤ x) (hhi : x < pageAddr lpn + pageBytes) : byteAt (headerTrimmed s lpn) x = 0 :=
  cellGet_of_notMem fun c hc hx => by
    have hkeep := (List.mem_filter.1 hc).2
    simp only [Bool.or_eq_true, decide_eq_true_eq] at hkeep
    omega

theorem byteAt_headerTrimmed_out {lpn : Nat} (h : Outside x (pageAddr lpn) pageBytes) : byteAt (headerTrimmed s lpn) x = byteAt s x :=
  cellGet_filter fun c _ hx => by
    simp only [hx, Bool.or_eq_true, decide_eq_true_eq]
    exact h

/-! ### CHECKPOINT_HANK (R305) -/

/-- What a hank's turn in a checkpoint does once its planes are asked for. -/
def ckptReached (p : Nat) (c : Ckpt) (id : Nat) (l : List (Nat × Nat × Nat)) : State × OptReach → State
  | (w, .later) => w
  | (w, .fault) => ckptFail w p
  | (w, .ok ps) => setJob (ckptHankPut w p c id ps) p { job (ckptHankPut w p c id ps) p with ckpt := some { c with todo := l, done := c.done + 1 } }

/-- The ledger entry of a hank is that of the checkpoint's update. -/
def hankLedgered (s : State) (p : Nat) (c : Ckpt) (id : Nat) : Prop :=
  bitOf (u8At (hubView s (ledgerAddr s p id) 16) 12) 0 = true ∧ u64At (hubView s (ledgerAddr s p id) 16) 0 = c.step ∧
    u32At (hubView s (ledgerAddr s p id) 16) 8 = c.optT

section
variable {c : Ckpt} {i k id : Nat} {l : List (Nat × Nat × Nat)}

theorem checkpointHank_none (hckpt : (job s p).ckpt = none) : exec (.checkpointHank p) s = .next s := by
  change execCheckpointHank p s = _
  simp only [execCheckpointHank, hckpt]

theorem checkpointHank_written (hckpt : (job s p).ckpt = some c) (htodo : c.todo = []) : exec (.checkpointHank p) s = .next s := by
  change execCheckpointHank p s = _
  unfold execCheckpointHank
  generalize optReach = reach
  as_aux_lemma =>
  simp only [hckpt, htodo]

section
variable (hckpt : (job s p).ckpt = some c) (htodo : c.todo = (i, k, id) :: l)
include hckpt htodo

theorem checkpointHank_eq : exec (.checkpointHank p) s = .next (if ¬flashRuns s ∨ ¬bitOf (u8At (hubView s (ledgerAddr s p id) 16) 12) 0 ∨
    u64At (hubView s (ledgerAddr s p id) 16) 0 ≠ c.step ∨ u32At (hubView s (ledgerAddr s p id) 16) 8 ≠ c.optT then s
    else ckptReached p c id l (optReach s p (ckptSpans (segRead s p i) k false) [])) := by
  change execCheckpointHank p s = _
  unfold execCheckpointHank
  -- The reach of the planes is kept from being run when the two matches on its answer are compared.
  generalize optReach = reach
  as_aux_lemma =>
  simp only [hckpt, htodo]
  rfl

theorem checkpointHank_unledgered (h : ¬hankLedgered s p c id) : exec (.checkpointHank p) s = .next s := by
  simp only [hankLedgered, not_and_or] at h
  rw [checkpointHank_eq hckpt htodo, if_pos (.inr h)]

theorem checkpointHank_reaches (hruns : flashRuns s = true) (h : hankLedgered s p c id) : exec (.checkpointHank p) s =
    .next (ckptReached p c id l (optReach s p (ckptSpans (segRead s p i) k false) [])) := by
  obtain ⟨hbit, hstep, ht⟩ := h
  rw [checkpointHank_eq hckpt htodo, if_neg (by simp [hruns, hbit, hstep, ht])]

end

theorem checkpointHank_idle (h : (job s p).ckpt = none ∨ flashRuns s = false) : exec (.checkpointHank p) s = .next s := by
  cases hckpt : (job s p).ckpt with
  | none => exact checkpointHank_none hckpt
  | some c =>
    have hruns : flashRuns s = false := by simpa [hckpt] using h
    rcases htodo : c.todo with _ | ⟨⟨i, k, id⟩, l⟩
    · exact checkpointHank_written hckpt htodo
    · rw [checkpointHank_eq hckpt htodo, if_pos (.inl (by simp [hruns]))]

end

/-! ### CHECKPOINT_HEADER (R305) -/

/-- The header of a checkpoint whose hanks are written. -/
def headerOf (s : State) (p : Nat) (c : Ckpt) : Bytes :=
  headerBytes c.step c.optT (updCount s p) c.done (crc32 (mpaRead s (pageAddr (slotLpn s p c.slotB + 1)) (64 * updCount s p)))

/-- The header page programmed. -/
def headerPut (s : State) (p : Nat) (c : Ckpt) : State := flashPut s p (slotLpn s p c.slotB) { bytes := headerOf s p c, bad := [] }

/-- CKPT_STATUS at the end of a checkpoint. -/
def headerShown (s : State) (p : Nat) (c : Ckpt) : State :=
  setF (setF (headerPut s p c) (rCkptStatus p) fCkptStatusState 0) (rCkptStatus p) fCkptStatusLastStep c.step

/-- A checkpoint ended. -/
def ckptEnded (s : State) (p : Nat) (c : Ckpt) : State :=
  setJob (headerShown s p c) p { job (headerShown s p c) p with ckpt := none, lastSlotB := c.slotB }

section
variable {c : Ckpt}

theorem checkpointHeader_idle (h : (job s p).ckpt = none ∨ flashRuns s = false) : exec (.checkpointHeader p) s = .next s := by
  change execCheckpointHeader p s = _
  cases hckpt : (job s p).ckpt with
  | none => simp only [execCheckpointHeader, hckpt]
  | some c =>
    have hruns : flashRuns s = false := by simpa [hckpt] using h
    simp only [execCheckpointHeader, hckpt]
    rw [if_pos (by simp [hruns])]

theorem checkpointHeader_ends (hckpt : (job s p).ckpt = some c) (htodo : c.todo = []) (hruns : flashRuns s = true) :
    exec (.checkpointHeader p) s = .next (ckptEnded s p c) := by
  change execCheckpointHeader p s = _
  simp only [execCheckpointHeader, hckpt]
  rw [if_neg (by simp [hruns, htodo])]
  rfl

theorem length_headerOf : (headerOf s q c).length = 24 := by simp only [headerOf, headerBytes, List.length_append, length_natLE]

theorem byteAt_headerPut (h : Outside x (pageAddr (slotLpn s q c.slotB)) pageBytes) : byteAt (headerPut s q c) x = byteAt s x := by
  have hpage : cdiv 24 pageBytes * pageBytes = pageBytes := by decide
  exact byteAt_flashPut (by rwa [length_headerOf, hpage])

/-- The header reads back where memory is in its canonical form, as it is in every sound state. -/
theorem mpaRead_headerPut (hwf : Memory.wf s.mem = true) : mpaRead (headerPut s q c) (pageAddr (slotLpn s q c.slotB)) 24 = headerOf s q c := by
  have hbyte : ∀ i (hi : i < 24), byteAt (headerPut s q c) (pageAddr (slotLpn s q c.slotB) + i) = (headerOf s q c)[i]'(length_headerOf ▸ hi) := by
    intro i hi
    have hlen : i < (headerOf s q c).length := length_headerOf ▸ hi
    have hmem : (headerPut s q c).mem = cellsPut s.mem (pageAddr (slotLpn s q c.slotB)) (pagePadded (headerOf s q c)) := flashPut_mem
    rw [byteAt, hmem, cellGet_cellsPut_in _ _ _ _ hwf (by rw [pagePadded, List.length_append]; omega), pagePadded,
      List.getD_append _ _ _ _ hlen, List.getD_eq_getElem _ _ hlen]
  rw [mpaRead_page]
  exact List.ext_getElem (by simp [length_headerOf]) fun i hi _ => by simpa using hbyte i (by simpa using hi)

end

/-! ### CKPT_CTL and RESTORE_DONE (R305, R307) -/

theorem exec_ckptNext (hright : regRight s ag (rCkptCtl p).key = true) : exec (.ckptNext ag p) s = .next (setB s (rCkptCtl p) fCkptCtlNext true) :=
  congrArg Host.Outcome.next (guarded_right _ _ _ _ hright)

theorem exec_ckptRestore (hright : regRight s ag (rCkptCtl p).key = true) : exec (.ckptRestore ag p b) s = .next (ckptRestore s p b) :=
  congrArg Host.Outcome.next (guarded_right _ _ _ _ hright)

theorem ckptRestore_refused (h : slotHeader s q b = none ∨ (job s q).upd.isSome = true ∨ (job s q).hoists ≠ [] ∨ (job s q).restore.isSome = true) :
    ckptRestore s q b = setF s (rCkptStatus q) fCkptStatusFailed 1 :=
  if_pos (by simpa [or_comm, or_left_comm, or_assoc] using h)

theorem ckptRestore_begins (hheader : (slotHeader s q b).isSome = true) (hupd : (job s q).upd = none) (hh : (job s q).hoists = [])
    (hr : (job s q).restore = none) : ckptRestore s q b = setF (setJob s q { job s q with restore := some b }) (rCkptStatus q) fCkptStatusState 2 :=
  if_neg (by simpa [hupd, hh, hr] using Option.isSome_iff_ne_none.1 hheader)

/-- A restore that fails leaves the job as it was. -/
def restoreFailed (s : State) (p : Nat) : State :=
  setF (setF (setJob s p { job s p with restore := none }) (rCkptStatus p) fCkptStatusState 0) (rCkptStatus p) fCkptStatusFailed 1

/-- The registers and the frames seen of a job set at the step `st` and the update count `n`. -/
def restoreShown (s : State) (p st n : Nat) : State :=
  let s' := setF (setF (setF s (rStepCur p) fStepCurCurStep (st + 1)) (rOptT p) fOptTT n) (rCkptStatus p) fCkptStatusState 0
  { s' with fab := { s'.fab with halySeen := s'.fab.halySeen.filter (fun x => decide (x.1 ≠ p)) } }

/-- A job restored at the step `st`. -/
def jobRestored (j : Job) (st : Nat) : Job :=
  { j with
    closed := [], causes := [], awaited := (st + 1) % 2 ^ 48, voted := none, ownVote := none, votedLost := false, kids := [], upSent := false, firstAt := none,
    diverged := false, lost := false, hoists := [], upd := none, ckpt := none, ckptDue := [], restore := none, waitSince := none }

/-- The module restored from a slot. -/
def restored (s : State) (p st n : Nat) : State := setJob (restoreShown s p st n) p (jobRestored (job (restoreShown s p st n) p) st)

theorem restoreDone_idle (h : (job s p).restore = none) : exec (.restoreDone p) s = .next s := by
  change execRestoreDone p s = _
  simp only [execRestoreDone, h]

theorem restoreDone_fails (h : (job s p).restore = some b) (hheader : slotHeader s p b = none) :
    exec (.restoreDone p) s = .next (restoreFailed s p) := by
  change execRestoreDone p s = _
  simp only [execRestoreDone, h, hheader]
  rfl

/-- The two tables of a slot with `segs` segments copied back. -/
def tablesCopied (s : State) (p lpn segs : Nat) : State :=
  let s' := pageCopy s (segAddr s p 0) (lpn + 1) (64 * segs)
  pageCopy s' (gchkAddr s' p 0) (lpn + 1 + tablePages segs) (65536 * 32)

theorem restoreDone_restores {hd : Bytes} {segs : Nat} {ls : List (List Piece)} (h : (job s p).restore = some b) (hheader : slotHeader s p b = some hd)
    (hsegs : segs = min 65536 (u32At hd 12))
    (hseg : bulkSpan s (segAddr s p 0) (max 1 (64 * segs)) = true) (hgchk : bulkSpan s (gchkAddr s p 0) (65536 * 32) = true)
    (hseg' : hubWaits s (segAddr s p 0) (64 * segs) = false) (hgchk' : hubWaits s (gchkAddr s p 0) (65536 * 32) = false)
    (hgroup : gatherReady s p = (t, true))
    (hreach : restoreReach (tablesCopied t p (slotLpn s p b) segs) p (allHanks (tablesCopied t p (slotLpn s p b) segs) p segs) = (v, .ok ls))
    (hhanks : restoreHanks v p b segs (u64At hd 0) (u32At hd 8) (allHanks v p segs) 0 = (u, true)) :
    exec (.restoreDone p) s = .next (restored u p (u64At hd 0) (u32At hd 8)) := by
  subst hsegs
  change execRestoreDone p s = _
  unfold execRestoreDone
  unfold tablesCopied at hreach
  generalize restoreReach = reach at hreach ⊢
  generalize restoreHanks = hanks at hhanks ⊢
  generalize gatherReady = ready at hgroup ⊢
  as_aux_lemma =>
  simp only [h, hheader]
  rw [if_neg (by simp [hseg, hgchk]), if_neg (by simp [hseg', hgchk'])]
  simp only [hgroup, hreach, hhanks]
  rfl

end Sys2Proof.Machine
end

section
namespace Sys2Proof.Machine
open Sys2Proof

/-! PROOFS. The optimiser and its checkpoints: what the statement comes to, and where it fails (O49). -/

variable {s : State} {p : Fin 16} {q x : Nat} {b : Bool} {c : Ckpt}

/-! ### What the states of a checkpoint show -/

theorem ckptShown_slot : getB (ckptShown s q b) (rCkptStatus q) fCkptStatusSlot = b := by
  rw [getB, ckptShown, getF_setF_apart _ _ _ _ _ (by decide) (by decide) (by decide)]
  exact getB_setB (by decide)

theorem byteAt_ckptShown_header (hlo : pageAddr (slotLpn s q b) ≤ x) (hhi : x < pageAddr (slotLpn s q b) + pageBytes) : byteAt (ckptShown s q b) x = 0 :=
  (byteAt_tablesPut (.inl hhi)).trans (byteAt_headerTrimmed_in hlo hhi)

theorem byteAt_ckptShown_out (h : Outside x (pageAddr (slotLpn s q b)) ((1 + tablePages (updCount s q) + gchkPages) * pageBytes)) :
    byteAt (ckptShown s q b) x = byteAt s x := by
  have hsum : (1 + tablePages (updCount s q) + gchkPages) * pageBytes = pageBytes + (tablePages (updCount s q) + gchkPages) * pageBytes := by
    rw [Nat.add_assoc, Nat.add_mul, Nat.one_mul]
  unfold Outside at h
  refine (byteAt_tablesPut ?_).trans (byteAt_headerTrimmed_out ?_)
  all_goals
    unfold Outside
    omega

theorem mpaRead_ckptEnded {lpn n : Nat} : mpaRead (ckptEnded s q c) (pageAddr lpn) n = mpaRead (headerPut s q c) (pageAddr lpn) n := by
  rw [mpaRead_page, mpaRead_page]
  rfl

/-! ### What a restored module shows -/

section
variable {st n : Nat}

theorem restored_shows : getF (restored s q st n) (rStepCur q) fStepCurCurStep = (st + 1) % 2 ^ fStepCurCurStep.width ∧
    getF (restored s q st n) (rOptT q) fOptTT = n % 2 ^ fOptTT.width := by
  have hstatus : ∀ r : Reg, r.key.off ≠ 0xc8 → (rCkptStatus q).key ≠ r.key := fun _ hr => key_ne_of_off hr.symm
  have hopt : (rOptT q).key ≠ (rStepCur q).key := key_ne_of_off (by simp [rOptT, rStepCur])
  exact ⟨((getF_setF_ne _ _ _ _ _ _ (hstatus _ (by simp [rStepCur]))).trans (getF_setF_ne _ _ _ _ _ _ hopt)).trans (getF_setF_same _ _ _ _ (by decide)),
    (getF_setF_ne _ _ _ _ _ _ (hstatus _ (by simp [rOptT]))).trans (getF_setF_same _ _ _ _ (by decide))⟩

theorem restored_halySeen : ∀ x ∈ (restored s q st n).fab.halySeen, x.1 ≠ q := fun _ hx => of_decide_eq_true (List.mem_filter.1 hx).2

end

/-! ### The statement -/

/-- The header that ends a checkpoint reads back. -/
def HeaderReadsBack (s : State) : Prop := ∀ (p : Fin 16) (c : Ckpt), (job s p).ckpt = some c → c.todo = [] → flashRuns s = true →
  mpaRead (headerPut s p c) (pageAddr (slotLpn s p c.slotB)) 24 = headerOf s p c

/-- In every sound state the header reads back. -/
theorem headerReadsBack_of_sound (h : Sound s) : HeaderReadsBack s := fun _ _ _ _ _ => mpaRead_headerPut h.1

/-- Every clause of the statement holds but for the header that reads back: each row takes the branch of its condition. -/
theorem optimiserAndCheckpoints_iff : Obligations.OptimiserAndCheckpoints ↔ ∀ s, HeaderReadsBack s := by
  unfold Obligations.OptimiserAndCheckpoints
  constructor
  · rintro ⟨_, _, _, _, _, _, _, _, _, _, _, _, hheader, _⟩ s p c hckpt htodo hruns
    obtain ⟨t, hexec, -, -, -, -, hread, -⟩ := hheader s p c hckpt htodo hruns
    obtain rfl : ckptEnded s p c = t := Host.Outcome.next.inj ((checkpointHeader_ends hckpt htodo hruns).symm.trans hexec)
    exact mpaRead_ckptEnded.symm.trans hread
  intro hread
  refine ⟨fun s ag p view hright => ⟨fun hok => ?_, fun hbad => ?_⟩, ?_, fun _ _ => hoist_idle, fun _ _ _ => hankUpdate_over, ?_, ?_,
    fun _ _ => hanksDone_idle, fun _ _ _ _ h => ⟨hanksDone_owed h, hanksDone_counts h⟩, fun _ _ => checkpointStart_idle, ?_,
    fun _ _ h => ⟨checkpointHank_idle h, checkpointHeader_idle h⟩, ?_, ?_, fun s ag p hright => ⟨?_, fun b => ⟨fun h => ?_, fun hheader hupd hh hr => ?_⟩⟩,
    fun _ _ => restoreDone_idle, ?_, ?_⟩
  · exact ⟨optCommitted s p view, (exec_optArm hright).trans (congrArg Host.Outcome.next (if_pos hok)), getF_setF_same _ _ _ _ (by decide),
      fun r hr => getR_optCommitted hr, optCommitted_sameUnits⟩
  · have hnot : ¬optOk (optViewed s p view) p = true := Bool.eq_false_iff.1 hbad
    exact ⟨optRefused s p view, (exec_optArm hright).trans (congrArg Host.Outcome.next (if_neg hnot)), getF_setF_same _ _ _ _ (by decide), rfl,
      sameRegsBut_setR.setR rfl, rfl, rfl, rfl, rfl, rfl, rfl, rfl, rfl, rfl, rfl, rfl⟩
  · intro s p st l hh hu hr hcount
    refine ⟨hoisted s p st l, _, hoist_takes hh hu hr hcount, congrArg Job.hoists job_setJob_same, congrArg Job.upd job_setJob_same, rfl, rfl, rfl, ?_,
      getB_setB (by decide), ?_, sameRegsBut_setR, sameMemory_of_eq rfl rfl⟩
    · rw [hoisted, job_setJob_same]
      rfl
    · rw [hoisted, job_setJob_same]
      simp only [hoistDue, Bool.or_eq_true, Bool.and_eq_true, decide_eq_true_eq]
  · intro s u p x hreach hupd hholds
    rw [hankUpdate_next hreach hupd, hankNext_waits hholds]
  · intro s u v p x b hreach hupd hholds hgroup
    rw [hankUpdate_next hreach hupd]
    refine ⟨?_, ?_⟩
    · rintro rfl
      rw [hankNext_group hholds hgroup]
    · rintro rfl w
      rw [hankNext_reaches hholds hgroup]
      refine ⟨fun ps hspans => ?_, fun hspans => ?_, fun hspans => ⟨hankLost w p x, ?_, ?_, congrArg Job.upd job_setJob_same, rfl, rfl⟩⟩
      · rw [hspans]
        rfl
      · rw [hspans]
        rfl
      · rw [hspans]
        rfl
      · rw [hankLost, job_setJob_same]
        exact congrArg Job.lost job_setJob_same
  · intro s p st m l hdue hckpt hruns
    dsimp only
    refine ⟨fun hlong => ?_, fun hslot hflash => ?_⟩
    · refine ⟨ckptRefused s p l, checkpointStart_refused hdue hckpt hruns hlong, congrArg Job.ckptDue job_setJob_same, ?_,
        getF_setF_same _ _ _ _ (by decide), sameMemory_of_eq rfl rfl⟩
      exact (congrArg Job.ckpt job_setJob_same).trans hckpt
    · exact ⟨ckptStarted s p st m l (!(job s p).lastSlotB),
        checkpointStart_starts hdue hckpt hruns (not_or.2 ⟨Nat.not_lt.2 hslot, Nat.not_lt.2 hflash⟩), congrArg Job.ckptDue job_setJob_same,
        congrArg Job.ckpt job_setJob_same, getF_setF_same _ _ _ _ (by decide), ckptShown_slot, fun _ => byteAt_ckptShown_header,
        fun _ => byteAt_ckptShown_out⟩
  · intro s u p c i k id l hckpt htodo hruns
    dsimp only
    refine ⟨fun h => checkpointHank_unledgered hckpt htodo fun ⟨hbit, hstep, ht⟩ => by simp [hbit, hstep, ht] at h, fun hbit hstep ht => ?_⟩
    rw [checkpointHank_reaches hckpt htodo hruns ⟨hbit, hstep, ht⟩]
    refine ⟨fun hspans => ?_, fun hspans => ?_, fun ps hspans => ?_⟩
    all_goals
      rw [hspans]
      rfl
  · intro s p c hckpt htodo hruns
    exact ⟨ckptEnded s p c, checkpointHeader_ends hckpt htodo hruns, congrArg Job.ckpt job_setJob_same, congrArg Job.lastSlotB job_setJob_same,
      (getF_setF_apart _ _ _ _ _ (by decide) (by decide) (by decide)).trans (getF_setF_same _ _ _ _ (by decide)), getF_setF_same _ _ _ _ (by decide),
      mpaRead_ckptEnded.trans (hread s p c hckpt htodo hruns), fun _ => byteAt_headerPut⟩
  · exact ⟨_, exec_ckptNext hright, getB_setB (by decide), sameRegsBut_setR, sameUnits_setR⟩
  · rw [exec_ckptRestore hright, ckptRestore_refused h]
  · rw [exec_ckptRestore hright, ckptRestore_begins hheader hupd hh hr]
    exact ⟨_, rfl, congrArg Job.restore job_setJob_same, getF_setF_same _ _ _ _ (by decide), sameMemory_of_eq rfl rfl⟩
  · intro s p b h hheader
    have hjob : job (restoreFailed s p) p = { job s p with restore := none } := job_setJob_same
    exact ⟨restoreFailed s p, restoreDone_fails h hheader, congrArg Job.restore hjob, getF_setF_same _ _ _ _ (by decide), by rw [hjob],
      sameMemory_of_eq rfl rfl⟩
  · intro s t v u p b hd ls h hheader hseg hgchk hseg' hgchk' hgroup hrows
    obtain ⟨hreach, hhanks⟩ := hrows
    have hjob : job (restored u p (u64At hd 0) (u32At hd 8)) p = jobRestored (job (restoreShown u p (u64At hd 0) (u32At hd 8)) p) (u64At hd 0) :=
      job_setJob_same
    refine ⟨restored u p (u64At hd 0) (u32At hd 8), restoreDone_restores h hheader rfl hseg hgchk hseg' hgchk' hgroup hreach hhanks, restored_shows.1,
      restored_shows.2, ?_, ?_, ?_, ?_, restored_halySeen, rfl⟩
    all_goals
      rw [hjob]
      rfl

/-- A byte 0 written to a list of cells out of order leaves a cell of its address behind a later one. -/
theorem cellGet_cellsPut_unsorted {m : List Host.Cell} {a : Nat} {y z : Byte} {bs : Bytes} (hm : m = [(a + 1, y), (a, z)]) :
    cellGet (cellsPut m a (0 :: bs)) a = z := by
  have hskip : cellSet m a 0 = m := by simp [hm, cellSet]
  rw [cellsPut, hskip, cellGet_cellsPut_ne (.inl (Nat.lt_succ_self a)), hm]
  simp [cellGet]

/-- The header of a checkpoint of step 0 begins with a byte 0. -/
theorem headerOf_of_step_zero (h : c.step = 0) : ∃ bs, headerOf s q c = 0 :: bs := by
  rw [headerOf, headerBytes, h]
  exact ⟨_, rfl⟩

/-- In such a memory the first byte of the slot's header page stays. -/
theorem byteAt_headerPut_unsorted {a : Nat} {y z : Byte} (hstep : c.step = 0) (ha : pageAddr (slotLpn s q c.slotB) = a)
    (hm : s.mem = [(a + 1, y), (a, z)]) : byteAt (headerPut s q c) a = z := by
  obtain ⟨bs, hheader⟩ := headerOf_of_step_zero (s := s) (q := q) hstep
  have hmem : (headerPut s q c).mem = cellsPut s.mem a (pagePadded (headerOf s q c)) := ha ▸ flashPut_mem
  rw [byteAt, hmem, hheader]
  exact cellGet_cellsPut_unsorted hm

/-- A checkpoint of step 0 in slot A with every hank written. -/
def writtenCkpt : Ckpt := { step := 0, optT := 0, slotB := false, todo := [], done := 0 }

/-- Job 0 with that checkpoint under way, in a memory whose two cells are out of order: the first byte of the slot's header page, a 5, stands behind
the second. -/
def unsortedCkpt : State :=
  { setJob (setF State.reset rPwrStatus fPwrStatusHoldupReady 1) 0 { ckpt := some writtenCkpt } with mem := [(flashBase + 1, 1), (flashBase, 5)] }

/-- Refutes O49: its clause of the header is over every list of cells, where memory is a list in canonical form. In `unsortedCkpt`, which is no sound
state, the header's first byte, a 0, leaves the 5 of its address where it stands, and the header does not read back. In every sound state it does
(`headerReadsBack_of_sound`), and every other clause holds in all states (`optimiserAndCheckpoints_iff`). -/
theorem not_optimiserAndCheckpoints : ¬ Obligations.OptimiserAndCheckpoints := by
  intro h
  have hread : mpaRead (headerPut unsortedCkpt 0 writtenCkpt) flashBase 24 = headerOf unsortedCkpt 0 writtenCkpt :=
    optimiserAndCheckpoints_iff.1 h unsortedCkpt 0 writtenCkpt rfl rfl (by decide)
  have hfive : byteAt (headerPut unsortedCkpt 0 writtenCkpt) flashBase = 5 := byteAt_headerPut_unsorted rfl rfl rfl
  obtain ⟨bs, hheader⟩ := headerOf_of_step_zero (s := unsortedCkpt) (q := 0) (c := writtenCkpt) rfl
  have hbytes : mpaRead (headerPut unsortedCkpt 0 writtenCkpt) flashBase 24 =
      (List.range 24).map (fun i => byteAt (headerPut unsortedCkpt 0 writtenCkpt) (flashBase + i)) := mpaRead_page (lpn := 0)
  rw [hbytes, hheader, List.range_succ_eq_map, List.map_cons, Nat.add_zero, hfive] at hread
  exact absurd (List.cons.inj hread).1 (by decide)

end Sys2Proof.Machine
end

section
namespace Sys2Proof.Machine
open Sys2Proof

/-! PROOFS. The commands of the fabric become operations of the hub (O17).

Each of the four bodies goes on with an exchange under way, ends where its group or its connections do not serve, or issues: one law for each of these
answers, and a due command applies its body's answer (`SpoolRow.Due.exec_eq`). -/

variable {s s0 s2 s3 s4 s5 s6 : State} {u : SpoolId} {c c0 c2 : Cmd} {g : Grp} {o o2 : FabOp} {act : Act} {p : Nat} {l : List Nat} {r : SpoolRow}
variable {ps rs es ms : List Piece} {bs : Bytes}

/-! ### What a due command's answer does -/

theorem SpoolRow.Due.exec_ends {st d : Nat} (h : r.Due s u c s0 c0) (hr : r ∈ spoolRows) (hb : r.body u s0 c0 = (s2, c2, .ends st d)) :
    exec (r.row u) s = .next (finishes s2 u c2 st d) := h.exec_eq hr hb

theorem SpoolRow.Due.exec_runs (h : r.Due s u c s0 c0) (hr : r ∈ spoolRows) (hb : r.body u s0 c0 = (s2, c2, .runs)) :
    exec (r.row u) s = .next (goesOn s2 u c2) := h.exec_eq hr hb

/-- The OP of a COLLECTIVE that is due is its row's. -/
theorem CollDue.op_eq {k : Nat} (h : CollDue k s u c s0 c0) : u8At c0.bytes 8 % 16 = k := by
  have hbytes := h.marked.bytes
  obtain ⟨-, -, hsel, -⟩ := h
  simp only [isColl, Bool.and_eq_true, decide_eq_true_eq] at hsel
  rw [hbytes, hsel.2]

/-- The exchange with these peers can be made: each is connected and reachable (R330, R331). -/
def PeersReachable (s : State) (p : Nat) (l : List Nat) : Prop := ∀ q ∈ l, (connTo s p q).isSome = true ∧ unreachable s q = false

theorem PeersReachable.connected (h : PeersReachable s p l) : l.any (fun q => (connTo s p q).isNone) = false :=
  List.any_eq_false.2 fun q hq => by rw [← Option.not_isSome, (h q hq).1]; decide

theorem PeersReachable.reachable (h : PeersReachable s p l) : l.any (unreachable s) = false :=
  List.any_eq_false.2 fun q hq => by rw [(h q hq).2]; decide

/-! ### Group operations (R331 to R334) -/

/-- The row of a group operation. -/
def groupRow (x : (SpoolId → Instr) × Nat) : SpoolRow := ⟨x.1, isColl x.2, fun _ => collBad, noBobs, groupBody⟩

theorem groupRow_mem : ∀ x ∈ groupRows, groupRow x ∈ spoolRows := by simp [groupRows, groupRow, spoolRows]

theorem groupBody_resumes (hop : s.fab.ops.find? (fun o => decide (o.u = u) && decide (o.slot = c.slot)) = some o)
    (ha : opAdvance s o = (s2, act)) : groupBody u s c = (s2, c, act) := by
  simp only [groupBody, hop, ha]

section
variable (hbs : c.bytes = bs) (hop : s.fab.ops.find? (fun o => decide (o.u = u) && decide (o.slot = c.slot)) = none)
include hbs hop

theorem groupBody_bad (hg : readGroup s (ctxPart s u.e u.n) (u16At bs 10) = (s2, .bad)) : groupBody u s c = (s2, c, .ends stResource 0) := by
  simp only [groupBody, hop, hbs, hg]

variable (hg : readGroup s (ctxPart s u.e u.n) (u16At bs 10) = (s2, .ok g))
include hg

theorem groupBody_format (hbad : groupBad (newOp s2 u c g) = true) : groupBody u s c = (s2, c, .ends stFormat 0) := by
  simp only [groupBody, hop, hbs, hg, hbad, if_true]

/-- The operation is issued and goes as far as the exchange has come. -/
theorem groupBody_issues (hbad : groupBad (newOp s2 u c g) = false) (hpeers : PeersReachable s2 (ctxPart s u.e u.n) (newOp s2 u c g).partnerPeers)
    (hreach : reach s2 (hubReq s2 u 7 false true) (u64At bs 24) (newOp s2 u c g).readLen = (s3, .ok ps))
    (hissue : issueOp s3 u c (newOp s2 u c g) ps = (s4, o)) (ha : opAdvance s4 o = (s5, act)) : groupBody u s c = (s5, c, act) := by
  simp only [groupBody, hop, hbs, hg, hbad, hpeers.connected, hpeers.reachable, hreach, hissue, ha, Bool.false_eq_true, if_false]

end

/-- The state in which an operation is issued: its bytes are read, and poison that a reduction reads is reported (R295). -/
def issueRead (s : State) (u : SpoolId) (c : Cmd) (o : FabOp) (ps : List Piece) : State :=
  if o.op ≤ 1 ∧ piecesPoisoned (piecesTouch s ps) ps then cmdPoison (piecesTouch s ps) u c.step (firstPoison (piecesTouch s ps) ps) else piecesTouch s ps

theorem issueRead_of_sound (hp : piecesPoisoned (piecesTouch s ps) ps = false) : issueRead s u c o ps = piecesTouch s ps := by
  rw [issueRead, if_neg (by simp [hp])]

/-- An issued operation is the one that the command spells, and the hub runs it from then on. -/
theorem issueOp_issued (h : issueOp s u c o ps = (s2, o2)) :
    o2.u = o.u ∧ o2.slot = o.slot ∧ o2.op = o.op ∧ o2.members = o.members ∧ o2.rank = o.rank ∧
      s2.fab.ops = (issueRead s u c o ps).fab.ops ++ [o2] := by
  cases h
  exact ⟨rfl, rfl, rfl, rfl, rfl, rfl⟩

/-- It takes its group's next number and the bytes that it reads. -/
theorem issueOp_numbered (h : issueOp s u c o ps = (s2, o2)) : s2.mem = (issueRead s u c o ps).mem ∧
    o2.opid = mapGet (issueRead s u c o ps).fab.opCount o.group 0 % 65536 ∧
    mapGet s2.fab.opCount o.group 0 = mapGet (issueRead s u c o ps).fab.opCount o.group 0 + 1 ∧ o2.data = piecesRead (issueRead s u c o ps) ps := by
  cases h
  exact ⟨rfl, rfl, mapGet_mapSet_same _ _ _ _, rfl⟩

/-! ### Point-to-point operations (R329, R334) -/

/-- The row of a point-to-point operation. -/
def pointRow (x : (SpoolId → Instr) × Nat) : SpoolRow := ⟨x.1, isColl x.2, fun _ => collBad, noBobs, pointBody⟩

theorem pointRow_mem : ∀ x ∈ pointRows, pointRow x ∈ spoolRows := by simp [pointRows, pointRow, spoolRows]

theorem pointBody_resumes (hop : s.fab.ops.find? (fun o => decide (o.u = u) && decide (o.slot = c.slot)) = some o)
    (ha : opAdvance s o = (s2, act)) : pointBody u s c = (s2, c, act) := by
  simp only [pointBody, hop, ha]

/-- The fields of the request are the command's. -/
theorem pointOp_fields : (pointOp s u c).op = u8At c.bytes 8 % 16 ∧ (pointOp s u c).peer = u16At c.bytes 10 ∧
    (pointOp s u c).len = u40At c.bytes 16 ∧ (pointOp s u c).dst = u64At c.bytes 24 := ⟨rfl, rfl, rfl, rfl⟩

/-- PUT and SEND read what they send (R334). -/
theorem pointLen_pointOp : pointLen (pointOp s u c) = if u8At c.bytes 8 % 16 = 8 ∨ u8At c.bytes 8 % 16 = 11 then u40At c.bytes 16 else 0 := rfl

section
variable (hbs : c.bytes = bs) (hop : s.fab.ops.find? (fun o => decide (o.u = u) && decide (o.slot = c.slot)) = none)
include hbs hop

theorem pointBody_unconnected (hconn : connTo s (ctxPart s u.e u.n) (u16At bs 10) = none) : pointBody u s c = (s, c, .ends stResource 0) := by
  obtain ⟨-, hpeer, -, -⟩ := pointOp_fields (s := s) (u := u) (c := c)
  simp only [pointBody, hop, hpeer, hbs, hconn]

variable {id : Nat} (hconn : connTo s (ctxPart s u.e u.n) (u16At bs 10) = some id)
include hconn

theorem pointBody_unreachable (hpeer : unreachable s (u16At bs 10) = true) : pointBody u s c = (s, c, .ends stTimeout 0) := by
  obtain ⟨-, hpeerOf, -, -⟩ := pointOp_fields (s := s) (u := u) (c := c)
  simp only [pointBody, hop, hpeerOf, hbs, hconn, hpeer, if_true]

variable (hpeer : unreachable s (u16At bs 10) = false)
  (hreach : reach s (hubReq s u 7 false true) (u64At bs 24) (pointLen (pointOp s u c)) = (s3, .ok ps))
include hpeer hreach

/-- With its local bytes read, its request frames leave. -/
theorem pointBody_sends (hother : u16At bs 10 ≠ peerId (piecesTouch s3 ps)) :
    pointBody u s c = (pointSend (piecesTouch s3 ps) (pointRead (piecesTouch s3 ps) (pointOp s u c) ps) id bs, c, .runs) := by
  obtain ⟨-, hpeerOf, -, hdst⟩ := pointOp_fields (s := s) (u := u) (c := c)
  have hread : (pointRead (piecesTouch s3 ps) (pointOp s u c) ps).peer = u16At bs 10 := hbs ▸ hpeerOf
  simp only [pointBody, hop, hpeerOf, hdst, hread, hbs, hconn, hpeer, hreach, hother, Bool.false_eq_true, if_false]

/-- A request to the module itself is served at once (R193). -/
theorem pointBody_local (hown : u16At bs 10 = peerId (piecesTouch s3 ps))
    (hserve : pointLocal (piecesTouch s3 ps) (pointRead (piecesTouch s3 ps) (pointOp s u c) ps) id bs = (s4, act)) :
    pointBody u s c = (s4, c, act) := by
  obtain ⟨-, hpeerOf, -, hdst⟩ := pointOp_fields (s := s) (u := u) (c := c)
  have hread : (pointRead (piecesTouch s3 ps) (pointOp s u c) ps).peer = peerId (piecesTouch s3 ps) := (hbs ▸ hpeerOf).trans hown
  simp only [pointBody, hop, hpeerOf, hdst, hread, hbs, hconn, hpeer, hreach, hserve, Bool.false_eq_true, if_false, if_true]

end

/-! ### DISPATCH (R339 to R341) -/

/-- The row of DISPATCH. -/
def dispRow : SpoolRow := ⟨.dispatch, isOp 0x41, fun _ => dpBad, noBobs, dispBody⟩

theorem dispRow_mem : dispRow ∈ spoolRows := by simp [dispRow, spoolRows]

theorem dispBody_resumes {d : Disp} (hd : s.fab.disps.find? (fun d => decide (d.u = u) && decide (d.slot = c.slot)) = some d)
    (ha : dispAdvance s d c = (s2, act)) : dispBody u s c = (s2, c, act) := by
  simp only [dispBody, hd, ha]

section
variable (hbs : c.bytes = bs) (hd : s.fab.disps.find? (fun d => decide (d.u = u) && decide (d.slot = c.slot)) = none)
include hbs hd

theorem dispBody_bad (hg : readGroup s (ctxPart s u.e u.n) (u16At bs 18) = (s2, .bad)) : dispBody u s c = (s2, c, .ends stResource 0) := by
  have hgroup : (dpOf c.bytes).group = u16At bs 18 := by rw [hbs]; rfl
  simp only [dispBody, hd, hgroup, hg]

/-- With its tables read and in order, its counts leave. -/
theorem dispBody_starts {x : Dp} {copies : List Copy} (hx : x = dpOf bs) (hg : readGroup s (ctxPart s u.e u.n) x.group = (s2, .ok g))
    (hpeers : PeersReachable s2 (ctxPart s u.e u.n) (g.others s2))
    (hroute : reach s2 (hubReq s2 u 6 false true) x.route (8 * x.tokens * x.topk) = (s3, .ok rs))
    (hexpert : reach s3 (hubReq s3 u 6 false true) x.expert (8 * x.experts) = (s4, .ok es)) (hs5 : s5 = piecesTouch (piecesTouch s4 rs) es)
    (hp : piecesPoisoned s5 (rs ++ es) = false) (hcopies : copies = copiesOf x (piecesRead s5 rs) (piecesRead s5 es))
    (hok : dispRefused s5 x g (piecesRead s5 rs) copies = false) : dispBody u s c = (dispStart s5 u c g copies, dpCmd c, .runs) := by
  subst hx hs5 hcopies
  simp only [dispBody, hd, hbs, hg, hpeers.connected, hpeers.reachable, hroute, hexpert, hp, hok, Bool.false_eq_true, if_false]

end

/-! ### COMBINE (R342) -/

/-- The row of COMBINE. -/
def combRow : SpoolRow := ⟨.combine, isOp 0x42, fun _ => cbBad, noBobs, combBody⟩

theorem combRow_mem : combRow ∈ spoolRows := by simp [combRow, spoolRows]

theorem combBody_resumes {d : Comb} (hd : s.fab.combs.find? (fun d => decide (d.u = u) && decide (d.slot = c.slot)) = some d)
    (ha : combAdvance s d c = (s2, act)) : combBody u s c = (s2, c, act) := by
  simp only [combBody, hd, ha]

section
variable (hbs : c.bytes = bs) (hd : s.fab.combs.find? (fun d => decide (d.u = u) && decide (d.slot = c.slot)) = none)
include hbs hd

theorem combBody_bad (hg : readGroup s (ctxPart s u.e u.n) (u16At bs 18) = (s2, .bad)) : combBody u s c = (s2, c, .ends stResource 0) := by
  have hgroup : (cbOf c.bytes).group = u16At bs 18 := by rw [hbs]; rfl
  simp only [combBody, hd, hgroup, hg]

/-- With its tables read, its requests leave, and it goes as far as the exchange has come. -/
theorem combBody_starts {x : Cb} {need : List (Nat × Nat × Nat)} {runs : List RunReq} {d : Comb} (hx : x = cbOf bs)
    (hg : readGroup s (ctxPart s u.e u.n) x.group = (s2, .ok g)) (htables : combTables s2 u x = (s3, .ok (rs, es, ms)))
    (hs4 : s4 = piecesTouch (piecesTouch (piecesTouch s3 rs) es) ms) (hp : piecesPoisoned s4 (rs ++ es ++ ms) = false)
    (hneed : need = combNeed x (piecesRead s4 es) (piecesRead s4 ms)) (hruns : runs = combRuns s4 u x need)
    (hpeers : PeersReachable s4 (ctxPart s u.e u.n) (runPeers s4 runs)) (hstart : combStart s4 u c need runs = (s5, d))
    (ha : combAdvance s5 d (cbCmd c) = (s6, act)) : combBody u s c = (s6, cbCmd c, act) := by
  subst hx hs4 hneed hruns
  simp only [combBody, hd, hbs, hg, htables, hp, hpeers.connected, hpeers.reachable, hstart, ha, Bool.false_eq_true, if_false]

end

/-- Settles O17: each clause is one answer of its command's body, which goes on with an exchange under way, is refused, or issues. -/
theorem fabricCommandsIssueOperations : Obligations.FabricCommandsIssueOperations := by
  refine ⟨fun x hx => ⟨?_, ?_, ?_, ?_⟩, ?_, fun x hx => ⟨?_, ?_, ?_, ?_⟩, ⟨?_, ?_, ?_⟩, ?_, ?_, ?_⟩
  · exact fun s s0 s2 u c c0 h hop hg => SpoolRow.Due.exec_ends (r := groupRow x) h (groupRow_mem x hx) (groupBody_bad h.marked.bytes hop hg)
  · exact fun s s0 s2 u c c0 g h hop hg hbad =>
      SpoolRow.Due.exec_ends (r := groupRow x) h (groupRow_mem x hx) (groupBody_format h.marked.bytes hop hg hbad)
  · intro s s0 s2 s3 s4 s5 u c c0 g ps o h hop hg hbad hpeers hreach hissue
    obtain ⟨hu, hslot, hopcode, hmembers, hrank, hops⟩ := issueOp_issued hissue
    have hb {a : Act} (ha : opAdvance s4 o = (s5, a)) : groupBody u s0 c0 = (s5, c0, a) :=
      groupBody_issues h.marked.bytes hop hg hbad hpeers hreach hissue ha
    exact ⟨⟨hu, hslot, hopcode.trans h.op_eq, hmembers, hrank, hops ▸ List.mem_append_right _ (List.mem_singleton_self o)⟩,
      fun ha => SpoolRow.Due.exec_runs (r := groupRow x) h (groupRow_mem x hx) (hb ha),
      fun _ _ ha => SpoolRow.Due.exec_ends (r := groupRow x) h (groupRow_mem x hx) (hb ha)⟩
  · exact fun s s0 s5 u c c0 o h hop =>
      ⟨fun ha => SpoolRow.Due.exec_runs (r := groupRow x) h (groupRow_mem x hx) (groupBody_resumes hop ha),
        fun _ _ ha => SpoolRow.Due.exec_ends (r := groupRow x) h (groupRow_mem x hx) (groupBody_resumes hop ha)⟩
  · intro s u c o ps hp hearly
    obtain ⟨hmem, hopid, hcount, hdata⟩ := issueOp_numbered (s := s) (u := u) (c := c) (o := o) (ps := ps) rfl
    obtain ⟨-, -, -, -, -, hops⟩ := issueOp_issued (s := s) (u := u) (c := c) (o := o) (ps := ps) rfl
    rw [issueRead_of_sound hp] at hmem hopid hcount hdata hops
    exact ⟨hmem, hopid, hcount, hdata, hops⟩
  · exact fun s s0 u c c0 h hop hconn =>
      SpoolRow.Due.exec_ends (r := pointRow x) h (pointRow_mem x hx) (pointBody_unconnected h.marked.bytes hop hconn)
  · exact fun s s0 u c c0 id h hop hconn hpeer =>
      SpoolRow.Due.exec_ends (r := pointRow x) h (pointRow_mem x hx) (pointBody_unreachable h.marked.bytes hop hconn hpeer)
  · intro s s0 s3 u c c0 id ps o h hop hconn hpeer hreach ho
    obtain ⟨hopcode, hpeerOf, hlen, hdst⟩ := pointOp_fields (s := s0) (u := u) (c := c0)
    have hbs := h.marked.bytes
    rw [hbs] at hpeerOf hlen hdst
    have hlocal : reach s0 (hubReq s0 u 7 false true) (u64At c.bytes 24) (pointLen (pointOp s0 u c0)) = (s3, .ok ps) := by
      rw [pointLen_pointOp, h.op_eq, hbs]
      exact hreach
    subst ho
    exact ⟨⟨rfl, rfl, hopcode.trans h.op_eq, hpeerOf, hlen, hdst, rfl⟩,
      fun hother => SpoolRow.Due.exec_runs (r := pointRow x) h (pointRow_mem x hx) (pointBody_sends hbs hop hconn hpeer hlocal hother),
      fun s4 st d hown hserve =>
        SpoolRow.Due.exec_ends (r := pointRow x) h (pointRow_mem x hx) (pointBody_local hbs hop hconn hpeer hlocal hown hserve)⟩
  · exact fun s s0 s5 u c c0 o h hop =>
      ⟨fun ha => SpoolRow.Due.exec_runs (r := pointRow x) h (pointRow_mem x hx) (pointBody_resumes hop ha),
        fun _ _ ha => SpoolRow.Due.exec_ends (r := pointRow x) h (pointRow_mem x hx) (pointBody_resumes hop ha)⟩
  · exact fun s s0 s2 u c c0 h hd hg => SpoolRow.Due.exec_ends (r := dispRow) h dispRow_mem (dispBody_bad h.marked.bytes hd hg)
  · intro s s0 s2 s3 s4 s5 u c c0 x g rs es copies h hd hx hg hpeers hroute hexpert hs5 hp hcopies hok
    exact SpoolRow.Due.exec_runs (r := dispRow) h dispRow_mem (dispBody_starts h.marked.bytes hd hx hg hpeers hroute hexpert hs5 hp hcopies hok)
  · exact fun s s0 s5 u c c0 d h hd => ⟨fun ha => SpoolRow.Due.exec_runs (r := dispRow) h dispRow_mem (dispBody_resumes hd ha),
      fun _ _ ha => SpoolRow.Due.exec_ends (r := dispRow) h dispRow_mem (dispBody_resumes hd ha)⟩
  · exact fun s s0 s2 u c c0 h hd hg => SpoolRow.Due.exec_ends (r := combRow) h combRow_mem (combBody_bad h.marked.bytes hd hg)
  · intro s s0 s2 s3 s4 s5 s6 u c c0 x g rs es ms need runs d h hd hx hg htables hs4 hp hneed hruns hpeers hstart
    have hb {a : Act} (ha : combAdvance s5 d (cbCmd c0) = (s6, a)) : combBody u s0 c0 = (s6, cbCmd c0, a) :=
      combBody_starts h.marked.bytes hd hx hg htables hs4 hp hneed hruns hpeers hstart ha
    exact ⟨fun ha => SpoolRow.Due.exec_runs (r := combRow) h combRow_mem (hb ha),
      fun _ _ ha => SpoolRow.Due.exec_ends (r := combRow) h combRow_mem (hb ha)⟩
  · exact fun s s0 s5 u c c0 d h hd => ⟨fun ha => SpoolRow.Due.exec_runs (r := combRow) h combRow_mem (combBody_resumes hd ha),
      fun _ _ ha => SpoolRow.Due.exec_ends (r := combRow) h combRow_mem (combBody_resumes hd ha)⟩

end Sys2Proof.Machine
end

section
namespace Sys2Proof.Machine
open Sys2Proof

/-! PROOFS. Frames that leave (R313 to R323): what the transport's shared operations change.

A frame that leaves moves counters, the ports and what the module has sent (`putSealed_rest`). Beyond that, sending moves the sending side of the
connections: what a connection has received, and what waits at a host, stay (`Sends`). -/

variable {s t s2 : State} {id psn p q c : Nat} {f : Frame} {body : Bytes}

/-! ### The tables of the fabric -/

theorem conn_setConn {x : Conn} : conn (setConn s id x) c = if id = c then x else conn s c := mapGet_mapSet _ _ _ _ _

@[simp] theorem conn_setConn_same {x : Conn} : conn (setConn s id x) id = x := mapGet_mapSet_same _ _ _ _

@[simp] theorem port_setPort_same {x : Port} : port (setPort s p x) p = x := mapGet_mapSet_same _ _ _ _

@[simp] theorem peerOf_setPeer_same {x : Peer} : peerOf (setPeer s q x) q = x := mapGet_mapSet_same _ _ _ _

/-! ### The registers of the ports -/

/-- A write of one field of a port's register leaves the fields apart from it of every port's. -/
theorem getF_setF_port {g h : Fd} {n : Nat} (hg : g.ok) (hh : h.ok) (hap : g.apart h) :
    getF (setF s (rFabPort p) g n) (rFabPort q) h = getF s (rFabPort q) h := by
  by_cases hpq : p = q
  · rw [hpq, getF_setF_apart _ _ _ _ _ hg hh hap]
  · exact getF_setF_ne _ _ _ _ _ _ (by simp [rFabPort]; omega)

theorem portState_setPort {x : Port} : portState (setPort s p x) q = portState s q := getF_setF_port (by decide) (by decide) (by decide)

theorem portState_setF {r : Reg} {g : Fd} {n : Nat} (hr : r.key ≠ (rFabPort p).key) : portState (setF s r g n) p = portState s p :=
  getF_setF_ne _ _ _ _ _ _ hr

theorem portState_bump {r : Reg} {g : Fd} {n : Nat} (hr : r.key ≠ (rFabPort p).key) : portState (bump s r g n) p = portState s p :=
  portState_setF hr

/-! ### A frame leaves on a port (R313 to R319) -/

/-- What leaves is the frame on its port's plane, with the link word of that port. -/
theorem putSealed_rest : ∃ r ps w l a k, putSealed s p f body = { s with regs := r, fab := { s.fab with
    ports := ps, wire := w, out := s.fab.out ++ [{ f with plane := Fin.ofNat 16 p, lseq := l, ackLseq := a, credits := k }] } } := by
  unfold putSealed
  dsimp only
  split
  · exact ⟨_, _, _, _, _, _, rfl⟩
  · exact ⟨_, _, _, _, _, _, rfl⟩

theorem putFrame_out : ∃ l a k, (putFrame s p f).fab.out = s.fab.out ++
    [{ f with plane := Fin.ofNat 16 p, lseq := l, ackLseq := a, credits := k }] := by
  obtain ⟨_, _, _, l, a, k, hput⟩ := putSealed_rest (s := s) (p := p) (f := f) (body := f.payload)
  exact ⟨l, a, k, congrArg (fun t => t.fab.out) hput⟩

theorem putFrame_conns : (putFrame s p f).fab.conns = s.fab.conns := by
  obtain ⟨_, _, _, _, _, _, hput⟩ := putSealed_rest (s := s) (p := p) (f := f) (body := f.payload)
  exact congrArg (fun t => t.fab.conns) hput

theorem putFrame_peers : (putFrame s p f).fab.peers = s.fab.peers := by
  obtain ⟨_, _, _, _, _, _, hput⟩ := putSealed_rest (s := s) (p := p) (f := f) (body := f.payload)
  exact congrArg (fun t => t.fab.peers) hput

theorem putFrame_sameMemory : SameMemory s (putFrame s p f) := by
  obtain ⟨_, _, _, _, _, _, hput⟩ := putSealed_rest (s := s) (p := p) (f := f) (body := f.payload)
  rw [putFrame, hput]
  exact ⟨fun _ => rfl, rfl⟩

theorem getR_putSealed {r : Reg} (htx : (rPortTxFrames p).key ≠ r.key) (hport : (rFabPort p).key ≠ r.key) :
    getR (putSealed s p f body) r = getR s r := by
  unfold putSealed
  dsimp only
  split
  · exact (getR_setR_ne _ _ _ _ hport).trans (getR_setR_ne _ _ _ _ htx)
  · exact getR_setR_ne _ _ _ _ htx

/-- A packet sent again moves its connection's packets in flight, and leaves where a plane takes it (R322). -/
theorem retransmit_cases : retransmit s id psn = s ∨ ∃ l : List Pkt, retransmit s id psn = setConn s id { conn s id with inflight := l } ∨
    ∃ p g body, retransmit s id psn = putSealed (bump (setConn s id { conn s id with inflight := l }) rRetx fRetx 1) p g body := by
  unfold retransmit
  dsimp only
  split
  · exact .inl rfl
  · split
    · exact .inr ⟨_, .inr ⟨_, _, _, rfl⟩⟩
    · exact .inr ⟨_, .inr ⟨_, _, _, rfl⟩⟩
    · exact .inr ⟨_, .inl rfl⟩

/-! ### What sending leaves -/

/-- Memory, what waits at the host of a DISPATCH or a COMBINE, and the frames of unfinished messages are as they were. -/
structure Sends (s t : State) : Prop where
  mem : t.mem = s.mem
  poison : t.poison = s.poison
  counts : t.fab.counts = s.fab.counts
  combQ : t.fab.combQ = s.fab.combQ
  disps : t.fab.disps = s.fab.disps
  combs : t.fab.combs = s.fab.combs
  parts : ∀ c, (conn t c).parts = (conn s c).parts

namespace Sends

theorem refl : Sends s s := ⟨.refl _, .refl _, .refl _, .refl _, .refl _, .refl _, fun _ => .refl _⟩

theorem trans (h : Sends s t) (h2 : Sends t s2) : Sends s s2 :=
  ⟨h2.mem.trans h.mem, h2.poison.trans h.poison, h2.counts.trans h.counts, h2.combQ.trans h.combQ, h2.disps.trans h.disps,
    h2.combs.trans h.combs, fun c => (h2.parts c).trans (h.parts c)⟩

theorem ite {b : Prop} [Decidable b] (h : Sends s t) (h2 : Sends s s2) : Sends s (if b then t else s2) := by
  split
  · exact h
  · exact h2

theorem foldl {α : Type} {g : State → α → State} {l : List α} (hg : ∀ t x, Sends t (g t x)) : Sends s (l.foldl g s) :=
  List.foldlRecOn (motive := Sends s) _ _ .refl fun _ ht x _ => ht.trans (hg _ x)

theorem setR {r : Reg} {w : Word} : Sends s (setR s r w) := ⟨rfl, rfl, rfl, rfl, rfl, rfl, fun _ => rfl⟩

/-- A connection whose unfinished messages stay. -/
theorem setConn {x : Conn} (hx : x.parts = (conn s id).parts) : Sends s (setConn s id x) := by
  refine ⟨rfl, rfl, rfl, rfl, rfl, rfl, fun c => ?_⟩
  rw [conn_setConn]
  split
  · next h => rw [hx, h]
  · rfl

theorem putSealed : Sends s (putSealed s p f body) := by
  obtain ⟨_, _, _, _, _, _, hput⟩ := putSealed_rest (s := s) (p := p) (f := f) (body := body)
  rw [hput]
  exact ⟨rfl, rfl, rfl, rfl, rfl, rfl, fun _ => rfl⟩

theorem transmit {x : Pkt} {ps : List Nat} : Sends s (transmit s id x ps) := by
  refine .ite ?_ (.foldl fun _ _ => .putSealed)
  exact .trans (.ite (.trans (.setConn (by rfl)) .setR) (.setConn (by rfl))) .putSealed

theorem retransmit : Sends s (retransmit s id psn) := by
  obtain h | ⟨l, h | ⟨p, g, body, h⟩⟩ := retransmit_cases (s := s) (id := id) (psn := psn)
  · rw [h]
    exact .refl
  · rw [h]
    exact .setConn rfl
  · rw [h]
    exact ((Sends.setConn (by rfl)).trans .setR).trans .putSealed

theorem useCtx : Sends s (useCtx s id).1 := by
  unfold Machine.useCtx
  split
  · exact ⟨rfl, rfl, rfl, rfl, rfl, rfl, fun _ => rfl⟩
  · split
    · exact .refl
    · exact .trans (.setR (r := rCtxMiss)) (.setConn (by rfl))

theorem pumpQ {one blocked : Bool} {l rest : List Pkt} : Sends s (pumpQ s id q one l blocked rest) := by
  induction l generalizing s blocked rest with
  | nil => exact .setConn rfl
  | cons x l ih =>
    refine .ite ih ?_
    split
    · exact ih
    · exact .ite (transmit.trans (.setConn (by rfl))) (transmit.trans ih)

theorem pumpQueue {one : Bool} : Sends s (pumpQueue s q one id) := by
  have hctx : Sends s (Machine.useCtx s id).1 := .useCtx
  refine .ite ?_ .refl
  split
  · next h => exact .trans (by rwa [h] at hctx) .pumpQ
  · next h => rwa [h] at hctx

theorem pump : Sends s (pump s id) :=
  (((Sends.foldl fun _ _ => .retransmit).trans .pumpQueue).trans .pumpQueue).trans .pumpQueue

theorem sendFrame {owner : Nat} : Sends s (sendFrame s id f owner) := .trans (.setConn (by rfl)) .pump

theorem sendAck : Sends s (sendAck s id) := by
  unfold Machine.sendAck
  exact (Sends.setConn (by rfl)).trans .sendFrame

theorem noteArrival {ce : Bool} : Sends s (noteArrival s id ce) := by
  unfold Machine.noteArrival
  exact .ite ((Sends.setConn (by rfl)).trans .sendAck) (.setConn (by rfl))

end Sends

end Sys2Proof.Machine
end

section
namespace Sys2Proof.Machine
open Sys2Proof

/-! PROOFS. Frames are admitted, and packets delivered once and in their window (O41).

A row takes its frame in, finds its connection and delivers it: one law for each way in which a frame is dropped, answered, kept or applied. -/

variable {s t v s1 s2 : State} {f : Frame} {id k p q : Nat} {a : Applied}

/-! ### Peers (R330) -/

theorem noteDown_rest : ∃ ps, noteDown s q = { s with fab := { s.fab with peers := ps } } := by
  unfold noteDown
  dsimp only
  split
  · exact ⟨_, rfl⟩
  · exact ⟨_, rfl⟩

theorem sawPeer_rest : ∃ ps, sawPeer s q = { s with fab := { s.fab with peers := ps } } := by
  unfold sawPeer
  dsimp only
  split
  · exact noteDown_rest
  · exact ⟨_, rfl⟩

/-! ### Switched mode (R311, R343) -/

/-- The frame counted at its port. -/
def rxCounted (s : State) (f : Frame) : State := bump s (rPortRxFrames f.plane) fPortRxFramesRxFrames 1

theorem linkReceive_switched (hd : direct s = false) : linkReceive s f = (rxCounted s f, true) :=
  if_pos (Bool.eq_false_iff.1 hd)

theorem portRoom_switched (hd : direct s = false) (hup : portState s p = 2) : portRoom s p f = true := by
  simp [portRoom, hd, hup]

/-! ### Taking a frame in (R314, R326, R390, R432) -/

/-- The frames of a row are messages. -/
theorem frameRows_opcode : ∀ x ∈ frameRows, frameOpcodes.elem x.2 = true := by decide

theorem badFrame_of_row {x : (Frame → Instr) × Nat} (hx : x ∈ frameRows) (hop : f.opcode.toNat = x.2) (hcls : f.cls.toNat ≤ 2) : badFrame f = false := by
  have hcls4 : ¬4 < f.cls.toNat := by omega
  rw [badFrame, hop, frameRows_opcode x hx]
  simp [hcls4]

theorem takeIn_closed (h : s.fab.ready = false ∨ portState s f.plane ≠ 2) : takeIn s f = (s, false) := if_pos (by simpa using h)

theorem frameParity_unhurt (hfield : f.hurtField = false) (hurt : f.hurt = []) : frameParity s f = s := if_pos (by simp [hfield, hurt])

/-- The frame taken in: it is counted, and its peer has shown that it is there. -/
def rxSeen (s : State) (f : Frame) (ps : FMap Nat Peer) : State := { rxCounted s f with fab := { s.fab with peers := ps } }

theorem getF_rxCounted {r : Reg} {g : Fd} (hr : (rPortRxFrames f.plane).key ≠ r.key) : getF (rxCounted s f) r g = getF s r g :=
  getF_setF_ne _ _ _ _ _ _ hr

theorem rx_key_ne {r : Reg} (h : r.key.off < 0x200 ∨ 0x400 ≤ r.key.off) : (rPortRxFrames f.plane).key ≠ r.key :=
  key_ne_of_off (by dsimp only [rPortRxFrames]; omega)

theorem portState_rxCounted : portState (rxCounted s f) f.plane = portState s f.plane :=
  getF_rxCounted (rx_key_ne (.inl (by dsimp only [rFabPort]; omega)))

theorem icrcErr_counted {t : State} (ht : t = bump (rxCounted s f) rIcrcErr fIcrcErr 1) :
    getF t rIcrcErr fIcrcErr = min (getF s rIcrcErr fIcrcErr + 1) (2 ^ fIcrcErr.width - 1) ∧
      SameRegsBut [rIcrcErr.key, (rPortRxFrames f.plane).key] s t := by
  subst ht
  refine ⟨?_, fun r hr => ?_⟩
  · rw [getF_bump_same _ _ _ _ (by decide), getF_rxCounted (rx_key_ne (.inr (by decide)))]
  · obtain ⟨hicrc, hrx⟩ := not_or.1 (List.mem_pair.not.1 hr)
    exact (getR_setR_ne _ _ _ _ (Ne.symm hicrc)).trans (getR_setR_ne _ _ _ _ (Ne.symm hrx))

section
variable (hready : s.fab.ready = true) (hup : portState s f.plane = 2) (hd : direct s = false) (hgood : badFrame f = false)
include hready hup hd hgood

theorem takeIn_icrc (hicrc : f.icrcOk = false) : takeIn s f = (bump (rxCounted s f) rIcrcErr fIcrcErr 1, false) := by
  simp [takeIn, hready, hup, linkReceive_switched hd, hgood, hicrc]

variable (hicrc : f.icrcOk = true)
include hicrc

theorem takeIn_parity (hfield : f.hurtField = true) : takeIn s f = (frameParity (rxCounted s f) f, false) := by
  simp [takeIn, hready, hup, linkReceive_switched hd, hgood, hicrc, hfield]

theorem takeIn_unhurt (hfield : f.hurtField = false) (hurt : f.hurt = []) : ∃ ps, takeIn s f = (rxSeen s f ps, true) := by
  obtain ⟨ps, hsaw⟩ : ∃ ps, sawPeer (rxCounted s f) f.srcPeer.toNat = rxSeen s f ps := sawPeer_rest
  refine ⟨ps, ?_⟩
  rw [← hsaw]
  simp [takeIn, hready, hup, linkReceive_switched hd, hgood, hicrc, hfield, hurt, frameParity_unhurt hfield hurt]

end

/-! ### What a row does with its frame -/

theorem frameRows_receive : ∀ x ∈ frameRows, ∀ (f : Frame) (s : State), exec (x.1 f) s = .next (receive s f x.2) := by
  simp only [frameRows, List.forall_mem_cons]
  refine ⟨?_, ?_, ?_, ?_, ?_, ?_, ?_, ?_, ?_, ?_, ?_, ?_, nofun⟩
  all_goals exact fun _ _ => rfl

section
variable (hop : f.opcode.toNat = k) (hcls : f.cls.toNat ≤ 2)
include hop hcls

theorem receive_dropped (h : takeIn s f = (t, false)) : receive s f k = t := by
  have hown : ¬2 < f.cls.toNat := by omega
  simp [receive, hop, hown, h]

theorem receive_taken (h : takeIn s f = (t, true)) : receive s f k = arrive (retryHeld t) f := by
  have hown : ¬2 < f.cls.toNat := by omega
  simp [receive, hop, hown, h]

end

/-- With nothing held, nothing is tried again. -/
theorem retryHeld_idle (h : s.fab.held = []) : retryHeld s = s := by
  rw [retryHeld, h, List.foldl_nil, ← h]

/-- A payload without a parity error arrives as it is. -/
theorem frame_unhurt (hurt : f.hurt = []) : { f with bad := f.bad ++ f.hurt, hurt := [] } = f := by
  rw [hurt, List.append_nil, ← hurt]

theorem arrive_refused (hurt : f.hurt = []) (h : admitConn s f = (t, false)) : arrive s f = t := by
  simp only [arrive, frame_unhurt hurt, h]

theorem arrive_waits (hurt : f.hurt = []) (h : admitConn s f = (s2, true)) (hctx : useCtx s2 f.conn.toNat = (t, false)) :
    arrive s f = setConn t f.conn.toNat { conn t f.conn.toNat with waiting := (conn t f.conn.toNat).waiting ++ [f] } := by
  simp only [arrive, frame_unhurt hurt, h, hctx]

theorem arrive_delivers (hurt : f.hurt = []) (h : admitConn s f = (s2, true)) (hctx : useCtx s2 f.conn.toNat = (t, true)) :
    arrive s f = deliverAll t f.conn.toNat f := by
  simp only [arrive, frame_unhurt hurt, h, hctx]

/-- A frame that reaches its connection is delivered, and then the FENCE packets behind it. -/
theorem Reaches.receive_eq (h : Reaches s t f k) : receive s f k = thenFenced (deliver t f.conn.toNat f) f.conn.toNat := by
  obtain ⟨hop, hcls, hurt, s1, s2, htake, hadmit, hctx⟩ := h
  rw [receive_taken hop hcls htake, arrive_delivers hurt hadmit hctx]
  rfl

/-! ### Its connection (R325, R326) -/

theorem admitConn_closed (h : (conn s f.conn.toNat).open_ = false) : admitConn s f = (nackNoConn s f, false) := by
  simp [admitConn, h]

theorem admitConn_unsealed (hopen : (conn s f.conn.toNat).open_ = true)
    (h : (conn s f.conn.toNat).enc ≠ f.enc ∨ (f.enc = true ∧ f.gcmOk = false)) : admitConn s f = (bump s rGcmFail fGcmFail 1, false) := by
  simp only [admitConn, hopen, not_true_eq_false, if_false]
  exact if_pos (by simpa using h)

/-- The NACK of NO_CONTEXT for a frame. -/
def noContextNack (s : State) (f : Frame) : Frame :=
  { emptyFrame s with cls := 4, dstPeer := f.srcPeer, conn := f.conn, psn := f.psn, group := f.group, opid := f.opid, opcode := f.opcode, addr := f.addr,
                      reason := 0x21 }

theorem nackNoConn_switched (hd : direct s = false) (hup : portState s f.plane = 2) :
    nackNoConn s f = putFrame (bump s rNackTx fNackTx 1) f.plane (noContextNack s f) := by
  have hport : rNackTx.key ≠ (rFabPort f.plane).key := key_ne_of_off (by dsimp only [rNackTx, rFabPort]; omega)
  exact if_pos (portRoom_switched (s := bump s rNackTx fNackTx 1) hd ((portState_bump hport).trans hup))

theorem getF_putFrame_nackTx {p : Fin 16} {g : Frame} : getF (putFrame s p g) rNackTx fNackTx = getF s rNackTx fNackTx :=
  congrArg (fget · fNackTx) (getR_putSealed (key_ne_of_off (by dsimp only [rNackTx, rPortTxFrames]; omega))
    (key_ne_of_off (by dsimp only [rNackTx, rFabPort]; omega)))

/-- It leaves on the plane that brought the frame, and is counted. -/
theorem nackNoConn_sent (hd : direct s = false) (hup : portState s f.plane = 2) : ∃ g, (nackNoConn s f).fab.out = s.fab.out ++ [g] ∧ g.cls = 4 ∧
    g.reason = 0x21 ∧ g.conn = f.conn ∧ g.psn = f.psn ∧ g.dstPeer = f.srcPeer ∧
    getF (nackNoConn s f) rNackTx fNackTx = min (getF s rNackTx fNackTx + 1) (2 ^ fNackTx.width - 1) ∧
    (nackNoConn s f).fab.conns = s.fab.conns ∧ SameMemory s (nackNoConn s f) := by
  rw [nackNoConn_switched hd hup]
  obtain ⟨l, a, k, hout⟩ := putFrame_out (s := bump s rNackTx fNackTx 1) (p := f.plane) (f := noContextNack s f)
  exact ⟨_, hout, rfl, rfl, rfl, rfl, rfl, getF_putFrame_nackTx.trans (getF_bump_same _ _ _ _ (by decide)), putFrame_conns, putFrame_sameMemory⟩

/-! ### Delivery (R320, R321, R325, R327) -/

theorem deliver_duplicate (h : 2 ^ 23 ≤ psnAhead (conn s id) f ∨ (arrivedPsns s id).elem f.psn.toNat = true) :
    deliver s id f = noteArrival s id f.ce := if_pos h

section
variable (hnear : psnAhead (conn s id) f < 2 ^ 23) (hnew : (arrivedPsns s id).elem f.psn.toNat = false)
include hnear hnew

/-- It is no duplicate. -/
theorem arrives_new : ¬(2 ^ 23 ≤ psnAhead (conn s id) f ∨ (arrivedPsns s id).elem f.psn.toNat = true) :=
  fun h => h.elim (Nat.not_le.2 hnear) fun hold => Bool.false_ne_true (hnew.symm.trans hold)

theorem deliver_beyond (h : 2 ^ (conn s id).winLog2 ≤ psnAhead (conn s id) f) : deliver s id f = s :=
  (if_neg (arrives_new hnear hnew)).trans (if_pos h)

variable (hwin : psnAhead (conn s id) f < 2 ^ (conn s id).winLog2)
include hwin

theorem deliver_fenced (hfence : f.fence = true) (h : 0 < psnAhead (conn s id) f) :
    deliver s id f = noteArrival (setConn s id { conn s id with fenced := (conn s id).fenced ++ [f] }) id f.ce :=
  (if_neg (arrives_new hnear hnew)).trans ((if_neg (Nat.not_le.2 hwin)).trans (if_pos ⟨hfence, Nat.ne_of_gt h⟩))

theorem deliver_now (hfence : f.fence = true → psnAhead (conn s id) f = 0) : deliver s id f = applyNow s id f false :=
  (if_neg (arrives_new hnear hnew)).trans ((if_neg (Nat.not_le.2 hwin)).trans (if_neg fun h => h.2 (hfence h.1)))

end

theorem Applies.deliver_eq (h : Applies t f) : deliver t f.conn.toNat f = applyNow t f.conn.toNat f false := by
  obtain ⟨hnear, hwin, hnew, hfence, -⟩ := h
  exact deliver_now hnear hnew hwin hfence

theorem Applies.domain (h : Applies t f) : f.opcode = 0x06 ∨ inDomain t f.srcPeer.toNat = true := by
  obtain ⟨-, -, -, -, hdom⟩ := h
  exact hdom

theorem applyNow_outside (hop : f.opcode ≠ 0x06) (hdom : inDomain s f.srcPeer.toNat = false) :
    applyNow s id f false = noteApplied (sendNack s id f 0x22) id { f with opcode := 0 } false := if_pos ⟨hop, by simp [hdom]⟩

section
variable (hdom : f.opcode = 0x06 ∨ inDomain s f.srcPeer.toNat = true)
include hdom

/-- It is not refused for its domain (R327). -/
theorem applyNow_inside : ¬(f.opcode ≠ 0x06 ∧ ¬inDomain s f.srcPeer.toNat) := fun hout => hdom.elim hout.1 hout.2

theorem applyNow_settled (h : applyFrame s id f = (t, a)) (ha : a = .done ∨ a = .refused) : applyNow s id f false = noteApplied t id f false := by
  refine (if_neg (applyNow_inside hdom)).trans ?_
  rcases ha with rfl | rfl
  · simp [h]
  · simp [h]

theorem applyNow_busy (h : applyFrame s id f = (t, .busy)) : applyNow s id f false = t :=
  (if_neg (applyNow_inside hdom)).trans (by simp [h])

theorem applyNow_held (h : applyFrame s id f = (t, .held)) : applyNow s id f false = noteArrival t id f.ce :=
  (if_neg (applyNow_inside hdom)).trans (by simp [h])

end

/-- A packet applied now is settled: answered or done, its number and its arrival are noted. -/
theorem Reaches.receive_settled (h : Reaches s t f k) (happ : Applies t f) (hf : applyFrame t f.conn.toNat f = (v, a)) (ha : a = .done ∨ a = .refused) :
    receive s f k = applied v f := by
  rw [h.receive_eq, happ.deliver_eq, applyNow_settled happ.domain hf ha]
  rfl

/-- A packet answered with BUSY is not noted: it comes again (R329). -/
theorem Reaches.receive_busy (h : Reaches s t f k) (happ : Applies t f) (hf : applyFrame t f.conn.toNat f = (v, .busy)) :
    receive s f k = thenFenced v f.conn.toNat := by
  rw [h.receive_eq, happ.deliver_eq, applyNow_busy happ.domain hf]

/-- A packet that waits for memory has arrived. -/
theorem Reaches.receive_held (h : Reaches s t f k) (happ : Applies t f) (hf : applyFrame t f.conn.toNat f = (v, .held)) :
    receive s f k = thenFenced (noteArrival v f.conn.toNat f.ce) f.conn.toNat := by
  rw [h.receive_eq, happ.deliver_eq, applyNow_held happ.domain hf]

/-- Settles O41: a frame is dropped, answered or delivered by what it names, and a delivered packet by its number. -/
theorem framesAreAdmittedAndDeliveredOnce : Obligations.FramesAreAdmittedAndDeliveredOnce := by
  refine ⟨fun x hx s f hop hcls => ?_, fun x hx s t f => ?_⟩
  · have hgood := badFrame_of_row hx hop hcls
    rw [frameRows_receive x hx]
    refine ⟨fun h => congrArg _ (receive_dropped hop hcls (takeIn_closed h)), fun hready hup hd => ⟨?_, ?_, ?_, ?_⟩⟩
    · intro hicrc
      obtain ⟨hcount, hregs⟩ := icrcErr_counted (s := s) (f := f) rfl
      exact ⟨_, congrArg _ (receive_dropped hop hcls (takeIn_icrc hready hup hd hgood hicrc)), hcount, hregs, rfl, fun _ => rfl, rfl⟩
    · exact fun hicrc hfield => congrArg _ (receive_dropped hop hcls (takeIn_parity hready hup hd hgood hicrc hfield))
    · intro hicrc hfield hurt hheld hclosed
      obtain ⟨ps, htake⟩ := takeIn_unhurt hready hup hd hgood hicrc hfield hurt
      obtain ⟨g, hout, hclass, hreason, hconn, hpsn, hpeer, hcount, hconns, hmem⟩ :=
        nackNoConn_sent (s := rxSeen s f ps) hd (portState_rxCounted.trans hup)
      have hrx : getF (rxSeen s f ps) rNackTx fNackTx = getF s rNackTx fNackTx := getF_rxCounted (rx_key_ne (.inr (by decide)))
      rw [receive_taken hop hcls htake, retryHeld_idle (s := rxSeen s f ps) hheld, arrive_refused hurt (admitConn_closed (s := rxSeen s f ps) hclosed)]
      exact ⟨_, g, rfl, hout, hclass, hreason, hconn, hpsn, hpeer, hrx ▸ hcount, hconns, hmem⟩
    · intro hicrc hfield hurt hheld hopen hseal
      obtain ⟨ps, htake⟩ := takeIn_unhurt hready hup hd hgood hicrc hfield hurt
      have hrx : getF (rxSeen s f ps) rGcmFail fGcmFail = getF s rGcmFail fGcmFail := getF_rxCounted (rx_key_ne (.inr (by decide)))
      rw [receive_taken hop hcls htake, retryHeld_idle (s := rxSeen s f ps) hheld,
        arrive_refused hurt (admitConn_unsealed (s := rxSeen s f ps) hopen hseal)]
      exact ⟨_, rfl, hrx ▸ getF_bump_same _ _ _ _ (by decide), rfl, rfl, fun _ => rfl, rfl⟩
  · rw [frameRows_receive x hx]
    refine ⟨?_, ?_, ?_, ?_, ?_⟩
    · exact fun h hold => by rw [h.receive_eq, deliver_duplicate hold]
    · exact fun h hnear hnew hbeyond => by rw [h.receive_eq, deliver_beyond hnear hnew hbeyond]
    · exact fun h hfence hahead hnear hwin hnew => by rw [h.receive_eq, deliver_fenced hnear hnew hwin hfence hahead]
    · exact fun h hnear hwin hnew hfence hopcode hdom => by rw [h.receive_eq, deliver_now hnear hnew hwin hfence, applyNow_outside hopcode hdom]
    · exact fun s1 s2 hop hcls hurt htake hadmit hctx => by rw [receive_taken hop hcls htake, arrive_waits hurt hadmit hctx]

end Sys2Proof.Machine
end

section
namespace Sys2Proof.Machine
open Sys2Proof

/-! PROOFS. The memory-form requests of a peer (O42).

A request that is delivered is served under its connection's translation (`applyMem`): one law for each answer of `serveMem`. -/

variable {s t u : State} {f : Frame} {id k n : Nat} {op : MemOp} {c : Instr} {ps : List Piece}

/-! ### What a request is (R328) -/

theorem memOpOf_write (h : f.opcode.toNat = 0x01) : memOpOf f = some (.write f.payload f.bad, f.payload.length) := by
  simp only [memOpOf, h]

theorem memOpOf_read (h : f.opcode.toNat = 0x02) : memOpOf f = some (.read, u64At f.payload 0) := by
  simp only [memOpOf, h]

/-- The opcodes of the memory form. -/
def memOpcodes : List Nat := [0x01, 0x02, 0x04]

theorem applyFrame_mem (h : f.opcode.toNat ∈ memOpcodes) : applyFrame s id f = applyMem s id f := by
  simp only [memOpcodes, List.mem_cons, List.not_mem_nil, or_false] at h
  obtain h | h | h := h
  all_goals simp only [applyFrame, h]

/-! ### Its translation (R193, R255) -/

theorem serveMem_write {q : XReq} {off : Nat} {data : Bytes} (h : xlate s q off n = (t, .ok ps)) :
    serveMem s q off n (.write data []) = (piecesWrite t ps data, .done [] []) := by
  simp [serveMem, h]

theorem serveMem_read {q : XReq} {off : Nat} (h : xlate s q off n = (t, .ok ps)) :
    serveMem s q off n .read = (piecesTouch t ps, .done (piecesRead t ps) (piecesPoison t ps)) := by
  simp [serveMem, h]

/-! ### Its answers (R206, R261, R271) -/

theorem applyMem_unknown (h : memOpOf f = none) : applyMem s id f = (sendNack s id f fRefused, .refused) := by
  simp only [applyMem, h]

section
variable (hop : memOpOf f = some (op, n))
include hop

theorem applyMem_fault {va cause : Nat} {p : Bool}
    (h : serveMem s (connReq s id op.writes op.reads) (f.addr.toNat % 2 ^ 48) n op = (u, .nack va cause p)) :
    applyMem s id f = (sendNack (putPeerFault u (connReq s id op.writes op.reads).part
      { va := va, astag := (connReq s id op.writes op.reads).astag, cause := cause, write := op.writes, unit := 8, since := u.time }) id f cause,
      .refused) := by
  simp only [applyMem, hop, h]

theorem applyMem_waits (h : serveMem s (connReq s id op.writes op.reads) (f.addr.toNat % 2 ^ 48) n op = (u, .wait ps)) :
    applyMem s id f = ({ u with fab := { u.fab with held := u.fab.held ++ [(id, f)] } }, .held) := by
  simp only [applyMem, hop, h]

variable {data : Bytes} {bad : List (Nat × Nat)}
  (h : serveMem s (connReq s id op.writes op.reads) (f.addr.toNat % 2 ^ 48) n op = (u, .done data bad))
include h

theorem applyMem_written (hcode : f.opcode.toNat = 0x01) : applyMem s id f = (u, .done) := by
  simp only [applyMem, hop, h, hcode]

theorem applyMem_read (hcode : f.opcode.toNat = 0x02) : applyMem s id f = (respond u id f 0x03 data bad, .done) := by
  simp only [applyMem, hop, h, hcode]

theorem applyMem_atomic (hcode : f.opcode.toNat = 0x04) : applyMem s id f = (respond u id f 0x05 data bad, .done) := by
  simp only [applyMem, hop, h, hcode]

end

/-- Settles O42: each clause is one answer of `serveMem` to the request that its packet spells. -/
theorem peerMemoryRequests : Obligations.PeerMemoryRequests := by
  intro s t u f c happ hc
  obtain ⟨k, hk, hr, hexec⟩ : ∃ k ∈ memOpcodes, Reaches s t f k ∧ exec c s = .next (receive s f k) := by
    obtain ⟨rfl, hr⟩ | ⟨rfl, hr⟩ | ⟨rfl, hr⟩ := hc
    · exact ⟨0x01, by decide, hr, rfl⟩
    · exact ⟨0x02, by decide, hr, rfl⟩
    · exact ⟨0x04, by decide, hr, rfl⟩
  have hmem : applyFrame t f.conn.toNat f = applyMem t f.conn.toNat f := applyFrame_mem (hr.1 ▸ hk)
  have hsettled {v : State} {a : Applied} (hf : applyMem t f.conn.toNat f = (v, a)) (ha : a = .done ∨ a = .refused) : exec c s = .next (applied v f) := by
    rw [hexec, hr.receive_settled happ (hmem.trans hf) ha]
  refine ⟨?_, ?_, ?_, ?_, ?_, ?_⟩
  · exact fun va cause p op n hop hserve => hsettled (applyMem_fault hop hserve) (.inr rfl)
  · intro ps op n hop hserve
    rw [hexec, hr.receive_held happ (hmem.trans (applyMem_waits hop hserve))]
  · exact fun hop => hsettled (applyMem_unknown hop) (.inr rfl)
  · intro ps hw hx hbad
    have hown : Reaches s t f 0x01 := by simpa [hw] using hc
    have hop := memOpOf_write hown.1
    rw [hbad] at hop
    exact hsettled (applyMem_written hop (serveMem_write hx) hown.1) (.inl rfl)
  · intro ps hw hx
    have hown : Reaches s t f 0x02 := by simpa [hw] using hc
    exact hsettled (applyMem_read (memOpOf_read hown.1) (serveMem_read hx) hown.1) (.inl rfl)
  · intro op n data bad hw hop hserve
    have hown : Reaches s t f 0x04 := by simpa [hw] using hc
    exact hsettled (applyMem_atomic hop hserve hown.1) (.inl rfl)

end Sys2Proof.Machine
end

section
namespace Sys2Proof.Machine
open Sys2Proof

/-! PROOFS. The packets of operations reach their operation, bobbin or message (O43).

What a packet does when it is applied is one equation of `applyFrame` for each opcode; a message is taken once its last packet has been noted
(`noteApplied_whole`). At the host, a landing is granted and a COMBINE served by one law for each of their outcomes. -/

variable {s t u v s1 s2 : State} {f : Frame} {fs front : List Frame} {id k : Nat}

/-! ### What a packet does when it is applied (R329, R333, R334) -/

theorem applyFrame_resp (h : f.opcode.toNat = 0x03 ∨ f.opcode.toNat = 0x05) : applyFrame s id f = (applyResp s id f, .done) := by
  obtain h | h := h
  all_goals simp only [applyFrame, h]

theorem applyFrame_coll (h : f.opcode.toNat = 0x10) : applyFrame s id f = (applyColl s id f, .done) := by
  simp only [applyFrame, h]

theorem applyFrame_send (h : f.opcode.toNat = 0x06) : applyFrame s id f = applySend s id f := by
  simp only [applyFrame, h]

theorem applyFrame_row (h : f.opcode.toNat = 0x13) : applyFrame s id f = applyRow s id f := by
  simp only [applyFrame, h]

/-- The opcodes of the messages that are taken whole. -/
def wholeOpcodes : List Nat := [0x11, 0x12, 0x14, 0x15]

theorem applyFrame_part (h : f.opcode.toNat ∈ wholeOpcodes) : applyFrame s id f = (s, .done) := by
  simp only [wholeOpcodes, List.mem_cons, List.not_mem_nil, or_false] at h
  obtain h | h | h | h := h
  all_goals simp only [applyFrame, h]

theorem Reaches.receive_part (h : Reaches s t f k) (happ : Applies t f) (hk : k ∈ wholeOpcodes) : receive s f k = applied t f :=
  h.receive_settled happ (applyFrame_part (h.1 ▸ hk)) (.inl rfl)

/-! ### SEND (R329) -/

theorem applySend_fills (h : sendVerdict s id f = 0) : applySend s id f = (wakeFor (putUnit s id f) (natField f.addr.toNat 4 0), .done) := by
  simp only [applySend, h]

/-- A message whose epoch has passed, and that holds no bobbin. -/
theorem applySend_stale (h : sendVerdict s id f = 0x20) (hfree : ∀ b, (bobAux s (natField f.addr.toNat 4 0) b).remote ≠ some (id, f.opid.toNat)) :
    applySend s id f = (staleRx s id f, .refused) := by
  simp [applySend, h, hfree]

theorem applySend_busy (h : sendVerdict s id f = 0x23) : applySend s id f = (sendNack s id f 0x23, .busy) := by
  simp only [applySend, h]

theorem applySend_refused (h : sendVerdict s id f = fRefused) : applySend s id f = (sendNack s id f fRefused, .refused) := by
  simp only [applySend, h, fRefused]

/-! ### DISPATCH_ROW (R320, R341) -/

section
variable (hwhole : wholeMsg ((conn s id).parts ++ [f]) f = some fs)
include hwhole

theorem applyRow_landed
    (h : landRow s (conn s id).part f.group.toNat f.opid.toNat (fs.headD f).addr.toNat { bytes := msgPayload fs, bad := msgBad fs } false = (u, .landed)) :
    applyRow s id f = (u, .done) := by
  simp only [applyRow, hwhole, h, rowAnswer]

theorem applyRow_refused {r : Nat}
    (h : landRow s (conn s id).part f.group.toNat f.opid.toNat (fs.headD f).addr.toNat { bytes := msgPayload fs, bad := msgBad fs } false = (u, .nack r)) :
    applyRow s id f = (sendNack u id f r, .refused) := by
  simp only [applyRow, hwhole, h, rowAnswer]

end

theorem applyRow_begins (hwhole : wholeMsg ((conn s id).parts ++ [f]) f = none)
    (hfront : partsBack ((conn s id).parts ++ [f]) ((conn s id).parts.length + 2) f.psn.toNat [] = some front) :
    applyRow s id f = (rowBegin s id f front, .done) := by
  simp only [applyRow, hwhole, hfront]

/-! ### Whole messages (R320) -/

theorem slidePsn_parts {c : Conn} : (slidePsn c k).parts = c.parts := by
  induction k generalizing c with
  | zero => rfl
  | succ k ih =>
    unfold slidePsn
    split
    · exact ih
    · rfl

theorem parts_markPsn : (conn (markPsn s id f) id).parts = (conn s id).parts ++ [f] := by
  rw [markPsn, conn_setConn_same, slidePsn_parts]

theorem settleMsg_whole (h : wholeMsg (conn s id).parts f = some fs) : ∃ x, settleMsg s id f = applyWhole (setConn s id x) id f fs := by
  unfold settleMsg
  rw [h]
  exact ⟨_, rfl⟩

/-- With its last packet noted, a message is taken in a state that has received and holds what the host had. -/
theorem noteApplied_whole (h : wholeMsg ((conn t id).parts ++ [f]) f = some fs) :
    ∃ v, noteApplied t id f false = applyWhole v id f fs ∧ v.mem = t.mem ∧ v.poison = t.poison ∧ v.fab.counts = t.fab.counts ∧
      v.fab.combQ = t.fab.combQ ∧ v.fab.disps = t.fab.disps ∧ v.fab.combs = t.fab.combs := by
  have hsent : Sends (markPsn t id f) (noteArrival (markPsn t id f) id f.ce) := .noteArrival
  obtain ⟨x, hx⟩ := settleMsg_whole (s := noteArrival (markPsn t id f) id f.ce) (id := id) (f := f) (fs := fs) (by rw [hsent.parts, parts_markPsn, h])
  exact ⟨_, hx, hsent.mem, hsent.poison, hsent.counts, hsent.combQ, hsent.disps, hsent.combs⟩

/-! ### LANDING_GRANT (R340) -/

theorem exec_landingGrant_none {g o : BitVec 16} (h : ∀ c ∈ s.fab.counts, ¬(c.group = g.toNat ∧ c.opid = o.toNat)) :
    exec (.landingGrant g o) s = .next s := by
  have hnone : s.fab.counts.find? (fun c => decide (c.group = g.toNat) && decide (c.opid = o.toNat)) = none :=
    List.find?_eq_none.2 fun c hc => by simpa using h c hc
  show execLandingGrant g o s = _
  simp only [execLandingGrant, hnone]

section
variable {g o : BitVec 16} {c : LandCount} (hc : s.fab.counts.find? (fun c => decide (c.group = g.toNat) && decide (c.opid = o.toNat)) = some c)
include hc

theorem exec_landingGrant : exec (.landingGrant g o) s = .next (landingGrant s c.part g.toNat o.toNat) := by
  show execLandingGrant g o s = _
  simp only [execLandingGrant, hc]

end

section
variable {part group opid : Nat} {g : Grp}

theorem landingGrant_bad (h : readGroup s part group = (s1, .bad)) : landingGrant s part group opid = s := by
  simp only [landingGrant, h]

variable (hg : readGroup s part group = (s1, .ok g))
include hg

theorem landingGrant_uncounted {q : Nat} (hq : q ∈ g.members) (hmiss : ∀ y ∈ countsOf s part group opid, y.peer ≠ q) :
    landingGrant s part group opid = s := by
  have hno : (countsOf s part group opid).any (fun c => decide (c.peer = q)) = false := List.any_eq_false.2 fun y hy => by simp [hmiss y hy]
  have hany : g.members.any (fun q => !(countsOf s part group opid).any (fun c => decide (c.peer = q))) = true :=
    List.any_eq_true.2 ⟨q, hq, by rw [hno]; rfl⟩
  simp only [landingGrant, hg, hany, if_true]

theorem landingGrant_granted {plans : List LandPlan} (hall : ∀ q ∈ g.members, ∃ y ∈ countsOf s part group opid, y.peer = q)
    (hplans : plans = (countIdxs (countsOf s part group opid)).map (landPlan s1 (countsOf s part group opid) g.members))
    (hready : plans.all (fun p => p.ready s1) = true) (hreach : plansReach s1 part plans = (s2, none)) :
    landingGrant s part group opid = grantAll s2 part group opid (countsOf s part group opid) g plans := by
  have hany : g.members.any (fun q => !(countsOf s part group opid).any (fun c => decide (c.peer = q))) = false :=
    List.any_eq_false.2 fun q hq => by
      obtain ⟨y, hy, hpeer⟩ := hall q hq
      have hyes : (countsOf s part group opid).any (fun c => decide (c.peer = q)) = true := List.any_eq_true.2 ⟨y, hy, by simp [hpeer]⟩
      rw [hyes]
      decide
  subst hplans
  simp only [landingGrant, hg, hany, hready, hreach, Bool.false_eq_true, if_false, not_true_eq_false]

end

/-! ### COMBINE_SERVE (R342) -/

section
variable {q : CombReq}

theorem exec_combineServe_none (h : ∀ q ∈ s.fab.combQ, q.id ≠ id) : exec (.combineServe id) s = .next s := by
  have hnone : s.fab.combQ.find? (fun y => decide (y.id = id)) = none := List.find?_eq_none.2 fun q hq => by simpa using h q hq
  show execCombineServe id s = _
  simp only [execCombineServe, hnone]

theorem exec_combineServe (hq : s.fab.combQ.find? (fun y => decide (y.id = id)) = some q) : exec (.combineServe id) s = .next (combServe s q) := by
  show execCombineServe id s = _
  simp only [execCombineServe, hq]

theorem combServe_refused (hx : landEntry s q.idx = none) : combServe s q = combNack (dropReq s q) q fRefused := by
  simp only [combServe, hx]

/-- No command of this module's own that the request belongs to is stalled. -/
theorem ownComb_goes (hown : ∀ y ∈ ownComb s q, y.2.phase = .started ∧ y.2.stall = .none) :
    (ownComb s q).any (fun y => decide (y.2.phase ≠ .started) || decide (y.2.stall ≠ .none)) = false := by
  cases ho : ownComb s q with
  | none => rfl
  | some y =>
    obtain ⟨hphase, hstall⟩ := hown y ho
    simp [hphase, hstall]

variable {x : LandEnt} {ds ps : List Piece} (hx : landEntry s q.idx = some x) (hown : ∀ y ∈ ownComb s q, y.2.phase = .started ∧ y.2.stall = .none)
  (hdone : xlate (landTouch s q.idx) (landReq s q.part x.astag false) x.doneVa 8 = (s1, .ok ds))
include hx hown hdone

theorem combServe_early (hneed : leNat (piecesRead s1 ds) < q.need) : combServe s q = s1 := by
  simp only [combServe, hx, ownComb_goes hown, hdone, hneed, Bool.false_eq_true, if_false, if_true]

theorem combServe_returns (hneed : q.need ≤ leNat (piecesRead s1 ds))
    (hrows : xlate s1 (landReq s q.part x.astag false) (x.outVa + q.first * x.outPitch) (combSpan q x) = (s2, .ok ps)) :
    combServe s q = combReturn s2 q x ps := by
  simp only [combServe, hx, ownComb_goes hown, hdone, Nat.not_lt.2 hneed, hrows, Bool.false_eq_true, if_false]

end

/-- Settles O43: a packet is applied by its opcode and a whole message with its last packet; a grant and a service have one law for each outcome. -/
theorem operationPacketsAreTaken : Obligations.OperationPacketsAreTaken := by
  refine ⟨fun s t f happ => ⟨?_, ?_, ?_, ?_, ?_, ?_, ?_, ?_, ?_, ?_, ?_, ?_, ?_, fun fs => noteApplied_whole⟩, ?_, ?_, ?_, ?_, ?_, ?_, ?_⟩
  · exact fun h => congrArg Host.Outcome.next (h.receive_settled happ (applyFrame_resp (.inl h.1)) (.inl rfl))
  · exact fun h => congrArg Host.Outcome.next (h.receive_settled happ (applyFrame_resp (.inr h.1)) (.inl rfl))
  · exact fun h => congrArg Host.Outcome.next (h.receive_settled happ (applyFrame_coll h.1) (.inl rfl))
  · exact fun h hv => congrArg Host.Outcome.next (h.receive_settled happ ((applyFrame_send h.1).trans (applySend_fills hv)) (.inl rfl))
  · exact fun h hv hfree => congrArg Host.Outcome.next (h.receive_settled happ ((applyFrame_send h.1).trans (applySend_stale hv hfree)) (.inr rfl))
  · exact fun h hv => congrArg Host.Outcome.next (h.receive_busy happ ((applyFrame_send h.1).trans (applySend_busy hv)))
  · exact fun h hv => congrArg Host.Outcome.next (h.receive_settled happ ((applyFrame_send h.1).trans (applySend_refused hv)) (.inr rfl))
  · exact fun h => congrArg Host.Outcome.next (h.receive_part happ (by decide))
  · exact fun h => congrArg Host.Outcome.next (h.receive_part happ (by decide))
  · exact fun h => congrArg Host.Outcome.next (h.receive_part happ (by decide))
  · exact fun h => congrArg Host.Outcome.next (h.receive_part happ (by decide))
  · exact fun fs u h hwhole =>
      ⟨fun hland => congrArg Host.Outcome.next (h.receive_settled happ ((applyFrame_row h.1).trans (applyRow_landed hwhole hland)) (.inl rfl)),
        fun r hland => congrArg Host.Outcome.next (h.receive_settled happ ((applyFrame_row h.1).trans (applyRow_refused hwhole hland)) (.inr rfl))⟩
  · exact fun front h hwhole hfront =>
      congrArg Host.Outcome.next (h.receive_settled happ ((applyFrame_row h.1).trans (applyRow_begins hwhole hfront)) (.inl rfl))
  · exact fun s g o hnone => exec_landingGrant_none hnone
  · exact fun s s2 g o c hc hg => (exec_landingGrant hc).trans (congrArg _ (landingGrant_bad hg))
  · exact fun s s2 g o c grp q hc hg hq hmiss => (exec_landingGrant hc).trans (congrArg _ (landingGrant_uncounted hg hq hmiss))
  · exact fun s s1 s2 g o c grp hc hg hall hready hreach => (exec_landingGrant hc).trans (congrArg _ (landingGrant_granted hg hall rfl hready hreach))
  · exact fun s id hnone => exec_combineServe_none hnone
  · exact fun s id q hq hx => (exec_combineServe hq).trans (congrArg _ (combServe_refused hx))
  · exact fun s s1 s2 id q x ds hq hx hown hdone =>
      ⟨fun hneed => (exec_combineServe hq).trans (congrArg _ (combServe_early hx hown hdone hneed)),
        fun ps hneed hrows => (exec_combineServe hq).trans (congrArg _ (combServe_returns hx hown hdone hneed hrows))⟩

end Sys2Proof.Machine
end

section
namespace Sys2Proof.Machine
open Sys2Proof

/-! PROOFS. Acknowledgements, refusals and their timers (O44).

An ACK settles the packets it covers, one after another, and nothing of that moves what the connection has still to send (`Settles`); each timer's row
is one law for each of its outcomes. -/

variable {s t : State} {f : Frame} {id p now rtt : Nat} {x : Pkt} {c : Conn}

/-! ### Nothing to send (R320, R323) -/

theorem sendAgain_idle (h : ∀ x ∈ (conn s id).inflight, x.again = false) : sendAgain s id = s := by
  have hnil : (conn s id).inflight.filter (fun x => x.again) = [] := List.filter_eq_nil_iff.2 fun x hx => by simp [h x hx]
  rw [sendAgain, hnil, List.foldl_nil]

theorem pumpQueue_idle {q : Nat} {one : Bool} (h : (conn s id).outQ = []) : pumpQueue s q one id = s := if_neg (by simp [h])

/-- With no packet that waits, what was handed back alone goes again. -/
theorem pump_of_outQ_nil (h : (conn (sendAgain s id) id).outQ = []) : pump s id = sendAgain s id := by
  rw [pump, pumpQueue_idle h, pumpQueue_idle h, pumpQueue_idle h]

/-! ### A packet settled (R322, R323) -/

theorem shrink_rest : ∃ w h, shrink now rtt p c = { c with cwnd := w, halved := h } := by
  unfold shrink
  split
  · split
    · exact ⟨_, _, rfl⟩
    · exact ⟨_, _, rfl⟩
  · exact ⟨_, _, rfl⟩

theorem grow_rest : ∃ w r, grow now rtt p c = { c with cwnd := w, rose := r } := by
  unfold grow
  split
  · exact ⟨_, _, rfl⟩
  · exact ⟨_, _, rfl⟩

/-- What a connection has still to send, and whether it closes. -/
def Conn.backlog (c : Conn) : List Pkt × List Pkt × Bool := (c.inflight, c.outQ, c.closing)

theorem shrink_backlog : (shrink now rtt p c).backlog = c.backlog := by
  obtain ⟨w, h, hs⟩ := shrink_rest (now := now) (rtt := rtt) (p := p) (c := c)
  rw [hs]
  rfl

theorem grow_backlog : (grow now rtt p c).backlog = c.backlog := by
  obtain ⟨w, r, hg⟩ := grow_rest (now := now) (rtt := rtt) (p := p) (c := c)
  rw [hg]
  rfl

/-- Memory, the objects and what the connection has still to send are as they were. -/
structure Settles (id : Nat) (s t : State) : Prop where
  mem : t.mem = s.mem
  poison : t.poison = s.poison
  dict : t.dict = s.dict
  backlog : (conn t id).backlog = (conn s id).backlog

theorem settlePkt_settles {ece : Bool} : Settles id s (settlePkt s id ece x) := by
  refine ⟨rfl, rfl, rfl, (congrArg Conn.backlog conn_setConn_same).trans ?_⟩
  split
  · exact shrink_backlog
  · exact grow_backlog

theorem settlePkts_settles {ece : Bool} {l : List Pkt} : Settles id s (l.foldl (fun s x => settlePkt s id ece x) s) :=
  List.foldlRecOn (motive := Settles id s) _ _ ⟨rfl, rfl, rfl, rfl⟩ fun t h x _ =>
    have h2 : Settles id t (settlePkt t id ece x) := settlePkt_settles
    ⟨h2.mem.trans h.mem, h2.poison.trans h.poison, h2.dict.trans h.dict, h2.backlog.trans h.backlog⟩

/-! ### ACK (R321 to R323) -/

/-- The packets in flight that an ACK does not cover. -/
def unacked (s : State) (id : Nat) (f : Frame) : List Pkt := (conn s id).inflight.filter (fun x => !ackCovers f x.frame.psn.toNat)

/-- The state in which an ACK's packets have left the window and are settled. -/
def ackSettled (s : State) (id : Nat) (f : Frame) : State :=
  ((conn s id).inflight.filter (fun x => ackCovers f x.frame.psn.toNat)).foldl (fun s x => settlePkt s id f.ece x)
    (setConn s id { conn s id with inflight := unacked s id f })

theorem ackSettled_settles : Settles id (setConn s id { conn s id with inflight := unacked s id f }) (ackSettled s id f) := settlePkts_settles

/-- The packets that an ACK shows missing behind a later one of their plane. -/
def ackMissing (s : State) (id : Nat) (f : Frame) : List Pkt :=
  (unacked s id f).filter (fun x => ((conn s id).inflight.filter (fun x => ackCovers f x.frame.psn.toNat)).any (fun y =>
    decide (y.frame.plane = x.frame.plane) && psnAfter y.frame.psn.toNat x.frame.psn.toNat && decide (x.sent ≤ y.sent)))

theorem transportAck_eq : transportAck s id f = finishClose (pump ((if direct (ackSettled s id f) then [] else ackMissing s id f).foldl
    (fun s x => retransmit (setConn s id (shrink s.time (s.time - x.sent) x.frame.plane.val (conn s id))) id x.frame.psn.toNat)
    (ackSettled s id f)) id) id := rfl

/-- In direct mode nothing is sent again on an ACK's word. -/
theorem transportAck_direct (hd : direct s = true) : transportAck s id f = finishClose (pump (ackSettled s id f) id) id := by
  have hdirect : direct (ackSettled s id f) = true := by
    rw [← hd, direct, direct, objNat, objNat, objBytes, objBytes, ackSettled_settles.dict, setConn_dict]
  rw [transportAck_eq, if_pos hdirect, List.foldl_nil]

/-- With nothing to send, an ACK settles what it covers, and no more. -/
theorem transportAck_settles (hd : direct s = true) (hq : (conn s id).outQ = []) (hclosing : (conn s id).closing = false)
    (hagain : ∀ x ∈ (conn s id).inflight, x.again = false) :
    (conn (transportAck s id f) id).inflight = unacked s id f ∧ SameMemory s (transportAck s id f) := by
  obtain ⟨hmem, hpoison, -, hbacklog⟩ := ackSettled_settles (s := s) (id := id) (f := f)
  rw [conn_setConn_same] at hbacklog
  obtain ⟨hin, hrest⟩ := Prod.mk.inj hbacklog
  obtain ⟨hout, hcl⟩ := Prod.mk.inj hrest
  have hidle : sendAgain (ackSettled s id f) id = ackSettled s id f :=
    sendAgain_idle fun x hx => hagain x (List.mem_of_mem_filter (hin ▸ hx))
  have hopen : finishClose (ackSettled s id f) id = ackSettled s id f := if_neg (by simp [hcl, hclosing])
  rw [transportAck_direct hd, pump_of_outQ_nil (by rw [hidle, hout, hq]), hidle, hopen]
  exact ⟨hin, sameMemory_of_eq hmem hpoison⟩

/-- Packets that belong to no operation move no connection. -/
theorem ownerEvents_none {l : List Nat} (h : ∀ o ∈ l, o = 0) : conn (l.foldl (fun v o => ownerEvent (touchOwner v o) o) s) id = conn s id ∧
    SameMemory s (l.foldl (fun v o => ownerEvent (touchOwner v o) o) s) := by
  refine List.foldlRecOn (motive := fun t : State => conn t id = conn s id ∧ SameMemory s t) _ _ ⟨rfl, fun _ => rfl, rfl⟩ ?_
  rintro t ⟨hconn, hmem⟩ o ho
  rw [h o ho, ownerEvent, if_pos rfl]
  exact ⟨hconn, hmem⟩

/-- The operations whose packets an ACK covers, each once. -/
def ackOwners (s : State) (id : Nat) (f : Frame) : List Nat :=
  (((conn s id).inflight.filter (fun x => ackCovers f x.frame.psn.toNat)).map (fun x => x.owner)).dedup

theorem ackOwners_zero {o : Nat} (h : ∀ x ∈ (conn s id).inflight, x.owner = 0) (ho : o ∈ ackOwners s id f) : o = 0 := by
  obtain ⟨x, hx, rfl⟩ := List.mem_map.1 (List.mem_dedup.1 ho)
  exact h x (List.mem_of_mem_filter hx)

theorem exec_ack (hcls : f.cls = 3) (hop : f.opcode ≠ 0x31) (htake : takeIn s f = (t, true)) (hopen : (conn t f.conn.toNat).open_ = true) :
    exec (.ack f) s = .next ((ackOwners t f.conn.toNat f).foldl (fun v o => ownerEvent (touchOwner v o) o) (transportAck t f.conn.toNat f)) := by
  show execAck f s = _
  have hown : ¬(f.cls ≠ 3 ∨ f.opcode = 0x31) := fun h => h.elim (fun h => h hcls) hop
  simp only [execAck, if_neg hown, htake, hopen, not_true_eq_false, if_false, ackOwners]

theorem exec_ack_foreign (h : f.cls ≠ 3 ∨ f.opcode = 0x31) : exec (.ack f) s = .next s := by
  show execAck f s = _
  rw [execAck, if_pos h]

/-! ### NACK (R325, R327 to R329) -/

/-- The packet in flight that a NACK names. -/
def nackedPkt (s : State) (id : Nat) (f : Frame) : Option Pkt :=
  (conn s id).inflight.find? (fun x => decide (x.frame.psn = f.psn) && decide (x.frame.opcode = f.opcode))

/-- A packet answered with BUSY is put down to be tried again. -/
def busyNoted (s : State) (id : Nat) (f : Frame) : State :=
  { s with fab := { s.fab with
    nextOp := s.fab.nextOp + 1, retries := s.fab.retries ++ [{ id := s.fab.nextOp, conn := id, psn := f.psn.toNat, since := s.time }] } }

/-- The refused packet has left the window and is settled. -/
def nackSettled (s : State) (id : Nat) (f : Frame) (x : Pkt) : State :=
  settlePkt (setConn s id { conn s id with inflight := (conn s id).inflight.filter (fun y => decide (y.frame.psn ≠ f.psn)) }) id false x

theorem exec_nack_foreign (h : f.cls ≠ 4) : exec (.nack f) s = .next s := by
  show execNack f s = _
  rw [execNack, if_pos h]

section
variable (hcls : f.cls = 4) (htake : takeIn s f = (t, true)) (hconn : nackConn t f = some id)
include hcls htake hconn

theorem exec_nack_busy (hx : nackedPkt t id f = some x) (hbusy : f.reason = 0x23) (hnew : ∀ r ∈ t.fab.retries, ¬(r.conn = id ∧ r.psn = f.psn.toNat)) :
    exec (.nack f) s = .next (busyNoted t id f) := by
  have hno : t.fab.retries.any (fun r => decide (r.conn = id) && decide (r.psn = f.psn.toNat)) = false :=
    List.any_eq_false.2 fun r hr => by simpa using hnew r hr
  rw [nackedPkt] at hx
  show execNack f s = _
  simp only [execNack, hcls, htake, hconn, hx, hbusy, hno, ne_eq, not_true_eq_false, Bool.false_eq_true, if_false, if_true, busyNoted]

theorem exec_nack_refused (hx : nackedPkt t id f = some x) (hreason : f.reason ≠ 0x23) :
    exec (.nack f) s = .next (finishClose (pump (nackOwner (nackSettled t id f x) x.owner f.addr.toNat f.reason.toNat) id) id) := by
  rw [nackedPkt] at hx
  show execNack f s = _
  simp only [execNack, hcls, htake, hconn, hx, if_neg hreason, ne_eq, not_true_eq_false, if_false, nackSettled]

theorem exec_nack_covered (hx : nackedPkt t id f = none) : exec (.nack f) s = .next (if f.reason = 0x23 then t else nackNamed t id f) := by
  rw [nackedPkt] at hx
  show execNack f s = _
  simp only [execNack, hcls, htake, hconn, hx, ne_eq, not_true_eq_false, if_false]

end

/-! ### SEND_RETRY and ACK_TIMER (R321, R329) -/

section
variable {r : Retry} (hr : s.fab.retries.find? (fun r => decide (r.id = id)) = some r)
include hr

theorem exec_sendRetry_due (h : r.since + 10000 ≤ s.time) : exec (.sendRetry id) s =
    .next (retransmit { s with fab := { s.fab with retries := s.fab.retries.filter (fun x => decide (x.id ≠ id)) } } r.conn r.psn) := by
  show execSendRetry id s = _
  simp only [execSendRetry, hr, if_neg (Nat.not_lt.2 h)]

theorem exec_sendRetry_early (h : s.time < r.since + 10000) : exec (.sendRetry id) s = .next s := by
  show execSendRetry id s = _
  simp only [execSendRetry, hr, if_pos h]

end

/-- With nothing held and nothing to acknowledge, ACK_TIMER changes nothing. -/
theorem exec_ackTimer_idle {cn : BitVec 16} (hheld : s.fab.held = []) (h : (conn s cn.toNat).open_ = false ∨ (conn s cn.toNat).ackDue = 0) :
    exec (.ackTimer cn) s = .next s := by
  have hidle : ¬((conn s cn.toNat).open_ = true ∧ 0 < (conn s cn.toNat).ackDue) := fun ⟨hopen, hdue⟩ =>
    h.elim (fun h => Bool.false_ne_true (h.symm.trans hopen)) (Nat.ne_of_gt hdue)
  show execAckTimer cn s = _
  rw [execAckTimer, retryHeld_idle hheld, if_neg hidle]

theorem exec_ackTimer_due {cn : BitVec 16} (hopen : (conn (retryHeld s) cn.toNat).open_ = true) (hdue : 0 < (conn (retryHeld s) cn.toNat).ackDue) :
    exec (.ackTimer cn) s = .next (sendAck (retryHeld s) cn.toNat) := by
  show execAckTimer cn s = _
  rw [execAckTimer, if_pos ⟨hopen, hdue⟩]

/-! ### RTO_EXPIRY (R322, R330) -/

/-- The connection after an expiry on a plane: its RTO has doubled, up to 64 times RTO_INIT, and its window may have shrunk. -/
def expiryNoted (s : State) (id p sent : Nat) : State :=
  setConn s id (shrink s.time (s.time - sent) p { conn s id with
    rto := mapSet (conn s id).rto p (min (2 * rtoOf s (conn s id) p) (64 * objNat s oRtoInit))
    expiries := mapSet (conn s id).expiries p (mapGet (conn s id).expiries p 0 + 1) })

theorem expiryNoted_conn {sent : Nat} : mapGet (conn (expiryNoted s id p sent) id).expiries p 0 = mapGet (conn s id).expiries p 0 + 1 ∧
    mapGet (conn (expiryNoted s id p sent) id).rto p 0 = min (2 * rtoOf s (conn s id) p) (64 * objNat s oRtoInit) := by
  rw [expiryNoted, conn_setConn_same]
  obtain ⟨w, h, hs⟩ := shrink_rest (now := s.time) (rtt := s.time - sent) (p := p) (c := { conn s id with
    rto := mapSet (conn s id).rto p (min (2 * rtoOf s (conn s id) p) (64 * objNat s oRtoInit))
    expiries := mapSet (conn s id).expiries p (mapGet (conn s id).expiries p 0 + 1) })
  rw [hs]
  exact ⟨mapGet_mapSet_same _ _ _ _, mapGet_mapSet_same _ _ _ _⟩

section
variable {cn : BitVec 16} {plane : Fin 16} {y : Pkt} (hy : (conn s cn.toNat).inflight.find? (fun y => decide (y.frame.plane = plane)) = some y)
include hy

theorem exec_rtoExpiry_early (h : direct s = true ∨ s.time < y.sent + rtoOf s (conn s cn.toNat) plane.val * 1000) :
    exec (.rtoExpiry cn plane) s = .next s := by
  show execRtoExpiry cn plane s = _
  simp only [execRtoExpiry, hy, if_pos h]

theorem exec_rtoExpiry_due (hd : direct s = false) (h : y.sent + rtoOf s (conn s cn.toNat) plane.val * 1000 ≤ s.time) :
    exec (.rtoExpiry cn plane) s = .next (if mapGet (conn s cn.toNat).expiries plane.val 0 = 7 then
      failPlane (expiryNoted s cn.toNat plane.val y.sent) (conn s cn.toNat).peer plane.val
      else retransmit (expiryNoted s cn.toNat plane.val y.sent) cn.toNat y.frame.psn.toNat) := by
  have hdue : ¬(direct s = true ∨ s.time < y.sent + rtoOf s (conn s cn.toNat) plane.val * 1000) :=
    not_or.2 ⟨by simp [hd], Nat.not_lt.2 h⟩
  show execRtoExpiry cn plane s = _
  simp only [execRtoExpiry, hy, if_neg hdue, Nat.reduceEqDiff, expiryNoted]

end

/-- Settles O44: an ACK settles what it covers, a NACK puts a packet down or ends it, and each timer acts once its time has come. -/
theorem acknowledgementsAndRetries : Obligations.AcknowledgementsAndRetries := by
  refine ⟨?_, ?_, ?_, ?_, ?_, ?_, ?_, ?_, ?_, ?_⟩
  · intro s t f hcls hop htake hopen hclosing hq hd hpkts
    obtain ⟨hin, hmem⟩ := transportAck_settles (f := f) hd hq hclosing fun x hx => (hpkts x hx).2
    obtain ⟨hconn, hsame⟩ := ownerEvents_none (s := transportAck t f.conn.toNat f) (id := f.conn.toNat)
      fun o => ackOwners_zero (s := t) (f := f) fun x hx => (hpkts x hx).1
    exact ⟨_, exec_ack hcls hop htake hopen, (congrArg Conn.inflight hconn).trans hin, hmem.trans hsame⟩
  · exact fun s t f => exec_ack
  · exact fun s f => exec_ack_foreign
  · intro s t f id x hcls htake hconn hx
    refine ⟨fun hbusy hnew => ?_, exec_nack_refused hcls htake hconn hx⟩
    exact ⟨_, _, exec_nack_busy hcls htake hconn hx hbusy hnew, rfl, rfl, rfl, rfl, rfl, fun _ => rfl, rfl⟩
  · exact fun s t f id => exec_nack_covered
  · exact fun s f => exec_nack_foreign
  · exact fun s id r hr => ⟨exec_sendRetry_due hr, exec_sendRetry_early hr⟩
  · exact fun s c => exec_ackTimer_due
  · exact fun s c => exec_ackTimer_idle
  · intro s c p y hy
    obtain ⟨hexp, hrto⟩ := expiryNoted_conn (s := s) (id := c.toNat) (p := p.val) (sent := y.sent)
    exact ⟨exec_rtoExpiry_early hy, fun hd hdue _ => ⟨_, hexp, hrto, ⟨fun _ => rfl, rfl⟩, exec_rtoExpiry_due hy hd hdue⟩⟩

end Sys2Proof.Machine
end

section
namespace Sys2Proof.Machine
open Sys2Proof

/-! PROOFS. Ports and their link layer (O45).

A frame that leaves a port is the one its row names (`putFrame_out`) and moves, of the port's register, the field of the replay buffer alone
(`getF_putFrame_port`); each row has one law for each of its outcomes. -/

variable {s t : State} {f : Frame} {p : Fin 16} {rate : BitVec 2} {nak : Bool} {n : Nat} {body : Bytes}

/-! ### LINK_ACK (R317, R318) -/

/-- A port's register keeps every field but the one that shows its replay buffer when a frame leaves. -/
theorem getF_putFrame_port {g : Fd} (hg : g.ok) (hap : fFabPortReplayHeld.apart g) {q : Nat} :
    getF (putFrame s q f) (rFabPort p) g = getF s (rFabPort p) g := by
  have hcount : getF (bump s (rPortTxFrames q) fPortTxFramesTxFrames 1) (rFabPort p) g = getF s (rFabPort p) g :=
    getF_setF_ne _ _ _ _ _ _ (key_ne_of_off (by dsimp only [rPortTxFrames, rFabPort]; omega))
  unfold putFrame putSealed
  dsimp only
  split
  · exact (getF_setF_port (by decide) hg hap).trans hcount
  · exact hcount

/-- A LINK_ACK takes no link sequence number: its port acknowledges what it owes, and holds nothing more. -/
theorem port_putFrame_linkAck (hd : direct s = true) (hf : isLinkAck f = true) :
    port (putFrame s n f) n = { port s n with owed := (port s n).owed - min 255 (port s n).owed, unacked := 0 } := by
  have hcounted : direct (bump s (rPortTxFrames n) fPortTxFramesTxFrames 1) = true := hd
  rw [isLinkAck] at hf
  simp only [putFrame, putSealed, hcounted, isLinkAck, hf, if_true]
  exact port_setPort_same

/-- The LINK_ACK of a port. -/
def linkAckFrame (s : State) (p : Nat) (nak : Bool) : Frame :=
  { emptyFrame s with cls := 1, opcode := 0x32, reason := if nak then 0x80 else 0, dstPeer := BitVec.ofNat 16 (getF s (rFabPort p) fFabPortNeighbour) }

theorem sendLinkAck_up (hup : portState s n = 2) : sendLinkAck s n nak = putFrame s n (linkAckFrame s n nak) := if_pos hup

theorem sendLinkAck_sent (hd : direct s = true) (hup : portState s p = 2) : ∃ g, (sendLinkAck s p nak).fab.out = s.fab.out ++ [g] ∧ g.opcode = 0x32 ∧
    g.reason = (if nak then 0x80 else 0) ∧ g.plane = p ∧ (port (sendLinkAck s p nak) p).nakSent = (port s p).nakSent ∧
    (port (sendLinkAck s p nak) p).unacked = 0 ∧ SameMemory s (sendLinkAck s p nak) := by
  obtain ⟨l, a, k, hout⟩ := putFrame_out (s := s) (p := p) (f := linkAckFrame s p nak)
  rw [sendLinkAck_up hup, port_putFrame_linkAck hd rfl]
  exact ⟨_, hout, rfl, rfl, Fin.ext (Nat.mod_eq_of_lt p.isLt), rfl, rfl, putFrame_sameMemory⟩

/-! ### FCS_ERROR and LINK_ACK_TIMER (R317, R318) -/

theorem exec_fcsError_switched (hd : direct s = false) : exec (.fcsError p true) s = .next (bump s (rPortFcsErr p) fPortFcsErrFcsErr 1) := by
  have hcounted : direct (bump s (rPortFcsErr p) fPortFcsErrFcsErr 1) = false := hd
  show execFcsError p true s = _
  simp only [execFcsError, if_true, hcounted, Bool.false_eq_true, if_false]

/-- A port's NAK is noted before it leaves. -/
def nakNoted (s : State) (p : Nat) : State := setPort s p { port s p with nakSent := true }

theorem exec_fcsError_nak (hd : direct s = true) (hnew : (port s p).nakSent = false) :
    exec (.fcsError p false) s = .next (sendLinkAck (nakNoted s p) p true) := by
  show execFcsError p false s = _
  simp only [execFcsError, hd, nakLink, hnew, Bool.false_eq_true, if_false, if_true, nakNoted]

theorem exec_fcsError_again (hd : direct s = true) (hsent : (port s p).nakSent = true) : exec (.fcsError p false) s = .next s := by
  show execFcsError p false s = _
  simp only [execFcsError, hd, nakLink, hsent, Bool.false_eq_true, if_false, if_true]

theorem exec_linkAckTimer_due (hd : direct s = true) (h : 0 < (port s p).unacked) : exec (.linkAckTimer p) s = .next (sendLinkAck s p false) := by
  show execLinkAckTimer p s = _
  rw [execLinkAckTimer, if_pos ⟨hd, .inl h⟩]

theorem exec_linkAckTimer_idle (h : direct s = false ∨ ((port s p).unacked = 0 ∧ (port s p).owed = 0)) : exec (.linkAckTimer p) s = .next s := by
  have hidle : ¬(direct s = true ∧ (0 < (port s p).unacked ∨ 0 < (port s p).owed)) := by
    rintro ⟨hd, hdue⟩
    rcases h with h | ⟨hun, how⟩
    · exact Bool.false_ne_true (h.symm.trans hd)
    · omega
  show execLinkAckTimer p s = _
  rw [execLinkAckTimer, if_neg hidle]

/-! ### A LINK_ACK that arrives (R317, R318) -/

theorem exec_linkAck_closed (h : direct s = false ∨ portState s p ≠ 2) : exec (.linkAck p f) s = .next s := by
  show execLinkAck p f s = _
  rw [execLinkAck, if_pos (by simpa using h)]

/-- The state in which the acknowledged frames have left the replay buffer. -/
def linkAcked (s : State) (p : Nat) (f : Frame) : State := freeReplay (bump s (rPortRxFrames p) fPortRxFramesRxFrames 1) p f

theorem exec_linkAck (hd : direct s = true) (hup : portState s p = 2) :
    exec (.linkAck p f) s = .next (pumpAll (if f.reason.getLsbD 7 then replayPort (linkAcked s p f) p else linkAcked s p f)) := by
  show execLinkAck p f s = _
  rw [execLinkAck, if_neg (by simp [hd, hup])]
  rfl

theorem port_linkAcked : (port (linkAcked s n f) n).replay =
      (port s n).replay.filter (fun g => decide (2048 ≤ (f.ackLseq.toNat + 4096 - g.lseq.toNat) % 4096)) ∧
    (port (linkAcked s n f) n).credits = min 4096 ((port s n).credits + f.credits.toNat) := by
  rw [linkAcked, freeReplay, port_setPort_same]
  exact ⟨rfl, rfl⟩

/-! ### PORT_STATE_CHANGE (R312, R317, R330) -/

theorem noteAllDown_rest : ∃ ps, noteAllDown s = { s with fab := { s.fab with peers := ps } } := by
  refine List.foldlRecOn (motive := fun t : State => ∃ ps, t = { s with fab := { s.fab with peers := ps } }) _ _ ⟨s.fab.peers, rfl⟩ ?_
  rintro _ ⟨ps, rfl⟩ q -
  obtain ⟨ps2, h⟩ := noteDown_rest (s := { s with fab := { s.fab with peers := ps } }) (q := q)
  exact ⟨ps2, h⟩

/-- The port's register with a rate and a state. -/
def portMoved (s : State) (p rate st : Nat) : State := setF (setF s (rFabPort p) fFabPortRate rate) (rFabPort p) fFabPortState st

theorem exec_portStateChange_training (hdown : portState s p ≠ 2) : exec (.portStateChange p .training rate) s = .next (noteAllDown (portMoved s p 0 1)) := by
  show execPortStateChange p .training rate s = _
  simp [execPortStateChange, hdown, portMoved]

theorem portMoved_noted : portState (noteAllDown (portMoved s p 0 1)) p = 1 ∧ SameRegsBut [(rFabPort p).key] s (noteAllDown (portMoved s p 0 1)) ∧
    SameMemory s (noteAllDown (portMoved s p 0 1)) := by
  obtain ⟨ps, h⟩ := noteAllDown_rest (s := portMoved s p 0 1)
  rw [h]
  refine ⟨getF_setF_same _ _ _ _ (by decide), fun r hr => ?_, fun _ => rfl, rfl⟩
  have hne : (rFabPort p).key ≠ r.key := fun hk => hr (hk ▸ List.mem_singleton_self _)
  exact (getR_setR_ne _ _ _ _ hne).trans (getR_setR_ne _ _ _ _ hne)

/-- The port that has come UP, with a link that starts anew. -/
def portUp (s : State) (p rate : Nat) : State := setF (freshPort (setF s (rFabPort p) fFabPortRate rate) p) (rFabPort p) fFabPortState 2

/-- In direct mode it says HELLO. -/
def portGreeted (s : State) (p rate : Nat) : State := if direct s then sendHello (portUp s p rate) p else portUp s p rate

/-- A rate that a port may have, and that LANE_RATE allows (R312). -/
def RateAllowed (s : State) (rate : BitVec 2) : Prop := (rate = 1 ∨ rate = 2) ∧ (objNat s oLaneRate = 0 ∨ objNat s oLaneRate = rate.toNat)

theorem exec_portStateChange_up (hdown : portState s p ≠ 2) (hrate : RateAllowed s rate) :
    exec (.portStateChange p .up rate) s = .next (pumpAll (noteAllDown (portGreeted s p rate.toNat))) := by
  obtain ⟨hr, honly⟩ := hrate
  have hcodes : rate ≠ 0 ∧ rate ≠ 3 := by
    rcases hr with rfl | rfl
    · exact ⟨by decide, by decide⟩
    · exact ⟨by decide, by decide⟩
  refine congrArg Host.Outcome.next ((if_neg ?_).trans ((if_pos rfl).trans ((if_neg hdown).trans rfl)))
  rintro ⟨-, h0 | h3 | ⟨hlimit, hother⟩⟩
  · exact hcodes.1 h0
  · exact hcodes.2 h3
  · exact honly.elim hlimit fun h => hother h.symm

theorem exec_portStateChange_rate (h : rate = 0 ∨ rate = 3 ∨ (objNat s oLaneRate ≠ 0 ∧ objNat s oLaneRate ≠ rate.toNat)) :
    exec (.portStateChange p .up rate) s = .next s :=
  congrArg Host.Outcome.next (if_pos ⟨rfl, h.imp_right fun h => h.imp_right fun ⟨hlimit, hother⟩ => ⟨hlimit, hother.symm⟩⟩)

theorem portUp_shows : portState (portUp s p rate.toNat) p = 2 ∧ getF (portUp s p rate.toNat) (rFabPort p) fFabPortRate = rate.toNat := by
  refine ⟨getF_setF_same _ _ _ _ (by decide), ?_⟩
  rw [portUp, getF_setF_apart _ _ _ _ _ (by decide) (by decide) (by decide)]
  exact (getF_setF_port (by decide) (by decide) (by decide)).trans ((getF_setF_same _ _ _ _ (by decide)).trans (Nat.mod_eq_of_lt rate.isLt))

theorem portGreeted_shows : portState (portGreeted s p rate.toNat) p = 2 ∧ getF (portGreeted s p rate.toNat) (rFabPort p) fFabPortRate = rate.toNat ∧
    SameMemory s (portGreeted s p rate.toNat) := by
  obtain ⟨hstate, hrate⟩ := portUp_shows (s := s) (p := p) (rate := rate)
  unfold portGreeted
  split
  · exact ⟨(getF_putFrame_port (by decide) (by decide)).trans hstate, (getF_putFrame_port (by decide) (by decide)).trans hrate, putFrame_sameMemory⟩
  · exact ⟨hstate, hrate, fun _ => rfl, rfl⟩

/-- A port that leaves UP drops its link in its new state. -/
theorem exec_portStateChange_drop (hup : portState s p = 2) :
    exec (.portStateChange p .failed rate) s = .next (noteAllDown (dropLink (setF s (rFabPort p) fFabPortRate 0) p 3)) ∧
    exec (.portStateChange p .down rate) s = .next (noteAllDown (dropLink (setF s (rFabPort p) fFabPortRate 0) p 0)) ∧
    exec (.portStateChange p .training rate) s = .next (noteAllDown (dropLink (setF s (rFabPort p) fFabPortRate 0) p 1)) := by
  refine ⟨?_, ?_, ?_⟩
  · show execPortStateChange p .failed rate s = _
    simp [execPortStateChange, hup]
  · show execPortStateChange p .down rate s = _
    simp [execPortStateChange, hup]
  · show execPortStateChange p .training rate s = _
    simp [execPortStateChange, hup]

/-! ### HELLO and PROBE (R317, R330) -/

theorem exec_hello_closed (h : portState s f.plane ≠ 2) : exec (.hello f) s = .next s := by
  show execHello f s = _
  simp only [execHello, ne_eq, h, not_false_eq_true, true_or, or_true, if_true]

theorem exec_probe_closed (h : portState s f.plane ≠ 2) : exec (.probe f) s = .next s := by
  show execProbe f s = _
  simp only [execProbe, ne_eq, h, not_false_eq_true, or_true, if_true]

theorem exec_hello (hop : f.opcode = 0x30) (hup : portState s f.plane = 2) (hd : direct s = true) (hlink : linkReceive s f = (t, true)) :
    exec (.hello f) s = .next (pumpAll (noteDown (sawPeer (setF (setB t (rFabPort f.plane) fFabPortNeighbourValid true) (rFabPort f.plane)
      fFabPortNeighbour f.srcPeer.toNat) f.srcPeer.toNat) f.srcPeer.toNat)) := by
  show execHello f s = _
  simp only [execHello, hop, hup, hd, hlink, ne_eq, not_true_eq_false, or_self, if_false]

/-- The answer to a PROBE. -/
def probeAnswer (s : State) (f : Frame) : Frame := { emptyFrame s with cls := 3, opcode := 0x31, dstPeer := f.srcPeer }

section
variable (hop : f.opcode = 0x31) (hup : portState s f.plane = 2)
include hop hup

theorem exec_probe_request (hd : direct s = false) (hcls : f.cls ≠ 3) :
    exec (.probe f) s = .next (putFrame (rxCounted s f) f.plane (probeAnswer (rxCounted s f) f)) := by
  have hroom : ∀ g, portRoom (rxCounted s f) f.plane g = true := fun g => portRoom_switched hd (portState_rxCounted.trans hup)
  show execProbe f s = _
  simp only [execProbe, hop, hup, linkReceive_switched hd, hcls, hroom, ne_eq, not_true_eq_false, or_self, if_false, if_true, probeAnswer]

theorem exec_probe_answer (hcls : f.cls = 3) (hlink : linkReceive s f = (t, true)) :
    exec (.probe f) s = .next (pumpAll (noteDown (setPeer t f.srcPeer.toNat { peerOf t f.srcPeer.toNat with
      state := 1, failed := (peerOf t f.srcPeer.toNat).failed.filter (fun y => decide (y ≠ f.plane.val)) }) f.srcPeer.toNat)) := by
  show execProbe f s = _
  simp only [execProbe, hop, hup, hlink, hcls, ne_eq, not_true_eq_false, or_self, if_false, if_true]

end

section
variable {q : BitVec 16}

/-- The time of a PROBE on a failed plane is noted. -/
def probeNoted (s : State) (q p : Nat) : State := setPeer s q { peerOf s q with probeAt := mapSet (peerOf s q).probeAt p s.time }

/-- The PROBE. -/
def probeFrame (s : State) (q : BitVec 16) : Frame := { emptyFrame s with cls := 1, opcode := 0x31, dstPeer := q }

theorem exec_probeTimer_early (h : s.time < mapGet (peerOf s q.toNat).probeAt p.val 0 + 1000000) : exec (.probeTimer q p) s = .next s := by
  show execProbeTimer q p s = _
  simp [execProbeTimer, Nat.not_le.2 h]

theorem exec_probeTimer_due (hfailed : (peerOf s q.toNat).failed.elem p.val = true) (hup : portState s p = 2) (hd : direct s = false)
    (h : mapGet (peerOf s q.toNat).probeAt p.val 0 + 1000000 ≤ s.time) :
    exec (.probeTimer q p) s = .next (putFrame (probeNoted s q.toNat p) p (probeFrame s q)) := by
  have hroom : ∀ g, portRoom s p g = true := fun g => portRoom_switched hd hup
  show execProbeTimer q p s = _
  rw [execProbeTimer, if_pos ⟨hfailed, hroom _, h⟩]
  rfl

end

/-- Settles O45: each row of the link layer is one law for each of its outcomes, and a frame that leaves is the one it names, on its port's plane. -/
theorem portsAndTheirLinkLayer : Obligations.PortsAndTheirLinkLayer := by
  refine ⟨?_, ?_, ?_, ?_, ?_, ?_, ?_, ?_, ?_, ?_, ?_, ?_, ?_, ?_, ?_⟩
  · exact fun s p hd => ⟨_, exec_fcsError_switched hd, getF_bump_same _ _ _ _ (by decide), sameRegsBut_setR, sameUnits_setR⟩
  · intro s p hd hup hnew
    obtain ⟨g, hout, hop, hreason, hplane, hsent, -, hmem⟩ := sendLinkAck_sent (s := nakNoted s p) (nak := true) hd (portState_setPort.trans hup)
    exact ⟨_, g, exec_fcsError_nak hd hnew, hout, hop, hreason, hplane, hsent.trans (congrArg Port.nakSent port_setPort_same), hmem⟩
  · exact fun s p => exec_fcsError_again
  · intro s p hd hup hdue
    obtain ⟨g, hout, hop, hreason, -, -, hunacked, hmem⟩ := sendLinkAck_sent (nak := false) hd hup
    exact ⟨_, g, exec_linkAckTimer_due hd hdue, hout, hop, hreason, hunacked, hmem⟩
  · exact fun s p => exec_linkAckTimer_idle
  · exact fun s p f => exec_linkAck_closed
  · intro s p f hd hup
    obtain ⟨hreplay, hcredits⟩ := port_linkAcked (s := s) (n := p) (f := f)
    exact ⟨_, hreplay, hcredits, ⟨fun _ => rfl, rfl⟩, exec_linkAck hd hup⟩
  · intro s p r hdown
    obtain ⟨hstate, hrate, hmem⟩ := portGreeted_shows (s := s) (p := p) (rate := r)
    exact ⟨⟨_, exec_portStateChange_training hdown, portMoved_noted⟩,
      fun hr honly => ⟨_, exec_portStateChange_up hdown ⟨hr, honly⟩, hstate, hrate, hmem⟩⟩
  · exact fun s p r => exec_portStateChange_rate
  · intro s p r hup
    exact ⟨setF s (rFabPort p) fFabPortRate 0, rfl, getF_setF_same _ _ _ _ (by decide), ⟨fun _ => rfl, rfl⟩, exec_portStateChange_drop hup⟩
  · exact fun s f hup => ⟨exec_hello_closed hup, exec_probe_closed hup⟩
  · exact fun s t f => exec_hello
  · intro s f hop hup hd hcls
    obtain ⟨l, a, k, hout⟩ := putFrame_out (s := rxCounted s f) (p := f.plane) (f := probeAnswer (rxCounted s f) f)
    exact ⟨_, _, exec_probe_request hop hup hd hcls, hout, rfl, rfl, Fin.ext (Nat.mod_eq_of_lt f.plane.isLt), rfl, putFrame_sameMemory⟩
  · exact fun s t f => exec_probe_answer
  · intro s q p hfailed hup hd
    refine ⟨fun hdue => ?_, exec_probeTimer_early⟩
    obtain ⟨l, a, k, hout⟩ := putFrame_out (s := probeNoted s q.toNat p) (p := p) (f := probeFrame s q)
    refine ⟨_, _, exec_probeTimer_due hfailed hup hd hdue, hout, rfl, rfl, ?_, putFrame_sameMemory⟩
    rw [peerOf, putFrame_peers, ← peerOf, probeNoted, peerOf_setPeer_same]
    exact mapGet_mapSet_same _ _ _ _

end Sys2Proof.Machine
end

section
namespace Sys2Proof.Machine
open Sys2Proof

/-! PROOFS. Connections open and close; peers and operations time out (O46).

What was handed back may go again when a context has been fetched, which moves the packets in flight alone (`Resends`); an opened connection is its
table entry's, with a window in range (`connInit_opens`). -/

variable {s t s2 : State} {id psn q : Nat} {b : Bytes} {ag : Agent}

/-! ### PEER_UNREACHABLE and COLL_TIMEOUT (R330, R334) -/

section
variable {peer : BitVec 16} {t0 : Nat} (hdown : (peerOf s peer.toNat).downSince = some t0)
include hdown

theorem exec_peerUnreachable_early (h : s.time < t0 + objNat s oUnreachableMs * 1000000) : exec (.peerUnreachable peer) s = .next s := by
  show execPeerUnreachable peer s = _
  simp only [execPeerUnreachable, hdown, h, true_or, if_true]

/-- With no operation and no connection that it ends, the peer counts as unreachable, and no more. -/
theorem exec_peerUnreachable_due (hplanes : (peerPlanes s peer.toNat).isEmpty = true) (hstate : (peerOf s peer.toNat).state ≠ 2)
    (h : t0 + objNat s oUnreachableMs * 1000000 ≤ s.time) (hops : s.fab.ops = []) (hdisps : s.fab.disps = []) (hcombs : s.fab.combs = [])
    (hconns : s.fab.conns = []) : exec (.peerUnreachable peer) s = .next (setPeer s peer.toNat { peerOf s peer.toNat with state := 2 }) := by
  show execPeerUnreachable peer s = _
  simp [execPeerUnreachable, hdown, hplanes, hstate, Nat.not_lt.2 h, setPeer, hops, hdisps, hcombs, hconns]

end

section
variable {o : FabOp} {c : Cmd} (ho : fabOp s id = some o)
include ho

theorem exec_collTimeout_early (h : s.time < o.since + objNat s oCollTimeout * 1000000) : exec (.collTimeout id) s = .next s := by
  show execCollTimeout id s = _
  simp [execCollTimeout, ho, Nat.not_le.2 h]

theorem exec_collTimeout_due (hgroup : o.op ≤ 4) (hcmd : spoolCmd s o.u o.slot = some c) (hphase : c.phase ≠ .ended)
    (h : o.since + objNat s oCollTimeout * 1000000 ≤ s.time) :
    exec (.collTimeout id) s = .next (applyAct s (dropOp s o.id) o.u c (.ends stTimeout o.sent)) := by
  show execCollTimeout id s = _
  simp [execCollTimeout, ho, hgroup, h, failOp, hcmd, hphase]

end

/-! ### CONTEXT_FETCH (R325) -/

/-- Packets of a connection may have been sent again: its packets in flight have moved, and what it else holds is as it was. -/
structure Resends (id : Nat) (s t : State) : Prop where
  mem : t.mem = s.mem
  poison : t.poison = s.poison
  cached : t.fab.cached = s.fab.cached
  conn : ∃ l, conn t id = { conn s id with inflight := l }

namespace Resends

theorem refl : Resends id s s := ⟨rfl, rfl, rfl, _, rfl⟩

theorem trans (h : Resends id s t) (h2 : Resends id t s2) : Resends id s s2 := by
  obtain ⟨l, hl⟩ := h.conn
  obtain ⟨l2, hl2⟩ := h2.conn
  exact ⟨h2.mem.trans h.mem, h2.poison.trans h.poison, h2.cached.trans h.cached, l2, by rw [hl2, hl]⟩

theorem retransmit : Resends id s (retransmit s id psn) := by
  obtain h | ⟨l, h | ⟨p, g, body, h⟩⟩ := retransmit_cases (s := s) (id := id) (psn := psn)
  · rw [h]
    exact .refl
  · rw [h]
    exact ⟨rfl, rfl, rfl, l, conn_setConn_same⟩
  · obtain ⟨_, _, _, _, _, _, hput⟩ :=
      putSealed_rest (s := bump (setConn s id { Machine.conn s id with inflight := l }) rRetx fRetx 1) (p := p) (f := g) (body := body)
    rw [h, hput]
    exact ⟨rfl, rfl, rfl, l, conn_setConn_same⟩

theorem sendAgain : Resends id s (sendAgain s id) :=
  List.foldlRecOn (motive := Resends id s) _ _ .refl fun _ ht _ _ => ht.trans .retransmit

end Resends

/-- The context cached as the one used last. -/
def ctxCached (s : State) (id : Nat) : State := { s with fab := { s.fab with cached := id :: s.fab.cached.filter (fun x => decide (x ≠ id)) } }

theorem cacheCtx_room (h : s.fab.cached.length < 8192) : cacheCtx s id = some (ctxCached s id) :=
  if_pos (Nat.lt_of_le_of_lt (List.length_filter_le _ _) h)

/-- The fetched context stands in the cache, and the connection waits for it no more. -/
def ctxFetched (s : State) (id : Nat) : State := setConn (ctxCached s id) id { conn s id with fetching := false, waiting := [] }

section
variable {c : BitVec 16}

theorem exec_contextFetch_idle (h : (conn s c.toNat).fetching = false) : exec (.contextFetch c) s = .next s := by
  show execContextFetch c s = _
  simp only [execContextFetch, h, Bool.false_eq_true, not_false_eq_true, if_true]

theorem exec_contextFetch (h : (conn s c.toNat).fetching = true) (hroom : s.fab.cached.length < 8192) (hwait : (conn s c.toNat).waiting = []) :
    exec (.contextFetch c) s = .next (pump (ctxFetched s c.toNat) c.toNat) := by
  have hsame : conn (ctxCached s c.toNat) c.toNat = conn s c.toNat := rfl
  show execContextFetch c s = _
  simp only [execContextFetch, h, cacheCtx_room hroom, hsame, hwait, not_true_eq_false, if_false, List.foldl_nil, ctxFetched]

end

/-- With no packet that waits, the connection goes on with what was handed back. -/
theorem ctxFetched_pumped (hq : (conn s id).outQ = []) : (pump (ctxFetched s id) id).fab.cached.elem id = true ∧
    (conn (pump (ctxFetched s id) id) id).fetching = false ∧ SameMemory s (pump (ctxFetched s id) id) := by
  obtain ⟨hmem, hpoison, hcached, l, hconn⟩ : Resends id (ctxFetched s id) (sendAgain (ctxFetched s id) id) := .sendAgain
  have hbase : conn (ctxFetched s id) id = { conn s id with fetching := false, waiting := [] } := conn_setConn_same
  rw [hbase] at hconn
  rw [pump_of_outQ_nil (by rw [hconn]; exact hq), hconn, hcached]
  exact ⟨List.elem_eq_true_of_mem (List.mem_cons_self ..), rfl, sameMemory_of_eq hmem hpoison⟩

/-! ### CONN_INIT (R324, R325) -/

/-- The entry of a connection in the connection table. -/
def connEntry (s : State) (id : Nat) : Nat := getF s rConnTable fConnTableBase * 4096 + 128 * id

/-- A window is taken as it stands where it is in range; else a free one of the range is drawn (log 25). -/
theorem windowOf_cases : ∃ s1 w, windowOf s b = (s1, w) ∧ (∃ k, s1 = { s with freeCtr := k }) ∧
    6 ≤ w ∧ w ≤ 20 ∧ (6 ≤ u8At b 14 → u8At b 14 ≤ 20 → w = u8At b 14) := by
  unfold windowOf
  dsimp only
  split
  · next h => exact ⟨_, _, rfl, ⟨_, rfl⟩, h.1, h.2, fun _ _ => rfl⟩
  · next h =>
    refine ⟨_, _, rfl, ⟨_, rfl⟩, Nat.le_add_right _ _, ?_, fun hlo hhi => absurd ⟨hlo, hhi⟩ h⟩
    have hlt := Nat.mod_lt (Config.freeWord s.freeCtr).toNat (show 0 < 15 by decide)
    simp only [drawFree]
    omega

theorem connInit_unplaced (h : spanRegion s (connEntry s id) 128 ≠ some .bulk) : connInit s id = setB s rConnStatus fConnStatusRefused true := if_pos h

/-- The state with a connection opened, its context not cached yet. -/
def connOpened (s : State) (id : Nat) (x : Conn) : State :=
  { setConn s id x with fab := { (setConn s id x).fab with cached := s.fab.cached.filter (fun y => decide (y ≠ id)) } }

section
variable (hplace : spanRegion s (connEntry s id) 128 = some .bulk)
include hplace

theorem connInit_refused (h : mpaPoisoned s (connEntry s id) 32 = true ∨
      ((connOf (hubView s (connEntry s id) 32)).pin = true ∧ 1024 ≤ otherPins s id)) :
    connInit s id = setB (hubTouch s (connEntry s id) 32) rConnStatus fConnStatusRefused true :=
  (if_neg (not_not.2 hplace)).trans (if_pos h)

/-- An entry in use, without PIN, opens its connection with a window in range. -/
theorem connInit_opens (hp : mpaPoisoned s (connEntry s id) 32 = false) (hb : hubView s (connEntry s id) 32 = b) (hopen : (connOf b).open_ = true)
    (hpin : (connOf b).pin = false) : ∃ s1 w, connInit s id =
        advance (noteDown (connOpened s1 id { connOf b with winLog2 := w }) (connOf b).peer) rConnStatus fConnStatusDone 1 ∧
      (∃ k, s1 = { hubTouch s (connEntry s id) 32 with freeCtr := k }) ∧
      6 ≤ w ∧ w ≤ 20 ∧ (6 ≤ u8At b 14 → u8At b 14 ≤ 20 → w = u8At b 14) := by
  obtain ⟨s1, w, hw, hrange⟩ := windowOf_cases (s := hubTouch s (connEntry s id) 32) (b := b)
  have hgo : ¬(mpaPoisoned s (connEntry s id) 32 = true ∨ ((connOf (hubView s (connEntry s id) 32)).pin = true ∧ 1024 ≤ otherPins s id)) := by
    simp [hp, hb, hpin]
  have hfetched : ¬((connOf b).open_ && (connOf b).pin) = true := by simp [hpin]
  refine ⟨s1, w, (if_neg (not_not.2 hplace)).trans ((if_neg hgo).trans ?_), hrange⟩
  rw [connEntry] at hb hw
  simp only [hb, hw, if_pos hopen, if_neg hfetched]
  rfl

end

/-- What an opened connection leaves: its record, the memory, and every register but the one that counts owners' lines (R272). -/
theorem noteDown_connOpened {s1 : State} {k a n : Nat} {x : Conn} (hs1 : s1 = { hubTouch s a n with freeCtr := k }) :
    conn (noteDown (connOpened s1 id x) q) id = x ∧ SameRegsBut [rOwnerSupply.key] s (noteDown (connOpened s1 id x) q) ∧
    SameMemory s (noteDown (connOpened s1 id x) q) := by
  obtain ⟨ps, hdown⟩ := noteDown_rest (s := connOpened s1 id x) (q := q)
  obtain ⟨h, htouch⟩ := restartAges_rest (s := bump s rOwnerSupply fOwnerSupply (ownedLines s a n)) (a := a) (n := n)
  rw [hdown, hs1, hubTouch, htouch]
  exact ⟨mapGet_mapSet_same _ _ _ _, sameRegsBut_setR, fun _ => rfl, rfl⟩

/-! ### CONN_CLOSE (R324) -/

/-- The connection closes: it is BUSY until nothing of it is outstanding. -/
def closeBegun (s : State) (id : Nat) : State := setB (setConn s id { conn s id with closing := true }) rConnStatus fConnStatusBusy true

theorem conn_closeBegun : conn (closeBegun s id) id = { conn s id with closing := true } := conn_setConn_same

/-- With packets in flight the close waits for them. -/
theorem finishClose_waits (h : (conn s id).inflight ≠ []) : finishClose (closeBegun s id) id = closeBegun s id :=
  if_neg (by simp [conn_closeBegun, h])

/-- With nothing outstanding it ends at once. -/
theorem finishClose_ends (hin : (conn s id).inflight = []) (hq : (conn s id).outQ = []) :
    conn (finishClose (closeBegun s id) id) id = {} ∧
    getF (finishClose (closeBegun s id) id) rConnStatus fConnStatusDone = (getF s rConnStatus fConnStatusDone + 1) % 2 ^ fConnStatusDone.width ∧
    SameMemory s (finishClose (closeBegun s id) id) := by
  have hdone : ((conn (closeBegun s id) id).closing && (conn (closeBegun s id) id).inflight.isEmpty && (conn (closeBegun s id) id).outQ.isEmpty) = true := by
    simp [conn_closeBegun, hin, hq]
  rw [finishClose, if_pos hdone]
  refine ⟨mapGet_mapSet_same _ _ _ _, ?_, fun _ => rfl, rfl⟩
  rw [getF_advance_same _ _ _ _ (by decide), setB, getF_setF_apart _ _ _ _ _ (by decide) (by decide) (by decide)]
  have hbegun : getF (closeBegun s id) rConnStatus fConnStatusDone = getF s rConnStatus fConnStatusDone :=
    getF_setF_apart _ _ _ _ _ (by decide) (by decide) (by decide)
  exact congrArg (fun n => (n + 1) % 2 ^ fConnStatusDone.width) hbegun

/-- A register row of the connection table from a requester with the right to it. -/
theorem exec_connInit {c : BitVec 16} (hr : regRight s ag rConnCtl.key = true) : exec (.connInit ag c) s = .next (connInit s c.toNat) :=
  congrArg Host.Outcome.next (guarded_right s ag _ _ hr)

theorem exec_connClose {c : BitVec 16} (hr : regRight s ag rConnCtl.key = true) :
    exec (.connClose ag c) s = .next (finishClose (closeBegun s c.toNat) c.toNat) :=
  congrArg Host.Outcome.next (guarded_right s ag _ _ hr)

/-- Settles O46: each timer acts once its time has come, and a connection opens from its entry and closes once nothing of it is outstanding. -/
theorem connectionsOpenCloseAndTimeOut : Obligations.ConnectionsOpenCloseAndTimeOut := by
  refine ⟨?_, ?_, ?_, ?_, ?_, ?_⟩
  · exact fun s q t0 hdown hplanes hstate => ⟨exec_peerUnreachable_due hdown hplanes hstate, exec_peerUnreachable_early hdown⟩
  · exact fun s id o c ho hgroup hcmd hphase => ⟨exec_collTimeout_due ho hgroup hcmd hphase, exec_collTimeout_early ho⟩
  · exact fun s c => exec_contextFetch_idle
  · exact fun s c hfetch hroom hwait hq => ⟨_, exec_contextFetch hfetch hroom hwait, ctxFetched_pumped hq⟩
  · intro s ag c hr
    refine ⟨fun hplace => ?_, fun hplace href => ?_, fun hplace hp hopen hpin => ?_⟩
    · exact (exec_connInit hr).trans (congrArg _ (connInit_unplaced hplace))
    · exact (exec_connInit hr).trans (congrArg _ (connInit_refused hplace href))
    · obtain ⟨s1, w, hinit, ⟨k, hs1⟩, hlo, hhi, hrange⟩ := connInit_opens hplace hp rfl hopen hpin
      obtain ⟨hconn, hregs, hmem⟩ := noteDown_connOpened (id := c.toNat) hs1
      refine ⟨_, w, (exec_connInit hr).trans (congrArg _ hinit), hconn, hlo, hhi, fun h6 h20 => hconn.trans ?_, ?_, fun r hreg => ?_, hmem⟩
      · rw [hrange h6 h20]
        rfl
      · rw [getF_advance_same _ _ _ _ (by decide), getF, hregs rConnStatus (by decide)]
        rfl
      · obtain ⟨hstatus, hsupply⟩ := not_or.1 (List.mem_pair.not.1 hreg)
        exact (getR_setR_ne _ _ _ _ (Ne.symm hstatus)).trans (hregs r (by simpa using hsupply))
  · intro s ag c hr
    refine ⟨fun hin hq => ⟨_, exec_connClose hr, finishClose_ends hin hq⟩, fun hin => ⟨_, exec_connClose hr, ?_⟩⟩
    rw [finishClose_waits hin]
    exact ⟨congrArg Conn.closing conn_closeBegun, getF_setF_same _ _ _ _ (by decide), fun _ => rfl, rfl⟩

end Sys2Proof.Machine
end
